-- ==== Sys2Proof/Word.lean ====
section
/-! DEFINITION. The word types of the Isavy IX64 (R10, R11, R16): plain names for bit vectors of the widths the
spec uses, and nothing that computes. -/
namespace Sys2Proof

/-- One byte of memory, of a descriptor or of a record. -/
abbrev Byte := BitVec 8
/-- A register of 32 bits (R11). -/
abbrev Word := BitVec 32
/-- A 64-bit quantity: timestamps, serve numbers, identifiers (R16, R37). -/
abbrev Word64 := BitVec 64
/-- The bits of an FP32 value (R39). -/
abbrev F32 := BitVec 32
/-- A 32-byte completion, event or log entry. -/
abbrev Rec32 := BitVec 256
/-- A 64-byte descriptor or engine command (R16). -/
abbrev Desc := BitVec 512

end Sys2Proof
end

