-- ==== Sys2Proof/Machine/Fields.lean ====
section
/-! DEFINITION. Bit fields of registers, descriptors and records (R10: little-endian everywhere; R9: bit ranges
written [hi:lo]), bytes of little-endian words, and the 64-bit mixing function of R61. -/
namespace Sys2Proof.Machine
open Sys2Proof

/-- Bits [lo + w - 1 : lo] of a number. -/
def bitsOf (v lo w : Nat) : Nat := (v >>> lo) % 2 ^ w

/-- Field [lo + w - 1 : lo] of a layout's byte offset `off`, counted little-endian (R10). -/
def fld {n : Nat} (c : BitVec n) (off lo w : Nat) : Nat := bitsOf c.toNat (8 * off + lo) w

/-- Bit `i` of a number. -/
def bitAt (v i : Nat) : Bool := v.testBit i

/-- `v` with its bits [lo + w - 1 : lo] replaced by `x`. -/
def setBits (v lo w x : Nat) : Nat :=
  (v >>> (lo + w)) <<< (lo + w) + ((x % 2 ^ w) <<< lo) + v % 2 ^ lo

/-- A register word with its bits [lo + w - 1 : lo] replaced by `x`. -/
def wordPut (v : Word) (lo w x : Nat) : Word := BitVec.ofNat 32 (setBits v.toNat lo w x)

/-- Field [lo + w - 1 : lo] of a register word. -/
def wordFld (v : Word) (lo w : Nat) : Nat := bitsOf v.toNat lo w

/-- One field of a layout: byte offset, lowest bit, width, value. -/
abbrev LayoutField := Nat × Nat × Nat × Nat

/-- A record of `n` bits built from the fields of its layout; every bit no field names is zero. -/
def layout (n : Nat) (fs : List LayoutField) : BitVec n :=
  BitVec.ofNat n (fs.foldl (fun acc f => acc ||| ((f.2.2.2 % 2 ^ f.2.2.1) <<< (8 * f.1 + f.2.1))) 0)

/-- The `n` low bytes of a number, lowest first (R10). -/
def bytesOf : Nat → Nat → List Byte
  | 0, _ => []
  | n + 1, v => BitVec.ofNat 8 v :: bytesOf n (v / 256)

/-- The number a list of bytes spells, lowest byte first (R10). -/
def ofBytes : List Byte → Nat
  | [] => 0
  | b :: bs => b.toNat + 256 * ofBytes bs

/-- A number below 2^n of an n-bit field read as two's complement (R40). -/
def signed (n v : Nat) : Int := if v < 2 ^ (n - 1) then (v : Int) else (v : Int) - (2 ^ n : Nat)

/-- Addition that wraps at 2^48 (the counters of R78, R590). -/
def wrap48 (v : Nat) : Nat := v % 2 ^ 48
/-- Addition that wraps at 2^32. -/
def wrap32 (v : Nat) : Nat := v % 2 ^ 32
/-- Addition that wraps at 2^64. -/
def wrap64 (v : Nat) : Nat := v % 2 ^ 64

/-- The ceiling of a quotient. -/
def ceilDiv (a b : Nat) : Nat := (a + b - 1) / b

/-- mix64 of R61, also the hash of R229 and R236. -/
def mix64 (x0 : Nat) : Nat :=
  let x := wrap64 x0
  let x := x ^^^ (x >>> 30)
  let x := wrap64 (x * 0xBF58476D1CE4E5B9)
  let x := x ^^^ (x >>> 27)
  let x := wrap64 (x * 0x94D049BB133111EB)
  x ^^^ (x >>> 31)

end Sys2Proof.Machine
end

