-- ==== Sys2Proof/Machine/Hash.lean ====
section
/-! DEFINITION. The hash functions that the rules name, over byte strings: SHA-256, SHA-384 and SHA-512 as FIPS 180-4
defines them, HMAC (RFC 2104), HKDF (RFC 5869), MGF1 (RFC 8017), and SHA-3 and SHAKE (FIPS 202), which ML-KEM uses. The
algorithms are those of the named standards (assumption 7). -/
namespace Sys2Proof.Machine
open Sys2Proof

/-! Bytes in the order of the standards. -/

/-- The `n` low bytes of a number, highest first. -/
def beBytes (n v : Nat) : List Byte := (bytesOf n v).reverse
/-- The number that bytes spell, highest first. -/
def beNum (bs : List Byte) : Nat := ofBytes bs.reverse
/-- The first `k` pieces of `n` bytes of a byte string. -/
def pieces (n : Nat) : Nat → List Byte → List (List Byte)
  | 0, _ => []
  | k + 1, bs => bs.take n :: pieces n k (bs.drop n)
/-- Two byte strings added bit by bit without carry. -/
def xorBytes (a b : List Byte) : List Byte := List.zipWith (· ^^^ ·) a b
/-- A word of `w` bits rotated right. -/
def rotr (w x n : Nat) : Nat := ((x >>> n) ||| (x <<< (w - n))) % 2 ^ w

/-! SHA-2 (FIPS 180-4). -/

/-- What tells SHA-256 from SHA-384 and SHA-512: the width of a word, the round constants, and the amounts of the sums and of the
schedule functions, the last amount of the latter being a shift. -/
structure Sha2 where
  width : Nat
  consts : List Nat
  sum0 : Nat × Nat × Nat
  sum1 : Nat × Nat × Nat
  sigma0 : Nat × Nat × Nat
  sigma1 : Nat × Nat × Nat

/-- The round constants of SHA-256. -/
def sha256Consts : List Nat :=
   [0x428A2F98, 0x71374491, 0xB5C0FBCF, 0xE9B5DBA5, 0x3956C25B, 0x59F111F1, 0x923F82A4, 0xAB1C5ED5] ++
   [0xD807AA98, 0x12835B01, 0x243185BE, 0x550C7DC3, 0x72BE5D74, 0x80DEB1FE, 0x9BDC06A7, 0xC19BF174] ++
   [0xE49B69C1, 0xEFBE4786, 0x0FC19DC6, 0x240CA1CC, 0x2DE92C6F, 0x4A7484AA, 0x5CB0A9DC, 0x76F988DA] ++
   [0x983E5152, 0xA831C66D, 0xB00327C8, 0xBF597FC7, 0xC6E00BF3, 0xD5A79147, 0x06CA6351, 0x14292967] ++
   [0x27B70A85, 0x2E1B2138, 0x4D2C6DFC, 0x53380D13, 0x650A7354, 0x766A0ABB, 0x81C2C92E, 0x92722C85] ++
   [0xA2BFE8A1, 0xA81A664B, 0xC24B8B70, 0xC76C51A3, 0xD192E819, 0xD6990624, 0xF40E3585, 0x106AA070] ++
   [0x19A4C116, 0x1E376C08, 0x2748774C, 0x34B0BCB5, 0x391C0CB3, 0x4ED8AA4A, 0x5B9CCA4F, 0x682E6FF3] ++
   [0x748F82EE, 0x78A5636F, 0x84C87814, 0x8CC70208, 0x90BEFFFA, 0xA4506CEB, 0xBEF9A3F7, 0xC67178F2]

/-- The round constants of SHA-384 and SHA-512. -/
def sha512Consts : List Nat :=
   [0x428A2F98D728AE22, 0x7137449123EF65CD, 0xB5C0FBCFEC4D3B2F, 0xE9B5DBA58189DBBC] ++
   [0x3956C25BF348B538, 0x59F111F1B605D019, 0x923F82A4AF194F9B, 0xAB1C5ED5DA6D8118] ++
   [0xD807AA98A3030242, 0x12835B0145706FBE, 0x243185BE4EE4B28C, 0x550C7DC3D5FFB4E2] ++
   [0x72BE5D74F27B896F, 0x80DEB1FE3B1696B1, 0x9BDC06A725C71235, 0xC19BF174CF692694] ++
   [0xE49B69C19EF14AD2, 0xEFBE4786384F25E3, 0x0FC19DC68B8CD5B5, 0x240CA1CC77AC9C65] ++
   [0x2DE92C6F592B0275, 0x4A7484AA6EA6E483, 0x5CB0A9DCBD41FBD4, 0x76F988DA831153B5] ++
   [0x983E5152EE66DFAB, 0xA831C66D2DB43210, 0xB00327C898FB213F, 0xBF597FC7BEEF0EE4] ++
   [0xC6E00BF33DA88FC2, 0xD5A79147930AA725, 0x06CA6351E003826F, 0x142929670A0E6E70] ++
   [0x27B70A8546D22FFC, 0x2E1B21385C26C926, 0x4D2C6DFC5AC42AED, 0x53380D139D95B3DF] ++
   [0x650A73548BAF63DE, 0x766A0ABB3C77B2A8, 0x81C2C92E47EDAEE6, 0x92722C851482353B] ++
   [0xA2BFE8A14CF10364, 0xA81A664BBC423001, 0xC24B8B70D0F89791, 0xC76C51A30654BE30] ++
   [0xD192E819D6EF5218, 0xD69906245565A910, 0xF40E35855771202A, 0x106AA07032BBD1B8] ++
   [0x19A4C116B8D2D0C8, 0x1E376C085141AB53, 0x2748774CDF8EEB99, 0x34B0BCB5E19B48A8] ++
   [0x391C0CB3C5C95A63, 0x4ED8AA4AE3418ACB, 0x5B9CCA4F7763E373, 0x682E6FF3D6B2B8A3] ++
   [0x748F82EE5DEFB2FC, 0x78A5636F43172F60, 0x84C87814A1F0AB72, 0x8CC702081A6439EC] ++
   [0x90BEFFFA23631E28, 0xA4506CEBDE82BDE9, 0xBEF9A3F7B2C67915, 0xC67178F2E372532B] ++
   [0xCA273ECEEA26619C, 0xD186B8C721C0C207, 0xEADA7DD6CDE0EB1E, 0xF57D4F7FEE6ED178] ++
   [0x06F067AA72176FBA, 0x0A637DC5A2C898A6, 0x113F9804BEF90DAE, 0x1B710B35131C471B] ++
   [0x28DB77F523047D84, 0x32CAAB7B40C72493, 0x3C9EBE0A15C9BEBC, 0x431D67C49C100D4C] ++
   [0x4CC5D4BECB3E42B6, 0x597F299CFC657E2A, 0x5FCB6FAB3AD6FAEC, 0x6C44198C4A475817]

/-- SHA-256. -/
def sha2Of32 : Sha2 := ⟨32, sha256Consts, (2, 13, 22), (6, 11, 25), (7, 18, 3), (17, 19, 10)⟩
/-- SHA-384 and SHA-512. -/
def sha2Of64 : Sha2 := ⟨64, sha512Consts, (28, 34, 39), (14, 18, 41), (1, 8, 7), (19, 61, 6)⟩

/-- A sum of three rotations. -/
def Sha2.sum (p : Sha2) (a : Nat × Nat × Nat) (x : Nat) : Nat := rotr p.width x a.1 ^^^ rotr p.width x a.2.1 ^^^ rotr p.width x a.2.2
/-- Two rotations and a shift. -/
def Sha2.sigma (p : Sha2) (a : Nat × Nat × Nat) (x : Nat) : Nat := rotr p.width x a.1 ^^^ rotr p.width x a.2.1 ^^^ (x >>> a.2.2)

/-- One round on the eight working variables and the next 16 words of the schedule. -/
def Sha2.round (p : Sha2) (st : List Nat × List Nat) (k : Nat) : List Nat × List Nat :=
  match st.1 with
  | [a, b, c, d, e, f, g, h] =>
    let w (i : Nat) : Nat := st.2.getD i 0
    let cut (x : Nat) : Nat := x % 2 ^ p.width
    let choice := (e &&& f) ^^^ ((e ^^^ (2 ^ p.width - 1)) &&& g)
    let major := (a &&& b) ^^^ (a &&& c) ^^^ (b &&& c)
    let t1 := h + p.sum p.sum1 e + choice + k + w 0
    let t2 := p.sum p.sum0 a + major
    let next := p.sigma p.sigma1 (w 14) + w 9 + p.sigma p.sigma0 (w 1) + w 0
    ([cut (t1 + t2), a, b, c, cut (d + t1), e, f, g], st.2.drop 1 ++ [cut next])
  | _ => st

/-- The hash value after one block. -/
def Sha2.block (p : Sha2) (h : List Nat) (b : List Byte) : List Nat :=
  let words := (pieces (p.width / 8) 16 b).map beNum
  List.zipWith (fun x y => (x + y) % 2 ^ p.width) h (p.consts.foldl p.round (h, words)).1

/-- A message padded to whole blocks: a 1 bit, zeros, and its length in bits. -/
def Sha2.pad (p : Sha2) (msg : List Byte) : List Byte :=
  let block := 2 * p.width
  let used := (msg.length + 1 + p.width / 4) % block
  msg ++ 0x80 :: List.replicate ((block - used) % block) 0 ++ beBytes (p.width / 4) (8 * msg.length)

/-- The hash of a message from an initial hash value, cut to `n` bytes. -/
def Sha2.hash (p : Sha2) (iv : List Nat) (n : Nat) (msg : List Byte) : List Byte :=
  let m := p.pad msg
  let h := (pieces (2 * p.width) (m.length / (2 * p.width)) m).foldl p.block iv
  (h.flatMap (beBytes (p.width / 8))).take n

/-- SHA-256. -/
@[irreducible] def sha256Bytes (msg : List Byte) : List Byte :=
  sha2Of32.hash (
    [0x6A09E667, 0xBB67AE85, 0x3C6EF372, 0xA54FF53A, 0x510E527F, 0x9B05688C, 0x1F83D9AB, 0x5BE0CD19]) 32 msg

/-- SHA-384. -/
@[irreducible] def sha384Bytes (msg : List Byte) : List Byte :=
  sha2Of64.hash (
    [0xCBBB9D5DC1059ED8, 0x629A292A367CD507, 0x9159015A3070DD17, 0x152FECD8F70E5939] ++
    [0x67332667FFC00B31, 0x8EB44A8768581511, 0xDB0C2E0D64F98FA7, 0x47B5481DBEFA4FA4]) 48 msg

/-- SHA-512. -/
@[irreducible] def sha512Bytes (msg : List Byte) : List Byte :=
  sha2Of64.hash (
    [0x6A09E667F3BCC908, 0xBB67AE8584CAA73B, 0x3C6EF372FE94F82B, 0xA54FF53A5F1D36F1] ++
    [0x510E527FADE682D1, 0x9B05688C2B3E6C1F, 0x1F83D9ABFB41BD6B, 0x5BE0CD19137E2179]) 64 msg

/-- SHA-384 of a byte string, its first byte lowest (R194, R197, R520, R525). -/
def sha384 (msg : List Byte) : BitVec 384 := BitVec.ofNat 384 (ofBytes (sha384Bytes msg))

/-! Keyed hashes and key derivation. -/

/-- HMAC of a hash with blocks of `block` bytes (RFC 2104). -/
def hmac (hash : List Byte → List Byte) (block : Nat) (key msg : List Byte) : List Byte :=
  let key := if block < key.length then hash key else key
  let key := key ++ List.replicate (block - key.length) 0
  hash (key.map (· ^^^ 0x5C) ++ hash (key.map (· ^^^ 0x36) ++ msg))

/-- HMAC-SHA-384 (R521). -/
def hmacSha384 (key msg : List Byte) : List Byte := hmac sha384Bytes 128 key msg
/-- HMAC-SHA-256 (R433). -/
def hmacSha256 (key msg : List Byte) : List Byte := hmac sha256Bytes 64 key msg

/-- HKDF-SHA-384 to at most 48 bytes: salt, input keying material, info, length (RFC 5869; R392, R530). -/
def hkdfSha384 (salt ikm info : List Byte) (n : Nat) : List Byte := (hmacSha384 (hmacSha384 salt ikm) (info ++ [1])).take n

/-- MGF1 of a hash of `h` bytes: `n` bytes from a seed (RFC 8017). -/
def mgf1 (hash : List Byte → List Byte) (h : Nat) (seed : List Byte) (n : Nat) : List Byte :=
  ((List.range ((n + h - 1) / h)).flatMap (fun i => hash (seed ++ beBytes 4 i))).take n

/-! SHA-3 (FIPS 202). -/

/-- The 25 lanes after the theta step. -/
def keccakTheta (a : List Nat) : List Nat :=
  let g (i : Nat) : Nat := a.getD i 0
  let c := (List.range 5).map (fun x => g x ^^^ g (x + 5) ^^^ g (x + 10) ^^^ g (x + 15) ^^^ g (x + 20))
  let d := (List.range 5).map (fun x => c.getD ((x + 4) % 5) 0 ^^^ rotr 64 (c.getD ((x + 1) % 5) 0) 63)
  (List.range 25).map (fun i => g i ^^^ d.getD (i % 5) 0)

/-- The rotation of each lane, x + 5y. -/
def keccakTurns : List Nat := [0, 1, 62, 28, 27, 36, 44, 6, 55, 20, 3, 10, 43, 25, 39, 41, 45, 15, 21, 8, 18, 2, 61, 56, 14]

/-- The 25 lanes after the rho and pi steps. -/
def keccakTurn (a : List Nat) : List Nat :=
  (List.range 25).map (fun i =>
    let j := (i % 5 + 3 * (i / 5)) % 5 + 5 * (i % 5)
    rotr 64 (a.getD j 0) ((64 - keccakTurns.getD j 0) % 64))

/-- The 25 lanes after the chi step. -/
def keccakChi (a : List Nat) : List Nat :=
  (List.range 25).map (fun i =>
    let lane (k : Nat) : Nat := a.getD ((i + k) % 5 + i / 5 * 5) 0
    a.getD i 0 ^^^ ((lane 1 ^^^ (2 ^ 64 - 1)) &&& lane 2))

/-- The constants of the iota step. -/
def keccakConsts : List Nat :=
   [0x0000000000000001, 0x0000000000008082, 0x800000000000808A, 0x8000000080008000] ++
   [0x000000000000808B, 0x0000000080000001, 0x8000000080008081, 0x8000000000008009] ++
   [0x000000000000008A, 0x0000000000000088, 0x0000000080008009, 0x000000008000000A] ++
   [0x000000008000808B, 0x800000000000008B, 0x8000000000008089, 0x8000000000008003] ++
   [0x8000000000008002, 0x8000000000000080, 0x000000000000800A, 0x800000008000000A] ++
   [0x8000000080008081, 0x8000000000008080, 0x0000000080000001, 0x8000000080008008]

/-- Keccak-f[1600]. -/
def keccak (a : List Nat) : List Nat :=
  keccakConsts.foldl (fun a c => let b := keccakChi (keccakTurn (keccakTheta a)); b.set 0 (b.getD 0 0 ^^^ c)) a

/-- A block of `rate` bytes absorbed. -/
def keccakAbsorb (a : List Nat) (b : List Byte) : List Nat :=
  keccak ((List.range 25).map (fun i => a.getD i 0 ^^^ ofBytes ((b.drop (8 * i)).take 8)))

/-- `k` blocks of output. -/
def keccakSqueeze (rate : Nat) : Nat → List Nat → List Byte
  | 0, _ => []
  | k + 1, a => (a.flatMap (bytesOf 8)).take rate ++ keccakSqueeze rate k (keccak a)

/-- The sponge: `n` bytes for a message, with a rate in bytes and a suffix. -/
def sponge (rate suffix : Nat) (msg : List Byte) (n : Nat) : List Byte :=
  let gap := rate - msg.length % rate
  let tail := (List.range gap).map (fun i => BitVec.ofNat 8 ((if i = 0 then suffix else 0) ||| (if i = gap - 1 then 0x80 else 0)))
  let m := msg ++ tail
  let a := (pieces rate (m.length / rate) m).foldl keccakAbsorb (List.replicate 25 0)
  (keccakSqueeze rate ((n + rate - 1) / rate) a).take n

/-- SHA3-256. -/
@[irreducible] def sha3Of256 (msg : List Byte) : List Byte := sponge 136 0x06 msg 32
/-- SHA3-512. -/
@[irreducible] def sha3Of512 (msg : List Byte) : List Byte := sponge 72 0x06 msg 64
/-- SHAKE128. -/
@[irreducible] def shake128 (msg : List Byte) (n : Nat) : List Byte := sponge 168 0x1F msg n
/-- SHAKE256. -/
@[irreducible] def shake256 (msg : List Byte) (n : Nat) : List Byte := sponge 136 0x1F msg n

end Sys2Proof.Machine
end

