-- ==== Sys2Proof/Machine/Aes.lean ====
section
/-! DEFINITION. AES-256 as FIPS 197 defines it, and the modes that the rules name: GCM (NIST SP 800-38D), key wrap (NIST
SP 800-38F) and XTS (IEEE 1619). Blocks are byte strings of 16 bytes (assumption 7). -/
namespace Sys2Proof.Machine
open Sys2Proof

/-! The block cipher. -/

/-- The substitution table. -/
def aesBox : List Nat :=
   [0x63, 0x7C, 0x77, 0x7B, 0xF2, 0x6B, 0x6F, 0xC5, 0x30, 0x01, 0x67, 0x2B, 0xFE, 0xD7, 0xAB, 0x76] ++
   [0xCA, 0x82, 0xC9, 0x7D, 0xFA, 0x59, 0x47, 0xF0, 0xAD, 0xD4, 0xA2, 0xAF, 0x9C, 0xA4, 0x72, 0xC0] ++
   [0xB7, 0xFD, 0x93, 0x26, 0x36, 0x3F, 0xF7, 0xCC, 0x34, 0xA5, 0xE5, 0xF1, 0x71, 0xD8, 0x31, 0x15] ++
   [0x04, 0xC7, 0x23, 0xC3, 0x18, 0x96, 0x05, 0x9A, 0x07, 0x12, 0x80, 0xE2, 0xEB, 0x27, 0xB2, 0x75] ++
   [0x09, 0x83, 0x2C, 0x1A, 0x1B, 0x6E, 0x5A, 0xA0, 0x52, 0x3B, 0xD6, 0xB3, 0x29, 0xE3, 0x2F, 0x84] ++
   [0x53, 0xD1, 0x00, 0xED, 0x20, 0xFC, 0xB1, 0x5B, 0x6A, 0xCB, 0xBE, 0x39, 0x4A, 0x4C, 0x58, 0xCF] ++
   [0xD0, 0xEF, 0xAA, 0xFB, 0x43, 0x4D, 0x33, 0x85, 0x45, 0xF9, 0x02, 0x7F, 0x50, 0x3C, 0x9F, 0xA8] ++
   [0x51, 0xA3, 0x40, 0x8F, 0x92, 0x9D, 0x38, 0xF5, 0xBC, 0xB6, 0xDA, 0x21, 0x10, 0xFF, 0xF3, 0xD2] ++
   [0xCD, 0x0C, 0x13, 0xEC, 0x5F, 0x97, 0x44, 0x17, 0xC4, 0xA7, 0x7E, 0x3D, 0x64, 0x5D, 0x19, 0x73] ++
   [0x60, 0x81, 0x4F, 0xDC, 0x22, 0x2A, 0x90, 0x88, 0x46, 0xEE, 0xB8, 0x14, 0xDE, 0x5E, 0x0B, 0xDB] ++
   [0xE0, 0x32, 0x3A, 0x0A, 0x49, 0x06, 0x24, 0x5C, 0xC2, 0xD3, 0xAC, 0x62, 0x91, 0x95, 0xE4, 0x79] ++
   [0xE7, 0xC8, 0x37, 0x6D, 0x8D, 0xD5, 0x4E, 0xA9, 0x6C, 0x56, 0xF4, 0xEA, 0x65, 0x7A, 0xAE, 0x08] ++
   [0xBA, 0x78, 0x25, 0x2E, 0x1C, 0xA6, 0xB4, 0xC6, 0xE8, 0xDD, 0x74, 0x1F, 0x4B, 0xBD, 0x8B, 0x8A] ++
   [0x70, 0x3E, 0xB5, 0x66, 0x48, 0x03, 0xF6, 0x0E, 0x61, 0x35, 0x57, 0xB9, 0x86, 0xC1, 0x1D, 0x9E] ++
   [0xE1, 0xF8, 0x98, 0x11, 0x69, 0xD9, 0x8E, 0x94, 0x9B, 0x1E, 0x87, 0xE9, 0xCE, 0x55, 0x28, 0xDF] ++
   [0x8C, 0xA1, 0x89, 0x0D, 0xBF, 0xE6, 0x42, 0x68, 0x41, 0x99, 0x2D, 0x0F, 0xB0, 0x54, 0xBB, 0x16]

/-- Its inverse. -/
def aesUnbox : List Nat :=
   [0x52, 0x09, 0x6A, 0xD5, 0x30, 0x36, 0xA5, 0x38, 0xBF, 0x40, 0xA3, 0x9E, 0x81, 0xF3, 0xD7, 0xFB] ++
   [0x7C, 0xE3, 0x39, 0x82, 0x9B, 0x2F, 0xFF, 0x87, 0x34, 0x8E, 0x43, 0x44, 0xC4, 0xDE, 0xE9, 0xCB] ++
   [0x54, 0x7B, 0x94, 0x32, 0xA6, 0xC2, 0x23, 0x3D, 0xEE, 0x4C, 0x95, 0x0B, 0x42, 0xFA, 0xC3, 0x4E] ++
   [0x08, 0x2E, 0xA1, 0x66, 0x28, 0xD9, 0x24, 0xB2, 0x76, 0x5B, 0xA2, 0x49, 0x6D, 0x8B, 0xD1, 0x25] ++
   [0x72, 0xF8, 0xF6, 0x64, 0x86, 0x68, 0x98, 0x16, 0xD4, 0xA4, 0x5C, 0xCC, 0x5D, 0x65, 0xB6, 0x92] ++
   [0x6C, 0x70, 0x48, 0x50, 0xFD, 0xED, 0xB9, 0xDA, 0x5E, 0x15, 0x46, 0x57, 0xA7, 0x8D, 0x9D, 0x84] ++
   [0x90, 0xD8, 0xAB, 0x00, 0x8C, 0xBC, 0xD3, 0x0A, 0xF7, 0xE4, 0x58, 0x05, 0xB8, 0xB3, 0x45, 0x06] ++
   [0xD0, 0x2C, 0x1E, 0x8F, 0xCA, 0x3F, 0x0F, 0x02, 0xC1, 0xAF, 0xBD, 0x03, 0x01, 0x13, 0x8A, 0x6B] ++
   [0x3A, 0x91, 0x11, 0x41, 0x4F, 0x67, 0xDC, 0xEA, 0x97, 0xF2, 0xCF, 0xCE, 0xF0, 0xB4, 0xE6, 0x73] ++
   [0x96, 0xAC, 0x74, 0x22, 0xE7, 0xAD, 0x35, 0x85, 0xE2, 0xF9, 0x37, 0xE8, 0x1C, 0x75, 0xDF, 0x6E] ++
   [0x47, 0xF1, 0x1A, 0x71, 0x1D, 0x29, 0xC5, 0x89, 0x6F, 0xB7, 0x62, 0x0E, 0xAA, 0x18, 0xBE, 0x1B] ++
   [0xFC, 0x56, 0x3E, 0x4B, 0xC6, 0xD2, 0x79, 0x20, 0x9A, 0xDB, 0xC0, 0xFE, 0x78, 0xCD, 0x5A, 0xF4] ++
   [0x1F, 0xDD, 0xA8, 0x33, 0x88, 0x07, 0xC7, 0x31, 0xB1, 0x12, 0x10, 0x59, 0x27, 0x80, 0xEC, 0x5F] ++
   [0x60, 0x51, 0x7F, 0xA9, 0x19, 0xB5, 0x4A, 0x0D, 0x2D, 0xE5, 0x7A, 0x9F, 0x93, 0xC9, 0x9C, 0xEF] ++
   [0xA0, 0xE0, 0x3B, 0x4D, 0xAE, 0x2A, 0xF5, 0xB0, 0xC8, 0xEB, 0xBB, 0x3C, 0x83, 0x53, 0x99, 0x61] ++
   [0x17, 0x2B, 0x04, 0x7E, 0xBA, 0x77, 0xD6, 0x26, 0xE1, 0x69, 0x14, 0x63, 0x55, 0x21, 0x0C, 0x7D]

/-- A byte substituted. -/
def subByte (b : Byte) : Byte := BitVec.ofNat 8 (aesBox.getD b.toNat 0)
/-- A byte substituted back. -/
def unsubByte (b : Byte) : Byte := BitVec.ofNat 8 (aesUnbox.getD b.toNat 0)

/-- A byte times x in GF(2^8) with x^8 + x^4 + x^3 + x + 1. -/
def timesX (b : Byte) : Byte := if b.msb then (b <<< 1) ^^^ 0x1B else b <<< 1

/-- A byte times a number below 16. -/
def timesSmall (b : Byte) (n : Nat) : Byte :=
  let x2 := timesX b
  let x4 := timesX x2
  let part (i : Nat) (x : Byte) : Byte := if n.testBit i then x else 0
  part 0 b ^^^ part 1 x2 ^^^ part 2 x4 ^^^ part 3 (timesX x4)

/-- A block's columns multiplied by the circulant matrix whose first row is given. -/
def mixColumns (row : List Nat) (b : List Byte) : List Byte :=
  (List.range 16).map (fun i => (List.range 4).foldl (fun x k =>
    x ^^^ timesSmall (b.getD (i / 4 * 4 + k) 0) (row.getD ((k + 4 - i % 4) % 4) 0)) 0)

/-- Row r of a block turned left by r places. -/
def shiftRows (b : List Byte) : List Byte := (List.range 16).map (fun i => b.getD (i % 4 + 4 * ((i / 4 + i % 4) % 4)) 0)
/-- Row r turned right by r places. -/
def unshiftRows (b : List Byte) : List Byte := (List.range 16).map (fun i => b.getD (i % 4 + 4 * ((i / 4 + 4 - i % 4) % 4)) 0)

/-- The next word of the key schedule, from the last eight words. -/
def nextKeyWord (ws : List (List Byte)) (i : Nat) : List Byte :=
  let last := ws.getD 7 []
  let turned :=
    if i % 8 = 0 then xorBytes ((last.drop 1 ++ last.take 1).map subByte) [BitVec.ofNat 8 (2 ^ (i / 8 - 1)), 0, 0, 0]
    else if i % 8 = 4 then last.map subByte
    else last
  xorBytes (ws.getD 0 []) turned

/-- The 15 round keys of a key of 32 bytes. -/
def roundKeys (key : List Byte) : List (List Byte) :=
  let step (acc : List (List Byte) × List (List Byte)) (i : Nat) : List (List Byte) × List (List Byte) :=
    let w := nextKeyWord acc.1 i
    (acc.1.drop 1 ++ [w], acc.2 ++ [w])
  let first := pieces 4 8 key
  let words := ((List.range 52).map (· + 8)).foldl step (first, first)
  pieces 16 15 (words.2.foldl (· ++ ·) [])

/-- A block encrypted under a key schedule. -/
def encryptWith (ks : List (List Byte)) (b : List Byte) : List Byte :=
  let inner := (ks.drop 1).take 13
  let b := inner.foldl (fun b k => xorBytes (mixColumns [2, 3, 1, 1] (shiftRows (b.map subByte))) k) (xorBytes b (ks.getD 0 []))
  xorBytes (shiftRows (b.map subByte)) (ks.getD 14 [])

/-- A block decrypted under a key schedule. -/
def decryptWith (ks : List (List Byte)) (b : List Byte) : List Byte :=
  let inner := ((ks.drop 1).take 13).reverse
  let start := (unshiftRows (xorBytes b (ks.getD 14 []))).map unsubByte
  let b := inner.foldl (fun b k => (unshiftRows (mixColumns [14, 11, 13, 9] (xorBytes b k))).map unsubByte) start
  xorBytes b (ks.getD 0 [])

/-- A block encrypted under a key (FIPS 197). -/
def aesEncrypt (key b : List Byte) : List Byte := encryptWith (roundKeys key) b

/-! GCM. -/

/-- The product of two elements of GF(2^128) in the bit order of GCM. -/
def ghashMul (x y : Nat) : Nat :=
  ((List.range 128).foldl (fun (acc : Nat × Nat) i =>
    (if x.testBit (127 - i) then acc.1 ^^^ acc.2 else acc.1,
     if acc.2.testBit 0 then (acc.2 >>> 1) ^^^ (0xE1 <<< 120) else acc.2 >>> 1)) (0, y)).1

/-- Bytes filled up with zeros to whole blocks. -/
def fillBlocks (bs : List Byte) : List Byte := bs ++ List.replicate ((16 - bs.length % 16) % 16) 0

/-- GHASH under a subkey of associated data and ciphertext. -/
def ghash (h : Nat) (aad ct : List Byte) : Nat :=
  let m := fillBlocks aad ++ fillBlocks ct ++ beBytes 8 (8 * aad.length) ++ beBytes 8 (8 * ct.length)
  (pieces 16 (m.length / 16) m).foldl (fun y b => ghashMul (y ^^^ beNum b) h) 0

/-- Bytes added to the key stream of a nonce of 12 bytes, from a block counter on. -/
def counterMode (ks : List (List Byte)) (nonce : List Byte) (from_ : Nat) (bs : List Byte) : List Byte :=
  xorBytes bs ((List.range ((bs.length + 15) / 16)).flatMap (fun i => encryptWith ks (nonce ++ beBytes 4 (from_ + i))))

/-- The tag of GCM. -/
def gcmTag (ks : List (List Byte)) (nonce aad ct : List Byte) : List Byte :=
  xorBytes (beBytes 16 (ghash (beNum (encryptWith ks (List.replicate 16 0))) aad ct)) (encryptWith ks (nonce ++ beBytes 4 1))

/-- AES-256-GCM encryption: ciphertext and tag. -/
@[irreducible] def gcmEncrypt (key nonce aad pt : List Byte) : List Byte × List Byte :=
  let ks := roundKeys key
  let ct := counterMode ks nonce 2 pt
  (ct, gcmTag ks nonce aad ct)

/-- AES-256-GCM decryption: none where the tag does not verify. -/
@[irreducible] def gcmDecrypt (key nonce aad ct tag : List Byte) : Option (List Byte) :=
  let ks := roundKeys key
  if gcmTag ks nonce aad ct = tag then some (counterMode ks nonce 2 ct) else none

/-! Key wrap. -/

/-- One step of unwrapping: the register A, the other pieces, and the step from 4 × 6 down to 1. -/
def unwrapStep (ks : List (List Byte)) (st : List Byte × List (List Byte)) (t : Nat) : List Byte × List (List Byte) :=
  let i := (t - 1) % 4
  let b := decryptWith ks (xorBytes st.1 (beBytes 8 t) ++ st.2.getD i [])
  (b.take 8, st.2.set i (b.drop 8))

/-- A key of 32 bytes unwrapped from 40 (NIST SP 800-38F, KW): none where the integrity check fails. -/
@[irreducible] def keyUnwrap (kek wrapped : List Byte) : Option (List Byte) :=
  let st := ((List.range 24).reverse.map (· + 1)).foldl (unwrapStep (roundKeys kek)) (wrapped.take 8, pieces 8 4 (wrapped.drop 8))
  if st.1 = List.replicate 8 0xA6 then some (st.2.foldl (· ++ ·) []) else none

/-! XTS. -/

/-- A tweak times x in GF(2^128), in the bit order of XTS. -/
def timesXts (t : Nat) : Nat := if 2 ^ 127 ≤ t then (2 * t % 2 ^ 128) ^^^ 0x87 else 2 * t

/-- A data unit of whole blocks put through XTS, by the function on blocks, from its first tweak. -/
def xtsWith (f : List Byte → List Byte) : Nat → List (List Byte) → List Byte
  | _, [] => []
  | t, b :: bs => xorBytes (f (xorBytes b (bytesOf 16 t))) (bytesOf 16 t) ++ xtsWith f (timesXts t) bs

/-- The first tweak of a data unit under a key of 64 bytes. -/
def xtsTweak (key : List Byte) (unit : Nat) : Nat := ofBytes (aesEncrypt (key.drop 32) (bytesOf 16 unit))

/-- A data unit encrypted with AES-256-XTS, its number as a 128-bit little-endian integer (R496). -/
@[irreducible] def xtsEncrypt (key : List Byte) (unit : Nat) (data : List Byte) : List Byte :=
  xtsWith (encryptWith (roundKeys (key.take 32))) (xtsTweak key unit) (pieces 16 (data.length / 16) data)

/-- The data unit decrypted. -/
@[irreducible] def xtsDecrypt (key : List Byte) (unit : Nat) (data : List Byte) : List Byte :=
  xtsWith (decryptWith (roundKeys (key.take 32))) (xtsTweak key unit) (pieces 16 (data.length / 16) data)

end Sys2Proof.Machine
end

