-- ==== Sys2Proof/Machine/Signature.lean ====
section
/-! DEFINITION. The signatures and the key agreement that the rules name: RSASSA-PSS with SHA-384 (RFC 8017), ECDSA and ECDH on
P-384 (FIPS 186-5, NIST SP 800-186), and the verification of SLH-DSA-SHA2-192s (FIPS 205) (assumption 7). -/
namespace Sys2Proof.Machine
open Sys2Proof

/-- A number's power modulo another, by the exponent's lowest `n` bits. -/
def powMod (n b e m : Nat) : Nat :=
  (List.range n).reverse.foldl (fun r i => r * r % m * (if e.testBit i then b % m else 1) % m) 1

/-! RSASSA-PSS. -/

/-- Is an encoded message of 384 bytes EMSA-PSS of a message, with SHA-384, MGF1 with SHA-384 and a salt of 48 bytes? -/
def pssOk (em msg : List Byte) : Bool :=
  let h := (em.drop 335).take 48
  let masked := em.take 335
  let db := xorBytes masked (mgf1 sha384Bytes 48 h 335)
  let db := (db.getD 0 0 &&& 0x7F) :: db.drop 1
  let salt := db.drop 287
  em.getD 383 0 == 0xBC && !(masked.getD 0 0).msb && db.take 287 == List.replicate 286 0 ++ [1] &&
    sha384Bytes (List.replicate 8 0 ++ sha384Bytes msg ++ salt) == h

/-- Verification of an RSA-3072 signature (R194, R522, R538): modulus and signature highest byte first, exponent lowest byte
first, message. -/
@[irreducible] def rsaVerify (modulus exponent msg sig : List Byte) : Bool :=
  let n := beNum modulus
  decide (modulus.length = 384 ∧ sig.length = 384 ∧ 2 ^ 3071 ≤ n ∧ beNum sig < n) &&
    pssOk (beBytes 384 (powMod 32 (beNum sig) (ofBytes exponent) n)) msg

/-! P-384. -/

/-- The field's prime. -/
def p384Prime : Nat := 2 ^ 384 - 2 ^ 128 - 2 ^ 96 + 2 ^ 32 - 1
/-- The order of the base point. -/
def p384Order : Nat :=
  0xFFFFFFFFFFFFFFFFFFFFFFFFFFFFFFFFFFFFFFFFFFFFFFFFC7634D81F4372DDF581A0DB248B0A77AECEC196ACCC52973
/-- The coefficient b of y^2 = x^3 - 3x + b. -/
def p384B : Nat :=
  0xB3312FA7E23EE7E4988E056BE3F82D19181D9C6EFE8141120314088F5013875AC656398D8A2ED19D2A85C8EDD3EC2AEF
/-- The base point. -/
def p384Base : Nat × Nat :=
  (0xAA87CA22BE8B05378EB1C71EF320AD746E1D3B628BA79B9859F741E082542A385502F25DBF55296C3A545E3872760AB7,
   0x3617DE4A96262C6F5D9E98BF9292DC29F8F41DBD289A147CE9DA3113B5F0B8C00A60B1CE1D7E819D7A431D7C90EA0E5F)

/-- The inverse of a number modulo a prime of 384 bits. -/
def invMod (x m : Nat) : Nat := powMod 384 x (m - 2) m

/-- The sum of two points in projective coordinates X : Y : Z, (0, 1, 0) the point at infinity: complete formulas for a curve of
prime order, with a = -3. -/
def pointAdd (p q : Nat × Nat × Nat) : Nat × Nat × Nat :=
  let m := p384Prime
  let (x, y, z) := p
  let (u, v, w) := q
  let neg (n : Nat) : Nat := m - n % m
  let xz := (x * w + u * z) % m
  let yz := (y * w + v * z) % m
  let xy := (x * v + u * y) % m
  let zz := z * w % m
  let t := (3 * p384B * zz + neg (3 * xz)) % m
  let lo := (y * v + neg t) % m
  let hi := (y * v + t) % m
  let r := (3 * p384B * xz + neg (3 * (x * u) + 9 * zz)) % m
  let k := (3 * (x * u) + neg (3 * zz)) % m
  ((xy * lo + neg (yz * r)) % m, (k * r + hi * lo) % m, (yz * hi + xy * k) % m)

/-- A multiple of a point. -/
def pointMul (k : Nat) (q : Nat × Nat) : Nat × Nat × Nat :=
  (List.range 384).reverse.foldl (fun r i =>
    let r := pointAdd r r
    if k.testBit i then pointAdd r (q.1, q.2, 1) else r) (0, 1, 0)

/-- The two coordinates of a point; those of the point at infinity read as 0. -/
def affine (p : Nat × Nat × Nat) : Nat × Nat :=
  let i := invMod p.2.2 p384Prime
  (p.1 * i % p384Prime, p.2.1 * i % p384Prime)

/-- Is a pair of numbers a point of the curve? -/
def onCurve (q : Nat × Nat) : Bool :=
  let m := p384Prime
  decide (q.1 < m ∧ q.2 < m) && decide (q.2 * q.2 % m = (q.1 * q.1 % m * q.1 + (m - 3) * q.1 + p384B) % m)

/-- The public key of a private one: the two coordinates, highest byte first. -/
@[irreducible] def p384Public (d : Nat) : List Byte :=
  let q := affine (pointMul d p384Base)
  beBytes 48 q.1 ++ beBytes 48 q.2

/-- The secret that ECDH agrees with a peer's public key: an x coordinate, highest byte first; none for no point of the
curve. -/
@[irreducible] def ecdhSecret (d : Nat) (peer : List Byte) : Option (List Byte) :=
  let q := (beNum (peer.take 48), beNum (peer.drop 48))
  if peer.length = 96 ∧ onCurve q then some (beBytes 48 (affine (pointMul d q)).1) else none

/-- An ECDSA signature with SHA-384 under a private key, with a nonce: r then s, highest byte first (R528). -/
@[irreducible] def ecdsaSign (d nonce : Nat) (msg : List Byte) : List Byte :=
  let n := p384Order
  let k := nonce % (n - 1) + 1
  let r := (affine (pointMul k p384Base)).1 % n
  beBytes 48 r ++ beBytes 48 (invMod k n * (beNum (sha384Bytes msg) + r * d) % n)

/-- Verification of an ECDSA signature with SHA-384: public key, message, r then s. -/
@[irreducible] def ecdsaVerify (key msg sig : List Byte) : Bool :=
  let n := p384Order
  let q := (beNum (key.take 48), beNum (key.drop 48))
  let r := beNum (sig.take 48)
  let t := beNum (sig.drop 48)
  let i := invMod t n
  let sum := pointAdd (pointMul (beNum (sha384Bytes msg) * i % n) p384Base) (pointMul (r * i % n) q)
  decide (key.length = 96 ∧ sig.length = 96 ∧ 0 < r ∧ r < n ∧ 0 < t ∧ t < n) && onCurve q && (affine sum).1 % n == r

/-! SLH-DSA-SHA2-192s (FIPS 205): n = 24, h = 63 in 7 layers of 9, 17 FORS trees of height 14, Winternitz 16. -/

/-- What a hash of the scheme is for: layer, tree, type, and the three words that follow. -/
structure SlhAddress where
  layer : Nat
  tree : Nat
  kind : Nat
  word1 : Nat
  word2 : Nat
  word3 : Nat

/-- The compressed address of 22 bytes. -/
def SlhAddress.bytes (a : SlhAddress) : List Byte :=
  beBytes 1 a.layer ++ beBytes 8 a.tree ++ beBytes 1 a.kind ++ beBytes 4 a.word1 ++ beBytes 4 a.word2 ++ beBytes 4 a.word3

/-- F: SHA-256 cut to 24 bytes. -/
def slhF (seed : List Byte) (a : SlhAddress) (m : List Byte) : List Byte :=
  (sha256Bytes (seed ++ List.replicate 40 0 ++ a.bytes ++ m)).take 24
/-- H and T: SHA-512 cut to 24 bytes. -/
def slhH (seed : List Byte) (a : SlhAddress) (m : List Byte) : List Byte :=
  (sha512Bytes (seed ++ List.replicate 104 0 ++ a.bytes ++ m)).take 24

/-- `k` digits of `b` bits from bytes, highest first. -/
def slhDigits (b k : Nat) (bs : List Byte) : List Nat :=
  let v := beNum bs
  (List.range k).map (fun i => (v >>> (8 * bs.length - b * (i + 1))) % 2 ^ b)

/-- A Winternitz chain from a value at step `i` through `n` steps. -/
def slhChain (seed : List Byte) (a : SlhAddress) (i : Nat) : Nat → List Byte → List Byte
  | 0, x => x
  | n + 1, x => slhChain seed a (i + 1) n (slhF seed { a with word3 := i } x)

/-- The root that a path from a leaf of index `i` leads to: the address's words 2 and 3 are height and index, the index counted from
`base` at height 0. -/
def slhClimb (seed : List Byte) (a : SlhAddress) (base i : Nat) (path : List (List Byte)) (leaf : List Byte) : List Byte :=
  path.zipIdx.foldl (fun node p =>
    let h := p.2 + 1
    let at_ := { a with word2 := h, word3 := (base + i) / 2 ^ h }
    if (i / 2 ^ p.2) % 2 = 0 then slhH seed at_ (node ++ p.1) else slhH seed at_ (p.1 ++ node)) leaf

/-- The Winternitz public key that a signature of a message leads to, in a layer, tree and key pair. -/
def slhWots (seed : List Byte) (layer tree pair : Nat) (sig : List (List Byte)) (msg : List Byte) : List Byte :=
  let digits := slhDigits 4 48 msg
  let sum := (digits.map (15 - ·)).sum
  let all := digits ++ slhDigits 4 3 (beBytes 2 (16 * sum))
  let ends := (List.range 51).flatMap (fun i =>
    let d := all.getD i 0
    slhChain seed ⟨layer, tree, 0, pair, i, 0⟩ d (15 - d) (sig.getD i []))
  slhH seed ⟨layer, tree, 1, pair, 0, 0⟩ ends

/-- The root of a layer's tree that a layer's signature leads to: 51 chain values and a path of 9. -/
def slhLayer (seed : List Byte) (layer tree leaf : Nat) (sig : List Byte) (msg : List Byte) : List Byte :=
  let parts := pieces 24 60 sig
  slhClimb seed ⟨layer, tree, 2, 0, 0, 0⟩ 0 leaf (parts.drop 51) (slhWots seed layer tree leaf (parts.take 51) msg)

/-- The FORS public key that a signature leads to, for 17 indices of 14 bits. -/
def slhFors (seed : List Byte) (tree leaf : Nat) (sig md : List Byte) : List Byte :=
  let roots := (pieces 360 17 sig).zip (slhDigits 14 17 md) |>.zipIdx |>.flatMap (fun p =>
    let parts := pieces 24 15 p.1.1
    let base := p.2 * 2 ^ 14
    let node := slhF seed ⟨0, tree, 3, leaf, 0, base + p.1.2⟩ (parts.getD 0 [])
    slhClimb seed ⟨0, tree, 3, leaf, 0, 0⟩ base p.1.2 (parts.drop 1) node)
  slhH seed ⟨0, tree, 4, leaf, 0, 0⟩ roots

/-- Verification of an SLH-DSA-SHA2-192s signature with an empty context (R194, R522, R538): public key, message, signature. -/
@[irreducible] def slhVerify (key msg sig : List Byte) : Bool :=
  let seed := key.take 24
  let root := key.drop 24
  let m := [0, 0] ++ msg
  let r := sig.take 24
  let digest := mgf1 sha512Bytes 64 (r ++ seed ++ sha512Bytes (r ++ seed ++ root ++ m)) 39
  let tree := beNum ((digest.drop 30).take 7) % 2 ^ 54
  let leaf := beNum (digest.drop 37) % 2 ^ 9
  let fors := slhFors seed tree leaf ((sig.drop 24).take 6120) (digest.take 30)
  let top := (pieces 1440 7 (sig.drop 6144)).zipIdx.foldl (fun (acc : List Byte × Nat × Nat) p =>
    (slhLayer seed p.2 acc.2.1 acc.2.2 p.1 acc.1, acc.2.1 / 2 ^ 9, acc.2.1 % 2 ^ 9)) (fors, tree, leaf)
  decide (key.length = 48 ∧ sig.length = 16224) && top.1 == root

end Sys2Proof.Machine
end

