-- ==== Sys2Proof/Machine/Kem.lean ====
section
/-! DEFINITION. ML-KEM-1024 as FIPS 203 defines it: the key pair of two seeds, encapsulation and decapsulation (R392, R529;
assumption 7). Polynomials are lists of 256 coefficients modulo 3,329. -/
namespace Sys2Proof.Machine
open Sys2Proof

/-- The modulus. -/
def kemQ : Nat := 3329
/-- The rank of ML-KEM-1024. -/
def kemRank : Nat := 4

/-- Seven bits of a number in reverse order. -/
def bitRev7 (i : Nat) : Nat := (List.range 7).foldl (fun r b => 2 * r + if i.testBit b then 1 else 0) 0
/-- A power of the root of unity 17. -/
def zeta (e : Nat) : Nat := powMod 9 17 e kemQ

/-- Two polynomials added. -/
def polyAdd (f g : List Nat) : List Nat := List.zipWith (fun a b => (a + b) % kemQ) f g
/-- A polynomial taken from another. -/
def polySub (f g : List Nat) : List Nat := List.zipWith (fun a b => (a + kemQ - b) % kemQ) f g
/-- A polynomial times a number. -/
def polyScale (c : Nat) (f : List Nat) : List Nat := f.map (fun a => c * a % kemQ)

/-- The transform of `2^(depth + 1)` coefficients at a node of its tree. -/
def nttAt : Nat → Nat → List Nat → List Nat
  | 0, _, f => f
  | depth + 1, k, f =>
    let lo := f.take (2 ^ (depth + 1))
    let hi := polyScale (zeta (bitRev7 k)) (f.drop (2 ^ (depth + 1)))
    nttAt depth (2 * k) (polyAdd lo hi) ++ nttAt depth (2 * k + 1) (polySub lo hi)

/-- Its inverse but for the factor 1/128. -/
def unnttAt : Nat → Nat → List Nat → List Nat
  | 0, _, f => f
  | depth + 1, k, f =>
    let lo := unnttAt depth (2 * k) (f.take (2 ^ (depth + 1)))
    let hi := unnttAt depth (2 * k + 1) (f.drop (2 ^ (depth + 1)))
    polyAdd lo hi ++ polyScale (zeta (256 - bitRev7 k)) (polySub lo hi)

/-- The number-theoretic transform. -/
def ntt (f : List Nat) : List Nat := nttAt 7 1 f
/-- Its inverse. -/
def unntt (f : List Nat) : List Nat := polyScale 3303 (unnttAt 7 1 f)

/-- The product of two transforms. -/
def nttMul (f g : List Nat) : List Nat :=
  (List.range 128).flatMap (fun i =>
    let (a, b) := (f.getD (2 * i) 0, f.getD (2 * i + 1) 0)
    let (c, d) := (g.getD (2 * i) 0, g.getD (2 * i + 1) 0)
    [(a * c + b * d % kemQ * zeta (2 * bitRev7 i + 1)) % kemQ, (a * d + b * c) % kemQ])

/-- The inner product of two vectors of transforms. -/
def nttDot (f g : List (List Nat)) : List Nat := (List.zipWith nttMul f g).foldl polyAdd (List.replicate 256 0)

/-- Coefficients as bytes, `d` bits each. -/
def kemEncode (d : Nat) (f : List Nat) : List Byte :=
  bytesOf (32 * d) (f.zipIdx.foldl (fun v p => v + (p.1 % 2 ^ d) <<< (d * p.2)) 0)
/-- Coefficients of `d` bits each from bytes. -/
def kemDecode (d : Nat) (bs : List Byte) : List Nat :=
  let v := ofBytes bs
  (List.range 256).map (fun i => bitsOf v (d * i) d % if d = 12 then kemQ else 2 ^ d)

/-- Coefficients rounded to `d` bits. -/
def kemCompress (d : Nat) (f : List Nat) : List Nat := f.map (fun x => (2 ^ (d + 1) * x + kemQ) / (2 * kemQ) % 2 ^ d)
/-- Coefficients from `d` bits. -/
def kemDecompress (d : Nat) (f : List Nat) : List Nat := f.map (fun y => (2 * kemQ * y + 2 ^ d) / 2 ^ (d + 1))

/-- The candidates of 12 bits in a byte stream, two in every three bytes. -/
def kemCandidates (bs : List Byte) : List Nat :=
  (pieces 3 (bs.length / 3) bs).flatMap (fun t => [bitsOf (ofBytes t) 0 12, bitsOf (ofBytes t) 12 12])

/-- The entry of the matrix at row i and column j, from the public seed. -/
def kemMatrix (rho : List Byte) (i j : Nat) : List Nat :=
  ((kemCandidates (shake128 (rho ++ [BitVec.ofNat 8 j, BitVec.ofNat 8 i]) 1344)).filter (fun x => decide (x < kemQ))).take 256

/-- A polynomial of small coefficients from a secret seed and a counter. -/
def kemNoise (sigma : List Byte) (n : Nat) : List Nat :=
  let v := ofBytes (shake256 (sigma ++ [BitVec.ofNat 8 n]) 128)
  let bit (i : Nat) : Nat := bitsOf v i 1
  (List.range 256).map (fun i => (bit (4 * i) + bit (4 * i + 1) + kemQ - bit (4 * i + 2) - bit (4 * i + 3)) % kemQ)

/-- The secret vector and the encapsulation key of a seed. -/
def kemPair (d : List Byte) : List (List Nat) × List Byte :=
  let g := sha3Of512 (d ++ [BitVec.ofNat 8 kemRank])
  let (rho, sigma) := (g.take 32, g.drop 32)
  let secret := (List.range kemRank).map (fun i => ntt (kemNoise sigma i))
  let t := (List.range kemRank).map (fun i =>
    polyAdd (nttDot ((List.range kemRank).map (kemMatrix rho i)) secret) (ntt (kemNoise sigma (kemRank + i))))
  (secret, t.flatMap (kemEncode 12) ++ rho)

/-- The encapsulation key of a seed: 1,568 bytes (R529). -/
@[irreducible] def kemPublic (d : List Byte) : List Byte := (kemPair d).2

/-- The ciphertext of a message under an encapsulation key with the randomness given. -/
def kemCipher (ek m r : List Byte) : List Byte :=
  let rho := ek.drop (384 * kemRank)
  let t := (pieces 384 kemRank ek).map (kemDecode 12)
  let y := (List.range kemRank).map (fun i => ntt (kemNoise r i))
  let u := (List.range kemRank).map (fun i =>
    polyAdd (unntt (nttDot ((List.range kemRank).map (fun j => kemMatrix rho j i)) y)) (kemNoise r (kemRank + i)))
  let v := polyAdd (polyAdd (unntt (nttDot t y)) (kemNoise r (2 * kemRank))) (kemDecompress 1 (kemDecode 1 m))
  u.flatMap (fun f => kemEncode 11 (kemCompress 11 f)) ++ kemEncode 5 (kemCompress 5 v)

/-- The message of a ciphertext under a secret vector. -/
def kemPlain (secret : List (List Nat)) (c : List Byte) : List Byte :=
  let u := (pieces 352 kemRank c).map (fun b => kemDecompress 11 (kemDecode 11 b))
  let v := kemDecompress 5 (kemDecode 5 (c.drop (352 * kemRank)))
  kemEncode 1 (kemCompress 1 (polySub v (unntt (nttDot secret (u.map ntt)))))

/-- Encapsulation: the shared secret and the ciphertext, from an encapsulation key and 32 random bytes. -/
@[irreducible] def kemEncaps (ek m : List Byte) : List Byte × List Byte :=
  let g := sha3Of512 (m ++ sha3Of256 ek)
  (g.take 32, kemCipher ek m (g.drop 32))

/-- Decapsulation: the shared secret of 32 bytes, from the seeds d and z of the key pair and a ciphertext; a ciphertext that does
not stand the check gives the secret of implicit rejection. -/
@[irreducible] def kemDecaps (d z c : List Byte) : List Byte :=
  let (secret, ek) := kemPair d
  let m := kemPlain secret c
  let g := sha3Of512 (m ++ sha3Of256 ek)
  if kemCipher ek m (g.drop 32) = c then g.take 32 else shake256 (z ++ c) 32

end Sys2Proof.Machine
end

