-- ==== Sys2Proof/Machine/Table.lean ====
section
/-! DEFINITION. Sparse tables keyed by a number, held as lists in one canonical form (keys strictly rising), and the
sparse byte memory (R623: one 48-bit device address space) whose unlisted addresses read as 0x00. -/
namespace Sys2Proof.Machine
open Sys2Proof

/-- A table from numbers to values, keys strictly rising. -/
abbrev Tbl (α : Type) := List (Nat × α)

/-- The value listed at a key. -/
def Tbl.get? {α : Type} : Tbl α → Nat → Option α
  | [], _ => none
  | (k, v) :: t, i => if k = i then some v else if i < k then none else Tbl.get? t i

/-- The value listed at a key, or a default. -/
def Tbl.getD {α : Type} (t : Tbl α) (i : Nat) (d : α) : α := (Tbl.get? t i).getD d

/-- The table with a value set at a key. -/
def Tbl.set {α : Type} : Tbl α → Nat → α → Tbl α
  | [], i, x => [(i, x)]
  | (k, v) :: t, i, x =>
    if i < k then (i, x) :: (k, v) :: t
    else if i = k then (i, x) :: t
    else (k, v) :: Tbl.set t i x

/-- The table without a key. -/
def Tbl.erase {α : Type} (t : Tbl α) (i : Nat) : Tbl α := t.filter (fun p => p.1 != i)

/-- The table with the value at a key changed, where there is one. -/
def Tbl.modify {α : Type} (t : Tbl α) (i : Nat) (f : α → α) : Tbl α :=
  t.map (fun p => if p.1 = i then (p.1, f p.2) else p)

/-- Are the keys strictly rising? -/
def Tbl.wf {α : Type} : Tbl α → Bool
  | [] => true
  | [_] => true
  | a :: b :: t => decide (a.1 < b.1) && Tbl.wf (b :: t)

/-- The byte memory: (address, byte) pairs, addresses strictly rising, no byte equal to what an unlisted address reads. -/
abbrev Memory := List (Nat × Byte)

/-- What an address that is not listed reads as. DESIGN CHOICE, unsafe: assumption 3. -/
def Memory.unlisted : Byte := 0

/-- One byte of memory. -/
def Memory.read : Memory → Nat → Byte
  | [], _ => Memory.unlisted
  | (k, v) :: t, a => if k = a then v else if a < k then Memory.unlisted else Memory.read t a

/-- Memory with one byte written; writing what an unlisted address reads as removes the entry. -/
def Memory.write : Memory → Nat → Byte → Memory
  | [], a, b => if b = Memory.unlisted then [] else [(a, b)]
  | (k, v) :: t, a, b =>
    if a < k then (if b = Memory.unlisted then (k, v) :: t else (a, b) :: (k, v) :: t)
    else if a = k then (if b = Memory.unlisted then t else (a, b) :: t)
    else (k, v) :: Memory.write t a b

/-- Cells written one after the other. -/
def Memory.writeCells (m : Memory) (cs : List (Nat × Byte)) : Memory := cs.foldl (fun m c => m.write c.1 c.2) m

/-- Bytes written at rising addresses. -/
def Memory.writeBytes (m : Memory) (a : Nat) : List Byte → Memory
  | [] => m
  | b :: bs => (m.write a b).writeBytes (a + 1) bs

/-- `n` bytes from an address. -/
def Memory.readBytes (m : Memory) (a n : Nat) : List Byte := (List.range n).map (fun i => m.read (a + i))

/-- A little-endian number of `n` bytes (R10). -/
def Memory.readNat (m : Memory) (a n : Nat) : Nat := ofBytes (m.readBytes a n)

/-- Every byte of `n` bytes from an address cleared, without walking the bytes that are not listed. -/
def Memory.clear (m : Memory) (a n : Nat) : Memory := m.filter (fun c => !(decide (a ≤ c.1) && decide (c.1 < a + n)))

/-- The canonical form. -/
def Memory.wf (m : Memory) : Bool := Tbl.wf m && m.all (fun c => c.2 != Memory.unlisted)

end Sys2Proof.Machine
end

