-- ==== Sys2Proof/Machine/Sc8.lean ====
section
/-! DEFINITION. SC8, the symbol-correcting code of memory, fabric and weight store (R485 to R487). -/
namespace Sys2Proof.Machine
open Sys2Proof

/-- Multiplication by α in GF(2^8) (R485). -/
def gfTimesAlpha (v : Nat) : Nat := if v < 128 then 2 * v else (2 * v) ^^^ 0x11D

/-- The product of a field element and α^i. -/
def gfTimesPow (v : Nat) : Nat → Nat
  | 0 => v
  | i + 1 => gfTimesAlpha (gfTimesPow v i)

/-- The product of two field elements. -/
def gfMul (a b : Nat) : Nat :=
  (List.range 8).foldl (fun acc i => if bitAt b i then acc ^^^ gfTimesPow a i else acc) 0

/-- The three check symbols of some data symbols (R485): the remainder of the data polynomial times x^3 by
(x - 1)(x - α)(x - α^2) = x^3 + 7x^2 + 14x + 8, so that the codeword is zero at α^0, α^1 and α^2. -/
def sc8Check (data : List Byte) : List Byte :=
  let step (r : Nat × Nat × Nat) (d : Byte) : Nat × Nat × Nat :=
    let f := r.1 ^^^ d.toNat
    (r.2.1 ^^^ gfMul f 7, r.2.2 ^^^ gfMul f 14, gfMul f 8)
  let r := data.foldl step (0, 0, 0)
  [BitVec.ofNat 8 r.1, BitVec.ofNat 8 r.2.1, BitVec.ofNat 8 r.2.2]

/-- A codeword: data symbols and check symbols. -/
def sc8Word (data : List Byte) : List Byte := data ++ sc8Check data

/-- The syndrome R(α^i) of a received word, d_0 first. -/
def syndrome (word : List Byte) (i : Nat) : Nat :=
  word.foldl (fun acc b => gfTimesPow acc i ^^^ b.toNat) 0

/-- What a decoder finds (R487). -/
inductive Sc8 where
  | correct
  | corrected (word : List Byte)
  | uncorrectable
  deriving DecidableEq, Repr

/-- The decoder of R487 on a word of k data symbols and 3 check symbols. -/
def sc8Decode (word : List Byte) : Sc8 :=
  let s0 := syndrome word 0
  let s1 := syndrome word 1
  let s2 := syndrome word 2
  if s0 = 0 ∧ s1 = 0 ∧ s2 = 0 then .correct
  else if s0 ≠ 0 ∧ s1 ≠ 0 ∧ s2 ≠ 0 ∧ gfMul s1 s1 = gfMul s0 s2 then
    match (List.range word.length).find? (fun j => gfTimesPow s0 j == s1) with
    | some j => .corrected ((List.range word.length).map (fun i =>
        let b := word.getD i 0
        if i = word.length - 1 - j then BitVec.ofNat 8 (b.toNat ^^^ s0) else b))
    | none => .uncorrectable
  else .uncorrectable

end Sys2Proof.Machine
end

