-- ==== Sys2Proof/Machine/Fabric.lean ====
section
/-! DEFINITION. The on-package fabric: the dies and the links that join them (R17, R20), the flits and their traffic
classes, a link's two ends (R22, R23), the route between two dies, and the order in which a link sends (R23). -/
namespace Sys2Proof.Machine
open Sys2Proof

/-- A die of R17, by its name and number. -/
inductive Die where
  | cd (n : Nat) | sd (n : Nat) | wd (n : Nat) | ld (n : Nat) | xd (n : Nat) | md (n : Nat) | hd (n : Nat)
  deriving DecidableEq, Repr

/-- Is there such a die in the package (R17)? -/
def Die.present : Die → Bool
  | .cd n | .sd n | .wd n => decide (n < 16)
  | .ld n => decide (n < 8)
  | .md n => decide (n < 4)
  | .xd n | .hd n => decide (n < 2)

/-- The number of a die among the 64 of the package. -/
def Die.num : Die → Nat
  | .cd n => n
  | .sd n => 16 + n
  | .wd n => 32 + n
  | .ld n => 48 + n
  | .md n => 56 + n
  | .xd n => 60 + n
  | .hd n => 62 + n

/-- The die of a number. -/
def Die.ofNum (n : Nat) : Die :=
  if n < 16 then .cd n else if n < 32 then .sd (n - 16) else if n < 48 then .wd (n - 32) else if n < 56 then .ld (n - 48)
  else if n < 60 then .md (n - 56) else if n < 62 then .xd (n - 60) else .hd (n - 62)

/-- The mesh column of a die: 0 on the side of XD0 and HD0, 1 on the side of XD1 and HD1 (R20). -/
def Die.side : Die → Nat
  | .cd n | .sd n | .wd n => n / 8
  | .ld n => n / 4
  | .md n => n / 2
  | .xd n | .hd n => n

/-- The links between dies of R20, written from the first die of the table's row to the second. -/
def linked : Die → Die → Bool
  | .cd n, .sd m => decide (n = m)
  | .cd n, .wd m => decide (n = m)
  | .cd n, .xd x => decide (n / 8 = x)
  | .ld k, .xd x => decide (k / 4 = x)
  | .md m, .xd x => decide (m / 2 = x)
  | .xd 0, .xd 1 => true
  | .hd 0, .hd 1 => true
  | .xd x, .hd h => decide (x = h)
  | _, _ => false

/-- Do two dies have a link (R20), in either direction? No other pair has one. -/
def joined (a b : Die) : Bool := a.present && b.present && (linked a b || linked b a)

/-- The die that a flit at one die goes to next on its way to another. Between a mesh node and the far node of the other
row two ways are equally long; the flit stays in its row first. DESIGN CHOICE (assumption 204). -/
def nextHop (at_ dst : Die) : Die :=
  if joined at_ dst then dst
  else match at_ with
    | .sd n | .wd n => .cd n
    | .cd n => .xd (n / 8)
    | .ld k => .xd (k / 4)
    | .md m => .xd (m / 2)
    | .hd h => if dst.side = h then .xd h else .hd (1 - h)
    | .xd x =>
      if dst.side ≠ x then .xd (1 - x)
      else match dst with
        | .sd n | .wd n => .cd n
        | d => d

/-- The traffic classes of R23. -/
inductive FabricClass where
  | ctrl | sec | rdc | bulk
  deriving DecidableEq, Repr

/-- The priority of a class, 1 the highest (R23). -/
def FabricClass.priority : FabricClass → Nat
  | .ctrl => 1
  | .sec => 2
  | .rdc => 3
  | .bulk => 4

/-- A fabric flit: its class, its source and destination dies, and its 64 bytes (R22, R23). -/
structure FabricFlit where
  cls : FabricClass
  src : Die
  dst : Die
  data : List Byte
  deriving DecidableEq, Repr

/-- A flit as it arrives: what its sending end sent, and the 64 bytes and 3 check symbols received (R22). -/
structure FlitArrival where
  flit : FabricFlit
  received : List Byte
  deriving DecidableEq, Repr

/-- A fabric link in one direction. The sending end: the flits that wait for it, oldest first, the number of the next flit
it sends, the last 64 it sent (R22), and how many flits of other classes it has sent in a row past a BULK flit that
waits (R23). The receiving end: the number it expects and how often that flit has failed. -/
structure FabricLink where
  queue : List FabricFlit
  next : Nat
  sent : List (Nat × FabricFlit)
  passed : Nat
  expected : Nat
  fails : Nat
  deriving DecidableEq, Repr

def FabricLink.idle : FabricLink := ⟨[], 0, [], 0, 0, 0⟩

/-- The key of a link direction. -/
def linkKey (a b : Die) : Nat := 64 * a.num + b.num

/-- The flit that a sending end sends next: BULK when it has waited for seven of the last eight turns, its floor of 1/8;
else the oldest of the class of highest priority (R23). -/
def FabricLink.choose (l : FabricLink) : Option FabricFlit :=
  let of (c : FabricClass) : Option FabricFlit := l.queue.find? (fun f => f.cls == c)
  if 7 ≤ l.passed ∧ (of .bulk).isSome then of .bulk
  else ((of .ctrl).or (of .sec)).or ((of .rdc).or (of .bulk))

/-- A sending end after sending a flit, which it keeps among its last 64 (R22). -/
def FabricLink.record (l : FabricLink) (f : FabricFlit) : FabricLink :=
  let sent := l.sent ++ [(l.next, f)]
  { l with next := l.next + 1, sent := sent.drop (sent.length - 64) }

/-- A sending end after its next turn. -/
def FabricLink.send (l : FabricLink) : FabricLink :=
  match l.choose with
  | none => l
  | some f =>
    let waits := decide (f.cls ≠ .bulk) && l.queue.any (fun g => g.cls == .bulk)
    { l.record f with queue := l.queue.erase f, passed := if waits then l.passed + 1 else 0 }

/-- The end of a message of the link management channel (R373, R393): its CRC-32, and its authentication under the session. -/
structure LmcCheck where
  crc : BitVec 32
  auth : BitVec 128
  deriving DecidableEq, Repr

end Sys2Proof.Machine
end

