-- ==== Sys2Proof/Machine/HostState.lean ====
section
/-! DEFINITION. State of the host interface: ports, rings, contexts, accepted descriptors, completions and events that
wait for a slot end, the staged banks of Huddle, and the log of what leaves the device (chapter 13; R14, R15, R18). -/
namespace Sys2Proof.Machine
open Sys2Proof

/-- The two PCIe ports (R441): port A on HD0, port B on HD1. -/
inductive Port where
  | a | b
  deriving DecidableEq, Repr

def Port.other : Port → Port
  | .a => .b
  | .b => .a

/-- 0 for port A, 1 for port B (R523 CTRL_OWNER, R529 GRANT PORT). -/
def Port.num : Port → Nat
  | .a => 0
  | .b => 1

def Port.ofNum (n : Nat) : Port := if n = 0 then .a else .b

/-- The ring kinds of R452 by code. -/
inductive RingKind where
  | submit | adapter | complete | event | mailboxOut | mailboxIn
  deriving DecidableEq, Repr

def RingKind.ofCode (c : Nat) : Option RingKind :=
  match c with
  | 0 => some .submit | 1 => some .adapter | 2 => some .complete
  | 3 => some .event | 4 => some .mailboxOut | 5 => some .mailboxIn
  | _ => none

/-- Does the host produce the ring's entries (R452)? -/
def RingKind.hostProduced : RingKind → Bool
  | .submit | .adapter | .mailboxOut => true
  | .complete | .event | .mailboxIn => false

/-- Entry bytes (R452). -/
def RingKind.entryBytes : RingKind → Nat
  | .submit | .adapter | .mailboxOut | .mailboxIn => 64
  | .complete | .event => 32

/-- One ring (R453 to R457): its configuration, its two indices modulo 2^32, the completion entries reserved on it,
the events lost, whether a failed host read has stopped it (R442), and when its last message was sent. -/
structure Ring where
  base : Nat
  wb : Nat
  kind : RingKind
  log2 : Nat
  pair : Nat
  vec : Nat
  irqEn : Bool
  pasidEn : Bool
  pasid : Nat
  p : Nat
  c : Nat
  reserved : Nat
  lost : Nat
  stopped : Bool
  irqTs : Option Nat
  deriving DecidableEq, Repr

/-- An outer-scale slot of R63. -/
structure OscSlot where
  exp : Int
  count : Nat
  next : Nat
  fmt : Nat
  wexp : Int
  amax : List F32
  deriving DecidableEq, Repr

/-- One context (R466, R467): its function, doorbell page and session, its rings, its outer-scale slots, and whether
it will be destroyed at the next serve boundary (R468, R533, R535) and since when. -/
structure Context where
  port : Port
  func : Nat
  page : Nat
  session : Nat
  rings : Tbl Ring
  osc : Tbl OscSlot
  satTotal : Nat
  tearDown : Option Nat
  deriving DecidableEq, Repr

/-- A window ownership flag (R446). -/
structure WinFlag where
  own : Bool
  gen : Nat
  deriving DecidableEq, Repr

/-- An accepted, uncompleted descriptor (R456): its number in acceptance order, its ring, its 64 bytes, the window
slots it names, whether R449 held when it was accepted, whether its opcode's own steps have begun, the COMPLETE ring on which
an entry is reserved for it (R456), and the PASID of its ring (R453). -/
structure Accepted where
  did : Nat
  ctx : Nat
  ring : Nat
  desc : Desc
  slots : List Nat
  slotsOk : Bool
  readTs : Nat
  begun : Bool
  pair : Nat
  pasid : Option Nat
  deriving DecidableEq, Repr

/-- A completion whose work has ended and that waits for a slot end (R462, R29). -/
structure PendingCompletion where
  did : Nat
  status : Nat
  flags : Nat
  extra : Nat
  engine : Nat
  deriving DecidableEq, Repr

/-- Who receives an event: the operator's EVENT ring of the control-owner port (R466), or a context's. -/
inductive EventDest where
  | operator
  | context (ctx : Nat)
  deriving DecidableEq, Repr

/-- An event to be written at the slot end, which supplies bytes 24 to 31 when `stamp` is set. -/
structure PendingEvent where
  dest : EventDest
  event : Rec32
  stamp : Bool
  deriving DecidableEq, Repr

/-- The bank states of R474. -/
inductive BankPhase where
  | empty | staged | passed | pending | failed | applied | discarded
  deriving DecidableEq, Repr

/-- HDL_STATUS.STATE of R481. -/
def BankPhase.code : BankPhase → Nat
  | .empty => 0 | .staged => 1 | .passed => 2 | .pending => 3 | .failed => 4 | .applied => 5 | .discarded => 6

/-- A staged write: register key (block offset with its selector index), mask of the bits written, and the bits. -/
structure StagedWrite where
  key : Nat
  mask : Nat
  value : Nat
  deriving DecidableEq, Repr

/-- The check that is running (R475): one asked for by CHECK, or by APPLY with its apply point. -/
inductive RunningCheck where
  | check
  | apply (atTs : Option Nat)
  deriving DecidableEq, Repr

/-- A port's staging bank (R474 to R476): its writes in arrival order, the running check and how many of the writes it
covers, the apply point and when the bank became PENDING. -/
structure Bank where
  phase : BankPhase
  writes : List StagedWrite
  running : Option RunningCheck
  covered : Nat
  applyAt : Option Nat
  pendingTs : Nat
  deriving DecidableEq, Repr

def Bank.reset : Bank := ⟨.empty, [], none, 0, none, 0⟩

/-! The PCI identity and features of a function (R2, R441). -/

/-- What names a function in its configuration space. -/
structure PciIdentity where
  vendor : Nat
  device : Nat
  revision : Nat
  classCode : Nat
  deriving DecidableEq, Repr

/-- The identity of every PF and VF (R441): revision 0x01 is the one of R2. -/
def pciIdentity : PciIdentity := ⟨0x1F9E, 0x6400, 0x01, 0x120000⟩

/-- The largest payload and the largest read request in bytes, and the non-posted requests that a port may have outstanding
(R441). -/
def maxPayload : Nat := 512
def maxReadRequest : Nat := 4096
def maxOutstanding : Nat := 768

/-- First VF Offset and VF Stride (R441). -/
def firstVfOffset : Nat := 1
def vfStride : Nat := 1

/-- The number of a VF's function on its port, by ARI (R441). -/
def vfFunction (v : Nat) : Nat := firstVfOffset + (v - 1) * vfStride

/-- MSI-X vectors of a function (R441). -/
def msixVectors (func : Nat) : Nat := if func = 0 then 2048 else 16

/-- An MSI-X table entry. -/
structure MsixEntry where
  address : Nat
  data : Word
  masked : Bool
  deriving DecidableEq, Repr

/-- What a function's configuration space and MSI-X table hold beside its identity (R441): D3hot or D0, ATS, the AER
status words, and the vectors' entries. No command of the table writes them (assumption 234). -/
structure PciFunction where
  d3hot : Bool
  ats : Bool
  aerUncorrectable : Word
  aerCorrectable : Word
  msix : Tbl MsixEntry
  deriving DecidableEq, Repr

def PciFunction.reset : PciFunction := ⟨false, false, 0, 0, []⟩

/-- One port: its lines and link, its enabled VFs (R441), its functions' configuration spaces, its bank, its window flags
(R445; a slot not listed is host-owned with GEN 0), the latches of the reads that latch an upper half, and the operator's
events dropped while it has no EVENT ring (R466). -/
structure PortState where
  perst : Bool
  linkUp : Bool
  vfs : Nat
  bank : Bank
  flags : Tbl WinFlag
  latches : Tbl Nat
  opLost : Nat
  functions : Tbl PciFunction
  deriving DecidableEq, Repr

def PortState.reset : PortState := ⟨true, false, 0, .reset, [], [], 0, []⟩

/-- What leaves the device, in order (a log the model keeps; the spec's device sends these). -/
inductive Output where
  /-- An entry of a device-produced ring written to host memory (R454, R455), with the PASID of the ring's requests (R453). -/
  | ringEntry (ctx ring addr bytes value : Nat) (pasid : Option Nat)
  /-- A writeback record (R455), with the PASID of the ring's requests. -/
  | writeback (ctx ring addr value : Nat) (pasid : Option Nat)
  /-- An MSI-X message (R457). -/
  | msix (port : Port) (func vec : Nat)
  /-- The value a host read returns. -/
  | readData (port : Port) (value : Nat)
  /-- Bytes a host read of the window returns (R448). -/
  | windowData (port : Port) (func : Nat) (data : List Byte)
  /-- A host read completed with Completer Abort (R489). -/
  | completerAbort (port : Port) (func : Nat)
  /-- Bytes written to host memory for a descriptor (R295), with the PASID of its ring. -/
  | hostWrite (ctx addr : Nat) (data : List Byte) (pasid : Option Nat)
  /-- A packet handed to a Mirgarlink output port: header fields and payload (R378). -/
  | packet (port kind vc dest : Nat) (header : List Nat) (data : List Byte)
  /-- A frame sent on a port: number, key slot, ENC, TAG and flits 1 to 1,023 (R375). -/
  | frame (port seq keyEpoch : Nat) (enc : Bool) (tag : BitVec 128) (flits : List Byte)
  /-- A message of the link management channel with its CRC-32 and authentication (R373, R393): 1 replay request, 2 SYNC_REQ, 3
  SYNC_REPLY, 4 credit return, 5 the offer of a session handshake, 6 the signature of its transcript. -/
  | lmc (port kind : Nat) (fields : List Nat) (check : LmcCheck)
  /-- A resend request on a fabric link, from its receiving end to its sending end (R22). -/
  | fabricResend (src dst : Die) (sequence : Nat)
  /-- A flit sent on a fabric link (R22, R23), with its SC8 check symbols in the sideband (R486). -/
  | fabricFlit (src dst : Die) (sequence : Nat) (flit : FabricFlit) (check : List Byte)
  /-- An SPDM or tenant reply on a port's DOE mailbox (R526, R529). -/
  | spdm (port : Port) (code status : Nat) (body : List Byte)
  /-- A reply on the SMBus (R644). -/
  | smbus (command value : Nat)
  /-- Bits shifted out of the TAP (R538). -/
  | tap (data : List Byte)
  /-- A request for a further flash transfer during boot (R599). -/
  | bootRequest (source offset : Nat)
  deriving DecidableEq, Repr

/-- The host interface. `owner` is the control owner (R471); `heartbeatTs` is when its heartbeat limit last started;
`hbLost` says that the limit has expired (R472); `nextDid` numbers descriptors in acceptance order; `latches` are the upper
halves that reads of the shared blocks have latched (R78, R335, R437, R618, R619; R576 gives each port its own in SCB_ and
PMU_ only). -/
structure HostState where
  owner : Port
  heartbeatTs : Nat
  hbLost : Bool
  portA : PortState
  portB : PortState
  contexts : Tbl Context
  accepted : List Accepted
  nextDid : Nat
  completions : List PendingCompletion
  events : List PendingEvent
  latches : Tbl Nat
  out : List Output
  deriving DecidableEq, Repr

def HostState.reset : HostState :=
  { owner := .a, heartbeatTs := 0, hbLost := false, portA := .reset, portB := .reset, contexts := [],
    accepted := [], nextDid := 0, completions := [], events := [], latches := [], out := [] }

def HostState.port (h : HostState) : Port → PortState
  | .a => h.portA
  | .b => h.portB

def HostState.setPort (h : HostState) (p : Port) (x : PortState) : HostState :=
  match p with
  | .a => { h with portA := x }
  | .b => { h with portB := x }

end Sys2Proof.Machine
end

