-- ==== Sys2Proof/Machine/Numbers.lean ====
section
/-! DEFINITION. Exact numbers and IEEE 754 binary32 arithmetic as the spec uses it: the element encodings of R39
to R42, the roundings of R55 and R60, the primitives of R129, and the exact sums of R51 and R93. A number is held
exactly (a sign, a natural mantissa and a power of two), and rounding happens only in `roundMag`. -/
namespace Sys2Proof.Machine
open Sys2Proof

/-- An exact value as R39 and R41 distinguish them: NaN, a signed infinity, or `(-1)^neg * m * 2^e` (a zero keeps its sign). -/
inductive Num where
  | nan
  | inf (neg : Bool)
  | fin (neg : Bool) (m : Nat) (e : Int)
  deriving DecidableEq, Repr

/-- The parameters of a floating-point format (R39): exponent and mantissa widths, bias, the code of the largest
finite magnitude, and the magnitude codes of infinity and of the canonical NaN where the format has them (R42). -/
structure FloatFmt where
  expBits : Nat
  manBits : Nat
  bias : Int
  maxFin : Nat
  infCode : Option Nat
  nanCode : Option Nat
  deriving DecidableEq, Repr

namespace FloatFmt
def fp32 : FloatFmt := ⟨8, 23, 127, 0x7F7FFFFF, some 0x7F800000, some 0x7FC00000⟩
def bf16 : FloatFmt := ⟨8, 7, 127, 0x7F7F, some 0x7F80, some 0x7FC0⟩
def fp16 : FloatFmt := ⟨5, 10, 15, 0x7BFF, some 0x7C00, some 0x7E00⟩
def e4m3 : FloatFmt := ⟨4, 3, 7, 0x7E, none, some 0x7F⟩
def e5m2 : FloatFmt := ⟨5, 2, 15, 0x7B, some 0x7C, some 0x7E⟩
def e3m2 : FloatFmt := ⟨3, 2, 3, 0x1F, none, none⟩
def e2m3 : FloatFmt := ⟨2, 3, 1, 0x1F, none, none⟩
def e2m1 : FloatFmt := ⟨2, 1, 1, 0x7, none, none⟩
/-- The multiplier's internal format (R47, R48). -/
def e5m3 : FloatFmt := ⟨5, 3, 15, 0xFF, none, none⟩

/-- Width of a code without its sign bit. -/
def magBits (f : FloatFmt) : Nat := f.expBits + f.manBits
/-- Exponent of the smallest normal (R60's emin). -/
def emin (f : FloatFmt) : Int := 1 - f.bias
end FloatFmt

/-- The exact magnitude `m * 2^e` of a finite magnitude code (R39). -/
def magValue (f : FloatFmt) (mag : Nat) : Nat × Int :=
  let E := mag >>> f.manBits
  let M := mag % 2 ^ f.manBits
  if E = 0 then (M, f.emin - f.manBits)
  else (2 ^ f.manBits + M, (E : Int) - f.bias - f.manBits)

/-- The value of a code (R39). -/
def decodeFloat (f : FloatFmt) (code : Nat) : Num :=
  let neg := code.testBit f.magBits
  let mag := code % 2 ^ f.magBits
  if mag ≤ f.maxFin then
    let v := magValue f mag
    .fin neg v.1 v.2
  else if f.infCode = some mag then .inf neg
  else .nan

/-- How a magnitude is rounded: to nearest even (R55), or stochastically with 16 random bits (R60). -/
inductive Rounding where
  | rne
  | sr (r : Nat)
  deriving DecidableEq, Repr

/-- floor of log2 of the exact magnitude, for `m > 0`. -/
def floorLog2 (m : Nat) (e : Int) : Int := (Nat.log2 m : Int) + e

/-- `m * 2^k` rounded down, and whether anything was lost, for an integer shift `k`. -/
def shiftDown (m : Nat) (k : Int) : Nat × Bool :=
  if 0 ≤ k then (m <<< k.toNat, false)
  else (m >>> (-k).toNat, m % 2 ^ (-k).toNat ≠ 0)

/-- The integer nearest `m * 2^k` by the rounding given; `sticky` says that the exact magnitude lies strictly
above `m * 2^k` by less than one unit of `m`'s last place (R55, R60). -/
def roundInt (rnd : Rounding) (m : Nat) (k : Int) (sticky : Bool) : Nat :=
  if 0 ≤ k then m <<< k.toNat
  else
    let d := (-k).toNat
    let q := m >>> d
    let rem := m % 2 ^ d
    match rnd with
    | .rne =>
      let half := 2 ^ (d - 1)
      if rem > half ∨ (rem = half ∧ (sticky ∨ q % 2 = 1)) then q + 1 else q
    | .sr r => if (rem * 65536) >>> d + r ≥ 65536 then q + 1 else q

/-- The magnitude code nearest `m * 2^e`; it may exceed the format's largest finite code (R54, R55, R60). -/
def roundMag (f : FloatFmt) (rnd : Rounding) (m : Nat) (e : Int) (sticky : Bool := false) : Nat :=
  if m = 0 then 0
  else
    let ee := max (floorLog2 m e) f.emin
    let q := roundInt rnd m (e - (ee - f.manBits)) sticky
    (ee - f.emin).toNat * 2 ^ f.manBits + q

/-- The code of a magnitude with its sign. -/
def signCode (f : FloatFmt) (neg : Bool) (mag : Nat) : Nat :=
  if neg then 2 ^ f.magBits + mag else mag

/-- Round an exact magnitude to FP32 by RNE; IEEE 754 overflow gives an infinity (R51, R129). -/
def packMag32 (neg : Bool) (m : Nat) (e : Int) (sticky : Bool := false) : F32 :=
  let c := roundMag .fp32 .rne m e sticky
  BitVec.ofNat 32 (signCode .fp32 neg (min c 0x7F800000))

/-- The canonical quiet NaN of FP32 (R42). -/
def nan32 : F32 := 0x7FC00000#32
def zero32 : F32 := 0x00000000#32
def one32 : F32 := 0x3F800000#32
def inf32 (neg : Bool) : F32 := if neg then 0xFF800000#32 else 0x7F800000#32

/-- Round an exact value to FP32 by RNE, one rounding (rne32 of R93 and R129). -/
def round32 : Num → F32
  | .nan => nan32
  | .inf n => inf32 n
  | .fin n m e => packMag32 n m e

/-- The value of FP32 bits. -/
def val32 (x : F32) : Num := decodeFloat .fp32 x.toNat

def Num.isNaN : Num → Bool
  | .nan => true
  | _ => false
def Num.isFinite : Num → Bool
  | .fin _ _ _ => true
  | _ => false
def isNaN32 (x : F32) : Bool := (val32 x).isNaN
def isFinite32 (x : F32) : Bool := (val32 x).isFinite
/-- Neither infinite nor finite: counted by R177. -/
def nonFinite32 (x : F32) : Bool := !(isFinite32 x)

/-- The exact value times 2^k. -/
def Num.scale (k : Int) : Num → Num
  | .fin n m e => .fin n m (e + k)
  | v => v

def Num.neg : Num → Num
  | .nan => .nan
  | .inf n => .inf (!n)
  | .fin n m e => .fin (!n) m e

def Num.abs : Num → Num
  | .nan => .nan
  | .inf _ => .inf false
  | .fin _ m e => .fin false m e

/-- A signed mantissa. -/
def signedMant (neg : Bool) (m : Nat) : Int := if neg then -(m : Int) else (m : Int)

/-- The exact sum, with IEEE 754's sign of a zero sum under RNE and its rule for infinities (R50, R93). -/
def Num.add : Num → Num → Num
  | .nan, _ => .nan
  | _, .nan => .nan
  | .inf a, .inf b => if a = b then .inf a else .nan
  | .inf a, .fin _ _ _ => .inf a
  | .fin _ _ _, .inf b => .inf b
  | .fin na ma ea, .fin nb mb eb =>
    if ma = 0 ∧ mb = 0 then .fin (na && nb) 0 0
    else if ma = 0 then .fin nb mb eb
    else if mb = 0 then .fin na ma ea
    else
      let e := min ea eb
      let s := signedMant na (ma <<< (ea - e).toNat) + signedMant nb (mb <<< (eb - e).toNat)
      if s = 0 then .fin false 0 0 else .fin (decide (s < 0)) s.natAbs e

/-- The exact product, with NaN for infinity times zero (R50). -/
def Num.mul : Num → Num → Num
  | .nan, _ => .nan
  | _, .nan => .nan
  | .inf a, .inf b => .inf (a != b)
  | .inf a, .fin b m _ => if m = 0 then .nan else .inf (a != b)
  | .fin a m _, .inf b => if m = 0 then .nan else .inf (a != b)
  | .fin a ma ea, .fin b mb eb => .fin (a != b) (ma * mb) (ea + eb)

/-- rne32 of a sum (R129). -/
def add32 (a b : F32) : F32 := round32 ((val32 a).add (val32 b))
def sub32 (a b : F32) : F32 := round32 ((val32 a).add (val32 b).neg)
/-- rne32 of a product (R129). -/
def mul32 (a b : F32) : F32 := round32 ((val32 a).mul (val32 b))
/-- a*b + c rounded once (R129). -/
def fma32 (a b c : F32) : F32 := round32 (((val32 a).mul (val32 b)).add (val32 c))
def neg32 (a : F32) : F32 := if isNaN32 a then nan32 else a ^^^ 0x80000000#32
def abs32 (a : F32) : F32 := if isNaN32 a then nan32 else a &&& 0x7FFFFFFF#32

/-- Correctly rounded division (R129). -/
def div32 (a b : F32) : F32 :=
  match val32 a, val32 b with
  | .nan, _ => nan32
  | _, .nan => nan32
  | .inf _, .inf _ => nan32
  | .inf x, .fin y _ _ => inf32 (x != y)
  | .fin x _ _, .inf y => packMag32 (x != y) 0 0
  | .fin x ma ea, .fin y mb eb =>
    if mb = 0 then (if ma = 0 then nan32 else inf32 (x != y))
    else
      let n := ma <<< 80
      packMag32 (x != y) (n / mb) (ea - 80 - eb) (n % mb ≠ 0)

/-- Integer square root by bits: `isqrtLoop k n r` extends the root `r` by the bits k-1 … 0. -/
def isqrtLoop : Nat → Nat → Nat → Nat
  | 0, _, r => r
  | k + 1, n, r =>
    let t := r + 2 ^ k
    isqrtLoop k n (if t * t ≤ n then t else r)

/-- Correctly rounded square root (R129); the root of -0 is -0. -/
def sqrt32 (a : F32) : F32 :=
  match val32 a with
  | .nan => nan32
  | .inf n => if n then nan32 else inf32 false
  | .fin n m e =>
    if m = 0 then a
    else if n then nan32
    else
      let m' := if e % 2 = 0 then m <<< 80 else m <<< 81
      let e' := if e % 2 = 0 then e - 80 else e - 81
      let r := isqrtLoop 64 m' 0
      packMag32 false r (e' / 2) (r * r ≠ m')

/-- Ordered "less than" of exact values; false when either is NaN, and +0 = -0. -/
def Num.lt : Num → Num → Bool
  | .nan, _ => false
  | _, .nan => false
  | .inf a, .inf b => a && !b
  | .inf a, .fin _ _ _ => a
  | .fin _ _ _, .inf b => !b
  | .fin na ma ea, .fin nb mb eb =>
    let e := min ea eb
    decide (signedMant na (ma <<< (ea - e).toNat) < signedMant nb (mb <<< (eb - e).toNat))

/-- "At most": false when either is NaN. -/
def Num.le (a b : Num) : Bool := !a.isNaN && !b.isNaN && !(b.lt a)

def lt32 (a b : F32) : Bool := (val32 a).lt (val32 b)
def le32 (a b : F32) : Bool := (val32 a).le (val32 b)
/-- Is the value zero, of either sign? -/
def isZero32 (a : F32) : Bool := (a &&& 0x7FFFFFFF#32) == 0#32

/-- Maximum with the NaN and zero rules of R135 and R650. -/
def max32 (a b : F32) : F32 :=
  if isNaN32 a || isNaN32 b then nan32
  else if isZero32 a && isZero32 b then (if a == zero32 || b == zero32 then zero32 else a)
  else if lt32 a b then b else a

/-- Minimum with the NaN and zero rules of R650. -/
def min32 (a b : F32) : F32 :=
  if isNaN32 a || isNaN32 b then nan32
  else if isZero32 a && isZero32 b then (if a == zero32 && b == zero32 then zero32 else 0x80000000#32)
  else if lt32 b a then b else a

/-- An integer rounded to FP32 by RNE (R98, R130). -/
def ofInt32 (i : Int) : F32 := packMag32 (decide (i < 0)) i.natAbs 0
/-- A natural number as FP32 (exact where R141 says so). -/
def ofNat32 (n : Nat) : F32 := packMag32 false n 0

/-- Saturation to the INT32 range, and whether it acted (R52). -/
def satInt32 (i : Int) : Int × Bool :=
  if i < -(2 ^ 31 : Int) then (-(2 ^ 31 : Int), true)
  else if i > 2 ^ 31 - 1 then (2 ^ 31 - 1, true)
  else (i, false)

/-- `v * 2^n` with one rounding to FP32 (scale2 of R137; POST_EXP of R98). -/
def scale32 (v : F32) (n : Int) : F32 := round32 ((val32 v).scale n)

end Sys2Proof.Machine
end

