-- ==== Sys2Proof/Machine/Operands.lean ====
section
/-! DEFINITION. Operand formats (R38), the storage of elements, blocks and scale groups (R43 to R46), the multiplier's
E5M3 expansion (R48, R49), the crosswise BF16 expansion (R108), the FP32 expansion of R130, and the 16-byte tensor
entry of R70. Memory is read through a byte function, so that the court buffer, SRAM and LPDDR5X read alike. -/
namespace Sys2Proof.Machine
open Sys2Proof

/-- The formats of R38. -/
inductive Fmt where
  | fp32 | bf16 | fp16 | e4m3 | e5m2 | int8 | int4 | int32
  | mxE4m3 | mxE5m2 | mxE3m2 | mxE2m3 | mxE2m1 | mxInt8 | iq4z
  deriving DecidableEq, Repr

/-- The format a code names; other codes are refused (R38). -/
def Fmt.ofCode (c : Nat) : Option Fmt :=
  match c with
  | 0x00 => some .fp32 | 0x01 => some .bf16 | 0x02 => some .fp16 | 0x03 => some .e4m3
  | 0x04 => some .e5m2 | 0x05 => some .int8 | 0x06 => some .int4 | 0x07 => some .int32
  | 0x10 => some .mxE4m3 | 0x11 => some .mxE5m2 | 0x12 => some .mxE3m2 | 0x13 => some .mxE2m3
  | 0x14 => some .mxE2m1 | 0x15 => some .mxInt8 | 0x20 => some .iq4z
  | _ => none

def Fmt.code : Fmt → Nat
  | .fp32 => 0x00 | .bf16 => 0x01 | .fp16 => 0x02 | .e4m3 => 0x03 | .e5m2 => 0x04 | .int8 => 0x05
  | .int4 => 0x06 | .int32 => 0x07 | .mxE4m3 => 0x10 | .mxE5m2 => 0x11 | .mxE3m2 => 0x12
  | .mxE2m3 => 0x13 | .mxE2m1 => 0x14 | .mxInt8 => 0x15 | .iq4z => 0x20

/-- Bits of one element (R38). -/
def Fmt.elemBits : Fmt → Nat
  | .fp32 | .int32 => 32
  | .bf16 | .fp16 => 16
  | .e4m3 | .e5m2 | .int8 | .mxE4m3 | .mxE5m2 | .mxInt8 => 8
  | .mxE3m2 | .mxE2m3 => 6
  | .int4 | .mxE2m1 | .iq4z => 4

/-- The floating-point element encoding, where the format has one (R39). -/
def Fmt.float : Fmt → Option FloatFmt
  | .fp32 => some .fp32 | .bf16 => some .bf16 | .fp16 => some .fp16
  | .e4m3 | .mxE4m3 => some .e4m3 | .e5m2 | .mxE5m2 => some .e5m2
  | .mxE3m2 => some .e3m2 | .mxE2m3 => some .e2m3 | .mxE2m1 => some .e2m1
  | _ => none

/-- Does a block scale of E8M0 per 32 elements lead the row's groups (R38, R44)? -/
def Fmt.blockScaled : Fmt → Bool
  | .mxE4m3 | .mxE5m2 | .mxE3m2 | .mxE2m3 | .mxE2m1 | .mxInt8 | .iq4z => true
  | _ => false

/-- An operand of the array (R38). -/
def Fmt.arrayOperand : Fmt → Bool
  | .fp32 | .int32 => false
  | _ => true

/-- May a conversion write the format (R38)? -/
def Fmt.output : Fmt → Bool
  | .int4 | .iq4z | .int32 => false
  | _ => true

def Fmt.sixteenBit (f : Fmt) : Bool := f = .bf16 || f = .fp16
def Fmt.fp4Class (f : Fmt) : Bool := f = .int4 || f = .mxE2m1 || f = .iq4z
def Fmt.fp8Class (f : Fmt) : Bool :=
  f = .e4m3 || f = .e5m2 || f = .mxE4m3 || f = .mxE5m2 || f = .mxE3m2 || f = .mxE2m3

/-- The multiplier paths of R47. -/
inductive MulPath where
  | e5m3 | int8 | mxint8 | bits16
  deriving DecidableEq, Repr

/-- The path for a pair of operand formats, none where R47's table lists no such pair. -/
def mulPath (a b : Fmt) : Option MulPath :=
  if a = .int8 ∧ b = .int8 then some .int8
  else if a = .mxInt8 ∧ b = .mxInt8 then some .mxint8
  else
    let narrow (f : Fmt) : Bool := f.fp4Class || f.fp8Class
    if narrow a && narrow b then some .e5m3
    else if (a.sixteenBit && (b.sixteenBit || narrow b)) || (b.sixteenBit && narrow a) then some .bits16
    else none

/-- Offset of the element codes inside a scale group (R44). -/
def Fmt.groupHead : Fmt → Nat
  | .iq4z => 12
  | _ => 8

/-- Bytes of one scale group of 256 elements (R44). -/
def Fmt.groupBytes : Fmt → Nat
  | .iq4z => 144
  | f => 8 + 32 * f.elemBits

/-- Bytes of a stored row of `n` elements (R43, R44). -/
def Fmt.rowBytes (f : Fmt) (n : Nat) : Nat :=
  if f.blockScaled then ceilDiv n 256 * f.groupBytes else ceilDiv (n * f.elemBits) 8

/-- A little-endian number of `n` bytes at an address. -/
def readNat (rd : Nat → Byte) (addr : Nat) : Nat → Nat
  | 0 => 0
  | n + 1 => (rd addr).toNat + 256 * readNat rd (addr + 1) n

/-- Byte address of the scale byte of element `k`'s block (R44). -/
def scaleAddr (f : Fmt) (row k : Nat) : Nat := row + k / 256 * f.groupBytes + k % 256 / 32

/-- The code of element `k` of the row at address `row` (R43 to R45). -/
def elemCode (rd : Nat → Byte) (f : Fmt) (row k : Nat) : Nat :=
  if f.blockScaled then
    let blk := row + k / 256 * f.groupBytes + f.groupHead + k % 256 / 32 * (4 * f.elemBits)
    let bit := k % 32 * f.elemBits
    bitsOf (readNat rd (blk + bit / 8) 2) (bit % 8) f.elemBits
  else if f = .int4 then bitsOf (rd (row + k / 2)).toNat (4 * (k % 2)) 4
  else readNat rd (row + k * (f.elemBits / 8)) (f.elemBits / 8)

/-- The scale byte over element `k`; formats without block scales read as 2^0. -/
def blockScale (rd : Nat → Byte) (f : Fmt) (row k : Nat) : Nat :=
  if f.blockScaled then (rd (scaleAddr f row k)).toNat else 0x7F

/-- The IQ4Z zero point of element `k`'s block (R44). -/
def zeroPoint (rd : Nat → Byte) (row k : Nat) : Nat :=
  let b := k % 256 / 32
  bitsOf (rd (row + k / 256 * 144 + 8 + b / 2)).toNat (4 * (b % 2)) 4

/-- An exact signed integer times a power of two. -/
def Num.ofInt (i : Int) (e : Int) : Num := .fin (decide (i < 0)) i.natAbs e

/-- The exact value of an element before block scaling: R39 for the floating-point formats, R40 for the integers,
R49 for IQ4Z codes. -/
def elemNum (rd : Nat → Byte) (f : Fmt) (row k : Nat) : Num :=
  let c := elemCode rd f row k
  match f with
  | .int8 => .ofInt (signed 8 c) 0
  | .mxInt8 => .ofInt (signed 8 c) (-6)
  | .int4 => .ofInt (signed 4 c) 0
  | .int32 => .ofInt (signed 32 c) 0
  | .iq4z => .ofInt ((c : Int) - zeroPoint rd row k) 0
  | .fp32 => decodeFloat .fp32 c
  | .bf16 => decodeFloat .bf16 c
  | .fp16 => decodeFloat .fp16 c
  | .e4m3 | .mxE4m3 => decodeFloat .e4m3 c
  | .e5m2 | .mxE5m2 => decodeFloat .e5m2 c
  | .mxE3m2 => decodeFloat .e3m2 c
  | .mxE2m3 => decodeFloat .e2m3 c
  | .mxE2m1 => decodeFloat .e2m1 c

/-- The 9-bit E5M3 code of a narrow value (R48, R49): sign in bit 8, exponent in [7:3], mantissa in [2:0]. NaN and
infinity have none (R50 carries them beside). -/
def e5m3Code : Num → Option Nat
  | .fin n m e => some (signCode .e5m3 n (roundMag .e5m3 .rne m e))
  | _ => none

/-- The value that reaches the multiplier (R48 to R50): the E5M3 value of a narrow code, with its special flag. -/
def multiplierNum (v : Num) : Num :=
  match e5m3Code v with
  | some c => decodeFloat .e5m3 c
  | none => v

/-- A block-scaled element read crosswise: its BF16 value (R108), and whether it was rounded or limited. -/
def crosswiseNum (rd : Nat → Byte) (f : Fmt) (row k : Nat) : Num × Bool :=
  let s := blockScale rd f row k
  if s = 0xFF then (.nan, false)
  else
    match (elemNum rd f row k).scale ((s : Int) - 127) with
    | .fin n m e =>
      let c := roundMag .bf16 .rne m e
      let c' := min c FloatFmt.bf16.maxFin
      let v := magValue .bf16 c'
      let r : Num := .fin n v.1 v.2
      (r, r.lt (.fin n m e) || (Num.fin n m e).lt r)
    | v => (v, false)

/-- R130: an element expanded to FP32 with its block scale and the outer-scale exponent `outer`. -/
def expand32 (rd : Nat → Byte) (f : Fmt) (outer : Int) (row k : Nat) : F32 :=
  let s := blockScale rd f row k
  if s = 0xFF ∧ f.blockScaled then nan32
  else round32 ((elemNum rd f row k).scale ((s : Int) - 127 + outer))

/-- The tensor entry of R70. -/
structure TensorEntry where
  tensorId : Nat
  fmtCode : Nat
  rnd : Bool
  grad : Bool
  satFlag : Bool
  oscEn : Bool
  satFrac : Nat
  oscSlot : Nat
  initExp : Int
  reservedBits : Nat
  deriving DecidableEq, Repr

/-- The fields of a 16-byte tensor entry (R70); `reservedBits` gathers the bits that must be zero. -/
def TensorEntry.ofBits (c : BitVec 128) : TensorEntry where
  tensorId := fld c 0 0 32
  fmtCode := fld c 4 0 8
  rnd := fld c 4 8 1 = 1
  grad := fld c 4 9 1 = 1
  satFlag := fld c 4 10 1 = 1
  oscEn := fld c 4 11 1 = 1
  satFrac := fld c 4 16 16
  oscSlot := fld c 8 0 10
  initExp := signed 8 (fld c 8 16 8)
  reservedBits := fld c 4 12 4 + fld c 8 10 6 + fld c 8 24 8 + fld c 12 0 32

/-- The entry's format; FP32 stands in for a code the load check refuses (R38). -/
def TensorEntry.fmt (t : TensorEntry) : Fmt := (Fmt.ofCode t.fmtCode).getD .fp32

/-- A tensor entry of plain FP32 without outer scale, the format of an input whose field is 0xFFFF (R650). -/
def TensorEntry.plain : TensorEntry := ⟨0, 0, false, false, false, false, 0, 0, 0, 0⟩

/-- What one command's output is of a logical tensor (R61, R62, R164): where the output starts, the row and column of the
tensor that its first element holds, and the length of the tensor's rows. The commands of this hardware have no field for
it; an image brings it beside its programs (assumption 142). -/
structure TensorPart where
  tensor : Nat
  addr : Nat
  row : Nat
  col : Nat
  rowLen : Nat
  deriving DecidableEq, Repr

/-- The part that the output at an address is of a tensor; an output that no part names is a whole tensor of its own rows. -/
def partOf (ps : List TensorPart) (tensor addr rowLen : Nat) : TensorPart :=
  (ps.find? (fun p => p.tensor == tensor && p.addr == addr)).getD ⟨tensor, addr, 0, 0, rowLen⟩

/-- The index in the logical tensor, in row-major order, of a position of the part's own row `line` (R61). -/
def TensorPart.index (p : TensorPart) (line pos : Nat) : Nat := (p.row + line) * p.rowLen + p.col + pos

/-- The random value of R61. -/
def srBits (seed tensorId index : Nat) : Nat :=
  let key := mix64 (seed ^^^ (tensorId <<< 32) ^^^ 0x9E3779B97F4A7C15)
  let word := mix64 (key + index >>> 2)
  bitsOf word (16 * (index % 4)) 16

/-- The rounding of element `index` of a tensor (R59, R60, R61). -/
def TensorEntry.rounding (t : TensorEntry) (seed index : Nat) : Rounding :=
  if t.grad then .sr (srBits seed t.tensorId index) else .rne

end Sys2Proof.Machine
end

