-- ==== Sys2Proof/Machine/UmpState.lean ====
section
/-! DEFINITION. State of the Umpire and of the serve loop: schedule images, the slot, the running work, ready serves,
practice steps, deficits, reservations, accounting, streams and their requests (chapters 8, 9 and 10; R70, R465). -/
namespace Sys2Proof.Machine
open Sys2Proof

/-- The prefix declaration of R254. -/
structure PrefixDecl where
  plenMax : Nat
  fmt : Nat
  dKv : Nat
  slots : Nat
  budgetDie : Nat
  gatherRate : Nat
  deriving DecidableEq, Repr

/-- The KV declaration of R305. -/
structure KvDecl where
  cls : Nat
  kvFmt : Nat
  dKv : Nat
  layers : Nat
  ctxMax : Nat
  joinTokMax : Nat
  zeroMax : Nat
  tokDieMax : Nat
  mapOff : Nat
  outExtra : Nat
  kvSem : Nat
  deriving DecidableEq, Repr

/-- One stream-table entry of R209. -/
structure StreamEntry where
  layer : Nat
  source : Nat
  dstOff : Nat
  dueNs : Nat
  deriving DecidableEq, Repr

/-- A channel declaration of R407 with the commands of its program. -/
structure ChannelDecl where
  ch : Nat
  axes : Nat
  commands : List Desc
  deriving DecidableEq, Repr

/-- The group declaration of R407. -/
structure GroupDecl where
  voteNs : Nat
  sizes : List Nat
  channels : List ChannelDecl
  deriving DecidableEq, Repr

/-- What a run of addresses in a practice segment's gather commands stands for (assumption 220): the state image that the step
reads or writes (R182), the shadow of a listed adapter or of a sequence's adapter (R276), the update record of an OPT, named by
its AUX_ADDR (R176), or the batch block (R286). -/
inductive BoundItem where
  | stateIn (adapter : Nat)
  | stateOut (adapter : Nat)
  | shadow (adapter : Nat)
  | sequence (index : Nat)
  | record (adapter aux : Nat)
  | batch
  deriving DecidableEq, Repr

/-- A binding: `bytes` addresses from `base` stand for an item's bytes from `offset`. -/
structure Binding where
  base : Nat
  bytes : Nat
  item : BoundItem
  offset : Nat
  deriving DecidableEq, Repr

/-- The programs of a serve class or of one practice segment, as words (R465): stream-table entries (R209), tile programs
by court (R109), vector programs by engine (R131), gather programs by gather engine (R264); and which parts of logical
tensors their outputs are (R61, R164), the bindings of their gather commands, and the working copy that each update record
names, as (AUX_ADDR, WC_ADDR) (R174, R176). -/
structure ProgramSet where
  streams : List (BitVec 128)
  tile : List (Nat × List Desc)
  vec : List (Nat × List Desc)
  gather : List (Nat × List Desc)
  parts : List TensorPart := []
  binds : List Binding := []
  working : List (Nat × Nat) := []
  deriving DecidableEq, Repr

/-- No programs. -/
def ProgramSet.empty : ProgramSet := { streams := [], tile := [], vec := [], gather := [] }

/-- A serve class of a loaded image: its declared WCET at the floor clock in ns (R30, R339), its declarations, its
stream table, its programs, the tensor entries its commands write, and its group declaration when it sends on channels
(R351). -/
structure ServeClass where
  wcet : Nat
  kv : KvDecl
  pre : PrefixDecl
  streams : List StreamEntry
  programs : ProgramSet
  tensors : List Nat
  group : Option GroupDecl
  deriving DecidableEq, Repr

/-- A segment of a practice program: its WCET (R31), its stream table, its programs and the tensor entries it writes. -/
structure Segment where
  wcet : Nat
  streams : List StreamEntry
  programs : ProgramSet
  tensors : List Nat
  deriving DecidableEq, Repr

/-- A practice program of R274 with its segments in order (R31). -/
structure Program where
  programId : Nat
  lossMode : Nat
  kWide : Nat
  kNarrow : Nat
  optMode : Nat
  seqMax : Nat
  tokMax : Nat
  parts : Nat
  teacher : Nat
  layers : Nat
  plen : Nat
  dKv : Nat
  fmt : Nat
  maxAdapters : Nat
  segments : List Segment
  group : Option GroupDecl
  deriving DecidableEq, Repr

/-- A loaded schedule image (R465): the bank image it is bound to, its digest (R525, R533), and its contents. -/
structure Image where
  imageId : Nat
  digest : Nat
  unloading : Bool
  unloadDid : Option Nat
  layers : Nat
  classes : List ServeClass
  programs : List Program
  tensors : List TensorEntry
  deriving DecidableEq, Repr

/-- What an accounting record charges (R359, R361), and the events energy is computed from (R362, classes 0 to 8). -/
structure Charges where
  cubeCyc : Nat
  vecCyc : Nat
  wsBytes : Nat
  sramBytes : Nat
  lpddrBytes : Nat
  pcieBytes : Nat
  mglTx : Nat
  mglRx : Nat
  macs8 : Nat
  macs4 : Nat
  macs16 : Nat
  vecOps : Nat
  deriving DecidableEq, Repr

def Charges.zero : Charges := ⟨0, 0, 0, 0, 0, 0, 0, 0, 0, 0, 0, 0⟩

def Charges.add (a b : Charges) : Charges :=
  ⟨a.cubeCyc + b.cubeCyc, a.vecCyc + b.vecCyc, a.wsBytes + b.wsBytes, a.sramBytes + b.sramBytes,
   a.lpddrBytes + b.lpddrBytes, a.pcieBytes + b.pcieBytes, a.mglTx + b.mglTx, a.mglRx + b.mglRx,
   a.macs8 + b.macs8, a.macs4 + b.macs4, a.macs16 + b.macs16, a.vecOps + b.vecOps⟩

/-- The kinds of running work (R338, R67). -/
inductive WorkKind where
  | serve | segment | probe | probeSegment
  deriving DecidableEq, Repr

/-- Why running work was discarded (R341, R355, R550, R562, R498, R419). -/
inductive DiscardCause where
  | substitution | overrun | teardown | fence | hold | violation | shard | adapterLost | device | group
  deriving DecidableEq, Repr

/-- A tensor converted under an outer scale, or counted, by the running work (R64, R72). -/
structure TensorUse where
  clamped : Nat
  elements : Nat
  amax : F32
  exp : Int
  deriving DecidableEq, Repr

/-- The serve or segment on the array: its context, descriptor and step number, its start, when its computation ended,
why it was discarded, its 1,024 semaphores (R357), its charges, what its conversions measured, its skipped
updates as (REASON, tensor entry, SKIPPED) (R179), and per compute die the layers whose write-back has started and is
acknowledged (R321). -/
structure Work where
  kind : WorkKind
  ctx : Nat
  did : Nat
  stepNo : Nat
  isSealed : Bool
  imgSlot : Nat
  cls : Nat
  seed : Nat
  start : Nat
  ended : Option Nat
  discarded : Option DiscardCause
  sems : Tbl Nat
  charges : Charges
  uses : Tbl TensorUse
  skips : List (Nat × Nat × Nat)
  nans : Nat
  late : Nat
  violation : Bool
  writebacks : Tbl (Nat × Nat)
  deriving DecidableEq, Repr

/-- What happened to one request-list entry (R312, R329); `len` is LEN at the boundary, or at the request's end. -/
structure EntryOutcome where
  reqId : Nat
  status : Nat
  ended : Bool
  stepped : Bool
  len : Nat
  deriving DecidableEq, Repr

/-- A SERVE whose descriptor passed R308 and that has not completed: its descriptor's fields, how often it has been
discarded, and, once its boundary has settled it, its serve number, its entries' outcomes, the requests that step with
their new positions, the requests admitted and refilled and those that took a page, and a status other than OK with
which it completes at its slot end; `seed` is its step seed (assumption 2: the spec gives a serve none). -/
structure ReadyServe where
  did : Nat
  ctx : Nat
  cls : Nat
  isSealed : Bool
  epoch : Nat
  count : Nat
  listOff : Nat
  outOff : Nat
  outBytes : Nat
  readTs : Nat
  repeats : Nat
  fenceDiscards : Nat
  overruns : Nat
  probed : Bool
  retryAllowed : Bool
  serveNo : Nat
  settled : Bool
  outcomes : List EntryOutcome
  steps : List (Nat × Nat)
  joins : List Nat
  refills : List Nat
  crossed : List Nat
  result : Option Nat
  seed : Nat
  deriving DecidableEq, Repr

/-- An accepted practice step (R285, R289): LR and WD of each listed adapter and the adapter of each sequence (R286), its
segments run so far, the ACTIVE bank and the saturation flag of its first segments, and whether a segment was repeated. -/
structure PStep where
  did : Nat
  ctx : Nat
  no : Nat
  imgSlot : Nat
  imageId : Nat
  program : Nat
  seed : Nat
  listAddr : Nat
  dataAddr : Nat
  commit : Bool
  adapters : List Nat
  rates : List (F32 × F32)
  seqs : List Nat
  segment : Nat
  probed : List Nat
  firstBank : Option Nat
  reran : Bool
  satFlag : Bool
  engine : Nat
  deriving DecidableEq, Repr

/-- Deficit round-robin state of R349: the active list, the pointer, the visited contexts and the deficits in ns. -/
structure Drr where
  active : List Nat
  ptr : Nat
  visited : List Nat
  deficit : Tbl Int
  deriving DecidableEq, Repr

def Drr.empty : Drr := ⟨[], 0, [], []⟩

/-- What a slot was chosen for (R342). -/
inductive SlotKind where
  | idle
  | shared
  | reserved (index : Nat)
  | group (index : Nat)
  deriving DecidableEq, Repr

/-- The slot in progress (R338): its start, its length L, its end as moved by extensions, its kind, the context whose
share it took, and the serve it holds. -/
structure Slot where
  start : Nat
  len : Nat
  slotEnd : Nat
  kind : SlotKind
  serve : Option Nat
  boundaryDone : Bool
  deriving DecidableEq, Repr

/-- A reservation entry's run state (R345, R351): the last window whose job was taken (for a group entry, the last group
slot start passed), the windows whose job is pending, and the boundary at which the entry took effect. -/
structure RsvRun where
  taken : Option Nat
  windows : List Nat
  since : Nat
  deriving DecidableEq, Repr

/-- An accounting record of R361; `carryFj` is the energy below one µJ (R362), and `held` are charges that coarsening
keeps back (R539); `dirty` says that the record has changed since it was last written to the table. -/
structure Acct where
  valid : Bool
  seq : Nat
  slotNs : Nat
  practiceNs : Nat
  charges : Charges
  energyUj : Nat
  carryFj : Nat
  serves : Nat
  segments : Nat
  discardNs : Nat
  lastTs : Nat
  heldSealed : Charges
  heldSlotNs : Nat
  dirty : Bool
  deriving DecidableEq, Repr

def Acct.zero : Acct := ⟨true, 0, 0, 0, .zero, 0, 0, 0, 0, 0, 0, .zero, 0, false⟩

/-- A live request of R304. `ending` is the status with which it ends at the next boundary. -/
structure Request where
  ctx : Nat
  cls : Nat
  epoch : Nat
  reqId : Nat
  refill : Bool
  len : Nat
  adapter : Nat
  tenant : Nat
  die : Nat
  slot : Nat
  pages : List Nat
  lastTok : Option Nat
  ending : Option Nat
  deriving DecidableEq, Repr

/-- The Umpire and the serve loop. `done` holds the work of this slot whose computation has ended and whose effects the slot
end makes visible (R29); `overrun` is the work that overran its slot as (context, step, slot end); `windowBase` is T_a of
R344; `kvQuota` is the quota table of R317 as last read; `satTotal` is the device-wide sum of clamped values (R72, R78).
`stretchFor` is the discarded serve at whose repetition a new divisor takes effect (R352), `shut` are the contexts whose work
was stopped in this slot (R355), and `staticTs` is how far static energy has been charged (R362). -/
structure UmpState where
  slot : Option Slot
  work : Option Work
  done : List Work
  ready : List ReadyServe
  steps : List PStep
  stepNo : Nat
  serveNo : Nat
  drr : Drr
  segDrr : Drr
  windowBase : Nat
  rsv : Tbl RsvRun
  stretch : Nat
  stretchNext : Nat
  atRisk : Bool
  overrun : Option (Nat × Nat × Nat)
  acct : Tbl Acct
  requests : List Request
  images : Tbl Image
  substTs : Nat
  kvQuota : Tbl (Nat × Nat)
  satTotal : Nat
  stretchFor : Option Nat
  shut : List Nat
  staticTs : Nat
  deriving DecidableEq, Repr

def UmpState.reset : UmpState :=
  { slot := none, work := none, done := [], ready := [], steps := [], stepNo := 0, serveNo := 0, drr := .empty, segDrr := .empty,
    windowBase := 0, rsv := [], stretch := 8, stretchNext := 8, atRisk := false, overrun := none,
    acct := [(0, .zero)], requests := [], images := [], substTs := 0,
    kvQuota := [], satTotal := 0, stretchFor := none, shut := [], staticTs := 0 }

end Sys2Proof.Machine
end

