-- ==== Sys2Proof/Machine/LkrState.lean ====
section
/-! DEFINITION. State of the Lockers: the adapter directory, loads in flight, versions that wait for their boundary,
practice records, commits and exports, the query, and the prefix gathers (chapters 7 and 8). -/
namespace Sys2Proof.Machine
open Sys2Proof

/-- Directory entry states of R239 (a FREE entry is not listed). -/
inductive EntryState where
  | loading | resident | revoking | lost
  deriving DecidableEq, Repr

def EntryState.code : EntryState → Nat
  | .loading => 1 | .resident => 2 | .revoking => 3 | .lost => 4

/-- A directory entry of R239, with its page list and the COMPAT entries of the stored header; `plist` is where the directory
region keeps that list. -/
structure DirEntry where
  adapter : Nat
  tenant : Nat
  keySlot : Nat
  st : EntryState
  kind : Nat
  version : Nat
  loadCtx : Nat
  fmt : Nat
  plist : Nat
  pages : List Nat
  pins : Nat
  lastUse : Nat
  layers : Nat
  plen : Nat
  dKv : Nat
  trainedOn : Nat
  compat : List Nat
  deriving DecidableEq, Repr

/-- An ADAPTER_LOAD that is streaming (steps 7 and 8 of R236). `higher` marks a version load into an existing entry. -/
structure AdapterLoad where
  adapter : Nat
  did : Nat
  ctx : Nat
  version : Nat
  pages : List Nat
  higher : Bool
  header : BitVec 2048
  deriving DecidableEq, Repr

/-- A loaded higher version that waits for its boundary (R237). -/
structure WaitingVersion where
  adapter : Nat
  version : Nat
  pages : List Nat
  trainedOn : Nat
  compat : List Nat
  loadedTs : Nat
  deriving DecidableEq, Repr

/-- A prepared commit of R291: being copied, or staged since a timestamp; the step that asked for it. -/
structure Commit where
  stepNo : Nat
  stagedTs : Option Nat
  deriving DecidableEq, Repr

/-- A practice record of R281 with its four page sets and its hyperparameters (R285). `later`: the steps whose commits wait until
the one before them has applied (R291, R292). -/
structure Record where
  adapter : Nat
  ctx : Nat
  imageId : Nat
  program : Nat
  parts : Nat
  optMode : Nat
  beta1 : F32
  beta2 : F32
  eps : F32
  shadow : List Nat
  spare : List Nat
  state0 : List Nat
  state1 : List Nat
  current : Nat
  lastStep : Nat
  commit : Option Commit
  later : List Nat
  closing : Option Nat
  exports : List (Nat × Bool)
  pinned : Bool
  deriving DecidableEq, Repr

/-- A revocation whose descriptor completes when its last entry is FREE (R250). -/
structure Revocation where
  did : Option Nat
  adapters : List Nat
  ts : Nat
  deriving DecidableEq, Repr

/-- The prefix gathers of one compute die in the serve in progress (R256, R257): gathers started and completed. -/
structure GatherState where
  started : Nat
  completed : Nat
  deriving DecidableEq, Repr

/-- `quota` is the quota table of R246 as last read: (MIN_PAGES, MAX_PAGES) by key slot, (0, 0) where not listed. -/
structure LkrState where
  dir : List DirEntry
  loads : List AdapterLoad
  waiting : List WaitingVersion
  records : List Record
  revocations : List Revocation
  queryBusy : Bool
  queryId : Nat
  gathers : Tbl GatherState
  quota : Tbl (Nat × Nat)
  deriving DecidableEq, Repr

def LkrState.reset : LkrState :=
  { dir := [], loads := [], waiting := [], records := [], revocations := [], queryBusy := false, queryId := 0,
    gathers := [], quota := [] }

end Sys2Proof.Machine
end

