-- ==== Sys2Proof/Machine/MemState.lean ====
section
/-! DEFINITION. State of the memory system: bytes, line metadata, the page-key table, key epochs, sweeps, assignments
and scrubs, and the lines known to be uncorrectable (chapter 14). -/
namespace Sys2Proof.Machine
open Sys2Proof

/-- A DATA line's metadata byte (R495) and which key instance encrypted it (R496); a line that is not listed is ZERO. -/
structure LineMeta where
  cls : Nat
  epoch : Nat
  keyId : Nat
  deriving DecidableEq, Repr

/-- A page-key table entry of R497 but for OFFLINE. Only pages given to an owner are listed; the others follow from the
region registers. -/
structure PageEntry where
  use : Nat
  cls : Nat
  index : Nat
  deriving DecidableEq, Repr

def PageEntry.unassigned : PageEntry := ⟨0, 3, 0⟩

/-- The page keys of one tenant slot (R503, R504): CUR, OLD_LIVE, which MD dies have switched, and the key instance of
each epoch. -/
structure KeySlot where
  cur : Nat
  oldLive : Bool
  switched : List Nat
  key0 : Nat
  key1 : Nat
  deriving DecidableEq, Repr

/-- A sweeper pass (R505, R506): the next line it visits, and the old-epoch lines it could not rewrite. -/
structure Sweep where
  slot : Nat
  nextLine : Nat
  held : List Nat
  deriving DecidableEq, Repr

/-- A scrub of R500 and R501: pages left, all its pages, and the MEM_ASSIGNED it ends with. -/
structure ScrubJob where
  pages : List Nat
  whole : List Nat
  first : Nat
  count : Nat
  ctx : Nat
  release : Bool
  event : Bool
  deriving DecidableEq, Repr

/-- `bad` lists the lines known to be uncorrectable, `offline` the pages that R489 took offline; `ctxPages` the context each
page of context memory was assigned to; `ctxKeys` and `deviceKey`
name key instances, numbered by `nextKey`; `ueSecond` holds a channel's uncorrectable lines of
the last second as (time, line) (R553), and `ceSecond` by unit, SRAM regions 0 to 511 and channels from 512, the corrected errors of
a second of timestamp as (second, count) (R554). -/
structure MemState where
  cells : Memory
  lines : Tbl LineMeta
  pages : Tbl PageEntry
  keySlots : Tbl KeySlot
  sweeps : List Sweep
  scrubs : List ScrubJob
  bad : List Nat
  ueSecond : Tbl (List (Nat × Nat))
  ceSecond : Tbl (Nat × Nat)
  patrolLine : Nat
  offline : List Nat
  ctxPages : Tbl Nat
  ctxKeys : Tbl Nat
  deviceKey : Nat
  nextKey : Nat
  deriving DecidableEq, Repr

def MemState.reset : MemState :=
  { cells := [], lines := [], pages := [], keySlots := [], sweeps := [], scrubs := [], bad := [],
    ueSecond := [], ceSecond := [], patrolLine := 0, offline := [], ctxPages := [], ctxKeys := [], deviceKey := 0, nextKey := 1 }

end Sys2Proof.Machine
end

