-- ==== Sys2Proof/Machine/RefState.lean ====
section
/-! DEFINITION. State of the Referee: measurement registers, key slots, tenant sessions, SPDM sessions, consent, debug
and profiling, the group member list (chapter 15), and of fault handling: fences, holds and error counts (chapter 16). -/
namespace Sys2Proof.Machine
open Sys2Proof

/-- A 48-byte digest. -/
abbrev Digest := BitVec 384

/-- Slot states of R545 (a FREE slot is not listed). -/
inductive SlotState where
  | bound | purging
  deriving DecidableEq, Repr

/-- A tenant key slot (R531, R532, R536): two storage-key entries as (generation, key), generation 0 for empty; `withdrawnTs` is
when PROFILE_OK was last withdrawn (R537, R649). -/
structure RefSlot where
  tenant : Nat
  keyHash : Digest
  st : SlotState
  skey0 : Nat × BitVec 256
  skey1 : Nat × BitVec 256
  pkey : Bool
  debugOk : Bool
  profileOk : Bool
  withdrawnTs : Nat
  deriving DecidableEq, Repr

/-- Tenant session states (R531, R534, R535; a FREE session is not listed). A closed session is FREE to every reader and
stays listed until its contexts are gone, which their running work still needs. -/
inductive SessState where
  | binding | active | suspended | closed
  deriving DecidableEq, Repr

/-- A function grant of R529 and R533. -/
structure Grant where
  port : Port
  func : Nat
  maxCtx : Nat
  deriving DecidableEq, Repr

/-- A tenant session. -/
structure Session where
  tenant : Nat
  slot : Nat
  st : SessState
  grants : List Grant
  allow : List Digest
  ticket : Digest
  wrapKey : BitVec 256
  kemSeed : Nat
  deriving DecidableEq, Repr

/-- A secured SPDM session (R526, R527): its port, the hash of the requester's leaf key, its export master secret, its
stage, its key-update count, and the tenant session it carries. -/
structure SpdmSession where
  port : Port
  leafHash : Digest
  exportSecret : Digest
  established : Bool
  keyGen : Nat
  tenantSession : Nat
  deriving DecidableEq, Repr

/-- The connection stage of a port's SPDM responder (version, capabilities, algorithms negotiated). -/
structure SpdmConn where
  version : Bool
  capabilities : Bool
  algorithms : Bool
  ideStreams : Tbl Nat
  deriving DecidableEq, Repr

/-- `aliasKey` tells whether the alias key exists, `aliasCert` is its certificate (R520), and `fusePort` whether the fuse read port is
open (R521). -/
structure RefState where
  mrs : Tbl Digest
  slots : Tbl RefSlot
  sessions : Tbl Session
  spdm : Tbl SpdmSession
  connA : SpdmConn
  connB : SpdmConn
  groupList : List Digest
  controllerRank : Nat
  nonce : Option (Nat × BitVec 512)
  dbgFails : Nat
  debugLevel : Nat
  profiling : Bool
  fwDigest : Digest
  aliasKey : Bool
  aliasCert : List Byte
  fusePort : Bool
  deriving DecidableEq, Repr

def SpdmConn.reset : SpdmConn := ⟨false, false, false, []⟩

def RefState.reset : RefState :=
  { mrs := [], slots := [], sessions := [], spdm := [], connA := .reset, connB := .reset, groupList := [],
    controllerRank := 0, nonce := none, dbgFails := 0, debugLevel := 0, profiling := false, fwDigest := 0,
    aliasKey := false, aliasCert := [], fusePort := true }

/-- A fault being handled (R550): the record's unit, when it was detected, the work it discarded with its context, step and, for a
serve, descriptor, the contexts it affects, and the adapters that its fence makes LOST (R252). -/
structure PendingFault where
  unitKind : Nat
  unit : Nat
  cause : Nat
  cls : Nat
  detected : Nat
  discard : Bool
  ctx : Nat
  step : Nat
  affected : List Nat
  entries : List Nat
  serve : Option Nat
  deriving DecidableEq, Repr

structure ErrState where
  faults : List PendingFault
  hold : Bool
  deviceFault : Bool
  coolSince : Option Nat
  portFalls : Tbl (List Nat)
  fencedSchedules : List (Nat × Nat)
  deriving DecidableEq, Repr

def ErrState.reset : ErrState :=
  { faults := [], hold := false, deviceFault := false, coolSince := none, portFalls := [], fencedSchedules := [] }

end Sys2Proof.Machine
end

