-- ==== Sys2Proof/Syntax.lean ====
section
/-! DEFINITION. The commands and events of the block: one constructor of `Instr` per row of spec/opcode_table.json,
with the row's operands. An operand carries what reaches the device from outside (a written value, bytes read from host
memory, a received frame, a measured quantity); everything else the meaning finds in the state. -/
namespace Sys2Proof
open Machine

/-- What a host read of one descriptor returned (R442). -/
inductive DescRead where
  | ok (d : Desc)
  | failed
  deriving DecidableEq, Repr

/-- A host access to a window slot (R448). -/
inductive HostAccess where
  | read (bytes : Nat)
  | write (data : List Byte)
  deriving DecidableEq, Repr

/-- The two conditions of PEER_LOST (R472). -/
inductive PeerLoss where
  | heartbeat
  | link
  deriving DecidableEq, Repr

/-- A channel declaration of R407 with its program's commands. -/
structure ChannelSrc where
  decl : BitVec 128
  program : List Desc
  deriving DecidableEq, Repr

/-- A group declaration of R407 with its channels. -/
structure GroupSrc where
  decl : BitVec 256
  channels : List ChannelSrc
  deriving DecidableEq, Repr

/-- One serve class of a schedule image: its declared WCET in ns (R30, R339), its KV and prefix declarations (R305,
R254), its programs and its group declaration. -/
structure ClassSrc where
  wcet : Nat
  kv : BitVec 256
  pre : BitVec 128
  programs : ProgramSet
  group : Option GroupSrc
  deriving DecidableEq, Repr

/-- A practice program of a schedule image (R274) with the WCET and the programs of each segment. -/
structure PracticeSrc where
  decl : BitVec 256
  segments : List (Nat × ProgramSet)
  group : Option GroupSrc
  deriving DecidableEq, Repr

/-- A schedule image as SCHED_LOAD reads it (R465). The spec gives no container layout, so the image arrives with its
parts apart, with the SHA-384 of its bytes: assumption 6. -/
structure ImageSrc where
  digest : Digest
  imageId : Nat
  layers : Nat
  classes : List ClassSrc
  practice : List PracticeSrc
  tensors : List (BitVec 128)
  deriving DecidableEq, Repr

/-- A received frame of R375 as its codewords decoded: the frame flit's fields and flits 1 to 1,023. -/
structure LinkFrame where
  decoded : Bool
  seq : Nat
  keyEpoch : Nat
  enc : Bool
  reserved : Nat
  tag : BitVec 128
  flits : List Byte
  deriving DecidableEq, Repr

/-- What a peer sends in a link session handshake (R392, R541): its DevID hash and whether its certificate chain verifies, the
alias public key of that chain with its signature of the transcript, its ML-KEM ciphertext and its ECDH public key. -/
structure PeerProof where
  devId : Digest
  verified : Bool
  aliasKey : List Byte
  signature : List Byte
  ciphertext : List Byte
  ecdh : List Byte
  transcript : List Byte
  deriving DecidableEq, Repr

/-- What link training learns of the peer (R374, R393, R394): lanes trained, the peer's ENC bit, and whether the peer
announces that it boots by pass chain. -/
structure PeerLink where
  lanes : Nat
  enc : Bool
  booting : Bool
  deriving DecidableEq, Repr

/-- Results of the tests of a boot (R521, R600): the boot ROM's self-test, LPDDR5X training as a whole, and the courts,
Lockers, channels and SRAM regions that fail. -/
structure BootTests where
  selfTest : Bool
  training : Bool
  badCourts : List Nat
  badLockers : List Nat
  badChannels : List Nat
  badRegions : List Nat
  deriving DecidableEq, Repr

/-- What board management measures at a tick of the power controller (R617, R644, R646): the 1 ms average power, V48 in
mV, the input current in mA, sensor readings in 1/8 °C by number, and rails as (mV, 100 mA). -/
structure PowerReading where
  watts : Nat
  mv48 : Nat
  milliamps : Nat
  sensors : List Int
  rails : List (Nat × Nat)
  deriving DecidableEq, Repr

/-- The commands and events of the block, one per row of spec/opcode_table.json, in the table's order. -/
inductive Instr where
  /-- POWER_UP (R639). -/
  | powerUp
  /-- POWER_DOWN (R640). -/
  | powerDown
  /-- COLD_RESET (R604). -/
  | coldReset
  /-- SYS_RST_N_RELEASE (R597). -/
  | sysRstNRelease (straps : Nat)
  /-- WARM_RESET (R605). -/
  | warmReset
  /-- RST_CTL_WARM (R604). -/
  | rstCtlWarm (port : Port) (value : Word)
  /-- THERMAL_TRIP (R604). -/
  | thermalTrip (sensor : Nat) (eighths : Int)
  /-- THERMAL_TRIP_END (R607). -/
  | thermalTripEnd (readings : List Int)
  /-- RAIL_FAULT (R637). -/
  | railFault (rail : Nat)
  /-- INPUT_UNDERVOLTAGE (R637). -/
  | inputUndervoltage (millivolts : Nat)
  /-- UMPIRE_WATCHDOG (R604). -/
  | umpireWatchdog
  /-- REFEREE_FAULT (R517). -/
  | refereeFault (cause : Nat)
  /-- PORT_RESET (R606). -/
  | portReset (port : Port)
  /-- FUNCTION_LEVEL_RESET (R606). -/
  | functionLevelReset (port : Port) (func : Nat)
  /-- BOOT_SEQUENCE (R521). -/
  | bootSequence (tests : BootTests)
  /-- BOOT_GO (R599). -/
  | bootGo (port : Port) (value : Word)
  /-- BOOT_HOST_TIMEOUT (R599). -/
  | bootHostTimeout
  /-- BOOT_CHUNK_RECEIVE (R599). -/
  | bootChunkReceive
  /-- BOOT_LOAD_GONE (R599). -/
  | bootLoadGone
  /-- BOOT_LOAD_RESEND (R394). -/
  | bootLoadResend
  /-- FLASH_SEL_CHANGE (R645). -/
  | flashSelChange (level : Bool)
  /-- PWR_REQ_ACTIVE (R613). -/
  | pwrReqActive (port : Port)
  /-- PWR_REQ_IDLE (R612). -/
  | pwrReqIdle (port : Port)
  /-- PWR_REQ_STANDBY (R612). -/
  | pwrReqStandby (port : Port)
  /-- POWER_CONTROL_TICK (R617). -/
  | powerControlTick (reading : PowerReading)
  /-- MGMT_WARM_RESET (R610). -/
  | mgmtWarmReset
  /-- MGMT_HALF_TIME (R610). -/
  | mgmtHalfTime
  /-- MGMT_RESUME (R610). -/
  | mgmtResume
  /-- MGMT_AT_TS_REACHED (R609). -/
  | mgmtAtTsReached
  /-- SMB_V48 (R644). -/
  | smbV48
  /-- SMB_INPUT_CURRENT (R644). -/
  | smbInputCurrent
  /-- SMB_POWER (R644). -/
  | smbPower
  /-- SMB_JUNCTION (R644). -/
  | smbJunction
  /-- SMB_INLET (R644). -/
  | smbInlet
  /-- SMB_BOOT_STATUS (R644). -/
  | smbBootStatus
  /-- SMB_RST_CAUSE (R644). -/
  | smbRstCause
  /-- SMB_STATE (R644). -/
  | smbState
  /-- SMB_ALERT (R644). -/
  | smbAlert
  /-- FLASH_READ (R647). -/
  | flashRead (port : Port) (value : Word)
  /-- FLASH_PROGRAM (R647). -/
  | flashProgram (port : Port) (value : Word)
  /-- FLASH_ERASE (R647). -/
  | flashErase (port : Port) (value : Word)
  /-- FLASH_OP_DONE (R647). -/
  | flashOpDone (verified : Bool)
  /-- FABRIC_FLIT_RECEIVE (R22). -/
  | fabricFlitReceive (link : Die × Die) (seq : Nat) (word : FlitArrival)
  /-- DOORBELL_WRITE (R454). -/
  | doorbellWrite (port : Port) (func page offset bytes value : Nat)
  /-- DESCRIPTOR_ACCEPT (R456). -/
  | descriptorAccept (ctx ring : Nat) (read : DescRead)
  /-- FLAG_HANDOVER (R447). -/
  | flagHandover (port : Port) (func slot bytes gen : Nat)
  /-- FLAG_RECLAIM (R447). -/
  | flagReclaim (port : Port) (func slot bytes gen : Nat)
  /-- WINDOW_HOST_ACCESS (R448). -/
  | windowHostAccess (port : Port) (func offset : Nat) (access : HostAccess)
  /-- SERVE (R307). -/
  | serve (ctx ring : Nat)
  /-- ADAPTER_LOAD (R236). -/
  | adapterLoad (ctx ring : Nat) (header : Option (BitVec 2048))
  /-- ADAPTER_LOAD_COMPLETE (R236). -/
  | adapterLoadComplete (adapter : Nat) (sealed : Option (List Byte))
  /-- ADAPTER_UNLOAD (R238). -/
  | adapterUnload (ctx ring : Nat)
  /-- ADAPTER_REVOKE (R250). -/
  | adapterRevoke (ctx ring : Nat)
  /-- PRACTICE_OPEN (R287). -/
  | practiceOpen (ctx ring : Nat) (blob : Option (List Byte))
  /-- PRACTICE_STEP (R289). -/
  | practiceStep (ctx ring : Nat)
  /-- PRACTICE_EXPORT (R295). -/
  | practiceExport (ctx ring : Nat)
  /-- PRACTICE_EXPORT_DONE (R295): of an adapter; did the host take the write (R442)? -/
  | practiceExportDone (adapter : Nat × Bool)
  /-- PRACTICE_CLOSE (R294). -/
  | practiceClose (ctx ring : Nat)
  /-- PRACTICE_CLOSE_DONE (R294). -/
  | practiceCloseDone (adapter : Nat)
  /-- WS_LOAD (R464). -/
  | wsLoad (ctx ring : Nat)
  /-- SCHED_LOAD (R465). -/
  | schedLoad (ctx ring : Nat) (image : Option ImageSrc)
  /-- SCHED_UNLOAD (R465). -/
  | schedUnload (ctx ring : Nat)
  /-- SCHED_UNLOAD_DONE (R465). -/
  | schedUnloadDone (slot : Nat)
  /-- MAILBOX_REQUEST_COPY (R469). -/
  | mailboxRequestCopy (port : Port) (vf : Nat) (message : Desc)
  /-- MAILBOX_REPLY_COPY (R469). -/
  | mailboxReplyCopy (port : Port) (message : Desc)
  /-- HUB_MBX_CFG4_WRITE (R479). -/
  | hubMbxCfg4Write (port : Port) (func : Nat) (value : Word)
  /-- HUB_HEARTBEAT (R471). -/
  | hubHeartbeat (port : Port) (value : Word)
  /-- PEER_LOST (R472). -/
  | peerLost (cause : PeerLoss)
  /-- STAGED_WRITE (R474). -/
  | stagedWrite (port : Port) (offset : Nat) (value : Word)
  /-- HUDDLE_CHECK (R475). -/
  | huddleCheck (port : Port) (atTs : Bool)
  /-- HUDDLE_APPLY_REQUEST (R475). -/
  | huddleApplyRequest (port : Port) (check atTs : Bool)
  /-- HUDDLE_DISCARD (R475). -/
  | huddleDiscard (port : Port) (check apply atTs : Bool)
  /-- HUDDLE_CHECK_DONE (R475). -/
  | huddleCheckDone (port : Port)
  /-- REGISTER_WRITE (R13). -/
  | registerWrite (port : Port) (func offset bytes value : Nat)
  /-- SCB_TS_LO_READ (R593). -/
  | scbTsLoRead (port : Port)
  /-- CRT_SAT_TOTAL_LO_READ (R78). -/
  | crtSatTotalLoRead (port : Port)
  /-- UMP_SERVE_NO_LO_READ (R335). -/
  | umpServeNoLoRead (port : Port)
  /-- RDC_GSTEP_LO_READ (R437). -/
  | rdcGstepLoRead (port : Port)
  /-- CLK_THR_NS_LO_READ (R619). -/
  | clkThrNsLoRead (port : Port)
  /-- RST_MGMT_SEQ_LO_READ (R618). -/
  | rstMgmtSeqLoRead (port : Port)
  /-- HDL_APPLIED_TS_LO_READ (R481). -/
  | hdlAppliedTsLoRead (port : Port)
  /-- SLOT_END (R342). -/
  | slotEnd
  /-- SERVE_BOUNDARY (R25). -/
  | serveBoundary
  /-- GROUP_SLOT_START (R351). -/
  | groupSlotStart (index : Nat)
  /-- RSV_WINDOW_END (R347). -/
  | rsvWindowEnd (index : Nat)
  /-- OVERRUN_LIMIT (R341). -/
  | overrunLimit
  /-- URGENT_SUBSTITUTION (R355). -/
  | urgentSubstitution (port : Port) (value : Word)
  /-- SEGMENT_START (R350). -/
  | segmentStart
  /-- SEGMENT_END (R31). -/
  | segmentEnd
  /-- SERVE_END (R321). -/
  | serveEnd
  /-- LAYER_STREAM_START (R210). -/
  | layerStreamStart
  /-- STREAM_ENTRY_COMPLETE (R211). -/
  | streamEntryComplete
  /-- LAYER_COMPUTE_START (R27). -/
  | layerComputeStart
  /-- PREFIX_GATHER_START (R257). -/
  | prefixGatherStart (die : Nat)
  /-- PREFIX_GATHER_COMPLETE (R256). -/
  | prefixGatherComplete (die : Nat)
  /-- KV_WRITEBACK (R321). -/
  | kvWriteback (die layer : Nat)
  /-- KV_WRITEBACK_DONE (R321). -/
  | kvWritebackDone (die layer : Nat)
  /-- MMA (R113). -/
  | mma (court : Nat) (cmd : Desc)
  /-- MMA_PAIR (R114). -/
  | mmaPair (court : Nat) (cmd : Desc)
  /-- TILE_DRAIN (R97). -/
  | tileDrain (court cube : Nat)
  /-- TILE_WAIT (R110). -/
  | tileWait (court : Nat) (cmd : Desc)
  /-- TILE_SIGNAL (R110). -/
  | tileSignal (court : Nat) (cmd : Desc)
  /-- TILE_END (R110). -/
  | tileEnd (court : Nat) (cmd : Desc)
  /-- SEMAPHORE_REACHED (R110). -/
  | semaphoreReached (sem : Nat)
  /-- EW (R650). -/
  | ew (engine : Nat) (cmd : Desc)
  /-- RED (R650). -/
  | red (engine : Nat) (cmd : Desc)
  /-- SOFTMAX (R139). -/
  | softmax (engine : Nat) (cmd : Desc)
  /-- LNORM (R141). -/
  | lnorm (engine : Nat) (cmd : Desc)
  /-- RMSNORM (R141). -/
  | rmsnorm (engine : Nat) (cmd : Desc)
  /-- ROUTE (R142). -/
  | route (engine : Nat) (cmd : Desc)
  /-- LOSS (R147). -/
  | loss (engine : Nat) (cmd : Desc)
  /-- COMBINE (R150). -/
  | combine (engine : Nat) (cmd : Desc)
  /-- OPT (R180). -/
  | opt (engine : Nat) (cmd : Desc)
  /-- SCAN (R177). -/
  | scan (engine : Nat) (cmd : Desc)
  /-- SOFTMAX_BWD (R167). -/
  | softmaxBwd (engine : Nat) (cmd : Desc)
  /-- NORM_BWD (R170). -/
  | normBwd (engine : Nat) (cmd : Desc)
  /-- VEC_WAIT (R132). -/
  | vecWait (engine : Nat) (cmd : Desc)
  /-- VEC_SIGNAL (R132). -/
  | vecSignal (engine : Nat) (cmd : Desc)
  /-- VEC_END (R132). -/
  | vecEnd (engine : Nat) (cmd : Desc)
  /-- COPY (R265). -/
  | copy (engine : Nat) (cmd : Desc)
  /-- LIST_COPY (R265). -/
  | listCopy (engine : Nat) (cmd : Desc)
  /-- EMBAG (R266). -/
  | embag (engine : Nat) (cmd : Desc)
  /-- EMBAG_BWD (R267). -/
  | embagBwd (engine : Nat) (cmd : Desc)
  /-- GATHER_WAIT (R264). -/
  | gatherWait (engine : Nat) (cmd : Desc)
  /-- GATHER_SIGNAL (R264). -/
  | gatherSignal (engine : Nat) (cmd : Desc)
  /-- GATHER_END (R264). -/
  | gatherEnd (engine : Nat) (cmd : Desc)
  /-- ALLREDUCE (R410). -/
  | allreduce (channel : Nat) (cmd : Desc)
  /-- REDUCE (R410). -/
  | reduce (channel : Nat) (cmd : Desc)
  /-- BCAST (R410). -/
  | bcast (channel : Nat) (cmd : Desc)
  /-- ALLGATHER (R410). -/
  | allgather (channel : Nat) (cmd : Desc)
  /-- DISPATCH (R430). -/
  | dispatch (channel : Nat) (cmd : Desc)
  /-- CHANNEL_COMBINE (R432). -/
  | channelCombine (channel : Nat) (cmd : Desc)
  /-- CHANNEL_WAIT (R409). -/
  | channelWait (channel : Nat) (cmd : Desc)
  /-- CHANNEL_SIGNAL (R409). -/
  | channelSignal (channel : Nat) (cmd : Desc)
  /-- CHANNEL_END (R409). -/
  | channelEnd (channel : Nat) (cmd : Desc)
  /-- RDC_DATA_RECEIVE (R412). -/
  | rdcDataReceive
  /-- FB_COUNTS_RECEIVE (R430). -/
  | fbCountsReceive
  /-- FB_ROW_RECEIVE (R430). -/
  | fbRowReceive
  /-- FB_RETURN_RECEIVE (R432). -/
  | fbReturnReceive
  /-- DUE_NS_DEADLINE (R419). -/
  | dueNsDeadline (channel : Nat)
  /-- VOTE_SEND (R418). -/
  | voteSend
  /-- VOTE_RECEIVE (R420). -/
  | voteReceive
  /-- VOTE_FORWARD_BOUND (R420). -/
  | voteForwardBound
  /-- VERDICT_RECEIVE (R421). -/
  | verdictReceive
  /-- VERDICT_TIMEOUT (R423). -/
  | verdictTimeout
  /-- PORT_UP (R374). -/
  | portUp (port : Nat) (peer : PeerLink)
  /-- PORT_RETRY (R374). -/
  | portRetry (port : Nat)
  /-- FRAME_RECEIVE (R376). -/
  | frameReceive (port : Nat) (frame : LinkFrame)
  /-- LMC_REPLAY_REQUEST (R376). -/
  | lmcReplayRequest (port : Nat) (seq : Nat × LmcCheck)
  /-- LMC_CREDIT_RETURN (R383). -/
  | lmcCreditReturn (port vc : Nat) (count : Nat × LmcCheck)
  /-- PACKET_ROUTE (R379). -/
  | packetRoute (port : Nat)
  /-- OUTPUT_ARBITRATION (R381). -/
  | outputArbitration (port : Nat)
  /-- TSYNC_EXCHANGE (R389). -/
  | tsyncExchange
  /-- SYNC_REQ (R389). -/
  | syncReq (port : Nat × LmcCheck)
  /-- SYNC_REPLY (R390). -/
  | syncReply (t2 t3 t4 st : Nat) (hops : Nat × LmcCheck)
  /-- TSYNC_TIMEOUT (R391). -/
  | tsyncTimeout
  /-- SESSION_HANDSHAKE (R392). -/
  | sessionHandshake (port : Nat) (peer : PeerProof)
  /-- REKEY (R393). -/
  | rekey (port : Nat) (peer : PeerProof)
  /-- REKEY_LIMIT (R393). -/
  | rekeyLimit (port : Nat)
  /-- LOAD_START (R201). -/
  | loadStart (port : Port) (value : Word)
  /-- LOAD_ABORT (R223). -/
  | loadAbort (port : Port) (value : Word)
  /-- PREAMBLE_VERIFY (R198). -/
  | preambleVerify
  /-- SHARD_WRITE_DONE (R202). -/
  | shardWriteDone (verified : Bool)
  /-- LOAD_DATA (R205). -/
  | loadData
  /-- LOAD_RESEND (R206). -/
  | loadResend
  /-- LOAD_GONE (R207). -/
  | loadGone
  /-- LOAD_SOURCE_TIMEOUT (R204). -/
  | loadSourceTimeout
  /-- WS_LINE_REREAD (R212). -/
  | wsLineReread (die block line : Nat) (first second : List Byte)
  /-- READ_REQ (R213). -/
  | readReq
  /-- READ_RSP (R213). -/
  | readRsp
  /-- MIRROR_FETCH_TIMEOUT (R214). -/
  | mirrorFetchTimeout (shard : Nat)
  /-- DRAIN_LIMIT_EXPIRY (R216). -/
  | drainLimitExpiry
  /-- LKR_QUERY (R271). -/
  | lkrQuery (port : Port) (value : Word)
  /-- LKR_QUERY_DONE (R271). -/
  | lkrQueryDone
  /-- COMMIT_COPY_DONE (R291). -/
  | commitCopyDone (adapter : Nat)
  /-- MEM_REREAD (R488). -/
  | memReread (addr : Nat) (word : List Byte) (rewriteOk : Bool)
  /-- PATROL_READ (R490). -/
  | patrolRead (word reread : List Byte)
  /-- SCRUB_PAGE_DONE (R500). -/
  | scrubPageDone
  /-- KEY_LOAD_RECEIVE (R504). -/
  | keyLoadReceive (die slot : Nat)
  /-- SWEEP_LINE (R505). -/
  | sweepLine (slot : Nat)
  /-- REF_ROTATE_GO (R545). -/
  | refRotateGo (port : Port) (value : Word)
  /-- PURGE_GO (R545). -/
  | purgeGo (port : Port) (value : Word)
  /-- SLOT_PURGE_DONE (R535). -/
  | slotPurgeDone (slot : Nat)
  /-- REF_DBG_CTL_LOCK (R537). -/
  | refDbgCtlLock (port : Port) (value : Word)
  /-- REF_PROF_CTL_REQ (R537). -/
  | refProfCtlReq (port : Port) (value : Word)
  /-- DBG_CHALLENGE (R538). -/
  | dbgChallenge (level : Nat)
  /-- DBG_RESPONSE (R538). -/
  | dbgResponse (rsa slh block : List Byte)
  /-- GET_VERSION (R526). -/
  | getVersion (port : Port) (body : List Byte)
  /-- GET_CAPABILITIES (R526). -/
  | getCapabilities (port : Port) (body : List Byte)
  /-- NEGOTIATE_ALGORITHMS (R526). -/
  | negotiateAlgorithms (port : Port) (body : List Byte)
  /-- GET_DIGESTS (R526). -/
  | getDigests (port : Port) (body : List Byte)
  /-- GET_CERTIFICATE (R520). -/
  | getCertificate (port : Port) (body : List Byte)
  /-- CHALLENGE (R526). -/
  | challenge (port : Port) (body : List Byte)
  /-- GET_MEASUREMENTS (R527). -/
  | getMeasurements (port : Port) (body : List Byte)
  /-- KEY_EXCHANGE (R526). -/
  | keyExchange (port : Port) (body : List Byte)
  /-- FINISH (R526). -/
  | finish (port : Port) (session : Nat) (leafHash : Digest) (verified : Bool)
  /-- SPDM_HEARTBEAT (R526). -/
  | spdmHeartbeat (port : Port) (session : Nat) (body : List Byte)
  /-- KEY_UPDATE (R526). -/
  | keyUpdate (port : Port) (session : Nat) (body : List Byte)
  /-- END_SESSION (R535). -/
  | endSession (port : Port) (session : Nat) (body : List Byte)
  /-- IDE_KM (R526). -/
  | ideKm (port : Port) (session : Nat) (body : List Byte)
  /-- TNT_BIND (R531). -/
  | tntBind (session : Nat) (body : List Byte)
  /-- TNT_KEM (R530). -/
  | tntKem (session : Nat) (body : List Byte)
  /-- SKEY_INSTALL (R532). -/
  | skeyInstall (session : Nat) (body : List Byte)
  /-- SKEY_REVOKE (R532). -/
  | skeyRevoke (session : Nat) (body : List Byte)
  /-- PKEY_ROTATE (R504). -/
  | pkeyRotate (session : Nat) (body : List Byte)
  /-- GRANT (R533). -/
  | grant (session : Nat) (body : List Byte)
  /-- ALLOW (R533). -/
  | allow (session : Nat) (body : List Byte)
  /-- CONSENT (R537). -/
  | consent (session : Nat) (body : List Byte)
  /-- REPORT (R528). -/
  | report (session : Nat) (body : List Byte)
  /-- RESUME (R534). -/
  | resume (session : Nat) (body : List Byte)
  /-- CLOSE (R535). -/
  | close (session : Nat) (body : List Byte)
  /-- PURGE (R535). -/
  | purge (session : Nat) (body : List Byte)
  /-- UNIT_FAULT_REPORT (R550). -/
  | unitFaultReport (kind unit cause : Nat)
  /-- PROGRESS_TIMEOUT (R553). -/
  | progressTimeout (kind unit : Nat)
  /-- STORM (R554). -/
  | storm (kind unit : Nat)
  /-- FENCE_COMPLETE (R551). -/
  | fenceComplete
  /-- THERMAL_HOLD_ENTRY (R562). -/
  | thermalHoldEntry (sensor : Nat) (eighths : Int)
  /-- THERMAL_HOLD_EXIT (R562). -/
  | thermalHoldExit
  /-- TRACE_POP (R584). -/
  | tracePop (port : Port)
  /-- SW_MARK (R593). -/
  | swMark (port : Port) (value : Word)
  /-- TRACE_WORD_TIMEOUT (R582). -/
  | traceWordTimeout (queue : Nat)
  /-- PMU_CLR (R590). -/
  | pmuClr (port : Port) (block : Nat) (value : Word)
  /-- PMU_VAL_LO_READ (R591). -/
  | pmuValLoRead (port : Port) (block counter : Nat)
  /-- PMU_CYC_LO_READ (R591). -/
  | pmuCycLoRead (port : Port) (block : Nat)
  /-- PERST_DEASSERTION (R602). -/
  | perstDeassertion (port : Port)
  /-- SPI_NOR_SHARD_READ (R207). -/
  | spiNorShardRead
  /-- PEER_TAKES_LINK_DOWN (R394). -/
  | peerTakesLinkDown (port : Nat)
  /-- VF_ENABLE (R466). -/
  | vfEnable (port : Port) (count : Nat)
  deriving DecidableEq, Repr

end Sys2Proof
end

