-- ==== Sys2Proof/Decode.lean ====
section
/-! DEFINITION. Reading a command from a word of the table: spec/opcode_table.json gives no row any bits (its rows are
the block's operations and events, not encodings), so every word is rejected. -/
namespace Sys2Proof

/-- The command a word of `nbits` bits spells. No row of the table has bits, so none. -/
def decodeTableWord (_nbits _w : Nat) : Option Instr := none

end Sys2Proof
end

