-- ==== Sys2Proof/Machine/Flags.lean ====
section
/-! DEFINITION. Conversion of FP32 results to an output format (R54 to R60) and the flags that it raises: the
clamped and NaN counts of R56 and R72 and the amax of R64. Rows are written with their block scales and padding
(R43 to R46, R57, R58). -/
namespace Sys2Proof.Machine
open Sys2Proof

/-- What one conversion reports beside its bytes: clamped values (R72), NaNs counted (R56) and the largest finite
FP32 input magnitude (R64). -/
structure ConvStats where
  clamped : Nat
  nans : Nat
  amax : F32
  deriving DecidableEq, Repr

def ConvStats.zero : ConvStats := ⟨0, 0, zero32⟩

/-- Counts add and amaxes combine by maximum (R64, R72). -/
def ConvStats.merge (a b : ConvStats) : ConvStats :=
  ⟨a.clamped + b.clamped, a.nans + b.nans, if lt32 a.amax b.amax then b.amax else a.amax⟩

/-- The largest finite magnitude of a format as an exact number (R39, R58). -/
def Fmt.maxMag (f : Fmt) : Nat × Int :=
  match f with
  | .mxInt8 => (127, -6)
  | .int8 => (127, 0)
  | f =>
    match f.float with
    | some ff => magValue ff ff.maxFin
    | none => (7, 0)

/-- choose_exponent of R58 for an exact bound `m * 2^e` and a largest finite magnitude `M`. -/
def chooseExponent (m : Nat) (e : Int) (M : Nat × Int) : Int :=
  if m = 0 then 0
  else
    let x := floorLog2 m e - floorLog2 M.1 M.2
    let x := if (Num.fin false M.1 (M.2 + x)).lt (.fin false m e) then x + 1 else x
    max (-127) (min 127 x)

/-- choose_exponent for an FP32 bound (R65). -/
def chooseExponent32 (h : F32) (f : Fmt) : Int :=
  match val32 h with
  | .fin _ m e => chooseExponent m e f.maxMag
  | _ => 0

/-- Steps 3 and 4 of R54 and R56 for a floating-point element format: the code and whether it was clamped. -/
def convertFloat (ff : FloatFmt) (rnd : Rounding) (v : Num) : Nat × Bool :=
  match v with
  | .nan => (ff.nanCode.getD 0, false)
  | .inf n =>
    match ff.infCode with
    | some c => (signCode ff n c, false)
    | none => (ff.nanCode.getD 0, false)
  | .fin n m e =>
    let c := roundMag ff rnd m e
    if c > ff.maxFin then (signCode ff n ff.maxFin, true) else (signCode ff n c, false)

/-- Unscaled INT8 (R55, R56): the code, whether it was clamped, and whether a NaN was counted. -/
def convertInt8 (rnd : Rounding) (v : Num) : Nat × Bool × Bool :=
  match v with
  | .nan => (0, false, true)
  | .inf n => (if n then 0x80 else 127, true, false)
  | .fin n m e =>
    let q := roundInt rnd m e false
    if n then (if q > 128 then (0x80, true, false) else ((256 - q) % 256, false, false))
    else (if q > 127 then (127, true, false) else (q, false, false))

/-- An MXINT8 element after the block scale (R40, R54, R56). -/
def convertMxInt8 (rnd : Rounding) (v : Num) : Nat × Bool :=
  match v with
  | .fin n m e =>
    let q := roundInt rnd m (e + 6) false
    let q' := min q 127
    (if n then (256 - q') % 256 else q', decide (q > 127))
  | _ => (0, false)

/-- One unscaled element: its code and what it counts. `s` is the outer-scale exponent. -/
def convertElem (f : Fmt) (s : Int) (rnd : Rounding) (x : F32) : Nat × ConvStats :=
  let v := (val32 x).scale (-s)
  let amax := if isFinite32 x then abs32 x else zero32
  match f with
  | .int8 =>
    let r := convertInt8 rnd v
    (r.1, ⟨r.2.1.toNat, r.2.2.toNat, amax⟩)
  | f =>
    match f.float with
    | some ff =>
      let r := convertFloat ff rnd v
      (r.1, ⟨r.2.toNat, 0, amax⟩)
    | none => (0, ⟨0, 0, amax⟩)

/-- The larger of two exact magnitudes. -/
def maxMagnitude (a b : Nat × Int) : Nat × Int :=
  if (Num.fin false a.1 a.2).lt (.fin false b.1 b.2) then b else a

/-- The block amax of R57: the largest finite magnitude after step 1 of R54. -/
def blockAmax (s : Int) (xs : List F32) : Nat × Int :=
  xs.foldl (fun acc x =>
    match (val32 x).scale (-s) with
    | .fin _ m e => maxMagnitude acc (m, e)
    | _ => acc) (0, 0)

/-- A converted block: its scale byte, its element codes and what it counts (R57, R58). -/
structure BlockOut where
  scale : Nat
  codes : List Nat
  stats : ConvStats
  deriving DecidableEq, Repr

/-- Conversion of one block of at most 32 elements; `rnds` gives each element's rounding. -/
def convertBlock (f : Fmt) (s : Int) (rnds : List Rounding) (xs : List F32) : BlockOut :=
  let am := blockAmax s xs
  let amax32 := (xs.filter isFinite32).foldl (fun a x => if lt32 a (abs32 x) then abs32 x else a) zero32
  let hasNaNCode := f = .mxE4m3 || f = .mxE5m2
  if !hasNaNCode && xs.any nonFinite32 then ⟨0xFF, xs.map (fun _ => 0), ⟨0, 0, amax32⟩⟩
  else
    let X := chooseExponent am.1 am.2 f.maxMag
    let rs := (xs.zip rnds).map (fun p =>
      let v := (val32 p.1).scale (-s - X)
      match f.float with
      | some ff => convertFloat ff p.2 v
      | none => convertMxInt8 p.2 v)
    ⟨(X + 127).toNat, rs.map Prod.fst, ⟨(rs.filter Prod.snd).length, 0, amax32⟩⟩

/-- The bytes of one block's codes: elements of `w` bits packed lowest first (R45), always 32 of them. -/
def packBlock (w : Nat) (codes : List Nat) : List Byte :=
  bytesOf (4 * w) ((codes.zipIdx).foldl (fun acc p => acc ||| (p.1 <<< (w * p.2))) 0)

/-- Cells of consecutive bytes. -/
def cellsAt (addr : Nat) (bs : List Byte) : List (Nat × Byte) :=
  (bs.zipIdx).map (fun p => (addr + p.2, p.1))

/-- Blocks of 32 elements, with the position of each block's first element. -/
def blocksOf32 : Nat → Nat → List F32 → List (Nat × List F32)
  | 0, _, _ => []
  | fuel + 1, pos, xs =>
    if xs.isEmpty then [] else (pos, xs.take 32) :: blocksOf32 fuel (pos + 32) (xs.drop 32)

/-- The padding blocks that complete the last group of a block-scaled row of `n` elements (R46). -/
def padBlocks (f : Fmt) (row n : Nat) : List (Nat × Byte) :=
  let first := ceilDiv n 32
  let last := ceilDiv n 256 * 8
  (List.range (last - first)).flatMap (fun i =>
    let b := first + i
    let g := row + b / 8 * f.groupBytes
    (g + b % 8, 0x7F#8) :: cellsAt (g + f.groupHead + b % 8 * (4 * f.elemBits)) (packBlock f.elemBits []))

/-- A run of converted elements written at positions `pos …` of the stored row at `row`, whose length is `n`
elements (R43 to R46, R54). `rnd` gives the rounding of the element at each position. Block-scaled runs start at a
block boundary (R101); the run that holds the row's last element also writes the padding of R46. -/
def writeRun (f : Fmt) (s : Int) (rnd : Nat → Rounding) (row n pos : Nat) (xs : List F32) :
    List (Nat × Byte) × ConvStats :=
  if f.blockScaled then
    let bs := (blocksOf32 (xs.length + 1) pos xs).map (fun b =>
      let o := convertBlock f s ((List.range b.2.length).map (fun i => rnd (b.1 + i))) b.2
      let blk := row + b.1 / 256 * f.groupBytes + f.groupHead + b.1 % 256 / 32 * (4 * f.elemBits)
      ((scaleAddr f row b.1, BitVec.ofNat 8 o.scale) :: cellsAt blk (packBlock f.elemBits o.codes), o.stats))
    let pad := if pos + xs.length = n ∧ xs ≠ [] then padBlocks f row n else []
    (bs.flatMap Prod.fst ++ pad, bs.foldl (fun a b => a.merge b.2) .zero)
  else
    let es := (xs.zipIdx).map (fun p =>
      let c := convertElem f s (rnd (pos + p.2)) p.1
      (cellsAt (row + (pos + p.2) * (f.elemBits / 8)) (bytesOf (f.elemBits / 8) c.1), c.2))
    (es.flatMap Prod.fst, es.foldl (fun a e => a.merge e.2) .zero)

end Sys2Proof.Machine
end

