-- ==== Sys2Proof/Machine/Tile.lean ====
section
/-! DEFINITION. The Court array's arithmetic: tile commands (R109), group contributions (R51 to R53, R94, R107,
R108), accumulation and the drain tree (R91 to R96), post-operations (R98), the drain's writes (R97, R100, R103) and
the load checks of R111. Everything here is a function of a command and of the bytes it reads. -/
namespace Sys2Proof.Machine
open Sys2Proof

/-- A tile command's fields (R109). -/
structure TileCmd where
  opcode : Nat
  aXpose : Bool
  bXpose : Bool
  orient : Nat
  isPartial : Bool
  shape : Nat
  acc : Nat
  aFmt : Nat
  bFmt : Nat
  m : Nat
  n : Nat
  k : Nat
  outTensor : Nat
  splitIdx : Nat
  act : Nat
  biasEn : Bool
  lreluShift : Nat
  aAddr : Nat
  aTensor : Nat
  bAddr : Nat
  bTensor : Nat
  cAddr : Nat
  postExp : Int
  biasFmt : Nat
  biasAddr : Nat
  aStride : Nat
  bStride : Nat
  cStride : Nat
  reservedBits : Nat
  deriving DecidableEq, Repr

/-- Reading a tile command's 64 bytes (R109). -/
def TileCmd.ofBits (c : Desc) : TileCmd where
  opcode := fld c 0 0 8
  aXpose := fld c 1 0 1 = 1
  bXpose := fld c 1 1 1 = 1
  orient := fld c 1 2 1
  isPartial := fld c 1 3 1 = 1
  shape := fld c 1 4 2
  acc := fld c 1 6 2
  aFmt := fld c 2 0 8
  bFmt := fld c 3 0 8
  m := fld c 4 0 16
  n := fld c 6 0 16
  k := fld c 8 0 32
  outTensor := fld c 12 0 16
  splitIdx := fld c 14 0 8
  act := fld c 15 0 2
  biasEn := fld c 15 2 1 = 1
  lreluShift := fld c 15 3 4
  aAddr := fld c 16 0 48
  aTensor := fld c 16 48 16
  bAddr := fld c 24 0 48
  bTensor := fld c 24 48 16
  cAddr := fld c 32 0 48
  postExp := signed 8 (fld c 32 48 8)
  biasFmt := fld c 32 56 8
  biasAddr := fld c 40 0 48
  aStride := fld c 48 0 32
  bStride := fld c 52 0 32
  cStride := fld c 56 0 32
  reservedBits := fld c 15 7 1 + fld c 40 48 16 + fld c 60 0 32

def TileCmd.fmtA (c : TileCmd) : Fmt := (Fmt.ofCode c.aFmt).getD .fp32
def TileCmd.fmtB (c : TileCmd) : Fmt := (Fmt.ofCode c.bFmt).getD .fp32

/-- Rows of a tile of a shape code (R88, R109). -/
def tileRows (shape : Nat) : Nat := if shape = 1 ∨ shape = 3 then 32 else 16
/-- Columns of a tile of a shape code (R88, R109). -/
def tileCols (shape : Nat) : Nat := if shape = 2 ∨ shape = 3 then 32 else 16
/-- 16 × 16 subtiles of a tile (R88). -/
def tileSubtiles (shape : Nat) : Nat := tileRows shape * tileCols shape / 256

/-- Rows and columns of the command's tile grid (R113). -/
def TileCmd.gridRows (c : TileCmd) : Nat := ceilDiv c.m (tileRows c.shape)
def TileCmd.gridCols (c : TileCmd) : Nat := ceilDiv c.n (tileCols c.shape)

/-- The most tiles of the command one cube holds in progress (R89). -/
def TileCmd.tileLimit (c : TileCmd) : Nat := (if c.acc = 2 then 4 else 8) / tileSubtiles c.shape

/-- The operand is delivered crosswise as BF16 (R108). -/
def crosswiseBf16 (xpose : Bool) (f : Fmt) : Bool := xpose && f.blockScaled

/-- The path the command's products take (R47, R108): a block-scaled operand read crosswise counts as BF16. -/
def TileCmd.path (c : TileCmd) : Option MulPath :=
  mulPath (if crosswiseBf16 c.aXpose c.fmtA then .bf16 else c.fmtA)
    (if crosswiseBf16 c.bXpose c.fmtB then .bf16 else c.fmtB)

/-- Stored row and position of an operand's element: `line` is the row i of A or the column j of B (R107). -/
def operandPlace (addr stride : Nat) (xpose : Bool) (line k : Nat) : Nat × Nat :=
  if xpose then (addr + stride * k, line) else (addr + stride * line, k)

/-- What the multiplier receives for element `k` of an operand line (R48 to R50, R53, R107, R108). -/
def operandNum (rd : Nat → Byte) (f : Fmt) (addr stride : Nat) (xpose : Bool) (line k : Nat) : Num :=
  let p := operandPlace addr stride xpose line k
  if crosswiseBf16 xpose f then (crosswiseNum rd f p.1 p.2).1
  else if blockScale rd f p.1 p.2 = 0xFF ∧ f.blockScaled then .nan
  else if f.sixteenBit || f = .int8 || f = .mxInt8 then elemNum rd f p.1 p.2
  else multiplierNum (elemNum rd f p.1 p.2)

/-- The block-scale exponent an operand contributes to a K-group (R51), 0 for a crosswise block-scaled read (R108). -/
def operandExp (rd : Nat → Byte) (f : Fmt) (addr stride : Nat) (xpose : Bool) (line k : Nat) : Int :=
  if crosswiseBf16 xpose f then 0
  else
    let p := operandPlace addr stride xpose line k
    (blockScale rd f p.1 p.2 : Int) - 127

/-- An integer operand's code value on the INT8 and MXINT8 paths (R52). -/
def operandInt (rd : Nat → Byte) (f : Fmt) (addr stride : Nat) (xpose : Bool) (line k : Nat) : Int :=
  let p := operandPlace addr stride xpose line k
  signed 8 (elemCode rd f p.1 p.2)

/-- The outer-scale exponents a command's operands were written with (R66). -/
structure TileScales where
  u : Int
  v : Int
  deriving DecidableEq, Repr

/-- The K-values of group `g` that exist (R94: the rest are padding of product +0). -/
def groupKs (k g : Nat) : List Nat := (List.range 16).filterMap (fun t => if 16 * g + t < k then some (16 * g + t) else none)

/-- R51 and R53: the exact sum of a group's products, special operands by IEEE 754 (R50), padded with +0 (R94). -/
def groupSum (rd : Nat → Byte) (c : TileCmd) (i j g : Nat) : Num :=
  let ps := (groupKs c.k g).map (fun k =>
    (operandNum rd c.fmtA c.aAddr c.aStride c.aXpose i k).mul (operandNum rd c.fmtB c.bAddr c.bStride c.bXpose j k))
  let s := match ps with
    | [] => Num.fin false 0 0
    | p :: rest => rest.foldl Num.add p
  if ps.length < 16 then s.add (.fin false 0 0) else s

/-- R52: the exact integer sum of a group's products. -/
def groupIntSum (rd : Nat → Byte) (c : TileCmd) (i j g : Nat) : Int :=
  (groupKs c.k g).foldl (fun acc k =>
    acc + operandInt rd c.fmtA c.aAddr c.aStride c.aXpose i k * operandInt rd c.fmtB c.bAddr c.bStride c.bXpose j k) 0

/-- The group's contribution, rounded once to FP32 (R51, R52). -/
def groupContribution (rd : Nat → Byte) (c : TileCmd) (sc : TileScales) (i j g : Nat) : F32 :=
  let a := operandExp rd c.fmtA c.aAddr c.aStride c.aXpose i (16 * g)
  let b := operandExp rd c.fmtB c.bAddr c.bStride c.bXpose j (16 * g)
  let e := a + b + sc.u + sc.v
  match c.path with
  | some .mxint8 =>
    let pa := operandPlace c.aAddr c.aStride c.aXpose i (16 * g)
    let pb := operandPlace c.bAddr c.bStride c.bXpose j (16 * g)
    if blockScale rd c.fmtA pa.1 pa.2 = 0xFF ∨ blockScale rd c.fmtB pb.1 pb.2 = 0xFF then nan32
    else round32 (.ofInt (groupIntSum rd c i j g) (e - 12))
  | _ => round32 ((groupSum rd c i j g).scale e)

/-- A plane's accumulator for one element (R91, R93); on the INT8 path `hi` holds the INT32 sum (R95). -/
structure PlaneAcc where
  hi : F32
  lo : F32
  empty : Bool
  deriving DecidableEq, Repr

def PlaneAcc.start : PlaneAcc := ⟨zero32, zero32, true⟩

/-- accumulate of R93; `fp32c` selects the compensated accumulator. -/
def accumulate (fp32c : Bool) (a : PlaneAcc) (x : F32) : PlaneAcc :=
  if a.empty then ⟨x, zero32, false⟩
  else
    let exact := (val32 a.hi).add (val32 x)
    let s := round32 exact
    if fp32c then
      if isFinite32 s then ⟨s, round32 ((val32 a.lo).add (val32 (round32 (exact.add (val32 s).neg)))), false⟩
      else ⟨s, zero32, false⟩
    else ⟨s, a.lo, false⟩

/-- The INT32 value of accumulator bits. -/
def int32Of (x : F32) : Int := signed 32 x.toNat
/-- The bits of an INT32 value. -/
def ofInt32Bits (i : Int) : F32 := BitVec.ofInt 32 i

/-- accumulate on the INT8 path (R52, R95), with the count of saturations. -/
def accumulateInt (a : PlaneAcc × Nat) (x : Int) : PlaneAcc × Nat :=
  let s := satInt32 ((if a.1.empty then 0 else int32Of a.1.hi) + x)
  (⟨ofInt32Bits s.1, zero32, false⟩, a.2 + s.2.toNat)

/-- plane_value of R93. -/
def planeValue (fp32c : Bool) (a : PlaneAcc) : Option F32 :=
  if a.empty then none
  else if fp32c && isFinite32 a.hi then some (add32 a.hi a.lo)
  else some a.hi

/-- combine of R93: an empty value passes the other through. -/
def combineWith (f : F32 → F32 → F32) : Option F32 → Option F32 → Option F32
  | none, y => y
  | x, none => x
  | some x, some y => some (f x y)

/-- One level of the tree of R93: neighbours combined in pairs. -/
def treeLevel (f : F32 → F32 → F32) : List (Option F32) → List (Option F32)
  | a :: b :: rest => combineWith f a b :: treeLevel f rest
  | [a] => [a]
  | [] => []

/-- tree of R93 over 2^levels leaves, missing leaves empty. -/
def treeOf (f : F32 → F32 → F32) : Nat → List (Option F32) → Option F32
  | 0, v => v.headD none
  | l + 1, v => treeOf f l (treeLevel f v)

/-- An element's 16 plane accumulators after all its groups (R85, R93), and the INT32 saturations counted. -/
def elementPlanes (rd : Nat → Byte) (c : TileCmd) (sc : TileScales) (i j : Nat) : List PlaneAcc × Nat :=
  let groups := List.range (ceilDiv c.k 16)
  let one (p : Nat) : PlaneAcc × Nat :=
    let gs := groups.filter (fun g => g % 16 = p)
    if c.acc = 1 then gs.foldl (fun a g => accumulateInt a (groupIntSum rd c i j g)) (.start, 0)
    else (gs.foldl (fun a g => accumulate (c.acc = 2) a (groupContribution rd c sc i j g)) .start, 0)
  let ps := (List.range 16).map one
  (ps.map Prod.fst, ps.foldl (fun n p => n + p.2) 0)

/-- The tree of a drained element (R93, R95, R96): its 32 bits, and the saturations of the INT32 tree. -/
def drainElement (c : TileCmd) (planes : List PlaneAcc) : F32 × Nat :=
  if c.acc = 1 then
    let add (x y : F32 × Nat) : F32 × Nat :=
      let s := satInt32 (int32Of x.1 + int32Of y.1)
      (ofInt32Bits s.1, x.2 + y.2 + s.2.toNat)
    let leaf (p : PlaneAcc) : F32 × Nat := (if p.empty then zero32 else p.hi, 0)
    let rec level : List (F32 × Nat) → List (F32 × Nat)
      | a :: b :: rest => add a b :: level rest
      | [a] => [a]
      | [] => []
    ((level (level (level (level (planes.map leaf))))).headD (zero32, 0))
  else (((treeOf add32 4 (planes.map (planeValue (c.acc = 2)))).getD zero32), 0)

/-- The post-operation fields shared by a tile command and COMBINE (R98, R150). -/
structure PostOp where
  biasEn : Bool
  act : Nat
  lreluShift : Nat
  postExp : Int
  biasFmt : Nat
  biasAddr : Nat
  deriving DecidableEq, Repr

def TileCmd.post (c : TileCmd) : PostOp := ⟨c.biasEn, c.act, c.lreluShift, c.postExp, c.biasFmt, c.biasAddr⟩

/-- post_op of R98 for output column `j`. -/
def postOp (rd : Nat → Byte) (p : PostOp) (v0 : F32) (j : Nat) : F32 :=
  let v := if p.biasEn then add32 v0 (expand32 rd ((Fmt.ofCode p.biasFmt).getD .fp32) 0 p.biasAddr j) else v0
  if isNaN32 v then nan32
  else
    let v := if p.act = 1 ∧ ¬ lt32 zero32 v then zero32 else v
    let v := if p.act = 2 ∧ lt32 v zero32 then scale32 v (-(p.lreluShift : Int)) else v
    scale32 v p.postExp

/-- The 32-bit value a drained element hands to conversion (R98, R99, R103). -/
def drainedValue (rd : Nat → Byte) (c : TileCmd) (outFmt : Fmt) (planes : List PlaneAcc) (j : Nat) : F32 × Nat :=
  let t := drainElement c planes
  let v := if c.acc = 1 then ofInt32 (int32Of t.1) else t.1
  if c.isPartial then (v, t.2)
  else if outFmt = .int32 then t
  else (postOp rd c.post v j, t.2)

/-- One element of a tile in progress: its row and column in the output and its plane accumulators (R82, R91). -/
structure TileElem where
  i : Nat
  j : Nat
  planes : List PlaneAcc
  saturated : Nat
  deriving DecidableEq, Repr

/-- Rows `r0 …` of a tile row or column that lie inside the output (R100). -/
def insideLines (size index limit : Nat) : List Nat :=
  (List.range size).filterMap (fun t => if size * index + t < limit then some (size * index + t) else none)

/-- The accumulators of tile (r, q) after its last group step (R113, R93). -/
def accumulateTile (rd : Nat → Byte) (c : TileCmd) (sc : TileScales) (r q : Nat) : List TileElem :=
  (insideLines (tileRows c.shape) r c.m).flatMap (fun i =>
    (insideLines (tileCols c.shape) q c.n).map (fun j =>
      let a := elementPlanes rd c sc i j
      ⟨i, j, a.1, a.2⟩))

/-- What a drain produces: the cells it writes and what its conversion counts. -/
structure EngineOut where
  cells : List (Nat × Byte)
  stats : ConvStats
  deriving DecidableEq, Repr

def EngineOut.none : EngineOut := ⟨[], .zero⟩
def EngineOut.append (a b : EngineOut) : EngineOut := ⟨a.cells ++ b.cells, a.stats.merge b.stats⟩

/-- One stored output row or part of a row: plain 32-bit values for a partial or an INT32 output, otherwise R54; `index`
is the element index of a position of the row (R61). -/
def writeLine (plain : Bool) (t : TensorEntry) (s : Int) (seed : Nat) (index : Nat → Nat) (addr rowLen pos : Nat)
    (xs : List F32) : EngineOut :=
  if plain then ⟨(xs.zipIdx).flatMap (fun p => cellsAt (addr + 4 * (pos + p.2)) (bytesOf 4 p.1.toNat)), .zero⟩
  else
    let w := writeRun t.fmt s (fun p => t.rounding seed (index p)) addr rowLen pos xs
    ⟨w.1, w.2⟩

/-- The drain of a tile (R97, R98, R100, R103): stored rows are output rows, or output columns when ORIENT is 1; the output
is the part `part` of its tensor. -/
def drainTile (rd : Nat → Byte) (c : TileCmd) (t : TensorEntry) (part : TensorPart) (s : Int) (seed : Nat)
    (es : List TileElem) : EngineOut :=
  let plain := c.isPartial || t.fmt = .int32
  let line (e : TileElem) : Nat := if c.orient = 1 then e.j else e.i
  let pos (e : TileElem) : Nat := if c.orient = 1 then e.i else e.j
  let rowLen := if c.orient = 1 then c.m else c.n
  let lines := (es.map line).eraseDups
  let sat := es.foldl (fun n e => n + e.saturated + (drainElement c e.planes).2) 0
  let rows := lines.map (fun l =>
    let on := es.filter (fun e => line e = l)
    let xs := on.map (fun e => (drainedValue rd c t.fmt e.planes e.j).1)
    writeLine plain t s seed (part.index l) (c.cAddr + c.cStride * l) rowLen ((on.head?.map pos).getD 0) xs)
  let all := rows.foldl EngineOut.append .none
  ⟨all.cells, all.stats.merge ⟨sat, 0, zero32⟩⟩

/-- Elements of an operand that a crosswise expansion rounds or limits (R108), each element counted once. -/
def crosswiseInexact (rd : Nat → Byte) (f : Fmt) (addr stride : Nat) (xpose : Bool) (lines k : Nat) : Nat :=
  if crosswiseBf16 xpose f then
    ((List.range lines).flatMap (fun l => (List.range k).filter (fun kk =>
      (crosswiseNum rd f (addr + stride * kk) l).2))).length
  else 0

/-- R108's count for a whole tile command. -/
def TileCmd.inexact (rd : Nat → Byte) (c : TileCmd) : Nat :=
  if c.m = 0 ∨ c.n = 0 then 0
  else crosswiseInexact rd c.fmtA c.aAddr c.aStride c.aXpose c.m c.k
    + crosswiseInexact rd c.fmtB c.bAddr c.bStride c.bXpose c.n c.k

/-- Stored rows of bytes: an operand or an output (R43, R87, R100). -/
structure Rows where
  addr : Nat
  stride : Nat
  rows : Nat
  bytes : Nat
  deriving DecidableEq, Repr

/-- The run of bytes of each stored row. -/
def Rows.runs (r : Rows) : List (Nat × Nat) := (List.range r.rows).map (fun i => (r.addr + r.stride * i, r.bytes))

/-- Bytes an operand or output spans, from its address to the end of its last stored row; 0 for no row. -/
def spanBytes (stride rows rowBytes : Nat) : Nat := if rows = 0 then 0 else stride * (rows - 1) + rowBytes

/-- The field and consistency checks of R111 on one MMA or MMA_PAIR command, `t` its output tensor entry; the
locations of R87 and R106 are checked where the court's die is known. An operand or output whose address is no multiple of 8 is
refused: R43 starts every row at a multiple of 8 bytes. DEDUCED (assumption 213). -/
def TileCmd.checkMma (c : TileCmd) (t : TensorEntry) : Bool :=
  let fmts := (Fmt.ofCode c.aFmt).any Fmt.arrayOperand && (Fmt.ofCode c.bFmt).any Fmt.arrayOperand
  let accOk := match c.path with
    | some .int8 => c.acc = 1
    | some _ => c.acc = 0 || c.acc = 2
    | none => false
  let plain := c.isPartial
  let outFmt := t.fmt
  let outOk := plain || ((Fmt.ofCode t.fmtCode).any (fun f => f.output || f = .int32))
  let int32Ok := plain || outFmt ≠ .int32 || (c.acc = 1 && !c.biasEn && c.act = 0 && c.postExp = 0)
  let blockOk := plain || !outFmt.blockScaled ||
    (if c.orient = 0 then c.shape = 2 || c.shape = 3 else c.shape = 1 || c.shape = 3)
  let rowsA := if c.aXpose then c.k else c.m
  let rowsB := if c.bXpose then c.k else c.n
  let rowsC := if c.orient = 1 then c.n else c.m
  let strideOk := c.aStride % 8 = 0 && c.bStride % 8 = 0 && c.cStride % 8 = 0
    && (c.aStride ≠ 0 || rowsA ≤ 1) && (c.bStride ≠ 0 || rowsB ≤ 1) && (c.cStride ≠ 0 || rowsC ≤ 1)
  let ranges := c.acc ≠ 3 && c.act ≠ 3 && c.k ≤ 16777216 && -64 ≤ c.postExp && c.postExp ≤ 63
    && (c.act ≠ 2 || 1 ≤ c.lreluShift) && c.biasFmt ≤ 2 && c.reservedBits = 0
    && c.aAddr % 8 = 0 && c.bAddr % 8 = 0 && c.cAddr % 8 = 0
  fmts && accOk && outOk && int32Ok && blockOk && strideOk && ranges

/-- Fields of a WAIT, SIGNAL or END command of a tile, vector, gather or channel program (R110, R132): every field
but the opcode, the semaphore number at 4 [15:0] and the value at 8 [31:0] is zero; END has neither. -/
def syncClean (c : Desc) (isEnd : Bool) : Bool :=
  let keep : Nat := if isEnd then 0xFF else 0xFF + 0xFFFF * 2 ^ 32 + 0xFFFFFFFF * 2 ^ 64
  c.toNat &&& (2 ^ 512 - 1 - keep) = 0

end Sys2Proof.Machine
end

