-- ==== Sys2Proof/Machine/VecMath.lean ====
section
/-! DEFINITION. The vector engines' functions of one number (R136, R137) and their row reductions (R134, R135). -/
namespace Sys2Proof.Machine
open Sys2Proof

/-- Constants of R136: the FP32 value nearest the real number named, and ln2_hi exact. -/
def log2eC : F32 := 0x3FB8AA3B#32
def ln2HiC : F32 := 0x3F317200#32
def ln2LoC : F32 := 0x35BFBE8E#32
def sqrt2C : F32 := 0x3FB504F3#32
def tspC : F32 := 0x3F906EBB#32
def rs2C : F32 := 0x3F3504F3#32
def half32 : F32 := 0x3F000000#32
def two32 : F32 := 0x40000000#32
def four32 : F32 := 0x40800000#32

/-- c_k = 1/k! of R137, correctly rounded (k! is exact in FP32 for k up to 7). -/
def invFactC (k : Nat) : F32 := div32 one32 (ofNat32 k.factorial)
/-- d_k = 1/(2k+1) of R137, correctly rounded. -/
def invOddC (k : Nat) : F32 := div32 one32 (ofNat32 (2 * k + 1))

/-- The integer nearest an FP32 value, ties to even; 0 for NaN and infinity. -/
def roundHalfEven (x : F32) : Int :=
  match val32 x with
  | .fin n m e => signedMant n (roundInt .rne m e false)
  | _ => 0

/-- exp32 of R137. -/
def exp32 (x : F32) : F32 :=
  if isNaN32 x then nan32
  else if le32 0x42B20000#32 x then inf32 false
  else if le32 x 0xC2D00000#32 then zero32
  else
    let n := roundHalfEven (mul32 x log2eC)
    let r := fma32 (ofInt32 (-n)) ln2HiC x
    let r := fma32 (ofInt32 (-n)) ln2LoC r
    let p := [6, 5, 4, 3, 2].foldl (fun p k => fma32 p r (invFactC k)) (invFactC 7)
    let p := fma32 p r one32
    let p := fma32 p r one32
    scale32 p n

/-- log32 of R137. -/
def log32 (x : F32) : F32 :=
  match val32 x with
  | .nan => nan32
  | .inf n => if n then nan32 else inf32 false
  | .fin n mm ee =>
    if mm = 0 then inf32 true
    else if n then nan32
    else
      let l := Nat.log2 mm
      let m0 := packMag32 false mm (-(l : Int))
      let e0 := ee + l
      let big := lt32 sqrt2C m0
      let m := if big then scale32 m0 (-1) else m0
      let e := if big then e0 + 1 else e0
      let u := sub32 m one32
      let s := div32 u (add32 two32 u)
      let z := mul32 s s
      let q := [5, 4, 3, 2, 1].foldl (fun q k => fma32 q z (invOddC k)) (invOddC 6)
      let t := fma32 (mul32 s z) q s
      let y := mul32 two32 t
      let y := fma32 (ofInt32 e) ln2LoC y
      fma32 (ofInt32 e) ln2HiC y

def rcp32 (x : F32) : F32 := div32 one32 x
/-- rsqrt32 of R137: +0 gives +inf, -0 gives -inf, a negative number gives NaN. -/
def rsqrt32 (x : F32) : F32 := div32 one32 (sqrt32 x)

/-- sigmoid32 of R137. -/
def sigmoid32 (x : F32) : F32 :=
  if isNaN32 x then nan32
  else if le32 zero32 x then div32 one32 (add32 one32 (exp32 (neg32 x)))
  else
    let e := exp32 x
    div32 e (add32 one32 e)

def copysign32 (mag sgn : F32) : F32 := (mag &&& 0x7FFFFFFF#32) ||| (sgn &&& 0x80000000#32)

/-- erf32 of R137. -/
def erf32 (x : F32) : F32 :=
  if isNaN32 x then nan32
  else
    let a := abs32 x
    if le32 four32 a then copysign32 one32 x
    else
      let w := mul32 a a
      let wl := fma32 a a (neg32 w)
      let w2 := mul32 two32 w
      let nt := if lt32 a one32 then 12 else 44
      let sum := (List.range nt).foldr (fun i s => fma32 (mul32 w2 (invOddC (i + 1))) s one32) one32
      let g := exp32 (neg32 w)
      let g := fma32 (neg32 wl) g g
      let y := mul32 (mul32 (mul32 a tspC) g) sum
      copysign32 (if lt32 one32 y then one32 else y) x

/-- gelu32 of R137. -/
def gelu32 (x : F32) : F32 :=
  let h := mul32 half32 x
  fma32 h (erf32 (mul32 x rs2C)) h

/-- relu of R650. -/
def relu32 (x : F32) : F32 :=
  if isNaN32 x then nan32 else if lt32 zero32 x then x else zero32

/-- A row's element with its position; masked positions are simply absent (R134). -/
abbrev RowElems := List (Nat × F32)

/-- One lane's accumulation in increasing position (R134). -/
def laneAcc (first : F32 → F32) (next : F32 → F32 → F32) : List F32 → Option F32
  | [] => none
  | x :: xs => some (xs.foldl next (first x))

/-- A row reduction over 64 lanes and the tree of R93 (R134); an empty row gives +0. -/
def rowReduce (first : F32 → F32) (next : F32 → F32 → F32) (es : RowElems) : F32 :=
  let lanes := (List.range 64).map (fun l => laneAcc first next ((es.filter (fun p => p.1 % 64 = l)).map Prod.snd))
  (treeOf add32 6 lanes).getD zero32

/-- Row sum (R134). -/
def rowSum (es : RowElems) : F32 := rowReduce id add32 es
/-- Row sum of squares (R134). -/
def rowSumSq (es : RowElems) : F32 := rowReduce (fun x => mul32 x x) (fun acc x => fma32 x x acc) es
/-- Row maximum (R135); an empty row has maximum -infinity. -/
def rowMax (es : RowElems) : F32 := es.foldl (fun acc p => max32 acc p.2) (inf32 true)

/-- A whole row as elements, without a mask. -/
def wholeRow (xs : List F32) : RowElems := xs.zipIdx.map (fun p => (p.2, p.1))

/-- The unmasked elements of a row. -/
def unmasked (mask : Nat → Bool) (xs : List F32) : RowElems := (wholeRow xs).filter (fun p => !(mask p.1))

/-- The unnormalised row of R139 and R140: m, the e_i of the unmasked positions, and their sum s. -/
structure SoftRow where
  m : F32
  es : RowElems
  s : F32
  deriving DecidableEq, Repr

def softRow (es : RowElems) : SoftRow :=
  let m := rowMax es
  if m = inf32 true then ⟨m, es.map (fun p => (p.1, zero32)), zero32⟩
  else
    let ex := es.map (fun p => (p.1, exp32 (sub32 p.2 m)))
    let ex := if isNaN32 m then es.map (fun p => (p.1, nan32)) else ex
    ⟨m, ex, if isNaN32 m then nan32 else rowSum ex⟩

/-- Scatter a row's elements over `n` positions; positions without an element hold +0. -/
def spread (n : Nat) (es : RowElems) : List F32 :=
  (List.range n).map (fun t => ((es.find? (fun p => p.1 = t)).map Prod.snd).getD zero32)

/-- The probabilities of R139 at the unmasked positions. -/
def softmaxElems (es : RowElems) : RowElems :=
  let r := softRow es
  if r.m = inf32 true then es.map (fun p => (p.1, zero32))
  else if isNaN32 r.m then es.map (fun p => (p.1, nan32))
  else
    let q := div32 one32 r.s
    r.es.map (fun p => (p.1, mul32 p.2 q))

/-- Log-probabilities of R147 over the unmasked positions. -/
def logProbs (tauInv : F32) (es : RowElems) : RowElems :=
  let z := es.map (fun p => (p.1, mul32 p.2 tauInv))
  let m := rowMax z
  let sum := rowSum (z.map (fun p => (p.1, exp32 (sub32 p.2 m))))
  let l := log32 sum
  z.map (fun p => (p.1, sub32 (sub32 p.2 m) l))

end Sys2Proof.Machine
end

