-- ==== Sys2Proof/Machine/VecRows.lean ====
section
/-! DEFINITION. The forward vector commands (R131, R132): what EW, RED, SOFTMAX, LNORM, RMSNORM, ROUTE, LOSS and
COMBINE compute from the bytes they read, and the cells they write. -/
namespace Sys2Proof.Machine
open Sys2Proof

/-- A vector command's fields (R131). -/
structure VecCmd where
  opcode : Nat
  maskEn : Bool
  renorm : Bool
  biasSel : Bool
  subop : Nat
  rows : Nat
  cols : Nat
  outTensor : Nat
  k : Nat
  mode : Nat
  xAddr : Nat
  xTensor : Nat
  yAddr : Nat
  yTensor : Nat
  zAddr : Nat
  auxAddr : Nat
  scalar0 : F32
  scalar1 : F32
  scalar2 : F32
  stride : Nat
  reservedBits : Nat
  deriving DecidableEq, Repr

/-- Reading a vector command's 64 bytes (R131). -/
def VecCmd.ofBits (c : Desc) : VecCmd where
  opcode := fld c 0 0 8
  maskEn := fld c 1 0 1 = 1
  renorm := fld c 1 1 1 = 1
  biasSel := fld c 1 2 1 = 1
  subop := fld c 2 0 8
  rows := fld c 4 0 32
  cols := fld c 8 0 32
  outTensor := fld c 12 0 16
  k := fld c 14 0 8
  mode := fld c 15 0 8
  xAddr := fld c 16 0 48
  xTensor := fld c 16 48 16
  yAddr := fld c 24 0 48
  yTensor := fld c 24 48 16
  zAddr := fld c 32 0 48
  auxAddr := fld c 40 0 48
  scalar0 := BitVec.ofNat 32 (fld c 48 0 32)
  scalar1 := BitVec.ofNat 32 (fld c 52 0 32)
  scalar2 := BitVec.ofNat 32 (fld c 56 0 32)
  stride := fld c 60 0 32
  reservedBits := fld c 1 3 5 + fld c 3 0 8 + fld c 32 48 16 + fld c 40 48 16

/-- What a vector command sees beside its own fields: the bytes of its court buffer and SRAM, the work's tensor
entries and tensor parts, the outer-scale exponents of R65 and R66, the step seed and step number, the exclusion table of
R145, and the free value of each row where the spec states no result. -/
structure VecEnv where
  rd : Nat → Byte
  entry : Nat → TensorEntry
  parts : List TensorPart
  inExp : Nat → Int
  outExp : Nat → Int
  seed : Nat
  step : Nat
  xmask : Option Nat
  free : Nat → F32

/-- What a vector command does: cells, the conversion counts of its OUT_TENSOR, and the step's NaN count. -/
structure VecOut where
  cells : List (Nat × Byte)
  stats : ConvStats
  nans : Nat
  deriving DecidableEq, Repr

def VecOut.none : VecOut := ⟨[], .zero, 0⟩
def VecOut.append (a b : VecOut) : VecOut := ⟨a.cells ++ b.cells, a.stats.merge b.stats, a.nans + b.nans⟩
def VecOut.concat (os : List VecOut) : VecOut := os.foldl VecOut.append .none

/-- An input row expanded by R130 in the format R650 gives it. -/
def inputRow (env : VecEnv) (tensor addr stride cols row : Nat) : List F32 :=
  let t := if tensor = 0xFFFF then TensorEntry.plain else env.entry tensor
  let e := if tensor = 0xFFFF then 0 else env.inExp tensor
  (List.range cols).map (fun k => expand32 env.rd t.fmt e (addr + stride * row) k)

def VecCmd.xRow (env : VecEnv) (c : VecCmd) (row : Nat) : List F32 := inputRow env c.xTensor c.xAddr c.stride c.cols row
def VecCmd.yRow (env : VecEnv) (c : VecCmd) (row : Nat) : List F32 := inputRow env c.yTensor c.yAddr c.stride c.cols row

/-- FP32 element `k` of a packed vector. -/
def f32At (rd : Nat → Byte) (addr k : Nat) : F32 := BitVec.ofNat 32 (readNat rd (addr + 4 * k) 4)

/-- Is position `k` of a row masked (R131)? -/
def VecCmd.masked (env : VecEnv) (c : VecCmd) (row k : Nat) : Bool :=
  c.maskEn && bitAt (env.rd (c.auxAddr + row * (8 * ceilDiv c.cols 64) + k / 8)).toNat (k % 8)

/-- One row of the main output, converted under OUT_TENSOR (R54). -/
def VecCmd.putRow (env : VecEnv) (c : VecCmd) (row : Nat) (xs : List F32) : VecOut :=
  let part := partOf env.parts c.outTensor c.zAddr c.cols
  let o := writeLine false (env.entry c.outTensor) (env.outExp c.outTensor) env.seed (part.index row)
    (c.zAddr + c.stride * row) c.cols 0 xs
  ⟨o.cells, o.stats, o.stats.nans⟩

/-- FP32 values written as they are. -/
def putRaw (addr : Nat) (xs : List F32) : VecOut := ⟨cellsAt addr (xs.flatMap (fun x => bytesOf 4 x.toNat)), .zero, 0⟩

def countNaNs (xs : List F32) : Nat := (xs.filter isNaN32).length

/-- Every row of a command. -/
def VecCmd.eachRow (c : VecCmd) (f : Nat → VecOut) : VecOut := VecOut.concat ((List.range c.rows).map f)

/-- The element-wise function a SUBOP names (R132, R650). -/
def ewFun (subop : Nat) (s0 x y : F32) : F32 :=
  match subop with
  | 0x00 => x
  | 0x01 => add32 x y
  | 0x02 => mul32 x y
  | 0x03 => fma32 x s0 y
  | 0x04 => max32 x y
  | 0x05 => min32 x y
  | 0x10 => exp32 x
  | 0x11 => log32 x
  | 0x12 => rcp32 x
  | 0x13 => rsqrt32 x
  | 0x14 => sqrt32 x
  | 0x15 => sigmoid32 x
  | 0x16 => erf32 x
  | 0x17 => gelu32 x
  | 0x18 => relu32 x
  | _ => x

/-- SUBOPs of EW (R132) and those with two operands. -/
def ewSubops : List Nat := [0, 1, 2, 3, 4, 5, 0x10, 0x11, 0x12, 0x13, 0x14, 0x15, 0x16, 0x17, 0x18]
def ewBinary (subop : Nat) : Bool := decide (1 ≤ subop ∧ subop ≤ 5)

/-- EW (R650). -/
def vecEw (env : VecEnv) (c : VecCmd) : VecOut :=
  c.eachRow (fun r =>
    let xs := c.xRow env r
    let ys := if ewBinary c.subop then c.yRow env r else xs
    c.putRow env r ((xs.zip ys).zipIdx.map (fun p =>
      if c.masked env r p.2 then zero32 else ewFun c.subop c.scalar0 p.1.1 p.1.2)))

/-- RED (R650): one FP32 per row, packed. -/
def vecRed (env : VecEnv) (c : VecCmd) : VecOut :=
  c.eachRow (fun r =>
    let es := unmasked (c.masked env r) (c.xRow env r)
    let v := if c.subop = 1 then rowMax es else if c.subop = 2 then rowSumSq es else rowSum es
    putRaw (c.zAddr + 4 * r) [v])

/-- SOFTMAX (R139, R140). -/
def vecSoftmax (env : VecEnv) (c : VecCmd) : VecOut :=
  c.eachRow (fun r =>
    let es := unmasked (c.masked env r) (c.xRow env r)
    if c.mode = 1 then
      let s := softRow es
      (c.putRow env r (spread c.cols s.es)).append (putRaw (c.yAddr + 8 * r) [s.m, s.s])
    else c.putRow env r (spread c.cols (softmaxElems es)))

/-- The row statistics of LNORM (R141): mean, differences, and reciprocal deviation. -/
def lnormStats (eps : F32) (xs : List F32) : List F32 × F32 :=
  let n := ofNat32 xs.length
  let mu := div32 (rowSum (wholeRow xs)) n
  let ds := xs.map (fun x => sub32 x mu)
  let v := div32 (rowSumSq (wholeRow ds)) n
  (ds, rsqrt32 (add32 v eps))

/-- The reciprocal root mean square of RMSNORM (R141). -/
def rmsStat (eps : F32) (xs : List F32) : F32 :=
  rsqrt32 (add32 (div32 (rowSumSq (wholeRow xs)) (ofNat32 xs.length)) eps)

/-- LNORM (R141): γ at Y_ADDR and β at AUX_ADDR, FP32. -/
def vecLnorm (env : VecEnv) (c : VecCmd) : VecOut :=
  c.eachRow (fun r =>
    let s := lnormStats c.scalar0 (c.xRow env r)
    c.putRow env r (s.1.zipIdx.map (fun p =>
      fma32 (mul32 p.1 s.2) (f32At env.rd c.yAddr p.2) (f32At env.rd c.auxAddr p.2))))

/-- RMSNORM (R141). -/
def vecRmsnorm (env : VecEnv) (c : VecCmd) : VecOut :=
  c.eachRow (fun r =>
    let xs := c.xRow env r
    let s := rmsStat c.scalar0 xs
    c.putRow env r (xs.zipIdx.map (fun p => mul32 (mul32 p.1 s) (f32At env.rd c.yAddr p.2))))

/-- Does key `a` of expert `i` rank before key `b` of expert `j` (R143)? -/
def ranksBefore (i : Nat) (a : F32) (j : Nat) (b : F32) : Bool :=
  if isNaN32 a then isNaN32 b && decide (i < j)
  else if isNaN32 b then true
  else lt32 b a || (!(lt32 a b) && decide (i < j))

/-- Insert a candidate into a ranking (R143). -/
def insertRank (x : Nat × F32) : List (Nat × F32) → List (Nat × F32)
  | [] => [x]
  | y :: ys => if ranksBefore x.1 x.2 y.1 y.2 then x :: y :: ys else y :: insertRank x ys

/-- Experts in ranking order (R143). -/
def rankExperts (keys : List (Nat × F32)) : List (Nat × F32) := keys.foldl (fun acc x => insertRank x acc) []

/-- Is expert `i` eligible for the layer (R144, R145)? -/
def eligible (env : VecEnv) (layer i : Nat) : Bool :=
  match env.xmask with
  | some base => !(bitAt (env.rd (base + 128 * layer + i / 8)).toNat (i % 8))
  | none => true

/-- One token's selection: expert and weight for each of the K records (R142 to R144). Records beyond the eligible count keep
weight +0 also in a MODE 0 row with a NaN logit. DESIGN CHOICE (assumption 215). -/
def routeRow (env : VecEnv) (c : VecCmd) (xs : List F32) : List (Nat × F32) :=
  let scores := if c.mode = 0 then (softmaxElems (wholeRow xs)).map Prod.snd
    else if c.mode = 2 then xs.map sigmoid32 else xs
  let layer := bitsOf c.scalar0.toNat 0 16
  let keys := scores.zipIdx.filterMap (fun p =>
    if eligible env layer p.2 then
      some (p.2, if c.biasSel then add32 p.1 (f32At env.rd c.yAddr p.2) else p.1)
    else none)
  let chosen := ((rankExperts keys).take c.k).map Prod.fst
  let sel := chosen.map (fun i => scores.getD i zero32)
  let weights :=
    if c.mode = 1 then (softmaxElems (wholeRow sel)).map Prod.snd
    else if c.renorm then
      let s := rowSum (wholeRow sel)
      sel.map (fun w => div32 w s)
    else sel
  let recs := chosen.zip weights
  recs ++ List.replicate (c.k - recs.length) (0xFFFF, zero32)

/-- ROUTE (R142 to R146): K records of 8 bytes per token. -/
def vecRoute (env : VecEnv) (c : VecCmd) : VecOut :=
  c.eachRow (fun r =>
    let recs := routeRow env c (c.xRow env r)
    ⟨recs.zipIdx.flatMap (fun p =>
        cellsAt (c.zAddr + c.stride * r + 8 * p.2) (bytesOf 4 p.1.1 ++ bytesOf 4 p.1.2.toNat)),
      .zero, countNaNs (recs.map Prod.snd)⟩)

/-- The value of an element list at a position, where it has one. -/
def elemAt? (es : RowElems) (k : Nat) : Option F32 := (es.find? (fun p => p.1 = k)).map Prod.snd

/-- LOSS of one row (R147, R148): the loss and the gradient row. A label that names no unmasked element of the row
has no stated log-probability: its cross-entropy is the row's free value. -/
def lossRow (env : VecEnv) (c : VecCmd) (row : Nat) : F32 × List F32 :=
  let wkl := c.scalar1
  let wce := c.scalar2
  let kl := !(isZero32 wkl)
  let ce := !(isZero32 wce)
  let label := readNat env.rd ((if kl then c.yAddr + c.rows * c.stride else c.yAddr) + 4 * row) 4
  if ce && label = 0xFFFFFFFF then (zero32, List.replicate c.cols zero32)
  else
    let mask := c.masked env row
    let lp := logProbs c.scalar0 (unmasked mask (c.xRow env row))
    let lc := if kl then logProbs c.scalar0 (unmasked mask (c.yRow env row)) else []
    let pcs := lc.map (fun p => (p.1, exp32 p.2))
    let ts := (lp.zip (lc.zip pcs)).map (fun q =>
      let pc := q.2.2.2
      (q.1.1, if pc = zero32 then zero32 else mul32 pc (sub32 q.2.1.2 q.1.2)))
    let klTerm := mul32 wkl (rowSum ts)
    let ceVal := match elemAt? lp label with
      | some l => neg32 l
      | none => env.free row
    let ceTerm := mul32 wce ceVal
    let L := if kl && ce then add32 klTerm ceTerm else if kl then klTerm else if ce then ceTerm else zero32
    let g := lp.map (fun p =>
      let pp := exp32 p.2
      let a := if kl then mul32 wkl (sub32 pp ((elemAt? pcs p.1).getD zero32)) else zero32
      let y := if p.1 = label then one32 else zero32
      let d := if ce then mul32 wce (sub32 pp y) else zero32
      (p.1, scale32 (add32 a d) (signed 8 c.mode)))
    (L, spread c.cols g)

/-- LOSS (R147 to R149). With MASK_EN = 1, AUX_ADDR names both the mask bitmap (R131) and the per-row losses (R147): the
bitmap is read, and the losses are then written over it. DESIGN CHOICE (assumption 214). -/
def vecLoss (env : VecEnv) (c : VecCmd) : VecOut :=
  c.eachRow (fun r =>
    let l := lossRow env c r
    let o := (c.putRow env r l.2).append (putRaw (c.auxAddr + 4 * r) [l.1])
    { o with nans := o.nans + countNaNs (l.1 :: l.2) })

/-- COMBINE (R104, R150). -/
def vecCombine (env : VecEnv) (c : VecCmd) : VecOut :=
  let post : PostOp := ⟨bitAt c.mode 2, bitsOf c.mode 0 2, bitsOf c.mode 3 4, signed 8 (bitsOf c.scalar1.toNat 0 8),
    bitsOf c.scalar1.toNat 8 8, c.auxAddr⟩
  c.eachRow (fun r =>
    let parts := (List.range (c.k + 1)).map (fun s =>
      inputRow env c.xTensor (c.xAddr + s * c.scalar0.toNat) c.stride c.cols r)
    c.putRow env r ((List.range c.cols).map (fun j =>
      postOp env.rd post ((treeOf add32 8 (parts.map (fun p => p[j]?))).getD zero32) j)))

end Sys2Proof.Machine
end

