-- ==== Sys2Proof/Machine/Backward.lean ====
section
/-! DEFINITION. The backward and optimiser commands of the vector engines: SOFTMAX_BWD (R167 to R169), NORM_BWD (R170,
R171), OPT and SCAN (R173 to R182), and the load checks of vector commands (R133, R142, R145, R167, R170, R173). -/
namespace Sys2Proof.Machine
open Sys2Proof

/-- The probabilities SOFTMAX_BWD rebuilds in MODE 1 (R169); each segment has its own positions. -/
def mergedProbs (split : Nat) (es : RowElems) : RowElems :=
  let a := softRow (es.filter (fun p => p.1 < split))
  let b := softRow ((es.filter (fun p => ¬ p.1 < split)).map (fun p => (p.1 - split, p.2)))
  let m := max32 a.m b.m
  if m = inf32 true then es.map (fun p => (p.1, zero32))
  else
    let w (seg : SoftRow) : F32 := if seg.m = inf32 true then zero32 else exp32 (sub32 seg.m m)
    let wa := w a
    let wb := w b
    let q := div32 one32 (add32 (mul32 a.s wa) (mul32 b.s wb))
    a.es.map (fun p => (p.1, mul32 (mul32 p.2 wa) q)) ++
      b.es.map (fun p => (p.1 + split, mul32 (mul32 p.2 wb) q))

/-- SOFTMAX_BWD (R167 to R169). -/
def vecSoftmaxBwd (env : VecEnv) (c : VecCmd) : VecOut :=
  c.eachRow (fun r =>
    let mask := c.masked env r
    let es := unmasked mask (c.xRow env r)
    let ys := if c.mode = 1 then mergedProbs c.scalar0.toNat es else softmaxElems es
    let dys := c.yRow env r
    let dy (k : Nat) : F32 := dys.getD k zero32
    let m := rowMax es
    let nanRow := isNaN32 m
    let D := rowSum (ys.map (fun p => (p.1, mul32 p.2 (dy p.1))))
    let dx : RowElems :=
      if m = inf32 true then []
      else if nanRow then es.map (fun p => (p.1, nan32))
      else ys.map (fun p => (p.1, mul32 p.2 (sub32 (dy p.1) D)))
    let o := c.putRow env r (spread c.cols dx)
    { o with nans := o.nans + countNaNs (dx.map Prod.snd) })

/-- NORM_BWD (R170, R171). -/
def vecNormBwd (env : VecEnv) (c : VecCmd) : VecOut :=
  c.eachRow (fun r =>
    let xs := c.xRow env r
    let dys := c.yRow env r
    let ln := c.mode = 0 ∨ c.mode = 2
    let st := lnormStats c.scalar0 xs
    let rr := if ln then st.2 else rmsStat c.scalar0 xs
    let xhat := (if ln then st.1 else xs).map (fun d => mul32 d rr)
    let n := ofNat32 c.cols
    let out :=
      if c.mode = 2 ∨ c.mode = 3 then (dys.zip xhat).map (fun p => mul32 p.1 p.2)
      else
        let g := dys.zipIdx.map (fun p => mul32 p.1 (f32At env.rd c.auxAddr p.2))
        let b := div32 (rowSum (wholeRow ((g.zip xhat).map (fun p => mul32 p.1 p.2)))) n
        let a := div32 (rowSum (wholeRow g)) n
        (g.zip xhat).map (fun p =>
          if ln then mul32 rr (sub32 (sub32 p.1 a) (mul32 p.2 b)) else mul32 rr (sub32 p.1 (mul32 p.2 b)))
    c.putRow env r out)

/-- Parameter count of an update group (R173). -/
def VecCmd.params (c : VecCmd) : Nat := c.rows * c.cols
/-- n rounded up to a multiple of 4 (R175). -/
def padded4 (n : Nat) : Nat := 4 * ceilDiv n 4
/-- Bytes of a state region (R175). -/
def stateBytes (mode n : Nat) : Nat := 32 + (if mode = 0 then 14 else 10) * padded4 n

/-- Element addresses of a state region (R175). -/
def masterAddr (base k : Nat) : Nat := base + 32 + 4 * k
def carryAddr (base n k : Nat) : Nat := base + 32 + 4 * padded4 n + 2 * k
def momentAddr (base n k : Nat) : Nat := base + 32 + 6 * padded4 n + 4 * k
def secondAddr (base n k : Nat) : Nat := base + 32 + 10 * padded4 n + 4 * k

/-- The update record of R176. -/
structure UpdateRec where
  lr : F32
  beta1 : F32
  beta2 : F32
  eps : F32
  wd : F32
  veto : Nat
  wcAddr : Nat
  deriving DecidableEq, Repr

def readUpdateRec (rd : Nat → Byte) (a : Nat) : UpdateRec where
  lr := f32At rd a 0
  beta1 := f32At rd a 1
  beta2 := f32At rd a 2
  eps := f32At rd a 3
  wd := f32At rd a 4
  veto := readNat rd (a + 20) 4
  wcAddr := readNat rd (a + 24) 6

/-- Gradient element k, expanded by R130. -/
def gradElem (env : VecEnv) (c : VecCmd) (k : Nat) : F32 :=
  ((inputRow env c.xTensor c.xAddr c.stride c.cols (k / c.cols)).getD (k % c.cols) zero32)

/-- A gradient element is counted when it or its product with SCALAR0 is NaN or infinite (R177, R178). -/
def badGrad (env : VecEnv) (c : VecCmd) (k : Nat) : Bool :=
  let g := gradElem env c k
  nonFinite32 g || nonFinite32 (mul32 g c.scalar0)

/-- SCAN (R177): VETO rises by the count of non-finite elements, saturating. -/
def vecScan (env : VecEnv) (c : VecCmd) : VecOut :=
  let bad := ((List.range c.params).filter (badGrad env c)).length
  let veto := readNat env.rd (c.auxAddr + 20) 4
  if c.rows = 0 then .none
  else ⟨cellsAt (c.auxAddr + 20) (bytesOf 4 (min (veto + bad) 0xFFFFFFFF)), .zero, 0⟩

/-- A field in [0, 1) (R176). -/
def unitRange (x : F32) : Bool := isFinite32 x && le32 zero32 x && lt32 x one32

/-- The skip reasons of R178, as the REASON bits. Reserved bits of the update record are no field with a range: they do not
set bit 3. DESIGN CHOICE (assumption 217). -/
def optReasons (env : VecEnv) (c : VecCmd) : Nat :=
  let n := c.params
  let rec_ := readUpdateRec env.rd c.auxAddr
  let adam := c.mode = 0
  let ks := List.range n
  let bf (k : Nat) : F32 := expand32 env.rd .bf16 0 (carryAddr c.yAddr n k) 0
  let b0 := ks.any (badGrad env c)
  let b1 := ks.any (fun k => nonFinite32 (f32At env.rd (masterAddr c.yAddr k) 0) || nonFinite32 (bf k)
    || nonFinite32 (f32At env.rd (momentAddr c.yAddr n k) 0)
    || (adam && nonFinite32 (f32At env.rd (secondAddr c.yAddr n k) 0)))
  let b2 := rec_.veto ≠ 0
  let nonNeg (x : F32) : Bool := isFinite32 x && le32 zero32 x
  let okRec := nonNeg rec_.lr && unitRange rec_.beta1 && nonNeg rec_.wd
    && (!adam || (unitRange rec_.beta2 && isFinite32 rec_.eps && lt32 zero32 rec_.eps))
  let b3 := !okRec || readNat env.rd (c.yAddr + 24) 4 ≠ n || (env.rd (c.yAddr + 28)).toNat ≠ c.mode
  b0.toNat + 2 * b1.toNat + 4 * (decide b2).toNat + 8 * b3.toNat

/-- carry_add of R180. -/
def carryAdd (w : F32) (carry : F32) (d : F32) : F32 × Nat :=
  let y := sub32 carry d
  let exact := (val32 w).add (val32 y)
  let s := round32 exact
  if isFinite32 s then (s, (convertFloat .bf16 .rne (val32 (round32 (exact.add (val32 s).neg)))).1)
  else (s, 0)

/-- The new state of one parameter (R180). -/
structure ParamOut where
  master : F32
  carry : Nat
  m : F32
  v : F32
  deriving DecidableEq, Repr

/-- One parameter of opt_update (R180). -/
def optParam (env : VecEnv) (c : VecCmd) (rec_ : UpdateRec) (k : Nat) : ParamOut :=
  let n := c.params
  let b1pow := f32At env.rd (c.yAddr + 8) 0
  let b2pow := f32At env.rd (c.yAddr + 12) 0
  let p1 := mul32 b1pow rec_.beta1
  let p2 := mul32 b2pow rec_.beta2
  let o1 := sub32 one32 rec_.beta1
  let o2 := sub32 one32 rec_.beta2
  let c1 := div32 one32 (sub32 one32 p1)
  let c2 := div32 one32 (sub32 one32 p2)
  let g := mul32 c.scalar0 (gradElem env c k)
  let w := f32At env.rd (masterAddr c.yAddr k) 0
  let m0 := f32At env.rd (momentAddr c.yAddr n k) 0
  let v0 := f32At env.rd (secondAddr c.yAddr n k) 0
  let adam := c.mode = 0
  let m := if adam then fma32 rec_.beta1 m0 (mul32 o1 g) else fma32 rec_.beta1 m0 g
  let v := if adam then fma32 rec_.beta2 v0 (mul32 o2 (mul32 g g)) else v0
  let u := if adam then div32 (mul32 m c1) (add32 (sqrt32 (mul32 v c2)) rec_.eps) else m
  let d := mul32 rec_.lr (fma32 rec_.wd w u)
  let s := carryAdd w (expand32 env.rd .bf16 0 (carryAddr c.yAddr n k) 0) d
  ⟨s.1, s.2, m, v⟩

/-- What OPT reports beside its cells: the REASON bits (0 when it applied) and SKIPPED of the state out (R183). -/
structure OptOut where
  out : VecOut
  reason : Nat
  skipped : Nat
  deriving DecidableEq, Repr

/-- OPT in MODE 0 or 1 (R178 to R181). -/
def vecOpt (env : VecEnv) (c : VecCmd) : OptOut :=
  let n := c.params
  let reason := optReasons env c
  let skipped0 := readNat env.rd (c.yAddr + 4) 4
  let keep (off len : Nat) : List (Nat × Byte) :=
    (List.range len).map (fun i => (c.zAddr + off + i, env.rd (c.yAddr + off + i)))
  if c.rows = 0 then ⟨.none, 0, skipped0⟩
  else if reason ≠ 0 then
    let skipped := min (skipped0 + 1) 0xFFFFFFFF
    ⟨⟨keep 0 4 ++ cellsAt (c.zAddr + 4) (bytesOf 4 skipped) ++ keep 8 8
        ++ cellsAt (c.zAddr + 16) (bytesOf 8 env.step) ++ keep 24 (stateBytes c.mode n - 24), .zero, 0⟩, reason, skipped⟩
  else
    let rec_ := readUpdateRec env.rd c.auxAddr
    let adam := c.mode = 0
    let ps := (List.range n).map (optParam env c rec_)
    let t := env.entry c.outTensor
    let wc := (List.range c.rows).map (fun r =>
      let row := writeLine false { t with grad := false } (env.outExp c.outTensor) env.seed
        (fun p => r * c.cols + p) (rec_.wcAddr + c.stride * r) c.cols 0 (((ps.drop (r * c.cols)).take c.cols).map ParamOut.master)
      (⟨row.cells, row.stats, row.stats.nans⟩ : VecOut))
    let pow (off : Nat) (b : F32) : List Byte := bytesOf 4 (mul32 (f32At env.rd (c.yAddr + off) 0) b).toNat
    let head := keep 0 32
      ++ cellsAt c.zAddr (bytesOf 4 (readNat env.rd c.yAddr 4 + 1))
      ++ cellsAt (c.zAddr + 16) (bytesOf 8 env.step)
      ++ (if adam then cellsAt (c.zAddr + 8) (pow 8 rec_.beta1) ++ cellsAt (c.zAddr + 12) (pow 12 rec_.beta2) else [])
    let body := keep 32 (stateBytes c.mode n - 32) ++ ps.zipIdx.flatMap (fun p =>
      cellsAt (masterAddr c.zAddr p.2) (bytesOf 4 p.1.master.toNat)
        ++ cellsAt (carryAddr c.zAddr n p.2) (bytesOf 2 p.1.carry)
        ++ cellsAt (momentAddr c.zAddr n p.2) (bytesOf 4 p.1.m.toNat)
        ++ (if adam then cellsAt (secondAddr c.zAddr n p.2) (bytesOf 4 p.1.v.toNat) else []))
    let nans := ps.foldl (fun a p => a + countNaNs [p.master, p.m, if adam then p.v else zero32,
      round32 (decodeFloat .bf16 p.carry)]) 0
    let w := VecOut.concat wc
    ⟨⟨head ++ body ++ w.cells, w.stats, w.nans + nans⟩, 0, skipped0⟩

/-- The field checks of one vector command at load (R133 with R131, R132, R142, R145, R148, R162, R167, R170, R173),
`out` its output tensor entry. The locations of R128 are checked where the engine's die is known. Of the fields that an opcode
does not use, MODE of EW and RED and MASK_EN of LNORM and RMSNORM must be 0, and MASK_EN of ROUTE and COMBINE and MODE of LNORM
and RMSNORM are ignored; SCAN's Y_ADDR and Z_ADDR may be anything. DESIGN CHOICE (assumptions 216 and 218). -/
def VecCmd.check (c : VecCmd) (out : TensorEntry) : Bool :=
  let base := c.reservedBits = 0 && c.rows ≤ 16777216 && 1 ≤ c.cols && c.cols ≤ 262144
    && c.stride % 8 = 0 && (c.stride ≠ 0 || c.rows ≤ 1)
  let flagsOff := !c.renorm && !c.biasSel
  let conv := (Fmt.ofCode out.fmtCode).any Fmt.output
  let specific := match c.opcode with
    | 0x01 => ewSubops.contains c.subop && conv && flagsOff && c.mode = 0
    | 0x02 => c.subop ≤ 2 && flagsOff && c.mode = 0
    | 0x03 => c.mode ≤ 1 && conv && flagsOff
    | 0x04 | 0x05 => conv && flagsOff && !c.maskEn
    | 0x06 => c.mode ≤ 2 && c.cols ≤ 1024 && 1 ≤ c.k && c.k ≤ 16 && c.k ≤ c.cols
        && bitsOf c.scalar0.toNat 0 16 < 1024 && bitsOf c.scalar0.toNat 16 16 = 0
    | 0x07 => out.grad && -64 ≤ signed 8 c.mode && signed 8 c.mode ≤ 63 && flagsOff
    | 0x08 => bitsOf c.mode 7 1 = 0 && -64 ≤ signed 8 (bitsOf c.scalar1.toNat 0 8) && signed 8 (bitsOf c.scalar1.toNat 0 8) ≤ 63
        && bitsOf c.mode 0 2 ≠ 3 && (bitsOf c.mode 0 2 ≠ 2 || bitsOf c.mode 3 4 ≠ 0) && conv && flagsOff
        && (c.scalar0 ≠ 0 || c.k = 0) && bitsOf c.scalar1.toNat 8 8 ≤ 2
    | 0x09 => c.mode ≤ 2 && flagsOff && !c.maskEn && c.k = 0 && c.subop = 0 && c.yTensor = 0xFFFF
        && c.auxAddr % 64 = 0 && (c.mode = 2 || conv) && !out.grad && c.scalar1 = 0 && c.scalar2 = 0
    | 0x0A => c.mode ≤ 1 && (c.mode = 0 || c.scalar0.toNat ≤ c.cols) && c.k = 0 && c.subop = 0 && flagsOff
        && c.scalar1 = 0 && c.scalar2 = 0 && out.grad
    | 0x0B => c.mode ≤ 3 && !c.maskEn && c.k = 0 && c.subop = 0 && flagsOff && c.scalar1 = 0 && c.scalar2 = 0 && out.grad
    | _ => false
  base && specific

end Sys2Proof.Machine
end

