-- ==== Sys2Proof/Config.lean ====
section
/-! DEFINITION. What an implementation or the outside fixes and the spec leaves open: the free values, the forms of messages
and certificates that other standards lay out, and the values fused at manufacture. Every constant here is opaque: no proof
can see a value of it. -/
namespace Sys2Proof
open Machine

/-- A value the spec leaves open, by the counter State.freeCtr (assumption 2). -/
opaque Config.freeValue (w : Nat) : Nat → BitVec w

/-- The authentication of a message of the link management channel under a session key (R393, which names no algorithm): key,
direction, message. -/
opaque Config.lmcTag : BitVec 256 → Nat → List Byte → BitVec 128
/-- Bytes of an SPDM response that SPDM 1.3 lays down and this spec does not: request code, request, counter (R526). -/
opaque Config.spdmBody : Nat → List Byte → Nat → List Byte

/-- SHA-384 digest of the boot ROM (R521, R525 MR0). -/
opaque Config.romDigest : Digest
/-- The fused unique device secret (R518). -/
opaque Config.uds : Digest
/-- The two fused root key hashes (R518). -/
opaque Config.rootKeyHash : Nat → Digest
/-- The revoke fuse of a root key hash (R518). -/
opaque Config.rootRevoked : Nat → Bool
/-- The fused debug authorisation key hash (R518). -/
opaque Config.debugKeyHash : Digest
/-- The private DevID key, fused under the UDS (R518). -/
opaque Config.devIdKey : Nat
/-- The alias key's private part, as it is derived from a CDI (R521, which gives no derivation). -/
opaque Config.aliasKey : List Byte → Nat
/-- The root, intermediate and DevID certificates of SPDM slot 0, issued at manufacture (R520). -/
opaque Config.issuedChain : List Byte
/-- The part of the alias certificate that its signature covers: the alias public key, and the digest that its extension carries
(R520; X.509 lays it out, and the spec gives its names and its serial number to nobody). -/
opaque Config.aliasTbs : List Byte → List Byte → List Byte
/-- A certificate of the part that is signed and its signature. -/
opaque Config.certificate : List Byte → List Byte → List Byte
/-- The 512 bits of a memory key by its instance: what the Referee's random generator gave (R503, R519). -/
opaque Config.memoryKey : Nat → BitVec 512
/-- Which of the 4,194,304 directory entries an adapter has (R229). -/
opaque Config.directoryIndex : Nat → BitVec 22
/-- PLIST: where the directory region keeps an adapter's page list, for which R239 gives no order. -/
opaque Config.pageListOffset : Nat → Word
/-- Energy coefficients fused at test, in fJ per event, by class 0 to 9 (R362). -/
opaque Config.energyCoef : Nat → Nat

end Sys2Proof
end

