-- ==== Sys2Proof/Machine/Regs.lean ====
section
/-! DEFINITION. The register map (R11, R13, R15, R626): one row per register the spec defines, with its BAR0 offset,
its reset value, the bits of each access code, and the selector that indexes it. Registers are keyed by offset plus
2^28 times the index; port B's own HUB_ and HDL_ blocks and latches are keyed 0x400_0000 higher (R625). -/
namespace Sys2Proof.Machine
open Sys2Proof

/-- A register row. `rw`, `st`, `w1c`, `lk` are the masks of the bits with these access codes (R13); bits in none of
them are RO, WO, W1S or reserved. `cold` are the bits that only a cold reset restores (R15). `sel` is the selector
register whose value indexes the row. -/
structure RegRow where
  off : Nat
  reset : Nat
  rw : Nat
  st : Nat
  w1c : Nat
  lk : Nat
  cold : Nat
  sel : Option Nat
  deriving DecidableEq, Repr

/-- A row whose unnamed masks are empty. -/
def reg (off reset : Nat) (rw st w1c : Nat := 0) (cold : Nat := 0) (lk : Nat := 0) (sel : Option Nat := none) : RegRow :=
  ⟨off, reset, rw, st, w1c, lk, cold, sel⟩

/-- All 32 bits. -/
abbrev m32 : Nat := 0xFFFF_FFFF

namespace R

/-! HUB_ and HDL_ (R478 to R481). -/
def hubCtxSel := 0x0000
def hubCtxCfg := 0x0004
def hubCtxSession := 0x0008
def hubRingSel := 0x0010
def hubRingCfg (w : Nat) := 0x0014 + 4 * w
def hubMbxSel := 0x0040
def hubMbxCfg (w : Nat) := 0x0044 + 4 * w
def hubWinBaseLo := 0x0060
def hubWinBaseHi := 0x0064
def hubWinViol := 0x0068
def hubDbErr := 0x006C
def hubOwner := 0x0070
def hubHeartbeat := 0x0074
def hdlCtl := 0x1_0000
def hdlStatus := 0x1_0004
def hdlApplyTsLo := 0x1_0008
def hdlApplyTsHi := 0x1_000C
def hdlAppliedTsLo := 0x1_0010
def hdlAppliedTsHi := 0x1_0014
def hdlApplyCount := 0x1_0018

/-! UMP_ (R333 to R335, R365 to R369). -/
def umpCtl := 0x10_0000
def umpStatus := 0x10_0004
def umpDrrQuantum := 0x10_0008
def umpUtil := 0x10_000C
def umpSubst := 0x10_0010
def umpCtxSel := 0x10_0020
def umpCtxShare := 0x10_0024
def umpRsvSel := 0x10_0030
def umpRsvCfg := 0x10_0034
def umpRsvPeriod := 0x10_0038
def umpRsvMissCount := 0x10_003C
def umpAcctBase := 0x10_0040
def umpOverrunCount := 0x10_0044
def umpUrgentCount := 0x10_0048
def umpEcoefSel := 0x10_0050
def umpEcoef := 0x10_0054
def umpRsvOffset := 0x10_0058
def umpKvCtl := 0x10_0400
def umpKvBaseLo := 0x10_0408
def umpKvBaseHi := 0x10_040C
def umpKvPages := 0x10_0410
def umpKvShape := 0x10_0414
def umpKvQuotaLo := 0x10_0418
def umpKvQuotaHi := 0x10_041C
def umpKvFree := 0x10_0420
def umpKvClaims := 0x10_0424
def umpKvBlocks := 0x10_0428
def umpServeNoLo := 0x10_0430
def umpServeNoHi := 0x10_0434
def umpDeferMem := 0x10_0438
def umpDeferBudget := 0x10_043C
def umpReqLive := 0x10_0440

/-! CRT_ (R77 to R79, R123 to R125, R571). -/
def crtCap := 0x11_0000
def crtCourtOnline (n : Nat) := 0x11_0010 + 4 * n
def crtStopCount := 0x11_0100
def crtXposeInexact := 0x11_0104
def crtCvtCtl := 0x11_0200
def crtSatTotalLo := 0x11_0208
def crtSatTotalHi := 0x11_020C
def crtProbeCount := 0x11_0210
def crtSpill := 0x11_0300

/-! VEC_ (R153, R155, R188). -/
def vecXmaskCtl := 0x12_0000
def vecXmaskBaseLo := 0x12_0008
def vecXmaskBaseHi := 0x12_000C
def vecNanTotal := 0x12_0010
def vecOptSkipTotal := 0x12_0020

/-! WST_ (R220 to R224). -/
def wstCtl := 0x13_0000
def wstDrainLimit := 0x13_0004
def wstMirrorPeer := 0x13_0008
def wstEpoch := 0x13_000C
def wstBankState (b : Nat) := 0x13_0010 + 4 * b
def wstBankIdLo (b : Nat) := 0x13_0018 + 8 * b
def wstBankIdHi (b : Nat) := 0x13_001C + 8 * b
def wstLoadCtl := 0x13_0040
def wstLoadStatus := 0x13_0044
def wstChain := 0x13_0048
def wstBlkmapSel := 0x13_0050
def wstBlkmapData := 0x13_0054
def wstRetry := 0x13_0058
def wstMirror := 0x13_005C
def wstLate := 0x13_0060
def wstDrainLeft := 0x13_0064

/-! LKR_ (R269 to R272, R299). -/
def lkrCtl := 0x14_0000
def lkrBullpenLo := 0x14_0008
def lkrBullpenHi := 0x14_000C
def lkrBullpenPages := 0x14_0010
def lkrDirLo := 0x14_0018
def lkrDirHi := 0x14_001C
def lkrDugout := 0x14_0020
def lkrQuotaLo := 0x14_0028
def lkrQuotaHi := 0x14_002C
def lkrDirUsed := 0x14_0030
def lkrPagesUsed := 0x14_0034
def lkrQueryIdLo := 0x14_0040
def lkrQueryIdHi := 0x14_0044
def lkrQueryStatus := 0x14_0048
def lkrQueryVersion := 0x14_004C
def lkrMissCount := 0x14_0050
def lkrEvictCount := 0x14_0054
def lkrAuthFail := 0x14_0058
def lkrLateCount := 0x14_005C
def lkrIdxFault := 0x14_0060
def lkrOnline := 0x14_0064
def lkrRecUsed := 0x14_0068
def lkrCommitCount := 0x14_006C

/-! MEM_ (R510 to R514). -/
def memCtl := 0x15_0000
def memStatus := 0x15_0004
def memChOnline (n : Nat) := 0x15_0010 + 4 * n
def memSramOnline (n : Nat) := 0x15_0020 + 4 * n
def memPktSel := 0x15_0080
def memPktData := 0x15_0084
def memAsgnFirst := 0x15_0090
def memAsgnCount := 0x15_0094
def memAsgnCtl := 0x15_0098
def memSweepSel := 0x15_00A0
def memSweepStatus := 0x15_00A4
def memCe := 0x15_00B0
def memUe := 0x15_00B4
def memMismatch := 0x15_00B8
def memAccViol := 0x15_00BC
def memPatrol := 0x15_00C0

/-! MGL_ (R396 to R398). -/
def mglCtl := 0x16_0000
def mglPortCfg := 0x16_0004
def mglPortStatus := 0x16_0008
def mglRtSel := 0x16_0010
def mglRtData := 0x16_0014
def mglTsyncCtl := 0x16_0020
def mglTsyncStatus := 0x16_0024
def mglReplay := 0x16_0030
def mglDrop := 0x16_0034

/-! RDC_ (R436 to R438). -/
def rdcGrpA := 0x17_0000
def rdcGrpB := 0x17_0004
def rdcGrpC := 0x17_0008
def rdcGstepSetLo := 0x17_0010
def rdcGstepSetHi := 0x17_0014
def rdcGstepLo := 0x17_0018
def rdcGstepHi := 0x17_001C
def rdcStatus := 0x17_0020
def rdcDigKey (i : Nat) := 0x17_0040 + 4 * i
def rdcDigSel := 0x17_0060
def rdcDigData (i : Nat) := 0x17_0064 + 4 * i
def rdcDigStepLo := 0x17_0074
def rdcDigStepHi := 0x17_0078
def rdcRepeat := 0x17_0080
def rdcStale := 0x17_0084
def rdcOver := 0x17_0088
def rdcFbDrop := 0x17_008C

/-! REF_ (R544 to R546). -/
def refStatus := 0x18_0000
def refSvn := 0x18_0004
def refSlotSel := 0x18_0010
def refSlotInfo := 0x18_0014
def refSlotTenant := 0x18_0018
def refPurge := 0x18_001C
def refRotate := 0x18_0020
def refProfCtl := 0x18_0024
def refDbgCtl := 0x18_0028
def refGrpList := 0x18_002C
def refSessUsed := 0x18_0030
def refAuthFail := 0x18_0034

/-! SCB_ (R593) and PMU_ (R594, R595). -/
def scbTsLo := 0x19_0000
def scbTsHi := 0x19_0004
def scbTrcSel := 0x19_0010
def scbTrcCtl := 0x19_0014
def scbTrcKinds := 0x19_0018
def scbTrcStatus := 0x19_001C
def scbTrcLost := 0x19_0020
def scbTrcMarkLo := 0x19_0024
def scbTrcMarkHi := 0x19_0028
def scbTrcWord (i : Nat) := 0x19_0100 + 4 * i
def pmu := 0x1A_0000
def pmuCycLo (b : Nat) := 0x1A_0000 + 0x100 * b
def pmuCycHi (b : Nat) := 0x1A_0004 + 0x100 * b
def pmuCycTs (b : Nat) := 0x1A_0008 + 0x100 * b
def pmuClr (b : Nat) := 0x1A_000C + 0x100 * b
def pmuCfg (b i : Nat) := 0x1A_0010 + 0x100 * b + 0x10 * i
def pmuCtx (b i : Nat) := 0x1A_0014 + 0x100 * b + 0x10 * i
def pmuValLo (b i : Nat) := 0x1A_0018 + 0x100 * b + 0x10 * i
def pmuValHi (b i : Nat) := 0x1A_001C + 0x100 * b + 0x10 * i
def pmuRange (b w : Nat) := 0x1A_0090 + 0x100 * b + 4 * w
def pmuCsetSel := 0x1A_2000
def pmuCsetCtx := 0x1A_2004
def pmuCsetEvt := 0x1A_2008

/-! SCB_ error registers (R570). -/
def scbErrState := 0x19_0800
def scbErrCtl := 0x19_0804
def scbErrSeq := 0x19_0808
def scbPortFenced := 0x19_080C
def scbErrCount (k : Nat) := 0x19_0810 + 4 * (k - 1)

/-! RST_, CLK_, PWR_ (R618 to R621). -/
def rstCtl := 0x20_0000
def rstCause := 0x20_0004
def rstStraps := 0x20_0008
def rstBootStatus := 0x20_000C
def rstBootCtl := 0x20_0010
def rstBootLen := 0x20_0014
def rstMgmtSeqLo := 0x20_0020
def rstMgmtSeqHi := 0x20_0024
def clkStatus := 0x21_0000
def clkThrLo := 0x21_0008
def clkThrHi := 0x21_000C
def clkStepCount := 0x21_0010
def pwrCtl := 0x22_0000
def pwrStatus := 0x22_0004
def pwrLimit := 0x22_0008
def pwrMeas := 0x22_000C
def pwrTemp := 0x22_0010
/-- PWR_VF_STATUS (R621, R631), kept beside the PWR_ block under an index for each VF (`vfStatusKey`). -/
def pwrVfStatus := 0x22_0080

/-! BMC_ (R646, R647). -/
def bmcSensorSel := 0x23_0000
def bmcSensor := 0x23_0004
def bmcRailSel := 0x23_0008
def bmcRail := 0x23_000C
def bmcRailFault := 0x23_0010
def bmcAlert := 0x23_0020
def bmcAlertEn := 0x23_0024
def bmcFlashAddr := 0x23_0030
def bmcFlashCtl := 0x23_0034
def bmcFlashData (i : Nat) := 0x23_0040 + 4 * i

end R

/-- HUB_ and HDL_ of one port. -/
def hubRows (portB : Bool) : List RegRow := [
  reg R.hubCtxSel 0 (rw := 0xFFF),
  reg R.hubCtxCfg 0 (st := 0x80003FFF) (sel := some R.hubCtxSel),
  reg R.hubCtxSession 0 (st := m32) (sel := some R.hubCtxSel),
  reg R.hubRingSel 0 (rw := 0x0FFF000F),
  reg (R.hubRingCfg 0) 0 (st := m32) (sel := some R.hubRingSel),
  reg (R.hubRingCfg 1) 0 (st := m32) (sel := some R.hubRingSel),
  reg (R.hubRingCfg 2) 0 (st := m32) (sel := some R.hubRingSel),
  reg (R.hubRingCfg 3) 0 (st := m32) (sel := some R.hubRingSel),
  reg (R.hubRingCfg 4) 0 (st := 0x01FFFFFF) (sel := some R.hubRingSel),
  reg (R.hubRingCfg 5) 0 (st := 0x000FFFFF) (sel := some R.hubRingSel),
  reg R.hubMbxSel 0 (rw := 1),
  reg (R.hubMbxCfg 0) 0 (rw := m32) (sel := some R.hubMbxSel),
  reg (R.hubMbxCfg 1) 0 (rw := m32) (sel := some R.hubMbxSel),
  reg (R.hubMbxCfg 2) 0 (rw := m32) (sel := some R.hubMbxSel),
  reg (R.hubMbxCfg 3) 0 (rw := m32) (sel := some R.hubMbxSel),
  reg (R.hubMbxCfg 4) 0 (sel := some R.hubMbxSel),
  reg (R.hubMbxCfg 5) 0 (rw := 0x000FFFFF) (sel := some R.hubMbxSel),
  reg R.hubWinBaseLo 0 (st := 0xC0000000) (cold := m32),
  reg R.hubWinBaseHi (if portB then 0x00E4 else 0x00E0) (st := 0xFFFF) (cold := m32),
  reg R.hubWinViol 0, reg R.hubDbErr 0,
  reg R.hubOwner 1000 (st := 0x8000FFFF), reg R.hubHeartbeat 0,
  reg R.hdlCtl 0 (rw := 8), reg R.hdlStatus 0 (w1c := 16),
  reg R.hdlApplyTsLo 0 (rw := m32), reg R.hdlApplyTsHi 0 (rw := m32),
  reg R.hdlAppliedTsLo 0, reg R.hdlAppliedTsHi 0, reg R.hdlApplyCount 0]

/-- UMP_. The energy coefficients of R362 are fused (Config.energyCoef). -/
def umpRows : List RegRow := [
  reg R.umpCtl 100 (st := 0x1FFF), reg R.umpStatus 8, reg R.umpDrrQuantum 1000 (st := 0xFFFF), reg R.umpUtil 0,
  reg R.umpSubst 0 (rw := 0xFFFF), reg R.umpCtxSel 0 (rw := 0xFFF),
  reg R.umpCtxShare 1 (st := 0xFFFF) (sel := some R.umpCtxSel),
  reg R.umpRsvSel 0 (rw := 0x3F),
  reg R.umpRsvCfg 0 (st := 0x1FFFFFFF) (sel := some R.umpRsvSel),
  reg R.umpRsvPeriod 0 (st := 0x7FFFFF) (sel := some R.umpRsvSel),
  reg R.umpRsvOffset 0 (st := 0x7FFFFF) (sel := some R.umpRsvSel),
  reg R.umpRsvMissCount 0, reg R.umpAcctBase 0 (st := 0xFFFF0001), reg R.umpOverrunCount 0, reg R.umpUrgentCount 0,
  reg R.umpEcoefSel 0 (rw := 0xF), reg R.umpEcoef 0 (cold := m32) (sel := some R.umpEcoefSel),
  reg R.umpKvCtl 0 (st := 1), reg R.umpKvBaseLo 0 (st := 0xFFFF0000), reg R.umpKvBaseHi 0 (st := 0xFFFF),
  reg R.umpKvPages 0 (st := 0xFFFFFF), reg R.umpKvShape 0 (st := 0xFFFF07FF),
  reg R.umpKvQuotaLo 0 (st := 0xFFF80000), reg R.umpKvQuotaHi 0 (st := 0xFFFF),
  reg R.umpKvFree 0, reg R.umpKvClaims 0, reg R.umpKvBlocks 0, reg R.umpServeNoLo 0, reg R.umpServeNoHi 0,
  reg R.umpDeferMem 0, reg R.umpDeferBudget 0, reg R.umpReqLive 0]

/-- WST_. The fields reset from metadata are views of the bank records and the block map. -/
def wstRows : List RegRow := [
  reg R.wstCtl 0xF (st := 0x1F), reg R.wstDrainLimit 60000 (st := 0xFFFFF), reg R.wstMirrorPeer 0 (st := 0xFFF),
  reg R.wstEpoch 0, reg (R.wstBankState 0) 0, reg (R.wstBankState 1) 0, reg (R.wstBankIdLo 0) 0,
  reg (R.wstBankIdHi 0) 0, reg (R.wstBankIdLo 1) 0, reg (R.wstBankIdHi 1) 0, reg R.wstLoadCtl 0 (rw := 0x3C),
  reg R.wstLoadStatus 0, reg R.wstChain 0 (rw := m32), reg R.wstBlkmapSel 0 (rw := 0xFF1F), reg R.wstBlkmapData 0,
  reg R.wstRetry 0, reg R.wstMirror 0, reg R.wstLate 0, reg R.wstDrainLeft 0]

/-- LKR_. -/
def lkrRows : List RegRow := [
  reg R.lkrCtl 1 (st := 3), reg R.lkrBullpenLo 0 (st := 0xFFFF0000), reg R.lkrBullpenHi 0 (st := 0xFFFF),
  reg R.lkrBullpenPages 0 (st := 0xFFFFFF), reg R.lkrDirLo 0 (st := 0xE0000000), reg R.lkrDirHi 0 (st := 0xFFFF),
  reg R.lkrDugout 0 (st := m32), reg R.lkrQuotaLo 0 (st := 0xFFF80000), reg R.lkrQuotaHi 0 (st := 0xFFFF),
  reg R.lkrDirUsed 0, reg R.lkrPagesUsed 0, reg R.lkrQueryIdLo 0 (rw := m32), reg R.lkrQueryIdHi 0,
  reg R.lkrQueryStatus 0, reg R.lkrQueryVersion 0, reg R.lkrMissCount 0, reg R.lkrEvictCount 0, reg R.lkrAuthFail 0,
  reg R.lkrLateCount 0, reg R.lkrIdxFault 0, reg R.lkrOnline 0xFFFF, reg R.lkrRecUsed 0, reg R.lkrCommitCount 0]

/-- MEM_. -/
def memRows : List RegRow :=
  [reg R.memCtl (24 * 65536 + 40) (st := 0xFF07FF), reg R.memStatus 0x80 (cold := m32)] ++
  (List.range 4).map (fun n => reg (R.memChOnline n) m32 (cold := m32)) ++
  (List.range 16).map (fun n => reg (R.memSramOnline n) m32 (cold := m32)) ++
  [reg R.memPktSel 0 (rw := 0xFFFFFF), reg R.memPktData 0, reg R.memAsgnFirst 0 (st := 0xFFFFFF),
   reg R.memAsgnCount 0 (st := 0xFFFFFF), reg R.memAsgnCtl 0 (st := 0x33FFF), reg R.memSweepSel 0 (rw := 0xFFFF),
   reg R.memSweepStatus 0 (cold := 3), reg R.memCe 0, reg R.memUe 0, reg R.memMismatch 0, reg R.memAccViol 0,
   reg R.memPatrol 0]

/-- MGL_. -/
def mglRows : List RegRow := [
  reg R.mglCtl 0x40800000 (st := 0xFFF00FFF), reg R.mglPortCfg 0xFFFF0000 (st := m32), reg R.mglPortStatus 0,
  reg R.mglRtSel 0 (rw := 0xFFF), reg R.mglRtData 31 (st := 0x1F) (sel := some R.mglRtSel),
  reg R.mglTsyncCtl 0 (st := 0x800FFFFF), reg R.mglTsyncStatus 0, reg R.mglReplay 0, reg R.mglDrop 0]

/-- RDC_. -/
def rdcRows : List RegRow := [
  reg R.rdcGrpA 0x10001 (st := 0x1FFF1FFF), reg R.rdcGrpB 0x10001 (st := 0x1FFF1FFF),
  reg R.rdcGrpC 1 (st := 0x80001FFF), reg R.rdcGstepSetLo 0 (st := m32), reg R.rdcGstepSetHi 0 (st := m32),
  reg R.rdcGstepLo 0, reg R.rdcGstepHi 0, reg R.rdcStatus 0, reg R.rdcDigSel 0 (rw := 0x17F),
  reg R.rdcDigStepLo 0, reg R.rdcDigStepHi 0, reg R.rdcRepeat 0, reg R.rdcStale 0, reg R.rdcOver 0, reg R.rdcFbDrop 0] ++
  (List.range 8).map (fun i => reg (R.rdcDigKey i) 0 (st := m32)) ++
  (List.range 4).map (fun i => reg (R.rdcDigData i) 0)

/-- REF_. -/
def refRows : List RegRow := [
  reg R.refStatus 0 (cold := 0x18), reg R.refSvn 0 (cold := 0x7F0000), reg R.refSlotSel 0 (rw := 0xFFFF),
  reg R.refSlotInfo 0 (cold := m32), reg R.refSlotTenant 0 (cold := m32), reg R.refPurge 0 (rw := 0xFFFF), reg R.refRotate 0 (rw := 0xFFFF),
  reg R.refProfCtl 0, reg R.refDbgCtl 0, reg R.refGrpList 0 (st := 0xFFFF0000), reg R.refSessUsed 0 (cold := m32),
  reg R.refAuthFail 0 (cold := m32)]

/-- CRT_ and the error registers of SCB_. -/
def crtErrRows : List RegRow := [
  reg R.crtCap 0x02008000, reg (R.crtCourtOnline 0) m32, reg (R.crtCourtOnline 1) m32, reg (R.crtCourtOnline 2) m32,
  reg (R.crtCourtOnline 3) m32, reg R.crtStopCount 0, reg R.crtXposeInexact 0,
  reg R.crtCvtCtl 3 (st := 3), reg R.crtSatTotalLo 0, reg R.crtSatTotalHi 0, reg R.crtProbeCount 0,
  reg R.crtSpill 0 (st := 0x7FF), reg R.scbErrState 0, reg R.scbErrCtl 1024 (st := 0xFFFF), reg R.scbErrSeq 0,
  reg R.scbPortFenced 0, reg (R.scbErrCount 1) 0, reg (R.scbErrCount 2) 0, reg (R.scbErrCount 3) 0,
  reg (R.scbErrCount 4) 0, reg (R.scbErrCount 5) 0]

/-- RST_, CLK_, PWR_ and BMC_. -/
def rstRows : List RegRow := [
  reg R.rstCtl 0, reg R.rstCause 0 (cold := 0xFF00), reg R.rstStraps 0 (cold := m32), reg R.rstBootStatus 0,
  reg R.rstBootCtl 0, reg R.rstBootLen 0 (rw := 0x7FFFFFF), reg R.rstMgmtSeqLo 0 (cold := m32),
  reg R.rstMgmtSeqHi 0 (cold := m32), reg R.clkStatus 0 (cold := 0x30), reg R.clkThrLo 0, reg R.clkThrHi 0,
  reg R.clkStepCount 0, reg R.pwrCtl 0 (rw := 4), reg R.pwrStatus 0, reg R.pwrLimit 2400 (st := 0xFFF),
  reg R.pwrMeas 0, reg R.pwrTemp 0, reg R.pwrVfStatus 0,
  reg R.bmcSensorSel 0 (rw := 0x7F), reg R.bmcSensor 0, reg R.bmcRailSel 0 (rw := 0xF), reg R.bmcRail 0,
  reg R.bmcRailFault 0 (w1c := 0x1FF) (cold := m32), reg R.bmcAlert 0 (w1c := 0xF) (cold := m32),
  reg R.bmcAlertEn 0xE (rw := 0xF) (cold := m32), reg R.bmcFlashAddr 0 (rw := 0x3FFFFFF),
  reg R.bmcFlashCtl 0 (rw := 3) (w1c := 8)] ++
  (List.range 16).map (fun i => reg (R.bmcFlashData i) 0 (rw := m32))

/-- VEC_. -/
def vecRows : List RegRow := [
  reg R.vecXmaskCtl 0 (st := 1), reg R.vecXmaskBaseLo 0 (st := 0xFFFFFF80), reg R.vecXmaskBaseHi 0 (st := 0xFFFF),
  reg R.vecNanTotal 0, reg R.vecOptSkipTotal 0]

/-- SCB_ trace registers and the counter sets. -/
def scbRows : List RegRow := [
  reg R.scbTsLo 0 (cold := m32), reg R.scbTsHi 0 (cold := m32), reg R.scbTrcSel 0 (rw := 0x1F),
  reg R.scbTrcCtl 0 (rw := 1) (sel := some R.scbTrcSel), reg R.scbTrcKinds 0 (rw := m32) (sel := some R.scbTrcSel),
  reg R.scbTrcStatus 0 (sel := some R.scbTrcSel), reg R.scbTrcLost 0 (sel := some R.scbTrcSel),
  reg R.scbTrcMarkLo 0 (rw := m32), reg R.scbTrcMarkHi 0,
  reg R.pmuCsetSel 0 (rw := 0x3F), reg R.pmuCsetCtx 0 (st := 0x80000FFF) (sel := some R.pmuCsetSel),
  reg R.pmuCsetEvt 0 (st := m32) (sel := some R.pmuCsetSel)] ++
  (List.range 16).map (fun i => reg (R.scbTrcWord i) 0)

/-- The rows of counter block `b` (R594). -/
def pmuRows (b : Nat) : List RegRow :=
  [reg (R.pmuCycLo b) 0, reg (R.pmuCycHi b) 0, reg (R.pmuCycTs b) 0, reg (R.pmuClr b) 0] ++
  (List.range 8).flatMap (fun i =>
    [reg (R.pmuCfg b i) 0x03F00000 (rw := 0xBFFFFF00) (w1c := 0x40000000), reg (R.pmuCtx b i) 0 (rw := 0xFFF),
     reg (R.pmuValLo b i) 0, reg (R.pmuValHi b i) 0]) ++
  [reg (R.pmuRange b 0) 0 (rw := m32), reg (R.pmuRange b 1) 0 (rw := 0xFFFF),
   reg (R.pmuRange b 2) 0 (rw := m32), reg (R.pmuRange b 3) 0 (rw := 0xFFFF)]

/-- Where port B's own copies of a register are keyed above port A's (R625, R576). -/
def portBKeys : Nat := 0x400_0000
/-- A register's index is keyed above its offset. -/
def idxKeys : Nat := 0x1000_0000

/-- The rows of the block at a BAR0 offset. -/
def blockRows (off : Nat) : List RegRow :=
  match off % portBKeys / 0x1_0000 with
  | 0 | 1 => hubRows (decide (portBKeys ≤ off))
  | 0x10 => umpRows
  | 0x11 => crtErrRows
  | 0x12 => vecRows
  | 0x13 => wstRows
  | 0x14 => lkrRows
  | 0x15 => memRows
  | 0x16 => mglRows
  | 0x17 => rdcRows
  | 0x18 => refRows
  | 0x19 => crtErrRows ++ scbRows
  | 0x1A => if off % 0x1_0000 < 0x1800 then pmuRows (off % 0x1_0000 / 0x100) else scbRows
  | 0x20 | 0x21 | 0x22 | 0x23 => rstRows
  | _ => []

/-- The row of the register at a key, offset and index together. -/
def regRow (key : Nat) : Option RegRow :=
  (blockRows (key % idxKeys)).find? (fun r => r.off == key % portBKeys)

/-- What a register holds before anything has changed it (R15). -/
def regReset (key : Nat) : Word :=
  if key % idxKeys = R.umpEcoef then BitVec.ofNat 32 (Config.energyCoef (key / idxKeys))
  else BitVec.ofNat 32 ((regRow key).elim 0 RegRow.reset)

end Sys2Proof.Machine
end

