-- ==== Sys2Proof/Machine/PwrState.lean ====
section
/-! DEFINITION. State of bring-up, resets, clocks, power states, management commands, sensors, rails and the SPI NOR
flash (chapters 18 and 20). -/
namespace Sys2Proof.Machine
open Sys2Proof

/-- Where the device is between power-off and running (R521, R600, R601, R639). -/
inductive BootPhase where
  /-- Rails down (R640). -/
  | off
  /-- Rails up, held in cold reset. -/
  | coldReset
  /-- A boot sequence is running; the last completed step is RST_BOOT_STATUS.STEP. -/
  | booting
  /-- Step 8 is complete. -/
  | running
  /-- A step failed; left only by a cold or warm reset (R601). -/
  | failed
  deriving DecidableEq, Repr

/-- The power states of R611; STANDBY is bench. -/
inductive PowerState where
  | active | idle | standby
  deriving DecidableEq, Repr

def PowerState.code : PowerState → Nat
  | .active => 0 | .idle => 1 | .standby => 2

/-- The deferred action of an accepted management command (R610). -/
inductive MgmtAction where
  | warmReset | halfTime | resume
  deriving DecidableEq, Repr

/-- A flash operation in progress (R647). -/
structure FlashOp where
  op : Nat
  addr : Nat
  data : List Byte
  deriving DecidableEq, Repr

/-- Bring-up and power state. `warmBoot` tells a warm boot from a cold one; `trip` holds THERM_TRIP_N low (R641); `powerGood`
and `v48` are the pins; `sensors` are signed readings in 1/8 °C of sensors 0 to 73, `rails` (mV, 100 mA); `request` is the
power state being entered, `queued` a request made during a transition (R613); `bundle` is the boot buffer as received;
`goReceived` is GO (R599); `owners` are the owner key hashes of the boot configuration (R523); `vfTs` is when PWR_VF_STATUS
was last refreshed (R621). -/
structure PwrState where
  phase : BootPhase
  warmBoot : Bool
  bootStart : Nat
  bundle : Memory
  bundleLen : Nat
  goReceived : Bool
  v48 : Bool
  powerGood : Bool
  pwrEn : Bool
  sysRstN : Bool
  tck : Nat
  trip : Bool
  flashSel : Bool
  state : PowerState
  request : Option PowerState
  queued : Option PowerState
  mgmtSeq : Nat
  mgmt : Option (MgmtAction × Nat)
  lastStep : Nat
  lowSince : Option Nat
  lastThrottle : Option Nat
  throttleSince : Option Nat
  sensors : Tbl Int
  rails : Tbl (Nat × Nat)
  railsUp : List Nat
  mv48 : Nat
  amps : Nat
  flash : Memory
  flashOp : Option FlashOp
  fusedSvn : Nat
  owners : List Digest
  vfTs : Nat
  deriving DecidableEq, Repr

def PwrState.reset : PwrState :=
  { phase := .coldReset, warmBoot := false, bootStart := 0, bundle := [], bundleLen := 0, goReceived := false,
    v48 := true, powerGood := true, pwrEn := true, sysRstN := false, tck := 0, trip := false, flashSel := false,
    state := .active, request := none, queued := none, mgmtSeq := 0, mgmt := none, lastStep := 0, lowSince := none,
    lastThrottle := none, throttleSince := none, sensors := [], rails := [], railsUp := [0, 1, 2, 3, 4, 5, 6, 7, 8],
    mv48 := 48000, amps := 0, flash := [], flashOp := none, fusedSvn := 0, owners := [],
    vfTs := 0 }

end Sys2Proof.Machine
end

