-- ==== Sys2Proof/Machine/ScbState.lean ====
section
/-! DEFINITION. State of the Scoreboard: the trace queues and their open words, the counter blocks, the context counter
sets, and the per-port latches (chapter 17). -/
namespace Sys2Proof.Machine
open Sys2Proof

/-- A closed trace word (R581): its records oldest first, the upper timestamp bits, its number and the lost count. -/
structure TraceWord where
  records : List (BitVec 128)
  tsBaseHi : Nat
  wordSeq : Nat
  lost : Nat
  deriving DecidableEq, Repr

/-- A trace queue (R580 to R584): pointers of 13 bits, the words the buffer holds by buffer address, the open word
with the time of its first record, the next word number, and the lost-record count. -/
structure TraceQueue where
  wp : Nat
  rp : Nat
  words : Tbl TraceWord
  openRecords : List (BitVec 128)
  openHi : Nat
  openTs : Nat
  wordSeq : Nat
  lost : Nat
  lastWrite : Option Nat
  deriving DecidableEq, Repr

def TraceQueue.empty : TraceQueue := ⟨0, 0, [], [], 0, 0, 0, 0, none⟩

/-- A counter block (R587): the cycle counter up to `ScbState.since`, and the eight
counters; OVF is bit 30 of PMU_CFGi. -/
structure PmuBlock where
  cycles : Nat
  counters : Tbl Nat
  deriving DecidableEq, Repr

def PmuBlock.zero : PmuBlock := ⟨0, []⟩

/-- A context counter set (R592): its four counts since it was bound. -/
structure CounterSet where
  ctx : Nat
  counts : List Nat
  deriving DecidableEq, Repr

structure ScbState where
  queues : Tbl TraceQueue
  blocks : Tbl PmuBlock
  csets : Tbl CounterSet
  lastSample : Nat
  since : Nat
  deriving DecidableEq, Repr

def ScbState.reset : ScbState := { queues := [], blocks := [], csets := [], lastSample := 0, since := 0 }

end Sys2Proof.Machine
end

