-- ==== Sys2Proof/Machine/MglState.lean ====
section
/-! DEFINITION. State of Mirgarlink and of the on-package fabric: ports, frames and replay, packets and queues,
credits and floor banks, sessions, time synchronisation, drops (chapters 1 and 11). -/
namespace Sys2Proof.Machine
open Sys2Proof

/-- A packet of R378: its header fields and its payload. `reserved` gathers the header bits that must be zero. -/
structure Packet where
  dst : Nat
  src : Nat
  vc : Nat
  hops : Nat
  ch : Nat
  ty : Nat
  len : Nat
  tsLo : Nat
  seq : Nat
  reserved : Nat
  data : List Byte
  deriving DecidableEq, Repr

/-- A packet waiting at an output port (R381): the port it came in on (16 for local traffic), and the work that sent it with its
context and sealing, to which its bytes are charged when it is sent (R359). -/
structure QueuedPacket where
  fromPort : Nat
  work : Option Nat
  ctx : Nat
  isSealed : Bool
  packet : Packet
  deriving DecidableEq, Repr

/-- A packet delivered to this device and not yet taken up, with the port it arrived on. -/
structure InboxPacket where
  port : Nat
  secure : Bool
  packet : Packet
  deriving DecidableEq, Repr

/-- A frame as sent, kept for replay (R376): its number and its 1,023 flits' bytes. -/
structure SentFrame where
  seq : Nat
  keyEpoch : Nat
  flits : List Byte
  deriving DecidableEq, Repr

/-- A floor bank of a port (R384): the work that holds it and the flits in use by VC. -/
structure FloorBank where
  owner : Option Nat
  used : Tbl Nat
  deriving DecidableEq, Repr

/-- Where a port stands in R374. -/
inductive LinkPhase where
  | down | training | up | fenced
  deriving DecidableEq, Repr

/-- One Mirgarlink port. `boot` is the boot service of R394. `rxFails` counts failures of frame `rxSeq` (R376); `txFrames` and
`rxFrames` count frames under the current key (R393); `newSlot` is the key slot of the newest session, to which each direction
switches at a frame boundary; `dedicated` (by 4 × VC + hop class) and `shared` (by VC) are the flits in use of R383, `banks`
the floor banks of R384; `window` is the class and flits of the last 1,024 flit slots. -/
structure MglPort where
  phase : LinkPhase
  secure : Bool
  boot : Bool
  since : Nat
  retryAt : Option Nat
  txSeq : Nat
  rxSeq : Nat
  rxFails : Nat
  replay : List SentFrame
  rxPartial : List Byte
  rxQueue : List Packet
  txQueue : List QueuedPacket
  txOpen : List Byte
  keyEpochTx : Nat
  keyEpochRx : Nat
  keys : Tbl (BitVec 256)
  newSlot : Nat
  txFrames : Nat
  rxFrames : Nat
  dedicated : Tbl Nat
  shared : Tbl Nat
  banks : List FloorBank
  window : List (Nat × Nat)
  rrVc : Tbl Nat
  deriving DecidableEq, Repr

def MglPort.down : MglPort :=
  { phase := .down, secure := false, boot := false, since := 0, retryAt := none, txSeq := 0, rxSeq := 0, rxFails := 0,
    replay := [], rxPartial := [], rxQueue := [], txQueue := [], txOpen := [], keyEpochTx := 0, keyEpochRx := 0,
    keys := [], newSlot := 0, txFrames := 0, rxFrames := 0, dedicated := [], shared := [], banks := [],
    window := [], rrVc := [] }

/-- Time synchronisation (R389 to R391): the state, hops, exchanges in a row within 1.5 ns, the last exchange, the
exchanges missed, the stamp t1 of the outstanding SYNC_REQ, and the rate correction in parts per million, with the millionths of a
nanosecond that it has gathered (`frac`). -/
structure TsyncState where
  st : Nat
  hops : Nat
  good : Nat
  lastExchange : Nat
  missed : Nat
  t1 : Option Nat
  ppm : Int
  everRan : Bool
  frac : Nat
  deriving DecidableEq, Repr

def TsyncState.reset : TsyncState := ⟨0, 0, 0, 0, 0, none, 0, false, 0⟩

/-- The drops of the slot in progress (R395): count, first destination, port and reason. -/
structure DropNote where
  count : Nat
  dst : Nat
  port : Nat
  reason : Nat
  deriving DecidableEq, Repr

/-- `fabric` holds the fabric links by `linkKey`, and `delivered` the flits that have reached their destination die, oldest
first (R22, R23); `bootRelay` lists the chunks of the boot bundle that ports in boot service wait for while port 0 fetches them
(R599): (port, chunk). -/
structure MglState where
  ports : Tbl MglPort
  inbox : List InboxPacket
  tsync : TsyncState
  drops : Option DropNote
  fabric : Tbl FabricLink
  delivered : List FabricFlit
  bootRelay : List (Nat × Nat)
  deriving DecidableEq, Repr

def MglState.reset : MglState :=
  { ports := [], inbox := [], tsync := .reset, drops := none, fabric := [], delivered := [], bootRelay := [] }

end Sys2Proof.Machine
end

