-- ==== Sys2Proof/Machine/RdcState.lean ====
section
/-! DEFINITION. State of group work: the group step, votes and verdicts, running channel commands with the chunks they
hold, expert dispatch, and the digests (chapter 12). -/
namespace Sys2Proof.Machine
open Sys2Proof

/-- A vote or verdict of R428: per agreed-scale slot a raise D and an AMAX. -/
structure Vote where
  fail : Bool
  overflow : Bool
  verdict : Nat
  nanCount : Nat
  d : List Nat
  amax : List F32
  deriving DecidableEq, Repr

def Vote.zero : Vote := ⟨false, false, 0, 0, [], []⟩

/-- A row of an expert dispatch or combine that has arrived from another member, wholly or in part (R426): the leaf it
came from, its source token and selection slot, and the pieces here by byte offset. -/
structure RowNote where
  leaf : Nat
  token : Nat
  k : Nat
  pieces : List (Nat × List Byte)
  deriving DecidableEq, Repr

/-- A channel command of the running work on this member: the n-th that sends on its channel (R410), and whether this
member has issued it. `up` are the (level, chunk) contributions received, `sent` the chunks sent up, or combined at the
root; `got` the result's chunks here, or the gathered ones by leaf; `counts` the leaves whose counts are here, `routed`
says that this member's rows are on their way, and `rows` are the rows received. -/
structure ChanRun where
  channel : Nat
  n : Nat
  cmd : Desc
  issued : Bool
  up : List (Nat × Nat)
  sent : List Nat
  got : List (Nat × Nat)
  counts : List Nat
  routed : Bool
  rows : List RowNote
  complete : Bool
  deriving DecidableEq, Repr

/-- SENT and RECV of one channel (R433). -/
structure DigestPair where
  sent : Nat
  recv : Nat
  deriving DecidableEq, Repr

/-- The group step in progress (R403 to R406, R418 to R423): the GROUP entry, the slot start, whether this member takes
part, whether it runs work, its own vote, the votes of children merged so far by rank, whether it has forwarded, the
verdict held, and whether it has faulted itself (R423). -/
structure GroupStep where
  entry : Nat
  start : Nat
  takesPart : Bool
  hasWork : Bool
  wkind : Nat
  workId : Nat
  voteNs : Nat
  slots : List Nat
  vote : Vote
  own : Bool
  children : List Nat
  forwarded : Bool
  verdict : Option Vote
  fbOver : Nat
  stopped : Bool
  selfFault : Bool
  deriving DecidableEq, Repr

/-- A piece of group work's attempt number, raise count and raised scales by slot (R406, R422), and the EXP of each of its
agreed-scale slots when attempt 0 started, none for a slot without history (R415). -/
structure Attempt where
  attempt : Nat
  raises : Nat
  added : Tbl Nat
  base : Tbl (Option Int)
  deriving DecidableEq, Repr

structure RdcState where
  gstep : Nat
  faulted : Bool
  step : Option GroupStep
  attempts : Tbl Attempt
  chans : List ChanRun
  digests : Tbl DigestPair
  snapshot : Tbl DigestPair
  snapStep : Nat
  deriving DecidableEq, Repr

def RdcState.reset : RdcState :=
  { gstep := 0, faulted := false, step := none, attempts := [], chans := [], digests := [], snapshot := [], snapStep := 0 }

end Sys2Proof.Machine
end

