-- ==== Sys2Proof/Machine/WstState.lean ====
section
/-! DEFINITION. State of the weight store (chapter 6) and of the engines that run command programs (chapters 3, 4, 5
and 7): bank records, the block map, a load, streams, lost shards, tiles in progress, and where each sequencer stands. -/
namespace Sys2Proof.Machine
open Sys2Proof

/-- Bank states of R199. -/
inductive WsBankState where
  | empty | writing | ready | active | draining | failed
  deriving DecidableEq, Repr

/-- WST_BANKb_STATE.STATE of R222. -/
def WsBankState.code : WsBankState → Nat
  | .empty => 0 | .writing => 1 | .ready => 2 | .active => 3 | .draining => 4 | .failed => 5

/-- A layout entry of R195. -/
structure LayoutEntry where
  tensorId : Nat
  layer : Nat
  expert : Nat
  fmt : Nat
  die : Nat
  shardFirst : Nat
  offset : Nat
  bytes : Nat
  deriving DecidableEq, Repr

/-- Where a written shard stands: die, bank and physical block. -/
structure ShardPlace where
  shard : Nat
  die : Nat
  bank : Nat
  block : Nat
  deriving DecidableEq, Repr

/-- A bank record of R199 with the layout and placement of the image it holds. `notGood` lists the blocks that are no
logical blocks (R191): those not GOOD at the start of the filling load and those it marked BAD, as die × 4096 + block. -/
structure BankRec where
  st : WsBankState
  imageId : Nat
  version : Nat
  root : Digest
  epoch : Nat
  writes : Nat
  full : Bool
  layers : Nat
  shards : Nat
  layout : List LayoutEntry
  place : List ShardPlace
  notGood : List Nat
  drainTs : Nat
  deriving DecidableEq, Repr

def BankRec.blank : BankRec := ⟨.empty, 0, 0, 0, 0, 0, false, 0, 0, [], [], [], 0⟩

/-- Where the bytes of a load come from (R204, R223). -/
inductive LoadSource where
  | portA | portB | both | flash | chain
  deriving DecidableEq, Repr

/-- The manifest fields a load keeps (R193). -/
structure Manifest where
  imageId : Nat
  version : Nat
  full : Bool
  shards : Nat
  layoutEntries : Nat
  layers : Nat
  root : Digest
  layoutHash : Digest
  shardOff : Nat
  deriving DecidableEq, Repr

/-- A shard being written (R202): its bytes, its bank and block, and how often the block has failed program-verify. -/
structure ShardWrite where
  shard : Nat
  data : List Byte
  bank : Nat
  block : Nat
  fails : Nat
  deriving DecidableEq, Repr

/-- Who delivered a shard (R206, R207). -/
inductive ShardFrom where
  | host
  | flash
  | peer (rank : Nat)
  deriving DecidableEq, Repr

/-- A running load (R201 to R207): the preamble bytes received and how many, the manifest, leaves and layout once verified;
the next expected image offset of each host port (0 on port B until the header has given it) and the next expected index of
each chain port; shards arriving in pieces, whole shards that wait for the preamble with their senders, and shards that have
passed R198 and wait to be written; the shard being written, the shards placed and the blocks marked BAD (die × 4096 + block,
by bank as die × 8192 + bank × 4096 + block); the shards asked for again from the host with how often, from the predecessor,
and from the flash; the shards that wait to be forwarded and those forwarded. `pair`: the target was half of a full-mode
image, and both banks left READY (R199). -/
structure WsLoad where
  target : Nat
  pair : Bool
  source : LoadSource
  preamble : Memory
  received : Nat
  manifest : Option Manifest
  leaves : List Digest
  layout : List LayoutEntry
  nextA : Nat
  nextB : Nat
  chainNext : Tbl Nat
  pieces : Tbl (List Byte)
  unchecked : List (Nat × List Byte × ShardFrom)
  waiting : List (Nat × List Byte)
  writing : Option ShardWrite
  place : List ShardPlace
  bad : List Nat
  needs : Tbl Nat
  resends : List Nat
  reread : List Nat
  held : List (Nat × List Byte)
  forwarded : List Nat
  progressTs : Nat
  deriving DecidableEq, Repr

/-- A mirror fetch in flight (R213): the bank and shard, when it was issued, the stream entry it completes, and the bytes
received. -/
structure MirrorFetch where
  bank : Nat
  shard : Nat
  issued : Nat
  entry : Nat
  data : List Byte
  deriving DecidableEq, Repr

/-- A fenced schedule (R214): the image slot and class or program, the shard, and whether masking lifts it. -/
structure ScheduleFence where
  imgSlot : Nat
  practice : Bool
  number : Nat
  bank : Nat
  shard : Nat
  lifted : Bool
  deriving DecidableEq, Repr

/-- The layer streams of the work in progress (R27, R210): entries started and completed, layers whose compute has started and
has finished, when the work started, the layers found waiting for a prefix gather (R257), and the shards that mirror fetches
have put in place by stream entry (R213). -/
structure StreamRun where
  entries : List StreamEntry
  bank : Nat
  teacherBank : Nat
  started : Nat
  completed : Nat
  computeStarted : Nat
  computeEnded : Nat
  base : Nat
  lateNotes : List Nat
  fetched : List (Nat × Nat)
  deriving DecidableEq, Repr

/-- The weight store. `blockMap` holds the codes of R190 that are not GOOD, by die × 8192 + bank × 4096 + block; `window`
is the resend window of R206. -/
structure WstState where
  bank0 : BankRec
  bank1 : BankRec
  blockMap : Tbl Nat
  epoch : Nat
  load : Option WsLoad
  window : List (Nat × List Byte)
  stream : Option StreamRun
  fetches : List MirrorFetch
  fences : List ScheduleFence
  deriving DecidableEq, Repr

def WstState.reset : WstState :=
  { bank0 := .blank, bank1 := .blank, blockMap := [], epoch := 0, load := none, window := [], stream := none,
    fetches := [], fences := [] }

/-- A tile (R97, R113): its command, its grid position, the cube that runs it, the court that runs it (R558), and its
accumulators once it is in progress. -/
structure Tile where
  cmd : Desc
  row : Nat
  col : Nat
  cube : Nat
  court : Nat
  place : Nat
  second : Bool
  elems : List TileElem
  deriving DecidableEq, Repr

/-- What a tile sequencer records for one cube (R120): the index in its program of the first command that has tiles not yet
drained, and which of that command's tiles have drained, as (of a pair's second command, row, column). -/
structure CubeMark where
  first : Nat
  drained : List (Bool × Nat × Nat)
  deriving DecidableEq, Repr

def CubeMark.start : CubeMark := ⟨0, []⟩

/-- Where a program stands: commands executed, tiles numbered (R558), the WAIT that holds it as (semaphore, value), and
whether it has ended. -/
structure EngineRun where
  pos : Nat
  tiles : Nat
  wait : Option (Nat × Nat)
  ended : Bool
  deriving DecidableEq, Repr

def EngineRun.start : EngineRun := ⟨0, 0, none, false⟩

/-- Engines: tile sequencers by court, with the tiles in progress, the tiles of the command being executed that have not
started, a bound MMA_PAIR, and the records of their cubes (R120); vector engines 0 to 255, gather engines 0 to 31, and channel
programs 0 to 67. -/
structure EngineState where
  courts : Tbl EngineRun
  tiles : Tbl (List Tile)
  todo : Tbl (List Tile)
  pairs : Tbl Desc
  marks : Tbl (List CubeMark)
  vecs : Tbl EngineRun
  gathers : Tbl EngineRun
  channels : Tbl EngineRun
  deriving DecidableEq, Repr

def EngineState.reset : EngineState :=
  { courts := [], tiles := [], todo := [], pairs := [], marks := [], vecs := [], gathers := [], channels := [] }

end Sys2Proof.Machine
end

