-- ==== Sys2Proof/Machine/State.lean ====
section
/-! DEFINITION. The state of the Isavy IX64 as plain data, the reasons a step can stop, and the state right after a cold
reset (R608, R15). -/
namespace Sys2Proof.Machine
open Sys2Proof

/-- The whole machine. `ts` is the 64-bit timestamp in ns (R573), one for
every die's copy (R37; DESIGN CHOICE, assumption 207); `freeCtr` is the model's own counter of free values
(assumption 2); `regs` holds every register whose value differs from its reset value, keyed as in Regs.lean; `pending`
is the queue of commands that wait, first in first out. -/
structure State where
  pending : List Instr
  ts : Nat
  freeCtr : Nat
  regs : Tbl Word
  host : HostState
  ump : UmpState
  lkr : LkrState
  mem : MemState
  ref : RefState
  err : ErrState
  pwr : PwrState
  scb : ScbState
  mgl : MglState
  rdc : RdcState
  wst : WstState
  eng : EngineState
  deriving DecidableEq, Repr

/-- Why a step stops for good. -/
inductive Fault where
  /-- An engine command names an address outside the regions of R623. Raised by the engine commands (tile, vector,
  gather, channel). Safe: R624 refuses such an image at load, so no such command ever runs. -/
  | unmappedAddress (addr : Nat)
  deriving DecidableEq, Repr

/-- Why the model gives a command no meaning on some operands. -/
inductive Refusal where
  /-- The command has no meaning in the model. Reserved for the arms of Dispatch.lean; no arm raises it, since every
  command has its meaning. Safe. -/
  | notModelled (mnemonic : String)
  deriving DecidableEq, Repr

/-- The machine right after the release of SYS_RST_N in a cold start: boot step 0, timestamp 0, every register at its
reset value, no context, no image, empty queues. Straps 0 and blank weight-store metadata: assumption 4. -/
def State.reset : State where
  pending := []
  ts := 0
  freeCtr := 0
  regs := []
  host := .reset
  ump := .reset
  lkr := .reset
  mem := .reset
  ref := .reset
  err := .reset
  pwr := { PwrState.reset with phase := .booting, sysRstN := true }
  scb := .reset
  mgl := .reset
  rdc := .reset
  wst := .reset
  eng := .reset

end Sys2Proof.Machine
end

