-- ==== Sys2Proof/Machine/Ops.lean ====
section
/-! DEFINITION. The operations every meaning shares: registers, free values, the output log, trace records and counters
(chapter 17), rings, events, completions and window slots (chapter 13). -/
namespace Sys2Proof.Machine
open Sys2Proof

/-! Registers (R11, R13, R15). -/

/-- A register by key: what the table lists, or its reset value. -/
def State.regAt (s : State) (key : Nat) : Word := (Tbl.get? s.regs key).getD (regReset key)

/-- A register table with one register set, in canonical form: a value equal to the reset value is not listed. -/
def regsSet (t : Tbl Word) (key : Nat) (v : Word) : Tbl Word :=
  if v = regReset key then Tbl.erase t key else Tbl.set t key v

/-- The state with one register set. -/
def State.setReg (s : State) (key : Nat) (v : Word) : State := { s with regs := regsSet s.regs key v }

/-- The key of a register with its selector's index. -/
def keyOf (off idx : Nat) : Nat := off + idxKeys * idx

/-- The key of a port's own register (R443, R576). -/
def portKey (p : Port) (off : Nat) : Nat := off + portBKeys * p.num

/-- The key of a VF's own PWR_VF_STATUS (R621). -/
def vfStatusKey (p : Port) (func : Nat) : Nat := keyOf R.pwrVfStatus (64 * p.num + func)

/-- A field of a register. -/
def State.regFld (s : State) (key lo w : Nat) : Nat := wordFld (s.regAt key) lo w

/-- The state with a field of a register set. -/
def State.setFld (s : State) (key lo w x : Nat) : State := s.setReg key (wordPut (s.regAt key) lo w x)

/-- A counter register raised, modulo 2^32. -/
def State.bump (s : State) (key : Nat) (n : Nat := 1) : State := s.setReg key (s.regAt key + BitVec.ofNat 32 n)

/-- A 64-bit value held by a LO and a HI register. -/
def State.reg64 (s : State) (lo hi : Nat) : Nat := (s.regAt lo).toNat + 2 ^ 32 * (s.regAt hi).toNat

/-- A LO and a HI register set from one 64-bit value. -/
def State.setReg64 (s : State) (lo hi v : Nat) : State :=
  (s.setReg lo (BitVec.ofNat 32 v)).setReg hi (BitVec.ofNat 32 (v / 2 ^ 32))

/-- Does a boot or a running device answer at all? -/
def State.powered (s : State) : Bool := decide (s.pwr.phase ≠ .off) && decide (s.pwr.phase ≠ .coldReset)

/-! Free values (assumption 2). -/

/-- The next free value. -/
def State.freeVal (s : State) (w : Nat) : BitVec w := Config.freeValue w s.freeCtr
/-- The state with that free value used up. -/
def State.freed (s : State) : State := { s with freeCtr := s.freeCtr + 1 }

/-! The log of what leaves the device. -/

/-- The state with something sent. -/
def State.emit (s : State) (o : Output) : State := { s with host := { s.host with out := s.host.out ++ [o] } }

/-- The state with a change of one port's state. -/
def State.modPort (s : State) (p : Port) (f : PortState → PortState) : State :=
  { s with host := s.host.setPort p (f (s.host.port p)) }

/-! Contexts (R466, R467). -/

/-- The port and function of a set-up context's number (R466). -/
def setupOf (c : Nat) : Option (Port × Nat) :=
  if c = 1 then some (.a, 0) else if c = 2 then some (.b, 0)
  else if 3 ≤ c ∧ c ≤ 65 then some (.a, c - 2)
  else if 66 ≤ c ∧ c ≤ 128 then some (.b, c - 65)
  else none

/-- The number of a function's set-up context (R466). -/
def setupCtx (p : Port) (func : Nat) : Nat :=
  match p with
  | .a => if func = 0 then 1 else 2 + func
  | .b => if func = 0 then 2 else 65 + func

/-- Does a function exist: the PF, and the VFs that are enabled? -/
def funcExists (s : State) (p : Port) (func : Nat) : Bool := decide (func ≤ (s.host.port p).vfs)

/-- A context that exists: a work context of the table, or a set-up context of a function that exists. -/
def State.ctx? (s : State) (c : Nat) : Option Context :=
  match Tbl.get? s.host.contexts c with
  | some x => some x
  | none =>
    match setupOf c with
    | some (p, f) => if funcExists s p f then some ⟨p, f, 0, 0, [], [], 0, none⟩ else none
    | none => none

/-- The state with a context's record set. -/
def State.setCtx (s : State) (c : Nat) (x : Context) : State :=
  { s with host := { s.host with contexts := Tbl.set s.host.contexts c x } }

/-- The state with a change of a context that exists. -/
def State.modCtx (s : State) (c : Nat) (f : Context → Context) : State :=
  match s.ctx? c with
  | some x => s.setCtx c (f x)
  | none => s

/-- Is a context a VF's? -/
def State.isVf (s : State) (c : Nat) : Bool := (s.ctx? c).elim false (fun x => decide (x.func ≠ 0))

/-- A ring that exists. -/
def State.ring? (s : State) (c r : Nat) : Option Ring := (s.ctx? c).bind (fun x => Tbl.get? x.rings r)

/-- The state with a change of a ring. -/
def State.modRing (s : State) (c r : Nat) (f : Ring → Ring) : State :=
  s.modCtx c (fun x => { x with rings := Tbl.modify x.rings r f })

/-- The operator's set-up context: the PF's on the control-owner port (R466). -/
def State.operatorCtx (s : State) : Nat := setupCtx s.host.owner 0

/-! Trace records (R577 to R583). -/

/-- The trace queue and counter block numbers of R580. -/
def queueHd (p : Port) : Nat := 16 + p.num
/-- The queue of the hub that schedules. -/
def State.queueSched (s : State) : Nat := queueHd s.host.owner

/-- The queue with its open word closed and committed at WP; a commit to a full queue overwrites the oldest word
(R582, R583). -/
def TraceQueue.commit (q : TraceQueue) : TraceQueue :=
  let full := decide ((q.wp + 8192 - q.rp) % 8192 = 4096)
  let gone := (Tbl.get? q.words (q.wp % 4096)).elim 0 (fun w => w.records.length)
  let lost := if full then wrap32 (q.lost + gone) else q.lost
  { q with
    words := Tbl.set q.words (q.wp % 4096) ⟨q.openRecords, q.openHi, q.wordSeq, q.lost⟩,
    wp := (q.wp + 1) % 8192,
    rp := if full then (q.rp + 1) % 8192 else q.rp,
    lost := lost, openRecords := [], wordSeq := wrap32 (q.wordSeq + 1) }

/-- A record placed in the open word at a timestamp (R582). -/
def TraceQueue.put (q : TraceQueue) (ts : Nat) (record : BitVec 128) : TraceQueue :=
  let hi := bitsOf ts 40 24
  let q := if q.openRecords ≠ [] ∧ q.openHi ≠ hi then q.commit else q
  let q := if q.openRecords = [] then { q with openHi := hi, openTs := ts } else q
  let q := { q with openRecords := q.openRecords ++ [record], lastWrite := some ts }
  if q.openRecords.length = 3 then q.commit else q

/-- A trace queue. -/
def State.queue (s : State) (n : Nat) : TraceQueue := Tbl.getD s.scb.queues n .empty
/-- The state with a trace queue set. -/
def State.setQueue (s : State) (n : Nat) (q : TraceQueue) : State :=
  { s with scb := { s.scb with queues := Tbl.set s.scb.queues n q } }

/-- Are the readings of work hidden: is it sealed, with profiling off (R539)? -/
def State.hides (s : State) (isSealed : Bool) : Bool := isSealed && !s.ref.profiling

/-- TRACE_RECORD (R578, R579, R582): a record of a kind enters its queue when the queue records that kind and the work
is not sealed, profiling apart. Whether a record that arrives in the cycle of another is taken or lost is a free
value: two happenings of one timestamp need not be in one cycle of the write side. -/
def State.trace (s : State) (n kind ctx data : Nat) (isSealed : Bool := false) : State :=
  let on := (s.regFld (keyOf R.scbTrcCtl n) 0 1 = 1) && bitAt (s.regAt (keyOf R.scbTrcKinds n)).toNat kind
  if !on || (s.hides isSealed && kind ≠ 2 && kind ≠ 3) then s
  else
    let q := s.queue n
    let record := layout 128 [(0, 0, 40, s.ts), (5, 0, 8, kind), (6, 0, 16, ctx), (8, 0, 64, data)]
    if q.lastWrite = some s.ts then
      let taken := s.freeVal 1
      let s := s.freed
      s.setQueue n (if taken = 1 then q.put s.ts record else { q with lost := wrap32 (q.lost + 1) })
    else s.setQueue n (q.put s.ts record)

/-! Counters (R588 to R592). -/

/-- What a counted event carries: its unit of R589, its context, whether its work is sealed, and its address. -/
structure Counted where
  unit : Nat := 63
  ctx : Nat := 0
  isSealed : Bool := false
  addr : Option Nat := none

/-- A counter block. -/
def State.pmu (s : State) (b : Nat) : PmuBlock := Tbl.getD s.scb.blocks b .zero

/-- Does the event pass the filters of counter `i` of block `b` (R589)? -/
def pmuPasses (s : State) (b i : Nat) (c : Counted) : Bool :=
  let cfg := s.regAt (R.pmuCfg b i)
  let shut := s.hides c.isSealed
  let ctx := if shut then 0 else c.ctx
  let priv := wordFld cfg 28 2
  let privOk := match priv with
    | 0 => true
    | 1 => !shut && decide (ctx = 0)
    | 2 => !shut && decide (ctx ≠ 0) && !s.isVf ctx
    | _ => !shut && s.isVf ctx
  let unitOk := decide (wordFld cfg 20 6 = 63) || decide (wordFld cfg 20 6 = c.unit)
  let ctxOk := decide (wordFld cfg 26 1 = 0) || (!shut && decide (wordFld (s.regAt (R.pmuCtx b i)) 0 12 = ctx))
  let base := s.reg64 (R.pmuRange b 0) (R.pmuRange b 1)
  let limit := s.reg64 (R.pmuRange b 2) (R.pmuRange b 3)
  let addrOk := decide (wordFld cfg 27 1 = 0) || c.addr.elim false (fun a => decide (base ≤ a) && decide (a < limit))
  decide (wordFld cfg 31 1 = 1) && privOk && unitOk && ctxOk && addrOk

/-- A counter raised; on reaching 2^48 it continues from 0 and sets OVF (COUNTER_WRAP, R590). -/
def State.addCounter (s : State) (b i n : Nat) : State :=
  let block := s.pmu b
  let v := Tbl.getD block.counters i 0 + n
  let s := { s with scb := { s.scb with
    blocks := Tbl.set s.scb.blocks b { block with counters := Tbl.set block.counters i (wrap48 v) } } }
  if 2 ^ 48 ≤ v then s.setFld (R.pmuCfg b i) 30 1 1 else s

/-- The counter sets of R592 that count an event. -/
def countSets (s : State) (cls event n : Nat) (c : Counted) : State :=
  if s.hides c.isSealed then s
  else
    let one (p : Nat × CounterSet) : Nat × CounterSet :=
      let sel := (s.regAt (keyOf R.pmuCsetEvt p.1)).toNat
      if p.2.ctx ≠ c.ctx then p
      else (p.1, { p.2 with counts := (List.range 4).map (fun j =>
        let v := p.2.counts.getD j 0
        if bitsOf sel (8 * j + 4) 4 = cls ∧ bitsOf sel (8 * j) 4 = event then v + n else v) })
    { s with scb := { s.scb with csets := s.scb.csets.map one } }

/-- An event of R588 counted in a block, `n` times. -/
def State.count (s : State) (b cls event n : Nat) (c : Counted := {}) : State :=
  let one (s : State) (i : Nat) : State :=
    let cfg := s.regAt (R.pmuCfg b i)
    if wordFld cfg 16 4 = cls ∧ wordFld cfg 8 8 = event ∧ pmuPasses s b i c then s.addCounter b i n else s
  countSets ((List.range 8).foldl one s) cls event n c

/-- An event counted once for each unit of `g` bytes that a run of bytes touches, at the unit's address. -/
def State.countUnits (s : State) (b cls event a n g : Nat) (c : Counted) : State :=
  if n = 0 then s
  else (List.range ((a + n - 1) / g + 1 - a / g)).foldl
    (fun s i => s.count b cls event 1 { c with addr := some ((a / g + i) * g) }) s

/-! Rings (R454 to R457). -/

/-- The ring's size in entries. -/
def Ring.size (r : Ring) : Nat := 2 ^ r.log2
/-- Entries between the indices. -/
def Ring.used (r : Ring) : Nat := (r.p + 2 ^ 32 - r.c) % 2 ^ 32
/-- A ring as configured, with both indices at 0. -/
def Ring.ofConfig (w0 w1 w2 w3 w4 w5 : Word) : Option Ring :=
  match RingKind.ofCode (wordFld w4 0 3) with
  | none => none
  | some k => if wordFld w4 3 5 = 0 then none else
    some { base := w0.toNat + 2 ^ 32 * w1.toNat, wb := w2.toNat + 2 ^ 32 * w3.toNat, kind := k, log2 := wordFld w4 3 5,
           pair := wordFld w4 8 4, vec := wordFld w4 12 11, irqEn := wordFld w4 23 1 = 1, pasidEn := wordFld w4 24 1 = 1,
           pasid := wordFld w5 0 20, p := 0, c := 0, reserved := 0, lost := 0, stopped := false, irqTs := none }

/-- The PASID that a ring's requests and those of its descriptors carry (R453). -/
def Ring.tlpPasid (r : Ring) : Option Nat := if r.pasidEn then some r.pasid else none

/-- RING_WRITEBACK (R455, R457): the writeback record, and the ring's vector for a device-produced ring whose IRQ_EN is
1, once an instant. -/
def State.writeback (s : State) (c r : Nat) : State :=
  match s.ctx? c, s.ring? c r with
  | some x, some ring =>
    let idx := if ring.kind.hostProduced then ring.c else ring.p
    let lost := if ring.kind = .event then ring.lost else 0
    let s := s.emit (.writeback c r ring.wb (layout 512 [(0, 0, 32, idx), (4, 0, 32, lost), (8, 0, 64, s.ts)]).toNat ring.tlpPasid)
    if ring.irqEn && !ring.kind.hostProduced && decide (ring.irqTs ≠ some s.ts) then
      (s.modRing c r (fun q => { q with irqTs := some s.ts })).emit (.msix x.port x.func ring.vec)
    else s
  | _, _ => s

/-- An entry written to a device-produced ring, then its writeback record. -/
def State.produce (s : State) (c r value : Nat) : State :=
  match s.ring? c r with
  | some ring =>
    let n := ring.kind.entryBytes
    let s := s.emit (.ringEntry c r (ring.base + ring.p % ring.size * n) n value ring.tlpPasid)
    (s.modRing c r (fun q => { q with p := wrap32 (q.p + 1) })).writeback c r
  | none => s

/-- The EVENT ring of a context: the one of lowest index. -/
def State.eventRing (s : State) (c : Nat) : Option Nat :=
  (s.ctx? c).bind (fun x => (x.rings.find? (fun p => p.2.kind == .event)).map (·.1))

/-- An event written to an EVENT ring, or dropped and counted when the ring is full (R457). -/
def State.pushEvent (s : State) (c r : Nat) (ev : Rec32) : State :=
  match s.ring? c r with
  | some ring =>
    if ring.used < ring.size then s.produce c r ev.toNat
    else s.modRing c r (fun q => { q with lost := wrap32 (q.lost + 1) })
  | none => s

/-- An event for a context (nothing is written for a context without an EVENT ring). -/
def State.ctxEvent (s : State) (c : Nat) (ev : Rec32) : State :=
  match s.eventRing c with
  | some r => s.pushEvent c r ev
  | none => s

/-- An event for the operator: ring 2 of the PF's set-up context of the control-owner port, or dropped and counted
there while that ring does not exist (R466). -/
def State.opEvent (s : State) (ev : Rec32) : State :=
  let c := s.operatorCtx
  match s.ring? c 2 with
  | some ring =>
    if ring.kind = .event then s.pushEvent c 2 ev
    else s.modPort s.host.owner (fun p => { p with opLost := wrap32 (p.opLost + 1) })
  | none => s.modPort s.host.owner (fun p => { p with opLost := wrap32 (p.opLost + 1) })

/-- An event record: type, context, fields, and the timestamp at bytes 24 to 31. -/
def eventRec (ty ctx ts : Nat) (fs : List LayoutField) : Rec32 :=
  layout 256 ([(0, 0, 16, ty), (2, 0, 16, ctx), (24, 0, 64, ts)] ++ fs)

/-- An event that waits for the slot end, which supplies its timestamp. -/
def State.later (s : State) (dest : EventDest) (ev : Rec32) (stamp : Bool := true) : State :=
  { s with host := { s.host with events := s.host.events ++ [⟨dest, ev, stamp⟩] } }

/-- A pending event written now. -/
def State.flush (s : State) (e : PendingEvent) : State :=
  let ev := if e.stamp then BitVec.ofNat 256 (setBits e.event.toNat 192 64 s.ts) else e.event
  match e.dest with
  | .operator => s.opEvent ev
  | .context c => s.ctxEvent c ev

/-! Window slots and their flags (R445 to R451). -/

/-- The device address of a port's window. -/
def State.winBase (s : State) (p : Port) : Nat :=
  (s.regFld (portKey p R.hubWinBaseHi) 0 16) * 2 ^ 32 + ((s.regAt (portKey p R.hubWinBaseLo)).toNat / 2 ^ 30) * 2 ^ 30

/-- Where a function's part of the window starts, as a window offset (R445). -/
def funcBase (func : Nat) : Nat := if func = 0 then 0 else 0x2_0000_0000 + (func - 1) * 0x800_0000
/-- How many bytes of window a function may name. -/
def funcBytes (func : Nat) : Nat := if func = 0 then 0x2_0000_0000 else 0x800_0000

/-- The slots that bytes of a function's part of the window occupy (R451: zero bytes name no slot). -/
def slotsOf (func off bytes : Nat) : List Nat :=
  if bytes = 0 then []
  else
    let lo := (funcBase func + off) / 65536
    let hi := (funcBase func + off + bytes - 1) / 65536
    (List.range (hi + 1 - lo)).map (· + lo)

/-- The flag of a slot. -/
def PortState.flag (p : PortState) (slot : Nat) : WinFlag := Tbl.getD p.flags slot ⟨false, 0⟩

/-- Slots returned to the host (R449): OWN 0 and GEN raised in each slot of the list that the device owns. -/
def PortState.giveBack (p : PortState) (slots : List Nat) : PortState :=
  { p with flags := slots.foldl (fun t i =>
      let f := Tbl.getD t i ⟨false, 0⟩
      if f.own then Tbl.set t i ⟨false, wrap32 (f.gen + 1)⟩ else t) p.flags }

/-! Completions (R456, R460, R462). -/

/-- An accepted descriptor by number. -/
def State.acc? (s : State) (did : Nat) : Option Accepted := s.host.accepted.find? (fun a => a.did == did)

/-- The first accepted descriptor of a ring whose opcode's steps have not begun. -/
def State.oldest (s : State) (c r op : Nat) : Option Accepted :=
  s.host.accepted.find? (fun a => a.ctx == c && a.ring == r && !a.begun && fld a.desc 0 0 8 == op)

/-- The state with a descriptor's own steps begun. -/
def State.begin (s : State) (did : Nat) : State :=
  { s with host := { s.host with
      accepted := s.host.accepted.map (fun a => if a.did = did then { a with begun := true } else a) } }

/-- The slots of a descriptor that the device owns for it: those no other accepted descriptor names (R449). -/
def ownSlots (s : State) (a : Accepted) : List Nat :=
  if a.slotsOk then a.slots
  else a.slots.filter (fun i => s.host.accepted.all (fun b => b.did == a.did || !b.slotsOk || !b.slots.contains i ||
    (s.ctx? b.ctx).map (·.port) != (s.ctx? a.ctx).map (·.port)))

/-- The state with a descriptor gone and its window slots returned. -/
def State.drop (s : State) (a : Accepted) : State :=
  let port := (s.ctx? a.ctx).elim Port.a (·.port)
  let s := s.modPort port (fun p => p.giveBack (ownSlots s a))
  { s with host := { s.host with accepted := s.host.accepted.filter (fun b => b.did != a.did) } }

/-- Is a descriptor a SERVE whose work is sealed (R461, R579)? -/
def descSealed (d : Desc) : Bool := fld d 0 0 8 == 0x20 && fld d 18 0 1 == 1

/-- The completion entry of R460, written now: the slots are returned first, the reserved entry is used, and the
COMPLETION trace record is written. -/
def State.complete (s : State) (did status : Nat) (flags : Nat := 0) (extra : Nat := 0) (engine : Nat := 0) : State :=
  match s.acc? did with
  | none => s
  | some a =>
    let s := s.drop a
    let sq := fld a.desc 4 0 32
    let port := (s.ctx? a.ctx).elim Port.a (·.port)
    match s.ring? a.ctx a.pair with
    | none => s
    | some _ =>
      let entry := layout 256 [(0, 0, 32, sq), (4, 0, 16, status), (6, 0, 16, flags), (8, 0, 64, s.ts),
        (16, 0, 96, extra), (28, 0, 32, engine)]
      let s := s.modRing a.ctx a.pair (fun x => { x with reserved := x.reserved - 1 })
      let s := s.produce a.ctx a.pair entry.toNat
      let s := s.count (queueHd port) 8 4 1 { ctx := a.ctx, unit := 0, isSealed := descSealed a.desc }
      s.trace (queueHd port) 7 a.ctx (sq + 2 ^ 32 * status + 2 ^ 48 * a.ring) (descSealed a.desc)

/-- A descriptor's work has ended: a VF context's completion waits for the slot end, a PF context's is written now
(R462). -/
def State.finish (s : State) (did status : Nat) (flags : Nat := 0) (extra : Nat := 0) (engine : Nat := 0) : State :=
  match s.acc? did with
  | none => s
  | some a =>
    if s.isVf a.ctx then
      let s := s.begin did
      { s with host := { s.host with completions := s.host.completions ++ [⟨did, status, flags, extra, engine⟩] } }
    else s.complete did status flags extra engine

end Sys2Proof.Machine
end

