-- ==== Sys2Proof/Machine/MemOps.lean ====
section
/-! DEFINITION. The memory system (chapter 14): SC8, the page-key table, keys, and the reads and writes of LPDDR5X lines
on behalf of a context. -/
namespace Sys2Proof.Machine
open Sys2Proof

/-! Address ranges (R483, R623). -/

/-- Bytes of software-visible LPDDR5X. -/
def lpddrVisible : Nat := 0x00EF_F800_0000
/-- Bytes of LPDDR5X with the hidden region. -/
def lpddrBytes : Nat := 0x00F0_0000_0000
/-- Bonded SRAM. -/
def sramBase : Nat := 0x1000_0000_0000
/-- Bytes of SRAM of one SD die. -/
def sdBytes : Nat := 0x8000_0000
/-- Court buffers. -/
def courtBase : Nat := 0x1100_0000_0000
/-- The device address of a byte of an SD die. -/
def sdAddr (die off : Nat) : Nat := sramBase + die * sdBytes + off
/-- Is an address in LPDDR5X? -/
def inLpddr (a : Nat) : Bool := decide (a < lpddrBytes)
/-- Is an address in bonded SRAM? -/
def inSram (a : Nat) : Bool := decide (sramBase ≤ a) && decide (a < sramBase + 16 * sdBytes)
/-- The weight store's blocks: bank b at + b × 0x30_0000_0000, die n at + n × 0x3_0000_0000, physical block p at
+ p × 4 MiB (R189, R191). -/
def wstBase : Nat := 0x2000_0000_0000
/-- Is an address in the weight store? -/
def inWst (a : Nat) : Bool := decide (wstBase ≤ a) && decide (a < 0x2060_0000_0000)
/-- Does a byte survive the loss of the chips' SRAM: LPDDR5X and the weight store (R190, R608)? -/
def outlives (a : Nat) : Bool := inLpddr a || inWst a
/-- Pages of 64 KiB. -/
def pageBytes : Nat := 65536
/-- The channel of a page (R492). -/
def channelOf (page : Nat) : Nat := (page / 15 % 128) ^^^ (page / 15 / 128 % 128)

/-- Where a data line lies (R491, R492): channel, the 16-bit channel of a device and its device, MD die, offsets of the line and of
its block's check line in the channel, and slot. -/
structure LinePlace where
  channel : Nat
  device : Nat
  md : Nat
  offset : Nat
  checkOffset : Nat
  slot : Nat
  deriving DecidableEq, Repr

/-- The place of the line of an address (R492). -/
def linePlace (a : Nat) : LinePlace :=
  let stripe := a / pageBytes / 15
  let n := a / pageBytes % 15 * 1024 + a % pageBytes / 64
  let k := channelOf (a / pageBytes)
  let block := stripe / 128 * 1048576 + n / 15 * 1024
  ⟨k, k / 8, k / 32, block + n % 15 * 64, block + 15 * 64, n % 15⟩

/-! Regions as the running registers place them. -/

/-- Base address and bytes of the Bullpen (R270). -/
def State.bullpen (s : State) : Nat × Nat :=
  (s.regFld R.lkrBullpenHi 0 16 * 2 ^ 32 + (s.regAt R.lkrBullpenLo).toNat, s.regFld R.lkrBullpenPages 0 24 * pageBytes)
/-- Base address and bytes of the directory region, none while its base is 0 with an empty Bullpen (R229, R270). -/
def State.dirRegion (s : State) : Nat × Nat :=
  let base := s.regFld R.lkrDirHi 0 16 * 2 ^ 32 + (s.regAt R.lkrDirLo).toNat
  (base, if base = 0 ∧ s.bullpen.2 = 0 then 0 else 2 ^ 29)
/-- Bytes of one key or value row (R231, R314). -/
def kvRowBytes (fmt dKv : Nat) : Nat := if fmt = 0x01 then 2 * dKv else ceilDiv dKv 256 * 264

/-- The pool's shape as (FMT code, D_KV, LAYERS) (R333). -/
def State.kvShape (s : State) : Nat × Nat × Nat :=
  let w := s.regAt R.umpKvShape
  (if wordFld w 31 1 = 1 then 0x10 else 0x01, wordFld w 16 15, wordFld w 0 11)

/-- Bytes of a layer block, LB of R314. -/
def State.kvLb (s : State) : Nat := 128 * kvRowBytes s.kvShape.1 s.kvShape.2.1

/-- m of R314: the smallest integer at least LAYERS with m × LB a multiple of 65,536. -/
def State.kvM (s : State) : Nat :=
  let lb := s.kvLb
  let layers := s.kvShape.2.2
  if lb = 0 then 0
  else
    let unit := 65536 / Nat.gcd lb 65536
    ceilDiv layers unit * unit

/-- Bytes of a KV page, PS of R314. -/
def State.kvPs (s : State) : Nat := s.kvM * s.kvLb

/-- Base address and bytes of the KV pool, page 0 included (R314, R334). -/
def State.kvPool (s : State) : Nat × Nat :=
  (s.regFld R.umpKvBaseHi 0 16 * 2 ^ 32 + (s.regAt R.umpKvBaseLo).toNat, s.regFld R.umpKvPages 0 24 * s.kvPs)
/-- Base address and bytes of a port's window (R445). -/
def State.window (s : State) (p : Port) : Nat × Nat := (s.winBase p, 2 ^ 34)

/-- Does a range hold an address? -/
def inRange (r : Nat × Nat) (a : Nat) : Bool := decide (r.1 ≤ a) && decide (a < r.1 + r.2)
/-- Do two ranges overlap? An empty range overlaps nothing. -/
def overlaps (r q : Nat × Nat) : Bool :=
  decide (r.2 ≠ 0) && decide (q.2 ≠ 0) && decide (r.1 < q.1 + q.2) && decide (q.1 < r.1 + r.2)

/-- The page-key entry of a page (R497): what its owner set, or what the region registers imply. -/
def State.page (s : State) (p : Nat) : PageEntry :=
  match Tbl.get? s.mem.pages p with
  | some e => e
  | none =>
    let a := p * pageBytes
    if lpddrVisible ≤ a then ⟨6, 0, 0⟩
    else if inRange (s.window .a) a || inRange (s.window .b) a then ⟨4, 0, 0⟩
    else if inRange s.dirRegion a then ⟨2, 0, 0⟩
    else if inRange s.bullpen a then ⟨1, 3, 0⟩
    else if inRange s.kvPool a then (if a < s.kvPool.1 + s.kvPs then ⟨3, 0, 0⟩ else ⟨3, 3, 0⟩)
    else .unassigned

/-- OFFLINE of a page (R497, R502). -/
def State.pageOffline (s : State) (p : Nat) : Bool :=
  s.mem.offline.contains p ||
    !bitAt (s.regAt (R.memChOnline (channelOf p / 32))).toNat (channelOf p % 32)

/-- MEM_PKT_DATA of a page (R497). -/
def State.pageWord (s : State) (p : Nat) : Word :=
  let e := s.page p
  BitVec.ofNat 32 (e.use * 2 ^ 21 + (if s.pageOffline p then 2 ^ 20 else 0) + e.cls * 2 ^ 16 + e.index)

/-- The state with pages given to an owner. -/
def State.setPages (s : State) (ps : List Nat) (e : PageEntry) : State :=
  { s with mem := { s.mem with pages := ps.foldl (fun t p => Tbl.set t p e) s.mem.pages } }

/-- The state with pages given up; their lines keep their ciphertext (R501). -/
def State.freePages (s : State) (ps : List Nat) : State :=
  { s with mem := { s.mem with
      pages := s.mem.pages.filter (fun e => !ps.contains e.1)
      ctxPages := s.mem.ctxPages.filter (fun e => !ps.contains e.1) } }

/-- The lines of a page counted as scrubbed (R588, R589). -/
def State.countScrub (s : State) (page : Nat) : State :=
  s.countUnits (20 + channelOf page / 32) 5 4 (page * pageBytes) pageBytes 64 { unit := 18 }

/-- The state with every line of some pages ZERO (R501). -/
def State.zeroPages (s : State) (ps : List Nat) : State :=
  let s := ps.foldl State.countScrub s
  { s with mem := { s.mem with
      cells := s.mem.cells.filter (fun c => !(inLpddr c.1 && ps.contains (c.1 / pageBytes))),
      lines := s.mem.lines.filter (fun l => !ps.contains (l.1 / 1024)),
      bad := s.mem.bad.filter (fun l => !ps.contains (l / 1024)) } }

/-! Keys (R496, R503). -/

/-- The tenant slot of a context's session, 65,536 for an operator context or a session that is gone. -/
def State.slotOfCtx (s : State) (c : Nat) : Nat :=
  match s.ctx? c with
  | none => 65536
  | some x => if x.session = 0 then 65536 else (Tbl.get? s.ref.sessions x.session).elim 65536 (·.slot)

/-- The tenant of a context (R235): none for an operator context. -/
def State.tenantOfCtx (s : State) (c : Nat) : Option Nat :=
  (s.ctx? c).bind (fun x => if x.session = 0 then none else (Tbl.get? s.ref.sessions x.session).map (·.tenant))

/-- The page-key entry that an owner's pages take: the tenant's slot, or the context for SESSION 0 (R497). -/
def ownerEntry (s : State) (use c : Nat) : PageEntry :=
  let slot := s.slotOfCtx c
  if slot = 65536 then ⟨use, 2, c⟩ else ⟨use, 1, slot⟩

/-- The epoch that a page's MD die writes with: CUR, or the epoch before it until the die has received the new key (R504). -/
def KeySlot.epochFor (k : KeySlot) (page : Nat) : Nat :=
  if k.switched.contains (channelOf page / 32) then k.cur else 1 - k.cur

/-- The epoch and key instance that a write to a page uses (R496, R504). -/
def keyOfPage (s : State) (page : Nat) : Nat × Nat :=
  let e := s.page page
  match e.cls with
  | 0 => (0, s.mem.deviceKey)
  | 1 => match Tbl.get? s.mem.keySlots e.index with
    | some k => (k.epochFor page, if k.epochFor page = 0 then k.key0 else k.key1)
    | none => (0, 0)
  | _ => (0, Tbl.getD s.mem.ctxKeys e.index 0)

/-- The key instance that a read of a line uses (R496): the page's index with the line's own epoch. -/
def keyOfLine (s : State) (e : PageEntry) (l : LineMeta) : Nat :=
  match e.cls with
  | 0 => s.mem.deviceKey
  | 1 => match Tbl.get? s.mem.keySlots e.index with
    | some k => if l.epoch = 0 then k.key0 else k.key1
    | none => 0
  | _ => Tbl.getD s.mem.ctxKeys e.index 0

/-! Lines. -/

/-- The metadata byte of a line (R495): EPOCH, CLASS and STATE, which is 1 for DATA and 0 for ZERO. -/
def metaByte : Option LineMeta → Byte
  | none => 0
  | some l => BitVec.ofNat 8 (l.epoch % 2 + 2 * (l.cls % 4) + 8)

/-- The 64 bytes of the key instance of a line. -/
def memoryKey (id : Nat) : List Byte := bytesOf 64 (Config.memoryKey id).toNat

/-- The 64 bytes that LPDDR5X stores for a line (R496): the ciphertext under the key that wrote it, its number as tweak. -/
def State.storedLine (s : State) (line : Nat) : List Byte :=
  match Tbl.get? s.mem.lines line with
  | none => List.replicate 64 0
  | some l => xtsEncrypt (memoryKey l.keyId) line (s.mem.cells.readBytes (64 * line) 64)

/-- The codeword of a line (R486): ciphertext, metadata byte, check symbols. -/
def State.lineWord (s : State) (line : Nat) : List Byte := sc8Word (s.storedLine line ++ [metaByte (Tbl.get? s.mem.lines line)])

/-- The check line of a block of a stripe (R491): for each of its 15 lines the check symbols and the metadata byte, then the check
symbols of these 60 bytes, then zero. -/
def State.checkLine (s : State) (stripe block : Nat) : List Byte :=
  let entry (i : Nat) : List Byte :=
    let w := s.lineWord (15360 * stripe + 15 * block + i)
    w.drop 65 ++ (w.drop 64).take 1
  sc8Word ((List.range 15).flatMap entry) ++ [0]

/-- What the bytes of a line read as under a key: XTS decryption of what is stored. -/
def State.lineUnder (s : State) (line key : Nat) : List Byte :=
  match Tbl.get? s.mem.lines line with
  | none => List.replicate 64 0
  | some l =>
    if l.keyId = key then s.mem.cells.readBytes (64 * line) 64 else xtsDecrypt (memoryKey key) line (s.storedLine line)

/-- Sixty-four bytes of a line as a reader of its page sees them, whether R499 made them zero, and whether they are free
values: those of a line that SC8 cannot correct, which the device does not deliver (R489). -/
def State.lineBytes (s : State) (line : Nat) : List Byte × Bool × Bool :=
  let zeros := List.replicate 64 (0 : Byte)
  match Tbl.get? s.mem.lines line with
  | none => (zeros, false, false)
  | some l =>
    let e := s.page (line / 1024)
    if l.cls ≠ e.cls then (zeros, true, false)
    else if !s.mem.bad.contains line then (s.lineUnder line (keyOfLine s e l), false, false)
    else ((List.range 64).map (fun i => Config.freeValue 8 (s.freeCtr + i)), false, true)

/-- A line read: its bytes, and the state with R499 counted and free values used up. -/
def State.readLine (s : State) (line : Nat) : List Byte × State :=
  let (bs, mismatch, free) := s.lineBytes line
  let s := if mismatch then s.bump R.memMismatch else s
  (bs, if free then { s with freeCtr := s.freeCtr + 64 } else s)

/-- A line written with 64 bytes under the current key of its page (R496). -/
def State.writeLine (s : State) (line : Nat) (bs : List Byte) : State :=
  let e := s.page (line / 1024)
  let (epoch, key) := keyOfPage s (line / 1024)
  { s with mem := { s.mem with
      cells := s.mem.cells.writeBytes (64 * line) bs,
      lines := Tbl.set s.mem.lines line ⟨e.cls, epoch, key⟩,
      bad := s.mem.bad.filter (· != line) } }

/-- Data lines counted as read (event 0) or written (event 1) in the blocks of their MD dies (R588). For each block of lines that a
run enters, whether its check line was in the cache is a free value (R493; assumption 134). -/
def State.countLines (s : State) (event : Nat) (ls : List Nat) (c : Counted) : State :=
  let blockOf (l : Nat) : Nat := l / 15360 * 1024 + l % 15360 / 15
  (ls.foldl (fun (acc : State × Option Nat) l =>
    let s := acc.1.count (20 + channelOf (l / 1024) / 32) 5 event 1 { c with addr := some (64 * l) }
    if acc.2 = some (blockOf l) then (s, acc.2)
    else (s.freed.count (20 + channelOf (l / 1024) / 32) 5 2 (s.freeVal 1).toNat { c with addr := some (64 * l) }, some (blockOf l)))
    (s, none)).1

/-- May a request that carries a context touch a page (R498)? -/
def State.mayAccess (s : State) (c page : Nat) : Bool :=
  let e := s.page page
  !s.pageOffline page && decide (e.use ≠ 6) &&
    (if c = 0 then decide (e.cls ≠ 3)
     else (decide (e.cls = 1) && decide (e.index = s.slotOfCtx c)) || (decide (e.cls = 2) && decide (e.index = c)))

/-- May a request that carries a context read a page: one it may access (R498), or the pool's zero page, which a gather fetches
for a slot without a page (R315, R319)? DEDUCED (assumption 228). -/
def State.mayFetch (s : State) (c page : Nat) : Bool :=
  s.mayAccess c page || (decide ((s.page page).use = 3 ∧ (s.page page).cls = 0) && !s.pageOffline page)

/-- The lines that `n` bytes from an address touch. -/
def linesOf (a n : Nat) : List Nat :=
  if n = 0 then [] else (List.range ((a + n - 1) / 64 + 1 - a / 64)).map (· + a / 64)

/-- MEM_ASSIGNED or nothing, when a scrub has no page left (R500, R509). -/
def scrubEnded (s : State) (j : ScrubJob) : State :=
  let s := if j.release then s.freePages j.whole else s
  if j.event then
    s.opEvent (eventRec 0x00C1 j.ctx s.ts [(6, 1, 1, if j.release then 1 else 0), (8, 0, 32, j.first), (12, 0, 32, j.count)])
  else s

/-- A page's scrub done (R500, R501): every line ZERO; a job with no page left ends. -/
def State.scrubPage (s : State) (page : Nat) : State :=
  let s := s.zeroPages [page]
  let jobs := s.mem.scrubs.map (fun j => { j with pages := j.pages.filter (· != page) })
  let s := { s with mem := { s.mem with scrubs := jobs.filter (fun j => !j.pages.isEmpty) } }
  (jobs.filter (·.pages.isEmpty)).foldl scrubEnded s

/-- Does a page of context memory still wait for its scrub? An access to it is ordered after the scrub (R500). -/
def State.scrubbing (s : State) (page : Nat) : Bool := s.mem.scrubs.any (fun j => j.pages.contains page)

/-- The work on the array marked as having broken R498. -/
def State.violate (s : State) : State :=
  let s := s.bump R.memAccViol
  { s with ump := { s.ump with work := s.ump.work.map (fun w => { w with violation := true }) } }

/-- One line read for a context (R498): zero bytes and a violation where the access is not allowed. -/
def readLineFor (c : Nat) (acc : List (Nat × List Byte) × State) (line : Nat) : List (Nat × List Byte) × State :=
  let s := acc.2
  let s := if s.scrubbing (line / 1024) then s.scrubPage (line / 1024) else s
  if s.mayFetch c (line / 1024) then
    let (bs, s) := s.readLine line
    (acc.1 ++ [(line, bs)], s)
  else (acc.1 ++ [(line, List.replicate 64 0)], s.violate)

/-- `n` bytes of LPDDR5X read for a context. -/
def State.lpRead (s : State) (c a n : Nat) : List Byte × State :=
  let (ls, s) := (linesOf a n).foldl (readLineFor c) ([], s)
  (((ls.flatMap (·.2)).drop (a % 64)).take n, s)

/-- One line of a write for a context: the bytes of the data that fall into it replace its own (R498). -/
def writeLineFor (c a : Nat) (data : List Byte) (s : State) (line : Nat) : State :=
  let s := if s.scrubbing (line / 1024) then s.scrubPage (line / 1024) else s
  if s.mayAccess c (line / 1024) then
    let (old, s) := s.readLine line
    let cell (i : Nat) : Byte :=
      let x := 64 * line + i
      if a ≤ x ∧ x < a + data.length then data.getD (x - a) 0 else old.getD i 0
    s.writeLine line ((List.range 64).map cell)
  else s.violate

/-- Bytes written to LPDDR5X for a context. -/
def State.lpWrite (s : State) (c a : Nat) (data : List Byte) : State :=
  (linesOf a data.length).foldl (writeLineFor c a data) s

/-! Bonded SRAM and court buffers (R483, R502). -/

/-- Is the SRAM region of an address online? -/
def State.sramOnline (s : State) (a : Nat) : Bool :=
  let off := a - sramBase
  bitAt (s.regAt (R.memSramOnline (off / sdBytes))).toNat (off % sdBytes / 0x400_0000)

/-! The weight store's blocks and its read window (R189 to R191, R200). -/

/-- Bytes of a block. -/
def blockBytes : Nat := 0x40_0000
/-- Where the model keeps physical block `p` of bank `b` of die `n`. -/
def blockAddr (b n p : Nat) : Nat := wstBase + b * 0x30_0000_0000 + n * 0x3_0000_0000 + p * blockBytes
/-- A block's number in the block map. -/
def blockKey (n b p : Nat) : Nat := 8192 * n + 4096 * b + p
/-- A block's code (R190). -/
def State.blockCode (s : State) (key : Nat) : Nat := Tbl.getD s.wst.blockMap key 0
/-- The logical blocks of a die of a bank, in physical order (R191). -/
def logicalBlocks (r : BankRec) (n : Nat) : List Nat := (List.range 3072).filter (fun p => !r.notGood.contains (4096 * n + p))

/-- A byte of the read window: logical blocks of a bank that may be read; a bank that nothing may read and a FENCED block
give free values. -/
def State.wstByte (s : State) (a : Nat) : Byte :=
  let o := a - wstBase
  let b := o / 0x30_0000_0000
  let n := o % 0x30_0000_0000 / 0x3_0000_0000
  let j := o % 0x3_0000_0000 / blockBytes
  let r := if b = 0 then s.wst.bank0 else s.wst.bank1
  if r.st = .ready ∨ r.st = .active ∨ r.st = .draining then
    match (logicalBlocks r n)[j]? with
    | none => 0
    | some p =>
      if s.blockCode (blockKey n b p) = 0 then s.mem.cells.read (blockAddr b n p + o % blockBytes)
      else Config.freeValue 8 (s.freeCtr + a)
  else Config.freeValue 8 (s.freeCtr + a)

/-- One byte on chip: a fenced region delivers nothing, so its byte is a free value (R502). -/
def State.chipByte (s : State) (a : Nat) : Byte :=
  if inSram a && !s.sramOnline a then Config.freeValue 8 (s.freeCtr + a)
  else if inWst a then s.wstByte a
  else s.mem.cells.read a

/-- `n` bytes on chip. -/
def State.chipRead (s : State) (a n : Nat) : List Byte := (List.range n).map (fun i => s.chipByte (a + i))

/-- Bytes written on chip; a write to a fenced region is discarded (R502), and so is one to the weight store, which only
the loader writes (R191). -/
def State.chipWrite (s : State) (a : Nat) (data : List Byte) : State :=
  let keep := (data.zipIdx.map (fun p => (a + p.2, p.1))).filter (fun c => !inWst c.1 && (!inSram c.1 || s.sramOnline c.1))
  { s with mem := { s.mem with cells := s.mem.cells.writeCells keep } }

/-- A read at a device address, LPDDR5X or on chip, for a context. -/
def State.devRead (s : State) (c a n : Nat) : List Byte × State :=
  if inLpddr a then s.lpRead c a n else (s.chipRead a n, s)

/-- A write at a device address for a context. -/
def State.devWrite (s : State) (c a : Nat) (data : List Byte) : State :=
  if inLpddr a then s.lpWrite c a data else s.chipWrite a data

end Sys2Proof.Machine
end

