-- ==== Sys2Proof/Machine/KvOps.lean ====
section
/-! DEFINITION. KV pages and Bullpen pages as shared operations: the page shape, allocation, quotas, release (chapter 9),
the directory, make_room and the ends of loads and records (chapters 7 and 8). -/
namespace Sys2Proof.Machine
open Sys2Proof

/-- A quota table as read at its base (R246, R317): 65,536 entries of (minimum, maximum), zero entries not listed. -/
def readQuota (s : State) (base : Nat) : Tbl (Nat × Nat) :=
  let slots := ((s.mem.cells.filter (fun c => inRange (base, 524288) c.1)).map (fun c => (c.1 - base) / 8)).dedup
  slots.foldl (fun t i =>
    let bs := (s.lpRead 0 (base + 8 * i) 8).1
    Tbl.set t i (ofBytes (bs.take 4), ofBytes (bs.drop 4))) []

/-! The KV pool (R314 to R318). -/

/-- The memory pages of a KV page. -/
def State.kvMemPages (s : State) (p : Nat) : List Nat :=
  let first := (s.kvPool.1 + p * s.kvPs) / pageBytes
  (List.range (s.kvPs / pageBytes)).map (· + first)

/-- Device address of the layer-l block of a page. -/
def State.kvBlock (s : State) (p l : Nat) : Nat := s.kvPool.1 + (p * s.kvM + l) * s.kvLb

/-- KV pages that requests hold. -/
def State.kvHeld (s : State) : List Nat := s.ump.requests.flatMap (·.pages)

/-- UMP_KV_PAGES.COUNT. -/
def State.kvCount (s : State) : Nat := s.regFld R.umpKvPages 0 24

/-- Free pages of the pool. -/
def State.kvFree (s : State) : Nat := s.kvCount - 1 - s.kvHeld.length

/-- Claims: one for each LIVE request (R316). -/
def State.kvClaims (s : State) : Nat := (s.ump.requests.filter (fun q => !q.refill)).length

/-- Pages held plus claims of the requests that a test picks. -/
def kvLoad (s : State) (pick : Request → Bool) : Nat :=
  let qs := s.ump.requests.filter pick
  (qs.flatMap (·.pages)).length + (qs.filter (fun q => !q.refill)).length

/-- The invariant of R316 after a request of a context took `u` more pages and one claim. -/
def State.kvFits (s : State) (c u : Nat) : Bool :=
  let slot := s.slotOfCtx c
  let mine := kvLoad s (fun q => s.slotOfCtx q.ctx == slot) + u + 1
  let (lo, hi) := Tbl.getD s.ump.kvQuota slot (0, 0)
  let sumLo := (s.ump.kvQuota.map (·.2.1)).sum
  if s.regFld R.umpKvCtl 0 1 = 1 then
    if slot = 65536 then decide (mine + sumLo ≤ s.kvCount - 1) && decide (u ≤ s.kvFree)
    else decide (mine ≤ lo) && decide (u ≤ s.kvFree)
  else decide (s.kvClaims + 1 + u ≤ s.kvFree) && (decide (slot = 65536) || decide (hi = 0) || decide (mine ≤ hi))

/-- The first `n` free pages, lowest number first. -/
def State.kvPick (s : State) (n : Nat) : List Nat :=
  let held := s.kvHeld
  ((List.range s.kvCount).filter (fun p => decide (p ≠ 0) && !held.contains p)).take n

/-- Pages entered in the page-key table under the owner of a context (R315). -/
def State.kvAssign (s : State) (c : Nat) (ps : List Nat) : State :=
  s.setPages (ps.flatMap s.kvMemPages) (ownerEntry s 3 c)

/-- Zeros written to every line of a page (R318). -/
def State.zeroFill (s : State) (mp : Nat) : State :=
  (List.range 1024).foldl (fun s i => s.writeLine (1024 * mp + i) (List.replicate 64 0)) s

/-- A KV page zero-filled (KV_ZERO_FILL). -/
def State.kvZeroFill (s : State) (p : Nat) : State := (s.kvMemPages p).foldl State.zeroFill s

/-- Pages of a request released; a revoked request's pages are scrubbed first (R250, R318). -/
def State.kvRelease (s : State) (ps : List Nat) (scrub : Bool) : State :=
  let mps := ps.flatMap s.kvMemPages
  (if scrub then s.zeroPages mps else s).freePages mps

/-- A request by context and ID. -/
def State.req? (s : State) (c id : Nat) : Option Request :=
  s.ump.requests.find? (fun q => q.ctx == c && q.reqId == id)

/-- The state with a change of one request. -/
def State.modReq (s : State) (c id : Nat) (f : Request → Request) : State :=
  { s with ump := { s.ump with
      requests := s.ump.requests.map (fun q => if q.ctx = c ∧ q.reqId = id then f q else q) } }

/-! The directory (R239, R243). -/

/-- The entry of an adapter; none while it is FREE. -/
def State.dirEntry (s : State) (id : Nat) : Option DirEntry := s.lkr.dir.find? (fun e => e.adapter == id)

/-- The state with a change of an adapter's entry. -/
def State.modDir (s : State) (id : Nat) (f : DirEntry → DirEntry) : State :=
  { s with lkr := { s.lkr with dir := s.lkr.dir.map (fun e => if e.adapter = id then f e else e) } }

/-- One pin released; a LOST entry whose pins reach 0 becomes FREE (R243, R252). -/
def State.unpin (s : State) (id : Nat) : State :=
  if id = 0 then s
  else
    let s := s.modDir id (fun e => { e with pins := e.pins - 1 })
    match s.dirEntry id with
    | some e =>
      if e.st = .lost ∧ e.pins = 0 then
        { (s.freePages e.pages) with lkr := { s.lkr with dir := s.lkr.dir.filter (fun x => x.adapter != id) } }
      else s
    | none => s

/-- A request ends: pages, claim, slot and pin go back (R304, R322); REQ_END, with the serve number of
the boundary, for every end but a LEAVE (R332). -/
def State.endRequest (s : State) (q : Request) (status : Option Nat) (scrub : Bool := false) (step : Nat := 0) : State :=
  let s := s.kvRelease q.pages scrub
  let s := s.unpin q.adapter
  let s := { s with ump := { s.ump with
    requests := s.ump.requests.filter (fun x => !(x.ctx == q.ctx && x.reqId == q.reqId)) } }
  match status with
  | none => s
  | some st => s.later (.context q.ctx) (eventRec 0x0080 q.ctx 0
      [(4, 0, 32, q.reqId), (8, 0, 64, step), (16, 0, 16, st), (18, 0, 16, q.cls), (20, 0, 32, q.len)])

/-- The home Locker of an adapter (R226). -/
def homeOf (id : Nat) : Nat := mix64 id % 16

/-- The Locker that serves a die's Locker duties: itself, or the next online one (R229, R257). -/
def State.lockerFor (s : State) (n : Nat) : Nat :=
  ((List.range 16).map (fun i => (n + i) % 16)).find? (fun i => bitAt (s.regAt R.lkrOnline).toNat i) |>.getD n

/-- Bullpen pages in use: entries, loads, waiting versions and practice records. -/
def State.bullpenHeld (s : State) : List Nat :=
  s.lkr.dir.flatMap (·.pages) ++ (s.lkr.loads.filter (·.higher)).flatMap (·.pages) ++ s.lkr.waiting.flatMap (·.pages) ++
    s.lkr.records.flatMap (fun r => r.shadow ++ r.spare ++ r.state0 ++ r.state1)

/-- Free pages of the Bullpen, lowest first. -/
def State.bullpenFree (s : State) : List Nat :=
  let held := s.bullpenHeld
  ((List.range (s.regFld R.lkrBullpenPages 0 24)).map (· + s.bullpen.1 / pageBytes)).filter (fun p => !held.contains p)

/-- The tenant slot a tenant is bound to, 65,536 for none. -/
def State.slotOfTenant (s : State) (t : Nat) : Nat :=
  (s.ref.slots.find? (fun p => p.2.tenant == t)).elim 65536 (·.1)

/-- Pages a tenant uses against its quota (R246, R281). -/
def bullpenUsedBy (s : State) (t : Nat) : Nat :=
  let of (id : Nat) : Bool := (s.dirEntry id).elim false (fun e => decide (e.tenant = t))
  ((s.lkr.dir.filter (fun e => e.tenant == t)).map (·.pages.length)).sum +
  ((s.lkr.loads.filter (fun l => l.higher && of l.adapter)).map (·.pages.length)).sum +
  ((s.lkr.waiting.filter (fun w => of w.adapter)).map (·.pages.length)).sum +
  ((s.lkr.records.filter (fun r => of r.adapter)).map
    (fun r => (r.shadow ++ r.spare ++ r.state0 ++ r.state1).length)).sum

/-- A context's share weight, 1 for a context that no longer exists (R348, R248). -/
def State.share (s : State) (c : Nat) : Nat :=
  if (s.ctx? c).isSome then s.regFld (keyOf R.umpCtxShare c) 0 16 else 1

/-- The eviction score of R248. -/
def evictScore (s : State) (e : DirEntry) : Nat := (s.ump.serveNo - e.lastUse) * (65536 / s.share e.loadCtx)

/-- The candidate of highest score, ties to the lower adapter ID. -/
def bestVictim (s : State) (cs : List DirEntry) : Option DirEntry :=
  cs.foldl (fun b e =>
    match b with
    | none => some e
    | some x => if evictScore s x < evictScore s e ∨ (evictScore s x = evictScore s e ∧ e.adapter < x.adapter)
        then some e else some x) none

/-- Is an entry a candidate of R248: RESIDENT with no pin? An entry that a load writes a new version for, and the entry
(`keep`) that the load or the new practice record is for, are none: R281 never evicts an entry of an open record, and no
outcome is given for a load whose entry goes. DEDUCED. -/
def evictable (s : State) (keep : Nat) (e : DirEntry) : Bool :=
  decide (e.st = .resident) && e.pins == 0 && e.adapter != keep && !s.lkr.loads.any (·.adapter == e.adapter) &&
    !s.lkr.waiting.any (·.adapter == e.adapter)

/-- The first loop of make_room: victims of the tenant itself until its cap holds. -/
def ownVictims (s : State) (keep t need : Nat) (cap : Option Nat) : Nat → Nat → List DirEntry → Option (List DirEntry)
  | 0, _, _ => none
  | n + 1, used, vs =>
    if cap.elim true (fun c => decide (used + need ≤ c)) then some vs
    else
      match bestVictim s (s.lkr.dir.filter (fun e =>
          evictable s keep e && e.tenant == t && !vs.any (·.adapter == e.adapter))) with
      | none => none
      | some v => ownVictims s keep t need cap n (used - v.pages.length) (vs ++ [v])

/-- The second loop of make_room: victims of any tenant above its guarantee until the pages and the entry are there. -/
def anyVictims (s : State) (keep need : Nat) (newEntry : Bool) : Nat → List DirEntry → Option (List DirEntry)
  | 0, _ => none
  | n + 1, vs =>
    let freed := (vs.map (·.pages.length)).sum
    let entries := s.lkr.dir.length - vs.length
    if need ≤ s.bullpenFree.length + freed ∧ (!newEntry ∨ entries < 4194304) then some vs
    else
      let left (u : Nat) : Nat := bullpenUsedBy s u - ((vs.filter (·.tenant == u)).map (·.pages.length)).sum
      match bestVictim s (s.lkr.dir.filter (fun e =>
          evictable s keep e && !vs.any (·.adapter == e.adapter) &&
          decide ((Tbl.getD s.lkr.quota (s.slotOfTenant e.tenant) (0, 0)).1 + e.pages.length ≤ left e.tenant))) with
      | none => none
      | some v => anyVictims s keep need newEntry n (vs ++ [v])

/-- An eviction (R248): the entry and its pages freed, counted, and LKR_EVICT written when enabled. -/
def evict (s : State) (e : DirEntry) : State :=
  let s := s.freePages e.pages
  let s := { s with lkr := { s.lkr with dir := s.lkr.dir.filter (fun x => x.adapter != e.adapter) } }
  let s := s.bump R.lkrEvictCount
  if s.regFld R.lkrCtl 0 1 = 1 then
    s.opEvent (eventRec 0x0063 e.loadCtx s.ts [(4, 4, 4, s.lockerFor (homeOf e.adapter)), (8, 0, 64, e.adapter)])
  else s

/-- make_room of R248: the state after the evictions and the pages reserved, or none, with nothing evicted. With
PARTITIONED set a tenant evicts only its own entries (R247). -/
def makeRoom (s : State) (t need : Nat) (newEntry : Bool) (keep : Nat) : Option (State × List Nat) :=
  let (lo, hi) := Tbl.getD s.lkr.quota (s.slotOfTenant t) (0, 0)
  let partitioned := s.regFld R.lkrCtl 1 1 = 1
  let cap := if partitioned then some lo else if hi = 0 then none else some hi
  match ownVictims s keep t need cap (s.lkr.dir.length + 1) (bullpenUsedBy s t) [] with
  | none => none
  | some vs =>
    match anyVictims s keep need newEntry (s.lkr.dir.length + 1) vs with
    | none => none
    | some vs =>
      if partitioned && vs.any (fun v => v.tenant != t) then none
      else
        let s := vs.foldl evict s
        some (s, s.bullpenFree.take need)

/-- Bullpen pages scrubbed and freed (R236, R250, R294). -/
def State.scrubFree (s : State) (ps : List Nat) : State := (s.zeroPages ps).freePages ps

/-- Bytes of an adapter's layer block, padded to 256 (R231). -/
def layerBlock (fmt plen dKv : Nat) : Nat := ceilDiv (2 * plen * kvRowBytes fmt dKv) 256 * 256

/-- Reads from a page list as one run of bytes: `n` bytes from offset `off` (requests of the Locker carry context 0). -/
def State.readPages (s : State) (ps : List Nat) (off n : Nat) : List Byte :=
  (linesOf off n).flatMap (fun l => (s.lineBytes (ps.getD (l / 1024) 0 * 1024 + l % 1024)).1)
    |>.drop (off % 64) |>.take n

/-- The first `n` lines of a page list. -/
def pageLines (ps : List Nat) (n : Nat) : List Nat := (List.range n).map (fun l => ps.getD (l / 1024) 0 * 1024 + l % 1024)

/-- The bytes of a page list that an adapter's home Locker reads, counted (R228, R588). -/
def State.countPages (s : State) (adapter : Nat) (ps : List Nat) (n : Nat) : State :=
  s.countLines 0 (pageLines ps (ceilDiv n 64)) { unit := s.lockerFor (homeOf adapter) }

/-- Bytes written to a page list from its start by an adapter's home Locker, whole lines, zero-padded. -/
def State.writePages (s : State) (adapter : Nat) (ps : List Nat) (data : List Byte) : State :=
  let ls := pageLines ps (ceilDiv data.length 64)
  let written := ls.zipIdx.foldl (fun s l =>
    let bs := (data.drop (64 * l.2)).take 64
    s.writeLine l.1 (bs ++ List.replicate (64 - bs.length) 0)) s
  written.countLines 1 ls { unit := s.lockerFor (homeOf adapter) }

end Sys2Proof.Machine
end

