-- ==== Sys2Proof/Machine/WorkOps.lean ====
section
/-! DEFINITION. Work on the array as shared operations: error records (chapter 16), charges (R359 to R362), the array
stop and the discard of running work (R119, R354, R355), practice records (R281 to R284, R296), revocation (R250) and
the destruction of a context (R468). -/
namespace Sys2Proof.Machine
open Sys2Proof

/-! Status codes (R463). -/
def stOk : Nat := 0x0000
def stZeroCount : Nat := 0x0001
def stRepeatedOk : Nat := 0x0010
def stDeferredMem : Nat := 0x0011
def stDeferredBudget : Nat := 0x0012
def stAbortedFence : Nat := 0x0100
def stRevoked : Nat := 0x0101
def stAdapterLost : Nat := 0x0102
def stKvLost : Nat := 0x0103
def stRetired : Nat := 0x0104
def stShardLost : Nat := 0x0105
def stBad : Nat := 0x0200
def stNotOwner : Nat := 0x0201
def stRotateBusy : Nat := 0x0202
def stCheckFailed : Nat := 0x0203
def stGroupFault : Nat := 0x0300

/-- The first multiple of 10 µs at or after an instant (R338). -/
def toQuantum (t : Nat) : Nat := ceilDiv t 10000 * 10000

/-! Error records (R567 to R570). -/

/-- The trace queue of the die of a unit (R578 kind 16, R568, R580). -/
def dieQueue (s : State) (kind unit : Nat) : Nat :=
  match kind with
  | 1 => unit / 32
  | 2 => unit / 8
  | 3 => unit / 16
  | 4 => unit / 32
  | 5 => unit / 8
  | 6 => unit / 8192
  | 7 => 20 + unit / 32
  | 8 => 20 + channelOf unit / 32
  | 9 => 18 + unit / 8
  | 10 => unit
  | 11 => 20 + unit
  | 12 => unit
  | 13 => 18 + unit / 4
  | 14 => unit
  | 15 => if unit < 2 then 18 + unit else if unit < 4 then 14 + unit else s.queueSched
  | _ => s.queueSched

/-- An error record: what a fault was, the work it discarded and how many things it ended. -/
structure FaultInfo where
  cls : Nat
  kind : Nat
  unit : Nat
  cause : Nat
  action : Nat
  discard : Bool := false
  ctx : Nat := 0
  step : Nat := 0
  count : Nat := 0
  detected : Nat
  affected : List Nat := []

/-- A record's 32 bytes for one receiver (R567). -/
def errorRec (f : FaultInfo) (receiver sq : Nat) : Rec32 :=
  eventRec 0x00E0 receiver f.detected [(4, 0, 3, f.cls), (4, 3, 5, f.kind), (4, 8, 4, f.cause), (4, 12, 3, f.action),
    (4, 15, 1, if f.discard then 1 else 0), (8, 0, 32, f.unit), (12, 0, 16, sq), (12, 16, 16, min f.count 0xFFFF),
    (16, 0, 64, f.step)]

/-- ERROR (R567, R569): the fault is numbered and counted, the operator's copy written now and each affected context's
copy at the slot end; a FAULT trace record goes to the die of the unit. -/
def State.fault (s : State) (f : FaultInfo) : State :=
  let sq := (s.regFld R.scbErrSeq 0 16 + 1) % 65536
  let s := s.setReg R.scbErrSeq (BitVec.ofNat 32 sq)
  let s := if 1 ≤ f.cls ∧ f.cls ≤ 5 then s.bump (R.scbErrCount f.cls) else s
  let s := s.opEvent (errorRec f f.ctx sq)
  let s := f.affected.foldl (fun s c => s.later (.context c) (errorRec f c sq) false) s
  s.trace (dieQueue s f.kind f.unit) 16 f.ctx sq

/-! Charges (R359 to R362). -/

/-- The accounting record of a context. -/
def State.acct (s : State) (c : Nat) : Acct := Tbl.getD s.ump.acct c .zero
/-- The state with an accounting record set. -/
def State.setAcct (s : State) (c : Nat) (a : Acct) : State :=
  { s with ump := { s.ump with acct := Tbl.set s.ump.acct c a } }

/-- Energy of counted events in fJ, classes 0 to 8 (R362). -/
def energyFj (s : State) (c : Charges) : Nat :=
  let k (i : Nat) : Nat := (s.regAt (keyOf R.umpEcoef i)).toNat
  k 0 * c.macs8 + k 1 * c.macs4 + k 2 * c.macs16 + k 3 * c.vecOps + k 4 * c.wsBytes + k 5 * c.sramBytes +
    k 6 * c.lpddrBytes + k 7 * c.mglTx + k 8 * c.mglRx

/-- Energy added in fJ: whole µJ are counted and the remainder carried (R362). -/
def Acct.addFj (a : Acct) (fj : Nat) : Acct :=
  let t := a.carryFj + fj
  { a with energyUj := wrap64 (a.energyUj + t / 1000000000), carryFj := t % 1000000000 }

/-- Charges added to a context's record; a sealed serve's are held back (R539). -/
def State.charge (s : State) (c : Nat) (ch : Charges) (slotNs practiceNs : Nat) (isSealed : Bool) : State :=
  let a := s.acct c
  if s.hides isSealed then
    s.setAcct c { a with heldSealed := a.heldSealed.add ch, heldSlotNs := a.heldSlotNs + slotNs }
  else
    let b : Acct := { a with
      charges := a.charges.add ch
      slotNs := wrap64 (a.slotNs + slotNs)
      practiceNs := wrap64 (a.practiceNs + practiceNs)
      dirty := true }
    s.setAcct c (b.addFj (energyFj s ch))

/-- Discarded time and work charged to context 0 (R359, R361). -/
def State.chargeDiscard (s : State) (ch : Charges) (ns : Nat) : State :=
  let s := s.charge 0 ch 0 0 false
  let a := s.acct 0
  s.setAcct 0 { a with discardNs := wrap64 (a.discardNs + ns) }

/-- A completed or repeated piece of work charged to its context: a slot of length `slotNs` for a serve, its run time for a
segment (R359). -/
def State.chargeWork (s : State) (w : Work) (slotNs until_ : Nat) : State :=
  match w.kind with
  | .serve | .probe => s.charge w.ctx w.charges slotNs 0 w.isSealed
  | .segment | .probeSegment => s.charge w.ctx w.charges 0 (until_ - w.start) false

/-- Static energy charged to context 0 up to now: the time in ACTIVE (R359, R362). -/
def State.chargeStatic (s : State) : State :=
  let ns := if s.pwr.state = .active then s.ts - s.ump.staticTs else 0
  let a := (s.acct 0).addFj ((s.regAt (keyOf R.umpEcoef 9)).toNat * ns)
  let s := if ns = 0 then s else s.setAcct 0 { a with dirty := true }
  { s with ump := { s.ump with staticTs := max s.ts s.ump.staticTs } }

/-! The accounting table (R360, R361). -/

/-- An accounting record as it lies in memory (R361). `held` fields are not shown. -/
def acctRecord (s : State) (c : Nat) (a : Acct) : List Byte :=
  let q := a.charges
  (bytesOf 4 a.seq ++ bytesOf 2 c ++ bytesOf 2 (if a.valid && (c == 0 || (s.ctx? c).isSome) then 1 else 0) ++
    [a.slotNs, a.practiceNs, q.cubeCyc, q.vecCyc, q.wsBytes, q.sramBytes, q.lpddrBytes, q.pcieBytes, q.mglTx, q.mglRx,
      a.energyUj].flatMap (bytesOf 8) ++
    bytesOf 4 a.serves ++ bytesOf 4 a.segments ++ bytesOf 8 (if c = 0 then a.discardNs else 0) ++ bytesOf 8 a.lastTs ++ bytesOf 8 0)

/-- Device address of the accounting table (R360). -/
def acctAddr (s : State) : Nat := s.winBase s.host.owner + 65536 * s.regFld R.umpAcctBase 16 16
/-- Are records written? -/
def acctOn (s : State) : Bool := s.regFld R.umpAcctBase 0 1 == 1
/-- A context's record written to the table. -/
def writeAcct (s : State) (c : Nat) : State :=
  if acctOn s then s.lpWrite 0 (acctAddr s + 128 * c) (acctRecord s c (Tbl.getD s.ump.acct c { Acct.zero with valid := false })) else s

/-! Stopping the array, what a tile sequencer records, and the restart of stopped tiles (R119, R120). -/

/-- The tiles in progress on a court. -/
def State.tilesOf (s : State) (court : Nat) : List Tile := Tbl.getD s.eng.tiles court []
/-- The tiles of the command being executed that have not started. -/
def State.todoOf (s : State) (court : Nat) : List Tile := Tbl.getD s.eng.todo court []

/-- The records of a court's four cubes. -/
def State.marksOf (s : State) (court : Nat) : List CubeMark := Tbl.getD s.eng.marks court (List.replicate 4 .start)

/-- A cube's record brought up to date: its first command with tiles left, or the sequencer's next one. -/
def newMark (s : State) (court cube : Nat) (m : CubeMark) : CubeMark :=
  let left := (s.tilesOf court ++ s.todoOf court).filter (fun t => t.cube == cube)
  let next := (Tbl.getD s.eng.courts court .start).pos - (if (Tbl.get? s.eng.pairs court).isSome then 1 else 0)
  let first := ((left.map (·.place)).min?).getD next
  if first = m.first then m else ⟨first, []⟩

/-- The records of a court's cubes brought up to date. -/
def State.remark (s : State) (court : Nat) : State :=
  { s with eng := { s.eng with
      marks := Tbl.set s.eng.marks court ((s.marksOf court).zipIdx.map (fun p => newMark s court p.2 p.1)) } }

/-- A tile noted as drained in its cube's record. -/
def State.markDrained (s : State) (court : Nat) (t : Tile) : State :=
  let note (p : CubeMark × Nat) : CubeMark :=
    if p.2 = t.cube ∧ p.1.first = t.place then ⟨p.1.first, p.1.drained ++ [(t.second, t.row, t.col)]⟩ else p.1
  { s with eng := { s.eng with marks := Tbl.set s.eng.marks court ((s.marksOf court).zipIdx.map note) } }

/-- Has a tile drained, as its cube's record says? It is not recomputed after a stop (R120). -/
def State.hasDrained (s : State) (court : Nat) (t : Tile) : Bool :=
  let m := (s.marksOf court).getD t.cube .start
  decide (t.place < m.first) || (decide (t.place = m.first) && m.drained.contains (t.second, t.row, t.col))


/-- Tiles in progress on the courts of a compute die. -/
def tilesOnDie (s : State) (die : Nat) : Nat :=
  ((s.eng.tiles.filter (fun p => p.1 / 8 == die)).map (fun p => p.2.length)).sum

/-- A stopped tile sequencer: its tiles are gone, and it stands at the first command that a cube's record names, from which
it resumes (R120). -/
def State.stopCourt (s : State) (court : Nat) : State :=
  let s := s.remark court
  let r := Tbl.getD s.eng.courts court .start
  let first := (((s.marksOf court).map (·.first)).min?).getD r.pos
  let back : EngineRun := if first < r.pos then { r with pos := first, wait := none, ended := false } else r
  { s with eng := { s.eng with
      courts := Tbl.set s.eng.courts court back, tiles := Tbl.erase s.eng.tiles court,
      todo := Tbl.erase s.eng.todo court, pairs := Tbl.erase s.eng.pairs court } }

/-- The array stopped: every tile in progress is discarded and counted, a TILE_STOP record written on each die that had
one (R119, R578, R588), and every tile sequencer stands where it would resume (R120). -/
def State.stopArray (s : State) (ctx : Nat) (isSealed : Bool) : State :=
  let one (s : State) (die : Nat) : State :=
    let n := tilesOnDie s die
    if n = 0 then s
    else ((s.bump R.crtStopCount n).trace die 12 ctx n isSealed).count die 0 7 n { ctx := ctx, isSealed := isSealed }
  let s := (List.range 16).foldl one s
  (s.eng.courts.map (·.1)).foldl State.stopCourt s

/-! Practice records (R281 to R284). -/

/-- Where the part regions of a state image start (R282). -/
def imageRegions (parts : Nat) : Nat := ceilDiv (64 + 16 * parts) 256 * 256
/-- Bytes of one part region, padded (R175, R282). -/
def regionBytes (mode n : Nat) : Nat := ceilDiv (stateBytes mode n) 256 * 256
/-- Bytes of a state image of n parameters in parts (R282). -/
def stateImageBytes (parts mode n : Nat) : Nat := imageRegions parts + parts * regionBytes mode (n / parts)
/-- Parameters of an adapter's prefix (R275). -/
def paramCount (layers plen dKv : Nat) : Nat := layers * 2 * plen * dKv

/-- A prefix payload's element of parameter index p, expanded exactly to FP32 (R279, R283). -/
def payloadElem (rd : Nat → Byte) (e : DirEntry) (p : Nat) : F32 :=
  let d := p % e.dKv
  let line := p / e.dKv
  let l := line / (2 * e.plen)
  let row := line % (2 * e.plen)
  expand32 rd ((Fmt.ofCode e.fmt).getD .bf16) 0 (l * layerBlock e.fmt e.plen e.dKv + row * kvRowBytes e.fmt e.dKv) d

/-- A new part region (R175, R283): masters from the parameters, everything else as a new region holds it. -/
def newRegion (mode first n : Nat) (param : Nat → F32) : List Byte :=
  let body := bytesOf 8 0 ++ bytesOf 4 one32.toNat ++ bytesOf 4 one32.toNat ++ bytesOf 8 (2 ^ 64 - 1) ++ bytesOf 4 n ++
    bytesOf 4 mode ++ (List.range n).flatMap (fun k => bytesOf 4 (param (first + k)).toNat)
  body ++ List.replicate (regionBytes mode n - body.length) 0

/-- A state image of new part regions (R282, R283). -/
def newStateImage (parts mode n : Nat) (param : Nat → F32) : List Byte :=
  let per := n / parts
  let head := bytesOf 4 parts ++ bytesOf 4 mode ++ bytesOf 8 n ++ List.replicate 48 (0 : Byte) ++
    (List.range parts).flatMap (fun i => bytesOf 8 (i * per) ++ bytesOf 4 per ++ bytesOf 4 0)
  head ++ List.replicate (imageRegions parts - head.length) 0 ++
    (List.range parts).flatMap (fun i => newRegion mode (i * per) per param)

/-- The master of parameter p in a state image (R175, R282). -/
def imageMaster (rd : Nat → Byte) (parts mode n p : Nat) : F32 :=
  let per := n / parts
  BitVec.ofNat 32 (readNat rd (masterAddr (imageRegions parts + p / per * regionBytes mode per) (p % per)) 4)

/-- A prefix payload converted from masters with RNE (R180, R284). -/
def payloadOf (e : DirEntry) (param : Nat → F32) : List Byte :=
  let f := (Fmt.ofCode e.fmt).getD .bf16
  let rb := kvRowBytes e.fmt e.dKv
  let row (i : Nat) : List (Nat × Byte) :=
    (writeRun f 0 (fun _ => .rne) 0 e.dKv 0 ((List.range e.dKv).map (fun d => param (i * e.dKv + d)))).1
  let block (l : Nat) : List Byte :=
    let rows := (List.range (2 * e.plen)).flatMap (fun q =>
      let cells : Memory := Memory.writeCells [] (row (l * 2 * e.plen + q))
      cells.readBytes 0 rb)
    rows ++ List.replicate (layerBlock e.fmt e.plen e.dKv - rows.length) 0
  (List.range e.layers).flatMap block

/-- Bytes of an adapter's Bullpen copy: header and payload. -/
def copyBytes (e : DirEntry) : Nat := 256 + e.layers * layerBlock e.fmt e.plen e.dKv

/-- The record of an adapter. -/
def State.record? (s : State) (id : Nat) : Option Record := s.lkr.records.find? (fun r => r.adapter == id)
/-- The state with a change of an adapter's record. -/
def State.modRecord (s : State) (id : Nat) (f : Record → Record) : State :=
  { s with lkr := { s.lkr with records := s.lkr.records.map (fun r => if r.adapter = id then f r else r) } }

/-- Both state images and the shadow rewritten from the live pages (R283). -/
def State.rewriteRecord (s : State) (id : Nat) : State :=
  match s.record? id, s.dirEntry id with
  | some r, some e =>
    let size := copyBytes e
    let live := s.readPages e.pages 0 size
    let n := paramCount e.layers e.plen e.dKv
    let image := newStateImage r.parts r.optMode n (payloadElem (fun i => live.getD (256 + i) 0) e)
    let s := (s.countPages id e.pages size).writePages id r.shadow live
    let s := s.writePages id r.state0 image
    let s := s.writePages id r.state1 image
    s.modRecord id (fun r => { r with current := 0 })
  | _, _ => s

/-- The record once its first commit has applied or is gone: the next one that waits is prepared. -/
def Record.nextCommit (r : Record) : Record :=
  match r.later with
  | [] => { r with commit := none }
  | no :: rest => { r with commit := some ⟨no, none⟩, later := rest }

/-- The record without the commit that a step asked for. -/
def Record.withoutCommit (no : Nat) (r : Record) : Record :=
  let r := { r with later := r.later.filter (· != no) }
  if r.commit.elim false (·.stepNo == no) then r.nextCommit else r

/-- PRACTICE_RESET or PRACTICE_COMMIT with its timestamp (R298). -/
def practiceEvent (s : State) (ts ty : Nat) (r : Record) (discarded : Bool) (stepNo : Nat) : Rec32 :=
  eventRec ty r.ctx ts [(4, 0, 1, if discarded then 1 else 0), (8, 0, 64, r.adapter),
    (16, 0, 32, (s.dirEntry r.adapter).elim 0 (·.version)), (20, 0, 32, stepNo)]

/-- PRACTICE_RESET (R296): a record reset to committed. -/
def State.resetRecord (s : State) (id : Nat) : State :=
  match s.record? id with
  | some r =>
    let s := s.rewriteRecord id
    s.ctxEvent r.ctx (practiceEvent s s.ts 0x0071 r false r.lastStep)
  | none => s

/-- A record's prepared commits discarded at an instant, with their events (R251, R296, R298). -/
def State.dropCommit (s : State) (id instant : Nat) : State :=
  match s.record? id with
  | some r =>
    ((r.commit.map (·.stepNo)).toList ++ r.later).foldl
      (fun s no => s.ctxEvent r.ctx (practiceEvent s instant 0x0070 r true no))
      (s.modRecord id (fun r => { r with commit := none, later := [] }))
  | none => s

/-- A record closed (R294, R296): its pages freed, scrubbed where asked, its pin released. -/
def State.closeRecord (s : State) (id : Nat) (scrub : Bool) : State :=
  match s.record? id with
  | some r =>
    let ps := r.shadow ++ r.spare ++ r.state0 ++ r.state1
    let s := (if scrub then s.zeroPages ps else s).freePages ps
    let s := { s with lkr := { s.lkr with records := s.lkr.records.filter (fun x => x.adapter != id) } }
    if r.pinned then s.unpin id else s
  | none => s

/-! Descriptors whose completion waits for the slot end (R29, R290). -/

/-- A completion that the next slot end writes, whichever function its context is of. -/
def State.atSlotEnd (s : State) (did status : Nat) (flags : Nat := 0) (extra : Nat := 0) (engine : Nat := 0) : State :=
  { s.begin did with host := { s.host with
      completions := s.host.completions ++ [⟨did, status, flags, extra, engine⟩],
      accepted := (s.begin did).host.accepted } }

/-- A ready serve gone. -/
def State.dropServe (s : State) (did : Nat) : State :=
  { s with ump := { s.ump with ready := s.ump.ready.filter (fun r => r.did != did) } }
/-- A practice step gone. -/
def State.dropStep (s : State) (did : Nat) : State :=
  { s with ump := { s.ump with steps := s.ump.steps.filter (fun p => p.did != did) } }

/-- The serve completion's opcode bytes (R330): serve number, stepped and deferred counts. -/
def serveExtra (no stepped deferred : Nat) : Nat := no + 2 ^ 64 * (stepped % 8192) + 2 ^ 77 * (deferred % 8192)

/-- What a serve took at its boundary given back (R325): joined requests are gone, refilled ones wait again, and crossing
requests return their new page. -/
def State.giveBack (s : State) (r : ReadyServe) : State :=
  let one (f : State → Request → State) (s : State) (id : Nat) : State := (s.req? r.ctx id).elim s (f s)
  let s := r.joins.foldl (one (fun s q => s.endRequest q none)) s
  let s := r.refills.foldl (one (fun s q =>
    (s.kvRelease q.pages false).modReq q.ctx q.reqId (fun x => { x with refill := true, pages := [] }))) s
  r.crossed.foldl (one (fun s q =>
    (s.kvRelease (q.pages.drop (q.pages.length - 1)) false).modReq q.ctx q.reqId (fun x => { x with pages := x.pages.dropLast }))) s

/-- A serve that ends without a result: its completion waits for the slot end, its requests stay as they were (R325). -/
def State.endServe (s : State) (r : ReadyServe) (status : Nat) : State :=
  ((s.giveBack r).dropServe r.did).atSlotEnd r.did status 0 (serveExtra r.serveNo 0 0)

/-- The segments of a step that have ended in this slot, discarded with it: charged to context 0 (R359), and neither their amax
nor their clamped counts are kept (R64, R72, R297). -/
def State.discardEnded (s : State) (did : Nat) : State :=
  let s := (s.ump.done.filter (fun w => w.did == did)).foldl
    (fun s w => s.chargeDiscard w.charges (w.ended.getD w.start - w.start)) s
  { s with ump := { s.ump with done := s.ump.done.filter (fun w => w.did != did) } }

/-- A practice step back at its first segment (R296, R612). -/
def PStep.restart (p : PStep) : PStep :=
  if p.segment = 0 then p
  else { p with segment := 0, reran := true, firstBank := none, satFlag := false, probed := [] }

/-- A step restarted: the segments that it has ended are discarded, and the commits that it asked for are withdrawn (R296). -/
def State.restartStep (s : State) (p : PStep) : State :=
  let s := p.adapters.foldl (fun s a => s.modRecord a (Record.withoutCommit p.no)) (s.discardEnded p.did)
  { s with ump := { s.ump with steps := s.ump.steps.map (fun x => if x.did = p.did then x.restart else x) } }

/-- Does a discard count toward the four of R552? -/
def DiscardCause.isFence : DiscardCause → Bool
  | .fence | .shard | .adapterLost => true
  | _ => false

/-- Does a stop leave the rest of the slot to other contexts (R355, R551)? -/
def DiscardCause.shuts : DiscardCause → Bool
  | .violation | .device | .group => false
  | _ => true

/-- A discarded serve (R341, R355, R498, R552): it stays ready and is repeated, or it completes at the slot end. -/
def State.serveDiscarded (s : State) (did : Nat) (cause : DiscardCause) : State :=
  match s.ump.ready.find? (fun r => r.did == did) with
  | none => s
  | some r =>
    let r : ReadyServe := { r with
      repeats := r.repeats + 1
      fenceDiscards := if cause.isFence then r.fenceDiscards + 1 else r.fenceDiscards
      overruns := if cause = .overrun then r.overruns + 1 else r.overruns }
    if cause = .violation then s.endServe r stBad
    else if cause = .teardown then s.dropServe did
    else if 2 ≤ r.overruns ∨ 4 ≤ r.fenceDiscards then s.endServe r stAbortedFence
    else { s with ump := { s.ump with ready := s.ump.ready.map (fun x => if x.did = did then r else x) } }

/-- A discarded segment (R296): it reruns with the same state in and seed; a violation of R498 ends its step. -/
def State.segmentDiscarded (s : State) (did : Nat) (cause : DiscardCause) : State :=
  match s.ump.steps.find? (fun p => p.did == did) with
  | none => s
  | some p =>
    if cause = .violation then (s.dropStep did).atSlotEnd did stBad 0 p.no
    else if cause = .teardown then s.dropStep did
    else { s with ump := { s.ump with steps := s.ump.steps.map (fun x => if x.did = did then { x with reran := true } else x) } }

/-- The group step of stopped work: its vote is FAIL (R355, R419), unless the member stopped it for its own vote, and counts the
NaNs met so far (R425). -/
def GroupStep.workStopped (w : Work) (cause : DiscardCause) (g : GroupStep) : GroupStep :=
  if g.hasWork && g.workId == w.did then
    { g with stopped := true, vote := { g.vote with
        fail := g.vote.fail || decide (cause ≠ .group), nanCount := min 0xFFFFFFFF (g.vote.nanCount + w.nans) } }
  else g

/-- Once the work that overran its slot has left the array, the slot ends at the next multiple of 10 µs (R341). -/
def State.endOverrun (s : State) : State :=
  if s.ump.overrun.isNone then s
  else { s with ump := { s.ump with slot := s.ump.slot.map (fun t => { t with slotEnd := max t.slotEnd (toQuantum s.ts) }) } }

/-- Floor banks of a port whose work has ended and whose credits are all back are free again (R384). -/
def MglPort.freeBanks (l : MglPort) (running : Option Nat) : MglPort :=
  { l with banks := l.banks.map (fun b =>
      if b.owner ≠ none ∧ b.owner ≠ running ∧ (b.used.map (·.2)).sum = 0 then ⟨none, []⟩ else b) }

/-- Floor banks of work that no longer runs (R384). -/
def State.freeBanks (s : State) : State :=
  { s with mgl := { s.mgl with ports := s.mgl.ports.map (fun p => (p.1, p.2.freeBanks (s.ump.work.map (·.did)))) } }

/-- The work on the array stopped and discarded (R355): the array stops, its charges and time go to context 0 (those of a
group step to its context, R359), the rest of the slot is shut to its context, its programs, semaphores and streams are
dropped, a group step's vote becomes FAIL (R419), and the serve or segment is settled. -/
def State.stopWork (s : State) (cause : DiscardCause) : State :=
  match s.ump.work with
  | none => s
  | some w =>
    let s := s.stopArray w.ctx w.isSealed
    let s := if cause = .group then s.chargeWork w (s.ump.slot.elim 0 (·.len)) s.ts
      else s.chargeDiscard w.charges (s.ts - w.start)
    let s := s.endOverrun
    let s := { s with
      ump := { s.ump with work := none, shut := if cause.shuts then w.ctx :: s.ump.shut else s.ump.shut },
      eng := .reset,
      wst := { s.wst with stream := none, fetches := [] },
      lkr := { s.lkr with gathers := [] },
      rdc := { s.rdc with
        chans := [],
        step := s.rdc.step.map (GroupStep.workStopped w cause) } }
    let s := s.freeBanks
    match w.kind with
    | .serve | .probe => s.serveDiscarded w.did cause
    | .segment | .probeSegment => s.segmentDiscarded w.did cause

/-- UMP_URGENT at the slot end (R364). -/
def State.urgent (s : State) (cause : DiscardCause) (code : Nat) : State :=
  match s.ump.work with
  | none => s
  | some w =>
    let s := s.bump R.umpUrgentCount
    let s := s.count s.queueSched 9 5 1 { unit := 1, ctx := w.ctx, isSealed := w.isSealed }
    let s := s.later .operator (eventRec 0x0093 w.ctx 0 [(4, 6, 4, s.ump.stretch), (4, 10, 2, code), (8, 0, 64, w.stepNo)])
    s.stopWork cause

/-! Revocation (R250) and abandoned loads (R236). -/

/-- A load in flight stopped: its pages scrubbed and freed, with the entry for a first load. -/
def State.abandonLoad (s : State) (id : Nat) : State :=
  match s.lkr.loads.find? (fun l => l.adapter == id) with
  | none => s
  | some l =>
    let s := s.scrubFree l.pages
    let s := { s with lkr := { s.lkr with loads := s.lkr.loads.filter (fun x => x.adapter != id) } }
    if l.higher then s else { s with lkr := { s.lkr with dir := s.lkr.dir.filter (fun x => x.adapter != id) } }

/-- A loaded higher version that waits for its boundary discarded (R237). -/
def State.dropWaiting (s : State) (id : Nat) : State :=
  match s.lkr.waiting.find? (fun w => w.adapter == id) with
  | none => s
  | some w =>
    { (s.scrubFree w.pages) with lkr := { s.lkr with waiting := s.lkr.waiting.filter (fun x => x.adapter != id) } }

/-- An entry set to REVOKING (R250): a first load or a higher-version load stops with ADAPTER_REVOKED, and a waiting
version is discarded. The pages of a higher version are scrubbed and freed now, those of the entry at its boundary. -/
def State.revokeEntry (s : State) (id : Nat) : State :=
  let s := s.dropWaiting id
  let s := match s.lkr.loads.find? (fun l => l.adapter == id) with
    | some l =>
      let s := if l.higher then s.abandonLoad id
        else { s with lkr := { s.lkr with loads := s.lkr.loads.filter (fun x => x.adapter != id) } }
      s.finish l.did stRevoked
    | none => s
  s.modDir id (fun e => { e with st := .revoking })

/-- The entries of a tenant that a revocation names (R250): one, or all of them. -/
def revoked (s : State) (tenant id : Nat) (all : Bool) : List Nat :=
  (s.lkr.dir.filter (fun e => e.tenant == tenant && (all || e.adapter == id))).map (·.adapter)

/-- A revocation (R250); its descriptor, when it has one, completes when the last named entry is FREE, at once when no
entry is named. -/
def State.revoke (s : State) (tenant id : Nat) (all : Bool) (did : Option Nat) : State :=
  let ids := revoked s tenant id all
  let s := ids.foldl State.revokeEntry s
  let left := ids.filter (fun i => (s.dirEntry i).isSome)
  if left.isEmpty then
    match did with
    | some d => s.finish d stOk
    | none => s
  else { s with lkr := { s.lkr with revocations := s.lkr.revocations ++ [⟨did, left, s.ts⟩] } }

/-! Destruction of a context (R468). -/

/-- The context-memory pages of a context (R500). -/
def ctxMemory (s : State) (c : Nat) : List Nat :=
  (s.mem.ctxPages.filter (fun p => p.2 == c)).map (·.1)

/-- A page set released: scrubbed by SCRUB_PAGE_DONE steps, then UNASSIGNED (R500). -/
def State.releaseMemory (s : State) (ps : List Nat) (c : Nat) (event : Bool) : State :=
  if ps.isEmpty then s
  else { s with mem := { s.mem with
    scrubs := s.mem.scrubs ++ [⟨ps, ps, ps.headD 0, ps.length, c, true, event⟩] } }

/-- A context's rings gone, and its accounting record no longer valid (R468, R361). -/
def State.forgetCtx (s : State) (c : Nat) : State :=
  let s : State := { s with
    host := { s.host with
      contexts := Tbl.erase s.host.contexts c,
      completions := s.host.completions.filter (fun p => (s.acc? p.did).isSome) },
    ump := { s.ump with
      acct := Tbl.modify s.ump.acct c (fun a => { a with valid := false, seq := wrap32 (a.seq + 2) }),
      ready := s.ump.ready.filter (fun r => r.ctx != c),
      done := s.ump.done.filter (fun w => w.ctx != c),
      steps := s.ump.steps.filter (fun p => p.ctx != c) },
    scb := { s.scb with csets := s.scb.csets.filter (fun p => p.2.ctx != c) },
    mem := { s.mem with ctxKeys := Tbl.erase s.mem.ctxKeys c } }
  writeAcct s c

/-- The counter sets bound to a context unbound (R592). -/
def State.unbindSets (s : State) (c : Nat) : State :=
  (s.scb.csets.filter (fun p => p.2.ctx == c)).foldl (fun s p => s.setFld (keyOf R.pmuCsetCtx p.1) 31 1 0) s

/-- The configuration registers of a context and its rings back at reset. -/
def State.clearCtxRegs (s : State) (c : Nat) (p : Port) : State :=
  let s := s.setReg (portKey p (keyOf R.hubCtxCfg c)) 0
  let s := s.setReg (portKey p (keyOf R.hubCtxSession c)) 0
  let keys := (List.range 16).flatMap (fun r => (List.range 6).map (fun w =>
    portKey p (keyOf (R.hubRingCfg w) (c * 65536 + r))))
  keys.foldl (fun s k => s.setReg k 0) s

/-- A context that will be destroyed at the next serve boundary by a reset of its function (R354, R468, R606): its
running work is stopped now, its rings cease now, and its prepared commits are discarded (R296). -/
def State.tearDown (s : State) (c : Nat) : State :=
  let s := if (s.ump.work.map (·.ctx)) = some c then s.urgent .teardown 2 else s
  let s := (s.host.accepted.filter (fun a => a.ctx == c)).foldl State.drop s
  let s := (s.lkr.records.filter (fun r => r.ctx == c)).foldl
    (fun s r => s.modRecord r.adapter (fun r => { r with commit := none, later := [] })) s
  s.modCtx c (fun x => { x with rings := [], tearDown := some s.ts })

/-- CONTEXT_DESTROY (R468): running work stopped, descriptors and loads dropped, requests and records ended without
events, memory released, rings and outer-scale slots gone. A set-up context that was torn down keeps the rings its function has
configured since (R466). -/
def State.destroyCtx (s : State) (c : Nat) : State :=
  match s.ctx? c with
  | none => s
  | some x =>
    let s := if (s.ump.work.map (·.ctx)) = some c then s.urgent .teardown 2 else s
    let s := (s.lkr.loads.filter (fun l => l.ctx == c)).foldl (fun s l => s.abandonLoad l.adapter) s
    let s := (s.host.accepted.filter (fun a => a.ctx == c)).foldl State.drop s
    let s := (s.ump.requests.filter (fun q => q.ctx == c)).foldl (fun s q => s.endRequest q none) s
    let s := (s.lkr.records.filter (fun r => r.ctx == c)).foldl (fun s r => s.closeRecord r.adapter false) s
    let s := s.releaseMemory (ctxMemory s c) c false
    let s := s.unbindSets c
    let s := s.clearCtxRegs c x.port
    let s := s.forgetCtx c
    if c ≤ 128 ∧ x.tearDown.isSome ∧ x.rings ≠ [] then s.setCtx c ⟨x.port, x.func, 0, 0, x.rings, [], 0, none⟩ else s

end Sys2Proof.Machine
end

