-- ==== Sys2Proof/Machine/ResetOps.lean ====
section
/-! DEFINITION. What the resets share: measurement registers (R525), device faults (R565), the state a cold and a warm
reset leave (R605, R608, R507, R524), and the reset of a port or a function (R606). -/
namespace Sys2Proof.Machine
open Sys2Proof

/-- A measurement register extended by the digest of an event (R525). -/
def State.extendMr (s : State) (i : Nat) (event : Digest) : State :=
  let old := Tbl.getD s.ref.mrs i 0
  { s with ref := { s.ref with
      mrs := Tbl.set s.ref.mrs i (sha384 (bytesOf 48 old.toNat ++ bytesOf 48 event.toNat)) } }

/-- A measurement register extended by the digest of an event's bytes (R525). -/
def State.extendMrBytes (s : State) (i : Nat) (event : List Byte) : State := s.extendMr i (sha384 event)

/-- The value of a measurement register. -/
def State.mr (s : State) (i : Nat) : Digest := Tbl.getD s.ref.mrs i 0

/-! The device's identity (R520, R521, R528). -/

/-- A P-384 SubjectPublicKeyInfo of a public key, as RFC 5480 encodes it. -/
def spki (key : List Byte) : List Byte := beBytes 24 0x3076301006072A8648CE3D020106052B8104002203620004 ++ key

/-- SHA-384 of the DevID SubjectPublicKeyInfo (R520). -/
def devIdHash : Digest := sha384 (spki (p384Public Config.devIdKey))

/-- CDI = HMAC-SHA-384(UDS, MR1) (R521). -/
def State.cdi (s : State) : List Byte := hmacSha384 (bytesOf 48 Config.uds.toNat) (bytesOf 48 (s.mr 1).toNat)

/-- A signature under the alias key, with a nonce of the random generator (R519, R521, R528). -/
def State.signed (s : State) (msg : List Byte) : List Byte × State :=
  (ecdsaSign (Config.aliasKey s.cdi) (s.freeVal 384).toNat msg, s.freed)

/-- The alias certificate: the alias public key and the SHA-384 of MR1, signed by the DevID key (R520, R521). -/
def State.newAliasCert (s : State) : List Byte :=
  let tbs := Config.aliasTbs (p384Public (Config.aliasKey s.cdi)) (sha384Bytes (bytesOf 48 (s.mr 1).toNat))
  Config.certificate tbs (ecdsaSign Config.devIdKey (s.freeVal 384).toNat tbs)

/-- The certificate chain of SPDM slot 0, from the root certificate to the alias certificate (R520). -/
def State.certChain (s : State) : List Byte := Config.issuedChain ++ s.ref.aliasCert

/-- Is a slot's tenant present (R536): the slot holds a storage key or a page key? -/
def RefSlot.present (r : RefSlot) : Bool := r.pkey || decide (r.skey0.1 ≠ 0) || decide (r.skey1.1 ≠ 0)

/-- Do all present tenants agree? -/
def State.allPresent (s : State) (ok : RefSlot → Bool) : Bool := s.ref.slots.all (fun p => !p.2.present || ok p.2)

/-- Profiling starts or ends (R525, R537); REQ then reads 1 or 0. DESIGN CHOICE (assumption 206). -/
def State.setProfiling (s : State) (on : Bool) : State :=
  let s := s.extendMrBytes 9 (bytesOf 1 (if on then 1 else 0) ++ bytesOf 8 s.ts)
  { (s.setFld R.refProfCtl 0 1 (if on then 1 else 0)) with ref := { s.ref with profiling := on } }

/-- What MR6 measures of a bank: IMAGE_ID, ROOT, bank (R525). -/
def bankMeasure (b : Nat) (r : BankRec) : List Byte := bytesOf 8 r.imageId ++ bytesOf 48 r.root.toNat ++ bytesOf 1 b

/-- The online courts of a compute die, counted (R124). -/
def State.courtCount (s : State) (die : Nat) : Nat :=
  ((List.range 8).filter (fun i => bitAt (s.regAt (R.crtCourtOnline (die / 4))).toNat (die % 4 * 8 + i))).length

/-- c of R352: the smallest number of online courts of a compute die that has one. -/
def State.courtsLeast (s : State) : Nat :=
  ((((List.range 16).map s.courtCount).filter (fun n => decide (n ≠ 0))).min?).getD 8

/-- CRT_CAP as the online courts have it (R123). -/
def State.setCap (s : State) : State :=
  let n := ((List.range 16).map s.courtCount).sum
  (s.setFld R.crtCap 8 8 n).setFld R.crtCap 16 10 (4 * n)

/-- Is a descriptor a SERVE (R461)? -/
def Accepted.isServe (a : Accepted) : Bool := fld a.desc 0 0 8 == 0x20

/-- Can the hub of a port still write after a device fault (R565)? Not one that failed itself, unless its firmware alone did. -/
def hubWrites (f : FaultInfo) (p : Port) : Bool := !(f.kind == 15 && f.unit == 2 + p.num && f.cause != 8)

/-- DEVICE_FAULT (R565): the running work stops; each hub that can still write completes its port's accepted SERVEs with
ABORTED_FENCE, and the DEVICE record is written. Segments of the slot that have ended complete nothing. -/
def State.deviceFails (s : State) (f : FaultInfo) : State :=
  let s := s.urgent .device 2
  let s := { s with err := { s.err with deviceFault := true } }
  let reached (a : Accepted) : Bool := hubWrites f ((s.ctx? a.ctx).elim Port.a (·.port))
  let dids := (s.host.accepted.filter (fun a => a.isServe && reached a)).map (·.did)
  let s := { s with
    ump := { s.ump with ready := [], done := [] }
    host := { s.host with completions := s.host.completions.filter (fun p => !dids.contains p.did) } }
  let s := dids.foldl (fun s d => s.complete d stAbortedFence) s
  if hubWrites f s.host.owner then s.fault f else s.bump (R.scbErrCount f.cls)

/-- What a flash operation that a reset cuts off leaves: the bytes it was writing are free values (R647). -/
def abandonFlash (s : State) : State :=
  match s.pwr.flashOp with
  | none => s
  | some o =>
    let (base, n) := match o.op with
      | 1 => (o.addr, 64)
      | 2 => (o.addr / 4096 * 4096, 4096)
      | _ => (0, 0)
    { s with
      freeCtr := s.freeCtr + n
      pwr := { s.pwr with
        flashOp := none
        flash := s.pwr.flash.writeBytes base ((List.range n).map (fun i => Config.freeValue 8 (s.freeCtr + i))) } }

/-- The weight-store metadata after any reset (R199, R608): a running load leaves its bank FAILED, and a bank that was
draining is READY. -/
def resetBank (load : Option WsLoad) (b : Nat) (r : BankRec) : BankRec :=
  match r.st with
  | .writing => if load.elim true (fun l => l.target = b ∨ l.manifest.elim false (·.full)) then { r with st := .failed } else r
  | .draining => { r with st := .ready }
  | _ => r

/-- The weight store after any reset. -/
def resetWst (w : WstState) : WstState :=
  { WstState.reset with
    bank0 := resetBank w.load 0 w.bank0
    bank1 := resetBank w.load 1 w.bank1
    blockMap := w.blockMap
    epoch := w.epoch }

/-- WST_CTL.ACTIVE_BANK as the bank records have it (R220). -/
def activeCode (w : WstState) : Nat :=
  match decide (w.bank0.st = .active), decide (w.bank1.st = .active) with
  | true, true => 2
  | true, false => 0
  | false, true => 1
  | false, false => 3

/-- What every reset of the device keeps of bring-up: the pins, the readings, the flash, the fuses. -/
def resetPwr (p : PwrState) (phase : BootPhase) (warm : Bool) : PwrState :=
  { PwrState.reset with
    phase := phase, warmBoot := warm, v48 := p.v48, powerGood := p.powerGood, pwrEn := p.pwrEn, sysRstN := p.sysRstN,
    tck := p.tck, trip := p.trip, flashSel := p.flashSel, sensors := p.sensors, rails := p.rails, railsUp := if p.railsUp.isEmpty then [] else List.range 9,
    mv48 := p.mv48, amps := p.amps, flash := p.flash, fusedSvn := p.fusedSvn }

/-- The registers that a cold reset does not restore: the latched straps (R597) and the rail faults, which are kept
until a write of 1 (R637). -/
def coldRegs (s : State) : Tbl Word :=
  regsSet (regsSet [] R.rstStraps (s.regAt R.rstStraps)) R.bmcRailFault (s.regAt R.bmcRailFault)

/-- A port's own state after a reset of the device; its lines and its link are outside it. -/
def resetPort (p : PortState) : PortState := { PortState.reset with perst := p.perst, linkUp := p.linkUp }

/-- The state a cold reset leaves (R608): everything of the Cold column. -/
def State.coldState (s : State) (cause : Nat) (phase : BootPhase) : State :=
  let s := abandonFlash s
  let regs := coldRegs s
  let cold : State := { State.reset with
    pending := s.pending
    freeCtr := s.freeCtr
    regs := regs
    host := { HostState.reset with
      out := s.host.out, nextDid := s.host.nextDid, portA := resetPort s.host.portA, portB := resetPort s.host.portB }
    mem := { MemState.reset with
      cells := s.mem.cells.filter (fun c => outlives c.1), lines := s.mem.lines, nextKey := s.mem.nextKey }
    pwr := resetPwr s.pwr phase false
    wst := resetWst s.wst }
  (cold.setReg R.rstCause (BitVec.ofNat 32 cause)).setFld R.wstCtl 0 2 (activeCode cold.wst)

/-- A register after a warm reset: its bits marked (C) are kept, the rest is at the reset value (R608). -/
def warmReg (key : Nat) (v : Word) : Word :=
  let cold := (regRow key).elim 0 RegRow.cold
  (v &&& BitVec.ofNat 32 cold) ||| (regReset key &&& ~~~BitVec.ofNat 32 cold)

/-- The registers after a warm reset, in canonical form. -/
def warmRegs (t : Tbl Word) : Tbl Word :=
  t.filterMap (fun p => if warmReg p.1 p.2 = regReset p.1 then none else some (p.1, warmReg p.1 p.2))

/-- The key slots after a warm reset (R507): a pass that had started finds no page and completes. -/
def warmSlot (sweeps : List Sweep) (p : Nat × KeySlot) : Nat × KeySlot :=
  if sweeps.any (fun w => w.slot == p.1) then
    (p.1, if p.2.cur = 0 then { p.2 with oldLive := false, key1 := 0 } else { p.2 with oldLive := false, key0 := 0 })
  else p

/-- The state a warm reset leaves after its quiesce (R605, R608, R507). What R524 decides about keys and sessions is
settled at boot step 6. -/
def State.warmState (s : State) (cause : Nat) : State :=
  let s := abandonFlash s
  let back (p : PortState) : PortState :=
    { resetPort p with flags := (p.giveBack (p.flags.map (·.1))).flags }
  let warm : State := { State.reset with
    pending := s.pending
    ts := s.ts
    freeCtr := s.freeCtr
    regs := warmRegs s.regs
    host := { HostState.reset with
      out := s.host.out, nextDid := s.host.nextDid, portA := back s.host.portA, portB := back s.host.portB
      latches := s.host.latches.filter (fun p => p.1 == R.rstMgmtSeqHi) }
    mem := { MemState.reset with
      cells := s.mem.cells.filter (fun c => outlives c.1), lines := s.mem.lines
      keySlots := s.mem.keySlots.map (warmSlot s.mem.sweeps)
      bad := s.mem.bad, offline := s.mem.offline, deviceKey := s.mem.deviceKey, nextKey := s.mem.nextKey }
    ref := { s.ref with
      spdm := [], connA := .reset, connB := .reset, nonce := none, groupList := [], controllerRank := 0
      profiling := false, aliasKey := false, aliasCert := [], fusePort := true
      sessions := (s.ref.sessions.filter (fun p => decide (p.2.st ≠ .binding) && decide (p.2.st ≠ .closed))).map (fun p =>
        (p.1, { p.2 with st := .suspended })) }
    pwr := { resetPwr s.pwr .booting true with mgmtSeq := s.pwr.mgmtSeq, bootStart := s.ts, vfTs := s.ts }
    scb := { ScbState.reset with since := s.ts, lastSample := s.ts }
    wst := resetWst s.wst }
  let n := min 255 (wordFld (s.regAt R.rstCause) 8 8 + 1)
  (warm.setReg R.rstCause (BitVec.ofNat 32 (n * 256 + cause))).setFld R.wstCtl 0 2 (activeCode warm.wst)

/-- A reset starts the boot sequence of R521 at step 1: the measurement registers start at zero, and a cold boot
starts the timestamp (R600, R525). -/
def State.startBoot (s : State) : State :=
  let s := { s with
    ts := if s.pwr.warmBoot then s.ts else 0
    ref := { s.ref with mrs := [] }
    pwr := { s.pwr with phase := .booting, bootStart := if s.pwr.warmBoot then s.ts else 0, goReceived := false } }
  s.setFld R.clkStatus 4 2 (s.regFld R.rstStraps 2 2)

/-- WARM_RESET (R605, R607): nothing while the rails are down or the device is in cold reset; a warm boot restarts at
step 1; a cold boot is not left for a warm one. -/
def State.warmReset (s : State) (cause : Nat) : State :=
  match s.pwr.phase with
  | .off | .coldReset => s
  | .booting => if s.pwr.warmBoot then (s.warmState cause).startBoot else s
  | .running | .failed => (s.warmState cause).startBoot

/-- A cold reset that the device leaves at once, its boot starting when SYS_RST_N is high (R604, R607). -/
def State.coldReset (s : State) (cause : Nat) : State :=
  match s.pwr.phase with
  | .off => s
  | _ =>
    let s := s.coldState cause .coldReset
    if s.pwr.sysRstN && !s.pwr.trip && s.pwr.powerGood then s.startBoot else s

/-! Port and function resets (R606, R473). -/

/-- Window flags after a reset (R608): the device-owned slots of a part of the window return with GEN raised, those of
the applied accounting table apart (R360). -/
def returnFlags (s : State) (p : Port) (pick : Nat → Bool) : State :=
  let acct := s.regAt R.umpAcctBase
  let table (i : Nat) : Bool :=
    decide (p = s.host.owner) && decide (wordFld acct 0 1 = 1) && decide (wordFld acct 16 16 ≤ i) && decide (i < wordFld acct 16 16 + 8)
  s.modPort p (fun q => q.giveBack ((q.flags.map (·.1)).filter (fun i => pick i && !table i)))

/-- The window slots of a function's part of the window (R445). -/
def slotOfFunc (func i : Nat) : Bool := inRange (funcBase func, funcBytes func) (65536 * i)

/-- The registers of a port's HUB_ and HDL_ blocks and of its VFs' BAR0 back at reset, (C) bits apart (R15, R608).
HUB_OWNER.OWNER, which a port reset leaves as it is, is `HostState.owner` and no bit of these. -/
def resetPortRegs (s : State) (p : Port) : State :=
  let mine (key : Nat) : Bool :=
    (decide (key % idxKeys / portBKeys = p.num) && decide (key % portBKeys < 0x2_0000)) ||
      (decide (key % idxKeys = R.pwrVfStatus) && decide (key / idxKeys / 64 = p.num))
  { s with regs := s.regs.filterMap (fun x =>
      if !mine x.1 then some x
      else if warmReg x.1 x.2 = regReset x.1 then none else some (x.1, warmReg x.1 x.2)) }

/-- The contexts of a port's functions, set-up contexts included. -/
def contextsOf (s : State) (p : Port) (pick : Nat → Bool) : List Nat :=
  (s.host.contexts.filter (fun c => c.2.port = p && pick c.2.func)).map (·.1)

/-- A port reset (R606): its contexts end, its bank, latches, functions and registers return to their defaults. -/
def State.portReset (s : State) (p : Port) : State :=
  let s := (contextsOf s p (fun _ => true)).foldl State.tearDown s
  let s := returnFlags s p (fun _ => true)
  let s := s.modPort p (fun q => { q with vfs := 0, bank := .reset, latches := [], opLost := 0, functions := [] })
  let s := resetPortRegs s p
  { s with ref := if p = .a then { s.ref with connA := .reset } else { s.ref with connB := .reset } }

/-- A function-level reset of a VF (R606); the registers of its BAR0 return to reset (R15, R479, R621). -/
def State.vfReset (s : State) (p : Port) (func : Nat) : State :=
  let s := (contextsOf s p (· == func)).foldl State.tearDown s
  let keys := vfStatusKey p func :: portKey p (keyOf R.hubMbxSel func) ::
    [2 * func, 2 * func + 1].flatMap (fun i => (List.range 6).map (fun w => portKey p (keyOf (R.hubMbxCfg w) i)))
  let s := keys.foldl (fun s k => s.setReg k 0) s
  let s := s.modPort p (fun q => { q with functions := Tbl.erase q.functions func })
  returnFlags s p (slotOfFunc func)

end Sys2Proof.Machine
end

