-- ==== Sys2Proof/Machine/LinkOps.lean ====
section
/-! DEFINITION. Mirgarlink as shared operations (chapter 11): ports, packets and their bytes, frames, credits, routing,
drops, and ports that fall. -/
namespace Sys2Proof.Machine
open Sys2Proof

/-- A port of the link. -/
def State.link (s : State) (p : Nat) : MglPort := Tbl.getD s.mgl.ports p .down
/-- The state with a port set. -/
def State.setLink (s : State) (p : Nat) (l : MglPort) : State :=
  { s with mgl := { s.mgl with ports := Tbl.set s.mgl.ports p l } }
/-- MGL_PORT_CFG.EN of a port. -/
def State.linkEn (s : State) (p : Nat) : Bool := bitAt (s.regAt R.mglPortCfg).toNat p
/-- MGL_PORT_CFG.ENC of a port. -/
def State.linkEnc (s : State) (p : Nat) : Bool := bitAt (s.regAt R.mglPortCfg).toNat (16 + p)
/-- This device's rank (R385). -/
def State.rank (s : State) : Nat := s.regFld R.mglCtl 0 12
/-- MGL_CTL.FLOOR. -/
def State.floorFlits (s : State) : Nat := s.regFld R.mglCtl 24 8
/-- A routing table entry (R385, R397). -/
def State.route (s : State) (dst : Nat) : Nat := s.regFld (keyOf R.mglRtData dst) 0 5
/-- The trace queue and counter block of the XD die of a port (R371, R580). -/
def queueXd (p : Nat) : Nat := if p < 8 then 18 else 19

/-! Packets and flits (R375, R378). -/

/-- Flits of a packet: the header flit and what the payload needs beyond its 48 bytes. -/
def Packet.flits (k : Packet) : Nat := ceilDiv (16 + k.len) 64

/-- A packet as bytes, whole flits (R378). -/
def Packet.bytes (k : Packet) : List Byte :=
  let head := layout 128 [(0, 0, 12, k.dst), (0, 12, 12, k.src), (0, 24, 4, k.vc), (0, 28, 4, k.hops), (4, 0, 7, k.ch),
    (4, 8, 8, k.ty), (4, 16, 13, k.len), (8, 0, 32, k.tsLo), (12, 0, 32, k.seq)]
  let body := bytesOf 16 head.toNat ++ k.data.take k.len
  body ++ List.replicate (64 * k.flits - body.length) 0

/-- The packet whose header flit starts a run of bytes (R378). -/
def packetOf (bs : List Byte) : Packet :=
  let h := ofBytes (bs.take 16)
  let len := bitsOf h 48 13
  { dst := bitsOf h 0 12, src := bitsOf h 12 12, vc := bitsOf h 24 4, hops := bitsOf h 28 4, ch := bitsOf h 32 7,
    ty := bitsOf h 40 8, len := len, tsLo := bitsOf h 64 32, seq := bitsOf h 96 32,
    reserved := bitsOf h 39 1 + 2 * bitsOf h 61 3, data := (bs.drop 16).take len }

/-- The packets that a run of flits carries, and the flits of a packet that the next frame continues; idle flits are
skipped (R375, R379). `n` bounds the flits. -/
def parseFlits : Nat → List Byte → List Packet × List Byte
  | 0, bs => ([], bs)
  | n + 1, bs =>
    if bs.length < 64 then ([], bs)
    else
      let k := packetOf bs
      if k.ty = 0 then parseFlits n (bs.drop 64)
      else if bs.length < 64 * k.flits then ([], bs)
      else
        let (ps, rest) := parseFlits n (bs.drop (64 * k.flits))
        (k :: ps, rest)

/-- One bit of CRC-64 (ECMA-182), most significant bit first. -/
def crc64Bit (crc : Nat) (b : Bool) : Nat :=
  let top := crc.testBit 63
  let sh := wrap64 (2 * crc)
  if top != b then sh ^^^ 0x42F0E1EBA9EA3693 else sh

/-- CRC-64 of a byte string (R375). -/
def crc64 (bs : List Byte) : Nat :=
  bs.foldl (fun crc b => (List.range 8).foldl (fun c i => crc64Bit c (b.getLsbD (7 - i))) crc) 0

/-- Bytes 0 to 15 of a frame flit (R375). -/
def frameAad (seq epoch : Nat) (enc : Bool) : List Byte :=
  bytesOf 8 seq ++ bytesOf 8 (epoch % 2 + if enc then 2 else 0)

/-- The session key of a key slot and a direction as bytes. -/
def frameKey (keys : Tbl (BitVec 256)) (epoch dir : Nat) : List Byte := bytesOf 32 (Tbl.getD keys (2 * epoch + dir) 0).toNat

/-- The 96-bit nonce of a frame: its number, and the word of port and direction (R393). -/
def frameNonce (port dir seq : Nat) : List Byte := bytesOf 8 seq ++ bytesOf 4 (port + 16 * dir)

/-- The TAG and the flits of a frame as the link carries them (R375, R393): AES-256-GCM, or the CRC-64 with the flits in clear. -/
def frameSeal (keys : Tbl (BitVec 256)) (port dir seq epoch : Nat) (enc : Bool) (flits : List Byte) : BitVec 128 × List Byte :=
  if enc then
    let (ct, tag) := gcmEncrypt (frameKey keys epoch dir) (frameNonce port dir seq) (frameAad seq epoch enc) flits
    (BitVec.ofNat 128 (ofBytes tag), ct)
  else (BitVec.ofNat 128 (crc64 flits), flits)

/-- The flits of a frame from what the link carried; none where the tag or the CRC-64 does not verify (R376, R393). -/
def frameOpen (keys : Tbl (BitVec 256)) (port dir seq epoch : Nat) (enc : Bool) (tag : BitVec 128) (wire : List Byte) :
    Option (List Byte) :=
  if enc then
    gcmDecrypt (frameKey keys epoch dir) (frameNonce port dir seq) (frameAad seq epoch enc) wire (bytesOf 16 tag.toNat)
  else if tag = BitVec.ofNat 128 (crc64 wire) then some wire else none

/-- A frame of 1,023 flits sent once the open one is full (R375), under the newest session's key (R393): kept for replay, counted
under its key. -/
def State.closeFrames (s : State) (p : Nat) : State :=
  let l := s.link p
  let n := 64 * 1023
  if l.txOpen.length < n then s
  else
    let flits := l.txOpen.take n
    let (tag, wire) := frameSeal l.keys p 0 l.txSeq l.newSlot l.secure flits
    let kept := (l.replay ++ [⟨l.txSeq, l.newSlot, flits⟩])
    let s := s.setLink p { l with
      txOpen := l.txOpen.drop n
      txSeq := l.txSeq + 1
      keyEpochTx := l.newSlot
      txFrames := if l.keyEpochTx = l.newSlot then l.txFrames + 1 else 1
      replay := kept.drop (kept.length - 32) }
    s.emit (.frame p l.txSeq l.newSlot l.secure tag wire)

/-! Drops (R379, R395). -/

/-- A packet dropped: counted, and noted for the MGL_DROP event of the slot. -/
def State.dropPacket (s : State) (port dst reason : Nat) : State :=
  let s := s.bump R.mglDrop
  let s := s.count (queueXd port) 7 3 1 { unit := port % 8 }
  { s with mgl := { s.mgl with drops := some (match s.mgl.drops with
      | some d => { d with count := d.count + 1 }
      | none => ⟨1, dst, port, reason⟩) } }

/-- MGL_DROP at the slot end (R395). -/
def State.reportDrops (s : State) : State :=
  match s.mgl.drops with
  | none => s
  | some d =>
    let s := s.opEvent (eventRec 0x00A1 0 s.ts [(4, 0, 4, d.port), (4, 4, 4, d.reason), (8, 0, 32, d.count), (12, 0, 12, d.dst)])
    { s with mgl := { s.mgl with drops := none } }

/-! Sending (R381, R385). -/

/-- A packet put at the end of a port's output queue. -/
def State.enqueue (s : State) (p : Nat) (q : QueuedPacket) : State :=
  let l := s.link p
  s.setLink p { l with txQueue := l.txQueue ++ [q] }

/-- Is a port UP for group traffic? -/
def State.linkUp (s : State) (p : Nat) : Bool := decide ((s.link p).phase = .up) && !(s.link p).boot

/-- The context and sealing of a group step's work. -/
def stepWork (s : State) (g : GroupStep) : Option (Nat × Bool) :=
  if !g.hasWork then none
  else
    match s.ump.ready.find? (fun r => r.did == g.workId) with
    | some r => some (r.ctx, r.isSealed)
    | none => (s.ump.steps.find? (fun p => p.did == g.workId)).map (fun p => (p.ctx, false))

/-- The work that a packet of this device is sent for, with its context and sealing: the running work, or that of the group
step. -/
def State.sender (s : State) : Option Nat × Nat × Bool :=
  match s.ump.work, s.rdc.step with
  | some w, _ => (some w.did, w.ctx, w.isSealed)
  | none, some g => (stepWork s g).elim (none, 0, false) (fun x => (some g.workId, x.1, x.2))
  | none, none => (none, 0, false)

/-- Bytes sent or received for a piece of work: charged to it while it runs or until its slot end settles it, and to its context
once it is settled (R359). -/
def State.chargeLink (s : State) (for_ : Option Nat × Nat × Bool) (more : Charges) : State :=
  let mine (w : Work) : Bool := for_.1 == some w.did
  let add (w : Work) : Work := if mine w then { w with charges := w.charges.add more } else w
  if s.ump.work.any mine then { s with ump := { s.ump with work := s.ump.work.map add } }
  else if s.ump.done.any mine then { s with ump := { s.ump with done := s.ump.done.map add } }
  else s.charge for_.2.1 more 0 0 for_.2.2

/-- The bytes of a packet that the group step's work takes in, charged to it (R359). -/
def State.chargeReceived (s : State) (k : Packet) : State :=
  s.chargeLink s.sender { Charges.zero with mglRx := 64 * k.flits }

/-- A packet of this device handed to the switch and routed by the table (R385); the switch number 16 stands for local
traffic. An unreachable destination drops it (R379). -/
def State.send (s : State) (vc ty ch dst seq : Nat) (data : List Byte) : State :=
  let k : Packet := { dst := dst, src := s.rank, vc := vc, hops := 0, ch := ch, ty := ty, len := data.length,
                      tsLo := 0, seq := seq, reserved := 0, data := data }
  let out := s.route dst
  if out = 16 then { s with mgl := { s.mgl with inbox := s.mgl.inbox ++ [⟨16, false, k⟩] } }
  else if out < 16 && s.linkUp out then s.enqueue out ⟨16, s.sender.1, s.sender.2.1, s.sender.2.2, k⟩
  else s.dropPacket 0 dst 2

/-- A packet of the boot service put on a port directly (R394, R599). -/
def State.sendBoot (s : State) (p ty seq : Nat) (data : List Byte) : State :=
  s.enqueue p ⟨16, none, 0, false,
    { dst := 0, src := s.rank, vc := 15, hops := 0, ch := 127, ty := ty, len := data.length, tsLo := 0, seq := seq,
      reserved := 0, data := data }⟩

/-- The first delivered packet that a test picks. -/
def State.inbox? (s : State) (pick : InboxPacket → Bool) : Option InboxPacket := s.mgl.inbox.find? pick
/-- The state without the first delivered packet that a test picks. -/
def State.takeInbox (s : State) (pick : InboxPacket → Bool) : State :=
  { s with mgl := { s.mgl with inbox := s.mgl.inbox.eraseP pick } }

/-! Credits (R383, R384). -/

/-- Flits of the shared pool: the remainder of 16,384. -/
def State.sharedFlits (s : State) : Nat := 16384 - 1024 - 60 * s.floorFlits

/-- Flits of the shared pool in use. -/
def MglPort.sharedUsed (l : MglPort) : Nat := (l.shared.map (·.2)).sum

/-- The floor bank that work holds on a port, by index. -/
def MglPort.bankOf (l : MglPort) (work : Nat) : Option Nat := l.banks.findIdx? (fun b => b.owner == some work)

/-- The port with a floor bank for work that has none and finds one free (R384). -/
def MglPort.takeBank (l : MglPort) (work : Nat) : Option MglPort :=
  match l.bankOf work with
  | some _ => some l
  | none =>
    match l.banks.findIdx? (fun b => b.owner.isNone) with
    | none => none
    | some i => some { l with banks := l.banks.set i ⟨some work, []⟩ }

/-- The port with the credit of a packet taken: bank first, dedicated flits next, the shared pool last (R384); none when
the packet must wait. -/
def takeCredit (s : State) (l : MglPort) (q : QueuedPacket) : Option MglPort :=
  let n := q.packet.flits
  let vc := q.packet.vc
  let h := q.packet.hops
  let withBank := decide (h = 0) && decide (1 ≤ vc) && q.work.isSome && decide (s.floorFlits ≠ 0)
  match if withBank then l.takeBank (q.work.getD 0) else some l with
  | none => none
  | some l =>
    let bank := if withBank then l.bankOf (q.work.getD 0) else none
    let used := bank.elim 0 (fun i => Tbl.getD ((l.banks.getD i ⟨none, []⟩).used) vc 0)
    let a := if bank.isSome then min n (s.floorFlits - used) else 0
    let d := min (n - a) (16 - Tbl.getD l.dedicated (4 * vc + h) 0)
    let sh := n - a - d
    if s.sharedFlits < l.sharedUsed + sh then none
    else
      let banks := bank.elim l.banks (fun i =>
        l.banks.set i { l.banks.getD i ⟨none, []⟩ with used := Tbl.set (l.banks.getD i ⟨none, []⟩).used vc (used + a) })
      some { l with
        banks := banks
        dedicated := Tbl.set l.dedicated (4 * vc + h) (Tbl.getD l.dedicated (4 * vc + h) 0 + d)
        shared := Tbl.set l.shared vc (Tbl.getD l.shared vc 0 + sh) }

/-- Credits of a VC returned: the shared pool first, then dedicated flits by hop class, then floor banks. -/
def MglPort.returnCredit (l : MglPort) (vc n : Nat) : MglPort :=
  let sh := min n (Tbl.getD l.shared vc 0)
  let l := { l with shared := Tbl.modify l.shared vc (· - sh) }
  let ded (acc : MglPort × Nat) (h : Nat) : MglPort × Nat :=
    let x := min acc.2 (Tbl.getD acc.1.dedicated (4 * vc + h) 0)
    ({ acc.1 with dedicated := Tbl.modify acc.1.dedicated (4 * vc + h) (· - x) }, acc.2 - x)
  let (l, left) := (List.range 4).foldl ded (l, n - sh)
  let bank (acc : List FloorBank × Nat) (b : FloorBank) : List FloorBank × Nat :=
    let x := min acc.2 (Tbl.getD b.used vc 0)
    (acc.1 ++ [{ b with used := Tbl.modify b.used vc (· - x) }], acc.2 - x)
  { l with banks := (l.banks.foldl bank ([], left)).1 }

/-! The link management channel (R373, R393). -/

/-- One bit of CRC-32 with the IEEE 802.3 polynomial, least significant bit first. -/
def crc32Bit (crc : BitVec 32) (b : Bool) : BitVec 32 :=
  if crc.getLsbD 0 != b then (crc >>> 1) ^^^ 0xEDB88320#32 else crc >>> 1

/-- CRC-32 of a byte string as IEEE 802.3 computes it (R373). -/
def crc32 (bs : List Byte) : BitVec 32 :=
  ~~~bs.foldl (fun crc b => (List.range 8).foldl (fun c i => crc32Bit c (b.getLsbD i)) crc) 0xFFFFFFFF#32

/-- A message as bytes: its kind and its fields; the spec lays out no message. DESIGN CHOICE (assumption 231). -/
def lmcBytes (kind : Nat) (fields : List Nat) : List Byte := bytesOf 1 kind ++ fields.flatMap (bytesOf 9)

/-- The CRC-32 of a message, and its authentication where the port carries a session: by direction, 0 sent and 1 received. -/
def lmcCheck (l : MglPort) (dir kind : Nat) (fields : List Nat) : LmcCheck :=
  ⟨crc32 (lmcBytes kind fields),
   if l.secure then Config.lmcTag (Tbl.getD l.keys (2 * l.newSlot + dir) 0) dir (lmcBytes kind fields) else 0⟩

/-- A message sent on a port's channel. -/
def State.sendLmc (s : State) (p kind : Nat) (fields : List Nat) : State :=
  s.emit (.lmc p kind fields (lmcCheck (s.link p) 0 kind fields))

/-- Is a received message taken? One that fails its CRC, or the session's authentication, is discarded. -/
def lmcTaken (s : State) (p kind : Nat) (fields : List Nat) (x : LmcCheck) : Bool :=
  x == lmcCheck (s.link p) 1 kind fields

/-- Buffer of a received packet freed: its credits go back to the port that sent it (R383). -/
def State.freeBuffer (s : State) (p : Nat) (k : Packet) : State :=
  if (s.link p).phase = .up then s.sendLmc p 4 [k.vc, k.flits] else s

/-! Ports that go down (R374, R376, R395, R553). -/

/-- A port goes down: MGL_PORT_DOWN when it was UP, or when its training fails or it is fenced (R395), its queues, keys and credits
gone; the buffers of packets from other ports are free. -/
def State.linkDown (s : State) (p reason : Nat) (phase : LinkPhase) : State :=
  let l := s.link p
  let told := decide (l.phase = .up) || (decide (l.phase = .training) && (reason == 1 || reason == 5))
  let s := l.txQueue.foldl (fun s q => if q.fromPort = 16 ∨ q.fromPort = p then s else s.freeBuffer q.fromPort q.packet) s
  let s := if told then s.opEvent (eventRec 0x00A0 0 s.ts [(4, 0, 4, p), (4, 4, 4, reason)]) else s
  let s := s.setLink p { MglPort.down with phase := phase, since := s.ts }
  if p = 0 then s.setFld R.clkStatus 7 1 0 else s

/-- The falls of a port within the last 60 s, this one included (R553). -/
def fallsOf (s : State) (p : Nat) : List Nat :=
  ((Tbl.getD s.err.portFalls p []).filter (fun t => decide (s.ts < t + 60000000000))) ++ [s.ts]

/-- Does a context's work use Mirgarlink? The contexts a port fence affects: the one whose work runs (R549). -/
def runningCtx (s : State) : List Nat := (s.ump.work.map (·.ctx)).toList

/-- A fall of a port by R376, or a failed training: down, and at the third within 60 s fenced (R553). -/
def State.linkFall (s : State) (p reason : Nat) : State :=
  let falls := fallsOf s p
  let s := { s with err := { s.err with portFalls := Tbl.set s.err.portFalls p falls } }
  if falls.length < 3 then s.linkDown p reason .training
  else
    let s := s.linkDown p 5 .fenced
    let s := s.setReg R.scbPortFenced (s.regAt R.scbPortFenced ||| BitVec.ofNat 32 (2 ^ p))
    s.fault { cls := 1, kind := 9, unit := p, cause := 5, action := 1, detected := s.ts, affected := runningCtx s }

/-- Ports that MGL_PORT_CFG.EN sets begin R374; ports that it clears are powered down (R374, R399). A fenced port stays
down (R553). -/
def State.applyLinks (s : State) : State :=
  (List.range 16).foldl (fun s p =>
    match s.linkEn p, (s.link p).phase with
    | true, .down => s.setLink p { MglPort.down with phase := .training, since := s.ts }
    | false, .training => s.setLink p .down
    | false, .up => s.linkDown p 6 .down
    | _, _ => s) s

/-! Time synchronisation (R389 to R391). -/

/-- The state and HOPS a device shows; the master is LOCKED at 0 hops. -/
def State.tsyncShown (s : State) : Nat × Nat :=
  if s.regFld R.mglTsyncCtl 31 1 = 1 then (2, 0) else (s.mgl.tsync.st, s.mgl.tsync.hops)

/-- The time-synchronisation state moves, with MGL_TSYNC on a change (R395). -/
def State.setTsync (s : State) (t : TsyncState) : State :=
  let was := s.mgl.tsync.st
  let s := { s with mgl := { s.mgl with tsync := t } }
  if was = t.st then s else s.opEvent (eventRec 0x00A2 0 s.ts [(4, 4, 4, t.st)])

end Sys2Proof.Machine
end

