-- ==== Sys2Proof/Machine/PowerOps.lean ====
section
/-! DEFINITION. Power states, clocks and measured quantities as shared operations (R587, R611 to R621, R644 to R647). -/
namespace Sys2Proof.Machine
open Sys2Proof

/-! Clocks and cycle counters (R34, R587). -/

/-- The core clock in sixteenths of nominal (R619). -/
def State.clock16 (s : State) : Nat := let n := s.regFld R.clkStatus 0 4; if n = 0 then 16 else n

/-- Cycles of a block's clock domain in `dt` ns: core for CD, fabric for XD, PCIe for HD, LPDDR5X controller for MD. -/
def cyclesIn (s : State) (b dt : Nat) : Nat :=
  if b < 16 then dt * 9 * s.clock16 / 80 else if b < 18 then dt else dt * 6 / 5

/-- A block's cycle counter now; it stops in half-time and bench. -/
def State.cyclesNow (s : State) (b : Nat) : Nat :=
  let base := (s.pmu b).cycles
  if s.pwr.state = .active ∧ s.pwr.phase = .running then wrap64 (base + cyclesIn s b (s.ts - s.scb.since)) else base

/-- The cycle counters brought up to now, before a rate changes. -/
def State.tallyCycles (s : State) : State :=
  let one (t : Tbl PmuBlock) (b : Nat) : Tbl PmuBlock := Tbl.set t b { s.pmu b with cycles := s.cyclesNow b }
  { s with scb := { s.scb with blocks := (List.range 24).foldl one s.scb.blocks, since := s.ts } }

/-- CLK_THR_NS now (R619): time spent below 16/16. -/
def State.throttledNs (s : State) : Nat :=
  wrap64 (s.reg64 R.clkThrLo R.clkThrHi + s.pwr.throttleSince.elim 0 (fun t => s.ts - t))

/-- CLOCK_STEP (R35, R617): the core clock moves to `n` sixteenths, with its record, its count and its alert. -/
def State.setClock (s : State) (n : Nat) : State :=
  let s := s.tallyCycles
  let s := s.setReg64 R.clkThrLo R.clkThrHi s.throttledNs
  let s := { s with pwr := { s.pwr with
    throttleSince := if n < 16 then some s.ts else none
    lastThrottle := if n < 16 then some s.ts else s.pwr.lastThrottle
    lastStep := s.ts, lowSince := none } }
  let s := s.setFld R.clkStatus 0 4 (n % 16)
  let s := s.bump R.clkStepCount
  let s := if n < 16 then s.setFld R.bmcAlert 0 1 1 else s
  s.trace s.queueSched 9 0 (n % 16)

/-! Readings (R644, R646). -/

/-- Is the die of a sensor powered (R612, R646, R648)? In bench the CD, SD, WD, LD and XD dies, sensors 0 to 57, are not. -/
def sensorPowered (s : State) (n : Nat) : Bool := s.pwr.state != .standby || decide (58 ≤ n)

/-- The rails that are up in bench (R636). -/
def benchRails : List Nat := [0, 1, 2, 3, 4]

/-- The hottest junction of sensors 0 to 63, in 1/8 °C; none before a reading. -/
def hottest (sensors : Tbl Int) : Option Int :=
  (sensors.filter (fun p => decide (p.1 < 64))).foldl (fun b p => some (b.elim p.2 (max p.2))) none

/-- A reading in 1/8 °C as whole °C in a field of 8 bits. -/
def wholeDegrees (t : Int) : Nat := (min 255 (max 0 (t / 8))).toNat

/-- A sensor's reading taken in. -/
def State.readSensor (s : State) (n : Nat) (t : Int) : State :=
  { s with pwr := { s.pwr with sensors := Tbl.set s.pwr.sensors n t } }

/-- A device fault of a unit with a cause (R565, R568). -/
def State.failDevice (s : State) (kind unit cause : Nat) : State :=
  let f : FaultInfo := { cls := 5, kind := kind, unit := unit, cause := cause, action := 6, detected := s.ts }
  s.deviceFails { f with affected := runningCtx s }

/-! Power states (R611 to R614). -/

/-- The gap before the slot that starts at an instant: no work, ended already (R338). -/
def State.waitSlot (s : State) (t : Nat) : State :=
  { s with ump := { s.ump with slot := some ⟨t, 0, t, .idle, none, true⟩, shut := [] } }

/-- The instants at which a first slot may start within `limit` ns: multiples of 10 µs (R613). -/
def resumeChoices (ts limit : Nat) : Nat := (ts + limit) / 10000 - toQuantum ts / 10000 + 1

/-- POWER_RESUME (R613, R344): reservation windows restart, and the first slot starts at a multiple of 10 µs within the
resume time, a free value; after bench the ports retrain and the time state is UNLOCKED (R608). -/
def State.powerResume (s : State) : State :=
  let bench := decide (s.pwr.state = .standby)
  let limit := if bench then 40000000 else 20000
  let start := toQuantum s.ts + 10000 * ((s.freeVal 32).toNat % resumeChoices s.ts limit)
  let s := s.freed
  let s := { s with
    pwr := { s.pwr with request := some .active, railsUp := if bench then List.range 9 else s.pwr.railsUp }
    ump := { s.ump with windowBase := start, rsv := s.ump.rsv.map (fun (p : Nat × RsvRun) =>
      if s.regFld (keyOf R.umpRsvCfg p.1) 28 1 = 1 then p else (p.1, ⟨none, [], p.2.since⟩)) } }
  let s := s.waitSlot start
  if bench then (s.setTsync { TsyncState.reset with everRan := s.mgl.tsync.everRan }).applyLinks else s

/-- The transition to ACTIVE ends at the first slot start (R613). -/
def State.nowActive (s : State) : State :=
  let s := s.chargeStatic.tallyCycles
  { s with pwr := { s.pwr with state := .active, request := none } }

/-- HALF_TIME_ENTRY (R612): at a slot end; no slot runs on. -/
def State.enterHalfTime (s : State) : State :=
  let s := s.chargeStatic.tallyCycles
  { s with pwr := { s.pwr with state := .idle, request := none }, ump := { s.ump with slot := none } }

/-- BENCH_ENTRY (R612, R608): running work and steps discarded, the ports down with reason 6, bonded SRAM and court
buffers lost, the trace queues emptied with their numbers kept, the rails of R636 down with the readings of their dies. -/
def State.enterBench (s : State) : State :=
  let s := s.stopWork .hold
  let s := (s.ump.done.filter (fun w => decide (w.kind = .serve))).foldl (fun s w => s.serveDiscarded w.did .hold) s
  let s := (s.ump.done.map (·.did)).dedup.foldl State.discardEnded s
  let s := s.ump.steps.foldl State.restartStep s
  let s := { s with ump := { s.ump with slot := none, overrun := none } }
  let s := (List.range 16).foldl (fun s p =>
    match (s.link p).phase with
    | .up => s.linkDown p 6 .down
    | .training => s.setLink p .down
    | _ => s) s
  let s := s.chargeStatic.tallyCycles
  { s with
    pwr := { s.pwr with
      state := .standby, request := none
      sensors := s.pwr.sensors.filter (fun p => decide (58 ≤ p.1))
      railsUp := s.pwr.railsUp.filter benchRails.contains }
    mem := { s.mem with cells := s.mem.cells.filter (fun c => outlives c.1) }
    scb := { s.scb with queues := s.scb.queues.map (fun q =>
      (q.1, { TraceQueue.empty with wordSeq := q.2.wordSeq, lost := q.2.lost })) } }

/-- A power-state request taken up (R612, R613); the state already reached is no change, and bench is left only for
ACTIVE. -/
def State.takeRequest (s : State) (t : PowerState) : State :=
  match s.pwr.state, t with
  | .active, .idle =>
    if s.ump.slot.isNone then s.enterHalfTime else { s with pwr := { s.pwr with request := some .idle } }
  | .active, .standby | .idle, .standby => s.enterBench
  | .idle, .active | .standby, .active => s.powerResume
  | _, _ => s

/-- A write of PWR_CTL.REQ (R612, R613): one made during a transition waits for its end; before boot is complete the
field alone is written. -/
def State.requestPower (s : State) (t : PowerState) : State :=
  let s := s.setFld R.pwrCtl 0 2 t.code
  if s.pwr.phase ≠ .running then s
  else if s.pwr.request.isSome then { s with pwr := { s.pwr with queued := some t } }
  else s.takeRequest t

/-- A request that waited for a transition to end is taken up (R613). -/
def State.takeQueued (s : State) : State :=
  match s.pwr.queued with
  | some t => { s with pwr := { s.pwr with queued := none } }.takeRequest t
  | none => s

/-- A register block that answers PF writes before BOOT_DONE (R602), or any block after it. -/
def State.booted (s : State) : Bool := decide (s.pwr.phase = .running)

end Sys2Proof.Machine
end

