-- ==== Sys2Proof/Machine/HostOps.lean ====
section
/-! DEFINITION. Shared operations of the host interface (chapter 13): the window as descriptors name it, images by epoch,
the checks of R459, and the keys of indexed registers. -/
namespace Sys2Proof.Machine
open Sys2Proof

/-! The window of a function (R445, R449, R451). -/

/-- The device address of an offset in a context's window. -/
def State.winAddr (s : State) (c off : Nat) : Nat :=
  match s.ctx? c with
  | some x => s.winBase x.port + funcBase x.func + off
  | none => 0

/-- Does a range lie in the window of a context's function? -/
def State.inWindow (s : State) (c off bytes : Nat) : Bool :=
  match s.ctx? c with
  | some x => decide (off + bytes ≤ funcBytes x.func)
  | none => false

/-- Bytes of a context's window. -/
def State.winRead (s : State) (c off n : Nat) : List Byte := (s.lpRead 0 (s.winAddr c off) n).1

/-- Is every slot of a context's range the device's? The device writes no slot that the host owns (R448). -/
def State.ownsRange (s : State) (c off bytes : Nat) : Bool :=
  (s.ctx? c).elim false (fun x => (slotsOf x.func off bytes).all (fun i => ((s.host.port x.port).flag i).own))

/-- Bytes written to a context's window, where the device owns it (R448). -/
def State.winWrite (s : State) (c off : Nat) (data : List Byte) : State :=
  if s.ownsRange c off data.length then
    (s.lpWrite 0 (s.winAddr c off) data).countLines 1 (linesOf (s.winAddr c off) data.length)
      { unit := 16 + ((s.ctx? c).elim Port.a (·.port)).num }
  else s

/-! Request lists (R310, R313). -/

/-- A request-list entry of R310. -/
structure ListEntry where
  reqId : Nat
  op : Nat
  feedback : Bool
  reservedBits : Nat
  nTok : Nat
  adapter : Nat
  tokIdx : Nat
  sample : Nat
  deriving DecidableEq, Repr

/-- The entry that 32 bytes spell. -/
def ListEntry.ofList (bs : List Byte) : ListEntry :=
  let v := ofBytes bs
  { reqId := bitsOf v 0 32, op := bitsOf v 32 2, feedback := bitAt v 34, reservedBits := bitsOf v 35 13 + bitsOf v 160 32,
    nTok := bitsOf v 48 16, adapter := bitsOf v 64 64, tokIdx := bitsOf v 128 32, sample := bitsOf v 192 64 }

/-- The entries of a request list. -/
def requestList (s : State) (c off count : Nat) : List ListEntry :=
  let bs := s.winRead c off (32 * count)
  (List.range count).map (fun i => ListEntry.ofList ((bs.drop (32 * i)).take 32))

/-- Tokens an entry takes from the token area (R313). -/
def ListEntry.areaTokens (e : ListEntry) : Nat :=
  if e.op = 2 then 0 else if e.feedback && e.op == 0 then e.nTok - 1 else e.nTok

/-- Bytes of list and token area together (R310). -/
def listBytes (es : List ListEntry) : Nat :=
  let area := es.foldl (fun m e => if e.areaTokens = 0 then m else max m (e.tokIdx + e.areaTokens)) 0
  if area = 0 then 32 * es.length else ceilDiv (32 * es.length) 64 * 64 + 4 * area

/-- Does a window slot lie in an OFFLINE page (R502)? -/
def State.slotOffline (s : State) (p : Port) (slot : Nat) : Bool := s.pageOffline (s.winBase p / pageBytes + slot)

/-- OWN of a window slot; a slot in an OFFLINE page is the device's (R446, R502). -/
def State.slotOwn (s : State) (p : Port) (slot : Nat) : Bool := ((s.host.port p).flag slot).own || s.slotOffline p slot

/-! What a descriptor names (R449). -/

/-- The window ranges that a descriptor names, as (offset, bytes). -/
def namedRanges (s : State) (c : Nat) (d : Desc) : List (Nat × Nat) :=
  match fld d 0 0 8 with
  | 0x20 =>
    let count := fld d 8 0 32
    let list := fld d 24 0 64
    if count ≤ 4096 ∧ s.inWindow c list (32 * count) then
      [(list, listBytes (requestList s c list count)), (fld d 32 0 64, fld d 40 0 64)]
    else [(list, 32 * count), (fld d 32 0 64, fld d 40 0 64)]
  | 0x50 => [(fld d 24 0 64, fld d 32 0 32)]
  | _ => []

/-- The ranges of them that the device reads. -/
def readRanges (s : State) (c : Nat) (d : Desc) : List (Nat × Nat) := (namedRanges s c d).take 1

/-- The window slots that a descriptor names, those of its ranges that lie in the window. -/
def namedSlots (s : State) (c : Nat) (d : Desc) : List Nat :=
  match s.ctx? c with
  | none => []
  | some x => ((namedRanges s c d).flatMap (fun r => if s.inWindow c r.1 r.2 then slotsOf x.func r.1 r.2 else [])).dedup

/-- Does R449 hold for a descriptor: every range in the window, every slot device-owned and named by no other accepted
descriptor of the port? Bytes that cannot be read, and slots in OFFLINE pages, refuse it too (R489, R502). -/
def slotsFree (s : State) (c : Nat) (d : Desc) : Bool :=
  match s.ctx? c with
  | none => false
  | some x =>
    let others := (s.host.accepted.filter (fun a => a.slotsOk && (s.ctx? a.ctx).map (·.port) == some x.port)).flatMap (·.slots)
    (namedRanges s c d).all (fun r => r.2 == 0 || s.inWindow c r.1 r.2) &&
      (namedSlots s c d).all (fun i => s.slotOwn x.port i && !s.slotOffline x.port i && !others.contains i) &&
      !(readRanges s c d).any (fun r => (linesOf (s.winAddr c r.1) r.2).any s.mem.bad.contains)

/-! Images, banks and classes (R200, R301, R465). -/

/-- A bank record. -/
def State.bank (s : State) (b : Nat) : BankRec := if b = 0 then s.wst.bank0 else s.wst.bank1

/-- The bank whose image a stream of an epoch reads: ACTIVE or DRAINING (R326). -/
def State.bankOfEpoch (s : State) (epoch : Nat) : Option Nat :=
  [0, 1].find? (fun b => (decide ((s.bank b).st = .active) || decide ((s.bank b).st = .draining)) && (s.bank b).epoch == epoch)

/-- The loaded schedule image of an IMAGE_ID, with its slot. -/
def State.imageOf (s : State) (id : Nat) : Option (Nat × Image) := s.ump.images.find? (fun p => p.2.imageId == id)

/-- A serve class of an image. -/
def Image.cls? (i : Image) (n : Nat) : Option ServeClass := i.classes.find? (fun c => c.kv.cls == n)

/-- A practice program of an image. -/
def Image.program? (i : Image) (n : Nat) : Option Program := i.programs.find? (fun p => p.programId == n)

/-- The image slot, image and class of a stream (R301). -/
def State.classOf (s : State) (epoch cls : Nat) : Option (Nat × Image × ServeClass) :=
  match s.bankOfEpoch epoch with
  | none => none
  | some b =>
    match s.imageOf (s.bank b).imageId with
    | none => none
    | some (slot, img) => (img.cls? cls).map (fun k => (slot, img, k))

/-- The bank that is ACTIVE. -/
def State.activeBank (s : State) : Option Nat := [0, 1].find? (fun b => decide ((s.bank b).st = .active))

/-- The loaded image that a PROGRAM_ID names, with its slot: the ACTIVE bank's image, or else the loaded image of lowest
slot that holds the program (R274, R285). -/
def State.programOf (s : State) (n : Nat) : Option (Nat × Image × Program) :=
  let of (p : Nat × Image) : Option (Nat × Image × Program) := (p.2.program? n).map (fun q => (p.1, p.2, q))
  match ((s.activeBank.bind (fun b => s.imageOf (s.bank b).imageId)).bind of) with
  | some x => some x
  | none => s.ump.images.findSome? of

/-- May a context run an image (R533)? Operator contexts may run any. -/
def State.mayRun (s : State) (c : Nat) (i : Image) : Bool :=
  match s.ctx? c with
  | none => false
  | some x =>
    if x.session = 0 then true
    else (Tbl.get? s.ref.sessions x.session).elim false (fun q => q.allow.contains (BitVec.ofNat 384 i.digest))

/-! The checks of R459. -/

/-- The ring kind of an opcode of R461. -/
def opcodeRing (op : Nat) : Option RingKind :=
  match op with
  | 0x20 | 0x40 | 0x41 | 0x42 | 0x43 | 0x50 | 0x51 | 0x52 => some .submit
  | 0x30 | 0x31 | 0x32 => some .adapter
  | _ => none

/-- WST_LOAD_CTL.SOURCE names a port (R464). -/
def sourceNames (s : State) (p : Port) : Bool :=
  let src := s.regFld R.wstLoadCtl 2 3
  decide (src = 2) || decide (src = p.num)

/-- May a context issue a descriptor (step 2 of R459; R461, R464, R533)? -/
def mayIssue (s : State) (c : Nat) (x : Context) (d : Desc) : Bool :=
  let operator := decide (x.func = 0) && decide (x.session = 0)
  match fld d 0 0 8 with
  | 0x50 => operator && sourceNames s x.port
  | 0x51 | 0x52 => operator && decide (x.port = s.host.owner)
  | 0x20 => (s.classOf (fld d 20 0 32) (fld d 16 0 16)).elim true (fun k => s.mayRun c k.2.1)
  | 0x40 | 0x41 => (s.programOf (fld d 40 0 16)).elim true (fun k => s.mayRun c k.2.1)
  | _ => true

/-- Steps 1 to 3 of R459: the status with which a descriptor completes at once, if any. -/
def headerStatus (s : State) (c : Nat) (x : Context) (kind : RingKind) (d : Desc) : Option Nat :=
  if opcodeRing (fld d 0 0 8) ≠ some kind ∨ fld d 2 0 16 ≠ c ∨ fld d 1 1 7 ≠ 0 ∨ fld d 12 0 32 ≠ 0 then some stBad
  else if !mayIssue s c x d then some stNotOwner
  else if fld d 8 0 32 = 0 then some stZeroCount
  else none

/-! Keys of indexed registers (R443, R576, R478). -/

/-- Is a register one of a port's own: HUB_, HDL_, and the selections and latches of SCB_ and PMU_ (R576)? -/
def perPort (off : Nat) : Bool :=
  decide (off < 0x2_0000) || decide (off = R.scbTrcSel) || decide (off = R.pmuCsetSel)

/-- HI registers of shared blocks whose one latch both ports read (R78, R335, R437, R618, R619). -/
def sharedLatches : List Nat := [R.crtSatTotalHi, R.umpServeNoHi, R.rdcGstepHi, R.clkThrHi, R.rstMgmtSeqHi]

/-- What a HI register's latch holds for a port. -/
def State.latch (s : State) (p : Port) (off : Nat) : Nat :=
  Tbl.getD (if sharedLatches.contains off then s.host.latches else (s.host.port p).latches) off 0

/-- The state with the latch of a HI register set. -/
def State.setLatch (s : State) (p : Port) (off v : Nat) : State :=
  if sharedLatches.contains off then { s with host := { s.host with latches := Tbl.set s.host.latches off v } }
  else s.modPort p (fun q => { q with latches := Tbl.set q.latches off v })

/-- The key of a register as a port reaches it, its selector's index included; mailbox registers are indexed by function
and ring (R479). -/
def regKeyOf (s : State) (p : Port) (func off : Nat) (row : RegRow) : Nat :=
  let own (base key : Nat) : Nat := if perPort base then portKey p key else key
  if off = R.hubMbxSel then own off (keyOf off func)
  else match row.sel with
    | none => own off off
    | some sel =>
      if sel = R.hubMbxSel then own off (keyOf off (2 * func + s.regFld (own sel (keyOf sel func)) 0 1))
      else own off (keyOf off (s.regAt (own sel sel)).toNat)

end Sys2Proof.Machine
end

