-- ==== Sys2Proof/Machine/SlotOps.lean ====
section
/-! DEFINITION. Slot lengths, the reservation table and its tests, group slots (R338 to R353), and the switch of weight-store
banks (R199, R215 to R218, R327). -/
namespace Sys2Proof.Machine
open Sys2Proof

/-! Slot lengths (R339, R340). -/

/-- The slot length of a declared WCET at a stretch divisor, in ns. -/
def slotLenAt (c wcet : Nat) : Nat := 10000 * max 50 (ceilDiv (8 * wcet) (10000 * max 1 c))
/-- The slot length of a declared WCET now. -/
def State.slotLen (s : State) (wcet : Nat) : Nat := slotLenAt s.ump.stretch wcet
/-- A segment's WCET stretched, in ns (R350). -/
def State.segLen (s : State) (wcet : Nat) : Nat := ceilDiv (8 * wcet) (max 1 s.ump.stretch)
/-- UMP_CTL.IDLE_LEN in ns. -/
def State.idleLen (s : State) : Nat := 10000 * s.regFld R.umpCtl 0 13
/-- Every class of a loaded schedule image. -/
def State.loadedClasses (s : State) : List ServeClass := s.ump.images.flatMap (fun p => p.2.classes)
/-- The longest declared WCET among the loaded classes of a number; none where no image holds it. -/
def State.wcetOf (s : State) (cls : Nat) : Option Nat :=
  ((s.loadedClasses.filter (fun k => k.kv.cls == cls)).map (·.wcet)).max?
/-- L_max of R346. -/
def State.longestSlot (s : State) : Nat := (s.loadedClasses.map (fun k => s.slotLen k.wcet)).foldl max s.idleLen

/-! The reservation table (R344, R346, R351, R368). -/

/-- An enabled entry, its period and offset in ns. -/
structure RsvEntry where
  index : Nat
  group : Bool
  ctx : Nat
  cls : Nat
  period : Nat
  offset : Nat
  deriving DecidableEq, Repr

/-- One entry; none while its PERIOD is 0. -/
def State.rsvEntry (s : State) (i : Nat) : Option RsvEntry :=
  let p := s.regFld (keyOf R.umpRsvPeriod i) 0 23
  if p = 0 then none
  else some { index := i, group := s.regFld (keyOf R.umpRsvCfg i) 28 1 = 1, ctx := s.regFld (keyOf R.umpRsvCfg i) 16 12,
              cls := s.regFld (keyOf R.umpRsvCfg i) 0 16, period := 10000 * p,
              offset := 10000 * s.regFld (keyOf R.umpRsvOffset i) 0 23 }

/-- The enabled entries in increasing index. -/
def State.rsvTable (s : State) : List RsvEntry := (List.range 64).filterMap s.rsvEntry

/-- L of an entry's class. -/
def entryLen (s : State) (e : RsvEntry) : Nat := s.slotLen ((s.wcetOf e.cls).getD 0)

/-- A sum of fractions as (numerator, denominator). -/
def addFrac (a b : Nat × Nat) : Nat × Nat := (a.1 * b.2 + b.1 * a.2, a.2 * b.2)
/-- Is a fraction at most another? -/
def leFrac (a b : Nat × Nat) : Bool := decide (a.1 * b.2 ≤ b.1 * a.2)

/-- U of R346. -/
def utilOf (s : State) (t : List RsvEntry) : Nat × Nat :=
  t.foldl (fun u e => addFrac u (entryLen s e, e.period)) (0, 1)

/-- Does a table meet the two bounds of R346 at the current stretch? -/
def rsvBounds (s : State) (t : List RsvEntry) : Bool :=
  let u := utilOf s t
  leFrac u (9, 10) && (match (t.map (·.period)).min? with
    | some p => leFrac (addFrac u (s.longestSlot, p)) (1, 1)
    | none => true)

/-- R346 and R368 on a table: `exists_` says which contexts exist. -/
def rsvTableOk (s : State) (exists_ : Nat → Bool) (t : List RsvEntry) : Bool :=
  rsvBounds s t &&
    t.all (fun e => exists_ e.ctx && decide (1 ≤ e.ctx) && (s.wcetOf e.cls).isSome && decide (entryLen s e ≤ e.period) &&
      decide (1000000 ≤ e.period) && decide (e.period ≤ 60000000000) &&
      (if e.group then decide (e.offset + entryLen s e ≤ e.period) else decide (e.offset = 0))) &&
    decide ((t.map (fun e => (e.ctx, e.cls))).Nodup)

/-- Can group slots of two entries overlap (R351)? Their starts differ by any number congruent to the difference of the
offsets modulo the greatest common divisor of the periods. -/
def groupClash (s : State) (a b : RsvEntry) : Bool :=
  let g := Nat.gcd a.period b.period
  let d := (b.offset % g + g - a.offset % g) % g
  decide (d < entryLen s a) || decide (g - d < entryLen s b)

/-- R351 on a table. -/
def groupTableOk (s : State) (t : List RsvEntry) : Bool :=
  let gs := t.filter (·.group)
  gs.all (fun a => gs.all (fun b => a.index == b.index || !groupClash s a b))

/-- A group entry's first start at or after an instant, and after the boundary at which the entry took effect (R351). -/
def groupStart (s : State) (e : RsvEntry) (t : Nat) : Nat :=
  let since := (Tbl.get? s.ump.rsv e.index).elim 0 (·.since)
  let low := max t (since + 1)
  ceilDiv (low - e.offset) e.period * e.period + e.offset

/-- The next group-slot start at or after an instant, with its entry. -/
def State.nextGroup (s : State) (t : Nat) : Option (Nat × RsvEntry) :=
  ((s.rsvTable.filter (·.group)).map (fun e => (groupStart s e t, e))).foldl (fun b x =>
    match b with
    | none => some x
    | some y => if x.1 < y.1 then some x else some y) none

/-- Does a slot of a length that starts at an instant end at or before the next group-slot start (R342)? -/
def fitsBeforeGroup (s : State) (t len : Nat) : Bool := (s.nextGroup (t + 1)).elim true (fun g => decide (t + len ≤ g.1))

/-! The KV map (R319). -/

/-- Bytes of the parts of a class's KV map, each rounded up to 256: slot records, block list, token array, sampled tokens,
extra output, append areas 0 and 1 (R319). -/
def kvPartSizes (c : ServeClass) : List Nat :=
  let rb := kvRowBytes c.kv.kvFmt c.kv.dKv
  [c.pre.slots * 32, c.pre.slots * (c.kv.ctxMax / 64) * 4, c.kv.tokDieMax * 4, c.pre.slots * 4, c.pre.slots * c.kv.outExtra,
   2 * c.kv.tokDieMax * rb, 2 * c.kv.tokDieMax * rb].map (fun n => ceilDiv n 256 * 256)
/-- Bytes of a class's KV map (R319). -/
def kvMapBytes (c : ServeClass) : Nat := (kvPartSizes c).sum
/-- Where part `i` of a class's KV map starts in an SD die. -/
def kvPart (c : ServeClass) (i : Nat) : Nat := c.kv.mapOff + ((kvPartSizes c).take i).sum

/-! Ends of requests that wait for the boundary (sub-step 1 of R322). -/

/-- Requests that a test picks end with a status at the next boundary. -/
def State.markEnding (s : State) (pick : Request → Bool) (status : Nat) : State :=
  { s with ump := { s.ump with requests := s.ump.requests.map (fun q =>
      if pick q && q.ending.isNone then { q with ending := some status } else q) } }

/-! Bank switches. -/

/-- The state with a bank record set. -/
def State.setBank (s : State) (b : Nat) (r : BankRec) : State :=
  { s with wst := if b = 0 then { s.wst with bank0 := r } else { s.wst with bank1 := r } }

/-- A bank that becomes READY or ACTIVE, with its MR6 extension (R199, R525). -/
def State.bankBecomes (s : State) (b : Nat) (st : WsBankState) (epoch : Nat) : State :=
  let r := { s.bank b with st := st, epoch := epoch }
  (s.setBank b r).extendMrBytes 6 (bankMeasure b r)

/-- A bank leaves ACTIVE: it drains, or is READY at once (R199). -/
def State.bankLeaves (s : State) (b : Nat) (drain : Bool) : State :=
  if drain then s.setBank b { s.bank b with st := .draining, drainTs := s.ts }
  else s.bankBecomes b .ready (s.bank b).epoch

/-- Banks whose image a code of WST_CTL.ACTIVE_BANK names. -/
def codeBanks (n : Nat) : List Nat := if n = 0 then [0] else if n = 1 then [1] else if n = 2 then [0, 1] else []

/-- May a request's adapter run on an image (R217)? -/
def adapterFits (s : State) (adapter imageId : Nat) : Bool :=
  adapter == 0 || (s.dirEntry adapter).elim false (fun e => e.trainedOn == imageId || e.compat.contains imageId)

/-- Is a class of one image the same for a request's purposes in another (R327): SLOTS, and the KV and prefix
declarations? -/
def sameClass (a b : ServeClass) : Bool := a.kv == b.kv && a.pre == b.pre

/-- A request moved to a new epoch by a cut (R217, R327): REFILL_PENDING, its pages and claim released; or it ends. -/
def moveRequest (old new : Option Image) (newId newEpoch : Nat) (s : State) (q : Request) : State :=
  let keeps := match old.bind (·.cls? q.cls), new.bind (·.cls? q.cls) with
    | some a, some b => sameClass a b
    | _, _ => false
  let pick (x : Request) : Bool := x.ctx == q.ctx && x.reqId == q.reqId
  if !keeps || !adapterFits s q.adapter newId then s.markEnding pick 0x0104
  else (s.kvRelease q.pages false).modReq q.ctx q.reqId (fun x =>
    { x with refill := true, epoch := newEpoch, pages := [], len := 0 })

/-- The apply of a changed WST_CTL.ACTIVE_BANK at a boundary (R199, R215 to R218, R327). In either policy a request whose
adapter does not fit the new image ends there (R217; assumption 64). -/
def State.switchBanks (s : State) (old new : Nat) : State :=
  if old = new then s
  else
    let limit := s.regFld R.wstDrainLimit 0 20
    let policy := s.regFld R.wstCtl 2 1
    let drain := decide (policy = 1) && decide (limit ≠ 0)
    let before := s.activeBank
    let oldEpoch := before.map (fun b => (s.bank b).epoch)
    let oldImage := before.bind (fun b => (s.imageOf (s.bank b).imageId).map (·.2))
    let s := (codeBanks old).foldl (fun s b => s.bankLeaves b drain) s
    let banks := codeBanks new
    let s := if banks.isEmpty then s else
      let e := s.wst.epoch + 1
      banks.foldl (fun s b => s.bankBecomes b .active e) { s with wst := { s.wst with epoch := e } }
    match oldEpoch with
    | none => s
    | some e =>
      let mine (q : Request) : Bool := q.epoch == e && q.ending.isNone
      let id := (s.bank (banks.headD 0)).imageId
      if drain then if banks.isEmpty then s else s.markEnding (fun q => mine q && !adapterFits s q.adapter id) 0x0104
      else if new = 3 ∨ policy = 1 then s.markEnding mine 0x0104
      else
        let image := (s.imageOf id).map (·.2)
        (s.ump.requests.filter mine).foldl (moveRequest oldImage image id s.wst.epoch) s

/-- Draining banks whose epoch has no request left become READY (R199, R216). -/
def State.settleDrains (s : State) : State :=
  [0, 1].foldl (fun s b =>
    let r := s.bank b
    if r.st = .draining ∧ s.ump.requests.all (fun q => q.epoch != r.epoch) then s.bankBecomes b .ready r.epoch else s) s

/-- Requests of a drain that has expired before a boundary's instant end there (R216, R649). -/
def State.expireDrains (s : State) (instant : Nat) : State :=
  let limit := 1000000 * s.regFld R.wstDrainLimit 0 20
  [0, 1].foldl (fun s b =>
    let r := s.bank b
    if r.st = .draining ∧ r.drainTs + limit < instant then s.markEnding (fun q => q.epoch == r.epoch) 0x0104 else s) s

end Sys2Proof.Machine
end

