-- ==== Sys2Proof/Machine/HuddleOps.lean ====
section
/-! DEFINITION. Huddle (R474 to R477): the configuration a bank would leave, the consistency rules by code, and what a bank
changes when it takes effect. -/
namespace Sys2Proof.Machine
open Sys2Proof

/-! Staged writes. -/

/-- The configuration with a bank's writes in place. -/
def overlay (s : State) (ws : List StagedWrite) : State :=
  ws.foldl (fun s w => s.setReg w.key
    ((s.regAt w.key &&& ~~~BitVec.ofNat 32 w.mask) ||| (BitVec.ofNat 32 w.value &&& BitVec.ofNat 32 w.mask))) s

/-- Does a bank write a register, at any index? -/
def writesReg (ws : List StagedWrite) (off : Nat) : Bool := ws.any (fun w => w.key % idxKeys == off)
/-- The indices at which a bank writes a register. -/
def writtenIdx (ws : List StagedWrite) (off : Nat) : List Nat :=
  ((ws.filter (fun w => w.key % idxKeys == off)).map (fun w => w.key / idxKeys)).dedup

/-- A check's view: the port, the configuration before and with the bank, and the bank's writes. -/
structure Check where
  port : Port
  old : State
  new : State
  ws : List StagedWrite

/-! Contexts and rings (R453, R467, R477). -/

/-- A context's CFG word as the bank leaves it. -/
def Check.cfg (k : Check) (c : Nat) : Word := k.new.regAt (portKey k.port (keyOf R.hubCtxCfg c))
/-- A context's SESSION as the bank leaves it. -/
def Check.session (k : Check) (c : Nat) : Nat := (k.new.regAt (portKey k.port (keyOf R.hubCtxSession c))).toNat
/-- The contexts whose CFG the bank writes. -/
def Check.cfgIdx (k : Check) : List Nat := writtenIdx k.ws (portKey k.port R.hubCtxCfg)
/-- Does a context of the port exist before the bank? -/
def Check.had (k : Check) (c : Nat) : Bool := (k.old.ctx? c).elim false (fun x => decide (x.port = k.port))
/-- Contexts the bank creates. -/
def Check.created (k : Check) : List Nat :=
  k.cfgIdx.filter (fun c => wordFld (k.cfg c) 31 1 == 1 && (!k.had c || k.cfg c != k.old.regAt (portKey k.port (keyOf R.hubCtxCfg c))))
/-- Contexts the bank destroys. -/
def Check.destroyed (k : Check) : List Nat := k.cfgIdx.filter (fun c => wordFld (k.cfg c) 31 1 == 0 && k.had c && decide (129 ≤ c))
/-- Does a context exist with the bank in place? -/
def Check.exists (k : Check) (c : Nat) : Bool :=
  k.created.contains c || ((k.old.ctx? c).isSome && !k.destroyed.contains c)
/-- Does a context of this port exist with the bank in place? -/
def Check.mine (k : Check) (c : Nat) : Bool := k.created.contains c || (k.had c && !k.destroyed.contains c)
/-- The function of a context of the port. -/
def Check.func (k : Check) (c : Nat) : Nat :=
  if k.created.contains c then wordFld (k.cfg c) 8 6 else (k.old.ctx? c).elim 0 (·.func)

/-- The rings whose configuration the bank writes, by index context × 65,536 + ring (R478). -/
def Check.ringIdx (k : Check) : List Nat :=
  ((List.range 6).flatMap (fun w => writtenIdx k.ws (portKey k.port (R.hubRingCfg w)))).dedup
/-- A word of a ring's configuration as the bank leaves it. -/
def Check.ringWord (k : Check) (i w : Nat) : Word := k.new.regAt (portKey k.port (keyOf (R.hubRingCfg w) i))
/-- A word of a ring's configuration before the bank. -/
def Check.oldWord (k : Check) (i w : Nat) : Word := k.old.regAt (portKey k.port (keyOf (R.hubRingCfg w) i))
/-- LOG2_SIZE of a ring as the bank leaves it. -/
def Check.ringLog2 (k : Check) (i : Nat) : Nat := wordFld (k.ringWord i 4) 3 5
/-- The ring that a staged configuration describes. -/
def Check.ring (k : Check) (i : Nat) : Option Ring :=
  Ring.ofConfig (k.ringWord i 0) (k.ringWord i 1) (k.ringWord i 2) (k.ringWord i 3) (k.ringWord i 4) (k.ringWord i 5)
/-- The ring that exists at an index before the bank. -/
def Check.oldRing (k : Check) (i : Nat) : Option Ring :=
  if k.had (i / 65536) then k.old.ring? (i / 65536) (i % 65536) else none

/-- Is a COMPLETE ring at an index of a context with the bank in place? -/
def Check.isComplete (k : Check) (c r : Nat) : Bool :=
  let i := c * 65536 + r
  if k.ringIdx.contains i then (k.ring i).elim false (fun q => decide (q.kind = .complete))
  else (k.oldRing i).elim false (fun q => decide (q.kind = .complete))

/-- Does a staged ring meet R453 and the rest of rule 0x0101? -/
def Check.ringOk (k : Check) (i : Nat) : Bool :=
  let c := i / 65536
  let r := i % 65536
  let vf := decide (k.func c ≠ 0)
  k.mine c && decide (2 ≤ r) && decide (r < 16) &&
    (k.ringLog2 i == 0 ||
      (match k.ring i with
       | none => false
       | some q =>
         decide (6 ≤ q.log2) && decide (q.log2 ≤ 16) && decide (q.base % 4096 = 0) && decide (q.wb % 64 = 0) &&
         (if q.kind = .submit ∨ q.kind = .adapter then k.isComplete c q.pair else decide (q.pair = 0)) &&
         (!vf || decide (q.vec < 16)) && (!vf || (decide (q.kind ≠ .mailboxIn) && decide (q.kind ≠ .mailboxOut)))))

/-- Rule 0x0102 on one staged ring. -/
def Check.ringKept (k : Check) (i : Nat) : Bool :=
  match k.oldRing i with
  | none => true
  | some q =>
    if k.ringLog2 i = 0 then !(decide (q.kind = .complete) && decide (q.reserved ≠ 0))
    else (List.range 6).all (fun w => k.ringWord i w == k.oldWord i w)

/-- Rule 0x0103 on one created context. -/
def Check.createdOk (k : Check) (c : Nat) : Bool :=
  let func := wordFld (k.cfg c) 8 6
  let page := wordFld (k.cfg c) 0 8
  let inUse := k.old.host.contexts.any (fun x => decide (x.2.port = k.port) && x.2.func == func && x.2.page == page &&
    decide (129 ≤ x.1) && !k.destroyed.contains x.1)
  let twice := k.created.any (fun d => d != c && wordFld (k.cfg d) 8 6 == func && wordFld (k.cfg d) 0 8 == page)
  !(k.old.ctx? c).isSome && decide (129 ≤ c) && decide (c ≤ 4095) && funcExists k.old k.port func &&
    decide (1 ≤ page) && (func == 0 || decide (page ≤ 7)) && !inUse && !twice && (func == 0 || k.session c != 0)

/-! Regions (R270, R334, R477, R484). -/

/-- Does a range lie outside LPDDR5X? An empty one does not. -/
def outside (limit : Nat) (r : Nat × Nat) : Bool := decide (r.2 ≠ 0) && decide (limit < r.1 + r.2)
/-- The hidden region of R483. -/
def hiddenRegion : Nat × Nat := (lpddrVisible, lpddrBytes - lpddrVisible)
/-- The exclusion table (R154). -/
def State.xmaskTable (s : State) : Nat × Nat :=
  (s.regFld R.vecXmaskBaseHi 0 16 * 2 ^ 32 + (s.regAt R.vecXmaskBaseLo).toNat, 131072)
/-- Base of a quota table. -/
def quotaBase (s : State) (lo hi : Nat) : Nat := s.regFld hi 0 16 * 2 ^ 32 + (s.regAt lo).toNat
/-- The Locker quota table. -/
def State.lkrQuotaTable (s : State) : Nat × Nat := (quotaBase s R.lkrQuotaLo R.lkrQuotaHi, 524288)
/-- The KV quota table. -/
def State.kvQuotaTable (s : State) : Nat × Nat := (quotaBase s R.umpKvQuotaLo R.umpKvQuotaHi, 524288)
/-- Does a port's window change? -/
def Check.movesWindow (k : Check) : Bool := k.old.winBase k.port != k.new.winBase k.port

/-- Rule 0x0104. -/
def Check.windowOk (k : Check) : Bool :=
  let w := k.new.window k.port
  let clash := [k.new.bullpen, k.new.dirRegion, k.new.kvPool, k.new.window k.port.other].any (overlaps w)
  let busy := (k.old.host.port k.port).flags.any (fun f => f.2.own) ||
    k.old.host.contexts.any (fun x => decide (x.2.port = k.port) && decide (129 ≤ x.1))
  !outside lpddrVisible w && !clash && !(k.movesWindow && busy)

/-- The takeover condition of R472 for a port. -/
def peerLost (s : State) : Bool :=
  let o := s.host.port s.host.owner
  let limit := s.regFld (portKey s.host.owner R.hubOwner) 0 16
  !o.linkUp || o.perst || (decide (limit ≠ 0) && (s.host.hbLost || decide (s.host.heartbeatTs + limit * 1000000 ≤ s.ts)))

/-- Does a bank stage TAKE = 1? -/
def Check.takes (k : Check) : Bool := k.new.regFld (portKey k.port R.hubOwner) 31 1 == 1

/-- R154. -/
def Check.xmaskOk (k : Check) : Bool :=
  let (a, n) := k.new.xmaskTable
  decide (a % 128 = 0) &&
    (decide (a + n ≤ lpddrVisible) || (inSram a && decide ((a - sramBase) / sdBytes = (a + n - 1 - sramBase) / sdBytes)))

/-- R215 on the staged ACTIVE_BANK. -/
def Check.activeOk (k : Check) : Bool :=
  let o := activeCode k.old.wst
  let n := k.new.regFld R.wstCtl 0 2
  let b0 := k.old.wst.bank0
  let b1 := k.old.wst.bank1
  let usable (r : BankRec) : Bool := decide (r.st = .ready) || decide (r.st = .active)
  let full := b0.full && b1.full && usable b0 && usable b1
  if n = 3 then true
  else (codeBanks n).all (fun b => usable (k.old.bank b)) &&
    (n == o || ([b0, b1].all (fun r => decide (r.st ≠ .draining)))) &&
    (if n = 2 then full else !full)

/-- R221 on MIRROR_PEER: the group's size is the product of R436. -/
def groupSize (s : State) : Nat :=
  s.regFld R.rdcGrpA 16 13 * s.regFld R.rdcGrpA 0 13 * s.regFld R.rdcGrpB 16 13 * s.regFld R.rdcGrpB 0 13 * s.regFld R.rdcGrpC 0 13

/-- Rule 0x0303. -/
def Check.mirrorOk (k : Check) : Bool :=
  let r := k.new.regFld R.wstMirrorPeer 0 12
  k.new.regFld R.wstCtl 4 1 == 0 || (decide (r ≠ k.new.rank) && decide (r < groupSize k.new))

/-- The Dugout of one SD die as (offset, bytes). -/
def State.dugout (s : State) : Nat × Nat := (s.regFld R.lkrDugout 16 16 * 2 ^ 20, s.regFld R.lkrDugout 0 16 * 2 ^ 20)

/-- Rule 0x0401. -/
def Check.lockerOk (k : Check) : Bool :=
  !overlaps k.new.bullpen k.new.dirRegion && !outside lpddrBytes k.new.bullpen && !outside lpddrBytes k.new.dirRegion &&
    decide (k.new.dugout.1 + k.new.dugout.2 ≤ sdBytes)

/-- Rule 0x0402. -/
def Check.lockerKept (k : Check) : Bool :=
  k.old.lkr.dir.isEmpty ||
    (k.old.bullpen == k.new.bullpen && k.old.dirRegion == k.new.dirRegion && k.old.dugout == k.new.dugout)

/-- The quota table in force with the bank: read anew where the bank writes its base. -/
def Check.lkrQuota (k : Check) : Tbl (Nat × Nat) :=
  if writesReg k.ws R.lkrQuotaLo || writesReg k.ws R.lkrQuotaHi then readQuota k.old k.new.lkrQuotaTable.1 else k.old.lkr.quota
/-- The KV quota table in force with the bank. -/
def Check.kvQuota (k : Check) : Tbl (Nat × Nat) :=
  if writesReg k.ws R.umpKvQuotaLo || writesReg k.ws R.umpKvQuotaHi then readQuota k.old k.new.kvQuotaTable.1 else k.old.ump.kvQuota
/-- The sum of the guaranteed pages. -/
def sumMin (t : Tbl (Nat × Nat)) : Nat := (t.map (·.2.1)).sum

/-- Rule 0x0403 (R246, R247, R624). -/
def Check.lkrQuotaOk (k : Check) : Bool :=
  let n := sumMin k.lkrQuota
  decide (n ≤ k.new.regFld R.lkrBullpenPages 0 24) && (k.new.regFld R.lkrCtl 1 1 == 0 || decide (n ≤ 4194304)) &&
    !outside lpddrBytes k.new.lkrQuotaTable

/-- Bytes of the Dugout that a class needs (R255). -/
def dugoutNeed (p : PrefixDecl) : Nat :=
  let slot := ceilDiv (2 * p.plenMax * kvRowBytes p.fmt p.dKv) 256 * 256
  if p.plenMax = 0 then 0 else ceilDiv (p.slots * ceilDiv p.plenMax 64 * 8) 256 * 256 + 2 * p.slots * slot

/-- Rule 0x0404. -/
def Check.dugoutOk (k : Check) : Bool := k.old.loadedClasses.all (fun c => decide (dugoutNeed c.pre ≤ k.new.dugout.2))

/-- Rule 0x0501 (R334). -/
def Check.kvOk (k : Check) : Bool :=
  let pool := k.new.kvPool
  let same := k.old.kvPool.1 == pool.1 && k.old.kvCount == k.new.kvCount && k.old.regAt R.umpKvShape == k.new.regAt R.umpKvShape
  !outside lpddrBytes pool && !overlaps pool k.new.bullpen && !overlaps pool k.new.dirRegion && (same || k.old.kvHeld.isEmpty) &&
    k.old.loadedClasses.all (fun c => decide (k.new.kvShape = (c.kv.kvFmt, c.kv.dKv, c.kv.layers)))

/-- Rule 0x0502 (R317, R624). -/
def Check.kvQuotaOk (k : Check) : Bool :=
  (k.new.regFld R.umpKvCtl 0 1 == 0 || decide (sumMin k.kvQuota + 1 ≤ k.new.kvCount)) && !outside lpddrBytes k.new.kvQuotaTable

/-- Does a bank write the reservation table? -/
def Check.writesRsv (k : Check) : Bool :=
  writesReg k.ws R.umpRsvCfg || writesReg k.ws R.umpRsvPeriod || writesReg k.ws R.umpRsvOffset

/-- The shape of R436 as the five sizes. -/
def groupShape (s : State) : List Nat :=
  [s.regFld R.rdcGrpA 16 13, s.regFld R.rdcGrpA 0 13, s.regFld R.rdcGrpB 16 13, s.regFld R.rdcGrpB 0 13, s.regFld R.rdcGrpC 0 13]

/-- Is a loaded schedule image bound to a group shape? -/
def groupLoaded (s : State) : Bool :=
  s.ump.images.any (fun p => p.2.classes.any (·.group.isSome) || p.2.programs.any (·.group.isSome))

/-- Rule 0x0701. -/
def Check.shapeOk (k : Check) : Bool :=
  (groupShape k.new).all (· != 0) && decide (groupSize k.new ≤ 4096) && decide (k.new.rank < groupSize k.new) &&
    (groupShape k.old == groupShape k.new || !groupLoaded k.old)

/-- The region registers of rule 0x0801. -/
def Check.regions (k : Check) : List (Nat × Nat) :=
  [k.new.bullpen, k.new.dirRegion, k.new.kvPool, k.new.window .a, k.new.window .b, k.new.xmaskTable, k.new.kvQuotaTable,
   k.new.lkrQuotaTable]

/-- The staged assignment as OP, CLASS, CTX, first page and count. -/
def Check.asgn (k : Check) : Nat × Nat × Nat × Nat × Nat :=
  (k.new.regFld R.memAsgnCtl 16 2, k.new.regFld R.memAsgnCtl 12 2, k.new.regFld R.memAsgnCtl 0 12,
   k.new.regFld R.memAsgnFirst 0 24, k.new.regFld R.memAsgnCount 0 24)

/-- Rule 0x0802. -/
def Check.asgnPlace (k : Check) : Bool :=
  let (op, _, _, first, count) := k.asgn
  let r := (first * pageBytes, count * pageBytes)
  op != 1 || (!outside lpddrVisible r &&
    !([k.new.bullpen, k.new.dirRegion, k.new.kvPool, k.new.window .a, k.new.window .b].any (overlaps r)))

/-- Rule 0x0803. -/
def Check.asgnPages (k : Check) : Bool :=
  let (op, _, ctx, first, count) := k.asgn
  let pages := (List.range count).map (· + first)
  match op with
  | 1 => pages.all (fun p => (k.old.page p).use == 0 && !k.old.pageOffline p && (Tbl.get? k.old.mem.ctxPages p).isNone)
  | 2 => pages.all (fun p => Tbl.get? k.old.mem.ctxPages p == some ctx)
  | _ => true

/-- Rule 0x0804. -/
def Check.asgnCtx (k : Check) : Bool :=
  let (op, cls, ctx, _, _) := k.asgn
  let session := if k.created.contains ctx then k.session ctx else (k.old.ctx? ctx).elim 0 (·.session)
  match op with
  | 0 => true
  | 1 => decide (1 ≤ ctx) && k.exists ctx && (cls == 2 || (cls == 1 && session != 0))
  | 2 => decide (1 ≤ ctx)
  | _ => false

/-- Rule 0x0805. -/
def Check.regionsClear (k : Check) : Bool :=
  let rs := [k.new.bullpen, k.new.dirRegion, k.new.kvPool, k.new.window .a, k.new.window .b]
  k.old.mem.ctxPages.all (fun p => !rs.any (fun r => overlaps r (p.1 * pageBytes, pageBytes)))

/-! Sessions (R533, R542). -/

/-- The contexts whose session the bank sets. -/
def Check.sessionIdx (k : Check) : List Nat :=
  (k.created ++ (writtenIdx k.ws (portKey k.port R.hubCtxSession)).filter (fun c => k.mine c && decide (129 ≤ c))).dedup

/-- Rule 0x0901. -/
def Check.sessionsActive (k : Check) : Bool :=
  k.sessionIdx.all (fun c => k.session c == 0 ||
    (Tbl.get? k.old.ref.sessions (k.session c)).elim false (fun q => decide (q.st = .active)))

/-- Contexts of a session on a function with the bank in place. -/
def Check.onGrant (k : Check) (session func : Nat) : Nat :=
  let kept := k.old.host.contexts.filter (fun x => decide (x.2.port = k.port) && x.2.func == func && x.2.session == session &&
    decide (129 ≤ x.1) && !k.destroyed.contains x.1 && !k.sessionIdx.contains x.1)
  kept.length + (k.sessionIdx.filter (fun c => k.session c == session && k.func c == func)).length

/-- Rule 0x0902. -/
def Check.granted (k : Check) : Bool :=
  k.sessionIdx.all (fun c => k.session c == 0 ||
    (Tbl.get? k.old.ref.sessions (k.session c)).elim false (fun q => q.grants.any (fun g =>
      decide (g.port = k.port) && g.func == k.func c && decide (k.onGrant (k.session c) (k.func c) ≤ g.maxCtx))))

/-- The group member list in the owner's window: its device address (R542). -/
def groupListAddr (s : State) : Nat := s.winBase s.host.owner + 65536 * s.regFld R.refGrpList 16 16
/-- COUNT of the list there. -/
def groupListCount (old new : State) : Nat := ofBytes (old.lpRead 0 (groupListAddr new) 4).1
/-- Rule 0x0903. -/
def Check.groupListOk (k : Check) : Bool :=
  !writesReg k.ws R.refGrpList ||
    (decide (groupListCount k.old k.new ≤ 4096) &&
     decide (65536 * k.new.regFld R.refGrpList 16 16 + 16 + 48 * groupListCount k.old k.new ≤ funcBytes 0))

/-! Spill area, counter sets (R571, R595). -/

/-- The spill area of one SD die. -/
def State.spillArea (s : State) : Nat × Nat := (s.regFld R.crtSpill 0 11 * 2 ^ 20, 32 * 2 ^ 20)

/-- Rule 0x0A01. -/
def Check.spillOk (k : Check) : Bool :=
  let a := k.new.spillArea
  decide (a.1 + a.2 ≤ sdBytes) && !overlaps a k.new.dugout &&
    k.old.loadedClasses.all (fun c => !overlaps a (c.kv.mapOff, kvMapBytes c))

/-- The context of an enabled counter set. -/
def setCtxOf (s : State) (i : Nat) : Option Nat :=
  let w := s.regAt (keyOf R.pmuCsetCtx i)
  if wordFld w 31 1 = 1 then some (wordFld w 0 12) else none

/-- Rule 0x0B01. -/
def Check.setsOk (k : Check) : Bool :=
  let on := (List.range 64).filterMap (fun i => (setCtxOf k.new i).map (fun c => (i, c)))
  let staged := writtenIdx k.ws R.pmuCsetCtx
  on.all (fun p => !staged.contains p.1 || k.exists p.2) && decide ((on.map (·.2)).Nodup)

/-! The rules by code (R477, R484, R533, R571, R595, R620). -/

/-- Every rule as (code, whether the configuration meets it), in increasing code. -/
def Check.rules (k : Check) : List (Nat × Bool) := [
  (0x0101, k.ringIdx.all k.ringOk),
  (0x0102, k.ringIdx.all k.ringKept),
  (0x0103, k.created.all k.createdOk),
  (0x0104, k.windowOk),
  (0x0105, !k.takes || (decide (k.port ≠ k.old.host.owner) && peerLost k.old)),
  (0x0201, k.xmaskOk),
  (0x0301, !writesReg k.ws R.wstCtl || k.activeOk),
  (0x0302, let n := k.new.regFld R.wstDrainLimit 0 20; n == 0 || (decide (1000 ≤ n) && decide (n ≤ 600000))),
  (0x0303, k.mirrorOk),
  (0x0401, k.lockerOk),
  (0x0402, k.lockerKept),
  (0x0403, k.lkrQuotaOk),
  (0x0404, k.dugoutOk),
  (0x0501, k.kvOk),
  (0x0502, k.kvQuotaOk),
  (0x0503, !k.writesRsv || rsvTableOk k.new k.exists k.new.rsvTable),
  (0x0504, !k.writesRsv || groupTableOk k.new k.new.rsvTable),
  (0x0505, decide (50 ≤ k.new.regFld R.umpCtl 0 13) && decide (k.new.regFld R.umpCtl 0 13 ≤ 5000)),
  (0x0506, (writtenIdx k.ws R.umpCtxShare).all (fun c => k.new.regFld (keyOf R.umpCtxShare c) 0 16 != 0)),
  (0x0507, decide (65536 * k.new.regFld R.umpAcctBase 16 16 + 524288 ≤ funcBytes 0)),
  (0x0508, k.new.regFld R.umpDrrQuantum 0 16 != 0),
  (0x0601, decide (k.new.regFld R.mglCtl 20 4 ≤ 8)),
  (0x0602, (writtenIdx k.ws R.mglRtData).all (fun d => let p := k.new.route d; decide (p ≤ 16) || decide (p = 31)) &&
    decide (k.new.route k.new.rank = 16)),
  (0x0603, k.old.regFld R.rstStraps 2 2 != 2 || k.new.regFld R.mglTsyncCtl 16 4 == 0),
  (0x0701, k.shapeOk),
  (0x0801, !k.regions.any (overlaps hiddenRegion)),
  (0x0802, k.asgnPlace),
  (0x0803, k.asgnPages),
  (0x0804, k.asgnCtx),
  (0x0805, k.regionsClear),
  (0x0806, decide (k.new.regFld R.memCtl 16 8 ≤ 168) && decide (k.new.regFld R.memCtl 0 11 ≤ 1200)),
  (0x0901, k.sessionsActive),
  (0x0902, k.granted),
  (0x0903, k.groupListOk),
  (0x0A01, k.spillOk),
  (0x0B01, k.setsOk),
  (0x0C01, decide (800 ≤ k.new.regFld R.pwrLimit 0 12) && decide (k.new.regFld R.pwrLimit 0 12 ≤ 2400))]

/-- The first failing code, 0 when every rule holds. -/
def Check.code (k : Check) : Nat := ((k.rules.find? (fun r => !r.2)).map (·.1)).getD 0

/-! What a bank changes (step 2 of R25). -/

/-- A context the bank creates (R466, R467, R348, R496); its accounting record is zeroed and VALID (R360, R361). -/
def createCtx (k : Check) (s : State) (c : Nat) : State :=
  let s := s.setCtx c ⟨k.port, wordFld (k.cfg c) 8 6, wordFld (k.cfg c) 0 8, k.session c, [], [], 0, none⟩
  let s := if (writtenIdx k.ws R.umpCtxShare).contains c then s else s.setFld (keyOf R.umpCtxShare c) 0 16 1
  let s := writeAcct (s.setAcct c .zero) c
  { s with mem := { s.mem with ctxKeys := Tbl.set s.mem.ctxKeys c s.mem.nextKey, nextKey := s.mem.nextKey + 1 } }

/-- A staged ring takes effect: removed, or configured where none was. -/
def setRing (k : Check) (s : State) (i : Nat) : State :=
  let c := i / 65536
  let r := i % 65536
  if k.ringLog2 i = 0 then s.modCtx c (fun x => { x with rings := Tbl.erase x.rings r })
  else match s.ring? c r, k.ring i with
    | none, some q => s.modCtx c (fun x => { x with rings := Tbl.set x.rings r q })
    | _, _ => s

/-- A staged assignment or release of context memory (R500). -/
def assignMemory (k : Check) (s : State) : State :=
  let (op, cls, ctx, first, count) := k.asgn
  let pages := (List.range count).map (· + first)
  let s := s.setFld R.memAsgnCtl 16 2 0
  if count = 0 then s
  else match op with
    | 1 =>
      let index := if cls = 1 then s.slotOfCtx ctx else ctx
      let s := s.setPages pages ⟨5, cls, index⟩
      { s with mem := { s.mem with
          ctxPages := pages.foldl (fun t p => Tbl.set t p ctx) s.mem.ctxPages
          scrubs := s.mem.scrubs ++ [⟨pages, pages, first, count, ctx, false, true⟩] } }
    | 2 => s.releaseMemory pages ctx true
    | _ => s

/-- The reservation table applied: windows without GROUP restart, changed group entries take effect at the boundary, and
U is shown (R344, R346, R351, R353). -/
def applyRsv (k : Check) (s : State) (instant : Nat) : State :=
  let changed (i : Nat) : Bool := k.old.rsvEntry i != s.rsvEntry i
  if (List.range 64).all (fun i => !changed i) then
    if k.writesRsv then { s with ump := { s.ump with atRisk := false } } else s
  else
    let run (i : Nat) : Nat × RsvRun :=
      let was := Tbl.getD s.ump.rsv i ⟨none, [], instant⟩
      match s.rsvEntry i with
      | some e => (i, if e.group && !changed i then was else ⟨none, [], instant⟩)
      | none => (i, ⟨none, [], instant⟩)
    let u := utilOf s s.rsvTable
    let s := s.setReg R.umpUtil (BitVec.ofNat 32 (u.1 * 65536 / u.2 % 131072))
    { s with ump := { s.ump with rsv := (List.range 64).map run, windowBase := instant, atRisk := false } }

/-- The group step number loaded and the fault cleared (R404, R424). A group step whose slot starts at this boundary goes on
under the loaded number (assumption 233). -/
def applyGstep (s : State) : State :=
  if s.regFld R.rdcGrpC 31 1 = 0 then s
  else
    let s := s.setFld R.rdcGrpC 31 1 0
    { s with rdc := { s.rdc with gstep := s.reg64 R.rdcGstepSetLo R.rdcGstepSetHi, faulted := false } }

/-- The eight slots of the accounting table taken or given back (R360). -/
def acctSlots (s : State) (take : Bool) : State :=
  let first := s.regFld R.umpAcctBase 16 16
  let slots := (List.range 8).map (· + first)
  s.modPort s.host.owner (fun p =>
    if take then { p with flags := slots.foldl (fun t i => Tbl.set t i { Tbl.getD t i ⟨false, 0⟩ with own := true }) p.flags }
    else p.giveBack slots)

/-- An apply of UMP_ACCT_BASE: the old table's slots return, the new one's are taken and every record is written. -/
def applyAcct (k : Check) (s : State) : State :=
  if k.old.regAt R.umpAcctBase = s.regAt R.umpAcctBase then s
  else
    let back := if acctOn k.old then
        { acctSlots { s with regs := k.old.regs } false with regs := s.regs }
      else s
    if acctOn back then (List.range 4096).foldl writeAcct (acctSlots back true) else back

/-- The group member list copied, and MR11 extended by the list and ENC (R525, R542). -/
def applyGroupList (k : Check) (s : State) : State :=
  let s := if writesReg k.ws R.refGrpList then
      let a := groupListAddr s
      let n := groupListCount s s
      let bs := (s.lpRead 0 a (16 + 48 * n)).1
      { s with ref := { s.ref with
          groupList := (List.range n).map (fun i => BitVec.ofNat 384 (ofBytes ((bs.drop (16 + 48 * i)).take 48)))
          controllerRank := ofBytes ((bs.drop 4).take 2) } }
    else s
  let list := s.ref.groupList.flatMap (fun d => bytesOf 48 d.toNat)
  if writesReg k.ws R.refGrpList || k.old.regFld R.mglPortCfg 16 16 != s.regFld R.mglPortCfg 16 16 then
    s.extendMrBytes 11 (bytesOf 48 (sha384 list).toNat ++ bytesOf 2 (s.regFld R.mglPortCfg 16 16))
  else s

/-- MR10 extended when a PARTITIONED bit changes (R525). -/
def applyPartitioned (k : Check) (s : State) : State :=
  let bits (x : State) : Nat := x.regFld R.lkrCtl 1 1 + 2 * x.regFld R.umpKvCtl 0 1
  if bits k.old = bits s then s else s.extendMrBytes 10 [BitVec.ofNat 8 (bits s)]

/-- Counter sets bound by the bank, their counts at 0 (R592). -/
def applySets (k : Check) (s : State) : State :=
  (writtenIdx k.ws R.pmuCsetCtx).foldl (fun s i =>
    { s with scb := { s.scb with csets := match setCtxOf s i with
      | some c => Tbl.set s.scb.csets i ⟨c, [0, 0, 0, 0]⟩
      | none => Tbl.erase s.scb.csets i } }) s

/-- The quota tables read again at an apply of their bases (R246, R317). -/
def applyQuotas (k : Check) (s : State) : State :=
  { s with
    lkr := { s.lkr with quota := k.lkrQuota }
    ump := { s.ump with kvQuota := k.kvQuota } }

/-- The zero page written at an apply of the pool's base or shape (R315), and of its page count, before which an empty pool had
no zero page. DEDUCED (assumption 227). -/
def applyZeroPage (k : Check) (s : State) : State :=
  if (writesReg k.ws R.umpKvBaseLo || writesReg k.ws R.umpKvBaseHi || writesReg k.ws R.umpKvShape || writesReg k.ws R.umpKvPages) && decide (s.kvCount ≠ 0) then
    s.zeroPages (s.kvMemPages 0)
  else s

/-- A takeover (R472): the owner's bank is discarded, ownership moves, deficits are 0, windows restart, and the
accounting table is given up. -/
def takeOver (k : Check) (s : State) (instant : Nat) : State :=
  let was := s.host.owner
  let s := if acctOn s then (acctSlots s false).setFld R.umpAcctBase 0 1 0 else s
  let s := s.modPort was (fun p => { p with bank := { Bank.reset with phase := .discarded } })
  let s := s.setFld (portKey k.port R.hubOwner) 31 1 0
  { s with
    host := { s.host with owner := k.port, heartbeatTs := s.ts, hbLost := false }
    ump := { s.ump with
      drr := .empty, segDrr := .empty, windowBase := instant
      rsv := (List.range 64).map (fun i =>
        let r := Tbl.getD s.ump.rsv i ⟨none, [], instant⟩
        (i, if (s.rsvEntry i).elim false (·.group) then r else ⟨none, [], r.since⟩)) } }

/-- A checked bank takes effect entirely (R476). -/
def applyCheck (k : Check) (instant : Nat) : State :=
  let s := { k.old with regs := k.new.regs }
  let s := k.destroyed.foldl State.destroyCtx s
  let s := k.created.foldl (createCtx k) s
  let s := k.sessionIdx.foldl (fun s c => s.modCtx c (fun x => { x with session := k.session c })) s
  let s := (k.ringIdx.filter (fun i => k.mine (i / 65536))).foldl (setRing k) s
  let s := assignMemory k s
  let s := applyQuotas k s
  let s := applyZeroPage k s
  let s := if writesReg k.ws R.wstCtl then s.switchBanks (activeCode k.old.wst) (s.regFld R.wstCtl 0 2) else s
  let s := applyRsv k s instant
  let s := applyGstep s
  let s := applyGroupList k (applyPartitioned k s)
  let s := applySets k s
  let s := s.applyLinks
  let s := applyAcct k s
  if k.takes then takeOver k s instant else s

/-- A bank's check against a configuration. -/
def checkOf (p : Port) (base : State) (ws : List StagedWrite) : Check :=
  { port := p, old := base, new := overlay base ws, ws := ws }

/-- The check of R475: the running configuration with the other port's pending bank in place. -/
def hdlCheck (s : State) (p : Port) (ws : List StagedWrite) : Nat :=
  let other := (s.host.port p.other).bank
  let base := if other.phase = .pending then applyCheck (checkOf p.other s other.writes) s.ts else s
  (checkOf p base ws).code

/-- A port's bank changed. -/
def State.modBank (s : State) (p : Port) (f : Bank → Bank) : State := s.modPort p (fun x => { x with bank := f x.bank })

/-- One bank at a boundary (R476, R578): it takes effect and is empty again, or fails and keeps its values. -/
def takeBank (instant : Nat) (s : State) (p : Port) : State :=
  let b := (s.host.port p).bank
  if b.phase ≠ .pending then s
  else
    let k := checkOf p s b.writes
    let code := k.code
    let s := if code = 0 then
        let s := (applyCheck k instant).modBank p (fun _ => { Bank.reset with phase := .applied })
        (s.bump (portKey p R.hdlApplyCount)).setReg64 (portKey p R.hdlAppliedTsLo) (portKey p R.hdlAppliedTsHi) instant
      else s.modBank p (fun b => { b with phase := .failed, running := none })
    let s := s.setFld (portKey p R.hdlStatus) 16 16 code
    s.trace (queueHd p) 8 0 ((s.regAt (portKey p R.hdlApplyCount)).toNat + 2 ^ 32 * code)

/-- Is a port's bank due at a boundary's instant (R475, R649)? -/
def bankDue (s : State) (p : Port) (instant : Nat) : Bool :=
  let b := (s.host.port p).bank
  decide (b.phase = .pending) && decide (b.pendingTs < instant) && b.applyAt.elim true (fun t => decide (t ≤ instant))

/-- Does a port's pending bank take ownership? -/
def bankTakes (s : State) (p : Port) : Bool := (checkOf p s (s.host.port p).bank.writes).takes

/-- The pending banks at a boundary in the order of R476. -/
def State.takeBanks (s : State) (instant : Nat) : State :=
  let due := [Port.a, Port.b].filter (fun p => bankDue s p instant)
  let first := due.filter (bankTakes s)
  let owner := s.host.owner
  let rest := (due.filter (fun p => !bankTakes s p && decide (p = owner))) ++
    (due.filter (fun p => !bankTakes s p && decide (p ≠ owner)))
  (first ++ rest).foldl (takeBank instant) s

end Sys2Proof.Machine
end

