-- ==== Sys2Proof/Machine/ChooseOps.lean ====
section
/-! DEFINITION. The Umpire's choices: which serve takes the next slot, and which context's segment runs next (R342 to R350). -/
namespace Sys2Proof.Machine
open Sys2Proof

/-! Ready serves (R301, R303, R343, R326). -/

/-- Do two serves belong to one stream (R301)? -/
def ReadyServe.sameStream (a b : ReadyServe) : Bool := a.ctx == b.ctx && a.cls == b.cls && a.epoch == b.epoch

/-- The serves that are ready at a slot end: the first of each stream, read before it (R343). -/
def State.readyServes (s : State) (t : Nat) : List ReadyServe :=
  s.ump.ready.filter (fun r => decide (r.readTs < t) && (s.ctx? r.ctx).elim false (fun x => x.tearDown.isNone) &&
    (s.ump.ready.find? (fun q => q.sameStream r)).map (·.did) == some r.did)

/-- Bytes of the output area a serve needs (R308). -/
def outNeed (count : Nat) (outExtra : Nat) : Nat := ceilDiv (16 * count) 256 * 256 + count * outExtra

/-- The checks of R326, in order: the status of the first that fails. -/
def serveCheck (s : State) (r : ReadyServe) : Option Nat :=
  match s.bankOfEpoch r.epoch with
  | none => some stRetired
  | some _ =>
    match s.classOf r.epoch r.cls with
    | none => some stBad
    | some (_, img, k) =>
      if !s.mayRun r.ctx img then some stNotOwner
      else if r.outBytes < outNeed r.count k.kv.outExtra then some stBad
      else none

/-- The slot length of a ready serve (R339). -/
def serveLen (s : State) (r : ReadyServe) : Nat := (s.classOf r.epoch r.cls).elim s.idleLen (fun k => s.slotLen k.2.2.wcet)

/-- R326, and a class whose stretched length exceeds 50 ms (R353). -/
def serveFails (s : State) (r : ReadyServe) : Option Nat :=
  match serveCheck s r with
  | some st => some st
  | none => if 50000000 < serveLen s r then some stAbortedFence else none

/-- A serve number: its own, or the next (R331). -/
def State.takeNumber (s : State) (r : ReadyServe) : Nat × State :=
  if r.settled then (r.serveNo, s) else (s.ump.serveNo + 1, { s with ump := { s.ump with serveNo := s.ump.serveNo + 1 } })

/-- Serves that fail R326 complete at the slot end, each with a serve number and no slot; the next of the stream may then
be ready at the same slot end (R342). -/
def State.retireFailed (t : Nat) : Nat → State → State
  | 0, s => s
  | n + 1, s =>
    match (s.readyServes t).findSome? (fun r => (serveFails s r).map (fun st => (r, st))) with
    | none => s
    | some (r, st) =>
      let (no, s) := s.takeNumber r
      let s := (s.giveBack r).dropServe r.did
      State.retireFailed t n (s.complete r.did st 0 (serveExtra no 0 0))

/-- A class that sends on reduction or fast-break channels: its serves run in group slots only (R351). -/
def groupServe (s : State) (r : ReadyServe) : Bool := (s.classOf r.epoch r.cls).elim false (fun k => k.2.2.group.isSome)

/-! Deficit round-robin (R349). -/

/-- The active list brought up to date: contexts that are not of `keep` leave it with deficit 0, candidates join it in
increasing order; the pointer stays on its context, or moves to the next when that one leaves. A context of `keep` that is no
candidate is passed over as it stands (R350). -/
def Drr.refresh (d : Drr) (keep cands : List Nat) : Drr :=
  let kept := d.active.filter keep.contains
  let before := ((d.active.take d.ptr).filter keep.contains).length
  let fresh := (cands.filter (fun c => !kept.contains c)).insertionSort (fun a b => a ≤ b)
  { active := kept ++ fresh, ptr := if before < kept.length then before else 0,
    visited := d.visited.filter keep.contains, deficit := d.deficit.filter (fun p => keep.contains p.1) }

/-- The loop of R349 over the contexts that `fits` lets through; `n` bounds the visits. -/
def drrLoop (share len : Nat → Nat) (fits : Nat → Bool) : Nat → Drr → Option Nat × Drr
  | 0, d => (none, d)
  | n + 1, d =>
    match d.active[d.ptr]? with
    | none => (none, d)
    | some c =>
      let next := if d.ptr + 1 < d.active.length then d.ptr + 1 else 0
      if !fits c then drrLoop share len fits n { d with ptr := next }
      else
        let d := if d.visited.contains c then d else
          { d with deficit := Tbl.set d.deficit c (Tbl.getD d.deficit c 0 + share c), visited := c :: d.visited }
        let have_ := Tbl.getD d.deficit c 0
        if (len c : Int) ≤ have_ then (some c, { d with deficit := Tbl.set d.deficit c (have_ - len c) })
        else drrLoop share len fits n { d with visited := d.visited.filter (· != c), ptr := next }

/-- A context chosen by R349: candidates with the length of each one's head; `keep` are the contexts that stay on the active
list. -/
def drrPick (s : State) (d : Drr) (keep cands : List Nat) (len : Nat → Nat) : Option Nat × Drr :=
  let d := d.refresh keep cands
  if cands.isEmpty then (none, d)
  else
    let q := 1000 * s.regFld R.umpDrrQuantum 0 16
    let longest := (cands.map len).foldl max 0
    drrLoop (fun c => s.share c * q) len cands.contains (d.active.length * (longest / max 1 q + 3)) d

/-! Reservations (R344, R345). -/

/-- The newest epoch of a class: the greatest of the ACTIVE and DRAINING banks whose image holds it. -/
def newestEpoch (s : State) (cls : Nat) : Option Nat :=
  ([0, 1].filterMap (fun b =>
    let r := s.bank b
    let live := decide (r.st = .active) || decide (r.st = .draining)
    if live && ((s.imageOf r.imageId).bind (fun p => p.2.cls? cls)).isSome then some r.epoch else none)).max?

/-- Does a reservation entry run this serve's stream (R345)? A class that sends on channels runs in group slots only (R351, R403). -/
def rsvRuns (s : State) (e : RsvEntry) (r : ReadyServe) : Bool :=
  !e.group && !groupServe s r && e.ctx == r.ctx && e.cls == r.cls && newestEpoch s r.cls == some r.epoch

/-- Does a stream run only as reserved jobs? -/
def reservedServe (s : State) (r : ReadyServe) : Bool := s.rsvTable.any (fun e => rsvRuns s e r)

/-- The window of an entry that holds an instant. -/
def windowAt (s : State) (e : RsvEntry) (t : Nat) : Option Nat :=
  if t < s.ump.windowBase then none else some ((t - s.ump.windowBase) / e.period)
/-- The end of a window. -/
def windowEnd (s : State) (e : RsvEntry) (k : Nat) : Nat := s.ump.windowBase + (k + 1) * e.period
/-- An entry's run state. -/
def State.rsvRun (s : State) (i : Nat) : RsvRun := Tbl.getD s.ump.rsv i ⟨none, [], 0⟩
/-- The state with an entry's run state set. -/
def State.setRsvRun (s : State) (i : Nat) (r : RsvRun) : State := { s with ump := { s.ump with rsv := Tbl.set s.ump.rsv i r } }

/-- The jobs that are pending at a slot end: entry, window and serve (R345). -/
def State.jobs (s : State) (t : Nat) : List (RsvEntry × Nat × ReadyServe) :=
  s.rsvTable.filterMap (fun e =>
    match windowAt s e t, (s.readyServes t).find? (fun r => rsvRuns s e r) with
    | some k, some r => if (s.rsvRun e.index).taken = some k then none else some (e, k, r)
    | _, _ => none)

/-- The jobs' windows noted as pending. -/
def State.noteJobs (s : State) (t : Nat) : State :=
  (s.jobs t).foldl (fun s j =>
    let r := s.rsvRun j.1.index
    if r.windows.contains j.2.1 then s else s.setRsvRun j.1.index { r with windows := r.windows ++ [j.2.1] }) s

/-! The choice (R342). -/

/-- A slot starts: SLOT_START and the slot counters (R338, R578, R588). -/
def State.startSlot (s : State) (t len : Nat) (kind : SlotKind) (r : Option ReadyServe) : State :=
  let group := match kind with
    | .group _ => 1
    | _ => 0
  let ctx := r.elim 0 (·.ctx)
  let hidden := r.elim false (·.isSealed)
  let s := { s with ump := { s.ump with
    slot := some ⟨t, len, t + len, kind, r.map (fun (x : ReadyServe) => x.did), false⟩
    overrun := none, shut := [] } }
  let s := s.trace s.queueSched 1 ctx (len % 2 ^ 32 + 2 ^ 32 * (r.elim 0 (·.cls)) + 2 ^ 48 * (if r.isSome then 1 else 0) +
    2 ^ 49 * group) hidden
  let c : Counted := { unit := 1, ctx := ctx, isSealed := hidden }
  (s.count s.queueSched 9 0 1 c).count s.queueSched 9 (if r.isSome then 1 else 2) 1 c

/-- Rule 1 of R342: a group slot that starts now. -/
def chooseGroup (s : State) (t : Nat) : Option State :=
  match s.rsvTable.find? (fun e => e.group && decide (groupStart s e t = t)) with
  | none => none
  | some e =>
    let r := (s.readyServes t).find? (fun r => r.ctx == e.ctx && r.cls == e.cls && groupServe s r)
    some (s.startSlot t (r.elim (entryLen s e) (serveLen s)) (.group e.index) r)

/-- A serve whose probe pass has just run takes the next slot (R68). -/
def chooseProbed (s : State) (t : Nat) (did : Nat) : Option State :=
  match (s.readyServes t).find? (fun r => r.did == did && !groupServe s r) with
  | none => none
  | some r =>
    let len := serveLen s r
    if !fitsBeforeGroup s t len then none else some (s.startSlot t len .shared (some r))

/-- Rule 2 of R342: the pending reserved job of earliest window end, ties to the lower index. -/
def chooseReserved (s : State) (t : Nat) : Option State :=
  let fit := (s.jobs t).filter (fun j => fitsBeforeGroup s t (serveLen s j.2.2))
  let best := fit.foldl (fun b j =>
    match b with
    | none => some j
    | some x => if windowEnd s j.1 j.2.1 < windowEnd s x.1 x.2.1 then some j else some x) none
  match best with
  | none => none
  | some (e, k, r) =>
    let run := s.rsvRun e.index
    let s := s.setRsvRun e.index { run with taken := some k, windows := run.windows.filter (· != k) }
    some (s.startSlot t (serveLen s r) (.reserved e.index) (some r))

/-- The serve of a context that was read first. -/
def headOf (rs : List ReadyServe) (c : Nat) : Option ReadyServe :=
  (rs.filter (fun r => r.ctx == c)).foldl (fun b r =>
    match b with
    | none => some r
    | some x => if r.readTs < x.readTs then some r else some x) none

/-- Rule 3 of R342: a shared serve by R349. -/
def chooseShared (s : State) (t : Nat) : Option State × Drr :=
  let rs := (s.readyServes t).filter (fun r =>
    !reservedServe s r && !groupServe s r && fitsBeforeGroup s t (serveLen s r))
  let cands := (rs.map (·.ctx)).dedup
  let len (c : Nat) : Nat := (headOf rs c).elim 0 (serveLen s)
  let (c, d) := drrPick s s.ump.drr cands cands len
  (c.bind (fun c => (headOf rs c).map (fun r =>
    { s with ump := { s.ump with drr := d } }.startSlot t (len c) .shared (some r))), d)

/-- Rule 4 of R342: an idle slot, shortened to the next group slot (R340). -/
def chooseIdle (s : State) (t : Nat) : State :=
  let len := (s.nextGroup (t + 1)).elim s.idleLen (fun g => min s.idleLen (g.1 - t))
  s.startSlot t len .idle none

/-- SLOT_CHOICE (R342). -/
def State.choose (s : State) (t : Nat) (probed : Option Nat) : State :=
  let s := s.retireFailed t (s.ump.ready.length + 1)
  let s := s.noteJobs t
  match chooseGroup s t with
  | some x => x
  | none =>
    match probed.bind (chooseProbed s t) with
    | some x => x
    | none =>
      match chooseReserved s t with
      | some x => x
      | none =>
        match chooseShared s t with
        | (some x, _) => x
        | (none, d) => chooseIdle { s with ump := { s.ump with drr := d } } t

/-! The next segment (R31, R350). -/

/-- A step's program. -/
def programAt (s : State) (p : PStep) : Option Program := (Tbl.get? s.ump.images p.imgSlot).bind (fun i => i.program? p.program)

/-- Is a practice program fenced by a lost shard or a fenced region (R214, R553)? -/
def programFenced (s : State) (slot number : Nat) : Bool :=
  s.wst.fences.any (fun f => f.practice && f.imgSlot == slot && f.number == number && !f.lifted) ||
    s.err.fencedSchedules.contains (slot, 65536 + number)

/-- Does the completion of a practice step of a context wait for the slot end? Its next step starts only afterwards (R289). -/
def stepCompletes (s : State) (c : Nat) : Bool :=
  s.host.completions.any (fun p => (s.acc? p.did).elim false (fun a => a.ctx == c && fld a.desc 0 0 8 == 0x41))

/-- Is a commit of a record of the step to be copied? No segment of the record runs before the copy is made (R291). -/
def copyPending (s : State) (p : PStep) : Bool :=
  p.adapters.any (fun a => (s.lkr.records.find? (fun r => r.adapter == a)).elim false (fun r => r.commit.elim false (·.stagedTs.isNone) || !r.later.isEmpty))

/-- The next segment of a context: its first step, when that step has a segment left, its program is not fenced, no completion
of an earlier step waits and no commit of its records is to be copied (R289, R291, R214). `group` picks group-bound
programs. -/
def nextSegment (s : State) (group : Bool) (c : Nat) : Option (PStep × Segment) :=
  match s.ump.steps.find? (fun p => p.ctx == c) with
  | none => none
  | some p =>
    match programAt s p with
    | none => none
    | some g =>
      if programFenced s p.imgSlot p.program || g.group.isSome != group || (s.ctx? c).elim true (fun x => x.tearDown.isSome) ||
          stepCompletes s c || copyPending s p
      then none else (g.segments[p.segment]?).map (fun x => (p, x))

/-- The choice of R350 in the time left to a slot end; the rest of a slot goes to other contexts than those whose work was
stopped in it (R355). -/
def State.pickSegment (s : State) (left : Nat) : Option Nat × Drr :=
  let keep := ((s.ump.steps.map (·.ctx)).dedup).filter (fun c => (nextSegment s false c).isSome)
  let len (c : Nat) : Nat := (nextSegment s false c).elim 0 (fun x => s.segLen x.2.wcet)
  drrPick s s.ump.segDrr keep (keep.filter (fun c => decide (len c ≤ left) && !s.ump.shut.contains c)) len

end Sys2Proof.Machine
end

