-- ==== Sys2Proof/Machine/GroupOps.lean ====
section
/-! DEFINITION. Group steps as shared operations (chapter 12): ranks and trees, votes and verdicts, the amax history
(R63 to R65), and what a verdict does at the slot end (R422, R434, R435). -/
namespace Sys2Proof.Machine
open Sys2Proof

/-! Ranks, subgroups and trees (R400, R401, R411). -/

/-- The axes in mixed-radix order, innermost first, as (axis number, size, stride in ranks): tensor, sequence, expert,
pipeline, data (R400). -/
def axes (s : State) : List (Nat × Nat × Nat) :=
  let sizes := groupShape s
  let stride (i : Nat) : Nat := (sizes.take i).foldl (· * ·) 1
  [(1, sizes.getD 0 1, stride 0), (4, sizes.getD 1 1, stride 1), (3, sizes.getD 2 1, stride 2), (2, sizes.getD 3 1, stride 3),
   (0, sizes.getD 4 1, stride 4)]

/-- The masked axes. -/
def axesIn (s : State) (mask : Nat) : List (Nat × Nat × Nat) := (axes s).filter (fun a => bitAt mask a.1)

/-- The size of a subgroup. -/
def subSize (s : State) (mask : Nat) : Nat := ((axesIn s mask).map (·.2.1)).foldl (· * ·) 1

/-- A rank's leaf index in its subgroup under a mask. -/
def leafOf (s : State) (mask rank : Nat) : Nat :=
  ((axesIn s mask).foldl (fun (acc : Nat × Nat) a => (acc.1 + rank / a.2.2 % a.2.1 * acc.2, acc.2 * a.2.1)) (0, 1)).1

/-- The rank at a leaf of this device's subgroup under a mask. -/
def rankAt (s : State) (mask leaf : Nat) : Nat :=
  let me := s.rank
  let base := (axesIn s mask).foldl (fun r a => r - me / a.2.2 % a.2.1 * a.2.2) me
  ((axesIn s mask).foldl (fun (acc : Nat × Nat) a => (acc.1 + acc.2 % a.2.1 * a.2.2, acc.2 / a.2.1)) (base, leaf)).1

/-- Levels of the tree over `n` leaves. -/
def levels (n : Nat) : Nat := if n ≤ 1 then 0 else Nat.log2 (n - 1) + 1

/-- The level at which leaf `j` sends its node's value up: the number of low zero bits; leaf 0 never sends. -/
def sendLevel (j : Nat) : Nat → Nat
  | 0 => 0
  | n + 1 => if j % 2 = 1 then 0 else sendLevel (j / 2) n + 1

/-- The leaf that leaf `j` sends to, and the level of that transfer. -/
def parentOf (j : Nat) : Option (Nat × Nat) :=
  if j = 0 then none else
    let k := sendLevel j 12
    some (j - 2 ^ k, k + 1)

/-- The children of leaf `j` in a tree of `n` leaves, as (level, leaf). -/
def childrenOf (j n : Nat) : List (Nat × Nat) :=
  let top := if j = 0 then levels n else sendLevel j 12
  (List.range top).filterMap (fun i => if j + 2 ^ i < n then some (i + 1, j + 2 ^ i) else none)

/-! The amax history (R63 to R65, R67). -/

/-- An empty outer-scale slot (R63, R67). The spec names no command with which the operator clears one slot; a context's
slots are emptied when it is created. DESIGN CHOICE (assumption 209). -/
def OscSlot.empty : OscSlot := ⟨0, 0, 0, 0, 0, List.replicate 16 zero32⟩

/-- A context's outer-scale slot. -/
def State.oscSlot (s : State) (c i : Nat) : OscSlot := (s.ctx? c).elim .empty (fun x => Tbl.getD x.osc i .empty)

/-- The valid entries: the COUNT written most recently. -/
def OscSlot.history (o : OscSlot) : List F32 := (List.range o.count).map (fun i => o.amax.getD ((o.next + 15 - i) % 16) zero32)

/-- One append (R64, R65): the new amax, then EXP from the largest valid entry. -/
def OscSlot.append (o : OscSlot) (amax : F32) (fmt : Fmt) (wexp : Int) : OscSlot :=
  let p : OscSlot := { o with
    count := min 16 (o.count + 1), next := (o.next + 1) % 16, fmt := fmt.code, wexp := wexp, amax := o.amax.set o.next amax }
  { p with exp := chooseExponent32 (p.history.foldl max32 zero32) fmt }

/-- The state with an append to a context's slot. -/
def State.appendAmax (s : State) (c i : Nat) (amax : F32) (fmt : Fmt) (wexp : Int) : State :=
  s.modCtx c (fun x => { x with osc := Tbl.set x.osc i ((Tbl.getD x.osc i .empty).append amax fmt wexp) })

/-! Declarations (R407, R428, R415). -/

/-- The group declaration of a piece of work by image slot: of a class, or of a program. -/
def groupOf (s : State) (slot : Nat) (segment : Bool) (number : Nat) : Option GroupDecl :=
  (Tbl.get? s.ump.images slot).bind (fun i =>
    if segment then (i.program? number).bind (·.group) else (i.cls? number).bind (·.group))

/-- Does a channel command use the agreed scale of a slot (WIRE 2)? -/
def agreedSlot (c : Desc) : Option Nat :=
  if 1 ≤ fld c 0 0 8 ∧ fld c 0 0 8 ≤ 4 ∧ fld c 1 2 2 = 2 then some (fld c 16 48 16) else none

/-- The distinct agreed-scale slots of a group's work, in increasing channel number and then in command order (R428). -/
def agreedSlots (g : GroupDecl) : List Nat :=
  ((g.channels.insertionSort (fun a b => a.ch ≤ b.ch)).flatMap (fun c => c.commands.filterMap agreedSlot)).eraseDups

/-- The attempt of a piece of group work (R406). -/
def State.attemptOf (s : State) (did : Nat) : Attempt := Tbl.getD s.rdc.attempts did ⟨0, 0, [], []⟩

/-- INIT_EXP of the first WIRE 2 command's OUT_TENSOR on a slot, which a commit records as the exponent of a slot without history
(assumption 211). -/
def agreedInit (i : Image) (g : GroupDecl) (slot : Nat) : Int :=
  match (g.channels.flatMap (·.commands)).find? (fun c => agreedSlot c == some slot) with
  | some c => (i.tensors.getD (fld c 12 0 16) .plain).initExp
  | none => 0

/-- EXP of a context's slot; none without history. -/
def State.slotExp (s : State) (c slot : Nat) : Option Int :=
  let o := s.oscSlot c slot
  if o.count = 0 then none else some o.exp

/-- The agreed scale of a slot in a context's work, for a tensor of a given INIT_EXP: EXP as attempt 0 found it, or INIT_EXP, and
the raises since (R415). -/
def State.agreedExp (s : State) (c did slot : Nat) (init : Int) : Int :=
  let a := s.attemptOf did
  ((Tbl.get? a.base slot).getD (s.slotExp c slot)).getD init + Tbl.getD a.added slot 0

/-! Votes (R420, R421, R428). -/

/-- The larger of two amax values, a NaN excluded (R420). -/
def amaxMerge (a b : F32) : F32 := if isNaN32 a then b else if isNaN32 b then a else max32 a b

/-- Two votes merged (R420). -/
def Vote.merge (a b : Vote) : Vote :=
  let n := max a.d.length b.d.length
  { fail := a.fail || b.fail, overflow := a.overflow || b.overflow, verdict := 0, nanCount := min 0xFFFFFFFF (a.nanCount + b.nanCount),
    d := (List.range n).map (fun i => max (a.d.getD i 0) (b.d.getD i 0)),
    amax := (List.range n).map (fun i => amaxMerge (a.amax.getD i zero32) (b.amax.getD i zero32)) }

/-- The root's verdict from the merged vote and its own attempt number (R421). -/
def decideVote (v : Vote) (attempt : Nat) : Vote :=
  { v with verdict := if v.fail || v.overflow then (if attempt = 3 then 2 else 1) else 0 }

/-- The body of a VOTE or VERDICT packet (R428). -/
def Vote.bytes (v : Vote) : List Byte :=
  bytesOf 4 ((if v.fail then 1 else 0) + (if v.overflow then 2 else 0) + 4 * v.verdict) ++ bytesOf 4 v.nanCount ++
    (List.range v.d.length).flatMap (fun i => bytesOf 4 (v.d.getD i 0) ++ bytesOf 4 (v.amax.getD i zero32).toNat)

/-- The vote that a body spells, of `n` slot entries. -/
def voteOf (n : Nat) (bs : List Byte) : Vote :=
  let w := ofBytes (bs.take 4)
  let at_ (o : Nat) : Nat := ofBytes ((bs.drop o).take 4)
  { fail := bitAt w 0, overflow := bitAt w 1, verdict := bitsOf w 2 2, nanCount := at_ 4,
    d := (List.range n).map (fun i => at_ (8 + 8 * i) % 256),
    amax := (List.range n).map (fun i => BitVec.ofNat 32 (at_ (12 + 8 * i))) }

/-! The group step (R404, R405). -/

/-- The conditions of R405, and of R614. -/
def State.groupMember (s : State) : Bool :=
  s.tsyncShown.1 == 2 && s.ump.stretch == 8 && !s.rdc.faulted && decide (s.pwr.state = .active)

/-- The state with a change of the group step. -/
def State.modStep (s : State) (f : GroupStep → GroupStep) : State := { s with rdc := { s.rdc with step := s.rdc.step.map f } }

/-- Is a slot the group slot of a step? -/
def ownSlot (g : GroupStep) (t : Slot) : Bool := decide (t.kind = .group g.entry) && t.start == g.start

/-- VOTE_NS of the entry's class, in the image of the class's newest epoch (R407). -/
def entryGroup (s : State) (e : RsvEntry) : Option GroupDecl :=
  (newestEpoch s e.cls).bind (fun p => (s.classOf p e.cls).bind (fun k => k.2.2.group))

/-- A group step starts (R404, R433): its number rises, the digests start at 0, and a member that does not take part
leaves its slot idle (R405). -/
def State.startStep (s : State) (e : RsvEntry) (start : Nat) : State :=
  let takes := s.groupMember
  let decl := entryGroup s e
  let g : GroupStep :=
    { entry := e.index, start := start, takesPart := takes, hasWork := false, wkind := 0, workId := 0,
      voteNs := decl.elim 0 (·.voteNs), slots := decl.elim [] agreedSlots, vote := .zero, own := false, children := [],
      forwarded := false, verdict := none, fbOver := 0, stopped := false, selfFault := false }
  let s := { s with rdc := { s.rdc with gstep := wrap64 (s.rdc.gstep + 1), step := some g, chans := [], digests := [] } }
  match s.ump.slot with
  | some t => if ownSlot g t && !takes then { s with ump := { s.ump with slot := some { t with serve := none } } } else s
  | none => s

/-- The digests copied to the snapshot with the step's number (R434). -/
def State.snapshot (s : State) : State :=
  { s with rdc := { s.rdc with snapshot := s.rdc.digests, snapStep := s.rdc.gstep } }

/-- A verdict held (R421, R434): one that arrives after a self-fault is too late. -/
def State.holdVerdict (s : State) (v : Vote) : State :=
  match s.rdc.step with
  | some g => if g.verdict.isSome then s else (s.modStep (fun g => { g with verdict := some v })).snapshot
  | none => s

/-- A member faults itself (R423). -/
def State.faultSelf (s : State) : State :=
  match s.rdc.step with
  | some g =>
    if g.verdict.isSome then s
    else (s.modStep (fun g => { g with verdict := some { Vote.zero with verdict := 2 }, selfFault := true })).snapshot
  | none => s

/-- This member's vote will carry FAIL or OVER: its group work stops at once (R419). -/
def State.stopGroupWork (s : State) : State :=
  match s.rdc.step, s.ump.work with
  | some g, some w => if g.hasWork && g.workId == w.did then s.stopWork .group else s
  | _, _ => s

/-! The verdict at the slot end (R422, R417, R435). -/

/-- RDC_STEP or RDC_FAULT (R435). -/
def stepEvent (s : State) (ty ctx attempt : Nat) (v : Vote) (isLocal : Bool) (nan drop : Nat) : Rec32 :=
  eventRec ty ctx s.ts [(4, 0, 2, v.verdict), (4, 2, 2, attempt), (4, 4, 1, if v.overflow then 1 else 0),
    (4, 5, 1, if v.fail then 1 else 0), (4, 6, 1, if isLocal then 1 else 0), (8, 0, 64, s.rdc.gstep), (16, 0, 32, nan),
    (20, 0, 32, drop)]

/-- The step's work that has ended: outputs not committed are gone, its charges go to its context (R359). -/
def State.discardDone (s : State) (did slotNs : Nat) : State :=
  match s.ump.done.find? (fun w => w.did == did) with
  | none => s
  | some w =>
    { s with ump := { s.ump with done := s.ump.done.filter (fun w => w.did != did) } }.chargeWork w slotNs (w.ended.getD w.start)

/-- COMMIT: each agreed-scale slot receives the verdict's AMAX (R417), also where every WIRE 2 command of the slot has
COUNT 0. DESIGN CHOICE (assumption 211). -/
def commitStep (s : State) (g : GroupStep) (v : Vote) (c : Nat) : State :=
  match s.ump.done.find? (fun w => w.did == g.workId) with
  | none => s
  | some w =>
    let segment := decide (w.kind = .segment) || decide (w.kind = .probeSegment)
    let init (slot : Nat) : Int :=
      match Tbl.get? s.ump.images w.imgSlot, groupOf s w.imgSlot segment w.cls with
      | some i, some d => agreedInit i d slot
      | _, _ => 0
    let exp (i : Nat) : Int := if w.kind = .probe ∨ w.kind = .probeSegment then 0
      else s.agreedExp c g.workId (g.slots.getD i 0) (init (g.slots.getD i 0))
    let s := (List.range g.slots.length).foldl (fun s i =>
      s.appendAmax c (g.slots.getD i 0) (v.amax.getD i zero32) .mxE5m2 (exp i)) s
    { s with rdc := { s.rdc with attempts := Tbl.erase s.rdc.attempts g.workId } }

/-- REPEAT: outputs discarded; the attempt rises, and after an overflow the agreed scales (R422). -/
def repeatStep (s : State) (g : GroupStep) (v : Vote) (slotNs : Nat) : State :=
  let s := s.bump R.rdcRepeat
  if !g.hasWork then s
  else
    let a := s.attemptOf g.workId
    let raise := v.overflow && decide (a.raises < 2)
    let added := if raise then
        (List.range g.slots.length).foldl (fun t i =>
          Tbl.set t (g.slots.getD i 0) (Tbl.getD t (g.slots.getD i 0) 0 + v.d.getD i 0)) a.added
      else a.added
    let s := s.discardDone g.workId slotNs
    { s with
      rdc := { s.rdc with
        attempts := Tbl.set s.rdc.attempts g.workId ⟨a.attempt + 1, if raise then a.raises + 1 else a.raises, added, a.base⟩ }
      ump := { s.ump with
        ready := s.ump.ready.map (fun r => if r.did = g.workId then { r with repeats := r.repeats + 1 } else r)
        steps := s.ump.steps.map (fun p => if p.did = g.workId then { p with reran := true } else p) } }

/-- FAULT: the work completes with GROUP_FAULT, and this member is faulted (R422, R423, R566). -/
def faultStep (s : State) (g : GroupStep) (c slotNs : Nat) : State :=
  let s := s.discardDone g.workId slotNs
  let s := if !g.hasWork then s else
    match s.ump.ready.find? (fun r => r.did == g.workId) with
    | some r => s.endServe r stGroupFault
    | none =>
      match s.ump.steps.find? (fun p => p.did == g.workId) with
      | some p => (s.dropStep p.did).atSlotEnd p.did stGroupFault 0 p.no
      | none => s
  let s := { s with rdc := { s.rdc with faulted := true, attempts := Tbl.erase s.rdc.attempts g.workId } }
  s.fault { cls := 4, kind := 0, unit := 0, cause := 9, action := 5, ctx := c, detected := s.ts,
            affected := if c = 0 then [] else [c] }

/-- VERDICT_ACTION (R422): at the end of the group slot; a member that takes part and still holds no verdict has faulted
itself (R423). -/
def State.verdictAction (s : State) (t : Slot) : State :=
  match s.rdc.step with
  | none => s
  | some g =>
    if !g.takesPart then { s with rdc := { s.rdc with step := none } }
    else if g.verdict.isNone && !ownSlot g t then s
    else
      let s := s.faultSelf
      let g := s.rdc.step.getD g
      let v := g.verdict.getD { Vote.zero with verdict := 2 }
      let work := stepWork s g
      let c := work.elim 0 (·.1)
      let hidden := s.hides (work.elim false (·.2))
      let attempt := (s.attemptOf g.workId).attempt
      let s := s.setFld R.rdcStatus 2 4 ((s.attemptOf g.workId).raises + 4 * attempt)
      let s := if work.isSome && (decide (v.verdict ≠ 0) || decide (v.nanCount ≠ 0) || decide (g.fbOver ≠ 0)) && !g.selfFault then
          s.ctxEvent c (stepEvent s 0x00B0 c attempt v false (if hidden then 0 else v.nanCount) (if hidden then 0 else g.fbOver))
        else s
      let s := if v.verdict = 2 then s.opEvent (stepEvent s 0x00B1 c attempt v g.selfFault (if hidden then 0 else v.nanCount)
          (if hidden then 0 else g.fbOver)) else s
      let s := match v.verdict with
        | 0 => commitStep s g v c
        | 1 => repeatStep s g v t.len
        | _ => faultStep s g c t.len
      { s with rdc := { s.rdc with step := none } }

end Sys2Proof.Machine
end

