-- ==== Sys2Proof/Machine/BoundaryOps.lean ====
section
/-! DEFINITION. The serve boundary (R25): ends, crossings, joins and refills (R322), adapter admission (R242, R261), the KV
map (R319), and the start of a serve's or a probe's work. -/
namespace Sys2Proof.Machine
open Sys2Proof

/-! Step 2 of R25: adapter versions and commits (R237, R292). -/

/-- ADAPTER_VERSION_SWITCH (R237): a version loaded before the instant takes over its entry; the old pages are scrubbed. -/
def switchVersion (instant : Nat) (s : State) (w : WaitingVersion) : State :=
  match s.dirEntry w.adapter with
  | some e =>
    if instant ≤ w.loadedTs ∨ e.st ≠ .resident then s
    else
      let s := s.scrubFree e.pages
      let s := s.modDir w.adapter (fun e =>
        { e with version := w.version, pages := w.pages, trainedOn := w.trainedOn, compat := w.compat })
      { s with lkr := { s.lkr with waiting := s.lkr.waiting.filter (fun x => x.adapter != w.adapter) } }
  | none => s

/-- UNCOMMITTED of a state image, bit 8 of its second word (R282). -/
def State.setUncommitted (s : State) (image : List Nat) (b : Bool) : State :=
  match image with
  | [] => s
  | p :: _ =>
    let line := p * 1024
    let old := (s.lineBytes line).1
    let byte := BitVec.ofNat 8 (setBits (old.getD 5 0).toNat 0 1 (if b then 1 else 0))
    s.writeLine line (old.set 5 byte)

/-- COMMIT_APPLY (R292): a switch staged before the instant applies; the former live pages become the spare. -/
def applyCommit (instant : Nat) (s : State) (r : Record) : State :=
  match r.commit, s.dirEntry r.adapter with
  | some c, some e =>
    if c.stagedTs.elim true (fun t => decide (instant ≤ t)) || decide (e.st ≠ .resident) then s
    else
      let s := s.modDir r.adapter (fun e => { e with version := wrap32 (e.version + 1), pages := r.spare })
      let s := s.modRecord r.adapter (fun x => { x with spare := e.pages }.nextCommit)
      let s := (s.setUncommitted r.state0 false).setUncommitted r.state1 false
      let s := s.bump R.lkrCommitCount
      s.ctxEvent r.ctx (practiceEvent s instant 0x0070 r false c.stepNo)
  | _, _ => s

/-! Shard fences under the exclusion bitmap (R214, R145). -/

/-- Is an expert excluded by the applied bitmap? -/
def expertExcluded (s : State) (layer expert : Nat) : Bool :=
  s.regFld R.vecXmaskCtl 0 1 == 1 &&
    bitAt (ofBytes (s.devRead 0 (s.xmaskTable.1 + 128 * layer + expert / 8) 1).1) (expert % 8)

/-- The layout entries with bytes in a shard. -/
def entriesIn (r : BankRec) (shard : Nat) : List LayoutEntry :=
  r.layout.filter (fun e => decide (e.shardFirst ≤ shard) && decide (shard * 0x40_0000 < e.shardFirst * 0x40_0000 + e.offset + e.bytes))

/-- Does the bitmap exclude every expert that has bytes in a shard, which then holds no dense tensor? -/
def shardMasked (s : State) (bank shard : Nat) : Bool :=
  let es := entriesIn (s.bank bank) shard
  !es.isEmpty && es.all (fun e => e.expert != 0xFFFF && expertExcluded s e.layer e.expert)

/-- FENCE_LIFT (R214). -/
def State.liftFences (s : State) : State :=
  { s with wst := { s.wst with fences := s.wst.fences.map (fun f => { f with lifted := shardMasked s f.bank f.shard }) } }

/-- Is a serve class fenced by a lost shard? -/
def classFenced (s : State) (slot cls : Nat) : Bool :=
  s.wst.fences.any (fun f => !f.practice && f.imgSlot == slot && f.number == cls && !f.lifted)
/-- Is a serve class fenced by a lost SRAM region (R553)? -/
def classUnusable (s : State) (slot cls : Nat) : Bool := s.err.fencedSchedules.contains (slot, cls)

/-! Sub-step 1 of R322: ends. -/

/-- What ended at this boundary: context, request ID, status, LEN. -/
abbrev Ends := List (Nat × Nat × Nat × Nat)

/-- The adapters whose revocation was complete before the instant (R250, R649). -/
def revokedBefore (s : State) (instant : Nat) : List Nat :=
  (s.lkr.revocations.filter (fun r => decide (r.ts < instant))).flatMap (·.adapters)

/-- The requests of a serve's stream. -/
def streamOf (s : State) (r : ReadyServe) : List Request :=
  s.ump.requests.filter (fun q => q.ctx == r.ctx && q.cls == r.cls && q.epoch == r.epoch)

/-- Requests in the batch order of the serve that starts (R313): its listed ones in list order, its unlisted ones in increasing
REQUEST_ID, and then those of other streams. -/
def batchOrder (s : State) : Option ReadyServe → List Request
  | none => s.ump.requests
  | some r =>
    let mine := streamOf s r
    let listed := ((requestList s r.ctx r.listOff r.count).filterMap (fun e => mine.find? (fun q => q.reqId == e.reqId))).dedup
    let others := (mine.filter (fun q => !listed.contains q)).insertionSort (fun a b => a.reqId ≤ b.reqId)
    listed ++ others ++ s.ump.requests.filter (fun q => !mine.contains q)

/-- Does a request wait for the boundary at which its settled serve is repeated (R252, R324)? `did`: the serve that starts. -/
def awaitsRepeat (s : State) (did : Option Nat) (q : Request) : Bool :=
  s.ump.ready.any (fun r => r.settled && some r.did != did && (streamOf s r).contains q)

/-- The status with which a request ends at this boundary, if any: revocations first, then drain expiry and lost pages as
marked, then lost adapters (R322, R557); a lost page or adapter only at the boundary of the repetition, when one is due. -/
def endStatus (s : State) (did : Option Nat) (gone : List Nat) (q : Request) : Option Nat :=
  let lost (st : Nat) : Option Nat := if awaitsRepeat s did q then none else some st
  if q.adapter ≠ 0 ∧ gone.contains q.adapter then some stRevoked
  else match q.ending with
    | some st => if st = stKvLost then lost st else some st
    | none =>
      if q.adapter ≠ 0 ∧ (s.dirEntry q.adapter).elim false (fun e => decide (e.st = .lost)) then lost stAdapterLost else none

/-- Every request that ends here, ended in batch order (R322); a revoked request's pages are scrubbed. -/
def State.takeEnds (s : State) (r : Option ReadyServe) (gone : List Nat) (step : Nat) : Ends × State :=
  (batchOrder s r).foldl (fun (acc : Ends × State) q =>
    match endStatus acc.2 (r.map (·.did)) gone q with
    | some st => (acc.1 ++ [(q.ctx, q.reqId, st, q.len)], acc.2.endRequest q (some st) (decide (st = stRevoked)) step)
    | none => acc) ([], s)

/-- A practice step of an adapter that is gone: its segment stops, and it completes with the status at the slot end
(R296). -/
def endStepsOf (s : State) (adapter status : Nat) : State :=
  (s.ump.steps.filter (fun p => p.adapters.contains adapter)).foldl (fun s p =>
    let s := if (s.ump.work.map (·.did)) = some p.did then s.stopWork .adapterLost else s
    let s := s.discardEnded p.did
    (s.dropStep p.did).atSlotEnd p.did status 0 p.no) s

/-- A PRACTICE_EXPORT or PRACTICE_CLOSE that waits on a record which a revocation or a loss has closed (R296). -/
def dropWaiters (s : State) (r : Record) (status : Nat) : State :=
  let s := r.exports.foldl (fun s e => s.finish e.1 status) s
  match r.closing with
  | some d => s.finish d stOk
  | none => s

/-- REVOCATION_APPLY (R250, R251, R296): records closed with their commits discarded, entries scrubbed and freed, and the
revocations whose last entry is FREE completed. -/
def State.applyRevocations (s : State) (instant : Nat) (gone : List Nat) : State :=
  let one (s : State) (id : Nat) : State :=
    match s.dirEntry id with
    | none => s
    | some e =>
      let s := endStepsOf s id stRevoked
      let s := s.dropCommit id instant
      let s := (s.record? id).elim s (fun r => dropWaiters s r stRevoked)
      let s := s.closeRecord id true
      let s := s.scrubFree e.pages
      { s with lkr := { s.lkr with dir := s.lkr.dir.filter (fun x => x.adapter != id) } }
  let s := gone.foldl one s
  let due := s.lkr.revocations.filter (fun r => decide (r.ts < instant))
  let s := { s with lkr := { s.lkr with revocations := s.lkr.revocations.filter (fun r => !decide (r.ts < instant)) } }
  due.foldl (fun s r => r.did.elim s (fun d => s.finish d stOk)) s

/-! Sub-steps 2 and 3, and step 4 of R25. -/

/-- A boundary's view of the serve that starts: the serve, its class, the image's LAYERS and IMAGE_ID, whether its bank is
DRAINING, its serve number, and what has ended. -/
structure Starting where
  r : ReadyServe
  k : ServeClass
  layers : Nat
  imageId : Nat
  draining : Bool
  no : Nat
  ends : Ends

/-- What is being settled: the state, outcomes by list index, steps, requests admitted, refilled and crossing, and the
pages zero-filled for joins and refills. -/
structure Settle where
  s : State
  out : Tbl EntryOutcome
  steps : List (Nat × Nat)
  joins : List Nat
  refills : List Nat
  crossed : List Nat
  zeroed : Nat

/-- An entry's outcome noted. -/
def Settle.note (z : Settle) (i : Nat) (o : EntryOutcome) : Settle := { z with out := Tbl.set z.out i o }

/-- R311: two entries of one request, or a JOIN or REFILL with a field that must be zero. -/
def listBad (es : List ListEntry) : Bool :=
  !decide ((es.map (·.reqId)).Nodup) ||
    es.any (fun e => (e.op == 1 || e.op == 3) && (e.reservedBits != 0 || e.feedback || (e.op == 3 && e.adapter != 0)))

/-- The rows of R312 that settle an entry without taking anything: its status and whether the request ends. -/
def entrySettled (b : Starting) (s : State) (e : ListEntry) : Option (Nat × Bool) :=
  let q := s.req? b.r.ctx e.reqId
  let mine := q.elim false (fun q => q.cls == b.r.cls && q.epoch == b.r.epoch)
  let live := mine && q.elim false (fun q => !q.refill)
  let waits := mine && q.elim false (·.refill)
  let len := q.elim 0 (·.len)
  if e.op = 0 ∨ e.op = 2 then
    if e.reservedBits ≠ 0 ∨ e.adapter ≠ 0 ∨ (e.op = 2 ∧ e.feedback) then some (stBad, false)
    else if !live then some (stBad, false)
    else if e.op = 2 then some (stOk, true)
    else if 64 < e.nTok ∨ b.k.kv.ctxMax < len + e.nTok ∨ (e.feedback ∧ (e.nTok = 0 ∨ (q.bind (·.lastTok)).isNone)) then
      some (stBad, false)
    else if e.nTok = 0 then some (stOk, false)
    else none
  else if e.op = 3 ∧ !waits then some (stBad, false)
  else if e.op = 1 ∧ q.isSome then some (stBad, false)
  else if e.nTok = 0 then some (stZeroCount, false)
  else if b.k.kv.joinTokMax < e.nTok then some (stBad, false)
  else if e.op = 1 ∧ b.draining then some (stRetired, false)
  else none

/-- First pass: entries whose request has ended, entries that R312 settles, and the LEAVEs (sub-step 1). -/
def settleFixed (b : Starting) (z : Settle) (p : ListEntry × Nat) : Settle :=
  let e := p.1
  let len := (z.s.req? b.r.ctx e.reqId).elim 0 (·.len)
  match b.ends.find? (fun x => x.1 == b.r.ctx && x.2.1 == e.reqId) with
  | some x => z.note p.2 ⟨e.reqId, x.2.2.1, true, false, x.2.2.2⟩
  | none =>
    match entrySettled b z.s e with
    | none => z
    | some (st, ended) =>
      let z := z.note p.2 ⟨e.reqId, st, ended, false, len⟩
      if ended then
        match z.s.req? b.r.ctx e.reqId with
        | some q => { z with s := z.s.endRequest q none }
        | none => z
      else z

/-- Pages of a list added to a request under its owner. -/
def State.giveKv (s : State) (c id : Nat) (ps : List Nat) : State :=
  (s.kvAssign c ps).modReq c id (fun q => { q with pages := q.pages ++ ps })

/-- Sub-step 2: a stepping CONTINUE, with its new headroom page where it crosses (R322, R316). -/
def settleStep (b : Starting) (z : Settle) (p : ListEntry × Nat) : Settle :=
  let e := p.1
  if e.op ≠ 0 ∨ (Tbl.get? z.out p.2).isSome then z
  else
    match z.s.req? b.r.ctx e.reqId with
    | none => z
    | some q =>
      let z := z.note p.2 ⟨e.reqId, stOk, false, true, q.len⟩
      let z := { z with steps := z.steps ++ [(e.reqId, e.nTok)] }
      if 64 * ceilDiv q.len 64 < q.len + e.nTok then
        let ps := z.s.kvPick 1
        let s := z.s.giveKv b.r.ctx e.reqId ps
        { z with s := ps.foldl State.kvZeroFill s, crossed := z.crossed ++ [e.reqId] }
      else z

/-- A compute die with at least one court online. -/
def dieOnline (s : State) (die : Nat) : Bool := bitsOf (s.regAt (R.crtCourtOnline (die / 4))).toNat (die % 4 * 8) 8 != 0

/-- Die and slot of a JOIN (R323): a die that already serves the adapter, else the die with the fewest occupied slots; ties
to the lower die, and the lowest free slot. -/
def placeJoin (s : State) (b : Starting) (adapter : Nat) : Option (Nat × Nat) :=
  let qs := streamOf s b.r
  let used (d : Nat) : List Nat := (qs.filter (fun q => q.die == d)).map (·.slot)
  let cands := (List.range 16).filter (fun d => dieOnline s d && decide ((used d).length < b.k.pre.slots))
  let same := if adapter = 0 then none else cands.find? (fun d => qs.any (fun q => q.die == d && q.adapter == adapter))
  let least := cands.foldl (fun m d =>
    match m with
    | none => some d
    | some x => if (used d).length < (used x).length then some d else some x) none
  match (match same with
    | some d => some d
    | none => least) with
  | none => none
  | some d => ((List.range b.k.pre.slots).find? (fun j => !(used d).contains j)).map (fun j => (d, j))

/-- Positions that a die appends in this serve (R322). -/
def appended (s : State) (b : Starting) (steps : List (Nat × Nat)) (die : Nat) : Nat :=
  (steps.map (fun p => if (s.req? b.r.ctx p.1).elim false (fun q => q.die == die) then p.2 else 0)).sum

/-- Sub-step 3: a JOIN or REFILL admitted or deferred (R322). -/
def settleJoin (b : Starting) (z : Settle) (p : ListEntry × Nat) : Settle :=
  let e := p.1
  if (e.op ≠ 1 ∧ e.op ≠ 3) ∨ (Tbl.get? z.out p.2).isSome then z
  else
    let s := z.s
    let u := ceilDiv e.nTok 64 + 1
    let fills := if e.nTok % 64 ≠ 0 then 2 else 1
    let old := s.req? b.r.ctx e.reqId
    let place := if e.op = 3 then old.map (fun q => (q.die, q.slot)) else placeJoin s b e.adapter
    let full := decide (e.op = 1) && decide (4096 ≤ (streamOf s b.r).length)
    let die := (place.map (·.1)).getD 16
    if place.isNone || full || decide (b.k.kv.tokDieMax < appended s b z.steps die + e.nTok) ||
        decide (b.k.kv.zeroMax < z.zeroed + fills) || !s.kvFits b.r.ctx u then
      { z.note p.2 ⟨e.reqId, stDeferredMem, false, false, old.elim 0 (·.len)⟩ with s := s.bump R.umpDeferMem }
    else
      let slot := (place.map (·.2)).getD 0
      let ps := s.kvPick u
      let s := if e.op = 3 then s.modReq b.r.ctx e.reqId (fun q => { q with refill := false })
        else { s with ump := { s.ump with requests := s.ump.requests ++
          [{ ctx := b.r.ctx, cls := b.r.cls, epoch := b.r.epoch, reqId := e.reqId, refill := false, len := 0,
             adapter := e.adapter, tenant := (s.tenantOfCtx b.r.ctx).getD 0, die := die, slot := slot, pages := [],
             lastTok := none, ending := none }] } }
      let s := s.giveKv b.r.ctx e.reqId ps
      let s := (ps.drop (e.nTok / 64)).foldl State.kvZeroFill s
      let z := z.note p.2 ⟨e.reqId, stOk, false, true, 0⟩
      { z with
        s := s
        steps := z.steps ++ [(e.reqId, e.nTok)]
        zeroed := z.zeroed + fills
        joins := if e.op = 1 then z.joins ++ [e.reqId] else z.joins
        refills := if e.op = 3 then z.refills ++ [e.reqId] else z.refills }

/-- The adapters that load a die, and their bytes per layer (R261). -/
def dieLoad (s : State) (adapters : List Nat) : Nat :=
  (adapters.map (fun a => (s.dirEntry a).elim 0 (fun e => layerBlock e.fmt e.plen e.dKv))).sum

/-- The outcome of R242 and R261 for a joining request: none when it is admitted, else the status and whether it ends. -/
def admission (s : State) (b : Starting) (counted : List Nat) (q : Request) : Option (Nat × Bool) :=
  if q.adapter = 0 then none
  else
    match s.dirEntry q.adapter with
    | none => some (stDeferredMem, false)
    | some e =>
      let bytes := layerBlock e.fmt e.plen e.dKv
      match e.st with
      | .loading => some (stDeferredMem, false)
      | st =>
        if s.tenantOfCtx q.ctx ≠ some e.tenant then some (stBad, true)
        else if st = .revoking then some (stRevoked, true)
        else if st = .lost then some (stAdapterLost, true)
        else if e.trainedOn ≠ b.imageId ∧ !e.compat.contains b.imageId then some (stRetired, true)
        else if e.layers ≠ b.layers ∨ e.dKv ≠ b.k.pre.dKv ∨ e.fmt ≠ b.k.pre.fmt ∨ b.k.pre.plenMax < e.plen then some (stBad, true)
        else if !counted.contains q.adapter ∧ b.k.pre.budgetDie < dieLoad s counted + bytes then some (stDeferredBudget, false)
        else none

/-- The adapters already counted on a die: those of its continuing requests, and of joins admitted before (R261). -/
def countedOn (s : State) (b : Starting) (joins : List Nat) (die : Nat) : List Nat :=
  (((streamOf s b.r).filter (fun q => q.die == die && q.adapter != 0 && !joins.contains q.reqId)).map (·.adapter)).dedup

/-- Step 4 of R25 for one join (R242, R261): pinned, or deferred or ended with its pages, claim and slot returned.
`z.joins` shrinks to the joins still to be resolved and `kept` grows by those admitted. -/
def settleAdapter (b : Starting) (acc : Settle × List Nat) (p : ListEntry × Nat) : Settle × List Nat :=
  let (z, kept) := acc
  let e := p.1
  if !z.joins.contains e.reqId ∨ e.op ≠ 1 then acc
  else
    match z.s.req? b.r.ctx e.reqId with
    | none => acc
    | some q =>
      let counted := countedOn z.s b z.joins q.die
      let left := z.joins.filter (· != e.reqId)
      let s := if q.adapter = 0 then z.s else
        z.s.count (z.s.lockerFor (homeOf q.adapter)) 4 2 1 { unit := 8, ctx := q.ctx, isSealed := b.r.isSealed }
      match admission s b counted q with
      | none =>
        let s := s.modDir q.adapter (fun e => { e with pins := e.pins + 1 })
        ({ z with s := s, joins := left }, kept ++ [e.reqId])
      | some (st, ended) =>
        let named := [stRevoked, stAdapterLost, stRetired].contains st
        let s := s.modReq q.ctx q.reqId (fun x => { x with adapter := 0 })
        let s := s.endRequest { q with adapter := 0 } (if named then some st else none) false b.no
        let s := if st = stDeferredMem then (s.bump R.lkrMissCount).bump R.umpDeferMem
          else if st = stDeferredBudget then s.bump R.umpDeferBudget else s
        let s := if st = stDeferredMem then s.ctxEvent q.ctx (eventRec 0x0061 q.ctx s.ts
            [(4, 4, 4, s.lockerFor (homeOf q.adapter)), (8, 0, 64, q.adapter), (16, 0, 64, b.no)]) else s
        let z := { z with s := s, joins := left, steps := z.steps.filter (fun x => x.1 != e.reqId) }
        (z.note p.2 ⟨e.reqId, st, ended, false, 0⟩, kept)

/-- KV_SETTLE and ADAPTER_ADMIT (R322, R242) for the serve that starts. -/
def settleList (b : Starting) (s : State) (es : List ListEntry) : Settle :=
  let ps := es.zipIdx
  let z : Settle := { s := s, out := [], steps := [], joins := [], refills := [], crossed := [], zeroed := 0 }
  let z := ps.foldl (settleFixed b) z
  let z := ps.foldl (settleStep b) z
  let z := ps.foldl (settleJoin b) z
  let (z, kept) := ps.foldl (settleAdapter b) (z, [])
  { z with joins := kept }

/-- A repeated serve keeps its outcomes but for the requests that have ended since (R324). -/
def resettle (ends : Ends) (r : ReadyServe) : ReadyServe :=
  let gone (id : Nat) : Option (Nat × Nat × Nat × Nat) := ends.find? (fun x => x.1 == r.ctx && x.2.1 == id)
  { r with
    outcomes := r.outcomes.map (fun o =>
      match gone o.reqId with
      | some x => { o with status := x.2.2.1, ended := true, stepped := false, len := x.2.2.2 }
      | none => o)
    steps := r.steps.filter (fun p => (gone p.1).isNone)
    joins := r.joins.filter (fun i => (gone i).isNone)
    refills := r.refills.filter (fun i => (gone i).isNone)
    crossed := r.crossed.filter (fun i => (gone i).isNone) }

/-! The KV map and the mask table (R319, R320, R256). -/

/-- The tokens of a stepping entry (R313). -/
def entryTokens (s : State) (r : ReadyServe) (e : ListEntry) (q : Request) : List Nat :=
  let n := e.areaTokens
  let base := r.listOff + ceilDiv (32 * r.count) 64 * 64 + 4 * e.tokIdx
  let bs := s.winRead r.ctx base (4 * n)
  let area := (List.range n).map (fun i => ofBytes ((bs.drop (4 * i)).take 4))
  if e.feedback && e.op == 0 then q.lastTok.getD 0 :: area else area

/-- A slot record (R320). -/
def slotRecord (r : ReadyServe) (es : List ListEntry) (idx : Nat) (q : Option Request) : List Byte :=
  match q with
  | none => bytesOf 32 (0xFFFF * 2 ^ 112)
  | some q =>
    let new := ((r.steps.find? (fun p => p.1 == q.reqId)).map (·.2)).getD 0
    let entry := es.findIdx? (fun e => e.reqId == q.reqId)
    let joined := r.joins.contains q.reqId || r.refills.contains q.reqId
    let sample := (entry.bind (fun i => es[i]?)).elim 0 (·.sample)
    bytesOf 32 (layout 256 [(0, 0, 32, q.len), (4, 0, 32, new), (8, 0, 32, idx), (12, 0, 1, if new = 0 then 0 else 1),
      (12, 1, 1, if joined then 1 else 0), (14, 0, 16, entry.getD 0xFFFF), (16, 0, 32, q.reqId), (20, 0, 32, q.pages.length),
      (24, 0, 64, sample)]).toNat

/-- The block-list entries of a slot (R319). -/
def blockEntries (s : State) (pmax : Nat) (q : Option Request) : List Byte :=
  (List.range pmax).flatMap (fun j =>
    bytesOf 4 (q.elim 0 (fun q => if j < ceilDiv q.len 64 then q.pages.getD j 0 * s.kvM else 0)))

/-- A die's slots in order with their requests and APPEND_IDX. -/
def dieSlots (s : State) (b : Starting) (r : ReadyServe) (die : Nat) : List (Nat × Option Request) :=
  let qs := (streamOf s b.r).filter (fun q => q.die == die)
  let new (q : Option Request) : Nat := q.elim 0 (fun q => ((r.steps.find? (fun p => p.1 == q.reqId)).map (·.2)).getD 0)
  ((List.range b.k.pre.slots).foldl (fun (acc : List (Nat × Option Request) × Nat) j =>
    let q := qs.find? (fun q => q.slot == j)
    (acc.1 ++ [(acc.2, q)], acc.2 + new q)) ([], 0)).1

/-- KV_MAP_WRITE for one SD die (R319). -/
def writeMap (b : Starting) (r : ReadyServe) (es : List ListEntry) (s : State) (die : Nat) : State :=
  let slots := dieSlots s b r die
  let at_ (i : Nat) : Nat := sdAddr die (kvPart b.k i)
  let tokens := slots.flatMap (fun p =>
    match p.2 with
    | some q =>
      if r.steps.any (fun x => x.1 == q.reqId) then
        ((es.find? (fun e => e.reqId == q.reqId)).elim [] (fun e => entryTokens s r e q)).flatMap (bytesOf 4)
      else []
    | none => [])
  let s := s.chipWrite (at_ 0) (slots.flatMap (fun p => slotRecord r es p.1 p.2))
  let s := s.chipWrite (at_ 1) (slots.flatMap (fun p => blockEntries s (b.k.kv.ctxMax / 64) p.2))
  s.chipWrite (at_ 2) tokens

/-- The mask table of the Dugout on one SD die (R255, R256): bit i of a slot is 1 for i ≥ PLEN. -/
def writeMasks (b : Starting) (s : State) (die : Nat) : State :=
  let n := ceilDiv b.k.pre.plenMax 64
  let qs := (streamOf s b.r).filter (fun q => q.die == die)
  let plen (j : Nat) : Nat :=
    ((qs.find? (fun q => q.slot == j)).bind (fun q => if q.adapter = 0 then none else s.dirEntry q.adapter)).elim 0 (·.plen)
  if n = 0 then s
  else s.chipWrite (sdAddr die s.dugout.1) ((List.range b.k.pre.slots).flatMap (fun j => bytesOf (8 * n) (2 ^ (64 * n) - 2 ^ plen j)))

/-! The start of work (R25 step 5, R67). -/

/-- Does the work use an outer-scale slot without history, as entries of its tensors or as agreed scales (R67, R415)? -/
def needsProbe (s : State) (c : Nat) (i : Image) (tensors : List Nat) (g : Option GroupDecl) : Bool :=
  let empty (slot : Nat) : Bool := decide ((s.oscSlot c slot).count = 0)
  s.regFld R.crtCvtCtl 1 1 == 1 &&
    (tensors.any (fun t => (i.tensors[t]?).elim false (fun e => e.oscEn && empty e.oscSlot)) ||
      (g.elim [] agreedSlots).any empty)

/-- The work of this device in a group step begins (R403, R406, R407); its attempt 0 reads the EXP of its agreed-scale slots
(R415). -/
def joinStep (s : State) (c did : Nat) (segment : Bool) (g : Option GroupDecl) : State :=
  match g with
  | none => s
  | some d =>
    let s := if (Tbl.get? s.rdc.attempts did).isSome then s
      else { s with rdc := { s.rdc with
        attempts := Tbl.set s.rdc.attempts did ⟨0, 0, [], (agreedSlots d).map (fun i => (i, s.slotExp c i))⟩ } }
    s.modStep (fun x => { x with
      hasWork := true, workId := did, wkind := if segment then 1 else 0, voteNs := d.voteNs, slots := agreedSlots d })

/-- Work placed on the array: its programs and streams start, with 1,024 semaphores at 0 (R25, R357). -/
def State.startWork (s : State) (w : Work) (streams : List StreamEntry) (bank : Nat) : State :=
  { s with
    ump := { s.ump with work := some w }
    eng := .reset
    lkr := { s.lkr with gathers := [] }
    mgl := { s.mgl with tsync := { s.mgl.tsync with everRan := true } }
    wst := { s.wst with stream := some {
      entries := streams, bank := bank, teacherBank := 1 - bank, started := 0, completed := 0, computeStarted := 0, computeEnded := 0,
      base := w.start, lateNotes := [], fetched := [] } } }

/-- A serve's work that has ended without running: nothing steps, or its boundary settled it (R330, R33). -/
def idleWork (r : ReadyServe) (imgSlot t : Nat) : Work :=
  { kind := .serve, ctx := r.ctx, did := r.did, stepNo := r.serveNo, isSealed := r.isSealed, imgSlot := imgSlot, cls := r.cls,
    seed := r.seed, start := t, ended := some t, discarded := none, sems := [], charges := .zero, uses := [], skips := [], nans := 0,
    late := 0, violation := false, writebacks := [] }

/-- A ready serve's record replaced. -/
def State.setServe (s : State) (r : ReadyServe) : State :=
  { s with ump := { s.ump with ready := s.ump.ready.map (fun x => if x.did = r.did then r else x) } }

/-- The outcomes of a serve whose schedule is fenced by a lost shard (R214): its requests end, and every entry carries
WS_SHARD_LOST. -/
def shardOutcomes (ends : Ends) (r : ReadyServe) (es : List ListEntry) : List EntryOutcome :=
  es.map (fun e =>
    match ends.find? (fun x => x.1 == r.ctx && x.2.1 == e.reqId) with
    | some x => ⟨e.reqId, x.2.2.1, true, false, x.2.2.2⟩
    | none => ⟨e.reqId, if e.op = 1 ∨ e.op = 3 then stShardLost else stBad, false, false, 0⟩)

/-- A fenced stream's requests end with WS_SHARD_LOST (R214). -/
def endStream (s : State) (r : ReadyServe) (no : Nat) : Ends × State :=
  (streamOf s r).foldl (fun (acc : Ends × State) q =>
    (acc.1 ++ [(q.ctx, q.reqId, stShardLost, q.len)], acc.2.endRequest q (some stShardLost) false no)) ([], s)

/-- LAST_USE of every adapter whose requests take part in a serve (R243). -/
def State.useAdapters (s : State) (r : ReadyServe) : State :=
  (((streamOf s r).map (·.adapter)).dedup).foldl (fun s a => s.modDir a (fun e => { e with lastUse := r.serveNo })) s

/-- A settled serve starts: map and masks written, then a probe pass or the serve itself, or nothing when no request
steps (R319, R67, R33). A probe pass counts when it starts (R79). DESIGN CHOICE (assumption 210). -/
def launch (b : Starting) (s : State) (es : List ListEntry) (r : ReadyServe) (imgSlot bank start : Nat) (i : Image) : State :=
  let s := (s.setServe r).useAdapters r
  if r.steps.isEmpty then { s with ump := { s.ump with done := s.ump.done ++ [idleWork r imgSlot start] } }
  else
    let s := (List.range 16).foldl (writeMap b r es) s
    let s := (List.range 16).foldl (writeMasks b) s
    let probe := !r.probed && needsProbe s r.ctx i b.k.tensors b.k.group
    let s := if probe then s.bump R.crtProbeCount else s
    let s := joinStep s r.ctx r.did false b.k.group
    s.startWork { idleWork r imgSlot start with kind := if probe then .probe else .serve, ended := none } b.k.streams bank

/-- The serve of a slot taken through its boundary (R25 steps 3 to 5, R311, R326, R214). -/
def startServe (s : State) (r : ReadyServe) (ends : Ends) (no start : Nat) : State :=
  let r : ReadyServe := { r with serveNo := no }
  match serveCheck s r with
  | some st => s.endServe r st
  | none =>
    match s.classOf r.epoch r.cls, s.bankOfEpoch r.epoch with
    | some (imgSlot, i, k), some bank =>
      let es := requestList s r.ctx r.listOff r.count
      if classUnusable s imgSlot r.cls then s.endServe r stAbortedFence
      else if classFenced s imgSlot r.cls then
        let (more, s) := endStream s r no
        let r : ReadyServe := { r with
          settled := true, steps := [], joins := [], refills := [], crossed := [], result := some stShardLost,
          outcomes := shardOutcomes (ends ++ more) r es }
        { s.setServe r with ump := { (s.setServe r).ump with done := s.ump.done ++ [idleWork r imgSlot start] } }
      else
        let b : Starting := { r := r, k := k, layers := i.layers, imageId := i.imageId,
                              draining := decide ((s.bank bank).st = .draining), no := no, ends := ends }
        if r.settled then launch b s es (resettle ends r) imgSlot bank start i
        else if listBad es then s.endServe r stBad
        else
          let z := settleList b s es
          let r : ReadyServe := { r with
            settled := true, steps := z.steps, joins := z.joins, refills := z.refills, crossed := z.crossed,
            outcomes := es.zipIdx.map (fun p => Tbl.getD z.out p.2 ⟨p.1.reqId, stBad, false, false, 0⟩) }
          launch b z.s es r imgSlot bank start i
    | _, _ => s.endServe r stRetired

/-- Profiling ends at a boundary when a present tenant has withdrawn its consent before the boundary's instant (R537,
R649). -/
def State.profilingAtBoundary (s : State) (instant : Nat) : State :=
  if s.ref.profiling && !s.allPresent (fun r => r.profileOk || decide (instant ≤ r.withdrawnTs)) then s.setProfiling false else s

/-- Closed sessions whose contexts are gone are no longer listed (R535). -/
def State.dropClosed (s : State) : State :=
  { s with ref := { s.ref with sessions := s.ref.sessions.filter (fun p =>
      decide (p.2.st ≠ .closed) || s.host.contexts.any (fun c => c.2.session == p.1)) } }

/-- SERVE_BOUNDARY for a slot (R25, R649): Huddle banks, version switches and commits, fences lifted, contexts torn down,
then ends, joins and admissions, and the serve. -/
def State.boundary (s : State) (t : Slot) : State :=
  let instant := t.start
  let s := s.takeBanks instant
  let s := s.lkr.waiting.foldl (switchVersion instant) s
  let s := s.lkr.records.foldl (applyCommit instant) s
  let s := s.liftFences
  let torn := (s.host.contexts.filter (fun p => p.2.tearDown.elim false (fun u => decide (u < instant)))).map (·.1)
  let s := ((torn.foldl State.destroyCtx s).dropClosed).profilingAtBoundary instant
  let s := s.expireDrains instant
  let r := t.serve.bind (fun d => s.ump.ready.find? (fun r => r.did == d))
  let (no, s) := match r with
    | some r => s.takeNumber r
    | none => (0, s)
  let gone := revokedBefore s instant
  let (ends, s) := s.takeEnds r gone no
  let s := { s with ump := { s.ump with ready := s.ump.ready.map (fun (x : ReadyServe) => if x.settled then resettle ends x else x) } }
  let s := s.applyRevocations instant gone
  let s := s.trace s.queueSched 2 (r.elim 0 (·.ctx)) no (r.elim false (·.isSealed))
  let s := match r with
    | some r => startServe s r ends no instant
    | none => s
  let s := s.settleDrains
  { s with ump := { s.ump with slot := s.ump.slot.map (fun x => { x with boundaryDone := true }) } }

end Sys2Proof.Machine
end

