-- ==== Sys2Proof/Machine/SettleOps.lean ====
section
/-! DEFINITION. What a slot end makes visible (R29, R342): results, saturation and amax of the work that has ended,
completions, events, the accounting records and the counter samples. -/
namespace Sys2Proof.Machine
open Sys2Proof

/-! Saturation and amax (R64 to R75). -/

/-- The tensor entry of an image by index. -/
def tensorAt (s : State) (imgSlot i : Nat) : TensorEntry := (Tbl.get? s.ump.images imgSlot).elim .plain (fun g => g.tensors.getD i .plain)

/-- The threshold of R73. -/
def satPassed (e : TensorEntry) (u : TensorUse) : Bool := e.satFrac != 0 && decide (e.satFrac * u.elements / 65536 < u.clamped)

/-- Does the work's completion carry the saturation flag (R74, R75)? -/
def workFlagged (s : State) (w : Work) : Bool :=
  !w.isSealed && w.uses.any (fun p => let e := tensorAt s w.imgSlot p.1; e.satFlag && satPassed e p.2)

/-- Is the work a practice segment? -/
def Work.practice (w : Work) : Bool := decide (w.kind = .segment) || decide (w.kind = .probeSegment)

/-- SAT_EVENT for each tensor past its threshold (R73 to R76), of a sealed serve only with profiling on (R539; assumption
226); FLAGGED says that the work's completion carries the saturation flag (assumption 88). -/
def satEvents (s : State) (w : Work) (flagged : Bool) : State :=
  if s.hides w.isSealed || s.regFld R.crtCvtCtl 0 1 == 0 then s
  else w.uses.foldl (fun s p =>
    let e := tensorAt s w.imgSlot p.1
    if satPassed e p.2 then
      s.ctxEvent w.ctx (eventRec 0x0040 w.ctx s.ts [(4, 0, 32, e.tensorId), (8, 0, 64, w.stepNo), (16, 0, 48, p.2.clamped),
        (16, 48, 8, e.fmtCode), (16, 56, 1, if w.practice then 1 else 0), (16, 57, 1, if flagged then 1 else 0)])
    else s) s

/-- OPT_SKIP for each update the work skipped (R179, R183). -/
def skipEvents (s : State) (w : Work) : State :=
  w.skips.foldl (fun s p =>
    s.ctxEvent w.ctx (eventRec 0x0041 w.ctx s.ts [(4, 0, 4, p.1), (8, 0, 64, w.stepNo),
      (16, 0, 32, (tensorAt s w.imgSlot p.2.1).tensorId), (20, 0, 32, p.2.2)])) s

/-- Clamped counts added to the totals (R72, R78). -/
def satTotals (s : State) (w : Work) : State :=
  let n := (w.uses.map (fun p => p.2.clamped)).sum
  { s with ump := { s.ump with satTotal := wrap48 (s.ump.satTotal + n) } }.modCtx w.ctx (fun x => { x with satTotal := wrap48 (x.satTotal + n) })

/-- AMAX_APPEND (R64, R65): each tensor converted under an outer scale; an agreed scale has its own rule (R417). -/
def appendUses (s : State) (w : Work) : State :=
  let agreed := (groupOf s w.imgSlot w.practice w.cls).elim [] agreedSlots
  w.uses.foldl (fun s p =>
    let e := tensorAt s w.imgSlot p.1
    if e.oscEn && p.2.elements != 0 && !agreed.contains e.oscSlot then s.appendAmax w.ctx e.oscSlot p.2.amax e.fmt p.2.exp else s) s

/-- A probe pass's measurements (R67): entry 0 of each slot without history, whose WEXP stays empty since nothing it wrote
remains. -/
def probeUses (s : State) (w : Work) : State :=
  w.uses.foldl (fun s p =>
    let e := tensorAt s w.imgSlot p.1
    if e.oscEn && p.2.elements != 0 && (s.oscSlot w.ctx e.oscSlot).count == 0 then s.appendAmax w.ctx e.oscSlot p.2.amax e.fmt 0 else s) s

/-! A serve's results (R325, R329, R330). -/

/-- The class a serve ran as. -/
def classRun (s : State) (w : Work) : Option ServeClass := (Tbl.get? s.ump.images w.imgSlot).bind (fun i => i.cls? w.cls)

/-- The sampled token of a request that stepped; 0xFFFF_FFFF for none (R319). -/
def sampledToken (s : State) (k : Option ServeClass) (q : Request) : Nat :=
  k.elim 0xFFFFFFFF (fun k => ofBytes (s.chipRead (sdAddr q.die (kvPart k 3 + 4 * q.slot)) 4))

/-- A result record's bytes (R329). -/
def resultBytes (o : EntryOutcome) (token len : Nat) : List Byte :=
  bytesOf 16 (layout 128 [(0, 0, 32, o.reqId), (4, 0, 16, o.status), (6, 0, 1, if o.ended then 1 else 0),
    (6, 1, 1, if o.stepped then 1 else 0), (8, 0, 32, token), (12, 0, 32, len)]).toNat

/-- Is a request's adapter being revoked, so that its output is withheld (R250)? -/
def withheld (s : State) (q : Request) : Bool := q.adapter != 0 && (s.dirEntry q.adapter).elim false (fun e => decide (e.st = .revoking))

/-- RESULT_RECORD (R329): entry `i`'s record and extra output, and what the request keeps (R325). A withheld output (R250)
leaves out the token and the extra output, and nothing else. DESIGN CHOICE (assumption 229). -/
def writeResult (k : Option ServeClass) (r : ReadyServe) (s : State) (p : EntryOutcome × Nat) : State :=
  let (o, i) := p
  let at_ := r.outOff + 16 * i
  match s.req? r.ctx o.reqId with
  | some q =>
    if !o.stepped then s.winWrite r.ctx at_ (resultBytes o 0xFFFFFFFF o.len)
    else
      let token := sampledToken s k q
      let len := q.len + ((r.steps.find? (fun x => x.1 == q.reqId)).map (·.2)).getD 0
      let s := s.modReq r.ctx o.reqId (fun q =>
        { q with len := len, lastTok := if token = 0xFFFFFFFF then q.lastTok else some token })
      if withheld s q then s.winWrite r.ctx at_ (resultBytes o 0xFFFFFFFF len)
      else
        let s := s.winWrite r.ctx at_ (resultBytes o token len)
        match k with
        | some k =>
          let n := k.kv.outExtra
          s.winWrite r.ctx (r.outOff + ceilDiv (16 * r.count) 256 * 256 + i * n)
            (s.chipRead (sdAddr q.die (kvPart k 4 + n * q.slot)) n)
        | none => s
  | none => s.winWrite r.ctx at_ (resultBytes o 0xFFFFFFFF o.len)

/-- ENGINE of a completion (R363, R539). -/
def engineField (s : State) (c cubeCyc : Nat) (isSealed : Bool) : Nat :=
  if s.hides isSealed then 0
  else
    let n := cubeCyc / 2 ^ 20
    if s.isVf c then n / 64 * 64 else n

/-- One more serve or segment in a context's record (R361). -/
def State.countWork (s : State) (c serves segments : Nat) : State :=
  let a := s.acct c
  s.setAcct c { a with serves := wrap32 (a.serves + serves), segments := wrap32 (a.segments + segments), dirty := true }

/-- SERVE_COMPLETION (R330) for a serve whose work has ended. -/
def serveDone (s : State) (w : Work) (r : ReadyServe) (len : Nat) : State :=
  let k := classRun s w
  let flagged := workFlagged s w
  let s := r.outcomes.zipIdx.foldl (writeResult k r) s
  let s := skipEvents (satEvents (satTotals (appendUses s w) w) w flagged) w
  let s := (s.chargeWork w len (w.ended.getD w.start)).countWork w.ctx 1 0
  let deferred := (r.outcomes.filter (fun o => o.status == stDeferredMem || o.status == stDeferredBudget)).length
  let flags := (if flagged then 1 else 0) + (if r.steps.isEmpty then 2 else 0) + (if r.probed then 4 else 0)
  let status := r.result.getD (if r.repeats = 0 then stOk else stRepeatedOk)
  let s := s.dropServe r.did
  s.complete r.did status flags (serveExtra r.serveNo r.steps.length deferred) (engineField s w.ctx w.charges.cubeCyc w.isSealed)

/-! A practice step's segments (R290, R182, R296). -/

/-- The state with a change of one practice step. -/
def State.modPStep (s : State) (did : Nat) (f : PStep → PStep) : State :=
  { s with ump := { s.ump with steps := s.ump.steps.map (fun p => if p.did = did then f p else p) } }

/-- The commit of every adapter of a step asked for (R291); while another one of the adapter has not applied, it waits for it
(R292). -/
def askCommit (s : State) (p : PStep) : State :=
  if p.commit then p.adapters.foldl (fun s a => s.modRecord a (fun r =>
    if r.commit.isSome then { r with later := r.later ++ [p.no] } else { r with commit := some ⟨p.no, none⟩ })) s else s

/-- A step moves past its segment; after the last one its commits are prepared. -/
def advanceStep (s : State) (did : Nat) : State :=
  let s := s.modPStep did (fun p => { p with segment := p.segment + 1 })
  match s.ump.steps.find? (fun p => p.did == did) with
  | some p => if (programAt s p).elim true (fun g => decide (g.segments.length ≤ p.segment)) then askCommit s p else s
  | none => s

/-- A number of a state image's part, at an offset of its region (R175, R282). -/
def partField (s : State) (r : Record) (image : List Nat) (n part off bytes : Nat) : Nat :=
  ofBytes (s.readPages image (imageRegions r.parts + part * regionBytes r.optMode (n / r.parts) + off) bytes)

/-- Did a step apply an update to any part (R179, R180): LAST_STEP is the step's and SKIPPED has not risen? -/
def stepApplied (s : State) (r : Record) (n no : Nat) : Bool :=
  let old := if r.current = 0 then r.state0 else r.state1
  let new := if r.current = 0 then r.state1 else r.state0
  (List.range r.parts).any (fun i => partField s r new n i 16 8 == wrap64 no && partField s r new n i 4 4 == partField s r old n i 4 4)

/-- UNCOMMITTED of a state image (R282). -/
def uncommitted (s : State) (image : List Nat) : Bool := bitAt (ofBytes (s.readPages image 5 1)) 0

/-- A record after a completed step (R182, R282): the image the step wrote is the current one. -/
def recordStepped (no : Nat) (s : State) (id : Nat) : State :=
  match s.record? id, s.dirEntry id with
  | some r, some e =>
    let n := paramCount e.layers e.plen e.dKv
    let mark := stepApplied s r n no || uncommitted s (if r.current = 0 then r.state0 else r.state1)
    let s := s.setUncommitted (if r.current = 0 then r.state1 else r.state0) mark
    s.modRecord id (fun r => { r with current := 1 - r.current, lastStep := no })
  | _, _ => s

/-- A practice step whose last segment ran in this slot completes (R290, R460). -/
def stepDone (s : State) (p : PStep) : State :=
  let s := p.adapters.foldl (recordStepped p.no) s
  (s.dropStep p.did).complete p.did (if p.reran then stRepeatedOk else stOk) (if p.satFlag then 1 else 0) p.no
    (engineField s p.ctx p.engine false)

/-- A probe pass of a segment measured (R67, R68): its amax values are entry 0 of their slots and the segment is probed. The
model does this when the pass ends, so that the second run may follow in the same slot; group work waits for its verdict at
the slot end. DESIGN CHOICE (assumption 208): R67 does not say when the measured amax enters the slot. -/
def segmentProbed (s : State) (w : Work) : State :=
  (probeUses s w).modPStep w.did (fun p => { p with probed := p.segment :: p.probed })

/-- The practice steps of the segments that ended in this slot, flagged where one of them passed a threshold (R74). -/
def flagSteps (s : State) : State :=
  (s.ump.done.filter (fun w => decide (w.kind = .segment) && workFlagged s w)).foldl
    (fun s w => s.modPStep w.did (fun p => { p with satFlag := true })) s

/-- A practice segment's effects at its slot end. -/
def segmentDone (s : State) (w : Work) : State :=
  let flagged := (s.ump.steps.find? (fun p => p.did == w.did)).elim false (·.satFlag)
  let s := skipEvents (satEvents (satTotals (appendUses s w) w) w flagged) w
  let s := (s.chargeWork w 0 (w.ended.getD w.start)).countWork w.ctx 0 1
  let s := s.modPStep w.did (fun p => { p with engine := p.engine + w.charges.cubeCyc })
  if (groupOf s w.imgSlot true w.cls).isSome then advanceStep s w.did else s

/-- One piece of work that has ended, settled at the slot end of a slot of length `len`. -/
def settleWork (len : Nat) (s : State) (w : Work) : State :=
  match w.kind with
  | .serve => (s.ump.ready.find? (fun r => r.did == w.did)).elim s (fun r => serveDone s w r len)
  | .probe =>
    let s := (probeUses s w).chargeWork w len (w.ended.getD w.start)
    { s with ump := { s.ump with ready := s.ump.ready.map (fun r => if r.did = w.did then { r with probed := true } else r) } }
  | .segment => segmentDone s w
  | .probeSegment =>
    let s := if (groupOf s w.imgSlot true w.cls).isSome then segmentProbed s w else s
    s.chargeWork w len (w.ended.getD w.start)

/-- All the work of the slot settled, then the practice steps that have run their last segment. -/
def settleSlot (s : State) (len : Nat) : State :=
  let s := flagSteps s
  let s := s.ump.done.foldl (settleWork len) { s with ump := { s.ump with done := [] } }
  (s.ump.steps.filter (fun p => (programAt s p).elim false (fun g => decide (g.segments.length ≤ p.segment)))).foldl stepDone s

/-! Completions and events that waited (R462, R364, R569). -/

/-- The completions that waited for the slot end. -/
def flushCompletions (s : State) : State :=
  s.host.completions.foldl (fun s p => s.complete p.did p.status p.flags p.extra p.engine)
    { s with host := { s.host with completions := [] } }

/-- The events that waited for the slot end. -/
def flushEvents (s : State) : State :=
  s.host.events.foldl State.flush { s with host := { s.host with events := [] } }

/-! Accounting and samples (R359 to R362, R539, R592). -/

/-- UMP_OVERRUN and its extension (R341, R359). -/
def reportOverrun (s : State) (t : Slot) : State :=
  match s.ump.overrun with
  | none => s
  | some (c, no, old) =>
    let extra := t.slotEnd - old
    let a := s.acct 0
    let s := s.setAcct 0 { a with discardNs := wrap64 (a.discardNs + extra), dirty := true }
    s.opEvent (eventRec 0x0090 c s.ts [(4, 6, 4, s.ump.stretch), (8, 0, 64, no), (16, 0, 32, extra / 1000)])

/-- Is this the first slot end after a multiple of a period, the last slot end being `last`? -/
def firstAfter (last t period : Nat) : Bool := decide (ceilDiv last period * period < t)

/-- Sealed charges that were held back, added as one sum (R539). -/
def releaseHeld (s : State) (c : Nat) : State :=
  let a := s.acct c
  if a.heldSealed = .zero ∧ a.heldSlotNs = 0 then s
  else
    let b : Acct := { a with
      charges := a.charges.add a.heldSealed
      slotNs := wrap64 (a.slotNs + a.heldSlotNs)
      heldSealed := .zero
      heldSlotNs := 0
      dirty := true }
    s.setAcct c (b.addFj (energyFj s a.heldSealed))

/-- A record's update in the table (R360, R361): SEQ rises by two, through the odd value while it is written. -/
def updateAcct (s : State) (c : Nat) : State :=
  let a := s.acct c
  writeAcct (s.setAcct c { a with seq := wrap32 (a.seq + 2), lastTs := s.ts, dirty := false }) c

/-- ACCOUNTING_UPDATE (R360, R539): every record that has changed; a VF context's at the first slot end after each 10 ms. -/
def updateAccts (s : State) (last : Nat) : State :=
  let s := if firstAfter last s.ts 1000000000 then (s.ump.acct.map (·.1)).foldl releaseHeld s else s
  let due (p : Nat × Acct) : Bool := p.2.dirty && (!s.isVf p.1 || firstAfter last s.ts 10000000)
  ((s.ump.acct.filter due).map (·.1)).foldl updateAcct s

/-- PMU_SAMPLE (R592): each bound counter set's counts. -/
def samplePmu (s : State) (last : Nat) : State :=
  if firstAfter last s.ts 10000000 then
    s.scb.csets.foldl (fun s p =>
      let v (i : Nat) : Nat := wrap32 (p.2.counts.getD i 0 / 4096)
      s.ctxEvent p.2.ctx (eventRec 0x00F0 p.2.ctx s.ts [(4, 0, 32, v 0), (8, 0, 32, v 1), (12, 0, 32, v 2), (16, 0, 32, v 3)])) s
  else s

/-! The stretch divisor (R352, R353). -/

/-- A new stretch divisor takes effect: slot lengths, R346 again, and UMP_STRETCH at the end of the slot. -/
def takeStretch (s : State) : State :=
  if s.ump.stretchNext = s.ump.stretch then s
  else
    let s := { s with ump := { s.ump with stretch := s.ump.stretchNext, stretchFor := none } }
    let s := { s with ump := { s.ump with atRisk := !rsvTableOk s (fun c => (s.ctx? c).isSome) s.rsvTable } }
    s.later .operator (eventRec 0x0092 0 0 [(4, 6, 4, s.ump.stretch)])

/-! The slot end as a whole. -/

/-- What a slot end writes, at its instant. -/
def slotEffects (s : State) (t : Slot) : State :=
  let last := s.scb.lastSample
  let s := s.verdictAction t
  let s := settleSlot s t.len
  let s := flushEvents (flushCompletions s)
  let s := (reportOverrun s t).chargeStatic
  let s := samplePmu (updateAccts s last) last
  let s := s.reportDrops
  { s with scb := { s.scb with lastSample := s.ts }, ump := { s.ump with overrun := none } }

/-- The probe pass of a serve that ended in this slot, which takes the next slot (R68). -/
def probedHere (s : State) : Option Nat := (s.ump.done.find? (fun w => decide (w.kind = .probe))).map (·.did)

/-- Does a choice give the slot to a serve? -/
def choseServe (s : State) (did : Nat) : Bool := s.ump.slot.elim false (fun t => t.serve == some did)

/-- The choice at a slot end while a new divisor waits: it takes effect at the boundary of the repetition of the serve that the
fence discarded (R352; assumption 85). That is where the serve is chosen under either divisor, or is no longer ready. -/
def State.chooseStretched (s : State) (t : Nat) (probed : Option Nat) : State :=
  let new := (takeStretch s).choose t probed
  match s.ump.stretchFor with
  | none => new
  | some did =>
    let old := s.choose t probed
    if !s.ump.ready.any (fun r => r.did == did) || choseServe new did || choseServe old did then new else old

/-- The next slot, unless half-time begins, a hold or a device fault keeps slots from starting, or a power transition has
taken over (R342, R562, R565, R612). -/
def nextSlot (s : State) (t : Slot) (probed : Option Nat) : State :=
  let s := if t.len = 0 ∧ s.pwr.request = some .active then s.nowActive.takeQueued else s
  if s.pwr.request = some .idle then s.enterHalfTime.takeQueued
  else if s.ump.slot ≠ some t then s
  else if s.err.hold ∨ s.err.deviceFault then { s with ump := { s.ump with slot := none } }
  else s.chooseStretched t.slotEnd probed

end Sys2Proof.Machine
end

