-- ==== Sys2Proof/Machine/TrafficOps.lean ====
section
/-! DEFINITION. What the work on the array is charged and counted for the bytes it moves (R359, R588, R589). -/
namespace Sys2Proof.Machine
open Sys2Proof

/-- The state with a change of the work on the array. -/
def State.modWork (s : State) (f : Work → Work) : State := { s with ump := { s.ump with work := s.ump.work.map f } }

/-- More charges for the work on the array (R359). -/
def State.addCharge (s : State) (c : Charges) : State := s.modWork (fun w => { w with charges := w.charges.add c })

/-- The context and sealing that a counted event of the work on the array carries. -/
def State.workCounted (s : State) (unit : Nat) : Counted :=
  { unit := unit, ctx := s.ump.work.elim 0 (·.ctx), isSealed := s.ump.work.elim false (·.isSealed) }

/-- Is an address in a court buffer (R623)? -/
def inCourt (a : Nat) : Bool := decide (courtBase ≤ a) && decide (a < courtBase + 0x2000_0000)

/-- Bytes of LPDDR5X or bonded SRAM read or written for the work on the array by a unit of a compute die: charged, and
counted in the block of the die that holds them; words read from a court buffer are counted only (R359, R588). -/
def State.traffic (s : State) (write : Bool) (die unit a n : Nat) : State :=
  let event := if write then 1 else 0
  if inLpddr a then
    let s := s.addCharge { Charges.zero with lpddrBytes := n }
    s.countLines event (linesOf a n) (s.workCounted die)
  else if inSram a then
    (s.addCharge { Charges.zero with sramBytes := n }).countUnits ((a - sramBase) / sdBytes) 2 event a n 64 (s.workCounted unit)
  else if inCourt a && !write then s.countUnits ((a - courtBase) / 0x200_0000) 2 3 a n 64 (s.workCounted unit)
  else s

/-- The lines of a page list that hold `n` bytes from an offset, charged and counted as read or written. -/
def State.pageTraffic (s : State) (write : Bool) (die : Nat) (ps : List Nat) (off n : Nat) : State :=
  (linesOf off n).foldl (fun s l => s.traffic write die 8 (ps.getD (l / 1024) 0 * pageBytes + 64 * (l % 1024)) 64) s

/-- A semaphore of the work on the array. -/
def State.sem (s : State) (i : Nat) : Nat := s.ump.work.elim 0 (fun w => Tbl.getD w.sems i 0)
/-- A semaphore raised (R357). -/
def State.addSem (s : State) (i n : Nat) : State := s.modWork (fun w => { w with sems := Tbl.set w.sems i (Tbl.getD w.sems i 0 + n) })

end Sys2Proof.Machine
end

