-- ==== Sys2Proof/Machine/AdapterOps.lean ====
section
/-! DEFINITION. Sealed blobs as shared operations (chapter 7): headers, keys, opening and sealing, and the events of the
Locker. -/
namespace Sys2Proof.Machine
open Sys2Proof

/-- Reasons of LKR_FETCH_FAIL (R268). -/
def lkFormat : Nat := 1
def lkTenant : Nat := 2
def lkImage : Nat := 3
def lkKey : Nat := 4
def lkAuth : Nat := 5
def lkDma : Nat := 6
def lkStale : Nat := 7
def lkShape : Nat := 8
def lkBusy : Nat := 9
def lkPinned : Nat := 10

/-- A blob header of R230. -/
structure BlobHeader where
  kind : Nat
  adapter : Nat
  tenant : Nat
  version : Nat
  trainedOn : Nat
  compat : List Nat
  layers : Nat
  plen : Nat
  dKv : Nat
  fmt : Nat
  skeyGen : Nat
  payload : Nat
  deriving DecidableEq, Repr

/-- The fields of a header. -/
def BlobHeader.ofBits (h : BitVec 2048) : BlobHeader :=
  { kind := fld h 5 0 8, adapter := fld h 8 0 64, tenant := fld h 16 0 32, version := fld h 20 0 32,
    trainedOn := fld h 24 0 64, compat := ((List.range 4).map (fun i => fld h (32 + 8 * i) 0 64)).filter (· != 0),
    layers := fld h 64 0 16, plen := fld h 66 0 16, dKv := fld h 68 0 16, fmt := fld h 70 0 8, skeyGen := fld h 72 0 32,
    payload := fld h 96 0 64 }

/-- Does a header pass R230 on its own? -/
def headerGood (h : BitVec 2048) : Bool :=
  let b := BlobHeader.ofBits h
  fld h 0 0 32 == 0x4B4C4441 && fld h 4 0 8 == 1 && decide (b.kind ≤ 1) && fld h 6 0 16 == 0 && b.adapter != 0 &&
    b.version != 0 && b.trainedOn != 0 && decide (1 ≤ b.layers) && decide (b.layers ≤ 1024) && decide (1 ≤ b.plen) &&
    decide (b.plen ≤ 256) && b.dKv % 32 == 0 && decide (32 ≤ b.dKv) && decide (b.dKv ≤ 16384) &&
    (b.fmt == 0x01 || b.fmt == 0x10) && fld h 71 0 8 == 0 && fld h 76 0 32 == 0 && fld h 92 0 32 == 0 &&
    decide (256 ≤ b.payload) && decide (b.payload ≤ 1073741824) && b.payload % 256 == 0 && fld h 104 0 1216 == 0

/-- Bytes of a PREFIX payload of a shape (R231). -/
def prefixBytes (b : BlobHeader) : Nat := b.layers * layerBlock b.fmt b.plen b.dKv

/-- Pages of an adapter's Bullpen copy. -/
def copyPages (payload : Nat) : Nat := ceilDiv (256 + payload) pageBytes

/-- The key slot of a tenant, BOUND; a slot that is PURGING gives no key (R535). -/
def State.refSlotOf (s : State) (tenant : Nat) : Option (Nat × RefSlot) := s.ref.slots.find? (fun p => p.2.tenant == tenant && p.2.st == .bound)

/-- The storage key of a generation in a tenant's slot, in either epoch (R236, R532). -/
def State.skeyOf (s : State) (tenant gen : Nat) : Option (BitVec 256) :=
  (s.refSlotOf tenant).bind (fun p =>
    if gen = 0 then none
    else if p.2.skey0.1 = gen then some p.2.skey0.2
    else if p.2.skey1.1 = gen then some p.2.skey1.2
    else none)

/-- The newest storage-key generation of a tenant's slot and its key (R233). -/
def State.newestKey (s : State) (tenant : Nat) : Option (Nat × BitVec 256) :=
  (s.refSlotOf tenant).bind (fun p =>
    let k := if p.2.skey0.1 < p.2.skey1.1 then p.2.skey1 else p.2.skey0
    if k.1 = 0 then none else some k)

/-- Is an adapter's base image in a bank that is READY, ACTIVE or DRAINING (R236 step 3)? -/
def State.imageHeld (s : State) (b : BlobHeader) : Bool :=
  [0, 1].any (fun i =>
    let r := s.bank i
    (decide (r.st = .ready) || decide (r.st = .active) || decide (r.st = .draining)) &&
      (r.imageId == b.trainedOn || b.compat.contains r.imageId))

/-- LKR_FETCH_FAIL (R236, R268). -/
def State.fetchFail (s : State) (c reason adapter : Nat) : State :=
  s.ctxEvent c (eventRec 0x0060 c s.ts [(4, 0, 4, reason), (4, 4, 4, s.lockerFor (homeOf adapter)), (8, 0, 64, adapter)])

/-- A descriptor of the ADAPTER ring that ends with BAD_DESCRIPTOR and a reason. -/
def State.adapterBad (s : State) (a : Accepted) (reason adapter : Nat) : State :=
  (s.fetchFail a.ctx reason adapter).finish a.did stBad

/-- A directory lookup counted at the adapter's home (R588). -/
def State.countLookup (s : State) (c adapter : Nat) : State := s.count (s.lockerFor (homeOf adapter)) 4 2 1 { unit := 8, ctx := c }

/-- Bytes through the GCM engine of the adapter's home (R588). -/
def State.countGcm (s : State) (c adapter n : Nat) : State :=
  s.count (s.lockerFor (homeOf adapter)) 4 3 (ceilDiv n 256) { unit := 8, ctx := c }

/-- Bullpen pages entered in the page-key table under a tenant's slot (R228, R497). -/
def State.giveBullpen (s : State) (ps : List Nat) (slot : Nat) : State := s.setPages ps ⟨1, 1, slot⟩

/-- A blob's header in bytes. -/
def headerBytes (h : BitVec 2048) : List Byte := bytesOf 256 h.toNat

/-- Ciphertext and tag opened under the tenant's key of the header's generation (R230). -/
def State.openBlob (s : State) (h : BitVec 2048) (data : List Byte) : Option (List Byte) :=
  let b := BlobHeader.ofBits h
  let header := headerBytes h
  let n := data.length - 16
  (s.skeyOf b.tenant b.skeyGen).bind (fun k =>
    gcmDecrypt (bytesOf 32 k.toNat) ((header.drop 80).take 12) header (data.take n) (data.drop n))

/-- Is a step that uses an adapter under way: its first segment has started, and it has not completed? -/
def State.stepRunning (s : State) (adapter : Nat) : Bool :=
  s.ump.steps.any (fun p => p.adapters.contains adapter && p.firstBank.isSome)

end Sys2Proof.Machine
end

