-- ==== Sys2Proof/Machine/HostRows.lean ====
section
/-! DEFINITION. The host's commands: doorbells, descriptor acceptance, window flags and accesses, the mailbox, heartbeats,
register writes and the reads that latch (chapter 13; R629 to R632). -/
namespace Sys2Proof.Machine
open Sys2Proof

/-! Doorbells (R454, R630). -/

/-- The context that owns a doorbell page of a function. -/
def pageOwner (s : State) (p : Port) (func page : Nat) : Option Nat :=
  if page = 0 then (if funcExists s p func then some (setupCtx p func) else none)
  else (s.host.contexts.find? (fun c => decide (129 ≤ c.1) && decide (c.2.port = p) && c.2.func == func && c.2.page == page)).map (·.1)

/-- A doorbell's value taken in, or refused when P − C would leave 0 to the size. -/
def ringDoorbell (r : Ring) (v : Nat) : Option Ring :=
  let used := if r.kind.hostProduced then (v + 2 ^ 32 - r.c) % 2 ^ 32 else (r.p + 2 ^ 32 - v) % 2 ^ 32
  if used ≤ r.size then some (if r.kind.hostProduced then { r with p := v } else { r with c := v }) else none

/-- DOORBELL_WRITE (R454, R613, R630). -/
def execDoorbellWrite (port : Port) (func page offset bytes value : Nat) (s : State) : Host.Outcome State Fault Refusal :=
  if s.booted = false then .next s
  else match pageOwner s port func page with
  | none => .next s
  | some c =>
    let refuse := s.bump (portKey port R.hubDbErr)
    if bytes ≠ 4 ∨ offset % 8 ≠ 0 ∨ 0x78 < offset then .next refuse
    else match (s.ring? c (offset / 8)).bind (fun r => ringDoorbell r (value % 2 ^ 32)) with
    | none => .next refuse
    | some r =>
      let s := s.modRing c (offset / 8) (fun _ => r)
      let s := s.count (queueHd port) 8 2 1 { ctx := c, unit := 0 }
      .next (if s.pwr.state = .idle ∧ s.pwr.request = none ∧ s.regFld R.pwrCtl 2 1 = 1 then s.requestPower .active else s)

/-! Descriptors (R456, R459). -/

/-- A descriptor accepted: its ring entry is consumed, a completion entry reserved, its window slots named. -/
def State.accept (s : State) (c r pair : Nat) (d : Desc) : State :=
  let a : Accepted := { did := s.host.nextDid, ctx := c, ring := r, desc := d, slots := namedSlots s c d,
                        slotsOk := slotsFree s c d, readTs := s.ts, begun := false, pair := pair,
                        pasid := (s.ring? c r).bind Ring.tlpPasid }
  let s := s.modRing c r (fun q => { q with c := wrap32 (q.c + 1) })
  let s := s.modRing c pair (fun q => { q with reserved := q.reserved + 1 })
  { s with host := { s.host with accepted := s.host.accepted ++ [a], nextDid := s.host.nextDid + 1 } }

/-- May the ring's next descriptor be read (R442, R456): one waits, the ring runs, a completion entry is free? -/
def mayRead (s : State) (c r : Nat) : Option (Context × Ring) :=
  match s.ctx? c, s.ring? c r with
  | some x, some ring =>
    match s.ring? c ring.pair with
    | some q =>
      if x.tearDown = none ∧ ring.stopped = false ∧ ring.used ≠ 0 ∧ q.kind = .complete ∧ q.used + q.reserved < q.size ∧
          (ring.kind = .submit ∨ ring.kind = .adapter) then some (x, ring) else none
    | none => none
  | _, _ => none

/-- DESCRIPTOR_ACCEPT (R455, R456, R459): the next descriptor of a ring is read and accepted; steps 1 to 3 of R459
complete it at once. A failed read stops the ring (R442); a BARRIER descriptor waits for every earlier one of its ring. -/
def execDescriptorAccept (ctx ring : Nat) (read : DescRead) (s : State) : Host.Outcome State Fault Refusal :=
  match mayRead s ctx ring with
  | none => .next s
  | some (x, q) =>
    match read with
    | .failed => .next (s.modRing ctx ring (fun r => { r with stopped := true }))
    | .ok d =>
      if fld d 1 0 1 = 1 ∧ s.host.accepted.any (fun a => a.ctx == ctx && a.ring == ring) then .next s
      else
        let did := s.host.nextDid
        let s := (s.accept ctx ring q.pair d).writeback ctx ring
        let s := s.count (queueHd x.port) 8 3 1 { ctx := ctx, unit := 0, isSealed := descSealed d }
        let s := s.trace (queueHd x.port) 6 ctx (fld d 4 0 32 + 2 ^ 32 * ring + 2 ^ 36 * fld d 0 0 8) (descSealed d)
        match headerStatus s ctx x q.kind d with
        | some st => .next (s.finish did st)
        | none => .next s

/-! Window flags and accesses (R445 to R448). -/

/-- The window's slot number of a flag as a function sees it; none where the function sees no flag. -/
def slotSeen (func slot : Nat) : Option Nat :=
  if func = 0 then (if slot < 131072 then some slot else none)
  else if slot < 2048 then some (131072 + (func - 1) * 2048 + slot) else none

/-- Is a slot one of the applied accounting table (R360)? -/
def acctSlot (s : State) (p : Port) (slot : Nat) : Bool :=
  let w := s.regAt R.umpAcctBase
  decide (p = s.host.owner) && decide (wordFld w 0 1 = 1) && decide (wordFld w 16 16 ≤ slot) && decide (slot < wordFld w 16 16 + 8)

/-- Does an accepted descriptor of the port name a slot? -/
def slotNamed (s : State) (p : Port) (slot : Nat) : Bool :=
  s.host.accepted.any (fun a => a.slots.contains slot && (s.ctx? a.ctx).map (·.port) == some p)

/-- A write refused by R447 or R448 (HUB_WIN_VIOL). -/
def State.winViolation (s : State) (p : Port) : State := s.bump (portKey p R.hubWinViol)

/-- Hand-over (R447): OWN from 0 to 1 with the current GEN, as one aligned 8-byte write. -/
def State.handOver (s : State) (p : Port) (i : Nat) (aligned : Bool) (gen : Nat) : State :=
  let f := (s.host.port p).flag i
  if aligned = true ∧ s.slotOwn p i = false ∧ f.gen = gen then
    s.modPort p (fun q => { q with flags := Tbl.set q.flags i ⟨true, f.gen⟩ })
  else s.winViolation p

/-- Reclaim (R447): OWN from 1 to 0 with the current GEN, of a slot that nothing names; GEN rises by 1. -/
def State.reclaim (s : State) (p : Port) (i : Nat) (aligned : Bool) (gen : Nat) : State :=
  let f := (s.host.port p).flag i
  if aligned = true ∧ f.own = true ∧ f.gen = gen ∧ !slotNamed s p i ∧ !acctSlot s p i ∧ !s.slotOffline p i then
    s.modPort p (fun q => { q with flags := Tbl.set q.flags i ⟨false, wrap32 (f.gen + 1)⟩ })
  else s.winViolation p

/-- FLAG_HANDOVER (R447). -/
def execFlagHandover (port : Port) (func slot bytes gen : Nat) (s : State) : Host.Outcome State Fault Refusal :=
  if s.booted = false ∨ !funcExists s port func then .next s
  else .next ((slotSeen func slot).elim s (fun i => s.handOver port i (bytes == 8) gen))

/-- FLAG_RECLAIM (R447). -/
def execFlagReclaim (port : Port) (func slot bytes gen : Nat) (s : State) : Host.Outcome State Fault Refusal :=
  if s.booted = false ∨ !funcExists s port func then .next s
  else .next ((slotSeen func slot).elim s (fun i => s.reclaim port i (bytes == 8) gen))

/-- Any write into a function's flag area (R447): an aligned 8-byte write of a flag's two words is a hand-over or a reclaim by
its OWN; every other write is refused. A write outside the flags that the function sees is discarded (R445). -/
def State.flagWrite (s : State) (p : Port) (func off : Nat) (data : List Byte) : State :=
  match slotSeen func (off / 8) with
  | none => s
  | some i =>
    let v := ofBytes data
    if data.length = 8 ∧ off % 8 = 0 then
      if bitAt v 0 then s.handOver p i true (bitsOf v 32 32) else s.reclaim p i true (bitsOf v 32 32)
    else s.winViolation p

/-- A byte of the flag area as the PF reads it: the flags of the PF area, zero elsewhere. -/
def flagByte (s : State) (p : Port) (off : Nat) : Byte :=
  let i := (off - 0x3_FFE0_0000) / 8
  if i < 131072 then
    let f := (s.host.port p).flag i
    BitVec.ofNat 8 (((if s.slotOwn p i then 1 else 0) + 2 ^ 32 * f.gen) >>> (8 * (off % 8)))
  else 0

/-- A byte of the window as a host reads it (R445, R448). -/
def hostByte (s : State) (p : Port) (func off : Nat) (bytes : List Byte) (i : Nat) : Byte :=
  let o := off + i
  if funcBytes func ≤ o then
    (if func = 0 ∧ 0x3_FFE0_0000 ≤ o ∧ o < 0x4_0000_0000 then flagByte s p o else 0)
  else
    let slot := (funcBase func + o) / 65536
    if s.slotOffline p slot || (((s.host.port p).flag slot).own && !acctSlot s p slot) then 0 else bytes.getD i 0

/-- A host write to the window as the device takes it: bytes of host-owned slots only (R448). -/
def hostCells (s : State) (p : Port) (func off : Nat) (data : List Byte) : List (Nat × Byte) :=
  (data.zipIdx.map (fun d => (off + d.2, d.1))).filter (fun c =>
    decide (c.1 < funcBytes func) && !s.slotOwn p ((funcBase func + c.1) / 65536))

/-- Cells written one by one through the memory engines. -/
def writeHostCells (s : State) (base : Nat) (cs : List (Nat × Byte)) : State :=
  cs.foldl (fun s c => s.lpWrite 0 (base + c.1) [c.2]) s

/-- Does a host access touch a device-owned slot? -/
def touchesOwned (s : State) (p : Port) (func off n : Nat) : Bool :=
  decide (off + n ≤ funcBytes func) && (slotsOf func off n).any (s.slotOwn p)

/-- Does a host read need a line that cannot be read (R489)? A device-owned slot reads zero without being read. -/
def hostReadFails (s : State) (p : Port) (func off n : Nat) : Bool :=
  (List.range n).any (fun i =>
    let slot := (funcBase func + off + i) / 65536
    decide (off + i < funcBytes func) && !s.slotOffline p slot && (!((s.host.port p).flag slot).own || acctSlot s p slot) &&
      s.mem.bad.contains ((s.winBase p + funcBase func + off + i) / 64))

/-- Window bytes as the memory engines give them to a hub; an OFFLINE page is not accessed (R502). -/
def hostRead (s : State) (a n : Nat) : List Byte × State :=
  let one (acc : List Byte × State) (l : Nat) : List Byte × State :=
    if acc.2.pageOffline (l / 1024) then (acc.1 ++ List.replicate 64 0, acc.2)
    else
      let (ls, s) := readLineFor 0 ([], acc.2) l
      (acc.1 ++ ls.flatMap (·.2), s)
  let (bs, s) := (linesOf a n).foldl one ([], s)
  ((bs.drop (a % 64)).take n, s)

/-- The lines that a host access reaches: those of slots that the host owns and that are not OFFLINE (R448, R502). -/
def hostLines (s : State) (p : Port) (func off n : Nat) : List Nat :=
  let first := s.winBase p + funcBase func
  (linesOf (first + off) n).filter (fun l =>
    let slot := (64 * l - s.winBase p) / 65536
    decide (64 * l < first + funcBytes func) && !s.slotOffline p slot && (!((s.host.port p).flag slot).own || acctSlot s p slot))

/-- The largest access that one host request makes (R441). -/
def accessBytes : HostAccess → Nat
  | .read n => min n 4096
  | .write d => min d.length 4096

/-- WINDOW_HOST_ACCESS (R445, R448, R489, R599, R632): before BOOT_DONE the boot buffer answers, on the port that
BOOT_SRC names; after it a host-owned slot is memory, a device-owned slot reads zero and discards writes, and the
accounting table reads. -/
def execWindowHostAccess (port : Port) (func offset : Nat) (access : HostAccess) (s : State) : Host.Outcome State Fault Refusal :=
  if s.booted = false then
    if s.powered ∧ func = 0 ∧ s.regFld R.rstStraps 0 2 = port.num + 1 then
      match access with
      | .read n => .next (s.emit (.windowData port func
          (if offset + n ≤ 67108864 then s.pwr.bundle.readBytes offset n else List.replicate (min n 4096) 0)))
      | .write d =>
        if offset + d.length ≤ 67108864 then
          .next { s with pwr := { s.pwr with bundle := s.pwr.bundle.writeBytes offset d } }
        else .next s
    else .next s
  else if !funcExists s port func then .next s
  else
    let n := accessBytes access
    let base := s.winBase port + funcBase func
    match access with
    | .read _ =>
      if hostReadFails s port func offset n then .next (s.emit (.completerAbort port func))
      else
        let (bs, s') := hostRead s (base + offset) n
        let s' := s'.count (queueHd port) 8 0 (ceilDiv n 64) { unit := 0 }
        let s' := s'.countLines 0 (hostLines s port func offset n) { unit := 16 + port.num }
        .next (s'.emit (.windowData port func ((List.range n).map (hostByte s port func offset bs))))
    | .write d =>
      let d := d.take 4096
      if func = 0 ∧ 0x3_FFE0_0000 ≤ offset ∧ offset < 0x4_0000_0000 then
        .next (s.flagWrite port 0 (offset - 0x3_FFE0_0000) d)
      else
      let s' := writeHostCells s base (hostCells s port func offset d)
      let s' := s'.count (queueHd port) 8 1 (ceilDiv n 64) { unit := 0 }
      let s' := s'.countLines 1 (hostLines s port func offset n) { unit := 16 + port.num }
      .next (if touchesOwned s port func offset n then s'.winViolation port else s')

/-! The mailbox (R466, R469, R479). -/

/-- The entry of a MAILBOX_OUT ring taken. -/
def takeMessage (s : State) (c : Nat) : State := (s.modRing c 0 (fun r => { r with c := wrap32 (r.c + 1) })).writeback c 0

/-- Does a function's MAILBOX_OUT ring hold a message? -/
def hasMessage (s : State) (c : Nat) : Bool :=
  (s.ring? c 0).elim false (fun r => decide (r.kind = .mailboxOut) && !r.stopped && decide (r.used ≠ 0))

/-- Has a function's MAILBOX_IN ring room? -/
def hasRoom (s : State) (c : Nat) : Bool :=
  (s.ring? c 1).elim false (fun r => decide (r.kind = .mailboxIn) && decide (r.used < r.size))

/-- MAILBOX_REQUEST_COPY (R469): a VF's message goes to its port's PF with its VF field set; it waits while the PF's ring
has no room. -/
def execMailboxRequestCopy (port : Port) (vf : Nat) (message : Desc) (s : State) : Host.Outcome State Fault Refusal :=
  let src := setupCtx port vf
  let dst := setupCtx port 0
  if vf = 0 ∨ !funcExists s port vf ∨ !hasMessage s src ∨ !hasRoom s dst then .next s
  else .next ((takeMessage s src).produce dst 1 (setBits message.toNat 32 6 vf))

/-- MAILBOX_REPLY_COPY (R469): a PF's reply goes to the VF it names; a message that is no reply, or names no enabled VF,
is dropped and counted. -/
def execMailboxReplyCopy (port : Port) (message : Desc) (s : State) : Host.Outcome State Fault Refusal :=
  let src := setupCtx port 0
  let vf := fld message 4 0 6
  if !hasMessage s src then .next s
  else if fld message 0 0 8 ≠ 0x80 ∨ vf = 0 ∨ !funcExists s port vf then
    .next ((takeMessage s src).bump (portKey port R.hubDbErr))
  else if !hasRoom s (setupCtx port vf) then .next s
  else .next ((takeMessage s src).produce (setupCtx port vf) 1 message.toNat)

/-- The kind that a mailbox ring must have (R466). -/
def mailboxKind (ring : Nat) : RingKind := if ring = 0 then .mailboxOut else .mailboxIn

/-- HUB_MBX_CFG4_WRITE (R479): the write takes effect at once; while the ring exists only one that sets LOG2_SIZE to 0 does. -/
def execHubMbxCfg4Write (port : Port) (func : Nat) (value : Word) (s : State) : Host.Outcome State Fault Refusal :=
  if s.booted = false ∨ !funcExists s port func then .next s
  else
    let ring := s.regFld (portKey port (keyOf R.hubMbxSel func)) 0 1
    let key (w : Nat) : Nat := portKey port (keyOf (R.hubMbxCfg w) (2 * func + ring))
    let c := setupCtx port func
    let value := value &&& 0x01FFFFFF
    if (s.ring? c ring).isSome then
      if wordFld value 3 5 ≠ 0 then .next s
      else .next ((s.setReg (key 4) value).modCtx c (fun x => { x with rings := Tbl.erase x.rings ring }))
    else
      let s := s.setReg (key 4) value
      let r := Ring.ofConfig (s.regAt (key 0)) (s.regAt (key 1)) (s.regAt (key 2)) (s.regAt (key 3)) value (s.regAt (key 5))
      match r with
      | none => .next s
      | some r =>
        if r.kind = mailboxKind ring ∧ 6 ≤ r.log2 ∧ r.log2 ≤ 16 then
          .next (s.modCtx c (fun x => { x with rings := Tbl.set x.rings ring r }))
        else .next s

/-- HUB_HEARTBEAT (R471, R480): any write from the owner's PF. -/
def execHubHeartbeat (port : Port) (_value : Word) (s : State) : Host.Outcome State Fault Refusal :=
  if s.booted = false ∨ port ≠ s.host.owner then .next s
  else .next { s with host := { s.host with heartbeatTs := s.ts, hbLost := false } }

/-- PEER_LOST (R472): the owner's heartbeat limit expires, or the owner port's link goes down. -/
def execPeerLost (cause : PeerLoss) (s : State) : Host.Outcome State Fault Refusal :=
  match cause with
  | .link => .next (s.modPort s.host.owner (fun p => { p with linkUp := false }))
  | .heartbeat =>
    let limit := s.regFld (portKey s.host.owner R.hubOwner) 0 16
    if limit = 0 ∨ s.booted = false then .next s
    else .next { s with ts := max s.ts (s.host.heartbeatTs + limit * 1000000), host := { s.host with hbLost := true } }

/-- VF_ENABLE (R441, R602): the PF enables its VFs; none before BOOT_DONE, at most 63. VFs that are no longer enabled are
reset. -/
def execVfEnable (port : Port) (count : Nat) (s : State) : Host.Outcome State Fault Refusal :=
  if s.booted = false ∨ 63 < count then .next s
  else
    let gone := (List.range 64).filter (fun f => decide (count < f) && decide (f ≤ (s.host.port port).vfs))
    let s := gone.foldl (fun s f => s.vfReset port f) s
    .next (s.modPort port (fun p => { p with vfs := count }))

/-! Register writes (R13, R602, R627, R629). -/

/-- The blocks that respond before BOOT_DONE: RST_, CLK_ and PWR_ (R602, R627). -/
def earlyBlock (block : Nat) : Bool := block == 0x20 || block == 0x21 || block == 0x22

/-- May a port's PF write a block's plain registers? REF_ and BMC_ answer the control owner only (R544, R646); before
BOOT_DONE only RST_, CLK_ and PWR_ respond (R602). -/
def blockWritable (s : State) (p : Port) (off : Nat) : Bool :=
  let block := off / 0x1_0000
  if s.booted then (decide (block ≠ 0x18) && decide (block ≠ 0x23)) || decide (p = s.host.owner)
  else s.powered && earlyBlock block

/-- The registers a VF's BAR0 holds (R631), as HUB_ offsets. -/
def vfRegister (off : Nat) : Bool := decide (0x40 ≤ off) && decide (off ≤ 0x58)

/-- One 32-bit write: RW bits take the value, W1C bits written with 1 clear; every other bit keeps its value (R13). The
writes that start an action are commands of their own, and ST bits are STAGED_WRITE's. -/
def State.write32 (s : State) (p : Port) (func off v : Nat) : State :=
  let reach := if func = 0 then blockWritable s p off else s.booted && funcExists s p func && vfRegister off
  match regRow off with
  | some row =>
    if !reach || off % 4 != 0 then s
    else
      let key := regKeyOf s p func off row
      let old := s.regAt key
      let rw := BitVec.ofNat 32 row.rw
      let clear := BitVec.ofNat 32 (row.w1c) &&& BitVec.ofNat 32 v
      s.setReg key (((old &&& ~~~rw) ||| (BitVec.ofNat 32 v &&& rw)) &&& ~~~clear)
  | none => s

/-- REGISTER_WRITE (R13, R602, R627, R629): one aligned 32-bit write, or one aligned 64-bit write as two. In a VF's BAR0 the
offsets from 0xC000 are the flags of its slice (R443, R445, R447). -/
def execRegisterWrite (port : Port) (func offset bytes value : Nat) (s : State) : Host.Outcome State Fault Refusal :=
  if 0x400_0000 ≤ offset then .next s
  else if func ≠ 0 ∧ 0xC000 ≤ offset ∧ offset < 0x1_0000 then
    if s.booted = false ∨ !funcExists s port func then .next s
    else .next (s.flagWrite port func (offset - 0xC000) (bytesOf bytes value))
  else if bytes = 4 ∧ offset % 4 = 0 then .next (s.write32 port func offset (value % 2 ^ 32))
  else if bytes = 8 ∧ offset % 8 = 0 then
    .next ((s.write32 port func offset (value % 2 ^ 32)).write32 port func (offset + 4) (value / 2 ^ 32 % 2 ^ 32))
  else .next s

/-! Reads that latch an upper half (R78, R335, R437, R481, R593, R618, R619). -/

/-- A LO register read: its value leaves, and the latch of the HI register takes the upper half: the shared block's, or
the port's own. -/
def State.readLo (s : State) (p : Port) (hiOff value : Nat) : State :=
  (s.setLatch p hiOff (value / 2 ^ 32 % 2 ^ 32)).emit (.readData p (value % 2 ^ 32))

/-- Does a block answer a read? -/
def State.readable (s : State) (early : Bool) : Bool := s.booted || (early && s.powered)

/-- SCB_TS_LO_READ (R593). -/
def execScbTsLoRead (port : Port) (s : State) : Host.Outcome State Fault Refusal :=
  if s.readable false then .next (s.readLo port R.scbTsHi s.ts) else .next (s.emit (.readData port 0))
/-- CRT_SAT_TOTAL_LO_READ (R78). -/
def execCrtSatTotalLoRead (port : Port) (s : State) : Host.Outcome State Fault Refusal :=
  if s.readable false then .next (s.readLo port R.crtSatTotalHi s.ump.satTotal)
  else .next (s.emit (.readData port 0))
/-- UMP_SERVE_NO_LO_READ (R335). -/
def execUmpServeNoLoRead (port : Port) (s : State) : Host.Outcome State Fault Refusal :=
  if s.readable false then .next (s.readLo port R.umpServeNoHi s.ump.serveNo) else .next (s.emit (.readData port 0))
/-- RDC_GSTEP_LO_READ (R437). -/
def execRdcGstepLoRead (port : Port) (s : State) : Host.Outcome State Fault Refusal :=
  if s.readable false then .next (s.readLo port R.rdcGstepHi s.rdc.gstep) else .next (s.emit (.readData port 0))
/-- CLK_THR_NS_LO_READ (R619). -/
def execClkThrNsLoRead (port : Port) (s : State) : Host.Outcome State Fault Refusal :=
  if s.readable true then .next (s.readLo port R.clkThrHi s.throttledNs) else .next (s.emit (.readData port 0))
/-- RST_MGMT_SEQ_LO_READ (R618). -/
def execRstMgmtSeqLoRead (port : Port) (s : State) : Host.Outcome State Fault Refusal :=
  if s.readable true then .next (s.readLo port R.rstMgmtSeqHi s.pwr.mgmtSeq) else .next (s.emit (.readData port 0))
/-- HDL_APPLIED_TS_LO_READ (R481). -/
def execHdlAppliedTsLoRead (port : Port) (s : State) : Host.Outcome State Fault Refusal :=
  if s.readable false then .next (s.readLo port R.hdlAppliedTsHi
    (s.reg64 (portKey port R.hdlAppliedTsLo) (portKey port R.hdlAppliedTsHi)))
  else .next (s.emit (.readData port 0))

end Sys2Proof.Machine
end

