-- ==== Sys2Proof/Machine/AdapterRows.lean ====
section
/-! DEFINITION. The commands of the ADAPTER ring and the directory query (chapter 7, R234 to R238, R250, R271). -/
namespace Sys2Proof.Machine
open Sys2Proof

/-- Step 1 of R236 with R234: the descriptor's own fields and the header. -/
def loadFormatOk (d : Desc) (h : BitVec 2048) : Bool :=
  let b := BlobHeader.ofBits h
  fld d 8 0 32 == 1 && fld d 44 0 160 == 0 && headerGood h && b.kind == 0 && b.payload == prefixBytes b &&
    fld d 24 0 64 == 256 + b.payload + 16 && fld d 32 0 64 == b.adapter && fld d 40 0 32 == b.tenant

/-- Step 2 of R236: the context's tenant, and the tenant of an existing entry. -/
def loadTenantOk (s : State) (c : Nat) (b : BlobHeader) : Bool :=
  s.tenantOfCtx c == some b.tenant && (s.dirEntry b.adapter).elim true (fun e => e.tenant == b.tenant)

/-- A higher version that is loading, or loaded and waiting (R237). -/
def State.versionPending (s : State) (id : Nat) : Bool :=
  s.lkr.loads.any (fun l => l.adapter == id && l.higher) || s.lkr.waiting.any (fun w => w.adapter == id)

/-- R237 and R293 for an existing entry: `some none` for OK at once, `some (some r)` for a refusal, `none` for a load. -/
def existingEntry (s : State) (e : DirEntry) (b : BlobHeader) : Option (Option Nat) :=
  if e.st ≠ .resident ∨ s.versionPending e.adapter then some (some lkBusy)
  else if b.version = e.version then some none
  else if b.version < e.version then some (some lkStale)
  else if (s.record? e.adapter).isSome then some (some lkBusy)
  else if b.layers ≠ e.layers ∨ b.plen ≠ e.plen ∨ b.dKv ≠ e.dKv ∨ b.fmt ≠ e.fmt then some (some lkShape)
  else none

/-- Step 6 of R236: pages, and an entry for a first load; streaming begins. -/
def startLoad (s : State) (a : Accepted) (h : BitVec 2048) (b : BlobHeader) (higher : Bool) : State :=
  match makeRoom s b.tenant (copyPages b.payload) (!higher) b.adapter with
  | none => s.finish a.did stDeferredMem
  | some (s, ps) =>
    let slot := s.slotOfTenant b.tenant
    let s := (s.giveBullpen ps slot).begin a.did
    let load : AdapterLoad := ⟨b.adapter, a.did, a.ctx, b.version, ps, higher, h⟩
    let s := { s with lkr := { s.lkr with loads := s.lkr.loads ++ [load] } }
    if higher then s
    else
      let e : DirEntry := { adapter := b.adapter, tenant := b.tenant, keySlot := slot, st := .loading, kind := b.kind, version := b.version,
                            loadCtx := a.ctx, fmt := b.fmt, plist := (Config.pageListOffset b.adapter).toNat, pages := ps, pins := 0, lastUse := s.ump.serveNo,
                            layers := b.layers, plen := b.plen, dKv := b.dKv, trainedOn := b.trainedOn, compat := b.compat }
      { s with lkr := { s.lkr with dir := s.lkr.dir ++ [e] } }

/-- ADAPTER_LOAD (R236, R237): steps 1 to 6 on the header as read from the host; a failed host read ends it (R442). -/
def execAdapterLoad (ctx ring : Nat) (header : Option (BitVec 2048)) (s : State) : Host.Outcome State Fault Refusal :=
  match s.oldest ctx ring 0x30 with
  | none => .next s
  | some a =>
    match header with
    | none => .next (s.adapterBad a lkDma (fld a.desc 32 0 64))
    | some h =>
      let b := BlobHeader.ofBits h
      let id := fld a.desc 32 0 64
      if !loadFormatOk a.desc h then .next (s.adapterBad a lkFormat id)
      else if !loadTenantOk s ctx b then .next (s.adapterBad a lkTenant id)
      else if !s.imageHeld b then .next (s.adapterBad a lkImage id)
      else if (s.skeyOf b.tenant b.skeyGen).isNone then .next (s.adapterBad a lkKey id)
      else
        let s := s.countLookup ctx id
        match s.dirEntry id with
        | none => .next (startLoad s a h b false)
        | some e =>
          match existingEntry s e b with
          | some none => .next (s.finish a.did stOk)
          | some (some r) => .next (s.adapterBad a r id)
          | none => .next (startLoad s a h b true)

/-- A load that failed at step 7 or 8: its pages scrubbed and freed with the entry. -/
def loadBroken (s : State) (l : AdapterLoad) (reason : Nat) : State :=
  let s := s.abandonLoad l.adapter
  let s := if reason = lkAuth then s.bump R.lkrAuthFail else s
  (s.fetchFail l.ctx reason l.adapter).finish l.did stBad

/-- ADAPTER_LOAD_COMPLETE (R236 steps 7 to 9, R237): the ciphertext and tag as read from the host, opened and written; the
entry is RESIDENT, or the higher version waits for its boundary. -/
def execAdapterLoadComplete (adapter : Nat) (sealed : Option (List Byte)) (s : State) : Host.Outcome State Fault Refusal :=
  match s.lkr.loads.find? (fun l => l.adapter == adapter) with
  | none => .next s
  | some l =>
    let b := BlobHeader.ofBits l.header
    match sealed with
    | none => .next (loadBroken s l lkDma)
    | some data =>
      if data.length ≠ b.payload + 16 then .next (loadBroken s l lkDma)
      else
        let s := s.countGcm l.ctx adapter b.payload
        match s.openBlob l.header data with
        | none => .next (loadBroken s l lkAuth)
        | some plain =>
          let s := s.writePages adapter l.pages (headerBytes l.header ++ plain)
          let s := { s with lkr := { s.lkr with loads := s.lkr.loads.filter (fun x => x.adapter != adapter) } }
          let s := if l.higher then
              let w : WaitingVersion := ⟨adapter, l.version, l.pages, b.trainedOn, b.compat, s.ts⟩
              { s with lkr := { s.lkr with waiting := s.lkr.waiting ++ [w] } }
            else s.modDir adapter (fun e => { e with st := .resident })
          .next (s.finish l.did stOk)

/-- A descriptor of UNLOAD or REVOKE with its unlisted bits zero (R234). -/
def removeFormatOk (d : Desc) (all : Bool) : Bool :=
  fld d 8 0 32 == 1 && fld d 16 0 128 == 0 && (if all then fld d 44 1 159 == 0 else fld d 44 0 160 == 0)

/-- ADAPTER_UNLOAD (R238). -/
def execAdapterUnload (ctx ring : Nat) (s : State) : Host.Outcome State Fault Refusal :=
  match s.oldest ctx ring 0x31 with
  | none => .next s
  | some a =>
    let id := fld a.desc 32 0 64
    let tenant := fld a.desc 40 0 32
    if !removeFormatOk a.desc false then .next (s.adapterBad a lkFormat id)
    else if s.tenantOfCtx ctx ≠ some tenant then .next (s.adapterBad a lkTenant id)
    else match s.dirEntry id with
      | none => .next (s.finish a.did stOk)
      | some e =>
        if e.tenant ≠ tenant then .next (s.finish a.did stOk)
        else if e.st ≠ .resident ∨ s.versionPending id then .next (s.adapterBad a lkBusy id)
        else if e.pins ≠ 0 then .next (s.adapterBad a lkPinned id)
        else
          let s := s.freePages e.pages
          let s := { s with lkr := { s.lkr with dir := s.lkr.dir.filter (fun x => x.adapter != id) } }
          .next (s.finish a.did stOk)

/-- May a context name a tenant in ADAPTER_REVOKE (R235)? -/
def mayRevoke (s : State) (c tenant : Nat) : Bool :=
  s.tenantOfCtx c == some tenant || (s.ctx? c).elim false (fun x => x.func == 0 && x.session == 0)

/-- ADAPTER_REVOKE (R234, R235, R250). -/
def execAdapterRevoke (ctx ring : Nat) (s : State) : Host.Outcome State Fault Refusal :=
  match s.oldest ctx ring 0x32 with
  | none => .next s
  | some a =>
    let id := fld a.desc 32 0 64
    let tenant := fld a.desc 40 0 32
    let all := fld a.desc 44 0 1 == 1
    if !removeFormatOk a.desc true || (all && id != 0) then .next (s.adapterBad a lkFormat id)
    else if !mayRevoke s ctx tenant then .next (s.adapterBad a lkTenant id)
    else .next ((s.begin a.did).revoke tenant id all (some a.did))

/-! The directory query (R241, R271). -/

/-- LKR_QUERY (R271): a write of LKR_QUERY_ID_HI starts a lookup. -/
def execLkrQuery (port : Port) (value : Word) (s : State) : Host.Outcome State Fault Refusal :=
  if !blockWritable s port R.lkrQueryIdHi then .next s
  else
    let s := (s.setReg R.lkrQueryIdHi value).setFld R.lkrQueryStatus 3 1 1
    .next { s with lkr := { s.lkr with queryBusy := true, queryId := s.reg64 R.lkrQueryIdLo R.lkrQueryIdHi } }

/-- LKR_QUERY_DONE (R271): the entry's state, pins and version as the lookup finds them. -/
def execLkrQueryDone (s : State) : Host.Outcome State Fault Refusal :=
  if s.lkr.queryBusy = false then .next s
  else
    let id := s.lkr.queryId
    let (st, version) := (s.dirEntry id).elim (0, 0) (fun e => (e.st.code + 2 ^ 8 * min e.pins 0xFFFFFF, e.version))
    let s := (s.setReg R.lkrQueryStatus (BitVec.ofNat 32 st)).setReg R.lkrQueryVersion (BitVec.ofNat 32 version)
    .next ({ s with lkr := { s.lkr with queryBusy := false } }.countLookup 0 id)

end Sys2Proof.Machine
end

