-- ==== Sys2Proof/Machine/BoardRows.lean ====
section
/-! DEFINITION. Board management: the SMBus commands and the SPI NOR flash (R644, R645, R647). -/
namespace Sys2Proof.Machine
open Sys2Proof

/-- PWR_STATUS (R620). -/
def pwrStatusWord (s : State) : Nat :=
  s.pwr.state.code + (if s.clock16 = 12 then 4 else 0) + if s.pwr.request.isSome then 8 else 0

/-- SCB_ERR_STATE (R570). -/
def errStateWord (s : State) : Nat := (if s.err.hold then 1 else 0) + if s.err.deviceFault then 2 else 0

/-- The 7-bit address of the SMBus target (R644). -/
def smbusAddress : Nat := 0x4E

/-- What Read Word of a command returns; none is a NACK (R644). -/
def smbusWord (s : State) (command : Nat) : Option Nat :=
  match command with
  | 0x10 => some (s.pwr.mv48 / 10)
  | 0x11 => some (s.pwr.amps / 100)
  | 0x12 => some (s.regFld R.pwrMeas 0 16)
  | 0x20 => some (s.regFld R.pwrTemp 0 8)
  | 0x21 => some (s.regFld R.pwrTemp 8 8)
  | 0x30 => some (s.regAt R.rstBootStatus).toNat
  | 0x31 => some (s.regAt R.rstCause).toNat
  | 0x32 => some (s.pwr.state.code + 2 ^ 8 * errStateWord s + if s.booted then 2 ^ 15 else 0)
  | 0x40 => some (s.regAt R.bmcAlert).toNat
  | _ => none

/-- An SMBus Read Word answered, whenever PWR_EN is high; one that is refused sends nothing (R644). -/
def State.smbus (s : State) (command : Nat) : Host.Outcome State Fault Refusal :=
  match smbusWord s command with
  | some v => if s.pwr.pwrEn then .next (s.emit (.smbus command (v % 65536))) else .next s
  | none => .next s

/-- SMB_ALERT_N is low: an alert is raised whose enable bit is 1 (R644, R647, R648). -/
def smbAlertLow (s : State) : Bool := decide ((s.regAt R.bmcAlert &&& s.regAt R.bmcAlertEn) &&& 0xF ≠ 0)

/-- SMB_V48: V48 in units of 10 mV. -/
def execSmbV48 (s : State) : Host.Outcome State Fault Refusal := s.smbus 0x10
/-- SMB_INPUT_CURRENT: in units of 100 mA. -/
def execSmbInputCurrent (s : State) : Host.Outcome State Fault Refusal := s.smbus 0x11
/-- SMB_POWER: PWR_MEAS.WATTS. -/
def execSmbPower (s : State) : Host.Outcome State Fault Refusal := s.smbus 0x12
/-- SMB_JUNCTION: PWR_TEMP.JUNCTION. -/
def execSmbJunction (s : State) : Host.Outcome State Fault Refusal := s.smbus 0x20
/-- SMB_INLET: PWR_TEMP.INLET. -/
def execSmbInlet (s : State) : Host.Outcome State Fault Refusal := s.smbus 0x21
/-- SMB_BOOT_STATUS: RST_BOOT_STATUS bits [15:0]. -/
def execSmbBootStatus (s : State) : Host.Outcome State Fault Refusal := s.smbus 0x30
/-- SMB_RST_CAUSE: RST_CAUSE bits [15:0]. -/
def execSmbRstCause (s : State) : Host.Outcome State Fault Refusal := s.smbus 0x31
/-- SMB_STATE: PWR_STATUS.STATE, SCB_ERR_STATE and BOOT_DONE. -/
def execSmbState (s : State) : Host.Outcome State Fault Refusal := s.smbus 0x32
/-- SMB_ALERT: BMC_ALERT bits [15:0]. -/
def execSmbAlert (s : State) : Host.Outcome State Fault Refusal := s.smbus 0x40

/-! The flash (R645, R647). -/

/-- The 64-byte buffer of BMC_FLASH_DATA0 to 15. -/
def flashBuffer (s : State) : List Byte := (List.range 16).flatMap (fun i => bytesOf 4 (s.regAt (R.bmcFlashData i)).toNat)

/-- A write of BMC_FLASH_CTL (R646, R647): OP, the clearing of ERR, and GO. Only the control owner's PF writes the block;
a GO while FLASH_SEL is high, while BUSY, or with OP 3 sets ERR and does nothing else. -/
def State.flashCtl (s : State) (port : Port) (op : Nat) (value : Word) : State :=
  if port ≠ s.host.owner ∨ s.booted = false then s
  else
    let s := s.setFld R.bmcFlashCtl 0 2 op
    let s := if wordFld value 3 1 = 1 then s.setFld R.bmcFlashCtl 3 1 0 else s
    if wordFld value 31 1 = 0 then s
    else if s.pwr.flashSel ∨ s.pwr.flashOp.isSome ∨ op = 3 then s.setFld R.bmcFlashCtl 3 1 1
    else
      let addr := s.regFld R.bmcFlashAddr 0 26 / 64 * 64
      let s := s.setFld R.bmcFlashCtl 2 1 1
      { s with pwr := { s.pwr with flashOp := some ⟨op, addr, flashBuffer s⟩ } }

/-- FLASH_READ: GO with OP 0. -/
def execFlashRead (port : Port) (value : Word) (s : State) : Host.Outcome State Fault Refusal := .next (s.flashCtl port 0 value)
/-- FLASH_PROGRAM: GO with OP 1. -/
def execFlashProgram (port : Port) (value : Word) (s : State) : Host.Outcome State Fault Refusal := .next (s.flashCtl port 1 value)
/-- FLASH_ERASE: GO with OP 2. -/
def execFlashErase (port : Port) (value : Word) (s : State) : Host.Outcome State Fault Refusal := .next (s.flashCtl port 2 value)

/-- Sixteen words into the flash buffer. -/
def fillFlashBuffer (s : State) (bs : List Byte) : State :=
  (List.range 16).foldl (fun s i => s.setReg (R.bmcFlashData i) (BitVec.ofNat 32 (ofBytes ((bs.drop (4 * i)).take 4)))) s

/-- FLASH_OP_DONE (R647): the operation completes, BUSY clears, and ERR is set when verify failed; the bytes of a failed
program or erase are free values. An erased byte is 0xFF (assumption 8). -/
def execFlashOpDone (verified : Bool) (s : State) : Host.Outcome State Fault Refusal :=
  match s.pwr.flashOp with
  | none => .next s
  | some o =>
    let ok := verified || decide (o.op = 0)
    let s := if ok then s else (abandonFlash s).setFld R.bmcFlashCtl 3 1 1
    let s := s.setFld R.bmcFlashCtl 2 1 0
    let done := { s with pwr := { s.pwr with flashOp := none } }
    if !ok then .next done
    else match o.op with
      | 0 => .next (fillFlashBuffer done (s.pwr.flash.readBytes o.addr 64))
      | 1 => .next { done with pwr := { done.pwr with flash := done.pwr.flash.writeBytes o.addr o.data } }
      | _ => .next { done with pwr := { done.pwr with
          flash := done.pwr.flash.writeBytes (o.addr / 4096 * 4096) (List.replicate 4096 0xFF) } }

end Sys2Proof.Machine
end

