-- ==== Sys2Proof/Machine/BootRows.lean ====
section
/-! DEFINITION. Bring-up: the boot bundle, the measured boot sequence, and its sources (R521 to R525, R597 to R603). -/
namespace Sys2Proof.Machine
open Sys2Proof

/-! The bundle (R598, R599). -/

/-- Where the bundle comes from: the flash, or the buffer that the host or the pass chain fills. -/
def bundleMem (s : State) : Memory := if s.regFld R.rstStraps 0 2 = 0 then s.pwr.flash else s.pwr.bundle

/-- Bytes the source holds: the flash, RST_BOOT_LEN, or the chunks received. -/
def bundleSize (s : State) : Nat :=
  match s.regFld R.rstStraps 0 2 with
  | 0 => 67108864
  | 3 => s.pwr.bundleLen
  | _ => s.regFld R.rstBootLen 0 27

/-- An entry of the bundle: KIND, reserved bits, OFFSET, LENGTH. -/
def bundleEntry (m : Memory) (i : Nat) : Nat × Nat × Nat × Nat :=
  let w := m.readNat (64 + 16 * i) 4
  (w % 256, w / 256, m.readNat (68 + 16 * i) 4, m.readNat (72 + 16 * i) 8)

/-- The entries of a bundle whose header is well formed (R598). -/
def bundleEntries (m : Memory) : Option (List (Nat × Nat × Nat × Nat)) :=
  let head := m.readNat 4 4
  let n := bitsOf head 8 8
  if m.readNat 0 4 = 0x4E424244 ∧ head % 256 = 1 ∧ bitsOf head 16 16 = 0 ∧ 4 ≤ n ∧ n ≤ 8 ∧ m.readNat 8 56 = 0 then
    some ((List.range n).map (bundleEntry m))
  else none

/-- The bytes that a bundle's items reach to. -/
def bundleReach (es : List (Nat × Nat × Nat × Nat)) : Nat := es.foldl (fun a e => max a (e.2.2.1 + e.2.2.2)) 0

/-- A bundle that R598 accepts: kinds 0 to 3 present, none twice, every item inside and on its boundary. -/
def bundleOk (m : Memory) (size : Nat) : Option (List (Nat × Nat × Nat × Nat)) :=
  match bundleEntries m with
  | none => none
  | some es =>
    let kinds := es.map (·.1)
    let items := es.all (fun e => decide (e.1 ≤ 4) && decide (e.2.1 = 0) && decide (e.2.2.1 % 4096 = 0) &&
      decide (e.2.2.1 + e.2.2.2 ≤ size))
    if items && decide kinds.Nodup && [0, 1, 2, 3].all kinds.contains then some es else none

/-- The place of the item of a kind. -/
def itemOf (es : List (Nat × Nat × Nat × Nat)) (kind : Nat) : Nat × Nat :=
  (es.find? (fun e => e.1 == kind)).elim (0, 0) (fun e => e.2.2)

/-! Firmware images (R522, R194). -/

/-- Where a firmware image's body starts: the multiple of 256 after the signature block (R194, R522). -/
def firmwareBody : Nat := 17408

/-- Boot errors of RST_BOOT_STATUS.ERR (R618). -/
def errSelfTest : Nat := 1
def errFormat : Nat := 2
def errSignature : Nat := 3
def errSvn : Nat := 4
def errTimeout : Nat := 5
def errSource : Nat := 6
def errStrap : Nat := 7
def errTraining : Nat := 8

/-- A firmware image checked by R522: its header's digest and its SVN, or the boot error. -/
def checkFirmware (m : Memory) (off size kind fused : Nat) : Except Nat (Digest × Nat) :=
  let header := m.readBytes off 128
  let w (o n : Nat) : Nat := m.readNat (off + o) n
  let sig (o n : Nat) : List Byte := m.readBytes (off + 128 + o) n
  let bodyLen := w 8 8
  let rootHash := sha384 (sig 0 436)
  if size < 128 ∨ w 0 4 ≠ 0x49574644 ∨ w 4 1 ≠ 1 ∨ w 5 1 ≠ kind ∨ w 64 64 ≠ 0 ∨ bodyLen = 0 ∨ 33554432 < bodyLen ∨
      size < firmwareBody + bodyLen then .error errFormat
  else if !(rsaVerify (sig 0 384) (sig 384 4) header (sig 436 384) &&
      slhVerify (sig 388 48) header (sig 820 16224) &&
      [0, 1].any (fun i => Config.rootKeyHash i == rootHash && !Config.rootRevoked i)) then .error errSignature
  else if w 6 2 < fused ∨ 64 < w 6 2 then .error errSvn
  else if sha384 (m.readBytes (off + firmwareBody) bodyLen) ≠ BitVec.ofNat 384 (ofBytes (m.readBytes (off + 16) 48))
    then .error errSignature
  else .ok (sha384 header, w 6 2)

/-! The steps (R521). -/

/-- A step fails (R601): ERR names it, its alert is raised, and only a reset leaves the failure. -/
def State.bootFails (s : State) (err : Nat) : State :=
  let s := s.setFld R.rstBootStatus 4 4 err
  let s := s.setFld R.bmcAlert 3 1 1
  { s with pwr := { s.pwr with phase := .failed } }

/-- A step is complete: STEP shows it. -/
def State.bootStep (s : State) (n : Nat) : State := s.setFld R.rstBootStatus 0 4 n

/-- The last step completed. -/
def State.lastBootStep (s : State) : Nat := s.regFld R.rstBootStatus 0 4

/-- Step 1: the straps' check, the self-test, the fuses. -/
def bootStep1 (tests : BootTests) (s : State) : Except State State :=
  if s.regFld R.rstStraps 2 2 = 3 then .error (s.bootFails errStrap)
  else if !tests.selfTest then .error (s.bootFails errSelfTest)
  else
    let s := { s with pwr := { s.pwr with bootStart := s.ts } }
    .ok ((s.setFld R.refSvn 16 7 s.pwr.fusedSvn).bootStep 1)

/-- Does the source hold the bundle yet (R599)? The host's GO, or every chunk up to the last item's end. -/
def bundleThere (s : State) : Bool :=
  match s.regFld R.rstStraps 0 2 with
  | 0 => true
  | 3 => decide (4096 ≤ s.pwr.bundleLen) &&
      ((bundleEntries s.pwr.bundle).elim true (fun es => decide (bundleReach es ≤ s.pwr.bundleLen)))
  | _ => s.pwr.goReceived

/-- Step 2: the Referee firmware fetched and verified; MR0 and MR1 (R522, R525). -/
def bootStep2 (s : State) : Except State State :=
  let m := bundleMem s
  if s.regFld R.rstStraps 0 2 = 0 ∧ s.pwr.flashSel then .error (s.bootFails errSource)
  else match bundleOk m (bundleSize s) with
    | none => .error (s.bootFails errFormat)
    | some es =>
      let (off, size) := itemOf es 0
      match checkFirmware m off size 0 s.pwr.fusedSvn with
      | .error e => .error (s.bootFails e)
      | .ok (digest, svn) =>
        .ok ((((s.extendMr 0 Config.romDigest).extendMr 1 digest).setFld R.refSvn 0 16 svn).bootStep 2)

/-- Step 3: the alias key derives from the CDI and gets its certificate; the fuse read port closes. While debug level 2 is in
force there is no alias key (R527). -/
def bootStep3 (s : State) : Except State State :=
  let there := decide (s.ref.debugLevel ≠ 2)
  let ref := { s.ref with aliasKey := there, aliasCert := if there then s.newAliasCert else [], fusePort := false }
  .ok ({ s.freed with ref := ref }.bootStep 3)

/-- A unit's bit cleared in an online mask for each failed unit. -/
def clearUnits (s : State) (key : Nat → Nat) (units : List Nat) : State :=
  units.foldl (fun s u => s.setFld (key (u / 32)) (u % 32) 1 0) s

/-- The retests of a boot (R600, R555): courts, engines, Lockers and ports at every reset; channels and SRAM regions only
at a cold one. -/
def bootRetest (tests : BootTests) (s : State) : State :=
  let s := clearUnits s R.crtCourtOnline (tests.badCourts.filter (fun u => decide (u < 128)))
  let s := s.setCap
  let s := { s with ump := { s.ump with stretch := s.courtsLeast, stretchNext := s.courtsLeast } }
  let s := clearUnits s (fun _ => R.lkrOnline) (tests.badLockers.filter (fun u => decide (u < 16)))
  if s.pwr.warmBoot then s
  else
    let s := clearUnits s R.memChOnline (tests.badChannels.filter (fun u => decide (u < 128)))
    let up := ((List.range 128).filter (fun u => bitAt (s.regAt (R.memChOnline (u / 32))).toNat (u % 32))).length
    let s := s.setFld R.memStatus 0 8 up
    clearUnits s R.memSramOnline (tests.badRegions.filter (fun u => decide (u < 512)))

/-- Step 4: hub and engine firmware started, MR2 and MR3; LPDDR5X trained at a cold reset, the array retested. -/
def bootStep4 (tests : BootTests) (s : State) : Except State State :=
  let m := bundleMem s
  match bundleOk m (bundleSize s) with
  | none => .error (s.bootFails errFormat)
  | some es =>
    match checkFirmware m (itemOf es 1).1 (itemOf es 1).2 1 s.pwr.fusedSvn,
          checkFirmware m (itemOf es 2).1 (itemOf es 2).2 2 s.pwr.fusedSvn with
    | .error e, _ => .error (s.bootFails e)
    | _, .error e => .error (s.bootFails e)
    | .ok (hub, _), .ok (engine, _) =>
      if !s.pwr.warmBoot && !tests.training then .error (s.bootFails errTraining)
      else .ok ((bootRetest tests ((s.extendMr 2 hub).extendMr 3 engine)).bootStep 4)

/-- The fuse state that MR5 measures (R525). -/
def fuseState (s : State) : List Byte :=
  bytesOf 1 s.pwr.fusedSvn ++ bytesOf 1 ((if Config.rootRevoked 0 then 1 else 0) + if Config.rootRevoked 1 then 2 else 0) ++
    bytesOf 48 Config.debugKeyHash.toNat

/-- Step 5: the boot configuration read and measured; the fused SVN raised on request; the control owner and the owner
keys named (R523, R471). -/
def bootStep5 (s : State) : Except State State :=
  let m := bundleMem s
  match bundleOk m (bundleSize s) with
  | none => .error (s.bootFails errFormat)
  | some es =>
    let (off, size) := itemOf es 3
    let w (o n : Nat) : Nat := m.readNat (off + o) n
    let flags := w 4 4
    let n := bitsOf flags 8 8
    if size < 64 + 48 * n ∨ w 0 4 ≠ 0x47464342 ∨ bitsOf flags 2 6 ≠ 0 ∨ bitsOf flags 16 16 ≠ 0 ∨ 16 < n ∨ w 8 56 ≠ 0 then
      .error (s.bootFails errFormat)
    else
      let svn := m.readNat ((itemOf es 0).1 + 6) 2
      let s := s.extendMrBytes 4 (m.readBytes off (64 + 48 * n))
      let owners : List Digest := (List.range n).map (fun i => BitVec.ofNat 384 (w (64 + 48 * i) 48))
      let s := { s with
        pwr := { s.pwr with
          owners := owners
          fusedSvn := if bitAt flags 1 then max s.pwr.fusedSvn svn else s.pwr.fusedSvn }
        host := { s.host with owner := Port.ofNum (bitsOf flags 0 1) } }
      let s := s.setFld R.refSvn 16 7 s.pwr.fusedSvn
      .ok ((s.extendMrBytes 5 (fuseState s)).bootStep 5)

/-- Keys and sessions lost, and a new device memory key (R503, R524). -/
def freshKeys (s : State) : State :=
  { s with
    mem := { s.mem with keySlots := [], deviceKey := s.mem.nextKey, nextKey := s.mem.nextKey + 1 }
    ref := { s.ref with slots := [], sessions := [] } }

/-- Step 6: memory keys (R503); a warm reset keeps the key store only under the same Referee firmware (R524). -/
def bootStep6 (s : State) : Except State State :=
  let digest := sha384 ((bundleMem s).readBytes
    ((bundleOk (bundleMem s) (bundleSize s)).elim 0 (fun es => (itemOf es 0).1)) 128)
  let keep := s.pwr.warmBoot && decide (s.ref.fwDigest = digest)
  let s := if keep then s else freshKeys s
  let s := s.setFld R.refStatus 1 1 (if keep then 1 else 0)
  .ok ({ s with ref := { s.ref with fwDigest := digest } }.bootStep 6)

/-- MR6 extended for a bank that is READY or ACTIVE. -/
def measureBank (s : State) (b : Nat) : State :=
  let r := if b = 0 then s.wst.bank0 else s.wst.bank1
  if r.st = .ready ∨ r.st = .active then s.extendMrBytes 6 (bankMeasure b r) else s

/-- Step 7: MR6 for each bank that is READY or ACTIVE. -/
def bootStep7 (s : State) : Except State State := .ok ((measureBank (measureBank s 0) 1).bootStep 7)

/-- Step 8: the configuration lock and BOOT_DONE; the slot loop starts at the next multiple of 10 µs, and ports set in
MGL_PORT_CFG.EN begin R374. A pass-chain boot takes its link down first (R394). -/
def bootStep8 (s : State) : Except State State :=
  let s := ((s.setFld R.clkStatus 6 1 1).setFld R.refStatus 0 1 1).setFld R.refStatus 2 1 1
  let s := s.bootStep 8
  let s := { s with
    pwr := { s.pwr with phase := .running, lastStep := s.ts }
    scb := { s.scb with since := s.ts }
    ump := { s.ump with staticTs := s.ts }
    host := { s.host with heartbeatTs := s.ts } }
  let s := if (s.link 0).boot then s.setLink 0 .down else s
  let s := (s.waitSlot (toQuantum s.ts)).applyLinks
  match (List.range 16).find? (fun d => s.courtCount d == 0) with
  | some d => .ok (s.failDevice 14 d 3)
  | none => .ok (if s.regAt R.lkrOnline = 0 then s.failDevice 10 15 3 else s)

/-- Requests the pass chain's next chunk (R599). -/
def requestChunk (s : State) : State :=
  if (s.link 0).phase = .up then s.sendBoot 0 0x21 (s.pwr.bundleLen / 4096) [] else s

/-- The steps from the one after `STEP` on, as far as the source allows. -/
def bootRun (tests : BootTests) : Nat → State → State
  | 0, s => s
  | fuel + 1, s =>
    let next : Except State State :=
      match s.lastBootStep with
      | 0 => bootStep1 tests s
      | 1 => if bundleThere s then bootStep2 s else .error s
      | 2 => bootStep3 s
      | 3 => bootStep4 tests s
      | 4 => bootStep5 s
      | 5 => bootStep6 s
      | 6 => bootStep7 s
      | 7 => bootStep8 s
      | _ => .error s
    match next with
    | .ok s => bootRun tests fuel s
    | .error s => s

/-- BOOT_SEQUENCE (R521, R600): the boot runs on from the last step completed. It stops at step 2 while the host has not
given GO, or while chunks of the pass chain are missing, the next of which it asks for. -/
def execBootSequence (tests : BootTests) (s : State) : Host.Outcome State Fault Refusal :=
  if s.pwr.phase ≠ .booting then .next s
  else
    let s := bootRun tests 8 s
    .next (if s.pwr.phase = .booting ∧ s.regFld R.rstStraps 0 2 = 3 ∧ s.lastBootStep = 1 then requestChunk s else s)

/-- Does the boot wait for a host's bundle (R599)? -/
def waitsForHost (s : State) : Bool :=
  decide (s.pwr.phase = .booting) && decide (s.lastBootStep ≤ 1) && !s.pwr.goReceived &&
    (decide (s.regFld R.rstStraps 0 2 = 1) || decide (s.regFld R.rstStraps 0 2 = 2))

/-- BOOT_GO (R599, R622): the host's bundle is in the boot buffer; with a length of zero the boot stops. -/
def execBootGo (_port : Port) (value : Word) (s : State) : Host.Outcome State Fault Refusal :=
  if wordFld value 0 1 = 0 ∨ !waitsForHost s then .next s
  else if s.regFld R.rstBootLen 0 27 = 0 then .next (s.bootFails errFormat)
  else .next { s with pwr := { s.pwr with goReceived := true } }

/-- BOOT_HOST_TIMEOUT (R599): no GO within 60 s. -/
def execBootHostTimeout (s : State) : Host.Outcome State Fault Refusal :=
  if !waitsForHost s then .next s
  else .next ({ s with ts := max s.ts (s.pwr.bootStart + 60000000000) }.bootFails errTimeout)

/-! The pass chain (R599, R394). -/

/-- A boot chunk or its refusal that has arrived on port 0. -/
def isBootAnswer (ty : Nat) (k : InboxPacket) : Bool := k.port == 0 && k.packet.ty == ty && k.packet.ch == 127

/-- Is this device booting by pass chain, its step 1 complete? -/
def chainBooting (s : State) : Bool :=
  decide (s.pwr.phase = .booting) && decide (s.regFld R.rstStraps 0 2 = 3) && decide (s.lastBootStep ≤ 1)

/-- The answer to a relayed chunk passed on to the ports that wait for it (R599). -/
def relayAnswer (s : State) (ty seq : Nat) (data : List Byte) : State :=
  let mine := s.mgl.bootRelay.filter (fun r => r.2 == seq)
  let s := { s with mgl := { s.mgl with bootRelay := s.mgl.bootRelay.filter (fun r => r.2 != seq) } }
  mine.foldl (fun s r => if (s.link r.1).boot then s.sendBoot r.1 ty seq data else s) s

/-- Does a running device wait for an answer that it relays? -/
def relays (s : State) (k : InboxPacket) : Bool := s.booted && s.mgl.bootRelay.any (fun r => r.2 == k.packet.seq)

/-- BOOT_CHUNK_RECEIVE (R599): the chunk asked for lands in the boot buffer and the next is asked for; a device that
relays hands the chunk on. -/
def execBootChunkReceive (s : State) : Host.Outcome State Fault Refusal :=
  match s.inbox? (fun k => isBootAnswer 0x20 k && (chainBooting s || relays s k)) with
  | none => .next s
  | some k =>
    let s := { s with mgl := { s.mgl with inbox := s.mgl.inbox.erase k } }
    if s.booted then .next (relayAnswer s 0x20 k.packet.seq k.packet.data)
    else if k.packet.seq * 4096 ≠ s.pwr.bundleLen ∨ k.packet.len ≠ 4096 then .next s
    else
      let s := { s with pwr := { s.pwr with
        bundle := s.pwr.bundle.writeBytes s.pwr.bundleLen k.packet.data, bundleLen := s.pwr.bundleLen + 4096 } }
      .next (if bundleThere s then s else requestChunk s)

/-- BOOT_LOAD_GONE (R599): the peer has no bundle to give; the boot stops, and a device that relays passes the refusal
on. -/
def execBootLoadGone (s : State) : Host.Outcome State Fault Refusal :=
  match s.inbox? (fun k => isBootAnswer 0x22 k && (chainBooting s || relays s k)) with
  | none => .next s
  | some k =>
    let s := { s with mgl := { s.mgl with inbox := s.mgl.inbox.erase k } }
    if s.booted then .next (relayAnswer s 0x22 k.packet.seq []) else .next (s.bootFails errSource)

/-- A request for a chunk that has arrived on a port in boot service. -/
def isBootRequest (s : State) (k : InboxPacket) : Bool :=
  decide (k.port < 16) && (s.link k.port).boot && k.packet.ty == 0x21 && k.packet.ch == 127

/-- BOOT_LOAD_RESEND (R394, R599): the chunk from this device's SPI NOR, or relayed from its own port 0, or LOAD_GONE
when it booted from a host. -/
def execBootLoadResend (s : State) : Host.Outcome State Fault Refusal :=
  if s.booted = false then .next s
  else match s.inbox? (isBootRequest s) with
  | none => .next s
  | some k =>
    let s := { s with mgl := { s.mgl with inbox := s.mgl.inbox.erase k } }
    let chunk := k.packet.seq
    match s.regFld R.rstStraps 0 2 with
    | 0 =>
      if s.pwr.flashSel ∨ 16384 ≤ chunk then .next (s.sendBoot k.port 0x22 chunk [])
      else .next (s.sendBoot k.port 0x20 chunk (s.pwr.flash.readBytes (4096 * chunk) 4096))
    | 3 =>
      let s := { s with mgl := { s.mgl with bootRelay := s.mgl.bootRelay ++ [(k.port, chunk)] } }
      .next (s.sendBoot 0 0x21 chunk [])
    | _ => .next (s.sendBoot k.port 0x22 chunk [])

/-- FLASH_SEL_CHANGE (R645): a change while HD0 reads the bundle stops the boot. -/
def execFlashSelChange (level : Bool) (s : State) : Host.Outcome State Fault Refusal :=
  let changed := s.pwr.flashSel != level
  let reading := decide (s.pwr.phase = .booting) && decide (s.regFld R.rstStraps 0 2 = 0)
  let s := { s with pwr := { s.pwr with flashSel := level } }
  .next (if changed && reading then s.bootFails errSource else s)

end Sys2Proof.Machine
end

