-- ==== Sys2Proof/Machine/EngineOps.lean ====
section
/-! DEFINITION. What the sequencers of courts, vector engines, gather engines and channels share (R109, R110, R131, R264,
R409): their programs, WAIT, SIGNAL and END, the exponents of outer scales (R65 to R69), and what conversions leave with
the work (R64, R72). -/
namespace Sys2Proof.Machine
open Sys2Proof

/-! Programs and where they stand. -/

/-- An engine that runs a program of command words. -/
inductive Engine where
  | court (n : Nat)
  | vec (n : Nat)
  | gather (n : Nat)
  | channel (n : Nat)
  deriving DecidableEq, Repr

/-- The programs of the work on the array: its class's, or those of the practice step's segment. -/
def programsOf (s : State) (w : Work) : Option ProgramSet :=
  if w.practice then
    (s.ump.steps.find? (fun p => p.did == w.did)).bind (fun p =>
      (programAt s p).bind (fun g => (g.segments[p.segment]?).map (·.programs)))
  else (classRun s w).map (·.programs)

/-- The parts of logical tensors that the outputs of the work on the array are (R61). -/
def partsOf (s : State) (w : Work) : List TensorPart := (programsOf s w).elim [] (·.parts)

/-- The program of an engine in a set; empty where the set has none. -/
def progAt (ps : List (Nat × List Desc)) (n : Nat) : List Desc := (ps.find? (fun p => p.1 == n)).elim [] (·.2)

/-- The group declaration of the work on the array. -/
def workGroup (s : State) (w : Work) : Option GroupDecl := groupOf s w.imgSlot w.practice w.cls

/-- The program that an engine runs for the work on the array. -/
def programFor (s : State) (w : Work) (e : Engine) : List Desc :=
  match e with
  | .court n => (programsOf s w).elim [] (fun p => progAt p.tile n)
  | .vec n => (programsOf s w).elim [] (fun p => progAt p.vec n)
  | .gather n => (programsOf s w).elim [] (fun p => progAt p.gather n)
  | .channel n => (workGroup s w).elim [] (fun g => (g.channels.find? (fun c => c.ch == n)).elim [] (·.commands))

/-- Where an engine's program stands. -/
def State.engine (s : State) (e : Engine) : EngineRun :=
  match e with
  | .court n => Tbl.getD s.eng.courts n .start
  | .vec n => Tbl.getD s.eng.vecs n .start
  | .gather n => Tbl.getD s.eng.gathers n .start
  | .channel n => Tbl.getD s.eng.channels n .start

/-- The state with an engine's place set. -/
def State.setEngine (s : State) (e : Engine) (r : EngineRun) : State :=
  match e with
  | .court n => { s with eng := { s.eng with courts := Tbl.set s.eng.courts n r } }
  | .vec n => { s with eng := { s.eng with vecs := Tbl.set s.eng.vecs n r } }
  | .gather n => { s with eng := { s.eng with gathers := Tbl.set s.eng.gathers n r } }
  | .channel n => { s with eng := { s.eng with channels := Tbl.set s.eng.channels n r } }

/-- The command an engine executes next: none while a WAIT holds it, after its END, or with no work on the array. -/
def State.nextCommand (s : State) (e : Engine) : Option Desc :=
  match s.ump.work with
  | none => none
  | some w =>
    let r := s.engine e
    if r.wait.isSome || r.ended then none else (programFor s w e)[r.pos]?

/-- The work that a command is executed for: none unless it has the opcode and is the engine's next command. -/
def State.issued (s : State) (e : Engine) (op : Nat) (cmd : Desc) : Option Work :=
  if fld cmd 0 0 8 = op ∧ s.nextCommand e = some cmd then s.ump.work else none

/-- The engine moves on to its next command. -/
def State.advance (s : State) (e : Engine) : State :=
  let r := s.engine e
  s.setEngine e { r with pos := r.pos + 1 }

/-! Addresses (R623). -/

/-- Does an address lie in a region of the device address space? -/
def mapped (a : Nat) : Bool :=
  inLpddr a || inSram a || inCourt a || inWst a || (decide (0x3F00_0000_0000 ≤ a) && decide (a < 0x3F00_1000_0000))

/-- A command run with addresses that all exist; R624 lets no image with another address load. -/
def guarded (addrs : List Nat) (s : State) : Host.Outcome State Fault Refusal :=
  match addrs.find? (fun a => !mapped a) with
  | some a => .fault (.unmappedAddress a)
  | none => .next s

/-! Fenced courts (R558 to R560). -/

/-- Is a court online (R124)? -/
def State.courtOnline (s : State) (g : Nat) : Bool := bitAt (s.regAt (R.crtCourtOnline (g / 32))).toNat (g % 32)

/-- The online courts of a compute die, in order. -/
def State.courtsOf (s : State) (die : Nat) : List Nat := ((List.range 8).map (· + 8 * die)).filter s.courtOnline

/-- The court that runs number `t` of a court's work: itself, or in turn the online courts of its die. -/
def State.courtFor (s : State) (court t : Nat) : Nat :=
  if s.courtOnline court then court
  else
    let on := s.courtsOf (court / 8)
    on.getD (t % on.length) court

/-- Where a device address is served: a fenced court's buffer from the spill area of its SD die (R560). -/
def State.place (s : State) (a : Nat) : Nat :=
  let court := (a - courtBase) / 0x40_0000
  if inCourt a && !s.courtOnline court then
    sdAddr (court / 8) (s.spillArea.1 + court % 8 * 0x40_0000 + (a - courtBase) % 0x40_0000)
  else a

/-- A byte on chip as an engine reads it. -/
def State.engineByte (s : State) (a : Nat) : Byte := s.chipByte (s.place a)

/-! WAIT, SIGNAL and END (R110). -/

/-- WAIT: the engine moves on when the semaphore has reached the value, and is held otherwise. -/
def State.waitCommand (s : State) (e : Engine) (cmd : Desc) : State :=
  match s.issued e 0x10 cmd with
  | none => s
  | some _ =>
    let sem := fld cmd 4 0 16
    let v := fld cmd 8 0 32
    if v ≤ s.sem sem then s.advance e else s.setEngine e { s.engine e with wait := some (sem, v) }

/-- SIGNAL: the value is added once every earlier command's writes are done (`drained`); until then the engine stands. -/
def State.signalCommand (s : State) (e : Engine) (cmd : Desc) (drained : Bool) : State :=
  match s.issued e 0x11 cmd with
  | none => s
  | some _ => if drained then (s.addSem (fld cmd 4 0 16) (fld cmd 8 0 32)).advance e else s

/-- END closes the program. -/
def State.endCommand (s : State) (e : Engine) (cmd : Desc) : State :=
  match s.issued e 0x1F cmd with
  | none => s
  | some _ => s.setEngine e { (s.advance e).engine e with ended := true }

/-- The state with an engine released from a WAIT on a semaphore that has reached its value. -/
def releaseWait (v : Nat) (sem : Nat) (r : EngineRun) : EngineRun :=
  match r.wait with
  | some (i, n) => if i = sem ∧ n ≤ v then { r with wait := none, pos := r.pos + 1 } else r
  | none => r

/-! Outer scales (R65 to R69, R415). -/

/-- The exponent with which the work writes a tensor: the slot's EXP or INIT_EXP, or the agreed scale. -/
def State.outExp (s : State) (w : Work) (i : Nat) : Int :=
  let e := tensorAt s w.imgSlot i
  let g := workGroup s w
  if !e.oscEn then 0
  else
    match g with
    | some d => if (agreedSlots d).contains e.oscSlot then s.agreedExp w.ctx w.did e.oscSlot e.initExp
        else if (s.oscSlot w.ctx e.oscSlot).count = 0 then e.initExp else (s.oscSlot w.ctx e.oscSlot).exp
    | none => if (s.oscSlot w.ctx e.oscSlot).count = 0 then e.initExp else (s.oscSlot w.ctx e.oscSlot).exp

/-- The exponent with which a segment or serve of a context that has ended in this slot wrote the tensor of an outer-scale
slot, the latest one's: its append waits for the slot end, while a segment after it reads what it wrote (R31, R66). -/
def State.slotWrote (s : State) (ctx slot : Nat) : Option Int :=
  let wrote (w : Work) : Option Int :=
    if w.ctx = ctx ∧ (w.kind = .serve ∨ w.kind = .segment) then
      (w.uses.find? (fun p => let e := tensorAt s w.imgSlot p.1; e.oscEn && e.oscSlot == slot && p.2.elements != 0)).map (·.2.exp)
    else none
  (s.ump.done.filterMap wrote).getLast?

/-- The exponent with which a tensor was written (R66); 0xFFFF names no tensor. -/
def State.inExp (s : State) (w : Work) (i : Nat) : Int :=
  let e := tensorAt s w.imgSlot i
  if i = 0xFFFF ∨ e.oscEn = false then 0
  else if (Tbl.get? ((s.ump.work.getD w).uses) i).isSome then s.outExp w i
  else
    match s.slotWrote w.ctx e.oscSlot with
    | some x => x
    | none => if (s.oscSlot w.ctx e.oscSlot).count = 0 then e.initExp else (s.oscSlot w.ctx e.oscSlot).wexp

/-! What conversions and commands leave. -/

/-- Conversions of `n` elements to a tensor, kept with the work (R64, R72); NaNs they count enter the step's count. -/
def State.addUse (s : State) (w : Work) (i n : Nat) (st : ConvStats) : State :=
  let x := s.outExp w i
  if n = 0 then s else s.modWork (fun w =>
    let u := Tbl.getD w.uses i ⟨0, 0, zero32, x⟩
    { w with
      uses := Tbl.set w.uses i ⟨u.clamped + st.clamped, u.elements + n, max32 u.amax st.amax, x⟩
      nans := w.nans + st.nans })

/-- A tensor that another member's conversion has written here (R66, R413). -/
def State.markWritten (s : State) (w : Work) (i : Nat) : State :=
  let x := s.outExp w i
  s.modWork (fun w => if (Tbl.get? w.uses i).isSome then w else { w with uses := Tbl.set w.uses i ⟨0, 0, zero32, x⟩ })

/-- NaNs added to the step's count. -/
def State.addNans (s : State) (n : Nat) : State := s.modWork (fun w => { w with nans := w.nans + n })

/-- Bytes an engine writes on chip; a fenced region takes none (R502). -/
def State.putCells (s : State) (cs : List (Nat × Byte)) : State :=
  let keep := (cs.map (fun c => (s.place c.1, c.2))).filter (fun c => !inWst c.1 && (!inSram c.1 || s.sramOnline c.1))
  { s with mem := { s.mem with cells := s.mem.cells.writeCells keep } }

/-- The writes of cells charged and counted, in words of 64 bytes. -/
def State.cellTraffic (s : State) (die unit : Nat) (cs : List (Nat × Byte)) : State :=
  let words := ((cs.map (fun c => c.1 / 64)).dedup).map (fun l => (64 * l, (cs.filter (fun c => c.1 / 64 == l)).length))
  words.foldl (fun s p => s.traffic true die unit (s.place p.1) p.2) s

/-- Reads charged and counted. -/
def State.readTraffic (s : State) (die unit : Nat) (runs : List (Nat × Nat)) : State :=
  runs.foldl (fun s p => s.traffic false die unit (s.place p.1) p.2) s

end Sys2Proof.Machine
end

