-- ==== Sys2Proof/Machine/ChannelOps.lean ====
section
/-! DEFINITION. Channel commands as shared operations (chapter 12): their fields, packets and digests, and the tree over
ranks that ALLREDUCE, REDUCE, BCAST and ALLGATHER use (R409 to R417, R425 to R427, R433). -/
namespace Sys2Proof.Machine
open Sys2Proof

/-! Commands (R409). -/

/-- A channel command's fields. -/
structure ChanCmd where
  opcode : Nat
  redOp : Nat
  wire : Nat
  fmtCode : Nat
  count : Nat
  dueNs : Nat
  outTensor : Nat
  inTensor : Nat
  src : Nat
  oscSlot : Nat
  dst : Nat
  recv : Nat
  sel : Nat
  rowElems : Nat
  k : Nat
  perRank : Nat
  cap : Nat
  stride : Nat
  reservedBits : Nat
  deriving DecidableEq, Repr

/-- Reading a channel command's 64 bytes. -/
def ChanCmd.ofBits (c : Desc) : ChanCmd where
  opcode := fld c 0 0 8
  redOp := fld c 1 0 2
  wire := fld c 1 2 2
  fmtCode := fld c 2 0 8
  count := fld c 4 0 32
  dueNs := fld c 8 0 32
  outTensor := fld c 12 0 16
  inTensor := fld c 14 0 16
  src := fld c 16 0 48
  oscSlot := fld c 16 48 16
  dst := fld c 24 0 48
  recv := fld c 32 0 48
  sel := fld c 40 0 48
  rowElems := fld c 48 0 16
  k := fld c 48 16 8
  perRank := fld c 52 0 16
  cap := fld c 52 16 16
  stride := fld c 56 0 32
  reservedBits := fld c 1 4 4 + fld c 3 0 8 + fld c 24 48 16 + fld c 32 48 16 + fld c 40 48 16 + fld c 48 24 8 + fld c 60 0 32

def ChanCmd.fmt (c : ChanCmd) : Fmt := (Fmt.ofCode c.fmtCode).getD .fp32

/-- The commands of a channel's program that send, in order: the n-th is the channel's n-th reduction (R410). -/
def sendingCommands (s : State) (w : Work) (ch : Nat) : List Desc :=
  (programFor s w (.channel ch)).filter (fun c => decide (1 ≤ fld c 0 0 8) && decide (fld c 0 0 8 ≤ 6))

/-- The channel's subgroup for the work: its axis mask (R407). -/
def chanMask (s : State) (w : Work) (ch : Nat) : Nat :=
  (workGroup s w).elim 0 (fun g => (g.channels.find? (fun c => c.ch == ch)).elim 0 (·.axes))

/-- The size of the channel's subgroup, and this member's leaf in it (R401). -/
def chanSize (s : State) (w : Work) (ch : Nat) : Nat := subSize s (chanMask s w ch)
def chanLeaf (s : State) (w : Work) (ch : Nat) : Nat := leafOf s (chanMask s w ch) s.rank

/-- The vector engine bound to a channel while every court is online (R151). -/
def chanEngine (ch : Nat) : Nat := if ch < 64 then 4 * ch else 64 * (ch - 64) + 2

/-- The court whose engine runs a channel's additions: its own, or the next online court in increasing number modulo 128
(R151). -/
def chanCourt (s : State) (ch : Nat) : Nat :=
  let base := chanEngine ch / 2
  (((List.range 128).map (fun i => (base + i) % 128)).find? s.courtOnline).getD base

/-- The compute die and the court of the die that a channel's traffic is counted at. -/
def chanDie (s : State) (ch : Nat) : Nat := chanCourt s ch / 8
def chanUnit (s : State) (ch : Nat) : Nat := chanCourt s ch % 8

/-- Bytes a channel writes, charged and counted. -/
def State.chanPut (s : State) (ch : Nat) (cs : List (Nat × Byte)) : State :=
  (s.putCells cs).cellTraffic (chanDie s ch) (chanUnit s ch) cs

/-- Bytes a channel reads, charged and counted. -/
def State.chanReads (s : State) (ch : Nat) (runs : List (Nat × Nat)) : State :=
  s.readTraffic (chanDie s ch) (chanUnit s ch) runs

/-! Runs. -/

/-- A run that has not begun. -/
def ChanRun.start (ch n : Nat) (cmd : Desc) : ChanRun :=
  { channel := ch, n := n, cmd := cmd, issued := false, up := [], sent := [], got := [], counts := [], routed := false,
    rows := [], complete := false }

/-- The run of a channel's n-th reduction. -/
def State.run? (s : State) (ch n : Nat) : Option ChanRun := s.rdc.chans.find? (fun r => r.channel == ch && r.n == n)

/-- The state with a change of a run. -/
def State.modRun (s : State) (ch n : Nat) (f : ChanRun → ChanRun) : State :=
  { s with rdc := { s.rdc with chans := s.rdc.chans.map (fun r => if r.channel = ch ∧ r.n = n then f r else r) } }

/-- The state with a run for a channel's n-th reduction, begun where there is none. -/
def State.openRun (s : State) (ch n : Nat) (cmd : Desc) : State :=
  if (s.run? ch n).isSome then s
  else { s with rdc := { s.rdc with chans := s.rdc.chans ++ [.start ch n cmd] } }

/-! Packets and digests (R426, R427, R433). -/

/-- Elements of a chunk by wire code: FP32, BF16, SCALED (R427). -/
def chunkElems (wire : Nat) : Nat := if wire = 0 then 1016 else if wire = 1 then 2032 else 3840

/-- The wire code whose chunks carry data of a format: by the size of its elements. -/
def fmtWire (f : Fmt) : Nat := if f.elemBits = 32 then 0 else if f.elemBits = 16 then 1 else 2

/-- The mark of a packet (R433). -/
def packetMark (s : State) (k : Packet) : Nat :=
  let key := (List.range 8).foldl (fun a i => a + (s.regAt (R.rdcDigKey i)).toNat * 2 ^ (32 * i)) 0
  let head := { k with hops := 0, tsLo := 0 }
  ofBytes ((hmacSha256 (bytesOf 32 key) (head.bytes.take 16 ++ k.data.take k.len)).take 16)

/-- A packet's mark added to a channel's digest. -/
def State.mark (s : State) (sending : Bool) (k : Packet) : State :=
  let d := Tbl.getD s.rdc.digests k.ch ⟨0, 0⟩
  let m := packetMark s k
  let d := if sending then { d with sent := (d.sent + m) % 2 ^ 128 } else { d with recv := (d.recv + m) % 2 ^ 128 }
  { s with rdc := { s.rdc with digests := Tbl.set s.rdc.digests k.ch d } }

/-- The subheader of R426. -/
structure SubHead where
  gstep : Nat
  kind : Nat
  level : Nat := 0
  wire : Nat := 0
  attempt : Nat := 0
  work : Nat := 0
  leaf : Nat := 0
  wkind : Nat := 0
  offset : Nat := 0
  token : Nat := 0
  k : Nat := 0
  scale : Nat := 0
  deriving DecidableEq, Repr

/-- The subheader's 32 bytes. -/
def SubHead.bytes (h : SubHead) : List Byte :=
  bytesOf 32 (layout 256 [(0, 0, 64, h.gstep), (8, 0, 8, h.kind), (8, 8, 4, h.level), (8, 12, 2, h.wire), (8, 14, 2, h.attempt),
    (8, 16, 16, h.work), (12, 0, 12, h.leaf), (12, 12, 1, h.wkind), (16, 0, 32, h.offset), (20, 0, 32, h.token),
    (24, 0, 8, h.k), (24, 8, 8, h.scale)]).toNat

/-- The subheader of a payload. -/
def subHeadOf (bs : List Byte) : SubHead :=
  let h : BitVec 256 := BitVec.ofNat 256 (ofBytes (bs.take 32))
  { gstep := fld h 0 0 64, kind := fld h 8 0 8, level := fld h 8 8 4, wire := fld h 8 12 2, attempt := fld h 8 14 2,
    work := fld h 8 16 16, leaf := fld h 12 0 12, wkind := fld h 12 12 1, offset := fld h 16 0 32, token := fld h 20 0 32,
    k := fld h 24 0 8, scale := fld h 24 8 8 }

/-- The VC of a channel (R380). -/
def chanVc (ch : Nat) : Nat := if ch < 64 then 5 + ch % 8 else 1 + (ch - 64)

/-- A packet of a channel sent to a rank, and marked (R378, R433). -/
def State.sendMarked (s : State) (ty ch dst seq : Nat) (payload : List Byte) : State :=
  let k : Packet := { dst := dst, src := s.rank, vc := chanVc ch, hops := 0, ch := ch, ty := ty, len := payload.length,
                      tsLo := 0, seq := seq, reserved := 0, data := payload }
  (s.mark true k).send (chanVc ch) ty ch dst seq payload

/-- What every packet of a piece of work carries. -/
def State.workHead (s : State) (w : Work) (ch kind : Nat) : SubHead :=
  { gstep := s.rdc.gstep, kind := kind, attempt := (s.attemptOf w.did).attempt, work := w.cls,
    wkind := if w.practice then 1 else 0, leaf := chanLeaf s w ch }

/-- A packet of a channel command sent to a leaf of the subgroup. -/
def State.sendChan (s : State) (w : Work) (ch n ty leaf : Nat) (h : SubHead) (data : List Byte) : State :=
  s.sendMarked ty ch (rankAt s (chanMask s w ch) leaf) n (h.bytes ++ data)

/-! Votes of this member (R416, R417, R419). -/

/-- The index of an agreed-scale slot among the step's entries. -/
def slotIndex (g : GroupStep) (slot : Nat) : Nat := (g.slots.findIdx? (· == slot)).getD 0

/-- A list with an element changed, padded to reach it. -/
def setAt {α : Type} (d : α) (i : Nat) (f : α → α) (xs : List α) : List α :=
  ((List.range (max xs.length (i + 1))).map (fun j => if j = i then f (xs.getD j d) else xs.getD j d))

/-- The amax that wire conversions of a slot met (R417). -/
def State.noteAmax (s : State) (slot : Nat) (x : F32) : State :=
  s.modStep (fun g => { g with vote := { g.vote with amax := setAt zero32 (slotIndex g slot) (amaxMerge x) g.vote.amax } })

/-- An overflow (R416): counted, OVER and the requirement in the vote, and the group work stops (R419). -/
def State.overflowed (s : State) (slot d : Nat) : State :=
  let s := (s.bump R.rdcOver).modStep (fun g => { g with
    vote := { g.vote with overflow := true, d := setAt 0 (slotIndex g slot) (max d) g.vote.d } })
  s.stopGroupWork

/-- FAIL in this member's vote: the group work stops (R419). -/
def State.failVote (s : State) : State := (s.modStep (fun g => { g with vote := { g.vote with fail := true } })).stopGroupWork

/-! The tree (R411 to R416). -/

/-- The wire code a command sends with: FP32 once its work has been raised twice (R415). -/
def wireOf (s : State) (w : Work) (c : ChanCmd) : Nat :=
  if c.wire = 2 ∧ (s.attemptOf w.did).raises = 2 then 0 else c.wire

/-- Bytes of a level's receive area (R412). -/
def recvArea (c : ChanCmd) : Nat := ceilDiv (4 * c.count) 256 * 256

/-- Element `e` of this member's input: expanded, or a 32-bit word for USUM. -/
def leafInput (s : State) (w : Work) (c : ChanCmd) (e : Nat) : F32 :=
  if c.redOp = 2 then BitVec.ofNat 32 (readNat s.engineByte (c.src + 4 * e) 4)
  else expand32 s.engineByte c.fmt (s.inExp w c.inTensor) c.src e

/-- One addition of a node, with whether a NaN came in (R152, R410, R411). -/
def nodeAdd (redOp : Nat) (a b : F32) : F32 × Bool :=
  match redOp with
  | 0 => (add32 a b, isNaN32 a || isNaN32 b)
  | 1 => (max32 a b, isNaN32 a || isNaN32 b)
  | _ => (BitVec.ofNat 32 (min 0xFFFFFFFF (a.toNat + b.toNat)), false)

/-- Element `e` of this leaf's value after its levels 1 to `top`, and the additions a NaN came into. -/
def nodeValue (s : State) (w : Work) (c : ChanCmd) (levels : List Nat) (e : Nat) : F32 × Nat :=
  levels.foldl (fun (acc : F32 × Nat) k =>
    let x := BitVec.ofNat 32 (readNat s.engineByte (c.recv + (k - 1) * recvArea c + 4 * e) 4)
    let r := nodeAdd c.redOp acc.1 x
    (r.1, acc.2 + r.2.toNat)) (leafInput s w c e, 0)

/-- The elements of chunk `i`. -/
def chunkRange (n wire i : Nat) : List Nat :=
  (List.range (min (chunkElems wire) (n - i * chunkElems wire))).map (· + i * chunkElems wire)

/-- The rounding of an element sent at a level by a leaf (R414). -/
def wireRounding (t : TensorEntry) (seed level leaf e : Nat) : Rounding :=
  if t.grad then .sr (srBits seed t.tensorId (e + (level * 4096 + leaf) * 2 ^ 44)) else .rne

/-- Values converted to the wire (R414): the bytes, the largest finite magnitude, and the largest block scale exponent. -/
structure WireOut where
  bytes : List Byte
  amax : F32
  top : Int

def toWire (t : TensorEntry) (seed wire : Nat) (x : Int) (level leaf first : Nat) (vs : List F32) : WireOut :=
  let rnd (p : Nat) : Rounding := wireRounding t seed level leaf (first + p)
  let f : Fmt := if wire = 0 then .fp32 else if wire = 1 then .bf16 else .mxE5m2
  let o := writeRun f x rnd 0 vs.length 0 vs
  let top := ((blocksOf32 (vs.length + 1) 0 vs).map (fun b =>
    ((convertBlock f x ((List.range b.2.length).map (fun i => rnd (b.1 + i))) b.2).scale : Int) - 127)).foldl max (-127)
  let amax := vs.foldl (fun a v => if isFinite32 v then max32 a (abs32 v) else a) zero32
  ⟨if wire = 0 then vs.flatMap (fun v => bytesOf 4 v.toNat) else (Memory.writeCells [] o.1).readBytes 0 (f.rowBytes vs.length),
   amax, if wire = 2 then top else 0⟩

/-- The levels at which this leaf receives. -/
def myLevels (s : State) (w : Work) (ch : Nat) : List (Nat × Nat) := childrenOf (chanLeaf s w ch) (chanSize s w ch)

/-- The chunks of a reduction. -/
def chunksOf (n wire : Nat) : List Nat := List.range (ceilDiv n (chunkElems wire))

/-- The format of what goes down or is gathered. -/
def downFmt (s : State) (w : Work) (c : ChanCmd) : Fmt :=
  if c.opcode = 1 ∨ c.opcode = 2 then (if c.redOp = 2 then .fp32 else (tensorAt s w.imgSlot c.outTensor).fmt) else c.fmt

/-- Where `m` elements from element `e` of a stored row lie: byte offset and length. -/
def rowSpan (f : Fmt) (e m : Nat) : Nat × Nat :=
  if f.blockScaled then (e / 256 * f.groupBytes, f.rowBytes (e % 256 + m)) else (e * f.elemBits / 8, ceilDiv (m * f.elemBits) 8)

/-- Where chunk `i` of a stored row lies. -/
def rowChunk (f : Fmt) (n i : Nat) : Nat × Nat :=
  let e := chunkElems (fmtWire f)
  rowSpan f (i * e) (min e (n - i * e))

/-- The chunks of what goes down or is gathered. -/
def rowChunks (f : Fmt) (n : Nat) : List Nat := chunksOf n (fmtWire f)

/-- Bytes read on chip by an engine. -/
def State.engineRead (s : State) (a n : Nat) : List Byte := (List.range n).map (fun i => s.engineByte (a + i))

/-- One chunk of the result sent down to every child (R411, R413). -/
def sendDown (w : Work) (ch n : Nat) (c : ChanCmd) (s : State) (i : Nat) : State :=
  let f := downFmt s w c
  let p := rowChunk f c.count i
  let data := s.engineRead (c.dst + p.1) p.2
  (myLevels s w ch).foldl (fun s q =>
    s.sendChan w ch n 1 q.2 { s.workHead w ch 1 with level := q.1, wire := fmtWire f, offset := i * chunkElems (fmtWire f) } data) s

/-- The root's result converted and written (R413). -/
def writeResultRow (s : State) (w : Work) (ch : Nat) (c : ChanCmd) (vs : List F32) : State :=
  let t := tensorAt s w.imgSlot c.outTensor
  if c.redOp = 2 then s.chanPut ch (cellsAt c.dst (vs.flatMap (fun v => bytesOf 4 v.toNat)))
  else
    let o := writeRun t.fmt (s.outExp w c.outTensor) (fun p => t.rounding w.seed p) c.dst c.count 0 vs
    (s.chanPut ch o.1).addUse w c.outTensor c.count o.2

/-- Has a member everything a run gives it (R418), with this member's part of the run done? -/
def runDone (s : State) (w : Work) (r : ChanRun) : Bool :=
  let c := ChanCmd.ofBits r.cmd
  let leaf := chanLeaf s w r.channel
  let down := rowChunks (downFmt s w c) c.count
  r.issued && (decide (c.count = 0) || (match c.opcode with
    | 1 => down.all (fun i => r.got.contains (0, i)) && (chunksOf c.count (wireOf s w c)).all r.sent.contains
    | 2 => (chunksOf c.count (wireOf s w c)).all r.sent.contains
    | 3 => down.all (fun i => r.got.contains (0, i))
    | 4 => (List.range (chanSize s w r.channel)).all (fun l => decide (l = leaf) || down.all (fun i => r.got.contains (l, i)))
    | _ => r.complete))

/-- A run marked complete once it is done. -/
def State.checkRun (s : State) (w : Work) (ch n : Nat) : State :=
  match s.run? ch n with
  | some r => if runDone s w r then s.modRun ch n (fun r => { r with complete := true }) else s
  | none => s

/-- At the root every chunk is combined: the result is written, and sent down for ALLREDUCE. -/
def rootDone (w : Work) (ch n : Nat) (c : ChanCmd) (s : State) : State :=
  match s.run? ch n with
  | none => s
  | some r =>
    if !(chunksOf c.count (wireOf s w c)).all r.sent.contains then s
    else
      let levels := (myLevels s w ch).map (·.1)
      let vs := (List.range c.count).map (fun e => (nodeValue s w c levels e).1)
      let s := writeResultRow s w ch c vs
      if c.opcode = 1 then
        let is := rowChunks (downFmt s w c) c.count
        let s := s.modRun ch n (fun r => { r with got := is.map (fun i => (0, i)) })
        is.foldl (sendDown w ch n c) s
      else s

/-- Chunk `i` of a reduction at this leaf, once the contributions of all its children are here: NaNs are counted (R425),
and the value goes up, or is kept at the root. -/
def tryChunk (ch n : Nat) (s : State) (i : Nat) : State :=
  match s.ump.work, s.run? ch n with
  | some w, some r =>
    let c := ChanCmd.ofBits r.cmd
    let kids := myLevels s w ch
    let leaf := chanLeaf s w ch
    if !r.issued || r.sent.contains i || !kids.all (fun q => r.up.contains (q.1, i)) then s
    else
      let wire := wireOf s w c
      let es := chunkRange c.count wire i
      let vs := es.map (nodeValue s w c (kids.map (·.1)))
      let nans := (vs.map (·.2)).sum
      let s := (s.addNans nans).bump R.vecNanTotal nans
      let s := s.addCharge { Charges.zero with vecOps := es.length * kids.length }
      let input := if c.redOp = 2 then (4 * es.headD 0, 4 * es.length) else rowSpan c.fmt (es.headD 0) es.length
      let s := s.chanReads ch ((c.src + input.1, input.2) ::
        kids.map (fun q => (c.recv + (q.1 - 1) * recvArea c + 4 * es.headD 0, 4 * es.length)))
      let s := s.modRun ch n (fun r => { r with sent := r.sent ++ [i] })
      match parentOf leaf with
      | none => rootDone w ch n c s
      | some (up, level) =>
        let x := if c.wire = 2 then s.agreedExp w.ctx w.did c.oscSlot (tensorAt s w.imgSlot c.outTensor).initExp else 0
        let o := toWire (tensorAt s w.imgSlot c.outTensor) w.seed wire x level leaf (es.headD 0) (vs.map (·.1))
        let s := if c.wire = 2 then s.noteAmax c.oscSlot o.amax else s
        if 0 < o.top then s.overflowed c.oscSlot o.top.toNat
        else s.sendChan w ch n 1 up { s.workHead w ch 0 with
            level := level, wire := wire, offset := es.headD 0, scale := if wire = 2 then (x % 256).toNat else 0 } o.bytes
  | _, _ => s

/-- Every chunk that is ready moves on. -/
def tryChunks (w : Work) (ch n : Nat) (c : ChanCmd) (s : State) : State :=
  ((chunksOf c.count (wireOf s w c)).foldl (tryChunk ch n) s).checkRun w ch n

/-! What is issued (R410). -/

/-- The place of a channel's next sending command among its reductions. -/
def issueNo (s : State) (w : Work) (ch : Nat) : Nat :=
  (((programFor s w (.channel ch)).take (s.engine (.channel ch)).pos).filter (fun c =>
    decide (1 ≤ fld c 0 0 8) && decide (fld c 0 0 8 ≤ 6))).length

/-- A channel command issued: its run begins, and its own part of it follows. -/
def issueChan (s : State) (ch op : Nat) (cmd : Desc) (f : Work → Nat → ChanCmd → State → State) :
    Host.Outcome State Fault Refusal :=
  match s.issued (.channel ch) op cmd with
  | none => .next s
  | some w =>
    let n := issueNo s w ch
    let c := ChanCmd.ofBits cmd
    let s := (s.openRun ch n cmd).modRun ch n (fun r => { r with issued := true })
    let s := s.advance (.channel ch)
    guarded [c.src, c.dst, c.recv] ((if c.count = 0 then s else f w n c s).checkRun w ch n)

/-- BCAST at leaf 0: its input is its own result, and goes down. -/
def startBcast (ch : Nat) (w : Work) (n : Nat) (c : ChanCmd) (s : State) : State :=
  if chanLeaf s w ch ≠ 0 then s
  else
    let is := rowChunks c.fmt c.count
    let s := s.chanReads ch [(c.src, c.fmt.rowBytes c.count)] |>.chanPut ch (cellsAt c.dst (s.engineRead c.src (c.fmt.rowBytes c.count)))
    let s := s.modRun ch n (fun r => { r with got := is.map (fun i => (0, i)) })
    is.foldl (sendDown w ch n c) s

/-- Bytes of a member's part of an ALLGATHER (R410). -/
def gatherPart (c : ChanCmd) : Nat := ceilDiv (c.fmt.rowBytes c.count) 256 * 256

/-- ALLGATHER: this member's input placed here and sent to every other member. -/
def startGather (ch : Nat) (w : Work) (n : Nat) (c : ChanCmd) (s : State) : State :=
  let leaf := chanLeaf s w ch
  let row := s.engineRead c.src (c.fmt.rowBytes c.count)
  let s := s.chanReads ch [(c.src, c.fmt.rowBytes c.count)] |>.chanPut ch (cellsAt (c.dst + leaf * gatherPart c) row)
  let others := (List.range (chanSize s w ch)).filter (· != leaf)
  (rowChunks c.fmt c.count).foldl (fun s i =>
    let p := rowChunk c.fmt c.count i
    let h : SubHead := { s.workHead w ch 2 with wire := fmtWire c.fmt, offset := i * chunkElems (fmtWire c.fmt) }
    others.foldl (fun s l => s.sendChan w ch n 1 l h ((row.drop p.1).take p.2)) s) s

/-! What arrives (R412, R426). -/

/-- Is a packet stale: of another group step, attempt or work, or of no command of its channel (R426)? -/
def stale (s : State) (k : Packet) : Bool :=
  let h := subHeadOf k.data
  match s.ump.work with
  | none => true
  | some w => h.gstep != s.rdc.gstep || h.attempt != (s.attemptOf w.did).attempt || h.work != w.cls ||
      h.wkind != (if w.practice then 1 else 0) || ((sendingCommands s w k.ch)[k.seq]?).isNone

/-- A packet taken in by its work: marked, and its run begun where the command is not issued yet; a stale one is discarded
and counted. -/
def takePacket (s : State) (k : Packet) (f : Work → ChanRun → SubHead → List Byte → State → State) : State :=
  match s.ump.work with
  | none => s.bump R.rdcStale
  | some w =>
    match (sendingCommands s w k.ch)[k.seq]? with
    | none => s.bump R.rdcStale
    | some cmd =>
      if stale s k then s.bump R.rdcStale
      else
        let s := ((s.mark false k).chargeReceived k).openRun k.ch k.seq cmd
        match s.run? k.ch k.seq with
        | none => s
        | some r => f w r (subHeadOf k.data) ((k.data.take k.len).drop 32) s

/-- A child's contribution lands, expanded, in its level's area (R412, R414). -/
def takeUp (w : Work) (r : ChanRun) (h : SubHead) (data : List Byte) (s : State) : State :=
  let c := ChanCmd.ofBits r.cmd
  let m := min (chunkElems h.wire) (c.count - h.offset)
  let f : Fmt := if h.wire = 0 then .fp32 else if h.wire = 1 then .bf16 else .mxE5m2
  let x : Int := if h.wire = 2 then signed 8 h.scale else 0
  let v (i : Nat) : F32 := if h.wire = 0 then BitVec.ofNat 32 (readNat (fun a => data.getD a 0) (4 * i) 4)
    else expand32 (fun a => data.getD a 0) f x 0 i
  let s := s.chanPut r.channel (cellsAt (c.recv + (h.level - 1) * recvArea c + 4 * h.offset)
    ((List.range m).flatMap (fun i => bytesOf 4 (v i).toNat)))
  let s := s.modRun r.channel r.n (fun r => { r with up := r.up ++ [(h.level, h.offset / chunkElems h.wire)] })
  tryChunks w r.channel r.n c s

/-- A chunk of the result lands here and goes on to this leaf's children (R411). -/
def takeDown (w : Work) (r : ChanRun) (h : SubHead) (data : List Byte) (s : State) : State :=
  let c := ChanCmd.ofBits r.cmd
  let f := downFmt s w c
  let i := h.offset / chunkElems (fmtWire f)
  let s := s.chanPut r.channel (cellsAt (c.dst + (rowChunk f c.count i).1) data)
  let s := if c.opcode = 1 ∧ c.redOp ≠ 2 then s.markWritten w c.outTensor else s
  let s := s.modRun r.channel r.n (fun r => { r with got := r.got ++ [(0, i)] })
  (sendDown w r.channel r.n c s i).checkRun w r.channel r.n

/-- A gathered chunk lands in its member's part (R410). -/
def takeGather (w : Work) (r : ChanRun) (h : SubHead) (data : List Byte) (s : State) : State :=
  let c := ChanCmd.ofBits r.cmd
  let i := h.offset / chunkElems (fmtWire c.fmt)
  let s := s.chanPut r.channel (cellsAt (c.dst + h.leaf * gatherPart c + (rowChunk c.fmt c.count i).1) data)
  (s.modRun r.channel r.n (fun r => { r with got := r.got ++ [(h.leaf, i)] })).checkRun w r.channel r.n

end Sys2Proof.Machine
end

