-- ==== Sys2Proof/Machine/FbOps.lean ====
section
/-! DEFINITION. Expert dispatch and combine (R429 to R432). A ROW packet names no expert, so a source sends an owner's rows
by increasing expert and then in its list's order, and the owner places the rows of a leaf in that order. -/
namespace Sys2Proof.Machine
open Sys2Proof

/-! Selections and positions (R429, R430). -/

/-- A selection: the source token, its selection slot and the expert. -/
structure Selection where
  token : Nat
  k : Nat
  expert : Nat
  deriving DecidableEq, Repr

/-- Experts of a command's subgroup. -/
def expertCount (size : Nat) (c : ChanCmd) : Nat := size * c.perRank

/-- A member's selection list (R429): tokens in increasing index, each with its records in rank order; a record without an
expert of the subgroup is skipped. -/
def selections (s : State) (size : Nat) (c : ChanCmd) : List Selection :=
  ((List.range (c.count * c.k)).map (fun i =>
    (⟨i / c.k, i % c.k, readNat s.engineByte (c.sel + 8 * i) 2⟩ : Selection))).filter (fun x => decide (x.expert < expertCount size c))

/-- How many selections of expert `x` leaf `l` has, as its count vector says. -/
def countOf (s : State) (c : ChanCmd) (l x : Nat) : Nat := readNat s.engineByte (c.recv + 2048 * l + 2 * x) 2

/-- The first position of leaf `l`'s selections of expert `x`. -/
def firstPos (s : State) (c : ChanCmd) (l x : Nat) : Nat := ((List.range l).map (fun j => countOf s c j x)).sum

/-- This member's selections of expert `x` with their positions. -/
def placedOf (s : State) (size leaf : Nat) (c : ChanCmd) (x : Nat) : List (Selection × Nat) :=
  (((selections s size c).filter (fun q => q.expert == x)).zipIdx).map (fun p => (p.1, firstPos s c leaf x + p.2))

/-- The experts of a leaf. -/
def expertsAt (c : ChanCmd) (l : Nat) : List Nat := (List.range c.perRank).map (· + l * c.perRank)

/-- This member's rows for leaf `l`, in the order sent: those that are not dropped. -/
def rowsFor (s : State) (size leaf : Nat) (c : ChanCmd) (l : Nat) : List (Selection × Nat) :=
  (expertsAt c l).flatMap (fun x => (placedOf s size leaf c x).filter (fun p => decide (p.2 < c.cap)))

/-- The rows that leaf `l` sends to the owner at `leaf`, in that order, as (local expert, position). -/
def rowsFrom (s : State) (leaf : Nat) (c : ChanCmd) (l : Nat) : List (Nat × Nat) :=
  (expertsAt c leaf).flatMap (fun x =>
    ((List.range (countOf s c l x)).map (fun i => (x - leaf * c.perRank, firstPos s c l x + i))).filter
      (fun p => decide (p.2 < c.cap)))

/-- Bytes of a row of a command. -/
def ChanCmd.rowLen (c : ChanCmd) : Nat := c.fmt.rowBytes c.rowElems

/-- Where position `p` of local expert `i` lies in a region. -/
def slotAddr (c : ChanCmd) (base i p : Nat) : Nat := base + (i * c.cap + p) * c.stride

/-! Pieces of rows (R427). -/

/-- A piece of a row kept with a run. -/
def noteRow (r : ChanRun) (leaf token k : Nat) (off : Nat) (bs : List Byte) : ChanRun :=
  let new : RowNote := ⟨leaf, token, k, [(off, bs)]⟩
  if r.rows.any (fun n => n.leaf == leaf && n.token == token && n.k == k) then
    { r with rows := r.rows.map (fun n =>
        if n.leaf = leaf ∧ n.token = token ∧ n.k = k then { n with pieces := n.pieces ++ [(off, bs)] } else n) }
  else { r with rows := r.rows ++ [new] }

/-- The rows of a leaf in the order in which it sends them (R429): by token and selection where each member holds one expert. A
ROW packet names no expert, so with several experts the order is the one in which they came (R382; assumption 162). -/
def notesOf (c : ChanCmd) (r : ChanRun) (leaf : Nat) : List RowNote :=
  let rows := r.rows.filter (fun n => n.leaf == leaf)
  if c.perRank = 1 then rows.insertionSort (fun a b => a.token < b.token || (a.token == b.token && decide (a.k ≤ b.k))) else rows

/-- Is every byte of a row here? -/
def noteWhole (n : RowNote) (len : Nat) : Bool := decide (len ≤ ((n.pieces.map (·.2.length))).sum)

/-- A row sent in pieces of at most 4,064 bytes. -/
def sendRow (w : Work) (ch n ty kind leaf token k : Nat) (row : List Byte) (s : State) : State :=
  (List.range (ceilDiv row.length 4064)).foldl (fun s i =>
    s.sendChan w ch n ty leaf { s.workHead w ch kind with offset := 4064 * i, token := token, k := k }
      ((row.drop (4064 * i)).take 4064)) s

/-! DISPATCH (R430, R431). -/

/-- The leaves of a subgroup other than this member's. -/
def otherLeaves (size leaf : Nat) : List Nat := (List.range size).filter (· != leaf)

/-- The pieces of a leaf's row written at its place. -/
def placePieces (ch : Nat) (c : ChanCmd) (place : Nat × Nat) (ps : List (Nat × List Byte)) (s : State) : State :=
  ps.foldl (fun s q => s.chanPut ch (cellsAt (slotAddr c c.dst place.1 place.2 + q.1) q.2)) s

/-- Is every row of a leaf here? -/
def rowsHere (s : State) (leaf : Nat) (c : ChanCmd) (r : ChanRun) (l : Nat) : Bool :=
  decide ((rowsFrom s leaf c l).length ≤ ((notesOf c r l).filter (fun n => noteWhole n c.rowLen)).length)

/-- A dispatch whose rows are all here: they are placed, the row counts and the zero rows are written, and the command
completes. -/
def finishDispatch (w : Work) (ch n : Nat) (s : State) : State :=
  match s.run? ch n with
  | none => s
  | some r =>
    let c := ChanCmd.ofBits r.cmd
    let size := chanSize s w ch
    let leaf := chanLeaf s w ch
    if !r.routed || r.complete || !(otherLeaves size leaf).all (rowsHere s leaf c r) then s
    else
      let s := (otherLeaves size leaf).foldl (fun s l =>
        ((notesOf c r l).zip (rowsFrom s leaf c l)).foldl (fun s p => placePieces ch c p.2 p.1.pieces s) s) s
      let total (i : Nat) : Nat := min c.cap (firstPos s c size (leaf * c.perRank + i))
      let counts := (List.range c.perRank).map total
      let s := s.chanPut ch (cellsAt (c.recv + 2048 * size) (counts.flatMap (bytesOf 4)))
      let zeros (i : Nat) : List (Nat × Byte) :=
        (List.range (c.cap - total i)).flatMap (fun j => cellsAt (slotAddr c c.dst i (total i + j)) (List.replicate c.rowLen 0))
      let s := s.chanPut ch ((List.range c.perRank).flatMap zeros)
      s.modRun ch n (fun r => { r with complete := true })

/-- Every count is here: this member's rows are sent or written, and its dropped selections counted. -/
def routeRows (w : Work) (ch n : Nat) (s : State) : State :=
  match s.run? ch n with
  | none => s
  | some r =>
    let c := ChanCmd.ofBits r.cmd
    let size := chanSize s w ch
    let leaf := chanLeaf s w ch
    if !r.issued || r.routed || !(List.range size).all r.counts.contains then s
    else
      let row (t : Nat) : List Byte := s.engineRead (c.src + t * c.stride) c.rowLen
      let kept := ((List.range size).map (fun l => (rowsFor s size leaf c l).length)).sum
      let drops := (selections s size c).length - kept
      let s := (s.bump R.rdcFbDrop drops).modStep (fun g => { g with fbOver := g.fbOver + drops })
      let s := s.chanReads ch ((List.range c.count).map (fun t => (c.src + t * c.stride, c.rowLen)))
      let s := (rowsFor s size leaf c leaf).foldl (fun s p =>
        s.chanPut ch (cellsAt (slotAddr c c.dst (p.1.expert - leaf * c.perRank) p.2) (row p.1.token))) s
      let s := (otherLeaves size leaf).foldl (fun s l =>
        (rowsFor s size leaf c l).foldl (fun s p => sendRow w ch n 2 6 l p.1.token p.1.k (row p.1.token) s) s) s
      finishDispatch w ch n (s.modRun ch n (fun r => { r with routed := true }))

/-- DISPATCH issued: this member's counts are written here and sent to every other member. -/
def startDispatch (ch : Nat) (w : Work) (n : Nat) (c : ChanCmd) (s : State) : State :=
  let size := chanSize s w ch
  let leaf := chanLeaf s w ch
  let mine := selections s size c
  let counts := (List.range (expertCount size c)).flatMap (fun x => bytesOf 2 ((mine.filter (fun q => q.expert == x)).length))
  let s := s.chanReads ch [(c.sel, 8 * c.count * c.k)]
  let s := s.chanPut ch (cellsAt (c.recv + 2048 * leaf) counts)
  let s := s.modRun ch n (fun r => { r with counts := r.counts ++ [leaf] })
  let s := (otherLeaves size leaf).foldl (fun s l => s.sendChan w ch n 2 l (s.workHead w ch 5) counts) s
  routeRows w ch n s

/-- A member's counts arrive. -/
def takeCounts (w : Work) (r : ChanRun) (h : SubHead) (data : List Byte) (s : State) : State :=
  let c := ChanCmd.ofBits r.cmd
  let s := s.chanPut r.channel (cellsAt (c.recv + 2048 * h.leaf) data)
  routeRows w r.channel r.n (s.modRun r.channel r.n (fun r => { r with counts := r.counts ++ [h.leaf] }))

/-- A piece of a row arrives at the owner of its expert. -/
def takeRow (w : Work) (r : ChanRun) (h : SubHead) (data : List Byte) (s : State) : State :=
  finishDispatch w r.channel r.n (s.modRun r.channel r.n (fun _ => noteRow r h.leaf h.token h.k h.offset data))

/-! COMBINE (R432). -/

/-- The place among its channel's reductions, and the command, of the DISPATCH that a COMBINE follows. -/
def dispatchOf (s : State) (w : Work) (ch n : Nat) : Option (Nat × ChanCmd) :=
  ((((sendingCommands s w ch).take n).zipIdx.filter (fun p => fld p.1 0 0 8 == 5)).getLast?).map (fun p =>
    (p.2, ChanCmd.ofBits p.1))

/-- The selections of this member that came back: those that were not dropped. -/
def returned (s : State) (w : Work) (ch : Nat) (d : ChanCmd) : List Selection :=
  let size := chanSize s w ch
  (List.range size).flatMap (fun l => (rowsFor s size (chanLeaf s w ch) d l).map (·.1))

/-- combine_row of R432 for token `t`. -/
def combineRow (s : State) (w : Work) (c : ChanCmd) (back : List Selection) (t : Nat) : List F32 :=
  let x := s.inExp w c.inTensor
  let ks := (List.range c.k).filter (fun k => back.any (fun q => q.token == t && q.k == k))
  let weight (k : Nat) : F32 := BitVec.ofNat 32 (readNat s.engineByte (c.sel + 8 * (t * c.k + k) + 4) 4)
  let y (k e : Nat) : F32 := expand32 s.engineByte c.fmt x (c.recv + (t * c.k + k) * c.stride) e
  (List.range c.rowElems).map (fun e =>
    match ks with
    | [] => zero32
    | k :: rest => rest.foldl (fun acc k => fma32 (weight k) (y k e) acc) (mul32 (weight k) (y k e)))

/-- Is a selection's row at its source: its expert is local, or the row has come back whole? -/
def isBack (d c : ChanCmd) (leaf : Nat) (r : ChanRun) (q : Selection) : Bool :=
  decide (q.expert / d.perRank = leaf) || r.rows.any (fun m => m.token == q.token && m.k == q.k && noteWhole m c.rowLen)

/-- A combine whose rows are all back: every token's output row is formed and converted (R54). -/
def finishCombine (w : Work) (ch n : Nat) (s : State) : State :=
  match s.run? ch n, dispatchOf s w ch n with
  | some r, some (_, d) =>
    let c := ChanCmd.ofBits r.cmd
    let back := returned s w ch d
    let leaf := chanLeaf s w ch
    if !r.issued || r.complete || !back.all (isBack d c leaf r) then s
    else
      let t := tensorAt s w.imgSlot c.outTensor
      let x := s.outExp w c.outTensor
      let s := s.chanReads ch ((c.sel, 8 * c.count * c.k) ::
        back.map (fun q => (c.recv + (q.token * c.k + q.k) * c.stride, c.rowLen)))
      let s := s.addCharge { Charges.zero with vecOps := back.length * c.rowElems }
      let one (s : State) (i : Nat) : State :=
        let o := writeRun t.fmt x (fun p => t.rounding w.seed (i * c.rowElems + p)) (c.dst + i * c.stride) c.rowElems 0
          (combineRow s w c back i)
        (s.chanPut ch o.1).addUse w c.outTensor c.rowElems o.2
      ((List.range c.count).foldl one s).modRun ch n (fun r => { r with complete := true })
  | _, _ => s

/-- COMBINE issued: each owner returns the rows of its experts to their sources. -/
def startCombine (ch : Nat) (w : Work) (n : Nat) (c : ChanCmd) (s : State) : State :=
  match dispatchOf s w ch n with
  | none => s
  | some (m, d) =>
    match s.run? ch m with
    | none => s
    | some r =>
      let size := chanSize s w ch
      let leaf := chanLeaf s w ch
      let row (i p : Nat) : List Byte := s.engineRead (slotAddr c c.src i p) c.rowLen
      let s := (rowsFor s size leaf d leaf).foldl (fun s p =>
        s.chanPut ch (cellsAt (c.recv + (p.1.token * c.k + p.1.k) * c.stride) (row (p.1.expert - leaf * d.perRank) p.2))) s
      let s := (otherLeaves size leaf).foldl (fun s l =>
        ((notesOf d r l).zip (rowsFrom s leaf d l)).foldl (fun s q =>
          sendRow w ch n 3 7 l q.1.token q.1.k (row q.2.1 q.2.2) (s.chanReads ch [(slotAddr c c.src q.2.1 q.2.2, c.rowLen)])) s) s
      finishCombine w ch n s

/-- Has the DISPATCH that a COMBINE follows completed? Until then the COMBINE is not issued. -/
def dispatchDone (s : State) (ch : Nat) : Bool :=
  match s.ump.work with
  | none => false
  | some w => (dispatchOf s w ch (issueNo s w ch)).elim true (fun d => (s.run? ch d.1).elim false (·.complete))

/-- A piece of a returned row lands at its source. -/
def takeReturn (w : Work) (r : ChanRun) (h : SubHead) (data : List Byte) (s : State) : State :=
  let c := ChanCmd.ofBits r.cmd
  let s := s.chanPut r.channel (cellsAt (c.recv + (h.token * c.k + h.k) * c.stride + h.offset) data)
  finishCombine w r.channel r.n (s.modRun r.channel r.n (fun r => noteRow r h.leaf h.token h.k h.offset data))

end Sys2Proof.Machine
end

