-- ==== Sys2Proof/Machine/ChannelRows.lean ====
section
/-! DEFINITION. The commands of channel programs (R409, R410) and the packets they exchange (R412, R426, R430, R432). -/
namespace Sys2Proof.Machine
open Sys2Proof

/-! Commands. -/

/-- ALLREDUCE (R410, R411). -/
def execAllreduce (channel : Nat) (cmd : Desc) (s : State) : Host.Outcome State Fault Refusal :=
  issueChan s channel 1 cmd (fun w n c s => tryChunks w channel n c s)

/-- REDUCE (R410, R411). -/
def execReduce (channel : Nat) (cmd : Desc) (s : State) : Host.Outcome State Fault Refusal :=
  issueChan s channel 2 cmd (fun w n c s => tryChunks w channel n c s)

/-- BCAST (R410). -/
def execBcast (channel : Nat) (cmd : Desc) (s : State) : Host.Outcome State Fault Refusal :=
  issueChan s channel 3 cmd (startBcast channel)

/-- ALLGATHER (R410). -/
def execAllgather (channel : Nat) (cmd : Desc) (s : State) : Host.Outcome State Fault Refusal :=
  issueChan s channel 4 cmd (startGather channel)

/-- DISPATCH (R430). -/
def execDispatch (channel : Nat) (cmd : Desc) (s : State) : Host.Outcome State Fault Refusal :=
  issueChan s channel 5 cmd (startDispatch channel)

/-- COMBINE of a channel program (R432). -/
def execChannelCombine (channel : Nat) (cmd : Desc) (s : State) : Host.Outcome State Fault Refusal :=
  if dispatchDone s channel then issueChan s channel 6 cmd (startCombine channel) else .next s

/-- WAIT of a channel program (R110, R409). -/
def execChannelWait (channel : Nat) (cmd : Desc) (s : State) : Host.Outcome State Fault Refusal :=
  .next (s.waitCommand (.channel channel) cmd)

/-- SIGNAL of a channel program (R110, R409): once every earlier command of the channel is complete. -/
def execChannelSignal (channel : Nat) (cmd : Desc) (s : State) : Host.Outcome State Fault Refusal :=
  .next (s.signalCommand (.channel channel) cmd ((s.rdc.chans.filter (fun r => r.channel == channel && r.issued)).all (·.complete)))

/-- END of a channel program (R110, R409). -/
def execChannelEnd (channel : Nat) (cmd : Desc) (s : State) : Host.Outcome State Fault Refusal :=
  .next (s.endCommand (.channel channel) cmd)

/-! Packets. -/

/-- The kind of a packet with a subheader. -/
def kindOf (k : InboxPacket) : Nat := (subHeadOf k.packet.data).kind

/-- The oldest packet that a test names, taken from the inbox. -/
def takeInbox (s : State) (pick : InboxPacket → Bool) (f : Packet → State → State) : State :=
  match s.inbox? pick with
  | none => s
  | some k => f k.packet { s with mgl := { s.mgl with inbox := s.mgl.inbox.erase k } }

/-- RDC_DATA_RECEIVE (R412): a chunk going up the tree, going down it, or gathered. -/
def execRdcDataReceive (s : State) : Host.Outcome State Fault Refusal :=
  .next (takeInbox s (fun k => k.packet.ty == 1 && decide (kindOf k ≠ 3 ∧ kindOf k ≠ 4)) (fun k s =>
    takePacket s k (fun w r h data s =>
      match h.kind with
      | 0 => takeUp w r h data s
      | 1 => takeDown w r h data s
      | 2 => takeGather w r h data s
      | _ => s)))

/-- FB_COUNTS_RECEIVE (R430). -/
def execFbCountsReceive (s : State) : Host.Outcome State Fault Refusal :=
  .next (takeInbox s (fun k => k.packet.ty == 2 && kindOf k == 5) (fun k s => takePacket s k takeCounts))

/-- FB_ROW_RECEIVE (R430). -/
def execFbRowReceive (s : State) : Host.Outcome State Fault Refusal :=
  .next (takeInbox s (fun k => k.packet.ty == 2 && kindOf k != 5) (fun k s => takePacket s k takeRow))

/-- FB_RETURN_RECEIVE (R432). -/
def execFbReturnReceive (s : State) : Host.Outcome State Fault Refusal :=
  .next (takeInbox s (fun k => k.packet.ty == 3) (fun k s => takePacket s k takeReturn))

/-- Does this member hold every chunk that it receives in a channel's n-th reduction (R418): child contributions, the result sent
down, gathered inputs, dispatched or returned rows? -/
def holdsAll (s : State) (w : Work) (ch n : Nat) (cmd : Desc) : Bool :=
  let c := ChanCmd.ofBits cmd
  let r := (s.run? ch n).getD (.start ch n cmd)
  let leaf := chanLeaf s w ch
  let size := chanSize s w ch
  let ups := (myLevels s w ch).all (fun q => (chunksOf c.count (wireOf s w c)).all (fun i => r.up.contains (q.1, i)))
  let down (l : Nat) : Bool := (rowChunks (downFmt s w c) c.count).all (fun i => r.got.contains (l, i))
  match c.opcode with
  | 1 => ups && (decide (leaf = 0) || down 0)
  | 2 => ups
  | 3 => decide (leaf = 0) || down 0
  | 4 => (otherLeaves size leaf).all down
  | 5 => (otherLeaves size leaf).all (fun l => r.counts.contains l) && (r.complete || (otherLeaves size leaf).all (rowsHere s leaf c r))
  | _ =>
    match dispatchOf s w ch n with
    | none => true
    | some (m, d) => (s.run? ch m).elim false (·.routed) && (returned s w ch d).all (isBack d c leaf r)

/-- The earliest DUE_NS of the channel's sending commands with COUNT ≠ 0 for which a chunk is missing (R418). -/
def missingDue (s : State) (w : Work) (ch : Nat) : Option Nat :=
  ((((sendingCommands s w ch).zipIdx).filter (fun p =>
    decide (fld p.1 4 0 32 ≠ 0) && !holdsAll s w ch p.2 p.1)).map (fun p => fld p.1 8 0 32)).min?

/-- DUE_NS_DEADLINE (R418, R419): a chunk of a command of the channel is missing at the command's deadline, and this member's vote
will carry FAIL. -/
def execDueNsDeadline (channel : Nat) (s : State) : Host.Outcome State Fault Refusal :=
  match s.rdc.step, s.ump.work with
  | some g, some w =>
    if !g.hasWork || g.workId != w.did then .next s
    else
      match missingDue s w channel with
      | none => .next s
      | some due => .next (State.failVote { s with ts := max s.ts (g.start + due) })
  | _, _ => .next s

end Sys2Proof.Machine
end

