-- ==== Sys2Proof/Machine/GatherRows.lean ====
section
/-! DEFINITION. The commands of gather programs (R264 to R267): copies, embedding bags and their gradient. They read and
write LPDDR5X under the page rules of the work's context (R498), and bonded SRAM. -/
namespace Sys2Proof.Machine
open Sys2Proof

/-- A gather command's fields (R264). -/
structure GatherCmd where
  opcode : Nat
  mode : Nat
  weighted : Bool
  fmtCode : Nat
  count : Nat
  unit : Nat
  outTensor : Nat
  src : Nat
  dst : Nat
  list : Nat
  offs : Nat
  wgt : Nat
  stride : Nat
  tableRows : Nat
  reservedBits : Nat
  deriving DecidableEq, Repr

/-- Reading a gather command's 64 bytes (R264). -/
def GatherCmd.ofBits (c : Desc) : GatherCmd where
  opcode := fld c 0 0 8
  mode := fld c 1 0 2
  weighted := fld c 1 2 1 = 1
  fmtCode := fld c 2 0 8
  count := fld c 4 0 32
  unit := fld c 8 0 32
  outTensor := fld c 12 0 16
  src := fld c 16 0 48
  dst := fld c 24 0 48
  list := fld c 32 0 48
  offs := fld c 40 0 48
  wgt := fld c 48 0 48
  stride := fld c 56 0 32
  tableRows := fld c 60 0 32
  reservedBits := fld c 1 3 5 + fld c 3 0 8 + fld c 14 0 16 + fld c 16 48 16 + fld c 24 48 16 + fld c 32 48 16 +
    fld c 40 48 16 + fld c 48 48 16

def GatherCmd.fmt (c : GatherCmd) : Fmt := (Fmt.ofCode c.fmtCode).getD .fp32

/-! Reads and writes of a Locker for the work. -/

/-- Where the bytes of a bound run are: in pages from an offset, at a device address, given (an update record), or nowhere
(an adapter index beyond the list). -/
inductive BoundPlace where
  | pages (ps : List Nat) (off : Nat)
  | at_ (a : Nat)
  | given (bs : List Byte)
  | nowhere

/-- The update record of a step for a listed adapter (R176, R286): LR and WD of its list entry, the record's own parameters, no
veto, and the working copy's address. -/
def updateRecord (p : PStep) (r : Record) (k wc : Nat) : List Byte :=
  let rate := p.rates.getD k (zero32, zero32)
  let word (x : F32) : List Byte := bytesOf 4 x.toNat
  word rate.1 ++ word r.beta1 ++ word r.beta2 ++ word r.eps ++ word rate.2 ++ bytesOf 4 0 ++ bytesOf 8 wc ++
    List.replicate 224 0

/-- What an address stands for in the work on the array; none where no binding names it (assumption 220). -/
def State.boundPlace (s : State) (w : Work) (a : Nat) : Option BoundPlace :=
  let ps := programsOf s w
  match (ps.elim [] (·.binds)).find? (fun b => inRange (b.base, b.bytes) a), s.ump.steps.find? (fun p => p.did == w.did) with
  | some b, some p =>
    let off := b.offset + (a - b.base)
    let record (k : Nat) : Option Record := (p.adapters[k]?).bind s.record?
    let pagesOf (k : Nat) (f : Record → List Nat) : BoundPlace := (record k).elim .nowhere (fun r => .pages (f r) off)
    some (match b.item with
      | .stateIn k => pagesOf k (fun r => if r.current = 0 then r.state0 else r.state1)
      | .stateOut k => pagesOf k (fun r => if r.current = 0 then r.state1 else r.state0)
      | .shadow k => pagesOf k (·.shadow)
      | .sequence j => (p.seqs[j]?).elim .nowhere (fun k => pagesOf k (·.shadow))
      | .record k aux =>
        let wc := ((ps.elim [] (·.working)).find? (fun x => x.1 == aux)).elim 0 (·.2)
        (record k).elim .nowhere (fun r => .given ((updateRecord p r k wc).drop off))
      | .batch => .at_ (p.dataAddr + off))
  | _, _ => none

/-- The runs of device addresses of `n` bytes from an offset of a page list. -/
def pageRuns (ps : List Nat) (off n : Nat) : List (Nat × Nat) :=
  if n = 0 then [] else
    (List.range ((off + n - 1) / pageBytes + 1 - off / pageBytes)).map (fun i =>
      let page := off / pageBytes + i
      let first := max off (page * pageBytes)
      (ps.getD page 0 * pageBytes + first % pageBytes, min (off + n) ((page + 1) * pageBytes) - first))

/-- Bytes read at a device address by gather engine `e`. -/
def State.gReadAt (s : State) (w : Work) (e a n : Nat) : List Byte × State :=
  let (bs, s) := s.devRead w.ctx a n
  (bs, s.traffic false (e / 2) 8 a n)

/-- Bytes written at a device address by gather engine `e`. -/
def State.gWriteAt (s : State) (w : Work) (e a : Nat) (bs : List Byte) : State :=
  (s.devWrite w.ctx a bs).traffic true (e / 2) 8 a bs.length

/-- Bytes read by gather engine `e`, from where a binding has them. -/
def State.gRead (s : State) (w : Work) (e a n : Nat) : List Byte × State :=
  match s.boundPlace w a with
  | none => s.gReadAt w e a n
  | some (.at_ b) => s.gReadAt w e b n
  | some (.pages ps off) =>
    (pageRuns ps off n).foldl (fun acc r =>
      let (bs, s) := acc.2.gReadAt w e r.1 r.2
      (acc.1 ++ bs, s)) ([], s)
  | some (.given bs) => ((List.range n).map (fun i => bs.getD i 0), s)
  | some .nowhere => (List.replicate n 0, s)

/-- Bytes written by gather engine `e`, to where a binding has them. -/
def State.gWrite (s : State) (w : Work) (e a : Nat) (bs : List Byte) : State :=
  match s.boundPlace w a with
  | none => s.gWriteAt w e a bs
  | some (.at_ b) => s.gWriteAt w e b bs
  | some (.pages ps off) =>
    ((pageRuns ps off bs.length).foldl (fun (acc : List Byte × State) r =>
      (acc.1.drop r.2, acc.2.gWriteAt w e r.1 (acc.1.take r.2))) (bs, s)).2
  | some (.given _) | some .nowhere => s

/-- 256-byte units moved by a gather program (R588). -/
def State.gMoved (s : State) (e n : Nat) : State := s.count (e / 2) 4 1 (ceilDiv n 256) (s.workCounted 8)

/-- A list of 32-bit words. -/
def wordsOf (bs : List Byte) : List Nat := (List.range (bs.length / 4)).map (fun i => ofBytes ((bs.drop (4 * i)).take 4))

/-! COPY and LIST_COPY (R265). -/

/-- One run of bytes copied. -/
def copyRun (w : Work) (e : Nat) (s : State) (src dst n : Nat) : State :=
  let (bs, s) := s.gRead w e src n
  (s.gWrite w e dst bs).gMoved e n

/-- A gather command as an outcome: executed when it is the engine's next. -/
def gatherStep (e op : Nat) (cmd : Desc) (s : State) (f : Work → GatherCmd → State) : Host.Outcome State Fault Refusal :=
  match s.issued (.gather e) op cmd with
  | none => .next s
  | some w =>
    let c := GatherCmd.ofBits cmd
    guarded [c.src, c.dst] ((f w c).advance (.gather e))

/-- COPY: COUNT units of 256 bytes. -/
def execCopy (engine : Nat) (cmd : Desc) (s : State) : Host.Outcome State Fault Refusal :=
  gatherStep engine 0x01 cmd s (fun w c => copyRun w engine s c.src c.dst (256 * c.count))

/-- LIST_COPY: UNIT bytes from each listed place. -/
def execListCopy (engine : Nat) (cmd : Desc) (s : State) : Host.Outcome State Fault Refusal :=
  gatherStep engine 0x02 cmd s (fun w c =>
    let (bs, s) := s.gRead w engine c.list (4 * c.count)
    ((wordsOf bs).zipIdx).foldl (fun s p => copyRun w engine s (c.src + p.1 * c.unit) (c.dst + p.2 * c.unit) c.unit) s)

/-! EMBAG (R266). -/

/-- One lookup's row, expanded, and its weight. -/
structure Lookup where
  index : Nat
  row : List F32
  weight : F32

/-- The lookups of a bag read in increasing j; an index at or beyond TABLE_ROWS reads no row. -/
def readLookups (w : Work) (e : Nat) (c : GatherCmd) (s : State) (first last : Nat) : List Lookup × State :=
  (List.range (last - first)).foldl (fun (acc : List Lookup × State) t =>
    let (ib, s) := acc.2.gRead w e (c.list + 4 * (first + t)) 4
    let i := ofBytes ib
    let (wb, s) := if c.weighted then s.gRead w e (c.wgt + 4 * (first + t)) 4 else ([], s)
    let (rb, s) := if i < c.tableRows then s.gRead w e (c.src + c.stride * i) (c.fmt.rowBytes c.unit) else ([], s)
    let row := (List.range c.unit).map (fun k => expand32 (fun a => rb.getD a 0) c.fmt 0 0 k)
    (acc.1 ++ [⟨i, row, BitVec.ofNat 32 (ofBytes wb)⟩], s)) ([], s)

/-- embag of R266 over a bag's lookups, element `d`. -/
def bagElem (c : GatherCmd) (ls : List Lookup) (d : Nat) : F32 :=
  match ls with
  | [] => zero32
  | l :: rest =>
    let x (l : Lookup) : F32 := l.row.getD d zero32
    let acc :=
      if c.mode = 2 then rest.foldl (fun a l => max32 a (x l)) (x l)
      else if c.weighted then rest.foldl (fun a l => fma32 l.weight (x l) a) (mul32 l.weight (x l))
      else rest.foldl (fun a l => add32 a (x l)) (x l)
    if c.mode = 1 then div32 acc (ofNat32 ls.length) else acc

/-- A row of converted elements as bytes; `index` is the element index of a position of the row (R61). -/
def rowBytesOf (t : TensorEntry) (x : Int) (seed : Nat) (index : Nat → Nat) (rowLen : Nat) (xs : List F32) :
    List Byte × ConvStats :=
  let o := writeLine false t x seed index 0 rowLen 0 xs
  ((Memory.writeCells [] o.cells).readBytes 0 (t.fmt.rowBytes rowLen), o.stats)

/-- One bag: its row written, its faulty indices counted. -/
def runBag (w : Work) (e : Nat) (c : GatherCmd) (offs : List Nat) (s : State) (b : Nat) : State :=
  let (ls, s) := readLookups w e c s (offs.getD b 0) (offs.getD (b + 1) 0)
  let bad := (ls.filter (fun l => decide (c.tableRows ≤ l.index))).length
  let xs := (List.range c.unit).map (fun d => if bad = 0 then bagElem c ls d else nan32)
  let t := tensorAt s w.imgSlot c.outTensor
  let (bs, st) := rowBytesOf t (s.outExp w c.outTensor) w.seed ((partOf (partsOf s w) c.outTensor c.dst c.unit).index b) c.unit xs
  let s := ((s.bump R.lkrIdxFault bad).addNans bad).addUse w c.outTensor c.unit st
  (s.gWrite w e (c.dst + b * t.fmt.rowBytes c.unit) bs).gMoved e (ls.length * c.fmt.rowBytes c.unit)

/-- The bag offsets of a command. -/
def readOffs (w : Work) (e : Nat) (c : GatherCmd) (s : State) : List Nat × State :=
  let (bs, s) := s.gRead w e c.offs (4 * (c.count + 1))
  (wordsOf bs, s)

/-- EMBAG (R266). -/
def execEmbag (engine : Nat) (cmd : Desc) (s : State) : Host.Outcome State Fault Refusal :=
  gatherStep engine 0x03 cmd s (fun w c =>
    if c.count = 0 then s
    else
      let (offs, s) := readOffs w engine c s
      (List.range c.count).foldl (runBag w engine c offs) s)

/-! EMBAG_BWD (R267). -/

/-- The contributions of a bag's lookups, as (row, elements). A weighted mean has no stated contribution: free values. -/
def bagContribs (c : GatherCmd) (free : Nat) (g : List F32) (ls : List Lookup) (first : Nat) : List (Nat × List F32) :=
  ls.zipIdx.map (fun p =>
    let one (d : Nat) : F32 :=
      let x := g.getD d zero32
      if c.weighted && decide (c.mode = 1) then Config.freeValue 32 (free + (first + p.2) * c.unit + d)
      else if c.weighted then mul32 p.1.weight x
      else if c.mode = 1 then div32 x (ofNat32 ls.length)
      else x
    (p.1.index, (List.range c.unit).map one))

/-- The contributions of one bag, in increasing j. -/
def readContribs (w : Work) (e : Nat) (c : GatherCmd) (offs : List Nat) (acc : List (Nat × List F32) × State) (b : Nat) :
    List (Nat × List F32) × State :=
  let first := offs.getD b 0
  let (gb, s) := acc.2.gRead w e (c.src + c.stride * b) (c.fmt.rowBytes c.unit)
  let g := (List.range c.unit).map (fun k => expand32 (fun a => gb.getD a 0) c.fmt 0 0 k)
  let (ls, s) := readLookups w e { c with tableRows := 0 } s first (offs.getD (b + 1) 0)
  (acc.1 ++ bagContribs c acc.2.freeCtr g ls first, s)

/-- A gradient row: the accumulation of its contributions in order, +0 without any. -/
def gradRow (c : GatherCmd) (cs : List (Nat × List F32)) (k : Nat) : List F32 :=
  let mine := cs.filter (fun p => p.1 == k)
  (List.range c.unit).map (fun d =>
    (planeValue false (mine.foldl (fun a p => accumulate false a (p.2.getD d zero32)) .start)).getD zero32)

/-- One row of the table gradient written. -/
def writeGrad (w : Work) (e : Nat) (c : GatherCmd) (cs : List (Nat × List F32)) (s : State) (k : Nat) : State :=
  let xs := gradRow c cs k
  let t := tensorAt s w.imgSlot c.outTensor
  let (bs, st) := rowBytesOf { t with fmtCode := 0 } (s.outExp w c.outTensor) w.seed ((partOf (partsOf s w) c.outTensor c.dst c.unit).index k) c.unit xs
  (s.addUse w c.outTensor c.unit st).gWrite w e (c.dst + 4 * c.unit * k) bs

/-- EMBAG_BWD (R267): the full FP32 gradient of the table. -/
def execEmbagBwd (engine : Nat) (cmd : Desc) (s : State) : Host.Outcome State Fault Refusal :=
  gatherStep engine 0x04 cmd s (fun w c =>
    if c.count = 0 then s
    else
      let (offs, s) := readOffs w engine c s
      let (cs, s) := (List.range c.count).foldl (readContribs w engine c offs) ([], s)
      let s := { s with freeCtr := s.freeCtr + offs.getLastD 0 * c.unit }
      ((List.range c.tableRows).foldl (writeGrad w engine c cs) s).gMoved engine (4 * c.unit * c.tableRows))

/-- GATHER_WAIT (R264). -/
def execGatherWait (engine : Nat) (cmd : Desc) (s : State) : Host.Outcome State Fault Refusal :=
  .next (s.waitCommand (.gather engine) cmd)

/-- GATHER_SIGNAL (R264): every earlier command's writes are done. -/
def execGatherSignal (engine : Nat) (cmd : Desc) (s : State) : Host.Outcome State Fault Refusal :=
  .next (s.signalCommand (.gather engine) cmd true)

/-- GATHER_END (R264). -/
def execGatherEnd (engine : Nat) (cmd : Desc) (s : State) : Host.Outcome State Fault Refusal :=
  .next (s.endCommand (.gather engine) cmd)

end Sys2Proof.Machine
end

