-- ==== Sys2Proof/Machine/LoadOps.lean ====
section
/-! DEFINITION. Schedule images as SCHED_LOAD reads them (R465): declarations read into their fields, and the analyses of
whole programs that the load-time checks need (R112, R150, R182). -/
namespace Sys2Proof.Machine
open Sys2Proof

/-! Declarations (R209, R254, R274, R305, R407). -/

/-- A stream-table entry (R209). -/
def streamOfBits (c : BitVec 128) : StreamEntry :=
  { layer := fld c 0 0 16, source := fld c 0 16 1, dstOff := fld c 4 0 32, dueNs := fld c 8 0 32 }

/-- A prefix declaration (R254). -/
def prefixOfBits (c : BitVec 128) : PrefixDecl :=
  { plenMax := fld c 0 0 9, fmt := fld c 0 16 8, dKv := fld c 4 0 16, slots := fld c 4 16 16, budgetDie := fld c 8 0 32,
    gatherRate := fld c 12 0 16 }

/-- A KV declaration (R305). -/
def kvOfBits (c : BitVec 256) : KvDecl :=
  { cls := fld c 0 0 16, kvFmt := fld c 2 0 8, dKv := fld c 4 0 16, layers := fld c 6 0 16, ctxMax := fld c 8 0 32,
    joinTokMax := fld c 12 0 16, zeroMax := fld c 14 0 16, tokDieMax := fld c 16 0 32, mapOff := fld c 20 0 32,
    outExtra := fld c 24 0 16, kvSem := fld c 26 0 16 }

/-- A group declaration with its channels (R407). -/
def groupOfSrc (g : GroupSrc) : GroupDecl :=
  { voteNs := fld g.decl 0 0 32
    sizes := (List.range 5).map (fun i => fld g.decl (4 + 2 * i) 0 16)
    channels := g.channels.map (fun c => { ch := fld c.decl 0 0 7, axes := fld c.decl 1 0 5, commands := c.program }) }

/-- Does a channel command write its OUT_TENSOR (R409, R410, R432)? -/
def chanWrites (c : ChanCmd) : Bool := (c.opcode == 1 || c.opcode == 2) && c.redOp != 2 || c.opcode == 6

/-- The tensor entries that programs write (R71). -/
def writtenTensors (ps : ProgramSet) (g : Option GroupDecl) : List Nat :=
  let tile := (ps.tile.flatMap (·.2)).filterMap (fun c =>
    let t := TileCmd.ofBits c
    if (t.opcode = 1 ∨ t.opcode = 2) ∧ t.isPartial = false then some t.outTensor else none)
  let vec := (ps.vec.flatMap (·.2)).filterMap (fun c =>
    let v := VecCmd.ofBits c
    if [1, 3, 4, 5, 7, 8, 9, 0xA, 0xB].contains v.opcode && !(v.opcode == 9 && v.mode == 2) then some v.outTensor else none)
  let gather := (ps.gather.flatMap (·.2)).filterMap (fun c =>
    let v := GatherCmd.ofBits c
    if v.opcode = 3 ∨ v.opcode = 4 then some v.outTensor else none)
  let chan := (g.elim [] (fun d => d.channels.flatMap (·.commands))).filterMap (fun c =>
    let v := ChanCmd.ofBits c
    if chanWrites v then some v.outTensor else none)
  (tile ++ vec ++ gather ++ chan).dedup

/-- A serve class as loaded. -/
def classOfSrc (c : ClassSrc) : ServeClass :=
  let g := c.group.map groupOfSrc
  { wcet := c.wcet, kv := kvOfBits c.kv, pre := prefixOfBits c.pre, streams := c.programs.streams.map streamOfBits,
    programs := c.programs, tensors := writtenTensors c.programs g, group := g }

/-- A practice program as loaded (R274). -/
def programOfSrc (p : PracticeSrc) : Program :=
  let d := p.decl
  let g := p.group.map groupOfSrc
  { programId := fld d 0 0 16, lossMode := fld d 2 0 8, kWide := fld d 3 0 8, kNarrow := fld d 4 0 8, optMode := fld d 5 0 8,
    seqMax := fld d 6 0 16, tokMax := fld d 8 0 32, parts := fld d 12 0 32, teacher := fld d 16 0 64, layers := fld d 24 0 16,
    plen := fld d 26 0 9, dKv := fld d 28 0 16, fmt := fld d 30 0 8, maxAdapters := fld d 31 0 8
    segments := p.segments.map (fun x =>
      { wcet := x.1, streams := x.2.streams.map streamOfBits, programs := x.2, tensors := writtenTensors x.2 g })
    group := g }

/-- A schedule image as loaded. -/
def imageOfSrc (i : ImageSrc) : Image :=
  { imageId := i.imageId, digest := i.digest.toNat, unloading := false, unloadDid := none, layers := i.layers,
    classes := i.classes.map classOfSrc, programs := i.practice.map programOfSrc, tensors := i.tensors.map TensorEntry.ofBits }

/-! The places that programs reach (R87, R128, R265, R408, R624). -/

/-- Does a run of bytes lie wholly in a region? A run of no bytes lies where its address does. -/
def runIn (base size : Nat) (r : Nat × Nat) : Bool := decide (base ≤ r.1) && decide (r.1 + max r.2 1 ≤ base + size)

/-- SDn, and the buffer of a court. -/
def inSd (die : Nat) (r : Nat × Nat) : Bool := runIn (sdAddr die 0) sdBytes r
def inBuffer (court : Nat) (r : Nat × Nat) : Bool := runIn (courtBase + court * 0x40_0000) 0x40_0000 r

/-- Software-visible LPDDR5X (R623). -/
def inVisible (r : Nat × Nat) : Bool := runIn 0 0xEF_F800_0000 r

/-- The places of a court and its engines: its buffer, and its die's SRAM. -/
def courtPlace (court : Nat) (r : Nat × Nat) : Bool := inBuffer court r || inSd (court / 8) r

/-- Does a run in bonded SRAM touch the spill area of its die (R571)? -/
def touchesSpill (s : State) (r : Nat × Nat) : Bool :=
  decide (sramBase ≤ r.1) && overlaps s.spillArea ((r.1 - sramBase) % sdBytes, max r.2 1) && inSram r.1

/-- Does a run, as it is served, touch a fenced SRAM region (R502)? -/
def touchesFenced (s : State) (r : Nat × Nat) : Bool :=
  let a := s.place r.1
  inSram a && (List.range ((a + max r.2 1 - 1) / 0x400_0000 + 1 - a / 0x400_0000)).any (fun i => !s.sramOnline (a + i * 0x400_0000))

/-- May no buffer lie there: the spill area, and the fenced regions (R502, R571)? -/
def noPlace (s : State) (r : Nat × Nat) : Bool := touchesSpill s r || touchesFenced s r

/-- A run of rows. -/
def rowsRun (addr stride rows rowBytes : Nat) : Nat × Nat := (addr, spanBytes stride rows rowBytes)
/-- The run from the first of stored rows to the end of the last. -/
def Rows.span (r : Rows) : Nat × Nat := rowsRun r.addr r.stride r.rows r.bytes
/-- Do two sets of stored rows share a byte? The gaps between rows belong to none. -/
def Rows.meets (a b : Rows) : Bool := a.runs.any (fun x => b.runs.any (overlaps x))

/-- The operands of a tile command, as (stored rows, read through the crosswise port): A, B and the bias (R107, R103). -/
def tileOperands (c : TileCmd) : List (Rows × Bool) :=
  let line (addr stride : Nat) (f : Fmt) (x : Bool) (lines : Nat) : Rows :=
    if x then ⟨addr, stride, c.k, f.rowBytes lines⟩ else ⟨addr, stride, lines, f.rowBytes c.k⟩
  let bias := if c.biasEn && !c.isPartial then [(⟨c.biasAddr, 0, 1, c.n * (if c.biasFmt = 0 then 4 else 2)⟩, false)] else []
  [(line c.aAddr c.aStride c.fmtA c.aXpose c.m, c.aXpose), (line c.bAddr c.bStride c.fmtB c.bXpose c.n, c.bXpose)] ++ bias

/-- The stored rows of a tile command's output (R100). -/
def tileOutput (c : TileCmd) (t : TensorEntry) : Rows :=
  let f := if c.isPartial then Fmt.fp32 else t.fmt
  if c.orient = 1 then ⟨c.cAddr, c.cStride, c.n, f.rowBytes c.m⟩ else ⟨c.cAddr, c.cStride, c.m, f.rowBytes c.n⟩

/-- Does a tile command compute no tile, so that it reads and writes nothing (R126)? -/
def TileCmd.idle (c : TileCmd) : Bool := c.m == 0 || c.n == 0

/-- The format of a vector input. -/
def inputFmt (ts : List TensorEntry) (i : Nat) : Fmt := if i = 0xFFFF then .fp32 else (ts.getD i .plain).fmt

/-- The runs of bytes that a vector command names, in its opcode's fields (R132, R140 to R150, R167, R170, R173). -/
def vecRuns (ts : List TensorEntry) (c : VecCmd) : List (Nat × Nat) :=
  let rows (a : Nat) (f : Fmt) : Nat × Nat := rowsRun a c.stride c.rows (f.rowBytes c.cols)
  let x := rows c.xAddr (inputFmt ts c.xTensor)
  let y := rows c.yAddr (inputFmt ts c.yTensor)
  let z := rows c.zAddr (ts.getD c.outTensor .plain).fmt
  let mask := if c.maskEn then [(c.auxAddr, c.rows * (8 * ceilDiv c.cols 64))] else []
  let vector (a : Nat) : Nat × Nat := (a, 4 * c.cols)
  let state (a : Nat) : Nat × Nat := (a, stateBytes c.mode (c.rows * c.cols))
  match c.opcode with
  | 0x01 => [x, z] ++ (if ewBinary c.subop then [y] else []) ++ mask
  | 0x02 => [x, (c.zAddr, 4 * c.rows)] ++ mask
  | 0x03 => [x, z] ++ (if c.mode = 1 then [(c.yAddr, 8 * c.rows)] else []) ++ mask
  | 0x04 => [x, z, vector c.yAddr, vector c.auxAddr]
  | 0x05 => [x, z, vector c.yAddr]
  | 0x06 => [x, rowsRun c.zAddr c.stride c.rows (8 * c.k)] ++ (if c.biasSel then [vector c.yAddr] else [])
  | 0x07 =>
    let labels := if isZero32 c.scalar1 then c.yAddr else c.yAddr + c.rows * c.stride
    [x, z, (c.auxAddr, 4 * c.rows)] ++ mask ++ (if isZero32 c.scalar1 then [] else [y]) ++
      (if isZero32 c.scalar2 then [] else [(labels, 4 * c.rows)])
  | 0x08 => z :: (List.range (c.k + 1)).map (fun i => rows (c.xAddr + i * c.scalar0.toNat) .fp32) ++
      (if bitsOf c.mode 2 1 = 1 then [(c.auxAddr, c.cols * (if bitsOf c.scalar1.toNat 8 8 = 0 then 4 else 2))] else [])
  | 0x09 => [x, (c.auxAddr, 64)] ++ (if c.mode < 2 then [state c.yAddr, state c.zAddr] else [])
  | 0x0A => [x, y, z] ++ mask
  | 0x0B => [x, y, z, vector c.auxAddr]
  | _ => []

/-- The runs of bytes that a gather command names, as far as its fields fix them (R265 to R267). -/
def gatherRuns (ts : List TensorEntry) (c : GatherCmd) : List (Nat × Nat) :=
  let table := rowsRun c.src c.stride c.tableRows (c.fmt.rowBytes c.unit)
  let grads := rowsRun c.src c.stride c.count (c.fmt.rowBytes c.unit)
  let lists := [(c.list, 0), (c.offs, 4 * (c.count + 1))] ++ (if c.weighted then [(c.wgt, 0)] else [])
  match c.opcode with
  | 0x01 => [(c.src, 256 * c.count), (c.dst, 256 * c.count)]
  | 0x02 => [(c.src, 0), (c.dst, c.unit * c.count), (c.list, 4 * c.count)]
  | 0x03 => [table, (c.dst, c.count * (ts.getD c.outTensor .plain).fmt.rowBytes c.unit)] ++ lists
  | 0x04 => [grads, (c.dst, 4 * c.unit * c.tableRows)] ++ lists
  | _ => []

/-- The runs of bytes that a channel command names, in a subgroup of a size (R410, R412, R430, R432). -/
def chanRuns (ts : List TensorEntry) (size : Nat) (c : ChanCmd) : List (Nat × Nat) :=
  let word := decide (c.redOp = 2)
  let input := (c.src, if word && decide (c.opcode ≤ 2) then 4 * c.count else c.fmt.rowBytes c.count)
  let out := (c.dst, if word then 4 * c.count else (ts.getD c.outTensor .plain).fmt.rowBytes c.count)
  let rows (a n : Nat) : Nat × Nat := rowsRun a c.stride n c.rowLen
  let sel := (c.sel, 8 * c.count * c.k)
  match c.opcode with
  | 1 | 2 => [input, out, (c.recv, levels size * recvArea c)]
  | 3 => [input, (c.dst, c.fmt.rowBytes c.count)]
  | 4 => [input, (c.dst, size * gatherPart c)]
  | 5 => [rows c.src c.count, rows c.dst (c.perRank * c.cap), (c.recv, 2048 * size + 4 * c.perRank), sel]
  | 6 => [rows c.src (c.perRank * c.cap), rows c.recv (c.count * c.k), sel,
      rowsRun c.dst c.stride c.count ((ts.getD c.outTensor .plain).fmt.rowBytes c.rowElems)]
  | _ => []

/-! What WAIT and SIGNAL order (R110, R112, R182). -/

/-- The programs of a serve or segment that share its semaphores, in one list. -/
def allPrograms (ps : ProgramSet) (g : Option GroupDecl) : List (List Desc) :=
  ps.tile.map (·.2) ++ ps.vec.map (·.2) ++ ps.gather.map (·.2) ++ g.elim [] (fun d => d.channels.map (·.commands))

/-- How far every program has come, and the semaphores. -/
structure Reach where
  pos : List Nat
  sems : Tbl Nat

/-- One command of program `p`, where it can go on. SIGNALs that follow command `held.2` of program `held.1` do not fire;
the semaphores of `free` are raised from outside and hold nobody. -/
def reachOne (programs : List (List Desc)) (held : Nat × Nat) (free : List Nat) (r : Reach) (p : Nat) : Reach :=
  let i := r.pos.getD p 0
  let next : Reach := { r with pos := r.pos.set p (i + 1) }
  match (programs.getD p [])[i]? with
  | none => r
  | some c =>
    let sem := fld c 4 0 16
    let v := fld c 8 0 32
    if fld c 0 0 8 = 0x10 then
      if free.contains sem || decide (v ≤ Tbl.getD r.sems sem 0) then next else r
    else if fld c 0 0 8 = 0x11 then
      if p = held.1 ∧ held.2 < i then next else { next with sems := Tbl.set r.sems sem (Tbl.getD r.sems sem 0 + v) }
    else next

/-- How far the programs come while a command of one of them never completes. -/
def reachAll (programs : List (List Desc)) (held : Nat × Nat) (free : List Nat) : Nat → Reach → Reach
  | 0, r => r
  | n + 1, r => reachAll programs held free n ((List.range programs.length).foldl (reachOne programs held free) r)

/-- Does a WAIT order command `j` of program `q` after command `i` of program `p` has completed? -/
def orderedAfter (programs : List (List Desc)) (free : List Nat) (p i q j : Nat) : Bool :=
  let fuel := (programs.map List.length).sum + 1
  let r := reachAll programs (p, i) free fuel ⟨programs.map (fun _ => 0), []⟩
  decide (r.pos.getD q 0 ≤ j)

end Sys2Proof.Machine
end

