-- ==== Sys2Proof/Machine/WstOps.lean ====
section
/-! DEFINITION. The weight store as shared operations (chapter 6): what shards hold and where they lie, lost shards and
their fences, mirror fetches, image verification, and the writing and forwarding of shards. -/
namespace Sys2Proof.Machine
open Sys2Proof

/-! Shards (R191, R195, R196, R202). -/

/-- The shard that holds a tensor's last byte. -/
def LayoutEntry.lastShard (e : LayoutEntry) : Nat := (e.shardFirst * blockBytes + e.offset + e.bytes - 1) / blockBytes

/-- The used length of a shard (R196). -/
def usedLen (es : List LayoutEntry) (shard : Nat) : Nat :=
  ceilDiv (es.foldl (fun m e => max m (min blockBytes (e.shardFirst * blockBytes + e.offset + e.bytes - shard * blockBytes))) 0)
    256 * 256

/-- Where a bank's shard stands. -/
def State.shardPlace (s : State) (b shard : Nat) : Option ShardPlace := (s.bank b).place.find? (fun p => p.shard == shard)

/-- Is a bank's shard lost on this device, its block FENCED (R212)? -/
def State.shardGone (s : State) (b shard : Nat) : Bool :=
  (s.shardPlace b shard).elim true (fun p => s.blockCode (blockKey p.die p.bank p.block) != 0)

/-- The used bytes of a bank's shard. -/
def State.shardData (s : State) (b shard : Nat) : List Byte :=
  (s.shardPlace b shard).elim [] (fun p =>
    s.mem.cells.readBytes (blockAddr p.bank p.die p.block) (usedLen (entriesIn (s.bank b) shard) shard))

/-- The device address of a placed shard in the read window (R191). -/
def State.shardAddr (s : State) (b : Nat) (p : ShardPlace) : Nat :=
  blockAddr p.bank p.die (((logicalBlocks (s.bank b) p.die).filter (fun x => decide (x < p.block))).length)

/-- The shards of a layer on a die, in index order (R210). -/
def layerShards (r : BankRec) (layer die : Nat) : List Nat :=
  (List.range r.shards).filter (fun x => (entriesIn r x).any (fun e => e.layer == layer && e.die == die))

/-- The layer and die of a shard. -/
def shardLayer (r : BankRec) (shard : Nat) : Nat × Nat := ((entriesIn r shard).head?).elim (0, 0) (fun e => (e.layer, e.die))

/-- The state with the stream of the work on the array set. -/
def State.setStream (s : State) (t : StreamRun) : State := { s with wst := { s.wst with stream := some t } }

/-! Lost shards (R212 to R214). -/

/-- Does a stream table read a shard from the bank that a SOURCE names? -/
def streamReads (r : BankRec) (shard source : Nat) (es : List StreamEntry) : Bool :=
  es.any (fun e => e.source == source && (entriesIn r shard).any (fun t => t.layer == e.layer))

/-- The fences that a lost shard puts on loaded schedules (R214): classes and programs of the bank's own image, and
programs whose teacher it holds. -/
def fencesOf (s : State) (b shard : Nat) : List ScheduleFence :=
  let r := s.bank b
  s.ump.images.flatMap (fun p =>
    let own := p.2.imageId == r.imageId
    (p.2.classes.filter (fun k => own && streamReads r shard 0 k.streams)).map
        (fun k => ({ imgSlot := p.1, practice := false, number := k.kv.cls, bank := b, shard := shard, lifted := false } : ScheduleFence)) ++
      (p.2.programs.filter (fun g => g.segments.any (fun x =>
        (own && streamReads r shard 0 x.streams) || (g.teacher == r.imageId && streamReads r shard 1 x.streams)))).map
        (fun g => ({ imgSlot := p.1, practice := true, number := g.programId, bank := b, shard := shard, lifted := false } : ScheduleFence)))

/-- Is a piece of work on a fenced schedule? -/
def workFenced (fs : List ScheduleFence) (w : Work) : Bool :=
  fs.any (fun f => f.imgSlot == w.imgSlot && f.practice == w.practice && f.number == w.cls)

/-- A shard that can be neither read nor fetched (R214): every loaded schedule that reads it is fenced, the running work of
such a schedule is discarded, and WS_SHARD_LOST waits for the slot end (R219). -/
def State.fenceShard (s : State) (b shard : Nat) : State :=
  let same (f g : ScheduleFence) : Bool := { f with lifted := false } == { g with lifted := false }
  let fs := (fencesOf s b shard).filter (fun f => !s.wst.fences.any (same f))
  if fs.isEmpty then s
  else
    let hit := s.ump.work.filter (workFenced fs)
    let (layer, die) := shardLayer (s.bank b) shard
    let ev := eventRec 0x0051 (hit.elim 0 (·.ctx)) s.ts [(4, 0, 16, layer), (4, 16, 4, die), (4, 20, 1, b),
      (8, 0, 64, hit.elim 0 (·.stepNo)), (16, 0, 32, shard)]
    let s := s.later .operator ev false
    let s := { s with wst := { s.wst with fences := s.wst.fences ++ fs } }
    if hit.isSome then s.stopWork .shard else s

/-- MIRROR_FETCH_ISSUE (R213): a lost shard of a stream entry asked of the mirror peer. -/
def State.issueFetch (s : State) (b shard entry : Nat) : State :=
  let s := s.bump R.wstMirror
  let f : MirrorFetch := { bank := b, shard := shard, issued := s.ts, entry := entry, data := [] }
  let s := { s with wst := { s.wst with fetches := s.wst.fetches ++ [f] } }
  s.send 13 0x10 127 (s.regFld R.wstMirrorPeer 0 12) 0 (bytesOf 8 (s.bank b).imageId ++ bytesOf 4 shard)

/-- WST_CTL.MIRROR_EN. -/
def State.mirrorOn (s : State) : Bool := s.regFld R.wstCtl 4 1 == 1

/-- A shard that a stream entry needs and that is lost: fetched, or its schedules fenced (R213, R214). -/
def State.missShard (s : State) (b shard entry : Nat) : State :=
  if s.mirrorOn then s.issueFetch b shard entry else s.fenceShard b shard

/-- Do streams skip a lost shard, masking having lifted its fence (R214)? -/
def State.shardSkipped (s : State) (b shard : Nat) : Bool :=
  s.shardGone b shard && s.wst.fences.any (fun f => f.bank == b && f.shard == shard && f.lifted)

/-- The bank a stream entry reads (R209). -/
def StreamRun.bankOf (t : StreamRun) (e : StreamEntry) : Nat := if e.source = 1 then t.teacherBank else t.bank

/-- Where the part of each shard of a layer lands on a die, as (shard, offset in SDn) (R210). -/
def partPlaces (r : BankRec) (e : StreamEntry) (die : Nat) : List (Nat × Nat) :=
  ((layerShards r e.layer die).foldl (fun (acc : List (Nat × Nat) × Nat) x =>
    (acc.1 ++ [(x, acc.2)], acc.2 + usedLen (entriesIn r x) x)) ([], e.dstOff)).1

/-- The lost shards that an entry's streams do not skip. -/
def State.entryLost (s : State) (t : StreamRun) (e : StreamEntry) : List Nat :=
  let b := t.bankOf e
  ((List.range 16).flatMap (fun d => layerShards (s.bank b) e.layer d)).filter (fun x => s.shardGone b x && !s.shardSkipped b x)

/-! Verification (R192 to R198). -/

/-- SHA-384 as the leaf of a shard (R197). -/
def shardLeaf (data : List Byte) : Digest := sha384 (0 :: data)

/-- One level of the tree. -/
def hashLevel : List Digest → List Digest
  | a :: b :: t => sha384 (1 :: bytesOf 48 a.toNat ++ bytesOf 48 b.toNat) :: hashLevel t
  | l => l

/-- The root over leaves; `n` bounds the levels. -/
def hashRoot : Nat → List Digest → Digest
  | 0, l => l.headD 0
  | n + 1, l => if l.length ≤ 1 then l.headD 0 else hashRoot n (hashLevel l)

/-- A digest's 48 bytes. -/
def digestAt (m : Memory) (a : Nat) : Digest := BitVec.ofNat 384 (m.readNat a 48)

/-- SHARD_OFF of a header (R192). -/
def headerShardOff (m : Memory) : Nat := m.readNat 40 8

/-- Is an image header well formed (R192)? -/
def headerOk (m : Memory) : Bool :=
  let offs := [8, 16, 24, 32].map (fun a => m.readNat a 8)
  m.readNat 0 4 == 0x59545256 && m.readNat 4 4 == 1 && m.readNat 48 80 == 0 &&
    decide (headerShardOff m % blockBytes = 0) && offs.all (fun o => decide (o % 256 = 0) && decide (128 ≤ o) && decide (o < headerShardOff m))

/-- The layout entries of a preamble and whether their reserved bits are 0 (R195). -/
def layoutOf (m : Memory) (a n : Nat) : List LayoutEntry × Bool :=
  let one (i : Nat) : LayoutEntry × Bool :=
    let r (o k : Nat) : Nat := m.readNat (a + 32 * i + o) k
    (⟨r 0 4, r 4 2, r 6 2, r 8 1, bitsOf (r 8 4) 8 4, r 12 4, r 16 4, r 24 8⟩, bitsOf (r 8 4) 12 20 == 0 && r 20 4 == 0)
  let es := (List.range n).map one
  (es.map (·.1), es.all (·.2))

/-- One layout entry's ranges (R195, R225). -/
def layoutEntryOk (layers shards : Nat) (e : LayoutEntry) : Bool :=
  decide (e.layer < layers) && (decide (e.expert < 1024) || decide (e.expert = 0xFFFF)) && (Fmt.ofCode e.fmt).isSome &&
    decide (e.offset % 256 = 0) && decide (e.offset < blockBytes) && decide (e.bytes ≠ 0) && decide (e.lastShard < shards)

/-- The layout table's rules of R196. -/
def layoutOk (layers shards : Nat) (es : List LayoutEntry) : Bool :=
  let bytes (e : LayoutEntry) : Nat × Nat := (e.shardFirst * blockBytes + e.offset, e.bytes)
  let holds (x : Nat) : List LayoutEntry :=
    es.filter (fun e => decide (e.shardFirst ≤ x) && decide (x ≤ e.lastShard))
  es.all (layoutEntryOk layers shards) &&
    es.zipIdx.all (fun p => es.zipIdx.all (fun q => p.2 == q.2 || !overlaps (bytes p.1) (bytes q.1))) &&
    (List.range shards).all (fun x => match holds x with
      | [] => false
      | e :: t => t.all (fun u => u.die == e.die && u.layer == e.layer))

/-- Reasons of WST_LOAD_STATUS (R223). -/
def wsSigFail : Nat := 1
def wsTreeFail : Nat := 2
def wsFormat : Nat := 3
def wsNoSpace : Nat := 4
def wsSourceLost : Nat := 5
def wsAborted : Nat := 6
def wsBusyTarget : Nat := 7

/-- Steps 1 to 3 of R198 on a whole preamble: manifest, leaves and layout, or the reason of the failure. -/
def verifyPreamble (m : Memory) (owners : List Digest) : Except Nat (Manifest × List Digest × List LayoutEntry) :=
  let man := m.readNat 8 8
  let sig := m.readNat 16 8
  let r (o n : Nat) : Nat := m.readNat (man + o) n
  let g (o n : Nat) : List Byte := m.readBytes (sig + o) n
  let signed_ := m.readBytes man 256
  let owner := sha384 (g 0 436)
  let f : Manifest := { imageId := r 0 8, version := r 8 4, full := r 12 1 % 2 = 1, shards := r 16 4, layoutEntries := r 20 4,
                        layers := r 24 2, root := digestAt m (man + 32), layoutHash := digestAt m (man + 80),
                        shardOff := headerShardOff m }
  let leafOff := m.readNat 24 8
  let layOff := m.readNat 32 8
  if !headerOk m then .error wsFormat
  else if !(rsaVerify (g 0 384) (g 384 4) signed_ (g 436 384) && slhVerify (g 388 48) signed_ (g 820 16224) &&
      digestAt m (man + 128) == owner && owners.contains owner) then .error wsSigFail
  else if f.imageId = 0 ∨ f.shards = 0 ∨ (if f.full then 98304 else 49152) < f.shards ∨ f.layoutEntries = 0 ∨
      1048576 < f.layoutEntries ∨ f.layers = 0 ∨ 1024 < f.layers ∨ r 12 4 / 2 ≠ 0 ∨ r 26 6 ≠ 0 ∨ r 176 80 ≠ 0 ∨
      f.shardOff < leafOff + 48 * f.shards ∨ f.shardOff < layOff + 32 * f.layoutEntries then .error wsFormat
  else if sha384 (m.readBytes layOff (32 * f.layoutEntries)) ≠ f.layoutHash then .error wsTreeFail
  else
    let (es, zero) := layoutOf m layOff f.layoutEntries
    let leaves := (List.range f.shards).map (fun i => digestAt m (leafOff + 48 * i))
    if !zero || !layoutOk f.layers f.shards es then .error wsFormat
    else if hashRoot f.shards leaves ≠ f.root then .error wsTreeFail
    else .ok (f, leaves, es)

/-! A load's state (R199, R201, R203, R219, R223). -/

/-- WST_LOAD_STATUS set: state, reason and SHARDS_DONE. -/
def State.setLoadStatus (s : State) (st reason done : Nat) : State :=
  s.setReg R.wstLoadStatus (BitVec.ofNat 32 (st + 8 * reason + 2 ^ 15 * done))

/-- The state with a change of the running load. -/
def State.modLoad (s : State) (f : WsLoad → WsLoad) : State := { s with wst := { s.wst with load := s.wst.load.map f } }

/-- The banks a load writes. -/
def WsLoad.banks (l : WsLoad) : List Nat := if l.manifest.elim false (·.full) then [0, 1] else [l.target]

/-- The banks a load has taken: those it writes, and the other half of a full-mode image it replaces (R199). -/
def WsLoad.taken (l : WsLoad) : List Nat := if l.pair then [0, 1] else l.banks

/-- Is a bank half of a full-mode image that stands in both banks READY (R199)? -/
def State.readyPair (s : State) : Bool :=
  [s.bank 0, s.bank 1].all (fun r => decide (r.st = .ready) && r.full) && (s.bank 0).imageId == (s.bank 1).imageId

/-- WS_LOAD_DONE (R219). -/
def loadDone (s : State) (target reason : Nat) : State :=
  s.opEvent (eventRec 0x0052 0 s.ts [(4, 20, 1, target), (4, 21, 4, reason)])

/-- A load fails or is aborted: its banks are FAILED (R199). -/
def State.loadFails (s : State) (reason : Nat) : State :=
  match s.wst.load with
  | none => s
  | some l =>
    let s := l.taken.foldl (fun s b => s.setBank b { s.bank b with st := .failed }) s
    let s := s.setLoadStatus 3 reason (s.regFld R.wstLoadStatus 15 17)
    loadDone { s with wst := { s.wst with load := none } } l.target reason

/-- Does a loaded schedule image read a bank: it is bound to the bank's image, or names it as teacher (R201)? -/
def State.bankRead (s : State) (b : Nat) : Bool :=
  decide ((s.bank b).st = .ready) &&
    s.ump.images.any (fun p => p.2.imageId == (s.bank b).imageId || p.2.programs.any (fun g => g.teacher == (s.bank b).imageId))

/-- Is a bank no target for a load (R201)? -/
def State.bankBusy (s : State) (b : Nat) : Bool :=
  let st := (s.bank b).st
  decide (st = .active) || decide (st = .draining) || decide (st = .writing) || s.bankRead b

/-- A bank taken as target (R190, R199, R203): WRITING, one more write, FENCED blocks recoded BAD, and the fences of its
old image gone. -/
def State.takeTarget (s : State) (b : Nat) : State :=
  let r := s.bank b
  let s := s.setBank b { r with st := .writing, writes := min 65535 (r.writes + 1), place := [], layout := [] }
  { s with wst := { s.wst with
    blockMap := s.wst.blockMap.map (fun p => if p.1 % 8192 / 4096 = b ∧ p.2 = 2 then (p.1, 1) else p)
    fences := s.wst.fences.filter (fun f => f.bank != b)
    fetches := s.wst.fetches.filter (fun f => f.bank != b) } }

/-! Writing shards (R202). -/

/-- The die of a shard of the load. -/
def WsLoad.dieOf (l : WsLoad) (shard : Nat) : Nat :=
  (l.layout.find? (fun e => decide (e.shardFirst ≤ shard) && decide (shard ≤ e.lastShard))).elim 0 (·.die)

/-- The lowest GOOD block of a die not yet written in this load, bank 0 before bank 1 (R202). -/
def nextBlock (s : State) (l : WsLoad) (die : Nat) : Option (Nat × Nat) :=
  l.banks.findSome? (fun b =>
    ((List.range 3072).find? (fun p => s.blockCode (blockKey die b p) == 0 &&
      !l.place.any (fun q => q.die == die && q.bank == b && q.block == p))).map (fun p => (b, p)))

/-- GOOD blocks of a die in a load's banks. -/
def goodBlocks (s : State) (l : WsLoad) (die : Nat) : Nat :=
  (l.banks.map (fun b => ((List.range 3072).filter (fun p => s.blockCode (blockKey die b p) == 0)).length)).sum

/-- Is a shard the next of its die: have all its lower shards been written (R191, R202; assumption 223)? -/
def WsLoad.nextOf (l : WsLoad) (x : Nat) : Bool :=
  (List.range x).all (fun y => l.dieOf y != l.dieOf x || l.place.any (·.shard == y))

/-- A shard written to a block. -/
def State.putShard (s : State) (w : ShardWrite) (die : Nat) : State :=
  let a := blockAddr w.bank die w.block
  { s with mem := { s.mem with cells := (s.mem.cells.clear a blockBytes).writeBytes a w.data } }

/-- The waiting shard that is the next of its die goes to its block, so that a die's shards lie in increasing index whatever
order they arrive in (R191); without a GOOD block the load fails with NO_SPACE (R202). -/
def State.writeNext (s : State) : State :=
  match s.wst.load with
  | none => s
  | some l =>
    match l.writing, l.waiting.find? (fun p => l.nextOf p.1) with
    | none, some (x, data) =>
      match nextBlock s l (l.dieOf x) with
      | none => s.loadFails wsNoSpace
      | some (b, p) =>
        let w : ShardWrite := ⟨x, data, b, p, 0⟩
        (s.putShard w (l.dieOf x)).modLoad (fun l => { l with waiting := l.waiting.filter (fun p => p.1 != x), writing := some w })
    | _, _ => s

/-- A bank filled by a load: READY under the image's record (R199). -/
def fillBank (l : WsLoad) (f : Manifest) (s : State) (b : Nat) : State :=
  let notGood := (List.range 16).flatMap (fun d =>
    ((List.range 3072).filter (fun p => s.blockCode (blockKey d b p) != 0)).map (fun p => 4096 * d + p))
  let r : BankRec := { s.bank b with
    imageId := f.imageId, version := f.version, root := f.root, full := f.full, layers := f.layers, shards := f.shards,
    layout := l.layout, place := l.place, notGood := notGood }
  (s.setBank b r).bankBecomes b .ready r.epoch

/-! The pass chain (R205, R206). -/

/-- The ports of a set, in increasing number. -/
def portSet (v : Nat) : List Nat := (List.range 16).filter (fun p => bitAt v p)
/-- WST_CHAIN.IN_PORTS and OUT_PORTS. -/
def State.chainIn (s : State) : List Nat := portSet (s.regFld R.wstChain 0 16)
def State.chainOut (s : State) : List Nat := portSet (s.regFld R.wstChain 16 16)

/-- The SEQ that marks preamble bytes. DESIGN CHOICE. -/
def preambleSeq : Nat := 0xFFFFFFFF

/-- The rank that stands behind an output port: the lowest other rank routed there. DESIGN CHOICE. -/
def State.rankBehind (s : State) (p : Nat) : Option Nat :=
  (List.range 4096).find? (fun r => r != s.rank && s.route r == p)

/-- Bytes sent to a rank as LOAD_DATA packets of 4,096 bytes. -/
def State.sendLoad (s : State) (dst sq : Nat) (data : List Byte) : State :=
  (List.range (ceilDiv data.length 4096)).foldl (fun s i => s.send 15 0x20 127 dst sq ((data.drop (4096 * i)).take 4096)) s

/-- A shard forwarded and kept in the window of the 16 forwarded last (R206). -/
def State.forwardShard (s : State) (x : Nat) (data : List Byte) : State :=
  let out := s.chainOut
  let s := ((out[x % out.length]?).bind s.rankBehind).elim s (fun r => s.sendLoad r x data)
  let win := s.wst.window.filter (fun w => w.1 != x) ++ [(x, data)]
  let s := { s with wst := { s.wst with window := win.drop (win.length - 16) } }
  s.modLoad (fun l => { l with held := l.held.filter (fun h => h.1 != x), forwarded := l.forwarded ++ [x] })

/-- Shards that have passed are forwarded in increasing index, past those whose resend is outstanding (R205). -/
def State.forwardHeld (s : State) : State :=
  let one (s : State) (h : Nat × List Byte) : State :=
    match s.wst.load with
    | none => s
    | some l =>
      if (List.range h.1).all (fun i => l.forwarded.contains i || l.resends.contains i || (Tbl.get? l.needs i).isSome) then
        s.forwardShard h.1 h.2
      else s
  (s.wst.load.elim [] (fun l => l.held.insertionSort (fun a b => a.1 ≤ b.1))).foldl one s

/-! Arriving shards (R198 step 4, R206, R207). -/

/-- WS_NEED_SHARD (R207): the operator is asked to deliver a shard again. -/
def State.needShard (s : State) (x : Nat) : State :=
  match s.wst.load with
  | none => s
  | some l =>
    let s := s.modLoad (fun l => { l with needs := Tbl.set l.needs x (Tbl.getD l.needs x 0 + 1), resends := l.resends.filter (· != x) })
    s.opEvent (eventRec 0x0053 0 s.ts [(4, 16, 4, l.dieOf x), (4, 20, 1, l.target), (16, 0, 32, x)])

/-- RESEND for a shard sent to the predecessor (R206). -/
def State.askResend (s : State) (rank x : Nat) : State :=
  (s.modLoad (fun l => { l with resends := l.resends ++ [x] })).send 15 0x21 127 rank x []

/-- A shard whose hash is not its leaf (R206, R207). One that the predecessor sends while the operator is asked for it
changes nothing. -/
def State.shardFailed (s : State) (l : WsLoad) (x : Nat) (src : ShardFrom) : State :=
  match src with
  | .host => if 2 ≤ Tbl.getD l.needs x 0 then s.loadFails wsTreeFail else s.needShard x
  | .flash =>
    if l.reread.contains x then s.loadFails wsTreeFail
    else s.modLoad (fun l => { l with reread := l.reread ++ [x], nextA := l.manifest.elim 0 (·.shardOff) + x * blockBytes })
  | .peer r =>
    if (Tbl.get? l.needs x).isSome then s
    else if l.resends.contains x then s.needShard x else s.askResend r x

/-- SHARD_CHECK (R198): a whole shard is hashed against its leaf; passed, it is written and forwarded. Before the preamble
is verified it waits. -/
def State.shardArrives (s : State) (x : Nat) (data : List Byte) (src : ShardFrom) : State :=
  match s.wst.load with
  | none => s
  | some l =>
    match l.manifest with
    | none => s.modLoad (fun l => { l with unchecked := l.unchecked ++ [(x, data, src)] })
    | some f =>
      let known := l.place.any (·.shard == x) || l.waiting.any (·.1 == x) || l.writing.elim false (·.shard == x)
      if f.shards ≤ x || known then s
      else if shardLeaf data ≠ l.leaves.getD x 0 then s.shardFailed l x src
      else
        let s := s.modLoad (fun l => { l with
          needs := Tbl.erase l.needs x, resends := l.resends.filter (· != x), waiting := l.waiting ++ [(x, data)],
          held := if s.chainOut.isEmpty then [] else l.held ++ [(x, data)], progressTs := s.ts })
        s.writeNext.forwardHeld

/-- Bytes of a shard taken in; the shard is checked when it is whole. -/
def State.takePiece (s : State) (x : Nat) (data : List Byte) (src : ShardFrom) : State :=
  match s.wst.load with
  | none => s
  | some l =>
    let whole := Tbl.getD l.pieces x [] ++ data
    if whole.length < blockBytes then s.modLoad (fun l => { l with pieces := Tbl.set l.pieces x whole, progressTs := s.ts })
    else (s.modLoad (fun l => { l with pieces := Tbl.erase l.pieces x, progressTs := s.ts })).shardArrives x (whole.take blockBytes) src

/-- The header of a running load, once its 128 bytes are there: SHARD_OFF where it is well formed. -/
def WsLoad.shardOff (l : WsLoad) : Option Nat :=
  if 128 ≤ l.received ∧ headerOk l.preamble then some (headerShardOff l.preamble) else none

/-- Bytes taken in at an image offset, preamble and shards (R204). -/
def State.takeBytes (s : State) (off : Nat) (data : List Byte) (src : ShardFrom) : State :=
  match s.wst.load with
  | none => s
  | some l =>
    let seen : WsLoad := { l with preamble := l.preamble.writeBytes off data, received := off + data.length }
    let split := if l.shardOff.isSome then l.shardOff else seen.shardOff
    match split with
    | none => s.modLoad (fun _ => { seen with progressTs := s.ts })
    | some so =>
      let n := if off < so then min data.length (so - off) else 0
      let s := if n = 0 then s else s.modLoad (fun l =>
        { l with preamble := l.preamble.writeBytes off (data.take n), received := off + n, progressTs := s.ts })
      let rest := data.drop n
      let pos := off + n - so
      if rest.isEmpty then s
      else (List.range ((pos + rest.length - 1) / blockBytes + 1 - pos / blockBytes)).foldl (fun s i =>
        let x := pos / blockBytes + i
        let lo := x * blockBytes - pos
        let hi := (x + 1) * blockBytes - pos
        s.takePiece x ((rest.take hi).drop lo) src) s

end Sys2Proof.Machine
end

