-- ==== Sys2Proof/Machine/LoadCheck.lean ====
section
/-! DEFINITION. The load-time checks of a schedule image (R465) that its contents can decide. What is known only while a
program runs, and what the spec leaves to Chiwick, is not checked here. -/
namespace Sys2Proof.Machine
open Sys2Proof

/-! Tensor entries (R38, R59, R71, R162). -/

/-- Every channel command of an image. -/
def allChannelCommands (i : Image) : List ChanCmd :=
  let of (g : Option GroupDecl) : List ChanCmd := g.elim [] (fun d => (d.channels.flatMap (·.commands)).map ChanCmd.ofBits)
  i.classes.flatMap (fun k => of k.group) ++ i.programs.flatMap (fun p => of p.group)

/-- Reserved bits of a tensor entry (R70). -/
def tensorReserved (c : BitVec 128) : Nat := fld c 4 12 4 + fld c 8 10 6 + fld c 8 24 8 + fld c 12 0 32

/-- Is entry `n` the OUT_TENSOR of a WIRE 2 command that names its slot (R71)? -/
def agreedEntry (cs : List ChanCmd) (n : Nat) (t : TensorEntry) : Bool :=
  cs.any (fun c => decide (1 ≤ c.opcode ∧ c.opcode ≤ 4 ∧ c.wire = 2) && c.outTensor == n && c.oscSlot == t.oscSlot)

/-- One tensor entry. -/
def tensorOk (cs : List ChanCmd) (c : BitVec 128) (n : Nat) : Bool :=
  let t := TensorEntry.ofBits c
  tensorReserved c == 0 && (Fmt.ofCode t.fmtCode).isSome && t.rnd == t.grad &&
    (!t.grad || [0x00, 0x01, 0x11].contains t.fmtCode) && decide (t.initExp ≠ -128) &&
    (!t.oscEn || t.fmtCode == 0x03 || t.fmtCode == 0x04 || agreedEntry cs n t)

/-- SAT_FRAC is not 0 in at most 4,096 entries of a serve or segment (R71). -/
def satOk (ts : List TensorEntry) (written : List Nat) : Bool :=
  decide ((written.filter (fun i => decide ((ts.getD i .plain).satFrac ≠ 0))).length ≤ 4096)

/-! Commands (R109 to R114, R131 to R150, R162, R173, R174, R264 to R267, R357, R408, R409, R440). -/

/-- WAIT, SIGNAL and END. -/
def syncOk (c : Desc) : Bool :=
  let op := fld c 0 0 8
  (op == 0x10 || op == 0x11 || op == 0x1F) && syncClean c (op == 0x1F) && decide (fld c 4 0 16 ≤ 1023)

/-- A tensor entry that a field names; 0xFFFF names none. -/
def namesInput (ts : List TensorEntry) (i : Nat) : Bool := i == 0xFFFF || decide (i < ts.length)

/-- One MMA or MMA_PAIR command of a court. -/
def mmaOk (s : State) (ts : List TensorEntry) (court : Nat) (c : TileCmd) : Bool :=
  let t := ts.getD c.outTensor .plain
  let runs := (tileOperands c).flatMap (·.1.runs) ++ (tileOutput c t).runs
  c.checkMma t && (c.isPartial || decide (c.outTensor < ts.length)) && namesInput ts c.aTensor && namesInput ts c.bTensor &&
    (tileOperands c).all (fun p => inSd (court / 8) p.1.span || (!p.2 && inBuffer court p.1.span)) &&
    courtPlace court (tileOutput c t).span && !runs.any (noPlace s)

/-- MMA_PAIR is followed by an MMA with the same tile grid (R114). -/
def pairsOk : List Desc → Bool
  | [] => true
  | c :: rest =>
    let a := TileCmd.ofBits c
    let b := TileCmd.ofBits (rest.headD 0)
    (a.opcode != 2 || (!rest.isEmpty && b.opcode == 1 && a.gridRows == b.gridRows && a.gridCols == b.gridCols)) && pairsOk rest

/-- The tile program of a court. -/
def tileOk (s : State) (ts : List TensorEntry) (court : Nat) (p : List Desc) : Bool :=
  decide (court < 128) && pairsOk p && p.all (fun c =>
    if fld c 0 0 8 = 1 ∨ fld c 0 0 8 = 2 then mmaOk s ts court (TileCmd.ofBits c) else syncOk c)

/-- The vector command's gradient rules beside those of its own check (R162, R165, R173). -/
def gradOk (ts : List TensorEntry) (c : VecCmd) : Bool :=
  let grad (i : Nat) : Bool := i != 0xFFFF && (ts.getD i .plain).grad
  match c.opcode with
  | 0x01 => c.subop != 1 || !(grad c.xTensor || grad c.yTensor) || grad c.outTensor
  | 0x09 => [0x00, 0x01, 0x11].contains (inputFmt ts c.xTensor).code
  | _ => true

/-- R174 as far as the command shows it: state in, state out, gradient and update record are apart. -/
def optApart (ts : List TensorEntry) (c : VecCmd) : Bool :=
  if c.opcode ≠ 9 ∨ 2 ≤ c.mode then true
  else
    let n := stateBytes c.mode (c.rows * c.cols)
    let a := (c.yAddr, n)
    let b := (c.zAddr, n)
    let rest := [rowsRun c.xAddr c.stride c.rows ((inputFmt ts c.xTensor).rowBytes c.cols), (c.auxAddr, 64)]
    c.rows == 0 || (!overlaps a b && rest.all (fun r => !overlaps a r && !overlaps b r))

/-- R174 on the working copy that an image declares for an OPT: in the engine's places, and so outside the weight-store window,
and apart from both state regions. -/
def workingOk (ts : List TensorEntry) (court : Nat) (working : List (Nat × Nat)) (c : VecCmd) : Bool :=
  if c.opcode ≠ 9 ∨ 2 ≤ c.mode then true
  else
    match working.find? (fun x => x.1 == c.auxAddr) with
    | none => true
    | some x =>
      let wc : Rows := ⟨x.2, c.stride, c.rows, (ts.getD c.outTensor .plain).fmt.rowBytes c.cols⟩
      let state (a : Nat) : Rows := ⟨a, 0, 1, stateBytes c.mode (c.rows * c.cols)⟩
      courtPlace court wc.span && !wc.meets (state c.yAddr) && !wc.meets (state c.zAddr)

/-- The vector program of an engine. -/
def vecOk (s : State) (ts : List TensorEntry) (working : List (Nat × Nat)) (engine : Nat) (p : List Desc) : Bool :=
  decide (engine < 256) && p.all (fun d =>
    let c := VecCmd.ofBits d
    if 1 ≤ c.opcode ∧ c.opcode ≤ 0x0B then
      c.check (ts.getD c.outTensor .plain) && (c.opcode == 2 || c.opcode == 6 || decide (c.outTensor < ts.length)) &&
        namesInput ts c.xTensor && namesInput ts c.yTensor && gradOk ts c && optApart ts c &&
        workingOk ts (engine / 2) working c &&
        (vecRuns ts c).all (fun r => courtPlace (engine / 2) r && !noPlace s r)
    else syncOk d)

/-- The gather program of an engine. -/
def gatherOk (s : State) (ts : List TensorEntry) (engine : Nat) (p : List Desc) : Bool :=
  decide (engine < 32) && p.all (fun d =>
    let c := GatherCmd.ofBits d
    let bag := decide (c.opcode = 3 ∨ c.opcode = 4)
    let out := ts.getD c.outTensor .plain
    let rowsRead := if c.opcode = 3 then c.tableRows else c.count
    if 1 ≤ c.opcode ∧ c.opcode ≤ 4 then
      c.reservedBits == 0 && (Fmt.ofCode c.fmtCode).any (fun f => !bag || f == .fp32 || f != .int32) &&
        (c.opcode != 2 || (c.unit % 256 == 0 && c.unit != 0)) &&
        (!bag || (decide (c.mode ≤ 2) && !(c.weighted && c.mode == 2) && decide (1 ≤ c.unit ∧ c.unit ≤ 16384) && c.stride % 8 == 0 &&
          (c.stride != 0 || decide (rowsRead ≤ 1)) && decide (c.outTensor < ts.length))) &&
        (c.opcode != 3 || (Fmt.ofCode out.fmtCode).any Fmt.output) &&
        (c.opcode != 4 || (c.mode != 2 && out.grad && out.fmtCode == 0)) &&
        (gatherRuns ts c).all (fun r => inVisible r || (inSd (engine / 2) r && !noPlace s r))
    else syncOk d)

/-- One sending command of a channel: its ranges, and the places of its bound engine (R408, R409, R429, R440). -/
def chanOk (s : State) (ts : List TensorEntry) (size voteNs ch : Nat) (c : ChanCmd) : Bool :=
  let court := chanEngine ch / 2
  let fast := decide (64 ≤ ch)
  let rows := c.opcode == 5 || c.opcode == 6
  let moved := if c.opcode = 5 then (if c.count = 0 then 0 else c.perRank * c.cap) else c.count * c.k
  let out := ts.getD c.outTensor .plain
  c.reservedBits == 0 && fast == rows && decide (c.redOp ≤ 2) && decide (c.wire ≤ 2) && (c.redOp != 2 || c.wire == 0) &&
    (decide (c.redOp = 2) || (Fmt.ofCode c.fmtCode).isSome) && decide (c.dueNs ≤ voteNs) && namesInput ts c.inTensor &&
    (if c.wire = 2 then decide (c.oscSlot ≤ 1023) else c.oscSlot == 0xFFFF) &&
    (!chanWrites c || (decide (c.outTensor < ts.length) && (Fmt.ofCode out.fmtCode).any Fmt.output)) &&
    (!chanWrites c || c.inTensor == 0xFFFF || !(ts.getD c.inTensor .plain).grad || out.grad) &&
    (!rows || (decide (c.count ≤ 65535) && decide (1 ≤ c.rowElems ∧ c.rowElems ≤ 16384) && decide (1 ≤ c.k ∧ c.k ≤ 16) &&
      decide (1 ≤ c.perRank) && decide (1 ≤ c.cap) && c.stride % 8 == 0 && (c.stride != 0 || decide (moved ≤ 1)) &&
      decide (expertCount size c ≤ 1024))) &&
    (chanRuns ts size c).all (fun r => courtPlace court r && !noPlace s r)

/-- A group declaration (R407, R408, R440), for work of the declared WCETs. -/
def groupOk (s : State) (ts : List TensorEntry) (g : GroupSrc) (wcets : List Nat) : Bool :=
  let d := groupOfSrc g
  let n := groupSize s
  let sends (c : Desc) : Bool := decide (1 ≤ fld c 0 0 8 ∧ fld c 0 0 8 ≤ 6)
  let busy := d.channels.any (fun c => c.commands.any (fun x => sends x && decide (fld x 4 0 32 ≠ 0)))
  fld g.decl 15 0 136 == 0 && fld g.decl 14 0 8 == g.channels.length && decide (1 ≤ g.channels.length) &&
    d.sizes == groupShape s && decide ((d.channels.map (·.ch)).Nodup) && (d.voteNs != 0 || !busy) &&
    wcets.all (fun w => decide (d.voteNs + 8000 * levels n ≤ w)) && decide ((agreedSlots d).length ≤ 8) &&
    g.channels.all (fun c =>
      let ch := fld c.decl 0 0 7
      fld c.decl 0 7 1 == 0 && fld c.decl 1 5 3 == 0 && fld c.decl 2 0 16 == 0 && fld c.decl 12 0 32 == 0 &&
        fld c.decl 8 0 32 == c.program.length && decide (ch ≤ 67 ∧ ch ≠ 63) && decide (fld c.decl 1 0 5 ≠ 0) &&
        (decide (ch < 64) || fld c.decl 1 0 5 == 8) &&
        c.program.all (fun x => if sends x then chanOk s ts (subSize s (fld c.decl 1 0 5)) d.voteNs ch (ChanCmd.ofBits x) else syncOk x))

/-! Whole programs (R112, R150, R182). -/

/-- The tile programs write no location that an earlier command of theirs reads, unless a WAIT orders the write (R112). A
command that computes no tile reads and writes nothing (R126). -/
def operandsKept (ts : List TensorEntry) (progs : List (List Desc)) (free : List Nat) (tiles : Nat) : Bool :=
  (List.range tiles).all (fun p =>
    let prog := progs.getD p []
    let mma := (prog.zipIdx).filter (fun x => (fld x.1 0 0 8 == 1 || fld x.1 0 0 8 == 2) && !(TileCmd.ofBits x.1).idle)
    mma.all (fun a => mma.all (fun b =>
      let out := tileOutput (TileCmd.ofBits b.1) (ts.getD (TileCmd.ofBits b.1).outTensor .plain)
      decide (b.2 ≤ a.2) || !(tileOperands (TileCmd.ofBits a.1)).any (fun r => r.1.meets out) ||
        orderedAfter progs free p a.2 p b.2)))

/-- Do runs of bytes cover one run between them? `n` bounds the steps. -/
def covered (runs : List (Nat × Nat)) : Nat → Nat × Nat → Bool
  | 0, r => r.2 == 0
  | n + 1, r =>
    r.2 == 0 || (match runs.find? (fun x => decide (x.1 ≤ r.1) && decide (r.1 < x.1 + x.2)) with
      | none => false
      | some x => covered runs n (x.1 + x.2, r.1 + r.2 - (x.1 + x.2)))

/-- The commands with PARTIAL = 1 of a program set. -/
def partialCommands (ps : ProgramSet) : List TileCmd :=
  ((ps.tile.flatMap (·.2)).map TileCmd.ofBits).filter (fun t => (t.opcode == 1 || t.opcode == 2) && t.isPartial)

/-- The rows of partial `i` that a COMBINE reads (R150). -/
def combineRows (c : VecCmd) (i : Nat) : Rows := ⟨c.xAddr + i * c.scalar0.toNat, c.stride, c.rows, 4 * c.cols⟩

/-- The rows of every partial that a COMBINE reads are written by commands with PARTIAL = 1 and its SPLIT_IDX (R150). -/
def partialsOk (ps : ProgramSet) : Bool :=
  let drains := partialCommands ps
  (ps.vec.flatMap (·.2)).all (fun d =>
    let c := VecCmd.ofBits d
    c.opcode != 8 || (List.range (c.k + 1)).all (fun i =>
      let written := (drains.filter (·.splitIdx == i)).flatMap (fun t => (tileOutput t .plain).runs)
      (combineRows c i).runs.all (covered written (written.length + 1))))

/-! Gradients (R162, R165, R166). -/

/-- Is a tile command a gradient product: does it name a GRAD tensor as A or B, as dX and dW do (R157, R158)? -/
def gradProduct (ts : List TensorEntry) (t : TileCmd) : Bool :=
  let grad (i : Nat) : Bool := i != 0xFFFF && (ts.getD i .plain).grad
  (t.opcode == 1 || t.opcode == 2) && (grad t.aTensor || grad t.bTensor)

/-- The outputs of gradient products, of COMBINE on their partials, and of additions to which one of their partials is an
input have GRAD = 1 (R162). -/
def gradsOk (ts : List TensorEntry) (ps : ProgramSet) : Bool :=
  let products := ((ps.tile.flatMap (·.2)).map TileCmd.ofBits).filter (gradProduct ts)
  let parts := (products.filter (·.isPartial)).map (fun t => tileOutput t .plain)
  let fromPart (a : Nat) (c : VecCmd) : Bool := parts.any (fun r => r.meets ⟨a, c.stride, c.rows, 4 * c.cols⟩)
  let out (i : Nat) : Bool := (ts.getD i .plain).grad
  products.all (fun t => t.isPartial || out t.outTensor) &&
    (ps.vec.flatMap (·.2)).all (fun d =>
      let c := VecCmd.ofBits d
      if c.opcode = 8 then out c.outTensor || !(List.range (c.k + 1)).any (fun i => fromPart (c.xAddr + i * c.scalar0.toNat) c)
      else if c.opcode = 1 ∧ c.subop = 1 then
        out c.outTensor || !((c.xTensor == 0xFFFF && fromPart c.xAddr c) || (c.yTensor == 0xFFFF && fromPart c.yAddr c))
      else true)

/-- The parts of logical tensors that a program set's tile and vector commands write, as (entry, row, column). -/
def partsWritten (ps : ProgramSet) : List (Nat × Nat × Nat) :=
  let part (tensor addr : Nat) : Nat × Nat × Nat := let p := partOf ps.parts tensor addr 0; (tensor, p.row, p.col)
  let tile := ((ps.tile.flatMap (·.2)).map TileCmd.ofBits).filterMap (fun t =>
    if (t.opcode = 1 ∨ t.opcode = 2) ∧ t.isPartial = false then some (part t.outTensor t.cAddr) else none)
  let vec := ((ps.vec.flatMap (·.2)).map VecCmd.ofBits).filterMap (fun c =>
    if [1, 3, 4, 5, 8].contains c.opcode then some (part c.outTensor c.zAddr) else none)
  tile ++ vec

/-- No tensor with an outer scale that one segment writes is written again by a later segment, which would recompute it:
the same part of the same entry, gradients apart (R166). -/
def recomputedOk (ts : List TensorEntry) : List ProgramSet → Bool
  | [] => true
  | ps :: rest =>
    (partsWritten ps).all (fun p =>
      let t := ts.getD p.1 .plain
      !t.oscEn || t.grad || rest.all (fun q => !(partsWritten q).contains p)) && recomputedOk ts rest

/-- Vector commands as (program, place, command), the vector programs standing after `first` others. -/
def vecPlaces (ps : ProgramSet) (first : Nat) : List (Nat × Nat × VecCmd) :=
  (ps.vec.zipIdx).flatMap (fun p => (p.1.2.zipIdx).map (fun c => (first + p.2, c.2, VecCmd.ofBits c.1)))

/-- A group's clear, SCANs and OPT lie in one segment, in that order (R182). -/
def optOrdered (ps : ProgramSet) (progs : List (List Desc)) (free : List Nat) : Bool :=
  let cs := vecPlaces ps ps.tile.length
  let before (a b : Nat × Nat × VecCmd) : Bool :=
    if a.1 = b.1 then decide (a.2.1 < b.2.1) else orderedAfter progs free a.1 a.2.1 b.1 b.2.1
  let opts := cs.filter (fun x => x.2.2.opcode == 9 && decide (x.2.2.mode < 2))
  let scans := cs.filter (fun x => x.2.2.opcode == 9 && x.2.2.mode == 2)
  let clears (aux : Nat) : List (Nat × Nat × VecCmd) := cs.filter (fun x =>
    x.2.2.opcode == 1 && x.2.2.subop == 0 && overlaps (x.2.2.zAddr, spanBytes x.2.2.stride x.2.2.rows (4 * x.2.2.cols)) (aux + 20, 4))
  scans.all (fun x => opts.any (fun o => o.2.2.auxAddr == x.2.2.auxAddr)) &&
    opts.all (fun o =>
      let mine := scans.filter (fun x => x.2.2.auxAddr == o.2.2.auxAddr)
      !mine.isEmpty && mine.all (fun x => before x o && (clears o.2.2.auxAddr).any (fun c => before c x)))

/-- The programs of one serve or segment; `free` are the semaphores that a Locker raises (R321). -/
def programsOk (s : State) (ts : List TensorEntry) (ps : ProgramSet) (g : Option GroupDecl) (free written : List Nat) : Bool :=
  let progs := allPrograms ps g
  ps.tile.all (fun p => tileOk s ts p.1 p.2) && decide ((ps.tile.map (·.1)).Nodup) &&
    ps.vec.all (fun p => vecOk s ts ps.working p.1 p.2) && decide ((ps.vec.map (·.1)).Nodup) &&
    ps.gather.all (fun p => gatherOk s ts p.1 p.2) && decide ((ps.gather.map (·.1)).Nodup) &&
    operandsKept ts progs free ps.tile.length && partialsOk ps && gradsOk ts ps &&
    optOrdered ps progs free && satOk ts written

/-! Stream tables (R209, R210). -/

/-- The bank that holds an image. -/
def bankHolding (s : State) (id : Nat) : Option BankRec :=
  ([s.wst.bank0, s.wst.bank1].find? (fun b => b.imageId == id &&
    (b.st == .ready || b.st == .active || b.st == .draining)))

/-- Bytes that an entry brings to a die, and how far they reach in SDn. -/
def entryBytes (b : Option BankRec) (e : StreamEntry) (die : Nat) : Nat :=
  b.elim 0 (fun r => ((layerShards r e.layer die).map (fun x => usedLen (entriesIn r x) x)).sum)
def entryReach (b : Option BankRec) (e : StreamEntry) (die : Nat) : Nat :=
  b.elim 0 (fun r => ((partPlaces r e die).map (fun p => ceilDiv (p.2 + usedLen (entriesIn r p.1) p.1 - e.dstOff) 256 * 256)).foldl max 0)

/-- The most bytes that an entry brings to one die. -/
def entryLargest (b : Option BankRec) (e : StreamEntry) : Nat := ((List.range 16).map (entryBytes b e)).foldl max 0

/-- A stream table: its fields, its places, the time its entries have (1.2 TB/s is 1,200 bytes in a nanosecond), and
consecutive destinations apart (R210, R225). The bytes are those of the bank that holds the image. Only a practice program
that names a teacher reads one, with SOURCE 1 (R200; assumption 225). -/
def streamsOk (s : State) (imageId teacher layers : Nat) (raw : List (BitVec 128)) : Bool :=
  let bank (e : StreamEntry) : Option BankRec := bankHolding s (if e.source = 1 then teacher else imageId)
  let es := raw.map streamOfBits
  let dest (e : StreamEntry) (d : Nat) : Nat × Nat := (e.dstOff, entryReach (bank e) e d)
  es.all (fun e => e.source == 0 || teacher != 0) && raw.all (fun c => fld c 0 17 15 == 0 && fld c 12 0 32 == 0) &&
    es.all (fun e => e.dstOff % 256 == 0 && (e.source == 1 || decide (e.layer < layers)) &&
      (List.range 16).all (fun d => decide (e.dstOff + (dest e d).2 ≤ sdBytes) && !overlaps (dest e d) s.spillArea &&
        !touchesFenced s (sdAddr d (dest e d).1, (dest e d).2))) &&
    (List.range es.length).all (fun i =>
      decide ((((es.take (i + 1)).map (fun e => entryLargest (bank e) e)).sum) ≤ 1200 * ((es[i]?).elim 0 (·.dueNs)))) &&
    (es.zip es.tail).all (fun p => (List.range 16).all (fun d => !overlaps (dest p.1 d) (dest p.2 d)))

/-- Every destination of a stream table, on any die, with the banks that hold the image and the teacher. -/
def streamDests (s : State) (imageId teacher : Nat) (es : List StreamEntry) : List (Nat × Nat) :=
  es.flatMap (fun e => (List.range 16).map (fun d =>
    (e.dstOff, entryReach (bankHolding s (if e.source = 1 then teacher else imageId)) e d)))

/-- Every destination of an image's stream tables: of its classes and of its practice segments. -/
def imageDests (s : State) (i : Image) : List (Nat × Nat) :=
  i.classes.flatMap (fun k => streamDests s i.imageId 0 k.streams) ++
    i.programs.flatMap (fun p => p.segments.flatMap (fun x => streamDests s i.imageId p.teacher x.streams))

/-! Serve classes (R254, R255, R305, R306, R339, R357, R571). -/

/-- The prefix declaration of a class. -/
def prefixOk (s : State) (raw : BitVec 128) (p : PrefixDecl) : Bool :=
  fld raw 0 9 7 == 0 && fld raw 0 24 8 == 0 && fld raw 12 16 16 == 0 && decide (1 ≤ p.slots ∧ p.slots ≤ 4096) &&
    decide (p.plenMax ≤ 256) &&
    (p.plenMax == 0 || ((p.fmt == 0x01 || p.fmt == 0x10) && p.dKv % 32 == 0 && decide (32 ≤ p.dKv ∧ p.dKv ≤ 16384) &&
      p.budgetDie % 256 == 0 && decide (1 ≤ p.gatherRate ∧ p.gatherRate ≤ 150) && decide (dugoutNeed p ≤ s.dugout.2)))

/-- The KV declaration of a class. -/
def kvDeclOk (s : State) (raw : BitVec 256) (layers : Nat) (k : ServeClass) : Bool :=
  let v := k.kv
  let map := (v.mapOff, kvMapBytes k)
  fld raw 3 0 8 == 0 && fld raw 28 0 32 == 0 && (v.kvFmt == 0x01 || v.kvFmt == 0x10) && v.layers == layers &&
    (k.pre.plenMax == 0 || v.dKv == k.pre.dKv) && v.ctxMax % 64 == 0 && decide (64 ≤ v.ctxMax ∧ v.ctxMax ≤ 262144) &&
    decide (1 ≤ v.joinTokMax ∧ v.joinTokMax ≤ v.ctxMax) && decide (1 ≤ v.zeroMax) && decide (1 ≤ v.tokDieMax) &&
    decide (64 * k.pre.slots ≤ v.tokDieMax) && v.mapOff % 256 == 0 && v.outExtra % 16 == 0 && decide (v.outExtra ≤ 4096) &&
    decide (v.kvSem ≤ 1022) && decide (s.kvShape = (v.kvFmt, v.dKv, v.layers)) && decide (0 < v.layers ∧ 0 < v.dKv) &&
    decide (map.1 + map.2 ≤ sdBytes) && !overlaps map s.dugout && !overlaps map s.spillArea &&
    (List.range 16).all (fun d => !touchesFenced s (sdAddr d map.1, map.2))

/-- A serve class. -/
def classOk (s : State) (i : Image) (src : ClassSrc) : Bool :=
  let k := classOfSrc src
  prefixOk s src.pre k.pre && kvDeclOk s src.kv i.layers k && decide (k.wcet ≤ 50000000) &&
    streamsOk s i.imageId 0 i.layers src.programs.streams &&
    !(imageDests s i).any (overlaps (k.kv.mapOff, kvMapBytes k)) &&
    src.group.all (fun g => groupOk s i.tensors g [k.wcet]) &&
    programsOk s i.tensors src.programs k.group [k.kv.kvSem, k.kv.kvSem + 1] k.tensors

/-! Practice programs (R274, R275). -/

/-- The ranges of a declaration. -/
def practiceDeclOk (raw : BitVec 256) (layers : Nat) (p : Program) : Bool :=
  let wide := decide (p.lossMode = 0 ∨ p.lossMode = 3)
  let taught := decide (p.lossMode = 1 ∨ p.lossMode = 4)
  let n := p.layers * 2 * p.plen * p.dKv
  fld raw 26 9 7 == 0 && decide (p.lossMode ≤ 4) && (if wide then decide (2 ≤ p.kWide ∧ p.kWide ≤ 16) else p.kWide == 0) &&
    decide (1 ≤ p.kNarrow ∧ p.kNarrow ≤ 16) && (!wide || decide (p.kNarrow < p.kWide)) && decide (p.optMode ≤ 1) &&
    decide (1 ≤ p.seqMax ∧ p.seqMax ≤ 4096) && decide (1 ≤ p.tokMax ∧ p.tokMax ≤ 131072) &&
    decide (1 ≤ p.parts ∧ p.parts ≤ 4096) && (taught == decide (p.teacher ≠ 0)) && p.layers == layers && decide (0 < layers) &&
    decide (1 ≤ p.plen ∧ p.plen ≤ 256) && p.dKv % 32 == 0 && decide (32 ≤ p.dKv ∧ p.dKv ≤ 16384) &&
    (p.fmt == 0x01 || p.fmt == 0x10) && decide (1 ≤ p.maxAdapters) && n % 32 == 0 && n / 32 % p.parts == 0

/-- The bindings of a program set: runs of software-visible LPDDR5X apart from each other, and no gather command reaches into
one from outside (assumption 220). -/
def bindsOk (ts : List TensorEntry) (ps : ProgramSet) : Bool :=
  let run (b : Binding) : Nat × Nat := (b.base, b.bytes)
  ps.binds.all (fun b => inVisible (run b)) &&
    (ps.binds.zipIdx).all (fun b => (ps.binds.zipIdx).all (fun d => b.2 == d.2 || !overlaps (run b.1) (run d.1))) &&
    (ps.gather.flatMap (·.2)).all (fun d =>
      !(decide (1 ≤ fld d 0 0 8) && decide (fld d 0 0 8 ≤ 4)) || (gatherRuns ts (GatherCmd.ofBits d)).all (fun r =>
        ps.binds.all (fun b => !overlaps r (run b) || runIn b.base b.bytes r)))

/-- The COPY commands of a program set. -/
def copies (ps : ProgramSet) : List GatherCmd := ((ps.gather.flatMap (·.2)).map GatherCmd.ofBits).filter (·.opcode == 1)

/-- Does an address of a gather command stand for an item (assumption 220)? -/
def standsFor (ps : ProgramSet) (a : Nat) (item : BoundItem → Bool) : Bool :=
  ps.binds.any (fun b => inRange (b.base, b.bytes) a && item b.item)

/-- An OPT's update record is copied from the record of a listed adapter, its state in from the image that the step reads and
its state out to the one that it writes, and its working copy to the adapter's shadow (R182, R275). -/
def optBound (ps : ProgramSet) (c : VecCmd) (k : Nat) : Bool :=
  let n := stateBytes c.mode (c.rows * c.cols)
  let brings (a m : Nat) (item : BoundItem → Bool) : Bool :=
    (copies ps).any (fun g => inRange (a, m) g.dst && standsFor ps g.src item)
  let takes (a m : Nat) (item : BoundItem → Bool) : Bool :=
    (copies ps).any (fun g => inRange (a, m) g.src && standsFor ps g.dst item)
  let wc := ps.working.find? (fun x => x.1 == c.auxAddr)
  brings c.auxAddr 64 (· == .record k c.auxAddr) && brings c.yAddr n (· == .stateIn k) && takes c.zAddr n (· == .stateOut k) &&
    wc.elim false (fun x => takes x.2 (max 1 (c.stride * c.rows)) (· == .shadow k))

/-- Every OPT of a practice segment works on one listed adapter's record (R182, R275). -/
def boundOk (p : Program) (ps : ProgramSet) : Bool :=
  (ps.vec.flatMap (·.2)).all (fun d =>
    let c := VecCmd.ofBits d
    c.opcode != 9 || decide (2 ≤ c.mode) || c.rows == 0 || (List.range p.maxAdapters).any (optBound ps c))

/-- No gather command of a practice program writes the Bullpen, where the live pages of adapters are, but through its bindings
(R275). -/
def liveKept (s : State) (ts : List TensorEntry) (ps : ProgramSet) : Bool :=
  (ps.gather.flatMap (·.2)).all (fun d =>
    let c := GatherCmd.ofBits d
    !(decide (1 ≤ c.opcode) && decide (c.opcode ≤ 4)) || standsFor ps c.dst (fun _ => true) ||
      !((gatherRuns ts c).drop 1).head?.any (overlaps s.bullpen))

/-- The experts per token of a practice program's ROUTE commands: K_NARROW, in modes 0 and 3 also K_WIDE, and the teacher's own
in a segment that streams it (R276). DEDUCED (assumption 222). -/
def routeOk (p : Program) (x : Segment) : Bool :=
  (x.programs.vec.flatMap (·.2)).all (fun d =>
    let c := VecCmd.ofBits d
    c.opcode != 6 || c.k == p.kNarrow || ((p.lossMode == 0 || p.lossMode == 3) && c.k == p.kWide) ||
      x.streams.any (fun e => e.source == 1))

/-- The LOSS and OPT commands of a practice program (R275). -/
def lossOk (p : Program) (ps : ProgramSet) : Bool :=
  (ps.vec.flatMap (·.2)).all (fun d =>
    let c := VecCmd.ofBits d
    let kl := !isZero32 c.scalar1
    let ce := !isZero32 c.scalar2
    if c.opcode = 7 then
      (match p.lossMode with
        | 0 | 1 => kl && !ce
        | 2 => ce && !kl
        | _ => kl && ce)
    else c.opcode != 9 || c.mode == 2 || c.mode == p.optMode)

/-- No tile command reads a streamed weight through the crosswise port as operand A (R275). -/
def frozenBase (s : State) (imageId teacher : Nat) (x : Segment) : Bool :=
  let dests := streamDests s imageId teacher x.streams
  x.programs.tile.all (fun p => p.2.all (fun d =>
    let c := TileCmd.ofBits d
    !(c.opcode == 1 || c.opcode == 2) || !c.aXpose ||
      !dests.any (fun r => overlaps (sdAddr (p.1 / 8) r.1, r.2) (rowsRun c.aAddr c.aStride c.k (c.fmtA.rowBytes c.m)))))

/-- A practice program. -/
def practiceOk (s : State) (i : Image) (src : PracticeSrc) : Bool :=
  let p := programOfSrc src
  practiceDeclOk src.decl i.layers p && recomputedOk i.tensors (p.segments.map (·.programs)) &&
    src.group.all (fun g => groupOk s i.tensors g (p.segments.map (·.wcet))) &&
    p.segments.all (fun x => lossOk p x.programs && boundOk p x.programs && bindsOk i.tensors x.programs &&
      liveKept s i.tensors x.programs && routeOk p x && frozenBase s i.imageId p.teacher x &&
      streamsOk s i.imageId p.teacher i.layers x.programs.streams && programsOk s i.tensors x.programs p.group [] x.tensors)

/-- Every load-time check of an image's contents. -/
def imageOk (s : State) (src : ImageSrc) : Bool :=
  let i := imageOfSrc src
  (src.tensors.zipIdx).all (fun c => tensorOk (allChannelCommands i) c.1 c.2) &&
    src.classes.all (classOk s i) && decide ((i.classes.map (·.kv.cls)).Nodup) &&
    src.practice.all (practiceOk s i) && decide ((i.programs.map (·.programId)).Nodup)

end Sys2Proof.Machine
end

