-- ==== Sys2Proof/Machine/FaultOps.lean ====
section
/-! DEFINITION. Faults as shared operations: the owners of stored bytes that are lost (R489, R502, R549), what a failed
unit touches (R550, R553), fences (R553 to R561), and lines that cannot be read (R487, R488). -/
namespace Sys2Proof.Machine
open Sys2Proof

/-! Owners of LPDDR5X pages (R489, R502, R549). -/

/-- Stored bytes that are lost, by page and by line. -/
structure Lost where
  page : Nat → Bool
  line : Nat → Bool

/-- One line. -/
def lostLine (l : Nat) : Lost := ⟨fun p => p == l / 1024, fun x => x == l⟩
/-- Whole pages. -/
def lostPages (pick : Nat → Bool) : Lost := ⟨pick, fun l => pick (l / 1024)⟩

/-- The line of the directory region that holds an adapter's entry (R229); which of the entries an adapter has is the
device's own choice. -/
def dirLine (s : State) (id : Nat) : Nat := (s.dirRegion.1 + 64 * (Config.directoryIndex id).toNat) / 64

/-- Adapters whose entry is lost: a Bullpen page of theirs, or the line of their directory entry. -/
def lostEntries (s : State) (x : Lost) : List Nat :=
  (s.lkr.dir.filter (fun e => decide (e.st ≠ .lost) &&
    (e.pages.any x.page || (decide (s.dirRegion.2 ≠ 0) && x.line (dirLine s e.adapter))))).map (·.adapter)

/-- Adapters whose load of a higher version is lost, and those whose loaded version that waits is. -/
def lostLoads (s : State) (x : Lost) : List Nat := (s.lkr.loads.filter (fun l => l.higher && l.pages.any x.page)).map (·.adapter)
def lostWaiting (s : State) (x : Lost) : List Nat := (s.lkr.waiting.filter (fun w => w.pages.any x.page)).map (·.adapter)

/-- The pages of a practice record. -/
def Record.pages (r : Record) : List Nat := r.shadow ++ r.spare ++ r.state0 ++ r.state1

/-- Adapters whose practice record is lost (R296). -/
def lostRecords (s : State) (x : Lost) : List Nat := (s.lkr.records.filter (fun r => r.pages.any x.page)).map (·.adapter)

/-- Does a request own a lost page of the KV pool (R324)? -/
def requestLost (s : State) (x : Lost) (q : Request) : Bool := (q.pages.flatMap s.kvMemPages).any x.page

/-- The lost pages of context memory. -/
def lostMemory (s : State) (x : Lost) : List Nat := (s.mem.ctxPages.map (·.1)).filter x.page

/-- Contexts whose material is lost (R549): their requests, adapters, practice records or context memory. -/
def lostHolders (s : State) (x : Lost) : List Nat :=
  let ids := lostEntries s x
  let recs := lostRecords s x
  ((s.ump.requests.filter (fun q => requestLost s x q || ids.contains q.adapter)).map (·.ctx) ++
    (s.lkr.dir.filter (fun e => ids.contains e.adapter)).map (·.loadCtx) ++
    (s.ump.steps.filter (fun p => p.adapters.any ids.contains)).map (·.ctx) ++
    (s.lkr.records.filter (fun r => recs.contains r.adapter)).map (·.ctx) ++
    (s.mem.ctxPages.filter (fun p => x.page p.1)).map (·.2)).dedup

/-- Does the running work use what is lost (R550)? -/
def workUses (s : State) (x : Lost) (w : Work) : Bool :=
  let ids := lostEntries s x
  s.mem.ctxPages.any (fun p => p.2 == w.ctx && x.page p.1) ||
    (if w.practice then
      s.ump.steps.any (fun p => p.did == w.did && p.adapters.any (fun a => ids.contains a || (lostRecords s x).contains a))
    else s.ump.requests.any (fun q => q.ctx == w.ctx && (requestLost s x q || ids.contains q.adapter)))

/-- ADAPTER_LOST (R252): the entry is LOST; a load in flight stops, a version that waits is discarded, steps of the
adapter end, and its record is closed (R296). -/
def State.loseEntry (s : State) (id : Nat) : State :=
  let load := s.lkr.loads.find? (fun l => l.adapter == id)
  let s := load.elim s (fun l => (s.abandonLoad id).finish l.did stAdapterLost)
  let s := s.dropWaiting id
  let s := endStepsOf s id stAdapterLost
  let s := s.dropCommit id s.ts
  let s := (s.record? id).elim s (fun r => dropWaiters s r stAdapterLost)
  let s := s.closeRecord id true
  match s.dirEntry id with
  | none => s
  | some e =>
    if e.pins = 0 then { (s.freePages e.pages) with lkr := { s.lkr with dir := s.lkr.dir.filter (fun x => x.adapter != id) } }
    else s.modDir id (fun e => { e with st := .lost })

/-- PRACTICE_RESET (R296): the record reset to committed; a step of it that has begun starts again. -/
def State.loseRecord (s : State) (id : Nat) : State :=
  let s := s.resetRecord id
  (s.ump.steps.filter (fun p => p.adapters.contains id)).foldl State.restartStep s

/-- A DATA record of one kind of owner (R548, R556); none where nothing is lost. -/
def ownerRecord (s : State) (f : FaultInfo) (action count : Nat) (pages affected : List Nat) : State :=
  s.fault { f with cls := 2, kind := 8, unit := (pages.min?).getD f.unit, action := action, count := count,
                   affected := (f.affected ++ affected).dedup }

/-- Owners of lost bytes handled (R489, R502), with one DATA record for each kind of owner; whether there was any. -/
def State.loseOwners (s : State) (x : Lost) (f : FaultInfo) : State × Bool :=
  let entries := lostEntries s x
  let records := (lostRecords s x).filter (fun i => !entries.contains i)
  let reqs := s.ump.requests.filter (requestLost s x)
  let mem := lostMemory s x
  let dirPages := entries.map (fun i => dirLine s i / 1024)
  let bullpen := s.lkr.dir.filter (fun e => entries.contains e.adapter && e.pages.any x.page)
  let inDir := entries.filter (fun i => !bullpen.any (·.adapter == i))
  let held (ids : List Nat) : List Nat :=
    (s.ump.requests.filter (fun q => ids.contains q.adapter)).map (·.ctx) ++
      (s.lkr.dir.filter (fun e => ids.contains e.adapter)).map (·.loadCtx) ++
      (s.ump.steps.filter (fun p => p.adapters.any ids.contains)).map (·.ctx)
  let notes : List (Nat × Nat × List Nat × List Nat) := [
    (2, bullpen.length, (bullpen.flatMap (·.pages)).filter x.page, held (bullpen.map (·.adapter))),
    (2, inDir.length, dirPages, held inDir),
    (2, records.length, ((s.lkr.records.filter (fun r => records.contains r.adapter)).flatMap Record.pages).filter x.page,
      (s.lkr.records.filter (fun r => records.contains r.adapter)).map (·.ctx)),
    (2, reqs.length, ((reqs.flatMap (·.pages)).flatMap s.kvMemPages).filter x.page, reqs.map (·.ctx)),
    (3, 0, mem, (s.mem.ctxPages.filter (fun p => x.page p.1)).map (·.2))]
  let due := notes.filter (fun n => decide (n.2.1 ≠ 0) || (decide (n.1 = 3) && !n.2.2.1.isEmpty))
  let s := (lostLoads s x).foldl (fun s id =>
    match s.lkr.loads.find? (fun l => l.adapter == id) with
    | some l => (s.abandonLoad id).finish l.did stAdapterLost
    | none => s) s
  let s := (lostWaiting s x).foldl State.dropWaiting s
  let s := entries.foldl State.loseEntry s
  let s := records.foldl State.loseRecord s
  let s := s.markEnding (fun q => reqs.any (fun r => r.ctx == q.ctx && r.reqId == q.reqId)) stKvLost
  let s := { s with mem := { s.mem with offline := (s.mem.offline ++ mem).dedup } }
  (due.foldl (fun s n => ownerRecord s f n.1 n.2.1 n.2.2.1 n.2.2.2) s, !due.isEmpty)

/-! Detection (R550, R557). -/

/-- What a fault's record says of the work it discards. -/
def hitInfo (f : FaultInfo) (w : Option Work) : FaultInfo :=
  match w with
  | none => f
  | some w => { f with discard := true, ctx := w.ctx, step := if w.isSealed then 0 else w.stepNo, affected := (w.ctx :: f.affected).dedup }

/-- A fault of a unit detected (R550): running work that it touches is discarded, and the fence waits. `entries`: the adapters
that the fence makes LOST (R252). -/
def State.detect (s : State) (kind unit cause : Nat) (touches : Work → Bool) (cause' : DiscardCause := .fence)
    (entries : List Nat := []) : State :=
  let hit := s.ump.work.filter touches
  let f := hitInfo { cls := 1, kind := kind, unit := unit, cause := cause, action := 1, detected := s.ts } hit
  let p : PendingFault := { unitKind := kind, unit := unit, cause := cause, cls := 1, detected := s.ts, discard := f.discard,
                            ctx := f.ctx, step := f.step, affected := f.affected, entries := entries,
                            serve := hit.bind (fun w => if w.practice then none else some w.did) }
  let s := if hit.isSome then s.stopWork cause' else s
  { s with err := { s.err with faults := s.err.faults ++ [p] } }

/-! What a unit holds (R549, R553). -/

/-- The runs of bytes that the programs of a serve or segment name (R109, R131, R264, R408). -/
def programRuns (s : State) (ts : List TensorEntry) (ps : ProgramSet) (g : Option GroupDecl) : List (Nat × Nat) :=
  (ps.tile.flatMap (·.2)).flatMap (fun d =>
      let c := TileCmd.ofBits d
      if c.opcode = 1 ∨ c.opcode = 2 then (tileOperands c).flatMap (·.1.runs) ++ (tileOutput c (ts.getD c.outTensor .plain)).runs else []) ++
    (ps.vec.flatMap (·.2)).flatMap (fun d => vecRuns ts (VecCmd.ofBits d)) ++
    (ps.gather.flatMap (·.2)).flatMap (fun d => gatherRuns ts (GatherCmd.ofBits d)) ++
    g.elim [] (fun g => g.channels.flatMap (fun c => c.commands.flatMap (fun d => chanRuns ts (subSize s c.axes) (ChanCmd.ofBits d))))

/-- Does a run, as it is served, touch an SRAM region of a die? -/
def runInRegion (s : State) (die r : Nat) (run : Nat × Nat) : Bool :=
  overlaps (sdAddr die (r * 0x400_0000), 0x400_0000) (s.place run.1, max run.2 1)

/-- The places of a stream table on a die, as its bank holds them. -/
def streamRuns (s : State) (i : Image) (teacher die : Nat) (es : List StreamEntry) : List (Nat × Nat) :=
  es.map (fun e => (sdAddr die e.dstOff, entryReach (bankHolding s (if e.source = 1 then teacher else i.imageId)) e die))

/-- Does the spill area that a die uses lie in a region (R553, R560)? -/
def spillInRegion (s : State) (die r : Nat) : Bool :=
  decide (s.courtCount die < 8) && overlaps s.spillArea (r * 0x400_0000, 0x400_0000)

/-- Does a serve class place a buffer in a region of SDn: a command's operand, a stream's destination, its KV map, the
Dugout, or the spill area? -/
def classInRegion (s : State) (i : Image) (die r : Nat) (k : ServeClass) : Bool :=
  spillInRegion s die r ||
    (programRuns s i.tensors k.programs k.group ++ streamRuns s i 0 die k.streams ++ [(sdAddr die k.kv.mapOff, kvMapBytes k)] ++
      (if k.pre.plenMax = 0 then [] else [(sdAddr die s.dugout.1, s.dugout.2)])).any (runInRegion s die r)

/-- The same of a practice program. -/
def programInRegion (s : State) (i : Image) (die r : Nat) (g : Program) : Bool :=
  spillInRegion s die r ||
    g.segments.any (fun x => (programRuns s i.tensors x.programs g.group ++ streamRuns s i g.teacher die x.streams).any (runInRegion s die r))

/-- The loaded schedules that a region's fence takes out, as (image slot, class) and (image slot, 65,536 + program). -/
def schedulesIn (s : State) (die r : Nat) : List (Nat × Nat) :=
  s.ump.images.flatMap (fun p =>
    (p.2.classes.filter (classInRegion s p.2 die r)).map (fun k => (p.1, k.kv.cls)) ++
      (p.2.programs.filter (programInRegion s p.2 die r)).map (fun g => (p.1, 65536 + g.programId)))

/-- Is a piece of work on one of these schedules? -/
def workOn (fs : List (Nat × Nat)) (w : Work) : Bool := fs.contains (w.imgSlot, if w.practice then 65536 + w.cls else w.cls)

/-- The ports of an LD die. -/
def portsOfDie (die : Nat) : List Nat := [2 * die, 2 * die + 1]

/-- The channels of an MD die. -/
def channelsOfDie (die : Nat) : List Nat := (List.range 32).map (· + 32 * die)

/-- Is a channel online (R511)? -/
def State.channelOnline (s : State) (k : Nat) : Bool := bitAt (s.regAt (R.memChOnline (k / 32))).toNat (k % 32)

/-- Every byte on some channels. -/
def lostChannels (ks : List Nat) : Lost := lostPages (fun p => decide (p < lpddrBytes / pageBytes) && ks.contains (channelOf p))

/-- The shards that a bank holds on a die (R553). -/
def shardsOnDie (s : State) (die : Nat) : List (Nat × Nat) :=
  [0, 1].flatMap (fun b => ((s.bank b).place.filter (fun p => p.die == die)).map (fun p => (b, p.shard)))

/-- Does running work gather at a Locker: prefix gathers of its class, or a gather program (R257, R264)? -/
def gathersAt (s : State) (n : Nat) (w : Work) : Bool :=
  let mine (p : ProgramSet) : Bool := p.gather.any (fun g => !g.2.isEmpty && s.lockerFor (g.1 / 2) == n)
  match Tbl.get? s.ump.images w.imgSlot with
  | none => false
  | some i =>
    if w.practice then (i.program? w.cls).elim false (fun g => g.segments.any (fun x => mine x.programs))
    else (i.cls? w.cls).elim false (fun k => mine k.programs || (decide (k.pre.plenMax ≠ 0) &&
      (List.range 16).any (fun d => s.lockerFor d == n)))

/-- The adapters whose prefix gather is in progress at a Locker: of the requests on the dies it serves (R252, R257). -/
def gatheringAt (s : State) (n : Nat) : List Nat :=
  let open_ (die : Nat) : Bool :=
    (Tbl.get? s.lkr.gathers die).elim false (fun g => decide (g.completed < g.started)) && s.lockerFor die == n
  match s.ump.work.bind (fun w => s.ump.ready.find? (fun r => r.did == w.did)) with
  | none => []
  | some r => ((((streamOf s r).filter (fun q => q.adapter != 0 && open_ q.die)).map (·.adapter))).dedup

/-- Is a unit present and in use: a fault of any other unit says nothing? -/
def unitInUse (s : State) (kind unit : Nat) : Bool :=
  match kind with
  | 1 => decide (unit < 512) && s.courtOnline (unit / 4)
  | 2 | 5 => decide (unit < 128) && s.courtOnline unit
  | 3 => decide (unit < 256) && s.courtOnline (unit / 2)
  | 4 => decide (unit < 512) && bitAt (s.regAt (R.memSramOnline (unit / 32))).toNat (unit % 32)
  | 7 => decide (unit < 128) && s.channelOnline unit
  | 9 => decide (unit < 16) && !bitAt (s.regAt R.scbPortFenced).toNat unit
  | 10 => decide (unit < 16) && bitAt (s.regAt R.lkrOnline).toNat unit
  | 11 => decide (unit < 4) && (channelsOfDie unit).any s.channelOnline
  | 12 | 14 => decide (unit < 16)
  | 13 => decide (unit < 8) && (portsOfDie unit).any (fun p => !bitAt (s.regAt R.scbPortFenced).toNat p)
  | 15 => decide (unit < 5)
  | 17 => decide (unit = 0)
  | _ => false

/-- A unit's failure taken in (R550, R553, R564): a device fault, or a fence that waits for its completion. -/
def State.unitFails (s : State) (kind unit cause : Nat) : State :=
  if s.booted = false ∨ !unitInUse s kind unit then s
  else match kind with
  | 14 | 15 | 17 => s.failDevice kind unit cause
  | 1 | 2 | 3 | 5 => s.detect kind unit cause (fun _ => true)
  | 4 => s.detect kind unit cause (workOn (schedulesIn s (unit / 32) (unit % 32)))
  | 7 => s.detect kind unit cause (workUses s (lostChannels [unit]))
  | 11 => s.detect kind unit cause (workUses s (lostChannels (channelsOfDie unit)))
  | 10 => s.detect kind unit cause (gathersAt s unit) .fence (gatheringAt s unit)
  | 12 =>
    let fs := if s.mirrorOn then [] else (shardsOnDie s unit).flatMap (fun x => fencesOf s x.1 x.2)
    s.detect kind unit cause (workFenced fs) .shard
  | _ => s.detect kind unit cause (fun _ => false)

/-! Lines and words that cannot be read (R488, R489). -/

/-- The counter block and class of an address's corrections (R588). -/
def countCorrected (s : State) (a unit : Nat) : State :=
  let s := s.bump R.memCe
  if inLpddr a then s.count (20 + channelOf (a / pageBytes) / 32) 5 6 1 { unit := unit, addr := some (a / 64 * 64) }
  else if inSram a then s.count ((a - sramBase) / sdBytes) 2 4 1 { unit := unit, addr := some (a / 64 * 64) }
  else s.count ((a - courtBase) / 0x200_0000) 2 4 1 { unit := (a - courtBase) / 0x40_0000 % 8, addr := some (a / 64 * 64) }

/-- A corrected error of an SRAM region (kind 4) or channel (kind 7): one more than SCB_ERR_CTL.STORM in a second of timestamp
fences the unit (R554, R572). -/
def State.stormCount (s : State) (kind unit : Nat) : State :=
  let key := if kind = 4 then unit else 512 + unit
  let second := s.ts / 1000000000
  let old := Tbl.getD s.mem.ceSecond key (second, 0)
  let n := if old.1 = second then old.2 + 1 else 1
  let s := { s with mem := { s.mem with ceSecond := Tbl.set s.mem.ceSecond key (second, n) } }
  let limit := s.regFld R.scbErrCtl 0 16
  if limit ≠ 0 ∧ n = limit + 1 then s.unitFails kind unit 2 else s

/-- A correction counted, in the counter block and class of its address (R488, R588), and towards a storm (R554). -/
def countCe (s : State) (a unit : Nat) : State :=
  let s := countCorrected s a unit
  if inLpddr a then s.stormCount 7 (channelOf (a / pageBytes))
  else if inSram a then s.stormCount 4 ((a - sramBase) / 0x400_0000)
  else s

/-- A line that is readable again. -/
def State.lineGood (s : State) (line : Nat) : State := { s with mem := { s.mem with bad := s.mem.bad.filter (· != line) } }

/-- The uncorrectable lines of a channel within the last second, this one included (R553). -/
def errorsOf (s : State) (line : Nat) : List (Nat × Nat) :=
  (Tbl.getD s.mem.ueSecond (channelOf (line / 1024)) []).filter (fun e => decide (s.ts < e.1 + 1000000000) && e.2 != line) ++ [(s.ts, line)]

/-- An LPDDR5X line that is uncorrectable after its re-read (R488, R489): counted; the eighth of a channel within one
second fences the channel (R553), any other ends its owners. -/
def State.lineFails (s : State) (line : Nat) : State :=
  let s := s.bump R.memUe
  let ch := channelOf (line / 1024)
  let es := errorsOf s line
  let s := { s with mem := { s.mem with ueSecond := Tbl.set s.mem.ueSecond ch es } }
  if (s.page (line / 1024)).use = 6 then
    s.fault { cls := 2, kind := 8, unit := line / 1024, cause := 1, action := 3, detected := s.ts }
  else
    let s := { s with mem := { s.mem with bad := if s.mem.bad.contains line then s.mem.bad else s.mem.bad ++ [line] } }
    if 8 ≤ es.length then s.unitFails 7 ch 1
    else
      let x := lostLine line
      let hit := s.ump.work.filter (workUses s x)
      let f := hitInfo { cls := 2, kind := 8, unit := line / 1024, cause := 1, action := 3, detected := s.ts } hit
      let s := if hit.isSome then s.stopWork .fence else s
      let (s, owned) := s.loseOwners x f
      if owned then s else s.fault f

/-- An SRAM or court-buffer word that is uncorrectable after its re-read (R488, R553): the work that reads it is
discarded; when a rewrite fails too, the region is fenced; a court buffer is fenced with its court. -/
def State.wordFails (s : State) (a : Nat) (rewriteOk : Bool) : State :=
  let s := s.bump R.memUe
  if inSram a then
    let unit := (a - sramBase) / 0x400_0000
    if rewriteOk then
      let f := hitInfo { cls := 2, kind := 4, unit := unit, cause := 1, action := 3, detected := s.ts } s.ump.work
      (s.stopWork .fence).fault f
    else if unitInUse s 4 unit then s.detect 4 unit 1 (fun _ => true) else s
  else s.unitFails 5 ((a - courtBase) / 0x40_0000) 1

/-! Fences (R551, R553, R558 to R561). -/

/-- A bit of a register cleared. -/
def State.clearBit (s : State) (key i : Nat) : State := s.setFld key i 1 0

/-- The court of a cube, court, vector engine or court buffer. -/
def courtOfUnit (kind unit : Nat) : Nat := if kind = 1 then unit / 4 else if kind = 3 then unit / 2 else unit

/-- The loaded schedules taken out by the fenced regions of a die, as the courts now use them. -/
def State.fenceSchedules (s : State) (die : Nat) : State :=
  let off := (List.range 32).filter (fun r => !bitAt (s.regAt (R.memSramOnline die)).toNat r)
  let fs := (off.flatMap (schedulesIn s die)).filter (fun f => !s.err.fencedSchedules.contains f)
  { s with err := { s.err with fencedSchedules := s.err.fencedSchedules ++ fs.dedup } }

/-- A court fenced with its engines (R553): the capability registers drop, and c follows at the boundary of the repetition of
the serve that the fence discarded, or at the next boundary where it discarded none (R352; assumption 85). -/
def State.fenceCourt (s : State) (court : Nat) (serve : Option Nat) : State :=
  let s := (s.clearBit (R.crtCourtOnline (court / 32)) (court % 32)).setCap
  let s := { s with ump := { s.ump with
    stretchNext := s.courtsLeast, stretchFor := if serve.isSome then serve else s.ump.stretchFor } }
  s.fenceSchedules (court / 8)

/-- Channels fenced (R502): their registers drop. -/
def State.fenceChannels (s : State) (ks : List Nat) : State :=
  let s := ks.foldl (fun s k => s.clearBit (R.memChOnline (k / 32)) (k % 32)) s
  s.setFld R.memStatus 0 8 (((List.range 128).filter s.channelOnline).length)

/-- Every shard on a WD die lost (R553, R213, R214). -/
def State.fenceWd (s : State) (die : Nat) : State :=
  let lost := shardsOnDie s die
  let keys := (List.range 2).flatMap (fun b => ((s.bank b).place.filter (fun p => p.die == die)).map (fun p => blockKey die p.bank p.block))
  let entry (b x : Nat) : Option Nat := s.wst.stream.bind (fun t => (t.entries[t.completed]?).bind (fun e =>
    if t.completed < t.started ∧ t.bankOf e = b ∧ (layerShards (s.bank b) e.layer die).contains x then some t.completed else none))
  let asked := lost.filterMap (fun x => (entry x.1 x.2).map (fun e => (x, e)))
  let s := { s with wst := { s.wst with blockMap := keys.foldl (fun t k => Tbl.set t k 2) s.wst.blockMap } }
  if s.mirrorOn then asked.foldl (fun s a => s.issueFetch a.1.1 a.1.2 a.2) s
  else lost.foldl (fun s x => s.fenceShard x.1 x.2) s

/-- The FENCE record of a unit. -/
def fenceRecord (p : PendingFault) (kind unit : Nat) (affected : List Nat) : FaultInfo :=
  { cls := 1, kind := kind, unit := unit, cause := p.cause, action := 1, discard := p.discard, ctx := p.ctx, step := p.step,
    detected := p.detected, affected := (p.affected ++ affected).dedup }

/-- A port fenced (R553): down, and no more retries. -/
def State.fencePort (s : State) (port : Nat) : State :=
  let s := s.linkDown port 5 .fenced
  s.setReg R.scbPortFenced (s.regAt R.scbPortFenced ||| BitVec.ofNat 32 (2 ^ port))

/-- The channels that a fault of a channel or MD die fences (R553). -/
def channelsOfUnit (s : State) (kind unit : Nat) : List Nat :=
  (if kind = 7 then [unit] else channelsOfDie unit).filter s.channelOnline

/-- The fence of a unit completes (R553, R556, R561, R564): what it takes out, its records, and the device fault of a die's
last court or the last Locker. -/
def State.fenceUnit (s : State) (p : PendingFault) : State :=
  match p.unitKind with
  | 1 | 2 | 3 | 5 =>
    let court := courtOfUnit p.unitKind p.unit
    let s := (s.fenceCourt court p.serve).fault (fenceRecord p p.unitKind p.unit [])
    if s.courtCount (court / 8) = 0 then s.failDevice 14 (court / 8) p.cause else s
  | 4 =>
    let s := s.clearBit (R.memSramOnline (p.unit / 32)) (p.unit % 32)
    (s.fenceSchedules (p.unit / 32)).fault (fenceRecord p 4 p.unit [])
  | 7 | 11 =>
    let ks := channelsOfUnit s p.unitKind p.unit
    let x := lostChannels ks
    let held := lostHolders s x
    let s := s.fenceChannels ks
    let s := ks.foldl (fun s k => s.fault (fenceRecord p 7 k held)) s
    (s.loseOwners x { fenceRecord p 8 0 [] with affected := p.affected }).1
  | 9 => (s.fencePort p.unit).fault (fenceRecord p 9 p.unit [])
  | 13 => ((portsOfDie p.unit).foldl State.fencePort s).fault (fenceRecord p 13 p.unit [])
  | 10 =>
    let s := (s.clearBit R.lkrOnline p.unit).fault (fenceRecord p 10 p.unit [])
    let s := p.entries.foldl State.loseEntry s
    if s.regAt R.lkrOnline = 0 then s.failDevice 10 p.unit p.cause else s
  | 12 => (s.fenceWd p.unit).fault (fenceRecord p 12 p.unit [])
  | _ => s

/-- When the last fence completes after the slot end, the slot end moves, and the extension is charged to context 0
(R551). -/
def State.extendSlot (s : State) : State :=
  match s.ump.slot with
  | some t =>
    if s.err.faults.isEmpty ∧ t.slotEnd < s.ts then
      let e := toQuantum s.ts
      let s := if t.len = 0 then s else s.chargeDiscard .zero (e - t.slotEnd)
      { s with ump := { s.ump with slot := some { t with slotEnd := e } } }
    else s
  | none => s

end Sys2Proof.Machine
end

