-- ==== Sys2Proof/Machine/MemRows.lean ====
section
/-! DEFINITION. The commands of the memory system: re-reads, the patrol, scrubs, key loads and sweeps (chapter 14). -/
namespace Sys2Proof.Machine
open Sys2Proof

/-! Re-reads and the patrol (R487 to R490). -/

/-- MEM_REREAD (R488): the second read of an uncorrectable word of LPDDR5X, SRAM or a court buffer, which corrects it, or
after which the owner's consequence follows. -/
def execMemReread (addr : Nat) (word : List Byte) (rewriteOk : Bool) (s : State) : Host.Outcome State Fault Refusal :=
  let lp := inLpddr addr
  if s.booted = false ∨ (!lp && !inSram addr && !inCourt addr) ∨ (lp && s.pageOffline (addr / pageBytes)) ∨
      (inSram addr && !s.sramOnline addr) then .next s
  else
    match sc8Decode word with
    | .correct => .next (if lp then s.lineGood (addr / 64) else s)
    | .corrected _ =>
      let s := countCe s addr 63
      .next (if lp then s.lineGood (addr / 64) else s)
    | .uncorrectable => .next (if lp then s.lineFails (addr / 64) else s.wordFails addr rewriteOk)

/-- The first assigned page at or after a page: listed with an owner, or of the window, the directory, page 0 of the KV
pool or the hidden region (R490, R497). -/
def assignedFrom (s : State) (p : Nat) : Option Nat :=
  let ranges := [s.window .a, s.window .b, s.dirRegion, (s.kvPool.1, if s.kvPool.2 = 0 then 0 else s.kvPs),
    (lpddrVisible, lpddrBytes - lpddrVisible)]
  let ofRange (r : Nat × Nat) : Option Nat :=
    let q := max p (r.1 / pageBytes)
    if q < (r.1 + r.2) / pageBytes then some q else none
  let listed := (s.mem.pages.filter (fun e => decide (p ≤ e.1) && decide (e.2.cls ≠ 3))).map (·.1)
  (ranges.filterMap ofRange ++ listed).min?

/-- The next line of the patrol: the first at or after its place in an assigned page that is not OFFLINE. -/
def patrolNext (s : State) : Nat → Nat → Option Nat
  | 0, _ => none
  | n + 1, line =>
    match assignedFrom s (line / 1024) with
    | none => none
    | some p => if s.pageOffline p then patrolNext s n ((p + 1) * 1024) else some (max line (p * 1024))

/-- Pages that a search for the next assigned line may have to pass over: 1,920 cover every channel once. -/
def patrolFuel (s : State) : Nat := 2000 + s.mem.pages.length + s.mem.offline.length

/-- PATROL_READ (R490): the next assigned line is read, and again when it is uncorrectable. -/
def execPatrolRead (word reread : List Byte) (s : State) : Host.Outcome State Fault Refusal :=
  if s.booted = false ∨ s.pwr.state ≠ .active ∨ s.regFld R.memCtl 16 8 = 0 then .next s
  else
    let found := (patrolNext s (patrolFuel s) s.mem.patrolLine).or (patrolNext s (patrolFuel s) 0)
    match found with
    | none => .next s
    | some line =>
      let s := s.count (20 + channelOf (line / 1024) / 32) 5 5 1 { unit := 18, addr := some (64 * line) }
      let s := match patrolNext s (patrolFuel s) (line + 1) with
        | some next => { s with mem := { s.mem with patrolLine := next } }
        | none => { s with mem := { s.mem with patrolLine := 0 } }.bump R.memPatrol
      .next (match sc8Decode word with
        | .correct => s.lineGood line
        | .corrected _ => (countCe s (64 * line) 18).lineGood line
        | .uncorrectable =>
          match sc8Decode reread with
          | .correct => s.lineGood line
          | .corrected _ => (countCe s (64 * line) 18).lineGood line
          | .uncorrectable => s.lineFails line)

/-! Scrubs (R500, R501). -/

/-- SCRUB_PAGE_DONE (R500, R501, R507, R515): the next page of the oldest scrub is zero. -/
def execScrubPageDone (s : State) : Host.Outcome State Fault Refusal :=
  if s.booted = false ∨ s.pwr.state ≠ .active ∨ s.regFld R.memCtl 0 11 = 0 then .next s
  else
    match s.mem.scrubs.head?.bind (·.pages.head?) with
    | some p => .next (s.scrubPage p)
    | none => .next s

/-! Rotation and sweeps (R503 to R506). -/

/-- SWEEP records on the four MD queues (R578). -/
def traceSweep (s : State) (slot : Nat) (complete : Bool) : State :=
  (List.range 4).foldl (fun s d => s.trace (20 + d) 15 0 (slot + if complete then 65536 else 0)) s

/-- KEY_LOAD_RECEIVE (R504): an MD die receives the new key of a slot and writes with it from now on; once all four have
it, the sweep starts. -/
def execKeyLoadReceive (die slot : Nat) (s : State) : Host.Outcome State Fault Refusal :=
  match Tbl.get? s.mem.keySlots slot with
  | none => .next s
  | some k =>
    if 4 ≤ die ∨ k.switched.contains die ∨ s.booted = false then .next s
    else
      let k := { k with switched := k.switched ++ [die] }
      let s := { s with mem := { s.mem with keySlots := Tbl.set s.mem.keySlots slot k } }
      if k.switched.length = 4 ∧ k.oldLive then
        .next (traceSweep { s with mem := { s.mem with sweeps := s.mem.sweeps ++ [⟨slot, 0, []⟩] } } slot false)
      else .next s

/-- Does a line still hold DATA of a slot's old epoch, in a page that names the slot (R505)? -/
def oldLine (s : State) (slot old line : Nat) : Bool :=
  let e := s.page (line / 1024)
  decide (e.cls = 1) && decide (e.index = slot) &&
    (Tbl.get? s.mem.lines line).elim false (fun l => decide (l.cls = 1) && decide (l.epoch = old))

/-- The state with a sweep changed. -/
def State.modSweep (s : State) (slot : Nat) (f : Sweep → Sweep) : State :=
  { s with mem := { s.mem with sweeps := s.mem.sweeps.map (fun w => if w.slot = slot then f w else w) } }

/-- A line rewritten under the slot's current key with what the old key reads in it (R505). -/
def State.rewriteLine (s : State) (slot line : Nat) (k : KeySlot) : State :=
  let s := s.count (20 + channelOf (line / 1024) / 32) 5 3 1 { unit := 18, addr := some (64 * line) }
  let (oldKey, newKey) := if k.cur = 0 then (k.key1, k.key0) else (k.key0, k.key1)
  let s := s.modSweep slot (fun w => { w with nextLine := line + 1 })
  { s with mem := { s.mem with
    cells := s.mem.cells.writeBytes (64 * line) (s.lineUnder line oldKey)
    lines := Tbl.modify s.mem.lines line (fun l => { l with epoch := k.cur, keyId := newKey }) } }

/-- A pass completes (R506): the old key is zeroised, and MEM_ROTATED is written. -/
def State.sweepDone (s : State) (slot : Nat) (k : KeySlot) : State :=
  let k := if k.cur = 0 then { k with oldLive := false, key1 := 0 } else { k with oldLive := false, key0 := 0 }
  let s := { s with mem := { s.mem with
    keySlots := Tbl.set s.mem.keySlots slot k
    sweeps := s.mem.sweeps.filter (fun w => w.slot != slot) } }
  (traceSweep s slot true).opEvent (eventRec 0x00C0 0 s.ts [(4, 0, 16, slot), (6, 0, 1, k.cur)])

/-- SWEEP_LINE (R505, R506): the next old-epoch line of a slot's pages is rewritten; one that cannot be read is handled by
R489 and holds the pass; without one left the pass completes. -/
def execSweepLine (slot : Nat) (s : State) : Host.Outcome State Fault Refusal :=
  match s.mem.sweeps.find? (fun w => w.slot == slot), Tbl.get? s.mem.keySlots slot with
  | some w, some k =>
    if s.booted = false ∨ s.pwr.state ≠ .active ∨ s.regFld R.memCtl 0 11 = 0 then .next s
    else
      let old := 1 - k.cur
      match (s.mem.lines.map (·.1)).find? (fun l => decide (w.nextLine ≤ l) && oldLine s slot old l && !s.pageOffline (l / 1024)) with
      | some line =>
        if s.mem.bad.contains line then
          .next ((s.modSweep slot (fun w => { w with nextLine := line + 1, held := w.held ++ [line] })).lineFails line)
        else .next (s.rewriteLine slot line k)
      | none =>
        let held := w.held.filter (oldLine s slot old)
        if held.isEmpty then .next (s.sweepDone slot k) else .next (s.modSweep slot (fun w => { w with held := held, nextLine := 2 ^ 42 }))
  | _, _ => .next s

end Sys2Proof.Machine
end

