-- ==== Sys2Proof/Machine/FaultRows.lean ====
section
/-! DEFINITION. The commands of fault handling and thermal hold (chapter 16). -/
namespace Sys2Proof.Machine
open Sys2Proof

/-- UNIT_FAULT_REPORT (R550, R553, R564): a failing unit's report reaches the scheduling Umpire. -/
def execUnitFaultReport (kind unit cause : Nat) (s : State) : Host.Outcome State Fault Refusal :=
  .next (s.unitFails kind unit cause)

/-- PROGRESS_TIMEOUT (R553): a unit that has held work for 100 µs without progress is treated as failed. -/
def execProgressTimeout (kind unit : Nat) (s : State) : Host.Outcome State Fault Refusal :=
  if kind = 1 ∨ kind = 2 ∨ kind = 3 ∨ kind = 5 ∨ kind = 10 ∨ kind = 11 ∨ kind = 12 then .next (s.unitFails kind unit 4) else .next s

/-- STORM (R554, R572): more than SCB_ERR_CTL.STORM corrected errors in one second fence an SRAM region or a channel. -/
def execStorm (kind unit : Nat) (s : State) : Host.Outcome State Fault Refusal :=
  if (kind = 4 ∨ kind = 7) ∧ s.regFld R.scbErrCtl 0 16 ≠ 0 then .next (s.unitFails kind unit 2) else .next s

/-- FENCE_COMPLETE (R551, R553, R557): the fence of the earliest fault completes; the slot end moves only when the last
fence ends after it. In half-time a fault waits for the resume. -/
def execFenceComplete (s : State) : Host.Outcome State Fault Refusal :=
  match s.err.faults with
  | [] => .next s
  | p :: rest =>
    if s.pwr.state = .idle ∧ s.pwr.request ≠ some .active then .next s
    else .next (({ s with err := { s.err with faults := rest } }.fenceUnit p).extendSlot)

/-! Thermal hold (R562, R563). -/

/-- Does a reading enter hold: a junction at 104 °C with the core clock at the floor, or any sensor at 105 °C? -/
def entersHold (s : State) (sensor : Nat) (eighths : Int) : Bool :=
  decide (840 ≤ eighths) || (decide (sensor < 64) && decide (832 ≤ eighths) && decide (s.clock16 = 12))

/-- THERMAL_HOLD_ENTRY (R562): a hot reading stops the running work and keeps slots from starting; one HOLD record, whose
copies go to every context; its alert is raised (R647). -/
def execThermalHoldEntry (sensor : Nat) (eighths : Int) (s : State) : Host.Outcome State Fault Refusal :=
  if s.pwr.phase = .off then .next s
  else
    let s := s.readSensor sensor eighths
    if s.booted = false ∨ s.err.hold ∨ !entersHold s sensor eighths then .next s
    else
      let contexts := (s.host.contexts.map (·.1)).filter (· != s.operatorCtx)
      let f := hitInfo { cls := 3, kind := 16, unit := sensor, cause := 6, action := 4, detected := s.ts } s.ump.work
      let s := s.stopWork .hold
      let s := { s with err := { s.err with hold := true, coolSince := none } }.setFld R.bmcAlert 1 1 1
      .next (s.fault { f with affected := contexts })

/-- THERMAL_HOLD_EXIT (R562): after every sensor has read at most 98 °C for 10 ms the clock resumes at the floor, and the
next slot starts at the next multiple of 10 µs. -/
def execThermalHoldExit (s : State) : Host.Outcome State Fault Refusal :=
  match s.err.hold, s.err.coolSince with
  | true, some t =>
    let s := { s with ts := max s.ts (t + 10000000) }
    let s := if s.clock16 = 12 then s else s.setClock 12
    let s := { s with err := { s.err with hold := false, coolSince := none } }
    if s.pwr.state ≠ .active then .next s
    else
      match s.ump.slot with
      | none => .next (s.waitSlot (toQuantum s.ts))
      | some _ => .next s.extendSlot
  | _, _ => .next s

end Sys2Proof.Machine
end

