-- ==== Sys2Proof/Machine/HuddleRows.lean ====
section
/-! DEFINITION. The commands of Huddle: staged writes, checks, applies, discards (R14, R444, R474, R475, R481). -/
namespace Sys2Proof.Machine
open Sys2Proof

/-- May a port's PF stage a block's fields (R444)? -/
def mayStage (s : State) (p : Port) (off : Nat) : Bool := decide (off < 0x2_0000) || decide (p = s.host.owner)

/-- A write of staged bits joins a bank (R474). -/
def Bank.write (b : Bank) (w : StagedWrite) : Bank :=
  let b := { b with writes := b.writes ++ [w] }
  if b.phase = .pending then b else { b with phase := .staged }

/-- STAGED_WRITE (R13, R444, R474): the ST bits of one 32-bit write go to the port's bank; a write that R444 refuses sets
DENIED. -/
def execStagedWrite (port : Port) (offset : Nat) (value : Word) (s : State) : Host.Outcome State Fault Refusal :=
  match regRow offset with
  | none => .next s
  | some row =>
    if s.booted = false ∨ 0x400_0000 ≤ offset ∨ row.st = 0 then .next s
    else if !mayStage s port offset then .next (s.setFld (portKey port R.hdlStatus) 4 1 1)
    else .next (s.modBank port (fun b => b.write ⟨regKeyOf s port 0 offset row, row.st, value.toNat &&& row.st⟩))

/-- AT_TS of a write of HDL_CTL taken, on a booted device. -/
def State.hdlCtl (s : State) (p : Port) (atTs : Bool) : State :=
  s.setFld (portKey p R.hdlCtl) 3 1 (if atTs then 1 else 0)

/-- HUDDLE_CHECK (R475): a check begins; it covers the writes the bank holds now. -/
def execHuddleCheck (port : Port) (atTs : Bool) (s : State) : Host.Outcome State Fault Refusal :=
  if s.booted = false then .next s
  else .next ((s.hdlCtl port atTs).modBank port (fun b => { b with running := some .check, covered := b.writes.length }))

/-- HUDDLE_APPLY_REQUEST (R475): the same check begins for an apply at the next boundary, or at HDL_APPLY_TS; CHECK in
the same write is ignored. -/
def execHuddleApplyRequest (port : Port) (_check atTs : Bool) (s : State) : Host.Outcome State Fault Refusal :=
  if s.booted = false then .next s
  else
    let point := if atTs then some (s.reg64 (portKey port R.hdlApplyTsLo) (portKey port R.hdlApplyTsHi)) else none
    .next ((s.hdlCtl port atTs).modBank port (fun b => { b with running := some (.apply point), covered := b.writes.length }))

/-- HUDDLE_DISCARD (R475): the bank is emptied in any state; CHECK and APPLY of the same write are ignored. -/
def execHuddleDiscard (port : Port) (_check _apply atTs : Bool) (s : State) : Host.Outcome State Fault Refusal :=
  if s.booted = false then .next s
  else .next ((s.hdlCtl port atTs).modBank port (fun _ => { Bank.reset with phase := .discarded }))

/-- The bank after a check with a result code (R474, R475). -/
def Bank.checked (b : Bank) (k : RunningCheck) (code ts : Nat) : Bank :=
  let b := { b with running := none }
  match k with
  | .check =>
    if b.phase = .pending then b
    else if code ≠ 0 then { b with phase := .failed }
    else { b with phase := if b.covered = b.writes.length then .passed else .staged }
  | .apply t =>
    if code ≠ 0 then { b with phase := .failed }
    else { b with phase := .pending, applyAt := t, pendingTs := ts }

/-- HUDDLE_CHECK_DONE (R475): within 1 ms the running check ends and RULE shows the first failing code. -/
def execHuddleCheckDone (port : Port) (s : State) : Host.Outcome State Fault Refusal :=
  let b := (s.host.port port).bank
  match b.running with
  | none => .next s
  | some k =>
    let code := hdlCheck s port (b.writes.take b.covered)
    let s := s.setFld (portKey port R.hdlStatus) 16 16 code
    .next (s.modBank port (fun b => b.checked k code s.ts))

end Sys2Proof.Machine
end

