-- ==== Sys2Proof/Machine/LinkRows.lean ====
section
/-! DEFINITION. The Mirgarlink and fabric commands: ports, frames, packets, time synchronisation, sessions (chapters 1
and 11). -/
namespace Sys2Proof.Machine
open Sys2Proof

/-! Fabric (R22). -/

/-- A link of the fabric in one direction. -/
def State.fabricLink (s : State) (a b : Die) : FabricLink := Tbl.getD s.mgl.fabric (linkKey a b) .idle
/-- The state with a link set. -/
def State.setFabric (s : State) (a b : Die) (l : FabricLink) : State :=
  { s with mgl := { s.mgl with fabric := Tbl.set s.mgl.fabric (linkKey a b) l } }

/-- A flit that has arrived correct at a die: delivered there, or queued on the next link of its way (R22, R23). -/
def State.fabricAccept (s : State) (at_ : Die) (f : FabricFlit) : State :=
  if f.dst = at_ then { s with mgl := { s.mgl with delivered := s.mgl.delivered ++ [f] } }
  else
    let l := s.fabricLink at_ (nextHop at_ f.dst)
    s.setFabric at_ (nextHop at_ f.dst) { l with queue := l.queue ++ [f] }

/-- FABRIC_RESEND (R22): the receiving end asks for a flit again, and the sending end sends it and those after it in their
original order. -/
def State.fabricResend (s : State) (a b : Die) (seq : Nat) : State :=
  ((s.fabricLink a b).sent.filter (fun p => decide (seq ≤ p.1))).foldl
    (fun s p => s.emit (.fabricFlit a b p.1 p.2 (sc8Check p.2.data))) (s.emit (.fabricResend a b seq))

/-- The sending end as a flit of number `seq` arrives: a source unit's new flit is on record as the next one sent; one that
was sent before is among the last 64 as it was sent. None where the link sent no such flit. -/
def FabricLink.sentAs (l : FabricLink) (seq : Nat) (f : FabricFlit) : Option FabricLink :=
  if seq = l.next ∧ l.queue = [] then some (l.record f)
  else if l.sent.contains (seq, f) then some l
  else none

/-- FABRIC_FLIT_RECEIVE (R22): the receiving end of a link takes a flit of 64 bytes and 3 check symbols. The flit expected is
accepted with the bytes that SC8 gives it; a flit out of order is discarded; an uncorrectable one is asked for again,
and after two resends the fabric fails (R564). -/
def execFabricFlitReceive (link : Die × Die) (seq : Nat) (word : FlitArrival) (s : State) : Host.Outcome State Fault Refusal :=
  match (s.fabricLink link.1 link.2).sentAs seq word.flit with
  | none => .next s
  | some l =>
    if s.powered = false ∨ joined link.1 link.2 = false then .next s
    else if seq ≠ l.expected then .next (s.setFabric link.1 link.2 l)
    else
      let good (bytes : List Byte) : State :=
        (s.setFabric link.1 link.2 { l with expected := l.expected + 1, fails := 0 }).fabricAccept link.2 { word.flit with data := bytes.take 64 }
      match sc8Decode word.received with
      | .correct => .next (good word.received)
      | .corrected w => .next (good w)
      | .uncorrectable =>
        let s := s.setFabric link.1 link.2 { l with fails := l.fails + 1 }
        if l.fails < 2 then .next (s.fabricResend link.1 link.2 seq)
        else .next (s.deviceFails
          { cls := 5, kind := 15, unit := 4, cause := 1, action := 6, detected := s.ts, affected := runningCtx s })

/-! Ports (R374, R392 to R394). -/

/-- The four floor banks and no credit in use: credit initialisation (R374, R384). -/
def MglPort.initCredits (l : MglPort) : MglPort :=
  { l with dedicated := [], shared := [], banks := List.replicate 4 ⟨none, []⟩ }

/-- Does this device boot by pass chain over port 0 (R599)? -/
def State.chainBoot (s : State) (port : Nat) : Bool :=
  decide (s.pwr.phase = .booting) && decide (port = 0) && decide (s.regFld R.rstStraps 0 2 = 3)

/-- PORT_UP (R374): an enabled port in training reports UP when all 8 lanes trained and both ends agree on ENC, with its
session agreed where ENC is set. A booting peer, or a device booting by pass chain, comes UP in boot service without a
session (R394, R599). -/
def execPortUp (port : Nat) (peer : PeerLink) (s : State) : Host.Outcome State Fault Refusal :=
  let l := s.link port
  let base : MglPort := { MglPort.down.initCredits with phase := .up, since := s.ts }
  if peer.lanes ≠ 8 then .next s
  else if s.chainBoot port then .next (s.setLink port { base with boot := true })
  else if l.phase ≠ .training ∨ s.pwr.phase ≠ .running then .next s
  else if peer.booting then .next (s.setLink port { base with boot := true })
  else if peer.enc != s.linkEnc port then .next s
  else if s.linkEnc port && !l.secure then .next s
  else .next (s.setLink port { base with secure := l.secure, keys := l.keys })

/-- PORT_RETRY (R374): a port that has not come UP within 500 ms has failed its training; it tries again 1 s after it
began, and is fenced at the third failure within 60 s (R553). -/
def execPortRetry (port : Nat) (s : State) : Host.Outcome State Fault Refusal :=
  let l := s.link port
  if l.phase ≠ .training then .next s
  else .next ({ s with ts := max s.ts (l.since + 1000000000) }.linkFall port 1)

/-- PEER_TAKES_LINK_DOWN (R394): the peer's link goes down, and both ends retrain by R374. -/
def execPeerTakesLinkDown (port : Nat) (s : State) : Host.Outcome State Fault Refusal :=
  if (s.link port).phase ≠ .up then .next s
  else .next (s.linkDown port 1 (if s.linkEn port then .training else .down))

/-! Sessions (R392, R393). The device offers an encapsulation key and an ECDH public key, and the peer answers with a
ciphertext and its own public key: the spec gives neither end its part. DESIGN CHOICE (assumption 237). -/

/-- The seeds of an ML-KEM key pair, and the ECDH private key, that a handshake draws (R519). -/
def kemSeeds (s : State) : Nat := (Config.freeValue 512 s.freeCtr).toNat
def ecdhKey (s : State) : Nat := (Config.freeValue 384 (s.freeCtr + 1)).toNat % (p384Order - 1) + 1

/-- The secrets of the two agreements, one after the other; none where the peer's public key is no point of the curve. -/
def linkSecret (s : State) (peer : PeerProof) : Option (List Byte) :=
  (ecdhSecret (ecdhKey s) peer.ecdh).map (fun e =>
    kemDecaps (bytesOf 32 (kemSeeds s)) (bytesOf 32 (kemSeeds s / 2 ^ 256)) peer.ciphertext ++ e)

/-- The two keys of a session, one per direction, in a key slot: HKDF-SHA-384 over the transcript (R392). -/
def sessionKeys (keys : Tbl (BitVec 256)) (slot : Nat) (secret transcript : List Byte) : Tbl (BitVec 256) :=
  [0, 1].foldl (fun t d => Tbl.set t (2 * slot + d)
    (BitVec.ofNat 256 (ofBytes (hkdfSha384 (sha384Bytes transcript) secret [BitVec.ofNat 8 d] 32)))) keys

/-- Is the peer one this device opens a session with (R392, R541): its chain verifies and its alias key signed the transcript, the
member list names it, and the alias key that signs this end's transcript exists? -/
def peerAccepted (s : State) (peer : PeerProof) : Bool :=
  peer.verified && ecdsaVerify peer.aliasKey peer.transcript peer.signature && s.ref.groupList.contains peer.devId && s.ref.aliasKey

/-- This end's messages of a handshake (R392): its offer, and for a peer it accepts its signature of the transcript. -/
def State.handshake (s : State) (port : Nat) (peer : PeerProof) : State :=
  let offer := kemPublic (bytesOf 32 (kemSeeds s)) ++ p384Public (ecdhKey s)
  let accepted := peerAccepted s peer
  let s := { s with freeCtr := s.freeCtr + 2 }.sendLmc port 5 (offer.map BitVec.toNat)
  if accepted then
    let (sig, s) := s.signed peer.transcript
    s.sendLmc port 6 (sig.map BitVec.toNat)
  else s

/-- SESSION_HANDSHAKE (R392): a port in training that requires encryption gets its session keys and sets SECURE, or goes
down for want of a session. -/
def execSessionHandshake (port : Nat) (peer : PeerProof) (s : State) : Host.Outcome State Fault Refusal :=
  let l := s.link port
  if l.phase ≠ .training ∨ s.linkEnc port = false then .next s
  else
    let secret := if peerAccepted s peer then linkSecret s peer else none
    let s := s.handshake port peer
    match secret with
    | some secret => .next (s.setLink port { l with secure := true, keys := sessionKeys [] 0 secret peer.transcript })
    | none =>
      .next ((s.setLink port { MglPort.down with phase := .training, since := l.since }).opEvent
        (eventRec 0x00A0 0 s.ts [(4, 0, 4, port), (4, 4, 4, 3)]))

/-- REKEY (R393): after 2^30 frames in a direction a new session goes into the other key slot, to which each direction switches
at a frame boundary by KEY_EPOCH: this end's with its next frame, the peer's with the first frame that names it. -/
def execRekey (port : Nat) (peer : PeerProof) (s : State) : Host.Outcome State Fault Refusal :=
  let l := s.link port
  if l.phase ≠ .up ∨ l.secure = false ∨ (l.txFrames < 2 ^ 30 ∧ l.rxFrames < 2 ^ 30) ∨ l.keyEpochTx ≠ l.newSlot ∨
      l.keyEpochRx ≠ l.newSlot then .next s
  else
    let secret := if peerAccepted s peer then linkSecret s peer else none
    let s := s.handshake port peer
    match secret with
    | some secret =>
      .next (s.setLink port { l with keys := sessionKeys l.keys (1 - l.newSlot) secret peer.transcript, newSlot := 1 - l.newSlot })
    | none => .next s

/-- REKEY_LIMIT (R393): a port whose new session is not in place by 2^31 frames goes down. -/
def execRekeyLimit (port : Nat) (s : State) : Host.Outcome State Fault Refusal :=
  let l := s.link port
  if l.phase = .up ∧ l.secure = true ∧ ((l.keyEpochTx = l.newSlot ∧ 2 ^ 31 ≤ l.txFrames) ∨ (l.keyEpochRx = l.newSlot ∧ 2 ^ 31 ≤ l.rxFrames)) then .next (s.linkDown port 4 .training)
  else .next s

/-! Frames (R375, R376). -/

/-- The flits of a received frame that passes its three checks. A SECURE port takes no frame with ENC = 0 (R393). -/
def frameFlits (l : MglPort) (port : Nat) (f : LinkFrame) : Option (List Byte) :=
  if f.decoded && decide (f.seq = l.rxSeq) && f.enc == l.secure && decide (f.reserved = 0) &&
    (!f.enc || f.keyEpoch == l.keyEpochRx || f.keyEpoch == l.newSlot) then
    frameOpen l.keys port 1 f.seq f.keyEpoch f.enc f.tag f.flits
  else none

/-- FRAME_RECEIVE (R376): a frame that passes is delivered once and in order; another is discarded and a replay is
requested; the third failure of one frame takes the port down. -/
def execFrameReceive (port : Nat) (frame : LinkFrame) (s : State) : Host.Outcome State Fault Refusal :=
  let l := s.link port
  if l.phase ≠ .up then .next s
  else match frameFlits l port frame with
  | some flits =>
    let (ps, rest) := parseFlits 2048 (l.rxPartial ++ flits)
    let epoch := if frame.enc then frame.keyEpoch else l.keyEpochRx
    let s := s.setLink port { l with
      rxSeq := l.rxSeq + 1, rxFails := 0, keyEpochRx := epoch
      rxFrames := if epoch = l.keyEpochRx then l.rxFrames + 1 else 1, rxPartial := rest, rxQueue := l.rxQueue ++ ps }
    .next (s.count (queueXd port) 7 1 ((ps.map Packet.flits).sum) { unit := port % 8 })
  | none =>
    let fails := if frame.decoded && decide (frame.seq ≠ l.rxSeq) then l.rxFails else l.rxFails + 1
    if 3 ≤ fails then .next (s.linkFall port 2)
    else .next ((s.setLink port { l with rxFails := fails }).sendLmc port 1 [l.rxSeq])

/-- LMC_REPLAY_REQUEST (R376): the frames from the requested one onward are sent again; a frame that has left the last
32 takes the port down. -/
def execLmcReplayRequest (port : Nat) (seq : Nat × LmcCheck) (s : State) : Host.Outcome State Fault Refusal :=
  let l := s.link port
  let again := l.replay.filter (fun f => decide (seq.1 ≤ f.seq))
  if l.phase ≠ .up ∨ l.txSeq ≤ seq.1 ∨ !lmcTaken s port 1 [seq.1] seq.2 then .next s
  else if !(l.replay.any (fun f => f.seq == seq.1)) then .next (s.linkFall port 2)
  else
    let s := s.bump R.mglReplay again.length
    let s := s.count (queueXd port) 7 2 again.length { unit := port % 8 }
    let resend (s : State) (f : SentFrame) : State :=
      let (tag, wire) := frameSeal l.keys port 0 f.seq f.keyEpoch l.secure f.flits
      s.emit (.frame port f.seq f.keyEpoch l.secure tag wire)
    .next (again.foldl resend s)

/-- LMC_CREDIT_RETURN (R383, R384): flits of a VC free at the next device again. -/
def execLmcCreditReturn (port vc : Nat) (count : Nat × LmcCheck) (s : State) : Host.Outcome State Fault Refusal :=
  let l := s.link port
  if l.phase ≠ .up ∨ !lmcTaken s port 4 [vc, count.1] count.2 then .next s
  else .next (s.setLink port ((l.returnCredit vc count.1).freeBanks (s.ump.work.map (·.did))))

/-! Packets (R379, R381). -/

/-- The TYPE values of R378. -/
def knownType (ty : Nat) : Bool := [0x01, 0x02, 0x03, 0x10, 0x11, 0x20, 0x21, 0x22, 0x30].contains ty

/-- Is a packet's header within range (R378, R379)? -/
def Packet.inRange (k : Packet) : Bool :=
  (decide (k.ch ≤ 67) || decide (k.ch = 127)) && knownType k.ty && decide (k.len ≤ 4096) && decide (k.reserved = 0)

/-- A MGMT_CMD whose CMD is out of range: discarded with no effect and no reply (R609, R610). -/
def badMgmt (k : Packet) : Bool := k.ty == 0x30 && !([1, 2, 3].contains (ofBytes (k.data.take 1)))

/-- A packet delivered on this device; PKT_RX for reduction and dispatch traffic (R578). -/
def State.deliver (s : State) (port : Nat) (k : Packet) : State :=
  if badMgmt k then s
  else
  let s := { s with mgl := { s.mgl with inbox := s.mgl.inbox ++ [⟨port, (s.link port).secure, k⟩] } }
  if 1 ≤ k.ty ∧ k.ty ≤ 3 then s.trace (queueXd port) 13 0 (k.src + 2 ^ 12 * k.ch + 2 ^ 32 * k.tsLo) else s

/-- PACKET_ROUTE (R379, R382, R383, R394): the oldest received packet of a port is delivered, forwarded in order, or
dropped; a packet that is not forwarded frees its buffer. -/
def execPacketRoute (port : Nat) (s : State) : Host.Outcome State Fault Refusal :=
  let l := s.link port
  match l.rxQueue with
  | [] => .next s
  | k :: rest =>
    let s := s.setLink port { l with rxQueue := rest }
    let out := s.route k.dst
    let free := s.freeBuffer port k
    if l.boot && s.pwr.phase = .booting then .next (free.deliver port k)
    else if l.boot then
      if k.ty = 0x21 ∧ k.ch = 127 ∧ k.inRange then .next (free.deliver port k) else .next (free.dropPacket port k.dst 3)
    else if !k.inRange then .next (free.dropPacket port k.dst 3)
    else if k.hops = 4 ∧ k.dst ≠ s.rank then .next (free.dropPacket port k.dst 1)
    else if out = 16 then .next (free.deliver port k)
    else if out < 16 && s.linkUp out then .next (s.enqueue out ⟨port, none, 0, false, k⟩)
    else .next (free.dropPacket port k.dst 2)

/-- The class of a VC in R381: 0 MGMT, 1 ordinary, 2 fast-break, 3 reduction. -/
def vcClass (vc : Nat) : Nat := if vc = 0 then 0 else if vc ≤ 4 then 2 else if vc ≤ 12 then 3 else 1

/-- Flits a class sent in the last 1,024 flit slots. -/
def MglPort.sentBy (l : MglPort) (cls : Nat) : Nat := ((l.window.filter (fun w => w.1 == cls)).map (·.2)).sum

/-- The window of flit slots with more sent, newest first, cut at 1,024 slots. -/
def pushWindow (w : List (Nat × Nat)) (cls n : Nat) : List (Nat × Nat) :=
  (((cls, n) :: w).foldl (fun (acc : List (Nat × Nat) × Nat) x =>
    if 1024 ≤ acc.2 then acc else (acc.1 ++ [(x.1, min x.2 (1024 - acc.2))], acc.2 + x.2)) ([], 0)).1

/-- The heads of the queues of R382: the first packet of each input port, VC and hop class. -/
def queueHeads (q : List QueuedPacket) : List QueuedPacket :=
  q.foldl (fun acc x => if acc.any (fun y => y.fromPort == x.fromPort && y.packet.vc == x.packet.vc &&
    y.packet.hops == x.packet.hops) then acc else acc ++ [x]) []

/-- The seven rules of R381: the class each serves and whether it applies now. -/
def arbRules (s : State) (l : MglPort) : List (Nat × Bool) :=
  [(0, decide (l.sentBy 0 < 16)), (1, decide (l.sentBy 1 < 64)),
   (2, decide (l.sentBy 2 < s.regFld R.mglCtl 20 4 * 64)), (3, true), (1, true), (0, true), (2, true)]

/-- The next of a class's ready heads after the one served last, by VC and then input port (R381). -/
def nextHead (last : Nat) (cs : List QueuedPacket) : Option QueuedPacket :=
  let key (q : QueuedPacket) : Nat := q.packet.vc * 17 + q.fromPort
  let pick (cs : List QueuedPacket) : Option QueuedPacket :=
    cs.foldl (fun b q => match b with
      | none => some q
      | some x => if key q < key x then some q else some x) none
  match pick (cs.filter (fun q => decide (last < key q))) with
  | some q => some q
  | none => pick cs

/-- The packet R381 sends next, with its rule and credit taken: heads without credit wait. -/
def choosePacket (s : State) (l : MglPort) : Option (Nat × QueuedPacket × MglPort) :=
  let heads := (queueHeads l.txQueue).filter (fun q => (takeCredit s l q).isSome)
  (arbRules s l).findSome? (fun r =>
    if r.2 then
      match nextHead (Tbl.getD l.rrVc r.1 0) (heads.filter (fun q => vcClass q.packet.vc == r.1)) with
      | some q => (takeCredit s l q).map (fun l => (r.1, q, l))
      | none => none
    else none)

/-- OUTPUT_ARBITRATION (R379, R381): the packet that R381 chooses is sent with HOPS raised by 1; with none to send an
idle flit goes out (R375); a packet of another port frees its buffer (R383). -/
def execOutputArbitration (port : Nat) (s : State) : Host.Outcome State Fault Refusal :=
  let l := s.link port
  if l.phase ≠ .up then .next s
  else match choosePacket s l with
    | none =>
      let waits := !l.txQueue.isEmpty
      let s := s.setLink port { l with window := pushWindow l.window 4 1, txOpen := l.txOpen ++ List.replicate 64 0 }
      .next ((if waits then s.count (queueXd port) 7 5 1 { unit := port % 8 } else s).closeFrames port)
    | some (cls, q, l) =>
      let k := { q.packet with hops := q.packet.hops + 1, tsLo := if q.fromPort = 16 then wrap32 s.ts else q.packet.tsLo }
      let n := k.flits
      let s := s.setLink port { l with
        txQueue := l.txQueue.erase q
        txOpen := l.txOpen ++ k.bytes
        window := pushWindow l.window cls n
        rrVc := Tbl.set l.rrVc cls (k.vc * 17 + q.fromPort) }
      let s := s.emit (.packet port k.ty k.vc k.dst [k.src, k.hops, k.ch, k.len, k.tsLo, k.seq] k.data)
      let s := s.count (queueXd port) 7 0 n { unit := port % 8 }
      let s := if cls = 2 then s.count (queueXd port) 7 4 n { unit := port % 8 } else s
      let s := if q.fromPort = 16 then s.chargeLink (q.work, q.ctx, q.isSealed) { Charges.zero with mglTx := 64 * n } else s.freeBuffer q.fromPort q.packet
      .next (s.closeFrames port)

/-! Time synchronisation (R389 to R391). -/

/-- TSYNC_EXCHANGE (R389, R391): every 125 µs SYNC_REQ goes out on the upstream port, stamped to 1/16 ns; a request still
without its reply counts as missed, and so does an exchange that finds the port not UP. -/
def execTsyncExchange (s : State) : Host.Outcome State Fault Refusal :=
  let p := s.regFld R.mglTsyncCtl 16 4
  if s.regFld R.mglTsyncCtl 31 1 = 1 then .next s
  else
    let t := s.mgl.tsync
    let missed := if t.t1.isSome || !s.linkUp p then t.missed + 1 else t.missed
    if s.linkUp p = false then .next { s with mgl := { s.mgl with tsync := { t with t1 := none, missed := missed } } }
    else
      let frac := (s.freeVal 4).toNat
      let s := s.freed
      .next ({ s with mgl := { s.mgl with tsync := { t with t1 := some (16 * s.ts + frac), missed := missed } } }.sendLmc p 2 [])

/-- SYNC_REQ (R389): the upstream device stamps the arrival, and replies with its stamps, its state and its HOPS. -/
def execSyncReq (port : Nat × LmcCheck) (s : State) : Host.Outcome State Fault Refusal :=
  if s.linkUp port.1 = false ∨ !lmcTaken s port.1 2 [] port.2 then .next s
  else
    let t2 := 16 * s.ts + (s.freeVal 4).toNat
    let s := s.freed
    let t3 := t2 + (s.freeVal 16).toNat
    let s := s.freed
    let (st, hops) := s.tsyncShown
    .next (s.sendLmc port.1 3 [t2, t3, st, hops])

/-- The timestamp once the counter is stepped by θ (R390): never back once work has run. -/
def stepTs (s : State) (theta : Int) : Nat :=
  let x : Int := (s.ts : Int) + theta / 16
  if theta < 0 ∧ s.mgl.tsync.everRan then s.ts else x.toNat

/-- θ of R389 in 1/16 ns. -/
def thetaOf (s : State) (t1 t2 t3 t4 : Nat) : Int :=
  (((t2 : Int) - t1) - ((t4 : Int) - t3) - signed 16 (s.regFld R.mglTsyncCtl 0 16)) / 2

/-- OFFSET of R398, saturating. -/
def offsetField (theta : Int) : Nat := ((min 32767 (max (-32768) theta)) % 65536).toNat

/-- SYNC_REPLY (R389 to R391, R616): the reply arrives at t4 of this device's counter, which has not passed it yet; θ is computed
and shown; the first exchange steps the counter, later ones slew it at no more than 200 ppm; 8 good exchanges below a LOCKED
upstream lock it. -/
def execSyncReply (t2 t3 t4 st : Nat) (hops : Nat × LmcCheck) (s : State) : Host.Outcome State Fault Refusal :=
  let t := s.mgl.tsync
  match if lmcTaken s (s.regFld R.mglTsyncCtl 16 4) 3 [t2, t3, st, hops.1] hops.2 then t.t1 else none with
  | none => .next s
  | some t1 =>
    let t4 := max t4 (16 * s.ts)
    let s := { s with ts := t4 / 16 }
    let theta := thetaOf s t1 t2 t3 t4
    let good := if theta.natAbs ≤ 24 then t.good + 1 else 0
    let mine := hops.1 + 1
    let locked := decide (st = 2) && decide (mine ≤ 4) && decide (8 ≤ good)
    let first := decide (t.st = 0)
    let next := if first then 1 else if locked then 2 else if t.st = 3 then 3 else 1
    let rate : Nat := (s.freeVal 8).toNat % 201
    let s := s.freed
    let ppm : Int := if theta = 0 then 0 else if theta < 0 then -(rate : Int) else rate
    let s := if first then { s with ts := stepTs s theta } else s
    let s := s.setTsync { t with
      st := next, hops := mine, good := good, lastExchange := s.ts, missed := 0, t1 := none, ppm := if first then 0 else ppm }
    let s := s.setFld R.mglTsyncStatus 16 16 (offsetField theta)
    let p := s.regFld R.mglTsyncCtl 16 4
    let s := s.trace (queueXd p) 14 0 (offsetField theta + 2 ^ 16 * next)
    if next = 2 ∧ s.regFld R.rstStraps 2 2 = 2 ∧ s.linkUp 0 then .next (s.setFld R.clkStatus 7 1 1) else .next s

/-- TSYNC_TIMEOUT (R391): 1 ms without an exchange is UNLOCKED, 2 missed exchanges are HOLDOVER. -/
def execTsyncTimeout (s : State) : Host.Outcome State Fault Refusal :=
  let t := s.mgl.tsync
  if s.regFld R.mglTsyncCtl 31 1 = 1 ∨ t.st = 0 then .next s
  else if t.lastExchange + 1000000 ≤ s.ts then .next (s.setTsync { t with st := 0, good := 0 })
  else if 2 ≤ t.missed then .next (s.setTsync { t with st := 3, good := 0 })
  else .next s

end Sys2Proof.Machine
end

