-- ==== Sys2Proof/Machine/LoadRows.lean ====
section
/-! DEFINITION. SCHED_LOAD and SCHED_UNLOAD (R465). -/
namespace Sys2Proof.Machine
open Sys2Proof

/-- MR7: slot and digest of a schedule image loaded or unloaded (R525). -/
def State.measureSchedule (s : State) (slot digest : Nat) : State := s.extendMrBytes 7 (BitVec.ofNat 8 slot :: bytesOf 48 digest)

/-- SCHED_LOAD (R465): the image is checked and held in its slot. A failing entry's byte offset is a free value, since the
image's container layout is not given. -/
def execSchedLoad (ctx ring : Nat) (image : Option ImageSrc) (s : State) : Host.Outcome State Fault Refusal :=
  match s.oldest ctx ring 0x51 with
  | none => .next s
  | some a =>
    let d := a.desc
    let n := fld d 24 0 64
    let slot := fld d 32 0 3
    if fld d 8 0 32 ≠ 1 ∨ fld d 32 3 253 ≠ 0 ∨ n < 4096 ∨ 268435456 < n then .next (s.finish a.did stBad 0 0xFFFFFFFF)
    else match image with
      | none => .next (s.finish a.did stBad 0 0xFFFFFFFF)
      | some src =>
        if (Tbl.get? s.ump.images slot).isSome || (s.imageOf src.imageId).isSome then .next (s.finish a.did stBad 0 0xFFFFFFFF)
        else if !imageOk s src then .next (s.freed.finish a.did stBad 0 (s.freeVal 32).toNat)
        else
          let i := imageOfSrc src
          let s := { s with ump := { s.ump with images := Tbl.set s.ump.images slot i } }
          .next ((s.measureSchedule slot i.digest).finish a.did stOk)

/-- SCHED_UNLOAD (R465): from its acceptance the image takes no new descriptor. -/
def execSchedUnload (ctx ring : Nat) (s : State) : Host.Outcome State Fault Refusal :=
  match s.oldest ctx ring 0x52 with
  | none => .next s
  | some a =>
    let d := a.desc
    let slot := fld d 32 0 3
    if fld d 8 0 32 ≠ 1 ∨ fld d 16 0 128 ≠ 0 ∨ fld d 32 3 253 ≠ 0 then .next (s.finish a.did stBad)
    else match Tbl.get? s.ump.images slot with
      | none => .next (s.finish a.did stBad)
      | some i =>
        if i.unloading || s.lkr.records.any (fun r => r.imageId == i.imageId) then .next (s.finish a.did stBad)
        else
          let j : Image := { i with unloading := true, unloadDid := some a.did }
          .next { s.begin a.did with ump := { s.ump with images := Tbl.set s.ump.images slot j } }

/-- Does an accepted descriptor name a class or program of an image (R285, R301)? -/
def namesImage (s : State) (slot : Nat) (i : Image) (a : Accepted) : Bool :=
  let d := a.desc
  match fld d 0 0 8 with
  | 0x20 => ((s.classOf (fld d 20 0 32) (fld d 16 0 16)).elim false (fun k => k.1 == slot)) ||
      s.ump.ready.any (fun r => r.did == a.did && (s.classOf r.epoch r.cls).elim false (fun k => k.1 == slot))
  | 0x40 => (s.programOf (fld d 40 0 16)).elim false (fun p => p.1 == slot)
  | 0x41 => s.ump.steps.any (fun p => p.did == a.did && p.imageId == i.imageId) ||
      (!a.begun && (s.programOf (fld d 40 0 16)).elim false (fun p => p.1 == slot))
  | _ => false

/-- SCHED_UNLOAD_DONE (R465): no accepted descriptor of the image remains, and its slot is free. -/
def execSchedUnloadDone (slot : Nat) (s : State) : Host.Outcome State Fault Refusal :=
  match Tbl.get? s.ump.images slot with
  | none => .next s
  | some i =>
    if !i.unloading || s.host.accepted.any (namesImage s slot i) then .next s
    else
      let s := { s with
        ump := { s.ump with images := Tbl.erase s.ump.images slot }
        wst := { s.wst with fences := s.wst.fences.filter (fun f => f.imgSlot != slot) }
        err := { s.err with fencedSchedules := s.err.fencedSchedules.filter (fun f => f.1 != slot) } }
      let s := s.measureSchedule slot i.digest
      .next (i.unloadDid.elim s (fun did => s.finish did stOk))

end Sys2Proof.Machine
end

