-- ==== Sys2Proof/Machine/PowerRows.lean ====
section
/-! DEFINITION. The power, reset and clock commands (chapters 18 and 20). -/
namespace Sys2Proof.Machine
open Sys2Proof

/-! Power and resets (R604 to R607, R637 to R641). -/

/-- Readings numbered from 0 taken into a table. -/
def readAll {α : Type} (t : Tbl α) (xs : List α) : Tbl α := xs.zipIdx.foldl (fun t p => Tbl.set t p.2 p.1) t

/-- POWER_UP (R639): PWR_EN goes high with V48 applied; the rails ramp in order and PWR_GOOD rises; SYS_RST_N is low. -/
def execPowerUp (s : State) : Host.Outcome State Fault Refusal :=
  if s.pwr.phase ≠ .off ∨ s.pwr.v48 = false then .next s
  else
    let s := s.coldState 0 .coldReset
    .next { s with pwr := { s.pwr with
      pwrEn := true, powerGood := true, sysRstN := false, trip := false, railsUp := List.range 9 } }

/-- POWER_DOWN (R640): PWR_GOOD goes low and the rails go down in reverse order; this wins over everything in
progress. -/
def execPowerDown (s : State) : Host.Outcome State Fault Refusal :=
  let s := s.coldState 0 .off
  .next { s with pwr := { s.pwr with
    pwrEn := false, powerGood := false, sysRstN := false, trip := false, railsUp := [], rails := [], sensors := [] } }

/-- COLD_RESET (R604): SYS_RST_N held low. -/
def execColdReset (s : State) : Host.Outcome State Fault Refusal :=
  if s.pwr.phase = .off then .next s
  else
    let s := s.coldState 1 .coldReset
    .next { s with pwr := { s.pwr with sysRstN := false } }

/-- SYS_RST_N_RELEASE (R597, R639, R640): the straps are sampled and the boot begins; without PWR_GOOD it has no effect,
and a thermal trip holds the device in reset (R607). -/
def execSysRstNRelease (straps : Nat) (s : State) : Host.Outcome State Fault Refusal :=
  if s.pwr.powerGood = false ∨ s.pwr.phase ≠ .coldReset ∨ s.pwr.sysRstN = true then .next s
  else
    let s := s.setReg R.rstStraps (BitVec.ofNat 32 (straps % 16))
    let s := { s with pwr := { s.pwr with sysRstN := true } }
    .next (if s.pwr.trip then s else s.startBoot)

/-- WARM_RESET (R604, R605): WARM_RST_N held low. -/
def execWarmReset (s : State) : Host.Outcome State Fault Refusal := .next (s.warmReset 5)

/-- RST_CTL_WARM (R604): a write of 1 to WARM from the control owner's PF. -/
def execRstCtlWarm (port : Port) (value : Word) (s : State) : Host.Outcome State Fault Refusal :=
  if port = s.host.owner ∧ wordFld value 0 1 = 1 then .next (s.warmReset 6) else .next s

/-- THERMAL_TRIP (R604, R607, R641): a junction sensor at 112 °C or more drives THERM_TRIP_N low and causes a cold
reset, which lasts until every sensor has cooled; the record goes out first (R564, R565). -/
def execThermalTrip (sensor : Nat) (eighths : Int) (s : State) : Host.Outcome State Fault Refusal :=
  let s := s.readSensor sensor eighths
  if s.pwr.phase = .off ∨ 64 ≤ sensor ∨ eighths < 896 ∨ s.pwr.trip then .next s
  else
    let s := if s.booted then s.failDevice 16 sensor 6 else s
    let s := s.coldState 2 .coldReset
    .next { s with pwr := { s.pwr with trip := true } }

/-- THERMAL_TRIP_END (R607, R641): every sensor at most 90 °C; THERM_TRIP_N is released and the device leaves reset. -/
def execThermalTripEnd (readings : List Int) (s : State) : Host.Outcome State Fault Refusal :=
  let s := { s with pwr := { s.pwr with sensors := readAll s.pwr.sensors readings } }
  let cool := (s.pwr.sensors.filter (fun p => decide (p.1 < 64))).all (fun p => decide (p.2 ≤ 720))
  if s.pwr.trip = false ∨ !cool then .next s
  else
    let s := { s with pwr := { s.pwr with trip := false } }
    .next (if s.pwr.sysRstN && decide (s.pwr.phase = .coldReset) then s.startBoot else s)

/-- A rail fault (R637, R604): the cold reset, the rail's bit and its alert, and every rail down. A hub can still write
its record unless its own rail has failed (R565). -/
def State.railFails (s : State) (rail : Option Nat) : State :=
  if s.pwr.phase = .off then s
  else
    let s := if s.booted && rail.elim true (fun r => decide (1 < r)) then
        s.failDevice (if rail.isSome then 18 else 0) (rail.getD 0) 7
      else s
    let s := s.coldState 3 .off
    let s := { s with pwr := { s.pwr with powerGood := false, sysRstN := false, railsUp := [], rails := [], trip := false } }
    match rail with
    | some r =>
      let s := s.setReg R.bmcRailFault (s.regAt R.bmcRailFault ||| BitVec.ofNat 32 (2 ^ r))
      s.setFld R.bmcAlert 2 1 1
    | none => s

/-- RAIL_FAULT (R637). -/
def execRailFault (rail : Nat) (s : State) : Host.Outcome State Fault Refusal := .next (s.railFails (some rail))

/-- INPUT_UNDERVOLTAGE (R637): V48 below 38 V, handled in the same way; it names no rail. -/
def execInputUndervoltage (millivolts : Nat) (s : State) : Host.Outcome State Fault Refusal :=
  if 38000 ≤ millivolts then .next s
  else .next ({ s with pwr := { s.pwr with mv48 := millivolts } }.railFails none)

/-- UMPIRE_WATCHDOG (R604, R564, R565): the scheduling hub's firmware shows no progress for 50 ms. -/
def execUmpireWatchdog (s : State) : Host.Outcome State Fault Refusal :=
  if s.booted = false then .next s
  else
    let unit := if s.host.owner = .a then 2 else 3
    let s := s.failDevice 15 unit 8
    .next (s.warmReset 8)

/-- REFEREE_FAULT (R517, R564): causes 1 SC8, 3 self-check, 8 watchdog. -/
def execRefereeFault (cause : Nat) (s : State) : Host.Outcome State Fault Refusal :=
  if s.powered = false then .next s
  else
    let s := if s.booted then s.failDevice 17 0 cause else s
    .next (s.coldReset 4)

/-- PORT_RESET (R606, R607): PERST low; while a reset of the device is under way it has no further effect. -/
def execPortReset (port : Port) (s : State) : Host.Outcome State Fault Refusal :=
  let s := s.modPort port (fun p => { p with perst := true, linkUp := false })
  .next (if s.booted then s.portReset port else s)

/-- FUNCTION_LEVEL_RESET (R606, R607): an FLR of a PF acts as a port reset. -/
def execFunctionLevelReset (port : Port) (func : Nat) (s : State) : Host.Outcome State Fault Refusal :=
  if s.booted = false then .next s
  else if func = 0 then .next (s.portReset port)
  else if funcExists s port func then .next (s.vfReset port func)
  else .next s

/-- PERST_DEASSERTION (R602, R639): the port's link comes up and its configuration space answers; not before step 5. -/
def execPerstDeassertion (port : Port) (s : State) : Host.Outcome State Fault Refusal :=
  if s.pwr.sysRstN = false then .next s
  else .next (s.modPort port (fun p => { p with perst := false, linkUp := true }))

/-! Power states (R611 to R614, R620). -/

/-- PWR_REQ_ACTIVE (R613): a write of PWR_CTL.REQ = 0. -/
def execPwrReqActive (_port : Port) (s : State) : Host.Outcome State Fault Refusal :=
  if s.powered then .next (s.requestPower .active) else .next s

/-- PWR_REQ_IDLE (R612): a write of PWR_CTL.REQ = 1. -/
def execPwrReqIdle (_port : Port) (s : State) : Host.Outcome State Fault Refusal :=
  if s.powered then .next (s.requestPower .idle) else .next s

/-- PWR_REQ_STANDBY (R612): a write of PWR_CTL.REQ = 2. -/
def execPwrReqStandby (_port : Port) (s : State) : Host.Outcome State Fault Refusal :=
  if s.powered then .next (s.requestPower .standby) else .next s

/-- The keys of PWR_VF_STATUS of a port's enabled VFs. -/
def State.vfStatusKeys (s : State) (p : Port) : List Nat :=
  (List.range (s.host.port p).vfs).map (fun i => vfStatusKey p (i + 1))

/-- PWR_VF_STATUS of every enabled VF is refreshed every 100 ms (R621, R539). -/
def State.refreshVfPower (s : State) (watts : Nat) : State :=
  if s.ts < s.pwr.vfTs + 100000000 then s
  else
    let from_ := s.pwr.vfTs
    let low := decide (s.clock16 < 16) || s.pwr.lastThrottle.elim false (fun t => decide (from_ ≤ t))
    let s := { s with pwr := { s.pwr with vfTs := from_ + (s.ts - from_) / 100000000 * 100000000 } }
    let value := BitVec.ofNat 32 (min 255 (watts / 25) + if low then 256 else 0)
    (s.vfStatusKeys .a ++ s.vfStatusKeys .b).foldl (fun s k => s.setReg k value) s

/-- What a tick of the power controller does to the clock (R617): one step down, one step up, or none. -/
def clockChoice (s : State) (watts : Nat) (junction : Int) : Nat :=
  let n := s.clock16
  let limit := s.regFld R.pwrLimit 0 12
  if limit < watts ∨ 800 ≤ junction then
    if 12 < n ∧ s.pwr.lastStep + 1000000 ≤ s.ts then n - 1 else n
  else if n < 16 ∧ 16 * watts < 15 * limit ∧ junction ≤ 760 ∧
      s.pwr.lowSince.elim false (fun t => decide (t + 10000000 ≤ s.ts) && decide (s.pwr.lastStep + 10000000 ≤ s.ts)) then n + 1
  else n

/-- While the device is held, since when every sensor has read at most 98 °C (R562). -/
def State.trackCool (s : State) : State :=
  let cool := s.err.hold && s.pwr.sensors.all (fun p => decide (p.2 ≤ 784))
  { s with err := { s.err with coolSince := if cool then some (s.err.coolSince.getD s.ts) else none } }

/-- A reading of the sensors and meters taken up (R646): readings of the dies that are powered, input voltage and current, PWR_MEAS
and PWR_TEMP. -/
def State.takeReading (s : State) (reading : PowerReading) : State :=
  let s := { s with pwr := { s.pwr with
    sensors := (readAll s.pwr.sensors reading.sensors).filter (fun p => sensorPowered s p.1)
    rails := readAll s.pwr.rails reading.rails
    mv48 := reading.mv48, amps := reading.milliamps } }
  let s := s.trackCool
  let s := s.setReg R.pwrMeas (BitVec.ofNat 32 (min 65535 reading.watts))
  let junction := (hottest s.pwr.sensors).getD 0
  let inlet := Tbl.getD s.pwr.sensors 64 0
  s.setReg R.pwrTemp (BitVec.ofNat 32 (wholeDegrees junction + 256 * wholeDegrees inlet))

/-- The core clock steered by a reading (R617). -/
def State.steerClock (s : State) (watts : Nat) : State :=
  let junction := (hottest s.pwr.sensors).getD 0
  let limit := s.regFld R.pwrLimit 0 12
  let low := decide (16 * watts < 15 * limit) && decide (junction ≤ 760)
  let s := { s with pwr := { s.pwr with lowSince := if low then some (s.pwr.lowSince.getD s.ts) else none } }
  let n := clockChoice s watts junction
  if n = s.clock16 then s else s.setClock n

/-- POWER_CONTROL_TICK (R617, R621, R644): the readings are taken in, and the core clock steps at most once. -/
def execPowerControlTick (reading : PowerReading) (s : State) : Host.Outcome State Fault Refusal :=
  if s.pwr.phase = .off then .next s
  else
    let s := s.takeReading reading
    if s.booted = false then .next s
    else
      let s := s.refreshVfPower reading.watts
      .next (if s.pwr.state ≠ .active then s else s.steerClock reading.watts)

/-! Group management commands (R609, R610). -/

/-- The first delivered MGMT_CMD with a CMD value. -/
def isMgmt (cmd : Nat) (k : InboxPacket) : Bool := k.packet.ty == 0x30 && ofBytes (k.packet.data.take 1) == cmd

/-- Is a MGMT_CMD accepted (R610): a SECURE port, the controller rank, fields in range, a newer MGMT_SEQ? -/
def mgmtAccepted (s : State) (k : InboxPacket) : Bool :=
  let w (off n : Nat) : Nat := ofBytes ((k.packet.data.drop off).take n)
  k.secure && decide (k.packet.src = s.ref.controllerRank) && !s.ref.groupList.isEmpty && decide (k.packet.len = 24) &&
    decide (w 0 4 < 256) && decide (w 4 4 = s.rank) && decide (s.pwr.mgmtSeq < w 8 8)

/-- A management command acts (R610): as RST_CTL.WARM, or as a write of PWR_CTL.REQ. -/
def State.mgmtAct (s : State) (a : MgmtAction) : State :=
  match a with
  | .warmReset => s.warmReset 7
  | .halfTime => s.requestPower .idle
  | .resume => s.requestPower .active

/-- A management command taken from the delivered packets (R609, R610): discarded without a reply unless accepted; one
with AT_TS 0 acts at once, another waits and replaces one that still waits. -/
def State.mgmt (s : State) (cmd : Nat) (a : MgmtAction) : State :=
  match s.inbox? (isMgmt cmd) with
  | none => s
  | some k =>
    let s := s.takeInbox (isMgmt cmd)
    if !mgmtAccepted s k then s
    else
      let at_ := ofBytes ((k.packet.data.drop 16).take 8)
      let s := { s with pwr := { s.pwr with mgmtSeq := ofBytes ((k.packet.data.drop 8).take 8), mgmt := none } }
      if at_ = 0 then s.mgmtAct a else { s with pwr := { s.pwr with mgmt := some (a, at_) } }

/-- MGMT_WARM_RESET (R610). -/
def execMgmtWarmReset (s : State) : Host.Outcome State Fault Refusal := .next (s.mgmt 1 .warmReset)
/-- MGMT_HALF_TIME (R610). -/
def execMgmtHalfTime (s : State) : Host.Outcome State Fault Refusal := .next (s.mgmt 2 .halfTime)
/-- MGMT_RESUME (R610, R613). -/
def execMgmtResume (s : State) : Host.Outcome State Fault Refusal := .next (s.mgmt 3 .resume)

/-- MGMT_AT_TS_REACHED (R609): the deferred command acts at the first slot end at or after its AT_TS; the end of
the slot in progress when that is late enough, or AT_TS itself while no slot runs. -/
def execMgmtAtTsReached (s : State) : Host.Outcome State Fault Refusal :=
  match s.pwr.mgmt with
  | none => .next s
  | some (a, t) =>
    match s.ump.slot with
    | some slot =>
      if slot.slotEnd < t then .next s
      else .next ({ s with ts := max s.ts slot.slotEnd, pwr := { s.pwr with mgmt := none } }.mgmtAct a)
    | none => .next ({ s with ts := max s.ts t, pwr := { s.pwr with mgmt := none } }.mgmtAct a)

end Sys2Proof.Machine
end

