-- ==== Sys2Proof/Machine/PracticeRows.lean ====
section
/-! DEFINITION. The commands of practice records and steps (chapter 8). -/
namespace Sys2Proof.Machine
open Sys2Proof

/-! PRACTICE_OPEN (R285, R287, R288). -/

/-- Is an FP32 value finite and at least 0 (R176)? -/
def nonNegative (x : F32) : Bool := isFinite32 x && le32 zero32 x

/-- The hyperparameters of an OPEN in their ranges of R176; SGD ignores BETA2 and EPS. -/
def hyperOk (mode : Nat) (d : Desc) : Bool :=
  let x (o : Nat) : F32 := BitVec.ofNat 32 (fld d o 0 32)
  unitRange (x 48) && (mode != 0 || (unitRange (x 52) && isFinite32 (x 56) && lt32 zero32 (x 56)))

/-- The reserved bits of an OPEN, and HOST_ADDR and LENGTH zero without a blob. -/
def openFieldsOk (d : Desc) : Bool :=
  fld d 8 0 32 == 1 && fld d 42 1 15 == 0 && fld d 44 0 32 == 0 && fld d 60 0 32 == 0 &&
    (fld d 42 0 1 == 1 || (fld d 24 0 64 == 0 && fld d 32 0 64 == 0))

/-- The checks of R287 on the entry against the program. -/
def openEntryOk (s : State) (c : Nat) (i : Image) (g : Program) (e : DirEntry) : Bool :=
  decide (e.st = .resident) && s.tenantOfCtx c == some e.tenant && e.layers == g.layers && e.plen == g.plen &&
    e.dKv == g.dKv && e.fmt == g.fmt && e.trainedOn == i.imageId

/-- The STATE header's checks of R288 against the entry and the program. -/
def stateHeaderOk (d : Desc) (h : BitVec 2048) (e : DirEntry) (size : Nat) : Bool :=
  let b := BlobHeader.ofBits h
  headerGood h && b.kind == 1 && b.payload == size && fld d 32 0 64 == 256 + b.payload + 16 && b.adapter == e.adapter &&
    b.tenant == e.tenant && b.layers == e.layers && b.plen == e.plen && b.dKv == e.dKv && b.fmt == e.fmt && b.version == e.version

/-- The STATE payload of an OPEN with INIT = 1: checked and opened; the flag says that the tag failed (R288). -/
def openState (s : State) (d : Desc) (e : DirEntry) (g : Program) (size : Nat) (blob : List Byte) : Except Bool (List Byte) :=
  let h : BitVec 2048 := BitVec.ofNat 2048 (ofBytes (blob.take 256))
  let b := BlobHeader.ofBits h
  if blob.length ≠ fld d 32 0 64 || !stateHeaderOk d h e size || !s.imageHeld b || (s.skeyOf b.tenant b.skeyGen).isNone then .error false
  else match s.openBlob h (blob.drop 256) with
    | none => .error true
    | some plain =>
      if ofBytes (plain.take 4) = g.parts ∧ ofBytes ((plain.drop 4).take 1) = g.optMode then .ok plain else .error false

/-- The state images and shadow of a record opened from a STATE payload (R284). -/
def fillFromState (s : State) (r : Record) (e : DirEntry) (plain : List Byte) : State :=
  let n := paramCount e.layers e.plen e.dKv
  let rd (i : Nat) : Byte := plain.getD i 0
  let body := payloadOf e (imageMaster rd r.parts r.optMode n)
  let s := (s.countPages e.adapter e.pages 256).writePages e.adapter r.shadow (s.readPages e.pages 0 256 ++ body)
  (s.writePages e.adapter r.state0 plain).writePages e.adapter r.state1 plain

/-- A record opened on reserved pages, with its pin on the entry (R281, R283, R284). -/
def openRecord (s : State) (c : Nat) (d : Desc) (i : Image) (g : Program) (e : DirEntry) (ps : List Nat) (plain : Option (List Byte)) :
    State :=
  let n := paramCount e.layers e.plen e.dKv
  let size := ceilDiv (stateImageBytes g.parts g.optMode n) pageBytes
  let k := e.pages.length
  let x (o : Nat) : F32 := BitVec.ofNat 32 (fld d o 0 32)
  let r : Record := { adapter := e.adapter, ctx := c, imageId := i.imageId, program := g.programId, parts := g.parts,
                      optMode := g.optMode, beta1 := x 48, beta2 := x 52, eps := x 56,
                      shadow := ps.take k, spare := (ps.drop k).take k, state0 := (ps.drop (2 * k)).take size,
                      state1 := (ps.drop (2 * k + size)).take size, current := 0, lastStep := 0, commit := none, later := [],
                      closing := none, exports := [], pinned := true }
  let s := s.giveBullpen ps e.keySlot
  let s := s.modDir e.adapter (fun e => { e with pins := e.pins + 1 })
  let s := { s with lkr := { s.lkr with records := s.lkr.records ++ [r] } }
  match plain with
  | none => s.rewriteRecord e.adapter
  | some bs => fillFromState s r e bs

/-- PRACTICE_OPEN (R285, R287, R288); `blob` is the STATE blob as read from the host, none where the read failed. -/
def execPracticeOpen (ctx ring : Nat) (blob : Option (List Byte)) (s : State) : Host.Outcome State Fault Refusal :=
  match s.oldest ctx ring 0x40 with
  | none => .next s
  | some a =>
    let d := a.desc
    let id := fld d 16 0 64
    match s.record? id with
    | some r => .next (s.finish a.did (if r.ctx = ctx then stBad else stNotOwner))
    | none =>
      match s.dirEntry id, s.programOf (fld d 40 0 16) with
      | some e, some (_, i, g) =>
        let bytes := stateImageBytes g.parts g.optMode (paramCount e.layers e.plen e.dKv)
        if i.unloading || !openFieldsOk d || !hyperOk g.optMode d || !openEntryOk s ctx i g e || decide (1073741824 < bytes) then
          .next (s.finish a.did stBad)
        else
          let init := fld d 42 0 1 == 1
          let opened : Except Bool (Option (List Byte)) :=
            if init then
              match blob with
              | none => .error false
              | some bs => (openState s d e g bytes bs).map some
            else .ok none
          let s := if init then s.countGcm ctx id bytes else s
          match opened with
          | .error auth => .next ((if auth then s.bump R.lkrAuthFail else s).finish a.did stBad)
          | .ok plain =>
            if 4096 ≤ s.lkr.records.length then .next (s.finish a.did stDeferredMem)
            else match makeRoom s e.tenant (2 * e.pages.length + 2 * ceilDiv bytes pageBytes) false id with
              | none => .next (s.finish a.did stDeferredMem)
              | some (s, ps) => .next ((openRecord s ctx d i g e ps plain).finish a.did stOk)
      | _, _ => .next (s.finish a.did stBad)

/-! PRACTICE_STEP (R285 to R290). -/

/-- Does a range lie in LPDDR5X that a context owns (R286)? -/
def State.owns (s : State) (c a n : Nat) : Bool :=
  decide (a + n ≤ lpddrVisible) && (linesOf a n).all (fun l => s.mayAccess c (l / 1024))

/-- The adapter list of a step: ADAPTER_ID, LR, WD (R286). -/
def adapterList (s : State) (c a n : Nat) : List (Nat × F32 × F32) :=
  let bs := (s.lpRead c a (16 * n)).1
  (List.range n).map (fun i =>
    let x (o k : Nat) : Nat := ofBytes ((bs.drop (16 * i + o)).take k)
    (x 0 8, BitVec.ofNat 32 (x 8 4), BitVec.ofNat 32 (x 12 4)))

/-- Bytes of a batch block (R286). -/
def batchBytes (mode seqs tokens : Nat) : Nat :=
  ceilDiv (16 + 4 * seqs) 8 * 8 + 4 * seqs * tokens * (if 2 ≤ mode then 2 else 1)

/-- The adapter of each sequence of a batch block, as an index into the list (R286). -/
def batchAdapters (s : State) (c data seqs : Nat) : List Nat :=
  let bs := (s.lpRead c (data + 16) (4 * seqs)).1
  (List.range seqs).map (fun j => ofBytes ((bs.drop (4 * j)).take 4))

/-- Does the device take no step: no court is online, or a device fault (R126, R565)? The status of such a step is ABORTED_FENCE.
DESIGN CHOICE (assumption 221). -/
def State.takesNoStep (s : State) : Bool := s.err.deviceFault || (List.range 16).all (fun d => s.courtCount d == 0)

/-- A step's outcome at acceptance: a status, or none when it is taken. -/
def stepStatus (s : State) (c : Nat) (d : Desc) (i : Image) (g : Program) : Option Nat :=
  let n := fld d 8 0 32
  let list := fld d 24 0 48
  let data := fld d 32 0 48
  if s.takesNoStep then some stAbortedFence
  else if i.unloading ∨ fld d 30 0 16 ≠ 0 ∨ fld d 38 0 16 ≠ 0 ∨ fld d 42 1 15 ≠ 0 ∨ fld d 44 0 160 ≠ 0 ∨ g.maxAdapters < n ∨
      s.owns c list (16 * n) = false ∨ s.owns c data 16 = false then some stBad
  else
    let es := adapterList s c list n
    let head := (s.lpRead c data 16).1
    let seqs := ofBytes (head.take 4)
    let tokens := ofBytes ((head.drop 4).take 4)
    if es.any (fun e => (s.record? e.1).elim false (fun r => r.ctx != c)) then some stNotOwner
    else if ofBytes (head.drop 8) ≠ 0 ∨ g.seqMax < seqs ∨ g.tokMax < tokens then some stBad
    else if seqs = 0 ∨ tokens = 0 then some stZeroCount
    else if s.owns c data (batchBytes g.lossMode seqs tokens) = false then some stBad
    else
      let idx := batchAdapters s c data seqs
      let held (e : Nat × F32 × F32) : Bool :=
        (s.record? e.1).elim false (fun r => r.program == g.programId) && nonNegative e.2.1 && nonNegative e.2.2
      if es.all held && decide ((es.map (·.1)).Nodup) && (List.range n).all idx.contains && idx.all (fun j => decide (j < n)) then none
      else some stBad

/-- PRACTICE_STEP (R285 to R290): checked and numbered, it waits for its turn in the slack of slots. -/
def execPracticeStep (ctx ring : Nat) (s : State) : Host.Outcome State Fault Refusal :=
  match s.oldest ctx ring 0x41 with
  | none => .next s
  | some a =>
    let d := a.desc
    match s.programOf (fld d 40 0 16) with
    | none => .next (s.finish a.did stBad)
    | some (slot, i, g) =>
      match stepStatus s ctx d i g with
      | some st => .next (s.finish a.did st)
      | none =>
        let no := wrap64 (s.ump.stepNo + 1)
        let es := adapterList s ctx (fld d 24 0 48) (fld d 8 0 32)
        let seqs := ofBytes (((s.lpRead ctx (fld d 32 0 48) 16).1).take 4)
        let p : PStep := { did := a.did, ctx := ctx, no := no, imgSlot := slot, imageId := i.imageId, program := g.programId,
                           seed := fld d 16 0 64, listAddr := fld d 24 0 48, dataAddr := fld d 32 0 48,
                           commit := fld d 42 0 1 == 1,
                           adapters := es.map (·.1), rates := es.map (·.2),
                           seqs := batchAdapters s ctx (fld d 32 0 48) seqs, segment := 0, probed := [], firstBank := none, reran := false, satFlag := false, engine := 0 }
        let s := s.begin a.did
        .next { s with ump := { s.ump with steps := s.ump.steps ++ [p], stepNo := no } }

/-! PRACTICE_EXPORT (R287, R295). -/

/-- Payload bytes of an export. -/
def exportBytes (r : Record) (e : DirEntry) (isState : Bool) : Nat :=
  if isState then stateImageBytes r.parts r.optMode (paramCount e.layers e.plen e.dKv) else e.layers * layerBlock e.fmt e.plen e.dKv

/-- PRACTICE_EXPORT (R285, R287): checked, it waits for a running step of the record. -/
def execPracticeExport (ctx ring : Nat) (s : State) : Host.Outcome State Fault Refusal :=
  match s.oldest ctx ring 0x42 with
  | none => .next s
  | some a =>
    let d := a.desc
    let id := fld d 16 0 64
    match s.record? id, s.dirEntry id with
    | some r, some e =>
      let isState := fld d 40 0 1 == 1
      if r.ctx ≠ ctx then .next (s.finish a.did stNotOwner)
      else if fld d 8 0 32 ≠ 1 ∨ fld d 40 1 191 ≠ 0 ∨ fld d 32 0 64 < 256 + exportBytes r e isState + 16 then
        .next (s.finish a.did stBad)
      else .next ((s.begin a.did).modRecord id (fun r => { r with exports := r.exports ++ [(a.did, isState)] }))
    | _, _ => .next (s.finish a.did stBad)

/-- The header of an exported blob (R230, R295): the stored header with its kind, generation, nonce and length. -/
def exportHeader (stored : Nat) (kind version gen nonce payload : Nat) : BitVec 2048 :=
  let h := setBits (setBits stored 40 8 kind) (8 * 20) 32 version
  BitVec.ofNat 2048 (setBits (setBits (setBits h (8 * 72) 32 gen) (8 * 80) 96 nonce) (8 * 96) 64 payload)

/-- PRACTICE_EXPORT_DONE (R295): the record's oldest export is sealed under the newest storage key and written to the host.
A host write that fails completes it with BAD_DESCRIPTOR (R442). -/
def execPracticeExportDone (adapter : Nat × Bool) (s : State) : Host.Outcome State Fault Refusal :=
  let (adapter, written) := adapter
  match s.record? adapter, s.dirEntry adapter with
  | some r, some e =>
    match r.exports with
    | [] => .next s
    | (did, isState) :: rest =>
      if s.stepRunning adapter then .next s
      else
        let s := s.modRecord adapter (fun r => { r with exports := rest })
        match s.newestKey e.tenant, s.acc? did with
        | some (gen, key), some a =>
          let n := exportBytes r e isState
          let image := if r.current = 0 then r.state0 else r.state1
          let payload := if isState then s.readPages image 0 n else s.readPages e.pages 256 n
          let nonce := (s.freeVal 96).toNat
          let s := s.freed
          let h := exportHeader (ofBytes (s.readPages e.pages 0 256)) (if isState then 1 else 0) e.version gen nonce n
          let (ct, tag) := gcmEncrypt (bytesOf 32 key.toNat) (bytesOf 12 nonce) (headerBytes h) payload
          let blob := headerBytes h ++ ct ++ tag
          let s := s.countPages adapter (if isState then image else e.pages) n
          let s := (s.countGcm r.ctx adapter n).emit (.hostWrite r.ctx (fld a.desc 24 0 64) blob a.pasid)
          .next (s.finish did (if written then stOk else stBad))
        | _, _ => .next (s.finish did stBad)
  | _, _ => .next s

/-! PRACTICE_CLOSE (R294). -/

/-- PRACTICE_CLOSE (R285, R287, R294): it waits for a prepared commit and for running steps. -/
def execPracticeClose (ctx ring : Nat) (s : State) : Host.Outcome State Fault Refusal :=
  match s.oldest ctx ring 0x43 with
  | none => .next s
  | some a =>
    let id := fld a.desc 16 0 64
    match s.record? id with
    | none => .next (s.finish a.did stBad)
    | some r =>
      if r.ctx ≠ ctx then .next (s.finish a.did stNotOwner)
      else if fld a.desc 8 0 32 ≠ 1 ∨ fld a.desc 24 0 320 ≠ 0 ∨ r.closing.isSome then .next (s.finish a.did stBad)
      else .next ((s.begin a.did).modRecord id (fun r => { r with closing := some a.did }))

/-- PRACTICE_CLOSE_DONE (R294): no commit is prepared, no step of the record is left, and no export waits: the record closes,
its pages scrubbed. -/
def execPracticeCloseDone (adapter : Nat) (s : State) : Host.Outcome State Fault Refusal :=
  match s.record? adapter with
  | none => .next s
  | some r =>
    match r.closing with
    | none => .next s
    | some did =>
      if r.commit.isSome || !r.exports.isEmpty || s.ump.steps.any (fun p => p.adapters.contains adapter) then .next s
      else .next ((s.closeRecord adapter true).finish did stOk)

/-! Commits and the query (R241, R271, R291). -/

/-- COMMIT_COPY_DONE (R291): the shadow is copied to the spare with VERSION + 1, and the switch is staged. -/
def execCommitCopyDone (adapter : Nat) (s : State) : Host.Outcome State Fault Refusal :=
  match s.record? adapter, s.dirEntry adapter with
  | some r, some e =>
    match r.commit with
    | some ⟨no, none⟩ =>
      let running := s.ump.work.elim false (fun w =>
        w.practice && s.ump.steps.any (fun p => p.did == w.did && p.adapters.contains adapter))
      if running then .next s
      else
        let copy := s.readPages r.shadow 0 (copyBytes e)
        let head := setBits (ofBytes (copy.take 256)) (8 * 20) 32 (wrap32 (e.version + 1))
        let s := (s.countPages adapter r.shadow (copyBytes e)).writePages adapter r.spare (bytesOf 256 head ++ copy.drop 256)
        .next (s.modRecord adapter (fun r => { r with commit := some ⟨no, some s.ts⟩ }))
    | _ => .next s
  | _, _ => .next s

end Sys2Proof.Machine
end

