-- ==== Sys2Proof/Machine/RefOps.lean ====
section
/-! DEFINITION. The Referee as shared operations: events, rotations, purges, reports, the SPDM responder, and tenant
messages (chapter 15). -/
namespace Sys2Proof.Machine
open Sys2Proof

/-! Events, consent and debug (R536 to R538, R543). -/

/-- REF_DEBUG (R543). -/
def refDebug (s : State) (level : Nat) (granted : Bool) : State :=
  s.opEvent (eventRec 0x00D2 0 s.ts [(4, 2, 2, level), (4, 4, 1, if granted then 1 else 0)])

/-- A tenant's session or slot event (R543). -/
def refEvent (ty slot tenant : Nat) (bits : List LayoutField) (s : State) : State :=
  s.opEvent (layout 256 ([(0, 0, 16, ty), (2, 0, 16, slot), (8, 0, 32, tenant), (24, 0, 64, s.ts)] ++ bits))

/-- A debug unlock or relock: the level, and MR8 (R525, R537). -/
def State.setDebug (s : State) (level : Nat) : State :=
  let s := s.extendMrBytes 8 (bytesOf 1 level ++ bytesOf 8 s.ts)
  { (s.setFld R.refStatus 3 2 level) with ref := { s.ref with debugLevel := level } }

/-- What debug level 2 zeroises: the alias key, every context key and the device memory key (R537). -/
def zeroiseForDebug (s : State) : State :=
  { s with
    ref := { s.ref with aliasKey := false }
    mem := { s.mem with ctxKeys := [], deviceKey := s.mem.nextKey, nextKey := s.mem.nextKey + 1 } }

/-- May a debug level be granted to an authenticated unlock (R537)? Level 2 ends only at a cold reset. -/
def debugAllowed (s : State) (level : Nat) : Bool :=
  match level with
  | 1 => decide (s.ref.debugLevel ≤ 1) && s.allPresent (·.debugOk)
  | 2 => s.ref.slots.all (fun p => !p.2.present)
  | _ => false

/-- A failed bind, resume or unlock (R546). -/
def State.authFail (s : State) : State := s.bump R.refAuthFail

/-! Slots and keys (R504, R531, R532, R535). -/

/-- A tenant slot of a number, FREE ones apart. -/
def State.slot? (s : State) (n : Nat) : Option RefSlot := Tbl.get? s.ref.slots n
/-- The state with a slot set. -/
def State.setSlot (s : State) (n : Nat) (r : RefSlot) : State := { s with ref := { s.ref with slots := Tbl.set s.ref.slots n r } }

/-- The first page key of a slot, in epoch 0, loaded into all four MD dies (R532). -/
def State.newPageKey (s : State) (slot : Nat) : State :=
  { s with mem := { s.mem with
    keySlots := Tbl.set s.mem.keySlots slot ⟨0, false, [0, 1, 2, 3], s.mem.nextKey, 0⟩
    nextKey := s.mem.nextKey + 1 } }

/-- Is a rotation of a slot refused with ROTATE_BUSY (R504, R535)? -/
def rotateBusy (s : State) (slot : Nat) : Bool :=
  (s.slot? slot).elim false (fun r => decide (r.st = .purging)) || (Tbl.get? s.mem.keySlots slot).elim false (·.oldLive)

/-- A rotation (R504 step 2): a new key in the other epoch, which each MD die takes up as it receives it. -/
def State.rotate (s : State) (slot : Nat) : State :=
  match Tbl.get? s.mem.keySlots slot with
  | none => s
  | some k =>
    let new := s.mem.nextKey
    let k := if k.cur = 0 then { k with cur := 1, oldLive := true, switched := [], key1 := new }
      else { k with cur := 0, oldLive := true, switched := [], key0 := new }
    { s with mem := { s.mem with keySlots := Tbl.set s.mem.keySlots slot k, nextKey := new + 1 } }

/-- A session freed (R535): its contexts are destroyed at the next serve boundary. -/
def State.closeSession (s : State) (n : Nat) : State :=
  let s := { s with ref := { s.ref with
    sessions := Tbl.modify s.ref.sessions n (fun q => { q with st := .closed })
    spdm := s.ref.spdm.map (fun (p : Nat × SpdmSession) => (p.1, if p.2.tenantSession = n then { p.2 with tenantSession := 0 } else p.2)) } }
  let s := ((s.host.contexts.filter (fun c => c.2.session == n)).map (·.1)).foldl
    (fun s c => s.modCtx c (fun x => { x with tearDown := some (x.tearDown.getD s.ts) })) s
  s.dropClosed

/-- PURGE (R535): every session of the tenant is freed, the slot is PURGING, and every adapter is revoked. -/
def State.purgeSlot (s : State) (slot : Nat) : State :=
  match s.slot? slot with
  | none => s
  | some r =>
    if r.st = .purging then s
    else
      let mine := (s.ref.sessions.filter (fun p => decide (p.2.st ≠ .closed) && p.2.slot == slot)).map (·.1)
      let s := mine.foldl State.closeSession s
      (s.setSlot slot { r with st := .purging }).revoke r.tenant 0 true none

/-! Reports and measurements (R525 to R528). -/

/-- A bit of a report. -/
def bit1 (b : Bool) : Nat := if b then 1 else 0

/-- The first 256 bytes of a report (R528), of a tenant session or, for measurement block 13, of none. -/
def reportBody (s : State) (nonce : List Byte) (tenant : Option Session) : List Byte :=
  let slot := tenant.elim 0 (·.slot)
  let r := tenant.bind (fun t => s.slot? t.slot)
  let k := tenant.bind (fun t => Tbl.get? s.mem.keySlots t.slot)
  let meas := sha384 ((List.range 12).flatMap (fun i => bytesOf 48 (s.mr i).toNat))
  let flags := k.elim 0 (·.cur) + 2 * k.elim 0 (fun k => bit1 k.oldLive) + 4 * r.elim 0 (fun r => bit1 r.debugOk) +
    8 * r.elim 0 (fun r => bit1 r.profileOk) + 16 * (s.ref.debugLevel % 4) + 64 * bit1 s.ref.profiling +
    128 * s.regFld R.lkrCtl 1 1 + 256 * s.regFld R.umpKvCtl 0 1
  bytesOf 4 0x54525052 ++ bytesOf 4 1 ++ (nonce ++ List.replicate 32 (0 : Byte)).take 32 ++ bytesOf 8 s.ts ++
    bytesOf 48 devIdHash.toNat ++ bytesOf 48 meas.toNat ++ bytesOf 2 (s.regFld R.refSvn 0 16) ++ bytesOf 2 slot ++
    bytesOf 4 (tenant.elim 0 (·.tenant)) ++ bytesOf 4 flags ++ bytesOf 4 (r.elim 0 (·.skey0.1)) ++ bytesOf 4 (r.elim 0 (·.skey1.1)) ++
    bytesOf 2 (tenant.elim 0 (·.grants.length)) ++ bytesOf 2 (tenant.elim 0 (·.allow.length)) ++
    bytesOf 48 (r.elim 0 (·.keyHash.toNat)) ++ List.replicate 40 0

/-- The DMTF value type of a measurement register (R525). -/
def mrType (i : Nat) : Nat :=
  match i with
  | 0 => 0
  | 1 | 2 | 3 => 1
  | 5 | 8 | 9 => 2
  | _ => 3

/-- Measurement block `i` of 1 to 13 in the DMTF form: index, specification, size, type, value size, value (R527). -/
def measurementBlock (s : State) (i : Nat) : List Byte :=
  let value := if i ≤ 12 then bytesOf 48 (s.mr (i - 1)).toNat else reportBody s [] none
  let ty := if i ≤ 12 then mrType (i - 1) else 0x83
  bytesOf 1 i ++ bytesOf 1 1 ++ bytesOf 2 (value.length + 3) ++ bytesOf 1 ty ++ bytesOf 2 value.length ++ value

/-! The SPDM responder (R526, R527). -/

/-- Error codes of SPDM 1.3. PRESUMED. -/
def spdmInvalid : Nat := 0x01
def spdmBusy : Nat := 0x03
def spdmUnexpected : Nat := 0x04
def spdmUnspecified : Nat := 0x05

/-- A port's SPDM connection. -/
def State.conn (s : State) (p : Port) : SpdmConn := match p with | .a => s.ref.connA | .b => s.ref.connB
/-- The state with it set. -/
def State.setConn (s : State) (p : Port) (c : SpdmConn) : State :=
  match p with
  | .a => { s with ref := { s.ref with connA := c } }
  | .b => { s with ref := { s.ref with connB := c } }

/-- An answer to an SPDM request whose bytes SPDM 1.3 lays down. -/
def State.spdmReply (s : State) (p : Port) (code : Nat) (body : List Byte) : State :=
  (s.emit (.spdm p code 0 (Config.spdmBody code body s.freeCtr))).freed
/-- An SPDM error. -/
def State.spdmError (s : State) (p : Port) (code err : Nat) : State := s.emit (.spdm p code err [])

/-- A request as the responder takes it (R521, R526, R527): nothing answers before step 8; at debug level 2 everything but
GET_VERSION is refused with Unspecified; one out of order with UnexpectedRequest. -/
def State.spdm (s : State) (p : Port) (code : Nat) (ready : SpdmConn → Bool) (act : State → State) : State :=
  if s.booted = false then s
  else if s.ref.debugLevel = 2 ∧ code ≠ 0x84 then s.spdmError p code spdmUnspecified
  else if !ready (s.conn p) then s.spdmError p code spdmUnexpected
  else act s

/-- A request inside a secured session of a port. -/
def State.spdmIn (s : State) (p : Port) (code sess : Nat) (act : SpdmSession → State → State) : State :=
  s.spdm p code (fun _ => true) (fun s =>
    match Tbl.get? s.ref.spdm sess with
    | some k => if k.port = p ∧ k.established then act k s else s.spdmError p code spdmUnexpected
    | none => s.spdmError p code spdmUnexpected)

/-- The state with a secured session set. -/
def State.setSpdm (s : State) (n : Nat) (k : SpdmSession) : State := { s with ref := { s.ref with spdm := Tbl.set s.ref.spdm n k } }

/-! Tenant messages (R529). -/

/-- A tenant reply: its status, its body, and the state after it. -/
abbrev TenantReply := Nat × List Byte × State

/-- A message of an established SPDM session as the Referee takes it: `act` has the session to itself. -/
def State.vendor (s : State) (sess code : Nat) (act : SpdmSession → State → TenantReply) : State :=
  match Tbl.get? s.ref.spdm sess with
  | none => s
  | some k =>
    if s.booted = false ∨ !k.established then s
    else if s.ref.debugLevel = 2 then s.spdmError k.port 0xFE spdmUnspecified
    else
      let (st, body, s) := act k s
      s.emit (.spdm k.port code st body)

/-- A message of the tenant session that an SPDM session carries: NOT_OWNER where it carries none (R529). -/
def State.tenant (s : State) (sess code : Nat) (act : SpdmSession → Nat → Session → RefSlot → State → TenantReply) : State :=
  s.vendor sess code (fun k s =>
    match Tbl.get? s.ref.sessions k.tenantSession with
    | none => (stNotOwner, [], s)
    | some t =>
      match s.slot? t.slot with
      | none => (stNotOwner, [], s)
      | some r => if k.tenantSession = 0 ∨ t.st = .closed then (stNotOwner, [], s) else act k k.tenantSession t r s)

/-- The state with a tenant session set. -/
def State.setSession (s : State) (n : Nat) (t : Session) : State :=
  { s with ref := { s.ref with sessions := Tbl.set s.ref.sessions n t } }

/-- Sixteen random bytes as a ticket (R534). -/
def newTicket (s : State) : List Byte × State := (bytesOf 16 (s.freeVal 128).toNat, s.freed)

/-- Contexts of a session that its grants no longer cover: of each granted function, those beyond the first MAX_CTX in
context order (R533). -/
def uncovered (s : State) (n : Nat) (t : Session) : List Nat :=
  let mine := s.host.contexts.filter (fun c => c.2.session == n)
  (mine.filter (fun c =>
    match t.grants.find? (fun g => g.port == c.2.port && g.func == c.2.func) with
    | none => true
    | some g => decide (g.maxCtx ≤ (mine.filter (fun d => d.2.port == c.2.port && d.2.func == c.2.func && decide (d.1 < c.1))).length))).map (·.1)

end Sys2Proof.Machine
end

