-- ==== Sys2Proof/Machine/RefRows.lean ====
section
/-! DEFINITION. The commands of the Referee's registers, the debug port and the SPDM responder (chapter 15). -/
namespace Sys2Proof.Machine
open Sys2Proof

/-! Registers (R545, R546). -/

/-- REF_ROTATE_GO (R504, R545): a write of REF_ROTATE; GO on a slot that is not FREE rotates its page key, or sets
REFUSED. -/
def execRefRotateGo (port : Port) (value : Word) (s : State) : Host.Outcome State Fault Refusal :=
  if s.booted = false ∨ !blockWritable s port R.refRotate then .next s
  else
    let slot := wordFld value 0 16
    let s := s.setFld R.refRotate 0 16 slot
    if wordFld value 31 1 = 0 ∨ (s.slot? slot).isNone then .next s
    else if rotateBusy s slot then .next (s.setFld R.refRotate 30 1 1)
    else .next ((s.setFld R.refRotate 30 1 0).rotate slot)

/-- PURGE_GO (R535, R545): a write of REF_PURGE; GO acts as the tenant's PURGE. -/
def execPurgeGo (port : Port) (value : Word) (s : State) : Host.Outcome State Fault Refusal :=
  if s.booted = false ∨ !blockWritable s port R.refPurge then .next s
  else
    let slot := wordFld value 0 16
    let s := s.setFld R.refPurge 0 16 slot
    if wordFld value 31 1 = 0 then .next s else .next (s.purgeSlot slot)

/-- SLOT_PURGE_DONE (R535): no page-key entry names a PURGING slot; its keys are zeroised, a sweep of it ends, and the slot
is FREE. -/
def execSlotPurgeDone (slot : Nat) (s : State) : Host.Outcome State Fault Refusal :=
  match s.slot? slot with
  | none => .next s
  | some r =>
    if r.st ≠ .purging ∨ s.mem.pages.any (fun p => p.2.cls == 1 && p.2.index == slot) then .next s
    else
      let s := { s with
        ref := { s.ref with slots := Tbl.erase s.ref.slots slot }
        mem := { s.mem with
          keySlots := Tbl.erase s.mem.keySlots slot
          sweeps := s.mem.sweeps.filter (fun w => w.slot != slot) } }
      .next (refEvent 0x00D0 slot r.tenant [] s)

/-- REF_DBG_CTL_LOCK (R537, R546): LOCK ends debug level 1. -/
def execRefDbgCtlLock (port : Port) (value : Word) (s : State) : Host.Outcome State Fault Refusal :=
  if s.booted = false ∨ !blockWritable s port R.refDbgCtl ∨ wordFld value 0 1 = 0 then .next s
  else match s.ref.debugLevel with
    | 1 => .next (refDebug (s.setDebug 0) 0 true)
    | 2 => .next (refDebug s 0 false)
    | _ => .next s

/-- REF_PROF_CTL_REQ (R537, R546): profiling is granted when every present tenant agrees, and ends with REQ = 0. -/
def execRefProfCtlReq (port : Port) (value : Word) (s : State) : Host.Outcome State Fault Refusal :=
  if s.booted = false ∨ !blockWritable s port R.refProfCtl then .next s
  else if wordFld value 0 1 = 0 then .next (if s.ref.profiling then s.setProfiling false else s)
  else if s.ref.profiling then .next s
  else if s.allPresent (·.profileOk) then .next (refDebug (s.setProfiling true) 0 true)
  else .next (refDebug s 0 false)

/-! The debug port (R538). -/

/-- DBG_CHALLENGE (R538): a nonce, the level requested and the leading bytes of the DevID hash are shifted out. After 16
failures there are no more attempts until a cold reset. -/
def execDbgChallenge (level : Nat) (s : State) : Host.Outcome State Fault Refusal :=
  if s.booted = false ∨ 16 ≤ s.ref.dbgFails then .next s
  else
    let block := bytesOf 32 (s.freeVal 256).toNat ++ bytesOf 1 level ++ (bytesOf 48 devIdHash.toNat).take 31
    let s := s.freed.emit (.tap block)
    .next { s with ref := { s.ref with nonce := some (level % 256, BitVec.ofNat 512 (ofBytes block)) } }

/-- DBG_RESPONSE (R537, R538): both signatures and the key block are checked against the nonce, which serves once; the
unlock is granted when the level's condition holds. -/
def execDbgResponse (rsa slh block : List Byte) (s : State) : Host.Outcome State Fault Refusal :=
  match s.ref.nonce with
  | none => .next s
  | some (level, n) =>
    if s.booted = false ∨ 16 ≤ s.ref.dbgFails then .next s
    else
      let msg := bytesOf 64 n.toNat
      let s := { s with ref := { s.ref with nonce := none } }
      let good := rsaVerify (block.take 384) ((block.drop 384).take 4) msg rsa &&
        slhVerify ((block.drop 388).take 48) msg slh && sha384 (block.take 436) == Config.debugKeyHash
      if !good then
        let s := { s.authFail with ref := { s.ref with dbgFails := s.ref.dbgFails + 1 } }
        .next (refDebug s level false)
      else if debugAllowed s level then
        let s := s.setDebug level
        .next (refDebug (if level = 2 then zeroiseForDebug s else s) level true)
      else .next (refDebug s level false)

/-! SPDM requests (R526, R527). -/

/-- GET_VERSION (R526): starts the port's connection anew. -/
def execGetVersion (port : Port) (body : List Byte) (s : State) : Host.Outcome State Fault Refusal :=
  .next (s.spdm port 0x84 (fun _ => true) (fun s =>
    (s.setConn port { s.conn port with version := true, capabilities := false, algorithms := false }).spdmReply port 0x84 body))

/-- GET_CAPABILITIES (R526). -/
def execGetCapabilities (port : Port) (body : List Byte) (s : State) : Host.Outcome State Fault Refusal :=
  .next (s.spdm port 0xE1 (·.version) (fun s =>
    (s.setConn port { s.conn port with capabilities := true }).spdmReply port 0xE1 body))

/-- NEGOTIATE_ALGORITHMS (R526). -/
def execNegotiateAlgorithms (port : Port) (body : List Byte) (s : State) : Host.Outcome State Fault Refusal :=
  .next (s.spdm port 0xE3 (·.capabilities) (fun s =>
    (s.setConn port { s.conn port with algorithms := true }).spdmReply port 0xE3 body))

/-- GET_DIGESTS (R520, R526): the digest of the one certificate chain, in slot 0. -/
def execGetDigests (port : Port) (_body : List Byte) (s : State) : Host.Outcome State Fault Refusal :=
  .next (s.spdm port 0x81 (·.algorithms) (fun s =>
    s.emit (.spdm port 0x81 0 (bytesOf 48 (sha384 s.certChain).toNat))))

/-- GET_CERTIFICATE (R520): the chain, from the offset and for the length that the request names. -/
def execGetCertificate (port : Port) (body : List Byte) (s : State) : Host.Outcome State Fault Refusal :=
  .next (s.spdm port 0x82 (·.algorithms) (fun s =>
    if ofBytes (body.take 1) % 16 ≠ 0 then s.spdmError port 0x82 spdmInvalid
    else
      let off := ofBytes ((body.drop 2).take 2)
      let len := ofBytes ((body.drop 4).take 2)
      s.emit (.spdm port 0x82 0 ((s.certChain.drop off).take len))))

/-- CHALLENGE (R526): signed with the alias key. -/
def execChallenge (port : Port) (body : List Byte) (s : State) : Host.Outcome State Fault Refusal :=
  .next (s.spdm port 0x83 (·.algorithms) (fun s =>
    let (sig, s) := s.signed body
    s.emit (.spdm port 0x83 0 sig)))

/-- GET_MEASUREMENTS (R527): the number of blocks, one block or all thirteen, signed with the alias key. -/
def execGetMeasurements (port : Port) (body : List Byte) (s : State) : Host.Outcome State Fault Refusal :=
  .next (s.spdm port 0xE0 (·.algorithms) (fun s =>
    let op := ofBytes ((body.drop 1).take 1)
    if 13 < op ∧ op ≠ 255 then s.spdmError port 0xE0 spdmInvalid
    else
      let blocks := if op = 0 then bytesOf 1 13
        else if op = 255 then (List.range 13).flatMap (fun i => measurementBlock s (i + 1))
        else measurementBlock s op
      let (sig, s) := s.signed (body ++ blocks)
      s.emit (.spdm port 0xE0 0 (blocks ++ sig))))

/-- KEY_EXCHANGE (R526): a secured session begins, the 65th refused with Busy. -/
def execKeyExchange (port : Port) (body : List Byte) (s : State) : Host.Outcome State Fault Refusal :=
  .next (s.spdm port 0xE4 (·.algorithms) (fun s =>
    match (List.range 64).find? (fun i => (Tbl.get? s.ref.spdm i).isNone) with
    | none => s.spdmError port 0xE4 spdmBusy
    | some i =>
      let k : SpdmSession := ⟨port, 0, s.freeVal 384, false, 0, 0⟩
      (s.freed.setSpdm i k).spdmReply port 0xE4 body))

/-- FINISH (R526): mutual authentication completes the session; a requester that fails it ends it. -/
def execFinish (port : Port) (session : Nat) (leafHash : Digest) (verified : Bool) (s : State) :
    Host.Outcome State Fault Refusal :=
  .next (s.spdm port 0xE5 (fun _ => true) (fun s =>
    match Tbl.get? s.ref.spdm session with
    | some k =>
      if k.port ≠ port ∨ k.established then s.spdmError port 0xE5 spdmUnexpected
      else if verified then (s.setSpdm session { k with established := true, leafHash := leafHash }).spdmReply port 0xE5 []
      else { s with ref := { s.ref with spdm := Tbl.erase s.ref.spdm session } }.spdmError port 0xE5 spdmInvalid
    | none => s.spdmError port 0xE5 spdmUnexpected))

/-- SPDM_HEARTBEAT (R526). -/
def execSpdmHeartbeat (port : Port) (session : Nat) (body : List Byte) (s : State) : Host.Outcome State Fault Refusal :=
  .next (s.spdmIn port 0xE8 session (fun _ s => s.spdmReply port 0xE8 body))

/-- KEY_UPDATE (R526). -/
def execKeyUpdate (port : Port) (session : Nat) (body : List Byte) (s : State) : Host.Outcome State Fault Refusal :=
  .next (s.spdmIn port 0xE9 session (fun k s => (s.setSpdm session { k with keyGen := k.keyGen + 1 }).spdmReply port 0xE9 body))

/-- END_SESSION (R535): the SPDM session ends; a tenant session that it carried and its contexts go on. -/
def execEndSession (port : Port) (session : Nat) (body : List Byte) (s : State) : Host.Outcome State Fault Refusal :=
  .next (s.spdmIn port 0xEC session (fun _ s =>
    { s with ref := { s.ref with spdm := Tbl.erase s.ref.spdm session } }.spdmReply port 0xEC body))

/-- IDE_KM (R441, R526): keys of a selective IDE stream, 0 to 7, by key generation. -/
def execIdeKm (port : Port) (session : Nat) (body : List Byte) (s : State) : Host.Outcome State Fault Refusal :=
  .next (s.spdmIn port 0xFE session (fun _ s =>
    let stream := ofBytes ((body.drop 1).take 1)
    if 8 ≤ stream then s.spdmError port 0xFE spdmInvalid
    else
      let c := s.conn port
      let streams := if ofBytes (body.take 1) = 2 then Tbl.set c.ideStreams stream (Tbl.getD c.ideStreams stream 0 + 1) else c.ideStreams
      (s.setConn port { c with ideStreams := streams }).spdmReply port 0xFE body))

end Sys2Proof.Machine
end

