-- ==== Sys2Proof/Machine/SlotRows.lean ====
section
/-! DEFINITION. The commands of the slot timeline (chapters 9 and 10): serves accepted, slot ends, boundaries, windows,
group slots, overruns, substitution, and the starts and ends of work. -/
namespace Sys2Proof.Machine
open Sys2Proof

/-! SERVE (R307, R308). -/

/-- The first failing check of R308 past the header; a device fault refuses every serve (R565), and an image that is being
unloaded takes no new descriptor (R465). -/
def serveStatus (s : State) (a : Accepted) : Option Nat :=
  let d := a.desc
  let count := fld d 8 0 32
  let k := s.classOf (fld d 20 0 32) (fld d 16 0 16)
  let extra := k.elim 0 (fun k => k.2.2.kv.outExtra)
  if s.err.deviceFault then some stAbortedFence
  else if k.elim false (fun k => k.2.1.unloading) then some stBad
  else if fld d 18 1 15 ≠ 0 ∨ fld d 48 0 128 ≠ 0 ∨ 4096 < count ∨ fld d 24 0 64 % 64 ≠ 0 ∨ fld d 32 0 64 % 256 ≠ 0 then some stBad
  else if fld d 40 0 64 < outNeed count extra then some stBad
  else if !a.slotsOk then some stBad
  else none

/-- The ready serve of an accepted descriptor, with its step seed. -/
def readyOf (a : Accepted) (ts seed : Nat) : ReadyServe :=
  let d := a.desc
  { did := a.did, ctx := a.ctx, cls := fld d 16 0 16, isSealed := fld d 18 0 1 = 1, epoch := fld d 20 0 32,
    count := fld d 8 0 32, listOff := fld d 24 0 64, outOff := fld d 32 0 64, outBytes := fld d 40 0 64, readTs := ts,
    repeats := 0, fenceDiscards := 0, overruns := 0, probed := false, retryAllowed := true, serveNo := 0, settled := false,
    outcomes := [], steps := [], joins := [], refills := [], crossed := [], result := none, seed := seed }

/-- SERVE (R307, R308): the ring's next accepted SERVE is checked, and is ready or completes at once. -/
def execServe (ctx ring : Nat) (s : State) : Host.Outcome State Fault Refusal :=
  match s.oldest ctx ring 0x20 with
  | none => .next s
  | some a =>
    match serveStatus s a with
    | some st => .next (s.finish a.did st)
    | none =>
      let seed := (s.freeVal 64).toNat
      let s := (s.freed).begin a.did
      .next { s with ump := { s.ump with ready := s.ump.ready ++ [readyOf a s.ts seed] } }

/-! The slot end and the boundary (R25, R341, R342). -/

/-- Is a fault being handled, or the device held or failed (R550, R562, R565)? -/
def State.halted (s : State) : Bool := !s.err.faults.isEmpty || s.err.hold || s.err.deviceFault

/-- Work that is still running at its slot end: the overrun is counted, and the slot goes on (R341). -/
def beginOverrun (s : State) (t : Slot) (w : Work) : State :=
  let s := { s with ts := max s.ts t.slotEnd, ump := { s.ump with overrun := some (w.ctx, w.stepNo, t.slotEnd) } }
  (s.bump R.umpOverrunCount).count s.queueSched 9 4 1 { unit := 1, ctx := w.ctx, isSealed := w.isSealed }

/-- SLOT_END (R29, R341, R342): the slot's work becomes visible at the slot-end timestamp and the next slot is chosen;
work still running overruns the slot. -/
def execSlotEnd (s : State) : Host.Outcome State Fault Refusal :=
  match s.ump.slot with
  | none => .next s
  | some t =>
    if !s.err.faults.isEmpty || (!t.boundaryDone && !s.halted) then .next s
    else
      match s.ump.work with
      | some w => if s.ump.overrun.isSome then .next s else .next (beginOverrun s t w)
      | none =>
        let probed := probedHere s
        let x := nextSlot (slotEffects { s with ts := t.slotEnd } t) t probed
        .next { x with ts := max s.ts x.ts }

/-- Has the group step of a group slot that holds a serve begun? -/
def stepBegun (s : State) (t : Slot) : Bool :=
  match t.kind with
  | .group _ => t.serve.isNone || s.rdc.step.elim false (fun g => ownSlot g t)
  | _ => true

/-- SERVE_BOUNDARY (R25): the boundary at the start of the slot that has just begun. -/
def execServeBoundary (s : State) : Host.Outcome State Fault Refusal :=
  match s.ump.slot with
  | none => .next s
  | some t =>
    if t.boundaryDone || s.halted || !stepBegun s t then .next s
    else .next (State.boundary { s with ts := max s.ts t.start } t)

/-! Windows and group slots (R344, R347, R351, R404). -/

/-- GROUP_SLOT_START (R351, R404): the next group slot of an entry starts, and with it a group step. -/
def execGroupSlotStart (index : Nat) (s : State) : Host.Outcome State Fault Refusal :=
  match s.rsvEntry index with
  | none => .next s
  | some e =>
    if e.group = false ∨ s.booted = false then .next s
    else
      let run := s.rsvRun index
      let start := groupStart s e (run.taken.elim 0 (· + 1))
      let s := { s with ts := max s.ts start }.setRsvRun index { run with taken := some start }
      .next (s.startStep e start)

/-- The serve number of an entry's pending job, which a repetition already has; 0 before its boundary has given one (R331, R364;
assumption 230). -/
def pendingNo (s : State) (e : RsvEntry) (t : Nat) : Nat :=
  ((s.readyServes t).find? (rsvRuns s e)).elim 0 (fun r => if r.settled then r.serveNo else 0)

/-- RSV_WINDOW_END (R347): a window of an entry ends with its job still pending. While the device is held no slot start notes the
windows that pass, and they count too (R563). -/
def execRsvWindowEnd (index : Nat) (s : State) : Host.Outcome State Fault Refusal :=
  let s := if s.err.hold then s.noteJobs s.ts else s
  match s.rsvEntry index, (s.rsvRun index).windows with
  | some e, k :: rest =>
    let run := s.rsvRun index
    let s := { s with ts := max s.ts (windowEnd s e k) }.setRsvRun index { run with windows := rest }
    let s := s.bump R.umpRsvMissCount
    .next (s.later .operator (eventRec 0x0091 e.ctx 0 [(4, 0, 6, index), (4, 6, 4, s.ump.stretch),
      (8, 0, 64, pendingNo s e s.ts)]))
  | _, _ => .next s

/-- OVERRUN_LIMIT (R341, R354): at slot start + 2 × L the work that is still running is stopped. -/
def execOverrunLimit (s : State) : Host.Outcome State Fault Refusal :=
  match s.ump.slot with
  | none => .next s
  | some t =>
    if s.ump.overrun.isNone ∨ s.ump.work.isNone then .next s
    else .next ({ s with ts := max s.ts (t.start + 2 * t.len) }.urgent .overrun 1)

/-- URGENT_SUBSTITUTION (R354, R355, R366): a write of UMP_SUBST; with GO = 1 the named context's running work stops. -/
def execUrgentSubstitution (port : Port) (value : Word) (s : State) : Host.Outcome State Fault Refusal :=
  let c := wordFld value 0 16
  let go := decide (wordFld value 31 1 = 1)
  if !blockWritable s port R.umpSubst || (go && (c == 0 || decide (4095 < c))) then .next s
  else
    let s := s.setFld R.umpSubst 0 16 c
    if go && decide (s.ump.work.map (·.ctx) = some c) then .next (s.urgent .substitution 0) else .next s

/-! Segments (R31, R276, R280, R350). -/

/-- Does a segment read the teacher? -/
def readsTeacher (x : Segment) : Bool :=
  x.streams.any (fun e => e.source == 1)

/-- The conditions of R280, R218 and R296 at a segment's start; the ACTIVE bank where they hold. -/
def segmentBank (s : State) (p : PStep) (g : Program) (x : Segment) : Option Nat :=
  match s.activeBank with
  | none => none
  | some b =>
    let other := s.bank (1 - b)
    if (s.bank b).imageId ≠ p.imageId ∨ p.firstBank.getD b ≠ b ∨ !p.adapters.all (fun a => adapterFits s a p.imageId) then none
    else if readsTeacher x ∧ (other.st ≠ .ready ∨ other.imageId ≠ g.teacher) then none
    else some b

/-- A segment's work. -/
def segmentWork (s : State) (p : PStep) (probe : Bool) : Work :=
  { kind := if probe then .probeSegment else .segment, ctx := p.ctx, did := p.did, stepNo := p.no, isSealed := false,
    imgSlot := p.imgSlot, cls := p.program, seed := p.seed, start := s.ts, ended := none, discarded := none, sems := [],
    charges := .zero, uses := [], skips := [], nans := 0, late := 0, violation := false, writebacks := [] }

/-- A context's segment started, as a probe pass where a slot it uses has no history (R67), or its step ended with
IMAGE_RETIRED (R280). A probe pass counts when it starts (R79; assumption 210). -/
def startSegment (s : State) (p : PStep) (x : Segment) : State :=
  match programAt s p, Tbl.get? s.ump.images p.imgSlot with
  | some g, some i =>
    match segmentBank s p g x with
    | none => (s.dropStep p.did).atSlotEnd p.did stRetired 0 p.no
    | some b =>
      let probe := !p.probed.contains p.segment && needsProbe s p.ctx i x.tensors g.group
      let s := if probe then s.bump R.crtProbeCount else s
      let s := s.modPStep p.did (fun p => { p with firstBank := some b })
      let s := s.trace s.queueSched 4 p.ctx p.no
      let s := s.count s.queueSched 9 3 1 { unit := 1, ctx := p.ctx }
      let s := joinStep s p.ctx p.did true g.group
      s.startWork (segmentWork s p probe) x.streams b
  | _, _ => s

/-- The group-bound segment that a group slot starts in place of a serve (R403): of the entry's context, and of the image
that holds the entry's class. -/
def groupSegment (s : State) (t : Slot) : Option (PStep × Segment) :=
  match t.kind, s.rdc.step with
  | .group i, some g =>
    if ownSlot g t && g.takesPart && !g.hasWork && t.serve.isNone then
      match s.rsvEntry i with
      | none => none
      | some e =>
        let image := (newestEpoch s e.cls).bind (fun n => (s.classOf n e.cls).map (·.1))
        (nextSegment s true e.ctx).filter (fun x => some x.1.imgSlot == image && decide (s.ts + s.segLen x.2.wcet ≤ t.slotEnd))
    else none
  | _, _ => none

/-- SEGMENT_START (R31, R350, R403): the array is free within a slot, and the next segment that fits starts. -/
def execSegmentStart (s : State) : Host.Outcome State Fault Refusal :=
  match s.ump.slot with
  | none => .next s
  | some t =>
    if !t.boundaryDone || s.halted || s.ump.work.isSome || s.ump.overrun.isSome || decide (t.slotEnd ≤ s.ts) || !stepBegun s t then
      .next s
    else
      match groupSegment s t with
      | some (p, x) => .next (startSegment s p x)
      | none =>
        let (c, d) := s.pickSegment (t.slotEnd - s.ts)
        let s := { s with ump := { s.ump with segDrr := d } }
        match c.bind (nextSegment s false) with
        | some (p, x) => .next (startSegment s p x)
        | none => .next s

/-! The end of work (R31, R321, R341). -/

/-- Is an engine's program at its end? -/
def programDone (s : State) (w : Work) (e : Engine) : Bool :=
  (s.engine e).ended || decide ((programFor s w e).length ≤ (s.engine e).pos)

/-- Have every program of the work, every tile and every command of a channel ended? -/
def enginesDone (s : State) (w : Work) : Bool :=
  let p := (programsOf s w).getD .empty
  p.tile.all (fun x => programDone s w (.court x.1)) && p.vec.all (fun x => programDone s w (.vec x.1)) &&
    p.gather.all (fun x => programDone s w (.gather x.1)) &&
    ((workGroup s w).elim [] (·.channels)).all (fun c => programDone s w (.channel c.ch)) &&
    s.eng.tiles.all (fun p => p.2.isEmpty) && s.eng.todo.all (fun p => p.2.isEmpty) && s.rdc.chans.all (·.complete)

/-- The work on the array has ended: its programs are gone, and its effects wait for the slot end (R29). -/
def State.workEnded (s : State) (w : Work) : State :=
  let s := s.endOverrun
  State.freeBanks { s with
    ump := { s.ump with work := none, done := s.ump.done ++ [{ w with ended := some s.ts }] }
    eng := .reset
    lkr := { s.lkr with gathers := [] }
    wst := { s.wst with stream := none, fetches := [] }
    rdc := { s.rdc with chans := [] } }

/-- SEGMENT_END (R31, R68, R291): a practice segment's computation ends; its step moves on, or its probe pass is measured,
but group work only at the verdict. -/
def execSegmentEnd (s : State) : Host.Outcome State Fault Refusal :=
  match s.ump.work with
  | none => .next s
  | some w =>
    if !w.practice || !enginesDone s w then .next s
    else
      let s := (s.workEnded w).trace s.queueSched 5 w.ctx w.stepNo
      if (groupOf s w.imgSlot true w.cls).isSome then .next s
      else .next (if w.kind = .segment then advanceStep s w.did else segmentProbed s w)

/-- Compute dies with a stepping slot in the serve on the array. -/
def steppingDies (s : State) (w : Work) : List Nat :=
  match s.ump.ready.find? (fun r => r.did == w.did) with
  | none => []
  | some r => (List.range 16).filter (fun d => r.steps.any (fun p => (s.req? w.ctx p.1).elim false (fun q => q.die == d)))

/-- Layers that KV_SEM has released for write-back. -/
def releasedLayers (s : State) (w : Work) : Nat := (classRun s w).elim 0 (fun k => Tbl.getD w.sems k.kv.kvSem 0)

/-- Is every write-back that the serve caused acknowledged (R321)? A probe pass writes nothing back (R67). -/
def writebacksDone (s : State) (w : Work) : Bool :=
  decide (w.kind = .probe) ||
    (steppingDies s w).all (fun d => decide (releasedLayers s w ≤ (Tbl.getD w.writebacks d (0, 0)).2))

/-- SERVE_END (R321): a serve's or its probe pass's computation ends, with its write-backs acknowledged. -/
def execServeEnd (s : State) : Host.Outcome State Fault Refusal :=
  match s.ump.work with
  | none => .next s
  | some w =>
    if w.practice || !enginesDone s w || !writebacksDone s w then .next s
    else .next ((s.workEnded w).trace s.queueSched 3 w.ctx w.stepNo w.isSealed)

end Sys2Proof.Machine
end

