-- ==== Sys2Proof/Machine/StreamRows.lean ====
section
/-! DEFINITION. The commands of layer streams, layer starts, prefix gathers and KV write-backs (chapters 1, 6, 7 and 9). -/
namespace Sys2Proof.Machine
open Sys2Proof

/-! Layer streams (R210 to R214). -/

/-- Is the buffer of layer i − 2 released: has the compute of that layer finished (R27)? -/
def StreamRun.released (t : StreamRun) (i : Nat) : Bool := decide (i ≤ t.computeEnded + 1)

/-- May the next entry of a stream start: entry i−1 has completed, and the buffer of entry i−2 is released (R27, R210)? -/
def StreamRun.mayStart (t : StreamRun) : Bool :=
  decide (t.started < t.entries.length) && decide (t.started = t.completed) && t.released t.started

/-- LAYER_STREAM_START (R210, R213): the next entry of the work's stream table starts; its lost shards are asked of the
mirror peer, or their schedules are fenced. -/
def execLayerStreamStart (s : State) : Host.Outcome State Fault Refusal :=
  match s.wst.stream with
  | none => .next s
  | some t =>
    match t.entries[t.started]? with
    | none => .next s
    | some e =>
      if !t.mayStart || s.ump.work.isNone then .next s
      else
        let lost := s.entryLost t e
        let s := s.setStream { t with started := t.started + 1 }
        .next (lost.foldl (fun s x => s.missShard (t.bankOf e) x t.started) s)

/-- One shard's part of an entry copied into its SD die, unless it is lost: charged and counted as read (R210, R588). -/
def copyPart (b die : Nat) (s : State) (p : Nat × Nat) : State :=
  match s.shardPlace b p.1 with
  | none => s
  | some place =>
    if s.shardGone b p.1 then s
    else
      let data := s.shardData b p.1
      let n := data.length
      let s := s.chipWrite (sdAddr die p.2) data
      let s := s.addCharge { Charges.zero with wsBytes := n }
      let s := s.countUnits die 3 0 (s.shardAddr b place) n 256 (s.workCounted 9)
      s.traffic true die 9 (sdAddr die p.2) n

/-- WS_LATE (R211, R219): an entry that completes after DUE_NS. -/
def lateEntry (s : State) (e : StreamEntry) (late : Nat) : State :=
  let s := s.bump R.wstLate
  let s := (List.range 16).foldl (fun s d => s.count d 3 2 1 (s.workCounted 9)) s
  match s.ump.work with
  | none => s
  | some w =>
    let w := { w with late := w.late + 1 }
    let s := s.modWork (fun _ => w)
    if s.regFld R.wstCtl 3 1 = 1 ∧ s.hides w.isSealed = false then
      s.later .operator (eventRec 0x0050 w.ctx s.ts [(4, 0, 16, e.layer), (4, 20, 1, s.wst.stream.elim 0 (fun t => t.bankOf e)),
        (8, 0, 64, w.stepNo), (20, 0, 32, late)]) false
    else s

/-- STREAM_ENTRY_COMPLETE (R210, R211): the entry's bytes are complete on all sixteen dies once every lost shard has been
fetched. -/
def execStreamEntryComplete (s : State) : Host.Outcome State Fault Refusal :=
  match s.wst.stream, s.ump.work with
  | some t, some w =>
    match t.entries[t.completed]? with
    | none => .next s
    | some e =>
      let b := t.bankOf e
      if t.started ≤ t.completed || !(s.entryLost t e).all (fun x => t.fetched.contains (t.completed, x)) then .next s
      else
        let s := (List.range 16).foldl (fun s d => (partPlaces (s.bank b) e d).foldl (copyPart b d) s) s
        let s := s.setStream { t with completed := t.completed + 1 }
        let due := t.base + e.dueNs
        let s := if due < s.ts then lateEntry s e (s.ts - due) else s
        let data := e.layer + (if due < s.ts then 2 ^ 16 else 0)
        .next ((List.range 16).foldl (fun s d => s.trace d 10 w.ctx data w.isSealed) s)
  | _, _ => .next s

/-! Layers (R27, R257). -/

/-- The prefix declaration of the serve on the array. -/
def State.prefixOf (s : State) (w : Work) : Option PrefixDecl :=
  if w.practice then none else (classRun s w).bind (fun k => if k.pre.plenMax = 0 then none else some k.pre)

/-- The gathers of a die. -/
def State.gatherOf (s : State) (die : Nat) : GatherState := Tbl.getD s.lkr.gathers die ⟨0, 0⟩
/-- The state with a die's gathers set. -/
def State.setGather (s : State) (die : Nat) (g : GatherState) : State :=
  { s with lkr := { s.lkr with gathers := Tbl.set s.lkr.gathers die g } }

/-- The dies whose gather of a layer has not completed. -/
def gathersOpen (s : State) (w : Work) (layer : Nat) : List Nat :=
  if (s.prefixOf w).isNone then [] else (List.range 16).filter (fun d => decide ((s.gatherOf d).completed ≤ layer))

/-- PREFIX_LATE (R257, R268): a layer that waits for its prefix gather, counted and reported once. -/
def prefixLate (s : State) (w : Work) (t : StreamRun) (layer die : Nat) : State :=
  if t.lateNotes.contains layer then s
  else
    let s := (s.bump R.lkrLateCount).setStream { t with lateNotes := t.lateNotes ++ [layer] }
    if s.hides w.isSealed then s
    else s.later .operator (eventRec 0x0062 w.ctx 0 [(4, 4, 4, s.lockerFor die), (4, 8, 10, layer), (16, 0, 64, w.stepNo)])

/-- LAYER_COMPUTE_START (R27): the compute of the layer before has finished, and its buffer is released; the next layer
starts computing where its weights are in place, and one whose prefix gather has not completed waits (R257). DESIGN CHOICE
(log entry 81): the command is given when a layer's compute finishes, and again while the next layer waits. -/
def execLayerComputeStart (s : State) : Host.Outcome State Fault Refusal :=
  match s.wst.stream, s.ump.work with
  | some t, some w =>
    let t := { t with computeEnded := t.computeStarted }
    let s := s.setStream t
    if t.completed ≤ t.computeStarted then .next s
    else match gathersOpen s w t.computeStarted with
      | d :: _ => .next (prefixLate s w t t.computeStarted d)
      | [] => .next (s.setStream { t with computeStarted := t.computeStarted + 1 })
  | _, _ => .next s

/-! Prefix gathers (R255 to R257). -/

/-- The requests of the serve on the array that have a slot on a die. -/
def dieRequests (s : State) (w : Work) (die : Nat) : List Request :=
  match s.ump.ready.find? (fun r => r.did == w.did) with
  | none => []
  | some r => (streamOf s r).filter (fun q => q.die == die)

/-- Bytes of a slot of the Dugout (R255). -/
def slotBytes (d : PrefixDecl) : Nat := ceilDiv (2 * d.plenMax * kvRowBytes d.fmt d.dKv) 256 * 256
/-- Bytes of the mask table, rounded up (R255). -/
def maskBytes (d : PrefixDecl) : Nat := ceilDiv (d.slots * ceilDiv d.plenMax 64 * 8) 256 * 256

/-- What a slot holds for a layer: its adapter's key rows and value rows, each padded with +0 rows to PLEN_MAX (R256). -/
def slotRows (s : State) (d : PrefixDecl) (layer : Nat) (e : Option DirEntry) : List Byte :=
  let rb := kvRowBytes d.fmt d.dKv
  let rows := match e with
    | none => []
    | some e =>
      let n := e.plen * rb
      let block := s.readPages e.pages (256 + layer * layerBlock e.fmt e.plen e.dKv) (2 * n)
      let pad := List.replicate (d.plenMax * rb - n) (0 : Byte)
      block.take n ++ pad ++ block.drop n ++ pad
  rows ++ List.replicate (slotBytes d - rows.length) 0

/-- PREFIX_GATHER_START (R257): the gather of a die's next layer starts once the layer before it is gathered and its buffer
is released. -/
def execPrefixGatherStart (die : Nat) (s : State) : Host.Outcome State Fault Refusal :=
  match s.wst.stream, s.ump.work with
  | some t, some w =>
    let g := s.gatherOf die
    let layers := (Tbl.get? s.ump.images w.imgSlot).elim 0 (·.layers)
    if 16 ≤ die || (s.prefixOf w).isNone || decide (g.started ≠ g.completed) || decide (layers ≤ g.started) ||
        !t.released g.started then .next s
    else .next (s.setGather die { g with started := g.started + 1 })
  | _, _ => .next s

/-- PREFIX_GATHER_COMPLETE (R256): the buffer of the layer's parity holds every slot's rows; each distinct adapter of the die
was read once. -/
def execPrefixGatherComplete (die : Nat) (s : State) : Host.Outcome State Fault Refusal :=
  match s.wst.stream, s.ump.work with
  | some t, some w =>
    match s.prefixOf w with
    | none => .next s
    | some d =>
      let g := s.gatherOf die
      if g.started = g.completed then .next s
      else
        let layer := g.completed
        let qs := dieRequests s w die
        let entry (j : Nat) : Option DirEntry :=
          (qs.find? (fun q => q.slot == j)).bind (fun q => if q.adapter = 0 then none else s.dirEntry q.adapter)
        let at_ := sdAddr die (s.dugout.1 + maskBytes d + layer % 2 * (d.slots * slotBytes d))
        let data := (List.range d.slots).flatMap (fun j => slotRows s d layer (entry j))
        let used := (((qs.map (·.adapter)).filter (· != 0)).dedup).filterMap s.dirEntry
        let read (s : State) (e : DirEntry) : State :=
          let n := layerBlock e.fmt e.plen e.dKv
          let s := s.pageTraffic false die e.pages (256 + layer * n) (2 * e.plen * kvRowBytes e.fmt e.dKv)
          s.count die 4 0 (n / 256) (s.workCounted 8)
        let s := used.foldl read s
        let s := (s.chipWrite at_ data).traffic true die 8 at_ data.length
        let s := s.setGather die { g with completed := g.completed + 1 }
        .next (s.trace die 11 w.ctx (layer + (if t.lateNotes.contains layer then 2 ^ 16 else 0)) w.isSealed)
  | _, _ => .next s

/-! KV write-back (R321). -/

/-- The write-backs of a die: layers started and acknowledged. -/
def Work.writeback (w : Work) (die : Nat) : Nat × Nat := Tbl.getD w.writebacks die (0, 0)

/-- One row of an append area written to its position of a request's page. -/
def writeRow (k : ServeClass) (layer die row pos : Nat) (q : Request) (s : State) (value : Bool) : State :=
  let rb := kvRowBytes k.kv.kvFmt k.kv.dKv
  let src := sdAddr die (kvPart k (5 + layer % 2) + ((if value then k.kv.tokDieMax else 0) + row) * rb)
  let dst := s.kvBlock (q.pages.getD (pos / 64) 0) layer + ((if value then 64 else 0) + pos % 64) * rb
  let data := s.chipRead src rb
  let s := s.traffic false die 8 src rb
  (s.lpWrite 0 dst data).traffic true die 8 dst rb

/-- The new rows of a layer of one stepping slot. -/
def writeSlot (k : ServeClass) (r : ReadyServe) (layer die : Nat) (s : State) (p : Nat × Option Request) : State :=
  match p.2 with
  | none => s
  | some q =>
    let new := ((r.steps.find? (fun x => x.1 == q.reqId)).map (·.2)).getD 0
    (List.range new).foldl (fun s i => [false, true].foldl (writeRow k layer die (p.1 + i) (q.len + i) q) s) s

/-- A serve's view for its KV map, as its boundary had it. -/
def startingOf (r : ReadyServe) (k : ServeClass) : Starting :=
  { r := r, k := k, layers := 0, imageId := 0, draining := false, no := r.serveNo, ends := [] }

/-- KV_WRITEBACK (R321): KV_SEM has reached the layer, and the Locker of a die writes its stepping slots' new rows to the
pool; a probe pass writes nothing back (R67). -/
def execKvWriteback (die layer : Nat) (s : State) : Host.Outcome State Fault Refusal :=
  match s.ump.work with
  | none => .next s
  | some w =>
    match classRun s w, s.ump.ready.find? (fun r => r.did == w.did) with
    | some k, some r =>
      if w.practice || !(steppingDies s w).contains die || decide ((w.writeback die).1 ≠ layer) ||
          decide (releasedLayers s w ≤ layer) then .next s
      else
        let s := if w.kind = .probe then s
          else (dieSlots s (startingOf r k) r die).foldl (writeSlot k r layer die) s
        .next (s.modWork (fun w => { w with writebacks := Tbl.set w.writebacks die (layer + 1, (w.writeback die).2) }))
    | _, _ => .next s

/-- KV_WRITEBACK_DONE (R321): a die's writes of a layer are acknowledged; with the last die's, semaphore KV_SEM + 1 rises. -/
def execKvWritebackDone (die layer : Nat) (s : State) : Host.Outcome State Fault Refusal :=
  match s.ump.work with
  | none => .next s
  | some w =>
    match classRun s w with
    | none => .next s
    | some k =>
      if w.practice || decide ((w.writeback die).2 ≠ layer) || decide ((w.writeback die).1 ≤ layer) then .next s
      else
        let s := s.modWork (fun w => { w with writebacks := Tbl.set w.writebacks die ((w.writeback die).1, layer + 1) })
        let all := s.ump.work.elim false (fun w => (steppingDies s w).all (fun d => decide (layer < (w.writeback d).2)))
        .next (if all then s.addSem (k.kv.kvSem + 1) 1 else s)

end Sys2Proof.Machine
end

