-- ==== Sys2Proof/Machine/TenantRows.lean ====
section
/-! DEFINITION. The tenant messages of R529 (chapter 15). -/
namespace Sys2Proof.Machine
open Sys2Proof

/-- The number of `n` bytes from an offset of a message body. -/
def bodyNum (body : List Byte) (off n : Nat) : Nat := ofBytes ((body.drop off).take n)

/-- The lowest FREE slot of the 65,536. -/
def State.freeSlot (s : State) : Option Nat := (List.range (s.ref.slots.length + 1)).find? (fun i => decide (i < 65536) && (s.slot? i).isNone)
/-- A FREE session number of 1 to 4,095: the lowest. DESIGN CHOICE. -/
def State.freeSession (s : State) : Option Nat :=
  (List.range (s.ref.sessions.length + 1)).find? (fun i => decide (i < 4095) && (Tbl.get? s.ref.sessions (i + 1)).isNone) |>.map (· + 1)

/-- A bound session made for an SPDM session, and its reply (R529, R531). -/
def bindTo (s : State) (sess : Nat) (k : SpdmSession) (tenant slot n : Nat) : TenantReply :=
  let seed := (s.freeVal 512).toNat
  let t : Session := { tenant := tenant, slot := slot, st := .binding, grants := [], allow := [], ticket := 0, wrapKey := 0, kemSeed := seed }
  let s := (s.freed.setSession n t).setSpdm sess { k with tenantSession := n }
  (stOk, bytesOf 4 n ++ bytesOf 2 slot ++ kemPublic (bytesOf 32 seed), s)

/-- TNT_BIND (R531). -/
def execTntBind (session : Nat) (body : List Byte) (s : State) : Host.Outcome State Fault Refusal :=
  .next (s.vendor session 0x01 (fun k s =>
    let tenant := bodyNum body 0 4
    match s.ref.slots.find? (fun p => p.2.tenant == tenant), s.freeSession with
    | some (slot, r), free =>
      if r.keyHash ≠ k.leafHash then (stNotOwner, [], s.authFail)
      else if r.st = .purging then (stBad, [], s)
      else free.elim (stBad, [], s) (bindTo s session k tenant slot)
    | none, none => (stBad, [], s)
    | none, some n =>
      match s.freeSlot with
      | none => (stBad, [], s)
      | some slot =>
        let r : RefSlot := ⟨tenant, k.leafHash, .bound, (0, 0), (0, 0), false, false, false, 0⟩
        bindTo (s.setSlot slot r) session k tenant slot n))

/-- TNT_KEM (R529, R530): the wrap key and the ticket; the session becomes ACTIVE. -/
def execTntKem (session : Nat) (body : List Byte) (s : State) : Host.Outcome State Fault Refusal :=
  .next (s.tenant session 0x02 (fun k n t _ s =>
    if t.st ≠ .binding then (stBad, [], s)
    else
      let secret := kemDecaps (bytesOf 32 t.kemSeed) (bytesOf 32 (t.kemSeed / 2 ^ 256)) (body.take 1568)
      let wrap := BitVec.ofNat 256 (ofBytes
        (hkdfSha384 (bytesOf 48 k.exportSecret.toNat) secret (bytesOf 4 t.tenant ++ bytesOf 4 n) 32))
      let (ticket, s) := newTicket s
      (stOk, ticket, s.setSession n { t with st := .active, wrapKey := wrap, ticket := sha384 ticket })))

/-- Would a key in this slot make a tenant present that has not agreed to what is in force (R537)? -/
def installRefused (s : State) (r : RefSlot) : Bool :=
  !r.present && ((decide (s.ref.debugLevel = 1) && !r.debugOk) || (s.ref.profiling && !(r.debugOk && r.profileOk)))

/-- A storage key in its entry: the empty one, or the one of lower generation (R532). -/
def RefSlot.install (r : RefSlot) (gen : Nat) (key : BitVec 256) : RefSlot :=
  if r.skey0.1 = 0 ∨ (r.skey1.1 ≠ 0 ∧ r.skey0.1 < r.skey1.1) then { r with skey0 := (gen, key) } else { r with skey1 := (gen, key) }

/-- SKEY_INSTALL (R530, R532, R537). -/
def execSkeyInstall (session : Nat) (body : List Byte) (s : State) : Host.Outcome State Fault Refusal :=
  .next (s.tenant session 0x03 (fun _ _ t r s =>
    let gen := bodyNum body 0 4
    let key := if t.st = .binding then none else keyUnwrap (bytesOf 32 t.wrapKey.toNat) ((body.drop 4).take 40)
    match key with
    | none => (stBad, [], s)
    | some bytes =>
      let key := BitVec.ofNat 256 (ofBytes bytes)
      if gen = 0 ∨ gen ≤ r.skey0.1 ∨ gen ≤ r.skey1.1 then (stBad, [], s)
      else if installRefused s r then (stCheckFailed, [], refDebug s s.ref.debugLevel false)
      else
        let s := s.setSlot t.slot { r.install gen key with pkey := true }
        (stOk, [], if r.pkey then s else s.newPageKey t.slot)))

/-- SKEY_REVOKE (R532, R250): the generation is removed, and every adapter of the tenant revoked. -/
def execSkeyRevoke (session : Nat) (body : List Byte) (s : State) : Host.Outcome State Fault Refusal :=
  .next (s.tenant session 0x04 (fun _ _ t r s =>
    let gen := bodyNum body 0 4
    if gen = 0 ∨ (r.skey0.1 ≠ gen ∧ r.skey1.1 ≠ gen) then (stBad, [], s)
    else
      let r := if r.skey0.1 = gen then { r with skey0 := (0, 0) } else { r with skey1 := (0, 0) }
      (stOk, [], (s.setSlot t.slot r).revoke t.tenant 0 true none)))

/-- PKEY_ROTATE (R504, R529). -/
def execPkeyRotate (session : Nat) (_body : List Byte) (s : State) : Host.Outcome State Fault Refusal :=
  .next (s.tenant session 0x05 (fun _ _ t r s =>
    if rotateBusy s t.slot then (stRotateBusy, [], s)
    else if r.pkey = false then (stBad, [], s)
    else (stOk, [], s.rotate t.slot)))

/-- GRANT (R533): a grant added, replaced or, with MAX_CTX 0, removed; contexts no longer covered are destroyed at the next
boundary. -/
def execGrant (session : Nat) (body : List Byte) (s : State) : Host.Outcome State Fault Refusal :=
  .next (s.tenant session 0x06 (fun _ n t _ s =>
    let port := bodyNum body 0 1
    let g : Grant := ⟨Port.ofNum port, bodyNum body 1 1, bodyNum body 2 2⟩
    let same (x : Grant) : Bool := x.port == g.port && x.func == g.func
    if 1 < port ∨ 63 < g.func ∨ (g.maxCtx ≠ 0 ∧ 16 ≤ t.grants.length ∧ !t.grants.any same) then (stBad, [], s)
    else
      let rest := t.grants.filter (fun x => !same x)
      let t := { t with grants := if g.maxCtx = 0 then rest else rest ++ [g] }
      let s := s.setSession n t
      (stOk, [], (uncovered s n t).foldl (fun s c => s.modCtx c (fun x => { x with tearDown := some (x.tearDown.getD s.ts) })) s)))

/-- ALLOW (R533): the session's allow-list is replaced. -/
def execAllow (session : Nat) (body : List Byte) (s : State) : Host.Outcome State Fault Refusal :=
  .next (s.tenant session 0x07 (fun _ n t _ s =>
    let count := bodyNum body 0 1
    if 8 < count then (stBad, [], s)
    else
      let digest (i : Nat) : Digest := BitVec.ofNat 384 (bodyNum body (1 + 48 * i) 48)
      (stOk, [], s.setSession n { t with allow := (List.range count).map digest })))

/-- CONSENT (R536, R537): both bits of the slot; one that would clear DEBUG_OK while debug level 1 is in force is
refused. -/
def execConsent (session : Nat) (body : List Byte) (s : State) : Host.Outcome State Fault Refusal :=
  .next (s.tenant session 0x08 (fun _ _ t r s =>
    let debug := bitAt (bodyNum body 0 1) 0
    let profile := bitAt (bodyNum body 0 1) 1
    if s.ref.debugLevel = 1 ∧ r.debugOk ∧ !debug then (stCheckFailed, [], refDebug s s.ref.debugLevel false)
    else
      let s := s.setSlot t.slot { r with
        debugOk := debug, profileOk := profile, withdrawnTs := if r.profileOk && !profile then s.ts else r.withdrawnTs }
      (stOk, [], refEvent 0x00D1 t.slot t.tenant [(4, 0, 1, bit1 debug), (4, 1, 1, bit1 profile)] s)))

/-- REPORT (R528). -/
def execReport (session : Nat) (body : List Byte) (s : State) : Host.Outcome State Fault Refusal :=
  .next (s.tenant session 0x09 (fun _ _ t _ s =>
    let report := reportBody s (body.take 32) (some t)
    let (sig, s) := s.signed report
    (stOk, report ++ sig, s)))

/-- RESUME (R534). -/
def execResume (session : Nat) (body : List Byte) (s : State) : Host.Outcome State Fault Refusal :=
  .next (s.vendor session 0x0A (fun k s =>
    let n := bodyNum body 0 4
    match Tbl.get? s.ref.sessions n with
    | none => (stNotOwner, [], s.authFail)
    | some t =>
      let known := (s.slot? t.slot).elim false (fun r => r.keyHash == k.leafHash)
      if !known ∨ (t.st ≠ .active ∧ t.st ≠ .suspended) ∨ t.ticket ≠ sha384 ((body.drop 4).take 16) then
        (stNotOwner, [], s.authFail)
      else
        let (ticket, s) := newTicket s
        let s := s.setSession n { t with st := .active, ticket := sha384 ticket }
        (stOk, ticket, s.setSpdm session { k with tenantSession := n })))

/-- CLOSE (R535): the session is freed; its contexts go at the next serve boundary. -/
def execClose (session : Nat) (_body : List Byte) (s : State) : Host.Outcome State Fault Refusal :=
  .next (s.tenant session 0x0B (fun _ n _ _ s => (stOk, [], s.closeSession n)))

/-- PURGE (R535). -/
def execPurge (session : Nat) (_body : List Byte) (s : State) : Host.Outcome State Fault Refusal :=
  .next (s.tenant session 0x0C (fun _ _ t _ s => (stOk, [], s.purgeSlot t.slot)))

end Sys2Proof.Machine
end

