-- ==== Sys2Proof/Machine/TileRows.lean ====
section
/-! DEFINITION. The commands of tile sequencers (chapter 3): MMA and MMA_PAIR start tiles, TILE_DRAIN drains one, and
WAIT, SIGNAL and END order the programs. -/
namespace Sys2Proof.Machine
open Sys2Proof

/-! Tiles of a command (R88, R89, R113, R114). -/

/-- The tiles of a command's grid in the order in which the sequencer takes them. -/
def gridTiles (cmd : Desc) (place : Nat) (second : Bool) : List Tile :=
  let c := TileCmd.ofBits cmd
  (List.range c.gridRows).flatMap (fun r => (List.range c.gridCols).map (fun q => ⟨cmd, r, q, q % 4, 0, place, second, []⟩))

/-- The tiles of a pair, alternating in each cube, the first command's first; both have the pair's place. -/
def pairTiles (first second : Desc) (place : Nat) : List Tile :=
  ((gridTiles first place false).zip (gridTiles second place true)).flatMap (fun p => [p.1, p.2])

/-- Slots per cell that a tile takes of a cube's eight. -/
def tileSlots (t : Tile) : Nat :=
  let c := TileCmd.ofBits t.cmd
  tileSubtiles c.shape * (if c.acc = 2 then 2 else 1)

/-- The state with the tiles in progress of a court set. -/
def State.setTiles (s : State) (court : Nat) (ts : List Tile) : State :=
  { s with eng := { s.eng with tiles := Tbl.set s.eng.tiles court ts } }
/-- The state with the tiles of a court that have not started set. -/
def State.setTodo (s : State) (court : Nat) (ts : List Tile) : State :=
  { s with eng := { s.eng with todo := Tbl.set s.eng.todo court ts } }

/-- A command's tiles numbered and given their courts (R558). -/
def placeTiles (s : State) (court : Nat) (ts : List Tile) : List Tile :=
  ts.zipIdx.map (fun p => { p.1 with court := s.courtFor court ((s.engine (.court court)).tiles + p.2) })

/-- Has the tile's cube a free set of slots (R89)? -/
def tileFits (s : State) (t : Tile) : Bool :=
  let held := (s.eng.tiles.flatMap (·.2)).filter (fun x => x.court == t.court && x.cube == t.cube)
  decide ((held.map tileSlots).sum + tileSlots t ≤ 8)

/-! What a tile reads and counts (R83, R115, R359, R362, R588). -/

/-- 1 for the FP8-class and integer paths, 2 for the FP4 class, 3 for the 16-bit path. -/
def TileCmd.rateClass (c : TileCmd) : Nat :=
  match c.path with
  | some .bits16 => 3
  | some .e5m3 => if c.fmtA.fp4Class && c.fmtB.fp4Class then 2 else 1
  | _ => 1

/-- The bytes of an operand's lines `ls` that a tile reads, as runs. -/
def operandRuns (f : Fmt) (addr stride : Nat) (xpose : Bool) (ls : List Nat) (k : Nat) : List (Nat × Nat) :=
  if xpose then (List.range k).map (fun i => (addr + stride * i + ls.headD 0 * f.elemBits / 8, ceilDiv (ls.length * f.elemBits) 8))
  else ls.map (fun l => (addr + stride * l, f.rowBytes k))

/-- The lines of A and B of each subtile of a tile (R88), the lines beyond the output left out. -/
def subtileLines (c : TileCmd) (t : Tile) : List (List Nat × List Nat) :=
  let down := tileRows c.shape / 16
  let across := tileCols c.shape / 16
  (List.range down).flatMap (fun i => (List.range across).map (fun j =>
    (insideLines 16 (t.row * down + i) c.m, insideLines 16 (t.col * across + j) c.n)))

/-- The runs a tile reads, each block once for each subtile that it is fed to (R90): B for every tile, A once for the tiles of
a column set (R86, R113). -/
def tileReads (c : TileCmd) (t : Tile) : List (Nat × Nat) :=
  (subtileLines c t).flatMap (fun p =>
    (if t.cube = 0 then operandRuns c.fmtA c.aAddr c.aStride c.aXpose p.1 c.k else []) ++
      operandRuns c.fmtB c.bAddr c.bStride c.bXpose p.2 c.k)

/-- The bias elements that a tile's drain reads (R98). -/
def biasReads (c : TileCmd) (t : Tile) : List (Nat × Nat) :=
  let cols := insideLines (tileCols c.shape) t.col c.n
  let b := ((Fmt.ofCode c.biasFmt).getD .fp32).elemBits / 8
  if c.biasEn && !c.isPartial then [(c.biasAddr + b * cols.headD 0, b * cols.length)] else []

/-- Crosswise 16 × 16 blocks that a tile reads, each once for each subtile that it is fed to (R90). -/
def tileCrosswise (c : TileCmd) (t : Tile) : Nat :=
  let n (ls : List Nat) : Nat := ceilDiv ls.length 16 * ceilDiv c.k 16
  ((subtileLines c t).map (fun p => (if c.aXpose ∧ t.cube = 0 then n p.1 else 0) + (if c.bXpose then n p.2 else 0))).sum

/-- The multiply-accumulates of a tile's elements. -/
def tileMacs (c : TileCmd) (t : Tile) : Charges :=
  let n := (insideLines (tileRows c.shape) t.row c.m).length * (insideLines (tileCols c.shape) t.col c.n).length * c.k
  match c.rateClass with
  | 2 => { Charges.zero with macs4 := n }
  | 3 => { Charges.zero with macs16 := n }
  | _ => { Charges.zero with macs8 := n }

/-- The exponents a command's operands were written with (R66). -/
def State.scalesOf (s : State) (w : Work) (c : TileCmd) : TileScales := ⟨s.inExp w c.aTensor, s.inExp w c.bTensor⟩

/-- GROUP_STEP (R82): a tile started; its accumulators after its last group step, its reads charged and counted. -/
def startTile (w : Work) (court : Nat) (s : State) (t : Tile) : State :=
  let c := TileCmd.ofBits t.cmd
  let es := accumulateTile s.engineByte c (s.scalesOf w c) t.row t.col
  let s := s.setTiles court (s.tilesOf court ++ [{ t with elems := es }])
  let s := (s.readTraffic (court / 8) (t.court % 8) (tileReads c t)).addCharge (tileMacs c t)
  let s := s.count (court / 8) 0 c.rateClass (ceilDiv c.k 16 * tileSubtiles c.shape) (s.workCounted (t.court % 8))
  s.count (court / 8) 2 2 (tileCrosswise c t) (s.workCounted (t.court % 8))

/-- Tiles started in order while their cubes have free slots; the rest wait (R89, R117). -/
def startTiles (w : Work) (court : Nat) : List Tile → State → State
  | [], s => s.setTodo court []
  | t :: ts, s => if tileFits s t then startTiles w court ts (startTile w court s t) else s.setTodo court (t :: ts)

/-- The addresses a tile command names; a partial ignores its bias (R103). -/
def TileCmd.addrs (c : TileCmd) : List Nat :=
  [c.aAddr, c.bAddr, c.cAddr] ++ (if c.biasEn && !c.isPartial then [c.biasAddr] else [])

/-- CRT_XPOSE_INEXACT raised by a command (R108, R125). -/
def State.countInexact (s : State) (cmd : Desc) : State :=
  s.bump R.crtXposeInexact ((TileCmd.ofBits cmd).inexact s.engineByte)

/-- May a court's next command start: every tile of the command before it has started, or, in a fenced court's program,
has drained (R558)? -/
def commandReady (s : State) (court : Nat) : Bool :=
  (s.todoOf court).isEmpty && (s.courtOnline court || (s.tilesOf court).isEmpty)

/-- A command's tiles started, but for those that had drained before a stop (R120: TILE_RESTART). -/
def runTiles (w : Work) (court : Nat) (ts : List Tile) (s : State) : State :=
  let r := s.engine (.court court)
  let s' := s.setEngine (.court court) { r with pos := r.pos + 1, tiles := r.tiles + ts.length }
  (startTiles w court ((placeTiles s court ts).filter (fun t => !s.hasDrained court t)) s').remark court

/-- MMA (R113, R114): the tiles of its grid, or of its pair's, start on the four cubes. -/
def execMma (court : Nat) (cmd : Desc) (s : State) : Host.Outcome State Fault Refusal :=
  match s.issued (.court court) 0x01 cmd with
  | none => .next s
  | some w =>
    if !commandReady s court then .next s
    else
      match Tbl.get? s.eng.pairs court with
      | none => guarded (TileCmd.ofBits cmd).addrs (runTiles w court (gridTiles cmd (s.engine (.court court)).pos false) (s.countInexact cmd))
      | some first =>
        let s := (s.countInexact first).countInexact cmd
        let s := { s with eng := { s.eng with pairs := Tbl.erase s.eng.pairs court } }
        guarded ((TileCmd.ofBits first).addrs ++ (TileCmd.ofBits cmd).addrs) 
          (runTiles w court (pairTiles first cmd ((s.engine (.court court)).pos - 1)) s)

/-- MMA_PAIR (R114): the command is bound to the MMA that follows it. -/
def execMmaPair (court : Nat) (cmd : Desc) (s : State) : Host.Outcome State Fault Refusal :=
  match s.issued (.court court) 0x02 cmd with
  | none => .next s
  | some _ =>
    if !commandReady s court then .next s
    else
      let s := s.advance (.court court)
      .next { s with eng := { s.eng with pairs := Tbl.set s.eng.pairs court cmd } }

/-- The part of a logical tensor that a tile command's output is (R61). -/
def TileCmd.part (c : TileCmd) (s : State) (w : Work) : TensorPart :=
  partOf (partsOf s w) c.outTensor c.cAddr (if c.orient = 1 then c.m else c.n)

/-- A tile drained (R97 to R103): its elements written, what their conversion counts kept, and its lines and cycles
counted; the cube-cycles it took, and how many its cube was held by a WAIT or went without an operand or a free slot, are free
values (assumption 134). -/
def drainOne (w : Work) (court : Nat) (s : State) (t : Tile) : State :=
  let c := TileCmd.ofBits t.cmd
  let o := drainTile s.engineByte c (tensorAt s w.imgSlot c.outTensor) (c.part s w) (s.outExp w c.outTensor) w.seed t.elems
  let cycles := (s.freeVal 24).toNat
  let waited := (s.freed.freeVal 24).toNat
  let starved := (s.freed.freed.freeVal 24).toNat
  let s := (s.freed.freed.freed.readTraffic (court / 8) (t.court % 8) (biasReads c t)).putCells o.cells
  let s := s.cellTraffic (court / 8) (t.court % 8) o.cells
  let s := if c.isPartial then s else s.addUse w c.outTensor t.elems.length o.stats
  let s := s.addCharge { Charges.zero with cubeCyc := cycles }
  let s := s.count (court / 8) 0 4 (16 * tileSubtiles c.shape) (s.workCounted (t.court % 8))
  let s := s.count (court / 8) 0 0 cycles (s.workCounted (t.court % 8))
  let s := s.count (court / 8) 0 5 waited (s.workCounted (t.court % 8))
  s.count (court / 8) 0 6 starved (s.workCounted (t.court % 8))

/-- TILE_DRAIN (R97): the oldest tile in progress on a cube drains, and the tiles that waited for its slots start. -/
def execTileDrain (court cube : Nat) (s : State) : Host.Outcome State Fault Refusal :=
  match s.ump.work, (s.tilesOf court).find? (fun t => t.cube == cube) with
  | some w, some t =>
    let s := ((drainOne w court (s.setTiles court ((s.tilesOf court).erase t)) t).markDrained court t).remark court
    let waiting := (s.eng.todo.map (·.1)).filter (fun g => g / 8 == court / 8)
    .next (waiting.foldl (fun s g => startTiles w g (s.todoOf g) s) s)
  | _, _ => .next s

/-- TILE_WAIT (R110). -/
def execTileWait (court : Nat) (cmd : Desc) (s : State) : Host.Outcome State Fault Refusal := .next (s.waitCommand (.court court) cmd)

/-- TILE_SIGNAL (R110): after every earlier tile's drain. -/
def execTileSignal (court : Nat) (cmd : Desc) (s : State) : Host.Outcome State Fault Refusal :=
  .next (s.signalCommand (.court court) cmd ((s.tilesOf court).isEmpty && (s.todoOf court).isEmpty))

/-- TILE_END (R110). -/
def execTileEnd (court : Nat) (cmd : Desc) (s : State) : Host.Outcome State Fault Refusal := .next (s.endCommand (.court court) cmd)

/-- SEMAPHORE_REACHED (R110): every engine that waits for a value the semaphore has reached moves on. -/
def execSemaphoreReached (sem : Nat) (s : State) : Host.Outcome State Fault Refusal :=
  let go (t : Tbl EngineRun) : Tbl EngineRun := t.map (fun p => (p.1, releaseWait (s.sem sem) sem p.2))
  .next { s with eng := { s.eng with
    courts := go s.eng.courts, vecs := go s.eng.vecs, gathers := go s.eng.gathers, channels := go s.eng.channels } }

end Sys2Proof.Machine
end

