-- ==== Sys2Proof/Machine/TraceRows.lean ====
section
/-! DEFINITION. The commands of the trace queues and counter blocks (chapter 17). -/
namespace Sys2Proof.Machine
open Sys2Proof

/-- A trace word's 64 bytes as a number (R581). -/
def wordBytes (records : List (BitVec 128)) (notValid : Bool) (hi sq lost : Nat) : Nat :=
  (layout 512 (records.zipIdx.map (fun p => ((16 * p.2, 0, 128, p.1.toNat) : LayoutField)) ++
    [(48, 0, 6, 16 * records.length), (48, 6, 1, if notValid then 1 else 0), (49, 0, 24, hi), (52, 0, 32, sq),
     (56, 0, 32, lost)])).toNat

/-- A pop (R584, R585): the oldest word, the open word closed when the buffer is empty, or no word; and the queue after
it. -/
def TraceQueue.pop (q : TraceQueue) (ts : Nat) : Nat × TraceQueue :=
  let q := if q.wp = q.rp ∧ q.openRecords ≠ [] then q.commit else q
  if q.wp = q.rp then (wordBytes [] true (bitsOf ts 40 24) q.wordSeq q.lost, q)
  else
    let w := Tbl.getD q.words (q.rp % 4096) ⟨[], 0, 0, 0⟩
    (wordBytes w.records false w.tsBaseHi w.wordSeq w.lost,
      { q with words := Tbl.erase q.words (q.rp % 4096), rp := (q.rp + 1) % 8192 })

/-- The sixteen words of SCB_TRC_WORD in a port's latches (R576, R584). -/
def latchWord (p : PortState) (v : Nat) : PortState :=
  { p with latches := (List.range 16).foldl (fun t i => Tbl.set t (R.scbTrcWord i) (bitsOf v (32 * i) 32)) p.latches }

/-- TRACE_POP (R584, R585): a read of SCB_TRC_WORD from offset 0x0100 pops a word of the queue that the port selects; a
selection of no queue reads as an empty one. -/
def execTracePop (port : Port) (s : State) : Host.Outcome State Fault Refusal :=
  if s.readable false = false then .next (s.emit (.readData port 0))
  else
    let n := s.regFld (portKey port R.scbTrcSel) 0 5
    if 24 ≤ n then
      let v := wordBytes [] true 0 0 0
      .next ((s.modPort port (fun p => latchWord p v)).emit (.readData port v))
    else
      let (v, q) := (s.queue n).pop s.ts
      .next (((s.setQueue n q).modPort port (fun p => latchWord p v)).emit (.readData port v))

/-- SW_MARK (R578, R593): a write of SCB_TRC_MARK_HI enters its 8 bytes into the queue that the port selects. -/
def execSwMark (port : Port) (value : Word) (s : State) : Host.Outcome State Fault Refusal :=
  if s.booted = false then .next s
  else
    let n := s.regFld (portKey port R.scbTrcSel) 0 5
    let data := (s.regAt R.scbTrcMarkLo).toNat + 2 ^ 32 * value.toNat
    .next (if n < 24 then s.trace n 17 0 data else s)

/-- TRACE_WORD_TIMEOUT (R582): an open word that has held its first record for 100 µs closes. -/
def execTraceWordTimeout (queue : Nat) (s : State) : Host.Outcome State Fault Refusal :=
  let q := s.queue queue
  if 24 ≤ queue ∨ q.openRecords = [] then .next s
  else .next ({ s with ts := max s.ts (q.openTs + 100000) }.setQueue queue q.commit)

/-- PMU_CLR (R590, R594): the counters that the written bits name become 0. -/
def execPmuClr (port : Port) (block : Nat) (value : Word) (s : State) : Host.Outcome State Fault Refusal :=
  if 24 ≤ block ∨ !blockWritable s port (R.pmuClr block) then .next s
  else
    let b := s.pmu block
    let counters := b.counters.filter (fun c => !bitAt value.toNat c.1)
    .next { s with scb := { s.scb with blocks := Tbl.set s.scb.blocks block { b with counters := counters } } }

/-- PMU_VAL_LO_READ (R576, R591): a counter is sampled into the port's latch with 16 timestamp bits. -/
def execPmuValLoRead (port : Port) (block counter : Nat) (s : State) : Host.Outcome State Fault Refusal :=
  if s.readable false = false ∨ 24 ≤ block ∨ 8 ≤ counter then .next (s.emit (.readData port 0))
  else
    let v := Tbl.getD (s.pmu block).counters counter 0
    let hi := bitsOf v 32 16 + 2 ^ 16 * bitsOf s.ts 0 16
    let s := s.modPort port (fun p => { p with latches := Tbl.set p.latches (R.pmuValHi block counter) hi })
    .next (s.emit (.readData port (bitsOf v 0 32)))

/-- PMU_CYC_LO_READ (R587, R591): a cycle counter is sampled, with 16 timestamp bits in PMU_CYC_TS. -/
def execPmuCycLoRead (port : Port) (block : Nat) (s : State) : Host.Outcome State Fault Refusal :=
  if s.readable false = false ∨ 24 ≤ block then .next (s.emit (.readData port 0))
  else
    let s := s.modPort port (fun p => { p with latches := Tbl.set p.latches (R.pmuCycTs block) (bitsOf s.ts 0 16) })
    .next (s.readLo port (R.pmuCycHi block) (s.cyclesNow block))

end Sys2Proof.Machine
end

