-- ==== Sys2Proof/Machine/VecEngRows.lean ====
section
/-! DEFINITION. The commands of vector engines as events of the device (chapters 4 and 5): each reads and writes its
court's buffer and its SRAM die, and leaves its counts with the work. -/
namespace Sys2Proof.Machine
open Sys2Proof

/-! What a vector command sees (R128, R145). -/

/-- The 128 bytes of the exclusion table for a layer. -/
def xmaskBytes (s : State) (layer : Nat) : List Byte := (s.devRead 0 (s.xmaskTable.1 + 128 * layer) 128).1

/-- A byte as an engine reads it: on chip, or the exclusion table of one layer where that lies in LPDDR5X. -/
def vecByte (s : State) (layer a : Nat) : Byte :=
  let base := s.xmaskTable.1 + 128 * layer
  if inLpddr a then (if base ≤ a then (xmaskBytes s layer).getD (a - base) 0 else 0) else s.engineByte a

/-- The environment of a command of the work. -/
def vecEnv (s : State) (w : Work) (c : VecCmd) : VecEnv where
  rd := vecByte s (bitsOf c.scalar0.toNat 0 16)
  entry := tensorAt s w.imgSlot
  parts := partsOf s w
  inExp := s.inExp w
  outExp := s.outExp w
  seed := w.seed
  step := w.stepNo
  xmask := if s.regFld R.vecXmaskCtl 0 1 = 1 then some s.xmaskTable.1 else none
  free := fun r => Config.freeValue 32 (s.freeCtr + 2 + r)

/-! What it reads and counts (R588). -/

/-- The runs of an input's rows. -/
def inputRuns (s : State) (w : Work) (c : VecCmd) (tensor addr : Nat) : List (Nat × Nat) :=
  let f := if tensor = 0xFFFF then Fmt.fp32 else (tensorAt s w.imgSlot tensor).fmt
  (List.range c.rows).map (fun r => (addr + c.stride * r, f.rowBytes c.cols))

/-- Runs of positions that follow each other, as (first, count). -/
def segmentsOf : List Nat → List (Nat × Nat)
  | [] => []
  | k :: ks =>
    match segmentsOf ks with
    | (a, n) :: rest => if a = k + 1 then (k, n + 1) :: rest else (k, 1) :: (a, n) :: rest
    | [] => [(k, 1)]

/-- The bytes of a stored row that hold the elements at some positions; a block-scaled format is read in blocks of 32 with
their scales (R43, R44). -/
def elementRuns (f : Fmt) (row : Nat) (ks : List Nat) : List (Nat × Nat) :=
  if f.blockScaled then
    ((ks.map (· / 32)).dedup).flatMap (fun b =>
      [(scaleAddr f row (32 * b), 1), (row + b / 8 * f.groupBytes + f.groupHead + b % 8 * (4 * f.elemBits), 4 * f.elemBits)])
  else (segmentsOf ks).map (fun p =>
    (row + p.1 * f.elemBits / 8, ceilDiv ((p.1 + p.2) * f.elemBits) 8 - p.1 * f.elemBits / 8))

/-- The runs of an EW input: with a mask, only the positions that it leaves in (R650). -/
def ewRuns (s : State) (w : Work) (env : VecEnv) (c : VecCmd) (tensor addr : Nat) : List (Nat × Nat) :=
  if c.maskEn then
    let f := if tensor = 0xFFFF then Fmt.fp32 else (tensorAt s w.imgSlot tensor).fmt
    (List.range c.rows).flatMap (fun r =>
      elementRuns f (addr + c.stride * r) ((List.range c.cols).filter (fun k => !c.masked env r k)))
  else inputRuns s w c tensor addr

/-- The mask bitmaps. -/
def VecCmd.maskRuns (c : VecCmd) : List (Nat × Nat) :=
  if c.maskEn then [(c.auxAddr, c.rows * (8 * ceilDiv c.cols 64))] else []

/-- Elements that the mask leaves in. -/
def VecCmd.elements (c : VecCmd) (env : VecEnv) : Nat :=
  ((List.range c.rows).map (fun r => ((List.range c.cols).filter (fun k => !c.masked env r k)).length)).sum

/-- How a vector command counts: what it computes, the runs of X where it does not read whole rows, the runs it reads beside X
and its mask, its evaluations of R137's functions, and whether its main output is converted under OUT_TENSOR. -/
structure VecRow where
  out : VecOut
  input : Option (List (Nat × Nat)) := none
  reads : List (Nat × Nat) := []
  transc : Nat := 0
  converts : Bool := true
  counted : Bool := false

/-- The addresses a vector command names. -/
def VecCmd.addrs (c : VecCmd) : List Nat := [c.xAddr, c.zAddr]

/-- A vector command executed: its bytes written, its counts kept; the cycles and lane operations it took are free
values. A command of no rows reads and writes nothing and completes at once (R156, R187). -/
def runVec (s : State) (w : Work) (e : Nat) (c : VecCmd) (v : VecRow) : State :=
  let die := e / 16
  let unit := s.courtFor (e / 2) 0 % 8
  let cycles := if c.rows = 0 then 0 else (s.freeVal 24).toNat
  let ops := if c.rows = 0 then 0 else (s.freed.freeVal 32).toNat
  let reads := if c.rows = 0 then [] else v.input.getD (inputRuns s w c c.xTensor c.xAddr) ++ c.maskRuns ++ v.reads
  let s := { s.freed.freed with freeCtr := s.freeCtr + 2 + c.rows }
  let s := s.readTraffic die unit reads
  let s := (s.putCells v.out.cells).cellTraffic die unit v.out.cells
  let s := if v.converts then s.addUse w c.outTensor (c.rows * c.cols) { v.out.stats with nans := 0 } else s
  let s := (s.addNans v.out.nans).addCharge { Charges.zero with vecCyc := cycles, vecOps := ops }
  let s := if v.counted then (s.bump R.vecNanTotal v.out.nans).count die 1 3 v.out.nans (s.workCounted unit) else s
  let s := (s.count die 1 0 cycles (s.workCounted unit)).count die 1 1 ops (s.workCounted unit)
  (s.count die 1 2 v.transc (s.workCounted unit)).advance (.vec e)

/-- A forward or backward vector command as an outcome. -/
def vecStep (e op : Nat) (cmd : Desc) (s : State) (f : Work → VecEnv → VecCmd → VecRow) :
    Host.Outcome State Fault Refusal :=
  match s.issued (.vec e) op cmd with
  | none => .next s
  | some w =>
    let c := VecCmd.ofBits cmd
    guarded c.addrs (runVec s w e c (f w (vecEnv s w c) c))

/-! The commands (R132). -/

/-- EW (R650). -/
def execEw (engine : Nat) (cmd : Desc) (s : State) : Host.Outcome State Fault Refusal :=
  vecStep engine 0x01 cmd s (fun w env c => {
    out := vecEw env c
    input := some (ewRuns s w env c c.xTensor c.xAddr)
    reads := if ewBinary c.subop then ewRuns s w env c c.yTensor c.yAddr else []
    transc := if 0x10 ≤ c.subop ∧ c.subop ≤ 0x17 then c.elements env else 0 })

/-- RED (R650). -/
def execRed (engine : Nat) (cmd : Desc) (s : State) : Host.Outcome State Fault Refusal :=
  vecStep engine 0x02 cmd s (fun _ env c => { out := vecRed env c, converts := false })

/-- SOFTMAX (R139, R140). -/
def execSoftmax (engine : Nat) (cmd : Desc) (s : State) : Host.Outcome State Fault Refusal :=
  vecStep engine 0x03 cmd s (fun _ env c => { out := vecSoftmax env c, transc := c.elements env })

/-- LNORM (R141). -/
def execLnorm (engine : Nat) (cmd : Desc) (s : State) : Host.Outcome State Fault Refusal :=
  vecStep engine 0x04 cmd s (fun _ env c => {
    out := vecLnorm env c, reads := [(c.yAddr, 4 * c.cols), (c.auxAddr, 4 * c.cols)], transc := c.rows })

/-- RMSNORM (R141). -/
def execRmsnorm (engine : Nat) (cmd : Desc) (s : State) : Host.Outcome State Fault Refusal :=
  vecStep engine 0x05 cmd s (fun _ env c => { out := vecRmsnorm env c, reads := [(c.yAddr, 4 * c.cols)], transc := c.rows })

/-- ROUTE (R142 to R146). -/
def execRoute (engine : Nat) (cmd : Desc) (s : State) : Host.Outcome State Fault Refusal :=
  vecStep engine 0x06 cmd s (fun _ env c => {
    out := vecRoute env c
    reads := (if c.biasSel then [(c.yAddr, 4 * c.cols)] else []) ++
      (if env.xmask.isSome then [(s.xmaskTable.1 + 128 * bitsOf c.scalar0.toNat 0 16, 128)] else [])
    transc := c.rows * (if c.mode = 1 then c.k else c.cols)
    converts := false
    counted := true })

/-- LOSS (R147 to R149). -/
def execLoss (engine : Nat) (cmd : Desc) (s : State) : Host.Outcome State Fault Refusal :=
  vecStep engine 0x07 cmd s (fun w env c =>
    let kl := !(isZero32 c.scalar1)
    { out := vecLoss env c
      reads := (if kl then inputRuns s w c c.yTensor c.yAddr else []) ++
        (if isZero32 c.scalar2 then [] else [(if kl then c.yAddr + c.rows * c.stride else c.yAddr, 4 * c.rows)])
      transc := (2 * c.elements env + c.rows) * (if kl then 2 else 1)
      counted := true })

/-- COMBINE (R104, R150). -/
def execCombine (engine : Nat) (cmd : Desc) (s : State) : Host.Outcome State Fault Refusal :=
  vecStep engine 0x08 cmd s (fun w env c => {
    out := vecCombine env c
    reads := ((List.range c.k).flatMap (fun p => inputRuns s w c c.xTensor (c.xAddr + (p + 1) * c.scalar0.toNat))) ++
      (if bitAt c.mode 2 then [(c.auxAddr, ((Fmt.ofCode (bitsOf c.scalar1.toNat 8 8)).getD .fp32).rowBytes c.cols)] else []) })

/-- OPT in MODE 0 or 1 (R178 to R181): a group with a reason bit is skipped, and the skip is reported when the segment
completes (R179, R183). -/
def execOpt (engine : Nat) (cmd : Desc) (s : State) : Host.Outcome State Fault Refusal :=
  match s.issued (.vec engine) 0x09 cmd with
  | none => .next s
  | some w =>
    let c := VecCmd.ofBits cmd
    if c.mode = 2 then .next s
    else
      let o := vecOpt (vecEnv s w c) c
      let s := runVec s w engine c {
        out := o.out
        reads := [(c.yAddr, stateBytes c.mode c.params), (c.auxAddr, 64)]
        converts := o.reason = 0 }
      let s := if o.reason = 0 then s
        else (s.bump R.vecOptSkipTotal).modWork (fun w => { w with skips := w.skips ++ [(o.reason, c.outTensor, o.skipped)] })
      guarded (c.addrs ++ [c.yAddr, c.auxAddr]) s

/-- SCAN, OPT's MODE 2 (R177). -/
def execScan (engine : Nat) (cmd : Desc) (s : State) : Host.Outcome State Fault Refusal :=
  match s.issued (.vec engine) 0x09 cmd with
  | none => .next s
  | some w =>
    let c := VecCmd.ofBits cmd
    if c.mode ≠ 2 then .next s
    else guarded [c.xAddr, c.auxAddr] (runVec s w engine c {
      out := vecScan (vecEnv s w c) c, reads := [(c.auxAddr, 64)], converts := false })

/-- SOFTMAX_BWD (R167 to R169). -/
def execSoftmaxBwd (engine : Nat) (cmd : Desc) (s : State) : Host.Outcome State Fault Refusal :=
  vecStep engine 0x0A cmd s (fun w env c => {
    out := vecSoftmaxBwd env c
    reads := inputRuns s w c c.yTensor c.yAddr
    transc := c.elements env + (if c.mode = 1 then 2 * c.rows else 0) })

/-- NORM_BWD (R170, R171). -/
def execNormBwd (engine : Nat) (cmd : Desc) (s : State) : Host.Outcome State Fault Refusal :=
  vecStep engine 0x0B cmd s (fun w env c => {
    out := vecNormBwd env c
    reads := inputRuns s w c c.yTensor c.yAddr ++ (if c.mode ≤ 1 then [(c.auxAddr, 4 * c.cols)] else [])
    transc := c.rows })

/-- VEC_WAIT (R132). -/
def execVecWait (engine : Nat) (cmd : Desc) (s : State) : Host.Outcome State Fault Refusal := .next (s.waitCommand (.vec engine) cmd)

/-- VEC_SIGNAL (R132): every earlier command's writes are done. -/
def execVecSignal (engine : Nat) (cmd : Desc) (s : State) : Host.Outcome State Fault Refusal :=
  .next (s.signalCommand (.vec engine) cmd true)

/-- VEC_END (R132). -/
def execVecEnd (engine : Nat) (cmd : Desc) (s : State) : Host.Outcome State Fault Refusal := .next (s.endCommand (.vec engine) cmd)

end Sys2Proof.Machine
end

