-- ==== Sys2Proof/Machine/VoteRows.lean ====
section
/-! DEFINITION. Votes and verdicts of a group step (R418 to R421, R423, R426, R428): the tree over the whole group on
channel 63. -/
namespace Sys2Proof.Machine
open Sys2Proof

/-! The tree over the whole group (R420). -/

/-- All five axes. -/
def wholeGroup : Nat := 31
/-- Levels over the whole group. -/
def groupLevels (s : State) : Nat := levels (subSize s wholeGroup)
/-- This member's leaf and its children. -/
def groupLeaf (s : State) : Nat := leafOf s wholeGroup s.rank
def groupChildren (s : State) : List (Nat × Nat) := childrenOf (groupLeaf s) (subSize s wholeGroup)
/-- The level of this member's node. -/
def nodeLevel (s : State) : Nat := if groupLeaf s = 0 then groupLevels s else sendLevel (groupLeaf s) 12

/-- The class or program of a group step's work; the entry's class where it has none. -/
def stepClass (s : State) (g : GroupStep) : Nat :=
  match s.ump.ready.find? (fun r => r.did == g.workId), s.ump.steps.find? (fun p => p.did == g.workId) with
  | some r, _ => if g.hasWork then r.cls else (s.rsvEntry g.entry).elim 0 (·.cls)
  | none, some p => if g.hasWork then p.program else (s.rsvEntry g.entry).elim 0 (·.cls)
  | none, none => (s.rsvEntry g.entry).elim 0 (·.cls)

/-- What a vote or verdict packet carries. -/
def voteHead (s : State) (g : GroupStep) (kind level : Nat) : SubHead :=
  { gstep := s.rdc.gstep, kind := kind, level := level, attempt := (s.attemptOf g.workId).attempt, work := stepClass s g,
    wkind := g.wkind, leaf := groupLeaf s }

/-- A vote or verdict sent to a leaf. -/
def sendVoteTo (s : State) (g : GroupStep) (kind level leaf : Nat) (v : Vote) : State :=
  s.sendMarked 1 63 (rankAt s wholeGroup leaf) 0 ((voteHead s g kind level).bytes ++ v.bytes)

/-- The verdict sent down to every child (R421). -/
def sendVerdict (s : State) (g : GroupStep) (v : Vote) : State :=
  (groupChildren s).foldl (fun s q => sendVoteTo s g 4 q.1 q.2 v) s

/-- A vote with an entry for each agreed-scale slot. -/
def Vote.pad (n : Nat) (v : Vote) : Vote :=
  { v with d := (List.range n).map (fun i => v.d.getD i 0), amax := (List.range n).map (fun i => v.amax.getD i zero32) }

/-- A merged vote that leaves this node: up the tree, or decided at the root and sent down (R420, R421). -/
def forwardVote (s : State) (g : GroupStep) : State :=
  let v := g.vote.pad g.slots.length
  let s := s.modStep (fun g => { g with forwarded := true })
  match parentOf (groupLeaf s) with
  | some (up, level) => sendVoteTo s g 3 level up v
  | none =>
    let d := decideVote v (s.attemptOf g.workId).attempt
    (sendVerdict s g d).holdVerdict d

/-- A node forwards once its own vote and those of all its children are here. -/
def State.tryForward (s : State) : State :=
  match s.rdc.step with
  | none => s
  | some g => if g.own && !g.forwarded && (groupChildren s).all (fun q => g.children.contains q.2) then forwardVote s g else s

/-- This member's own vote (R419, R425): FAIL without work that has ended by VOTE_NS, and the step's NaN count. Work that an
overflow stopped carries OVER alone. -/
def ownVote (s : State) (g : GroupStep) : Vote :=
  match s.ump.done.find? (fun w => g.hasWork && w.did == g.workId) with
  | some w => { g.vote with
      fail := g.vote.fail || decide (g.start + g.voteNs < w.ended.getD 0)
      nanCount := min 0xFFFFFFFF (g.vote.nanCount + w.nans) }
  | none => if g.hasWork && g.stopped then g.vote else { g.vote with fail := true }

/-- Does this member still owe a vote in the step? -/
def owesVote (g : GroupStep) : Bool := g.takesPart && !g.own && g.verdict.isNone

/-- This member votes at VOTE_NS; work that is still running stops (R419). -/
def State.castVote (s : State) : State :=
  match s.rdc.step with
  | none => s
  | some g =>
    if !owesVote g then s
    else
      let s := { s with ts := max s.ts (g.start + g.voteNs) }
      let s := if g.hasWork ∧ s.ump.work.map (·.did) = some g.workId then s.failVote else s
      let g := s.rdc.step.getD g
      let v := ownVote s g
      (s.modStep (fun g => { g with own := true, vote := v })).tryForward

/-- VOTE_SEND (R418, R419). -/
def execVoteSend (s : State) : Host.Outcome State Fault Refusal := .next s.castVote

/-- Is a packet of another group step, or of another attempt or work than this member's own, or is no step in progress (R426)? A
member without work of its own has none to compare (assumption 165). -/
def staleVote (s : State) (k : Packet) : Bool :=
  let h := subHeadOf k.data
  match s.rdc.step with
  | none => true
  | some g => h.gstep != s.rdc.gstep || k.ch != 63 ||
      (g.hasWork && (h.attempt != (s.attemptOf g.workId).attempt || h.work != stepClass s g || h.wkind != g.wkind))

/-- The body of a vote or verdict packet. -/
def voteBody (g : GroupStep) (k : Packet) : Vote := voteOf g.slots.length ((k.data.take k.len).drop 32)

/-- A vote taken in (R420): a child's first vote is merged; one that comes after this node has forwarded is too late. -/
def takeVote (k : Packet) (s : State) : State :=
  if staleVote s k then s.bump R.rdcStale
  else
    let s := (s.mark false k).chargeReceived k
    let child := (subHeadOf k.data).leaf
    match s.rdc.step with
    | none => s
    | some g =>
      if g.forwarded || !g.takesPart || g.children.contains child || !(groupChildren s).any (fun q => q.2 == child) then s
      else (s.modStep (fun g => { g with children := g.children ++ [child], vote := g.vote.merge (voteBody g k) })).tryForward

/-- VOTE_RECEIVE (R420, R421). -/
def execVoteReceive (s : State) : Host.Outcome State Fault Refusal :=
  .next (takeInbox s (fun k => k.packet.ty == 1 && kindOf k == 3) takeVote)

/-- A node forwards at its bound: a child's vote that is absent counts as FAIL (R420). -/
def State.forwardLate (s : State) : State :=
  let s := s.castVote
  match s.rdc.step with
  | none => s
  | some g =>
    if !g.takesPart || g.forwarded || g.verdict.isSome then s
    else
      let s := { s with ts := max s.ts (g.start + g.voteNs + 4000 * nodeLevel s) }
      forwardVote s { g with vote := { g.vote with fail := true } }

/-- VOTE_FORWARD_BOUND (R418, R420). -/
def execVoteForwardBound (s : State) : Host.Outcome State Fault Refusal := .next s.forwardLate

/-- A verdict taken in (R421): held, and sent on to this member's children. -/
def takeVerdict (k : Packet) (s : State) : State :=
  if staleVote s k then s.bump R.rdcStale
  else
    let s := (s.mark false k).chargeReceived k
    match s.rdc.step with
    | none => s
    | some g =>
      if !g.takesPart || g.verdict.isSome then s
      else
        let v := voteBody g k
        (sendVerdict s g v).holdVerdict v

/-- VERDICT_RECEIVE (R421, R434). -/
def execVerdictReceive (s : State) : Host.Outcome State Fault Refusal :=
  .next (takeInbox s (fun k => k.packet.ty == 1 && kindOf k == 4) takeVerdict)

/-- VERDICT_TIMEOUT (R418, R423): no verdict is here at the bound, and this member faults itself. -/
def execVerdictTimeout (s : State) : Host.Outcome State Fault Refusal :=
  let s := s.forwardLate
  match s.rdc.step with
  | none => .next s
  | some g =>
    if !g.takesPart || g.verdict.isSome then .next s
    else .next (State.faultSelf { s with ts := max s.ts (g.start + g.voteNs + 8000 * groupLevels s) })

end Sys2Proof.Machine
end

