-- ==== Sys2Proof/Machine/WstRows.lean ====
section
/-! DEFINITION. The commands of weight-store loads, the pass chain, lost shards and mirror fetches, and drains (chapters 6
and 13). -/
namespace Sys2Proof.Machine
open Sys2Proof

/-! Starting and ending a load (R201, R223). -/

/-- The source that WST_LOAD_CTL names (R223). -/
def loadSourceOf (s : State) (code : Nat) : Option LoadSource :=
  match code with
  | 0 => some .portA
  | 1 => some .portB
  | 2 => some .both
  | 3 => some .flash
  | 4 => if s.chainIn.isEmpty then none else some .chain
  | _ => none

/-- A load refused: REASON says why; the state of a load that runs stays. -/
def refuseLoad (s : State) (reason : Nat) : State :=
  let old := (s.regAt R.wstLoadStatus).toNat
  if s.wst.load.isSome then s.setReg R.wstLoadStatus (BitVec.ofNat 32 (setBits old 3 4 reason)) else s.setLoadStatus 3 reason (old / 2 ^ 15)

/-- A load as it starts. -/
def freshLoad (target ts : Nat) (pair : Bool) (src : LoadSource) : WsLoad :=
  { target := target, pair := pair, source := src, preamble := [], received := 0, manifest := none, leaves := [], layout := [], nextA := 0,
    nextB := 0, chainNext := [], pieces := [], unchecked := [], waiting := [], writing := none, place := [], bad := [],
    needs := [], resends := [], reread := [], held := [], forwarded := [], progressTs := ts }

/-- The other half of the full-mode image that a load's target held: it leaves READY with the target and holds no image any
more (R199, where the pair acts as one bank; assumption 224). -/
def State.dropOther (s : State) (target : Nat) : State :=
  let b := 1 - target
  let s := s.setBank b { s.bank b with st := .writing, place := [], layout := [] }
  { s with wst := { s.wst with fences := s.wst.fences.filter (fun f => f.bank != b)
                               fetches := s.wst.fetches.filter (fun f => f.bank != b) } }

/-- LOAD_START (R201, R223): SOURCE and TARGET are written, and the load starts or is refused. -/
def execLoadStart (port : Port) (value : Word) (s : State) : Host.Outcome State Fault Refusal :=
  if !blockWritable s port R.wstLoadCtl then .next s
  else
    let s := s.setFld R.wstLoadCtl 2 4 (wordFld value 2 4)
    if wordFld value 0 1 = 0 then .next s
    else
      let target := wordFld value 5 1
      match loadSourceOf s (wordFld value 2 3) with
      | none => .next (refuseLoad s wsFormat)
      | some src =>
        if s.wst.load.isSome || s.bankBusy target then .next (refuseLoad s wsBusyTarget)
        else
          let pair := s.readyPair
          let s := (s.takeTarget target).setLoadStatus 1 0 0
          let s := if pair then s.dropOther target else s
          .next { s with wst := { s.wst with load := some (freshLoad target s.ts pair src), window := [] } }

/-- LOAD_ABORT (R223): a running load ends, and its target is FAILED. -/
def execLoadAbort (port : Port) (value : Word) (s : State) : Host.Outcome State Fault Refusal :=
  if !blockWritable s port R.wstLoadCtl then .next s
  else
    let s := s.setFld R.wstLoadCtl 2 4 (wordFld value 2 4)
    .next (if wordFld value 1 1 = 1 then s.loadFails wsAborted else s)

/-- LOAD_SOURCE_TIMEOUT (R204): 60 s without progress. -/
def execLoadSourceTimeout (s : State) : Host.Outcome State Fault Refusal :=
  match s.wst.load with
  | none => .next s
  | some l => .next ({ s with ts := max s.ts (l.progressTs + 60000000000) }.loadFails wsSourceLost)

/-! The preamble (R198, R201). -/

/-- Is the preamble there: the whole of it, or a header that is not well formed? -/
def WsLoad.preambleThere (l : WsLoad) : Bool :=
  decide (128 ≤ l.received) && l.shardOff.elim true (fun so => decide (so ≤ l.received))

/-- The preamble forwarded on the first port of OUT_PORTS (R205). -/
def forwardPreamble (s : State) (l : WsLoad) (shardOff : Nat) : State :=
  ((s.chainOut.head?).bind s.rankBehind).elim s (fun r => s.sendLoad r preambleSeq (l.preamble.readBytes 0 shardOff))

/-- The second bank of a full-mode image taken as target (R199, R201). -/
def takeOther (s : State) (target : Nat) : State := s.takeTarget (1 - target)

/-- PREAMBLE_VERIFY (R198): steps 1 to 3, then the target and its room (R201); shards that waited are checked. -/
def execPreambleVerify (s : State) : Host.Outcome State Fault Refusal :=
  match s.wst.load with
  | none => .next s
  | some l =>
    if l.manifest.isSome || !l.preambleThere then .next s
    else match verifyPreamble l.preamble s.pwr.owners with
      | .error reason => .next (s.loadFails reason)
      | .ok (f, leaves, layout) =>
        if f.full && !l.pair && s.bankBusy (1 - l.target) then .next (s.loadFails wsBusyTarget)
        else
          let s := if f.full then takeOther s l.target else s
          let v : WsLoad := { l with manifest := some f, leaves := leaves, layout := layout, unchecked := [], progressTs := s.ts }
          let s := s.modLoad (fun _ => v)
          let count (d : Nat) : Nat := ((List.range f.shards).filter (fun x => v.dieOf x == d)).length
          if (List.range 16).any (fun d => decide (goodBlocks s v d < count d)) then .next (s.loadFails wsNoSpace)
          else
            let s := forwardPreamble s v f.shardOff
            .next (l.unchecked.foldl (fun s x => s.shardArrives x.1 x.2.1 x.2.2) s)

/-! Host delivery (R464). -/

/-- A host port's next expected offset, none while the load does not take shards from it. -/
def expectedOff (l : WsLoad) (p : Port) : Option Nat :=
  match l.source, p with
  | .portA, .a => some l.nextA
  | .portB, .b => some l.nextA
  | .both, .a => some l.nextA
  | .both, .b => if l.nextB ≠ 0 then some l.nextB else l.shardOff.map (· + blockBytes)
  | _, _ => none

/-- The offset after a piece: with both ports, past the other port's shard (R204). -/
def offAfter (l : WsLoad) (p : Port) (off : Nat) : Nat :=
  match l.source, l.shardOff with
  | .both, some so => if so ≤ off ∧ (off - so) % blockBytes = 0 ∧ (off - so) / blockBytes % 2 ≠ p.num then off + blockBytes else off
  | _, _ => off

/-- Does a piece stay clear of the other port's shards? With both ports no piece runs past the end of its shard. -/
def pieceOk (l : WsLoad) (off n : Nat) : Bool :=
  match l.source, l.shardOff with
  | .both, some so =>
    if off < so then decide (off + n ≤ so + blockBytes)
    else decide ((off - so) / blockBytes = (off + n - 1 - so) / blockBytes)
  | _, _ => true

/-- The shard asked for by WS_NEED_SHARD that starts at an image offset. -/
def neededAt (l : WsLoad) (off : Nat) : Option Nat :=
  l.shardOff.bind (fun so =>
    if so ≤ off ∧ (off - so) % blockBytes = 0 ∧ (Tbl.get? l.needs ((off - so) / blockBytes)).isSome then
      some ((off - so) / blockBytes) else none)

/-- The state after a host's piece is taken in at the port's next expected offset. -/
def takeHost (s : State) (p : Port) (off : Nat) (data : List Byte) : State :=
  let s := s.takeBytes off data .host
  s.modLoad (fun l =>
    let next := offAfter l p (off + data.length)
    if l.source = .both ∧ p = .b then { l with nextB := next } else { l with nextA := next })

/-- WS_LOAD (R464): a piece of the image, or a shard that WS_NEED_SHARD asked for, taken in by the running load. -/
def execWsLoad (ctx ring : Nat) (s : State) : Host.Outcome State Fault Refusal :=
  match s.oldest ctx ring 0x50 with
  | none => .next s
  | some a =>
    let d := a.desc
    let off := fld d 16 0 64
    let win := fld d 24 0 64
    let n := fld d 32 0 32
    let port := (s.ctx? ctx).elim Port.a (·.port)
    if fld d 8 0 32 ≠ 1 ∨ fld d 36 0 224 ≠ 0 ∨ n % 256 ≠ 0 ∨ 67108864 < n ∨ win % 65536 ≠ 0 ∨ a.slotsOk = false then
      .next (s.finish a.did stBad)
    else match s.wst.load with
      | none => .next (s.finish a.did stBad)
      | some l =>
        if n = 0 then .next (s.finish a.did stZeroCount)
        else
          let data := s.winRead ctx win n
          match neededAt l off with
          | some x => if n = blockBytes then .next ((s.shardArrives x data .host).finish a.did stOk) else .next (s.finish a.did stBad)
          | none =>
            if expectedOff l port ≠ some off || !pieceOk l off n then .next (s.finish a.did stBad)
            else .next ((takeHost s port off data).finish a.did stOk)

/-! Writing (R202). -/

/-- A block that has failed program-verify twice: BAD, and its shard waits for the next GOOD block. -/
def badBlock (s : State) (w : ShardWrite) (die : Nat) : State :=
  let key := blockKey die w.bank w.block
  let s := { s with wst := { s.wst with blockMap := Tbl.set s.wst.blockMap key 1 } }
  (s.modLoad (fun l => { l with writing := none, bad := l.bad ++ [key], waiting := (w.shard, w.data) :: l.waiting })).writeNext

/-- A block that has passed program-verify: its shard is placed, and the last one ends the load. -/
def shardPlaced (s : State) (l : WsLoad) (w : ShardWrite) (die : Nat) : State :=
  let place : ShardPlace := ⟨w.shard, die, w.bank, w.block⟩
  let s := s.modLoad (fun l => { l with writing := none, place := l.place ++ [place], progressTs := s.ts })
  let done := l.place.length + 1
  match l.manifest with
  | none => s
  | some f =>
    if done < f.shards then (s.setLoadStatus 1 0 done).writeNext
    else
      let s := s.wst.load.elim s (fun l => l.banks.foldl (fillBank l f) s)
      let s := (l.taken.filter (fun b => !l.banks.contains b)).foldl (fun s b => s.setBank b { s.bank b with st := .failed }) s
      loadDone ({ s with wst := { s.wst with load := none } }.setLoadStatus 2 0 done) l.target 0

/-- SHARD_WRITE_DONE (R202): the program-verify of the block just written. -/
def execShardWriteDone (verified : Bool) (s : State) : Host.Outcome State Fault Refusal :=
  match s.wst.load with
  | none => .next s
  | some l =>
    match l.writing with
    | none => .next s
    | some w =>
      let die := l.dieOf w.shard
      if verified then .next (shardPlaced s l w die)
      else if w.fails = 0 then .next ((s.putShard w die).modLoad (fun l => { l with writing := some { w with fails := 1 } }))
      else .next (badBlock s w die)

/-- SPI_NOR_SHARD_READ (R204, R207): the image's next piece read from the flash: the preamble, then shard by shard. -/
def execSpiNorShardRead (s : State) : Host.Outcome State Fault Refusal :=
  match s.wst.load, bundleEntries s.pwr.flash with
  | some l, some es =>
    if l.source ≠ .flash ∨ s.pwr.flashSel ∨ !es.any (fun e => e.1 == 4) then .next s
    else
      let (base, len) := itemOf es 4
      let read (off n : Nat) : List Byte := s.pwr.flash.readBytes (base + off) n
      if l.received = 0 then
        let header : Memory := Memory.writeBytes [] 0 (read 0 128)
        let n := if headerOk header then min (headerShardOff header) len else min 128 len
        .next ((s.takeBytes 0 (read 0 n) .flash).modLoad (fun l => { l with nextA := n }))
      else if l.manifest.isNone ∨ len < l.nextA + blockBytes then .next s
      else
        let off := l.nextA
        let s := s.modLoad (fun l => { l with nextA := off + blockBytes })
        .next (s.takeBytes off (read off blockBytes) .flash)
  | _, _ => .next s

/-! The pass chain (R205 to R207). -/

/-- A packet of the pass chain: of a type, with CH 127, not on a port in boot service. -/
def isChain (s : State) (ty : Nat) (k : InboxPacket) : Bool :=
  k.packet.ty == ty && k.packet.ch == 127 && !(s.link k.port).boot && s.booted

/-- The next expected index of the chain's n-th port of c. -/
def chainExpected (l : WsLoad) (port i : Nat) : Nat := Tbl.getD l.chainNext port i

/-- Indices found missing below an index that begins on a port (R206). -/
def missingBelow (l : WsLoad) (port i c x : Nat) : List Nat :=
  (List.range x).filter (fun y => decide (chainExpected l port i ≤ y) && decide (y % c = i))

/-- LOAD_DATA (R205): bytes of the preamble or of a shard from the predecessor; of a shard below the next expected index,
only one asked for again, from it or from the operator (R206, R207). -/
def execLoadData (s : State) : Host.Outcome State Fault Refusal :=
  match s.inbox? (isChain s 0x20) with
  | none => .next s
  | some k =>
    let s := s.takeInbox (isChain s 0x20)
    let ins := s.chainIn
    match s.wst.load, ins.idxOf? k.port with
    | some l, some i =>
      if l.source ≠ .chain then .next s
      else if k.packet.seq = preambleSeq then
        if l.manifest.isSome then .next s else .next (s.takeBytes l.received k.packet.data (.peer k.packet.src))
      else
        let x := k.packet.seq
        let asked := l.resends.contains x || (Tbl.get? l.needs x).isSome
        let begins := !asked && (Tbl.get? l.pieces x).isNone
        if begins && decide (x < chainExpected l k.port i) then .next s
        else
          let missing := if begins then missingBelow l k.port i ins.length x else []
          let s := missing.foldl (fun s y => s.askResend k.packet.src y) s
          let s := if begins then s.modLoad (fun l => { l with chainNext := Tbl.set l.chainNext k.port (x + ins.length) }) else s
          .next (s.takePiece x k.packet.data (.peer k.packet.src))
    | _, _ => .next s

/-- LOAD_RESEND (R206): a shard of the window, or the preamble while the load runs, sent again; otherwise GONE. -/
def execLoadResend (s : State) : Host.Outcome State Fault Refusal :=
  match s.inbox? (isChain s 0x21) with
  | none => .next s
  | some k =>
    let s := s.takeInbox (isChain s 0x21)
    let x := k.packet.seq
    match s.wst.window.find? (fun w => w.1 == x), s.wst.load with
    | some w, _ => .next (s.sendLoad k.packet.src x w.2)
    | none, some l =>
      if x = preambleSeq ∧ l.manifest.isSome then
        .next (s.sendLoad k.packet.src x (l.preamble.readBytes 0 (headerShardOff l.preamble)))
      else .next (s.send 15 0x22 127 k.packet.src x [])
    | none, none => .next (s.send 15 0x22 127 k.packet.src x [])

/-- LOAD_GONE (R207): the predecessor no longer holds the shard, and the operator is asked for it. -/
def execLoadGone (s : State) : Host.Outcome State Fault Refusal :=
  match s.inbox? (isChain s 0x22) with
  | none => .next s
  | some k =>
    let s := s.takeInbox (isChain s 0x22)
    match s.wst.load with
    | none => .next s
    | some l => if l.resends.contains k.packet.seq then .next (s.needShard k.packet.seq) else .next s

/-! Lines that cannot be read (R212 to R214). -/

/-- The bank and entry index of a shard that a running stream entry reads from a block. -/
def streamingShard (s : State) (die block : Nat) : Option (Nat × Nat × Nat) :=
  s.wst.stream.bind (fun t =>
    (t.entries[t.completed]?).bind (fun e =>
      let b := t.bankOf e
      if t.started ≤ t.completed then none
      else (s.bank b).place.findSome? (fun p =>
        if p.die = die ∧ 4096 * p.bank + p.block = block ∧ (layerShards (s.bank b) e.layer die).contains p.shard ∧
            s.shardGone b p.shard = false then some (b, p.shard, t.completed) else none)))

/-- Codewords of a line: four of 64 data and 3 check symbols (R486). -/
def lineReadable (bs : List Byte) : Bool :=
  (List.range 4).all (fun i => sc8Decode ((bs.drop (67 * i)).take 67) != .uncorrectable)

/-- The codewords that SC8 corrects in a line (R212, R488). -/
def lineCorrected (bs : List Byte) : Nat :=
  ((List.range 4).filter (fun i => match sc8Decode ((bs.drop (67 * i)).take 67) with
    | .corrected _ => true
    | _ => false)).length

/-- The error record of a FENCED block (R553). -/
def blockFault (s : State) (unit : Nat) (b shard : Nat) : State :=
  let hit := if s.mirrorOn then none else s.ump.work.filter (workFenced (fencesOf s b shard))
  s.fault { cls := 1, kind := 6, unit := unit, cause := 1, action := 1, discard := hit.isSome,
            ctx := hit.elim 0 (·.ctx), step := hit.elim 0 (fun w => if w.isSealed then 0 else w.stepNo),
            detected := s.ts, affected := hit.elim [] (fun w => [w.ctx]) }

/-- WS_LINE_REREAD (R212): the two re-reads of an uncorrectable line of a running stream: streaming continues, with
the corrections of the line that is taken counted (R488), or the shard is lost and its block FENCED. -/
def execWsLineReread (die block _line : Nat) (first second : List Byte) (s : State) : Host.Outcome State Fault Refusal :=
  match streamingShard s die block with
  | none => .next s
  | some (b, shard, entry) =>
    if lineReadable first || lineReadable second then
      let s := (s.bump R.wstRetry).bump R.memCe (lineCorrected (if lineReadable first then first else second))
      .next (s.count die 3 1 2 (s.workCounted 9))
    else
      let s := s.count die 3 1 2 (s.workCounted 9)
      let unit := 8192 * die + block
      let s := { s with wst := { s.wst with blockMap := Tbl.set s.wst.blockMap unit 2 } }
      .next ((blockFault s unit b shard).missShard b shard entry)

/-- READ_REQ (R213): a peer's mirror fetch, answered from a bank that holds the image and the shard. -/
def execReadReq (s : State) : Host.Outcome State Fault Refusal :=
  match s.inbox? (fun k => k.packet.ty == 0x10) with
  | none => .next s
  | some k =>
    let s := s.takeInbox (fun k => k.packet.ty == 0x10)
    let image := ofBytes (k.packet.data.take 8)
    let shard := ofBytes ((k.packet.data.drop 8).take 4)
    let holds (b : Nat) : Bool :=
      let r := s.bank b
      (decide (r.st = .active) || decide (r.st = .draining) || decide (r.st = .ready)) && r.imageId == image && !s.shardGone b shard
    match [0, 1].find? holds with
    | none => .next s
    | some b =>
      let data := s.shardData b shard
      .next ((List.range (ceilDiv data.length 4080)).foldl (fun s i =>
        s.send 14 0x11 127 k.packet.src 0
          (bytesOf 8 image ++ bytesOf 4 shard ++ bytesOf 4 (4080 * i) ++ (data.drop (4080 * i)).take 4080)) s)

/-- A fetched shard in place (R213): its bytes at the destination of its entry on its die. -/
def fetchDone (s : State) (t : StreamRun) (f : MirrorFetch) : State :=
  match t.entries[f.entry]? with
  | none => s
  | some e =>
    let die := (shardLayer (s.bank f.bank) f.shard).2
    match (partPlaces (s.bank f.bank) e die).find? (fun p => p.1 == f.shard) with
    | none => s
    | some p =>
      let s := (s.chipWrite (sdAddr die p.2) f.data).traffic true die 9 (sdAddr die p.2) f.data.length
      s.setStream { t with fetched := t.fetched ++ [(f.entry, f.shard)] }

/-- READ_RSP (R213): bytes of a fetched shard; the last of them put it in place. -/
def execReadRsp (s : State) : Host.Outcome State Fault Refusal :=
  match s.inbox? (fun k => k.packet.ty == 0x11) with
  | none => .next s
  | some k =>
    let s := s.takeInbox (fun k => k.packet.ty == 0x11)
    let image := ofBytes (k.packet.data.take 8)
    let shard := ofBytes ((k.packet.data.drop 8).take 4)
    let off := ofBytes ((k.packet.data.drop 12).take 4)
    let mine (f : MirrorFetch) : Bool := f.shard == shard && (s.bank f.bank).imageId == image && f.data.length == off
    match s.wst.fetches.find? mine with
    | none => .next s
    | some f =>
      let f := { f with data := f.data ++ k.packet.data.drop 16 }
      let others := s.wst.fetches.eraseP mine
      let s := s.addCharge { Charges.zero with mglRx := 64 * k.packet.flits }
      if f.data.length < usedLen (entriesIn (s.bank f.bank) shard) shard then
        .next { s with wst := { s.wst with fetches := others ++ [f] } }
      else
        let s := { s with wst := { s.wst with fetches := others } }
        .next (s.wst.stream.elim s (fun t => fetchDone s t f))

/-- MIRROR_FETCH_TIMEOUT (R214): a fetch that has failed or has not completed within 50 µs of its issue fences every
schedule that reads the shard. -/
def execMirrorFetchTimeout (shard : Nat) (s : State) : Host.Outcome State Fault Refusal :=
  match s.wst.fetches.find? (fun f => f.shard == shard) with
  | none => .next s
  | some f =>
    let s := { s with ts := max s.ts (f.issued + 50000), wst := { s.wst with fetches := s.wst.fetches.filter (fun x => x.shard != shard) } }
    .next (s.fenceShard f.bank shard)

/-- DRAIN_LIMIT_EXPIRY (R216, R649): the drain limit has elapsed; the first boundary after this instant ends the old epoch's
requests. -/
def execDrainLimitExpiry (s : State) : Host.Outcome State Fault Refusal :=
  match [0, 1].find? (fun b => decide ((s.bank b).st = .draining)) with
  | none => .next s
  | some b => .next { s with ts := max s.ts ((s.bank b).drainTs + 1000000 * s.regFld R.wstDrainLimit 0 20) }

end Sys2Proof.Machine
end

