-- ==== Sys2Proof/Machine/Dispatch.lean ====
section
/-! DEFINITION. The meaning of every command: one arm per constructor of Instr (the host reads these arms). -/
namespace Sys2Proof.Machine
open Sys2Proof

/-- A command's effect on everything but the queue of waiting commands. -/
def exec (i : Instr) (s : State) : Host.Outcome State Fault Refusal :=
  match i with
  | .powerUp => Sys2Proof.Machine.execPowerUp s
  | .powerDown => Sys2Proof.Machine.execPowerDown s
  | .coldReset => Sys2Proof.Machine.execColdReset s
  | .sysRstNRelease straps => Sys2Proof.Machine.execSysRstNRelease straps s
  | .warmReset => Sys2Proof.Machine.execWarmReset s
  | .rstCtlWarm port value => Sys2Proof.Machine.execRstCtlWarm port value s
  | .thermalTrip sensor eighths => Sys2Proof.Machine.execThermalTrip sensor eighths s
  | .thermalTripEnd readings => Sys2Proof.Machine.execThermalTripEnd readings s
  | .railFault rail => Sys2Proof.Machine.execRailFault rail s
  | .inputUndervoltage millivolts => Sys2Proof.Machine.execInputUndervoltage millivolts s
  | .umpireWatchdog => Sys2Proof.Machine.execUmpireWatchdog s
  | .refereeFault cause => Sys2Proof.Machine.execRefereeFault cause s
  | .portReset port => Sys2Proof.Machine.execPortReset port s
  | .functionLevelReset port func => Sys2Proof.Machine.execFunctionLevelReset port func s
  | .bootSequence tests => Sys2Proof.Machine.execBootSequence tests s
  | .bootGo port value => Sys2Proof.Machine.execBootGo port value s
  | .bootHostTimeout => Sys2Proof.Machine.execBootHostTimeout s
  | .bootChunkReceive => Sys2Proof.Machine.execBootChunkReceive s
  | .bootLoadGone => Sys2Proof.Machine.execBootLoadGone s
  | .bootLoadResend => Sys2Proof.Machine.execBootLoadResend s
  | .flashSelChange level => Sys2Proof.Machine.execFlashSelChange level s
  | .pwrReqActive port => Sys2Proof.Machine.execPwrReqActive port s
  | .pwrReqIdle port => Sys2Proof.Machine.execPwrReqIdle port s
  | .pwrReqStandby port => Sys2Proof.Machine.execPwrReqStandby port s
  | .powerControlTick reading => Sys2Proof.Machine.execPowerControlTick reading s
  | .mgmtWarmReset => Sys2Proof.Machine.execMgmtWarmReset s
  | .mgmtHalfTime => Sys2Proof.Machine.execMgmtHalfTime s
  | .mgmtResume => Sys2Proof.Machine.execMgmtResume s
  | .mgmtAtTsReached => Sys2Proof.Machine.execMgmtAtTsReached s
  | .smbV48 => Sys2Proof.Machine.execSmbV48 s
  | .smbInputCurrent => Sys2Proof.Machine.execSmbInputCurrent s
  | .smbPower => Sys2Proof.Machine.execSmbPower s
  | .smbJunction => Sys2Proof.Machine.execSmbJunction s
  | .smbInlet => Sys2Proof.Machine.execSmbInlet s
  | .smbBootStatus => Sys2Proof.Machine.execSmbBootStatus s
  | .smbRstCause => Sys2Proof.Machine.execSmbRstCause s
  | .smbState => Sys2Proof.Machine.execSmbState s
  | .smbAlert => Sys2Proof.Machine.execSmbAlert s
  | .flashRead port value => Sys2Proof.Machine.execFlashRead port value s
  | .flashProgram port value => Sys2Proof.Machine.execFlashProgram port value s
  | .flashErase port value => Sys2Proof.Machine.execFlashErase port value s
  | .flashOpDone verified => Sys2Proof.Machine.execFlashOpDone verified s
  | .fabricFlitReceive link seq word => Sys2Proof.Machine.execFabricFlitReceive link seq word s
  | .doorbellWrite port func page offset bytes value => Sys2Proof.Machine.execDoorbellWrite port func page offset bytes value s
  | .descriptorAccept ctx ring read => Sys2Proof.Machine.execDescriptorAccept ctx ring read s
  | .flagHandover port func slot bytes gen => Sys2Proof.Machine.execFlagHandover port func slot bytes gen s
  | .flagReclaim port func slot bytes gen => Sys2Proof.Machine.execFlagReclaim port func slot bytes gen s
  | .windowHostAccess port func offset access => Sys2Proof.Machine.execWindowHostAccess port func offset access s
  | .serve ctx ring => Sys2Proof.Machine.execServe ctx ring s
  | .adapterLoad ctx ring header => Sys2Proof.Machine.execAdapterLoad ctx ring header s
  | .adapterLoadComplete adapter sealed => Sys2Proof.Machine.execAdapterLoadComplete adapter sealed s
  | .adapterUnload ctx ring => Sys2Proof.Machine.execAdapterUnload ctx ring s
  | .adapterRevoke ctx ring => Sys2Proof.Machine.execAdapterRevoke ctx ring s
  | .practiceOpen ctx ring blob => Sys2Proof.Machine.execPracticeOpen ctx ring blob s
  | .practiceStep ctx ring => Sys2Proof.Machine.execPracticeStep ctx ring s
  | .practiceExport ctx ring => Sys2Proof.Machine.execPracticeExport ctx ring s
  | .practiceExportDone adapter => Sys2Proof.Machine.execPracticeExportDone adapter s
  | .practiceClose ctx ring => Sys2Proof.Machine.execPracticeClose ctx ring s
  | .practiceCloseDone adapter => Sys2Proof.Machine.execPracticeCloseDone adapter s
  | .wsLoad ctx ring => Sys2Proof.Machine.execWsLoad ctx ring s
  | .schedLoad ctx ring image => Sys2Proof.Machine.execSchedLoad ctx ring image s
  | .schedUnload ctx ring => Sys2Proof.Machine.execSchedUnload ctx ring s
  | .schedUnloadDone slot => Sys2Proof.Machine.execSchedUnloadDone slot s
  | .mailboxRequestCopy port vf message => Sys2Proof.Machine.execMailboxRequestCopy port vf message s
  | .mailboxReplyCopy port message => Sys2Proof.Machine.execMailboxReplyCopy port message s
  | .hubMbxCfg4Write port func value => Sys2Proof.Machine.execHubMbxCfg4Write port func value s
  | .hubHeartbeat port value => Sys2Proof.Machine.execHubHeartbeat port value s
  | .peerLost cause => Sys2Proof.Machine.execPeerLost cause s
  | .stagedWrite port offset value => Sys2Proof.Machine.execStagedWrite port offset value s
  | .huddleCheck port atTs => Sys2Proof.Machine.execHuddleCheck port atTs s
  | .huddleApplyRequest port check atTs => Sys2Proof.Machine.execHuddleApplyRequest port check atTs s
  | .huddleDiscard port check apply atTs => Sys2Proof.Machine.execHuddleDiscard port check apply atTs s
  | .huddleCheckDone port => Sys2Proof.Machine.execHuddleCheckDone port s
  | .registerWrite port func offset bytes value => Sys2Proof.Machine.execRegisterWrite port func offset bytes value s
  | .scbTsLoRead port => Sys2Proof.Machine.execScbTsLoRead port s
  | .crtSatTotalLoRead port => Sys2Proof.Machine.execCrtSatTotalLoRead port s
  | .umpServeNoLoRead port => Sys2Proof.Machine.execUmpServeNoLoRead port s
  | .rdcGstepLoRead port => Sys2Proof.Machine.execRdcGstepLoRead port s
  | .clkThrNsLoRead port => Sys2Proof.Machine.execClkThrNsLoRead port s
  | .rstMgmtSeqLoRead port => Sys2Proof.Machine.execRstMgmtSeqLoRead port s
  | .hdlAppliedTsLoRead port => Sys2Proof.Machine.execHdlAppliedTsLoRead port s
  | .slotEnd => Sys2Proof.Machine.execSlotEnd s
  | .serveBoundary => Sys2Proof.Machine.execServeBoundary s
  | .groupSlotStart index => Sys2Proof.Machine.execGroupSlotStart index s
  | .rsvWindowEnd index => Sys2Proof.Machine.execRsvWindowEnd index s
  | .overrunLimit => Sys2Proof.Machine.execOverrunLimit s
  | .urgentSubstitution port value => Sys2Proof.Machine.execUrgentSubstitution port value s
  | .segmentStart => Sys2Proof.Machine.execSegmentStart s
  | .segmentEnd => Sys2Proof.Machine.execSegmentEnd s
  | .serveEnd => Sys2Proof.Machine.execServeEnd s
  | .layerStreamStart => Sys2Proof.Machine.execLayerStreamStart s
  | .streamEntryComplete => Sys2Proof.Machine.execStreamEntryComplete s
  | .layerComputeStart => Sys2Proof.Machine.execLayerComputeStart s
  | .prefixGatherStart die => Sys2Proof.Machine.execPrefixGatherStart die s
  | .prefixGatherComplete die => Sys2Proof.Machine.execPrefixGatherComplete die s
  | .kvWriteback die layer => Sys2Proof.Machine.execKvWriteback die layer s
  | .kvWritebackDone die layer => Sys2Proof.Machine.execKvWritebackDone die layer s
  | .mma court cmd => Sys2Proof.Machine.execMma court cmd s
  | .mmaPair court cmd => Sys2Proof.Machine.execMmaPair court cmd s
  | .tileDrain court cube => Sys2Proof.Machine.execTileDrain court cube s
  | .tileWait court cmd => Sys2Proof.Machine.execTileWait court cmd s
  | .tileSignal court cmd => Sys2Proof.Machine.execTileSignal court cmd s
  | .tileEnd court cmd => Sys2Proof.Machine.execTileEnd court cmd s
  | .semaphoreReached sem => Sys2Proof.Machine.execSemaphoreReached sem s
  | .ew engine cmd => Sys2Proof.Machine.execEw engine cmd s
  | .red engine cmd => Sys2Proof.Machine.execRed engine cmd s
  | .softmax engine cmd => Sys2Proof.Machine.execSoftmax engine cmd s
  | .lnorm engine cmd => Sys2Proof.Machine.execLnorm engine cmd s
  | .rmsnorm engine cmd => Sys2Proof.Machine.execRmsnorm engine cmd s
  | .route engine cmd => Sys2Proof.Machine.execRoute engine cmd s
  | .loss engine cmd => Sys2Proof.Machine.execLoss engine cmd s
  | .combine engine cmd => Sys2Proof.Machine.execCombine engine cmd s
  | .opt engine cmd => Sys2Proof.Machine.execOpt engine cmd s
  | .scan engine cmd => Sys2Proof.Machine.execScan engine cmd s
  | .softmaxBwd engine cmd => Sys2Proof.Machine.execSoftmaxBwd engine cmd s
  | .normBwd engine cmd => Sys2Proof.Machine.execNormBwd engine cmd s
  | .vecWait engine cmd => Sys2Proof.Machine.execVecWait engine cmd s
  | .vecSignal engine cmd => Sys2Proof.Machine.execVecSignal engine cmd s
  | .vecEnd engine cmd => Sys2Proof.Machine.execVecEnd engine cmd s
  | .copy engine cmd => Sys2Proof.Machine.execCopy engine cmd s
  | .listCopy engine cmd => Sys2Proof.Machine.execListCopy engine cmd s
  | .embag engine cmd => Sys2Proof.Machine.execEmbag engine cmd s
  | .embagBwd engine cmd => Sys2Proof.Machine.execEmbagBwd engine cmd s
  | .gatherWait engine cmd => Sys2Proof.Machine.execGatherWait engine cmd s
  | .gatherSignal engine cmd => Sys2Proof.Machine.execGatherSignal engine cmd s
  | .gatherEnd engine cmd => Sys2Proof.Machine.execGatherEnd engine cmd s
  | .allreduce channel cmd => Sys2Proof.Machine.execAllreduce channel cmd s
  | .reduce channel cmd => Sys2Proof.Machine.execReduce channel cmd s
  | .bcast channel cmd => Sys2Proof.Machine.execBcast channel cmd s
  | .allgather channel cmd => Sys2Proof.Machine.execAllgather channel cmd s
  | .dispatch channel cmd => Sys2Proof.Machine.execDispatch channel cmd s
  | .channelCombine channel cmd => Sys2Proof.Machine.execChannelCombine channel cmd s
  | .channelWait channel cmd => Sys2Proof.Machine.execChannelWait channel cmd s
  | .channelSignal channel cmd => Sys2Proof.Machine.execChannelSignal channel cmd s
  | .channelEnd channel cmd => Sys2Proof.Machine.execChannelEnd channel cmd s
  | .rdcDataReceive => Sys2Proof.Machine.execRdcDataReceive s
  | .fbCountsReceive => Sys2Proof.Machine.execFbCountsReceive s
  | .fbRowReceive => Sys2Proof.Machine.execFbRowReceive s
  | .fbReturnReceive => Sys2Proof.Machine.execFbReturnReceive s
  | .dueNsDeadline channel => Sys2Proof.Machine.execDueNsDeadline channel s
  | .voteSend => Sys2Proof.Machine.execVoteSend s
  | .voteReceive => Sys2Proof.Machine.execVoteReceive s
  | .voteForwardBound => Sys2Proof.Machine.execVoteForwardBound s
  | .verdictReceive => Sys2Proof.Machine.execVerdictReceive s
  | .verdictTimeout => Sys2Proof.Machine.execVerdictTimeout s
  | .portUp port peer => Sys2Proof.Machine.execPortUp port peer s
  | .portRetry port => Sys2Proof.Machine.execPortRetry port s
  | .frameReceive port frame => Sys2Proof.Machine.execFrameReceive port frame s
  | .lmcReplayRequest port seq => Sys2Proof.Machine.execLmcReplayRequest port seq s
  | .lmcCreditReturn port vc count => Sys2Proof.Machine.execLmcCreditReturn port vc count s
  | .packetRoute port => Sys2Proof.Machine.execPacketRoute port s
  | .outputArbitration port => Sys2Proof.Machine.execOutputArbitration port s
  | .tsyncExchange => Sys2Proof.Machine.execTsyncExchange s
  | .syncReq port => Sys2Proof.Machine.execSyncReq port s
  | .syncReply t2 t3 t4 st hops => Sys2Proof.Machine.execSyncReply t2 t3 t4 st hops s
  | .tsyncTimeout => Sys2Proof.Machine.execTsyncTimeout s
  | .sessionHandshake port peer => Sys2Proof.Machine.execSessionHandshake port peer s
  | .rekey port peer => Sys2Proof.Machine.execRekey port peer s
  | .rekeyLimit port => Sys2Proof.Machine.execRekeyLimit port s
  | .loadStart port value => Sys2Proof.Machine.execLoadStart port value s
  | .loadAbort port value => Sys2Proof.Machine.execLoadAbort port value s
  | .preambleVerify => Sys2Proof.Machine.execPreambleVerify s
  | .shardWriteDone verified => Sys2Proof.Machine.execShardWriteDone verified s
  | .loadData => Sys2Proof.Machine.execLoadData s
  | .loadResend => Sys2Proof.Machine.execLoadResend s
  | .loadGone => Sys2Proof.Machine.execLoadGone s
  | .loadSourceTimeout => Sys2Proof.Machine.execLoadSourceTimeout s
  | .wsLineReread die block line first second => Sys2Proof.Machine.execWsLineReread die block line first second s
  | .readReq => Sys2Proof.Machine.execReadReq s
  | .readRsp => Sys2Proof.Machine.execReadRsp s
  | .mirrorFetchTimeout shard => Sys2Proof.Machine.execMirrorFetchTimeout shard s
  | .drainLimitExpiry => Sys2Proof.Machine.execDrainLimitExpiry s
  | .lkrQuery port value => Sys2Proof.Machine.execLkrQuery port value s
  | .lkrQueryDone => Sys2Proof.Machine.execLkrQueryDone s
  | .commitCopyDone adapter => Sys2Proof.Machine.execCommitCopyDone adapter s
  | .memReread addr word rewriteOk => Sys2Proof.Machine.execMemReread addr word rewriteOk s
  | .patrolRead word reread => Sys2Proof.Machine.execPatrolRead word reread s
  | .scrubPageDone => Sys2Proof.Machine.execScrubPageDone s
  | .keyLoadReceive die slot => Sys2Proof.Machine.execKeyLoadReceive die slot s
  | .sweepLine slot => Sys2Proof.Machine.execSweepLine slot s
  | .refRotateGo port value => Sys2Proof.Machine.execRefRotateGo port value s
  | .purgeGo port value => Sys2Proof.Machine.execPurgeGo port value s
  | .slotPurgeDone slot => Sys2Proof.Machine.execSlotPurgeDone slot s
  | .refDbgCtlLock port value => Sys2Proof.Machine.execRefDbgCtlLock port value s
  | .refProfCtlReq port value => Sys2Proof.Machine.execRefProfCtlReq port value s
  | .dbgChallenge level => Sys2Proof.Machine.execDbgChallenge level s
  | .dbgResponse rsa slh block => Sys2Proof.Machine.execDbgResponse rsa slh block s
  | .getVersion port body => Sys2Proof.Machine.execGetVersion port body s
  | .getCapabilities port body => Sys2Proof.Machine.execGetCapabilities port body s
  | .negotiateAlgorithms port body => Sys2Proof.Machine.execNegotiateAlgorithms port body s
  | .getDigests port body => Sys2Proof.Machine.execGetDigests port body s
  | .getCertificate port body => Sys2Proof.Machine.execGetCertificate port body s
  | .challenge port body => Sys2Proof.Machine.execChallenge port body s
  | .getMeasurements port body => Sys2Proof.Machine.execGetMeasurements port body s
  | .keyExchange port body => Sys2Proof.Machine.execKeyExchange port body s
  | .finish port session leafHash verified => Sys2Proof.Machine.execFinish port session leafHash verified s
  | .spdmHeartbeat port session body => Sys2Proof.Machine.execSpdmHeartbeat port session body s
  | .keyUpdate port session body => Sys2Proof.Machine.execKeyUpdate port session body s
  | .endSession port session body => Sys2Proof.Machine.execEndSession port session body s
  | .ideKm port session body => Sys2Proof.Machine.execIdeKm port session body s
  | .tntBind session body => Sys2Proof.Machine.execTntBind session body s
  | .tntKem session body => Sys2Proof.Machine.execTntKem session body s
  | .skeyInstall session body => Sys2Proof.Machine.execSkeyInstall session body s
  | .skeyRevoke session body => Sys2Proof.Machine.execSkeyRevoke session body s
  | .pkeyRotate session body => Sys2Proof.Machine.execPkeyRotate session body s
  | .grant session body => Sys2Proof.Machine.execGrant session body s
  | .allow session body => Sys2Proof.Machine.execAllow session body s
  | .consent session body => Sys2Proof.Machine.execConsent session body s
  | .report session body => Sys2Proof.Machine.execReport session body s
  | .resume session body => Sys2Proof.Machine.execResume session body s
  | .close session body => Sys2Proof.Machine.execClose session body s
  | .purge session body => Sys2Proof.Machine.execPurge session body s
  | .unitFaultReport kind unit cause => Sys2Proof.Machine.execUnitFaultReport kind unit cause s
  | .progressTimeout kind unit => Sys2Proof.Machine.execProgressTimeout kind unit s
  | .storm kind unit => Sys2Proof.Machine.execStorm kind unit s
  | .fenceComplete => Sys2Proof.Machine.execFenceComplete s
  | .thermalHoldEntry sensor eighths => Sys2Proof.Machine.execThermalHoldEntry sensor eighths s
  | .thermalHoldExit => Sys2Proof.Machine.execThermalHoldExit s
  | .tracePop port => Sys2Proof.Machine.execTracePop port s
  | .swMark port value => Sys2Proof.Machine.execSwMark port value s
  | .traceWordTimeout queue => Sys2Proof.Machine.execTraceWordTimeout queue s
  | .pmuClr port block value => Sys2Proof.Machine.execPmuClr port block value s
  | .pmuValLoRead port block counter => Sys2Proof.Machine.execPmuValLoRead port block counter s
  | .pmuCycLoRead port block => Sys2Proof.Machine.execPmuCycLoRead port block s
  | .perstDeassertion port => Sys2Proof.Machine.execPerstDeassertion port s
  | .spiNorShardRead => Sys2Proof.Machine.execSpiNorShardRead s
  | .peerTakesLinkDown port => Sys2Proof.Machine.execPeerTakesLinkDown port s
  | .vfEnable port count => Sys2Proof.Machine.execVfEnable port count s

end Sys2Proof.Machine
end

