-- ==== Sys2Proof/Machine/Tick.lean ====
section
/-! DEFINITION. The passing of time while no command waits (R573; assumption 1). -/
namespace Sys2Proof.Machine
open Sys2Proof

/-- Does the timestamp count? Not while the rails are down and not in a cold reset (R573). -/
def clockRuns (s : State) : Bool :=
  match s.pwr.phase with
  | .off | .coldReset => false
  | _ => true

/-- The counter block of a die that counts fabric flits: XD and HD dies (R588). -/
def Die.flitBlock : Die → Option Nat
  | .xd n => some (18 + n)
  | .hd n => some (16 + n)
  | _ => none

/-- A flit that a die sends counted under its class (R588). -/
def State.countFlit (s : State) (d : Die) (f : FabricFlit) : State :=
  d.flitBlock.elim s (fun b => s.count b 6 (f.cls.priority - 1) 1)

/-- One flit sent on every fabric link where one waits (R23); what a link carries in a nanosecond is a rate, and left out
(assumption 205). -/
def fabricTick (s : State) : State :=
  let turn (s : State) (e : Nat × FabricLink) : State :=
    match e.2.choose with
    | none => s
    | some f =>
      let src := Die.ofNum (e.1 / 64)
      (s.countFlit src f).emit (.fabricFlit src (Die.ofNum (e.1 % 64)) e.2.next f (sc8Check f.data))
  let sent := s.mgl.fabric.foldl turn s
  { sent with mgl := { sent.mgl with fabric := sent.mgl.fabric.map (fun e => (e.1, e.2.send)) } }

/-- One nanosecond of this device's reference on the counter, whose rate a correction of θ changes (R390); modulo 2^64. -/
def tickTs (s : State) : State :=
  let n := (s.mgl.tsync.frac + 1000000 + s.mgl.tsync.ppm).toNat
  { s with ts := wrap64 (s.ts + n / 1000000), mgl := { s.mgl with tsync := { s.mgl.tsync with frac := n % 1000000 } } }

/-- One nanosecond of timestamp, and the fabric's turn. -/
def idleTick (s : State) : State := if clockRuns s then fabricTick (tickTs s) else s

end Sys2Proof.Machine
end

