-- ==== Sys2Proof/Machine/View.lean ====
section
/-! DEFINITION. What a read of a register through BAR0 returns (R11, R13, R622 to R625): most registers read as State
holds them; a read-only register that tells of other state is computed from that state here, so that no fact is kept
twice. -/
namespace Sys2Proof.Machine
open Sys2Proof

/-- Bits of a list of facts, the first at bit 0. -/
def flagBits (bs : List Bool) : Nat := bs.foldr (fun b n => 2 * n + if b then 1 else 0) 0

/-- The 64 bytes of a directory entry (R239). -/
def DirEntry.bits (e : DirEntry) : BitVec 512 :=
  layout 512 [(0, 0, 64, e.adapter), (8, 0, 32, e.tenant), (12, 0, 16, e.keySlot), (12, 16, 3, e.st.code), (12, 19, 1, e.kind),
    (16, 0, 32, e.version), (20, 0, 16, e.loadCtx), (22, 0, 8, e.fmt), (24, 0, 32, e.plist), (28, 0, 32, e.pages.length),
    (32, 0, 32, e.pins), (40, 0, 64, e.lastUse), (48, 0, 16, e.layers), (50, 0, 16, e.plen), (52, 0, 16, e.dKv),
    (56, 0, 64, e.trainedOn)]

/-- What the directory region holds at an offset below 256 MiB (R229, R239): the entry of that place, or zero for a FREE one.
No function can map the region; the entries themselves are kept once, as `LkrState.dir`. -/
def State.directoryByte (s : State) (off : Nat) : Byte :=
  match s.lkr.dir.find? (fun e => (Config.directoryIndex e.adapter).toNat == off / 64) with
  | some e => BitVec.ofNat 8 (bitsOf e.bits.toNat (8 * (off % 64)) 8)
  | none => 0

/-- UMP_STATUS (R365) of a hub: the hub of the control-owner port schedules (R18). -/
def viewUmpStatus (s : State) (p : Port) : Nat :=
  s.ump.stretch + 2 ^ 4 * flagBits [s.host.owner == p && s.booted, s.ump.atRisk]

/-- A word of a die's block map (R224). -/
def viewBlockMap (s : State) : Nat :=
  let sel := (s.regAt R.wstBlkmapSel).toNat
  let word := bitsOf sel 8 8
  if 192 ≤ word then 0
  else (List.range 16).foldl (fun a i =>
    a + s.blockCode (blockKey (bitsOf sel 0 4) (bitsOf sel 4 1) (16 * word + i)) * 4 ^ i) 0

/-- WST_BANKb_STATE (R222): STATE, WEAR_OVER and WRITES. -/
def viewBank (r : BankRec) : Nat := r.st.code + (if 3000 < r.writes then 8 else 0) + 2 ^ 16 * min 65535 r.writes

/-- IMAGE_ID of a bank as WST_BANKb_ID shows it (R222). -/
def viewBankId (r : BankRec) : Nat :=
  match r.st with
  | .empty | .writing | .failed => 0
  | _ => r.imageId

/-- Requests of the DRAINING bank's epoch (R224). -/
def viewDrainLeft (s : State) : Nat :=
  match [0, 1].find? (fun b => decide ((s.bank b).st = .draining)) with
  | some b => (s.ump.requests.filter (fun q => q.epoch == (s.bank b).epoch)).length
  | none => 0

/-- MEM_SWEEP_STATUS of a tenant slot (R513). -/
def viewSweep (s : State) (slot : Nat) : Nat :=
  let k := Tbl.get? s.mem.keySlots slot
  let w := s.mem.sweeps.find? (fun w => w.slot == slot)
  let left := w.elim 0 (fun w =>
    (s.mem.pages.filter (fun e => decide (e.2.cls = 1) && decide (e.2.index = slot) && decide (w.nextLine < 1024 * (e.1 + 1)))).length)
  k.elim 0 (fun k => k.cur + if k.oldLive then 2 else 0) +
    (if w.isSome then 4 else 0) + (if w.elim false (fun w => !w.held.isEmpty) then 8 else 0) + 2 ^ 8 * left

/-- A port mask of the Mirgarlink ports that satisfy a test. -/
def viewPorts (s : State) (f : MglPort → Bool) : Nat :=
  flagBits ((List.range 16).map (fun p => (Tbl.get? s.mgl.ports p).elim false f))

/-- MGL_PORT_STATUS (R396). -/
def viewPortStatus (s : State) : Nat :=
  viewPorts s (fun q => decide (q.phase = .up)) + 2 ^ 16 * viewPorts s (fun q => decide (q.phase = .up) && q.secure)

/-- MGL_TSYNC_STATUS (R398). -/
def viewTsync (s : State) : Nat :=
  s.tsyncShown.1 + 2 ^ 4 * (s.tsyncShown.2 % 8) + 2 ^ 16 * s.regFld R.mglTsyncStatus 16 16

/-- RDC_STATUS (R438). -/
def viewRdcStatus (s : State) : Nat :=
  flagBits [s.rdc.faulted, s.groupMember] + 2 ^ 2 * s.regFld R.rdcStatus 2 4

/-- RDC_DIG_DATA0 to 3 as one number (R433, R438). -/
def viewDigest (s : State) : Nat :=
  let sel := (s.regAt R.rdcDigSel).toNat
  (Tbl.get? s.rdc.snapshot (bitsOf sel 0 7)).elim 0 (fun d => if bitAt sel 8 then d.recv else d.sent)

/-- REF_SLOT_INFO and REF_SLOT_TENANT of a slot (R545). -/
def viewSlotInfo (s : State) (slot : Nat) : Nat × Nat :=
  match Tbl.get? s.ref.slots slot with
  | some r => ((if r.st = .bound then 1 else 2) + 2 ^ 3 * flagBits [r.present, r.debugOk, r.profileOk], r.tenant)
  | none => (0, 0)

/-- SCB_TRC_STATUS of a queue (R593). -/
def viewQueue (q : TraceQueue) : Nat := q.rp + 2 ^ 14 * q.openRecords.length + 2 ^ 16 * q.wp

/-- BMC_SENSOR of a sensor (R646): a signed reading of 12 bits and VALID. -/
def viewSensor (s : State) (n : Nat) : Nat :=
  (Tbl.get? s.pwr.sensors n).elim 0 (fun e => 2 ^ 31 + (e % 4096).toNat)

/-- BMC_RAIL of a rail (R646): millivolts and units of 100 mA; 0 while the rail is off. -/
def viewRail (s : State) (n : Nat) : Nat :=
  if s.pwr.railsUp.contains n then (Tbl.get? s.pwr.rails n).elim 0 (fun r => r.1 % 65536 + 2 ^ 16 * (r.2 % 65536)) else 0

/-- HUB_OWNER of a port (R480): the staged fields, OWNER and PEER_LOST. -/
def viewOwner (s : State) (p : Port) : Nat :=
  (s.regAt (portKey p R.hubOwner)).toNat + 2 ^ 16 * flagBits [s.host.owner == p, peerLost s]

/-- HDL_STATUS of a port (R481): STATE and BUSY, with DENIED and RULE as held. -/
def viewHuddle (s : State) (p : Port) : Nat :=
  let b := (s.host.port p).bank
  b.phase.code + (if b.running.isSome then 8 else 0) + 2 ^ 4 * s.regFld (portKey p R.hdlStatus) 4 28

/-- HI halves and words that a latch holds (R78, R335, R437, R481, R576, R591, R618, R619). -/
def viewLatch (s : State) (p : Port) (off : Nat) : Option Nat :=
  let words := (List.range 16).map R.scbTrcWord
  let blocks := (List.range 24).flatMap (fun b =>
    [R.pmuCycHi b, R.pmuCycTs b] ++ (List.range 8).map (R.pmuValHi b))
  if ([R.scbTsHi, R.crtSatTotalHi, R.umpServeNoHi, R.rdcGstepHi, R.clkThrHi, R.rstMgmtSeqHi, R.hdlAppliedTsHi] ++ words ++
      blocks).contains off then some (s.latch p off) else none

/-- Write-only registers that hold what was written, and read as zero (R13, R438, R593). -/
def writeOnly : List Nat := R.scbTrcMarkLo :: (List.range 8).map R.rdcDigKey

/-- Registers that tell of other state, by BAR0 offset, and the write-only ones. -/
def viewOf (s : State) (p : Port) (off : Nat) : Option Nat :=
  let trc := s.queue (s.regFld (portKey p R.scbTrcSel) 0 5)
  if writeOnly.contains off then some 0
  else if off = R.hubOwner then some (viewOwner s p)
  else if off = R.hdlStatus then some (viewHuddle s p)
  else if off = R.umpStatus then some (viewUmpStatus s p)
  else if off = R.umpKvFree then some s.kvFree
  else if off = R.umpKvClaims then some s.kvClaims
  else if off = R.umpKvBlocks then some s.kvM
  else if off = R.umpReqLive then some s.ump.requests.length
  else if off = R.wstEpoch then some s.wst.epoch
  else if off = R.wstBankState 0 then some (viewBank s.wst.bank0)
  else if off = R.wstBankState 1 then some (viewBank s.wst.bank1)
  else if off = R.wstBankIdLo 0 then some (viewBankId s.wst.bank0)
  else if off = R.wstBankIdHi 0 then some (viewBankId s.wst.bank0 / 2 ^ 32)
  else if off = R.wstBankIdLo 1 then some (viewBankId s.wst.bank1)
  else if off = R.wstBankIdHi 1 then some (viewBankId s.wst.bank1 / 2 ^ 32)
  else if off = R.wstBlkmapData then some (viewBlockMap s)
  else if off = R.wstDrainLeft then some (viewDrainLeft s)
  else if off = R.lkrDirUsed then some s.lkr.dir.length
  else if off = R.lkrPagesUsed then some s.bullpenHeld.length
  else if off = R.lkrRecUsed then some s.lkr.records.length
  else if off = R.memPktData then some (s.pageWord (s.regFld R.memPktSel 0 24)).toNat
  else if off = R.memSweepStatus then some (viewSweep s (s.regFld R.memSweepSel 0 16))
  else if off = R.mglPortStatus then some (viewPortStatus s)
  else if off = R.mglTsyncStatus then some (viewTsync s)
  else if off = R.rdcStatus then some (viewRdcStatus s)
  else if off = R.rdcDigData 0 then some (viewDigest s)
  else if off = R.rdcDigData 1 then some (viewDigest s / 2 ^ 32)
  else if off = R.rdcDigData 2 then some (viewDigest s / 2 ^ 64)
  else if off = R.rdcDigData 3 then some (viewDigest s / 2 ^ 96)
  else if off = R.rdcDigStepLo then some s.rdc.snapStep
  else if off = R.rdcDigStepHi then some (s.rdc.snapStep / 2 ^ 32)
  else if off = R.refStatus then some ((s.regAt R.refStatus).toNat % 32 + if s.ref.profiling then 32 else 0)
  else if off = R.refSlotInfo then some (viewSlotInfo s (s.regFld R.refSlotSel 0 16)).1
  else if off = R.refSlotTenant then some (viewSlotInfo s (s.regFld R.refSlotSel 0 16)).2
  else if off = R.refSessUsed then some (s.ref.sessions.filter (fun p => p.2.st != .closed)).length
  else if off = R.scbTrcStatus then some (viewQueue trc)
  else if off = R.scbTrcLost then some trc.lost
  else if off = R.scbErrState then some (errStateWord s)
  else if off = R.pwrStatus then some (pwrStatusWord s)
  else if off = R.bmcSensor then some (viewSensor s (s.regFld R.bmcSensorSel 0 7))
  else if off = R.bmcRail then some (viewRail s (s.regFld R.bmcRailSel 0 4))
  else none

/-- The offset of a register of a VF's BAR0 in the PF's map (R631); none where a VF sees no register. -/
def vfOffset (off : Nat) : Option Nat :=
  if vfRegister off then some off else if off = 0x80 then some R.pwrVfStatus else none

/-- A word of a VF's ownership flags at BAR0 + 0xC000 (R445, R446, R631). -/
def vfFlagWord (s : State) (p : Port) (func off : Nat) : Nat :=
  (slotSeen func ((off - 0xC000) / 8)).elim 0 (fun i =>
    if off % 8 = 0 then (if s.slotOwn p i then 1 else 0) else ((s.host.port p).flag i).gen)

/-- A 32-bit read of a register the PF sees, at its BAR0 offset. -/
def State.readPf (s : State) (p : Port) (off : Nat) : Word :=
  match viewLatch s p off with
  | some v => BitVec.ofNat 32 v
  | none =>
    match viewOf s p off with
    | some v => BitVec.ofNat 32 v
    | none => if off = R.pwrVfStatus then 0 else (regRow off).elim 0 (fun row => s.regAt (regKeyOf s p 0 off row))

/-- What a 32-bit read of BAR0 by a function returns (R11, R13, R625, R627): the PF reads its port's view, a VF the items of
R631, and every other offset reads as zero. Before BOOT_DONE only RST_, CLK_ and PWR_ respond (R602). The registers
that a read changes have commands of their own. -/
def State.readReg (s : State) (p : Port) (func off : Nat) : Word :=
  if func = 0 then
    if 0x400_0000 ≤ off ∨ !(s.booted || (s.powered && earlyBlock (off / 0x1_0000))) then 0 else s.readPf p off
  else if !s.booted || !funcExists s p func then 0
  else if 0xC000 ≤ off ∧ off < 0x1_0000 then BitVec.ofNat 32 (vfFlagWord s p func off)
  else match vfOffset off with
    | none => 0
    | some o =>
      if o = R.pwrVfStatus then s.regAt (vfStatusKey p func)
      else (regRow o).elim 0 (fun row => s.regAt (regKeyOf s p func o row))

/-- A dword of a function's configuration space, which answers once the port's link is up (R2, R441, R602): vendor and device,
then revision and class, at their places of the PCI header. The other offsets are those of the PCI specification, and read as
zero here (assumption 234). -/
def State.readConfig (s : State) (p : Port) (func off : Nat) : Option Word :=
  if !funcExists s p func || !(s.host.port p).linkUp then none
  else if off = 0 then some (BitVec.ofNat 32 (pciIdentity.vendor + 2 ^ 16 * pciIdentity.device))
  else if off = 8 then some (BitVec.ofNat 32 (pciIdentity.revision + 2 ^ 8 * pciIdentity.classCode))
  else some 0

/-- What a read of 4 to 64 bytes of BAR0, aligned to its size and inside one block, returns: its dwords in increasing offset
order; one that crosses a block boundary returns zero in every byte (R629). -/
def State.readBar (s : State) (p : Port) (func off dwords : Nat) : List Word :=
  if off / 0x1_0000 = (off + 4 * dwords - 1) / 0x1_0000 then (List.range dwords).map (fun i => s.readReg p func (off + 4 * i))
  else List.replicate dwords 0

end Sys2Proof.Machine
end

