-- ==== Sys2Proof/Safety.lean ====
section
/-! DEFINITION. What counts as a safe run: no step stops, and the invariant of every state a step keeps. The parts of the
state that a frame names. -/
namespace Sys2Proof.Machine
open Sys2Proof

/-- The register table in canonical form: keys strictly rising, and no value listed that a register has at reset. -/
def RegsWf (t : Tbl Word) : Prop := Tbl.wf t = true ∧ ∀ p ∈ t, p.2 ≠ regReset p.1

/-- The state's memory and register table are in their canonical forms. -/
def State.Inv (s : State) : Prop := s.mem.cells.wf = true ∧ RegsWf s.regs

/-- A state whose step answers a next state. -/
def State.runs (s : State) : Prop := ∃ t, step s = .next t

/-- A command answers a next state of which P holds. -/
def Completes (i : Instr) (s : State) (P : State → Prop) : Prop := ∃ t, exec i s = .next t ∧ P t

/-- The parts of the state that a frame speaks of. -/
inductive Part where
  | ts | free | regs | host | ump | lkr | mem | cells | ref | err | pwr | scb | mgl | rdc | wst | eng
  deriving DecidableEq, Repr

/-- One part of two states is the same. -/
def State.same (s t : State) : Part → Prop
  | .ts => t.ts = s.ts
  | .free => t.freeCtr = s.freeCtr
  | .regs => t.regs = s.regs
  | .host => t.host = s.host
  | .ump => t.ump = s.ump
  | .lkr => t.lkr = s.lkr
  | .mem => t.mem = s.mem
  | .cells => t.mem.cells = s.mem.cells
  | .ref => t.ref = s.ref
  | .err => t.err = s.err
  | .pwr => t.pwr = s.pwr
  | .scb => t.scb = s.scb
  | .mgl => t.mgl = s.mgl
  | .rdc => t.rdc = s.rdc
  | .wst => t.wst = s.wst
  | .eng => t.eng = s.eng

/-- Every part. -/
def Part.every : List Part :=
  [.ts, .free, .regs, .host, .ump, .lkr, .mem, .cells, .ref, .err, .pwr, .scb, .mgl, .rdc, .wst, .eng]

/-- The parts of the state that a command may change; every other part stays as it was. -/
def touched : Instr → List Part
  | .powerUp | .powerDown | .coldReset | .warmReset | .rstCtlWarm .. | .thermalTrip .. | .railFault ..
  | .inputUndervoltage .. | .umpireWatchdog | .refereeFault .. | .mgmtWarmReset | .mgmtHalfTime | .mgmtResume
  | .mgmtAtTsReached =>
    Part.every
  | .sysRstNRelease .. | .thermalTripEnd .. =>
    [.ts, .regs, .ref, .pwr]
  | .portReset .. | .functionLevelReset .. | .huddleCheckDone .. =>
    [.free, .regs, .host, .ump, .lkr, .mem, .ref, .scb, .mgl, .rdc, .wst, .eng, .cells]
  | .bootSequence .. =>
    [.free, .regs, .host, .ump, .lkr, .mem, .ref, .err, .pwr, .scb, .mgl, .rdc, .wst, .eng, .cells]
  | .bootGo .. | .flashSelChange .. | .flashRead .. | .flashProgram .. | .flashErase .. =>
    [.regs, .pwr]
  | .bootHostTimeout =>
    [.ts, .regs, .pwr]
  | .bootChunkReceive =>
    [.pwr, .mgl]
  | .bootLoadGone =>
    [.regs, .pwr, .mgl]
  | .bootLoadResend | .portUp .. | .lmcCreditReturn .. =>
    [.mgl]
  | .pwrReqActive .. | .pwrReqIdle .. | .pwrReqStandby .. | .doorbellWrite .. =>
    [.free, .regs, .host, .ump, .lkr, .mem, .pwr, .scb, .mgl, .rdc, .wst, .eng, .cells]
  | .powerControlTick .. =>
    [.free, .regs, .err, .pwr, .scb]
  | .smbV48 | .smbInputCurrent | .smbPower | .smbJunction | .smbInlet | .smbBootStatus | .smbRstCause | .smbState
  | .smbAlert | .mailboxRequestCopy .. | .hubHeartbeat .. | .scbTsLoRead .. | .crtSatTotalLoRead ..
  | .umpServeNoLoRead .. | .rdcGstepLoRead .. | .clkThrNsLoRead .. | .rstMgmtSeqLoRead .. | .hdlAppliedTsLoRead ..
  | .getDigests .. | .getCertificate .. | .pmuValLoRead .. | .pmuCycLoRead .. | .perstDeassertion .. =>
    [.host]
  | .flashOpDone .. =>
    [.free, .regs, .pwr]
  | .fabricFlitReceive .. | .memReread .. | .patrolRead .. | .sweepLine .. | .unitFaultReport ..
  | .progressTimeout .. | .storm .. | .fenceComplete =>
    [.free, .regs, .host, .ump, .lkr, .mem, .err, .scb, .mgl, .rdc, .wst, .eng, .cells]
  | .descriptorAccept .. | .practiceStep .. | .kvWriteback .. =>
    [.free, .regs, .host, .ump, .mem, .scb, .cells]
  | .flagHandover .. | .flagReclaim .. | .mailboxReplyCopy .. | .hubMbxCfg4Write .. | .stagedWrite ..
  | .huddleCheck .. | .huddleApplyRequest .. | .huddleDiscard .. | .registerWrite .. =>
    [.regs, .host]
  | .windowHostAccess .. =>
    [.free, .regs, .host, .ump, .mem, .pwr, .scb, .cells]
  | .serve .. | .schedUnload .. =>
    [.free, .regs, .host, .ump, .scb]
  | .adapterLoad .. | .adapterUnload .. =>
    [.free, .regs, .host, .lkr, .mem, .scb]
  | .adapterLoadComplete .. | .adapterRevoke .. | .practiceOpen .. | .practiceCloseDone .. =>
    [.free, .regs, .host, .lkr, .mem, .scb, .cells]
  | .practiceExport .. | .practiceExportDone .. | .practiceClose .. =>
    [.free, .regs, .host, .lkr, .scb]
  | .wsLoad .. =>
    [.free, .regs, .host, .ump, .mem, .scb, .mgl, .wst, .cells]
  | .schedLoad .. =>
    [.free, .regs, .host, .ump, .ref, .scb]
  | .schedUnloadDone .. =>
    [.free, .regs, .host, .ump, .ref, .err, .scb, .wst]
  | .peerLost .. =>
    [.ts, .host]
  | .slotEnd =>
    [.ts, .free, .regs, .host, .ump, .lkr, .mem, .pwr, .scb, .mgl, .rdc, .wst, .eng, .cells]
  | .serveBoundary =>
    [.ts, .free, .regs, .host, .ump, .lkr, .mem, .ref, .scb, .mgl, .rdc, .wst, .eng, .cells]
  | .groupSlotStart .. =>
    [.ts, .ump, .rdc]
  | .rsvWindowEnd .. =>
    [.ts, .regs, .host, .ump]
  | .overrunLimit | .dueNsDeadline .. | .voteSend | .voteForwardBound | .verdictTimeout | .mirrorFetchTimeout .. =>
    [.ts, .free, .regs, .host, .ump, .lkr, .mem, .scb, .mgl, .rdc, .wst, .eng, .cells]
  | .urgentSubstitution .. | .layerStreamStart | .allreduce .. | .reduce .. | .rdcDataReceive | .wsLineReread ..
  | .vfEnable .. =>
    [.free, .regs, .host, .ump, .lkr, .mem, .scb, .mgl, .rdc, .wst, .eng, .cells]
  | .segmentStart =>
    [.free, .regs, .host, .ump, .lkr, .scb, .mgl, .rdc, .wst, .eng]
  | .segmentEnd =>
    [.free, .host, .ump, .lkr, .scb, .mgl, .rdc, .wst, .eng]
  | .serveEnd =>
    [.free, .ump, .lkr, .scb, .mgl, .rdc, .wst, .eng]
  | .streamEntryComplete =>
    [.free, .regs, .host, .ump, .mem, .scb, .wst, .cells]
  | .layerComputeStart | .loadAbort .. =>
    [.regs, .host, .wst]
  | .prefixGatherStart .. =>
    [.lkr]
  | .prefixGatherComplete .. =>
    [.free, .regs, .ump, .lkr, .mem, .scb, .cells]
  | .kvWritebackDone .. =>
    [.ump]
  | .mma .. =>
    [.free, .regs, .ump, .scb, .eng]
  | .mmaPair .. | .tileWait .. | .tileEnd .. | .semaphoreReached .. | .vecWait .. | .vecEnd .. | .gatherWait ..
  | .gatherEnd .. | .channelWait .. | .channelEnd .. =>
    [.eng]
  | .tileDrain .. =>
    [.free, .regs, .ump, .mem, .scb, .eng, .cells]
  | .tileSignal .. | .vecSignal .. | .gatherSignal .. | .channelSignal .. =>
    [.ump, .eng]
  | .ew .. | .red .. | .softmax .. | .lnorm .. | .rmsnorm .. | .route .. | .loss .. | .combine .. | .opt ..
  | .scan .. | .softmaxBwd .. | .normBwd .. | .copy .. | .listCopy .. | .embag .. | .embagBwd .. =>
    [.free, .regs, .host, .ump, .mem, .scb, .eng, .cells]
  | .bcast .. | .allgather .. | .dispatch .. | .channelCombine .. =>
    [.free, .regs, .ump, .mem, .scb, .mgl, .rdc, .eng, .cells]
  | .fbCountsReceive | .fbRowReceive | .fbReturnReceive =>
    [.free, .regs, .ump, .mem, .scb, .mgl, .rdc, .cells]
  | .voteReceive | .verdictReceive =>
    [.regs, .ump, .scb, .mgl, .rdc]
  | .portRetry .. =>
    [.ts, .free, .regs, .host, .err, .scb, .mgl]
  | .frameReceive .. | .lmcReplayRequest .. =>
    [.free, .regs, .host, .err, .scb, .mgl]
  | .packetRoute .. =>
    [.free, .regs, .host, .scb, .mgl]
  | .outputArbitration .. =>
    [.regs, .host, .ump, .scb, .mgl]
  | .tsyncExchange | .sessionHandshake .. | .rekey .. =>
    [.free, .host, .mgl]
  | .syncReq .. | .challenge .. | .getMeasurements .. | .spdmHeartbeat .. | .report .. =>
    [.free, .host]
  | .syncReply .. =>
    [.ts, .free, .regs, .host, .scb, .mgl]
  | .tsyncTimeout =>
    [.host, .mgl]
  | .rekeyLimit .. | .peerTakesLinkDown .. =>
    [.regs, .host, .mgl]
  | .loadStart .. =>
    [.regs, .wst]
  | .preambleVerify | .loadData | .spiNorShardRead =>
    [.regs, .host, .mem, .scb, .mgl, .wst, .cells]
  | .shardWriteDone .. =>
    [.regs, .host, .mem, .ref, .wst, .cells]
  | .loadResend | .readReq =>
    [.regs, .scb, .mgl]
  | .loadGone =>
    [.host, .mgl, .wst]
  | .loadSourceTimeout =>
    [.ts, .regs, .host, .wst]
  | .readRsp =>
    [.free, .regs, .ump, .mem, .scb, .mgl, .wst, .cells]
  | .drainLimitExpiry =>
    [.ts]
  | .lkrQuery .. =>
    [.regs, .lkr]
  | .lkrQueryDone =>
    [.regs, .lkr, .scb]
  | .commitCopyDone .. =>
    [.free, .regs, .lkr, .mem, .scb, .cells]
  | .scrubPageDone =>
    [.regs, .host, .mem, .scb, .cells]
  | .keyLoadReceive .. =>
    [.free, .mem, .scb]
  | .refRotateGo .. =>
    [.regs, .mem]
  | .purgeGo .. | .skeyRevoke .. | .purge .. =>
    [.free, .regs, .host, .lkr, .mem, .ref, .scb, .cells]
  | .slotPurgeDone .. | .skeyInstall .. =>
    [.host, .mem, .ref]
  | .refDbgCtlLock .. | .refProfCtlReq .. =>
    [.regs, .host, .ref]
  | .dbgChallenge .. | .getVersion .. | .getCapabilities .. | .negotiateAlgorithms .. | .keyExchange ..
  | .finish .. | .keyUpdate .. | .endSession .. | .ideKm .. | .tntKem .. =>
    [.free, .host, .ref]
  | .dbgResponse .. =>
    [.regs, .host, .mem, .ref]
  | .tntBind .. | .resume .. =>
    [.free, .regs, .host, .ref]
  | .pkeyRotate .. =>
    [.host, .mem]
  | .grant .. | .allow .. | .consent .. | .close .. =>
    [.host, .ref]
  | .thermalHoldEntry .. =>
    [.free, .regs, .host, .ump, .lkr, .mem, .err, .pwr, .scb, .mgl, .rdc, .wst, .eng, .cells]
  | .thermalHoldExit =>
    [.ts, .free, .regs, .ump, .err, .pwr, .scb]
  | .tracePop .. =>
    [.host, .scb]
  | .swMark .. =>
    [.free, .scb]
  | .traceWordTimeout .. =>
    [.ts, .scb]
  | .pmuClr .. =>
    [.scb]

/-! Shapes that several claims share. -/

/-- The state that a warm reset with a cause leaves: COUNT raised, the timestamp kept (R605, R608, R618). -/
def warmLeft (s : State) (cause : Nat) (t : State) : Prop :=
  t.pwr.phase = .booting ∧ t.pwr.warmBoot = true ∧ t.ts = s.ts ∧ t.ref.mrs = [] ∧ t.host.contexts = [] ∧
  t.regFld R.rstCause 0 8 = cause ∧ t.regFld R.rstCause 8 8 = min 255 (s.regFld R.rstCause 8 8 + 1)

/-- May a warm reset take effect: the device runs or has failed its boot, or a warm boot is under way (R607)? -/
def warmMay (s : State) : Prop :=
  s.pwr.phase = .running ∨ s.pwr.phase = .failed ∨ (s.pwr.phase = .booting ∧ s.pwr.warmBoot = true)

/-- The device answers SPDM requests: boot is complete and debug level 2 is not in force (R521, R537). -/
def spdmOpen (s : State) : Prop := s.pwr.phase = .running ∧ s.ref.debugLevel ≠ 2

/-- A port sends one more SPDM answer of a code, without an error. -/
def spdmAnswers (s : State) (p : Port) (code : Nat) (t : State) : Prop :=
  ∃ b, t.host.out = s.host.out ++ [.spdm p code 0 b]

/-- An established SPDM session carries a tenant session of a slot that is not FREE (R529). -/
def tenantHere (s : State) (i : Nat) (k : SpdmSession) (n : Nat) (q : Session) (r : RefSlot) : Prop :=
  spdmOpen s ∧ Tbl.get? s.ref.spdm i = some k ∧ k.established = true ∧ k.tenantSession = n ∧ n ≠ 0 ∧
  Tbl.get? s.ref.sessions n = some q ∧ q.st ≠ .closed ∧ s.slot? q.slot = some r

/-- A tenant message is answered with a status. -/
def tenantAnswers (port : Port) (code st : Nat) (t : State) : Prop := ∃ b, t.host.out.getLast? = some (.spdm port code st b)

end Sys2Proof.Machine
end

