-- ==== Sys2Proof/Certificates/Slice0/Obligations.lean ====
section
/-! DEFINITION. What the model claims of the device, for the provers: the step and the canonical forms, the frame of every
command, and for every command where it completes and with what effect. -/
open Sys2Proof Sys2Proof.Machine

/-! The step, the invariants and the frames. -/

/-- One step is the command at the front of the queue, run on the state with the queue's rest. -/
def Obligations.StepRunsFrontCommand : Prop :=
  ∀ (c : Instr) (rest : List Instr) (s : State), step { s with pending := c :: rest } = exec c { s with pending := rest }

/-- The state after reset has canonical memory and a canonical register table. -/
def Obligations.ResetMeetsInv : Prop := State.reset.Inv

/-- Every step keeps the canonical memory and the canonical register table. -/
def Obligations.StepKeepsInv : Prop := ∀ s t : State, s.Inv → step s = .next t → t.Inv

/-- The image epoch (R199) and the fused minimum SVN (R524) never fall. -/
def Obligations.EpochAndSvnNeverFall : Prop :=
  ∀ s t : State, step s = .next t → s.wst.epoch ≤ t.wst.epoch ∧ s.pwr.fusedSvn ≤ t.pwr.fusedSvn

/-- A command leaves the queue's rest alone and takes nothing back that has left the device. -/
def Obligations.CommandsLeaveQueueAndOutput : Prop :=
  ∀ (c : Instr) (s t : State), exec c s = .next t → t.pending = s.pending ∧ s.host.out <+: t.host.out

/-- The frame of every command: each part of the state that `touched` does not name is the same after it, and after a
command that stores nothing every byte of device memory reads as before. -/
def Obligations.FrameOfEveryCommand : Prop :=
  ∀ (c : Instr) (s t : State), exec c s = .next t →
    (∀ p : Part, p ∉ touched c → s.same t p) ∧
    (Part.cells ∉ touched c → ∀ a : Nat, t.mem.cells.read a = s.mem.cells.read a)

/-! Power and resets (R597, R604 to R608, R637 to R641). -/

/-- Power comes and goes: PWR_EN, SYS_RST_N and PERST (R597, R602, R639, R640). -/
def Obligations.PowerComesAndGoes : Prop :=
  (∀ s : State, s.pwr.phase = .off → s.pwr.v48 = true → Completes .powerUp s (fun t =>
    t.pwr.phase = .coldReset ∧ t.pwr.powerGood = true ∧ t.pwr.railsUp = List.range 9 ∧ t.pwr.sysRstN = false ∧
    t.host.contexts = [] ∧ t.ump = .reset ∧ t.ts = 0)) ∧
  (∀ s : State, Completes .powerDown s (fun t =>
    t.pwr.phase = .off ∧ t.pwr.powerGood = false ∧ t.pwr.railsUp = [] ∧ t.host.contexts = [] ∧ t.ump = .reset)) ∧
  (∀ s : State, s.pwr.phase ≠ .off → Completes .coldReset s (fun t =>
    t.pwr.phase = .coldReset ∧ t.pwr.sysRstN = false ∧ t.regFld R.rstCause 0 8 = 1 ∧ t.regFld R.rstCause 8 8 = 0)) ∧
  (∀ (s : State) (straps : Nat), s.Inv → s.pwr.powerGood = true → s.pwr.phase = .coldReset → s.pwr.sysRstN = false →
    s.pwr.trip = false → s.pwr.warmBoot = false → straps < 16 → Completes (.sysRstNRelease straps) s (fun t =>
      t.pwr.phase = .booting ∧ t.pwr.sysRstN = true ∧ t.ts = 0 ∧ t.ref.mrs = [] ∧ t.regAt R.rstStraps = BitVec.ofNat 32 straps)) ∧
  (∀ (s : State) (p : Port), s.pwr.sysRstN = true → Completes (.perstDeassertion p) s (fun t =>
    (t.host.port p).perst = false ∧ (t.host.port p).linkUp = true ∧ t.host.port p.other = s.host.port p.other))

/-- The resets: the pin and the register of the control owner, the resets that the device causes itself (thermal trip, rails,
watchdog, Referee), and those of a port and of a function (R517, R604 to R607, R637, R641). -/
def Obligations.ResetsComplete : Prop :=
  (∀ s : State, s.Inv → warmMay s → Completes .warmReset s (warmLeft s 5)) ∧
  (∀ (s : State) (v : Word), s.Inv → warmMay s → v.getLsbD 0 = true → Completes (.rstCtlWarm s.host.owner v) s (warmLeft s 6)) ∧
  (∀ (s : State) (n : Nat) (e : Int), s.pwr.phase ≠ .off → n < 64 → 896 ≤ e → s.pwr.trip = false →
    Completes (.thermalTrip n e) s (fun t => t.pwr.trip = true ∧ t.pwr.phase = .coldReset ∧ t.regFld R.rstCause 0 8 = 2)) ∧
  (∀ (s : State) (xs : List Int), s.pwr.trip = true → s.pwr.sysRstN = true → s.pwr.phase = .coldReset →
    (∀ x ∈ readAll s.pwr.sensors xs, x.1 < 64 → x.2 ≤ 720) →
    Completes (.thermalTripEnd xs) s (fun t => t.pwr.trip = false ∧ t.pwr.phase = .booting)) ∧
  (∀ (s : State) (r : Nat), s.pwr.phase ≠ .off → r < 9 → Completes (.railFault r) s (fun t =>
    t.pwr.phase = .off ∧ t.pwr.powerGood = false ∧ t.pwr.railsUp = [] ∧ (t.regAt R.bmcRailFault).getLsbD r = true ∧
    t.regFld R.bmcAlert 2 1 = 1 ∧ t.regFld R.rstCause 0 8 = 3)) ∧
  (∀ (s : State) (mv : Nat), s.pwr.phase ≠ .off → mv < 38000 → Completes (.inputUndervoltage mv) s (fun t =>
    t.pwr.phase = .off ∧ t.pwr.powerGood = false ∧ t.pwr.railsUp = [] ∧ t.regFld R.rstCause 0 8 = 3)) ∧
  (∀ s : State, s.Inv → s.pwr.phase = .running → Completes .umpireWatchdog s (fun t =>
    t.pwr.phase = .booting ∧ t.pwr.warmBoot = true ∧ t.regFld R.rstCause 0 8 = 8 ∧ t.ts = s.ts)) ∧
  (∀ (s : State) (cause : Nat), s.pwr.phase = .running → s.pwr.sysRstN = true → s.pwr.trip = false →
    s.pwr.powerGood = true → Completes (.refereeFault cause) s (fun t =>
      t.pwr.phase = .booting ∧ t.pwr.warmBoot = false ∧ t.regFld R.rstCause 0 8 = 4 ∧ t.ts = 0)) ∧
  (∀ (s : State) (p : Port), s.pwr.phase = .running → Completes (.portReset p) s (fun t =>
    (t.host.port p).vfs = 0 ∧ (t.host.port p).bank = .reset ∧ (t.host.port p).latches = [])) ∧
  (∀ (s : State) (p : Port), s.pwr.phase = .running → Completes (.functionLevelReset p 0) s (fun t =>
    (t.host.port p).vfs = 0 ∧ (t.host.port p).bank = .reset ∧ (t.host.port p).latches = [])) ∧
  (∀ (s : State) (p : Port) (f : Nat), s.Inv → s.pwr.phase = .running → 0 < f → f ≤ (s.host.port p).vfs →
    Completes (.functionLevelReset p f) s (fun t => t.regAt (portKey p (keyOf R.hubMbxSel f)) = 0 ∧
      t.regAt (portKey p (keyOf (R.hubMbxCfg 4) (2 * f))) = 0))

/-- What a warm reset leaves of the registers (R15, R608): a bit marked (C) keeps its value, every other bit is at its reset
value; only RST_CAUSE, WST_CTL's ACTIVE_BANK and CLK_STATUS tell of the reset itself. -/
def Obligations.WarmResetRestoresRegisters : Prop :=
  ∀ (s : State) (key : Nat), s.Inv → warmMay s → key ≠ R.rstCause → key ≠ R.wstCtl → key ≠ R.clkStatus →
    Completes .warmReset s (fun t => ∀ i < 32, (t.regAt key).getLsbD i =
      if ((regRow key).elim 0 RegRow.cold).testBit i then (s.regAt key).getLsbD i else (regReset key).getLsbD i)

/-- Reset values that the reset columns give where they are not 0, and that a device just out of its reset holds no request
and no slot, has numbered no serve, and counts its timestamp from 0 (R331, R573, R608). The statement says only values that
the spec gives. -/
def Obligations.ResetValuesHold : Prop :=
  let r := State.reset.regAt
  r R.pwrLimit = 2400 ∧ r R.umpCtl = 100 ∧ r R.umpDrrQuantum = 1000 ∧ r (keyOf R.umpCtxShare 7) = 1 ∧ r R.wstCtl = 0xF ∧
  r R.wstDrainLimit = 60000 ∧ r R.lkrCtl = 1 ∧ r R.lkrOnline = 0xFFFF ∧ r R.memCtl = 0x180028 ∧ r R.memStatus = 0x80 ∧
  r R.rdcGrpA = 0x10001 ∧ r R.rdcGrpB = 0x10001 ∧ r R.rdcGrpC = 1 ∧ r (keyOf R.mglRtData 5) = 31 ∧ r R.crtCap = 0x02008000 ∧
  r (R.crtCourtOnline 0) = 0xFFFFFFFF ∧ r (R.crtCourtOnline 3) = 0xFFFFFFFF ∧ r R.crtCvtCtl = 3 ∧ r R.scbErrCtl = 1024 ∧
  r (portKey .a R.hubOwner) = 1000 ∧ r (portKey .a R.hubWinBaseHi) = 0xE0 ∧ r (portKey .b R.hubWinBaseHi) = 0xE4 ∧
  r R.bmcAlertEn = 0xE ∧ r (R.pmuCfg 3 2) = 0x03F00000 ∧
  State.reset.ump.requests = [] ∧ State.reset.ump.slot = none ∧ State.reset.ump.serveNo = 0 ∧ State.reset.ts = 0

/-! Bring-up (R521, R597 to R603, R645). -/

/-- BOOT_SEQUENCE runs on from the last step completed (R521, R599): step 1 shows the fused SVN, and the boot from a host
waits for its GO there; step 8 ends it, and the slot loop begins at the next multiple of 10 µs. The commands a boot waits for,
and the ones that stop it: GO, the host's limit, FLASH_SEL (R599, R601, R645). -/
def Obligations.BootCompletes : Prop :=
  (∀ (s : State) (b : BootTests), s.Inv → s.pwr.phase = .booting → s.regFld R.rstBootStatus 0 4 = 0 →
    s.regFld R.rstStraps 2 2 ≠ 3 → s.regFld R.rstStraps 0 2 = 1 → s.pwr.goReceived = false → b.selfTest = true →
    Completes (.bootSequence b) s (fun t => t.pwr.phase = .booting ∧ t.regFld R.rstBootStatus 0 4 = 1 ∧
      t.regFld R.refSvn 16 7 = s.pwr.fusedSvn % 128 ∧ t.pwr.bootStart = s.ts)) ∧
  (∀ (s : State) (b : BootTests), s.Inv → s.pwr.phase = .booting → s.regFld R.rstBootStatus 0 4 = 7 →
    (∀ d < 16, s.courtCount d ≠ 0) → s.regAt R.lkrOnline ≠ 0 → Completes (.bootSequence b) s (fun t =>
      t.pwr.phase = .running ∧ t.regFld R.rstBootStatus 0 4 = 8 ∧
      t.ump.slot = some ⟨toQuantum s.ts, 0, toQuantum s.ts, .idle, none, true⟩)) ∧
  (∀ (s : State) (p : Port) (v : Word), waitsForHost s = true → v.getLsbD 0 = true → s.regFld R.rstBootLen 0 27 ≠ 0 →
    Completes (.bootGo p v) s (fun t => t = { s with pwr := { s.pwr with goReceived := true } })) ∧
  (∀ s : State, s.Inv → waitsForHost s = true → Completes .bootHostTimeout s (fun t =>
    t.pwr.phase = .failed ∧ t.regFld R.rstBootStatus 4 4 = 5 ∧ t.ts = max s.ts (s.pwr.bootStart + 60000000000))) ∧
  (∀ (s : State) (level : Bool), s.pwr.phase ≠ .booting → Completes (.flashSelChange level) s (fun t =>
    t = { s with pwr := { s.pwr with flashSel := level } })) ∧
  (∀ s : State, s.Inv → s.pwr.phase = .booting → s.regFld R.rstStraps 0 2 = 0 → s.pwr.flashSel = false →
    Completes (.flashSelChange true) s (fun t =>
      t.pwr.flashSel = true ∧ t.pwr.phase = .failed ∧ t.regFld R.rstBootStatus 4 4 = 6))

/-- The pass chain: a chunk lands in the boot buffer, a refusal stops the boot; a request is answered from the flash, relayed
to the device's own port 0, or refused; a device that relays hands an answer on (R394, R599). How a port of the boot service
is told apart is the model's reading (assumption 36). -/
def Obligations.PassChainCompletes : Prop :=
  (∀ (s : State) (k : InboxPacket) (rest : List InboxPacket), s.mgl.inbox = k :: rest → isBootAnswer 0x20 k = true →
    chainBooting s = true → k.packet.seq * 4096 = s.pwr.bundleLen → k.packet.len = 4096 →
    Completes .bootChunkReceive s (fun t => t.pwr.bundleLen = s.pwr.bundleLen + 4096 ∧
      t.pwr.bundle = s.pwr.bundle.writeBytes s.pwr.bundleLen k.packet.data ∧ t.mgl.inbox = rest)) ∧
  (∀ (s : State) (k : InboxPacket) (rest : List InboxPacket), s.Inv → s.mgl.inbox = k :: rest → isBootAnswer 0x22 k = true →
    chainBooting s = true → Completes .bootLoadGone s (fun t =>
      t.pwr.phase = .failed ∧ t.regFld R.rstBootStatus 4 4 = 6 ∧ t.mgl.inbox = rest)) ∧
  (∀ (s : State) (k : InboxPacket) (rest : List InboxPacket), s.pwr.phase = .running → s.mgl.inbox = k :: rest →
    isBootRequest s k = true → s.regFld R.rstStraps 0 2 = 0 → s.pwr.flashSel = false → k.packet.seq < 16384 →
    Completes .bootLoadResend s (fun t => t =
      { s with mgl := { s.mgl with inbox := rest } }.sendBoot k.port 0x20 k.packet.seq
        (s.pwr.flash.readBytes (4096 * k.packet.seq) 4096))) ∧
  (∀ (s : State) (k : InboxPacket) (rest : List InboxPacket), s.pwr.phase = .running → s.mgl.inbox = k :: rest →
    isBootRequest s k = true →
    let x : State := { s with mgl := { s.mgl with inbox := rest } }
    (s.regFld R.rstStraps 0 2 = 3 → Completes .bootLoadResend s (fun t => t =
      { x with mgl := { x.mgl with bootRelay := s.mgl.bootRelay ++ [(k.port, k.packet.seq)] } }.sendBoot 0 0x21 k.packet.seq [])) ∧
    (s.regFld R.rstStraps 0 2 = 1 ∨ s.regFld R.rstStraps 0 2 = 2 ∨
        s.regFld R.rstStraps 0 2 = 0 ∧ (s.pwr.flashSel = true ∨ 16384 ≤ k.packet.seq) →
      Completes .bootLoadResend s (fun t => t = x.sendBoot k.port 0x22 k.packet.seq []))) ∧
  (∀ (s : State) (k : InboxPacket) (rest : List InboxPacket), s.pwr.phase = .running → s.mgl.inbox = k :: rest →
    relays s k = true →
    let x : State := { s with mgl := { s.mgl with inbox := rest } }
    (isBootAnswer 0x20 k = true → Completes .bootChunkReceive s (fun t =>
      t = relayAnswer x 0x20 k.packet.seq k.packet.data)) ∧
    (isBootAnswer 0x22 k = true → Completes .bootLoadGone s (fun t => t = relayAnswer x 0x22 k.packet.seq [])))

/-! Power states and the clock (R609 to R614, R617). -/

/-- A write of PWR_CTL.REQ (R612, R613): half-time begins at once between slots and is asked for within one, bench begins at
once, and ACTIVE starts the slot loop at a multiple of 10 µs no later than 20 µs on, or 40 ms on after bench, which brings the
rails up and leaves the time UNLOCKED; a state already reached is kept, and a write during a transition waits for its end. A
tick of the power controller takes the readings of the powered dies in and shows them (R644, R646), and steps the core clock
by at most one sixteenth, within 12/16 to 16/16: one down, 1 ms after the last step or later, while the power or the junction
is over its limit, and up only when it is not (R617). That the first slot stands at a multiple of 10 µs within the bound is
the model's reading (assumption 31). -/
def Obligations.PowerStatesComplete : Prop :=
  (∀ (s : State) (p : Port), s.Inv → s.pwr.phase = .running →
    (s.pwr.request = none → s.pwr.state = .active → s.ump.slot = none → Completes (.pwrReqIdle p) s (fun t =>
      t.pwr.state = .idle ∧ t.pwr.request = none ∧ t.regFld R.pwrCtl 0 2 = 1)) ∧
    (s.pwr.request = none → s.pwr.state = .active → s.ump.slot ≠ none → Completes (.pwrReqIdle p) s (fun t =>
      t.pwr.state = .active ∧ t.pwr.request = some .idle ∧ t.regFld R.pwrCtl 0 2 = 1)) ∧
    (s.pwr.request = none → s.pwr.state ≠ .active → Completes (.pwrReqIdle p) s (fun t =>
      t.pwr = s.pwr ∧ t.regFld R.pwrCtl 0 2 = 1)) ∧
    (s.pwr.request = none → s.pwr.state ≠ .standby → Completes (.pwrReqStandby p) s (fun t =>
      t.pwr.state = .standby ∧ t.pwr.request = none ∧ t.ump.slot = none ∧
      ∀ q ∈ t.scb.queues, q.2.openRecords = [] ∧ q.2.words = [])) ∧
    (s.pwr.request = none → s.pwr.state = .standby → Completes (.pwrReqStandby p) s (fun t =>
      t.pwr = s.pwr ∧ t.regFld R.pwrCtl 0 2 = 2)) ∧
    (s.pwr.request = none → s.pwr.state = .idle → Completes (.pwrReqActive p) s (fun t =>
      t.pwr.request = some .active ∧ t.regFld R.pwrCtl 0 2 = 0 ∧ ∃ start, s.ts ≤ start ∧ start ≤ s.ts + 20000 ∧
      start % 10000 = 0 ∧ t.ump.slot = some ⟨start, 0, start, .idle, none, true⟩)) ∧
    (s.pwr.request = none → s.pwr.state = .standby → Completes (.pwrReqActive p) s (fun t =>
      t.pwr.request = some .active ∧ t.pwr.railsUp = List.range 9 ∧ t.mgl.tsync.st = 0 ∧ ∃ start, s.ts ≤ start ∧
      start ≤ s.ts + 40000000 ∧ start % 10000 = 0 ∧ t.ump.slot = some ⟨start, 0, start, .idle, none, true⟩)) ∧
    (s.pwr.request = none → s.pwr.state = .active → Completes (.pwrReqActive p) s (fun t =>
      t.pwr = s.pwr ∧ t.regFld R.pwrCtl 0 2 = 0)) ∧
    (s.pwr.request ≠ none →
      let waits (i : Instr) (x : PowerState) : Prop :=
        Completes i s (fun t => t.pwr = { s.pwr with queued := some x } ∧ t.regFld R.pwrCtl 0 2 = x.code)
      waits (.pwrReqActive p) .active ∧ waits (.pwrReqIdle p) .idle ∧ waits (.pwrReqStandby p) .standby)) ∧
  (∀ (s : State) (r : PowerReading), s.Inv → s.pwr.phase ≠ .off → Completes (.powerControlTick r) s (fun t =>
    t.pwr.mv48 = r.mv48 ∧ t.pwr.amps = r.milliamps ∧ t.pwr.rails = readAll s.pwr.rails r.rails ∧
    t.pwr.sensors = (readAll s.pwr.sensors r.sensors).filter (fun x => sensorPowered s x.1) ∧
    t.regAt R.pwrMeas = BitVec.ofNat 32 (min 65535 r.watts) ∧
    t.regFld R.pwrTemp 0 8 = wholeDegrees ((hottest t.pwr.sensors).getD 0))) ∧
  (∀ (s : State) (r : PowerReading), s.Inv → s.pwr.phase = .running → s.pwr.state = .active → 12 ≤ s.clock16 →
    s.clock16 ≤ 16 → Completes (.powerControlTick r) s (fun t =>
      let beyond : Prop := s.regFld R.pwrLimit 0 12 < r.watts ∨ 800 ≤ (hottest t.pwr.sensors).getD 0
      12 ≤ t.clock16 ∧ t.clock16 ≤ 16 ∧ t.clock16 ≤ s.clock16 + 1 ∧ s.clock16 ≤ t.clock16 + 1 ∧
      (beyond → t.clock16 = if 12 < s.clock16 ∧ s.pwr.lastStep + 1000000 ≤ s.ts then s.clock16 - 1 else s.clock16) ∧
      (¬ beyond → t.clock16 = s.clock16 ∨
        (t.clock16 = s.clock16 + 1 ∧ s.pwr.lastStep + 10000000 ≤ s.ts)))) ∧
  (∀ (s : State) (watts : Nat) (j : Int), 12 ≤ s.clock16 → s.clock16 ≤ 16 →
    12 ≤ clockChoice s watts j ∧ clockChoice s watts j ≤ 16 ∧ clockChoice s watts j ≤ s.clock16 + 1 ∧
    s.clock16 ≤ clockChoice s watts j + 1)

/-- A management packet that R610 accepts acts at once when its AT_TS is 0, as a warm reset or as a write of PWR_CTL.REQ, and
waits otherwise, in place of one that still waits; one that R610 does not accept is discarded. A command that waits acts at
the first slot end at or after its AT_TS, or at AT_TS while no slot runs (R609). -/
def Obligations.ManagementCommandsComplete : Prop :=
  (∀ (s : State) (k : InboxPacket), s.Inv →
    let now : Prop := mgmtAccepted s k = true ∧ ofBytes ((k.packet.data.drop 16).take 8) = 0
    let seq := ofBytes ((k.packet.data.drop 8).take 8)
    (s.inbox? (isMgmt 1) = some k → now → warmMay s → Completes .mgmtWarmReset s (fun t =>
      t.pwr.phase = .booting ∧ t.regFld R.rstCause 0 8 = 7 ∧ t.ts = s.ts ∧ t.pwr.mgmtSeq = seq)) ∧
    (s.inbox? (isMgmt 2) = some k → now → s.pwr.phase = .running → s.pwr.request = none → s.pwr.state = .active →
      Completes .mgmtHalfTime s (fun t => t.pwr.mgmtSeq = seq ∧ t.regFld R.pwrCtl 0 2 = 1 ∧
        if s.ump.slot = none then t.pwr.state = .idle ∧ t.pwr.request = none
        else t.pwr.state = .active ∧ t.pwr.request = some .idle)) ∧
    (s.inbox? (isMgmt 3) = some k → now → s.pwr.phase = .running → s.pwr.request = none → s.pwr.state ≠ .active →
      Completes .mgmtResume s (fun t => t.pwr.request = some .active ∧ t.pwr.mgmtSeq = seq ∧ ∃ u, t.ump.slot = some u ∧
        s.ts ≤ u.start ∧ u.start ≤ s.ts + (if s.pwr.state = .standby then 40000000 else 20000) ∧ u.start % 10000 = 0)) ∧
    (s.inbox? (isMgmt 2) = some k → now → s.pwr.phase = .running → s.pwr.request ≠ none →
      Completes .mgmtHalfTime s (fun t => t.pwr.queued = some .idle ∧ t.pwr.mgmtSeq = seq)) ∧
    (s.inbox? (isMgmt 3) = some k → now → s.pwr.phase = .running → s.pwr.request ≠ none →
      Completes .mgmtResume s (fun t => t.pwr.queued = some .active ∧ t.pwr.mgmtSeq = seq))) ∧
  (∀ (s : State) (k : InboxPacket),
    let waits (n : Nat) (a : MgmtAction) (t : State) : Prop := t = { s with
      mgl := { s.mgl with inbox := s.mgl.inbox.eraseP (isMgmt n) }
      pwr := { s.pwr with
        mgmtSeq := ofBytes ((k.packet.data.drop 8).take 8)
        mgmt := some (a, ofBytes ((k.packet.data.drop 16).take 8)) } }
    let later : Prop := mgmtAccepted s k = true ∧ ofBytes ((k.packet.data.drop 16).take 8) ≠ 0
    let gone (n : Nat) (t : State) : Prop := t = { s with mgl := { s.mgl with inbox := s.mgl.inbox.eraseP (isMgmt n) } }
    (s.inbox? (isMgmt 1) = some k → (later → Completes .mgmtWarmReset s (waits 1 .warmReset)) ∧
      (mgmtAccepted s k = false → Completes .mgmtWarmReset s (gone 1))) ∧
    (s.inbox? (isMgmt 2) = some k → (later → Completes .mgmtHalfTime s (waits 2 .halfTime)) ∧
      (mgmtAccepted s k = false → Completes .mgmtHalfTime s (gone 2))) ∧
    (s.inbox? (isMgmt 3) = some k → (later → Completes .mgmtResume s (waits 3 .resume)) ∧
      (mgmtAccepted s k = false → Completes .mgmtResume s (gone 3)))) ∧
  (∀ (s : State) (a : MgmtAction) (at_ : Nat), s.Inv → s.pwr.mgmt = some (a, at_) →
    (∀ u, s.ump.slot = some u → at_ ≤ u.slotEnd) →
    let t0 := max s.ts (s.ump.slot.elim at_ Slot.slotEnd)
    (a = .warmReset → warmMay s → Completes .mgmtAtTsReached s (fun t =>
      t.pwr.phase = .booting ∧ t.regFld R.rstCause 0 8 = 7 ∧ t.ts = t0 ∧ t.pwr.mgmt = none)) ∧
    (a = .halfTime → s.pwr.phase = .running → s.pwr.request = none → s.pwr.state = .active →
      Completes .mgmtAtTsReached s (fun t => t.ts = t0 ∧ t.pwr.mgmt = none ∧ t.regFld R.pwrCtl 0 2 = 1 ∧
        if s.ump.slot = none then t.pwr.state = .idle else t.pwr.request = some .idle)) ∧
    (a = .resume → s.pwr.phase = .running → s.pwr.request = none → s.pwr.state = .idle →
      Completes .mgmtAtTsReached s (fun t => t.ts = t0 ∧ t.pwr.mgmt = none ∧ t.pwr.request = some .active ∧
        ∃ u, t.ump.slot = some u ∧ t0 ≤ u.start ∧ u.start ≤ t0 + 20000 ∧ u.start % 10000 = 0)))

/-! Board management (R644 to R647). -/

/-- Every SMBus read answers its 16-bit value while PWR_EN is high and changes nothing else (R644). A GO of the flash
controller starts its operation at ADDR with BUSY set, and the operation's end does it (R647): a read fills the buffer, a
program writes 64 bytes, an erase sets a sector of 4,096 bytes to 0xFF (assumption 8), and one whose verify fails sets ERR. -/
def Obligations.BoardManagementCompletes : Prop :=
  (∀ s : State, s.pwr.pwrEn = true →
    let answers (i : Instr) (command value : Nat) : Prop := exec i s = .next (s.emit (.smbus command (value % 65536)))
    answers .smbV48 0x10 (s.pwr.mv48 / 10) ∧ answers .smbInputCurrent 0x11 (s.pwr.amps / 100) ∧
    answers .smbPower 0x12 (s.regFld R.pwrMeas 0 16) ∧ answers .smbJunction 0x20 (s.regFld R.pwrTemp 0 8) ∧
    answers .smbInlet 0x21 (s.regFld R.pwrTemp 8 8) ∧ answers .smbBootStatus 0x30 (s.regAt R.rstBootStatus).toNat ∧
    answers .smbRstCause 0x31 (s.regAt R.rstCause).toNat ∧
    answers .smbState 0x32 (s.pwr.state.code + 2 ^ 8 * errStateWord s + if s.pwr.phase = .running then 2 ^ 15 else 0) ∧
    answers .smbAlert 0x40 (s.regAt R.bmcAlert).toNat) ∧
  (∀ (s : State) (v : Word), s.Inv → s.pwr.phase = .running → s.pwr.flashSel = false → s.pwr.flashOp = none →
    v.getLsbD 31 = true → v.getLsbD 3 = false →
    let starts (op : Nat) (t : State) : Prop := t.regFld R.bmcFlashCtl 0 2 = op ∧ t.regFld R.bmcFlashCtl 2 1 = 1 ∧
      t.pwr.flashOp = some ⟨op, s.regFld R.bmcFlashAddr 0 26 / 64 * 64, flashBuffer s⟩ ∧ t.pwr.flash = s.pwr.flash
    Completes (.flashRead s.host.owner v) s (starts 0) ∧ Completes (.flashProgram s.host.owner v) s (starts 1) ∧
    Completes (.flashErase s.host.owner v) s (starts 2)) ∧
  (∀ (s : State) (addr : Nat) (bs : List Byte), s.Inv →
    let ends (t : State) : Prop := t.pwr.flashOp = none ∧ t.regFld R.bmcFlashCtl 2 1 = 0
    (s.pwr.flashOp = some ⟨0, addr, bs⟩ → Completes (.flashOpDone true) s (fun t => ends t ∧ t.pwr.flash = s.pwr.flash ∧
      flashBuffer t = s.pwr.flash.readBytes addr 64)) ∧
    (s.pwr.flashOp = some ⟨1, addr, bs⟩ → Completes (.flashOpDone true) s (fun t => ends t ∧
      t.pwr.flash = s.pwr.flash.writeBytes addr bs)) ∧
    (s.pwr.flashOp = some ⟨2, addr, bs⟩ → Completes (.flashOpDone true) s (fun t => ends t ∧
      t.pwr.flash = s.pwr.flash.writeBytes (addr / 4096 * 4096) (List.replicate 4096 0xFF))) ∧
    (s.pwr.flashOp = some ⟨1, addr, bs⟩ ∨ s.pwr.flashOp = some ⟨2, addr, bs⟩ → Completes (.flashOpDone false) s (fun t =>
      ends t ∧ t.regFld R.bmcFlashCtl 3 1 = 1)))

/-! The on-package fabric and Mirgarlink (R22, R373 to R395). -/

/-- The receiving end of a fabric link takes flits in order (R22): the one expected, held or corrected by SC8, is delivered at
its destination die or queued on the next link of its way; an uncorrectable one is asked for again, and the sending end sends
it and those after it in their original order; a third failure is a device fault; a flit out of order is discarded. The way of
a flit is the model's choice (assumption 204). -/
def Obligations.FabricFlitsDeliver : Prop :=
  ∀ (s : State) (a b : Die) (seq : Nat) (l : FabricLink) (word : FlitArrival), s.powered = true → joined a b = true →
    (s.fabricLink a b).sentAs seq word.flit = some l →
    (∀ bytes, seq = l.expected → (sc8Decode word.received = .correct ∧ bytes = word.received) ∨
        sc8Decode word.received = .corrected bytes →
      let f : FabricFlit := { word.flit with data := bytes.take 64 }
      Completes (.fabricFlitReceive (a, b) seq word) s (fun t =>
        t.fabricLink a b = { l with expected := l.expected + 1, fails := 0 } ∧
        if f.dst = b then t.mgl.delivered = s.mgl.delivered ++ [f]
        else t.mgl.delivered = s.mgl.delivered ∧
          (t.fabricLink b (nextHop b f.dst)).queue = (s.fabricLink b (nextHop b f.dst)).queue ++ [f])) ∧
    (seq = l.expected → sc8Decode word.received = .uncorrectable → l.fails < 2 →
      Completes (.fabricFlitReceive (a, b) seq word) s (fun t =>
        t.fabricLink a b = { l with fails := l.fails + 1 } ∧ t.mgl.delivered = s.mgl.delivered ∧
        t.host.out = s.host.out ++ .fabricResend a b seq :: (l.sent.filter (fun p => decide (seq ≤ p.1))).map
          (fun p => .fabricFlit a b p.1 p.2 (sc8Check p.2.data)))) ∧
    (seq = l.expected → sc8Decode word.received = .uncorrectable → 2 ≤ l.fails →
      Completes (.fabricFlitReceive (a, b) seq word) s (fun t => t.err.deviceFault = true)) ∧
    (seq ≠ l.expected → Completes (.fabricFlitReceive (a, b) seq word) s (fun t => t = s.setFabric a b l))

/-- The life of a port (R374, R376, R392 to R394, R553): training ends UP with credits initialised, or in boot service for a
peer that boots by pass chain; a training that fails is tried again, or fenced at the third failure within 60 s; a port taken
down by its peer trains again; a session's keys go in, a peer that is not accepted leaves the port without one, a new key goes
into the other key slot, and a port past its frame limit goes down. How the secrets are agreed and the keys come from them is
the model's choice (assumption 237). -/
def Obligations.PortLifeCompletes : Prop :=
  (∀ (s : State) (p : Nat) (peer : PeerLink), s.pwr.phase = .running → (s.link p).phase = .training → peer.lanes = 8 →
    let fresh : MglPort := { MglPort.down with phase := .up, since := s.ts, banks := List.replicate 4 ⟨none, []⟩ }
    (peer.booting = false → peer.enc = s.linkEnc p → (s.linkEnc p = true → (s.link p).secure = true) →
      Completes (.portUp p peer) s (fun t => t = s.setLink p { fresh with
        secure := (s.link p).secure, keys := (s.link p).keys })) ∧
    (peer.booting = true → Completes (.portUp p peer) s (fun t => t = s.setLink p { fresh with boot := true }))) ∧
  (∀ (s : State) (p : Nat), (s.link p).phase = .training →
    let t0 := max s.ts ((s.link p).since + 1000000000)
    let falls := fallsOf { s with ts := t0 } p
    Completes (.portRetry p) s (fun t => (t.link p).phase = (if falls.length < 3 then .training else .fenced) ∧
      (t.link p).since = t0 ∧ t.ts = t0 ∧ Tbl.get? t.err.portFalls p = some falls)) ∧
  (∀ (s : State) (p : Nat), (s.link p).phase = .up → Completes (.peerTakesLinkDown p) s (fun t =>
    (t.link p).phase = (if s.linkEn p then .training else .down) ∧ (t.link p).txQueue = [] ∧ (t.link p).secure = false)) ∧
  (∀ (s : State) (p : Nat) (peer : PeerProof), (s.link p).phase = .training → s.linkEnc p = true →
    (∀ secret, peerAccepted s peer = true → linkSecret s peer = some secret → Completes (.sessionHandshake p peer) s (fun t =>
      t = (s.handshake p peer).setLink p { s.link p with
        secure := true, keys := sessionKeys [] 0 secret peer.transcript })) ∧
    (peerAccepted s peer = false ∨ linkSecret s peer = none → Completes (.sessionHandshake p peer) s (fun t =>
      (t.link p).phase = .training ∧ (t.link p).secure = false ∧ (t.link p).since = (s.link p).since))) ∧
  (∀ (s : State) (p : Nat) (peer : PeerProof), (s.link p).phase = .up → (s.link p).secure = true →
    2 ^ 30 ≤ (s.link p).txFrames ∨ 2 ^ 30 ≤ (s.link p).rxFrames → (s.link p).keyEpochTx = (s.link p).newSlot →
    (s.link p).keyEpochRx = (s.link p).newSlot →
    (∀ secret, peerAccepted s peer = true → linkSecret s peer = some secret → Completes (.rekey p peer) s (fun t =>
      t = (s.handshake p peer).setLink p { s.link p with
        newSlot := 1 - (s.link p).newSlot
        keys := sessionKeys (s.link p).keys (1 - (s.link p).newSlot) secret peer.transcript })) ∧
    (peerAccepted s peer = false ∨ linkSecret s peer = none → Completes (.rekey p peer) s (fun t => t = s.handshake p peer))) ∧
  (∀ (s : State) (p : Nat), (s.link p).phase = .up → (s.link p).secure = true →
    ((s.link p).keyEpochTx = (s.link p).newSlot ∧ 2 ^ 31 ≤ (s.link p).txFrames) ∨
      ((s.link p).keyEpochRx = (s.link p).newSlot ∧ 2 ^ 31 ≤ (s.link p).rxFrames) →
    Completes (.rekeyLimit p) s (fun t => (t.link p).phase = .training ∧ (t.link p).secure = false))

/-- Frames (R375, R376, R383): a frame that passes its checks is taken up once, in order; one that does not is discarded and a
replay requested, and the third failure of one frame takes the port down; the frames from a requested one onward are sent
again, unless that frame has left the last 32; returned credit is free again. The bytes of a link message are the model's
choice (assumption 231). -/
def Obligations.FramesComplete : Prop :=
  (∀ (s : State) (p : Nat) (f : LinkFrame) (flits : List Byte), (s.link p).phase = .up →
    frameFlits (s.link p) p f = some flits → Completes (.frameReceive p f) s (fun t =>
      (t.link p).rxSeq = (s.link p).rxSeq + 1 ∧ (t.link p).rxFails = 0 ∧
      (t.link p).keyEpochRx = (if f.enc then f.keyEpoch else (s.link p).keyEpochRx) ∧
      (t.link p).rxQueue = (s.link p).rxQueue ++ (parseFlits 2048 ((s.link p).rxPartial ++ flits)).1 ∧
      (t.link p).rxPartial = (parseFlits 2048 ((s.link p).rxPartial ++ flits)).2)) ∧
  (∀ (s : State) (p : Nat) (f : LinkFrame), (s.link p).phase = .up → frameFlits (s.link p) p f = none →
    let l := s.link p
    let fails := if f.decoded = true ∧ f.seq ≠ l.rxSeq then l.rxFails else l.rxFails + 1
    (fails < 3 → Completes (.frameReceive p f) s (fun t => t.link p = { l with rxFails := fails } ∧
      t.host.out = s.host.out ++ [.lmc p 1 [l.rxSeq] (lmcCheck l 0 1 [l.rxSeq])])) ∧
    (3 ≤ fails → Completes (.frameReceive p f) s (fun t => (t.link p).phase ≠ .up))) ∧
  (∀ (s : State) (p seq : Nat) (x : LmcCheck), (s.link p).phase = .up → lmcTaken s p 1 [seq] x = true → seq < (s.link p).txSeq →
    let l := s.link p
    (l.replay.any (fun f => f.seq == seq) = true → Completes (.lmcReplayRequest p (seq, x)) s (fun t =>
      t.host.out = s.host.out ++ (l.replay.filter (fun f => decide (seq ≤ f.seq))).map (fun f =>
        let (tag, wire) := frameSeal l.keys p 0 f.seq f.keyEpoch l.secure f.flits
        .frame p f.seq f.keyEpoch l.secure tag wire) ∧ t.link p = l)) ∧
    (l.replay.any (fun f => f.seq == seq) = false → Completes (.lmcReplayRequest p (seq, x)) s (fun t =>
      (t.link p).phase ≠ .up))) ∧
  (∀ (s : State) (p vc n : Nat) (x : LmcCheck), (s.link p).phase = .up → lmcTaken s p 4 [vc, n] x = true →
    Completes (.lmcCreditReturn p vc (n, x)) s (fun t =>
      t = s.setLink p (((s.link p).returnCredit vc n).freeBanks (s.ump.work.map (·.did)))))

/-- Packets (R379, R381, R383): the oldest received packet of a port is delivered here when the table says local, forwarded in
order when its port is UP, and dropped otherwise with its reason; unless it is forwarded its credits go back. Arbitration sends
the packet it chooses with HOPS raised by 1, and an idle flit when there is none. -/
def Obligations.PacketsComplete : Prop :=
  (∀ (s : State) (p : Nat) (k : Packet) (rest : List Packet), (s.link p).boot = false → (s.link p).rxQueue = k :: rest →
    let l := s.link p
    let freed (t : State) : Prop := (t.link p).rxQueue = rest ∧ t.host.out = s.host.out ++
      (if l.phase = .up then [.lmc p 4 [k.vc, k.flits] (lmcCheck l 0 4 [k.vc, k.flits])] else [])
    let dropped (reason : Nat) : Prop := Completes (.packetRoute p) s (fun t => freed t ∧ t.mgl.inbox = s.mgl.inbox ∧
      ∃ d, t.mgl.drops = some d ∧ (s.mgl.drops = none → d = ⟨1, k.dst, p, reason⟩) ∧
        ∀ e, s.mgl.drops = some e → d = { e with count := e.count + 1 })
    (k.inRange = false → dropped 3) ∧
    (k.inRange = true → k.hops = 4 → k.dst ≠ s.rank → dropped 1) ∧
    (k.inRange = true → (k.hops = 4 → k.dst = s.rank) →
      (s.route k.dst = 16 → Completes (.packetRoute p) s (fun t => freed t ∧ t.mgl.inbox =
        if badMgmt k then s.mgl.inbox else s.mgl.inbox ++ [⟨p, l.secure, k⟩])) ∧
      (s.route k.dst ≠ 16 → 16 ≤ s.route k.dst ∨ s.linkUp (s.route k.dst) = false → dropped 2) ∧
      (∀ q, s.route k.dst = q → q < 16 → s.linkUp q = true → Completes (.packetRoute p) s (fun t =>
        (t.link p).rxQueue = rest ∧ (t.link q).txQueue = (s.link q).txQueue ++ [⟨p, none, 0, false, k⟩] ∧
        t.mgl.inbox = s.mgl.inbox ∧ t.host.out = s.host.out)))) ∧
  (∀ (s : State) (p cls : Nat) (q : QueuedPacket) (l : MglPort), (s.link p).phase = .up →
    choosePacket s (s.link p) = some (cls, q, l) → Completes (.outputArbitration p) s (fun t =>
      s.host.out ++ [.packet p q.packet.ty q.packet.vc q.packet.dst [q.packet.src, q.packet.hops + 1, q.packet.ch,
        q.packet.len, if q.fromPort = 16 then s.ts % 2 ^ 32 else q.packet.tsLo, q.packet.seq] q.packet.data] <+: t.host.out)) ∧
  (∀ (s : State) (p : Nat), (s.link p).phase = .up → choosePacket s (s.link p) = none →
    (s.link p).txOpen.length + 64 < 64 * 1023 → Completes (.outputArbitration p) s (fun t =>
      (t.link p).txOpen = (s.link p).txOpen ++ List.replicate 64 0 ∧ t.host.out = s.host.out))

/-- Time synchronisation (R389 to R391): a request goes out on the upstream port and is noted, and an exchange that finds the
port not UP is missed; a request received is answered with the state and HOPS shown; the first reply steps the counter and
takes an UNLOCKED device to ACQUIRING, and a later one locks it after 8 good exchanges below a LOCKED device; a millisecond
without an exchange unlocks it, and 2 missed exchanges are HOLDOVER. The bytes of a link message are the model's choice
(assumption 231). -/
def Obligations.TimeSynchronisationCompletes : Prop :=
  (∀ s : State, s.regFld R.mglTsyncCtl 31 1 = 0 →
    let p := s.regFld R.mglTsyncCtl 16 4
    (s.linkUp p = true → Completes .tsyncExchange s (fun t =>
      t.host.out = s.host.out ++ [.lmc p 2 [] (lmcCheck (s.link p) 0 2 [])] ∧ ∃ f < 16, t.mgl.tsync.t1 = some (16 * s.ts + f))) ∧
    (s.linkUp p = false → Completes .tsyncExchange s (fun t => t = { s with mgl := { s.mgl with
      tsync := { s.mgl.tsync with t1 := none, missed := s.mgl.tsync.missed + 1 } } }))) ∧
  (∀ (s : State) (p : Nat) (x : LmcCheck), s.linkUp p = true → lmcTaken s p 2 [] x = true →
    Completes (.syncReq (p, x)) s (fun t => ∃ t2 t3, 16 * s.ts ≤ t2 ∧ t2 ≤ t3 ∧
      let fields := [t2, t3, s.tsyncShown.1, s.tsyncShown.2]
      t.host.out = s.host.out ++ [.lmc p 3 fields (lmcCheck (s.link p) 0 3 fields)])) ∧
  (∀ (s : State) (t1 t2 t3 t4 st hops : Nat) (x : LmcCheck), s.mgl.tsync.t1 = some t1 →
    lmcTaken s (s.regFld R.mglTsyncCtl 16 4) 3 [t2, t3, st, hops] x = true →
    let t4' := max t4 (16 * s.ts)
    let theta := thetaOf s t1 t2 t3 t4'
    let good := if theta.natAbs ≤ 24 then s.mgl.tsync.good + 1 else 0
    Completes (.syncReply t2 t3 t4 st (hops, x)) s (fun t => t.mgl.tsync.hops = hops + 1 ∧ t.mgl.tsync.good = good ∧
      t.mgl.tsync.t1 = none ∧ t.mgl.tsync.missed = 0 ∧ t.mgl.tsync.lastExchange = t.ts ∧
      t.ts = (if s.mgl.tsync.st = 0 then stepTs { s with ts := t4' / 16 } theta else t4' / 16) ∧
      t.mgl.tsync.ppm.natAbs ≤ 200 ∧
      t.mgl.tsync.st = if s.mgl.tsync.st = 0 then 1 else if st = 2 ∧ hops + 1 ≤ 4 ∧ 8 ≤ good then 2
        else if s.mgl.tsync.st = 3 then 3 else 1)) ∧
  (∀ s : State, s.regFld R.mglTsyncCtl 31 1 = 0 → s.mgl.tsync.st ≠ 0 →
    (s.mgl.tsync.lastExchange + 1000000 ≤ s.ts → Completes .tsyncTimeout s (fun t =>
      t.mgl.tsync.st = 0 ∧ t.mgl.tsync.good = 0)) ∧
    (s.ts < s.mgl.tsync.lastExchange + 1000000 → 2 ≤ s.mgl.tsync.missed → Completes .tsyncTimeout s (fun t =>
      t.mgl.tsync.st = 3 ∧ t.mgl.tsync.good = 0)))

/-! The host interface (R441 to R482). -/

/-- A doorbell of a ring that its value leaves with 0 to the ring's size moves the ring's index, and nothing else of the
rings; one that it would not, or one that is misaligned or names no ring, is counted in HUB_DB_ERR (R454). -/
def Obligations.DoorbellsComplete : Prop :=
  (∀ (s : State) (p : Port) (func page c r v : Nat) (x : Context) (ring q : Ring), s.pwr.phase = .running →
    pageOwner s p func page = some c → Tbl.get? s.host.contexts c = some x → Tbl.wf x.rings = true →
    Tbl.get? x.rings r = some ring → r < 16 → v < 2 ^ 32 → ringDoorbell ring v = some q →
    Completes (.doorbellWrite p func page (8 * r) 4 v) s (fun t => t.ring? c r = some q ∧
      (∀ j, j ≠ r → t.ring? c j = s.ring? c j) ∧ t.host.out = s.host.out)) ∧
  (∀ (s : State) (p : Port) (func page off n v c : Nat), s.pwr.phase = .running → pageOwner s p func page = some c →
    n ≠ 4 ∨ off % 8 ≠ 0 ∨ 0x78 < off ∨ (s.ring? c (off / 8)).bind (fun r => ringDoorbell r (v % 2 ^ 32)) = none →
    Completes (.doorbellWrite p func page off n v) s (fun t => t = s.setReg (portKey p R.hubDbErr)
      (s.regAt (portKey p R.hubDbErr) + 1)))

/-- A descriptor that waits on a ring with a free completion entry is accepted under the next number, with the time it was
read and the slots it names, unless it is a barrier behind an earlier one of its ring; one that R459 does not turn away waits
for its own steps; a read that fails stops the ring (R442, R456, R459). -/
def Obligations.DescriptorAcceptCompletes : Prop :=
  (∀ (s : State) (c r : Nat) (x : Context) (q : Ring) (d : Desc), mayRead s c r = some (x, q) →
    (fld d 1 0 1 = 1 → s.host.accepted.any (fun a => a.ctx == c && a.ring == r) = false) →
    Completes (.descriptorAccept c r (.ok d)) s (fun t => t.host.nextDid = s.host.nextDid + 1) ∧
    (s.Inv → headerStatus s c x q.kind d = none → Completes (.descriptorAccept c r (.ok d)) s (fun t =>
      ∃ a ∈ t.host.accepted, a.did = s.host.nextDid ∧ a.desc = d ∧ a.ctx = c ∧ a.ring = r ∧ a.readTs = s.ts ∧
        a.slots = namedSlots s c d ∧ a.begun = false)) ∧
    (fld d 1 1 7 = 0 → opcodeRing (fld d 0 0 8) = some q.kind → fld d 2 0 16 = c → fld d 12 0 32 = 0 → fld d 8 0 32 ≠ 0 →
      [0x30, 0x31, 0x32, 0x42, 0x43].contains (fld d 0 0 8) = true →
      Completes (.descriptorAccept c r (.ok d)) s (fun t => ∃ a ∈ t.host.accepted, a.did = s.host.nextDid ∧ a.desc = d ∧
        a.ctx = c ∧ a.ring = r ∧ a.readTs = s.ts ∧ a.slots = namedSlots s c d ∧ a.begun = false))) ∧
  (∀ (s : State) (c r : Nat) (x : Context) (q : Ring) (d : Desc), mayRead s c r = some (x, q) → fld d 1 0 1 = 1 →
    s.host.accepted.any (fun a => a.ctx == c && a.ring == r) = true →
    Completes (.descriptorAccept c r (.ok d)) s (fun t => t = s)) ∧
  (∀ (s : State) (c r : Nat) (x : Context) (q : Ring), mayRead s c r = some (x, q) →
    Completes (.descriptorAccept c r .failed) s (fun t => t = s.modRing c r (fun g => { g with stopped := true })))

/-- A window slot that a function sees changes hands with its current GEN in one 8-byte write: the handover keeps GEN, the
reclaim raises it; any other write is counted in HUB_WIN_VIOL (R447). A host access of the window (R448, R489, R599): the boot
buffer before BOOT_DONE; after it memory, where a byte of a device-owned slot reads zero and is not written, a line that
cannot be read aborts a read, and a write that touches a device-owned slot is counted. -/
def Obligations.WindowCompletes : Prop :=
  (∀ (s : State) (p : Port) (f slot i : Nat), s.pwr.phase = .running → funcExists s p f = true → slotSeen f slot = some i →
    let flag := (s.host.port p).flag i
    (s.slotOwn p i = false → Completes (.flagHandover p f slot 8 flag.gen) s (fun t =>
      (t.host.port p).flag i = ⟨true, flag.gen⟩ ∧
      (∀ j, j ≠ i → (t.host.port p).flag j = (s.host.port p).flag j) ∧ t.regs = s.regs)) ∧
    (flag.own = true → slotNamed s p i = false → acctSlot s p i = false → s.slotOffline p i = false →
      Completes (.flagReclaim p f slot 8 flag.gen) s (fun t =>
        (t.host.port p).flag i = ⟨false, (flag.gen + 1) % 2 ^ 32⟩ ∧
        (∀ j, j ≠ i → (t.host.port p).flag j = (s.host.port p).flag j) ∧ t.regs = s.regs)) ∧
    (∀ n gen,
      let refused (t : State) : Prop := t = s.setReg (portKey p R.hubWinViol) (s.regAt (portKey p R.hubWinViol) + 1)
      (n ≠ 8 ∨ gen ≠ flag.gen ∨ s.slotOwn p i = true → Completes (.flagHandover p f slot n gen) s refused) ∧
      (n ≠ 8 ∨ gen ≠ flag.gen ∨ flag.own = false ∨ slotNamed s p i = true ∨ acctSlot s p i = true →
        Completes (.flagReclaim p f slot n gen) s refused))) ∧
  (∀ (s : State) (p : Port) (off : Nat) (d : List Byte), s.pwr.phase = .booting → s.regFld R.rstStraps 0 2 = p.num + 1 →
    off + d.length ≤ 67108864 → Completes (.windowHostAccess p 0 off (.write d)) s (fun t => t =
      { s with pwr := { s.pwr with bundle := s.pwr.bundle.writeBytes off d } })) ∧
  (∀ (s : State) (p : Port) (off n : Nat), s.pwr.phase = .booting → s.regFld R.rstStraps 0 2 = p.num + 1 →
    off + n ≤ 67108864 → Completes (.windowHostAccess p 0 off (.read n)) s (fun t => t =
      s.emit (.windowData p 0 (s.pwr.bundle.readBytes off n)))) ∧
  (∀ (s : State) (p : Port) (off n : Nat), s.pwr.phase = .running → off + n ≤ 0x2_0000_0000 → n ≤ 4096 →
    (∀ i < n, ((s.host.port p).flag ((off + i) / 65536)).own = true ∧ acctSlot s p ((off + i) / 65536) = false) →
    Completes (.windowHostAccess p 0 off (.read n)) s (fun t =>
      s.host.out <+: t.host.out ∧ t.host.out.getLast? = some (.windowData p 0 (List.replicate n 0)))) ∧
  (∀ (s : State) (p : Port) (f off n : Nat), s.pwr.phase = .running → funcExists s p f = true → n ≤ 4096 →
    (hostReadFails s p f off n = false → Completes (.windowHostAccess p f off (.read n)) s (fun t =>
      s.host.out <+: t.host.out ∧ t.host.out.getLast? = some (.windowData p f ((List.range n).map
        (hostByte s p f off (hostRead s (s.winBase p + funcBase f + off) n).1))) ∧
      (s.mem.scrubs = [] → t.mem.cells = s.mem.cells))) ∧
    (hostReadFails s p f off n = true → Completes (.windowHostAccess p f off (.read n)) s (fun t =>
      t = s.emit (.completerAbort p f)))) ∧
  (∀ (s : State) (p : Port) (f off : Nat) (d : List Byte), s.Inv → s.pwr.phase = .running → funcExists s p f = true →
    d.length ≤ 4096 → f ≠ 0 ∨ off < 0x3_FFE0_0000 ∨ 0x4_0000_0000 ≤ off →
    Completes (.windowHostAccess p f off (.write d)) s (fun t =>
      t.mem = (writeHostCells s (s.winBase p + funcBase f) (hostCells s p f off d)).mem ∧
      t.regAt (portKey p R.hubWinViol) = s.regAt (portKey p R.hubWinViol) +
        (if touchesOwned s p f off d.length = true then 1 else 0)))

/-- The mailbox (R469, R479): a VF's message goes to its PF's ring with its VF field, a reply to the VF it names, and a
write of the fifth configuration register makes the ring, or removes it with LOG2_SIZE 0; a reply that names no enabled VF is
dropped and counted. The heartbeat of the control owner starts its limit anew,
and the limit's end, or the end of its link, is the loss of the peer (R471, R472). -/
def Obligations.MailboxAndOwnershipComplete : Prop :=
  (∀ (s : State) (p : Port) (vf : Nat) (m : Desc), vf ≠ 0 → funcExists s p vf = true → hasMessage s (setupCtx p vf) = true →
    hasRoom s (setupCtx p 0) = true → Completes (.mailboxRequestCopy p vf m) s (fun t =>
      t = (takeMessage s (setupCtx p vf)).produce (setupCtx p 0) 1 (setBits m.toNat 32 6 vf))) ∧
  (∀ (s : State) (p : Port) (m : Desc), hasMessage s (setupCtx p 0) = true → fld m 0 0 8 = 0x80 → fld m 4 0 6 ≠ 0 →
    funcExists s p (fld m 4 0 6) = true → hasRoom s (setupCtx p (fld m 4 0 6)) = true →
    Completes (.mailboxReplyCopy p m) s (fun t =>
      t = (takeMessage s (setupCtx p 0)).produce (setupCtx p (fld m 4 0 6)) 1 m.toNat)) ∧
  (∀ (s : State) (p : Port) (m : Desc), hasMessage s (setupCtx p 0) = true →
    fld m 0 0 8 ≠ 0x80 ∨ fld m 4 0 6 = 0 ∨ funcExists s p (fld m 4 0 6) = false →
    Completes (.mailboxReplyCopy p m) s (fun t => t = (takeMessage s (setupCtx p 0)).bump (portKey p R.hubDbErr))) ∧
  (∀ (s : State) (p : Port) (f : Nat) (v : Word), s.pwr.phase = .running → f ≤ 63 → funcExists s p f = true →
    let ring := s.regFld (portKey p (keyOf R.hubMbxSel f)) 0 1
    (s.ring? (setupCtx p f) ring = none → wordFld v 0 3 = 4 + ring → 6 ≤ wordFld v 3 5 → wordFld v 3 5 ≤ 16 →
      Completes (.hubMbxCfg4Write p f v) s (fun t => ∃ r, t.ring? (setupCtx p f) ring = some r ∧ r.kind = mailboxKind ring ∧
        r.log2 = wordFld v 3 5 ∧ r.p = 0 ∧ r.c = 0 ∧ r.irqEn = decide (wordFld v 23 1 = 1))) ∧
    (s.ring? (setupCtx p f) ring ≠ none → wordFld v 3 5 = 0 →
      Completes (.hubMbxCfg4Write p f v) s (fun t => t.ring? (setupCtx p f) ring = none)) ∧
    (s.ring? (setupCtx p f) ring ≠ none → wordFld v 3 5 ≠ 0 → Completes (.hubMbxCfg4Write p f v) s (fun t => t = s))) ∧
  (∀ (s : State) (v : Word), s.pwr.phase = .running → Completes (.hubHeartbeat s.host.owner v) s (fun t =>
    t = { s with host := { s.host with heartbeatTs := s.ts, hbLost := false } })) ∧
  (∀ (s : State) (v : Word), s.pwr.phase = .running → Completes (.hubHeartbeat s.host.owner.other v) s (fun t => t = s)) ∧
  (∀ s : State, s.pwr.phase = .running → s.regFld (portKey s.host.owner R.hubOwner) 0 16 ≠ 0 →
    Completes (.peerLost .heartbeat) s (fun t => t = { s with
      ts := max s.ts (s.host.heartbeatTs + s.regFld (portKey s.host.owner R.hubOwner) 0 16 * 1000000)
      host := { s.host with hbLost := true } })) ∧
  (∀ s : State, Completes (.peerLost .link) s (fun t => (t.host.port s.host.owner).linkUp = false ∧
    t.host.port s.host.owner.other = s.host.port s.host.owner.other)) ∧
  (∀ (s : State) (p : Port) (n : Nat), s.pwr.phase = .running → n ≤ 63 → (s.host.port p).vfs ≤ n →
    Completes (.vfEnable p n) s (fun t => t = s.modPort p (fun q => { q with vfs := n }))) ∧
  (∀ (s : State) (p : Port) (n : Nat), s.pwr.phase = .running → n ≤ 63 →
    Completes (.vfEnable p n) s (fun t => (t.host.port p).vfs = n))

/-! Huddle and the registers (R13, R444, R474, R475, R478 to R481). -/

/-- The ST bits of a write join the port's bank, which becomes STAGED unless it is PENDING (R474); a write of a block that
R444 keeps for the control owner sets DENIED and stages nothing. -/
def Obligations.StagedWritesComplete : Prop :=
  (∀ (s : State) (p : Port) (off : Nat) (v : Word) (row : RegRow), s.pwr.phase = .running → regRow off = some row →
    off < 0x400_0000 → row.st ≠ 0 → mayStage s p off = true → Completes (.stagedWrite p off v) s (fun t =>
      (t.host.port p).bank.writes = (s.host.port p).bank.writes ++ [⟨regKeyOf s p 0 off row, row.st, v.toNat &&& row.st⟩] ∧
      (t.host.port p).bank.phase = (if (s.host.port p).bank.phase = .pending then .pending else .staged) ∧
      t.regs = s.regs ∧ t.host.port p.other = s.host.port p.other)) ∧
  (∀ (s : State) (p : Port) (off : Nat) (v : Word) (row : RegRow), s.pwr.phase = .running → regRow off = some row →
    off < 0x400_0000 → row.st ≠ 0 → mayStage s p off = false → Completes (.stagedWrite p off v) s (fun t =>
      t = s.setFld (portKey p R.hdlStatus) 4 1 1))

/-- CHECK, APPLY and DISCARD of a bank (R475): a check begins and covers the writes the bank holds now; an apply remembers
its apply point; a discard empties the bank in any state; a check that ends shows its code and moves the bank. -/
def Obligations.HuddleCommandsComplete : Prop :=
  (∀ (s : State) (p : Port) (a : Bool), s.pwr.phase = .running → Completes (.huddleCheck p a) s (fun t =>
    (t.host.port p).bank = { (s.host.port p).bank with running := some .check, covered := (s.host.port p).bank.writes.length } ∧
    t.regFld (portKey p R.hdlCtl) 3 1 = a.toNat)) ∧
  (∀ (s : State) (p : Port) (c a : Bool), s.pwr.phase = .running → Completes (.huddleApplyRequest p c a) s (fun t =>
    (t.host.port p).bank = { (s.host.port p).bank with
      running := some (.apply (if a then some (s.reg64 (portKey p R.hdlApplyTsLo) (portKey p R.hdlApplyTsHi)) else none))
      covered := (s.host.port p).bank.writes.length } ∧ t.regFld (portKey p R.hdlCtl) 3 1 = a.toNat)) ∧
  (∀ (s : State) (p : Port) (c b a : Bool), s.pwr.phase = .running → Completes (.huddleDiscard p c b a) s (fun t =>
    (t.host.port p).bank = { Bank.reset with phase := .discarded } ∧ t.regFld (portKey p R.hdlCtl) 3 1 = a.toNat)) ∧
  (∀ (s : State) (p : Port), (s.host.port p).bank.running = some .check →
    let code := hdlCheck s p ((s.host.port p).bank.writes.take (s.host.port p).bank.covered)
    Completes (.huddleCheckDone p) s (fun t =>
      t.regFld (portKey p R.hdlStatus) 16 16 = code % 2 ^ 16 ∧
      (t.host.port p).bank.running = none ∧ (t.host.port p).bank.writes = (s.host.port p).bank.writes ∧
      (t.host.port p).bank.phase =
        if (s.host.port p).bank.phase = .pending then .pending
        else if code ≠ 0 then .failed
        else if (s.host.port p).bank.covered = (s.host.port p).bank.writes.length then .passed else .staged)) ∧
  (∀ (s : State) (p : Port) (at_ : Option Nat), (s.host.port p).bank.running = some (.apply at_) →
    let code := hdlCheck s p ((s.host.port p).bank.writes.take (s.host.port p).bank.covered)
    (code = 0 → Completes (.huddleCheckDone p) s (fun t => (t.host.port p).bank.phase = .pending ∧
      (t.host.port p).bank.applyAt = at_ ∧ (t.host.port p).bank.pendingTs = s.ts ∧ (t.host.port p).bank.running = none ∧
      t.regFld (portKey p R.hdlStatus) 16 16 = 0)) ∧
    (code ≠ 0 → Completes (.huddleCheckDone p) s (fun t => (t.host.port p).bank.phase = .failed ∧
      (t.host.port p).bank.running = none ∧ t.regFld (portKey p R.hdlStatus) 16 16 = code % 2 ^ 16)))

/-- An aligned 32-bit write of the PF to a register it reaches: RW bits take the value, a W1C bit written with 1 clears,
every other bit keeps its value, and no other register changes; an aligned 64-bit write is two such writes (R13, R629). REF_ and
BMC_ answer the control owner alone (R544, R646). -/
def Obligations.RegisterWriteCompletes : Prop :=
  (∀ (s : State) (p : Port) (off : Nat) (v : Word) (row : RegRow), s.Inv → s.pwr.phase = .running →
    p = s.host.owner ∨ (off / 0x1_0000 ≠ 0x18 ∧ off / 0x1_0000 ≠ 0x23) → off < 0x400_0000 → off % 4 = 0 → regRow off = some row →
    let key := regKeyOf s p 0 off row
    Completes (.registerWrite p 0 off 4 v.toNat) s (fun t =>
      (∀ i < 32, (t.regAt key).getLsbD i =
        if row.w1c.testBit i ∧ v.getLsbD i = true then false
        else if row.rw.testBit i then v.getLsbD i else (s.regAt key).getLsbD i) ∧
      (∀ k, k ≠ key → t.regAt k = s.regAt k) ∧ t = { s with regs := t.regs })) ∧
  (∀ (s : State) (p : Port) (off v : Nat), off < 0x400_0000 → off % 8 = 0 → Completes (.registerWrite p 0 off 8 v) s (fun t =>
    t = (s.write32 p 0 off (v % 2 ^ 32)).write32 p 0 (off + 4) (v / 2 ^ 32 % 2 ^ 32)))

/-- A read of a LO register returns its low half and latches the upper half, for the port that read it or, in a block that both
ports share, for both; no other latch changes (R78, R335, R437, R481, R576, R593, R618, R619). -/
def Obligations.LatchingReadsComplete : Prop :=
  ∀ (s : State) (p : Port), s.pwr.phase = .running →
    let reads (i : Instr) (hi value : Nat) : Prop := Completes i s (fun t =>
      t.host.out = s.host.out ++ [.readData p (value % 2 ^ 32)] ∧ t.latch p hi = value / 2 ^ 32 % 2 ^ 32 ∧
      (∀ (q : Port) (k : Nat), k ≠ hi → t.latch q k = s.latch q k))
    let apart (i : Instr) (hi : Nat) : Prop := Completes i s (fun t => t.latch p.other hi = s.latch p.other hi)
    let shared (i : Instr) (hi value : Nat) : Prop :=
      reads i hi value ∧ Completes i s (fun t => t.latch p.other hi = value / 2 ^ 32 % 2 ^ 32)
    reads (.scbTsLoRead p) R.scbTsHi s.ts ∧ apart (.scbTsLoRead p) R.scbTsHi ∧
    shared (.crtSatTotalLoRead p) R.crtSatTotalHi s.ump.satTotal ∧
    shared (.umpServeNoLoRead p) R.umpServeNoHi s.ump.serveNo ∧ shared (.rdcGstepLoRead p) R.rdcGstepHi s.rdc.gstep ∧
    shared (.clkThrNsLoRead p) R.clkThrHi s.throttledNs ∧ shared (.rstMgmtSeqLoRead p) R.rstMgmtSeqHi s.pwr.mgmtSeq ∧
    reads (.hdlAppliedTsLoRead p) R.hdlAppliedTsHi (s.reg64 (portKey p R.hdlAppliedTsLo) (portKey p R.hdlAppliedTsHi)) ∧
    apart (.hdlAppliedTsLoRead p) R.hdlAppliedTsHi

/-! Traces and counters (R577 to R595). -/

/-- Trace and counter commands: a pop hands out the oldest word of the queue the port selects and latches it, an open word
of a queue closes 100 µs after its first record, a mark enters its queue, counters named are cleared, counters are sampled
with 16 bits of timestamp (R576, R578, R582 to R591). -/
def Obligations.TraceAndCounterCommandsComplete : Prop :=
  (∀ (s : State) (p : Port), s.pwr.phase = .running → s.regFld (portKey p R.scbTrcSel) 0 5 < 24 →
    Completes (.tracePop p) s (fun t =>
      t.queue (s.regFld (portKey p R.scbTrcSel) 0 5) = ((s.queue (s.regFld (portKey p R.scbTrcSel) 0 5)).pop s.ts).2 ∧
      t.host.out = s.host.out ++ [.readData p ((s.queue (s.regFld (portKey p R.scbTrcSel) 0 5)).pop s.ts).1])) ∧
  (∀ (s : State) (p : Port) (v : Word), s.pwr.phase = .running → s.regFld (portKey p R.scbTrcSel) 0 5 < 24 →
    let n := s.regFld (portKey p R.scbTrcSel) 0 5
    (s.regFld (keyOf R.scbTrcCtl n) 0 1 = 1 → (s.regAt (keyOf R.scbTrcKinds n)).getLsbD 17 = true →
      (s.queue n).lastWrite ≠ some s.ts → Completes (.swMark p v) s (fun t => t = s.setQueue n ((s.queue n).put s.ts
        (layout 128 [(0, 0, 40, s.ts), (5, 0, 8, 17), (6, 0, 16, 0),
          (8, 0, 64, (s.regAt R.scbTrcMarkLo).toNat + 2 ^ 32 * v.toNat)])))) ∧
    (s.regFld (keyOf R.scbTrcCtl n) 0 1 = 0 ∨ (s.regAt (keyOf R.scbTrcKinds n)).getLsbD 17 = false →
      Completes (.swMark p v) s (fun t => t = s))) ∧
  (∀ (s : State) (n : Nat), n < 24 → (s.queue n).openRecords ≠ [] → Completes (.traceWordTimeout n) s (fun t =>
    t.ts = max s.ts ((s.queue n).openTs + 100000) ∧ t.queue n = (s.queue n).commit ∧ (t.queue n).openRecords = [])) ∧
  (∀ (s : State) (p : Port) (b : Nat) (v : Word), s.pwr.phase = .running → b < 24 → Completes (.pmuClr p b v) s (fun t =>
    (t.pmu b).counters = (s.pmu b).counters.filter (fun c => !v.toNat.testBit c.1) ∧ (t.pmu b).cycles = (s.pmu b).cycles ∧
    ∀ j, j ≠ b → t.pmu j = s.pmu j)) ∧
  (∀ (s : State) (p : Port) (b n : Nat), s.pwr.phase = .running → b < 24 → n < 8 → Completes (.pmuValLoRead p b n) s (fun t =>
    let v := Tbl.getD (s.pmu b).counters n 0
    t.host.out = s.host.out ++ [.readData p (v % 2 ^ 32)] ∧
    Tbl.get? (t.host.port p).latches (R.pmuValHi b n) = some (v / 2 ^ 32 % 2 ^ 16 + 2 ^ 16 * (s.ts % 2 ^ 16)))) ∧
  (∀ (s : State) (p : Port) (b : Nat), s.pwr.phase = .running → b < 24 → Completes (.pmuCycLoRead p b) s (fun t =>
    t.host.out = s.host.out ++ [.readData p (s.cyclesNow b % 2 ^ 32)] ∧
    Tbl.get? (t.host.port p).latches (R.pmuCycTs b) = some (s.ts % 2 ^ 16) ∧
    Tbl.get? (t.host.port p).latches (R.pmuCycHi b) = some (s.cyclesNow b / 2 ^ 32 % 2 ^ 32)))

/-- A commit to a full queue overwrites the oldest word: RP rises by 1, the lost-record count by the records that the word
held, and SCB_TRC_LOST of a port that selects the queue shows it; the words at other addresses stay (R583). -/
def Obligations.FullTraceQueueDropsOldest : Prop :=
  ∀ (s : State) (p : Port) (n : Nat) (w : TraceWord),
    let q := s.queue n
    let t := s.setQueue n q.commit
    s.pwr.phase = .running → s.regFld (portKey p R.scbTrcSel) 0 5 = n → (q.wp + 8192 - q.rp) % 8192 = 4096 → q.rp < 8192 → q.wp < 8192 →
    Tbl.get? q.words (q.rp % 4096) = some w →
    (t.queue n).rp = (q.rp + 1) % 8192 ∧ (t.queue n).wp = (q.wp + 1) % 8192 ∧
    (t.queue n).lost = (q.lost + w.records.length) % 2 ^ 32 ∧
    Tbl.get? (t.queue n).words (q.rp % 4096) = some ⟨q.openRecords, q.openHi, q.wordSeq, q.lost⟩ ∧
    (∀ a, a ≠ q.rp % 4096 → Tbl.get? (t.queue n).words a = Tbl.get? q.words a) ∧
    t.readReg p 0 R.scbTrcLost = BitVec.ofNat 32 ((q.lost + w.records.length) % 2 ^ 32)

/-- The ports read apart (R576): a read or selection through one port changes no latch and no selection that the other port
reads: SCB_TS_HI, SCB_TRC_SEL, the trace word latch, the counter latches, and PMU_CSET_SEL, which this model takes PMU_SEL
for (assumption 21). -/
def Obligations.PortsReadApart : Prop :=
  ∀ (s t : State) (p : Port) (i : Instr) (off : Nat), s.Inv →
    (i = .scbTsLoRead p ∨ i = .tracePop p ∨ (∃ b n, i = .pmuValLoRead p b n) ∨ (∃ b, i = .pmuCycLoRead p b) ∨
      ∃ v, i = .registerWrite p 0 R.scbTrcSel 4 v ∨ i = .registerWrite p 0 R.pmuCsetSel 4 v) →
    ((viewLatch s p.other off).isSome = true ∨ off = R.scbTrcSel ∨ off = R.pmuCsetSel) → exec i s = .next t →
    t.readReg p.other 0 off = s.readReg p.other 0 off

/-! The memory system, faults and thermal hold (R485 to R515, R550 to R565). -/

/-- A DATA line of another class than its page's reads as 64 zero bytes, whatever it holds and under whatever key, and is
counted in MEM_CLASS_MISMATCH; a ZERO line reads as zero bytes under every key (R499). -/
def Obligations.ClassMismatchReadsZero : Prop :=
  (∀ (s : State) (line : Nat) (l : LineMeta), Tbl.get? s.mem.lines line = some l → l.cls ≠ (s.page (line / 1024)).cls →
    (s.readLine line).1 = List.replicate 64 0 ∧ (s.readLine line).2 = s.setReg R.memMismatch (s.regAt R.memMismatch + 1)) ∧
  (∀ (s : State) (line : Nat), Tbl.get? s.mem.lines line = none →
    (s.readLine line).1 = List.replicate 64 0 ∧ (s.readLine line).2 = s)

/-- Memory commands (R488, R490, R500, R501, R504 to R506): a re-read that corrects is counted in MEM_CE, and one more than
the limit of a second is a storm (R554); a patrol read moves on and changes no byte; a scrub leaves its page zero and every
other byte as it was; a die that receives a key is marked; a swept line is under the current key, and a pass with no old line
left zeroises the old key. Which second counts is the model's reading (assumption 238). -/
def Obligations.MemoryCommandsComplete : Prop :=
  (∀ (s : State) (a : Nat) (word fixed : List Byte) (ok : Bool), s.Inv → s.pwr.phase = .running → inLpddr a = true →
    s.pageOffline (a / 65536) = false → sc8Decode word = .corrected fixed →
    let ch := channelOf (a / 65536)
    let seen := Tbl.getD s.mem.ceSecond (512 + ch) (s.ts / 1000000000, 0)
    let n := if seen.1 = s.ts / 1000000000 then seen.2 + 1 else 1
    let limit := s.regFld R.scbErrCtl 0 16
    Completes (.memReread a word ok) s (fun t => t.regAt R.memCe = s.regAt R.memCe + 1 ∧ a / 64 ∉ t.mem.bad ∧
      (limit = 0 ∨ n ≠ limit + 1 → t.mem.cells = s.mem.cells ∧ t.err = s.err) ∧
      (limit ≠ 0 → n = limit + 1 → unitInUse s 7 ch = true →
        ∃ f ∈ t.err.faults, f.unitKind = 7 ∧ f.unit = ch ∧ f.cause = 2 ∧ f.detected = s.ts))) ∧
  (∀ (s : State) (a : Nat) (word fixed : List Byte) (ok : Bool), s.Inv → s.pwr.phase = .running →
    inCourt a = true ∨ (inSram a = true ∧ s.sramOnline a = true) → inLpddr a = false → sc8Decode word = .corrected fixed →
    Completes (.memReread a word ok) s (fun t => t.regAt R.memCe = s.regAt R.memCe + 1)) ∧
  (∀ (s : State) (word reread : List Byte) (line : Nat), s.pwr.phase = .running → s.pwr.state = .active →
    s.regFld R.memCtl 16 8 ≠ 0 →
    (patrolNext s (patrolFuel s) s.mem.patrolLine).or (patrolNext s (patrolFuel s) 0) = some line →
    (sc8Decode word = .correct ∨ (sc8Decode word = .uncorrectable ∧ sc8Decode reread = .correct) →
      Completes (.patrolRead word reread) s (fun t => (line < t.mem.patrolLine ∨ t.mem.patrolLine = 0) ∧ line ∉ t.mem.bad ∧
        t.mem.cells = s.mem.cells)) ∧
    (∀ fixed, s.Inv → sc8Decode word = .corrected fixed ∨
        (sc8Decode word = .uncorrectable ∧ sc8Decode reread = .corrected fixed) →
      Completes (.patrolRead word reread) s (fun t => t.regAt R.memCe = s.regAt R.memCe + 1 ∧ line ∉ t.mem.bad))) ∧
  (∀ (s : State) (j : ScrubJob) (js : List ScrubJob) (p : Nat) (ps : List Nat), s.Inv → s.pwr.phase = .running →
    s.pwr.state = .active → s.regFld R.memCtl 0 11 ≠ 0 → s.mem.scrubs = j :: js → j.pages = p :: ps →
    Completes .scrubPageDone s (fun t =>
      (∀ a, inLpddr a = true → a / 65536 = p → t.mem.cells.read a = 0) ∧
      (∀ a, a / 65536 ≠ p → t.mem.cells.read a = s.mem.cells.read a) ∧ ∀ k ∈ t.mem.scrubs, p ∉ k.pages)) ∧
  (∀ (s : State) (die slot : Nat) (k : KeySlot), s.pwr.phase = .running → die < 4 → Tbl.get? s.mem.keySlots slot = some k →
    die ∉ k.switched → Completes (.keyLoadReceive die slot) s (fun t =>
      Tbl.get? t.mem.keySlots slot = some { k with switched := k.switched ++ [die] } ∧ t.mem.cells = s.mem.cells)) ∧
  (∀ (s : State) (slot line : Nat) (w : Sweep) (k : KeySlot) (l : LineMeta), s.Inv → s.pwr.phase = .running → s.pwr.state = .active →
    s.regFld R.memCtl 0 11 ≠ 0 → s.mem.sweeps.find? (fun w => w.slot == slot) = some w →
    Tbl.get? s.mem.keySlots slot = some k → Tbl.get? s.mem.lines line = some l → line ∉ s.mem.bad →
    (s.mem.lines.map (·.1)).find? (fun l => decide (w.nextLine ≤ l) && oldLine s slot (1 - k.cur) l && !s.pageOffline (l / 1024)) =
      some line →
    let (oldKey, newKey) := if k.cur = 0 then (k.key1, k.key0) else (k.key0, k.key1)
    Completes (.sweepLine slot) s (fun t =>
      Tbl.get? t.mem.lines line = some { l with epoch := k.cur, keyId := newKey } ∧
      t.mem.cells = s.mem.cells.writeBytes (64 * line) (s.lineUnder line oldKey) ∧
      (l.keyId = oldKey → ∀ a, t.mem.cells.read a = s.mem.cells.read a))) ∧
  (∀ (s : State) (slot : Nat) (w : Sweep) (k : KeySlot), s.pwr.phase = .running → s.pwr.state = .active →
    s.regFld R.memCtl 0 11 ≠ 0 → s.mem.sweeps.find? (fun w => w.slot == slot) = some w →
    Tbl.get? s.mem.keySlots slot = some k → (∀ line, oldLine s slot (1 - k.cur) line = false) →
    Completes (.sweepLine slot) s (fun t => Tbl.get? t.mem.keySlots slot =
        some (if k.cur = 0 then { k with oldLive := false, key1 := 0 } else { k with oldLive := false, key0 := 0 }) ∧
      ∀ v ∈ t.mem.sweeps, v.slot ≠ slot))

/-- Faults and thermal hold (R550, R553, R554, R562, R564): the report of a unit in use waits for its fence, or is a device
fault; a fence that completes leaves the list and takes its SRAM region, court or Locker offline; hold begins with a hot
reading and ends 10 ms after every sensor has cooled, with the clock at the floor. That a report's condition was met is said
by the command (assumption 174); the second of a storm is the model's reading (assumption 238). -/
def Obligations.FaultsComplete : Prop :=
  (∀ (s : State) (kind unit cause : Nat), s.pwr.phase = .running → unitInUse s kind unit = true →
    (kind ≠ 14 ∧ kind ≠ 15 ∧ kind ≠ 17 → Completes (.unitFaultReport kind unit cause) s (fun t =>
      ∃ f, t.err.faults = s.err.faults ++ [f] ∧ f.unitKind = kind ∧ f.unit = unit ∧ f.cause = cause ∧ f.detected = s.ts)) ∧
    (kind = 14 ∨ kind = 15 ∨ kind = 17 → Completes (.unitFaultReport kind unit cause) s (fun t => t.err.deviceFault = true)) ∧
    (kind = 1 ∨ kind = 2 ∨ kind = 3 ∨ kind = 5 ∨ kind = 10 ∨ kind = 11 ∨ kind = 12 →
      Completes (.progressTimeout kind unit) s (fun t => ∃ f, t.err.faults = s.err.faults ++ [f] ∧ f.unitKind = kind ∧
        f.unit = unit ∧ f.cause = 4 ∧ f.detected = s.ts)) ∧
    ((kind = 4 ∨ kind = 7) ∧ s.regFld R.scbErrCtl 0 16 ≠ 0 → Completes (.storm kind unit) s (fun t =>
      ∃ f, t.err.faults = s.err.faults ++ [f] ∧ f.unitKind = kind ∧ f.unit = unit ∧ f.cause = 2 ∧ f.detected = s.ts))) ∧
  (∀ (s : State) (p : PendingFault) (rest : List PendingFault), s.err.faults = p :: rest →
    s.pwr.state ≠ .idle ∨ s.pwr.request = some .active → Completes .fenceComplete s (fun t => t.err.faults = rest)) ∧
  (∀ (s : State) (p : PendingFault) (rest : List PendingFault), s.Inv → s.err.faults = p :: rest →
    s.pwr.state ≠ .idle ∨ s.pwr.request = some .active →
    (p.unitKind = 4 → p.unit < 512 → Completes .fenceComplete s (fun t => t.err.faults = rest ∧
      (t.regAt (R.memSramOnline (p.unit / 32))).getLsbD (p.unit % 32) = false)) ∧
    (p.unitKind = 2 ∨ p.unitKind = 5 → p.unit < 128 → Completes .fenceComplete s (fun t => t.err.faults = rest ∧
      (t.regAt (R.crtCourtOnline (p.unit / 32))).getLsbD (p.unit % 32) = false)) ∧
    (p.unitKind = 10 → p.unit < 16 → Completes .fenceComplete s (fun t => t.err.faults = rest ∧
      (t.regAt R.lkrOnline).getLsbD p.unit = false))) ∧
  (∀ (s : State) (sensor : Nat) (e : Int), s.pwr.phase = .running → s.err.hold = false →
    840 ≤ e ∨ (sensor < 64 ∧ 832 ≤ e ∧ s.clock16 = 12) → Completes (.thermalHoldEntry sensor e) s (fun t =>
      t.err.hold = true ∧ t.err.coolSince = none ∧ t.ump.work = none)) ∧
  (∀ (s : State) (t0 : Nat), s.Inv → s.err.hold = true → s.err.coolSince = some t0 → Completes .thermalHoldExit s (fun t =>
    t.err.hold = false ∧ t.ts = max s.ts (t0 + 10000000) ∧ t.regFld R.clkStatus 0 4 = 12))

/-! The Referee (R504, R520, R526 to R546). -/

/-- The Referee's registers (R504, R535, R537, R545, R546): GO of REF_ROTATE rotates the slot's key, or sets REFUSED while it
may not; GO of REF_PURGE makes the slot PURGING, and the last page gone makes it FREE; LOCK ends debug level 1; profiling
starts with every present tenant's consent and ends with REQ 0. What is measured in MR8 and MR9 and that REQ reads 0 while
profiling is off are the model's choices (assumptions 195 and 206). -/
def Obligations.RefereeRegistersComplete : Prop :=
  (∀ (s : State) (v : Word) (r : RefSlot) (k : KeySlot), s.pwr.phase = .running → wordFld v 31 1 = 1 →
    let slot := wordFld v 0 16
    s.slot? slot = some r → Tbl.get? s.mem.keySlots slot = some k → rotateBusy s slot = false →
    Completes (.refRotateGo s.host.owner v) s (fun t => t.regFld R.refRotate 0 16 = slot ∧ t.regFld R.refRotate 30 1 = 0 ∧
      Tbl.get? t.mem.keySlots slot = some (if k.cur = 0 then { k with cur := 1, oldLive := true, switched := [], key1 := s.mem.nextKey }
        else { k with cur := 0, oldLive := true, switched := [], key0 := s.mem.nextKey }))) ∧
  (∀ (s : State) (v : Word) (r : RefSlot), s.pwr.phase = .running → wordFld v 31 1 = 1 → s.slot? (wordFld v 0 16) = some r →
    rotateBusy s (wordFld v 0 16) = true → Completes (.refRotateGo s.host.owner v) s (fun t =>
      t.regFld R.refRotate 30 1 = 1 ∧ t.mem = s.mem)) ∧
  (∀ (s : State) (v : Word) (r : RefSlot), s.Inv → s.pwr.phase = .running → wordFld v 31 1 = 1 → s.slot? (wordFld v 0 16) = some r →
    r.st = .bound → Completes (.purgeGo s.host.owner v) s (fun t => t.regFld R.refPurge 0 16 = wordFld v 0 16 ∧
      t.slot? (wordFld v 0 16) = some { r with st := .purging } ∧
      ∀ q ∈ t.ref.sessions, q.2.slot = wordFld v 0 16 → q.2.st = .closed)) ∧
  (∀ (s : State) (slot : Nat) (r : RefSlot), s.slot? slot = some r → r.st = .purging →
    (∀ p ∈ s.mem.pages, p.2.cls = 1 → p.2.index ≠ slot) → Completes (.slotPurgeDone slot) s (fun t =>
      t.slot? slot = none ∧ Tbl.get? t.mem.keySlots slot = none ∧ ∀ w ∈ t.mem.sweeps, w.slot ≠ slot)) ∧
  (∀ (s : State) (v : Word), s.pwr.phase = .running → wordFld v 0 1 = 1 → s.ref.debugLevel = 1 →
    Completes (.refDbgCtlLock s.host.owner v) s (fun t => t.ref.debugLevel = 0 ∧ t.regFld R.refStatus 3 2 = 0)) ∧
  (∀ (s : State) (v : Word), s.pwr.phase = .running → wordFld v 0 1 = 1 → s.ref.profiling = false →
    s.allPresent (·.profileOk) = true → Completes (.refProfCtlReq s.host.owner v) s (fun t =>
      t.ref.profiling = true ∧ t.regFld R.refProfCtl 0 1 = 1)) ∧
  (∀ (s : State) (v : Word), s.pwr.phase = .running → wordFld v 0 1 = 1 → s.ref.profiling = false →
    s.allPresent (·.profileOk) = false → Completes (.refProfCtlReq s.host.owner v) s (fun t => t.ref = s.ref)) ∧
  (∀ (s : State) (v : Word), s.pwr.phase = .running → wordFld v 0 1 = 0 → s.ref.profiling = true →
    Completes (.refProfCtlReq s.host.owner v) s (fun t => t.ref.profiling = false ∧ t.regFld R.refProfCtl 0 1 = 0))

/-- The debug port (R537, R538): a challenge shifts out 64 bytes and remembers them with the level; a response uses the nonce
up, reaches a level that may be granted when both signatures and the key block check, and is counted as a failure when they do not. -/
def Obligations.DebugPortCompletes : Prop :=
  (∀ (s : State) (level : Nat), s.pwr.phase = .running → s.ref.dbgFails < 16 → Completes (.dbgChallenge level) s (fun t =>
    ∃ block : List Byte, block.length = 64 ∧ t.host.out = s.host.out ++ [.tap block] ∧
      t.ref.nonce = some (level % 256, BitVec.ofNat 512 (ofBytes block)) ∧ block[32]? = some (BitVec.ofNat 8 level))) ∧
  (∀ (s : State) (level : Nat) (n : BitVec 512) (rsa slh block : List Byte), s.pwr.phase = .running → s.ref.dbgFails < 16 →
    s.ref.nonce = some (level, n) →
    let good := rsaVerify (block.take 384) ((block.drop 384).take 4) (bytesOf 64 n.toNat) rsa &&
      slhVerify ((block.drop 388).take 48) (bytesOf 64 n.toNat) slh && sha384 (block.take 436) == Config.debugKeyHash
    Completes (.dbgResponse rsa slh block) s (fun t => t.ref.nonce = none ∧
      t.ref.debugLevel = (if good && debugAllowed s level then level else s.ref.debugLevel) ∧
      t.ref.dbgFails = (if good then s.ref.dbgFails else s.ref.dbgFails + 1)))

/-- SPDM outside a session (R520, R526, R527): each request is answered once the one before it has been made; a key exchange
begins the first free session. SPDM inside a session (R526, R535): a verified FINISH establishes it; heartbeat, key update and
IDE key messages are answered; the end of the session removes it and leaves the tenant sessions alone. Request codes and
message bodies are those presumed from SPDM 1.3 (assumption 188). -/
def Obligations.SpdmCompletes : Prop :=
  (∀ (s : State) (p : Port) (body : List Byte), spdmOpen s →
    Completes (.getVersion p body) s (fun t => t.conn p = { s.conn p with version := true, capabilities := false, algorithms := false } ∧
      t.conn p.other = s.conn p.other ∧ spdmAnswers s p 0x84 t) ∧
    ((s.conn p).version = true → Completes (.getCapabilities p body) s (fun t =>
      t.conn p = { s.conn p with capabilities := true } ∧ spdmAnswers s p 0xE1 t)) ∧
    ((s.conn p).capabilities = true → Completes (.negotiateAlgorithms p body) s (fun t =>
      t.conn p = { s.conn p with algorithms := true } ∧ spdmAnswers s p 0xE3 t)) ∧
    ((s.conn p).algorithms = true →
      Completes (.getDigests p body) s (fun t => t = s.emit (.spdm p 0x81 0 (bytesOf 48 (sha384 s.certChain).toNat))) ∧
      (ofBytes (body.take 1) % 16 = 0 → Completes (.getCertificate p body) s (fun t => t = s.emit (.spdm p 0x82 0
        ((s.certChain.drop (ofBytes ((body.drop 2).take 2))).take (ofBytes ((body.drop 4).take 2)))))) ∧
      Completes (.challenge p body) s (spdmAnswers s p 0x83) ∧
      (ofBytes ((body.drop 1).take 1) ≤ 13 ∨ ofBytes ((body.drop 1).take 1) = 255 →
        Completes (.getMeasurements p body) s (spdmAnswers s p 0xE0)) ∧
      (∀ i, (List.range 64).find? (fun j => (Tbl.get? s.ref.spdm j).isNone) = some i →
        Completes (.keyExchange p body) s (fun t => spdmAnswers s p 0xE4 t ∧
          (∃ k, Tbl.get? t.ref.spdm i = some k ∧ k.port = p ∧ k.established = false ∧ k.tenantSession = 0) ∧
          ∀ j, j ≠ i → Tbl.get? t.ref.spdm j = Tbl.get? s.ref.spdm j)))) ∧
  (∀ (s : State) (p : Port) (i : Nat) (k : SpdmSession) (leaf : Digest), spdmOpen s → Tbl.get? s.ref.spdm i = some k →
    k.port = p → k.established = false → (Completes (.finish p i leaf true) s (fun t =>
      Tbl.get? t.ref.spdm i = some { k with established := true, leafHash := leaf } ∧ spdmAnswers s p 0xE5 t) ∧
    Completes (.finish p i leaf false) s (fun t => Tbl.get? t.ref.spdm i = none))) ∧
  (∀ (s : State) (p : Port) (i : Nat) (k : SpdmSession) (body : List Byte), spdmOpen s → Tbl.get? s.ref.spdm i = some k →
    k.port = p → k.established = true →
      Completes (.spdmHeartbeat p i body) s (fun t => t.ref = s.ref ∧ spdmAnswers s p 0xE8 t) ∧
      Completes (.keyUpdate p i body) s (fun t =>
        Tbl.get? t.ref.spdm i = some { k with keyGen := k.keyGen + 1 } ∧ spdmAnswers s p 0xE9 t) ∧
      Completes (.endSession p i body) s (fun t => Tbl.get? t.ref.spdm i = none ∧ t.ref.sessions = s.ref.sessions ∧
        t.host.contexts = s.host.contexts ∧ spdmAnswers s p 0xEC t) ∧
      (ofBytes (body.take 1) = 2 → ofBytes ((body.drop 1).take 1) < 8 → Completes (.ideKm p i body) s (fun t =>
        Tbl.get? (t.conn p).ideStreams (ofBytes ((body.drop 1).take 1)) =
          some (Tbl.getD (s.conn p).ideStreams (ofBytes ((body.drop 1).take 1)) 0 + 1) ∧ spdmAnswers s p 0xFE t)) ∧
      (ofBytes (body.take 1) ≠ 2 → ofBytes ((body.drop 1).take 1) < 8 → Completes (.ideKm p i body) s (fun t =>
        t.conn p = s.conn p ∧ spdmAnswers s p 0xFE t)))

/-- Binding and resuming a tenant session (R529 to R531, R534): a new tenant takes the lowest free slot and session, and a
tenant of a slot another session of it; the key encapsulation makes the session ACTIVE; a ticket resumes it. That the lowest
session number is given is the model's choice (assumption 192). -/
def Obligations.TenantBindingCompletes : Prop :=
  (∀ (s : State) (i n slot : Nat) (k : SpdmSession) (body : List Byte), spdmOpen s → Tbl.get? s.ref.spdm i = some k →
    k.established = true → s.ref.slots.find? (fun p => p.2.tenant == bodyNum body 0 4) = none → s.freeSession = some n →
    s.freeSlot = some slot → Completes (.tntBind i body) s (fun t =>
      (∃ q, Tbl.get? t.ref.sessions n = some q ∧ q.tenant = bodyNum body 0 4 ∧ q.slot = slot ∧ q.st = .binding ∧ q.grants = []) ∧
      (∃ r, t.slot? slot = some r ∧ r.tenant = bodyNum body 0 4 ∧ r.keyHash = k.leafHash ∧ r.present = false) ∧
      Tbl.get? t.ref.spdm i = some { k with tenantSession := n } ∧ tenantAnswers k.port 0x01 0 t)) ∧
  (∀ (s : State) (i n slot : Nat) (k : SpdmSession) (r : RefSlot) (body : List Byte), spdmOpen s →
    Tbl.get? s.ref.spdm i = some k → k.established = true →
    s.ref.slots.find? (fun p => p.2.tenant == bodyNum body 0 4) = some (slot, r) → r.keyHash = k.leafHash → r.st = .bound →
    s.freeSession = some n → Completes (.tntBind i body) s (fun t =>
      (∃ q, Tbl.get? t.ref.sessions n = some q ∧ q.tenant = bodyNum body 0 4 ∧ q.slot = slot ∧ q.st = .binding ∧ q.grants = []) ∧
      t.ref.slots = s.ref.slots ∧ Tbl.get? t.ref.spdm i = some { k with tenantSession := n } ∧ tenantAnswers k.port 0x01 0 t)) ∧
  (∀ (s : State) (i n : Nat) (k : SpdmSession) (q : Session) (r : RefSlot) (body : List Byte), tenantHere s i k n q r →
    q.st = .binding → Completes (.tntKem i body) s (fun t =>
      (∃ u, Tbl.get? t.ref.sessions n = some u ∧ u.st = .active ∧ u.slot = q.slot ∧ u.grants = q.grants) ∧
      tenantAnswers k.port 0x02 0 t)) ∧
  (∀ (s : State) (i n : Nat) (k : SpdmSession) (q : Session) (r : RefSlot) (body : List Byte), spdmOpen s →
    Tbl.get? s.ref.spdm i = some k → k.established = true → bodyNum body 0 4 = n → Tbl.get? s.ref.sessions n = some q →
    s.slot? q.slot = some r → r.keyHash = k.leafHash → q.st = .active ∨ q.st = .suspended →
    q.ticket = sha384 ((body.drop 4).take 16) → Completes (.resume i body) s (fun t =>
      (∃ u, Tbl.get? t.ref.sessions n = some u ∧ u.st = .active) ∧
      Tbl.get? t.ref.spdm i = some { k with tenantSession := n } ∧ tenantAnswers k.port 0x0A 0 t))

/-- Keys of a tenant (R504, R530, R532, R535, R537): a storage key is installed when it unwraps, and refused otherwise; a
generation revoked is gone from the slot; the page key is rotated; a purge makes the slot PURGING. Grants, the allow-
list, consent, reports and the close of a tenant session (R528, R533, R535 to R537). -/
def Obligations.TenantKeysAndSessionsComplete : Prop :=
  (∀ (s : State) (i n : Nat) (k : SpdmSession) (q : Session) (r : RefSlot) (body : List Byte), tenantHere s i k n q r →
    q.st ≠ .binding → r.skey0.1 < bodyNum body 0 4 → r.skey1.1 < bodyNum body 0 4 → installRefused s r = false →
    Completes (.skeyInstall i body) s (fun t =>
      match keyUnwrap (bytesOf 32 q.wrapKey.toNat) ((body.drop 4).take 40) with
      | none => t.ref = s.ref ∧ tenantAnswers k.port 0x03 0x0200 t
      | some key => tenantAnswers k.port 0x03 0 t ∧
          t.slot? q.slot = some { r.install (bodyNum body 0 4) (BitVec.ofNat 256 (ofBytes key)) with pkey := true })) ∧
  (∀ (s : State) (i n : Nat) (k : SpdmSession) (q : Session) (r : RefSlot) (body : List Byte), tenantHere s i k n q r →
    bodyNum body 0 4 ≠ 0 → r.skey0.1 = bodyNum body 0 4 → Completes (.skeyRevoke i body) s (fun t =>
      t.slot? q.slot = some { r with skey0 := (0, 0) } ∧ tenantAnswers k.port 0x04 0 t)) ∧
  (∀ (s : State) (i n : Nat) (k : SpdmSession) (q : Session) (r : RefSlot) (body : List Byte), tenantHere s i k n q r →
    bodyNum body 0 4 ≠ 0 → r.skey0.1 ≠ bodyNum body 0 4 → r.skey1.1 = bodyNum body 0 4 →
    Completes (.skeyRevoke i body) s (fun t =>
      t.slot? q.slot = some { r with skey1 := (0, 0) } ∧ tenantAnswers k.port 0x04 0 t)) ∧
  (∀ (s : State) (i n : Nat) (k : SpdmSession) (q : Session) (r : RefSlot) (e : KeySlot) (body : List Byte),
    tenantHere s i k n q r → rotateBusy s q.slot = false → r.pkey = true → Tbl.get? s.mem.keySlots q.slot = some e →
    Completes (.pkeyRotate i body) s (fun t => (∃ f, Tbl.get? t.mem.keySlots q.slot = some f ∧ f.cur ≠ e.cur ∧
      f.oldLive = true ∧ f.switched = []) ∧ tenantAnswers k.port 0x05 0 t)) ∧
  (∀ (s : State) (i n : Nat) (k : SpdmSession) (q : Session) (r : RefSlot) (body : List Byte), tenantHere s i k n q r →
    r.st = .bound → Completes (.purge i body) s (fun t => t.slot? q.slot = some { r with st := .purging } ∧
      tenantAnswers k.port 0x0C 0 t)) ∧
  (∀ (s : State) (i n : Nat) (k : SpdmSession) (q : Session) (r : RefSlot) (body : List Byte), tenantHere s i k n q r →
    (bodyNum body 0 1 ≤ 1 → bodyNum body 1 1 ≤ 63 → bodyNum body 2 2 ≠ 0 →
      q.grants.length < 16 ∨ q.grants.any (fun g => g.port == Port.ofNum (bodyNum body 0 1) && g.func == bodyNum body 1 1) = true →
      Completes (.grant i body) s (fun t => (∃ u, Tbl.get? t.ref.sessions n = some u ∧
        (⟨Port.ofNum (bodyNum body 0 1), bodyNum body 1 1, bodyNum body 2 2⟩ : Grant) ∈ u.grants ∧ u.st = q.st) ∧
        tenantAnswers k.port 0x06 0 t)) ∧
    (bodyNum body 0 1 ≤ 1 → bodyNum body 1 1 ≤ 63 → bodyNum body 2 2 = 0 → Completes (.grant i body) s (fun t =>
      (∃ u, Tbl.get? t.ref.sessions n = some u ∧ ∀ g ∈ u.grants,
        g.port = Port.ofNum (bodyNum body 0 1) → g.func ≠ bodyNum body 1 1) ∧ tenantAnswers k.port 0x06 0 t)) ∧
    (bodyNum body 0 1 ≤ 8 → Completes (.allow i body) s (fun t => (∃ u, Tbl.get? t.ref.sessions n = some u ∧
      u.allow = (List.range (bodyNum body 0 1)).map (fun j => BitVec.ofNat 384 (bodyNum body (1 + 48 * j) 48))) ∧
      tenantAnswers k.port 0x07 0 t)) ∧
    ((s.ref.debugLevel = 1 → r.debugOk = true → bitAt (bodyNum body 0 1) 0 = true) →
      Completes (.consent i body) s (fun t => t.slot? q.slot = some { r with
        debugOk := bitAt (bodyNum body 0 1) 0
        profileOk := bitAt (bodyNum body 0 1) 1
        withdrawnTs := if r.profileOk && !bitAt (bodyNum body 0 1) 1 then s.ts else r.withdrawnTs } ∧
        tenantAnswers k.port 0x08 0 t)) ∧
    Completes (.report i body) s (fun t => ∃ sig, t.host.out = s.host.out ++
      [.spdm k.port 0x09 0 (reportBody s (body.take 32) (some q) ++ sig)]) ∧
    Completes (.close i body) s (fun t => (∀ p ∈ t.ref.spdm, p.2.tenantSession ≠ n) ∧ tenantAnswers k.port 0x0B 0 t))

/-! Adapters and practice (R234 to R252, R271, R281 to R295). -/

/-- Adapter commands (R236 to R238, R250): a first load that passes its checks and finds room makes an entry LOADING, one of a
higher version loads beside the entry, and one of the same version is OK at once; the bytes that open make the entry RESIDENT,
or the higher version wait for its boundary; an unload without pins removes it; a revocation leaves no entry that it names in
another state than REVOKING. The directory query (R271): a write of LKR_QUERY_ID_HI starts the lookup with BUSY set, and its
end shows the entry. Which pages are taken is the model's choice (assumption 126). -/
def Obligations.AdapterAndDirectoryComplete : Prop :=
  (∀ (s : State) (c r : Nat) (a : Accepted) (h : BitVec 2048), s.oldest c r 0x30 = some a → loadFormatOk a.desc h = true →
    loadTenantOk s c (BlobHeader.ofBits h) = true → s.imageHeld (BlobHeader.ofBits h) = true →
    (s.skeyOf (BlobHeader.ofBits h).tenant (BlobHeader.ofBits h).skeyGen).isSome = true →
    s.dirEntry (fld a.desc 32 0 64) = none →
    (makeRoom (s.countLookup c (fld a.desc 32 0 64)) (BlobHeader.ofBits h).tenant (copyPages (BlobHeader.ofBits h).payload)
      true (BlobHeader.ofBits h).adapter).isSome = true →
    Completes (.adapterLoad c r (some h)) s (fun t =>
      (∃ e ∈ t.lkr.dir, e.adapter = fld a.desc 32 0 64 ∧ e.st = .loading ∧ e.version = (BlobHeader.ofBits h).version ∧
        e.tenant = (BlobHeader.ofBits h).tenant ∧ e.pins = 0 ∧ e.loadCtx = a.ctx) ∧
      ∃ l ∈ t.lkr.loads, l.adapter = fld a.desc 32 0 64 ∧ l.did = a.did ∧ l.higher = false)) ∧
  (∀ (s : State) (c r : Nat) (a : Accepted) (h : BitVec 2048) (e : DirEntry), s.oldest c r 0x30 = some a →
    loadFormatOk a.desc h = true → loadTenantOk s c (BlobHeader.ofBits h) = true → s.imageHeld (BlobHeader.ofBits h) = true →
    (s.skeyOf (BlobHeader.ofBits h).tenant (BlobHeader.ofBits h).skeyGen).isSome = true →
    s.dirEntry (fld a.desc 32 0 64) = some e →
    let s0 := s.countLookup c (fld a.desc 32 0 64)
    (existingEntry s0 e (BlobHeader.ofBits h) = none →
      (makeRoom s0 (BlobHeader.ofBits h).tenant (copyPages (BlobHeader.ofBits h).payload) false
        (BlobHeader.ofBits h).adapter).isSome = true →
      Completes (.adapterLoad c r (some h)) s (fun t =>
        ∃ l ∈ t.lkr.loads, l.adapter = fld a.desc 32 0 64 ∧ l.did = a.did ∧ l.higher = true ∧
          l.version = (BlobHeader.ofBits h).version)) ∧
    (existingEntry s0 e (BlobHeader.ofBits h) = some none →
      Completes (.adapterLoad c r (some h)) s (fun t => t = s0.finish a.did stOk))) ∧
  (∀ (s : State) (id : Nat) (l : AdapterLoad) (data plain : List Byte),
    s.lkr.loads.find? (fun l => l.adapter == id) = some l → l.higher = true →
    data.length = (BlobHeader.ofBits l.header).payload + 16 → s.openBlob l.header data = some plain →
    Completes (.adapterLoadComplete id (some data)) s (fun t => (∀ x ∈ t.lkr.loads, x.adapter ≠ id) ∧ t.lkr.dir = s.lkr.dir ∧
      ∃ w ∈ t.lkr.waiting, w.adapter = id ∧ w.version = l.version ∧ w.pages = l.pages)) ∧
  (∀ (s : State) (id : Nat) (l : AdapterLoad) (e : DirEntry) (data : List Byte),
    s.lkr.loads.find? (fun l => l.adapter == id) = some l → l.higher = false → s.dirEntry id = some e →
    data.length = (BlobHeader.ofBits l.header).payload + 16 →
    Completes (.adapterLoadComplete id (some data)) s (fun t => (∀ x ∈ t.lkr.loads, x.adapter ≠ id) ∧
      t.dirEntry id = match s.openBlob l.header data with
        | some _ => some { e with st := .resident }
        | none => none)) ∧
  (∀ (s : State) (c r : Nat) (a : Accepted) (e : DirEntry), s.oldest c r 0x31 = some a → removeFormatOk a.desc false = true →
    s.tenantOfCtx c = some (fld a.desc 40 0 32) → s.dirEntry (fld a.desc 32 0 64) = some e → e.tenant = fld a.desc 40 0 32 →
    e.st = .resident → s.versionPending (fld a.desc 32 0 64) = false → e.pins = 0 →
    Completes (.adapterUnload c r) s (fun t => t.dirEntry (fld a.desc 32 0 64) = none ∧
      ∀ p ∈ e.pages, Tbl.get? t.mem.pages p = none)) ∧
  (∀ (s : State) (c r : Nat) (a : Accepted), s.oldest c r 0x32 = some a → removeFormatOk a.desc true = true →
    (fld a.desc 44 0 1 = 1 → fld a.desc 32 0 64 = 0) → mayRevoke s c (fld a.desc 40 0 32) = true →
    Completes (.adapterRevoke c r) s (fun t => ∀ e ∈ t.lkr.dir, e.tenant = fld a.desc 40 0 32 →
      fld a.desc 44 0 1 = 1 ∨ e.adapter = fld a.desc 32 0 64 → e.st = .revoking)) ∧
  (∀ (s : State) (p : Port) (v : Word), s.Inv → s.pwr.phase = .running → Completes (.lkrQuery p v) s (fun t =>
    t.lkr = { s.lkr with queryBusy := true, queryId := (s.regAt R.lkrQueryIdLo).toNat + 2 ^ 32 * v.toNat } ∧
    t.regFld R.lkrQueryStatus 3 1 = 1 ∧ t.host = s.host)) ∧
  (∀ (s : State) (e : DirEntry), s.Inv → s.lkr.queryBusy = true → s.dirEntry s.lkr.queryId = some e → Completes .lkrQueryDone s
    (fun t => t.lkr = { s.lkr with queryBusy := false } ∧ t.regFld R.lkrQueryStatus 0 3 = e.st.code ∧
      t.regFld R.lkrQueryStatus 3 1 = 0 ∧ t.regFld R.lkrQueryStatus 8 24 = min e.pins 0xFFFFFF ∧
      t.regAt R.lkrQueryVersion = BitVec.ofNat 32 e.version)) ∧
  (∀ s : State, s.Inv → s.lkr.queryBusy = true → s.dirEntry s.lkr.queryId = none → Completes .lkrQueryDone s
    (fun t => t.lkr = { s.lkr with queryBusy := false } ∧ t.regAt R.lkrQueryStatus = 0 ∧ t.regAt R.lkrQueryVersion = 0))

/-- Practice records (R281, R283, R285, R287): an OPEN that passes its checks and finds room makes a record of its context and
program; one of a context that does not own the record ends at once. Steps, exports, closes and commit copies of practice
records (R287, R289, R291, R294, R295). Which pages are taken is the model's choice (assumption 126). -/
def Obligations.PracticeCompletes : Prop :=
  (∀ (s : State) (c r n : Nat) (a : Accepted) (e : DirEntry) (i : Image) (g : Program), s.oldest c r 0x40 = some a →
    s.record? (fld a.desc 16 0 64) = none → s.dirEntry (fld a.desc 16 0 64) = some e →
    s.programOf (fld a.desc 40 0 16) = some (n, i, g) → i.unloading = false → openFieldsOk a.desc = true →
    hyperOk g.optMode a.desc = true → openEntryOk s c i g e = true → fld a.desc 42 0 1 = 0 →
    let bytes := stateImageBytes g.parts g.optMode (paramCount e.layers e.plen e.dKv)
    bytes ≤ 2 ^ 30 → s.lkr.records.length < 4096 →
    (makeRoom s e.tenant (2 * e.pages.length + 2 * ceilDiv bytes pageBytes) false (fld a.desc 16 0 64)).isSome = true →
    Completes (.practiceOpen c r none) s (fun t => ∃ q, t.record? (fld a.desc 16 0 64) = some q ∧ q.ctx = c ∧
      q.program = g.programId ∧ q.imageId = i.imageId ∧ q.current = 0 ∧ q.lastStep = 0 ∧ q.commit = none ∧ q.closing = none ∧
      q.exports = [] ∧ q.pinned = true)) ∧
  (∀ (s : State) (c r n : Nat) (a : Accepted) (e : DirEntry) (i : Image) (g : Program) (blob plain : List Byte),
    s.oldest c r 0x40 = some a → s.record? (fld a.desc 16 0 64) = none → s.dirEntry (fld a.desc 16 0 64) = some e →
    s.programOf (fld a.desc 40 0 16) = some (n, i, g) → i.unloading = false → openFieldsOk a.desc = true →
    hyperOk g.optMode a.desc = true → openEntryOk s c i g e = true → fld a.desc 42 0 1 = 1 →
    let bytes := stateImageBytes g.parts g.optMode (paramCount e.layers e.plen e.dKv)
    bytes ≤ 2 ^ 30 → s.lkr.records.length < 4096 → openState s a.desc e g bytes blob = .ok plain →
    (makeRoom (s.countGcm c (fld a.desc 16 0 64) bytes) e.tenant (2 * e.pages.length + 2 * ceilDiv bytes pageBytes) false
      (fld a.desc 16 0 64)).isSome = true →
    Completes (.practiceOpen c r (some blob)) s (fun t => ∃ q, t.record? (fld a.desc 16 0 64) = some q ∧ q.ctx = c ∧
      q.program = g.programId ∧ q.imageId = i.imageId ∧ q.current = 0 ∧ q.lastStep = 0)) ∧
  (∀ (s : State) (c r : Nat) (a : Accepted) (q : Record) (blob : Option (List Byte)), s.oldest c r 0x40 = some a →
    s.record? (fld a.desc 16 0 64) = some q → Completes (.practiceOpen c r blob) s (fun t =>
      t = s.finish a.did (if q.ctx = c then 0x0200 else 0x0201))) ∧
  (∀ (s : State) (c r n : Nat) (a : Accepted) (i : Image) (g : Program), s.oldest c r 0x41 = some a →
    s.programOf (fld a.desc 40 0 16) = some (n, i, g) → stepStatus s c a.desc i g = none →
    Completes (.practiceStep c r) s (fun t => t.ump.stepNo = (s.ump.stepNo + 1) % 2 ^ 64 ∧
      ∃ p, t.ump.steps = s.ump.steps ++ [p] ∧ p.did = a.did ∧ p.ctx = c ∧ p.no = (s.ump.stepNo + 1) % 2 ^ 64 ∧
        p.program = g.programId ∧ p.seed = fld a.desc 16 0 64 ∧ p.segment = 0)) ∧
  (∀ (s : State) (c r : Nat) (a : Accepted) (q : Record) (e : DirEntry), s.oldest c r 0x42 = some a →
    s.record? (fld a.desc 16 0 64) = some q → s.dirEntry (fld a.desc 16 0 64) = some e → q.ctx = c → fld a.desc 8 0 32 = 1 →
    fld a.desc 40 1 191 = 0 → 256 + exportBytes q e (fld a.desc 40 0 1 == 1) + 16 ≤ fld a.desc 32 0 64 →
    Completes (.practiceExport c r) s (fun t => t.record? (fld a.desc 16 0 64) =
      some { q with exports := q.exports ++ [(a.did, fld a.desc 40 0 1 == 1)] })) ∧
  (∀ (s : State) (id gen : Nat) (key : BitVec 256) (q : Record) (e : DirEntry) (did : Nat) (isState written : Bool)
    (rest : List (Nat × Bool)) (a : Accepted), s.record? id = some q → s.dirEntry id = some e →
    q.exports = (did, isState) :: rest → s.stepRunning id = false → s.newestKey e.tenant = some (gen, key) →
    s.acc? did = some a → Completes (.practiceExportDone (id, written)) s (fun t =>
      t.record? id = some { q with exports := rest } ∧
      ∃ blob, Output.hostWrite q.ctx (fld a.desc 24 0 64) blob a.pasid ∈ t.host.out)) ∧
  (∀ (s : State) (c r : Nat) (a : Accepted) (q : Record), s.oldest c r 0x43 = some a →
    s.record? (fld a.desc 16 0 64) = some q → q.ctx = c → fld a.desc 8 0 32 = 1 → fld a.desc 24 0 320 = 0 → q.closing = none →
    Completes (.practiceClose c r) s (fun t => t.record? (fld a.desc 16 0 64) = some { q with closing := some a.did })) ∧
  (∀ (s : State) (id did : Nat) (q : Record), s.record? id = some q → q.closing = some did → q.commit = none →
    q.exports = [] → (∀ p ∈ s.ump.steps, id ∉ p.adapters) → Completes (.practiceCloseDone id) s (fun t => t.record? id = none)) ∧
  (∀ (s : State) (id no : Nat) (q : Record) (e : DirEntry), s.record? id = some q → s.dirEntry id = some e →
    q.commit = some ⟨no, none⟩ →
    (∀ w, s.ump.work = some w → w.practice = true → ∀ p ∈ s.ump.steps, p.did = w.did → id ∉ p.adapters) → Completes (.commitCopyDone id) s (fun t =>
      t.record? id = some { q with commit := some ⟨no, some s.ts⟩ } ∧ t.lkr.dir = s.lkr.dir))

/-! Schedules and serves (R307, R308, R465). -/

/-- SCHED_LOAD, SCHED_UNLOAD and SERVE (R307, R308, R465): an image that passes its checks is held in its slot, one without
records begins to unload and leaves its slot when nothing names it, and a SERVE that passes R308 is ready. -/
def Obligations.SchedulesAndServesComplete : Prop :=
  (∀ (s : State) (c r : Nat) (a : Accepted) (src : ImageSrc), s.oldest c r 0x51 = some a → fld a.desc 8 0 32 = 1 →
    fld a.desc 32 3 253 = 0 → 4096 ≤ fld a.desc 24 0 64 → fld a.desc 24 0 64 ≤ 268435456 →
    Tbl.get? s.ump.images (fld a.desc 32 0 3) = none → s.imageOf src.imageId = none → imageOk s src = true →
    Completes (.schedLoad c r (some src)) s (fun t =>
      Tbl.get? t.ump.images (fld a.desc 32 0 3) = some (imageOfSrc src) ∧
      ∀ j, j ≠ fld a.desc 32 0 3 → Tbl.get? t.ump.images j = Tbl.get? s.ump.images j)) ∧
  (∀ (s : State) (c r : Nat) (a : Accepted) (i : Image), s.oldest c r 0x52 = some a → fld a.desc 8 0 32 = 1 →
    fld a.desc 16 0 128 = 0 → fld a.desc 32 3 253 = 0 → Tbl.get? s.ump.images (fld a.desc 32 0 3) = some i →
    i.unloading = false → (∀ q ∈ s.lkr.records, q.imageId ≠ i.imageId) → Completes (.schedUnload c r) s (fun t =>
      Tbl.get? t.ump.images (fld a.desc 32 0 3) = some { i with unloading := true, unloadDid := some a.did } ∧
      t.host.out = s.host.out)) ∧
  (∀ (s : State) (slot : Nat) (i : Image), Tbl.get? s.ump.images slot = some i → i.unloading = true →
    (∀ a ∈ s.host.accepted, namesImage s slot i a = false) → Completes (.schedUnloadDone slot) s (fun t =>
      Tbl.get? t.ump.images slot = none ∧ (∀ f ∈ t.wst.fences, f.imgSlot ≠ slot) ∧ ∀ f ∈ t.err.fencedSchedules, f.1 ≠ slot)) ∧
  (∀ (s : State) (c r : Nat) (a : Accepted), s.oldest c r 0x20 = some a → serveStatus s a = none →
    Completes (.serve c r) s (fun t => ∃ seed, t.ump.ready = s.ump.ready ++ [readyOf a s.ts seed] ∧ t.host.out = s.host.out))

/-! Slots (R25, R29, R338 to R355, R404). -/

/-- The slot end (R29, R341, R342): work still running overruns its slot and is counted; with nothing to run and nothing to
report an idle slot follows at once; while new work is held none follows (R562). A command at a stated instant sets the
timestamp to it (assumption 13). -/
def Obligations.SlotEndCompletes : Prop :=
  (∀ (s : State) (u : Slot) (w : Work), s.Inv → s.ump.slot = some u → s.err.faults = [] → u.boundaryDone = true →
    s.ump.work = some w → s.ump.overrun = none → Completes .slotEnd s (fun t => t.ts = max s.ts u.slotEnd ∧
      t.ump.work = some w ∧ t.ump.slot = some u ∧ t.ump.overrun = some (w.ctx, w.stepNo, u.slotEnd) ∧
      t.regAt R.umpOverrunCount = s.regAt R.umpOverrunCount + 1)) ∧
  (∀ (s : State) (u : Slot), s.ump.slot = some u → s.err.faults = [] → s.err.hold = false → s.err.deviceFault = false →
    u.boundaryDone = true → s.ump.work = none → s.ump.done = [] → s.ump.steps = [] → s.ump.ready = [] → s.ump.overrun = none →
    s.host.completions = [] → s.host.events = [] → s.rdc.step = none → s.pwr.request = none → u.kind = .idle →
    Completes .slotEnd s (fun t => s.ts ≤ t.ts ∧ t.ump.work = none ∧ t.ump.overrun = none ∧
      ∃ v, t.ump.slot = some v ∧ v.start = u.slotEnd ∧ v.serve = none ∧ v.boundaryDone = false)) ∧
  (∀ (s : State) (u : Slot), s.ump.slot = some u → s.err.faults = [] → s.err.hold = true → s.ump.work = none → s.ump.done = [] →
    s.ump.steps = [] → s.host.completions = [] → s.host.events = [] → s.rdc.step = none → s.pwr.request = none →
    Completes .slotEnd s (fun t => s.ts ≤ t.ts ∧ t.ump.slot = none ∧ t.ump.work = none ∧ t.ump.ready = s.ump.ready))

/-- The other commands of the slot timeline (R25, R341, R344, R347, R351, R354, R355, R404): a boundary is done once; a group
slot begins a group step; a window ends with its job missed and counted, while new work is held too; work past its limit, and
the work a substitution names, stops; a substitution without GO only stores the context. A command at a stated instant sets
the timestamp to it (assumption 13). -/
def Obligations.SlotTimelineCompletes : Prop :=
  (∀ (s : State) (u : Slot), s.ump.slot = some u → u.boundaryDone = false → s.halted = false → stepBegun s u = true →
    Completes .serveBoundary s (fun t => ∀ v, t.ump.slot = some v → v.boundaryDone = true)) ∧
  (∀ (s : State) (i : Nat) (e : RsvEntry), s.rsvEntry i = some e → e.group = true → s.pwr.phase = .running →
    let start := groupStart s e ((s.rsvRun i).taken.elim 0 (· + 1))
    Completes (.groupSlotStart i) s (fun t => t.ts = max s.ts start ∧ t.rdc.gstep = (s.rdc.gstep + 1) % 2 ^ 64 ∧
      (t.rsvRun i).taken = some start ∧ ∃ g, t.rdc.step = some g ∧ g.entry = e.index ∧ g.start = start ∧ g.hasWork = false)) ∧
  (∀ (s : State) (i k : Nat) (ks : List Nat) (e : RsvEntry),
    let x := if s.err.hold then s.noteJobs s.ts else s
    s.rsvEntry i = some e → (x.rsvRun i).windows = k :: ks →
    Completes (.rsvWindowEnd i) s (fun t => t.ts = max s.ts (windowEnd s e k) ∧ (t.rsvRun i).windows = ks ∧
      t.regAt R.umpRsvMissCount = s.regAt R.umpRsvMissCount + 1)) ∧
  (∀ (s : State) (u : Slot) (w : Work) (o : Nat × Nat × Nat), s.ump.slot = some u → s.ump.work = some w →
    s.ump.overrun = some o → Completes .overrunLimit s (fun t => t.ump.work = none ∧ t.ts = max s.ts (u.start + 2 * u.len))) ∧
  (∀ (s : State) (p : Port) (v : Word) (w : Work), s.pwr.phase = .running → s.ump.work = some w → wordFld v 0 16 = w.ctx →
    w.ctx ≠ 0 → w.ctx ≤ 4095 → wordFld v 31 1 = 1 → Completes (.urgentSubstitution p v) s (fun t =>
      t.ump.work = none ∧ t.ts = s.ts)) ∧
  (∀ (s : State) (p : Port) (v : Word), s.pwr.phase = .running → wordFld v 31 1 = 0 →
    Completes (.urgentSubstitution p v) s (fun t => t.regFld R.umpSubst 0 16 = wordFld v 0 16 ∧ t.ump = s.ump ∧ t.ts = s.ts))

/-- The starts and ends of work (R31, R321, R350): a segment that fits starts with its streams; work whose programs have ended
leaves the array, which is at reset, and waits for the slot end; a group slot starts the group segment of its entry (R403). -/
def Obligations.WorkStartsAndEndsComplete : Prop :=
  (∀ (s : State) (u : Slot) (c b : Nat) (d : Drr) (p : PStep) (x : Segment) (g : Program) (i : Image), s.ump.slot = some u →
    u.boundaryDone = true → s.halted = false → s.ump.work = none → s.ump.overrun = none → s.ts < u.slotEnd →
    stepBegun s u = true → groupSegment s u = none → s.pickSegment (u.slotEnd - s.ts) = (some c, d) →
    nextSegment s false c = some (p, x) → programAt s p = some g → Tbl.get? s.ump.images p.imgSlot = some i →
    segmentBank s p g x = some b → Completes .segmentStart s (fun t => (∃ w, t.ump.work = some w ∧ w.did = p.did ∧
      w.ctx = p.ctx ∧ w.stepNo = p.no ∧ w.start = s.ts ∧ w.seed = p.seed ∧ w.practice = true) ∧ t.eng = .reset ∧
      ∃ r, t.wst.stream = some r ∧ r.entries = x.streams ∧ r.bank = b ∧ r.started = 0 ∧ r.completed = 0)) ∧
  (∀ (s : State) (u : Slot) (b : Nat) (p : PStep) (x : Segment) (g : Program) (i : Image), s.ump.slot = some u →
    u.boundaryDone = true → s.halted = false → s.ump.work = none → s.ump.overrun = none → s.ts < u.slotEnd →
    stepBegun s u = true → groupSegment s u = some (p, x) → programAt s p = some g → Tbl.get? s.ump.images p.imgSlot = some i →
    segmentBank s p g x = some b → Completes .segmentStart s (fun t => ∃ w, t.ump.work = some w ∧ w.did = p.did ∧
      w.ctx = p.ctx ∧ w.start = s.ts ∧ w.practice = true)) ∧
  (∀ (s : State) (w : Work), s.ump.work = some w → w.practice = true → enginesDone s w = true →
    Completes .segmentEnd s (fun t => t.ump.work = none ∧ t.ump.done = s.ump.done ++ [{ w with ended := some s.ts }] ∧
      t.eng = .reset ∧ t.wst.stream = none)) ∧
  (∀ (s : State) (w : Work), s.ump.work = some w → w.practice = false → enginesDone s w = true → writebacksDone s w = true →
    Completes .serveEnd s (fun t => t.ump.work = none ∧ t.ump.done = s.ump.done ++ [{ w with ended := some s.ts }] ∧
      t.eng = .reset ∧ t.wst.stream = none ∧ t.ump.ready = s.ump.ready))

/-! Layer streams, gathers and write-backs (R27, R210, R256, R257, R321). -/

/-- Layer streams and layers (R27, R210, R213): with no shard lost the next entry starts, with lost ones they are fetched from
the mirror peer, and it completes once all are fetched; when a layer's compute ends, the next starts where it is in place with
its gathers done, and waits otherwise. Prefix gathers and KV write-backs (R256, R257, R321). That LAYER_COMPUTE_START tells of
the compute's end is the model's choice (assumption 81). -/
def Obligations.LayersAndGathersComplete : Prop :=
  (∀ (s : State) (r : StreamRun) (e : StreamEntry) (w : Work), s.wst.stream = some r → s.ump.work = some w →
    r.entries[r.started]? = some e → r.mayStart = true → s.entryLost r e = [] → Completes .layerStreamStart s (fun t =>
      t = s.setStream { r with started := r.started + 1 })) ∧
  (∀ (s : State) (r : StreamRun) (e : StreamEntry) (w : Work), s.wst.stream = some r → s.ump.work = some w →
    r.entries[r.started]? = some e → r.mayStart = true → s.mirrorOn = true → Completes .layerStreamStart s (fun t =>
      t.wst.stream = some { r with started := r.started + 1 } ∧ t.ump.work = some w ∧
      t.wst.fetches.length = s.wst.fetches.length + (s.entryLost r e).length)) ∧
  (∀ (s : State) (r : StreamRun) (e : StreamEntry) (w : Work), s.wst.stream = some r → s.ump.work = some w →
    r.entries[r.completed]? = some e → r.completed < r.started →
    (s.entryLost r e).all (fun x => r.fetched.contains (r.completed, x)) = true → Completes .streamEntryComplete s
      (fun t => t.wst.stream = some { r with completed := r.completed + 1 })) ∧
  (∀ (s : State) (r : StreamRun) (w : Work), s.wst.stream = some r → s.ump.work = some w → r.computeStarted < r.completed →
    gathersOpen s w r.computeStarted = [] → Completes .layerComputeStart s (fun t =>
      t = s.setStream { r with computeEnded := r.computeStarted, computeStarted := r.computeStarted + 1 })) ∧
  (∀ (s : State) (r : StreamRun) (w : Work), s.wst.stream = some r → s.ump.work = some w → r.completed ≤ r.computeStarted →
    Completes .layerComputeStart s (fun t => t = s.setStream { r with computeEnded := r.computeStarted })) ∧
  (∀ (s : State) (die : Nat) (r : StreamRun) (w : Work) (i : Image), s.wst.stream = some r → s.ump.work = some w → die < 16 →
    (s.prefixOf w).isSome = true → (s.gatherOf die).started = (s.gatherOf die).completed →
    Tbl.get? s.ump.images w.imgSlot = some i → (s.gatherOf die).started < i.layers →
    r.released (s.gatherOf die).started = true →
    Completes (.prefixGatherStart die) s (fun t =>
      t = s.setGather die { s.gatherOf die with started := (s.gatherOf die).started + 1 })) ∧
  (∀ (s : State) (die : Nat) (r : StreamRun) (w : Work), s.wst.stream = some r → s.ump.work = some w →
    (s.prefixOf w).isSome = true → (s.gatherOf die).started ≠ (s.gatherOf die).completed →
    Completes (.prefixGatherComplete die) s (fun t => t.gatherOf die =
      { s.gatherOf die with completed := (s.gatherOf die).completed + 1 })) ∧
  (∀ (s : State) (die layer : Nat) (w : Work) (k : ServeClass) (r : ReadyServe), s.ump.work = some w → classRun s w = some k →
    s.ump.ready.find? (fun r => r.did == w.did) = some r → w.practice = false → (steppingDies s w).contains die = true →
    (w.writeback die).1 = layer → layer < releasedLayers s w → Completes (.kvWriteback die layer) s (fun t =>
      ∃ v, t.ump.work = some v ∧ v.writeback die = (layer + 1, (w.writeback die).2) ∧ v.did = w.did)) ∧
  (∀ (s : State) (die layer : Nat) (w : Work) (k : ServeClass), s.ump.work = some w → classRun s w = some k →
    w.practice = false → (w.writeback die).2 = layer → layer < (w.writeback die).1 →
    Completes (.kvWritebackDone die layer) s (fun t =>
      ∃ v, t.ump.work = some v ∧ v.writeback die = ((w.writeback die).1, layer + 1) ∧ v.did = w.did))

/-! The weight store (R198 to R216, R464). -/

/-- Loads (R199, R201, R204, R223, R464): LOAD_START takes its target, or is refused while a load runs or the target is busy;
an abort and a source that is silent for a minute fail the running load; a piece of the preamble from a port and the first piece
from the boot flash move it on. -/
def Obligations.LoadCommandsComplete : Prop :=
  (∀ (s : State) (p : Port) (v : Word) (src : LoadSource), s.Inv → s.pwr.phase = .running → wordFld v 0 1 = 1 →
    loadSourceOf s (wordFld v 2 3) = some src → s.wst.load = none → s.bankBusy (wordFld v 5 1) = false →
    Completes (.loadStart p v) s (fun t => t.wst.load = some (freshLoad (wordFld v 5 1) s.ts s.readyPair src) ∧
      (t.bank (wordFld v 5 1)).st = .writing ∧ t.regAt R.wstLoadStatus = 1)) ∧
  (∀ (s : State) (p : Port) (v : Word) (src : LoadSource), s.pwr.phase = .running → wordFld v 0 1 = 1 →
    loadSourceOf s (wordFld v 2 3) = some src → s.wst.load.isSome || s.bankBusy (wordFld v 5 1) →
    Completes (.loadStart p v) s (fun t => t.wst = s.wst ∧ t.regFld R.wstLoadStatus 3 4 = wsBusyTarget)) ∧
  (∀ (s : State) (p : Port) (v : Word) (l : WsLoad), s.pwr.phase = .running → wordFld v 1 1 = 1 → s.wst.load = some l →
    Completes (.loadAbort p v) s (fun t => t.wst.load = none ∧ (∀ b ∈ l.taken, (t.bank b).st = .failed) ∧
      t.regFld R.wstLoadStatus 0 3 = 3 ∧ t.regFld R.wstLoadStatus 3 4 = wsAborted)) ∧
  (∀ (s : State) (l : WsLoad), s.wst.load = some l → Completes .loadSourceTimeout s (fun t => t.wst.load = none ∧
    (∀ b ∈ l.taken, (t.bank b).st = .failed) ∧ t.ts = max s.ts (l.progressTs + 60000000000) ∧
    t.regFld R.wstLoadStatus 0 3 = 3 ∧ t.regFld R.wstLoadStatus 3 4 = wsSourceLost)) ∧
  (∀ (s : State) (c r so : Nat) (a : Accepted) (l : WsLoad) (x : Context), s.oldest c r 0x50 = some a →
    fld a.desc 8 0 32 = 1 → fld a.desc 36 0 224 = 0 → fld a.desc 24 0 64 % 65536 = 0 → fld a.desc 32 0 32 % 256 = 0 →
    fld a.desc 32 0 32 ≠ 0 → fld a.desc 32 0 32 ≤ 67108864 → a.slotsOk = true → s.wst.load = some l → l.source = .portA →
    s.ctx? c = some x → x.port = .a → l.shardOff = some so → l.nextA = fld a.desc 16 0 64 →
    let data := s.winRead c (fld a.desc 24 0 64) (fld a.desc 32 0 32)
    l.nextA + data.length ≤ so → data ≠ [] → Completes (.wsLoad c r) s (fun t => t.wst.load = some { l with
      preamble := l.preamble.writeBytes l.nextA data
      received := l.nextA + data.length
      progressTs := s.ts
      nextA := l.nextA + data.length })) ∧
  (∀ (s : State) (l : WsLoad) (es : List (Nat × Nat × Nat × Nat)), s.wst.load = some l → bundleEntries s.pwr.flash = some es →
    l.source = .flash → s.pwr.flashSel = false → es.any (fun e => e.1 == 4) = true → l.received = 0 → l.preamble = [] →
    let base := (itemOf es 4).1
    let len := (itemOf es 4).2
    let header : Memory := Memory.writeBytes [] 0 (s.pwr.flash.readBytes base 128)
    let n := if headerOk header then min (headerShardOff header) len else min 128 len
    Completes .spiNorShardRead s (fun t => ∃ m, t.wst.load = some m ∧ m.nextA = n ∧ m.received = n))

/-- Verification and writing of a load (R198, R202): a preamble that verifies gives the load its manifest and one that does
not fails it with its reason; a block that passes program-verify places its shard, and the last one makes the banks READY; one
that fails once is written again, and one that fails twice is BAD. The pass chain of a load (R205 to R207): preamble bytes of
the predecessor are taken in, a shard of the window is sent again, and the operator is asked for one that is gone. That a
shard waits for the lower ones of its die is read from R191 and R202 (assumption 223). -/
def Obligations.LoadProgressCompletes : Prop :=
  (∀ (s : State) (l : WsLoad), s.wst.load = some l → l.manifest = none → l.preambleThere = true → l.unchecked = [] →
    Completes .preambleVerify s (fun t => match verifyPreamble l.preamble s.pwr.owners with
      | .error reason => t.wst.load = none ∧ ∀ b ∈ l.taken, (t.bank b).st = .failed ∧
          (reason < 16 → t.regFld R.wstLoadStatus 3 4 = reason)
      | .ok (f, leaves, layout) =>
        let v : WsLoad := { l with manifest := some f, layout := layout }
        let takes := ∃ m, t.wst.load = some m ∧ m.manifest = some f ∧ m.leaves = leaves ∧ m.layout = layout
        (t.wst.load = none ∨ takes) ∧ (f.full = false → (∀ d < 16, ((List.range f.shards).filter (fun x =>
          v.dieOf x == d)).length ≤ goodBlocks s v d) → takes))) ∧
  (∀ (s : State) (l : WsLoad) (w : ShardWrite) (f : Manifest), s.wst.load = some l → l.writing = some w → l.waiting = [] →
    l.manifest = some f → l.place.length + 1 < f.shards → Completes (.shardWriteDone true) s (fun t =>
      t.wst.load = some { l with
        writing := none
        place := l.place ++ [⟨w.shard, l.dieOf w.shard, w.bank, w.block⟩]
        progressTs := s.ts } ∧ t.mem = s.mem)) ∧
  (∀ (s : State) (l : WsLoad) (w : ShardWrite) (f : Manifest), s.wst.load = some l → l.writing = some w → l.target < 2 →
    l.manifest = some f → f.shards ≤ l.place.length + 1 → Completes (.shardWriteDone true) s (fun t =>
      t.wst.load = none ∧ ∀ b ∈ l.banks, (t.bank b).st = .ready ∧ (t.bank b).imageId = f.imageId ∧
        (t.bank b).place = l.place ++ [⟨w.shard, l.dieOf w.shard, w.bank, w.block⟩])) ∧
  (∀ (s : State) (l : WsLoad) (w : ShardWrite), s.wst.load = some l → l.writing = some w → w.fails = 0 →
    Completes (.shardWriteDone false) s (fun t => t = (s.putShard w (l.dieOf w.shard)).modLoad (fun l =>
      { l with writing := some { w with fails := 1 } }))) ∧
  (∀ (s : State) (l : WsLoad) (w : ShardWrite), s.wst.load = some l → l.writing = some w → w.fails ≠ 0 →
    Completes (.shardWriteDone false) s (fun t => t.blockCode (blockKey (l.dieOf w.shard) w.bank w.block) = 1)) ∧
  (∀ (s : State) (k : InboxPacket) (l : WsLoad) (i so : Nat), s.inbox? (isChain s 0x20) = some k → s.wst.load = some l →
    l.source = .chain → s.chainIn.idxOf? k.port = some i → k.packet.seq = preambleSeq → l.manifest = none →
    l.shardOff = some so → k.packet.data ≠ [] → l.received + k.packet.data.length ≤ so → Completes .loadData s (fun t =>
      t.wst.load = some { l with
        preamble := l.preamble.writeBytes l.received k.packet.data
        received := l.received + k.packet.data.length
        progressTs := s.ts })) ∧
  (∀ (s : State) (k : InboxPacket) (w : Nat × List Byte), s.inbox? (isChain s 0x21) = some k →
    s.wst.window.find? (fun w => w.1 == k.packet.seq) = some w → Completes .loadResend s (fun t =>
      t = (s.takeInbox (isChain s 0x21)).sendLoad k.packet.src k.packet.seq w.2)) ∧
  (∀ (s : State) (k : InboxPacket) (l : WsLoad), s.inbox? (isChain s 0x22) = some k → s.wst.load = some l →
    k.packet.seq ∈ l.resends → Completes .loadGone s (fun t => ∃ m, t.wst.load = some m ∧ k.packet.seq ∉ m.resends ∧
      Tbl.get? m.needs k.packet.seq = some (Tbl.getD l.needs k.packet.seq 0 + 1)))

/-- Lines that cannot be read and mirror fetches (R212 to R216): a line good on a re-read is counted, with the codewords
corrected in it, and nothing is lost; one that stays bad makes its block FENCED; a peer's request is answered in packets of
4,080 bytes, and a fetched shard grows by each; a fetch that is late is given up; a drain's limit passes. The byte layout of
READ_REQ and READ_RSP is the model's choice (assumption 107). -/
def Obligations.LostShardsComplete : Prop :=
  (∀ (s : State) (die block line b shard entry : Nat) (first second : List Byte), s.Inv →
    streamingShard s die block = some (b, shard, entry) →
    (lineReadable first = true ∨ lineReadable second = true → Completes (.wsLineReread die block line first second) s
      (fun t => t.regAt R.wstRetry = s.regAt R.wstRetry + 1 ∧ t.wst = s.wst ∧ t.regAt R.memCe = s.regAt R.memCe +
        BitVec.ofNat 32 (lineCorrected (if lineReadable first then first else second)))) ∧
    (lineReadable first = false → lineReadable second = false → Completes (.wsLineReread die block line first second) s
      (fun t => t.blockCode (8192 * die + block) = 2))) ∧
  (∀ (s : State) (k : InboxPacket) (b : Nat), s.inbox? (fun k => k.packet.ty == 0x10) = some k →
    let image := ofBytes (k.packet.data.take 8)
    let shard := ofBytes ((k.packet.data.drop 8).take 4)
    [0, 1].find? (fun b => (decide ((s.bank b).st = .active) || decide ((s.bank b).st = .draining) ||
      decide ((s.bank b).st = .ready)) && (s.bank b).imageId == image && !s.shardGone b shard) = some b →
    Completes .readReq s (fun t => t = (List.range (ceilDiv (s.shardData b shard).length 4080)).foldl (fun s' i =>
      s'.send 14 0x11 127 k.packet.src 0 (bytesOf 8 image ++ bytesOf 4 shard ++ bytesOf 4 (4080 * i) ++
        ((s.shardData b shard).drop (4080 * i)).take 4080)) (s.takeInbox (fun k => k.packet.ty == 0x10)))) ∧
  (∀ (s : State) (k : InboxPacket) (f : MirrorFetch), s.inbox? (fun k => k.packet.ty == 0x11) = some k →
    let mine (f : MirrorFetch) : Bool := f.shard == ofBytes ((k.packet.data.drop 8).take 4) &&
      (s.bank f.bank).imageId == ofBytes (k.packet.data.take 8) && f.data.length == ofBytes ((k.packet.data.drop 12).take 4)
    s.wst.fetches.find? mine = some f →
    (f.data ++ k.packet.data.drop 16).length < usedLen (entriesIn (s.bank f.bank) f.shard) f.shard →
    Completes .readRsp s (fun t => t.wst.fetches = s.wst.fetches.eraseP mine ++ [{ f with data := f.data ++ k.packet.data.drop 16 }])) ∧
  (∀ (s : State) (shard : Nat) (f : MirrorFetch), s.wst.fetches.find? (fun f => f.shard == shard) = some f →
    Completes (.mirrorFetchTimeout shard) s (fun t => t.ts = max s.ts (f.issued + 50000) ∧
      ∀ x ∈ t.wst.fetches, x.shard ≠ shard)) ∧
  (∀ (s : State) (b : Nat), [0, 1].find? (fun b => decide ((s.bank b).st = .draining)) = some b →
    Completes .drainLimitExpiry s (fun t => t = { s with
      ts := max s.ts ((s.bank b).drainTs + 1000000 * s.regFld R.wstDrainLimit 0 20) }))

/-! Number formats and the Court array's integer path (R49, R95). -/

/-- INT4 codes and the differences of IQ4Z codes reach the multiplier with their exact values, signed integers of −15 to 15
(R49). -/
def Obligations.IntegerCodesReachMultiplierExactly : Prop :=
  let exactly (x : Sys2Proof.Machine.Num) (v : Int) : Prop := ∃ (n : Bool) (m j : Nat), multiplierNum x = .fin n m (-(j : Int)) ∧
    m = v.natAbs * 2 ^ j ∧ (v ≠ 0 → n = decide (v < 0))
  (∀ (rd : Nat → Byte) (row k : Nat), exactly (elemNum rd .int4 row k) (signed 4 (elemCode rd .int4 row k)) ∧
    -8 ≤ signed 4 (elemCode rd .int4 row k) ∧ signed 4 (elemCode rd .int4 row k) ≤ 7) ∧
  (∀ (rd : Nat → Byte) (row k : Nat),
    let v : Int := (elemCode rd .iq4z row k : Int) - zeroPoint rd row k
    exactly (elemNum rd .iq4z row k) v ∧ -15 ≤ v ∧ v ≤ 15)

/-- On the INT8 path accumulate and combine are INT32 additions that saturate, an empty accumulator counts as 0, and
plane_value returns hi: an element is the tree of sixteen such sums (R95). -/
def Obligations.Int8PathSaturates : Prop :=
  let sat (x : Int) : Int := max (-2147483648) (min 2147483647 x)
  let value (a : PlaneAcc) : Int := if a.empty then 0 else int32Of a.hi
  (∀ (a : PlaneAcc) (n : Nat) (x : Int), value (accumulateInt (a, n) x).1 = sat (value a + x)) ∧
  (∀ (c : TileCmd) (ps : List PlaneAcc), c.acc = 1 → ps.length = 16 →
    let v (i : Nat) : Int := value (ps.getD i .start)
    let add (x y : Int) : Int := sat (x + y)
    int32Of (drainElement c ps).1 =
      add (add (add (add (v 0) (v 1)) (add (v 2) (v 3))) (add (add (v 4) (v 5)) (add (v 6) (v 7))))
        (add (add (add (v 8) (v 9)) (add (v 10) (v 11))) (add (add (v 12) (v 13)) (add (v 14) (v 15)))))

/-! The engines (R82 to R116, R128 to R183, R264 to R267). -/

/-- WAIT, SIGNAL and END of the four kinds of programs (R110): a WAIT whose semaphore has reached its value passes, and any
other holds its engine; a SIGNAL adds its value once earlier writes are done; an END closes the program; a semaphore that
reaches its value lets every engine that waits for it go on, and no other. That a SIGNAL waits for earlier drains is read from
R110 and R126 (assumption 130). -/
def Obligations.SequencersComplete : Prop :=
  (∀ (s : State) (e : Engine) (cmd : Desc) (w : Work) (i : Instr), s.issued e 0x10 cmd = some w →
    (match e with
      | .court n => i = .tileWait n cmd
      | .vec n => i = .vecWait n cmd
      | .gather n => i = .gatherWait n cmd
      | .channel n => i = .channelWait n cmd) →
    Completes i s (fun t => t.engine e =
        (if fld cmd 8 0 32 ≤ s.sem (fld cmd 4 0 16) then { s.engine e with pos := (s.engine e).pos + 1 }
         else { s.engine e with wait := some (fld cmd 4 0 16, fld cmd 8 0 32) }) ∧ ∀ d, d ≠ e → t.engine d = s.engine d)) ∧
  (∀ (s : State) (e : Engine) (cmd : Desc) (w : Work) (i : Instr), s.issued e 0x11 cmd = some w →
    (match e with
      | .court n => i = .tileSignal n cmd ∧ s.tilesOf n = [] ∧ s.todoOf n = []
      | .vec n => i = .vecSignal n cmd
      | .gather n => i = .gatherSignal n cmd
      | .channel n => i = .channelSignal n cmd ∧ ∀ r ∈ s.rdc.chans, r.channel = n → r.issued = true → r.complete = true) →
    Completes i s (fun t => t.engine e = { s.engine e with pos := (s.engine e).pos + 1 } ∧
      t.sem (fld cmd 4 0 16) = s.sem (fld cmd 4 0 16) + fld cmd 8 0 32 ∧
      ∀ j, j ≠ fld cmd 4 0 16 → t.sem j = s.sem j)) ∧
  (∀ (s : State) (e : Engine) (cmd : Desc) (w : Work) (i : Instr), s.issued e 0x1F cmd = some w →
    (match e with
      | .court n => i = .tileEnd n cmd
      | .vec n => i = .vecEnd n cmd
      | .gather n => i = .gatherEnd n cmd
      | .channel n => i = .channelEnd n cmd) →
    Completes i s (fun t => t.engine e = { s.engine e with pos := (s.engine e).pos + 1, ended := true } ∧
      t.nextCommand e = none)) ∧
  (∀ (s : State) (i : Nat), Completes (.semaphoreReached i) s (fun t => ∀ e : Engine, t.engine e =
    match (s.engine e).wait with
    | some (j, n) => if j = i ∧ n ≤ s.sem i then { s.engine e with wait := none, pos := (s.engine e).pos + 1 } else s.engine e
    | none => s.engine e))

/-- Tile commands (R89, R97, R113, R114, R120): an MMA starts the tiles of its grid, or with those of the MMA_PAIR bound to it
in turn, but for those that had drained before a stop, in order as far as their cubes have room, and the rest wait; one that
names an address outside the device's regions faults; an MMA_PAIR is kept for the MMA that follows it; a drain takes the
oldest tile of its cube off the court and writes its elements. When tiles start is the model's reading (assumption 131). -/
def Obligations.TileCommandsComplete : Prop :=
  (∀ (s : State) (court : Nat) (cmd : Desc) (w : Work), s.issued (.court court) 0x01 cmd = some w →
    commandReady s court = true → (∀ a ∈ (TileCmd.ofBits cmd).addrs, mapped a = true) →
    (∀ first, Tbl.get? s.eng.pairs court = some first → ∀ a ∈ (TileCmd.ofBits first).addrs, mapped a = true) →
    let pos := (s.engine (.court court)).pos
    let tiles := (Tbl.get? s.eng.pairs court).elim (gridTiles cmd pos false) (fun first => pairTiles first cmd (pos - 1))
    let takes := (placeTiles s court tiles).filter (fun x => !s.hasDrained court x)
    Completes (.mma court cmd) s (fun t => (t.engine (.court court)).pos = pos + 1 ∧
      (t.engine (.court court)).tiles = (s.engine (.court court)).tiles + tiles.length ∧
      (t.tilesOf court ++ t.todoOf court).map (fun x => (x.cmd, x.row, x.col, x.court)) =
        (s.tilesOf court ++ takes).map (fun x => (x.cmd, x.row, x.col, x.court)) ∧ t.mem = s.mem)) ∧
  (∀ (s : State) (court : Nat) (cmd : Desc) (w : Work), s.issued (.court court) 0x01 cmd = some w →
    commandReady s court = true → Tbl.get? s.eng.pairs court = none → mapped (TileCmd.ofBits cmd).aAddr = false →
    exec (.mma court cmd) s = .fault (.unmappedAddress (TileCmd.ofBits cmd).aAddr)) ∧
  (∀ (s : State) (court : Nat) (cmd : Desc) (w : Work), s.issued (.court court) 0x02 cmd = some w →
    commandReady s court = true → Completes (.mmaPair court cmd) s (fun t => Tbl.get? t.eng.pairs court = some cmd ∧
      t.engine (.court court) = { s.engine (.court court) with pos := (s.engine (.court court)).pos + 1 } ∧ t.mem = s.mem)) ∧
  (∀ (s : State) (court cube : Nat) (w : Work) (x : Tile), s.Inv → s.ump.work = some w →
    (s.tilesOf court).find? (fun t => t.cube == cube) = some x →
    let c := TileCmd.ofBits x.cmd
    Completes (.tileDrain court cube) s (fun t => (s.tilesOf court).erase x <+: t.tilesOf court ∧
      t.mem = (s.putCells (drainTile s.engineByte c (tensorAt s w.imgSlot c.outTensor) (c.part s w) (s.outExp w c.outTensor) w.seed
        x.elems).cells).mem))

/-- Vector commands (R132, R139 to R150, R167 to R181, R650): an engine's next command whose addresses exist writes the bytes that
its opcode computes, no others, and its engine moves on; one whose X lies outside the device's regions faults. -/
def Obligations.VectorCommandsComplete : Prop :=
  ∀ (s : State) (e : Nat) (cmd : Desc) (w : Work), s.Inv →
    let c := VecCmd.ofBits cmd
    let env := vecEnv s w c
    let writes (i : Instr) (o : VecOut) : Prop := Completes i s (fun t => t.mem = (s.putCells o.cells).mem ∧
      t.engine (.vec e) = { s.engine (.vec e) with pos := (s.engine (.vec e)).pos + 1 })
    (mapped c.xAddr = true → mapped c.zAddr = true →
      (s.issued (.vec e) 0x01 cmd = some w → writes (.ew e cmd) (vecEw env c)) ∧
      (s.issued (.vec e) 0x02 cmd = some w → writes (.red e cmd) (vecRed env c)) ∧
      (s.issued (.vec e) 0x03 cmd = some w → writes (.softmax e cmd) (vecSoftmax env c)) ∧
      (s.issued (.vec e) 0x04 cmd = some w → writes (.lnorm e cmd) (vecLnorm env c)) ∧
      (s.issued (.vec e) 0x05 cmd = some w → writes (.rmsnorm e cmd) (vecRmsnorm env c)) ∧
      (s.issued (.vec e) 0x06 cmd = some w → writes (.route e cmd) (vecRoute env c)) ∧
      (s.issued (.vec e) 0x07 cmd = some w → writes (.loss e cmd) (vecLoss env c)) ∧
      (s.issued (.vec e) 0x08 cmd = some w → writes (.combine e cmd) (vecCombine env c)) ∧
      (s.issued (.vec e) 0x0A cmd = some w → writes (.softmaxBwd e cmd) (vecSoftmaxBwd env c)) ∧
      (s.issued (.vec e) 0x0B cmd = some w → writes (.normBwd e cmd) (vecNormBwd env c)) ∧
      (s.issued (.vec e) 0x09 cmd = some w → mapped c.yAddr = true → mapped c.auxAddr = true →
        (c.mode ≠ 2 → writes (.opt e cmd) (vecOpt env c).out) ∧ (c.mode = 2 → writes (.scan e cmd) (vecScan env c)))) ∧
    (∀ i op, (i, op) ∈ [(Instr.ew e cmd, 0x01), (.red e cmd, 0x02), (.softmax e cmd, 0x03), (.lnorm e cmd, 0x04),
        (.rmsnorm e cmd, 0x05), (.route e cmd, 0x06), (.loss e cmd, 0x07), (.combine e cmd, 0x08), (.softmaxBwd e cmd, 0x0A),
        (.normBwd e cmd, 0x0B)] → s.issued (.vec e) op cmd = some w → mapped c.xAddr = false →
      exec i s = .fault (.unmappedAddress c.xAddr))

/-- Gather commands (R265 to R267): an engine's next command whose addresses exist runs, and its engine moves on; writing on
chip to where no binding (assumption 220) stands, with no scrub under way, it changes no byte outside its destination; a COPY
within online bonded SRAM places COUNT × 256 bytes; one whose source lies outside the device's regions faults. On-chip
destinations only for the frame; layouts the rules leave open are the model's (assumption 141). -/
def Obligations.GatherCommandsComplete : Prop :=
  ∀ (s : State) (e : Nat) (cmd : Desc) (w : Work), s.Inv →
    let c := GatherCmd.ofBits cmd
    let runs (i : Instr) (n : Nat) : Prop := Completes i s (fun t =>
      t.engine (.gather e) = { s.engine (.gather e) with pos := (s.engine (.gather e)).pos + 1 } ∧
      (s.mem.scrubs = [] → inLpddr c.dst = false → (∀ a, c.dst ≤ a → a < c.dst + max n 1 → (s.boundPlace w a).isNone) → ∀ a, a < c.dst ∨ c.dst + n ≤ a → t.mem.cells.read a = s.mem.cells.read a))
    (mapped c.src = true → mapped c.dst = true →
      (s.issued (.gather e) 0x01 cmd = some w → runs (.copy e cmd) (256 * c.count) ∧
        (inLpddr c.src = false → (s.boundPlace w c.src).isNone → (s.boundPlace w c.dst).isNone → (∀ j < 256 * c.count, inSram (c.dst + j) = true ∧ s.sramOnline (c.dst + j) = true) →
          Completes (.copy e cmd) s (fun t => ∀ j < 256 * c.count, t.mem.cells.read (c.dst + j) = s.chipByte (c.src + j)))) ∧
      (s.issued (.gather e) 0x02 cmd = some w → runs (.listCopy e cmd) (c.count * c.unit)) ∧
      (s.issued (.gather e) 0x03 cmd = some w →
        runs (.embag e cmd) (c.count * (tensorAt s w.imgSlot c.outTensor).fmt.rowBytes c.unit)) ∧
      (s.issued (.gather e) 0x04 cmd = some w → runs (.embagBwd e cmd) (4 * c.unit * c.tableRows))) ∧
    (∀ i op, (i, op) ∈ [(Instr.copy e cmd, 0x01), (.listCopy e cmd, 0x02), (.embag e cmd, 0x03), (.embagBwd e cmd, 0x04)] →
      s.issued (.gather e) op cmd = some w → mapped c.src = false → exec i s = .fault (.unmappedAddress c.src))

/-! The group (R403 to R435). -/

/-- Channel commands (R409, R410): a channel's next command whose addresses exist is issued, and its sequencer moves on; a WIRE 2
reduction may stop its work instead (R416); one whose source lies outside the device's regions faults. -/
def Obligations.ChannelCommandsComplete : Prop :=
  ∀ (s : State) (ch : Nat) (cmd : Desc) (w : Work),
    let c := ChanCmd.ofBits cmd
    let issued (t : State) : Prop := (∃ r, t.run? ch (issueNo s w ch) = some r ∧ r.issued = true) ∧
      t.engine (.channel ch) = { s.engine (.channel ch) with pos := (s.engine (.channel ch)).pos + 1 } ∧
      (t.ump.work).map (·.did) = some w.did
    let issues (i : Instr) : Prop := Completes i s issued
    let issuesOrStops (i : Instr) : Prop := Completes i s (fun t => issued t ∨ t.ump.work = none)
    ((∀ a ∈ [c.src, c.dst, c.recv], mapped a = true) →
      (s.issued (.channel ch) 1 cmd = some w → (c.wire ≠ 2 → issues (.allreduce ch cmd)) ∧
        (c.wire = 2 → issuesOrStops (.allreduce ch cmd))) ∧
      (s.issued (.channel ch) 2 cmd = some w → (c.wire ≠ 2 → issues (.reduce ch cmd)) ∧
        (c.wire = 2 → issuesOrStops (.reduce ch cmd))) ∧
      (s.issued (.channel ch) 3 cmd = some w → issues (.bcast ch cmd)) ∧
      (s.issued (.channel ch) 4 cmd = some w → issues (.allgather ch cmd)) ∧
      (s.issued (.channel ch) 5 cmd = some w → issues (.dispatch ch cmd)) ∧
      (s.issued (.channel ch) 6 cmd = some w → dispatchDone s ch = true → issues (.channelCombine ch cmd))) ∧
    (∀ i op, (i, op) ∈ [(Instr.allreduce ch cmd, 1), (.reduce ch cmd, 2), (.bcast ch cmd, 3), (.allgather ch cmd, 4),
        (.dispatch ch cmd, 5)] → s.issued (.channel ch) op cmd = some w → mapped c.src = false →
      exec i s = .fault (.unmappedAddress c.src))

/-- Packets of the running work (R410, R426, R430, R432): one that is not stale is taken from the inbox and noted with its
run, unless a WIRE 2 reduction's work stops by it (R416); a chunk from above and a gathered chunk land in their places; a
stale one is discarded and counted; a deadline at which a chunk is missing puts FAIL into this member's vote (R418, R419).
Packets that come before their command is issued are taken (assumption 157). -/
def Obligations.ChannelPacketsComplete : Prop :=
  (∀ (s : State) (k : InboxPacket) (w : Work) (cmd : Desc) (r : ChanRun), s.ump.work = some w →
    (sendingCommands s w k.packet.ch)[k.packet.seq]? = some cmd → stale s k.packet = false →
    s.run? k.packet.ch k.packet.seq = some r →
    let h := subHeadOf k.packet.data
    let c := ChanCmd.ofBits r.cmd
    let data := (k.packet.data.take k.packet.len).drop 32
    (s.inbox? (fun k => k.packet.ty == 1 && decide (kindOf k ≠ 3 ∧ kindOf k ≠ 4)) = some k → h.kind = 2 →
      Completes .rdcDataReceive s (fun t => t.mgl.inbox = s.mgl.inbox.erase k ∧
        (∃ q, t.run? k.packet.ch k.packet.seq = some q ∧ (h.leaf, h.offset / chunkElems (fmtWire c.fmt)) ∈ q.got) ∧
        t.mem = (s.putCells (cellsAt (c.dst + h.leaf * gatherPart c +
          (rowChunk c.fmt c.count (h.offset / chunkElems (fmtWire c.fmt))).1) data)).mem)) ∧
    (s.inbox? (fun k => k.packet.ty == 1 && decide (kindOf k ≠ 3 ∧ kindOf k ≠ 4)) = some k → h.kind = 1 →
      let f := downFmt s w c
      let i := h.offset / chunkElems (fmtWire f)
      Completes .rdcDataReceive s (fun t => s.mgl.inbox.erase k <+: t.mgl.inbox ∧
        (∃ q, t.run? k.packet.ch k.packet.seq = some q ∧ (0, i) ∈ q.got) ∧
        t.mem = (s.putCells (cellsAt (c.dst + (rowChunk f c.count i).1) data)).mem)) ∧
    (s.inbox? (fun k => k.packet.ty == 1 && decide (kindOf k ≠ 3 ∧ kindOf k ≠ 4)) = some k → h.kind = 0 →
      Completes .rdcDataReceive s (fun t => s.mgl.inbox.erase k <+: t.mgl.inbox ∧ (c.wire = 2 ∧ t.ump.work = none ∨
        ∃ q, t.run? k.packet.ch k.packet.seq = some q ∧ (h.level, h.offset / chunkElems h.wire) ∈ q.up))) ∧
    (s.inbox? (fun k => k.packet.ty == 2 && kindOf k == 5) = some k → Completes .fbCountsReceive s (fun t =>
      ∃ q, t.run? k.packet.ch k.packet.seq = some q ∧ h.leaf ∈ q.counts)) ∧
    (s.inbox? (fun k => k.packet.ty == 2 && kindOf k != 5) = some k → Completes .fbRowReceive s (fun t =>
      t.mgl.inbox = s.mgl.inbox.erase k ∧ ∃ q, t.run? k.packet.ch k.packet.seq = some q ∧
        ∃ m ∈ q.rows, m.leaf = h.leaf ∧ m.token = h.token ∧ m.k = h.k ∧ (h.offset, data) ∈ m.pieces)) ∧
    (s.inbox? (fun k => k.packet.ty == 3) = some k → Completes .fbReturnReceive s (fun t =>
      t.mgl.inbox = s.mgl.inbox.erase k ∧ ∃ q, t.run? k.packet.ch k.packet.seq = some q ∧
        ∃ m ∈ q.rows, m.leaf = h.leaf ∧ m.token = h.token ∧ m.k = h.k ∧ (h.offset, data) ∈ m.pieces))) ∧
  (∀ (s : State) (i : Instr) (pick : InboxPacket → Bool) (k : InboxPacket),
    (i, pick) ∈ [(Instr.rdcDataReceive, fun k : InboxPacket => k.packet.ty == 1 && decide (kindOf k ≠ 3 ∧ kindOf k ≠ 4)),
      (.fbCountsReceive, fun k => k.packet.ty == 2 && kindOf k == 5), (.fbRowReceive, fun k => k.packet.ty == 2 && kindOf k != 5),
      (.fbReturnReceive, fun k => k.packet.ty == 3)] → s.inbox? pick = some k → stale s k.packet = true →
    Completes i s (fun t => t.mgl.inbox = s.mgl.inbox.erase k ∧ t.regAt R.rdcStale = s.regAt R.rdcStale + 1 ∧ t.rdc = s.rdc ∧
      t.mem = s.mem)) ∧
  (∀ (s : State) (ch due : Nat) (g : GroupStep) (w : Work), s.rdc.step = some g → s.ump.work = some w → g.hasWork = true →
    g.workId = w.did → missingDue s w ch = some due → Completes (.dueNsDeadline ch) s (fun t =>
      t.ts = max s.ts (g.start + due) ∧ t.ump.work = none ∧ ∃ q, t.rdc.step = some q ∧ q.vote.fail = true))

/-- Votes and verdicts (R418 to R423): a member votes once at VOTE_NS; a child's first vote is merged; a node forwards at its
bound; the first verdict is held with the digests' snapshot; a stale vote or verdict is discarded and counted (R426); without
a verdict at the bound the member faults itself. What fell due before a bound is the model's reading (assumptions 165 and
166). -/
def Obligations.VotesComplete : Prop :=
  (∀ (s : State) (g : GroupStep), s.rdc.step = some g → owesVote g = true → Completes .voteSend s (fun t =>
    t.ts = max s.ts (g.start + g.voteNs) ∧ ∃ q, t.rdc.step = some q ∧ q.own = true)) ∧
  (∀ (s : State) (g : GroupStep) (k : InboxPacket),
    s.inbox? (fun k => k.packet.ty == 1 && kindOf k == 3) = some k → staleVote s k.packet = false → s.rdc.step = some g →
    g.takesPart = true → g.forwarded = false →
    let child := (subHeadOf k.packet.data).leaf
    child ∉ g.children → (groupChildren s).any (fun q => q.2 == child) = true → Completes .voteReceive s (fun t =>
      ∃ q, t.rdc.step = some q ∧ q.children = g.children ++ [child])) ∧
  (∀ (s : State) (g : GroupStep), s.rdc.step = some g → g.own = true → g.takesPart = true → g.forwarded = false →
    g.verdict = none → Completes .voteForwardBound s (fun t => t.ts = max s.ts (g.start + g.voteNs + 4000 * nodeLevel s) ∧
      ∃ q, t.rdc.step = some q ∧ q.forwarded = true)) ∧
  (∀ (s : State) (g : GroupStep) (k : InboxPacket),
    s.inbox? (fun k => k.packet.ty == 1 && kindOf k == 4) = some k → staleVote s k.packet = false → s.rdc.step = some g →
    g.takesPart = true → g.verdict = none → Completes .verdictReceive s (fun t => t.rdc.snapStep = s.rdc.gstep ∧
      ∃ q, t.rdc.step = some q ∧ q.verdict = some (voteBody g k.packet))) ∧
  (∀ (s : State) (k : InboxPacket), staleVote s k.packet = true →
    (s.inbox? (fun k => k.packet.ty == 1 && kindOf k == 3) = some k → Completes .voteReceive s (fun t =>
      t.regAt R.rdcStale = s.regAt R.rdcStale + 1 ∧ t.rdc = s.rdc)) ∧
    (s.inbox? (fun k => k.packet.ty == 1 && kindOf k == 4) = some k → Completes .verdictReceive s (fun t =>
      t.regAt R.rdcStale = s.regAt R.rdcStale + 1 ∧ t.rdc = s.rdc))) ∧
  (∀ (s : State) (g : GroupStep), s.rdc.step = some g → g.own = true → g.takesPart = true → g.forwarded = true →
    g.verdict = none → Completes .verdictTimeout s (fun t =>
      t.ts = max s.ts (g.start + g.voteNs + 8000 * groupLevels s) ∧ t.rdc.snapStep = s.rdc.gstep ∧
      ∃ q, t.rdc.step = some q ∧ q.selfFault = true ∧ q.verdict = some { Vote.zero with verdict := 2 }))

/-- The root decides the verdict from the merged vote and its own attempt number: FAULT when FAIL or OVER is set and the
attempt is 3, otherwise REPEAT when one is set, otherwise COMMIT; the verdict carries the merged vote and is sent down the
tree (R421). -/
def Obligations.RootDecidesVerdict : Prop :=
  ∀ (s : State) (g : GroupStep), s.rdc.step = some g → g.own = true → g.forwarded = false → g.verdict = none →
    groupLeaf s = 0 → (∀ q ∈ groupChildren s, q.2 ∈ g.children) →
    let failed := g.vote.fail || g.vote.overflow
    let attempt := (s.attemptOf g.workId).attempt
    let v : Vote := { g.vote.pad g.slots.length with
      verdict := if failed = true ∧ attempt = 3 then 2 else if failed = true then 1 else 0 }
    s.tryForward = (sendVerdict (s.modStep (fun g => { g with forwarded := true })) g v).holdVerdict v ∧
    ∃ q, s.tryForward.rdc.step = some q ∧ q.verdict = some v
end

