-- ==== Sys2Proof/Laws/Aes.lean ====
section
/-! SUPPORT. AES-256-GCM opens what it seals. -/
namespace Sys2Proof.Machine

/-- Under a last round key of 16 bytes a block is encrypted to 16 bytes. -/
theorem encryptWith_length {ks : List (List Byte)} (h : (ks.getD 14 []).length = 16) (b : List Byte) :
    (encryptWith ks b).length = 16 := by
  simp only [encryptWith, xorBytes, List.length_zipWith, h]
  simp [shiftRows]

/-- Adding the same bytes twice gives the bytes back. -/
theorem xorBytes_self : ∀ (a k : List Byte), a.length ≤ k.length → xorBytes (xorBytes a k) k = a
  | [], _, _ => by simp [xorBytes]
  | x :: a, [], h => by simp at h
  | x :: a, y :: k, h => by
    have := xorBytes_self a k (by simpa using h)
    simp only [xorBytes, List.zipWith_cons_cons, BitVec.xor_assoc, BitVec.xor_self, BitVec.xor_zero] at this ⊢
    rw [this]

/-- The key stream is as long as the blocks that it covers. -/
theorem keyStream_length {ks : List (List Byte)} (h : (ks.getD 14 []).length = 16) (nonce : List Byte) (from_ n : Nat) :
    ((List.range n).flatMap (fun i => encryptWith ks (nonce ++ beBytes 4 (from_ + i)))).length = 16 * n := by
  simp [List.length_flatMap, encryptWith_length h, Nat.mul_comm]

theorem counterMode_length {ks : List (List Byte)} (h : (ks.getD 14 []).length = 16) (nonce : List Byte) (from_ : Nat)
    (bs : List Byte) :
    (counterMode ks nonce from_ bs).length = bs.length := by
  simp only [counterMode, xorBytes, List.length_zipWith, keyStream_length h]
  omega

/-- Counter mode undoes itself. -/
theorem counterMode_self {ks : List (List Byte)} (h : (ks.getD 14 []).length = 16) (nonce : List Byte) (from_ : Nat)
    (bs : List Byte) :
    counterMode ks nonce from_ (counterMode ks nonce from_ bs) = bs := by
  rw [counterMode, counterMode_length h, counterMode]
  exact xorBytes_self _ _ (by rw [keyStream_length h]; omega)

theorem gcmTag_length {ks : List (List Byte)} (h : (ks.getD 14 []).length = 16) (nonce aad ct : List Byte) :
    (gcmTag ks nonce aad ct).length = 16 := by
  have (n v : Nat) : (bytesOf n v).length = n := by
    induction n generalizing v with
    | zero => rfl
    | succ n ih => simp [bytesOf, ih]
  simp [gcmTag, xorBytes, encryptWith_length h, beBytes, this]

/-- What has been encrypted opens under the same key, nonce and header (R230). -/
theorem gcmDecrypt_gcmEncrypt {key : List Byte} (h : ((roundKeys key).getD 14 []).length = 16) (nonce aad pt : List Byte) :
    gcmDecrypt key nonce aad (gcmEncrypt key nonce aad pt).1 (gcmEncrypt key nonce aad pt).2 = some pt := by
  unfold gcmDecrypt gcmEncrypt
  generalize roundKeys key = ks at *
  dsimp only
  have (x y : List Byte) (hx : counterMode ks nonce 2 x = y) :
      (if gcmTag ks nonce aad x = gcmTag ks nonce aad x then some (counterMode ks nonce 2 x) else none) = some y := by
    rw [if_pos rfl, hx]
  exact this _ _ (counterMode_self h nonce 2 pt)

/-- A payload as its tenant's key seals it. -/
def sealedUnder (key : BitVec 256) (h : BitVec 2048) (plain : List Byte) : List Byte :=
  let x := gcmEncrypt (bytesOf 32 key.toNat) (((headerBytes h).drop 80).take 12) (headerBytes h) plain
  x.1 ++ x.2

theorem sealedUnder_length {key : BitVec 256} (hk : ((roundKeys (bytesOf 32 key.toNat)).getD 14 []).length = 16) (h : BitVec 2048)
    (plain : List Byte) : (sealedUnder key h plain).length = plain.length + 16 := by
  simp [sealedUnder, gcmEncrypt, counterMode_length hk, gcmTag_length hk]

/-- A blob opens under the key that sealed it (R230). -/
theorem openBlob_sealed {s : State} {key : BitVec 256} (hk : ((roundKeys (bytesOf 32 key.toNat)).getD 14 []).length = 16)
    (h : BitVec 2048)
    (plain : List Byte) (ht : s.skeyOf (BlobHeader.ofBits h).tenant (BlobHeader.ofBits h).skeyGen = some key) :
    s.openBlob h (sealedUnder key h plain) = some plain := by
  have hl : (sealedUnder key h plain).length - 16 = plain.length := by rw [sealedUnder_length hk]; omega
  have hc : (gcmEncrypt (bytesOf 32 key.toNat) (((headerBytes h).drop 80).take 12) (headerBytes h) plain).1.length = plain.length := by
    simp [gcmEncrypt, counterMode_length hk]
  simp only [State.openBlob, ht, Option.bind_some, hl]
  rw [← hc, sealedUnder, List.take_left, List.drop_left]
  exact gcmDecrypt_gcmEncrypt hk _ _ _

end Sys2Proof.Machine
end

