-- ==== Sys2Proof/Laws/Table.lean ====
section
/-! SUPPORT. The sparse tables, the byte memory and the register table: what a write changes, what it leaves alone, and
that every operation keeps the canonical forms. -/
namespace Sys2Proof.Machine
open Sys2Proof

/-! Tables. -/

/-- A table of which the keys strictly rise, as a chain of keys. -/
theorem Tbl.wf_iff {α : Type} (t : Tbl α) : Tbl.wf t = true ↔ t.Pairwise (fun a b => a.1 < b.1) := by
  induction t with
  | nil => simp [Tbl.wf]
  | cons a t ih =>
    cases t with
    | nil => simp [Tbl.wf]
    | cons b t =>
      rw [List.pairwise_cons, ← ih]
      simp only [Tbl.wf, Bool.and_eq_true, decide_eq_true_eq]
      constructor
      · rintro ⟨h, k⟩
        refine ⟨fun c hc => ?_, k⟩
        rcases List.mem_cons.mp hc with rfl | hc
        · exact h
        · exact h.trans (List.rel_of_pairwise_cons (ih.mp k) hc)
      · rintro ⟨h, k⟩
        exact ⟨h b (by simp), k⟩

/-- A sub-list of a table is a table. -/
theorem Tbl.wf_sublist {α : Type} {t u : Tbl α} (h : u.Sublist t) (k : Tbl.wf t = true) : Tbl.wf u = true :=
  (Tbl.wf_iff u).mpr (((Tbl.wf_iff t).mp k).sublist h)

/-- The keys of a table after a set are the old ones and the new one. -/
theorem Tbl.mem_set {α : Type} {t : Tbl α} {i : Nat} {x : α} {p : Nat × α} (h : p ∈ Tbl.set t i x) : p = (i, x) ∨ p ∈ t := by
  induction t with
  | nil => simpa [Tbl.set] using h
  | cons a t ih =>
    obtain ⟨k, v⟩ := a
    simp only [Tbl.set] at h
    split at h
    · simpa using h
    · split at h
      · rcases List.mem_cons.mp h with h | h
        · exact .inl h
        · exact .inr (List.mem_cons_of_mem _ h)
      · rcases List.mem_cons.mp h with h | h
        · exact .inr (h ▸ List.mem_cons_self)
        · exact (ih h).imp id (List.mem_cons_of_mem _)

/-- A set keeps a table's keys rising. -/
theorem Tbl.wf_set {α : Type} {t : Tbl α} (i : Nat) (x : α) (h : Tbl.wf t = true) : Tbl.wf (Tbl.set t i x) = true := by
  rw [Tbl.wf_iff] at *
  induction t with
  | nil => simp [Tbl.set]
  | cons a t ih =>
    obtain ⟨k, v⟩ := a
    rw [List.pairwise_cons] at h
    simp only [Tbl.set]
    split
    · rename_i hi
      refine List.pairwise_cons.mpr ⟨fun c hc => ?_, List.pairwise_cons.mpr h⟩
      rcases List.mem_cons.mp hc with rfl | hc
      · exact hi
      · exact hi.trans (h.1 c hc)
    · split
      · rename_i _ hi
        subst hi
        exact List.pairwise_cons.mpr h
      · refine List.pairwise_cons.mpr ⟨fun c hc => ?_, ih h.2⟩
        rcases Tbl.mem_set hc with rfl | hc
        · simp only; omega
        · exact h.1 c hc

/-- What a table lists at the key just set. -/
@[simp] theorem Tbl.get?_set_self {α : Type} (t : Tbl α) (i : Nat) (x : α) : Tbl.get? (Tbl.set t i x) i = some x := by
  induction t with
  | nil => simp [Tbl.set, Tbl.get?]
  | cons a t ih =>
    obtain ⟨k, v⟩ := a
    simp only [Tbl.set]
    split
    · simp [Tbl.get?]
    · split
      · simp [Tbl.get?]
      · simp only [Tbl.get?]
        rw [if_neg (by omega), if_neg (by omega), ih]

/-- A set leaves every other key alone. -/
theorem Tbl.get?_set_ne {α : Type} (t : Tbl α) {i j : Nat} (x : α) (h : j ≠ i) : Tbl.get? (Tbl.set t i x) j = Tbl.get? t j := by
  induction t with
  | nil =>
    simp only [Tbl.set, Tbl.get?]
    rw [if_neg (by omega)]
    split <;> rfl
  | cons a t ih =>
    obtain ⟨k, v⟩ := a
    simp only [Tbl.set]
    split
    · simp only [Tbl.get?]
      rw [if_neg (by omega)]
      split
      · rw [if_neg (by omega), if_pos (by omega)]
      · rfl
    · split
      · rename_i hi
        subst hi
        simp [Tbl.get?, Ne.symm h]
      · simp only [Tbl.get?, ih]

/-- Nothing is listed below a table's first key. -/
theorem Tbl.get?_lt {α : Type} {t : Tbl α} {i : Nat} (h : ∀ p ∈ t, i < p.1) : Tbl.get? t i = none := by
  cases t with
  | nil => rfl
  | cons a t =>
    obtain ⟨k, v⟩ := a
    have : i < k := h (k, v) (by simp)
    simp only [Tbl.get?]
    rw [if_neg (by omega), if_pos this]

/-- A removed key is no longer listed, in a table in canonical form. -/
theorem Tbl.get?_erase_self {α : Type} (t : Tbl α) (i : Nat) : Tbl.get? (Tbl.erase t i) i = none := by
  induction t with
  | nil => rfl
  | cons a t ih =>
    obtain ⟨k, v⟩ := a
    by_cases hk : k = i
    · simpa [Tbl.erase, hk] using ih
    · have : Tbl.erase ((k, v) :: t) i = (k, v) :: Tbl.erase t i := by simp [Tbl.erase, hk]
      rw [this]
      simp only [Tbl.get?]
      rw [if_neg hk]
      split
      · rfl
      · exact ih

/-- Removing a key leaves every other key alone, in a table in canonical form. -/
theorem Tbl.get?_erase_ne {α : Type} {t : Tbl α} {i j : Nat} (hw : Tbl.wf t = true) (h : j ≠ i) :
    Tbl.get? (Tbl.erase t i) j = Tbl.get? t j := by
  rw [Tbl.wf_iff] at hw
  induction t with
  | nil => rfl
  | cons a t ih =>
    obtain ⟨k, v⟩ := a
    rw [List.pairwise_cons] at hw
    by_cases hk : k = i
    · have e : Tbl.erase ((k, v) :: t) i = Tbl.erase t i := by simp [Tbl.erase, hk]
      rw [e, ih hw.2]
      simp only [Tbl.get?]
      rw [if_neg (by omega)]
      split
      · exact Tbl.get?_lt (fun p hp => lt_trans (by assumption) (hw.1 p hp))
      · rfl
    · have e : Tbl.erase ((k, v) :: t) i = (k, v) :: Tbl.erase t i := by simp [Tbl.erase, hk]
      rw [e]
      simp only [Tbl.get?, ih hw.2]

/-! The byte memory. -/

/-- A byte written reads back. -/
@[simp] theorem Memory.read_write_self (m : Memory) (a : Nat) (b : Byte) (h : m.wf = true) : (m.write a b).read a = b := by
  have hw := (Tbl.wf_iff m).mp (by simp only [Memory.wf, Bool.and_eq_true] at h; exact h.1)
  clear h
  induction m with
  | nil =>
    simp only [Memory.write]
    split
    · simp_all [Memory.read]
    · simp [Memory.read]
  | cons c t ih =>
    obtain ⟨k, v⟩ := c
    rw [List.pairwise_cons] at hw
    simp only [Memory.write]
    split
    · split
      · rename_i h1 h2
        simp only [Memory.read]
        rw [if_neg (by omega), if_pos h1, h2]
      · simp [Memory.read]
    · split
      · rename_i h2
        subst h2
        split
        · rename_i hb
          subst hb
          cases t with
          | nil => rfl
          | cons d t =>
            obtain ⟨k', v'⟩ := d
            have : a < k' := hw.1 (k', v') (by simp)
            simp only [Memory.read]
            rw [if_neg (by omega), if_pos this]
        · simp [Memory.read]
      · simp only [Memory.read]
        rw [if_neg (by omega), if_neg (by omega), ih hw.2]

/-- A write leaves every other byte alone. -/
theorem Memory.read_write_ne {m : Memory} {a x : Nat} (b : Byte) (h : m.wf = true) (hx : x ≠ a) :
    (m.write a b).read x = m.read x := by
  have hw := (Tbl.wf_iff m).mp (by simp only [Memory.wf, Bool.and_eq_true] at h; exact h.1)
  clear h
  induction m with
  | nil =>
    simp only [Memory.write]
    split
    · rfl
    · simp only [Memory.read]
      rw [if_neg (by omega)]
      split <;> rfl
  | cons c t ih =>
    obtain ⟨k, v⟩ := c
    rw [List.pairwise_cons] at hw
    simp only [Memory.write]
    split
    · split
      · rfl
      · simp only [Memory.read]
        rw [if_neg (by omega)]
        split
        · rw [if_neg (by omega), if_pos (by omega)]
        · rfl
    · split
      · rename_i h2
        subst h2
        split
        · cases t with
          | nil => simp [Memory.read, Ne.symm hx]
          | cons d t =>
            obtain ⟨k', v'⟩ := d
            have : a < k' := hw.1 (k', v') (by simp)
            simp only [Memory.read, if_neg (Ne.symm hx)]
            split
            · rw [if_neg (by omega)]
            · split
              · rw [ite_self]
              · rw [if_neg (by omega)]
        · simp only [Memory.read, if_neg (Ne.symm hx)]
      · simp only [Memory.read, ih hw.2]

/-- Where the bytes of a written memory come from. -/
theorem Memory.mem_write {m : Memory} {a : Nat} {b : Byte} {p : Nat × Byte} (h : p ∈ m.write a b) :
    (p = (a, b) ∧ b ≠ Memory.unlisted) ∨ p ∈ m := by
  induction m with
  | nil =>
    simp only [Memory.write] at h
    split at h <;> simp_all
  | cons c t ih =>
    obtain ⟨k, v⟩ := c
    simp only [Memory.write] at h
    split at h
    · split at h <;> simp_all
    · split at h
      · split at h
        · exact .inr (List.mem_cons_of_mem _ h)
        · rcases List.mem_cons.mp h with h | h
          · exact .inl ⟨h, by assumption⟩
          · exact .inr (List.mem_cons_of_mem _ h)
      · rcases List.mem_cons.mp h with h | h
        · exact .inr (h ▸ List.mem_cons_self)
        · exact (ih h).imp id (List.mem_cons_of_mem _)

/-- A write keeps the canonical form. -/
theorem Memory.wf_write {m : Memory} (a : Nat) (b : Byte) (h : m.wf = true) : (m.write a b).wf = true := by
  simp only [Memory.wf, Bool.and_eq_true, List.all_eq_true, bne_iff_ne, ne_eq] at *
  refine ⟨?_, fun p hp => ?_⟩
  · have hw := (Tbl.wf_iff m).mp h.1
    rw [Tbl.wf_iff]
    clear h
    induction m with
    | nil =>
      simp only [Memory.write]
      split <;> simp
    | cons c t ih =>
      obtain ⟨k, v⟩ := c
      have hw' := List.pairwise_cons.mp hw
      simp only [Memory.write]
      split
      · rename_i hi
        split
        · exact hw
        · refine List.pairwise_cons.mpr ⟨fun c hc => ?_, hw⟩
          rcases List.mem_cons.mp hc with rfl | hc
          · exact hi
          · exact hi.trans (hw'.1 c hc)
      · split
        · rename_i hi
          subst hi
          split
          · exact hw'.2
          · exact List.pairwise_cons.mpr hw'
        · refine List.pairwise_cons.mpr ⟨fun c hc => ?_, ih hw'.2⟩
          rcases Memory.mem_write hc with ⟨rfl, -⟩ | hc
          · simp only; omega
          · exact hw'.1 c hc
  · rcases Memory.mem_write hp with ⟨rfl, hb⟩ | hp
    · exact hb
    · exact h.2 p hp

/-- Writes of bytes keep the canonical form. -/
theorem Memory.wf_writeBytes {m : Memory} (a : Nat) (bs : List Byte) (h : m.wf = true) : (m.writeBytes a bs).wf = true := by
  induction bs generalizing m a with
  | nil => exact h
  | cons b bs ih => exact ih _ (Memory.wf_write a b h)

/-- Writes of cells keep the canonical form. -/
theorem Memory.wf_writeCells {m : Memory} (cs : List (Nat × Byte)) (h : m.wf = true) : (m.writeCells cs).wf = true := by
  unfold Memory.writeCells
  induction cs generalizing m with
  | nil => exact h
  | cons c cs ih => exact ih (Memory.wf_write _ _ h)

/-- Dropping listed bytes keeps the canonical form. -/
theorem Memory.wf_filter {m : Memory} (f : Nat × Byte → Bool) (h : m.wf = true) : Memory.wf (m.filter f) = true := by
  simp only [Memory.wf, Bool.and_eq_true, List.all_eq_true, bne_iff_ne, ne_eq] at *
  exact ⟨Tbl.wf_sublist List.filter_sublist h.1, fun p hp => h.2 p (List.mem_of_mem_filter hp)⟩

/-- Clearing bytes keeps the canonical form. -/
theorem Memory.wf_clear {m : Memory} (a n : Nat) (h : m.wf = true) : (m.clear a n).wf = true := Memory.wf_filter _ h

/-! The register table. -/

theorem RegsWf.nil : RegsWf [] := ⟨rfl, by simp⟩

/-- Setting a register keeps the table canonical. -/
theorem RegsWf.regsSet {t : Tbl Word} (k : Nat) (v : Word) (h : RegsWf t) : RegsWf (regsSet t k v) := by
  unfold Machine.regsSet
  split
  · exact ⟨Tbl.wf_sublist List.filter_sublist h.1, fun p hp => h.2 p (List.mem_of_mem_filter hp)⟩
  · refine ⟨Tbl.wf_set _ _ h.1, fun p hp => ?_⟩
    rcases Tbl.mem_set hp with rfl | hp
    · assumption
    · exact h.2 p hp

/-- Forgetting registers keeps the table canonical. -/
theorem RegsWf.filter {t : Tbl Word} (f : Nat × Word → Bool) (h : RegsWf t) : RegsWf (t.filter f) :=
  ⟨Tbl.wf_sublist List.filter_sublist h.1, fun p hp => h.2 p (List.mem_of_mem_filter hp)⟩

/-- Rewriting registers one by one keeps the table canonical, if each keeps its key and none is left at its reset value. -/
theorem RegsWf.filterMap {t : Tbl Word} {f : Nat × Word → Option (Nat × Word)} (h : RegsWf t)
    (hf : ∀ p ∈ t, ∀ q, f p = some q → q.1 = p.1 ∧ q.2 ≠ regReset q.1) : RegsWf (t.filterMap f) := by
  refine ⟨?_, fun q hq => ?_⟩
  · rw [Tbl.wf_iff, List.pairwise_filterMap]
    have hp := (Tbl.wf_iff t).mp h.1
    exact hp.imp_of_mem (fun ha hb hab c hc d hd => by rw [(hf _ ha c hc).1, (hf _ hb d hd).1]; exact hab)
  · obtain ⟨p, hp, e⟩ := List.mem_filterMap.mp hq
    exact (hf p hp q e).2

/-- A register set reads as what was written. -/
@[simp] theorem State.regAt_setReg_self (s : State) (k : Nat) (v : Word) : (s.setReg k v).regAt k = v := by
  unfold State.regAt State.setReg Machine.regsSet
  split
  · rename_i h
    simp [Tbl.get?_erase_self, h]
  · simp

/-- Setting a register leaves every other register alone, in a canonical table. -/
theorem State.regAt_setReg_ne {s : State} {k j : Nat} (v : Word) (hw : Tbl.wf s.regs = true) (h : j ≠ k) :
    (s.setReg k v).regAt j = s.regAt j := by
  unfold State.regAt State.setReg Machine.regsSet
  split
  · simp [Tbl.get?_erase_ne hw h]
  · simp [Tbl.get?_set_ne _ _ h]

end Sys2Proof.Machine
end

