-- ==== Sys2Proof/Laws/Keeps.lean ====
section
/-! SUPPORT. What every operation of the machine keeps: the queue, what has left the device, the image epoch and the fused
SVN as they only rise, the canonical forms, and the parts of the state an operation does not touch. -/
namespace Sys2Proof.Machine
open Sys2Proof

theorem State.same_refl (s : State) (p : Part) : s.same s p := by cases p <;> rfl

theorem State.same_trans {s t u : State} {p : Part} (h : s.same t p) (k : t.same u p) : s.same u p := by
  cases p <;> exact Eq.trans k h

variable {M : Part → Prop}

/-- What holds from `s` to `t`: the queue is the same, what left the device stays, the image epoch and the fused SVN do not
fall, the canonical forms hold on, and every part outside `M` is the same. -/
structure Keeps (M : Part → Prop) (s t : State) : Prop where
  pending : t.pending = s.pending
  out : s.host.out <+: t.host.out
  epoch : s.wst.epoch ≤ t.wst.epoch
  svn : s.pwr.fusedSvn ≤ t.pwr.fusedSvn
  cells : s.mem.cells.wf = true → t.mem.cells.wf = true
  regs : RegsWf s.regs → RegsWf t.regs
  parts : ∀ p, ¬M p → s.same t p := by intro p hp; cases p <;> first | exact (hp Fact.out).elim | rfl

theorem Keeps.refl (s : State) : Keeps M s s := ⟨rfl, List.prefix_rfl, le_rfl, le_rfl, id, id, fun p _ => s.same_refl p⟩

theorem Keeps.trans {s t u : State} (h : Keeps M s t) (k : Keeps M t u) : Keeps M s u :=
  ⟨k.pending.trans h.pending, h.out.trans k.out, h.epoch.trans k.epoch, h.svn.trans k.svn, k.cells ∘ h.cells, k.regs ∘ h.regs,
   fun p hp => State.same_trans (h.parts p hp) (k.parts p hp)⟩

theorem Keeps.upd {s0 s t : State} (h : Keeps M s0 s) (h1 : t.pending = s.pending) (h2 : t.wst.epoch = s.wst.epoch)
    (h3 : t.host.out = s.host.out) (h4 : t.mem.cells = s.mem.cells) (h5 : t.regs = s.regs)
    (h6 : t.pwr.fusedSvn = s.pwr.fusedSvn)
    (hp : ∀ p, ¬M p → State.same s t p := by intro p hp; cases p <;> first | exact (hp Fact.out).elim | rfl) : Keeps M s0 t :=
  h.trans ⟨h1, h3 ▸ List.prefix_rfl, h2.ge, h6.ge, fun x => h4 ▸ x, fun x => h5 ▸ x, hp⟩

theorem Keeps.mk' {s0 b : State} {ts fc r h u l m rf e pw sc mg rd w en} (hb : Keeps M s0 b) (h2 : b.wst.epoch ≤ w.epoch)
    (h3 : h.out = b.host.out) (h4 : b.mem.cells.wf = true → m.cells.wf = true) (h5 : RegsWf b.regs → RegsWf r)
    (h6 : b.pwr.fusedSvn ≤ pw.fusedSvn)
    (h_ts : ¬M .ts → ts = b.ts := by first | exact fun h => (h Fact.out).elim | exact fun _ => rfl)
    (h_free : ¬M .free → fc = b.freeCtr := by first | exact fun h => (h Fact.out).elim | exact fun _ => rfl)
    (h_regs : ¬M .regs → r = b.regs := by first | exact fun h => (h Fact.out).elim | exact fun _ => rfl)
    (h_host : ¬M .host → h = b.host := by first | exact fun h => (h Fact.out).elim | exact fun _ => rfl)
    (h_ump : ¬M .ump → u = b.ump := by first | exact fun h => (h Fact.out).elim | exact fun _ => rfl)
    (h_lkr : ¬M .lkr → l = b.lkr := by first | exact fun h => (h Fact.out).elim | exact fun _ => rfl)
    (h_mem : ¬M .mem → m = b.mem := by first | exact fun h => (h Fact.out).elim | exact fun _ => rfl)
    (h_cells : ¬M .cells → m.cells = b.mem.cells := by first | exact fun h => (h Fact.out).elim | exact fun _ => rfl)
    (h_ref : ¬M .ref → rf = b.ref := by first | exact fun h => (h Fact.out).elim | exact fun _ => rfl)
    (h_err : ¬M .err → e = b.err := by first | exact fun h => (h Fact.out).elim | exact fun _ => rfl)
    (h_pwr : ¬M .pwr → pw = b.pwr := by first | exact fun h => (h Fact.out).elim | exact fun _ => rfl)
    (h_scb : ¬M .scb → sc = b.scb := by first | exact fun h => (h Fact.out).elim | exact fun _ => rfl)
    (h_mgl : ¬M .mgl → mg = b.mgl := by first | exact fun h => (h Fact.out).elim | exact fun _ => rfl)
    (h_rdc : ¬M .rdc → rd = b.rdc := by first | exact fun h => (h Fact.out).elim | exact fun _ => rfl)
    (h_wst : ¬M .wst → w = b.wst := by first | exact fun h => (h Fact.out).elim | exact fun _ => rfl)
    (h_eng : ¬M .eng → en = b.eng := by first | exact fun h => (h Fact.out).elim | exact fun _ => rfl) :
    Keeps M s0 ⟨b.pending, ts, fc, r, h, u, l, m, rf, e, pw, sc, mg, rd, w, en⟩ :=
  hb.trans (.mk rfl (h3 ▸ List.prefix_rfl) h2 h6 h4 h5 (fun p hp => by cases p <;> simp_all only [State.same, not_false_eq_true, forall_const]))

theorem Keeps.ite {s0 a b : State} {c : Prop} [Decidable c] (ha : c → Keeps M s0 a) (hb : ¬c → Keeps M s0 b) :
    Keeps M s0 (if c then a else b) := by split <;> simp_all

theorem Keeps.dite {s0 : State} {c : Prop} [Decidable c] {a : c → State} {b : ¬c → State} (ha : ∀ h, Keeps M s0 (a h))
    (hb : ∀ h, Keeps M s0 (b h)) : Keeps M s0 (if h : c then a h else b h) := by split <;> simp_all

theorem Keeps.iteSnd {α : Type} {s0 : State} {a b : α × State} {c : Prop} [Decidable c] (ha : c → Keeps M s0 a.2)
    (hb : ¬c → Keeps M s0 b.2) : Keeps M s0 (if c then a else b).2 := by split <;> simp_all

theorem Keeps.foldl {α : Type} {s0 s : State} {f : State → α → State} {l : List α} (h : Keeps M s0 s)
    (k : ∀ t x, Keeps M s0 t → Keeps M s0 (f t x)) : Keeps M s0 (l.foldl f s) := by
  induction l generalizing s with
  | nil => exact h
  | cons a l ih => exact ih (k _ _ h)

theorem Keeps.foldlSnd {α β : Type} {s0 : State} {z : β × State} {f : β × State → α → β × State} {l : List α} (h : Keeps M s0 z.2)
    (k : ∀ (t : β × State) x, Keeps M s0 t.2 → Keeps M s0 (f t x).2) : Keeps M s0 (l.foldl f z).2 := by
  induction l generalizing z with
  | nil => exact h
  | cons a l ih => exact ih (k _ _ h)

theorem Keeps.elim {α : Type} {s0 x : State} {f : α → State} {o : Option α} (h : Keeps M s0 x) (k : ∀ a, Keeps M s0 (f a)) :
    Keeps M s0 (o.elim x f) := by cases o <;> simp_all

theorem Keeps.pairSnd {α : Type} {s0 t : State} {a : α} {p : α × State} (h : p = (a, t)) (k : Keeps M s0 p.2) : Keeps M s0 t := by
  subst h; exact k

def KeepsO (M : Part → Prop) (s0 : State) (o : Host.Outcome State Fault Refusal) : Prop := ∀ t, o = .next t → Keeps M s0 t

theorem KeepsO.next {s0 t : State} (h : Keeps M s0 t) : KeepsO M s0 (.next t) := by
  intro t' e; cases e; exact h
theorem KeepsO.fault {s0 : State} {f : Fault} : KeepsO M s0 (.fault f) := by intro t e; cases e
theorem KeepsO.refused {s0 : State} {f : Refusal} : KeepsO M s0 (.refused f) := by intro t e; cases e
theorem KeepsO.ite {s0 : State} {a b : Host.Outcome State Fault Refusal} {c : Prop} [Decidable c] (ha : c → KeepsO M s0 a)
    (hb : ¬c → KeepsO M s0 b) : KeepsO M s0 (if c then a else b) := by split <;> simp_all
theorem KeepsO.elim {α : Type} {s0 : State} {x : Host.Outcome State Fault Refusal} {f : α → Host.Outcome State Fault Refusal}
    {o : Option α} (h : KeepsO M s0 x) (k : ∀ a, KeepsO M s0 (f a)) : KeepsO M s0 (o.elim x f) := by cases o <;> simp_all

def KeepsT (M : Part → Prop) (s0 : State) (r : TenantReply) : Prop := Keeps M s0 r.2.2
theorem KeepsT.mk {s0 t : State} {st : Nat} {body : List Byte} (h : Keeps M s0 t) : KeepsT M s0 (st, body, t) := h
theorem KeepsT.ite {s0 : State} {a b : TenantReply} {c : Prop} [Decidable c] (ha : c → KeepsT M s0 a)
    (hb : ¬c → KeepsT M s0 b) : KeepsT M s0 (if c then a else b) := by split <;> simp_all
theorem KeepsT.elim {α : Type} {s0 : State} {x : TenantReply} {f : α → TenantReply}
    {o : Option α} (h : KeepsT M s0 x) (k : ∀ a, KeepsT M s0 (f a)) : KeepsT M s0 (o.elim x f) := by cases o <;> simp_all
def KeepsM (M : Part → Prop) (s0 : State) (r : Option (State × List Nat)) : Prop := ∀ s l, r = some (s, l) → Keeps M s0 s
theorem Keeps.viaMade {P : Prop} {s0 t : State} {l : List Nat} {p : Option (State × List Nat)} (h : p = some (t, l))
    (k : KeepsM M s0 p)
    (g : Keeps M s0 t → P) : P := g (k t l h)
theorem Keeps.viaTriple {P : Prop} {s0 t : State} {a : Nat} {b : List Byte} {p : TenantReply} (h : p = (a, b, t))
    (k : KeepsT M s0 p)
    (g : Keeps M s0 t → P) : P := g (by subst h; exact k)
theorem Keeps.viaFst {α : Type} {P : Prop} {s0 t : State} {a : α} {p : State × α} (h : p = (t, a)) (k : Keeps M s0 p.1)
    (g : Keeps M s0 t → P) : P :=
  g (by subst h; exact k)

def KeepsQ (M : Part → Prop) (s0 : State) (o : Option State) : Prop := ∀ t, o = some t → Keeps M s0 t
theorem KeepsQ.some {s0 t : State} (h : Keeps M s0 t) : KeepsQ M s0 (.some t) := by intro t' e; cases e; exact h
theorem KeepsQ.none {s0 : State} : KeepsQ M s0 .none := by intro t e; cases e
theorem KeepsQ.ite {s0 : State} {a b : Option State} {c : Prop} [Decidable c] (ha : c → KeepsQ M s0 a)
    (hb : ¬c → KeepsQ M s0 b) : KeepsQ M s0 (if c then a else b) := by split <;> simp_all
theorem KeepsQ.out {s0 t : State} {o : Option State} (h : o = .some t) (k : KeepsQ M s0 o) : Keeps M s0 t := k t h

def KeepsE (M : Part → Prop) (s0 : State) (o : Except State State) : Prop := (∀ t, o = .ok t → Keeps M s0 t) ∧ (∀ t, o = .error t → Keeps M s0 t)
theorem KeepsE.ok {s0 t : State} (h : Keeps M s0 t) : KeepsE M s0 (.ok t) :=
  And.intro (fun _ e => by cases e; exact h) (fun _ e => by cases e)
theorem KeepsE.error {s0 t : State} (h : Keeps M s0 t) : KeepsE M s0 (.error t) :=
  And.intro (fun _ e => by cases e) (fun _ e => by cases e; exact h)
theorem Keeps.viaPair {α : Type} {P : Prop} {s0 t : State} {a : α} {p : α × State} (h : p = (a, t)) (k : Keeps M s0 p.2)
    (g : Keeps M s0 t → P) : P :=
  g (by subst h; exact k)
theorem Keeps.viaSome {P : Prop} {s0 t : State} {p : Option State} (h : p = some t) (k : KeepsQ M s0 p) (g : Keeps M s0 t → P)
    : P :=
  g (k t h)
theorem Keeps.viaOk {P : Prop} {s0 t : State} {p : Except State State} (h : p = .ok t) (k : KeepsE M s0 p)
    (g : Keeps M s0 t → P) : P :=
  g (k.1 t h)
theorem Keeps.viaError {P : Prop} {s0 t : State} {p : Except State State} (h : p = .error t) (k : KeepsE M s0 p)
    (g : Keeps M s0 t → P) : P :=
  g (k.2 t h)
theorem Keeps.viaNext {P : Prop} {s0 t : State} {p : Host.Outcome State Fault Refusal} (h : p = .next t) (k : KeepsO M s0 p)
    (g : Keeps M s0 t → P) : P :=
  g (k t h)
theorem KeepsE.ite {s0 : State} {a b : Except State State} {c : Prop} [Decidable c] (ha : c → KeepsE M s0 a)
    (hb : ¬c → KeepsE M s0 b) : KeepsE M s0 (if c then a else b) := by split <;> simp_all

theorem Keeps.setCells [Fact (M .mem)] [Fact (M .cells)] {s0 s : State} {m : MemState} (h : Keeps M s0 s)
    (k : s.mem.cells.wf = true → m.cells.wf = true) :
    Keeps M s0 { s with mem := m } := h.trans (.mk rfl List.prefix_rfl le_rfl le_rfl k id)
end Sys2Proof.Machine
end

