-- ==== Sys2Proof/Laws/KeepsOps.lean ====
section
/-! SUPPORT. One lemma per shared operation: what it keeps (Laws/Keeps.lean), the parts it may touch as instances. -/
namespace Sys2Proof.Machine
open Sys2Proof
set_option linter.all false
set_option Elab.async false
variable {M : Part → Prop}

theorem State.freed_keeps {M : Part → Prop} [Fact (M .free)] {s0 : State} {s : Sys2Proof.Machine.State} (hK : Keeps M s0 s) :
    Keeps M s0 (State.freed s) := by
  unfold State.freed
  refine Keeps.mk' ?_ le_rfl rfl (fun x => x) (fun x => x) le_rfl
  with_reducible assumption

theorem countSets_keeps {M : Part → Prop} [Fact (M .scb)] {s0 : State} {s : Sys2Proof.Machine.State} {cls : ℕ} {event : ℕ}
    {n : ℕ} {c : Sys2Proof.Machine.Counted} (hK : Keeps M s0 s) :
    Keeps M s0 (countSets s cls event n c) := by
  unfold countSets
  refine Keeps.ite ?_ ?_
  · intro x0
    with_reducible assumption
  · intro x1
    extract_lets v2 v3
    refine Keeps.mk' ?_ le_rfl rfl (fun x => x) (fun x => x) le_rfl
    with_reducible assumption

theorem State.setReg_keeps [Fact (M .regs)] {s0 s : State} {key : Nat} {v : Word} (h : Keeps M s0 s) : Keeps M s0
    (s.setReg key v) :=
  h.trans (.mk rfl List.prefix_rfl le_rfl le_rfl id (RegsWf.regsSet key v))

theorem State.setFld_keeps {M : Part → Prop} [Fact (M .regs)] {s0 : State} {s : Sys2Proof.Machine.State} {key : ℕ} {lo : ℕ}
    {w : ℕ} {x : ℕ} (hK : Keeps M s0 s) :
    Keeps M s0 (State.setFld s key lo w x) := by
  unfold State.setFld
  refine State.setReg_keeps ?_
  with_reducible assumption

theorem State.addCounter_keeps {M : Part → Prop} [Fact (M .regs)] [Fact (M .scb)] {s0 : State} {s : Sys2Proof.Machine.State}
    {b : ℕ} {i : ℕ} {n : ℕ} (hK : Keeps M s0 s) :
    Keeps M s0 (State.addCounter s b i n) := by
  unfold State.addCounter
  extract_lets v0 v1 v2 v3
  have h4 : Keeps M s0 v3 := by
    unfold v3
    refine Keeps.mk' ?_ le_rfl rfl (fun x => x) (fun x => x) le_rfl
    with_reducible assumption
  clear_value v3
  refine Keeps.ite ?_ ?_
  · intro x5
    refine State.setFld_keeps ?_
    with_reducible assumption
  · intro x6
    with_reducible assumption

theorem State.count_keeps {M : Part → Prop} [Fact (M .regs)] [Fact (M .scb)] {s0 : State} {s : Sys2Proof.Machine.State}
    {b : ℕ} {cls : ℕ} {event : ℕ} {n : ℕ} {c : Sys2Proof.Machine.Counted} (hK : Keeps M s0 s) :
    Keeps M s0 (State.count s b cls event n c) := by
  unfold State.count
  extract_lets v0
  refine countSets_keeps ?_
  refine Keeps.foldl ?_ ?_
  · with_reducible assumption
  · intro x1
    intro x2
    intro x3
    unfold v0
    extract_lets v4
    refine Keeps.ite ?_ ?_
    · intro x5
      refine State.addCounter_keeps ?_
      with_reducible assumption
    · intro x6
      with_reducible assumption

theorem State.countLines_keeps [Fact (M .free)] [Fact (M .regs)] [Fact (M .scb)] {s0 s : State} {event : Nat} {ls : List Nat}
    {c : Counted} (hK : Keeps M s0 s) :
    Keeps M s0 (s.countLines event ls c) := by
  have fold {β : Type} {f : State × β → Nat → State × β} (hf : ∀ t x, Keeps M s0 t.1 → Keeps M s0 (f t x).1) :
      ∀ (l : List Nat) (z : State × β), Keeps M s0 z.1 → Keeps M s0 (l.foldl f z).1 := by
    intro l
    induction l with
    | nil => exact fun z h => h
    | cons a l ih => exact fun z h => ih _ (hf _ _ h)
  unfold State.countLines
  refine fold (fun t x h => ?_) _ _ hK
  dsimp only
  split
  · exact State.count_keeps h
  · exact State.count_keeps (State.freed_keeps (State.count_keeps h))

theorem State.writeLine_keeps {M : Part → Prop} [Fact (M .mem)] [Fact (M .cells)] {s0 : State} {s : Sys2Proof.Machine.State}
    {line : ℕ} {bs : List Sys2Proof.Byte} (hK : Keeps M s0 s) :
    Keeps M s0 (State.writeLine s line bs) := by
  unfold State.writeLine
  extract_lets v0 v1
  split
  · refine Keeps.mk' ?_ (by first | exact le_rfl | (split <;> exact le_rfl) | (dsimp only; split; exact le_max_left _ _; exact le_rfl)) (by first | rfl | (split <;> rfl)) (by first | exact fun x => x | exact fun x => Memory.wf_filter _ x | exact fun x => Memory.wf_writeBytes _ _ x | exact fun x => Memory.wf_writeCells _ x | exact fun x => RegsWf.filter _ x) (by first | exact fun x => x | exact fun x => Memory.wf_filter _ x | exact fun x => Memory.wf_writeBytes _ _ x | exact fun x => Memory.wf_writeCells _ x | exact fun x => RegsWf.filter _ x) (by first | exact le_rfl | (split <;> exact le_rfl) | (dsimp only; split; exact le_max_left _ _; exact le_rfl))
    with_reducible assumption

theorem State.zeroFill_keeps {M : Part → Prop} [Fact (M .mem)] [Fact (M .cells)] {s0 : State} {s : Sys2Proof.Machine.State}
    {mp : ℕ} (hK : Keeps M s0 s) :
    Keeps M s0 (State.zeroFill s mp) := by
  unfold State.zeroFill
  refine Keeps.foldl ?_ ?_
  · with_reducible assumption
  · intro x0
    intro x1
    intro x2
    refine State.writeLine_keeps ?_
    with_reducible assumption

theorem State.kvZeroFill_keeps {M : Part → Prop} [Fact (M .mem)] [Fact (M .cells)] {s0 : State} {s : Sys2Proof.Machine.State}
    {p : ℕ} (hK : Keeps M s0 s) :
    Keeps M s0 (State.kvZeroFill s p) := by
  unfold State.kvZeroFill
  refine Keeps.foldl ?_ ?_
  · with_reducible assumption
  · intro x0
    intro x1
    intro x2
    refine State.zeroFill_keeps ?_
    with_reducible assumption

theorem State.setPages_keeps {M : Part → Prop} [Fact (M .mem)] {s0 : State} {s : Sys2Proof.Machine.State} {ps : List ℕ}
    {e : Sys2Proof.Machine.PageEntry} (hK : Keeps M s0 s) :
    Keeps M s0 (State.setPages s ps e) := by
  unfold State.setPages
  refine Keeps.mk' ?_ le_rfl rfl (fun x => x) (fun x => x) le_rfl
  with_reducible assumption

theorem State.kvAssign_keeps {M : Part → Prop} [Fact (M .mem)] {s0 : State} {s : Sys2Proof.Machine.State} {c : ℕ}
    {ps : List ℕ} (hK : Keeps M s0 s) :
    Keeps M s0 (State.kvAssign s c ps) := by
  unfold State.kvAssign
  refine State.setPages_keeps ?_
  with_reducible assumption

theorem State.modReq_keeps {M : Part → Prop} [Fact (M .ump)] {s0 : State} {s : Sys2Proof.Machine.State} {c : ℕ} {id : ℕ}
    {f : Sys2Proof.Machine.Request → Sys2Proof.Machine.Request} (hK : Keeps M s0 s) :
    Keeps M s0 (State.modReq s c id f) := by
  unfold State.modReq
  refine Keeps.mk' ?_ le_rfl rfl (fun x => x) (fun x => x) le_rfl
  with_reducible assumption

theorem State.giveKv_keeps {M : Part → Prop} [Fact (M .ump)] [Fact (M .mem)] {s0 : State} {s : Sys2Proof.Machine.State}
    {c : ℕ} {id : ℕ} {ps : List ℕ} (hK : Keeps M s0 s) :
    Keeps M s0 (State.giveKv s c id ps) := by
  unfold State.giveKv
  refine State.modReq_keeps ?_
  refine State.kvAssign_keeps ?_
  with_reducible assumption

theorem State.bump_keeps {M : Part → Prop} [Fact (M .regs)] {s0 : State} {s : Sys2Proof.Machine.State} {key : ℕ} {n : ℕ}
    (hK : Keeps M s0 s) :
    Keeps M s0 (State.bump s key n) := by
  unfold State.bump
  refine State.setReg_keeps ?_
  with_reducible assumption

theorem settleJoin_keeps [Fact (M .regs)] [Fact (M .ump)] [Fact (M .mem)] [Fact (M .cells)] {s0 : State} {b : Starting}
    {z : Settle} {p : ListEntry × Nat} (hK : Keeps M s0 z.s) :
    Keeps M s0 (settleJoin b z p).s := by
  unfold settleJoin
  dsimp only
  rw [apply_ite Settle.s]
  refine Keeps.ite (fun _ => hK) (fun _ => ?_)
  rw [apply_ite Settle.s]
  refine Keeps.ite (fun _ => State.bump_keeps hK) (fun _ => ?_)
  refine Keeps.foldl (State.giveKv_keeps (Keeps.ite (fun _ => State.modReq_keeps hK) (fun _ => ?_)))
    (fun t x h => State.kvZeroFill_keeps h)
  exact Keeps.mk' hK le_rfl rfl (fun x => x) (fun x => x) le_rfl

theorem State.unbindSets_keeps {M : Part → Prop} [Fact (M .regs)] {s0 : State} {s : Sys2Proof.Machine.State} {c : ℕ}
    (hK : Keeps M s0 s) :
    Keeps M s0 (State.unbindSets s c) := by
  unfold State.unbindSets
  refine Keeps.foldl ?_ ?_
  · with_reducible assumption
  · intro x0
    intro x1
    intro x2
    refine State.setFld_keeps ?_
    with_reducible assumption

theorem State.dropServe_keeps {M : Part → Prop} [Fact (M .ump)] {s0 : State} {s : Sys2Proof.Machine.State} {did : ℕ}
    (hK : Keeps M s0 s) :
    Keeps M s0 (State.dropServe s did) := by
  unfold State.dropServe
  refine Keeps.mk' ?_ le_rfl rfl (fun x => x) (fun x => x) le_rfl
  with_reducible assumption

theorem State.freePages_keeps {M : Part → Prop} [Fact (M .mem)] {s0 : State} {s : Sys2Proof.Machine.State} {ps : List ℕ}
    (hK : Keeps M s0 s) :
    Keeps M s0 (State.freePages s ps) := by
  unfold State.freePages
  refine Keeps.mk' ?_ le_rfl rfl (fun x => x) (fun x => x) le_rfl
  with_reducible assumption

theorem State.setQueue_keeps {M : Part → Prop} [Fact (M .scb)] {s0 : State} {s : Sys2Proof.Machine.State} {n : ℕ}
    {q : Sys2Proof.Machine.TraceQueue} (hK : Keeps M s0 s) :
    Keeps M s0 (State.setQueue s n q) := by
  unfold State.setQueue
  refine Keeps.mk' ?_ le_rfl rfl (fun x => x) (fun x => x) le_rfl
  with_reducible assumption

theorem State.trace_keeps {M : Part → Prop} [Fact (M .free)] [Fact (M .scb)] {s0 : State} {s : Sys2Proof.Machine.State}
    {n : ℕ} {kind : ℕ} {ctx : ℕ} {data : ℕ} {isSealed : Bool} (hK : Keeps M s0 s) :
    Keeps M s0 (State.trace s n kind ctx data isSealed) := by
  unfold State.trace
  extract_lets v0 v1 v2 v3 v4
  have h5 : Keeps M s0 v4 := by
    unfold v4
    refine State.freed_keeps ?_
    with_reducible assumption
  clear_value v4
  refine Keeps.ite ?_ ?_
  · intro x6
    with_reducible assumption
  · intro x7
    refine Keeps.ite ?_ ?_
    · intro x8
      refine State.setQueue_keeps ?_
      with_reducible assumption
    · intro x9
      refine State.setQueue_keeps ?_
      with_reducible assumption

theorem State.setCtx_keeps {M : Part → Prop} [Fact (M .host)] {s0 : State} {s : Sys2Proof.Machine.State} {c : ℕ}
    {x : Sys2Proof.Machine.Context} (hK : Keeps M s0 s) :
    Keeps M s0 (State.setCtx s c x) := by
  unfold State.setCtx
  refine Keeps.mk' ?_ le_rfl rfl (fun x => x) (fun x => x) le_rfl
  with_reducible assumption

theorem State.modCtx_keeps {M : Part → Prop} [Fact (M .host)] {s0 : State} {s : Sys2Proof.Machine.State} {c : ℕ}
    {f : Sys2Proof.Machine.Context → Sys2Proof.Machine.Context} (hK : Keeps M s0 s) :
    Keeps M s0 (State.modCtx s c f) := by
  unfold State.modCtx
  split
  · refine State.setCtx_keeps ?_
    with_reducible assumption
  · with_reducible assumption

theorem State.modRing_keeps {M : Part → Prop} [Fact (M .host)] {s0 : State} {s : Sys2Proof.Machine.State} {c : ℕ} {r : ℕ}
    {f : Sys2Proof.Machine.Ring → Sys2Proof.Machine.Ring} (hK : Keeps M s0 s) :
    Keeps M s0 (State.modRing s c r f) := by
  unfold State.modRing
  refine State.modCtx_keeps ?_
  with_reducible assumption

theorem State.emit_keeps [Fact (M .host)] {s0 s : State} {o : Output} (h : Keeps M s0 s) : Keeps M s0 (s.emit o) :=
  h.trans (.mk rfl (List.prefix_append _ _) le_rfl le_rfl id id)

theorem State.writeback_keeps {M : Part → Prop} [Fact (M .host)] {s0 : State} {s : Sys2Proof.Machine.State} {c : ℕ} {r : ℕ}
    (hK : Keeps M s0 s) :
    Keeps M s0 (State.writeback s c r) := by
  unfold State.writeback
  split
  · extract_lets v0 v1 v2
    have h3 : Keeps M s0 v2 := by
      unfold v2
      refine State.emit_keeps ?_
      with_reducible assumption
    clear_value v2
    refine Keeps.ite ?_ ?_
    · intro x4
      refine State.emit_keeps ?_
      refine State.modRing_keeps ?_
      with_reducible assumption
    · intro x5
      with_reducible assumption
  · with_reducible assumption

theorem State.produce_keeps {M : Part → Prop} [Fact (M .host)] {s0 : State} {s : Sys2Proof.Machine.State} {c : ℕ} {r : ℕ}
    {value : ℕ} (hK : Keeps M s0 s) :
    Keeps M s0 (State.produce s c r value) := by
  unfold State.produce
  split
  · extract_lets v0 v1
    have h2 : Keeps M s0 v1 := by
      unfold v1
      refine State.emit_keeps ?_
      with_reducible assumption
    clear_value v1
    refine State.writeback_keeps ?_
    refine State.modRing_keeps ?_
    with_reducible assumption
  · with_reducible assumption

theorem State.modPort_keeps [Fact (M .host)] {s0 s : State} {p : Port} {f : PortState → PortState} (h : Keeps M s0 s) : Keeps
    M s0 (s.modPort p f) :=
  h.upd rfl rfl (by cases p <;> rfl) rfl rfl rfl

theorem State.drop_keeps {M : Part → Prop} [Fact (M .host)] {s0 : State} {s : Sys2Proof.Machine.State}
    {a : Sys2Proof.Machine.Accepted} (hK : Keeps M s0 s) :
    Keeps M s0 (State.drop s a) := by
  unfold State.drop
  extract_lets v0 v1 v2
  have h3 : Keeps M s0 v1 := by
    unfold v1
    refine State.modPort_keeps ?_
    with_reducible assumption
  clear_value v1
  refine Keeps.mk' ?_ le_rfl rfl (fun x => x) (fun x => x) le_rfl
  with_reducible assumption

theorem State.complete_keeps {M : Part → Prop} [Fact (M .free)] [Fact (M .regs)] [Fact (M .host)] [Fact (M .scb)] {s0 : State}
    {s : Sys2Proof.Machine.State} {did : ℕ} {status : ℕ} {flags : ℕ} {extra : ℕ} {engine : ℕ} (hK : Keeps M s0 s) :
    Keeps M s0 (State.complete s did status flags extra engine) := by
  unfold State.complete
  split
  · with_reducible assumption
  · extract_lets v0 v1 v2 v3 v4 v5 v6
    have h7 : Keeps M s0 v0 := by
      unfold v0
      refine State.drop_keeps ?_
      with_reducible assumption
    clear_value v0
    have h8 : Keeps M s0 v4 := by
      unfold v4
      refine State.modRing_keeps ?_
      with_reducible assumption
    clear_value v4
    have h9 : Keeps M s0 v5 := by
      unfold v5
      refine State.produce_keeps ?_
      with_reducible assumption
    clear_value v5
    have h10 : Keeps M s0 v6 := by
      unfold v6
      refine State.count_keeps ?_
      with_reducible assumption
    clear_value v6
    split
    · with_reducible assumption
    · refine State.trace_keeps ?_
      with_reducible assumption

theorem State.begin_keeps {M : Part → Prop} [Fact (M .host)] {s0 : State} {s : Sys2Proof.Machine.State} {did : ℕ}
    (hK : Keeps M s0 s) :
    Keeps M s0 (State.begin s did) := by
  unfold State.begin
  refine Keeps.mk' ?_ le_rfl rfl (fun x => x) (fun x => x) le_rfl
  with_reducible assumption

theorem State.finish_keeps {M : Part → Prop} [Fact (M .free)] [Fact (M .regs)] [Fact (M .host)] [Fact (M .scb)] {s0 : State}
    {s : Sys2Proof.Machine.State} {did : ℕ} {status : ℕ} {flags : ℕ} {extra : ℕ} {engine : ℕ} (hK : Keeps M s0 s) :
    Keeps M s0 (State.finish s did status flags extra engine) := by
  unfold State.finish
  split
  · with_reducible assumption
  · refine Keeps.ite ?_ ?_
    · intro x0
      extract_lets v1 v2
      have h3 : Keeps M s0 v1 := by
        unfold v1
        refine State.begin_keeps ?_
        with_reducible assumption
      clear_value v1
      refine Keeps.mk' ?_ le_rfl rfl (fun x => x) (fun x => x) le_rfl
      with_reducible assumption
    · intro x4
      refine State.complete_keeps ?_
      with_reducible assumption

theorem State.pushEvent_keeps {M : Part → Prop} [Fact (M .host)] {s0 : State} {s : Sys2Proof.Machine.State} {c : ℕ} {r : ℕ}
    {ev : Sys2Proof.Rec32} (hK : Keeps M s0 s) :
    Keeps M s0 (State.pushEvent s c r ev) := by
  unfold State.pushEvent
  split
  · refine Keeps.ite ?_ ?_
    · intro x0
      refine State.produce_keeps ?_
      with_reducible assumption
    · intro x1
      refine State.modRing_keeps ?_
      with_reducible assumption
  · with_reducible assumption

theorem State.ctxEvent_keeps {M : Part → Prop} [Fact (M .host)] {s0 : State} {s : Sys2Proof.Machine.State} {c : ℕ}
    {ev : Sys2Proof.Rec32} (hK : Keeps M s0 s) :
    Keeps M s0 (State.ctxEvent s c ev) := by
  unfold State.ctxEvent
  split
  · refine State.pushEvent_keeps ?_
    with_reducible assumption
  · with_reducible assumption

theorem State.fetchFail_keeps {M : Part → Prop} [Fact (M .host)] {s0 : State} {s : Sys2Proof.Machine.State} {c : ℕ}
    {reason : ℕ} {adapter : ℕ} (hK : Keeps M s0 s) :
    Keeps M s0 (State.fetchFail s c reason adapter) := by
  unfold State.fetchFail
  refine State.ctxEvent_keeps ?_
  with_reducible assumption

theorem State.adapterBad_keeps {M : Part → Prop} [Fact (M .free)] [Fact (M .regs)] [Fact (M .host)] [Fact (M .scb)]
    {s0 : State} {s : Sys2Proof.Machine.State} {a : Sys2Proof.Machine.Accepted} {reason : ℕ} {adapter : ℕ} (hK : Keeps M s0 s)
    :
    Keeps M s0 (State.adapterBad s a reason adapter) := by
  unfold State.adapterBad
  refine State.finish_keeps ?_
  refine State.fetchFail_keeps ?_
  with_reducible assumption

theorem State.modRun_keeps {M : Part → Prop} [Fact (M .rdc)] {s0 : State} {s : Sys2Proof.Machine.State} {ch : ℕ} {n : ℕ}
    {f : Sys2Proof.Machine.ChanRun → Sys2Proof.Machine.ChanRun} (hK : Keeps M s0 s) :
    Keeps M s0 (State.modRun s ch n f) := by
  unfold State.modRun
  refine Keeps.mk' ?_ le_rfl rfl (fun x => x) (fun x => x) le_rfl
  with_reducible assumption

theorem State.putCells_keeps [Fact (M .mem)] [Fact (M .cells)] {s0 s : State} {cs : List (Nat × Byte)} (h : Keeps M s0 s) :
    Keeps M s0 (s.putCells cs) :=
  h.setCells (fun k => Memory.wf_writeCells _ k)

theorem State.countUnits_keeps {M : Part → Prop} [Fact (M .regs)] [Fact (M .scb)] {s0 : State} {s : Sys2Proof.Machine.State}
    {b : ℕ} {cls : ℕ} {event : ℕ} {a : ℕ} {n : ℕ} {g : ℕ} {c : Sys2Proof.Machine.Counted} (hK : Keeps M s0 s) :
    Keeps M s0 (State.countUnits s b cls event a n g c) := by
  unfold State.countUnits
  refine Keeps.ite ?_ ?_
  · intro x0
    with_reducible assumption
  · intro x1
    refine Keeps.foldl ?_ ?_
    · with_reducible assumption
    · intro x2
      intro x3
      intro x4
      refine State.count_keeps ?_
      with_reducible assumption

theorem State.modWork_keeps {M : Part → Prop} [Fact (M .ump)] {s0 : State} {s : Sys2Proof.Machine.State}
    {f : Sys2Proof.Machine.Work → Sys2Proof.Machine.Work} (hK : Keeps M s0 s) :
    Keeps M s0 (State.modWork s f) := by
  unfold State.modWork
  refine Keeps.mk' ?_ le_rfl rfl (fun x => x) (fun x => x) le_rfl
  with_reducible assumption

theorem State.addCharge_keeps {M : Part → Prop} [Fact (M .ump)] {s0 : State} {s : Sys2Proof.Machine.State}
    {c : Sys2Proof.Machine.Charges} (hK : Keeps M s0 s) :
    Keeps M s0 (State.addCharge s c) := by
  unfold State.addCharge
  refine State.modWork_keeps ?_
  with_reducible assumption

theorem State.traffic_keeps {M : Part → Prop} [Fact (M .free)] [Fact (M .regs)] [Fact (M .ump)] [Fact (M .scb)] {s0 : State}
    {s : Sys2Proof.Machine.State} {write : Bool} {die : ℕ} {unit : ℕ} {a : ℕ} {n : ℕ} (hK : Keeps M s0 s) :
    Keeps M s0 (State.traffic s write die unit a n) := by
  unfold State.traffic
  extract_lets v0 v1 v2
  have h3 : Keeps M s0 v2 := by
    unfold v2
    refine State.addCharge_keeps ?_
    with_reducible assumption
  clear_value v2
  refine Keeps.ite ?_ ?_
  · intro x4
    refine State.countLines_keeps ?_
    with_reducible assumption
  · intro x5
    refine Keeps.ite ?_ ?_
    · intro x6
      refine State.countUnits_keeps ?_
      refine State.addCharge_keeps ?_
      with_reducible assumption
    · intro x7
      refine Keeps.ite ?_ ?_
      · intro x8
        refine State.countUnits_keeps ?_
        with_reducible assumption
      · intro x9
        with_reducible assumption

theorem State.cellTraffic_keeps {M : Part → Prop} [Fact (M .free)] [Fact (M .regs)] [Fact (M .ump)] [Fact (M .scb)]
    {s0 : State} {s : Sys2Proof.Machine.State} {die : ℕ} {unit : ℕ} {cs : List (ℕ × Sys2Proof.Byte)} (hK : Keeps M s0 s) :
    Keeps M s0 (State.cellTraffic s die unit cs) := by
  unfold State.cellTraffic
  extract_lets v0
  refine Keeps.foldl ?_ ?_
  · with_reducible assumption
  · intro x1
    intro x2
    intro x3
    refine State.traffic_keeps ?_
    with_reducible assumption

theorem State.chanPut_keeps {M : Part → Prop} [Fact (M .free)] [Fact (M .regs)] [Fact (M .ump)] [Fact (M .mem)]
    [Fact (M .scb)] [Fact (M .cells)] {s0 : State} {s : Sys2Proof.Machine.State} {ch : ℕ} {cs : List (ℕ × Sys2Proof.Byte)}
    (hK : Keeps M s0 s) :
    Keeps M s0 (State.chanPut s ch cs) := by
  unfold State.chanPut
  refine State.cellTraffic_keeps ?_
  refine State.putCells_keeps ?_
  with_reducible assumption

theorem placePieces_keeps {M : Part → Prop} [Fact (M .free)] [Fact (M .regs)] [Fact (M .ump)] [Fact (M .mem)] [Fact (M .scb)]
    [Fact (M .cells)] {s0 : State} {ch : ℕ} {c : Sys2Proof.Machine.ChanCmd} {place : ℕ × ℕ}
    {ps : List (ℕ × List Sys2Proof.Byte)} {s : Sys2Proof.Machine.State} (hK : Keeps M s0 s) :
    Keeps M s0 (placePieces ch c place ps s) := by
  unfold placePieces
  refine Keeps.foldl ?_ ?_
  · with_reducible assumption
  · intro x0
    intro x1
    intro x2
    refine State.chanPut_keeps ?_
    with_reducible assumption

theorem finishDispatch_keeps {M : Part → Prop} [Fact (M .free)] [Fact (M .regs)] [Fact (M .ump)] [Fact (M .mem)]
    [Fact (M .scb)] [Fact (M .rdc)] [Fact (M .cells)] {s0 : State} {w : Sys2Proof.Machine.Work} {ch : ℕ} {n : ℕ}
    {s : Sys2Proof.Machine.State} (hK : Keeps M s0 s) :
    Keeps M s0 (finishDispatch w ch n s) := by
  unfold finishDispatch
  split
  · with_reducible assumption
  · extract_lets v0 v1 v2 v3 v4 v5 v6 v7 v8
    have h9 : Keeps M s0 v3 := by
      unfold v3
      refine Keeps.foldl ?_ ?_
      · with_reducible assumption
      · intro x10
        intro x11
        intro x12
        refine Keeps.foldl ?_ ?_
        · with_reducible assumption
        · intro x13
          intro x14
          intro x15
          refine placePieces_keeps ?_
          with_reducible assumption
    clear_value v3
    have h16 : Keeps M s0 v6 := by
      unfold v6
      refine State.chanPut_keeps ?_
      with_reducible assumption
    clear_value v6
    have h17 : Keeps M s0 v8 := by
      unfold v8
      refine State.chanPut_keeps ?_
      with_reducible assumption
    clear_value v8
    refine Keeps.ite ?_ ?_
    · intro x18
      with_reducible assumption
    · intro x19
      refine State.modRun_keeps ?_
      with_reducible assumption

theorem State.mark_keeps {M : Part → Prop} [Fact (M .rdc)] {s0 : State} {s : Sys2Proof.Machine.State} {sending : Bool}
    {k : Sys2Proof.Machine.Packet} (hK : Keeps M s0 s) :
    Keeps M s0 (State.mark s sending k) := by
  unfold State.mark
  extract_lets v0 v1 v2 v3
  refine Keeps.mk' ?_ le_rfl rfl (fun x => x) (fun x => x) le_rfl
  with_reducible assumption

theorem State.dropPacket_keeps {M : Part → Prop} [Fact (M .regs)] [Fact (M .scb)] [Fact (M .mgl)] {s0 : State}
    {s : Sys2Proof.Machine.State} {port : ℕ} {dst : ℕ} {reason : ℕ} (hK : Keeps M s0 s) :
    Keeps M s0 (State.dropPacket s port dst reason) := by
  unfold State.dropPacket
  extract_lets v0 v1 v2
  have h3 : Keeps M s0 v0 := by
    unfold v0
    refine State.bump_keeps ?_
    with_reducible assumption
  clear_value v0
  have h4 : Keeps M s0 v1 := by
    unfold v1
    refine State.count_keeps ?_
    with_reducible assumption
  clear_value v1
  refine Keeps.mk' ?_ le_rfl rfl (fun x => x) (fun x => x) le_rfl
  with_reducible assumption

theorem State.setLink_keeps {M : Part → Prop} [Fact (M .mgl)] {s0 : State} {s : Sys2Proof.Machine.State} {p : ℕ}
    {l : Sys2Proof.Machine.MglPort} (hK : Keeps M s0 s) :
    Keeps M s0 (State.setLink s p l) := by
  unfold State.setLink
  refine Keeps.mk' ?_ le_rfl rfl (fun x => x) (fun x => x) le_rfl
  with_reducible assumption

theorem State.enqueue_keeps {M : Part → Prop} [Fact (M .mgl)] {s0 : State} {s : Sys2Proof.Machine.State} {p : ℕ}
    {q : Sys2Proof.Machine.QueuedPacket} (hK : Keeps M s0 s) :
    Keeps M s0 (State.enqueue s p q) := by
  unfold State.enqueue
  extract_lets v0
  refine State.setLink_keeps ?_
  with_reducible assumption

theorem State.send_keeps {M : Part → Prop} [Fact (M .regs)] [Fact (M .scb)] [Fact (M .mgl)] {s0 : State}
    {s : Sys2Proof.Machine.State} {vc : ℕ} {ty : ℕ} {ch : ℕ} {dst : ℕ} {seq : ℕ} {data : List Sys2Proof.Byte}
    (hK : Keeps M s0 s) :
    Keeps M s0 (State.send s vc ty ch dst seq data) := by
  unfold State.send
  extract_lets v0 v1 v2
  refine Keeps.ite ?_ ?_
  · intro x3
    refine Keeps.mk' ?_ le_rfl rfl (fun x => x) (fun x => x) le_rfl
    with_reducible assumption
  · intro x4
    refine Keeps.ite ?_ ?_
    · intro x5
      refine State.enqueue_keeps ?_
      with_reducible assumption
    · intro x6
      refine State.dropPacket_keeps ?_
      with_reducible assumption

theorem State.sendMarked_keeps {M : Part → Prop} [Fact (M .regs)] [Fact (M .scb)] [Fact (M .mgl)] [Fact (M .rdc)] {s0 : State}
    {s : Sys2Proof.Machine.State} {ty : ℕ} {ch : ℕ} {dst : ℕ} {seq : ℕ} {payload : List Sys2Proof.Byte} (hK : Keeps M s0 s) :
    Keeps M s0 (State.sendMarked s ty ch dst seq payload) := by
  unfold State.sendMarked
  extract_lets v0
  refine State.send_keeps ?_
  refine State.mark_keeps ?_
  with_reducible assumption

theorem State.sendChan_keeps {M : Part → Prop} [Fact (M .regs)] [Fact (M .scb)] [Fact (M .mgl)] [Fact (M .rdc)] {s0 : State}
    {s : Sys2Proof.Machine.State} {w : Sys2Proof.Machine.Work} {ch : ℕ} {n : ℕ} {ty : ℕ} {leaf : ℕ}
    {h : Sys2Proof.Machine.SubHead} {data : List Sys2Proof.Byte} (hK : Keeps M s0 s) :
    Keeps M s0 (State.sendChan s w ch n ty leaf h data) := by
  unfold State.sendChan
  refine State.sendMarked_keeps ?_
  with_reducible assumption

theorem sendRow_keeps {M : Part → Prop} [Fact (M .regs)] [Fact (M .scb)] [Fact (M .mgl)] [Fact (M .rdc)] {s0 : State}
    {w : Sys2Proof.Machine.Work} {ch : ℕ} {n : ℕ} {ty : ℕ} {kind : ℕ} {leaf : ℕ} {token : ℕ} {k : ℕ}
    {row : List Sys2Proof.Byte} {s : Sys2Proof.Machine.State} (hK : Keeps M s0 s) :
    Keeps M s0 (sendRow w ch n ty kind leaf token k row s) := by
  unfold sendRow
  refine Keeps.foldl ?_ ?_
  · with_reducible assumption
  · intro x0
    intro x1
    intro x2
    refine State.sendChan_keeps ?_
    with_reducible assumption

theorem State.readTraffic_keeps {M : Part → Prop} [Fact (M .free)] [Fact (M .regs)] [Fact (M .ump)] [Fact (M .scb)]
    {s0 : State} {s : Sys2Proof.Machine.State} {die : ℕ} {unit : ℕ} {runs : List (ℕ × ℕ)} (hK : Keeps M s0 s) :
    Keeps M s0 (State.readTraffic s die unit runs) := by
  unfold State.readTraffic
  refine Keeps.foldl ?_ ?_
  · with_reducible assumption
  · intro x0
    intro x1
    intro x2
    refine State.traffic_keeps ?_
    with_reducible assumption

theorem State.chanReads_keeps {M : Part → Prop} [Fact (M .free)] [Fact (M .regs)] [Fact (M .ump)] [Fact (M .scb)] {s0 : State}
    {s : Sys2Proof.Machine.State} {ch : ℕ} {runs : List (ℕ × ℕ)} (hK : Keeps M s0 s) :
    Keeps M s0 (State.chanReads s ch runs) := by
  unfold State.chanReads
  refine State.readTraffic_keeps ?_
  with_reducible assumption

theorem State.modStep_keeps {M : Part → Prop} [Fact (M .rdc)] {s0 : State} {s : Sys2Proof.Machine.State}
    {f : Sys2Proof.Machine.GroupStep → Sys2Proof.Machine.GroupStep} (hK : Keeps M s0 s) :
    Keeps M s0 (State.modStep s f) := by
  unfold State.modStep
  refine Keeps.mk' ?_ le_rfl rfl (fun x => x) (fun x => x) le_rfl
  with_reducible assumption

theorem routeRows_keeps {M : Part → Prop} [Fact (M .free)] [Fact (M .regs)] [Fact (M .ump)] [Fact (M .mem)] [Fact (M .scb)]
    [Fact (M .mgl)] [Fact (M .rdc)] [Fact (M .cells)] {s0 : State} {w : Sys2Proof.Machine.Work} {ch : ℕ} {n : ℕ}
    {s : Sys2Proof.Machine.State} (hK : Keeps M s0 s) :
    Keeps M s0 (routeRows w ch n s) := by
  unfold routeRows
  split
  · with_reducible assumption
  · extract_lets v0 v1 v2 v3 v4 v5 v6 v7 v8 v9
    have h10 : Keeps M s0 v6 := by
      unfold v6
      refine State.modStep_keeps ?_
      refine State.bump_keeps ?_
      with_reducible assumption
    clear_value v6
    have h11 : Keeps M s0 v7 := by
      unfold v7
      refine State.chanReads_keeps ?_
      with_reducible assumption
    clear_value v7
    have h12 : Keeps M s0 v8 := by
      unfold v8
      refine Keeps.foldl ?_ ?_
      · with_reducible assumption
      · intro x13
        intro x14
        intro x15
        refine State.chanPut_keeps ?_
        with_reducible assumption
    clear_value v8
    have h16 : Keeps M s0 v9 := by
      unfold v9
      refine Keeps.foldl ?_ ?_
      · with_reducible assumption
      · intro x17
        intro x18
        intro x19
        refine Keeps.foldl ?_ ?_
        · with_reducible assumption
        · intro x20
          intro x21
          intro x22
          refine sendRow_keeps ?_
          with_reducible assumption
    clear_value v9
    refine Keeps.ite ?_ ?_
    · intro x23
      with_reducible assumption
    · intro x24
      refine finishDispatch_keeps ?_
      refine State.modRun_keeps ?_
      with_reducible assumption

theorem takeCounts_keeps {M : Part → Prop} [Fact (M .free)] [Fact (M .regs)] [Fact (M .ump)] [Fact (M .mem)] [Fact (M .scb)]
    [Fact (M .mgl)] [Fact (M .rdc)] [Fact (M .cells)] {s0 : State} {w : Sys2Proof.Machine.Work}
    {r : Sys2Proof.Machine.ChanRun} {h : Sys2Proof.Machine.SubHead} {data : List Sys2Proof.Byte} {s : Sys2Proof.Machine.State}
    (hK : Keeps M s0 s) :
    Keeps M s0 (takeCounts w r h data s) := by
  unfold takeCounts
  extract_lets v0 v1
  have h2 : Keeps M s0 v1 := by
    unfold v1
    refine State.chanPut_keeps ?_
    with_reducible assumption
  clear_value v1
  refine routeRows_keeps ?_
  refine State.modRun_keeps ?_
  with_reducible assumption

theorem State.opEvent_keeps {M : Part → Prop} [Fact (M .host)] {s0 : State} {s : Sys2Proof.Machine.State}
    {ev : Sys2Proof.Rec32} (hK : Keeps M s0 s) :
    Keeps M s0 (State.opEvent s ev) := by
  unfold State.opEvent
  extract_lets v0
  split
  · refine Keeps.ite ?_ ?_
    · intro x1
      refine State.pushEvent_keeps ?_
      with_reducible assumption
    · intro x2
      refine State.modPort_keeps ?_
      with_reducible assumption
  · refine State.modPort_keeps ?_
    with_reducible assumption

theorem State.later_keeps {M : Part → Prop} [Fact (M .host)] {s0 : State} {s : Sys2Proof.Machine.State}
    {dest : Sys2Proof.Machine.EventDest} {ev : Sys2Proof.Rec32} {stamp : Bool} (hK : Keeps M s0 s) :
    Keeps M s0 (State.later s dest ev stamp) := by
  unfold State.later
  refine Keeps.mk' ?_ le_rfl rfl (fun x => x) (fun x => x) le_rfl
  with_reducible assumption

theorem State.fault_keeps {M : Part → Prop} [Fact (M .free)] [Fact (M .regs)] [Fact (M .host)] [Fact (M .scb)] {s0 : State}
    {s : Sys2Proof.Machine.State} {f : Sys2Proof.Machine.FaultInfo} (hK : Keeps M s0 s) :
    Keeps M s0 (State.fault s f) := by
  unfold State.fault
  extract_lets v0 v1 v2 v3 v4
  have h5 : Keeps M s0 v1 := by
    unfold v1
    refine State.setReg_keeps ?_
    with_reducible assumption
  clear_value v1
  have h6 : Keeps M s0 v2 := by
    unfold v2
    refine Keeps.ite ?_ ?_
    · intro x7
      refine State.bump_keeps ?_
      with_reducible assumption
    · intro x8
      with_reducible assumption
  clear_value v2
  have h9 : Keeps M s0 v3 := by
    unfold v3
    refine State.opEvent_keeps ?_
    with_reducible assumption
  clear_value v3
  have h10 : Keeps M s0 v4 := by
    unfold v4
    refine Keeps.foldl ?_ ?_
    · with_reducible assumption
    · intro x11
      intro x12
      intro x13
      refine State.later_keeps ?_
      with_reducible assumption
  clear_value v4
  refine State.trace_keeps ?_
  with_reducible assumption

theorem ownerRecord_keeps {M : Part → Prop} [Fact (M .free)] [Fact (M .regs)] [Fact (M .host)] [Fact (M .scb)] {s0 : State}
    {s : Sys2Proof.Machine.State} {f : Sys2Proof.Machine.FaultInfo} {action : ℕ} {count : ℕ} {pages : List ℕ}
    {affected : List ℕ} (hK : Keeps M s0 s) :
    Keeps M s0 (ownerRecord s f action count pages affected) := by
  unfold ownerRecord
  refine State.fault_keeps ?_
  with_reducible assumption

theorem State.markEnding_keeps {M : Part → Prop} [Fact (M .ump)] {s0 : State} {s : Sys2Proof.Machine.State}
    {pick : Sys2Proof.Machine.Request → Bool} {status : ℕ} (hK : Keeps M s0 s) :
    Keeps M s0 (State.markEnding s pick status) := by
  unfold State.markEnding
  refine Keeps.mk' ?_ le_rfl rfl (fun x => x) (fun x => x) le_rfl
  with_reducible assumption

theorem State.setAcct_keeps {M : Part → Prop} [Fact (M .ump)] {s0 : State} {s : Sys2Proof.Machine.State} {c : ℕ}
    {a : Sys2Proof.Machine.Acct} (hK : Keeps M s0 s) :
    Keeps M s0 (State.setAcct s c a) := by
  unfold State.setAcct
  refine Keeps.mk' ?_ le_rfl rfl (fun x => x) (fun x => x) le_rfl
  with_reducible assumption

theorem State.charge_keeps {M : Part → Prop} [Fact (M .ump)] {s0 : State} {s : Sys2Proof.Machine.State} {c : ℕ}
    {ch : Sys2Proof.Machine.Charges} {slotNs : ℕ} {practiceNs : ℕ} {isSealed : Bool} (hK : Keeps M s0 s) :
    Keeps M s0 (State.charge s c ch slotNs practiceNs isSealed) := by
  unfold State.charge
  extract_lets v0 v1
  refine Keeps.ite ?_ ?_
  · intro x2
    refine State.setAcct_keeps ?_
    with_reducible assumption
  · intro x3
    refine State.setAcct_keeps ?_
    with_reducible assumption

theorem State.chargeDiscard_keeps {M : Part → Prop} [Fact (M .ump)] {s0 : State} {s : Sys2Proof.Machine.State}
    {ch : Sys2Proof.Machine.Charges} {ns : ℕ} (hK : Keeps M s0 s) :
    Keeps M s0 (State.chargeDiscard s ch ns) := by
  unfold State.chargeDiscard
  extract_lets v0 v1
  have h2 : Keeps M s0 v0 := by
    unfold v0
    refine State.charge_keeps ?_
    with_reducible assumption
  clear_value v0
  refine State.setAcct_keeps ?_
  with_reducible assumption

theorem State.discardEnded_keeps {M : Part → Prop} [Fact (M .ump)] {s0 : State} {s : Sys2Proof.Machine.State} {did : ℕ}
    (hK : Keeps M s0 s) :
    Keeps M s0 (State.discardEnded s did) := by
  unfold State.discardEnded
  extract_lets v0 v1
  have h2 : Keeps M s0 v0 := by
    unfold v0
    refine Keeps.foldl ?_ ?_
    · with_reducible assumption
    · intro x3
      intro x4
      intro x5
      refine State.chargeDiscard_keeps ?_
      with_reducible assumption
  clear_value v0
  refine Keeps.mk' ?_ le_rfl rfl (fun x => x) (fun x => x) le_rfl
  with_reducible assumption

theorem State.modRecord_keeps {M : Part → Prop} [Fact (M .lkr)] {s0 : State} {s : Sys2Proof.Machine.State} {id : ℕ}
    {f : Sys2Proof.Machine.Record → Sys2Proof.Machine.Record} (hK : Keeps M s0 s) :
    Keeps M s0 (State.modRecord s id f) := by
  unfold State.modRecord
  refine Keeps.mk' ?_ le_rfl rfl (fun x => x) (fun x => x) le_rfl
  with_reducible assumption

theorem State.restartStep_keeps {M : Part → Prop} [Fact (M .ump)] [Fact (M .lkr)] {s0 : State} {s : Sys2Proof.Machine.State}
    {p : Sys2Proof.Machine.PStep} (hK : Keeps M s0 s) :
    Keeps M s0 (State.restartStep s p) := by
  unfold State.restartStep
  extract_lets v0 v1
  have h2 : Keeps M s0 v0 := by
    unfold v0
    refine Keeps.foldl ?_ ?_
    · refine State.discardEnded_keeps ?_
      with_reducible assumption
    · intro x3
      intro x4
      intro x5
      refine State.modRecord_keeps ?_
      with_reducible assumption
  clear_value v0
  refine Keeps.mk' ?_ le_rfl rfl (fun x => x) (fun x => x) le_rfl
  with_reducible assumption

theorem State.countPages_keeps {M : Part → Prop} [Fact (M .free)] [Fact (M .regs)] [Fact (M .scb)] {s0 : State}
    {s : Sys2Proof.Machine.State} {adapter : ℕ} {ps : List ℕ} {n : ℕ} (hK : Keeps M s0 s) :
    Keeps M s0 (State.countPages s adapter ps n) := by
  unfold State.countPages
  refine State.countLines_keeps ?_
  with_reducible assumption

theorem State.writePages_keeps {M : Part → Prop} [Fact (M .free)] [Fact (M .regs)] [Fact (M .mem)] [Fact (M .scb)]
    [Fact (M .cells)] {s0 : State} {s : Sys2Proof.Machine.State} {adapter : ℕ} {ps : List ℕ} {data : List Sys2Proof.Byte}
    (hK : Keeps M s0 s) :
    Keeps M s0 (State.writePages s adapter ps data) := by
  unfold State.writePages
  extract_lets v0 v1
  have h2 : Keeps M s0 v1 := by
    unfold v1
    refine Keeps.foldl ?_ ?_
    · with_reducible assumption
    · intro x3
      intro x4
      intro x5
      extract_lets v6
      refine State.writeLine_keeps ?_
      with_reducible assumption
  clear_value v1
  refine State.countLines_keeps ?_
  with_reducible assumption

theorem State.rewriteRecord_keeps {M : Part → Prop} [Fact (M .free)] [Fact (M .regs)] [Fact (M .lkr)] [Fact (M .mem)]
    [Fact (M .scb)] [Fact (M .cells)] {s0 : State} {s : Sys2Proof.Machine.State} {id : ℕ} (hK : Keeps M s0 s) :
    Keeps M s0 (State.rewriteRecord s id) := by
  unfold State.rewriteRecord
  split
  · extract_lets v0 v1 v2 v3 v4 v5 v6
    have h7 : Keeps M s0 v4 := by
      unfold v4
      refine State.writePages_keeps ?_
      refine State.countPages_keeps ?_
      with_reducible assumption
    clear_value v4
    have h8 : Keeps M s0 v5 := by
      unfold v5
      refine State.writePages_keeps ?_
      with_reducible assumption
    clear_value v5
    have h9 : Keeps M s0 v6 := by
      unfold v6
      refine State.writePages_keeps ?_
      with_reducible assumption
    clear_value v6
    refine State.modRecord_keeps ?_
    with_reducible assumption
  · with_reducible assumption

theorem State.resetRecord_keeps {M : Part → Prop} [Fact (M .free)] [Fact (M .regs)] [Fact (M .host)] [Fact (M .lkr)]
    [Fact (M .mem)] [Fact (M .scb)] [Fact (M .cells)] {s0 : State} {s : Sys2Proof.Machine.State} {id : ℕ} (hK : Keeps M s0 s)
    :
    Keeps M s0 (State.resetRecord s id) := by
  unfold State.resetRecord
  split
  · extract_lets v0
    have h1 : Keeps M s0 v0 := by
      unfold v0
      refine State.rewriteRecord_keeps ?_
      with_reducible assumption
    clear_value v0
    refine State.ctxEvent_keeps ?_
    with_reducible assumption
  · with_reducible assumption

theorem State.loseRecord_keeps {M : Part → Prop} [Fact (M .free)] [Fact (M .regs)] [Fact (M .host)] [Fact (M .ump)]
    [Fact (M .lkr)] [Fact (M .mem)] [Fact (M .scb)] [Fact (M .cells)] {s0 : State} {s : Sys2Proof.Machine.State} {id : ℕ}
    (hK : Keeps M s0 s) :
    Keeps M s0 (State.loseRecord s id) := by
  unfold State.loseRecord
  extract_lets v0
  have h1 : Keeps M s0 v0 := by
    unfold v0
    refine State.resetRecord_keeps ?_
    with_reducible assumption
  clear_value v0
  refine Keeps.foldl ?_ ?_
  · with_reducible assumption
  · intro x2
    intro x3
    intro x4
    refine State.restartStep_keeps ?_
    with_reducible assumption

theorem State.modDir_keeps {M : Part → Prop} [Fact (M .lkr)] {s0 : State} {s : Sys2Proof.Machine.State} {id : ℕ}
    {f : Sys2Proof.Machine.DirEntry → Sys2Proof.Machine.DirEntry} (hK : Keeps M s0 s) :
    Keeps M s0 (State.modDir s id f) := by
  unfold State.modDir
  refine Keeps.mk' ?_ le_rfl rfl (fun x => x) (fun x => x) le_rfl
  with_reducible assumption

theorem State.unpin_keeps {M : Part → Prop} [Fact (M .lkr)] [Fact (M .mem)] {s0 : State} {s : Sys2Proof.Machine.State}
    {id : ℕ} (hK : Keeps M s0 s) :
    Keeps M s0 (State.unpin s id) := by
  unfold State.unpin
  refine Keeps.ite ?_ ?_
  · intro x0
    with_reducible assumption
  · intro x1
    extract_lets v2 v3
    have h4 : Keeps M s0 v2 := by
      unfold v2
      refine State.modDir_keeps ?_
      with_reducible assumption
    clear_value v2
    split
    · refine Keeps.ite ?_ ?_
      · intro x5
        extract_lets v6
        have h7 : Keeps M s0 v6 := by
          unfold v6
          refine State.freePages_keeps ?_
          with_reducible assumption
        clear_value v6
        refine Keeps.mk' ?_ le_rfl rfl (fun x => x) (fun x => x) le_rfl
        with_reducible assumption
      · intro x8
        with_reducible assumption
    · with_reducible assumption

theorem State.countScrub_keeps {M : Part → Prop} [Fact (M .regs)] [Fact (M .scb)] {s0 : State} {s : Sys2Proof.Machine.State}
    {page : ℕ} (hK : Keeps M s0 s) :
    Keeps M s0 (State.countScrub s page) := by
  unfold State.countScrub
  refine State.countUnits_keeps ?_
  with_reducible assumption

theorem State.zeroPages_keeps {M : Part → Prop} [Fact (M .regs)] [Fact (M .mem)] [Fact (M .scb)] [Fact (M .cells)]
    {s0 : State} {s : Sys2Proof.Machine.State} {ps : List ℕ} (hK : Keeps M s0 s) :
    Keeps M s0 (State.zeroPages s ps) := by
  unfold State.zeroPages
  extract_lets v0 v1
  have h2 : Keeps M s0 v0 := by
    unfold v0
    refine Keeps.foldl ?_ ?_
    · with_reducible assumption
    · intro x3
      intro x4
      intro x5
      refine State.countScrub_keeps ?_
      with_reducible assumption
  clear_value v0
  refine Keeps.mk' ?_ (by first | exact le_rfl | (split <;> exact le_rfl) | (dsimp only; split; exact le_max_left _ _; exact le_rfl)) (by first | rfl | (split <;> rfl)) (by first | exact fun x => x | exact fun x => Memory.wf_filter _ x | exact fun x => Memory.wf_writeBytes _ _ x | exact fun x => Memory.wf_writeCells _ x | exact fun x => RegsWf.filter _ x) (by first | exact fun x => x | exact fun x => Memory.wf_filter _ x | exact fun x => Memory.wf_writeBytes _ _ x | exact fun x => Memory.wf_writeCells _ x | exact fun x => RegsWf.filter _ x) (by first | exact le_rfl | (split <;> exact le_rfl) | (dsimp only; split; exact le_max_left _ _; exact le_rfl))
  with_reducible assumption

theorem State.closeRecord_keeps {M : Part → Prop} [Fact (M .regs)] [Fact (M .lkr)] [Fact (M .mem)] [Fact (M .scb)]
    [Fact (M .cells)] {s0 : State} {s : Sys2Proof.Machine.State} {id : ℕ} {scrub : Bool} (hK : Keeps M s0 s) :
    Keeps M s0 (State.closeRecord s id scrub) := by
  unfold State.closeRecord
  split
  · extract_lets v0 v1 v2 v3
    have h4 : Keeps M s0 v1 := by
      unfold v1
      refine State.freePages_keeps ?_
      refine Keeps.ite ?_ ?_
      · intro x5
        refine State.zeroPages_keeps ?_
        with_reducible assumption
      · intro x6
        with_reducible assumption
    clear_value v1
    have h7 : Keeps M s0 v3 := by
      unfold v3
      refine Keeps.mk' ?_ le_rfl rfl (fun x => x) (fun x => x) le_rfl
      with_reducible assumption
    clear_value v3
    refine Keeps.ite ?_ ?_
    · intro x8
      refine State.unpin_keeps ?_
      with_reducible assumption
    · intro x9
      with_reducible assumption
  · with_reducible assumption

theorem dropWaiters_keeps {M : Part → Prop} [Fact (M .free)] [Fact (M .regs)] [Fact (M .host)] [Fact (M .scb)] {s0 : State}
    {s : Sys2Proof.Machine.State} {r : Sys2Proof.Machine.Record} {status : ℕ} (hK : Keeps M s0 s) :
    Keeps M s0 (dropWaiters s r status) := by
  unfold dropWaiters
  extract_lets v0
  have h1 : Keeps M s0 v0 := by
    unfold v0
    refine Keeps.foldl ?_ ?_
    · with_reducible assumption
    · intro x2
      intro x3
      intro x4
      refine State.finish_keeps ?_
      with_reducible assumption
  clear_value v0
  split
  · refine State.finish_keeps ?_
    with_reducible assumption
  · with_reducible assumption

theorem State.dropCommit_keeps {M : Part → Prop} [Fact (M .host)] [Fact (M .lkr)] {s0 : State} {s : Sys2Proof.Machine.State}
    {id : ℕ} {instant : ℕ} (hK : Keeps M s0 s) :
    Keeps M s0 (State.dropCommit s id instant) := by
  unfold State.dropCommit
  split
  · refine Keeps.foldl ?_ ?_
    · refine State.modRecord_keeps ?_
      with_reducible assumption
    · intro x0
      intro x1
      intro x2
      refine State.ctxEvent_keeps ?_
      with_reducible assumption
  · with_reducible assumption

theorem State.dropStep_keeps {M : Part → Prop} [Fact (M .ump)] {s0 : State} {s : Sys2Proof.Machine.State} {did : ℕ}
    (hK : Keeps M s0 s) :
    Keeps M s0 (State.dropStep s did) := by
  unfold State.dropStep
  refine Keeps.mk' ?_ le_rfl rfl (fun x => x) (fun x => x) le_rfl
  with_reducible assumption

theorem State.atSlotEnd_keeps [Fact (M .host)] {s0 s : State} {did status flags extra engine : Nat} (h : Keeps M s0 s) :
    Keeps M s0 (s.atSlotEnd did status flags extra engine) := h.upd rfl rfl rfl rfl rfl rfl

theorem State.segmentDiscarded_keeps {M : Part → Prop} [Fact (M .host)] [Fact (M .ump)] {s0 : State}
    {s : Sys2Proof.Machine.State} {did : ℕ} {cause : Sys2Proof.Machine.DiscardCause} (hK : Keeps M s0 s) :
    Keeps M s0 (State.segmentDiscarded s did cause) := by
  unfold State.segmentDiscarded
  split
  · with_reducible assumption
  · refine Keeps.ite ?_ ?_
    · intro x0
      refine State.atSlotEnd_keeps ?_
      refine State.dropStep_keeps ?_
      with_reducible assumption
    · intro x1
      refine Keeps.ite ?_ ?_
      · intro x2
        refine State.dropStep_keeps ?_
        with_reducible assumption
      · intro x3
        refine Keeps.mk' ?_ le_rfl rfl (fun x => x) (fun x => x) le_rfl
        with_reducible assumption

theorem State.kvRelease_keeps {M : Part → Prop} [Fact (M .regs)] [Fact (M .mem)] [Fact (M .scb)] [Fact (M .cells)]
    {s0 : State} {s : Sys2Proof.Machine.State} {ps : List ℕ} {scrub : Bool} (hK : Keeps M s0 s) :
    Keeps M s0 (State.kvRelease s ps scrub) := by
  unfold State.kvRelease
  extract_lets v0
  refine State.freePages_keeps ?_
  refine Keeps.ite ?_ ?_
  · intro x1
    refine State.zeroPages_keeps ?_
    with_reducible assumption
  · intro x2
    with_reducible assumption

theorem State.endRequest_keeps {M : Part → Prop} [Fact (M .regs)] [Fact (M .host)] [Fact (M .ump)] [Fact (M .lkr)]
    [Fact (M .mem)] [Fact (M .scb)] [Fact (M .cells)] {s0 : State} {s : Sys2Proof.Machine.State}
    {q : Sys2Proof.Machine.Request} {status : Option ℕ} {scrub : Bool} {step : ℕ} (hK : Keeps M s0 s) :
    Keeps M s0 (State.endRequest s q status scrub step) := by
  unfold State.endRequest
  extract_lets v0 v1 v2 v3
  have h4 : Keeps M s0 v0 := by
    unfold v0
    refine State.kvRelease_keeps ?_
    with_reducible assumption
  clear_value v0
  have h5 : Keeps M s0 v1 := by
    unfold v1
    refine State.unpin_keeps ?_
    with_reducible assumption
  clear_value v1
  have h6 : Keeps M s0 v3 := by
    unfold v3
    refine Keeps.mk' ?_ le_rfl rfl (fun x => x) (fun x => x) le_rfl
    with_reducible assumption
  clear_value v3
  split
  · with_reducible assumption
  · refine State.later_keeps ?_
    with_reducible assumption

theorem State.giveBack_keeps {M : Part → Prop} [Fact (M .regs)] [Fact (M .host)] [Fact (M .ump)] [Fact (M .lkr)]
    [Fact (M .mem)] [Fact (M .scb)] [Fact (M .cells)] {s0 : State} {s : Sys2Proof.Machine.State}
    {r : Sys2Proof.Machine.ReadyServe} (hK : Keeps M s0 s) :
    Keeps M s0 (State.giveBack s r) := by
  unfold State.giveBack
  extract_lets v0 v1 v2
  have h3 : Keeps M s0 v1 := by
    unfold v1
    refine Keeps.foldl ?_ ?_
    · with_reducible assumption
    · intro x4
      intro x5
      intro x6
      unfold v0
      refine Keeps.elim ?_ ?_
      · with_reducible assumption
      · intro x7
        beta_reduce
        refine State.endRequest_keeps ?_
        with_reducible assumption
  clear_value v1
  have h8 : Keeps M s0 v2 := by
    unfold v2
    refine Keeps.foldl ?_ ?_
    · with_reducible assumption
    · intro x9
      intro x10
      intro x11
      unfold v0
      refine Keeps.elim ?_ ?_
      · with_reducible assumption
      · intro x12
        beta_reduce
        refine State.modReq_keeps ?_
        refine State.kvRelease_keeps ?_
        with_reducible assumption
  clear_value v2
  refine Keeps.foldl ?_ ?_
  · with_reducible assumption
  · intro x13
    intro x14
    intro x15
    unfold v0
    refine Keeps.elim ?_ ?_
    · with_reducible assumption
    · intro x16
      beta_reduce
      refine State.modReq_keeps ?_
      refine State.kvRelease_keeps ?_
      with_reducible assumption

theorem State.endServe_keeps {M : Part → Prop} [Fact (M .regs)] [Fact (M .host)] [Fact (M .ump)] [Fact (M .lkr)]
    [Fact (M .mem)] [Fact (M .scb)] [Fact (M .cells)] {s0 : State} {s : Sys2Proof.Machine.State}
    {r : Sys2Proof.Machine.ReadyServe} {status : ℕ} (hK : Keeps M s0 s) :
    Keeps M s0 (State.endServe s r status) := by
  unfold State.endServe
  refine State.atSlotEnd_keeps ?_
  refine State.dropServe_keeps ?_
  refine State.giveBack_keeps ?_
  with_reducible assumption

theorem State.serveDiscarded_keeps {M : Part → Prop} [Fact (M .regs)] [Fact (M .host)] [Fact (M .ump)] [Fact (M .lkr)]
    [Fact (M .mem)] [Fact (M .scb)] [Fact (M .cells)] {s0 : State} {s : Sys2Proof.Machine.State} {did : ℕ}
    {cause : Sys2Proof.Machine.DiscardCause} (hK : Keeps M s0 s) :
    Keeps M s0 (State.serveDiscarded s did cause) := by
  unfold State.serveDiscarded
  split
  · with_reducible assumption
  · extract_lets v0 v1
    refine Keeps.ite ?_ ?_
    · intro x2
      refine State.endServe_keeps ?_
      with_reducible assumption
    · intro x3
      refine Keeps.ite ?_ ?_
      · intro x4
        refine State.dropServe_keeps ?_
        with_reducible assumption
      · intro x5
        refine Keeps.ite ?_ ?_
        · intro x6
          refine State.endServe_keeps ?_
          with_reducible assumption
        · intro x7
          refine Keeps.mk' ?_ le_rfl rfl (fun x => x) (fun x => x) le_rfl
          with_reducible assumption

theorem State.freeBanks_keeps {M : Part → Prop} [Fact (M .mgl)] {s0 : State} {s : Sys2Proof.Machine.State} (hK : Keeps M s0 s) :
    Keeps M s0 (State.freeBanks s) := by
  unfold State.freeBanks
  refine Keeps.mk' ?_ le_rfl rfl (fun x => x) (fun x => x) le_rfl
  with_reducible assumption

theorem State.endOverrun_keeps {M : Part → Prop} [Fact (M .ump)] {s0 : State} {s : Sys2Proof.Machine.State} (hK : Keeps M s0 s) :
    Keeps M s0 (State.endOverrun s) := by
  unfold State.endOverrun
  refine Keeps.ite ?_ ?_
  · intro x0
    with_reducible assumption
  · intro x1
    refine Keeps.mk' ?_ le_rfl rfl (fun x => x) (fun x => x) le_rfl
    with_reducible assumption

theorem State.chargeWork_keeps {M : Part → Prop} [Fact (M .ump)] {s0 : State} {s : Sys2Proof.Machine.State}
    {w : Sys2Proof.Machine.Work} {slotNs : ℕ} {until_ : ℕ} (hK : Keeps M s0 s) :
    Keeps M s0 (State.chargeWork s w slotNs until_) := by
  unfold State.chargeWork
  split
  · refine State.charge_keeps ?_
    with_reducible assumption
  · refine State.charge_keeps ?_
    with_reducible assumption
  · refine State.charge_keeps ?_
    with_reducible assumption
  · refine State.charge_keeps ?_
    with_reducible assumption

theorem State.remark_keeps {M : Part → Prop} [Fact (M .eng)] {s0 : State} {s : Sys2Proof.Machine.State} {court : ℕ}
    (hK : Keeps M s0 s) :
    Keeps M s0 (State.remark s court) := by
  unfold State.remark
  refine Keeps.mk' ?_ le_rfl rfl (fun x => x) (fun x => x) le_rfl
  with_reducible assumption

theorem State.stopCourt_keeps {M : Part → Prop} [Fact (M .eng)] {s0 : State} {s : Sys2Proof.Machine.State} {court : ℕ}
    (hK : Keeps M s0 s) :
    Keeps M s0 (State.stopCourt s court) := by
  unfold State.stopCourt
  extract_lets v0 v1 v2 v3 v4
  have h5 : Keeps M s0 v0 := by
    unfold v0
    refine State.remark_keeps ?_
    with_reducible assumption
  clear_value v0
  refine Keeps.mk' ?_ le_rfl rfl (fun x => x) (fun x => x) le_rfl
  with_reducible assumption

theorem State.stopArray_keeps {M : Part → Prop} [Fact (M .free)] [Fact (M .regs)] [Fact (M .scb)] [Fact (M .eng)] {s0 : State}
    {s : Sys2Proof.Machine.State} {ctx : ℕ} {isSealed : Bool} (hK : Keeps M s0 s) :
    Keeps M s0 (State.stopArray s ctx isSealed) := by
  unfold State.stopArray
  extract_lets v0 v1
  have h2 : Keeps M s0 v1 := by
    unfold v1
    refine Keeps.foldl ?_ ?_
    · with_reducible assumption
    · intro x3
      intro x4
      intro x5
      unfold v0
      extract_lets v6
      refine Keeps.ite ?_ ?_
      · intro x7
        with_reducible assumption
      · intro x8
        refine State.count_keeps ?_
        refine State.trace_keeps ?_
        refine State.bump_keeps ?_
        with_reducible assumption
  clear_value v1
  refine Keeps.foldl ?_ ?_
  · with_reducible assumption
  · intro x9
    intro x10
    intro x11
    refine State.stopCourt_keeps ?_
    with_reducible assumption

theorem State.stopWork_keeps {M : Part → Prop} [Fact (M .free)] [Fact (M .regs)] [Fact (M .host)] [Fact (M .ump)]
    [Fact (M .lkr)] [Fact (M .mem)] [Fact (M .scb)] [Fact (M .mgl)] [Fact (M .rdc)] [Fact (M .wst)] [Fact (M .eng)]
    [Fact (M .cells)] {s0 : State} {s : Sys2Proof.Machine.State} {cause : Sys2Proof.Machine.DiscardCause} (hK : Keeps M s0 s)
    :
    Keeps M s0 (State.stopWork s cause) := by
  unfold State.stopWork
  split
  · with_reducible assumption
  · extract_lets v0 v1 v2 v3 v4 v5 v6 v7 v8
    have h9 : Keeps M s0 v0 := by
      unfold v0
      refine State.stopArray_keeps ?_
      with_reducible assumption
    clear_value v0
    have h10 : Keeps M s0 v1 := by
      unfold v1
      refine Keeps.ite ?_ ?_
      · intro x11
        refine State.chargeWork_keeps ?_
        with_reducible assumption
      · intro x12
        refine State.chargeDiscard_keeps ?_
        with_reducible assumption
    clear_value v1
    have h13 : Keeps M s0 v2 := by
      unfold v2
      refine State.endOverrun_keeps ?_
      with_reducible assumption
    clear_value v2
    have h14 : Keeps M s0 v7 := by
      unfold v7
      refine Keeps.mk' ?_ le_rfl rfl (fun x => x) (fun x => x) le_rfl
      with_reducible assumption
    clear_value v7
    have h15 : Keeps M s0 v8 := by
      unfold v8
      refine State.freeBanks_keeps ?_
      with_reducible assumption
    clear_value v8
    split
    · refine State.serveDiscarded_keeps ?_
      with_reducible assumption
    · refine State.serveDiscarded_keeps ?_
      with_reducible assumption
    · refine State.segmentDiscarded_keeps ?_
      with_reducible assumption
    · refine State.segmentDiscarded_keeps ?_
      with_reducible assumption

theorem endStepsOf_keeps {M : Part → Prop} [Fact (M .free)] [Fact (M .regs)] [Fact (M .host)] [Fact (M .ump)] [Fact (M .lkr)]
    [Fact (M .mem)] [Fact (M .scb)] [Fact (M .mgl)] [Fact (M .rdc)] [Fact (M .wst)] [Fact (M .eng)] [Fact (M .cells)]
    {s0 : State} {s : Sys2Proof.Machine.State} {adapter : ℕ} {status : ℕ} (hK : Keeps M s0 s) :
    Keeps M s0 (endStepsOf s adapter status) := by
  unfold endStepsOf
  refine Keeps.foldl ?_ ?_
  · with_reducible assumption
  · intro x0
    intro x1
    intro x2
    extract_lets v3 v4
    have h5 : Keeps M s0 v3 := by
      unfold v3
      refine Keeps.ite ?_ ?_
      · intro x6
        refine State.stopWork_keeps ?_
        with_reducible assumption
      · intro x7
        with_reducible assumption
    clear_value v3
    have h8 : Keeps M s0 v4 := by
      unfold v4
      refine State.discardEnded_keeps ?_
      with_reducible assumption
    clear_value v4
    refine State.atSlotEnd_keeps ?_
    refine State.dropStep_keeps ?_
    with_reducible assumption

theorem State.scrubFree_keeps {M : Part → Prop} [Fact (M .regs)] [Fact (M .mem)] [Fact (M .scb)] [Fact (M .cells)]
    {s0 : State} {s : Sys2Proof.Machine.State} {ps : List ℕ} (hK : Keeps M s0 s) :
    Keeps M s0 (State.scrubFree s ps) := by
  unfold State.scrubFree
  refine State.freePages_keeps ?_
  refine State.zeroPages_keeps ?_
  with_reducible assumption

theorem State.dropWaiting_keeps {M : Part → Prop} [Fact (M .regs)] [Fact (M .lkr)] [Fact (M .mem)] [Fact (M .scb)]
    [Fact (M .cells)] {s0 : State} {s : Sys2Proof.Machine.State} {id : ℕ} (hK : Keeps M s0 s) :
    Keeps M s0 (State.dropWaiting s id) := by
  unfold State.dropWaiting
  split
  · with_reducible assumption
  · extract_lets v0 v1
    have h2 : Keeps M s0 v0 := by
      unfold v0
      refine State.scrubFree_keeps ?_
      with_reducible assumption
    clear_value v0
    refine Keeps.mk' ?_ le_rfl rfl (fun x => x) (fun x => x) le_rfl
    with_reducible assumption

theorem State.abandonLoad_keeps {M : Part → Prop} [Fact (M .regs)] [Fact (M .lkr)] [Fact (M .mem)] [Fact (M .scb)]
    [Fact (M .cells)] {s0 : State} {s : Sys2Proof.Machine.State} {id : ℕ} (hK : Keeps M s0 s) :
    Keeps M s0 (State.abandonLoad s id) := by
  unfold State.abandonLoad
  split
  · with_reducible assumption
  · extract_lets v0 v1 v2 v3
    have h4 : Keeps M s0 v0 := by
      unfold v0
      refine State.scrubFree_keeps ?_
      with_reducible assumption
    clear_value v0
    have h5 : Keeps M s0 v2 := by
      unfold v2
      refine Keeps.mk' ?_ le_rfl rfl (fun x => x) (fun x => x) le_rfl
      with_reducible assumption
    clear_value v2
    refine Keeps.ite ?_ ?_
    · intro x6
      with_reducible assumption
    · intro x7
      refine Keeps.mk' ?_ le_rfl rfl (fun x => x) (fun x => x) le_rfl
      with_reducible assumption

theorem State.loseEntry_keeps {M : Part → Prop} [Fact (M .free)] [Fact (M .regs)] [Fact (M .host)] [Fact (M .ump)]
    [Fact (M .lkr)] [Fact (M .mem)] [Fact (M .scb)] [Fact (M .mgl)] [Fact (M .rdc)] [Fact (M .wst)] [Fact (M .eng)]
    [Fact (M .cells)] {s0 : State} {s : Sys2Proof.Machine.State} {id : ℕ} (hK : Keeps M s0 s) :
    Keeps M s0 (State.loseEntry s id) := by
  unfold State.loseEntry
  extract_lets v0 v1 v2 v3 v4 v5 v6 v7
  have h8 : Keeps M s0 v1 := by
    unfold v1
    refine Keeps.elim ?_ ?_
    · with_reducible assumption
    · intro x9
      refine State.finish_keeps ?_
      refine State.abandonLoad_keeps ?_
      with_reducible assumption
  clear_value v1
  have h10 : Keeps M s0 v2 := by
    unfold v2
    refine State.dropWaiting_keeps ?_
    with_reducible assumption
  clear_value v2
  have h11 : Keeps M s0 v3 := by
    unfold v3
    refine endStepsOf_keeps ?_
    with_reducible assumption
  clear_value v3
  have h12 : Keeps M s0 v4 := by
    unfold v4
    refine State.dropCommit_keeps ?_
    with_reducible assumption
  clear_value v4
  have h13 : Keeps M s0 v5 := by
    unfold v5
    refine Keeps.elim ?_ ?_
    · with_reducible assumption
    · intro x14
      refine dropWaiters_keeps ?_
      with_reducible assumption
  clear_value v5
  have h15 : Keeps M s0 v6 := by
    unfold v6
    refine State.closeRecord_keeps ?_
    with_reducible assumption
  clear_value v6
  split
  · with_reducible assumption
  · refine Keeps.ite ?_ ?_
    · intro x16
      extract_lets v17
      have h18 : Keeps M s0 v17 := by
        unfold v17
        refine State.freePages_keeps ?_
        with_reducible assumption
      clear_value v17
      refine Keeps.mk' ?_ le_rfl rfl (fun x => x) (fun x => x) le_rfl
      with_reducible assumption
    · intro x19
      refine State.modDir_keeps ?_
      with_reducible assumption

theorem State.loseOwners_keeps [Fact (M .free)] [Fact (M .regs)] [Fact (M .host)] [Fact (M .ump)] [Fact (M .lkr)]
    [Fact (M .mem)] [Fact (M .scb)] [Fact (M .mgl)] [Fact (M .rdc)] [Fact (M .wst)] [Fact (M .eng)] [Fact (M .cells)]
    {s0 s : State} {x : Lost} {f : FaultInfo} (hK : Keeps M s0 s) : Keeps M s0 (s.loseOwners x f).1 := by
  unfold State.loseOwners
  refine Keeps.foldl (Keeps.mk' (State.markEnding_keeps ?_) le_rfl rfl (fun x => x) (fun x => x) le_rfl)
    (fun t n h => ownerRecord_keeps h)
  refine Keeps.foldl (Keeps.foldl (Keeps.foldl (Keeps.foldl hK ?_) ?_) ?_) ?_
  · intro t id h
    split
    · exact State.finish_keeps (State.abandonLoad_keeps h)
    · exact h
  · exact fun t id h => State.dropWaiting_keeps h
  · exact fun t id h => State.loseEntry_keeps h
  · exact fun t id h => State.loseRecord_keeps h

theorem State.appendAmax_keeps {M : Part → Prop} [Fact (M .host)] {s0 : State} {s : Sys2Proof.Machine.State} {c : ℕ} {i : ℕ}
    {amax : Sys2Proof.F32} {fmt : Sys2Proof.Machine.Fmt} {wexp : ℤ} (hK : Keeps M s0 s) :
    Keeps M s0 (State.appendAmax s c i amax fmt wexp) := by
  unfold State.appendAmax
  refine State.modCtx_keeps ?_
  with_reducible assumption

theorem State.setLoadStatus_keeps {M : Part → Prop} [Fact (M .regs)] {s0 : State} {s : Sys2Proof.Machine.State} {st : ℕ}
    {reason : ℕ} {done : ℕ} (hK : Keeps M s0 s) :
    Keeps M s0 (State.setLoadStatus s st reason done) := by
  unfold State.setLoadStatus
  refine State.setReg_keeps ?_
  with_reducible assumption

theorem refuseLoad_keeps {M : Part → Prop} [Fact (M .regs)] {s0 : State} {s : Sys2Proof.Machine.State} {reason : ℕ}
    (hK : Keeps M s0 s) :
    Keeps M s0 (refuseLoad s reason) := by
  unfold refuseLoad
  extract_lets v0
  refine Keeps.ite ?_ ?_
  · intro x1
    refine State.setReg_keeps ?_
    with_reducible assumption
  · intro x2
    refine State.setLoadStatus_keeps ?_
    with_reducible assumption

theorem State.extendMr_keeps {M : Part → Prop} [Fact (M .ref)] {s0 : State} {s : Sys2Proof.Machine.State} {i : ℕ}
    {event : Sys2Proof.Machine.Digest} (hK : Keeps M s0 s) :
    Keeps M s0 (State.extendMr s i event) := by
  unfold State.extendMr
  extract_lets v0 v1
  refine Keeps.mk' ?_ le_rfl rfl (fun x => x) (fun x => x) le_rfl
  with_reducible assumption

theorem State.extendMrBytes_keeps {M : Part → Prop} [Fact (M .ref)] {s0 : State} {s : Sys2Proof.Machine.State} {i : ℕ}
    {event : List Sys2Proof.Byte} (hK : Keeps M s0 s) :
    Keeps M s0 (State.extendMrBytes s i event) := by
  unfold State.extendMrBytes
  refine State.extendMr_keeps ?_
  with_reducible assumption

theorem State.violate_keeps {M : Part → Prop} [Fact (M .regs)] [Fact (M .ump)] {s0 : State} {s : Sys2Proof.Machine.State}
    (hK : Keeps M s0 s) :
    Keeps M s0 (State.violate s) := by
  unfold State.violate
  extract_lets v0 v1
  have h2 : Keeps M s0 v0 := by
    unfold v0
    refine State.bump_keeps ?_
    with_reducible assumption
  clear_value v0
  refine Keeps.mk' ?_ le_rfl rfl (fun x => x) (fun x => x) le_rfl
  with_reducible assumption

theorem State.readLine_keeps {M : Part → Prop} [Fact (M .free)] [Fact (M .regs)] {s0 : State} {s : Sys2Proof.Machine.State}
    {line : ℕ} (hK : Keeps M s0 s) :
    Keeps M s0 (State.readLine s line).2 := by
  unfold State.readLine
  split
  · extract_lets v0
    have h1 : Keeps M s0 v0 := by
      unfold v0
      refine Keeps.ite ?_ ?_
      · intro x2
        refine State.bump_keeps ?_
        with_reducible assumption
      · intro x3
        with_reducible assumption
    clear_value v0
    dsimp only
    refine Keeps.ite ?_ ?_
    · intro x4
      refine Keeps.mk' ?_ le_rfl rfl (fun x => x) (fun x => x) le_rfl
      with_reducible assumption
    · intro x5
      with_reducible assumption

theorem scrubEnded_keeps {M : Part → Prop} [Fact (M .host)] [Fact (M .mem)] {s0 : State} {s : Sys2Proof.Machine.State}
    {j : Sys2Proof.Machine.ScrubJob} (hK : Keeps M s0 s) :
    Keeps M s0 (scrubEnded s j) := by
  unfold scrubEnded
  extract_lets v0
  have h1 : Keeps M s0 v0 := by
    unfold v0
    refine Keeps.ite ?_ ?_
    · intro x2
      refine State.freePages_keeps ?_
      with_reducible assumption
    · intro x3
      with_reducible assumption
  clear_value v0
  refine Keeps.ite ?_ ?_
  · intro x4
    refine State.opEvent_keeps ?_
    with_reducible assumption
  · intro x5
    with_reducible assumption

theorem State.scrubPage_keeps {M : Part → Prop} [Fact (M .regs)] [Fact (M .host)] [Fact (M .mem)] [Fact (M .scb)]
    [Fact (M .cells)] {s0 : State} {s : Sys2Proof.Machine.State} {page : ℕ} (hK : Keeps M s0 s) :
    Keeps M s0 (State.scrubPage s page) := by
  unfold State.scrubPage
  extract_lets v0 v1 v2 v3
  have h4 : Keeps M s0 v0 := by
    unfold v0
    refine State.zeroPages_keeps ?_
    with_reducible assumption
  clear_value v0
  have h5 : Keeps M s0 v3 := by
    unfold v3
    refine Keeps.mk' ?_ le_rfl rfl (fun x => x) (fun x => x) le_rfl
    with_reducible assumption
  clear_value v3
  refine Keeps.foldl ?_ ?_
  · with_reducible assumption
  · intro x6
    intro x7
    intro x8
    refine scrubEnded_keeps ?_
    with_reducible assumption

theorem readLineFor_keeps [Fact (M .free)] [Fact (M .regs)] [Fact (M .host)] [Fact (M .ump)] [Fact (M .mem)] [Fact (M .scb)]
    [Fact (M .cells)] {s0 : State} {c : Nat} {acc : List (Nat × List Byte) × State} {line : Nat} (hK : Keeps M s0 acc.2) :
    Keeps M s0 (readLineFor c acc line).2 := by
  have h1 : Keeps M s0 (if acc.2.scrubbing (line / 1024) then acc.2.scrubPage (line / 1024) else acc.2) :=
    Keeps.ite (fun _ => State.scrubPage_keeps hK) (fun _ => hK)
  unfold readLineFor
  refine Keeps.iteSnd (fun _ => ?_) (fun _ => State.violate_keeps h1)
  exact State.readLine_keeps h1

theorem State.lpRead_keeps {M : Part → Prop} [Fact (M .free)] [Fact (M .regs)] [Fact (M .host)] [Fact (M .ump)]
    [Fact (M .mem)] [Fact (M .scb)] [Fact (M .cells)] {s0 : State} {s : Sys2Proof.Machine.State} {c : ℕ} {a : ℕ} {n : ℕ}
    (hK : Keeps M s0 s) :
    Keeps M s0 (State.lpRead s c a n).2 := by
  unfold State.lpRead
  split
  · rename_i hq0
    refine Keeps.viaPair (M := M) (s0 := s0) hq0 ?_ (fun hk1 => ?_)
    · refine Keeps.foldlSnd ?_ ?_
      · with_reducible assumption
      · intro x2
        intro x3
        intro x4
        refine readLineFor_keeps ?_
        with_reducible assumption
    · with_reducible assumption

theorem applyGroupList_keeps {M : Part → Prop} [Fact (M .free)] [Fact (M .regs)] [Fact (M .host)] [Fact (M .ump)]
    [Fact (M .mem)] [Fact (M .ref)] [Fact (M .scb)] [Fact (M .cells)] {s0 : State} {k : Sys2Proof.Machine.Check}
    {s : Sys2Proof.Machine.State} (hK : Keeps M s0 s) :
    Keeps M s0 (applyGroupList k s) := by
  unfold applyGroupList
  extract_lets v0 v1 v2 v3 v4 v5
  have h6 : Keeps M s0 v4 := by
    unfold v4
    refine Keeps.ite ?_ ?_
    · intro x7
      refine Keeps.mk' ?_ le_rfl rfl (fun x => x) (fun x => x) le_rfl
      with_reducible assumption
    · intro x8
      with_reducible assumption
  clear_value v4
  refine Keeps.ite ?_ ?_
  · intro x9
    refine State.extendMrBytes_keeps ?_
    with_reducible assumption
  · intro x10
    with_reducible assumption

theorem State.trackCool_keeps {M : Part → Prop} [Fact (M .err)] {s0 : State} {s : Sys2Proof.Machine.State} (hK : Keeps M s0 s) :
    Keeps M s0 (State.trackCool s) := by
  unfold State.trackCool
  extract_lets v0 v1
  refine Keeps.mk' ?_ le_rfl rfl (fun x => x) (fun x => x) le_rfl
  with_reducible assumption

theorem State.takeReading_keeps {M : Part → Prop} [Fact (M .regs)] [Fact (M .err)] [Fact (M .pwr)] {s0 : State}
    {s : Sys2Proof.Machine.State} {reading : Sys2Proof.PowerReading} (hK : Keeps M s0 s) :
    Keeps M s0 (State.takeReading s reading) := by
  unfold State.takeReading
  extract_lets v0 v1 v2 v3 v4 v5
  have h6 : Keeps M s0 v1 := by
    unfold v1
    refine Keeps.mk' ?_ le_rfl rfl (fun x => x) (fun x => x) le_rfl
    with_reducible assumption
  clear_value v1
  have h7 : Keeps M s0 v2 := by
    unfold v2
    refine State.trackCool_keeps ?_
    with_reducible assumption
  clear_value v2
  have h8 : Keeps M s0 v3 := by
    unfold v3
    refine State.setReg_keeps ?_
    with_reducible assumption
  clear_value v3
  refine State.setReg_keeps ?_
  with_reducible assumption

theorem State.deliver_keeps {M : Part → Prop} [Fact (M .free)] [Fact (M .scb)] [Fact (M .mgl)] {s0 : State}
    {s : Sys2Proof.Machine.State} {port : ℕ} {k : Sys2Proof.Machine.Packet} (hK : Keeps M s0 s) :
    Keeps M s0 (State.deliver s port k) := by
  unfold State.deliver
  refine Keeps.ite ?_ ?_
  · intro x0
    with_reducible assumption
  · intro x1
    extract_lets v2 v3
    have h4 : Keeps M s0 v3 := by
      unfold v3
      refine Keeps.mk' ?_ le_rfl rfl (fun x => x) (fun x => x) le_rfl
      with_reducible assumption
    clear_value v3
    refine Keeps.ite ?_ ?_
    · intro x5
      refine State.trace_keeps ?_
      with_reducible assumption
    · intro x6
      with_reducible assumption

theorem State.sendLmc_keeps {M : Part → Prop} [Fact (M .host)] {s0 : State} {s : Sys2Proof.Machine.State} {p : ℕ} {kind : ℕ}
    {fields : List ℕ} (hK : Keeps M s0 s) :
    Keeps M s0 (State.sendLmc s p kind fields) := by
  unfold State.sendLmc
  refine State.emit_keeps ?_
  with_reducible assumption

theorem State.freeBuffer_keeps {M : Part → Prop} [Fact (M .host)] {s0 : State} {s : Sys2Proof.Machine.State} {p : ℕ}
    {k : Sys2Proof.Machine.Packet} (hK : Keeps M s0 s) :
    Keeps M s0 (State.freeBuffer s p k) := by
  unfold State.freeBuffer
  refine Keeps.ite ?_ ?_
  · intro x0
    refine State.sendLmc_keeps ?_
    with_reducible assumption
  · intro x1
    with_reducible assumption

theorem State.addSem_keeps {M : Part → Prop} [Fact (M .ump)] {s0 : State} {s : Sys2Proof.Machine.State} {i : ℕ} {n : ℕ}
    (hK : Keeps M s0 s) :
    Keeps M s0 (State.addSem s i n) := by
  unfold State.addSem
  refine State.modWork_keeps ?_
  with_reducible assumption

theorem State.winViolation_keeps {M : Part → Prop} [Fact (M .regs)] {s0 : State} {s : Sys2Proof.Machine.State}
    {p : Sys2Proof.Machine.Port} (hK : Keeps M s0 s) :
    Keeps M s0 (State.winViolation s p) := by
  unfold State.winViolation
  refine State.bump_keeps ?_
  with_reducible assumption

theorem State.reclaim_keeps {M : Part → Prop} [Fact (M .regs)] [Fact (M .host)] {s0 : State} {s : Sys2Proof.Machine.State}
    {p : Sys2Proof.Machine.Port} {i : ℕ} {aligned : Bool} {gen : ℕ} (hK : Keeps M s0 s) :
    Keeps M s0 (State.reclaim s p i aligned gen) := by
  unfold State.reclaim
  extract_lets v0
  refine Keeps.ite ?_ ?_
  · intro x1
    refine State.modPort_keeps ?_
    with_reducible assumption
  · intro x2
    refine State.winViolation_keeps ?_
    with_reducible assumption

theorem State.handOver_keeps {M : Part → Prop} [Fact (M .regs)] [Fact (M .host)] {s0 : State} {s : Sys2Proof.Machine.State}
    {p : Sys2Proof.Machine.Port} {i : ℕ} {aligned : Bool} {gen : ℕ} (hK : Keeps M s0 s) :
    Keeps M s0 (State.handOver s p i aligned gen) := by
  unfold State.handOver
  extract_lets v0
  refine Keeps.ite ?_ ?_
  · intro x1
    refine State.modPort_keeps ?_
    with_reducible assumption
  · intro x2
    refine State.winViolation_keeps ?_
    with_reducible assumption

theorem State.flagWrite_keeps {M : Part → Prop} [Fact (M .regs)] [Fact (M .host)] {s0 : State} {s : Sys2Proof.Machine.State}
    {p : Sys2Proof.Machine.Port} {func : ℕ} {off : ℕ} {data : List Sys2Proof.Byte} (hK : Keeps M s0 s) :
    Keeps M s0 (State.flagWrite s p func off data) := by
  unfold State.flagWrite
  split
  · with_reducible assumption
  · extract_lets v0
    refine Keeps.ite ?_ ?_
    · intro x1
      refine Keeps.ite ?_ ?_
      · intro x2
        refine State.handOver_keeps ?_
        with_reducible assumption
      · intro x3
        refine State.reclaim_keeps ?_
        with_reducible assumption
    · intro x4
      refine State.winViolation_keeps ?_
      with_reducible assumption

theorem State.startStep_keeps {M : Part → Prop} [Fact (M .ump)] [Fact (M .rdc)] {s0 : State} {s : Sys2Proof.Machine.State}
    {e : Sys2Proof.Machine.RsvEntry} {start : ℕ} (hK : Keeps M s0 s) :
    Keeps M s0 (State.startStep s e start) := by
  unfold State.startStep
  extract_lets v0 v1 v2 v3 v4 v5
  have h6 : Keeps M s0 v4 := by
    unfold v4
    refine Keeps.mk' ?_ le_rfl rfl (fun x => x) (fun x => x) le_rfl
    with_reducible assumption
  clear_value v4
  split
  · refine Keeps.ite ?_ ?_
    · intro x7
      refine Keeps.mk' ?_ le_rfl rfl (fun x => x) (fun x => x) le_rfl
      with_reducible assumption
    · intro x8
      with_reducible assumption
  · with_reducible assumption

theorem State.setEngine_keeps {M : Part → Prop} [Fact (M .eng)] {s0 : State} {s : Sys2Proof.Machine.State}
    {e : Sys2Proof.Machine.Engine} {r : Sys2Proof.Machine.EngineRun} (hK : Keeps M s0 s) :
    Keeps M s0 (State.setEngine s e r) := by
  unfold State.setEngine
  split
  · refine Keeps.mk' ?_ le_rfl rfl (fun x => x) (fun x => x) le_rfl
    with_reducible assumption
  · refine Keeps.mk' ?_ le_rfl rfl (fun x => x) (fun x => x) le_rfl
    with_reducible assumption
  · refine Keeps.mk' ?_ le_rfl rfl (fun x => x) (fun x => x) le_rfl
    with_reducible assumption
  · refine Keeps.mk' ?_ le_rfl rfl (fun x => x) (fun x => x) le_rfl
    with_reducible assumption

theorem State.advance_keeps {M : Part → Prop} [Fact (M .eng)] {s0 : State} {s : Sys2Proof.Machine.State}
    {e : Sys2Proof.Machine.Engine} (hK : Keeps M s0 s) :
    Keeps M s0 (State.advance s e) := by
  unfold State.advance
  extract_lets v0
  refine State.setEngine_keeps ?_
  with_reducible assumption

theorem State.signalCommand_keeps {M : Part → Prop} [Fact (M .ump)] [Fact (M .eng)] {s0 : State} {s : Sys2Proof.Machine.State}
    {e : Sys2Proof.Machine.Engine} {cmd : Sys2Proof.Desc} {drained : Bool} (hK : Keeps M s0 s) :
    Keeps M s0 (State.signalCommand s e cmd drained) := by
  unfold State.signalCommand
  split
  · with_reducible assumption
  · refine Keeps.ite ?_ ?_
    · intro x0
      refine State.advance_keeps ?_
      refine State.addSem_keeps ?_
      with_reducible assumption
    · intro x1
      with_reducible assumption

theorem State.setSpdm_keeps {M : Part → Prop} [Fact (M .ref)] {s0 : State} {s : Sys2Proof.Machine.State} {n : ℕ}
    {k : Sys2Proof.Machine.SpdmSession} (hK : Keeps M s0 s) :
    Keeps M s0 (State.setSpdm s n k) := by
  unfold State.setSpdm
  refine Keeps.mk' ?_ le_rfl rfl (fun x => x) (fun x => x) le_rfl
  with_reducible assumption

theorem State.spdmReply_keeps {M : Part → Prop} [Fact (M .free)] [Fact (M .host)] {s0 : State} {s : Sys2Proof.Machine.State}
    {p : Sys2Proof.Machine.Port} {code : ℕ} {body : List Sys2Proof.Byte} (hK : Keeps M s0 s) :
    Keeps M s0 (State.spdmReply s p code body) := by
  unfold State.spdmReply
  refine State.freed_keeps ?_
  refine State.emit_keeps ?_
  with_reducible assumption

theorem State.spdmError_keeps {M : Part → Prop} [Fact (M .host)] {s0 : State} {s : Sys2Proof.Machine.State}
    {p : Sys2Proof.Machine.Port} {code : ℕ} {err : ℕ} (hK : Keeps M s0 s) :
    Keeps M s0 (State.spdmError s p code err) := by
  unfold State.spdmError
  refine State.emit_keeps ?_
  with_reducible assumption

theorem State.spdm_keeps {M : Part → Prop} [Fact (M .host)] {s0 : State} {s : Sys2Proof.Machine.State}
    {p : Sys2Proof.Machine.Port} {code : ℕ} {ready : Sys2Proof.Machine.SpdmConn → Bool}
    {act : Sys2Proof.Machine.State → Sys2Proof.Machine.State} (hact : ∀ (y0 : State), Keeps M s0 y0 → Keeps M s0 (act y0))
    (hK : Keeps M s0 s) :
    Keeps M s0 (State.spdm s p code ready act) := by
  unfold State.spdm
  refine Keeps.ite ?_ ?_
  · intro x0
    with_reducible assumption
  · intro x1
    refine Keeps.ite ?_ ?_
    · intro x2
      refine State.spdmError_keeps ?_
      with_reducible assumption
    · intro x3
      refine Keeps.ite ?_ ?_
      · intro x4
        refine State.spdmError_keeps ?_
        with_reducible assumption
      · intro x5
        with_reducible apply hact
        with_reducible assumption

theorem takeMessage_keeps {M : Part → Prop} [Fact (M .host)] {s0 : State} {s : Sys2Proof.Machine.State} {c : ℕ}
    (hK : Keeps M s0 s) :
    Keeps M s0 (takeMessage s c) := by
  unfold takeMessage
  refine State.writeback_keeps ?_
  refine State.modRing_keeps ?_
  with_reducible assumption

theorem refEvent_keeps {M : Part → Prop} [Fact (M .host)] {s0 : State} {ty : ℕ} {slot : ℕ} {tenant : ℕ}
    {bits : List Sys2Proof.Machine.LayoutField} {s : Sys2Proof.Machine.State} (hK : Keeps M s0 s) :
    Keeps M s0 (refEvent ty slot tenant bits s) := by
  unfold refEvent
  refine State.opEvent_keeps ?_
  with_reducible assumption

theorem State.setSlot_keeps {M : Part → Prop} [Fact (M .ref)] {s0 : State} {s : Sys2Proof.Machine.State} {n : ℕ}
    {r : Sys2Proof.Machine.RefSlot} (hK : Keeps M s0 s) :
    Keeps M s0 (State.setSlot s n r) := by
  unfold State.setSlot
  refine Keeps.mk' ?_ le_rfl rfl (fun x => x) (fun x => x) le_rfl
  with_reducible assumption

theorem refDebug_keeps {M : Part → Prop} [Fact (M .host)] {s0 : State} {s : Sys2Proof.Machine.State} {level : ℕ}
    {granted : Bool} (hK : Keeps M s0 s) :
    Keeps M s0 (refDebug s level granted) := by
  unfold refDebug
  refine State.opEvent_keeps ?_
  with_reducible assumption

theorem State.vendor_keeps {M : Part → Prop} [Fact (M .host)] {s0 : State} {s : Sys2Proof.Machine.State} {sess : ℕ} {code : ℕ}
    {act : Sys2Proof.Machine.SpdmSession → Sys2Proof.Machine.State → Sys2Proof.Machine.TenantReply}
    (hact : ∀ (y0 : SpdmSession) (y1 : State), Keeps M s0 y1 → KeepsT M s0 (act y0 y1)) (hK : Keeps M s0 s) :
    Keeps M s0 (State.vendor s sess code act) := by
  unfold State.vendor
  split
  · with_reducible assumption
  · refine Keeps.ite ?_ ?_
    · intro x0
      with_reducible assumption
    · intro x1
      refine Keeps.ite ?_ ?_
      · intro x2
        refine State.spdmError_keeps ?_
        with_reducible assumption
      · intro x3
        split
        · rename_i hq4
          refine Keeps.viaTriple (M := M) (s0 := s0) hq4 ?_ (fun hk5 => ?_)
          · with_reducible apply hact
            with_reducible assumption
          · refine State.emit_keeps ?_
            with_reducible assumption

theorem State.tenant_keeps {M : Part → Prop} [Fact (M .host)] {s0 : State} {s : Sys2Proof.Machine.State} {sess : ℕ} {code : ℕ}
    {act : Sys2Proof.Machine.SpdmSession → ℕ → Sys2Proof.Machine.Session → Sys2Proof.Machine.RefSlot → Sys2Proof.Machine.State → Sys2Proof.Machine.TenantReply}
    (hact : ∀ (y0 : SpdmSession) (y1 : ℕ) (y2 : Session) (y3 : RefSlot) (y4 : State), Keeps M s0 y4 → KeepsT M s0 (act y0 y1 y2 y3 y4))
    (hK : Keeps M s0 s) :
    Keeps M s0 (State.tenant s sess code act) := by
  unfold State.tenant
  refine State.vendor_keeps ?_ ?_
  · intro x0
    intro x1
    intro x2
    split
    · refine KeepsT.mk ?_
      with_reducible assumption
    · split
      · refine KeepsT.mk ?_
        with_reducible assumption
      · refine KeepsT.ite ?_ ?_
        · intro x3
          refine KeepsT.mk ?_
          with_reducible assumption
        · intro x4
          with_reducible apply hact
          with_reducible assumption
  · with_reducible assumption

theorem State.countGcm_keeps {M : Part → Prop} [Fact (M .regs)] [Fact (M .scb)] {s0 : State} {s : Sys2Proof.Machine.State}
    {c : ℕ} {adapter : ℕ} {n : ℕ} (hK : Keeps M s0 s) :
    Keeps M s0 (State.countGcm s c adapter n) := by
  unfold State.countGcm
  refine State.count_keeps ?_
  with_reducible assumption

theorem State.setCap_keeps {M : Part → Prop} [Fact (M .regs)] {s0 : State} {s : Sys2Proof.Machine.State} (hK : Keeps M s0 s) :
    Keeps M s0 (State.setCap s) := by
  unfold State.setCap
  extract_lets v0
  refine State.setFld_keeps ?_
  refine State.setFld_keeps ?_
  with_reducible assumption

theorem clearUnits_keeps {M : Part → Prop} [Fact (M .regs)] {s0 : State} {s : Sys2Proof.Machine.State} {key : ℕ → ℕ}
    {units : List ℕ} (hK : Keeps M s0 s) :
    Keeps M s0 (clearUnits s key units) := by
  unfold clearUnits
  refine Keeps.foldl ?_ ?_
  · with_reducible assumption
  · intro x0
    intro x1
    intro x2
    refine State.setFld_keeps ?_
    with_reducible assumption

theorem bootRetest_keeps {M : Part → Prop} [Fact (M .regs)] [Fact (M .ump)] {s0 : State} {tests : Sys2Proof.BootTests}
    {s : Sys2Proof.Machine.State} (hK : Keeps M s0 s) :
    Keeps M s0 (bootRetest tests s) := by
  unfold bootRetest
  extract_lets v0 v1 v2 v3 v4 v5 v6 v7
  have h8 : Keeps M s0 v0 := by
    unfold v0
    refine clearUnits_keeps ?_
    with_reducible assumption
  clear_value v0
  have h9 : Keeps M s0 v1 := by
    unfold v1
    refine State.setCap_keeps ?_
    with_reducible assumption
  clear_value v1
  have h10 : Keeps M s0 v3 := by
    unfold v3
    refine Keeps.mk' ?_ le_rfl rfl (fun x => x) (fun x => x) le_rfl
    with_reducible assumption
  clear_value v3
  have h11 : Keeps M s0 v4 := by
    unfold v4
    refine clearUnits_keeps ?_
    with_reducible assumption
  clear_value v4
  have h12 : Keeps M s0 v5 := by
    unfold v5
    refine clearUnits_keeps ?_
    with_reducible assumption
  clear_value v5
  have h13 : Keeps M s0 v7 := by
    unfold v7
    refine State.setFld_keeps ?_
    with_reducible assumption
  clear_value v7
  refine Keeps.ite ?_ ?_
  · intro x14
    with_reducible assumption
  · intro x15
    refine clearUnits_keeps ?_
    with_reducible assumption

theorem State.bootStep_keeps {M : Part → Prop} [Fact (M .regs)] {s0 : State} {s : Sys2Proof.Machine.State} {n : ℕ}
    (hK : Keeps M s0 s) :
    Keeps M s0 (State.bootStep s n) := by
  unfold State.bootStep
  refine State.setFld_keeps ?_
  with_reducible assumption

theorem State.bootFails_keeps {M : Part → Prop} [Fact (M .regs)] [Fact (M .pwr)] {s0 : State} {s : Sys2Proof.Machine.State}
    {err : ℕ} (hK : Keeps M s0 s) :
    Keeps M s0 (State.bootFails s err) := by
  unfold State.bootFails
  extract_lets v0 v1 v2
  have h3 : Keeps M s0 v0 := by
    unfold v0
    refine State.setFld_keeps ?_
    with_reducible assumption
  clear_value v0
  have h4 : Keeps M s0 v1 := by
    unfold v1
    refine State.setFld_keeps ?_
    with_reducible assumption
  clear_value v1
  refine Keeps.mk' ?_ le_rfl rfl (fun x => x) (fun x => x) le_rfl
  with_reducible assumption

theorem bootStep4_keeps {M : Part → Prop} [Fact (M .regs)] [Fact (M .ump)] [Fact (M .ref)] [Fact (M .pwr)] {s0 : State}
    {tests : Sys2Proof.BootTests} {s : Sys2Proof.Machine.State} (hK : Keeps M s0 s) :
    KeepsE M s0 (bootStep4 tests s) := by
  unfold bootStep4
  extract_lets v0
  split
  · refine KeepsE.error ?_
    refine State.bootFails_keeps ?_
    with_reducible assumption
  · split
    · refine KeepsE.error ?_
      refine State.bootFails_keeps ?_
      with_reducible assumption
    · refine KeepsE.error ?_
      refine State.bootFails_keeps ?_
      with_reducible assumption
    · refine KeepsE.ite ?_ ?_
      · intro x1
        refine KeepsE.error ?_
        refine State.bootFails_keeps ?_
        with_reducible assumption
      · intro x2
        refine KeepsE.ok ?_
        refine State.bootStep_keeps ?_
        refine bootRetest_keeps ?_
        refine State.extendMr_keeps ?_
        refine State.extendMr_keeps ?_
        with_reducible assumption

theorem State.setBank_keeps [Fact (M .wst)] {s0 s : State} {b : Nat} {r : BankRec} (h : Keeps M s0 s) : Keeps M s0
    (s.setBank b r) :=
  h.upd rfl (by unfold State.setBank; dsimp only; split <;> rfl) rfl rfl rfl rfl

theorem State.devRead_keeps {M : Part → Prop} [Fact (M .free)] [Fact (M .regs)] [Fact (M .host)] [Fact (M .ump)]
    [Fact (M .mem)] [Fact (M .scb)] [Fact (M .cells)] {s0 : State} {s : Sys2Proof.Machine.State} {c : ℕ} {a : ℕ} {n : ℕ}
    (hK : Keeps M s0 s) :
    Keeps M s0 (State.devRead s c a n).2 := by
  unfold State.devRead
  refine Keeps.iteSnd ?_ ?_
  · intro x0
    refine State.lpRead_keeps ?_
    with_reducible assumption
  · intro x1
    with_reducible assumption

theorem State.gReadAt_keeps {M : Part → Prop} [Fact (M .free)] [Fact (M .regs)] [Fact (M .host)] [Fact (M .ump)]
    [Fact (M .mem)] [Fact (M .scb)] [Fact (M .cells)] {s0 : State} {s : Sys2Proof.Machine.State} {w : Sys2Proof.Machine.Work}
    {e : ℕ} {a : ℕ} {n : ℕ} (hK : Keeps M s0 s) :
    Keeps M s0 (State.gReadAt s w e a n).2 := by
  unfold State.gReadAt
  split
  · rename_i hq0
    refine Keeps.viaPair (M := M) (s0 := s0) hq0 ?_ (fun hk1 => ?_)
    · refine State.devRead_keeps ?_
      with_reducible assumption
    · dsimp only
      refine State.traffic_keeps ?_
      with_reducible assumption

theorem State.gRead_keeps {M : Part → Prop} [Fact (M .free)] [Fact (M .regs)] [Fact (M .host)] [Fact (M .ump)] [Fact (M .mem)]
    [Fact (M .scb)] [Fact (M .cells)] {s0 : State} {s : Sys2Proof.Machine.State} {w : Sys2Proof.Machine.Work} {e : ℕ} {a : ℕ}
    {n : ℕ} (hK : Keeps M s0 s) :
    Keeps M s0 (State.gRead s w e a n).2 := by
  unfold State.gRead
  split
  · refine State.gReadAt_keeps ?_
    with_reducible assumption
  · refine State.gReadAt_keeps ?_
    with_reducible assumption
  · refine Keeps.foldlSnd ?_ ?_
    · with_reducible assumption
    · intro x0
      intro x1
      intro x2
      split
      · rename_i hq3
        refine Keeps.viaPair (M := M) (s0 := s0) hq3 ?_ (fun hk4 => ?_)
        · refine State.gReadAt_keeps ?_
          with_reducible assumption
        · with_reducible assumption
  · with_reducible assumption
  · with_reducible assumption

theorem readOffs_keeps {M : Part → Prop} [Fact (M .free)] [Fact (M .regs)] [Fact (M .host)] [Fact (M .ump)] [Fact (M .mem)]
    [Fact (M .scb)] [Fact (M .cells)] {s0 : State} {w : Sys2Proof.Machine.Work} {e : ℕ} {c : Sys2Proof.Machine.GatherCmd}
    {s : Sys2Proof.Machine.State} (hK : Keeps M s0 s) :
    Keeps M s0 (readOffs w e c s).2 := by
  unfold readOffs
  split
  · rename_i hq0
    refine Keeps.viaPair (M := M) (s0 := s0) hq0 ?_ (fun hk1 => ?_)
    · refine State.gRead_keeps ?_
      with_reducible assumption
    · with_reducible assumption

theorem State.setReg64_keeps {M : Part → Prop} [Fact (M .regs)] {s0 : State} {s : Sys2Proof.Machine.State} {lo : ℕ} {hi : ℕ}
    {v : ℕ} (hK : Keeps M s0 s) :
    Keeps M s0 (State.setReg64 s lo hi v) := by
  unfold State.setReg64
  refine State.setReg_keeps ?_
  refine State.setReg_keeps ?_
  with_reducible assumption

theorem State.tallyCycles_keeps {M : Part → Prop} [Fact (M .scb)] {s0 : State} {s : Sys2Proof.Machine.State} (hK : Keeps M s0 s) :
    Keeps M s0 (State.tallyCycles s) := by
  unfold State.tallyCycles
  extract_lets v0 v1
  refine Keeps.mk' ?_ le_rfl rfl (fun x => x) (fun x => x) le_rfl
  with_reducible assumption

theorem State.setClock_keeps {M : Part → Prop} [Fact (M .free)] [Fact (M .regs)] [Fact (M .pwr)] [Fact (M .scb)] {s0 : State}
    {s : Sys2Proof.Machine.State} {n : ℕ} (hK : Keeps M s0 s) :
    Keeps M s0 (State.setClock s n) := by
  unfold State.setClock
  extract_lets v0 v1 v2 v3 v4 v5 v6
  have h7 : Keeps M s0 v0 := by
    unfold v0
    refine State.tallyCycles_keeps ?_
    with_reducible assumption
  clear_value v0
  have h8 : Keeps M s0 v1 := by
    unfold v1
    refine State.setReg64_keeps ?_
    with_reducible assumption
  clear_value v1
  have h9 : Keeps M s0 v3 := by
    unfold v3
    refine Keeps.mk' ?_ le_rfl rfl (fun x => x) (fun x => x) le_rfl
    with_reducible assumption
  clear_value v3
  have h10 : Keeps M s0 v4 := by
    unfold v4
    refine State.setFld_keeps ?_
    with_reducible assumption
  clear_value v4
  have h11 : Keeps M s0 v5 := by
    unfold v5
    refine State.bump_keeps ?_
    with_reducible assumption
  clear_value v5
  have h12 : Keeps M s0 v6 := by
    unfold v6
    refine Keeps.ite ?_ ?_
    · intro x13
      refine State.setFld_keeps ?_
      with_reducible assumption
    · intro x14
      with_reducible assumption
  clear_value v6
  refine State.trace_keeps ?_
  with_reducible assumption

theorem State.startWork_keeps {M : Part → Prop} [Fact (M .ump)] [Fact (M .lkr)] [Fact (M .mgl)] [Fact (M .wst)]
    [Fact (M .eng)] {s0 : State} {s : Sys2Proof.Machine.State} {w : Sys2Proof.Machine.Work}
    {streams : List Sys2Proof.Machine.StreamEntry} {bank : ℕ} (hK : Keeps M s0 s) :
    Keeps M s0 (State.startWork s w streams bank) := by
  unfold State.startWork
  refine Keeps.mk' ?_ le_rfl rfl (fun x => x) (fun x => x) le_rfl
  with_reducible assumption

theorem State.sendBoot_keeps {M : Part → Prop} [Fact (M .mgl)] {s0 : State} {s : Sys2Proof.Machine.State} {p : ℕ} {ty : ℕ}
    {seq : ℕ} {data : List Sys2Proof.Byte} (hK : Keeps M s0 s) :
    Keeps M s0 (State.sendBoot s p ty seq data) := by
  unfold State.sendBoot
  refine State.enqueue_keeps ?_
  with_reducible assumption

theorem relayAnswer_keeps {M : Part → Prop} [Fact (M .mgl)] {s0 : State} {s : Sys2Proof.Machine.State} {ty : ℕ} {seq : ℕ}
    {data : List Sys2Proof.Byte} (hK : Keeps M s0 s) :
    Keeps M s0 (relayAnswer s ty seq data) := by
  unfold relayAnswer
  extract_lets v0 v1 v2
  have h3 : Keeps M s0 v2 := by
    unfold v2
    refine Keeps.mk' ?_ le_rfl rfl (fun x => x) (fun x => x) le_rfl
    with_reducible assumption
  clear_value v2
  refine Keeps.foldl ?_ ?_
  · with_reducible assumption
  · intro x4
    intro x5
    intro x6
    refine Keeps.ite ?_ ?_
    · intro x7
      refine State.sendBoot_keeps ?_
      with_reducible assumption
    · intro x8
      with_reducible assumption

theorem State.fenceSchedules_keeps {M : Part → Prop} [Fact (M .err)] {s0 : State} {s : Sys2Proof.Machine.State} {die : ℕ}
    (hK : Keeps M s0 s) :
    Keeps M s0 (State.fenceSchedules s die) := by
  unfold State.fenceSchedules
  extract_lets v0 v1 v2
  refine Keeps.mk' ?_ le_rfl rfl (fun x => x) (fun x => x) le_rfl
  with_reducible assumption

theorem State.applyRevocations_keeps {M : Part → Prop} [Fact (M .free)] [Fact (M .regs)] [Fact (M .host)] [Fact (M .ump)]
    [Fact (M .lkr)] [Fact (M .mem)] [Fact (M .scb)] [Fact (M .mgl)] [Fact (M .rdc)] [Fact (M .wst)] [Fact (M .eng)]
    [Fact (M .cells)] {s0 : State} {s : Sys2Proof.Machine.State} {instant : ℕ} {gone : List ℕ} (hK : Keeps M s0 s) :
    Keeps M s0 (State.applyRevocations s instant gone) := by
  unfold State.applyRevocations
  extract_lets v0 v1 v2 v3 v4
  have h5 : Keeps M s0 v1 := by
    unfold v1
    refine Keeps.foldl ?_ ?_
    · with_reducible assumption
    · intro x6
      intro x7
      intro x8
      unfold v0
      split
      · with_reducible assumption
      · extract_lets v9 v10 v11 v12 v13 v14
        have h15 : Keeps M s0 v9 := by
          unfold v9
          refine endStepsOf_keeps ?_
          with_reducible assumption
        clear_value v9
        have h16 : Keeps M s0 v10 := by
          unfold v10
          refine State.dropCommit_keeps ?_
          with_reducible assumption
        clear_value v10
        have h17 : Keeps M s0 v11 := by
          unfold v11
          refine Keeps.elim ?_ ?_
          · with_reducible assumption
          · intro x18
            refine dropWaiters_keeps ?_
            with_reducible assumption
        clear_value v11
        have h19 : Keeps M s0 v12 := by
          unfold v12
          refine State.closeRecord_keeps ?_
          with_reducible assumption
        clear_value v12
        have h20 : Keeps M s0 v13 := by
          unfold v13
          refine State.scrubFree_keeps ?_
          with_reducible assumption
        clear_value v13
        refine Keeps.mk' ?_ le_rfl rfl (fun x => x) (fun x => x) le_rfl
        with_reducible assumption
  clear_value v1
  have h21 : Keeps M s0 v4 := by
    unfold v4
    refine Keeps.mk' ?_ le_rfl rfl (fun x => x) (fun x => x) le_rfl
    with_reducible assumption
  clear_value v4
  refine Keeps.foldl ?_ ?_
  · with_reducible assumption
  · intro x22
    intro x23
    intro x24
    refine Keeps.elim ?_ ?_
    · with_reducible assumption
    · intro x25
      refine State.finish_keeps ?_
      with_reducible assumption

theorem traceSweep_keeps {M : Part → Prop} [Fact (M .free)] [Fact (M .scb)] {s0 : State} {s : Sys2Proof.Machine.State}
    {slot : ℕ} {complete : Bool} (hK : Keeps M s0 s) :
    Keeps M s0 (traceSweep s slot complete) := by
  unfold traceSweep
  refine Keeps.foldl ?_ ?_
  · with_reducible assumption
  · intro x0
    intro x1
    intro x2
    refine State.trace_keeps ?_
    with_reducible assumption

theorem State.sweepDone_keeps {M : Part → Prop} [Fact (M .free)] [Fact (M .host)] [Fact (M .mem)] [Fact (M .scb)] {s0 : State}
    {s : Sys2Proof.Machine.State} {slot : ℕ} {k : Sys2Proof.Machine.KeySlot} (hK : Keeps M s0 s) :
    Keeps M s0 (State.sweepDone s slot k) := by
  unfold State.sweepDone
  extract_lets v0 v1 v2
  have h3 : Keeps M s0 v2 := by
    unfold v2
    refine Keeps.mk' ?_ le_rfl rfl (fun x => x) (fun x => x) le_rfl
    with_reducible assumption
  clear_value v2
  refine State.opEvent_keeps ?_
  refine traceSweep_keeps ?_
  with_reducible assumption

theorem State.modSweep_keeps {M : Part → Prop} [Fact (M .mem)] {s0 : State} {s : Sys2Proof.Machine.State} {slot : ℕ}
    {f : Sys2Proof.Machine.Sweep → Sys2Proof.Machine.Sweep} (hK : Keeps M s0 s) :
    Keeps M s0 (State.modSweep s slot f) := by
  unfold State.modSweep
  refine Keeps.mk' ?_ le_rfl rfl (fun x => x) (fun x => x) le_rfl
  with_reducible assumption

theorem State.rewriteLine_keeps {M : Part → Prop} [Fact (M .regs)] [Fact (M .mem)] [Fact (M .scb)] [Fact (M .cells)]
    {s0 : State} {s : Sys2Proof.Machine.State} {slot : ℕ} {line : ℕ} {k : Sys2Proof.Machine.KeySlot} (hK : Keeps M s0 s) :
    Keeps M s0 (State.rewriteLine s slot line k) := by
  unfold State.rewriteLine
  extract_lets v0 v1 v2
  have h3 : Keeps M s0 v0 := by
    unfold v0
    refine State.count_keeps ?_
    with_reducible assumption
  clear_value v0
  have h4 : Keeps M s0 v1 := by
    unfold v1
    refine State.modSweep_keeps ?_
    with_reducible assumption
  clear_value v1
  split
  · refine Keeps.mk' ?_ (by first | exact le_rfl | (split <;> exact le_rfl) | (dsimp only; split; exact le_max_left _ _; exact le_rfl)) (by first | rfl | (split <;> rfl)) (by first | exact fun x => x | exact fun x => Memory.wf_filter _ x | exact fun x => Memory.wf_writeBytes _ _ x | exact fun x => Memory.wf_writeCells _ x | exact fun x => RegsWf.filter _ x) (by first | exact fun x => x | exact fun x => Memory.wf_filter _ x | exact fun x => Memory.wf_writeBytes _ _ x | exact fun x => Memory.wf_writeCells _ x | exact fun x => RegsWf.filter _ x) (by first | exact le_rfl | (split <;> exact le_rfl) | (dsimp only; split; exact le_max_left _ _; exact le_rfl))
    with_reducible assumption

theorem State.detect_keeps {M : Part → Prop} [Fact (M .free)] [Fact (M .regs)] [Fact (M .host)] [Fact (M .ump)]
    [Fact (M .lkr)] [Fact (M .mem)] [Fact (M .err)] [Fact (M .scb)] [Fact (M .mgl)] [Fact (M .rdc)] [Fact (M .wst)]
    [Fact (M .eng)] [Fact (M .cells)] {s0 : State} {s : Sys2Proof.Machine.State} {kind : ℕ} {unit : ℕ} {cause : ℕ}
    {touches : Sys2Proof.Machine.Work → Bool} {cause' : Sys2Proof.Machine.DiscardCause} {entries : (List ℕ)}
    (hK : Keeps M s0 s) :
    Keeps M s0 (State.detect s kind unit cause touches cause' entries) := by
  unfold State.detect
  extract_lets v0 v1 v2 v3 v4
  have h5 : Keeps M s0 v3 := by
    unfold v3
    refine Keeps.ite ?_ ?_
    · intro x6
      refine State.stopWork_keeps ?_
      with_reducible assumption
    · intro x7
      with_reducible assumption
  clear_value v3
  refine Keeps.mk' ?_ le_rfl rfl (fun x => x) (fun x => x) le_rfl
  with_reducible assumption

theorem State.urgent_keeps {M : Part → Prop} [Fact (M .free)] [Fact (M .regs)] [Fact (M .host)] [Fact (M .ump)]
    [Fact (M .lkr)] [Fact (M .mem)] [Fact (M .scb)] [Fact (M .mgl)] [Fact (M .rdc)] [Fact (M .wst)] [Fact (M .eng)]
    [Fact (M .cells)] {s0 : State} {s : Sys2Proof.Machine.State} {cause : Sys2Proof.Machine.DiscardCause} {code : ℕ}
    (hK : Keeps M s0 s) :
    Keeps M s0 (State.urgent s cause code) := by
  unfold State.urgent
  split
  · with_reducible assumption
  · extract_lets v0 v1 v2
    have h3 : Keeps M s0 v0 := by
      unfold v0
      refine State.bump_keeps ?_
      with_reducible assumption
    clear_value v0
    have h4 : Keeps M s0 v1 := by
      unfold v1
      refine State.count_keeps ?_
      with_reducible assumption
    clear_value v1
    have h5 : Keeps M s0 v2 := by
      unfold v2
      refine State.later_keeps ?_
      with_reducible assumption
    clear_value v2
    refine State.stopWork_keeps ?_
    with_reducible assumption

theorem State.deviceFails_keeps {M : Part → Prop} [Fact (M .free)] [Fact (M .regs)] [Fact (M .host)] [Fact (M .ump)]
    [Fact (M .lkr)] [Fact (M .mem)] [Fact (M .err)] [Fact (M .scb)] [Fact (M .mgl)] [Fact (M .rdc)] [Fact (M .wst)]
    [Fact (M .eng)] [Fact (M .cells)] {s0 : State} {s : Sys2Proof.Machine.State} {f : Sys2Proof.Machine.FaultInfo}
    (hK : Keeps M s0 s) :
    Keeps M s0 (State.deviceFails s f) := by
  unfold State.deviceFails
  extract_lets v0 v1 v2 v3 v4 v5 v6 v7 v8
  have h9 : Keeps M s0 v0 := by
    unfold v0
    refine State.urgent_keeps ?_
    with_reducible assumption
  clear_value v0
  have h10 : Keeps M s0 v2 := by
    unfold v2
    refine Keeps.mk' ?_ le_rfl rfl (fun x => x) (fun x => x) le_rfl
    with_reducible assumption
  clear_value v2
  have h11 : Keeps M s0 v7 := by
    unfold v7
    refine Keeps.mk' ?_ le_rfl rfl (fun x => x) (fun x => x) le_rfl
    with_reducible assumption
  clear_value v7
  have h12 : Keeps M s0 v8 := by
    unfold v8
    refine Keeps.foldl ?_ ?_
    · with_reducible assumption
    · intro x13
      intro x14
      intro x15
      refine State.complete_keeps ?_
      with_reducible assumption
  clear_value v8
  refine Keeps.ite ?_ ?_
  · intro x16
    refine State.fault_keeps ?_
    with_reducible assumption
  · intro x17
    refine State.bump_keeps ?_
    with_reducible assumption

theorem State.failDevice_keeps {M : Part → Prop} [Fact (M .free)] [Fact (M .regs)] [Fact (M .host)] [Fact (M .ump)]
    [Fact (M .lkr)] [Fact (M .mem)] [Fact (M .err)] [Fact (M .scb)] [Fact (M .mgl)] [Fact (M .rdc)] [Fact (M .wst)]
    [Fact (M .eng)] [Fact (M .cells)] {s0 : State} {s : Sys2Proof.Machine.State} {kind : ℕ} {unit : ℕ} {cause : ℕ}
    (hK : Keeps M s0 s) :
    Keeps M s0 (State.failDevice s kind unit cause) := by
  unfold State.failDevice
  extract_lets v0
  refine State.deviceFails_keeps ?_
  with_reducible assumption

theorem State.unitFails_keeps {M : Part → Prop} [Fact (M .free)] [Fact (M .regs)] [Fact (M .host)] [Fact (M .ump)]
    [Fact (M .lkr)] [Fact (M .mem)] [Fact (M .err)] [Fact (M .scb)] [Fact (M .mgl)] [Fact (M .rdc)] [Fact (M .wst)]
    [Fact (M .eng)] [Fact (M .cells)] {s0 : State} {s : Sys2Proof.Machine.State} {kind : ℕ} {unit : ℕ} {cause : ℕ}
    (hK : Keeps M s0 s) :
    Keeps M s0 (State.unitFails s kind unit cause) := by
  unfold State.unitFails
  refine Keeps.ite ?_ ?_
  · intro x0
    with_reducible assumption
  · intro x1
    split
    · refine State.failDevice_keeps ?_
      with_reducible assumption
    · refine State.failDevice_keeps ?_
      with_reducible assumption
    · refine State.failDevice_keeps ?_
      with_reducible assumption
    · refine State.detect_keeps ?_
      with_reducible assumption
    · refine State.detect_keeps ?_
      with_reducible assumption
    · refine State.detect_keeps ?_
      with_reducible assumption
    · refine State.detect_keeps ?_
      with_reducible assumption
    · refine State.detect_keeps ?_
      with_reducible assumption
    · refine State.detect_keeps ?_
      with_reducible assumption
    · refine State.detect_keeps ?_
      with_reducible assumption
    · refine State.detect_keeps ?_
      with_reducible assumption
    · extract_lets v2
      refine State.detect_keeps ?_
      with_reducible assumption
    · refine State.detect_keeps ?_
      with_reducible assumption

theorem State.lineFails_keeps [Fact (M .free)] [Fact (M .regs)] [Fact (M .host)] [Fact (M .ump)] [Fact (M .lkr)]
    [Fact (M .mem)] [Fact (M .err)] [Fact (M .scb)] [Fact (M .mgl)] [Fact (M .rdc)] [Fact (M .wst)] [Fact (M .eng)]
    [Fact (M .cells)] {s0 s : State} {line : Nat} (hK : Keeps M s0 s) : Keeps M s0 (s.lineFails line) := by
  unfold State.lineFails
  dsimp only
  refine Keeps.ite (fun _ => State.fault_keeps ((State.bump_keeps hK).upd rfl rfl rfl rfl rfl rfl)) (fun _ => ?_)
  have h1 : ∀ m : MemState, m.cells = (s.bump R.memUe).mem.cells → Keeps M s0 { s.bump R.memUe with mem := m } :=
    fun m e => (State.bump_keeps hK).upd rfl rfl rfl e rfl rfl
  refine Keeps.ite (fun _ => State.unitFails_keeps (h1 _ rfl)) (fun _ => ?_)
  refine Keeps.ite (fun _ => ?_) (fun _ => State.fault_keeps ?_) <;>
  exact State.loseOwners_keeps (Keeps.ite (fun _ => State.stopWork_keeps (h1 _ rfl)) (fun _ => h1 _ rfl))

theorem State.stormCount_keeps {M : Part → Prop} [Fact (M .free)] [Fact (M .regs)] [Fact (M .host)] [Fact (M .ump)]
    [Fact (M .lkr)] [Fact (M .mem)] [Fact (M .err)] [Fact (M .scb)] [Fact (M .mgl)] [Fact (M .rdc)] [Fact (M .wst)]
    [Fact (M .eng)] [Fact (M .cells)] {s0 : State} {s : Sys2Proof.Machine.State} {kind : ℕ} {unit : ℕ} (hK : Keeps M s0 s) :
    Keeps M s0 (State.stormCount s kind unit) := by
  unfold State.stormCount
  extract_lets v0 v1 v2 v3 v4 v5 v6
  have h7 : Keeps M s0 v5 := by
    unfold v5
    refine Keeps.mk' ?_ le_rfl rfl (fun x => x) (fun x => x) le_rfl
    with_reducible assumption
  clear_value v5
  refine Keeps.ite ?_ ?_
  · intro x8
    refine State.unitFails_keeps ?_
    with_reducible assumption
  · intro x9
    with_reducible assumption

theorem countCorrected_keeps {M : Part → Prop} [Fact (M .regs)] [Fact (M .scb)] {s0 : State} {s : Sys2Proof.Machine.State}
    {a : ℕ} {unit : ℕ} (hK : Keeps M s0 s) :
    Keeps M s0 (countCorrected s a unit) := by
  unfold countCorrected
  extract_lets v0
  have h1 : Keeps M s0 v0 := by
    unfold v0
    refine State.bump_keeps ?_
    with_reducible assumption
  clear_value v0
  refine Keeps.ite ?_ ?_
  · intro x2
    refine State.count_keeps ?_
    with_reducible assumption
  · intro x3
    refine Keeps.ite ?_ ?_
    · intro x4
      refine State.count_keeps ?_
      with_reducible assumption
    · intro x5
      refine State.count_keeps ?_
      with_reducible assumption

theorem countCe_keeps {M : Part → Prop} [Fact (M .free)] [Fact (M .regs)] [Fact (M .host)] [Fact (M .ump)] [Fact (M .lkr)]
    [Fact (M .mem)] [Fact (M .err)] [Fact (M .scb)] [Fact (M .mgl)] [Fact (M .rdc)] [Fact (M .wst)] [Fact (M .eng)]
    [Fact (M .cells)] {s0 : State} {s : Sys2Proof.Machine.State} {a : ℕ} {unit : ℕ} (hK : Keeps M s0 s) :
    Keeps M s0 (countCe s a unit) := by
  unfold countCe
  extract_lets v0
  have h1 : Keeps M s0 v0 := by
    unfold v0
    refine countCorrected_keeps ?_
    with_reducible assumption
  clear_value v0
  refine Keeps.ite ?_ ?_
  · intro x2
    refine State.stormCount_keeps ?_
    with_reducible assumption
  · intro x3
    refine Keeps.ite ?_ ?_
    · intro x4
      refine State.stormCount_keeps ?_
      with_reducible assumption
    · intro x5
      with_reducible assumption

theorem State.lineGood_keeps {M : Part → Prop} [Fact (M .mem)] {s0 : State} {s : Sys2Proof.Machine.State} {line : ℕ}
    (hK : Keeps M s0 s) :
    Keeps M s0 (State.lineGood s line) := by
  unfold State.lineGood
  refine Keeps.mk' ?_ le_rfl rfl (fun x => x) (fun x => x) le_rfl
  with_reducible assumption

theorem askCommit_keeps {M : Part → Prop} [Fact (M .lkr)] {s0 : State} {s : Sys2Proof.Machine.State}
    {p : Sys2Proof.Machine.PStep} (hK : Keeps M s0 s) :
    Keeps M s0 (askCommit s p) := by
  unfold askCommit
  refine Keeps.ite ?_ ?_
  · intro x0
    refine Keeps.foldl ?_ ?_
    · with_reducible assumption
    · intro x1
      intro x2
      intro x3
      refine State.modRecord_keeps ?_
      with_reducible assumption
  · intro x4
    with_reducible assumption

theorem State.modPStep_keeps {M : Part → Prop} [Fact (M .ump)] {s0 : State} {s : Sys2Proof.Machine.State} {did : ℕ}
    {f : Sys2Proof.Machine.PStep → Sys2Proof.Machine.PStep} (hK : Keeps M s0 s) :
    Keeps M s0 (State.modPStep s did f) := by
  unfold State.modPStep
  refine Keeps.mk' ?_ le_rfl rfl (fun x => x) (fun x => x) le_rfl
  with_reducible assumption

theorem advanceStep_keeps {M : Part → Prop} [Fact (M .ump)] [Fact (M .lkr)] {s0 : State} {s : Sys2Proof.Machine.State}
    {did : ℕ} (hK : Keeps M s0 s) :
    Keeps M s0 (advanceStep s did) := by
  unfold advanceStep
  extract_lets v0
  have h1 : Keeps M s0 v0 := by
    unfold v0
    refine State.modPStep_keeps ?_
    with_reducible assumption
  clear_value v0
  split
  · refine Keeps.ite ?_ ?_
    · intro x2
      refine askCommit_keeps ?_
      with_reducible assumption
    · intro x3
      with_reducible assumption
  · with_reducible assumption

theorem zeroiseForDebug_keeps {M : Part → Prop} [Fact (M .mem)] [Fact (M .ref)] {s0 : State} {s : Sys2Proof.Machine.State}
    (hK : Keeps M s0 s) :
    Keeps M s0 (zeroiseForDebug s) := by
  unfold zeroiseForDebug
  refine Keeps.mk' ?_ le_rfl rfl (fun x => x) (fun x => x) le_rfl
  with_reducible assumption

theorem State.setDebug_keeps {M : Part → Prop} [Fact (M .regs)] [Fact (M .ref)] {s0 : State} {s : Sys2Proof.Machine.State}
    {level : ℕ} (hK : Keeps M s0 s) :
    Keeps M s0 (State.setDebug s level) := by
  unfold State.setDebug
  extract_lets v0 v1 v2
  have h3 : Keeps M s0 v0 := by
    unfold v0
    refine State.extendMrBytes_keeps ?_
    with_reducible assumption
  clear_value v0
  have h4 : Keeps M s0 v1 := by
    unfold v1
    refine State.setFld_keeps ?_
    with_reducible assumption
  clear_value v1
  refine Keeps.mk' ?_ le_rfl rfl (fun x => x) (fun x => x) le_rfl
  with_reducible assumption

theorem State.authFail_keeps {M : Part → Prop} [Fact (M .regs)] {s0 : State} {s : Sys2Proof.Machine.State} (hK : Keeps M s0 s) :
    Keeps M s0 (State.authFail s) := by
  unfold State.authFail
  refine State.bump_keeps ?_
  with_reducible assumption

theorem State.setTsync_keeps {M : Part → Prop} [Fact (M .host)] [Fact (M .mgl)] {s0 : State} {s : Sys2Proof.Machine.State}
    {t : Sys2Proof.Machine.TsyncState} (hK : Keeps M s0 s) :
    Keeps M s0 (State.setTsync s t) := by
  unfold State.setTsync
  extract_lets v0 v1 v2
  have h3 : Keeps M s0 v2 := by
    unfold v2
    refine Keeps.mk' ?_ le_rfl rfl (fun x => x) (fun x => x) le_rfl
    with_reducible assumption
  clear_value v2
  refine Keeps.ite ?_ ?_
  · intro x4
    with_reducible assumption
  · intro x5
    refine State.opEvent_keeps ?_
    with_reducible assumption

theorem State.linkDown_keeps {M : Part → Prop} [Fact (M .regs)] [Fact (M .host)] [Fact (M .mgl)] {s0 : State}
    {s : Sys2Proof.Machine.State} {p : ℕ} {reason : ℕ} {phase : Sys2Proof.Machine.LinkPhase} (hK : Keeps M s0 s) :
    Keeps M s0 (State.linkDown s p reason phase) := by
  unfold State.linkDown
  extract_lets v0 v1 v2 v3 v4 v5
  have h6 : Keeps M s0 v2 := by
    unfold v2
    refine Keeps.foldl ?_ ?_
    · with_reducible assumption
    · intro x7
      intro x8
      intro x9
      refine Keeps.ite ?_ ?_
      · intro x10
        with_reducible assumption
      · intro x11
        refine State.freeBuffer_keeps ?_
        with_reducible assumption
  clear_value v2
  have h12 : Keeps M s0 v3 := by
    unfold v3
    refine Keeps.ite ?_ ?_
    · intro x13
      refine State.opEvent_keeps ?_
      with_reducible assumption
    · intro x14
      with_reducible assumption
  clear_value v3
  have h15 : Keeps M s0 v5 := by
    unfold v5
    refine State.setLink_keeps ?_
    with_reducible assumption
  clear_value v5
  refine Keeps.ite ?_ ?_
  · intro x16
    refine State.setFld_keeps ?_
    with_reducible assumption
  · intro x17
    with_reducible assumption

theorem State.applyLinks_keeps {M : Part → Prop} [Fact (M .regs)] [Fact (M .host)] [Fact (M .mgl)] {s0 : State}
    {s : Sys2Proof.Machine.State} (hK : Keeps M s0 s) :
    Keeps M s0 (State.applyLinks s) := by
  unfold State.applyLinks
  refine Keeps.foldl ?_ ?_
  · with_reducible assumption
  · intro x0
    intro x1
    intro x2
    split
    · refine State.setLink_keeps ?_
      with_reducible assumption
    · refine State.setLink_keeps ?_
      with_reducible assumption
    · refine State.linkDown_keeps ?_
      with_reducible assumption
    · with_reducible assumption

theorem State.waitSlot_keeps {M : Part → Prop} [Fact (M .ump)] {s0 : State} {s : Sys2Proof.Machine.State} {t : ℕ}
    (hK : Keeps M s0 s) :
    Keeps M s0 (State.waitSlot s t) := by
  unfold State.waitSlot
  refine Keeps.mk' ?_ le_rfl rfl (fun x => x) (fun x => x) le_rfl
  with_reducible assumption

theorem State.powerResume_keeps {M : Part → Prop} [Fact (M .free)] [Fact (M .regs)] [Fact (M .host)] [Fact (M .ump)]
    [Fact (M .pwr)] [Fact (M .mgl)] {s0 : State} {s : Sys2Proof.Machine.State} (hK : Keeps M s0 s) :
    Keeps M s0 (State.powerResume s) := by
  unfold State.powerResume
  extract_lets v0 v1 v2 v3 v4 v5 v6 v7 v8
  have h9 : Keeps M s0 v3 := by
    unfold v3
    refine State.freed_keeps ?_
    with_reducible assumption
  clear_value v3
  have h10 : Keeps M s0 v6 := by
    unfold v6
    refine Keeps.mk' ?_ le_rfl rfl (fun x => x) (fun x => x) le_rfl
    with_reducible assumption
  clear_value v6
  have h11 : Keeps M s0 v7 := by
    unfold v7
    refine State.waitSlot_keeps ?_
    with_reducible assumption
  clear_value v7
  refine Keeps.ite ?_ ?_
  · intro x12
    refine State.applyLinks_keeps ?_
    refine State.setTsync_keeps ?_
    with_reducible assumption
  · intro x13
    with_reducible assumption

theorem State.chargeStatic_keeps {M : Part → Prop} [Fact (M .ump)] {s0 : State} {s : Sys2Proof.Machine.State}
    (hK : Keeps M s0 s) :
    Keeps M s0 (State.chargeStatic s) := by
  unfold State.chargeStatic
  extract_lets v0 v1 v2 v3
  have h4 : Keeps M s0 v2 := by
    unfold v2
    refine Keeps.ite ?_ ?_
    · intro x5
      with_reducible assumption
    · intro x6
      refine State.setAcct_keeps ?_
      with_reducible assumption
  clear_value v2
  refine Keeps.mk' ?_ le_rfl rfl (fun x => x) (fun x => x) le_rfl
  with_reducible assumption

theorem State.enterBench_keeps {M : Part → Prop} [Fact (M .free)] [Fact (M .regs)] [Fact (M .host)] [Fact (M .ump)]
    [Fact (M .lkr)] [Fact (M .mem)] [Fact (M .pwr)] [Fact (M .scb)] [Fact (M .mgl)] [Fact (M .rdc)] [Fact (M .wst)]
    [Fact (M .eng)] [Fact (M .cells)] {s0 : State} {s : Sys2Proof.Machine.State} (hK : Keeps M s0 s) :
    Keeps M s0 (State.enterBench s) := by
  unfold State.enterBench
  extract_lets v0 v1 v2 v3 v4 v5 v6 v7 v8 v9 v10 v11
  have h12 : Keeps M s0 v0 := by
    unfold v0
    refine State.stopWork_keeps ?_
    with_reducible assumption
  clear_value v0
  have h13 : Keeps M s0 v1 := by
    unfold v1
    refine Keeps.foldl ?_ ?_
    · with_reducible assumption
    · intro x14
      intro x15
      intro x16
      refine State.serveDiscarded_keeps ?_
      with_reducible assumption
  clear_value v1
  have h17 : Keeps M s0 v2 := by
    unfold v2
    refine Keeps.foldl ?_ ?_
    · with_reducible assumption
    · intro x18
      intro x19
      intro x20
      refine State.discardEnded_keeps ?_
      with_reducible assumption
  clear_value v2
  have h21 : Keeps M s0 v3 := by
    unfold v3
    refine Keeps.foldl ?_ ?_
    · with_reducible assumption
    · intro x22
      intro x23
      intro x24
      refine State.restartStep_keeps ?_
      with_reducible assumption
  clear_value v3
  have h25 : Keeps M s0 v5 := by
    unfold v5
    refine Keeps.mk' ?_ le_rfl rfl (fun x => x) (fun x => x) le_rfl
    with_reducible assumption
  clear_value v5
  have h26 : Keeps M s0 v6 := by
    unfold v6
    refine Keeps.foldl ?_ ?_
    · with_reducible assumption
    · intro x27
      intro x28
      intro x29
      split
      · refine State.linkDown_keeps ?_
        with_reducible assumption
      · refine State.setLink_keeps ?_
        with_reducible assumption
      · with_reducible assumption
  clear_value v6
  have h30 : Keeps M s0 v7 := by
    unfold v7
    refine State.tallyCycles_keeps ?_
    refine State.chargeStatic_keeps ?_
    with_reducible assumption
  clear_value v7
  refine Keeps.mk' ?_ (by first | exact le_rfl | (split <;> exact le_rfl) | (dsimp only; split; exact le_max_left _ _; exact le_rfl)) (by first | rfl | (split <;> rfl)) (by first | exact fun x => x | exact fun x => Memory.wf_filter _ x | exact fun x => Memory.wf_writeBytes _ _ x | exact fun x => Memory.wf_writeCells _ x | exact fun x => RegsWf.filter _ x) (by first | exact fun x => x | exact fun x => Memory.wf_filter _ x | exact fun x => Memory.wf_writeBytes _ _ x | exact fun x => Memory.wf_writeCells _ x | exact fun x => RegsWf.filter _ x) (by first | exact le_rfl | (split <;> exact le_rfl) | (dsimp only; split; exact le_max_left _ _; exact le_rfl))
  with_reducible assumption

theorem State.enterHalfTime_keeps {M : Part → Prop} [Fact (M .ump)] [Fact (M .pwr)] [Fact (M .scb)] {s0 : State}
    {s : Sys2Proof.Machine.State} (hK : Keeps M s0 s) :
    Keeps M s0 (State.enterHalfTime s) := by
  unfold State.enterHalfTime
  extract_lets v0 v1 v2
  have h3 : Keeps M s0 v0 := by
    unfold v0
    refine State.tallyCycles_keeps ?_
    refine State.chargeStatic_keeps ?_
    with_reducible assumption
  clear_value v0
  refine Keeps.mk' ?_ le_rfl rfl (fun x => x) (fun x => x) le_rfl
  with_reducible assumption

theorem State.takeRequest_keeps {M : Part → Prop} [Fact (M .free)] [Fact (M .regs)] [Fact (M .host)] [Fact (M .ump)]
    [Fact (M .lkr)] [Fact (M .mem)] [Fact (M .pwr)] [Fact (M .scb)] [Fact (M .mgl)] [Fact (M .rdc)] [Fact (M .wst)]
    [Fact (M .eng)] [Fact (M .cells)] {s0 : State} {s : Sys2Proof.Machine.State} {t : Sys2Proof.Machine.PowerState}
    (hK : Keeps M s0 s) :
    Keeps M s0 (State.takeRequest s t) := by
  unfold State.takeRequest
  split
  · refine Keeps.ite ?_ ?_
    · intro x0
      refine State.enterHalfTime_keeps ?_
      with_reducible assumption
    · intro x1
      refine Keeps.mk' ?_ le_rfl rfl (fun x => x) (fun x => x) le_rfl
      with_reducible assumption
  · refine State.enterBench_keeps ?_
    with_reducible assumption
  · refine State.enterBench_keeps ?_
    with_reducible assumption
  · refine State.powerResume_keeps ?_
    with_reducible assumption
  · refine State.powerResume_keeps ?_
    with_reducible assumption
  · with_reducible assumption

theorem State.takeQueued_keeps {M : Part → Prop} [Fact (M .free)] [Fact (M .regs)] [Fact (M .host)] [Fact (M .ump)]
    [Fact (M .lkr)] [Fact (M .mem)] [Fact (M .pwr)] [Fact (M .scb)] [Fact (M .mgl)] [Fact (M .rdc)] [Fact (M .wst)]
    [Fact (M .eng)] [Fact (M .cells)] {s0 : State} {s : Sys2Proof.Machine.State} (hK : Keeps M s0 s) :
    Keeps M s0 (State.takeQueued s) := by
  unfold State.takeQueued
  split
  · refine State.takeRequest_keeps ?_
    refine Keeps.mk' ?_ le_rfl rfl (fun x => x) (fun x => x) le_rfl
    with_reducible assumption
  · with_reducible assumption

theorem State.smbus_keeps {M : Part → Prop} [Fact (M .host)] {s0 : State} {s : Sys2Proof.Machine.State} {command : ℕ}
    (hK : Keeps M s0 s) :
    KeepsO M s0 (State.smbus s command) := by
  unfold State.smbus
  split
  · refine KeepsO.ite ?_ ?_
    · intro x0
      refine KeepsO.next ?_
      refine State.emit_keeps ?_
      with_reducible assumption
    · intro x1
      refine KeepsO.next ?_
      with_reducible assumption
  · refine KeepsO.next ?_
    with_reducible assumption

theorem abandonFlash_keeps {M : Part → Prop} [Fact (M .free)] [Fact (M .pwr)] {s0 : State} {s : Sys2Proof.Machine.State}
    (hK : Keeps M s0 s) :
    Keeps M s0 (abandonFlash s) := by
  unfold abandonFlash
  split
  · with_reducible assumption
  · split
    · refine Keeps.mk' ?_ le_rfl rfl (fun x => x) (fun x => x) le_rfl
      with_reducible assumption

theorem State.coldState_keeps [Fact (M .ts)] [Fact (M .free)] [Fact (M .regs)] [Fact (M .host)] [Fact (M .ump)]
    [Fact (M .lkr)] [Fact (M .mem)] [Fact (M .ref)] [Fact (M .err)] [Fact (M .pwr)] [Fact (M .scb)] [Fact (M .mgl)]
    [Fact (M .rdc)] [Fact (M .wst)] [Fact (M .eng)] [Fact (M .cells)] {s0 s : State} {cause : Nat} {phase : BootPhase}
    (hK : Keeps M s0 s) :
    Keeps M s0 (s.coldState cause phase) := by
  unfold State.coldState
  refine State.setFld_keeps (State.setReg_keeps ((abandonFlash_keeps hK).trans ?_))
  exact (.mk rfl List.prefix_rfl le_rfl le_rfl (fun x => Memory.wf_filter _ x) (fun _ => .regsSet _ _ (.regsSet _ _ .nil)))

theorem State.readSensor_keeps {M : Part → Prop} [Fact (M .pwr)] {s0 : State} {s : Sys2Proof.Machine.State} {n : ℕ} {t : ℤ}
    (hK : Keeps M s0 s) :
    Keeps M s0 (State.readSensor s n t) := by
  unfold State.readSensor
  refine Keeps.mk' ?_ le_rfl rfl (fun x => x) (fun x => x) le_rfl
  with_reducible assumption

theorem loadBroken_keeps {M : Part → Prop} [Fact (M .free)] [Fact (M .regs)] [Fact (M .host)] [Fact (M .lkr)] [Fact (M .mem)]
    [Fact (M .scb)] [Fact (M .cells)] {s0 : State} {s : Sys2Proof.Machine.State} {l : Sys2Proof.Machine.AdapterLoad}
    {reason : ℕ} (hK : Keeps M s0 s) :
    Keeps M s0 (loadBroken s l reason) := by
  unfold loadBroken
  extract_lets v0 v1
  have h2 : Keeps M s0 v0 := by
    unfold v0
    refine State.abandonLoad_keeps ?_
    with_reducible assumption
  clear_value v0
  have h3 : Keeps M s0 v1 := by
    unfold v1
    refine Keeps.ite ?_ ?_
    · intro x4
      refine State.bump_keeps ?_
      with_reducible assumption
    · intro x5
      with_reducible assumption
  clear_value v1
  refine State.finish_keeps ?_
  refine State.fetchFail_keeps ?_
  with_reducible assumption

theorem State.stopGroupWork_keeps {M : Part → Prop} [Fact (M .free)] [Fact (M .regs)] [Fact (M .host)] [Fact (M .ump)]
    [Fact (M .lkr)] [Fact (M .mem)] [Fact (M .scb)] [Fact (M .mgl)] [Fact (M .rdc)] [Fact (M .wst)] [Fact (M .eng)]
    [Fact (M .cells)] {s0 : State} {s : Sys2Proof.Machine.State} (hK : Keeps M s0 s) :
    Keeps M s0 (State.stopGroupWork s) := by
  unfold State.stopGroupWork
  split
  · refine Keeps.ite ?_ ?_
    · intro x0
      refine State.stopWork_keeps ?_
      with_reducible assumption
    · intro x1
      with_reducible assumption
  · with_reducible assumption

theorem State.overflowed_keeps {M : Part → Prop} [Fact (M .free)] [Fact (M .regs)] [Fact (M .host)] [Fact (M .ump)]
    [Fact (M .lkr)] [Fact (M .mem)] [Fact (M .scb)] [Fact (M .mgl)] [Fact (M .rdc)] [Fact (M .wst)] [Fact (M .eng)]
    [Fact (M .cells)] {s0 : State} {s : Sys2Proof.Machine.State} {slot : ℕ} {d : ℕ} (hK : Keeps M s0 s) :
    Keeps M s0 (State.overflowed s slot d) := by
  unfold State.overflowed
  extract_lets v0
  have h1 : Keeps M s0 v0 := by
    unfold v0
    refine State.modStep_keeps ?_
    refine State.bump_keeps ?_
    with_reducible assumption
  clear_value v0
  refine State.stopGroupWork_keeps ?_
  with_reducible assumption

theorem State.noteAmax_keeps {M : Part → Prop} [Fact (M .rdc)] {s0 : State} {s : Sys2Proof.Machine.State} {slot : ℕ}
    {x : Sys2Proof.F32} (hK : Keeps M s0 s) :
    Keeps M s0 (State.noteAmax s slot x) := by
  unfold State.noteAmax
  refine State.modStep_keeps ?_
  with_reducible assumption

theorem sendDown_keeps {M : Part → Prop} [Fact (M .regs)] [Fact (M .scb)] [Fact (M .mgl)] [Fact (M .rdc)] {s0 : State}
    {w : Sys2Proof.Machine.Work} {ch : ℕ} {n : ℕ} {c : Sys2Proof.Machine.ChanCmd} {s : Sys2Proof.Machine.State} {i : ℕ}
    (hK : Keeps M s0 s) :
    Keeps M s0 (sendDown w ch n c s i) := by
  unfold sendDown
  extract_lets v0 v1 v2
  refine Keeps.foldl ?_ ?_
  · with_reducible assumption
  · intro x3
    intro x4
    intro x5
    refine State.sendChan_keeps ?_
    with_reducible assumption

theorem State.addUse_keeps {M : Part → Prop} [Fact (M .ump)] {s0 : State} {s : Sys2Proof.Machine.State}
    {w : Sys2Proof.Machine.Work} {i : ℕ} {n : ℕ} {st : Sys2Proof.Machine.ConvStats} (hK : Keeps M s0 s) :
    Keeps M s0 (State.addUse s w i n st) := by
  unfold State.addUse
  extract_lets v0
  refine Keeps.ite ?_ ?_
  · intro x1
    with_reducible assumption
  · intro x2
    refine State.modWork_keeps ?_
    with_reducible assumption

theorem writeResultRow_keeps {M : Part → Prop} [Fact (M .free)] [Fact (M .regs)] [Fact (M .ump)] [Fact (M .mem)]
    [Fact (M .scb)] [Fact (M .cells)] {s0 : State} {s : Sys2Proof.Machine.State} {w : Sys2Proof.Machine.Work} {ch : ℕ}
    {c : Sys2Proof.Machine.ChanCmd} {vs : List Sys2Proof.F32} (hK : Keeps M s0 s) :
    Keeps M s0 (writeResultRow s w ch c vs) := by
  unfold writeResultRow
  extract_lets v0 v1
  refine Keeps.ite ?_ ?_
  · intro x2
    refine State.chanPut_keeps ?_
    with_reducible assumption
  · intro x3
    refine State.addUse_keeps ?_
    refine State.chanPut_keeps ?_
    with_reducible assumption

theorem rootDone_keeps {M : Part → Prop} [Fact (M .free)] [Fact (M .regs)] [Fact (M .ump)] [Fact (M .mem)] [Fact (M .scb)]
    [Fact (M .mgl)] [Fact (M .rdc)] [Fact (M .cells)] {s0 : State} {w : Sys2Proof.Machine.Work} {ch : ℕ} {n : ℕ}
    {c : Sys2Proof.Machine.ChanCmd} {s : Sys2Proof.Machine.State} (hK : Keeps M s0 s) :
    Keeps M s0 (rootDone w ch n c s) := by
  unfold rootDone
  split
  · with_reducible assumption
  · refine Keeps.ite ?_ ?_
    · intro x0
      with_reducible assumption
    · intro x1
      extract_lets v2 v3 v4 v5 v6
      have h7 : Keeps M s0 v4 := by
        unfold v4
        refine writeResultRow_keeps ?_
        with_reducible assumption
      clear_value v4
      have h8 : Keeps M s0 v6 := by
        unfold v6
        refine State.modRun_keeps ?_
        with_reducible assumption
      clear_value v6
      refine Keeps.ite ?_ ?_
      · intro x9
        refine Keeps.foldl ?_ ?_
        · with_reducible assumption
        · intro x10
          intro x11
          intro x12
          refine sendDown_keeps ?_
          with_reducible assumption
      · intro x13
        with_reducible assumption

theorem State.addNans_keeps {M : Part → Prop} [Fact (M .ump)] {s0 : State} {s : Sys2Proof.Machine.State} {n : ℕ}
    (hK : Keeps M s0 s) :
    Keeps M s0 (State.addNans s n) := by
  unfold State.addNans
  refine State.modWork_keeps ?_
  with_reducible assumption

theorem tryChunk_keeps {M : Part → Prop} [Fact (M .free)] [Fact (M .regs)] [Fact (M .host)] [Fact (M .ump)] [Fact (M .lkr)]
    [Fact (M .mem)] [Fact (M .scb)] [Fact (M .mgl)] [Fact (M .rdc)] [Fact (M .wst)] [Fact (M .eng)] [Fact (M .cells)]
    {s0 : State} {ch : ℕ} {n : ℕ} {s : Sys2Proof.Machine.State} {i : ℕ} (hK : Keeps M s0 s) :
    Keeps M s0 (tryChunk ch n s i) := by
  unfold tryChunk
  split
  · extract_lets v0 v1 v2 v3 v4 v5 v6 v7 v8 v9 v10 v11 v12 v13
    have h14 : Keeps M s0 v7 := by
      unfold v7
      refine State.bump_keeps ?_
      refine State.addNans_keeps ?_
      with_reducible assumption
    clear_value v7
    have h15 : Keeps M s0 v9 := by
      unfold v9
      refine State.addCharge_keeps ?_
      with_reducible assumption
    clear_value v9
    have h16 : Keeps M s0 v11 := by
      unfold v11
      refine State.chanReads_keeps ?_
      with_reducible assumption
    clear_value v11
    have h17 : Keeps M s0 v12 := by
      unfold v12
      refine State.modRun_keeps ?_
      with_reducible assumption
    clear_value v12
    refine Keeps.ite ?_ ?_
    · intro x18
      with_reducible assumption
    · intro x19
      split
      · refine rootDone_keeps ?_
        with_reducible assumption
      · extract_lets v20 v21 v22
        have h23 : Keeps M s0 v21 := by
          unfold v21
          refine Keeps.ite ?_ ?_
          · intro x24
            refine State.noteAmax_keeps ?_
            with_reducible assumption
          · intro x25
            with_reducible assumption
        clear_value v21
        refine Keeps.ite ?_ ?_
        · intro x26
          refine State.overflowed_keeps ?_
          with_reducible assumption
        · intro x27
          refine State.sendChan_keeps ?_
          with_reducible assumption
  · with_reducible assumption

theorem State.checkRun_keeps {M : Part → Prop} [Fact (M .rdc)] {s0 : State} {s : Sys2Proof.Machine.State}
    {w : Sys2Proof.Machine.Work} {ch : ℕ} {n : ℕ} (hK : Keeps M s0 s) :
    Keeps M s0 (State.checkRun s w ch n) := by
  unfold State.checkRun
  split
  · refine Keeps.ite ?_ ?_
    · intro x0
      refine State.modRun_keeps ?_
      with_reducible assumption
    · intro x1
      with_reducible assumption
  · with_reducible assumption

theorem tryChunks_keeps {M : Part → Prop} [Fact (M .free)] [Fact (M .regs)] [Fact (M .host)] [Fact (M .ump)] [Fact (M .lkr)]
    [Fact (M .mem)] [Fact (M .scb)] [Fact (M .mgl)] [Fact (M .rdc)] [Fact (M .wst)] [Fact (M .eng)] [Fact (M .cells)]
    {s0 : State} {w : Sys2Proof.Machine.Work} {ch : ℕ} {n : ℕ} {c : Sys2Proof.Machine.ChanCmd} {s : Sys2Proof.Machine.State}
    (hK : Keeps M s0 s) :
    Keeps M s0 (tryChunks w ch n c s) := by
  unfold tryChunks
  refine State.checkRun_keeps ?_
  refine Keeps.foldl ?_ ?_
  · with_reducible assumption
  · intro x0
    intro x1
    intro x2
    refine tryChunk_keeps ?_
    with_reducible assumption

theorem State.chargeLink_keeps {M : Part → Prop} [Fact (M .ump)] {s0 : State} {s : Sys2Proof.Machine.State}
    {for_ : Option ℕ × ℕ × Bool} {more : Sys2Proof.Machine.Charges} (hK : Keeps M s0 s) :
    Keeps M s0 (State.chargeLink s for_ more) := by
  unfold State.chargeLink
  extract_lets v0 v1 v2
  refine Keeps.ite ?_ ?_
  · intro x3
    refine Keeps.mk' ?_ le_rfl rfl (fun x => x) (fun x => x) le_rfl
    with_reducible assumption
  · intro x4
    refine Keeps.ite ?_ ?_
    · intro x5
      refine Keeps.mk' ?_ le_rfl rfl (fun x => x) (fun x => x) le_rfl
      with_reducible assumption
    · intro x6
      refine State.charge_keeps ?_
      with_reducible assumption

theorem State.closeFrames_keeps {M : Part → Prop} [Fact (M .host)] [Fact (M .mgl)] {s0 : State} {s : Sys2Proof.Machine.State}
    {p : ℕ} (hK : Keeps M s0 s) :
    Keeps M s0 (State.closeFrames s p) := by
  unfold State.closeFrames
  extract_lets v0 v1 v2 v3 v4
  have h5 : Keeps M s0 v4 := by
    unfold v4
    refine State.setLink_keeps ?_
    with_reducible assumption
  clear_value v4
  refine Keeps.ite ?_ ?_
  · intro x6
    with_reducible assumption
  · intro x7
    split
    · refine State.emit_keeps ?_
      with_reducible assumption

theorem State.linkFall_keeps {M : Part → Prop} [Fact (M .free)] [Fact (M .regs)] [Fact (M .host)] [Fact (M .err)]
    [Fact (M .scb)] [Fact (M .mgl)] {s0 : State} {s : Sys2Proof.Machine.State} {p : ℕ} {reason : ℕ} (hK : Keeps M s0 s) :
    Keeps M s0 (State.linkFall s p reason) := by
  unfold State.linkFall
  extract_lets v0 v1 v2 v3 v4
  have h5 : Keeps M s0 v2 := by
    unfold v2
    refine Keeps.mk' ?_ le_rfl rfl (fun x => x) (fun x => x) le_rfl
    with_reducible assumption
  clear_value v2
  have h6 : Keeps M s0 v3 := by
    unfold v3
    refine State.linkDown_keeps ?_
    with_reducible assumption
  clear_value v3
  have h7 : Keeps M s0 v4 := by
    unfold v4
    refine State.setReg_keeps ?_
    with_reducible assumption
  clear_value v4
  refine Keeps.ite ?_ ?_
  · intro x8
    refine State.linkDown_keeps ?_
    with_reducible assumption
  · intro x9
    refine State.fault_keeps ?_
    with_reducible assumption

theorem sendVoteTo_keeps {M : Part → Prop} [Fact (M .regs)] [Fact (M .scb)] [Fact (M .mgl)] [Fact (M .rdc)] {s0 : State}
    {s : Sys2Proof.Machine.State} {g : Sys2Proof.Machine.GroupStep} {kind : ℕ} {level : ℕ} {leaf : ℕ}
    {v : Sys2Proof.Machine.Vote} (hK : Keeps M s0 s) :
    Keeps M s0 (sendVoteTo s g kind level leaf v) := by
  unfold sendVoteTo
  refine State.sendMarked_keeps ?_
  with_reducible assumption

theorem sendVerdict_keeps {M : Part → Prop} [Fact (M .regs)] [Fact (M .scb)] [Fact (M .mgl)] [Fact (M .rdc)] {s0 : State}
    {s : Sys2Proof.Machine.State} {g : Sys2Proof.Machine.GroupStep} {v : Sys2Proof.Machine.Vote} (hK : Keeps M s0 s) :
    Keeps M s0 (sendVerdict s g v) := by
  unfold sendVerdict
  refine Keeps.foldl ?_ ?_
  · with_reducible assumption
  · intro x0
    intro x1
    intro x2
    refine sendVoteTo_keeps ?_
    with_reducible assumption

theorem State.snapshot_keeps {M : Part → Prop} [Fact (M .rdc)] {s0 : State} {s : Sys2Proof.Machine.State} (hK : Keeps M s0 s) :
    Keeps M s0 (State.snapshot s) := by
  unfold State.snapshot
  refine Keeps.mk' ?_ le_rfl rfl (fun x => x) (fun x => x) le_rfl
  with_reducible assumption

theorem State.holdVerdict_keeps {M : Part → Prop} [Fact (M .rdc)] {s0 : State} {s : Sys2Proof.Machine.State}
    {v : Sys2Proof.Machine.Vote} (hK : Keeps M s0 s) :
    Keeps M s0 (State.holdVerdict s v) := by
  unfold State.holdVerdict
  split
  · refine Keeps.ite ?_ ?_
    · intro x0
      with_reducible assumption
    · intro x1
      refine State.snapshot_keeps ?_
      refine State.modStep_keeps ?_
      with_reducible assumption
  · with_reducible assumption

theorem State.chargeReceived_keeps {M : Part → Prop} [Fact (M .ump)] {s0 : State} {s : Sys2Proof.Machine.State}
    {k : Sys2Proof.Machine.Packet} (hK : Keeps M s0 s) :
    Keeps M s0 (State.chargeReceived s k) := by
  unfold State.chargeReceived
  refine State.chargeLink_keeps ?_
  with_reducible assumption

theorem takeVerdict_keeps {M : Part → Prop} [Fact (M .regs)] [Fact (M .ump)] [Fact (M .scb)] [Fact (M .mgl)] [Fact (M .rdc)]
    {s0 : State} {k : Sys2Proof.Machine.Packet} {s : Sys2Proof.Machine.State} (hK : Keeps M s0 s) :
    Keeps M s0 (takeVerdict k s) := by
  unfold takeVerdict
  refine Keeps.ite ?_ ?_
  · intro x0
    refine State.bump_keeps ?_
    with_reducible assumption
  · intro x1
    extract_lets v2
    have h3 : Keeps M s0 v2 := by
      unfold v2
      refine State.chargeReceived_keeps ?_
      refine State.mark_keeps ?_
      with_reducible assumption
    clear_value v2
    split
    · with_reducible assumption
    · refine Keeps.ite ?_ ?_
      · intro x4
        with_reducible assumption
      · intro x5
        extract_lets v6
        refine State.holdVerdict_keeps ?_
        refine sendVerdict_keeps ?_
        with_reducible assumption

theorem State.newPageKey_keeps {M : Part → Prop} [Fact (M .mem)] {s0 : State} {s : Sys2Proof.Machine.State} {slot : ℕ}
    (hK : Keeps M s0 s) :
    Keeps M s0 (State.newPageKey s slot) := by
  unfold State.newPageKey
  refine Keeps.mk' ?_ le_rfl rfl (fun x => x) (fun x => x) le_rfl
  with_reducible assumption

theorem forwardVote_keeps {M : Part → Prop} [Fact (M .regs)] [Fact (M .scb)] [Fact (M .mgl)] [Fact (M .rdc)] {s0 : State}
    {s : Sys2Proof.Machine.State} {g : Sys2Proof.Machine.GroupStep} (hK : Keeps M s0 s) :
    Keeps M s0 (forwardVote s g) := by
  unfold forwardVote
  extract_lets v0 v1 v2
  have h3 : Keeps M s0 v1 := by
    unfold v1
    refine State.modStep_keeps ?_
    with_reducible assumption
  clear_value v1
  split
  · refine sendVoteTo_keeps ?_
    with_reducible assumption
  · refine State.holdVerdict_keeps ?_
    refine sendVerdict_keeps ?_
    with_reducible assumption

theorem State.tryForward_keeps {M : Part → Prop} [Fact (M .regs)] [Fact (M .scb)] [Fact (M .mgl)] [Fact (M .rdc)] {s0 : State}
    {s : Sys2Proof.Machine.State} (hK : Keeps M s0 s) :
    Keeps M s0 (State.tryForward s) := by
  unfold State.tryForward
  split
  · with_reducible assumption
  · refine Keeps.ite ?_ ?_
    · intro x0
      refine forwardVote_keeps ?_
      with_reducible assumption
    · intro x1
      with_reducible assumption

theorem resetPortRegs_keeps [Fact (M .regs)] {s0 s : State} {p : Port} (hK : Keeps M s0 s) : Keeps M s0 (resetPortRegs s p) := by
  refine hK.trans (.mk rfl List.prefix_rfl le_rfl le_rfl (fun x => x) (fun h => ?_))
  refine h.filterMap (fun x hx q e => ?_)
  split at e
  · cases e
    exact ⟨rfl, h.2 _ hx⟩
  · split at e
    · cases e
    · cases e
      exact ⟨rfl, by assumption⟩

theorem returnFlags_keeps {M : Part → Prop} [Fact (M .host)] {s0 : State} {s : Sys2Proof.Machine.State}
    {p : Sys2Proof.Machine.Port} {pick : ℕ → Bool} (hK : Keeps M s0 s) :
    Keeps M s0 (returnFlags s p pick) := by
  unfold returnFlags
  extract_lets v0 v1
  refine State.modPort_keeps ?_
  with_reducible assumption

theorem State.tearDown_keeps {M : Part → Prop} [Fact (M .free)] [Fact (M .regs)] [Fact (M .host)] [Fact (M .ump)]
    [Fact (M .lkr)] [Fact (M .mem)] [Fact (M .scb)] [Fact (M .mgl)] [Fact (M .rdc)] [Fact (M .wst)] [Fact (M .eng)]
    [Fact (M .cells)] {s0 : State} {s : Sys2Proof.Machine.State} {c : ℕ} (hK : Keeps M s0 s) :
    Keeps M s0 (State.tearDown s c) := by
  unfold State.tearDown
  extract_lets v0 v1 v2
  have h3 : Keeps M s0 v0 := by
    unfold v0
    refine Keeps.ite ?_ ?_
    · intro x4
      refine State.urgent_keeps ?_
      with_reducible assumption
    · intro x5
      with_reducible assumption
  clear_value v0
  have h6 : Keeps M s0 v1 := by
    unfold v1
    refine Keeps.foldl ?_ ?_
    · with_reducible assumption
    · intro x7
      intro x8
      intro x9
      refine State.drop_keeps ?_
      with_reducible assumption
  clear_value v1
  have h10 : Keeps M s0 v2 := by
    unfold v2
    refine Keeps.foldl ?_ ?_
    · with_reducible assumption
    · intro x11
      intro x12
      intro x13
      refine State.modRecord_keeps ?_
      with_reducible assumption
  clear_value v2
  refine State.modCtx_keeps ?_
  with_reducible assumption

theorem State.portReset_keeps {M : Part → Prop} [Fact (M .free)] [Fact (M .regs)] [Fact (M .host)] [Fact (M .ump)]
    [Fact (M .lkr)] [Fact (M .mem)] [Fact (M .ref)] [Fact (M .scb)] [Fact (M .mgl)] [Fact (M .rdc)] [Fact (M .wst)]
    [Fact (M .eng)] [Fact (M .cells)] {s0 : State} {s : Sys2Proof.Machine.State} {p : Sys2Proof.Machine.Port}
    (hK : Keeps M s0 s) :
    Keeps M s0 (State.portReset s p) := by
  unfold State.portReset
  extract_lets v0 v1 v2 v3 v4
  have h5 : Keeps M s0 v0 := by
    unfold v0
    refine Keeps.foldl ?_ ?_
    · with_reducible assumption
    · intro x6
      intro x7
      intro x8
      refine State.tearDown_keeps ?_
      with_reducible assumption
  clear_value v0
  have h9 : Keeps M s0 v1 := by
    unfold v1
    refine returnFlags_keeps ?_
    with_reducible assumption
  clear_value v1
  have h10 : Keeps M s0 v2 := by
    unfold v2
    refine State.modPort_keeps ?_
    with_reducible assumption
  clear_value v2
  have h11 : Keeps M s0 v3 := by
    unfold v3
    refine resetPortRegs_keeps ?_
    with_reducible assumption
  clear_value v3
  refine Keeps.mk' ?_ le_rfl rfl (fun x => x) (fun x => x) le_rfl
  with_reducible assumption

theorem takeStretch_keeps {M : Part → Prop} [Fact (M .host)] [Fact (M .ump)] {s0 : State} {s : Sys2Proof.Machine.State}
    (hK : Keeps M s0 s) :
    Keeps M s0 (takeStretch s) := by
  unfold takeStretch
  refine Keeps.ite ?_ ?_
  · intro x0
    with_reducible assumption
  · intro x1
    extract_lets v2 v3 v4 v5
    have h6 : Keeps M s0 v3 := by
      unfold v3
      refine Keeps.mk' ?_ le_rfl rfl (fun x => x) (fun x => x) le_rfl
      with_reducible assumption
    clear_value v3
    have h7 : Keeps M s0 v5 := by
      unfold v5
      refine Keeps.mk' ?_ le_rfl rfl (fun x => x) (fun x => x) le_rfl
      with_reducible assumption
    clear_value v5
    refine State.later_keeps ?_
    with_reducible assumption

theorem State.setStream_keeps {M : Part → Prop} [Fact (M .wst)] {s0 : State} {s : Sys2Proof.Machine.State}
    {t : Sys2Proof.Machine.StreamRun} (hK : Keeps M s0 s) :
    Keeps M s0 (State.setStream s t) := by
  unfold State.setStream
  refine Keeps.mk' ?_ le_rfl rfl (fun x => x) (fun x => x) le_rfl
  with_reducible assumption

theorem prefixLate_keeps {M : Part → Prop} [Fact (M .regs)] [Fact (M .host)] [Fact (M .wst)] {s0 : State}
    {s : Sys2Proof.Machine.State} {w : Sys2Proof.Machine.Work} {t : Sys2Proof.Machine.StreamRun} {layer : ℕ} {die : ℕ}
    (hK : Keeps M s0 s) :
    Keeps M s0 (prefixLate s w t layer die) := by
  unfold prefixLate
  refine Keeps.ite ?_ ?_
  · intro x0
    with_reducible assumption
  · intro x1
    extract_lets v2
    have h3 : Keeps M s0 v2 := by
      unfold v2
      refine State.setStream_keeps ?_
      refine State.bump_keeps ?_
      with_reducible assumption
    clear_value v2
    refine Keeps.ite ?_ ?_
    · intro x4
      with_reducible assumption
    · intro x5
      refine State.later_keeps ?_
      with_reducible assumption

theorem State.failVote_keeps {M : Part → Prop} [Fact (M .free)] [Fact (M .regs)] [Fact (M .host)] [Fact (M .ump)]
    [Fact (M .lkr)] [Fact (M .mem)] [Fact (M .scb)] [Fact (M .mgl)] [Fact (M .rdc)] [Fact (M .wst)] [Fact (M .eng)]
    [Fact (M .cells)] {s0 : State} {s : Sys2Proof.Machine.State} (hK : Keeps M s0 s) :
    Keeps M s0 (State.failVote s) := by
  unfold State.failVote
  refine State.stopGroupWork_keeps ?_
  refine State.modStep_keeps ?_
  with_reducible assumption

theorem State.castVote_keeps {M : Part → Prop} [Fact (M .ts)] [Fact (M .free)] [Fact (M .regs)] [Fact (M .host)]
    [Fact (M .ump)] [Fact (M .lkr)] [Fact (M .mem)] [Fact (M .scb)] [Fact (M .mgl)] [Fact (M .rdc)] [Fact (M .wst)]
    [Fact (M .eng)] [Fact (M .cells)] {s0 : State} {s : Sys2Proof.Machine.State} (hK : Keeps M s0 s) :
    Keeps M s0 (State.castVote s) := by
  unfold State.castVote
  split
  · with_reducible assumption
  · refine Keeps.ite ?_ ?_
    · intro x0
      with_reducible assumption
    · intro x1
      extract_lets v2 v3 v4 v5
      have h6 : Keeps M s0 v2 := by
        unfold v2
        refine Keeps.mk' ?_ le_rfl rfl (fun x => x) (fun x => x) le_rfl
        with_reducible assumption
      have h7 : Keeps M s0 v3 := by
        unfold v3
        refine Keeps.ite ?_ ?_
        · intro x8
          refine State.failVote_keeps ?_
          with_reducible assumption
        · intro x9
          with_reducible assumption
      clear_value v3
      refine State.tryForward_keeps ?_
      refine State.modStep_keeps ?_
      with_reducible assumption

theorem State.forwardLate_keeps {M : Part → Prop} [Fact (M .ts)] [Fact (M .free)] [Fact (M .regs)] [Fact (M .host)]
    [Fact (M .ump)] [Fact (M .lkr)] [Fact (M .mem)] [Fact (M .scb)] [Fact (M .mgl)] [Fact (M .rdc)] [Fact (M .wst)]
    [Fact (M .eng)] [Fact (M .cells)] {s0 : State} {s : Sys2Proof.Machine.State} (hK : Keeps M s0 s) :
    Keeps M s0 (State.forwardLate s) := by
  unfold State.forwardLate
  extract_lets v0
  have h1 : Keeps M s0 v0 := by
    unfold v0
    refine State.castVote_keeps ?_
    with_reducible assumption
  clear_value v0
  split
  · with_reducible assumption
  · refine Keeps.ite ?_ ?_
    · intro x2
      with_reducible assumption
    · intro x3
      extract_lets v4 v5
      have h6 : Keeps M s0 v4 := by
        unfold v4
        refine Keeps.mk' ?_ le_rfl rfl (fun x => x) (fun x => x) le_rfl
        with_reducible assumption
      clear_value v4
      refine forwardVote_keeps ?_
      with_reducible assumption

theorem takeGather_keeps {M : Part → Prop} [Fact (M .free)] [Fact (M .regs)] [Fact (M .ump)] [Fact (M .mem)] [Fact (M .scb)]
    [Fact (M .rdc)] [Fact (M .cells)] {s0 : State} {w : Sys2Proof.Machine.Work} {r : Sys2Proof.Machine.ChanRun}
    {h : Sys2Proof.Machine.SubHead} {data : List Sys2Proof.Byte} {s : Sys2Proof.Machine.State} (hK : Keeps M s0 s) :
    Keeps M s0 (takeGather w r h data s) := by
  unfold takeGather
  extract_lets v0 v1 v2
  have h3 : Keeps M s0 v2 := by
    unfold v2
    refine State.chanPut_keeps ?_
    with_reducible assumption
  clear_value v2
  refine State.checkRun_keeps ?_
  refine State.modRun_keeps ?_
  with_reducible assumption

theorem skipEvents_keeps {M : Part → Prop} [Fact (M .host)] {s0 : State} {s : Sys2Proof.Machine.State}
    {w : Sys2Proof.Machine.Work} (hK : Keeps M s0 s) :
    Keeps M s0 (skipEvents s w) := by
  unfold skipEvents
  refine Keeps.foldl ?_ ?_
  · with_reducible assumption
  · intro x0
    intro x1
    intro x2
    refine State.ctxEvent_keeps ?_
    with_reducible assumption

theorem State.revokeEntry_keeps {M : Part → Prop} [Fact (M .free)] [Fact (M .regs)] [Fact (M .host)] [Fact (M .lkr)]
    [Fact (M .mem)] [Fact (M .scb)] [Fact (M .cells)] {s0 : State} {s : Sys2Proof.Machine.State} {id : ℕ} (hK : Keeps M s0 s)
    :
    Keeps M s0 (State.revokeEntry s id) := by
  unfold State.revokeEntry
  extract_lets v0 v1 v2
  have h3 : Keeps M s0 v0 := by
    unfold v0
    refine State.dropWaiting_keeps ?_
    with_reducible assumption
  clear_value v0
  have h4 : Keeps M s0 v2 := by
    unfold v2
    split
    · extract_lets v5
      have h6 : Keeps M s0 v5 := by
        unfold v5
        refine Keeps.ite ?_ ?_
        · intro x7
          refine State.abandonLoad_keeps ?_
          with_reducible assumption
        · intro x8
          refine Keeps.mk' ?_ le_rfl rfl (fun x => x) (fun x => x) le_rfl
          with_reducible assumption
      clear_value v5
      refine State.finish_keeps ?_
      with_reducible assumption
    · with_reducible assumption
  clear_value v2
  refine State.modDir_keeps ?_
  with_reducible assumption

theorem State.revoke_keeps {M : Part → Prop} [Fact (M .free)] [Fact (M .regs)] [Fact (M .host)] [Fact (M .lkr)]
    [Fact (M .mem)] [Fact (M .scb)] [Fact (M .cells)] {s0 : State} {s : Sys2Proof.Machine.State} {tenant : ℕ} {id : ℕ}
    {all : Bool} {did : Option ℕ} (hK : Keeps M s0 s) :
    Keeps M s0 (State.revoke s tenant id all did) := by
  unfold State.revoke
  extract_lets v0 v1 v2 v3
  have h4 : Keeps M s0 v1 := by
    unfold v1
    refine Keeps.foldl ?_ ?_
    · with_reducible assumption
    · intro x5
      intro x6
      intro x7
      refine State.revokeEntry_keeps ?_
      with_reducible assumption
  clear_value v1
  refine Keeps.ite ?_ ?_
  · intro x8
    split
    · refine State.finish_keeps ?_
      with_reducible assumption
    · with_reducible assumption
  · intro x9
    refine Keeps.mk' ?_ le_rfl rfl (fun x => x) (fun x => x) le_rfl
    with_reducible assumption

theorem State.dropClosed_keeps {M : Part → Prop} [Fact (M .ref)] {s0 : State} {s : Sys2Proof.Machine.State} (hK : Keeps M s0 s) :
    Keeps M s0 (State.dropClosed s) := by
  unfold State.dropClosed
  refine Keeps.mk' ?_ le_rfl rfl (fun x => x) (fun x => x) le_rfl
  with_reducible assumption

theorem State.closeSession_keeps {M : Part → Prop} [Fact (M .host)] [Fact (M .ref)] {s0 : State} {s : Sys2Proof.Machine.State}
    {n : ℕ} (hK : Keeps M s0 s) :
    Keeps M s0 (State.closeSession s n) := by
  unfold State.closeSession
  extract_lets v0 v1 v2
  have h3 : Keeps M s0 v1 := by
    unfold v1
    refine Keeps.mk' ?_ le_rfl rfl (fun x => x) (fun x => x) le_rfl
    with_reducible assumption
  clear_value v1
  have h4 : Keeps M s0 v2 := by
    unfold v2
    refine Keeps.foldl ?_ ?_
    · with_reducible assumption
    · intro x5
      intro x6
      intro x7
      refine State.modCtx_keeps ?_
      with_reducible assumption
  clear_value v2
  refine State.dropClosed_keeps ?_
  with_reducible assumption

theorem State.purgeSlot_keeps {M : Part → Prop} [Fact (M .free)] [Fact (M .regs)] [Fact (M .host)] [Fact (M .lkr)]
    [Fact (M .mem)] [Fact (M .ref)] [Fact (M .scb)] [Fact (M .cells)] {s0 : State} {s : Sys2Proof.Machine.State} {slot : ℕ}
    (hK : Keeps M s0 s) :
    Keeps M s0 (State.purgeSlot s slot) := by
  unfold State.purgeSlot
  split
  · with_reducible assumption
  · refine Keeps.ite ?_ ?_
    · intro x0
      with_reducible assumption
    · intro x1
      extract_lets v2 v3
      have h4 : Keeps M s0 v3 := by
        unfold v3
        refine Keeps.foldl ?_ ?_
        · with_reducible assumption
        · intro x5
          intro x6
          intro x7
          refine State.closeSession_keeps ?_
          with_reducible assumption
      clear_value v3
      refine State.revoke_keeps ?_
      refine State.setSlot_keeps ?_
      with_reducible assumption

theorem runVec_keeps {M : Part → Prop} [Fact (M .free)] [Fact (M .regs)] [Fact (M .ump)] [Fact (M .mem)] [Fact (M .scb)]
    [Fact (M .eng)] [Fact (M .cells)] {s0 : State} {s : Sys2Proof.Machine.State} {w : Sys2Proof.Machine.Work} {e : ℕ}
    {c : Sys2Proof.Machine.VecCmd} {v : Sys2Proof.Machine.VecRow} (hK : Keeps M s0 s) :
    Keeps M s0 (runVec s w e c v) := by
  unfold runVec
  extract_lets v0 v1 v2 v3 v4 v5 v6 v7 v8 v9 v10 v11 v12 v13 v14
  have h15 : Keeps M s0 v5 := by
    unfold v5
    refine State.freed_keeps ?_
    refine State.freed_keeps ?_
    with_reducible assumption
  clear_value v5
  have h16 : Keeps M s0 v6 := by
    unfold v6
    refine Keeps.mk' ?_ le_rfl rfl (fun x => x) (fun x => x) le_rfl
    with_reducible assumption
  clear_value v6
  have h17 : Keeps M s0 v7 := by
    unfold v7
    refine State.readTraffic_keeps ?_
    with_reducible assumption
  clear_value v7
  have h18 : Keeps M s0 v8 := by
    unfold v8
    refine State.cellTraffic_keeps ?_
    refine State.putCells_keeps ?_
    with_reducible assumption
  clear_value v8
  have h19 : Keeps M s0 v10 := by
    unfold v10
    refine Keeps.ite ?_ ?_
    · intro x20
      refine State.addUse_keeps ?_
      with_reducible assumption
    · intro x21
      with_reducible assumption
  clear_value v10
  have h22 : Keeps M s0 v12 := by
    unfold v12
    refine State.addCharge_keeps ?_
    refine State.addNans_keeps ?_
    with_reducible assumption
  clear_value v12
  have h23 : Keeps M s0 v13 := by
    unfold v13
    refine Keeps.ite ?_ ?_
    · intro x24
      refine State.count_keeps ?_
      refine State.bump_keeps ?_
      with_reducible assumption
    · intro x25
      with_reducible assumption
  clear_value v13
  have h26 : Keeps M s0 v14 := by
    unfold v14
    refine State.count_keeps ?_
    refine State.count_keeps ?_
    with_reducible assumption
  clear_value v14
  refine State.advance_keeps ?_
  refine State.count_keeps ?_
  with_reducible assumption

theorem guarded_keeps {M : Part → Prop}  {s0 : State} {addrs : List ℕ} {s : Sys2Proof.Machine.State} (hK : Keeps M s0 s) :
    KeepsO M s0 (guarded addrs s) := by
  unfold guarded
  split
  · exact KeepsO.fault
  · refine KeepsO.next ?_
    with_reducible assumption

theorem vecStep_keeps {M : Part → Prop} [Fact (M .free)] [Fact (M .regs)] [Fact (M .host)] [Fact (M .ump)] [Fact (M .mem)]
    [Fact (M .scb)] [Fact (M .eng)] [Fact (M .cells)] {s0 : State} {e : ℕ} {op : ℕ} {cmd : Sys2Proof.Desc}
    {s : Sys2Proof.Machine.State}
    {f : Sys2Proof.Machine.Work → Sys2Proof.Machine.VecEnv → Sys2Proof.Machine.VecCmd → Sys2Proof.Machine.VecRow}
    (hK : Keeps M s0 s) :
    KeepsO M s0 (vecStep e op cmd s f) := by
  unfold vecStep
  split
  · refine KeepsO.next ?_
    with_reducible assumption
  · extract_lets v0
    refine guarded_keeps ?_
    refine runVec_keeps ?_
    with_reducible assumption

theorem State.dropOther_keeps {M : Part → Prop} [Fact (M .wst)] {s0 : State} {s : Sys2Proof.Machine.State} {target : ℕ}
    (hK : Keeps M s0 s) :
    Keeps M s0 (State.dropOther s target) := by
  unfold State.dropOther
  extract_lets v0 v1 v2 v3
  have h4 : Keeps M s0 v2 := by
    unfold v2
    refine State.setBank_keeps ?_
    with_reducible assumption
  clear_value v2
  refine Keeps.mk' ?_ le_rfl rfl (fun x => x) (fun x => x) le_rfl
  with_reducible assumption

theorem State.takeTarget_keeps {M : Part → Prop} [Fact (M .wst)] {s0 : State} {s : Sys2Proof.Machine.State} {b : ℕ}
    (hK : Keeps M s0 s) :
    Keeps M s0 (State.takeTarget s b) := by
  unfold State.takeTarget
  extract_lets v0 v1 v2
  have h3 : Keeps M s0 v1 := by
    unfold v1
    refine State.setBank_keeps ?_
    with_reducible assumption
  clear_value v1
  refine Keeps.mk' ?_ le_rfl rfl (fun x => x) (fun x => x) le_rfl
  with_reducible assumption

theorem State.clearCtxRegs_keeps {M : Part → Prop} [Fact (M .regs)] {s0 : State} {s : Sys2Proof.Machine.State} {c : ℕ}
    {p : Sys2Proof.Machine.Port} (hK : Keeps M s0 s) :
    Keeps M s0 (State.clearCtxRegs s c p) := by
  unfold State.clearCtxRegs
  extract_lets v0 v1 v2
  have h3 : Keeps M s0 v0 := by
    unfold v0
    refine State.setReg_keeps ?_
    with_reducible assumption
  clear_value v0
  have h4 : Keeps M s0 v1 := by
    unfold v1
    refine State.setReg_keeps ?_
    with_reducible assumption
  clear_value v1
  refine Keeps.foldl ?_ ?_
  · with_reducible assumption
  · intro x5
    intro x6
    intro x7
    refine State.setReg_keeps ?_
    with_reducible assumption

theorem State.fenceShard_keeps {M : Part → Prop} [Fact (M .free)] [Fact (M .regs)] [Fact (M .host)] [Fact (M .ump)]
    [Fact (M .lkr)] [Fact (M .mem)] [Fact (M .scb)] [Fact (M .mgl)] [Fact (M .rdc)] [Fact (M .wst)] [Fact (M .eng)]
    [Fact (M .cells)] {s0 : State} {s : Sys2Proof.Machine.State} {b : ℕ} {shard : ℕ} (hK : Keeps M s0 s) :
    Keeps M s0 (State.fenceShard s b shard) := by
  unfold State.fenceShard
  extract_lets v0 v1 v2
  refine Keeps.ite ?_ ?_
  · intro x3
    with_reducible assumption
  · intro x4
    split
    · extract_lets v5 v6 v7 v8
      have h9 : Keeps M s0 v6 := by
        unfold v6
        refine State.later_keeps ?_
        with_reducible assumption
      clear_value v6
      have h10 : Keeps M s0 v8 := by
        unfold v8
        refine Keeps.mk' ?_ le_rfl rfl (fun x => x) (fun x => x) le_rfl
        with_reducible assumption
      clear_value v8
      refine Keeps.ite ?_ ?_
      · intro x11
        refine State.stopWork_keeps ?_
        with_reducible assumption
      · intro x12
        with_reducible assumption

theorem State.issueFetch_keeps {M : Part → Prop} [Fact (M .regs)] [Fact (M .scb)] [Fact (M .mgl)] [Fact (M .wst)] {s0 : State}
    {s : Sys2Proof.Machine.State} {b : ℕ} {shard : ℕ} {entry : ℕ} (hK : Keeps M s0 s) :
    Keeps M s0 (State.issueFetch s b shard entry) := by
  unfold State.issueFetch
  extract_lets v0 v1 v2 v3
  have h4 : Keeps M s0 v0 := by
    unfold v0
    refine State.bump_keeps ?_
    with_reducible assumption
  clear_value v0
  have h5 : Keeps M s0 v3 := by
    unfold v3
    refine Keeps.mk' ?_ le_rfl rfl (fun x => x) (fun x => x) le_rfl
    with_reducible assumption
  clear_value v3
  refine State.send_keeps ?_
  with_reducible assumption

theorem State.missShard_keeps {M : Part → Prop} [Fact (M .free)] [Fact (M .regs)] [Fact (M .host)] [Fact (M .ump)]
    [Fact (M .lkr)] [Fact (M .mem)] [Fact (M .scb)] [Fact (M .mgl)] [Fact (M .rdc)] [Fact (M .wst)] [Fact (M .eng)]
    [Fact (M .cells)] {s0 : State} {s : Sys2Proof.Machine.State} {b : ℕ} {shard : ℕ} {entry : ℕ} (hK : Keeps M s0 s) :
    Keeps M s0 (State.missShard s b shard entry) := by
  unfold State.missShard
  refine Keeps.ite ?_ ?_
  · intro x0
    refine State.issueFetch_keeps ?_
    with_reducible assumption
  · intro x1
    refine State.fenceShard_keeps ?_
    with_reducible assumption

theorem State.markWritten_keeps {M : Part → Prop} [Fact (M .ump)] {s0 : State} {s : Sys2Proof.Machine.State}
    {w : Sys2Proof.Machine.Work} {i : ℕ} (hK : Keeps M s0 s) :
    Keeps M s0 (State.markWritten s w i) := by
  unfold State.markWritten
  extract_lets v0
  refine State.modWork_keeps ?_
  with_reducible assumption

theorem takeDown_keeps {M : Part → Prop} [Fact (M .free)] [Fact (M .regs)] [Fact (M .ump)] [Fact (M .mem)] [Fact (M .scb)]
    [Fact (M .mgl)] [Fact (M .rdc)] [Fact (M .cells)] {s0 : State} {w : Sys2Proof.Machine.Work}
    {r : Sys2Proof.Machine.ChanRun} {h : Sys2Proof.Machine.SubHead} {data : List Sys2Proof.Byte} {s : Sys2Proof.Machine.State}
    (hK : Keeps M s0 s) :
    Keeps M s0 (takeDown w r h data s) := by
  unfold takeDown
  extract_lets v0 v1 v2 v3 v4 v5
  have h6 : Keeps M s0 v3 := by
    unfold v3
    refine State.chanPut_keeps ?_
    with_reducible assumption
  clear_value v3
  have h7 : Keeps M s0 v4 := by
    unfold v4
    refine Keeps.ite ?_ ?_
    · intro x8
      refine State.markWritten_keeps ?_
      with_reducible assumption
    · intro x9
      with_reducible assumption
  clear_value v4
  have h10 : Keeps M s0 v5 := by
    unfold v5
    refine State.modRun_keeps ?_
    with_reducible assumption
  clear_value v5
  refine State.checkRun_keeps ?_
  refine sendDown_keeps ?_
  with_reducible assumption

theorem evict_keeps {M : Part → Prop} [Fact (M .regs)] [Fact (M .host)] [Fact (M .lkr)] [Fact (M .mem)] {s0 : State}
    {s : Sys2Proof.Machine.State} {e : Sys2Proof.Machine.DirEntry} (hK : Keeps M s0 s) :
    Keeps M s0 (evict s e) := by
  unfold evict
  extract_lets v0 v1 v2 v3
  have h4 : Keeps M s0 v0 := by
    unfold v0
    refine State.freePages_keeps ?_
    with_reducible assumption
  have h5 : Keeps M s0 v2 := by
    unfold v2
    refine Keeps.mk' ?_ le_rfl rfl (fun x => x) (fun x => x) le_rfl
    with_reducible assumption
  have h6 : Keeps M s0 v3 := by
    unfold v3
    refine State.bump_keeps ?_
    with_reducible assumption
  refine Keeps.ite ?_ ?_
  · intro x7
    refine State.opEvent_keeps ?_
    with_reducible assumption
  · intro x8
    with_reducible assumption

theorem State.setConn_keeps {M : Part → Prop} [Fact (M .ref)] {s0 : State} {s : Sys2Proof.Machine.State}
    {p : Sys2Proof.Machine.Port} {c : Sys2Proof.Machine.SpdmConn} (hK : Keeps M s0 s) :
    Keeps M s0 (State.setConn s p c) := by
  unfold State.setConn
  split
  · refine Keeps.mk' ?_ le_rfl rfl (fun x => x) (fun x => x) le_rfl
    with_reducible assumption
  · refine Keeps.mk' ?_ le_rfl rfl (fun x => x) (fun x => x) le_rfl
    with_reducible assumption

theorem State.requestPower_keeps {M : Part → Prop} [Fact (M .free)] [Fact (M .regs)] [Fact (M .host)] [Fact (M .ump)]
    [Fact (M .lkr)] [Fact (M .mem)] [Fact (M .pwr)] [Fact (M .scb)] [Fact (M .mgl)] [Fact (M .rdc)] [Fact (M .wst)]
    [Fact (M .eng)] [Fact (M .cells)] {s0 : State} {s : Sys2Proof.Machine.State} {t : Sys2Proof.Machine.PowerState}
    (hK : Keeps M s0 s) :
    Keeps M s0 (State.requestPower s t) := by
  unfold State.requestPower
  extract_lets v0 v1
  have h2 : Keeps M s0 v0 := by
    unfold v0
    refine State.setFld_keeps ?_
    with_reducible assumption
  clear_value v0
  refine Keeps.ite ?_ ?_
  · intro x3
    with_reducible assumption
  · intro x4
    refine Keeps.ite ?_ ?_
    · intro x5
      refine Keeps.mk' ?_ le_rfl rfl (fun x => x) (fun x => x) le_rfl
      with_reducible assumption
    · intro x6
      refine State.takeRequest_keeps ?_
      with_reducible assumption

theorem State.warmState_keeps [Fact (M .ts)] [Fact (M .free)] [Fact (M .regs)] [Fact (M .host)] [Fact (M .ump)]
    [Fact (M .lkr)] [Fact (M .mem)] [Fact (M .ref)] [Fact (M .err)] [Fact (M .pwr)] [Fact (M .scb)] [Fact (M .mgl)]
    [Fact (M .rdc)] [Fact (M .wst)] [Fact (M .eng)] [Fact (M .cells)] {s0 s : State} {cause : Nat} (hK : Keeps M s0 s) : Keeps
    M s0 (s.warmState cause) := by
  unfold State.warmState
  refine State.setFld_keeps (State.setReg_keeps ((abandonFlash_keeps hK).trans ?_))
  refine (.mk rfl List.prefix_rfl le_rfl le_rfl (fun x => Memory.wf_filter _ x) (fun h => h.filterMap (fun p _ q e => ?_)))
  split at e
  · cases e
  · cases e
    exact ⟨rfl, by assumption⟩

theorem State.startBoot_keeps {M : Part → Prop} [Fact (M .ts)] [Fact (M .regs)] [Fact (M .ref)] [Fact (M .pwr)] {s0 : State}
    {s : Sys2Proof.Machine.State} (hK : Keeps M s0 s) :
    Keeps M s0 (State.startBoot s) := by
  unfold State.startBoot
  extract_lets v0 v1 v2
  have h3 : Keeps M s0 v2 := by
    unfold v2
    refine Keeps.mk' ?_ le_rfl rfl (fun x => x) (fun x => x) le_rfl
    with_reducible assumption
  clear_value v2
  refine State.setFld_keeps ?_
  with_reducible assumption

theorem State.warmReset_keeps {M : Part → Prop} [Fact (M .ts)] [Fact (M .free)] [Fact (M .regs)] [Fact (M .host)]
    [Fact (M .ump)] [Fact (M .lkr)] [Fact (M .mem)] [Fact (M .ref)] [Fact (M .err)] [Fact (M .pwr)] [Fact (M .scb)]
    [Fact (M .mgl)] [Fact (M .rdc)] [Fact (M .wst)] [Fact (M .eng)] [Fact (M .cells)] {s0 : State}
    {s : Sys2Proof.Machine.State} {cause : ℕ} (hK : Keeps M s0 s) :
    Keeps M s0 (State.warmReset s cause) := by
  unfold State.warmReset
  split
  · with_reducible assumption
  · with_reducible assumption
  · refine Keeps.ite ?_ ?_
    · intro x0
      refine State.startBoot_keeps ?_
      refine State.warmState_keeps ?_
      with_reducible assumption
    · intro x1
      with_reducible assumption
  · refine State.startBoot_keeps ?_
    refine State.warmState_keeps ?_
    with_reducible assumption
  · refine State.startBoot_keeps ?_
    refine State.warmState_keeps ?_
    with_reducible assumption

theorem State.mgmtAct_keeps {M : Part → Prop} [Fact (M .ts)] [Fact (M .free)] [Fact (M .regs)] [Fact (M .host)]
    [Fact (M .ump)] [Fact (M .lkr)] [Fact (M .mem)] [Fact (M .ref)] [Fact (M .err)] [Fact (M .pwr)] [Fact (M .scb)]
    [Fact (M .mgl)] [Fact (M .rdc)] [Fact (M .wst)] [Fact (M .eng)] [Fact (M .cells)] {s0 : State}
    {s : Sys2Proof.Machine.State} {a : Sys2Proof.Machine.MgmtAction} (hK : Keeps M s0 s) :
    Keeps M s0 (State.mgmtAct s a) := by
  unfold State.mgmtAct
  split
  · refine State.warmReset_keeps ?_
    with_reducible assumption
  · refine State.requestPower_keeps ?_
    with_reducible assumption
  · refine State.requestPower_keeps ?_
    with_reducible assumption

theorem State.chipWrite_keeps [Fact (M .mem)] [Fact (M .cells)] {s0 s : State} {a : Nat} {data : List Byte} (h : Keeps M s0 s)
    : Keeps M s0 (s.chipWrite a data) :=
  h.setCells (fun k => Memory.wf_writeCells _ k)

theorem writeLineFor_keeps {M : Part → Prop} [Fact (M .free)] [Fact (M .regs)] [Fact (M .host)] [Fact (M .ump)]
    [Fact (M .mem)] [Fact (M .scb)] [Fact (M .cells)] {s0 : State} {c : ℕ} {a : ℕ} {data : List Sys2Proof.Byte}
    {s : Sys2Proof.Machine.State} {line : ℕ} (hK : Keeps M s0 s) :
    Keeps M s0 (writeLineFor c a data s line) := by
  unfold writeLineFor
  extract_lets v0
  have h1 : Keeps M s0 v0 := by
    unfold v0
    refine Keeps.ite ?_ ?_
    · intro x2
      refine State.scrubPage_keeps ?_
      with_reducible assumption
    · intro x3
      with_reducible assumption
  clear_value v0
  refine Keeps.ite ?_ ?_
  · intro x4
    split
    · rename_i hq5
      refine Keeps.viaPair (M := M) (s0 := s0) hq5 ?_ (fun hk6 => ?_)
      · refine State.readLine_keeps ?_
        with_reducible assumption
      · extract_lets v7
        refine State.writeLine_keeps ?_
        with_reducible assumption
  · intro x8
    refine State.violate_keeps ?_
    with_reducible assumption

theorem State.lpWrite_keeps {M : Part → Prop} [Fact (M .free)] [Fact (M .regs)] [Fact (M .host)] [Fact (M .ump)]
    [Fact (M .mem)] [Fact (M .scb)] [Fact (M .cells)] {s0 : State} {s : Sys2Proof.Machine.State} {c : ℕ} {a : ℕ}
    {data : List Sys2Proof.Byte} (hK : Keeps M s0 s) :
    Keeps M s0 (State.lpWrite s c a data) := by
  unfold State.lpWrite
  refine Keeps.foldl ?_ ?_
  · with_reducible assumption
  · intro x0
    intro x1
    intro x2
    refine writeLineFor_keeps ?_
    with_reducible assumption

theorem State.devWrite_keeps {M : Part → Prop} [Fact (M .free)] [Fact (M .regs)] [Fact (M .host)] [Fact (M .ump)]
    [Fact (M .mem)] [Fact (M .scb)] [Fact (M .cells)] {s0 : State} {s : Sys2Proof.Machine.State} {c : ℕ} {a : ℕ}
    {data : List Sys2Proof.Byte} (hK : Keeps M s0 s) :
    Keeps M s0 (State.devWrite s c a data) := by
  unfold State.devWrite
  refine Keeps.ite ?_ ?_
  · intro x0
    refine State.lpWrite_keeps ?_
    with_reducible assumption
  · intro x1
    refine State.chipWrite_keeps ?_
    with_reducible assumption

theorem State.gWriteAt_keeps {M : Part → Prop} [Fact (M .free)] [Fact (M .regs)] [Fact (M .host)] [Fact (M .ump)]
    [Fact (M .mem)] [Fact (M .scb)] [Fact (M .cells)] {s0 : State} {s : Sys2Proof.Machine.State} {w : Sys2Proof.Machine.Work}
    {e : ℕ} {a : ℕ} {bs : List Sys2Proof.Byte} (hK : Keeps M s0 s) :
    Keeps M s0 (State.gWriteAt s w e a bs) := by
  unfold State.gWriteAt
  refine State.traffic_keeps ?_
  refine State.devWrite_keeps ?_
  with_reducible assumption

theorem State.gWrite_keeps {M : Part → Prop} [Fact (M .free)] [Fact (M .regs)] [Fact (M .host)] [Fact (M .ump)]
    [Fact (M .mem)] [Fact (M .scb)] [Fact (M .cells)] {s0 : State} {s : Sys2Proof.Machine.State} {w : Sys2Proof.Machine.Work}
    {e : ℕ} {a : ℕ} {bs : List Sys2Proof.Byte} (hK : Keeps M s0 s) :
    Keeps M s0 (State.gWrite s w e a bs) := by
  unfold State.gWrite
  split
  · refine State.gWriteAt_keeps ?_
    with_reducible assumption
  · refine State.gWriteAt_keeps ?_
    with_reducible assumption
  · refine Keeps.foldlSnd ?_ ?_
    · with_reducible assumption
    · intro x0
      intro x1
      intro x2
      dsimp only
      refine State.gWriteAt_keeps ?_
      with_reducible assumption
  · with_reducible assumption
  · with_reducible assumption

theorem writeGrad_keeps {M : Part → Prop} [Fact (M .free)] [Fact (M .regs)] [Fact (M .host)] [Fact (M .ump)] [Fact (M .mem)]
    [Fact (M .scb)] [Fact (M .cells)] {s0 : State} {w : Sys2Proof.Machine.Work} {e : ℕ} {c : Sys2Proof.Machine.GatherCmd}
    {cs : List (ℕ × List Sys2Proof.F32)} {s : Sys2Proof.Machine.State} {k : ℕ} (hK : Keeps M s0 s) :
    Keeps M s0 (writeGrad w e c cs s k) := by
  unfold writeGrad
  extract_lets v0 v1
  split
  · refine State.gWrite_keeps ?_
    refine State.addUse_keeps ?_
    with_reducible assumption

theorem State.gMoved_keeps {M : Part → Prop} [Fact (M .regs)] [Fact (M .scb)] {s0 : State} {s : Sys2Proof.Machine.State}
    {e : ℕ} {n : ℕ} (hK : Keeps M s0 s) :
    Keeps M s0 (State.gMoved s e n) := by
  unfold State.gMoved
  refine State.count_keeps ?_
  with_reducible assumption

theorem readLookups_keeps {M : Part → Prop} [Fact (M .free)] [Fact (M .regs)] [Fact (M .host)] [Fact (M .ump)] [Fact (M .mem)]
    [Fact (M .scb)] [Fact (M .cells)] {s0 : State} {w : Sys2Proof.Machine.Work} {e : ℕ} {c : Sys2Proof.Machine.GatherCmd}
    {s : Sys2Proof.Machine.State} {first : ℕ} {last : ℕ} (hK : Keeps M s0 s) :
    Keeps M s0 (readLookups w e c s first last).2 := by
  unfold readLookups
  refine Keeps.foldlSnd ?_ ?_
  · with_reducible assumption
  · intro x0
    intro x1
    intro x2
    split
    · rename_i hq3
      refine Keeps.viaPair (M := M) (s0 := s0) hq3 ?_ (fun hk4 => ?_)
      · refine State.gRead_keeps ?_
        with_reducible assumption
      · extract_lets v5
        split
        · rename_i hq6
          refine Keeps.viaPair (M := M) (s0 := s0) hq6 ?_ (fun hk7 => ?_)
          · refine Keeps.iteSnd ?_ ?_
            · intro x8
              refine State.gRead_keeps ?_
              with_reducible assumption
            · intro x9
              with_reducible assumption
          · split
            · rename_i hq10
              refine Keeps.viaPair (M := M) (s0 := s0) hq10 ?_ (fun hk11 => ?_)
              · refine Keeps.iteSnd ?_ ?_
                · intro x12
                  refine State.gRead_keeps ?_
                  with_reducible assumption
                · intro x13
                  with_reducible assumption
              · with_reducible assumption

theorem readContribs_keeps [Fact (M .free)] [Fact (M .regs)] [Fact (M .host)] [Fact (M .ump)] [Fact (M .mem)] [Fact (M .scb)]
    [Fact (M .cells)] {s0 : State} {w : Work} {e : Nat} {c : GatherCmd} {offs : List Nat}
    {acc : List (Nat × List F32) × State}
    {b : Nat} (hK : Keeps M s0 acc.2) : Keeps M s0 (readContribs w e c offs acc b).2 :=
  readLookups_keeps (State.gRead_keeps hK)

theorem gatherStep_keeps {M : Part → Prop} [Fact (M .eng)] {s0 : State} {e : ℕ} {op : ℕ} {cmd : Sys2Proof.Desc}
    {s : Sys2Proof.Machine.State} {f : Sys2Proof.Machine.Work → Sys2Proof.Machine.GatherCmd → Sys2Proof.Machine.State}
    (hf : ∀ (y0 : Work) (y1 : GatherCmd), Keeps M s0 (f y0 y1)) (hK : Keeps M s0 s) :
    KeepsO M s0 (gatherStep e op cmd s f) := by
  unfold gatherStep
  split
  · refine KeepsO.next ?_
    with_reducible assumption
  · extract_lets v0
    refine guarded_keeps ?_
    refine State.advance_keeps ?_
    with_reducible apply hf

theorem State.startSlot_keeps {M : Part → Prop} [Fact (M .free)] [Fact (M .regs)] [Fact (M .ump)] [Fact (M .scb)] {s0 : State}
    {s : Sys2Proof.Machine.State} {t : ℕ} {len : ℕ} {kind : Sys2Proof.Machine.SlotKind}
    {r : Option Sys2Proof.Machine.ReadyServe} (hK : Keeps M s0 s) :
    Keeps M s0 (State.startSlot s t len kind r) := by
  unfold State.startSlot
  extract_lets v0 v1 v2 v3 v4 v5 v6
  have h7 : Keeps M s0 v4 := by
    unfold v4
    refine Keeps.mk' ?_ le_rfl rfl (fun x => x) (fun x => x) le_rfl
    with_reducible assumption
  clear_value v4
  have h8 : Keeps M s0 v5 := by
    unfold v5
    refine State.trace_keeps ?_
    with_reducible assumption
  clear_value v5
  refine State.count_keeps ?_
  refine State.count_keeps ?_
  with_reducible assumption

theorem chooseGroup_keeps {M : Part → Prop} [Fact (M .free)] [Fact (M .regs)] [Fact (M .ump)] [Fact (M .scb)] {s0 : State}
    {s : Sys2Proof.Machine.State} {t : ℕ} (hK : Keeps M s0 s) :
    KeepsQ M s0 (chooseGroup s t) := by
  unfold chooseGroup
  split
  · exact KeepsQ.none
  · extract_lets v0
    refine KeepsQ.some ?_
    refine State.startSlot_keeps ?_
    with_reducible assumption

theorem State.sendLoad_keeps {M : Part → Prop} [Fact (M .regs)] [Fact (M .scb)] [Fact (M .mgl)] {s0 : State}
    {s : Sys2Proof.Machine.State} {dst : ℕ} {sq : ℕ} {data : List Sys2Proof.Byte} (hK : Keeps M s0 s) :
    Keeps M s0 (State.sendLoad s dst sq data) := by
  unfold State.sendLoad
  refine Keeps.foldl ?_ ?_
  · with_reducible assumption
  · intro x0
    intro x1
    intro x2
    refine State.send_keeps ?_
    with_reducible assumption

theorem State.takeInbox_keeps {M : Part → Prop} [Fact (M .mgl)] {s0 : State} {s : Sys2Proof.Machine.State}
    {pick : Sys2Proof.Machine.InboxPacket → Bool} (hK : Keeps M s0 s) :
    Keeps M s0 (State.takeInbox s pick) := by
  unfold State.takeInbox
  refine Keeps.mk' ?_ le_rfl rfl (fun x => x) (fun x => x) le_rfl
  with_reducible assumption

theorem State.countWork_keeps {M : Part → Prop} [Fact (M .ump)] {s0 : State} {s : Sys2Proof.Machine.State} {c : ℕ}
    {serves : ℕ} {segments : ℕ} (hK : Keeps M s0 s) :
    Keeps M s0 (State.countWork s c serves segments) := by
  unfold State.countWork
  extract_lets v0
  refine State.setAcct_keeps ?_
  with_reducible assumption

theorem State.railFails_keeps {M : Part → Prop} [Fact (M .ts)] [Fact (M .free)] [Fact (M .regs)] [Fact (M .host)]
    [Fact (M .ump)] [Fact (M .lkr)] [Fact (M .mem)] [Fact (M .ref)] [Fact (M .err)] [Fact (M .pwr)] [Fact (M .scb)]
    [Fact (M .mgl)] [Fact (M .rdc)] [Fact (M .wst)] [Fact (M .eng)] [Fact (M .cells)] {s0 : State}
    {s : Sys2Proof.Machine.State} {rail : Option ℕ} (hK : Keeps M s0 s) :
    Keeps M s0 (State.railFails s rail) := by
  unfold State.railFails
  refine Keeps.ite ?_ ?_
  · intro x0
    with_reducible assumption
  · intro x1
    extract_lets v2 v3 v4 v5
    have h6 : Keeps M s0 v2 := by
      unfold v2
      refine Keeps.ite ?_ ?_
      · intro x7
        refine State.failDevice_keeps ?_
        with_reducible assumption
      · intro x8
        with_reducible assumption
    clear_value v2
    have h9 : Keeps M s0 v3 := by
      unfold v3
      refine State.coldState_keeps ?_
      with_reducible assumption
    clear_value v3
    have h10 : Keeps M s0 v5 := by
      unfold v5
      refine Keeps.mk' ?_ le_rfl rfl (fun x => x) (fun x => x) le_rfl
      with_reducible assumption
    clear_value v5
    split
    · extract_lets v11
      have h12 : Keeps M s0 v11 := by
        unfold v11
        refine State.setReg_keeps ?_
        with_reducible assumption
      clear_value v11
      refine State.setFld_keeps ?_
      with_reducible assumption
    · with_reducible assumption

theorem bootStep1_keeps {M : Part → Prop} [Fact (M .regs)] [Fact (M .pwr)] {s0 : State} {tests : Sys2Proof.BootTests}
    {s : Sys2Proof.Machine.State} (hK : Keeps M s0 s) :
    KeepsE M s0 (bootStep1 tests s) := by
  unfold bootStep1
  refine KeepsE.ite ?_ ?_
  · intro x0
    refine KeepsE.error ?_
    refine State.bootFails_keeps ?_
    with_reducible assumption
  · intro x1
    refine KeepsE.ite ?_ ?_
    · intro x2
      refine KeepsE.error ?_
      refine State.bootFails_keeps ?_
      with_reducible assumption
    · intro x3
      extract_lets v4 v5
      have h6 : Keeps M s0 v5 := by
        unfold v5
        refine Keeps.mk' ?_ le_rfl rfl (fun x => x) (fun x => x) le_rfl
        with_reducible assumption
      clear_value v5
      refine KeepsE.ok ?_
      refine State.bootStep_keeps ?_
      refine State.setFld_keeps ?_
      with_reducible assumption

theorem fetchDone_keeps {M : Part → Prop} [Fact (M .free)] [Fact (M .regs)] [Fact (M .ump)] [Fact (M .mem)] [Fact (M .scb)]
    [Fact (M .wst)] [Fact (M .cells)] {s0 : State} {s : Sys2Proof.Machine.State} {t : Sys2Proof.Machine.StreamRun}
    {f : Sys2Proof.Machine.MirrorFetch} (hK : Keeps M s0 s) :
    Keeps M s0 (fetchDone s t f) := by
  unfold fetchDone
  split
  · with_reducible assumption
  · extract_lets v0
    split
    · with_reducible assumption
    · extract_lets v1
      have h2 : Keeps M s0 v1 := by
        unfold v1
        refine State.traffic_keeps ?_
        refine State.chipWrite_keeps ?_
        with_reducible assumption
      clear_value v1
      refine State.setStream_keeps ?_
      with_reducible assumption

theorem requestChunk_keeps {M : Part → Prop} [Fact (M .mgl)] {s0 : State} {s : Sys2Proof.Machine.State} (hK : Keeps M s0 s) :
    Keeps M s0 (requestChunk s) := by
  unfold requestChunk
  refine Keeps.ite ?_ ?_
  · intro x0
    refine State.sendBoot_keeps ?_
    with_reducible assumption
  · intro x1
    with_reducible assumption

theorem State.setGather_keeps {M : Part → Prop} [Fact (M .lkr)] {s0 : State} {s : Sys2Proof.Machine.State} {die : ℕ}
    {g : Sys2Proof.Machine.GatherState} (hK : Keeps M s0 s) :
    Keeps M s0 (State.setGather s die g) := by
  unfold State.setGather
  refine Keeps.mk' ?_ le_rfl rfl (fun x => x) (fun x => x) le_rfl
  with_reducible assumption

theorem takeRow_keeps {M : Part → Prop} [Fact (M .free)] [Fact (M .regs)] [Fact (M .ump)] [Fact (M .mem)] [Fact (M .scb)]
    [Fact (M .rdc)] [Fact (M .cells)] {s0 : State} {w : Sys2Proof.Machine.Work} {r : Sys2Proof.Machine.ChanRun}
    {h : Sys2Proof.Machine.SubHead} {data : List Sys2Proof.Byte} {s : Sys2Proof.Machine.State} (hK : Keeps M s0 s) :
    Keeps M s0 (takeRow w r h data s) := by
  unfold takeRow
  refine finishDispatch_keeps ?_
  refine State.modRun_keeps ?_
  with_reducible assumption

theorem State.reportDrops_keeps {M : Part → Prop} [Fact (M .host)] [Fact (M .mgl)] {s0 : State} {s : Sys2Proof.Machine.State}
    (hK : Keeps M s0 s) :
    Keeps M s0 (State.reportDrops s) := by
  unfold State.reportDrops
  split
  · with_reducible assumption
  · extract_lets v0 v1
    have h2 : Keeps M s0 v0 := by
      unfold v0
      refine State.opEvent_keeps ?_
      with_reducible assumption
    clear_value v0
    refine Keeps.mk' ?_ le_rfl rfl (fun x => x) (fun x => x) le_rfl
    with_reducible assumption

theorem writeAcct_keeps {M : Part → Prop} [Fact (M .free)] [Fact (M .regs)] [Fact (M .host)] [Fact (M .ump)] [Fact (M .mem)]
    [Fact (M .scb)] [Fact (M .cells)] {s0 : State} {s : Sys2Proof.Machine.State} {c : ℕ} (hK : Keeps M s0 s) :
    Keeps M s0 (writeAcct s c) := by
  unfold writeAcct
  refine Keeps.ite ?_ ?_
  · intro x0
    refine State.lpWrite_keeps ?_
    with_reducible assumption
  · intro x1
    with_reducible assumption

theorem updateAcct_keeps {M : Part → Prop} [Fact (M .free)] [Fact (M .regs)] [Fact (M .host)] [Fact (M .ump)] [Fact (M .mem)]
    [Fact (M .scb)] [Fact (M .cells)] {s0 : State} {s : Sys2Proof.Machine.State} {c : ℕ} (hK : Keeps M s0 s) :
    Keeps M s0 (updateAcct s c) := by
  unfold updateAcct
  extract_lets v0
  refine writeAcct_keeps ?_
  refine State.setAcct_keeps ?_
  with_reducible assumption

theorem releaseHeld_keeps {M : Part → Prop} [Fact (M .ump)] {s0 : State} {s : Sys2Proof.Machine.State} {c : ℕ}
    (hK : Keeps M s0 s) :
    Keeps M s0 (releaseHeld s c) := by
  unfold releaseHeld
  extract_lets v0 v1
  refine Keeps.ite ?_ ?_
  · intro x2
    with_reducible assumption
  · intro x3
    refine State.setAcct_keeps ?_
    with_reducible assumption

theorem updateAccts_keeps {M : Part → Prop} [Fact (M .free)] [Fact (M .regs)] [Fact (M .host)] [Fact (M .ump)] [Fact (M .mem)]
    [Fact (M .scb)] [Fact (M .cells)] {s0 : State} {s : Sys2Proof.Machine.State} {last : ℕ} (hK : Keeps M s0 s) :
    Keeps M s0 (updateAccts s last) := by
  unfold updateAccts
  extract_lets v0 v1
  have h2 : Keeps M s0 v0 := by
    unfold v0
    refine Keeps.ite ?_ ?_
    · intro x3
      refine Keeps.foldl ?_ ?_
      · with_reducible assumption
      · intro x4
        intro x5
        intro x6
        refine releaseHeld_keeps ?_
        with_reducible assumption
    · intro x7
      with_reducible assumption
  clear_value v0
  refine Keeps.foldl ?_ ?_
  · with_reducible assumption
  · intro x8
    intro x9
    intro x10
    refine updateAcct_keeps ?_
    with_reducible assumption

theorem samplePmu_keeps {M : Part → Prop} [Fact (M .host)] {s0 : State} {s : Sys2Proof.Machine.State} {last : ℕ}
    (hK : Keeps M s0 s) :
    Keeps M s0 (samplePmu s last) := by
  unfold samplePmu
  refine Keeps.ite ?_ ?_
  · intro x0
    refine Keeps.foldl ?_ ?_
    · with_reducible assumption
    · intro x1
      intro x2
      intro x3
      extract_lets v4
      refine State.ctxEvent_keeps ?_
      with_reducible assumption
  · intro x5
    with_reducible assumption

theorem reportOverrun_keeps {M : Part → Prop} [Fact (M .host)] [Fact (M .ump)] {s0 : State} {s : Sys2Proof.Machine.State}
    {t : Sys2Proof.Machine.Slot} (hK : Keeps M s0 s) :
    Keeps M s0 (reportOverrun s t) := by
  unfold reportOverrun
  split
  · with_reducible assumption
  · extract_lets v0 v1 v2
    have h3 : Keeps M s0 v2 := by
      unfold v2
      refine State.setAcct_keeps ?_
      with_reducible assumption
    clear_value v2
    refine State.opEvent_keeps ?_
    with_reducible assumption

theorem flushCompletions_keeps {M : Part → Prop} [Fact (M .free)] [Fact (M .regs)] [Fact (M .host)] [Fact (M .scb)]
    {s0 : State} {s : Sys2Proof.Machine.State} (hK : Keeps M s0 s) :
    Keeps M s0 (flushCompletions s) := by
  unfold flushCompletions
  refine Keeps.foldl ?_ ?_
  · refine Keeps.mk' ?_ le_rfl rfl (fun x => x) (fun x => x) le_rfl
    with_reducible assumption
  · intro x0
    intro x1
    intro x2
    refine State.complete_keeps ?_
    with_reducible assumption

theorem State.flush_keeps {M : Part → Prop} [Fact (M .host)] {s0 : State} {s : Sys2Proof.Machine.State}
    {e : Sys2Proof.Machine.PendingEvent} (hK : Keeps M s0 s) :
    Keeps M s0 (State.flush s e) := by
  unfold State.flush
  extract_lets v0
  split
  · refine State.opEvent_keeps ?_
    with_reducible assumption
  · refine State.ctxEvent_keeps ?_
    with_reducible assumption

theorem flushEvents_keeps {M : Part → Prop} [Fact (M .host)] {s0 : State} {s : Sys2Proof.Machine.State} (hK : Keeps M s0 s) :
    Keeps M s0 (flushEvents s) := by
  unfold flushEvents
  refine Keeps.foldl ?_ ?_
  · refine Keeps.mk' ?_ le_rfl rfl (fun x => x) (fun x => x) le_rfl
    with_reducible assumption
  · intro x0
    intro x1
    intro x2
    refine State.flush_keeps ?_
    with_reducible assumption

theorem State.setUncommitted_keeps {M : Part → Prop} [Fact (M .mem)] [Fact (M .cells)] {s0 : State}
    {s : Sys2Proof.Machine.State} {image : List ℕ} {b : Bool} (hK : Keeps M s0 s) :
    Keeps M s0 (State.setUncommitted s image b) := by
  unfold State.setUncommitted
  split
  · with_reducible assumption
  · extract_lets v0 v1 v2
    refine State.writeLine_keeps ?_
    with_reducible assumption

theorem recordStepped_keeps {M : Part → Prop} [Fact (M .lkr)] [Fact (M .mem)] [Fact (M .cells)] {s0 : State} {no : ℕ}
    {s : Sys2Proof.Machine.State} {id : ℕ} (hK : Keeps M s0 s) :
    Keeps M s0 (recordStepped no s id) := by
  unfold recordStepped
  split
  · extract_lets v0 v1 v2
    have h3 : Keeps M s0 v2 := by
      unfold v2
      refine State.setUncommitted_keeps ?_
      with_reducible assumption
    clear_value v2
    refine State.modRecord_keeps ?_
    with_reducible assumption
  · with_reducible assumption

theorem stepDone_keeps {M : Part → Prop} [Fact (M .free)] [Fact (M .regs)] [Fact (M .host)] [Fact (M .ump)] [Fact (M .lkr)]
    [Fact (M .mem)] [Fact (M .scb)] [Fact (M .cells)] {s0 : State} {s : Sys2Proof.Machine.State} {p : Sys2Proof.Machine.PStep}
    (hK : Keeps M s0 s) :
    Keeps M s0 (stepDone s p) := by
  unfold stepDone
  extract_lets v0
  have h1 : Keeps M s0 v0 := by
    unfold v0
    refine Keeps.foldl ?_ ?_
    · with_reducible assumption
    · intro x2
      intro x3
      intro x4
      refine recordStepped_keeps ?_
      with_reducible assumption
  clear_value v0
  refine State.complete_keeps ?_
  refine State.dropStep_keeps ?_
  with_reducible assumption

theorem probeUses_keeps {M : Part → Prop} [Fact (M .host)] {s0 : State} {s : Sys2Proof.Machine.State}
    {w : Sys2Proof.Machine.Work} (hK : Keeps M s0 s) :
    Keeps M s0 (probeUses s w) := by
  unfold probeUses
  refine Keeps.foldl ?_ ?_
  · with_reducible assumption
  · intro x0
    intro x1
    intro x2
    extract_lets v3
    refine Keeps.ite ?_ ?_
    · intro x4
      refine State.appendAmax_keeps ?_
      with_reducible assumption
    · intro x5
      with_reducible assumption

theorem segmentProbed_keeps {M : Part → Prop} [Fact (M .host)] [Fact (M .ump)] {s0 : State} {s : Sys2Proof.Machine.State}
    {w : Sys2Proof.Machine.Work} (hK : Keeps M s0 s) :
    Keeps M s0 (segmentProbed s w) := by
  unfold segmentProbed
  refine State.modPStep_keeps ?_
  refine probeUses_keeps ?_
  with_reducible assumption

theorem appendUses_keeps {M : Part → Prop} [Fact (M .host)] {s0 : State} {s : Sys2Proof.Machine.State}
    {w : Sys2Proof.Machine.Work} (hK : Keeps M s0 s) :
    Keeps M s0 (appendUses s w) := by
  unfold appendUses
  extract_lets v0
  refine Keeps.foldl ?_ ?_
  · with_reducible assumption
  · intro x1
    intro x2
    intro x3
    extract_lets v4
    refine Keeps.ite ?_ ?_
    · intro x5
      refine State.appendAmax_keeps ?_
      with_reducible assumption
    · intro x6
      with_reducible assumption

theorem satTotals_keeps {M : Part → Prop} [Fact (M .host)] [Fact (M .ump)] {s0 : State} {s : Sys2Proof.Machine.State}
    {w : Sys2Proof.Machine.Work} (hK : Keeps M s0 s) :
    Keeps M s0 (satTotals s w) := by
  unfold satTotals
  extract_lets v0 v1
  refine State.modCtx_keeps ?_
  refine Keeps.mk' ?_ le_rfl rfl (fun x => x) (fun x => x) le_rfl
  with_reducible assumption

theorem satEvents_keeps {M : Part → Prop} [Fact (M .host)] {s0 : State} {s : Sys2Proof.Machine.State}
    {w : Sys2Proof.Machine.Work} {flagged : Bool} (hK : Keeps M s0 s) :
    Keeps M s0 (satEvents s w flagged) := by
  unfold satEvents
  refine Keeps.ite ?_ ?_
  · intro x0
    with_reducible assumption
  · intro x1
    refine Keeps.foldl ?_ ?_
    · with_reducible assumption
    · intro x2
      intro x3
      intro x4
      extract_lets v5
      refine Keeps.ite ?_ ?_
      · intro x6
        refine State.ctxEvent_keeps ?_
        with_reducible assumption
      · intro x7
        with_reducible assumption

theorem segmentDone_keeps {M : Part → Prop} [Fact (M .host)] [Fact (M .ump)] [Fact (M .lkr)] {s0 : State}
    {s : Sys2Proof.Machine.State} {w : Sys2Proof.Machine.Work} (hK : Keeps M s0 s) :
    Keeps M s0 (segmentDone s w) := by
  unfold segmentDone
  extract_lets v0 v1 v2 v3
  have h4 : Keeps M s0 v1 := by
    unfold v1
    refine skipEvents_keeps ?_
    refine satEvents_keeps ?_
    refine satTotals_keeps ?_
    refine appendUses_keeps ?_
    with_reducible assumption
  clear_value v1
  have h5 : Keeps M s0 v2 := by
    unfold v2
    refine State.countWork_keeps ?_
    refine State.chargeWork_keeps ?_
    with_reducible assumption
  clear_value v2
  have h6 : Keeps M s0 v3 := by
    unfold v3
    refine State.modPStep_keeps ?_
    with_reducible assumption
  clear_value v3
  refine Keeps.ite ?_ ?_
  · intro x7
    refine advanceStep_keeps ?_
    with_reducible assumption
  · intro x8
    with_reducible assumption

theorem State.winWrite_keeps {M : Part → Prop} [Fact (M .free)] [Fact (M .regs)] [Fact (M .host)] [Fact (M .ump)]
    [Fact (M .mem)] [Fact (M .scb)] [Fact (M .cells)] {s0 : State} {s : Sys2Proof.Machine.State} {c : ℕ} {off : ℕ}
    {data : List Sys2Proof.Byte} (hK : Keeps M s0 s) :
    Keeps M s0 (State.winWrite s c off data) := by
  unfold State.winWrite
  refine Keeps.ite ?_ ?_
  · intro x0
    refine State.countLines_keeps ?_
    refine State.lpWrite_keeps ?_
    with_reducible assumption
  · intro x1
    with_reducible assumption

theorem writeResult_keeps {M : Part → Prop} [Fact (M .free)] [Fact (M .regs)] [Fact (M .host)] [Fact (M .ump)] [Fact (M .mem)]
    [Fact (M .scb)] [Fact (M .cells)] {s0 : State} {k : Option Sys2Proof.Machine.ServeClass}
    {r : Sys2Proof.Machine.ReadyServe} {s : Sys2Proof.Machine.State} {p : Sys2Proof.Machine.EntryOutcome × ℕ}
    (hK : Keeps M s0 s) :
    Keeps M s0 (writeResult k r s p) := by
  unfold writeResult
  split
  · extract_lets v0
    split
    · refine Keeps.ite ?_ ?_
      · intro x1
        refine State.winWrite_keeps ?_
        with_reducible assumption
      · intro x2
        extract_lets v3 v4 v5 v6
        have h7 : Keeps M s0 v5 := by
          unfold v5
          refine State.modReq_keeps ?_
          with_reducible assumption
        clear_value v5
        have h8 : Keeps M s0 v6 := by
          unfold v6
          refine State.winWrite_keeps ?_
          with_reducible assumption
        clear_value v6
        refine Keeps.ite ?_ ?_
        · intro x9
          refine State.winWrite_keeps ?_
          with_reducible assumption
        · intro x10
          split
          · extract_lets v11
            refine State.winWrite_keeps ?_
            with_reducible assumption
          · with_reducible assumption
    · refine State.winWrite_keeps ?_
      with_reducible assumption

theorem serveDone_keeps {M : Part → Prop} [Fact (M .free)] [Fact (M .regs)] [Fact (M .host)] [Fact (M .ump)] [Fact (M .mem)]
    [Fact (M .scb)] [Fact (M .cells)] {s0 : State} {s : Sys2Proof.Machine.State} {w : Sys2Proof.Machine.Work}
    {r : Sys2Proof.Machine.ReadyServe} {len : ℕ} (hK : Keeps M s0 s) :
    Keeps M s0 (serveDone s w r len) := by
  unfold serveDone
  extract_lets v0 v1 v2 v3 v4 v5 v6 v7 v8
  have h9 : Keeps M s0 v2 := by
    unfold v2
    refine Keeps.foldl ?_ ?_
    · with_reducible assumption
    · intro x10
      intro x11
      intro x12
      refine writeResult_keeps ?_
      with_reducible assumption
  clear_value v2
  have h13 : Keeps M s0 v3 := by
    unfold v3
    refine skipEvents_keeps ?_
    refine satEvents_keeps ?_
    refine satTotals_keeps ?_
    refine appendUses_keeps ?_
    with_reducible assumption
  clear_value v3
  have h14 : Keeps M s0 v4 := by
    unfold v4
    refine State.countWork_keeps ?_
    refine State.chargeWork_keeps ?_
    with_reducible assumption
  clear_value v4
  have h15 : Keeps M s0 v8 := by
    unfold v8
    refine State.dropServe_keeps ?_
    with_reducible assumption
  clear_value v8
  refine State.complete_keeps ?_
  with_reducible assumption

theorem settleWork_keeps {M : Part → Prop} [Fact (M .free)] [Fact (M .regs)] [Fact (M .host)] [Fact (M .ump)] [Fact (M .lkr)]
    [Fact (M .mem)] [Fact (M .scb)] [Fact (M .cells)] {s0 : State} {len : ℕ} {s : Sys2Proof.Machine.State}
    {w : Sys2Proof.Machine.Work} (hK : Keeps M s0 s) :
    Keeps M s0 (settleWork len s w) := by
  unfold settleWork
  split
  · refine Keeps.elim ?_ ?_
    · with_reducible assumption
    · intro x0
      refine serveDone_keeps ?_
      with_reducible assumption
  · extract_lets v1 v2
    have h3 : Keeps M s0 v1 := by
      unfold v1
      refine State.chargeWork_keeps ?_
      refine probeUses_keeps ?_
      with_reducible assumption
    clear_value v1
    refine Keeps.mk' ?_ le_rfl rfl (fun x => x) (fun x => x) le_rfl
    with_reducible assumption
  · refine segmentDone_keeps ?_
    with_reducible assumption
  · extract_lets v4
    have h5 : Keeps M s0 v4 := by
      unfold v4
      refine Keeps.ite ?_ ?_
      · intro x6
        refine segmentProbed_keeps ?_
        with_reducible assumption
      · intro x7
        with_reducible assumption
    clear_value v4
    refine State.chargeWork_keeps ?_
    with_reducible assumption

theorem flagSteps_keeps {M : Part → Prop} [Fact (M .ump)] {s0 : State} {s : Sys2Proof.Machine.State} (hK : Keeps M s0 s) :
    Keeps M s0 (flagSteps s) := by
  unfold flagSteps
  refine Keeps.foldl ?_ ?_
  · with_reducible assumption
  · intro x0
    intro x1
    intro x2
    refine State.modPStep_keeps ?_
    with_reducible assumption

theorem settleSlot_keeps {M : Part → Prop} [Fact (M .free)] [Fact (M .regs)] [Fact (M .host)] [Fact (M .ump)] [Fact (M .lkr)]
    [Fact (M .mem)] [Fact (M .scb)] [Fact (M .cells)] {s0 : State} {s : Sys2Proof.Machine.State} {len : ℕ} (hK : Keeps M s0 s)
    :
    Keeps M s0 (settleSlot s len) := by
  unfold settleSlot
  extract_lets v0 v1 v2
  have h3 : Keeps M s0 v0 := by
    unfold v0
    refine flagSteps_keeps ?_
    with_reducible assumption
  clear_value v0
  have h4 : Keeps M s0 v2 := by
    unfold v2
    refine Keeps.foldl ?_ ?_
    · refine Keeps.mk' ?_ le_rfl rfl (fun x => x) (fun x => x) le_rfl
      with_reducible assumption
    · intro x5
      intro x6
      intro x7
      refine settleWork_keeps ?_
      with_reducible assumption
  clear_value v2
  refine Keeps.foldl ?_ ?_
  · with_reducible assumption
  · intro x8
    intro x9
    intro x10
    refine stepDone_keeps ?_
    with_reducible assumption

theorem State.discardDone_keeps {M : Part → Prop} [Fact (M .ump)] {s0 : State} {s : Sys2Proof.Machine.State} {did : ℕ}
    {slotNs : ℕ} (hK : Keeps M s0 s) :
    Keeps M s0 (State.discardDone s did slotNs) := by
  unfold State.discardDone
  split
  · with_reducible assumption
  · refine State.chargeWork_keeps ?_
    refine Keeps.mk' ?_ le_rfl rfl (fun x => x) (fun x => x) le_rfl
    with_reducible assumption

theorem faultStep_keeps {M : Part → Prop} [Fact (M .free)] [Fact (M .regs)] [Fact (M .host)] [Fact (M .ump)] [Fact (M .lkr)]
    [Fact (M .mem)] [Fact (M .scb)] [Fact (M .rdc)] [Fact (M .cells)] {s0 : State} {s : Sys2Proof.Machine.State}
    {g : Sys2Proof.Machine.GroupStep} {c : ℕ} {slotNs : ℕ} (hK : Keeps M s0 s) :
    Keeps M s0 (faultStep s g c slotNs) := by
  unfold faultStep
  extract_lets v0 v1 v2 v3
  have h4 : Keeps M s0 v0 := by
    unfold v0
    refine State.discardDone_keeps ?_
    with_reducible assumption
  clear_value v0
  have h5 : Keeps M s0 v1 := by
    unfold v1
    refine Keeps.ite ?_ ?_
    · intro x6
      with_reducible assumption
    · intro x7
      split
      · refine State.endServe_keeps ?_
        with_reducible assumption
      · split
        · refine State.atSlotEnd_keeps ?_
          refine State.dropStep_keeps ?_
          with_reducible assumption
        · with_reducible assumption
  clear_value v1
  have h8 : Keeps M s0 v3 := by
    unfold v3
    refine Keeps.mk' ?_ le_rfl rfl (fun x => x) (fun x => x) le_rfl
    with_reducible assumption
  clear_value v3
  refine State.fault_keeps ?_
  with_reducible assumption

theorem repeatStep_keeps {M : Part → Prop} [Fact (M .regs)] [Fact (M .ump)] [Fact (M .rdc)] {s0 : State}
    {s : Sys2Proof.Machine.State} {g : Sys2Proof.Machine.GroupStep} {v : Sys2Proof.Machine.Vote} {slotNs : ℕ}
    (hK : Keeps M s0 s) :
    Keeps M s0 (repeatStep s g v slotNs) := by
  unfold repeatStep
  extract_lets v0 v1 v2 v3 v4 v5 v6
  have h7 : Keeps M s0 v0 := by
    unfold v0
    refine State.bump_keeps ?_
    with_reducible assumption
  clear_value v0
  have h8 : Keeps M s0 v4 := by
    unfold v4
    refine State.discardDone_keeps ?_
    with_reducible assumption
  clear_value v4
  refine Keeps.ite ?_ ?_
  · intro x9
    with_reducible assumption
  · intro x10
    refine Keeps.mk' ?_ le_rfl rfl (fun x => x) (fun x => x) le_rfl
    with_reducible assumption

theorem commitStep_keeps {M : Part → Prop} [Fact (M .host)] [Fact (M .rdc)] {s0 : State} {s : Sys2Proof.Machine.State}
    {g : Sys2Proof.Machine.GroupStep} {v : Sys2Proof.Machine.Vote} {c : ℕ} (hK : Keeps M s0 s) :
    Keeps M s0 (commitStep s g v c) := by
  unfold commitStep
  split
  · with_reducible assumption
  · extract_lets v0 v1 v2 v3 v4
    have h5 : Keeps M s0 v3 := by
      unfold v3
      refine Keeps.foldl ?_ ?_
      · with_reducible assumption
      · intro x6
        intro x7
        intro x8
        refine State.appendAmax_keeps ?_
        with_reducible assumption
    clear_value v3
    refine Keeps.mk' ?_ le_rfl rfl (fun x => x) (fun x => x) le_rfl
    with_reducible assumption

theorem State.faultSelf_keeps {M : Part → Prop} [Fact (M .rdc)] {s0 : State} {s : Sys2Proof.Machine.State} (hK : Keeps M s0 s) :
    Keeps M s0 (State.faultSelf s) := by
  unfold State.faultSelf
  split
  · refine Keeps.ite ?_ ?_
    · intro x0
      with_reducible assumption
    · intro x1
      refine State.snapshot_keeps ?_
      refine State.modStep_keeps ?_
      with_reducible assumption
  · with_reducible assumption

theorem State.verdictAction_keeps {M : Part → Prop} [Fact (M .free)] [Fact (M .regs)] [Fact (M .host)] [Fact (M .ump)]
    [Fact (M .lkr)] [Fact (M .mem)] [Fact (M .scb)] [Fact (M .rdc)] [Fact (M .cells)] {s0 : State}
    {s : Sys2Proof.Machine.State} {t : Sys2Proof.Machine.Slot} (hK : Keeps M s0 s) :
    Keeps M s0 (State.verdictAction s t) := by
  unfold State.verdictAction
  split
  · with_reducible assumption
  · refine Keeps.ite ?_ ?_
    · intro x0
      refine Keeps.mk' ?_ le_rfl rfl (fun x => x) (fun x => x) le_rfl
      with_reducible assumption
    · intro x1
      refine Keeps.ite ?_ ?_
      · intro x2
        with_reducible assumption
      · intro x3
        extract_lets v4 v5 v6 v7 v8 v9 v10 v11 v12 v13 v14 v15 v16
        have h17 : Keeps M s0 v4 := by
          unfold v4
          refine State.faultSelf_keeps ?_
          with_reducible assumption
        clear_value v4
        have h18 : Keeps M s0 v12 := by
          unfold v12
          refine State.setFld_keeps ?_
          with_reducible assumption
        clear_value v12
        have h19 : Keeps M s0 v13 := by
          unfold v13
          refine Keeps.ite ?_ ?_
          · intro x20
            refine State.ctxEvent_keeps ?_
            with_reducible assumption
          · intro x21
            with_reducible assumption
        clear_value v13
        have h22 : Keeps M s0 v14 := by
          unfold v14
          refine Keeps.ite ?_ ?_
          · intro x23
            refine State.opEvent_keeps ?_
            with_reducible assumption
          · intro x24
            with_reducible assumption
        clear_value v14
        have h25 : Keeps M s0 v15 := by
          unfold v15
          split
          · refine commitStep_keeps ?_
            with_reducible assumption
          · refine repeatStep_keeps ?_
            with_reducible assumption
          · refine faultStep_keeps ?_
            with_reducible assumption
        clear_value v15
        refine Keeps.mk' ?_ le_rfl rfl (fun x => x) (fun x => x) le_rfl
        with_reducible assumption

theorem slotEffects_keeps {M : Part → Prop} [Fact (M .free)] [Fact (M .regs)] [Fact (M .host)] [Fact (M .ump)] [Fact (M .lkr)]
    [Fact (M .mem)] [Fact (M .scb)] [Fact (M .mgl)] [Fact (M .rdc)] [Fact (M .cells)] {s0 : State}
    {s : Sys2Proof.Machine.State} {t : Sys2Proof.Machine.Slot} (hK : Keeps M s0 s) :
    Keeps M s0 (slotEffects s t) := by
  unfold slotEffects
  extract_lets v0 v1 v2 v3 v4 v5 v6 v7 v8
  have h9 : Keeps M s0 v1 := by
    unfold v1
    refine State.verdictAction_keeps ?_
    with_reducible assumption
  clear_value v1
  have h10 : Keeps M s0 v2 := by
    unfold v2
    refine settleSlot_keeps ?_
    with_reducible assumption
  clear_value v2
  have h11 : Keeps M s0 v3 := by
    unfold v3
    refine flushEvents_keeps ?_
    refine flushCompletions_keeps ?_
    with_reducible assumption
  clear_value v3
  have h12 : Keeps M s0 v4 := by
    unfold v4
    refine State.chargeStatic_keeps ?_
    refine reportOverrun_keeps ?_
    with_reducible assumption
  clear_value v4
  have h13 : Keeps M s0 v5 := by
    unfold v5
    refine samplePmu_keeps ?_
    refine updateAccts_keeps ?_
    with_reducible assumption
  clear_value v5
  have h14 : Keeps M s0 v6 := by
    unfold v6
    refine State.reportDrops_keeps ?_
    with_reducible assumption
  clear_value v6
  refine Keeps.mk' ?_ le_rfl rfl (fun x => x) (fun x => x) le_rfl
  with_reducible assumption

theorem State.vfReset_keeps {M : Part → Prop} [Fact (M .free)] [Fact (M .regs)] [Fact (M .host)] [Fact (M .ump)]
    [Fact (M .lkr)] [Fact (M .mem)] [Fact (M .scb)] [Fact (M .mgl)] [Fact (M .rdc)] [Fact (M .wst)] [Fact (M .eng)]
    [Fact (M .cells)] {s0 : State} {s : Sys2Proof.Machine.State} {p : Sys2Proof.Machine.Port} {func : ℕ} (hK : Keeps M s0 s) :
    Keeps M s0 (State.vfReset s p func) := by
  unfold State.vfReset
  extract_lets v0 v1 v2 v3
  have h4 : Keeps M s0 v0 := by
    unfold v0
    refine Keeps.foldl ?_ ?_
    · with_reducible assumption
    · intro x5
      intro x6
      intro x7
      refine State.tearDown_keeps ?_
      with_reducible assumption
  clear_value v0
  have h8 : Keeps M s0 v2 := by
    unfold v2
    refine Keeps.foldl ?_ ?_
    · with_reducible assumption
    · intro x9
      intro x10
      intro x11
      refine State.setReg_keeps ?_
      with_reducible assumption
  clear_value v2
  have h12 : Keeps M s0 v3 := by
    unfold v3
    refine State.modPort_keeps ?_
    with_reducible assumption
  clear_value v3
  refine returnFlags_keeps ?_
  with_reducible assumption

theorem State.putShard_keeps [Fact (M .mem)] [Fact (M .cells)] {s0 s : State} {w : ShardWrite} {die : Nat} (h : Keeps M s0 s)
    : Keeps M s0 (s.putShard w die) :=
  h.setCells (fun k => Memory.wf_writeBytes _ _ (Memory.wf_clear _ _ k))

theorem State.modLoad_keeps {M : Part → Prop} [Fact (M .wst)] {s0 : State} {s : Sys2Proof.Machine.State}
    {f : Sys2Proof.Machine.WsLoad → Sys2Proof.Machine.WsLoad} (hK : Keeps M s0 s) :
    Keeps M s0 (State.modLoad s f) := by
  unfold State.modLoad
  refine Keeps.mk' ?_ le_rfl rfl (fun x => x) (fun x => x) le_rfl
  with_reducible assumption

theorem loadDone_keeps {M : Part → Prop} [Fact (M .host)] {s0 : State} {s : Sys2Proof.Machine.State} {target : ℕ} {reason : ℕ}
    (hK : Keeps M s0 s) :
    Keeps M s0 (loadDone s target reason) := by
  unfold loadDone
  refine State.opEvent_keeps ?_
  with_reducible assumption

theorem State.loadFails_keeps {M : Part → Prop} [Fact (M .regs)] [Fact (M .host)] [Fact (M .wst)] {s0 : State}
    {s : Sys2Proof.Machine.State} {reason : ℕ} (hK : Keeps M s0 s) :
    Keeps M s0 (State.loadFails s reason) := by
  unfold State.loadFails
  split
  · with_reducible assumption
  · extract_lets v0 v1 v2
    have h3 : Keeps M s0 v0 := by
      unfold v0
      refine Keeps.foldl ?_ ?_
      · with_reducible assumption
      · intro x4
        intro x5
        intro x6
        refine State.setBank_keeps ?_
        with_reducible assumption
    clear_value v0
    have h7 : Keeps M s0 v1 := by
      unfold v1
      refine State.setLoadStatus_keeps ?_
      with_reducible assumption
    clear_value v1
    refine loadDone_keeps ?_
    refine Keeps.mk' ?_ le_rfl rfl (fun x => x) (fun x => x) le_rfl
    with_reducible assumption

theorem State.writeNext_keeps {M : Part → Prop} [Fact (M .regs)] [Fact (M .host)] [Fact (M .mem)] [Fact (M .wst)]
    [Fact (M .cells)] {s0 : State} {s : Sys2Proof.Machine.State} (hK : Keeps M s0 s) :
    Keeps M s0 (State.writeNext s) := by
  unfold State.writeNext
  split
  · with_reducible assumption
  · split
    · split
      · refine State.loadFails_keeps ?_
        with_reducible assumption
      · extract_lets v0
        refine State.modLoad_keeps ?_
        refine State.putShard_keeps ?_
        with_reducible assumption
    · with_reducible assumption

theorem State.forwardShard_keeps {M : Part → Prop} [Fact (M .regs)] [Fact (M .scb)] [Fact (M .mgl)] [Fact (M .wst)]
    {s0 : State} {s : Sys2Proof.Machine.State} {x : ℕ} {data : List Sys2Proof.Byte} (hK : Keeps M s0 s) :
    Keeps M s0 (State.forwardShard s x data) := by
  unfold State.forwardShard
  extract_lets v0 v1 v2 v3 v4
  have h5 : Keeps M s0 v1 := by
    unfold v1
    refine Keeps.elim ?_ ?_
    · with_reducible assumption
    · intro x6
      refine State.sendLoad_keeps ?_
      with_reducible assumption
  clear_value v1
  have h7 : Keeps M s0 v4 := by
    unfold v4
    refine Keeps.mk' ?_ le_rfl rfl (fun x => x) (fun x => x) le_rfl
    with_reducible assumption
  clear_value v4
  refine State.modLoad_keeps ?_
  with_reducible assumption

theorem State.forwardHeld_keeps {M : Part → Prop} [Fact (M .regs)] [Fact (M .scb)] [Fact (M .mgl)] [Fact (M .wst)]
    {s0 : State} {s : Sys2Proof.Machine.State} (hK : Keeps M s0 s) :
    Keeps M s0 (State.forwardHeld s) := by
  unfold State.forwardHeld
  extract_lets v0
  refine Keeps.foldl ?_ ?_
  · with_reducible assumption
  · intro x1
    intro x2
    intro x3
    unfold v0
    split
    · with_reducible assumption
    · refine Keeps.ite ?_ ?_
      · intro x4
        refine State.forwardShard_keeps ?_
        with_reducible assumption
      · intro x5
        with_reducible assumption

theorem State.askResend_keeps {M : Part → Prop} [Fact (M .regs)] [Fact (M .scb)] [Fact (M .mgl)] [Fact (M .wst)] {s0 : State}
    {s : Sys2Proof.Machine.State} {rank : ℕ} {x : ℕ} (hK : Keeps M s0 s) :
    Keeps M s0 (State.askResend s rank x) := by
  unfold State.askResend
  refine State.send_keeps ?_
  refine State.modLoad_keeps ?_
  with_reducible assumption

theorem State.needShard_keeps {M : Part → Prop} [Fact (M .host)] [Fact (M .wst)] {s0 : State} {s : Sys2Proof.Machine.State}
    {x : ℕ} (hK : Keeps M s0 s) :
    Keeps M s0 (State.needShard s x) := by
  unfold State.needShard
  split
  · with_reducible assumption
  · extract_lets v0
    have h1 : Keeps M s0 v0 := by
      unfold v0
      refine State.modLoad_keeps ?_
      with_reducible assumption
    clear_value v0
    refine State.opEvent_keeps ?_
    with_reducible assumption

theorem State.shardFailed_keeps {M : Part → Prop} [Fact (M .regs)] [Fact (M .host)] [Fact (M .scb)] [Fact (M .mgl)]
    [Fact (M .wst)] {s0 : State} {s : Sys2Proof.Machine.State} {l : Sys2Proof.Machine.WsLoad} {x : ℕ}
    {src : Sys2Proof.Machine.ShardFrom} (hK : Keeps M s0 s) :
    Keeps M s0 (State.shardFailed s l x src) := by
  unfold State.shardFailed
  split
  · refine Keeps.ite ?_ ?_
    · intro x0
      refine State.loadFails_keeps ?_
      with_reducible assumption
    · intro x1
      refine State.needShard_keeps ?_
      with_reducible assumption
  · refine Keeps.ite ?_ ?_
    · intro x2
      refine State.loadFails_keeps ?_
      with_reducible assumption
    · intro x3
      refine State.modLoad_keeps ?_
      with_reducible assumption
  · refine Keeps.ite ?_ ?_
    · intro x4
      with_reducible assumption
    · intro x5
      refine Keeps.ite ?_ ?_
      · intro x6
        refine State.needShard_keeps ?_
        with_reducible assumption
      · intro x7
        refine State.askResend_keeps ?_
        with_reducible assumption

theorem State.shardArrives_keeps {M : Part → Prop} [Fact (M .regs)] [Fact (M .host)] [Fact (M .mem)] [Fact (M .scb)]
    [Fact (M .mgl)] [Fact (M .wst)] [Fact (M .cells)] {s0 : State} {s : Sys2Proof.Machine.State} {x : ℕ}
    {data : List Sys2Proof.Byte} {src : Sys2Proof.Machine.ShardFrom} (hK : Keeps M s0 s) :
    Keeps M s0 (State.shardArrives s x data src) := by
  unfold State.shardArrives
  split
  · with_reducible assumption
  · split
    · refine State.modLoad_keeps ?_
      with_reducible assumption
    · extract_lets v0 v1
      have h2 : Keeps M s0 v1 := by
        unfold v1
        refine State.modLoad_keeps ?_
        with_reducible assumption
      clear_value v1
      refine Keeps.ite ?_ ?_
      · intro x3
        with_reducible assumption
      · intro x4
        refine Keeps.ite ?_ ?_
        · intro x5
          refine State.shardFailed_keeps ?_
          with_reducible assumption
        · intro x6
          refine State.forwardHeld_keeps ?_
          refine State.writeNext_keeps ?_
          with_reducible assumption

theorem State.takePiece_keeps {M : Part → Prop} [Fact (M .regs)] [Fact (M .host)] [Fact (M .mem)] [Fact (M .scb)]
    [Fact (M .mgl)] [Fact (M .wst)] [Fact (M .cells)] {s0 : State} {s : Sys2Proof.Machine.State} {x : ℕ}
    {data : List Sys2Proof.Byte} {src : Sys2Proof.Machine.ShardFrom} (hK : Keeps M s0 s) :
    Keeps M s0 (State.takePiece s x data src) := by
  unfold State.takePiece
  split
  · with_reducible assumption
  · extract_lets v0
    refine Keeps.ite ?_ ?_
    · intro x1
      refine State.modLoad_keeps ?_
      with_reducible assumption
    · intro x2
      refine State.shardArrives_keeps ?_
      refine State.modLoad_keeps ?_
      with_reducible assumption

theorem State.takeBytes_keeps {M : Part → Prop} [Fact (M .regs)] [Fact (M .host)] [Fact (M .mem)] [Fact (M .scb)]
    [Fact (M .mgl)] [Fact (M .wst)] [Fact (M .cells)] {s0 : State} {s : Sys2Proof.Machine.State} {off : ℕ}
    {data : List Sys2Proof.Byte} {src : Sys2Proof.Machine.ShardFrom} (hK : Keeps M s0 s) :
    Keeps M s0 (State.takeBytes s off data src) := by
  unfold State.takeBytes
  split
  · with_reducible assumption
  · extract_lets v0 v1
    clear_value v1
    clear_value v0
    split
    · refine State.modLoad_keeps ?_
      with_reducible assumption
    · extract_lets v2 v3 v4 v5
      have h6 : Keeps M s0 v3 := by
        unfold v3
        refine Keeps.ite ?_ ?_
        · intro x7
          with_reducible assumption
        · intro x8
          refine State.modLoad_keeps ?_
          with_reducible assumption
      clear_value v3
      refine Keeps.ite ?_ ?_
      · intro x9
        with_reducible assumption
      · intro x10
        refine Keeps.foldl ?_ ?_
        · with_reducible assumption
        · intro x11
          intro x12
          intro x13
          extract_lets v14 v15 v16
          refine State.takePiece_keeps ?_
          with_reducible assumption

theorem State.setLatch_keeps {M : Part → Prop} [Fact (M .host)] {s0 : State} {s : Sys2Proof.Machine.State}
    {p : Sys2Proof.Machine.Port} {off : ℕ} {v : ℕ} (hK : Keeps M s0 s) :
    Keeps M s0 (State.setLatch s p off v) := by
  unfold State.setLatch
  refine Keeps.ite ?_ ?_
  · intro x0
    refine Keeps.mk' ?_ le_rfl rfl (fun x => x) (fun x => x) le_rfl
    with_reducible assumption
  · intro x1
    refine State.modPort_keeps ?_
    with_reducible assumption

theorem State.readLo_keeps {M : Part → Prop} [Fact (M .host)] {s0 : State} {s : Sys2Proof.Machine.State}
    {p : Sys2Proof.Machine.Port} {hiOff : ℕ} {value : ℕ} (hK : Keeps M s0 s) :
    Keeps M s0 (State.readLo s p hiOff value) := by
  unfold State.readLo
  refine State.emit_keeps ?_
  refine State.setLatch_keeps ?_
  with_reducible assumption

theorem State.extendSlot_keeps {M : Part → Prop} [Fact (M .ump)] {s0 : State} {s : Sys2Proof.Machine.State} (hK : Keeps M s0 s) :
    Keeps M s0 (State.extendSlot s) := by
  unfold State.extendSlot
  split
  · refine Keeps.ite ?_ ?_
    · intro x0
      extract_lets v1 v2 v3
      have h4 : Keeps M s0 v2 := by
        unfold v2
        refine Keeps.ite ?_ ?_
        · intro x5
          with_reducible assumption
        · intro x6
          refine State.chargeDiscard_keeps ?_
          with_reducible assumption
      clear_value v2
      refine Keeps.mk' ?_ le_rfl rfl (fun x => x) (fun x => x) le_rfl
      with_reducible assumption
    · intro x7
      with_reducible assumption
  · with_reducible assumption

theorem State.fenceWd_keeps {M : Part → Prop} [Fact (M .free)] [Fact (M .regs)] [Fact (M .host)] [Fact (M .ump)]
    [Fact (M .lkr)] [Fact (M .mem)] [Fact (M .scb)] [Fact (M .mgl)] [Fact (M .rdc)] [Fact (M .wst)] [Fact (M .eng)]
    [Fact (M .cells)] {s0 : State} {s : Sys2Proof.Machine.State} {die : ℕ} (hK : Keeps M s0 s) :
    Keeps M s0 (State.fenceWd s die) := by
  unfold State.fenceWd
  extract_lets v0 v1 v2 v3 v4 v5
  have h6 : Keeps M s0 v5 := by
    unfold v5
    refine Keeps.mk' ?_ le_rfl rfl (fun x => x) (fun x => x) le_rfl
    with_reducible assumption
  clear_value v5
  refine Keeps.ite ?_ ?_
  · intro x7
    refine Keeps.foldl ?_ ?_
    · with_reducible assumption
    · intro x8
      intro x9
      intro x10
      refine State.issueFetch_keeps ?_
      with_reducible assumption
  · intro x11
    refine Keeps.foldl ?_ ?_
    · with_reducible assumption
    · intro x12
      intro x13
      intro x14
      refine State.fenceShard_keeps ?_
      with_reducible assumption

theorem State.fencePort_keeps {M : Part → Prop} [Fact (M .regs)] [Fact (M .host)] [Fact (M .mgl)] {s0 : State}
    {s : Sys2Proof.Machine.State} {port : ℕ} (hK : Keeps M s0 s) :
    Keeps M s0 (State.fencePort s port) := by
  unfold State.fencePort
  extract_lets v0
  have h1 : Keeps M s0 v0 := by
    unfold v0
    refine State.linkDown_keeps ?_
    with_reducible assumption
  clear_value v0
  refine State.setReg_keeps ?_
  with_reducible assumption

theorem State.clearBit_keeps {M : Part → Prop} [Fact (M .regs)] {s0 : State} {s : Sys2Proof.Machine.State} {key : ℕ} {i : ℕ}
    (hK : Keeps M s0 s) :
    Keeps M s0 (State.clearBit s key i) := by
  unfold State.clearBit
  refine State.setFld_keeps ?_
  with_reducible assumption

theorem State.fenceChannels_keeps {M : Part → Prop} [Fact (M .regs)] {s0 : State} {s : Sys2Proof.Machine.State} {ks : List ℕ}
    (hK : Keeps M s0 s) :
    Keeps M s0 (State.fenceChannels s ks) := by
  unfold State.fenceChannels
  extract_lets v0
  have h1 : Keeps M s0 v0 := by
    unfold v0
    refine Keeps.foldl ?_ ?_
    · with_reducible assumption
    · intro x2
      intro x3
      intro x4
      refine State.clearBit_keeps ?_
      with_reducible assumption
  clear_value v0
  refine State.setFld_keeps ?_
  with_reducible assumption

theorem State.fenceCourt_keeps {M : Part → Prop} [Fact (M .regs)] [Fact (M .ump)] [Fact (M .err)] {s0 : State}
    {s : Sys2Proof.Machine.State} {court : ℕ} {serve : Option ℕ} (hK : Keeps M s0 s) :
    Keeps M s0 (State.fenceCourt s court serve) := by
  unfold State.fenceCourt
  extract_lets v0 v1 v2
  have h3 : Keeps M s0 v0 := by
    unfold v0
    refine State.setCap_keeps ?_
    refine State.clearBit_keeps ?_
    with_reducible assumption
  clear_value v0
  have h4 : Keeps M s0 v2 := by
    unfold v2
    refine Keeps.mk' ?_ le_rfl rfl (fun x => x) (fun x => x) le_rfl
    with_reducible assumption
  clear_value v2
  refine State.fenceSchedules_keeps ?_
  with_reducible assumption

theorem State.fenceUnit_keeps [Fact (M .free)] [Fact (M .regs)] [Fact (M .host)] [Fact (M .ump)] [Fact (M .lkr)]
    [Fact (M .mem)] [Fact (M .err)] [Fact (M .scb)] [Fact (M .mgl)] [Fact (M .rdc)] [Fact (M .wst)] [Fact (M .eng)]
    [Fact (M .cells)] {s0 s : State} {p : PendingFault} (hK : Keeps M s0 s) : Keeps M s0 (s.fenceUnit p) := by
  unfold State.fenceUnit
  dsimp only
  split
  · exact Keeps.ite (fun _ => State.failDevice_keeps (State.fault_keeps (State.fenceCourt_keeps hK)))
      (fun _ => State.fault_keeps (State.fenceCourt_keeps hK))
  · exact Keeps.ite (fun _ => State.failDevice_keeps (State.fault_keeps (State.fenceCourt_keeps hK)))
      (fun _ => State.fault_keeps (State.fenceCourt_keeps hK))
  · exact Keeps.ite (fun _ => State.failDevice_keeps (State.fault_keeps (State.fenceCourt_keeps hK)))
      (fun _ => State.fault_keeps (State.fenceCourt_keeps hK))
  · exact Keeps.ite (fun _ => State.failDevice_keeps (State.fault_keeps (State.fenceCourt_keeps hK)))
      (fun _ => State.fault_keeps (State.fenceCourt_keeps hK))
  · exact State.fault_keeps (State.fenceSchedules_keeps (State.clearBit_keeps hK))
  · exact State.loseOwners_keeps (Keeps.foldl (State.fenceChannels_keeps hK) (fun t x h => State.fault_keeps h))
  · exact State.loseOwners_keeps (Keeps.foldl (State.fenceChannels_keeps hK) (fun t x h => State.fault_keeps h))
  · exact State.fault_keeps (State.fencePort_keeps hK)
  · exact State.fault_keeps (Keeps.foldl hK (fun t x h => State.fencePort_keeps h))
  · have h1 : Keeps M s0 (p.entries.foldl State.loseEntry ((s.clearBit R.lkrOnline p.unit).fault (fenceRecord p 10 p.unit []))) :=
      Keeps.foldl (State.fault_keeps (State.clearBit_keeps hK)) (fun t x h => State.loseEntry_keeps h)
    exact Keeps.ite (fun _ => State.failDevice_keeps h1) (fun _ => h1)
  · exact State.fault_keeps (State.fenceWd_keeps hK)
  · exact hK

theorem State.setSession_keeps {M : Part → Prop} [Fact (M .ref)] {s0 : State} {s : Sys2Proof.Machine.State} {n : ℕ}
    {t : Sys2Proof.Machine.Session} (hK : Keeps M s0 s) :
    Keeps M s0 (State.setSession s n t) := by
  unfold State.setSession
  refine Keeps.mk' ?_ le_rfl rfl (fun x => x) (fun x => x) le_rfl
  with_reducible assumption

theorem newTicket_keeps {M : Part → Prop} [Fact (M .free)] {s0 : State} {s : Sys2Proof.Machine.State} (hK : Keeps M s0 s) :
    Keeps M s0 (newTicket s).2 := by
  unfold newTicket
  dsimp only
  refine State.freed_keeps ?_
  with_reducible assumption

theorem State.signed_keeps {M : Part → Prop} [Fact (M .free)] {s0 : State} {s : Sys2Proof.Machine.State}
    {msg : List Sys2Proof.Byte} (hK : Keeps M s0 s) :
    Keeps M s0 (State.signed s msg).2 := by
  unfold State.signed
  dsimp only
  refine State.freed_keeps ?_
  with_reducible assumption

theorem State.rotate_keeps {M : Part → Prop} [Fact (M .mem)] {s0 : State} {s : Sys2Proof.Machine.State} {slot : ℕ}
    (hK : Keeps M s0 s) :
    Keeps M s0 (State.rotate s slot) := by
  unfold State.rotate
  split
  · with_reducible assumption
  · extract_lets v0 v1 v2
    refine Keeps.mk' ?_ le_rfl rfl (fun x => x) (fun x => x) le_rfl
    with_reducible assumption

theorem bindTo_keeps [Fact (M .free)] [Fact (M .ref)] {s0 s : State} {sess : Nat} {k : SpdmSession} {tenant slot n : Nat}
    (hK : Keeps M s0 s) :
    KeepsT M s0 (bindTo s sess k tenant slot n) := State.setSpdm_keeps (State.setSession_keeps (State.freed_keeps hK))

theorem State.spdmIn_keeps {M : Part → Prop} [Fact (M .host)] {s0 : State} {s : Sys2Proof.Machine.State}
    {p : Sys2Proof.Machine.Port} {code : ℕ} {sess : ℕ}
    {act : Sys2Proof.Machine.SpdmSession → Sys2Proof.Machine.State → Sys2Proof.Machine.State}
    (hact : ∀ (y0 : SpdmSession) (y1 : State), Keeps M s0 y1 → Keeps M s0 (act y0 y1)) (hK : Keeps M s0 s) :
    Keeps M s0 (State.spdmIn s p code sess act) := by
  unfold State.spdmIn
  refine State.spdm_keeps ?_ ?_
  · intro x0
    intro x1
    split
    · refine Keeps.ite ?_ ?_
      · intro x2
        with_reducible apply hact
        with_reducible assumption
      · intro x3
        refine State.spdmError_keeps ?_
        with_reducible assumption
    · refine State.spdmError_keeps ?_
      with_reducible assumption
  · with_reducible assumption

theorem State.setProfiling_keeps {M : Part → Prop} [Fact (M .regs)] [Fact (M .ref)] {s0 : State} {s : Sys2Proof.Machine.State}
    {on : Bool} (hK : Keeps M s0 s) :
    Keeps M s0 (State.setProfiling s on) := by
  unfold State.setProfiling
  extract_lets v0 v1 v2
  have h3 : Keeps M s0 v0 := by
    unfold v0
    refine State.extendMrBytes_keeps ?_
    with_reducible assumption
  clear_value v0
  have h4 : Keeps M s0 v1 := by
    unfold v1
    refine State.setFld_keeps ?_
    with_reducible assumption
  clear_value v1
  refine Keeps.mk' ?_ le_rfl rfl (fun x => x) (fun x => x) le_rfl
  with_reducible assumption

theorem State.wordFails_keeps {M : Part → Prop} [Fact (M .free)] [Fact (M .regs)] [Fact (M .host)] [Fact (M .ump)]
    [Fact (M .lkr)] [Fact (M .mem)] [Fact (M .err)] [Fact (M .scb)] [Fact (M .mgl)] [Fact (M .rdc)] [Fact (M .wst)]
    [Fact (M .eng)] [Fact (M .cells)] {s0 : State} {s : Sys2Proof.Machine.State} {a : ℕ} {rewriteOk : Bool}
    (hK : Keeps M s0 s) :
    Keeps M s0 (State.wordFails s a rewriteOk) := by
  unfold State.wordFails
  extract_lets v0 v1 v2
  have h3 : Keeps M s0 v0 := by
    unfold v0
    refine State.bump_keeps ?_
    with_reducible assumption
  clear_value v0
  refine Keeps.ite ?_ ?_
  · intro x4
    refine Keeps.ite ?_ ?_
    · intro x5
      refine State.fault_keeps ?_
      refine State.stopWork_keeps ?_
      with_reducible assumption
    · intro x6
      refine Keeps.ite ?_ ?_
      · intro x7
        refine State.detect_keeps ?_
        with_reducible assumption
      · intro x8
        with_reducible assumption
  · intro x9
    refine State.unitFails_keeps ?_
    with_reducible assumption

theorem State.countLookup_keeps {M : Part → Prop} [Fact (M .regs)] [Fact (M .scb)] {s0 : State} {s : Sys2Proof.Machine.State}
    {c : ℕ} {adapter : ℕ} (hK : Keeps M s0 s) :
    Keeps M s0 (State.countLookup s c adapter) := by
  unfold State.countLookup
  refine State.count_keeps ?_
  with_reducible assumption

theorem blockFault_keeps {M : Part → Prop} [Fact (M .free)] [Fact (M .regs)] [Fact (M .host)] [Fact (M .scb)] {s0 : State}
    {s : Sys2Proof.Machine.State} {unit : ℕ} {b : ℕ} {shard : ℕ} (hK : Keeps M s0 s) :
    Keeps M s0 (blockFault s unit b shard) := by
  unfold blockFault
  extract_lets v0
  refine State.fault_keeps ?_
  with_reducible assumption

theorem badBlock_keeps {M : Part → Prop} [Fact (M .regs)] [Fact (M .host)] [Fact (M .mem)] [Fact (M .wst)] [Fact (M .cells)]
    {s0 : State} {s : Sys2Proof.Machine.State} {w : Sys2Proof.Machine.ShardWrite} {die : ℕ} (hK : Keeps M s0 s) :
    Keeps M s0 (badBlock s w die) := by
  unfold badBlock
  extract_lets v0 v1 v2
  have h3 : Keeps M s0 v2 := by
    unfold v2
    refine Keeps.mk' ?_ le_rfl rfl (fun x => x) (fun x => x) le_rfl
    with_reducible assumption
  clear_value v2
  refine State.writeNext_keeps ?_
  refine State.modLoad_keeps ?_
  with_reducible assumption

theorem State.bankBecomes_keeps {M : Part → Prop} [Fact (M .ref)] [Fact (M .wst)] {s0 : State} {s : Sys2Proof.Machine.State}
    {b : ℕ} {st : Sys2Proof.Machine.WsBankState} {epoch : ℕ} (hK : Keeps M s0 s) :
    Keeps M s0 (State.bankBecomes s b st epoch) := by
  unfold State.bankBecomes
  extract_lets v0 v1
  refine State.extendMrBytes_keeps ?_
  refine State.setBank_keeps ?_
  with_reducible assumption

theorem fillBank_keeps {M : Part → Prop} [Fact (M .ref)] [Fact (M .wst)] {s0 : State} {l : Sys2Proof.Machine.WsLoad}
    {f : Sys2Proof.Machine.Manifest} {s : Sys2Proof.Machine.State} {b : ℕ} (hK : Keeps M s0 s) :
    Keeps M s0 (fillBank l f s b) := by
  unfold fillBank
  extract_lets v0 v1 v2
  refine State.bankBecomes_keeps ?_
  refine State.setBank_keeps ?_
  with_reducible assumption

theorem shardPlaced_keeps {M : Part → Prop} [Fact (M .regs)] [Fact (M .host)] [Fact (M .mem)] [Fact (M .ref)] [Fact (M .wst)]
    [Fact (M .cells)] {s0 : State} {s : Sys2Proof.Machine.State} {l : Sys2Proof.Machine.WsLoad}
    {w : Sys2Proof.Machine.ShardWrite} {die : ℕ} (hK : Keeps M s0 s) :
    Keeps M s0 (shardPlaced s l w die) := by
  unfold shardPlaced
  extract_lets v0 v1 v2
  have h3 : Keeps M s0 v1 := by
    unfold v1
    refine State.modLoad_keeps ?_
    with_reducible assumption
  clear_value v1
  split
  · with_reducible assumption
  · refine Keeps.ite ?_ ?_
    · intro x4
      refine State.writeNext_keeps ?_
      refine State.setLoadStatus_keeps ?_
      with_reducible assumption
    · intro x5
      extract_lets v6 v7 v8
      have h9 : Keeps M s0 v6 := by
        unfold v6
        refine Keeps.elim ?_ ?_
        · with_reducible assumption
        · intro x10
          refine Keeps.foldl ?_ ?_
          · with_reducible assumption
          · intro x11
            intro x12
            intro x13
            refine fillBank_keeps ?_
            with_reducible assumption
      clear_value v6
      have h14 : Keeps M s0 v7 := by
        unfold v7
        refine Keeps.foldl ?_ ?_
        · with_reducible assumption
        · intro x15
          intro x16
          intro x17
          refine State.setBank_keeps ?_
          with_reducible assumption
      clear_value v7
      refine loadDone_keeps ?_
      refine State.setLoadStatus_keeps ?_
      refine Keeps.mk' ?_ le_rfl rfl (fun x => x) (fun x => x) le_rfl
      with_reducible assumption

theorem forwardPreamble_keeps {M : Part → Prop} [Fact (M .regs)] [Fact (M .scb)] [Fact (M .mgl)] {s0 : State}
    {s : Sys2Proof.Machine.State} {l : Sys2Proof.Machine.WsLoad} {shardOff : ℕ} (hK : Keeps M s0 s) :
    Keeps M s0 (forwardPreamble s l shardOff) := by
  unfold forwardPreamble
  refine Keeps.elim ?_ ?_
  · with_reducible assumption
  · intro x0
    refine State.sendLoad_keeps ?_
    with_reducible assumption

theorem takeOther_keeps {M : Part → Prop} [Fact (M .wst)] {s0 : State} {s : Sys2Proof.Machine.State} {target : ℕ}
    (hK : Keeps M s0 s) :
    Keeps M s0 (takeOther s target) := by
  unfold takeOther
  refine State.takeTarget_keeps ?_
  with_reducible assumption

theorem State.handshake_keeps {M : Part → Prop} [Fact (M .free)] [Fact (M .host)] {s0 : State} {s : Sys2Proof.Machine.State}
    {port : ℕ} {peer : Sys2Proof.PeerProof} (hK : Keeps M s0 s) :
    Keeps M s0 (State.handshake s port peer) := by
  unfold State.handshake
  extract_lets v0 v1 v2
  have h3 : Keeps M s0 v2 := by
    unfold v2
    refine State.sendLmc_keeps ?_
    refine Keeps.mk' ?_ le_rfl rfl (fun x => x) (fun x => x) le_rfl
    with_reducible assumption
  clear_value v2
  refine Keeps.ite ?_ ?_
  · intro x4
    split
    · rename_i hq5
      refine Keeps.viaPair (M := M) (s0 := s0) hq5 ?_ (fun hk6 => ?_)
      · refine State.signed_keeps ?_
        with_reducible assumption
      · refine State.sendLmc_keeps ?_
        with_reducible assumption
  · intro x7
    with_reducible assumption

theorem takeInbox_keeps {M : Part → Prop} [Fact (M .mgl)] {s0 : State} {s : Sys2Proof.Machine.State}
    {pick : Sys2Proof.Machine.InboxPacket → Bool}
    {f : Sys2Proof.Machine.Packet → Sys2Proof.Machine.State → Sys2Proof.Machine.State}
    (hf : ∀ (y0 : Packet) (y1 : State), Keeps M s0 y1 → Keeps M s0 (f y0 y1)) (hK : Keeps M s0 s) :
    Keeps M s0 (takeInbox s pick f) := by
  unfold takeInbox
  split
  · with_reducible assumption
  · with_reducible apply hf
    refine Keeps.mk' ?_ le_rfl rfl (fun x => x) (fun x => x) le_rfl
    with_reducible assumption

theorem takeVote_keeps {M : Part → Prop} [Fact (M .regs)] [Fact (M .ump)] [Fact (M .scb)] [Fact (M .mgl)] [Fact (M .rdc)]
    {s0 : State} {k : Sys2Proof.Machine.Packet} {s : Sys2Proof.Machine.State} (hK : Keeps M s0 s) :
    Keeps M s0 (takeVote k s) := by
  unfold takeVote
  refine Keeps.ite ?_ ?_
  · intro x0
    refine State.bump_keeps ?_
    with_reducible assumption
  · intro x1
    extract_lets v2 v3
    have h4 : Keeps M s0 v2 := by
      unfold v2
      refine State.chargeReceived_keeps ?_
      refine State.mark_keeps ?_
      with_reducible assumption
    clear_value v2
    split
    · with_reducible assumption
    · refine Keeps.ite ?_ ?_
      · intro x5
        with_reducible assumption
      · intro x6
        refine State.tryForward_keeps ?_
        refine State.modStep_keeps ?_
        with_reducible assumption

theorem finishCombine_keeps {M : Part → Prop} [Fact (M .free)] [Fact (M .regs)] [Fact (M .ump)] [Fact (M .mem)]
    [Fact (M .scb)] [Fact (M .rdc)] [Fact (M .cells)] {s0 : State} {w : Sys2Proof.Machine.Work} {ch : ℕ} {n : ℕ}
    {s : Sys2Proof.Machine.State} (hK : Keeps M s0 s) :
    Keeps M s0 (finishCombine w ch n s) := by
  unfold finishCombine
  split
  · extract_lets v0 v1 v2 v3 v4 v5 v6 v7 v8
    have h9 : Keeps M s0 v5 := by
      unfold v5
      refine State.chanReads_keeps ?_
      with_reducible assumption
    clear_value v5
    have h10 : Keeps M s0 v7 := by
      unfold v7
      refine State.addCharge_keeps ?_
      with_reducible assumption
    clear_value v7
    refine Keeps.ite ?_ ?_
    · intro x11
      with_reducible assumption
    · intro x12
      refine State.modRun_keeps ?_
      refine Keeps.foldl ?_ ?_
      · with_reducible assumption
      · intro x13
        intro x14
        intro x15
        unfold v8
        extract_lets v16
        refine State.addUse_keeps ?_
        refine State.chanPut_keeps ?_
        with_reducible assumption
  · with_reducible assumption

theorem takeReturn_keeps {M : Part → Prop} [Fact (M .free)] [Fact (M .regs)] [Fact (M .ump)] [Fact (M .mem)] [Fact (M .scb)]
    [Fact (M .rdc)] [Fact (M .cells)] {s0 : State} {w : Sys2Proof.Machine.Work} {r : Sys2Proof.Machine.ChanRun}
    {h : Sys2Proof.Machine.SubHead} {data : List Sys2Proof.Byte} {s : Sys2Proof.Machine.State} (hK : Keeps M s0 s) :
    Keeps M s0 (takeReturn w r h data s) := by
  unfold takeReturn
  extract_lets v0 v1
  have h2 : Keeps M s0 v1 := by
    unfold v1
    refine State.chanPut_keeps ?_
    with_reducible assumption
  clear_value v1
  refine finishCombine_keeps ?_
  refine State.modRun_keeps ?_
  with_reducible assumption

theorem State.openRun_keeps {M : Part → Prop} [Fact (M .rdc)] {s0 : State} {s : Sys2Proof.Machine.State} {ch : ℕ} {n : ℕ}
    {cmd : Sys2Proof.Desc} (hK : Keeps M s0 s) :
    Keeps M s0 (State.openRun s ch n cmd) := by
  unfold State.openRun
  refine Keeps.ite ?_ ?_
  · intro x0
    with_reducible assumption
  · intro x1
    refine Keeps.mk' ?_ le_rfl rfl (fun x => x) (fun x => x) le_rfl
    with_reducible assumption

theorem takePacket_keeps {M : Part → Prop} [Fact (M .regs)] [Fact (M .ump)] [Fact (M .rdc)] {s0 : State}
    {s : Sys2Proof.Machine.State} {k : Sys2Proof.Machine.Packet}
    {f : Sys2Proof.Machine.Work → Sys2Proof.Machine.ChanRun → Sys2Proof.Machine.SubHead → List Sys2Proof.Byte → Sys2Proof.Machine.State → Sys2Proof.Machine.State}
    (hf : ∀ (y0 : Work) (y1 : ChanRun) (y2 : SubHead) (y3 : List Byte) (y4 : State), Keeps M s0 y4 → Keeps M s0 (f y0 y1 y2 y3 y4))
    (hK : Keeps M s0 s) :
    Keeps M s0 (takePacket s k f) := by
  unfold takePacket
  split
  · refine State.bump_keeps ?_
    with_reducible assumption
  · split
    · refine State.bump_keeps ?_
      with_reducible assumption
    · refine Keeps.ite ?_ ?_
      · intro x0
        refine State.bump_keeps ?_
        with_reducible assumption
      · intro x1
        extract_lets v2
        have h3 : Keeps M s0 v2 := by
          unfold v2
          refine State.openRun_keeps ?_
          refine State.chargeReceived_keeps ?_
          refine State.mark_keeps ?_
          with_reducible assumption
        clear_value v2
        split
        · with_reducible assumption
        · with_reducible apply hf
          with_reducible assumption

theorem takeUp_keeps {M : Part → Prop} [Fact (M .free)] [Fact (M .regs)] [Fact (M .host)] [Fact (M .ump)] [Fact (M .lkr)]
    [Fact (M .mem)] [Fact (M .scb)] [Fact (M .mgl)] [Fact (M .rdc)] [Fact (M .wst)] [Fact (M .eng)] [Fact (M .cells)]
    {s0 : State} {w : Sys2Proof.Machine.Work} {r : Sys2Proof.Machine.ChanRun} {h : Sys2Proof.Machine.SubHead}
    {data : List Sys2Proof.Byte} {s : Sys2Proof.Machine.State} (hK : Keeps M s0 s) :
    Keeps M s0 (takeUp w r h data s) := by
  unfold takeUp
  extract_lets v0 v1 v2 v3 v4 v5 v6
  have h7 : Keeps M s0 v5 := by
    unfold v5
    refine State.chanPut_keeps ?_
    with_reducible assumption
  clear_value v5
  have h8 : Keeps M s0 v6 := by
    unfold v6
    refine State.modRun_keeps ?_
    with_reducible assumption
  clear_value v6
  refine tryChunks_keeps ?_
  with_reducible assumption

theorem State.endCommand_keeps {M : Part → Prop} [Fact (M .eng)] {s0 : State} {s : Sys2Proof.Machine.State}
    {e : Sys2Proof.Machine.Engine} {cmd : Sys2Proof.Desc} (hK : Keeps M s0 s) :
    Keeps M s0 (State.endCommand s e cmd) := by
  unfold State.endCommand
  split
  · with_reducible assumption
  · refine State.setEngine_keeps ?_
    with_reducible assumption

theorem State.waitCommand_keeps {M : Part → Prop} [Fact (M .eng)] {s0 : State} {s : Sys2Proof.Machine.State}
    {e : Sys2Proof.Machine.Engine} {cmd : Sys2Proof.Desc} (hK : Keeps M s0 s) :
    Keeps M s0 (State.waitCommand s e cmd) := by
  unfold State.waitCommand
  split
  · with_reducible assumption
  · extract_lets v0 v1 v2
    refine Keeps.ite ?_ ?_
    · intro x3
      refine State.advance_keeps ?_
      with_reducible assumption
    · intro x4
      refine State.setEngine_keeps ?_
      with_reducible assumption

theorem startCombine_keeps {M : Part → Prop} [Fact (M .free)] [Fact (M .regs)] [Fact (M .ump)] [Fact (M .mem)] [Fact (M .scb)]
    [Fact (M .mgl)] [Fact (M .rdc)] [Fact (M .cells)] {s0 : State} {ch : ℕ} {w : Sys2Proof.Machine.Work} {n : ℕ}
    {c : Sys2Proof.Machine.ChanCmd} {s : Sys2Proof.Machine.State} (hK : Keeps M s0 s) :
    Keeps M s0 (startCombine ch w n c s) := by
  unfold startCombine
  split
  · with_reducible assumption
  · split
    · with_reducible assumption
    · extract_lets v0 v1 v2 v3 v4
      have h5 : Keeps M s0 v3 := by
        unfold v3
        refine Keeps.foldl ?_ ?_
        · with_reducible assumption
        · intro x6
          intro x7
          intro x8
          refine State.chanPut_keeps ?_
          with_reducible assumption
      clear_value v3
      have h9 : Keeps M s0 v4 := by
        unfold v4
        refine Keeps.foldl ?_ ?_
        · with_reducible assumption
        · intro x10
          intro x11
          intro x12
          refine Keeps.foldl ?_ ?_
          · with_reducible assumption
          · intro x13
            intro x14
            intro x15
            refine sendRow_keeps ?_
            refine State.chanReads_keeps ?_
            with_reducible assumption
      clear_value v4
      refine finishCombine_keeps ?_
      with_reducible assumption

theorem issueChan_keeps {M : Part → Prop} [Fact (M .rdc)] [Fact (M .eng)] {s0 : State} {s : Sys2Proof.Machine.State} {ch : ℕ}
    {op : ℕ} {cmd : Sys2Proof.Desc}
    {f : Sys2Proof.Machine.Work → ℕ → Sys2Proof.Machine.ChanCmd → Sys2Proof.Machine.State → Sys2Proof.Machine.State}
    (hf : ∀ (y0 : Work) (y1 : ℕ) (y2 : ChanCmd) (y3 : State), Keeps M s0 y3 → Keeps M s0 (f y0 y1 y2 y3)) (hK : Keeps M s0 s)
    :
    KeepsO M s0 (issueChan s ch op cmd f) := by
  unfold issueChan
  split
  · refine KeepsO.next ?_
    with_reducible assumption
  · extract_lets v0 v1 v2 v3
    have h4 : Keeps M s0 v2 := by
      unfold v2
      refine State.modRun_keeps ?_
      refine State.openRun_keeps ?_
      with_reducible assumption
    clear_value v2
    have h5 : Keeps M s0 v3 := by
      unfold v3
      refine State.advance_keeps ?_
      with_reducible assumption
    clear_value v3
    refine guarded_keeps ?_
    refine State.checkRun_keeps ?_
    refine Keeps.ite ?_ ?_
    · intro x6
      with_reducible assumption
    · intro x7
      with_reducible apply hf
      with_reducible assumption

theorem startDispatch_keeps {M : Part → Prop} [Fact (M .free)] [Fact (M .regs)] [Fact (M .ump)] [Fact (M .mem)]
    [Fact (M .scb)] [Fact (M .mgl)] [Fact (M .rdc)] [Fact (M .cells)] {s0 : State} {ch : ℕ} {w : Sys2Proof.Machine.Work}
    {n : ℕ} {c : Sys2Proof.Machine.ChanCmd} {s : Sys2Proof.Machine.State} (hK : Keeps M s0 s) :
    Keeps M s0 (startDispatch ch w n c s) := by
  unfold startDispatch
  extract_lets v0 v1 v2 v3 v4 v5 v6 v7
  have h8 : Keeps M s0 v4 := by
    unfold v4
    refine State.chanReads_keeps ?_
    with_reducible assumption
  clear_value v4
  have h9 : Keeps M s0 v5 := by
    unfold v5
    refine State.chanPut_keeps ?_
    with_reducible assumption
  clear_value v5
  have h10 : Keeps M s0 v6 := by
    unfold v6
    refine State.modRun_keeps ?_
    with_reducible assumption
  clear_value v6
  have h11 : Keeps M s0 v7 := by
    unfold v7
    refine Keeps.foldl ?_ ?_
    · with_reducible assumption
    · intro x12
      intro x13
      intro x14
      refine State.sendChan_keeps ?_
      with_reducible assumption
  clear_value v7
  refine routeRows_keeps ?_
  with_reducible assumption

theorem startGather_keeps {M : Part → Prop} [Fact (M .free)] [Fact (M .regs)] [Fact (M .ump)] [Fact (M .mem)] [Fact (M .scb)]
    [Fact (M .mgl)] [Fact (M .rdc)] [Fact (M .cells)] {s0 : State} {ch : ℕ} {w : Sys2Proof.Machine.Work} {n : ℕ}
    {c : Sys2Proof.Machine.ChanCmd} {s : Sys2Proof.Machine.State} (hK : Keeps M s0 s) :
    Keeps M s0 (startGather ch w n c s) := by
  unfold startGather
  extract_lets v0 v1 v2 v3
  have h4 : Keeps M s0 v2 := by
    unfold v2
    refine State.chanPut_keeps ?_
    refine State.chanReads_keeps ?_
    with_reducible assumption
  clear_value v2
  refine Keeps.foldl ?_ ?_
  · with_reducible assumption
  · intro x5
    intro x6
    intro x7
    extract_lets v8 v9 v10
    refine Keeps.foldl ?_ ?_
    · with_reducible assumption
    · intro x11
      intro x12
      intro x13
      refine State.sendChan_keeps ?_
      with_reducible assumption

theorem startBcast_keeps {M : Part → Prop} [Fact (M .free)] [Fact (M .regs)] [Fact (M .ump)] [Fact (M .mem)] [Fact (M .scb)]
    [Fact (M .mgl)] [Fact (M .rdc)] [Fact (M .cells)] {s0 : State} {ch : ℕ} {w : Sys2Proof.Machine.Work} {n : ℕ}
    {c : Sys2Proof.Machine.ChanCmd} {s : Sys2Proof.Machine.State} (hK : Keeps M s0 s) :
    Keeps M s0 (startBcast ch w n c s) := by
  unfold startBcast
  refine Keeps.ite ?_ ?_
  · intro x0
    with_reducible assumption
  · intro x1
    extract_lets v2 v3 v4
    have h5 : Keeps M s0 v3 := by
      unfold v3
      refine State.chanPut_keeps ?_
      refine State.chanReads_keeps ?_
      with_reducible assumption
    clear_value v3
    have h6 : Keeps M s0 v4 := by
      unfold v4
      refine State.modRun_keeps ?_
      with_reducible assumption
    clear_value v4
    refine Keeps.foldl ?_ ?_
    · with_reducible assumption
    · intro x7
      intro x8
      intro x9
      refine sendDown_keeps ?_
      with_reducible assumption

theorem runBag_keeps {M : Part → Prop} [Fact (M .free)] [Fact (M .regs)] [Fact (M .host)] [Fact (M .ump)] [Fact (M .mem)]
    [Fact (M .scb)] [Fact (M .cells)] {s0 : State} {w : Sys2Proof.Machine.Work} {e : ℕ} {c : Sys2Proof.Machine.GatherCmd}
    {offs : List ℕ} {s : Sys2Proof.Machine.State} {b : ℕ} (hK : Keeps M s0 s) :
    Keeps M s0 (runBag w e c offs s b) := by
  unfold runBag
  split
  · rename_i hq0
    refine Keeps.viaPair (M := M) (s0 := s0) hq0 ?_ (fun hk1 => ?_)
    · refine readLookups_keeps ?_
      with_reducible assumption
    · extract_lets v2 v3 v4
      split
      · extract_lets v5
        have h6 : Keeps M s0 v5 := by
          unfold v5
          refine State.addUse_keeps ?_
          refine State.addNans_keeps ?_
          refine State.bump_keeps ?_
          with_reducible assumption
        clear_value v5
        refine State.gMoved_keeps ?_
        refine State.gWrite_keeps ?_
        with_reducible assumption

theorem copyRun_keeps {M : Part → Prop} [Fact (M .free)] [Fact (M .regs)] [Fact (M .host)] [Fact (M .ump)] [Fact (M .mem)]
    [Fact (M .scb)] [Fact (M .cells)] {s0 : State} {w : Sys2Proof.Machine.Work} {e : ℕ} {s : Sys2Proof.Machine.State}
    {src : ℕ} {dst : ℕ} {n : ℕ} (hK : Keeps M s0 s) :
    Keeps M s0 (copyRun w e s src dst n) := by
  unfold copyRun
  split
  · rename_i hq0
    refine Keeps.viaPair (M := M) (s0 := s0) hq0 ?_ (fun hk1 => ?_)
    · refine State.gRead_keeps ?_
      with_reducible assumption
    · refine State.gMoved_keeps ?_
      refine State.gWrite_keeps ?_
      with_reducible assumption

theorem State.setTiles_keeps {M : Part → Prop} [Fact (M .eng)] {s0 : State} {s : Sys2Proof.Machine.State} {court : ℕ}
    {ts : List Sys2Proof.Machine.Tile} (hK : Keeps M s0 s) :
    Keeps M s0 (State.setTiles s court ts) := by
  unfold State.setTiles
  refine Keeps.mk' ?_ le_rfl rfl (fun x => x) (fun x => x) le_rfl
  with_reducible assumption

theorem startTile_keeps {M : Part → Prop} [Fact (M .free)] [Fact (M .regs)] [Fact (M .ump)] [Fact (M .scb)] [Fact (M .eng)]
    {s0 : State} {w : Sys2Proof.Machine.Work} {court : ℕ} {s : Sys2Proof.Machine.State} {t : Sys2Proof.Machine.Tile}
    (hK : Keeps M s0 s) :
    Keeps M s0 (startTile w court s t) := by
  unfold startTile
  extract_lets v0 v1 v2 v3 v4
  have h5 : Keeps M s0 v2 := by
    unfold v2
    refine State.setTiles_keeps ?_
    with_reducible assumption
  clear_value v2
  have h6 : Keeps M s0 v3 := by
    unfold v3
    refine State.addCharge_keeps ?_
    refine State.readTraffic_keeps ?_
    with_reducible assumption
  clear_value v3
  have h7 : Keeps M s0 v4 := by
    unfold v4
    refine State.count_keeps ?_
    with_reducible assumption
  clear_value v4
  refine State.count_keeps ?_
  with_reducible assumption

theorem State.setTodo_keeps {M : Part → Prop} [Fact (M .eng)] {s0 : State} {s : Sys2Proof.Machine.State} {court : ℕ}
    {ts : List Sys2Proof.Machine.Tile} (hK : Keeps M s0 s) :
    Keeps M s0 (State.setTodo s court ts) := by
  unfold State.setTodo
  refine Keeps.mk' ?_ le_rfl rfl (fun x => x) (fun x => x) le_rfl
  with_reducible assumption

theorem startTiles_keeps [Fact (M .free)] [Fact (M .regs)] [Fact (M .ump)] [Fact (M .scb)] [Fact (M .eng)] {s0 : State}
    {w : Work} {court : Nat} {ts : List Tile} {s : State} (hK : Keeps M s0 s) :
    Keeps M s0 (startTiles w court ts s) := by
  induction ts generalizing s with
  | nil => exact State.setTodo_keeps hK
  | cons t ts ih =>
    unfold startTiles
    exact Keeps.ite (fun _ => ih (startTile_keeps hK)) (fun _ => State.setTodo_keeps hK)

theorem drainOne_keeps {M : Part → Prop} [Fact (M .free)] [Fact (M .regs)] [Fact (M .ump)] [Fact (M .mem)] [Fact (M .scb)]
    [Fact (M .cells)] {s0 : State} {w : Sys2Proof.Machine.Work} {court : ℕ} {s : Sys2Proof.Machine.State}
    {t : Sys2Proof.Machine.Tile} (hK : Keeps M s0 s) :
    Keeps M s0 (drainOne w court s t) := by
  unfold drainOne
  extract_lets v0 v1 v2 v3 v4 v5 v6 v7 v8 v9 v10 v11 v12
  have h13 : Keeps M s0 v5 := by
    unfold v5
    refine State.putCells_keeps ?_
    refine State.readTraffic_keeps ?_
    refine State.freed_keeps ?_
    refine State.freed_keeps ?_
    refine State.freed_keeps ?_
    with_reducible assumption
  clear_value v5
  have h14 : Keeps M s0 v6 := by
    unfold v6
    refine State.cellTraffic_keeps ?_
    with_reducible assumption
  clear_value v6
  have h15 : Keeps M s0 v7 := by
    unfold v7
    refine Keeps.ite ?_ ?_
    · intro x16
      with_reducible assumption
    · intro x17
      refine State.addUse_keeps ?_
      with_reducible assumption
  clear_value v7
  have h18 : Keeps M s0 v9 := by
    unfold v9
    refine State.addCharge_keeps ?_
    with_reducible assumption
  clear_value v9
  have h19 : Keeps M s0 v10 := by
    unfold v10
    refine State.count_keeps ?_
    with_reducible assumption
  clear_value v10
  have h20 : Keeps M s0 v11 := by
    unfold v11
    refine State.count_keeps ?_
    with_reducible assumption
  clear_value v11
  have h21 : Keeps M s0 v12 := by
    unfold v12
    refine State.count_keeps ?_
    with_reducible assumption
  clear_value v12
  refine State.count_keeps ?_
  with_reducible assumption

theorem State.markDrained_keeps {M : Part → Prop} [Fact (M .eng)] {s0 : State} {s : Sys2Proof.Machine.State} {court : ℕ}
    {t : Sys2Proof.Machine.Tile} (hK : Keeps M s0 s) :
    Keeps M s0 (State.markDrained s court t) := by
  unfold State.markDrained
  extract_lets v0 v1
  refine Keeps.mk' ?_ le_rfl rfl (fun x => x) (fun x => x) le_rfl
  with_reducible assumption

theorem State.countInexact_keeps {M : Part → Prop} [Fact (M .regs)] {s0 : State} {s : Sys2Proof.Machine.State}
    {cmd : Sys2Proof.Desc} (hK : Keeps M s0 s) :
    Keeps M s0 (State.countInexact s cmd) := by
  unfold State.countInexact
  refine State.bump_keeps ?_
  with_reducible assumption

theorem runTiles_keeps {M : Part → Prop} [Fact (M .free)] [Fact (M .regs)] [Fact (M .ump)] [Fact (M .scb)] [Fact (M .eng)]
    {s0 : State} {w : Sys2Proof.Machine.Work} {court : ℕ} {ts : List Sys2Proof.Machine.Tile} {s : Sys2Proof.Machine.State}
    (hK : Keeps M s0 s) :
    Keeps M s0 (runTiles w court ts s) := by
  unfold runTiles
  extract_lets v0 v1
  have h2 : Keeps M s0 v1 := by
    unfold v1
    refine State.setEngine_keeps ?_
    with_reducible assumption
  clear_value v1
  refine State.remark_keeps ?_
  refine startTiles_keeps ?_
  with_reducible assumption

theorem writeRow_keeps {M : Part → Prop} [Fact (M .free)] [Fact (M .regs)] [Fact (M .host)] [Fact (M .ump)] [Fact (M .mem)]
    [Fact (M .scb)] [Fact (M .cells)] {s0 : State} {k : Sys2Proof.Machine.ServeClass} {layer : ℕ} {die : ℕ} {row : ℕ}
    {pos : ℕ} {q : Sys2Proof.Machine.Request} {s : Sys2Proof.Machine.State} {value : Bool} (hK : Keeps M s0 s) :
    Keeps M s0 (writeRow k layer die row pos q s value) := by
  unfold writeRow
  extract_lets v0 v1 v2 v3 v4
  have h5 : Keeps M s0 v4 := by
    unfold v4
    refine State.traffic_keeps ?_
    with_reducible assumption
  clear_value v4
  refine State.traffic_keeps ?_
  refine State.lpWrite_keeps ?_
  with_reducible assumption

theorem writeSlot_keeps {M : Part → Prop} [Fact (M .free)] [Fact (M .regs)] [Fact (M .host)] [Fact (M .ump)] [Fact (M .mem)]
    [Fact (M .scb)] [Fact (M .cells)] {s0 : State} {k : Sys2Proof.Machine.ServeClass} {r : Sys2Proof.Machine.ReadyServe}
    {layer : ℕ} {die : ℕ} {s : Sys2Proof.Machine.State} {p : ℕ × Option Sys2Proof.Machine.Request} (hK : Keeps M s0 s) :
    Keeps M s0 (writeSlot k r layer die s p) := by
  unfold writeSlot
  split
  · with_reducible assumption
  · extract_lets v0
    refine Keeps.foldl ?_ ?_
    · with_reducible assumption
    · intro x1
      intro x2
      intro x3
      refine Keeps.foldl ?_ ?_
      · with_reducible assumption
      · intro x4
        intro x5
        intro x6
        refine writeRow_keeps ?_
        with_reducible assumption

theorem State.pageTraffic_keeps {M : Part → Prop} [Fact (M .free)] [Fact (M .regs)] [Fact (M .ump)] [Fact (M .scb)]
    {s0 : State} {s : Sys2Proof.Machine.State} {write : Bool} {die : ℕ} {ps : List ℕ} {off : ℕ} {n : ℕ} (hK : Keeps M s0 s) :
    Keeps M s0 (State.pageTraffic s write die ps off n) := by
  unfold State.pageTraffic
  refine Keeps.foldl ?_ ?_
  · with_reducible assumption
  · intro x0
    intro x1
    intro x2
    refine State.traffic_keeps ?_
    with_reducible assumption

theorem lateEntry_keeps {M : Part → Prop} [Fact (M .regs)] [Fact (M .host)] [Fact (M .ump)] [Fact (M .scb)] {s0 : State}
    {s : Sys2Proof.Machine.State} {e : Sys2Proof.Machine.StreamEntry} {late : ℕ} (hK : Keeps M s0 s) :
    Keeps M s0 (lateEntry s e late) := by
  unfold lateEntry
  extract_lets v0 v1
  have h2 : Keeps M s0 v0 := by
    unfold v0
    refine State.bump_keeps ?_
    with_reducible assumption
  clear_value v0
  have h3 : Keeps M s0 v1 := by
    unfold v1
    refine Keeps.foldl ?_ ?_
    · with_reducible assumption
    · intro x4
      intro x5
      intro x6
      refine State.count_keeps ?_
      with_reducible assumption
  clear_value v1
  split
  · with_reducible assumption
  · extract_lets v7 v8
    have h9 : Keeps M s0 v8 := by
      unfold v8
      refine State.modWork_keeps ?_
      with_reducible assumption
    clear_value v8
    refine Keeps.ite ?_ ?_
    · intro x10
      refine State.later_keeps ?_
      with_reducible assumption
    · intro x11
      with_reducible assumption

theorem copyPart_keeps {M : Part → Prop} [Fact (M .free)] [Fact (M .regs)] [Fact (M .ump)] [Fact (M .mem)] [Fact (M .scb)]
    [Fact (M .cells)] {s0 : State} {b : ℕ} {die : ℕ} {s : Sys2Proof.Machine.State} {p : ℕ × ℕ} (hK : Keeps M s0 s) :
    Keeps M s0 (copyPart b die s p) := by
  unfold copyPart
  split
  · with_reducible assumption
  · refine Keeps.ite ?_ ?_
    · intro x0
      with_reducible assumption
    · intro x1
      extract_lets v2 v3 v4 v5 v6 v7
      have h8 : Keeps M s0 v4 := by
        unfold v4
        refine State.chipWrite_keeps ?_
        with_reducible assumption
      clear_value v4
      have h9 : Keeps M s0 v6 := by
        unfold v6
        refine State.addCharge_keeps ?_
        with_reducible assumption
      clear_value v6
      have h10 : Keeps M s0 v7 := by
        unfold v7
        refine State.countUnits_keeps ?_
        with_reducible assumption
      clear_value v7
      refine State.traffic_keeps ?_
      with_reducible assumption

theorem State.workEnded_keeps {M : Part → Prop} [Fact (M .ump)] [Fact (M .lkr)] [Fact (M .mgl)] [Fact (M .rdc)]
    [Fact (M .wst)] [Fact (M .eng)] {s0 : State} {s : Sys2Proof.Machine.State} {w : Sys2Proof.Machine.Work}
    (hK : Keeps M s0 s) :
    Keeps M s0 (State.workEnded s w) := by
  unfold State.workEnded
  extract_lets v0 v1 v2 v3 v4
  have h5 : Keeps M s0 v0 := by
    unfold v0
    refine State.endOverrun_keeps ?_
    with_reducible assumption
  clear_value v0
  refine State.freeBanks_keeps ?_
  refine Keeps.mk' ?_ le_rfl rfl (fun x => x) (fun x => x) le_rfl
  with_reducible assumption

theorem joinStep_keeps {M : Part → Prop} [Fact (M .rdc)] {s0 : State} {s : Sys2Proof.Machine.State} {c : ℕ} {did : ℕ}
    {segment : Bool} {g : Option Sys2Proof.Machine.GroupDecl} (hK : Keeps M s0 s) :
    Keeps M s0 (joinStep s c did segment g) := by
  unfold joinStep
  split
  · with_reducible assumption
  · extract_lets v0 v1
    have h2 : Keeps M s0 v1 := by
      unfold v1
      refine Keeps.ite ?_ ?_
      · intro x3
        with_reducible assumption
      · intro x4
        refine Keeps.mk' ?_ le_rfl rfl (fun x => x) (fun x => x) le_rfl
        with_reducible assumption
    clear_value v1
    refine State.modStep_keeps ?_
    with_reducible assumption

theorem startSegment_keeps {M : Part → Prop} [Fact (M .free)] [Fact (M .regs)] [Fact (M .host)] [Fact (M .ump)]
    [Fact (M .lkr)] [Fact (M .scb)] [Fact (M .mgl)] [Fact (M .rdc)] [Fact (M .wst)] [Fact (M .eng)] {s0 : State}
    {s : Sys2Proof.Machine.State} {p : Sys2Proof.Machine.PStep} {x : Sys2Proof.Machine.Segment} (hK : Keeps M s0 s) :
    Keeps M s0 (startSegment s p x) := by
  unfold startSegment
  split
  · split
    · refine State.atSlotEnd_keeps ?_
      refine State.dropStep_keeps ?_
      with_reducible assumption
    · extract_lets v0 v1 v2 v3 v4 v5
      have h6 : Keeps M s0 v1 := by
        unfold v1
        refine Keeps.ite ?_ ?_
        · intro x7
          refine State.bump_keeps ?_
          with_reducible assumption
        · intro x8
          with_reducible assumption
      clear_value v1
      have h9 : Keeps M s0 v2 := by
        unfold v2
        refine State.modPStep_keeps ?_
        with_reducible assumption
      clear_value v2
      have h10 : Keeps M s0 v3 := by
        unfold v3
        refine State.trace_keeps ?_
        with_reducible assumption
      clear_value v3
      have h11 : Keeps M s0 v4 := by
        unfold v4
        refine State.count_keeps ?_
        with_reducible assumption
      clear_value v4
      have h12 : Keeps M s0 v5 := by
        unfold v5
        refine joinStep_keeps ?_
        with_reducible assumption
      clear_value v5
      refine State.startWork_keeps ?_
      with_reducible assumption
  · with_reducible assumption

theorem State.setRsvRun_keeps {M : Part → Prop} [Fact (M .ump)] {s0 : State} {s : Sys2Proof.Machine.State} {i : ℕ}
    {r : Sys2Proof.Machine.RsvRun} (hK : Keeps M s0 s) :
    Keeps M s0 (State.setRsvRun s i r) := by
  unfold State.setRsvRun
  refine Keeps.mk' ?_ le_rfl rfl (fun x => x) (fun x => x) le_rfl
  with_reducible assumption

theorem State.noteJobs_keeps {M : Part → Prop} [Fact (M .ump)] {s0 : State} {s : Sys2Proof.Machine.State} {t : ℕ}
    (hK : Keeps M s0 s) :
    Keeps M s0 (State.noteJobs s t) := by
  unfold State.noteJobs
  refine Keeps.foldl ?_ ?_
  · with_reducible assumption
  · intro x0
    intro x1
    intro x2
    extract_lets v3
    refine Keeps.ite ?_ ?_
    · intro x4
      with_reducible assumption
    · intro x5
      refine State.setRsvRun_keeps ?_
      with_reducible assumption

theorem State.settleDrains_keeps {M : Part → Prop} [Fact (M .ref)] [Fact (M .wst)] {s0 : State} {s : Sys2Proof.Machine.State}
    (hK : Keeps M s0 s) :
    Keeps M s0 (State.settleDrains s) := by
  unfold State.settleDrains
  refine Keeps.foldl ?_ ?_
  · with_reducible assumption
  · intro x0
    intro x1
    intro x2
    extract_lets v3
    refine Keeps.ite ?_ ?_
    · intro x4
      refine State.bankBecomes_keeps ?_
      with_reducible assumption
    · intro x5
      with_reducible assumption

theorem settleAdapter_keeps [Fact (M .regs)] [Fact (M .host)] [Fact (M .ump)] [Fact (M .lkr)] [Fact (M .mem)] [Fact (M .scb)]
    [Fact (M .cells)] {s0 : State} {b : Starting} {acc : Settle × List Nat} {p : ListEntry × Nat} (hK : Keeps M s0 acc.1.s) :
    Keeps M s0 (settleAdapter b acc p).1.s := by
  unfold settleAdapter
  dsimp only
  split
  · exact hK
  · split
    · exact hK
    · have h1 : ∀ (c : Prop) [Decidable c] (b n e k : Nat) (o : Counted),
          Keeps M s0 (if c then acc.1.s else acc.1.s.count b n e k o) :=
        fun _ _ _ _ _ _ _ => Keeps.ite (fun _ => hK) (fun _ => State.count_keeps hK)
      split
      · exact State.modDir_keeps (h1 ..)
      · refine Keeps.ite (fun _ => State.ctxEvent_keeps ?_) (fun _ => ?_) <;>
        exact Keeps.ite (fun _ => State.bump_keeps (State.bump_keeps (State.endRequest_keeps (State.modReq_keeps (h1 ..)))))
          (fun _ => Keeps.ite (fun _ => State.bump_keeps (State.endRequest_keeps (State.modReq_keeps (h1 ..))))
            (fun _ => State.endRequest_keeps (State.modReq_keeps (h1 ..))))

theorem settleStep_keeps [Fact (M .ump)] [Fact (M .mem)] [Fact (M .cells)] {s0 : State} {b : Starting} {z : Settle}
    {p : ListEntry × Nat} (hK : Keeps M s0 z.s) :
    Keeps M s0 (settleStep b z p).s := by
  unfold settleStep
  dsimp only
  split
  · exact hK
  · split
    · exact hK
    · split
      · exact Keeps.foldl (State.giveKv_keeps hK) (fun t x h => State.kvZeroFill_keeps h)
      · exact hK

theorem settleFixed_keeps [Fact (M .regs)] [Fact (M .host)] [Fact (M .ump)] [Fact (M .lkr)] [Fact (M .mem)] [Fact (M .scb)]
    [Fact (M .cells)] {s0 : State} {b : Starting} {z : Settle} {p : ListEntry × Nat} (hK : Keeps M s0 z.s) :
    Keeps M s0 (settleFixed b z p).s := by
  unfold settleFixed
  dsimp only
  split
  · exact hK
  · split
    · exact hK
    · split
      · split
        · show Keeps M s0 (z.s.endRequest _ none)
          exact State.endRequest_keeps hK
        · exact hK
      · exact hK

theorem settleList_keeps [Fact (M .regs)] [Fact (M .host)] [Fact (M .ump)] [Fact (M .lkr)] [Fact (M .mem)] [Fact (M .scb)]
    [Fact (M .cells)] {s0 s : State} {b : Starting} {es : List ListEntry} (hK : Keeps M s0 s) : Keeps M s0
    (settleList b s es).s := by
  have fold {α β : Type} {g : β → State} {f : β → α → β} (hf : ∀ t x, Keeps M s0 (g t) → Keeps M s0 (g (f t x))) :
      ∀ (l : List α) (z : β), Keeps M s0 (g z) → Keeps M s0 (g (l.foldl f z)) := by
    intro l
    induction l with
    | nil => exact fun z h => h
    | cons a l ih => exact fun z h => ih _ (hf _ _ h)
  unfold settleList
  dsimp only
  refine fold (g := fun a : Settle × List Nat => a.1.s) (fun t x h => settleAdapter_keeps h) _ _ ?_
  refine fold (g := Settle.s) (fun t x h => settleJoin_keeps h) _ _ ?_
  refine fold (g := Settle.s) (fun t x h => settleStep_keeps h) _ _ ?_
  exact fold (g := Settle.s) (fun t x h => settleFixed_keeps h) _ _ hK

theorem writeMasks_keeps {M : Part → Prop} [Fact (M .mem)] [Fact (M .cells)] {s0 : State} {b : Sys2Proof.Machine.Starting}
    {s : Sys2Proof.Machine.State} {die : ℕ} (hK : Keeps M s0 s) :
    Keeps M s0 (writeMasks b s die) := by
  unfold writeMasks
  extract_lets v0 v1 v2
  refine Keeps.ite ?_ ?_
  · intro x3
    with_reducible assumption
  · intro x4
    refine State.chipWrite_keeps ?_
    with_reducible assumption

theorem writeMap_keeps {M : Part → Prop} [Fact (M .free)] [Fact (M .regs)] [Fact (M .host)] [Fact (M .ump)] [Fact (M .mem)]
    [Fact (M .scb)] [Fact (M .cells)] {s0 : State} {b : Sys2Proof.Machine.Starting} {r : Sys2Proof.Machine.ReadyServe}
    {es : List Sys2Proof.Machine.ListEntry} {s : Sys2Proof.Machine.State} {die : ℕ} (hK : Keeps M s0 s) :
    Keeps M s0 (writeMap b r es s die) := by
  unfold writeMap
  extract_lets v0 v1 v2 v3 v4
  have h5 : Keeps M s0 v3 := by
    unfold v3
    refine State.chipWrite_keeps ?_
    with_reducible assumption
  clear_value v3
  have h6 : Keeps M s0 v4 := by
    unfold v4
    refine State.chipWrite_keeps ?_
    with_reducible assumption
  clear_value v4
  refine State.chipWrite_keeps ?_
  with_reducible assumption

theorem State.setServe_keeps {M : Part → Prop} [Fact (M .ump)] {s0 : State} {s : Sys2Proof.Machine.State}
    {r : Sys2Proof.Machine.ReadyServe} (hK : Keeps M s0 s) :
    Keeps M s0 (State.setServe s r) := by
  unfold State.setServe
  refine Keeps.mk' ?_ le_rfl rfl (fun x => x) (fun x => x) le_rfl
  with_reducible assumption

theorem State.useAdapters_keeps {M : Part → Prop} [Fact (M .lkr)] {s0 : State} {s : Sys2Proof.Machine.State}
    {r : Sys2Proof.Machine.ReadyServe} (hK : Keeps M s0 s) :
    Keeps M s0 (State.useAdapters s r) := by
  unfold State.useAdapters
  refine Keeps.foldl ?_ ?_
  · with_reducible assumption
  · intro x0
    intro x1
    intro x2
    refine State.modDir_keeps ?_
    with_reducible assumption

theorem launch_keeps {M : Part → Prop} [Fact (M .free)] [Fact (M .regs)] [Fact (M .host)] [Fact (M .ump)] [Fact (M .lkr)]
    [Fact (M .mem)] [Fact (M .scb)] [Fact (M .mgl)] [Fact (M .rdc)] [Fact (M .wst)] [Fact (M .eng)] [Fact (M .cells)]
    {s0 : State} {b : Sys2Proof.Machine.Starting} {s : Sys2Proof.Machine.State} {es : List Sys2Proof.Machine.ListEntry}
    {r : Sys2Proof.Machine.ReadyServe} {imgSlot : ℕ} {bank : ℕ} {start : ℕ} {i : Sys2Proof.Machine.Image} (hK : Keeps M s0 s)
    :
    Keeps M s0 (launch b s es r imgSlot bank start i) := by
  unfold launch
  extract_lets v0 v1 v2 v3 v4 v5 v6 v7
  have h8 : Keeps M s0 v0 := by
    unfold v0
    refine State.useAdapters_keeps ?_
    refine State.setServe_keeps ?_
    with_reducible assumption
  clear_value v0
  have h9 : Keeps M s0 v2 := by
    unfold v2
    refine Keeps.foldl ?_ ?_
    · with_reducible assumption
    · intro x10
      intro x11
      intro x12
      refine writeMap_keeps ?_
      with_reducible assumption
  clear_value v2
  have h13 : Keeps M s0 v3 := by
    unfold v3
    refine Keeps.foldl ?_ ?_
    · with_reducible assumption
    · intro x14
      intro x15
      intro x16
      refine writeMasks_keeps ?_
      with_reducible assumption
  clear_value v3
  have h17 : Keeps M s0 v5 := by
    unfold v5
    refine Keeps.ite ?_ ?_
    · intro x18
      refine State.bump_keeps ?_
      with_reducible assumption
    · intro x19
      with_reducible assumption
  clear_value v5
  have h20 : Keeps M s0 v6 := by
    unfold v6
    refine joinStep_keeps ?_
    with_reducible assumption
  clear_value v6
  refine Keeps.ite ?_ ?_
  · intro x21
    refine Keeps.mk' ?_ le_rfl rfl (fun x => x) (fun x => x) le_rfl
    with_reducible assumption
  · intro x22
    refine State.startWork_keeps ?_
    with_reducible assumption

theorem endStream_keeps {M : Part → Prop} [Fact (M .regs)] [Fact (M .host)] [Fact (M .ump)] [Fact (M .lkr)] [Fact (M .mem)]
    [Fact (M .scb)] [Fact (M .cells)] {s0 : State} {s : Sys2Proof.Machine.State} {r : Sys2Proof.Machine.ReadyServe} {no : ℕ}
    (hK : Keeps M s0 s) :
    Keeps M s0 (endStream s r no).2 := by
  unfold endStream
  refine Keeps.foldlSnd ?_ ?_
  · with_reducible assumption
  · intro x0
    intro x1
    intro x2
    dsimp only
    refine State.endRequest_keeps ?_
    with_reducible assumption

theorem startServe_keeps [Fact (M .free)] [Fact (M .regs)] [Fact (M .host)] [Fact (M .ump)] [Fact (M .lkr)] [Fact (M .mem)]
    [Fact (M .scb)] [Fact (M .mgl)] [Fact (M .rdc)] [Fact (M .wst)] [Fact (M .eng)] [Fact (M .cells)] {s0 s : State}
    {r : ReadyServe} {ends : Ends} {no start : Nat} (hK : Keeps M s0 s) :
    Keeps M s0 (startServe s r ends no start) := by
  unfold startServe
  dsimp only
  split
  · exact State.endServe_keeps hK
  · split
    · refine Keeps.ite (fun _ => State.endServe_keeps hK) (fun _ => Keeps.ite (fun _ => ?_) (fun _ => ?_))
      · exact Keeps.mk' (State.setServe_keeps (endStream_keeps hK)) le_rfl rfl (fun x => x) (fun x => x) le_rfl
      · refine Keeps.ite (fun _ => launch_keeps hK) (fun _ => Keeps.ite (fun _ => State.endServe_keeps hK) (fun _ => ?_))
        exact launch_keeps (settleList_keeps hK)
    · exact State.endServe_keeps hK

theorem State.takeEnds_keeps {M : Part → Prop} [Fact (M .free)] [Fact (M .regs)] [Fact (M .host)] [Fact (M .ump)]
    [Fact (M .lkr)] [Fact (M .mem)] [Fact (M .scb)] [Fact (M .cells)] {s0 : State} {s : Sys2Proof.Machine.State}
    {r : Option Sys2Proof.Machine.ReadyServe} {gone : List ℕ} {step : ℕ} (hK : Keeps M s0 s) :
    Keeps M s0 (State.takeEnds s r gone step).2 := by
  unfold State.takeEnds
  refine Keeps.foldlSnd ?_ ?_
  · with_reducible assumption
  · intro x0
    intro x1
    intro x2
    split
    · dsimp only
      refine State.endRequest_keeps ?_
      with_reducible assumption
    · with_reducible assumption

theorem State.takeNumber_keeps {M : Part → Prop} [Fact (M .ump)] {s0 : State} {s : Sys2Proof.Machine.State}
    {r : Sys2Proof.Machine.ReadyServe} (hK : Keeps M s0 s) :
    Keeps M s0 (State.takeNumber s r).2 := by
  unfold State.takeNumber
  refine Keeps.iteSnd ?_ ?_
  · intro x0
    with_reducible assumption
  · intro x1
    dsimp only
    refine Keeps.mk' ?_ le_rfl rfl (fun x => x) (fun x => x) le_rfl
    with_reducible assumption

theorem State.expireDrains_keeps {M : Part → Prop} [Fact (M .ump)] {s0 : State} {s : Sys2Proof.Machine.State} {instant : ℕ}
    (hK : Keeps M s0 s) :
    Keeps M s0 (State.expireDrains s instant) := by
  unfold State.expireDrains
  extract_lets v0
  refine Keeps.foldl ?_ ?_
  · with_reducible assumption
  · intro x1
    intro x2
    intro x3
    extract_lets v4
    refine Keeps.ite ?_ ?_
    · intro x5
      refine State.markEnding_keeps ?_
      with_reducible assumption
    · intro x6
      with_reducible assumption

theorem State.forgetCtx_keeps {M : Part → Prop} [Fact (M .free)] [Fact (M .regs)] [Fact (M .host)] [Fact (M .ump)]
    [Fact (M .mem)] [Fact (M .scb)] [Fact (M .cells)] {s0 : State} {s : Sys2Proof.Machine.State} {c : ℕ} (hK : Keeps M s0 s) :
    Keeps M s0 (State.forgetCtx s c) := by
  unfold State.forgetCtx
  extract_lets v0 v1 v2 v3 v4
  have h5 : Keeps M s0 v4 := by
    unfold v4
    refine Keeps.mk' ?_ le_rfl rfl (fun x => x) (fun x => x) le_rfl
    with_reducible assumption
  clear_value v4
  refine writeAcct_keeps ?_
  with_reducible assumption

theorem State.releaseMemory_keeps {M : Part → Prop} [Fact (M .mem)] {s0 : State} {s : Sys2Proof.Machine.State} {ps : List ℕ}
    {c : ℕ} {event : Bool} (hK : Keeps M s0 s) :
    Keeps M s0 (State.releaseMemory s ps c event) := by
  unfold State.releaseMemory
  refine Keeps.ite ?_ ?_
  · intro x0
    with_reducible assumption
  · intro x1
    refine Keeps.mk' ?_ le_rfl rfl (fun x => x) (fun x => x) le_rfl
    with_reducible assumption

theorem State.destroyCtx_keeps {M : Part → Prop} [Fact (M .free)] [Fact (M .regs)] [Fact (M .host)] [Fact (M .ump)]
    [Fact (M .lkr)] [Fact (M .mem)] [Fact (M .scb)] [Fact (M .mgl)] [Fact (M .rdc)] [Fact (M .wst)] [Fact (M .eng)]
    [Fact (M .cells)] {s0 : State} {s : Sys2Proof.Machine.State} {c : ℕ} (hK : Keeps M s0 s) :
    Keeps M s0 (State.destroyCtx s c) := by
  unfold State.destroyCtx
  split
  · with_reducible assumption
  · extract_lets v0 v1 v2 v3 v4 v5 v6 v7 v8
    have h9 : Keeps M s0 v0 := by
      unfold v0
      refine Keeps.ite ?_ ?_
      · intro x10
        refine State.urgent_keeps ?_
        with_reducible assumption
      · intro x11
        with_reducible assumption
    clear_value v0
    have h12 : Keeps M s0 v1 := by
      unfold v1
      refine Keeps.foldl ?_ ?_
      · with_reducible assumption
      · intro x13
        intro x14
        intro x15
        refine State.abandonLoad_keeps ?_
        with_reducible assumption
    clear_value v1
    have h16 : Keeps M s0 v2 := by
      unfold v2
      refine Keeps.foldl ?_ ?_
      · with_reducible assumption
      · intro x17
        intro x18
        intro x19
        refine State.drop_keeps ?_
        with_reducible assumption
    clear_value v2
    have h20 : Keeps M s0 v3 := by
      unfold v3
      refine Keeps.foldl ?_ ?_
      · with_reducible assumption
      · intro x21
        intro x22
        intro x23
        refine State.endRequest_keeps ?_
        with_reducible assumption
    clear_value v3
    have h24 : Keeps M s0 v4 := by
      unfold v4
      refine Keeps.foldl ?_ ?_
      · with_reducible assumption
      · intro x25
        intro x26
        intro x27
        refine State.closeRecord_keeps ?_
        with_reducible assumption
    clear_value v4
    have h28 : Keeps M s0 v5 := by
      unfold v5
      refine State.releaseMemory_keeps ?_
      with_reducible assumption
    clear_value v5
    have h29 : Keeps M s0 v6 := by
      unfold v6
      refine State.unbindSets_keeps ?_
      with_reducible assumption
    clear_value v6
    have h30 : Keeps M s0 v7 := by
      unfold v7
      refine State.clearCtxRegs_keeps ?_
      with_reducible assumption
    clear_value v7
    have h31 : Keeps M s0 v8 := by
      unfold v8
      refine State.forgetCtx_keeps ?_
      with_reducible assumption
    clear_value v8
    refine Keeps.ite ?_ ?_
    · intro x32
      refine State.setCtx_keeps ?_
      with_reducible assumption
    · intro x33
      with_reducible assumption

theorem State.profilingAtBoundary_keeps {M : Part → Prop} [Fact (M .regs)] [Fact (M .ref)] {s0 : State}
    {s : Sys2Proof.Machine.State} {instant : ℕ} (hK : Keeps M s0 s) :
    Keeps M s0 (State.profilingAtBoundary s instant) := by
  unfold State.profilingAtBoundary
  refine Keeps.ite ?_ ?_
  · intro x0
    refine State.setProfiling_keeps ?_
    with_reducible assumption
  · intro x1
    with_reducible assumption

theorem State.liftFences_keeps {M : Part → Prop} [Fact (M .free)] [Fact (M .regs)] [Fact (M .host)] [Fact (M .ump)]
    [Fact (M .mem)] [Fact (M .scb)] [Fact (M .wst)] [Fact (M .cells)] {s0 : State} {s : Sys2Proof.Machine.State}
    (hK : Keeps M s0 s) :
    Keeps M s0 (State.liftFences s) := by
  unfold State.liftFences
  refine Keeps.mk' ?_ le_rfl rfl (fun x => x) (fun x => x) le_rfl
  with_reducible assumption

theorem applyCommit_keeps {M : Part → Prop} [Fact (M .regs)] [Fact (M .host)] [Fact (M .lkr)] [Fact (M .mem)]
    [Fact (M .cells)] {s0 : State} {instant : ℕ} {s : Sys2Proof.Machine.State} {r : Sys2Proof.Machine.Record}
    (hK : Keeps M s0 s) :
    Keeps M s0 (applyCommit instant s r) := by
  unfold applyCommit
  split
  · refine Keeps.ite ?_ ?_
    · intro x0
      with_reducible assumption
    · intro x1
      extract_lets v2 v3 v4 v5
      have h6 : Keeps M s0 v2 := by
        unfold v2
        refine State.modDir_keeps ?_
        with_reducible assumption
      clear_value v2
      have h7 : Keeps M s0 v3 := by
        unfold v3
        refine State.modRecord_keeps ?_
        with_reducible assumption
      clear_value v3
      have h8 : Keeps M s0 v4 := by
        unfold v4
        refine State.setUncommitted_keeps ?_
        refine State.setUncommitted_keeps ?_
        with_reducible assumption
      clear_value v4
      have h9 : Keeps M s0 v5 := by
        unfold v5
        refine State.bump_keeps ?_
        with_reducible assumption
      clear_value v5
      refine State.ctxEvent_keeps ?_
      with_reducible assumption
  · with_reducible assumption

theorem switchVersion_keeps {M : Part → Prop} [Fact (M .regs)] [Fact (M .lkr)] [Fact (M .mem)] [Fact (M .scb)]
    [Fact (M .cells)] {s0 : State} {instant : ℕ} {s : Sys2Proof.Machine.State} {w : Sys2Proof.Machine.WaitingVersion}
    (hK : Keeps M s0 s) :
    Keeps M s0 (switchVersion instant s w) := by
  unfold switchVersion
  split
  · refine Keeps.ite ?_ ?_
    · intro x0
      with_reducible assumption
    · intro x1
      extract_lets v2 v3 v4
      have h5 : Keeps M s0 v2 := by
        unfold v2
        refine State.scrubFree_keeps ?_
        with_reducible assumption
      clear_value v2
      have h6 : Keeps M s0 v3 := by
        unfold v3
        refine State.modDir_keeps ?_
        with_reducible assumption
      clear_value v3
      refine Keeps.mk' ?_ le_rfl rfl (fun x => x) (fun x => x) le_rfl
      with_reducible assumption
  · with_reducible assumption

theorem acctSlots_keeps {M : Part → Prop} [Fact (M .host)] {s0 : State} {s : Sys2Proof.Machine.State} {take : Bool}
    (hK : Keeps M s0 s) :
    Keeps M s0 (acctSlots s take) := by
  unfold acctSlots
  extract_lets v0 v1
  refine State.modPort_keeps ?_
  with_reducible assumption

theorem takeOver_keeps {M : Part → Prop} [Fact (M .regs)] [Fact (M .host)] [Fact (M .ump)] {s0 : State}
    {k : Sys2Proof.Machine.Check} {s : Sys2Proof.Machine.State} {instant : ℕ} (hK : Keeps M s0 s) :
    Keeps M s0 (takeOver k s instant) := by
  unfold takeOver
  extract_lets v0 v1 v2 v3 v4 v5 v6
  have h7 : Keeps M s0 v1 := by
    unfold v1
    refine Keeps.ite ?_ ?_
    · intro x8
      refine State.setFld_keeps ?_
      refine acctSlots_keeps ?_
      with_reducible assumption
    · intro x9
      with_reducible assumption
  clear_value v1
  have h10 : Keeps M s0 v3 := by
    unfold v3
    refine State.modPort_keeps ?_
    with_reducible assumption
  clear_value v3
  have h11 : Keeps M s0 v4 := by
    unfold v4
    refine State.setFld_keeps ?_
    with_reducible assumption
  clear_value v4
  refine Keeps.mk' ?_ le_rfl rfl (fun x => x) (fun x => x) le_rfl
  with_reducible assumption

theorem applyAcct_keeps [Fact (M .free)] [Fact (M .regs)] [Fact (M .host)] [Fact (M .ump)] [Fact (M .mem)] [Fact (M .scb)]
    [Fact (M .cells)] {s0 s : State} {k : Check} (hK : Keeps M s0 s) : Keeps M s0 (applyAcct k s) := by
  have hb : Keeps M s0 (if acctOn k.old then { acctSlots { s with regs := k.old.regs } false with regs := s.regs } else s) := by
    refine Keeps.ite (fun _ => ?_) (fun _ => hK)
    exact hK.upd rfl rfl (by cases e : s.host.owner <;> simp [acctSlots, State.modPort, HostState.setPort, e]) rfl rfl rfl
  unfold applyAcct
  refine Keeps.ite (fun _ => hK) (fun _ => ?_)
  refine Keeps.ite (fun _ => ?_) (fun _ => hb)
  exact Keeps.foldl (acctSlots_keeps hb) (fun t x h => writeAcct_keeps h)

theorem applySets_keeps {M : Part → Prop} [Fact (M .scb)] {s0 : State} {k : Sys2Proof.Machine.Check}
    {s : Sys2Proof.Machine.State} (hK : Keeps M s0 s) :
    Keeps M s0 (applySets k s) := by
  unfold applySets
  refine Keeps.foldl ?_ ?_
  · with_reducible assumption
  · intro x0
    intro x1
    intro x2
    refine Keeps.mk' ?_ le_rfl rfl (fun x => x) (fun x => x) le_rfl
    with_reducible assumption

theorem applyPartitioned_keeps {M : Part → Prop} [Fact (M .ref)] {s0 : State} {k : Sys2Proof.Machine.Check}
    {s : Sys2Proof.Machine.State} (hK : Keeps M s0 s) :
    Keeps M s0 (applyPartitioned k s) := by
  unfold applyPartitioned
  extract_lets v0
  refine Keeps.ite ?_ ?_
  · intro x1
    with_reducible assumption
  · intro x2
    refine State.extendMrBytes_keeps ?_
    with_reducible assumption

theorem applyGstep_keeps {M : Part → Prop} [Fact (M .regs)] [Fact (M .rdc)] {s0 : State} {s : Sys2Proof.Machine.State}
    (hK : Keeps M s0 s) :
    Keeps M s0 (applyGstep s) := by
  unfold applyGstep
  refine Keeps.ite ?_ ?_
  · intro x0
    with_reducible assumption
  · intro x1
    extract_lets v2 v3
    have h4 : Keeps M s0 v2 := by
      unfold v2
      refine State.setFld_keeps ?_
      with_reducible assumption
    clear_value v2
    refine Keeps.mk' ?_ le_rfl rfl (fun x => x) (fun x => x) le_rfl
    with_reducible assumption

theorem applyRsv_keeps {M : Part → Prop} [Fact (M .regs)] [Fact (M .ump)] {s0 : State} {k : Sys2Proof.Machine.Check}
    {s : Sys2Proof.Machine.State} {instant : ℕ} (hK : Keeps M s0 s) :
    Keeps M s0 (applyRsv k s instant) := by
  unfold applyRsv
  extract_lets v0 v1 v2 v3 v4 v5
  have h6 : Keeps M s0 v4 := by
    unfold v4
    refine State.setReg_keeps ?_
    with_reducible assumption
  clear_value v4
  refine Keeps.ite ?_ ?_
  · intro x7
    refine Keeps.ite ?_ ?_
    · intro x8
      refine Keeps.mk' ?_ le_rfl rfl (fun x => x) (fun x => x) le_rfl
      with_reducible assumption
    · intro x9
      with_reducible assumption
  · intro x10
    refine Keeps.mk' ?_ le_rfl rfl (fun x => x) (fun x => x) le_rfl
    with_reducible assumption

theorem moveRequest_keeps {M : Part → Prop} [Fact (M .regs)] [Fact (M .ump)] [Fact (M .mem)] [Fact (M .scb)] [Fact (M .cells)]
    {s0 : State} {old : Option Sys2Proof.Machine.Image} {new : Option Sys2Proof.Machine.Image} {newId : ℕ} {newEpoch : ℕ}
    {s : Sys2Proof.Machine.State} {q : Sys2Proof.Machine.Request} (hK : Keeps M s0 s) :
    Keeps M s0 (moveRequest old new newId newEpoch s q) := by
  unfold moveRequest
  extract_lets v0 v1
  refine Keeps.ite ?_ ?_
  · intro x2
    refine State.markEnding_keeps ?_
    with_reducible assumption
  · intro x3
    refine State.modReq_keeps ?_
    refine State.kvRelease_keeps ?_
    with_reducible assumption

theorem State.bankLeaves_keeps {M : Part → Prop} [Fact (M .ref)] [Fact (M .wst)] {s0 : State} {s : Sys2Proof.Machine.State}
    {b : ℕ} {drain : Bool} (hK : Keeps M s0 s) :
    Keeps M s0 (State.bankLeaves s b drain) := by
  unfold State.bankLeaves
  refine Keeps.ite ?_ ?_
  · intro x0
    refine State.setBank_keeps ?_
    with_reducible assumption
  · intro x1
    refine State.bankBecomes_keeps ?_
    with_reducible assumption

theorem State.switchBanks_keeps [Fact (M .regs)] [Fact (M .ump)] [Fact (M .mem)] [Fact (M .ref)] [Fact (M .scb)]
    [Fact (M .wst)] [Fact (M .cells)] {s0 s : State} {old new : Nat} (hK : Keeps M s0 s) : Keeps M s0 (s.switchBanks old new)
    := by
  unfold State.switchBanks
  refine Keeps.ite (fun _ => hK) (fun _ => ?_)
  extract_lets limit policy drain before oldEpoch oldImage s1 banks e s2 s3 mine id image
  have h1 : Keeps M s0 s1 := Keeps.foldl hK (fun t x h => State.bankLeaves_keeps h)
  have h3 : Keeps M s0 s3 := by
    refine Keeps.ite (fun _ => h1) (fun _ => Keeps.foldl ?_ (fun t x h => State.bankBecomes_keeps h))
    exact h1.trans (.mk rfl List.prefix_rfl (Nat.le_succ _) le_rfl (fun x => x) (fun x => x))
  clear_value s3 oldEpoch
  cases oldEpoch with
  | none => exact h3
  | some e =>
    refine Keeps.ite (fun _ => Keeps.ite (fun _ => h3) (fun _ => State.markEnding_keeps h3))
      (fun _ => Keeps.ite (fun _ => State.markEnding_keeps h3) (fun _ => ?_))
    exact Keeps.foldl h3 (fun t x h => moveRequest_keeps h)

theorem applyZeroPage_keeps {M : Part → Prop} [Fact (M .regs)] [Fact (M .mem)] [Fact (M .scb)] [Fact (M .cells)] {s0 : State}
    {k : Sys2Proof.Machine.Check} {s : Sys2Proof.Machine.State} (hK : Keeps M s0 s) :
    Keeps M s0 (applyZeroPage k s) := by
  unfold applyZeroPage
  refine Keeps.ite ?_ ?_
  · intro x0
    refine State.zeroPages_keeps ?_
    with_reducible assumption
  · intro x1
    with_reducible assumption

theorem applyQuotas_keeps {M : Part → Prop} [Fact (M .free)] [Fact (M .regs)] [Fact (M .host)] [Fact (M .ump)] [Fact (M .lkr)]
    [Fact (M .mem)] [Fact (M .scb)] [Fact (M .cells)] {s0 : State} {k : Sys2Proof.Machine.Check} {s : Sys2Proof.Machine.State}
    (hK : Keeps M s0 s) :
    Keeps M s0 (applyQuotas k s) := by
  unfold applyQuotas
  refine Keeps.mk' ?_ le_rfl rfl (fun x => x) (fun x => x) le_rfl
  with_reducible assumption

theorem assignMemory_keeps {M : Part → Prop} [Fact (M .regs)] [Fact (M .mem)] {s0 : State} {k : Sys2Proof.Machine.Check}
    {s : Sys2Proof.Machine.State} (hK : Keeps M s0 s) :
    Keeps M s0 (assignMemory k s) := by
  unfold assignMemory
  split
  · extract_lets v0 v1 v2 v3 v4
    have h5 : Keeps M s0 v1 := by
      unfold v1
      refine State.setFld_keeps ?_
      with_reducible assumption
    clear_value v1
    have h6 : Keeps M s0 v3 := by
      unfold v3
      refine State.setPages_keeps ?_
      with_reducible assumption
    clear_value v3
    refine Keeps.ite ?_ ?_
    · intro x7
      with_reducible assumption
    · intro x8
      split
      · refine Keeps.mk' ?_ le_rfl rfl (fun x => x) (fun x => x) le_rfl
        with_reducible assumption
      · refine State.releaseMemory_keeps ?_
        with_reducible assumption
      · with_reducible assumption

theorem setRing_keeps {M : Part → Prop} [Fact (M .host)] {s0 : State} {k : Sys2Proof.Machine.Check}
    {s : Sys2Proof.Machine.State} {i : ℕ} (hK : Keeps M s0 s) :
    Keeps M s0 (setRing k s i) := by
  unfold setRing
  extract_lets v0 v1
  refine Keeps.ite ?_ ?_
  · intro x2
    refine State.modCtx_keeps ?_
    with_reducible assumption
  · intro x3
    split
    · refine State.modCtx_keeps ?_
      with_reducible assumption
    · with_reducible assumption

theorem createCtx_keeps {M : Part → Prop} [Fact (M .free)] [Fact (M .regs)] [Fact (M .host)] [Fact (M .ump)] [Fact (M .mem)]
    [Fact (M .scb)] [Fact (M .cells)] {s0 : State} {k : Sys2Proof.Machine.Check} {s : Sys2Proof.Machine.State} {c : ℕ}
    (hK : Keeps M s0 s) :
    Keeps M s0 (createCtx k s c) := by
  unfold createCtx
  extract_lets v0 v1 v2 v3
  have h4 : Keeps M s0 v0 := by
    unfold v0
    refine State.setCtx_keeps ?_
    with_reducible assumption
  clear_value v0
  have h5 : Keeps M s0 v1 := by
    unfold v1
    refine Keeps.ite ?_ ?_
    · intro x6
      with_reducible assumption
    · intro x7
      refine State.setFld_keeps ?_
      with_reducible assumption
  clear_value v1
  have h8 : Keeps M s0 v2 := by
    unfold v2
    refine writeAcct_keeps ?_
    refine State.setAcct_keeps ?_
    with_reducible assumption
  clear_value v2
  refine Keeps.mk' ?_ le_rfl rfl (fun x => x) (fun x => x) le_rfl
  with_reducible assumption

theorem applyCheck_keeps [Fact (M .free)] [Fact (M .regs)] [Fact (M .host)] [Fact (M .ump)] [Fact (M .lkr)] [Fact (M .mem)]
    [Fact (M .ref)] [Fact (M .scb)] [Fact (M .mgl)] [Fact (M .rdc)] [Fact (M .wst)] [Fact (M .eng)] [Fact (M .cells)]
    {s0 : State} {k : Check} {instant : Nat} (hK : Keeps M s0 k.old) (hN : RegsWf k.old.regs → RegsWf k.new.regs) :
    Keeps M s0 (applyCheck k instant) := by
  have h0 : Keeps M s0 { k.old with regs := k.new.regs } := hK.trans (.mk rfl List.prefix_rfl le_rfl le_rfl (fun x => x) hN)
  have h1 := Keeps.foldl (l := k.destroyed) h0 (fun t x h => State.destroyCtx_keeps (c := x) h)
  have h2 := Keeps.foldl (l := k.created) h1 (fun t x h => createCtx_keeps (k := k) (c := x) h)
  have h3 := Keeps.foldl (l := k.sessionIdx) h2
    (fun t c h => State.modCtx_keeps (c := c) (f := fun x => { x with session := k.session c }) h)
  have h4 := Keeps.foldl (l := k.ringIdx.filter (fun i => k.mine (i / 65536))) h3 (fun t x h => setRing_keeps (k := k) (i := x) h)
  have h5 := applyZeroPage_keeps (k := k) (applyQuotas_keeps (k := k) (assignMemory_keeps (k := k) h4))
  unfold applyCheck
  extract_lets src a b c d e f g h i j l m n o p
  have hi : Keeps M s0 i := Keeps.ite (fun _ => State.switchBanks_keeps h5) (fun _ => h5)
  have hp : Keeps M s0 p :=
    applyAcct_keeps (State.applyLinks_keeps (applySets_keeps (applyGroupList_keeps (applyPartitioned_keeps
      (applyGstep_keeps (applyRsv_keeps hi))))))
  exact Keeps.ite (fun _ => takeOver_keeps hp) (fun _ => hp)

theorem State.modBank_keeps {M : Part → Prop} [Fact (M .host)] {s0 : State} {s : Sys2Proof.Machine.State}
    {p : Sys2Proof.Machine.Port} {f : Sys2Proof.Machine.Bank → Sys2Proof.Machine.Bank} (hK : Keeps M s0 s) :
    Keeps M s0 (State.modBank s p f) := by
  unfold State.modBank
  refine State.modPort_keeps ?_
  with_reducible assumption

theorem overlay_keeps [Fact (M .regs)] {s0 s : State} {ws : List StagedWrite} (hK : Keeps M s0 s) : Keeps M s0 (overlay s ws)
    := by
  unfold overlay
  exact Keeps.foldl hK (fun t x h => State.setReg_keeps h)

theorem takeBank_keeps [Fact (M .free)] [Fact (M .regs)] [Fact (M .host)] [Fact (M .ump)] [Fact (M .lkr)] [Fact (M .mem)]
    [Fact (M .ref)] [Fact (M .scb)] [Fact (M .mgl)] [Fact (M .rdc)] [Fact (M .wst)] [Fact (M .eng)] [Fact (M .cells)]
    {s0 : State} {instant : Nat} {s : State} {p : Port} (hK : Keeps M s0 s) : Keeps M s0 (takeBank instant s p) := by
  unfold takeBank
  dsimp only
  refine Keeps.ite (fun _ => hK) (fun _ => State.trace_keeps (State.setFld_keeps (Keeps.ite (fun _ => ?_) (fun _ => State.modBank_keeps hK))))
  exact State.setReg64_keeps (State.bump_keeps (State.modBank_keeps (applyCheck_keeps hK (fun h => (overlay_keeps (M := M) (Keeps.refl s)).regs h))))

theorem State.takeBanks_keeps {M : Part → Prop} [Fact (M .free)] [Fact (M .regs)] [Fact (M .host)] [Fact (M .ump)]
    [Fact (M .lkr)] [Fact (M .mem)] [Fact (M .ref)] [Fact (M .scb)] [Fact (M .mgl)] [Fact (M .rdc)] [Fact (M .wst)]
    [Fact (M .eng)] [Fact (M .cells)] {s0 : State} {s : Sys2Proof.Machine.State} {instant : ℕ} (hK : Keeps M s0 s) :
    Keeps M s0 (State.takeBanks s instant) := by
  unfold State.takeBanks
  extract_lets v0 v1 v2 v3
  refine Keeps.foldl ?_ ?_
  · with_reducible assumption
  · intro x4
    intro x5
    intro x6
    refine takeBank_keeps ?_
    with_reducible assumption

theorem State.boundary_keeps [Fact (M .free)] [Fact (M .regs)] [Fact (M .host)] [Fact (M .ump)] [Fact (M .lkr)]
    [Fact (M .mem)] [Fact (M .ref)] [Fact (M .scb)] [Fact (M .mgl)] [Fact (M .rdc)] [Fact (M .wst)] [Fact (M .eng)]
    [Fact (M .cells)] {s0 s : State} {t : Slot} (hK : Keeps M s0 s) : Keeps M s0 (s.boundary t) := by
  unfold State.boundary
  extract_lets instant s1 s2 s3 s4 torn s5 s6 r
  have h6 : Keeps M s0 s6 := by
    refine State.expireDrains_keeps (State.profilingAtBoundary_keeps (State.dropClosed_keeps ?_))
    refine Keeps.foldl (State.liftFences_keeps ?_) (fun u x h => State.destroyCtx_keeps h)
    refine Keeps.foldl ?_ (fun u x h => applyCommit_keeps h)
    exact Keeps.foldl (State.takeBanks_keeps hK) (fun u x h => switchVersion_keeps h)
  clear_value s6 r
  cases r with
  | none =>
    dsimp only
    have h8 := State.takeEnds_keeps (r := none) (gone := revokedBefore s6 instant) (step := 0) h6
    generalize s6.takeEnds none (revokedBefore s6 instant) 0 = e at h8 ⊢
    exact Keeps.mk' (State.settleDrains_keeps (State.trace_keeps (State.applyRevocations_keeps (h8.upd rfl rfl rfl rfl rfl rfl)))) le_rfl rfl
      (fun x => x) (fun x => x) le_rfl
  | some r =>
    dsimp only
    have h7 := State.takeNumber_keeps (r := r) h6
    generalize s6.takeNumber r = q at h7 ⊢
    have h8 := State.takeEnds_keeps (r := some r) (gone := revokedBefore q.2 instant) (step := q.1) h7
    generalize q.2.takeEnds (some r) (revokedBefore q.2 instant) q.1 = e at h8 ⊢
    exact Keeps.mk' (State.settleDrains_keeps (startServe_keeps (State.trace_keeps (State.applyRevocations_keeps (h8.upd rfl rfl rfl rfl rfl rfl))))) le_rfl rfl
      (fun x => x) (fun x => x) le_rfl

theorem chooseIdle_keeps {M : Part → Prop} [Fact (M .free)] [Fact (M .regs)] [Fact (M .ump)] [Fact (M .scb)] {s0 : State}
    {s : Sys2Proof.Machine.State} {t : ℕ} (hK : Keeps M s0 s) :
    Keeps M s0 (chooseIdle s t) := by
  unfold chooseIdle
  extract_lets v0
  refine State.startSlot_keeps ?_
  with_reducible assumption

theorem chooseShared_keeps [Fact (M .free)] [Fact (M .regs)] [Fact (M .ump)] [Fact (M .scb)] {s0 s : State} {t : Nat}
    (hK : Keeps M s0 s) : KeepsQ M s0 (chooseShared s t).1 := by
  intro u e
  unfold chooseShared at e
  dsimp only at e
  obtain ⟨c, -, e⟩ := Option.bind_eq_some_iff.mp e
  obtain ⟨r, -, rfl⟩ := Option.map_eq_some_iff.mp e
  exact State.startSlot_keeps (hK.upd rfl rfl rfl rfl rfl rfl)

theorem chooseReserved_keeps [Fact (M .free)] [Fact (M .regs)] [Fact (M .ump)] [Fact (M .scb)] {s0 s : State} {t : Nat}
    (hK : Keeps M s0 s) : KeepsQ M s0 (chooseReserved s t) := by
  unfold chooseReserved
  dsimp only
  split
  · exact KeepsQ.none
  · exact KeepsQ.some (State.startSlot_keeps (State.setRsvRun_keeps hK))

theorem chooseProbed_keeps {M : Part → Prop} [Fact (M .free)] [Fact (M .regs)] [Fact (M .ump)] [Fact (M .scb)] {s0 : State}
    {s : Sys2Proof.Machine.State} {t : ℕ} {did : ℕ} (hK : Keeps M s0 s) :
    KeepsQ M s0 (chooseProbed s t did) := by
  unfold chooseProbed
  split
  · exact KeepsQ.none
  · extract_lets v0
    refine KeepsQ.ite ?_ ?_
    · intro x1
      exact KeepsQ.none
    · intro x2
      refine KeepsQ.some ?_
      refine State.startSlot_keeps ?_
      with_reducible assumption

theorem State.retireFailed_keeps [Fact (M .free)] [Fact (M .regs)] [Fact (M .host)] [Fact (M .ump)] [Fact (M .lkr)]
    [Fact (M .mem)] [Fact (M .scb)] [Fact (M .cells)] {s0 : State} {t n : Nat} {s : State} (hK : Keeps M s0 s) : Keeps M s0
    (State.retireFailed t n s) := by
  induction n generalizing s with
  | zero => exact hK
  | succ n ih =>
    unfold State.retireFailed
    split
    · exact hK
    · exact ih (State.complete_keeps (State.dropServe_keeps (State.giveBack_keeps (State.takeNumber_keeps hK))))

theorem State.choose_keeps [Fact (M .free)] [Fact (M .regs)] [Fact (M .host)] [Fact (M .ump)] [Fact (M .lkr)] [Fact (M .mem)]
    [Fact (M .scb)] [Fact (M .cells)] {s0 s : State} {t : Nat} {probed : Option Nat} (hK : Keeps M s0 s) : Keeps M s0
    (s.choose t probed) := by
  have h1 := State.noteJobs_keeps (t := t) (State.retireFailed_keeps (t := t) (n := s.ump.ready.length + 1) hK)
  unfold State.choose
  dsimp only
  split
  · exact chooseGroup_keeps h1 _ (by assumption)
  · split
    · rename_i e
      obtain ⟨d, -, e⟩ := Option.bind_eq_some_iff.mp e
      exact chooseProbed_keeps h1 _ e
    · split
      · exact chooseReserved_keeps h1 _ (by assumption)
      · split
        · rename_i e
          exact chooseShared_keeps h1 _ (by rw [e])
        · exact chooseIdle_keeps (h1.upd rfl rfl rfl rfl rfl rfl)

theorem State.chooseStretched_keeps {M : Part → Prop} [Fact (M .free)] [Fact (M .regs)] [Fact (M .host)] [Fact (M .ump)]
    [Fact (M .lkr)] [Fact (M .mem)] [Fact (M .scb)] [Fact (M .cells)] {s0 : State} {s : Sys2Proof.Machine.State} {t : ℕ}
    {probed : Option ℕ} (hK : Keeps M s0 s) :
    Keeps M s0 (State.chooseStretched s t probed) := by
  unfold State.chooseStretched
  extract_lets v0 v1
  have h2 : Keeps M s0 v0 := by
    unfold v0
    refine State.choose_keeps ?_
    refine takeStretch_keeps ?_
    with_reducible assumption
  clear_value v0
  have h3 : Keeps M s0 v1 := by
    unfold v1
    refine State.choose_keeps ?_
    with_reducible assumption
  clear_value v1
  split
  · with_reducible assumption
  · refine Keeps.ite ?_ ?_
    · intro x4
      with_reducible assumption
    · intro x5
      with_reducible assumption

theorem State.nowActive_keeps {M : Part → Prop} [Fact (M .ump)] [Fact (M .pwr)] [Fact (M .scb)] {s0 : State}
    {s : Sys2Proof.Machine.State} (hK : Keeps M s0 s) :
    Keeps M s0 (State.nowActive s) := by
  unfold State.nowActive
  extract_lets v0 v1
  have h2 : Keeps M s0 v0 := by
    unfold v0
    refine State.tallyCycles_keeps ?_
    refine State.chargeStatic_keeps ?_
    with_reducible assumption
  clear_value v0
  refine Keeps.mk' ?_ le_rfl rfl (fun x => x) (fun x => x) le_rfl
  with_reducible assumption

theorem nextSlot_keeps {M : Part → Prop} [Fact (M .free)] [Fact (M .regs)] [Fact (M .host)] [Fact (M .ump)] [Fact (M .lkr)]
    [Fact (M .mem)] [Fact (M .pwr)] [Fact (M .scb)] [Fact (M .mgl)] [Fact (M .rdc)] [Fact (M .wst)] [Fact (M .eng)]
    [Fact (M .cells)] {s0 : State} {s : Sys2Proof.Machine.State} {t : Sys2Proof.Machine.Slot} {probed : Option ℕ}
    (hK : Keeps M s0 s) :
    Keeps M s0 (nextSlot s t probed) := by
  unfold nextSlot
  extract_lets v0 v1
  have h2 : Keeps M s0 v0 := by
    unfold v0
    refine Keeps.ite ?_ ?_
    · intro x3
      refine State.takeQueued_keeps ?_
      refine State.nowActive_keeps ?_
      with_reducible assumption
    · intro x4
      with_reducible assumption
  clear_value v0
  refine Keeps.ite ?_ ?_
  · intro x5
    refine State.takeQueued_keeps ?_
    refine State.enterHalfTime_keeps ?_
    with_reducible assumption
  · intro x6
    refine Keeps.ite ?_ ?_
    · intro x7
      with_reducible assumption
    · intro x8
      refine Keeps.ite ?_ ?_
      · intro x9
        refine Keeps.mk' ?_ le_rfl rfl (fun x => x) (fun x => x) le_rfl
        with_reducible assumption
      · intro x10
        refine State.chooseStretched_keeps ?_
        with_reducible assumption

theorem beginOverrun_keeps {M : Part → Prop} [Fact (M .ts)] [Fact (M .regs)] [Fact (M .ump)] [Fact (M .scb)] {s0 : State}
    {s : Sys2Proof.Machine.State} {t : Sys2Proof.Machine.Slot} {w : Sys2Proof.Machine.Work} (hK : Keeps M s0 s) :
    Keeps M s0 (beginOverrun s t w) := by
  unfold beginOverrun
  extract_lets v0 v1
  have h2 : Keeps M s0 v1 := by
    unfold v1
    refine Keeps.mk' ?_ le_rfl rfl (fun x => x) (fun x => x) le_rfl
    with_reducible assumption
  clear_value v1
  refine State.count_keeps ?_
  refine State.bump_keeps ?_
  with_reducible assumption

theorem State.write32_keeps {M : Part → Prop} [Fact (M .regs)] {s0 : State} {s : Sys2Proof.Machine.State}
    {p : Sys2Proof.Machine.Port} {func : ℕ} {off : ℕ} {v : ℕ} (hK : Keeps M s0 s) :
    Keeps M s0 (State.write32 s p func off v) := by
  unfold State.write32
  extract_lets v0
  split
  · refine Keeps.ite ?_ ?_
    · intro x1
      with_reducible assumption
    · intro x2
      extract_lets v3 v4 v5 v6
      refine State.setReg_keeps ?_
      with_reducible assumption
  · with_reducible assumption

theorem State.hdlCtl_keeps {M : Part → Prop} [Fact (M .regs)] {s0 : State} {s : Sys2Proof.Machine.State}
    {p : Sys2Proof.Machine.Port} {atTs : Bool} (hK : Keeps M s0 s) :
    Keeps M s0 (State.hdlCtl s p atTs) := by
  unfold State.hdlCtl
  refine State.setFld_keeps ?_
  with_reducible assumption

theorem State.measureSchedule_keeps {M : Part → Prop} [Fact (M .ref)] {s0 : State} {s : Sys2Proof.Machine.State} {slot : ℕ}
    {digest : ℕ} (hK : Keeps M s0 s) :
    Keeps M s0 (State.measureSchedule s slot digest) := by
  unfold State.measureSchedule
  refine State.extendMrBytes_keeps ?_
  with_reducible assumption

theorem takeHost_keeps {M : Part → Prop} [Fact (M .regs)] [Fact (M .host)] [Fact (M .mem)] [Fact (M .scb)] [Fact (M .mgl)]
    [Fact (M .wst)] [Fact (M .cells)] {s0 : State} {s : Sys2Proof.Machine.State} {p : Sys2Proof.Machine.Port} {off : ℕ}
    {data : List Sys2Proof.Byte} (hK : Keeps M s0 s) :
    Keeps M s0 (takeHost s p off data) := by
  unfold takeHost
  extract_lets v0
  have h1 : Keeps M s0 v0 := by
    unfold v0
    refine State.takeBytes_keeps ?_
    with_reducible assumption
  clear_value v0
  refine State.modLoad_keeps ?_
  with_reducible assumption

theorem fillFromState_keeps {M : Part → Prop} [Fact (M .free)] [Fact (M .regs)] [Fact (M .mem)] [Fact (M .scb)]
    [Fact (M .cells)] {s0 : State} {s : Sys2Proof.Machine.State} {r : Sys2Proof.Machine.Record}
    {e : Sys2Proof.Machine.DirEntry} {plain : List Sys2Proof.Byte} (hK : Keeps M s0 s) :
    Keeps M s0 (fillFromState s r e plain) := by
  unfold fillFromState
  extract_lets v0 v1 v2 v3
  have h4 : Keeps M s0 v3 := by
    unfold v3
    refine State.writePages_keeps ?_
    refine State.countPages_keeps ?_
    with_reducible assumption
  clear_value v3
  refine State.writePages_keeps ?_
  refine State.writePages_keeps ?_
  with_reducible assumption

theorem State.giveBullpen_keeps {M : Part → Prop} [Fact (M .mem)] {s0 : State} {s : Sys2Proof.Machine.State} {ps : List ℕ}
    {slot : ℕ} (hK : Keeps M s0 s) :
    Keeps M s0 (State.giveBullpen s ps slot) := by
  unfold State.giveBullpen
  refine State.setPages_keeps ?_
  with_reducible assumption

theorem openRecord_keeps {M : Part → Prop} [Fact (M .free)] [Fact (M .regs)] [Fact (M .lkr)] [Fact (M .mem)] [Fact (M .scb)]
    [Fact (M .cells)] {s0 : State} {s : Sys2Proof.Machine.State} {c : ℕ} {d : Sys2Proof.Desc} {i : Sys2Proof.Machine.Image}
    {g : Sys2Proof.Machine.Program} {e : Sys2Proof.Machine.DirEntry} {ps : List ℕ} {plain : Option (List Sys2Proof.Byte)}
    (hK : Keeps M s0 s) :
    Keeps M s0 (openRecord s c d i g e ps plain) := by
  unfold openRecord
  extract_lets v0 v1 v2 v3 v4 v5 v6 v7 v8
  have h9 : Keeps M s0 v5 := by
    unfold v5
    refine State.giveBullpen_keeps ?_
    with_reducible assumption
  clear_value v5
  have h10 : Keeps M s0 v6 := by
    unfold v6
    refine State.modDir_keeps ?_
    with_reducible assumption
  clear_value v6
  have h11 : Keeps M s0 v8 := by
    unfold v8
    refine Keeps.mk' ?_ le_rfl rfl (fun x => x) (fun x => x) le_rfl
    with_reducible assumption
  clear_value v8
  split
  · refine State.rewriteRecord_keeps ?_
    with_reducible assumption
  · refine fillFromState_keeps ?_
    with_reducible assumption

theorem makeRoom_keeps [Fact (M .regs)] [Fact (M .host)] [Fact (M .lkr)] [Fact (M .mem)] {s0 s : State} {t need keep : Nat}
    {newEntry : Bool} (hK : Keeps M s0 s) : KeepsM M s0 (makeRoom s t need newEntry keep) := by
  intro u l e
  unfold makeRoom at e
  dsimp only at e
  split at e
  · cases e
  · split at e
    · cases e
    · split at e
      · cases e
      · cases e
        exact Keeps.foldl hK (fun t x h => evict_keeps h)

theorem startLoad_keeps {M : Part → Prop} [Fact (M .free)] [Fact (M .regs)] [Fact (M .host)] [Fact (M .lkr)] [Fact (M .mem)]
    [Fact (M .scb)] {s0 : State} {s : Sys2Proof.Machine.State} {a : Sys2Proof.Machine.Accepted} {h : BitVec 2048}
    {b : Sys2Proof.Machine.BlobHeader} {higher : Bool} (hK : Keeps M s0 s) :
    Keeps M s0 (startLoad s a h b higher) := by
  unfold startLoad
  split
  · refine State.finish_keeps ?_
    with_reducible assumption
  · rename_i hq0
    refine Keeps.viaMade (M := M) (s0 := s0) hq0 ?_ (fun hk1 => ?_)
    · refine makeRoom_keeps ?_
      with_reducible assumption
    · extract_lets v2 v3 v4 v5 v6 v7 v8
      have h9 : Keeps M s0 v3 := by
        unfold v3
        refine State.begin_keeps ?_
        refine State.giveBullpen_keeps ?_
        with_reducible assumption
      clear_value v3
      have h10 : Keeps M s0 v6 := by
        unfold v6
        refine Keeps.mk' ?_ le_rfl rfl (fun x => x) (fun x => x) le_rfl
        with_reducible assumption
      clear_value v6
      refine Keeps.ite ?_ ?_
      · intro x11
        with_reducible assumption
      · intro x12
        refine Keeps.mk' ?_ le_rfl rfl (fun x => x) (fun x => x) le_rfl
        with_reducible assumption

theorem writeHostCells_keeps {M : Part → Prop} [Fact (M .free)] [Fact (M .regs)] [Fact (M .host)] [Fact (M .ump)]
    [Fact (M .mem)] [Fact (M .scb)] [Fact (M .cells)] {s0 : State} {s : Sys2Proof.Machine.State} {base : ℕ}
    {cs : List (ℕ × Sys2Proof.Byte)} (hK : Keeps M s0 s) :
    Keeps M s0 (writeHostCells s base cs) := by
  unfold writeHostCells
  refine Keeps.foldl ?_ ?_
  · with_reducible assumption
  · intro x0
    intro x1
    intro x2
    refine State.lpWrite_keeps ?_
    with_reducible assumption

theorem hostRead_keeps {M : Part → Prop} [Fact (M .free)] [Fact (M .regs)] [Fact (M .host)] [Fact (M .ump)] [Fact (M .mem)]
    [Fact (M .scb)] [Fact (M .cells)] {s0 : State} {s : Sys2Proof.Machine.State} {a : ℕ} {n : ℕ} (hK : Keeps M s0 s) :
    Keeps M s0 (hostRead s a n).2 := by
  unfold hostRead
  extract_lets v0
  split
  · rename_i hq1
    refine Keeps.viaPair (M := M) (s0 := s0) hq1 ?_ (fun hk2 => ?_)
    · refine Keeps.foldlSnd ?_ ?_
      · with_reducible assumption
      · intro x3
        intro x4
        intro x5
        unfold v0
        refine Keeps.iteSnd ?_ ?_
        · intro x6
          with_reducible assumption
        · intro x7
          split
          · rename_i hq8
            refine Keeps.viaPair (M := M) (s0 := s0) hq8 ?_ (fun hk9 => ?_)
            · refine readLineFor_keeps ?_
              with_reducible assumption
            · with_reducible assumption
    · with_reducible assumption

theorem State.accept_keeps {M : Part → Prop} [Fact (M .free)] [Fact (M .regs)] [Fact (M .host)] [Fact (M .ump)]
    [Fact (M .mem)] [Fact (M .scb)] [Fact (M .cells)] {s0 : State} {s : Sys2Proof.Machine.State} {c : ℕ} {r : ℕ} {pair : ℕ}
    {d : Sys2Proof.Desc} (hK : Keeps M s0 s) :
    Keeps M s0 (State.accept s c r pair d) := by
  unfold State.accept
  extract_lets v0 v1 v2 v3
  have h4 : Keeps M s0 v1 := by
    unfold v1
    refine State.modRing_keeps ?_
    with_reducible assumption
  clear_value v1
  have h5 : Keeps M s0 v2 := by
    unfold v2
    refine State.modRing_keeps ?_
    with_reducible assumption
  clear_value v2
  refine Keeps.mk' ?_ le_rfl rfl (fun x => x) (fun x => x) le_rfl
  with_reducible assumption

theorem State.fabricResend_keeps {M : Part → Prop} [Fact (M .host)] {s0 : State} {s : Sys2Proof.Machine.State}
    {a : Sys2Proof.Machine.Die} {b : Sys2Proof.Machine.Die} {seq : ℕ} (hK : Keeps M s0 s) :
    Keeps M s0 (State.fabricResend s a b seq) := by
  unfold State.fabricResend
  refine Keeps.foldl ?_ ?_
  · refine State.emit_keeps ?_
    with_reducible assumption
  · intro x0
    intro x1
    intro x2
    refine State.emit_keeps ?_
    with_reducible assumption

theorem State.setFabric_keeps {M : Part → Prop} [Fact (M .mgl)] {s0 : State} {s : Sys2Proof.Machine.State}
    {a : Sys2Proof.Machine.Die} {b : Sys2Proof.Machine.Die} {l : Sys2Proof.Machine.FabricLink} (hK : Keeps M s0 s) :
    Keeps M s0 (State.setFabric s a b l) := by
  unfold State.setFabric
  refine Keeps.mk' ?_ le_rfl rfl (fun x => x) (fun x => x) le_rfl
  with_reducible assumption

theorem State.fabricAccept_keeps {M : Part → Prop} [Fact (M .mgl)] {s0 : State} {s : Sys2Proof.Machine.State}
    {at_ : Sys2Proof.Machine.Die} {f : Sys2Proof.Machine.FabricFlit} (hK : Keeps M s0 s) :
    Keeps M s0 (State.fabricAccept s at_ f) := by
  unfold State.fabricAccept
  refine Keeps.ite ?_ ?_
  · intro x0
    refine Keeps.mk' ?_ le_rfl rfl (fun x => x) (fun x => x) le_rfl
    with_reducible assumption
  · intro x1
    extract_lets v2
    refine State.setFabric_keeps ?_
    with_reducible assumption

theorem fillFlashBuffer_keeps {M : Part → Prop} [Fact (M .regs)] {s0 : State} {s : Sys2Proof.Machine.State}
    {bs : List Sys2Proof.Byte} (hK : Keeps M s0 s) :
    Keeps M s0 (fillFlashBuffer s bs) := by
  unfold fillFlashBuffer
  refine Keeps.foldl ?_ ?_
  · with_reducible assumption
  · intro x0
    intro x1
    intro x2
    refine State.setReg_keeps ?_
    with_reducible assumption

theorem State.flashCtl_keeps {M : Part → Prop} [Fact (M .regs)] [Fact (M .pwr)] {s0 : State} {s : Sys2Proof.Machine.State}
    {port : Sys2Proof.Machine.Port} {op : ℕ} {value : Sys2Proof.Word} (hK : Keeps M s0 s) :
    Keeps M s0 (State.flashCtl s port op value) := by
  unfold State.flashCtl
  refine Keeps.ite ?_ ?_
  · intro x0
    with_reducible assumption
  · intro x1
    extract_lets v2 v3 v4 v5 v6
    have h7 : Keeps M s0 v2 := by
      unfold v2
      refine State.setFld_keeps ?_
      with_reducible assumption
    clear_value v2
    have h8 : Keeps M s0 v3 := by
      unfold v3
      refine Keeps.ite ?_ ?_
      · intro x9
        refine State.setFld_keeps ?_
        with_reducible assumption
      · intro x10
        with_reducible assumption
    clear_value v3
    have h11 : Keeps M s0 v5 := by
      unfold v5
      refine State.setFld_keeps ?_
      with_reducible assumption
    clear_value v5
    refine Keeps.ite ?_ ?_
    · intro x12
      with_reducible assumption
    · intro x13
      refine Keeps.ite ?_ ?_
      · intro x14
        refine State.setFld_keeps ?_
        with_reducible assumption
      · intro x15
        refine Keeps.mk' ?_ le_rfl rfl (fun x => x) (fun x => x) le_rfl
        with_reducible assumption

theorem State.mgmt_keeps {M : Part → Prop} [Fact (M .ts)] [Fact (M .free)] [Fact (M .regs)] [Fact (M .host)] [Fact (M .ump)]
    [Fact (M .lkr)] [Fact (M .mem)] [Fact (M .ref)] [Fact (M .err)] [Fact (M .pwr)] [Fact (M .scb)] [Fact (M .mgl)]
    [Fact (M .rdc)] [Fact (M .wst)] [Fact (M .eng)] [Fact (M .cells)] {s0 : State} {s : Sys2Proof.Machine.State} {cmd : ℕ}
    {a : Sys2Proof.Machine.MgmtAction} (hK : Keeps M s0 s) :
    Keeps M s0 (State.mgmt s cmd a) := by
  unfold State.mgmt
  split
  · with_reducible assumption
  · extract_lets v0 v1 v2 v3 v4
    have h5 : Keeps M s0 v0 := by
      unfold v0
      refine State.takeInbox_keeps ?_
      with_reducible assumption
    clear_value v0
    have h6 : Keeps M s0 v3 := by
      unfold v3
      refine Keeps.mk' ?_ le_rfl rfl (fun x => x) (fun x => x) le_rfl
      with_reducible assumption
    clear_value v3
    refine Keeps.ite ?_ ?_
    · intro x7
      with_reducible assumption
    · intro x8
      refine Keeps.ite ?_ ?_
      · intro x9
        refine State.mgmtAct_keeps ?_
        with_reducible assumption
      · intro x10
        refine Keeps.mk' ?_ le_rfl rfl (fun x => x) (fun x => x) le_rfl
        with_reducible assumption

theorem State.steerClock_keeps {M : Part → Prop} [Fact (M .free)] [Fact (M .regs)] [Fact (M .pwr)] [Fact (M .scb)]
    {s0 : State} {s : Sys2Proof.Machine.State} {watts : ℕ} (hK : Keeps M s0 s) :
    Keeps M s0 (State.steerClock s watts) := by
  unfold State.steerClock
  extract_lets v0 v1 v2 v3 v4 v5
  have h6 : Keeps M s0 v4 := by
    unfold v4
    refine Keeps.mk' ?_ le_rfl rfl (fun x => x) (fun x => x) le_rfl
    with_reducible assumption
  clear_value v4
  refine Keeps.ite ?_ ?_
  · intro x7
    with_reducible assumption
  · intro x8
    refine State.setClock_keeps ?_
    with_reducible assumption

theorem State.refreshVfPower_keeps {M : Part → Prop} [Fact (M .regs)] [Fact (M .pwr)] {s0 : State}
    {s : Sys2Proof.Machine.State} {watts : ℕ} (hK : Keeps M s0 s) :
    Keeps M s0 (State.refreshVfPower s watts) := by
  unfold State.refreshVfPower
  refine Keeps.ite ?_ ?_
  · intro x0
    with_reducible assumption
  · intro x1
    extract_lets v2 v3 v4 v5 v6
    have h7 : Keeps M s0 v5 := by
      unfold v5
      refine Keeps.mk' ?_ le_rfl rfl (fun x => x) (fun x => x) le_rfl
      with_reducible assumption
    clear_value v5
    refine Keeps.foldl ?_ ?_
    · with_reducible assumption
    · intro x8
      intro x9
      intro x10
      refine State.setReg_keeps ?_
      with_reducible assumption

theorem bootStep8_keeps {M : Part → Prop} [Fact (M .free)] [Fact (M .regs)] [Fact (M .host)] [Fact (M .ump)] [Fact (M .lkr)]
    [Fact (M .mem)] [Fact (M .err)] [Fact (M .pwr)] [Fact (M .scb)] [Fact (M .mgl)] [Fact (M .rdc)] [Fact (M .wst)]
    [Fact (M .eng)] [Fact (M .cells)] {s0 : State} {s : Sys2Proof.Machine.State} (hK : Keeps M s0 s) :
    KeepsE M s0 (bootStep8 s) := by
  unfold bootStep8
  extract_lets v0 v1 v2 v3 v4 v5 v6 v7 v8
  have h9 : Keeps M s0 v0 := by
    unfold v0
    refine State.setFld_keeps ?_
    refine State.setFld_keeps ?_
    refine State.setFld_keeps ?_
    with_reducible assumption
  clear_value v0
  have h10 : Keeps M s0 v1 := by
    unfold v1
    refine State.bootStep_keeps ?_
    with_reducible assumption
  clear_value v1
  have h11 : Keeps M s0 v6 := by
    unfold v6
    refine Keeps.mk' ?_ le_rfl rfl (fun x => x) (fun x => x) le_rfl
    with_reducible assumption
  clear_value v6
  have h12 : Keeps M s0 v7 := by
    unfold v7
    refine Keeps.ite ?_ ?_
    · intro x13
      refine State.setLink_keeps ?_
      with_reducible assumption
    · intro x14
      with_reducible assumption
  clear_value v7
  have h15 : Keeps M s0 v8 := by
    unfold v8
    refine State.applyLinks_keeps ?_
    refine State.waitSlot_keeps ?_
    with_reducible assumption
  clear_value v8
  split
  · refine KeepsE.ok ?_
    refine State.failDevice_keeps ?_
    with_reducible assumption
  · refine KeepsE.ok ?_
    refine Keeps.ite ?_ ?_
    · intro x16
      refine State.failDevice_keeps ?_
      with_reducible assumption
    · intro x17
      with_reducible assumption

theorem measureBank_keeps {M : Part → Prop} [Fact (M .ref)] {s0 : State} {s : Sys2Proof.Machine.State} {b : ℕ}
    (hK : Keeps M s0 s) :
    Keeps M s0 (measureBank s b) := by
  unfold measureBank
  extract_lets v0
  refine Keeps.ite ?_ ?_
  · intro x1
    refine State.extendMrBytes_keeps ?_
    with_reducible assumption
  · intro x2
    with_reducible assumption

theorem bootStep7_keeps {M : Part → Prop} [Fact (M .regs)] [Fact (M .ref)] {s0 : State} {s : Sys2Proof.Machine.State}
    (hK : Keeps M s0 s) :
    KeepsE M s0 (bootStep7 s) := by
  unfold bootStep7
  refine KeepsE.ok ?_
  refine State.bootStep_keeps ?_
  refine measureBank_keeps ?_
  refine measureBank_keeps ?_
  with_reducible assumption

theorem freshKeys_keeps {M : Part → Prop} [Fact (M .mem)] [Fact (M .ref)] {s0 : State} {s : Sys2Proof.Machine.State}
    (hK : Keeps M s0 s) :
    Keeps M s0 (freshKeys s) := by
  unfold freshKeys
  refine Keeps.mk' ?_ le_rfl rfl (fun x => x) (fun x => x) le_rfl
  with_reducible assumption

theorem bootStep6_keeps {M : Part → Prop} [Fact (M .regs)] [Fact (M .mem)] [Fact (M .ref)] {s0 : State}
    {s : Sys2Proof.Machine.State} (hK : Keeps M s0 s) :
    KeepsE M s0 (bootStep6 s) := by
  unfold bootStep6
  extract_lets v0 v1 v2 v3 v4
  have h5 : Keeps M s0 v2 := by
    unfold v2
    refine Keeps.ite ?_ ?_
    · intro x6
      with_reducible assumption
    · intro x7
      refine freshKeys_keeps ?_
      with_reducible assumption
  clear_value v2
  have h8 : Keeps M s0 v3 := by
    unfold v3
    refine State.setFld_keeps ?_
    with_reducible assumption
  clear_value v3
  refine KeepsE.ok ?_
  refine State.bootStep_keeps ?_
  refine Keeps.mk' ?_ le_rfl rfl (fun x => x) (fun x => x) le_rfl
  with_reducible assumption

theorem bootStep5_keeps {M : Part → Prop} [Fact (M .regs)] [Fact (M .host)] [Fact (M .ref)] [Fact (M .pwr)] {s0 : State}
    {s : Sys2Proof.Machine.State} (hK : Keeps M s0 s) :
    KeepsE M s0 (bootStep5 s) := by
  unfold bootStep5
  extract_lets v0
  split
  · refine KeepsE.error ?_
    refine State.bootFails_keeps ?_
    with_reducible assumption
  · split
    · extract_lets v1 v2 v3 v4 v5 v6 v7 v8 v9 v10
      have h11 : Keeps M s0 v5 := by
        unfold v5
        refine State.extendMrBytes_keeps ?_
        with_reducible assumption
      clear_value v5
      have h12 : Keeps M s0 v9 := by
        unfold v9
        refine Keeps.mk' ?_ (by first | exact le_rfl | (split <;> exact le_rfl) | (dsimp only; split; exact le_max_left _ _; exact le_rfl)) (by first | rfl | (split <;> rfl)) (by first | exact fun x => x | exact fun x => Memory.wf_filter _ x | exact fun x => Memory.wf_writeBytes _ _ x | exact fun x => Memory.wf_writeCells _ x | exact fun x => RegsWf.filter _ x) (by first | exact fun x => x | exact fun x => Memory.wf_filter _ x | exact fun x => Memory.wf_writeBytes _ _ x | exact fun x => Memory.wf_writeCells _ x | exact fun x => RegsWf.filter _ x) (by first | exact le_rfl | (split <;> exact le_rfl) | (dsimp only; split; exact le_max_left _ _; exact le_rfl))
        with_reducible assumption
      clear_value v9
      have h13 : Keeps M s0 v10 := by
        unfold v10
        refine State.setFld_keeps ?_
        with_reducible assumption
      clear_value v10
      refine KeepsE.ite ?_ ?_
      · intro x14
        refine KeepsE.error ?_
        refine State.bootFails_keeps ?_
        with_reducible assumption
      · intro x15
        refine KeepsE.ok ?_
        refine State.bootStep_keeps ?_
        refine State.extendMrBytes_keeps ?_
        with_reducible assumption

theorem bootStep3_keeps {M : Part → Prop} [Fact (M .free)] [Fact (M .regs)] [Fact (M .ref)] {s0 : State}
    {s : Sys2Proof.Machine.State} (hK : Keeps M s0 s) :
    KeepsE M s0 (bootStep3 s) := by
  unfold bootStep3
  extract_lets v0 v1 v2 v3
  have h4 : Keeps M s0 v3 := by
    unfold v3
    refine State.freed_keeps ?_
    with_reducible assumption
  clear_value v3
  refine KeepsE.ok ?_
  refine State.bootStep_keeps ?_
  refine Keeps.mk' ?_ le_rfl rfl (fun x => x) (fun x => x) le_rfl
  with_reducible assumption

theorem bootStep2_keeps {M : Part → Prop} [Fact (M .regs)] [Fact (M .ref)] [Fact (M .pwr)] {s0 : State}
    {s : Sys2Proof.Machine.State} (hK : Keeps M s0 s) :
    KeepsE M s0 (bootStep2 s) := by
  unfold bootStep2
  extract_lets v0
  refine KeepsE.ite ?_ ?_
  · intro x1
    refine KeepsE.error ?_
    refine State.bootFails_keeps ?_
    with_reducible assumption
  · intro x2
    split
    · refine KeepsE.error ?_
      refine State.bootFails_keeps ?_
      with_reducible assumption
    · split
      · split
        · refine KeepsE.error ?_
          refine State.bootFails_keeps ?_
          with_reducible assumption
        · refine KeepsE.ok ?_
          refine State.bootStep_keeps ?_
          refine State.setFld_keeps ?_
          refine State.extendMr_keeps ?_
          refine State.extendMr_keeps ?_
          with_reducible assumption

theorem bootRun_keeps [Fact (M .free)] [Fact (M .regs)] [Fact (M .host)] [Fact (M .ump)] [Fact (M .lkr)] [Fact (M .mem)]
    [Fact (M .ref)] [Fact (M .err)] [Fact (M .pwr)] [Fact (M .scb)] [Fact (M .mgl)] [Fact (M .rdc)] [Fact (M .wst)]
    [Fact (M .eng)] [Fact (M .cells)] {s0 : State} {tests : BootTests} {n : Nat} {s : State} (hK : Keeps M s0 s) : Keeps M s0
    (bootRun tests n s) := by
  induction n generalizing s with
  | zero => exact hK
  | succ n ih =>
    have h1 : KeepsE M s0 (match s.lastBootStep with
      | 0 => bootStep1 tests s
      | 1 => if bundleThere s then bootStep2 s else .error s
      | 2 => bootStep3 s
      | 3 => bootStep4 tests s
      | 4 => bootStep5 s
      | 5 => bootStep6 s
      | 6 => bootStep7 s
      | 7 => bootStep8 s
      | _ => .error s) := by
      split
      · exact bootStep1_keeps hK
      · exact KeepsE.ite (fun _ => bootStep2_keeps hK) (fun _ => KeepsE.error hK)
      · exact bootStep3_keeps hK
      · exact bootStep4_keeps hK
      · exact bootStep5_keeps hK
      · exact bootStep6_keeps hK
      · exact bootStep7_keeps hK
      · exact bootStep8_keeps hK
      · exact KeepsE.error hK
    unfold bootRun
    dsimp only
    split
    · rename_i e
      exact ih (h1.1 _ e)
    · rename_i e
      exact h1.2 _ e

theorem State.coldReset_keeps {M : Part → Prop} [Fact (M .ts)] [Fact (M .free)] [Fact (M .regs)] [Fact (M .host)]
    [Fact (M .ump)] [Fact (M .lkr)] [Fact (M .mem)] [Fact (M .ref)] [Fact (M .err)] [Fact (M .pwr)] [Fact (M .scb)]
    [Fact (M .mgl)] [Fact (M .rdc)] [Fact (M .wst)] [Fact (M .eng)] [Fact (M .cells)] {s0 : State}
    {s : Sys2Proof.Machine.State} {cause : ℕ} (hK : Keeps M s0 s) :
    Keeps M s0 (State.coldReset s cause) := by
  unfold State.coldReset
  split
  · with_reducible assumption
  · extract_lets v0
    have h1 : Keeps M s0 v0 := by
      unfold v0
      refine State.coldState_keeps ?_
      with_reducible assumption
    clear_value v0
    refine Keeps.ite ?_ ?_
    · intro x2
      refine State.startBoot_keeps ?_
      with_reducible assumption
    · intro x3
      with_reducible assumption

theorem State.countFlit_keeps {M : Part → Prop} [Fact (M .regs)] [Fact (M .scb)] {s0 : State} {s : Sys2Proof.Machine.State}
    {d : Sys2Proof.Machine.Die} {f : Sys2Proof.Machine.FabricFlit} (hK : Keeps M s0 s) :
    Keeps M s0 (State.countFlit s d f) := by
  unfold State.countFlit
  refine Keeps.elim ?_ ?_
  · with_reducible assumption
  · intro x0
    refine State.count_keeps ?_
    with_reducible assumption

theorem fabricTick_keeps {M : Part → Prop} [Fact (M .regs)] [Fact (M .host)] [Fact (M .scb)] [Fact (M .mgl)] {s0 : State}
    {s : Sys2Proof.Machine.State} (hK : Keeps M s0 s) :
    Keeps M s0 (fabricTick s) := by
  unfold fabricTick
  extract_lets v0 v1 v2
  have h3 : Keeps M s0 v1 := by
    unfold v1
    refine Keeps.foldl ?_ ?_
    · with_reducible assumption
    · intro x4
      intro x5
      intro x6
      unfold v0
      split
      · with_reducible assumption
      · extract_lets v7
        refine State.emit_keeps ?_
        refine State.countFlit_keeps ?_
        with_reducible assumption
  clear_value v1
  refine Keeps.mk' ?_ le_rfl rfl (fun x => x) (fun x => x) le_rfl
  with_reducible assumption

theorem tickTs_keeps {M : Part → Prop} [Fact (M .ts)] [Fact (M .mgl)] {s0 : State} {s : Sys2Proof.Machine.State}
    (hK : Keeps M s0 s) :
    Keeps M s0 (tickTs s) := by
  unfold tickTs
  extract_lets v0 v1 v2
  refine Keeps.mk' ?_ le_rfl rfl (fun x => x) (fun x => x) le_rfl
  with_reducible assumption

theorem idleTick_keeps {M : Part → Prop} [Fact (M .ts)] [Fact (M .regs)] [Fact (M .host)] [Fact (M .scb)] [Fact (M .mgl)]
    {s0 : State} {s : Sys2Proof.Machine.State} (hK : Keeps M s0 s) :
    Keeps M s0 (idleTick s) := by
  unfold idleTick
  refine Keeps.ite ?_ ?_
  · intro x0
    refine fabricTick_keeps ?_
    refine tickTs_keeps ?_
    with_reducible assumption
  · intro x1
    with_reducible assumption

end Sys2Proof.Machine
end

