-- ==== Sys2Proof/Laws/KeepsRows.lean ====
section
/-! SUPPORT. One lemma per command: what its meaning keeps (Laws/Keeps.lean), the parts it may touch as instances. -/
namespace Sys2Proof.Machine
open Sys2Proof
set_option linter.all false
set_option Elab.async false
variable {M : Part → Prop}

theorem execAdapterUnload_keeps {M : Part → Prop} [Fact (M .free)] [Fact (M .regs)] [Fact (M .host)] [Fact (M .lkr)]
    [Fact (M .mem)] [Fact (M .scb)] {s0 : State} {ctx : ℕ} {ring : ℕ} {s : Sys2Proof.Machine.State} (hK : Keeps M s0 s) :
    KeepsO M s0 (execAdapterUnload ctx ring s) := by
  unfold execAdapterUnload
  split
  · refine KeepsO.next ?_
    with_reducible assumption
  · extract_lets v0 v1
    refine KeepsO.ite ?_ ?_
    · intro x2
      refine KeepsO.next ?_
      refine State.adapterBad_keeps ?_
      with_reducible assumption
    · intro x3
      refine KeepsO.ite ?_ ?_
      · intro x4
        refine KeepsO.next ?_
        refine State.adapterBad_keeps ?_
        with_reducible assumption
      · intro x5
        split
        · refine KeepsO.next ?_
          refine State.finish_keeps ?_
          with_reducible assumption
        · refine KeepsO.ite ?_ ?_
          · intro x6
            refine KeepsO.next ?_
            refine State.finish_keeps ?_
            with_reducible assumption
          · intro x7
            refine KeepsO.ite ?_ ?_
            · intro x8
              refine KeepsO.next ?_
              refine State.adapterBad_keeps ?_
              with_reducible assumption
            · intro x9
              refine KeepsO.ite ?_ ?_
              · intro x10
                refine KeepsO.next ?_
                refine State.adapterBad_keeps ?_
                with_reducible assumption
              · intro x11
                extract_lets v12 v13 v14
                have h15 : Keeps M s0 v12 := by
                  unfold v12
                  refine State.freePages_keeps ?_
                  with_reducible assumption
                clear_value v12
                have h16 : Keeps M s0 v14 := by
                  unfold v14
                  refine Keeps.mk' ?_ le_rfl rfl (fun x => x) (fun x => x) le_rfl
                  with_reducible assumption
                clear_value v14
                refine KeepsO.next ?_
                refine State.finish_keeps ?_
                with_reducible assumption

theorem execHubMbxCfg4Write_keeps {M : Part → Prop} [Fact (M .regs)] [Fact (M .host)] {s0 : State}
    {port : Sys2Proof.Machine.Port} {func : ℕ} {value : Sys2Proof.Word} {s : Sys2Proof.Machine.State} (hK : Keeps M s0 s) :
    KeepsO M s0 (execHubMbxCfg4Write port func value s) := by
  unfold execHubMbxCfg4Write
  refine KeepsO.ite ?_ ?_
  · intro x0
    refine KeepsO.next ?_
    with_reducible assumption
  · intro x1
    extract_lets v2 v3 v4 v5 v6 v7
    have h8 : Keeps M s0 v6 := by
      unfold v6
      refine State.setReg_keeps ?_
      with_reducible assumption
    clear_value v6
    refine KeepsO.ite ?_ ?_
    · intro x9
      refine KeepsO.ite ?_ ?_
      · intro x10
        refine KeepsO.next ?_
        with_reducible assumption
      · intro x11
        refine KeepsO.next ?_
        refine State.modCtx_keeps ?_
        refine State.setReg_keeps ?_
        with_reducible assumption
    · intro x12
      clear_value v7
      clear_value v5
      clear_value v4
      clear_value v3
      clear_value v2
      split
      · refine KeepsO.next ?_
        with_reducible assumption
      · refine KeepsO.ite ?_ ?_
        · intro x13
          refine KeepsO.next ?_
          refine State.modCtx_keeps ?_
          with_reducible assumption
        · intro x14
          refine KeepsO.next ?_
          with_reducible assumption

theorem execPacketRoute_keeps {M : Part → Prop} [Fact (M .free)] [Fact (M .regs)] [Fact (M .host)] [Fact (M .scb)]
    [Fact (M .mgl)] {s0 : State} {port : ℕ} {s : Sys2Proof.Machine.State} (hK : Keeps M s0 s) :
    KeepsO M s0 (execPacketRoute port s) := by
  unfold execPacketRoute
  extract_lets v0
  split
  · refine KeepsO.next ?_
    with_reducible assumption
  · extract_lets v1 v2 v3
    have h4 : Keeps M s0 v1 := by
      unfold v1
      refine State.setLink_keeps ?_
      with_reducible assumption
    clear_value v1
    have h5 : Keeps M s0 v3 := by
      unfold v3
      refine State.freeBuffer_keeps ?_
      with_reducible assumption
    clear_value v3
    refine KeepsO.ite ?_ ?_
    · intro x6
      refine KeepsO.next ?_
      refine State.deliver_keeps ?_
      with_reducible assumption
    · intro x7
      refine KeepsO.ite ?_ ?_
      · intro x8
        refine KeepsO.ite ?_ ?_
        · intro x9
          refine KeepsO.next ?_
          refine State.deliver_keeps ?_
          with_reducible assumption
        · intro x10
          refine KeepsO.next ?_
          refine State.dropPacket_keeps ?_
          with_reducible assumption
      · intro x11
        refine KeepsO.ite ?_ ?_
        · intro x12
          refine KeepsO.next ?_
          refine State.dropPacket_keeps ?_
          with_reducible assumption
        · intro x13
          refine KeepsO.ite ?_ ?_
          · intro x14
            refine KeepsO.next ?_
            refine State.dropPacket_keeps ?_
            with_reducible assumption
          · intro x15
            refine KeepsO.ite ?_ ?_
            · intro x16
              refine KeepsO.next ?_
              refine State.deliver_keeps ?_
              with_reducible assumption
            · intro x17
              refine KeepsO.ite ?_ ?_
              · intro x18
                refine KeepsO.next ?_
                refine State.enqueue_keeps ?_
                with_reducible assumption
              · intro x19
                refine KeepsO.next ?_
                refine State.dropPacket_keeps ?_
                with_reducible assumption

theorem execKvWritebackDone_keeps {M : Part → Prop} [Fact (M .ump)] {s0 : State} {die : ℕ} {layer : ℕ}
    {s : Sys2Proof.Machine.State} (hK : Keeps M s0 s) :
    KeepsO M s0 (execKvWritebackDone die layer s) := by
  unfold execKvWritebackDone
  split
  · refine KeepsO.next ?_
    with_reducible assumption
  · split
    · refine KeepsO.next ?_
      with_reducible assumption
    · refine KeepsO.ite ?_ ?_
      · intro x0
        refine KeepsO.next ?_
        with_reducible assumption
      · intro x1
        extract_lets v2 v3
        have h4 : Keeps M s0 v2 := by
          unfold v2
          refine State.modWork_keeps ?_
          with_reducible assumption
        clear_value v2
        refine KeepsO.next ?_
        refine Keeps.ite ?_ ?_
        · intro x5
          refine State.addSem_keeps ?_
          with_reducible assumption
        · intro x6
          with_reducible assumption

theorem execPracticeExport_keeps {M : Part → Prop} [Fact (M .free)] [Fact (M .regs)] [Fact (M .host)] [Fact (M .lkr)]
    [Fact (M .scb)] {s0 : State} {ctx : ℕ} {ring : ℕ} {s : Sys2Proof.Machine.State} (hK : Keeps M s0 s) :
    KeepsO M s0 (execPracticeExport ctx ring s) := by
  unfold execPracticeExport
  split
  · refine KeepsO.next ?_
    with_reducible assumption
  · extract_lets v0 v1 v2
    split
    · refine KeepsO.ite ?_ ?_
      · intro x3
        refine KeepsO.next ?_
        refine State.finish_keeps ?_
        with_reducible assumption
      · intro x4
        refine KeepsO.ite ?_ ?_
        · intro x5
          refine KeepsO.next ?_
          refine State.finish_keeps ?_
          with_reducible assumption
        · intro x6
          refine KeepsO.next ?_
          refine State.modRecord_keeps ?_
          refine State.begin_keeps ?_
          with_reducible assumption
    · refine KeepsO.next ?_
      refine State.finish_keeps ?_
      with_reducible assumption

theorem execGatherSignal_keeps {M : Part → Prop} [Fact (M .ump)] [Fact (M .eng)] {s0 : State} {engine : ℕ}
    {cmd : Sys2Proof.Desc} {s : Sys2Proof.Machine.State} (hK : Keeps M s0 s) :
    KeepsO M s0 (execGatherSignal engine cmd s) := by
  unfold execGatherSignal
  refine KeepsO.next ?_
  refine State.signalCommand_keeps ?_
  with_reducible assumption

theorem execKeyExchange_keeps {M : Part → Prop} [Fact (M .free)] [Fact (M .host)] [Fact (M .ref)] {s0 : State}
    {port : Sys2Proof.Machine.Port} {body : List Sys2Proof.Byte} {s : Sys2Proof.Machine.State} (hK : Keeps M s0 s) :
    KeepsO M s0 (execKeyExchange port body s) := by
  unfold execKeyExchange
  refine KeepsO.next ?_
  refine State.spdm_keeps ?_ ?_
  · intro x0
    intro x1
    split
    · refine State.spdmError_keeps ?_
      with_reducible assumption
    · extract_lets v2
      refine State.spdmReply_keeps ?_
      refine State.setSpdm_keeps ?_
      refine State.freed_keeps ?_
      with_reducible assumption
  · with_reducible assumption

theorem execConsent_keeps {M : Part → Prop} [Fact (M .host)] [Fact (M .ref)] {s0 : State} {session : ℕ}
    {body : List Sys2Proof.Byte} {s : Sys2Proof.Machine.State} (hK : Keeps M s0 s) :
    KeepsO M s0 (execConsent session body s) := by
  unfold execConsent
  refine KeepsO.next ?_
  refine State.tenant_keeps ?_ ?_
  · intro x0
    intro x1
    intro x2
    intro x3
    intro x4
    intro x5
    extract_lets v6 v7 v8
    have h9 : Keeps M s0 v8 := by
      unfold v8
      refine State.setSlot_keeps ?_
      with_reducible assumption
    clear_value v8
    refine KeepsT.ite ?_ ?_
    · intro x10
      refine KeepsT.mk ?_
      refine refDebug_keeps ?_
      with_reducible assumption
    · intro x11
      refine KeepsT.mk ?_
      refine refEvent_keeps ?_
      with_reducible assumption
  · with_reducible assumption

theorem execPracticeExportDone_keeps {M : Part → Prop} [Fact (M .free)] [Fact (M .regs)] [Fact (M .host)] [Fact (M .lkr)]
    [Fact (M .scb)] {s0 : State} {adapter : ℕ × Bool} {s : Sys2Proof.Machine.State} (hK : Keeps M s0 s) :
    KeepsO M s0 (execPracticeExportDone adapter s) := by
  unfold execPracticeExportDone
  split
  · split
    · split
      · refine KeepsO.next ?_
        with_reducible assumption
      · refine KeepsO.ite ?_ ?_
        · intro x0
          refine KeepsO.next ?_
          with_reducible assumption
        · intro x1
          extract_lets v2 v3 v4 v5 v6 v7 v8
          have h9 : Keeps M s0 v2 := by
            unfold v2
            refine State.modRecord_keeps ?_
            with_reducible assumption
          clear_value v2
          have h10 : Keeps M s0 v7 := by
            unfold v7
            refine State.freed_keeps ?_
            with_reducible assumption
          clear_value v7
          have h11 : Keeps M s0 v8 := by
            unfold v8
            refine State.countPages_keeps ?_
            with_reducible assumption
          clear_value v8
          split
          · extract_lets v12
            split
            · extract_lets v13 v14
              have h15 : Keeps M s0 v14 := by
                unfold v14
                refine State.emit_keeps ?_
                refine State.countGcm_keeps ?_
                with_reducible assumption
              clear_value v14
              refine KeepsO.next ?_
              refine State.finish_keeps ?_
              with_reducible assumption
          · refine KeepsO.next ?_
            refine State.finish_keeps ?_
            with_reducible assumption
    · refine KeepsO.next ?_
      with_reducible assumption

theorem execBootLoadGone_keeps {M : Part → Prop} [Fact (M .regs)] [Fact (M .pwr)] [Fact (M .mgl)] {s0 : State}
    {s : Sys2Proof.Machine.State} (hK : Keeps M s0 s) :
    KeepsO M s0 (execBootLoadGone s) := by
  unfold execBootLoadGone
  split
  · refine KeepsO.next ?_
    with_reducible assumption
  · extract_lets v0 v1
    have h2 : Keeps M s0 v1 := by
      unfold v1
      refine Keeps.mk' ?_ le_rfl rfl (fun x => x) (fun x => x) le_rfl
      with_reducible assumption
    clear_value v1
    refine KeepsO.ite ?_ ?_
    · intro x3
      refine KeepsO.next ?_
      refine relayAnswer_keeps ?_
      with_reducible assumption
    · intro x4
      refine KeepsO.next ?_
      refine State.bootFails_keeps ?_
      with_reducible assumption

theorem execSweepLine_keeps {M : Part → Prop} [Fact (M .free)] [Fact (M .regs)] [Fact (M .host)] [Fact (M .ump)]
    [Fact (M .lkr)] [Fact (M .mem)] [Fact (M .err)] [Fact (M .scb)] [Fact (M .mgl)] [Fact (M .rdc)] [Fact (M .wst)]
    [Fact (M .eng)] [Fact (M .cells)] {s0 : State} {slot : ℕ} {s : Sys2Proof.Machine.State} (hK : Keeps M s0 s) :
    KeepsO M s0 (execSweepLine slot s) := by
  unfold execSweepLine
  split
  · refine KeepsO.ite ?_ ?_
    · intro x0
      refine KeepsO.next ?_
      with_reducible assumption
    · intro x1
      extract_lets v2 v3
      split
      · refine KeepsO.ite ?_ ?_
        · intro x4
          refine KeepsO.next ?_
          refine State.lineFails_keeps ?_
          refine State.modSweep_keeps ?_
          with_reducible assumption
        · intro x5
          refine KeepsO.next ?_
          refine State.rewriteLine_keeps ?_
          with_reducible assumption
      · refine KeepsO.ite ?_ ?_
        · intro x6
          refine KeepsO.next ?_
          refine State.sweepDone_keeps ?_
          with_reducible assumption
        · intro x7
          refine KeepsO.next ?_
          refine State.modSweep_keeps ?_
          with_reducible assumption
  · refine KeepsO.next ?_
    with_reducible assumption

theorem execPatrolRead_keeps {M : Part → Prop} [Fact (M .free)] [Fact (M .regs)] [Fact (M .host)] [Fact (M .ump)]
    [Fact (M .lkr)] [Fact (M .mem)] [Fact (M .err)] [Fact (M .scb)] [Fact (M .mgl)] [Fact (M .rdc)] [Fact (M .wst)]
    [Fact (M .eng)] [Fact (M .cells)] {s0 : State} {word : List Sys2Proof.Byte} {reread : List Sys2Proof.Byte}
    {s : Sys2Proof.Machine.State} (hK : Keeps M s0 s) :
    KeepsO M s0 (execPatrolRead word reread s) := by
  unfold execPatrolRead
  refine KeepsO.ite ?_ ?_
  · intro x0
    refine KeepsO.next ?_
    with_reducible assumption
  · intro x1
    extract_lets v2
    split
    · clear_value v2
      split
      · refine KeepsO.next ?_
        with_reducible assumption
      · extract_lets v3 v4 v5
        have h6 : Keeps M s0 v3 := by
          unfold v3
          refine State.count_keeps ?_
          with_reducible assumption
        clear_value v3
        have h7 : Keeps M s0 v5 := by
          unfold v5
          split
          · refine Keeps.mk' ?_ le_rfl rfl (fun x => x) (fun x => x) le_rfl
            with_reducible assumption
          · refine State.bump_keeps ?_
            refine Keeps.mk' ?_ le_rfl rfl (fun x => x) (fun x => x) le_rfl
            with_reducible assumption
        clear_value v5
        refine KeepsO.next ?_
        refine State.lineGood_keeps ?_
        with_reducible assumption
    · clear_value v2
      split
      · refine KeepsO.next ?_
        with_reducible assumption
      · extract_lets v8 v9 v10
        have h11 : Keeps M s0 v8 := by
          unfold v8
          refine State.count_keeps ?_
          with_reducible assumption
        clear_value v8
        have h12 : Keeps M s0 v10 := by
          unfold v10
          split
          · refine Keeps.mk' ?_ le_rfl rfl (fun x => x) (fun x => x) le_rfl
            with_reducible assumption
          · refine State.bump_keeps ?_
            refine Keeps.mk' ?_ le_rfl rfl (fun x => x) (fun x => x) le_rfl
            with_reducible assumption
        clear_value v10
        refine KeepsO.next ?_
        refine State.lineGood_keeps ?_
        refine countCe_keeps ?_
        with_reducible assumption
    · split
      · clear_value v2
        split
        · refine KeepsO.next ?_
          with_reducible assumption
        · extract_lets v13 v14 v15
          have h16 : Keeps M s0 v13 := by
            unfold v13
            refine State.count_keeps ?_
            with_reducible assumption
          clear_value v13
          have h17 : Keeps M s0 v15 := by
            unfold v15
            split
            · refine Keeps.mk' ?_ le_rfl rfl (fun x => x) (fun x => x) le_rfl
              with_reducible assumption
            · refine State.bump_keeps ?_
              refine Keeps.mk' ?_ le_rfl rfl (fun x => x) (fun x => x) le_rfl
              with_reducible assumption
          clear_value v15
          refine KeepsO.next ?_
          refine State.lineGood_keeps ?_
          with_reducible assumption
      · clear_value v2
        split
        · refine KeepsO.next ?_
          with_reducible assumption
        · extract_lets v18 v19 v20
          have h21 : Keeps M s0 v18 := by
            unfold v18
            refine State.count_keeps ?_
            with_reducible assumption
          clear_value v18
          have h22 : Keeps M s0 v20 := by
            unfold v20
            split
            · refine Keeps.mk' ?_ le_rfl rfl (fun x => x) (fun x => x) le_rfl
              with_reducible assumption
            · refine State.bump_keeps ?_
              refine Keeps.mk' ?_ le_rfl rfl (fun x => x) (fun x => x) le_rfl
              with_reducible assumption
          clear_value v20
          refine KeepsO.next ?_
          refine State.lineGood_keeps ?_
          refine countCe_keeps ?_
          with_reducible assumption
      · clear_value v2
        split
        · refine KeepsO.next ?_
          with_reducible assumption
        · extract_lets v23 v24 v25
          have h26 : Keeps M s0 v23 := by
            unfold v23
            refine State.count_keeps ?_
            with_reducible assumption
          clear_value v23
          have h27 : Keeps M s0 v25 := by
            unfold v25
            split
            · refine Keeps.mk' ?_ le_rfl rfl (fun x => x) (fun x => x) le_rfl
              with_reducible assumption
            · refine State.bump_keeps ?_
              refine Keeps.mk' ?_ le_rfl rfl (fun x => x) (fun x => x) le_rfl
              with_reducible assumption
          clear_value v25
          refine KeepsO.next ?_
          refine State.lineFails_keeps ?_
          with_reducible assumption

theorem execDbgResponse_keeps {M : Part → Prop} [Fact (M .regs)] [Fact (M .host)] [Fact (M .mem)] [Fact (M .ref)] {s0 : State}
    {rsa : List Sys2Proof.Byte} {slh : List Sys2Proof.Byte} {block : List Sys2Proof.Byte} {s : Sys2Proof.Machine.State}
    (hK : Keeps M s0 s) :
    KeepsO M s0 (execDbgResponse rsa slh block s) := by
  unfold execDbgResponse
  split
  · refine KeepsO.next ?_
    with_reducible assumption
  · refine KeepsO.ite ?_ ?_
    · intro x0
      refine KeepsO.next ?_
      with_reducible assumption
    · intro x1
      extract_lets v2 v3 v4 v5 v6 v7 v8 v9
      have h10 : Keeps M s0 v4 := by
        unfold v4
        refine Keeps.mk' ?_ le_rfl rfl (fun x => x) (fun x => x) le_rfl
        with_reducible assumption
      clear_value v4
      have h11 : Keeps M s0 v6 := by
        unfold v6
        refine State.authFail_keeps ?_
        with_reducible assumption
      clear_value v6
      have h12 : Keeps M s0 v8 := by
        unfold v8
        refine Keeps.mk' ?_ le_rfl rfl (fun x => x) (fun x => x) le_rfl
        with_reducible assumption
      clear_value v8
      have h13 : Keeps M s0 v9 := by
        unfold v9
        refine State.setDebug_keeps ?_
        with_reducible assumption
      clear_value v9
      refine KeepsO.ite ?_ ?_
      · intro x14
        refine KeepsO.next ?_
        refine refDebug_keeps ?_
        with_reducible assumption
      · intro x15
        refine KeepsO.ite ?_ ?_
        · intro x16
          refine KeepsO.next ?_
          refine refDebug_keeps ?_
          refine Keeps.ite ?_ ?_
          · intro x17
            refine zeroiseForDebug_keeps ?_
            with_reducible assumption
          · intro x18
            with_reducible assumption
        · intro x19
          refine KeepsO.next ?_
          refine refDebug_keeps ?_
          with_reducible assumption

theorem execSmbInlet_keeps {M : Part → Prop} [Fact (M .host)] {s0 : State} {s : Sys2Proof.Machine.State} (hK : Keeps M s0 s) :
    KeepsO M s0 (execSmbInlet s) := by
  unfold execSmbInlet
  refine State.smbus_keeps ?_
  with_reducible assumption

theorem execThermalTrip_keeps {M : Part → Prop} [Fact (M .ts)] [Fact (M .free)] [Fact (M .regs)] [Fact (M .host)]
    [Fact (M .ump)] [Fact (M .lkr)] [Fact (M .mem)] [Fact (M .ref)] [Fact (M .err)] [Fact (M .pwr)] [Fact (M .scb)]
    [Fact (M .mgl)] [Fact (M .rdc)] [Fact (M .wst)] [Fact (M .eng)] [Fact (M .cells)] {s0 : State} {sensor : ℕ} {eighths : ℤ}
    {s : Sys2Proof.Machine.State} (hK : Keeps M s0 s) :
    KeepsO M s0 (execThermalTrip sensor eighths s) := by
  unfold execThermalTrip
  extract_lets v0 v1 v2 v3
  have h4 : Keeps M s0 v0 := by
    unfold v0
    refine State.readSensor_keeps ?_
    with_reducible assumption
  clear_value v0
  have h5 : Keeps M s0 v1 := by
    unfold v1
    refine Keeps.ite ?_ ?_
    · intro x6
      refine State.failDevice_keeps ?_
      with_reducible assumption
    · intro x7
      with_reducible assumption
  clear_value v1
  have h8 : Keeps M s0 v2 := by
    unfold v2
    refine State.coldState_keeps ?_
    with_reducible assumption
  clear_value v2
  refine KeepsO.ite ?_ ?_
  · intro x9
    refine KeepsO.next ?_
    with_reducible assumption
  · intro x10
    refine KeepsO.next ?_
    refine Keeps.mk' ?_ le_rfl rfl (fun x => x) (fun x => x) le_rfl
    with_reducible assumption

theorem execOutputArbitration_keeps {M : Part → Prop} [Fact (M .regs)] [Fact (M .host)] [Fact (M .ump)] [Fact (M .scb)]
    [Fact (M .mgl)] {s0 : State} {port : ℕ} {s : Sys2Proof.Machine.State} (hK : Keeps M s0 s) :
    KeepsO M s0 (execOutputArbitration port s) := by
  unfold execOutputArbitration
  extract_lets v0 v1 v2 v3
  have h4 : Keeps M s0 v2 := by
    unfold v2
    refine State.setLink_keeps ?_
    with_reducible assumption
  clear_value v2
  refine KeepsO.ite ?_ ?_
  · intro x5
    refine KeepsO.next ?_
    with_reducible assumption
  · intro x6
    split
    · refine KeepsO.next ?_
      refine State.closeFrames_keeps ?_
      refine Keeps.ite ?_ ?_
      · intro x7
        refine State.count_keeps ?_
        with_reducible assumption
      · intro x8
        with_reducible assumption
    · extract_lets v9 v10 v11 v12 v13 v14 v15 v16
      have h17 : Keeps M s0 v12 := by
        unfold v12
        refine State.setLink_keeps ?_
        with_reducible assumption
      clear_value v12
      have h18 : Keeps M s0 v13 := by
        unfold v13
        refine State.emit_keeps ?_
        with_reducible assumption
      clear_value v13
      have h19 : Keeps M s0 v14 := by
        unfold v14
        refine State.count_keeps ?_
        with_reducible assumption
      clear_value v14
      have h20 : Keeps M s0 v15 := by
        unfold v15
        refine Keeps.ite ?_ ?_
        · intro x21
          refine State.count_keeps ?_
          with_reducible assumption
        · intro x22
          with_reducible assumption
      clear_value v15
      have h23 : Keeps M s0 v16 := by
        unfold v16
        refine Keeps.ite ?_ ?_
        · intro x24
          refine State.chargeLink_keeps ?_
          with_reducible assumption
        · intro x25
          refine State.freeBuffer_keeps ?_
          with_reducible assumption
      clear_value v16
      refine KeepsO.next ?_
      refine State.closeFrames_keeps ?_
      with_reducible assumption

theorem execFlagReclaim_keeps {M : Part → Prop} [Fact (M .regs)] [Fact (M .host)] {s0 : State} {port : Sys2Proof.Machine.Port}
    {func : ℕ} {slot : ℕ} {bytes : ℕ} {gen : ℕ} {s : Sys2Proof.Machine.State} (hK : Keeps M s0 s) :
    KeepsO M s0 (execFlagReclaim port func slot bytes gen s) := by
  unfold execFlagReclaim
  refine KeepsO.ite ?_ ?_
  · intro x0
    refine KeepsO.next ?_
    with_reducible assumption
  · intro x1
    refine KeepsO.next ?_
    refine Keeps.elim ?_ ?_
    · with_reducible assumption
    · intro x2
      refine State.reclaim_keeps ?_
      with_reducible assumption

theorem execPortRetry_keeps {M : Part → Prop} [Fact (M .ts)] [Fact (M .free)] [Fact (M .regs)] [Fact (M .host)]
    [Fact (M .err)] [Fact (M .scb)] [Fact (M .mgl)] {s0 : State} {port : ℕ} {s : Sys2Proof.Machine.State} (hK : Keeps M s0 s)
    :
    KeepsO M s0 (execPortRetry port s) := by
  unfold execPortRetry
  extract_lets v0
  refine KeepsO.ite ?_ ?_
  · intro x1
    refine KeepsO.next ?_
    with_reducible assumption
  · intro x2
    refine KeepsO.next ?_
    refine State.linkFall_keeps ?_
    refine Keeps.mk' ?_ le_rfl rfl (fun x => x) (fun x => x) le_rfl
    with_reducible assumption

theorem execTracePop_keeps {M : Part → Prop} [Fact (M .host)] [Fact (M .scb)] {s0 : State} {port : Sys2Proof.Machine.Port}
    {s : Sys2Proof.Machine.State} (hK : Keeps M s0 s) :
    KeepsO M s0 (execTracePop port s) := by
  unfold execTracePop
  refine KeepsO.ite ?_ ?_
  · intro x0
    refine KeepsO.next ?_
    refine State.emit_keeps ?_
    with_reducible assumption
  · intro x1
    extract_lets v2 v3
    refine KeepsO.ite ?_ ?_
    · intro x4
      refine KeepsO.next ?_
      refine State.emit_keeps ?_
      refine State.modPort_keeps ?_
      with_reducible assumption
    · intro x5
      split
      · refine KeepsO.next ?_
        refine State.emit_keeps ?_
        refine State.modPort_keeps ?_
        refine State.setQueue_keeps ?_
        with_reducible assumption

theorem execSemaphoreReached_keeps {M : Part → Prop} [Fact (M .eng)] {s0 : State} {sem : ℕ} {s : Sys2Proof.Machine.State}
    (hK : Keeps M s0 s) :
    KeepsO M s0 (execSemaphoreReached sem s) := by
  unfold execSemaphoreReached
  extract_lets v0 v1
  refine KeepsO.next ?_
  refine Keeps.mk' ?_ le_rfl rfl (fun x => x) (fun x => x) le_rfl
  with_reducible assumption

theorem execPerstDeassertion_keeps {M : Part → Prop} [Fact (M .host)] {s0 : State} {port : Sys2Proof.Machine.Port}
    {s : Sys2Proof.Machine.State} (hK : Keeps M s0 s) :
    KeepsO M s0 (execPerstDeassertion port s) := by
  unfold execPerstDeassertion
  refine KeepsO.ite ?_ ?_
  · intro x0
    refine KeepsO.next ?_
    with_reducible assumption
  · intro x1
    refine KeepsO.next ?_
    refine State.modPort_keeps ?_
    with_reducible assumption

theorem execPortReset_keeps {M : Part → Prop} [Fact (M .free)] [Fact (M .regs)] [Fact (M .host)] [Fact (M .ump)]
    [Fact (M .lkr)] [Fact (M .mem)] [Fact (M .ref)] [Fact (M .scb)] [Fact (M .mgl)] [Fact (M .rdc)] [Fact (M .wst)]
    [Fact (M .eng)] [Fact (M .cells)] {s0 : State} {port : Sys2Proof.Machine.Port} {s : Sys2Proof.Machine.State}
    (hK : Keeps M s0 s) :
    KeepsO M s0 (execPortReset port s) := by
  unfold execPortReset
  extract_lets v0
  have h1 : Keeps M s0 v0 := by
    unfold v0
    refine State.modPort_keeps ?_
    with_reducible assumption
  clear_value v0
  refine KeepsO.next ?_
  refine Keeps.ite ?_ ?_
  · intro x2
    refine State.portReset_keeps ?_
    with_reducible assumption
  · intro x3
    with_reducible assumption

theorem execCommitCopyDone_keeps {M : Part → Prop} [Fact (M .free)] [Fact (M .regs)] [Fact (M .lkr)] [Fact (M .mem)]
    [Fact (M .scb)] [Fact (M .cells)] {s0 : State} {adapter : ℕ} {s : Sys2Proof.Machine.State} (hK : Keeps M s0 s) :
    KeepsO M s0 (execCommitCopyDone adapter s) := by
  unfold execCommitCopyDone
  split
  · split
    · extract_lets v0 v1 v2 v3
      have h4 : Keeps M s0 v3 := by
        unfold v3
        refine State.writePages_keeps ?_
        refine State.countPages_keeps ?_
        with_reducible assumption
      clear_value v3
      refine KeepsO.ite ?_ ?_
      · intro x5
        refine KeepsO.next ?_
        with_reducible assumption
      · intro x6
        refine KeepsO.next ?_
        refine State.modRecord_keeps ?_
        with_reducible assumption
    · refine KeepsO.next ?_
      with_reducible assumption
  · refine KeepsO.next ?_
    with_reducible assumption

theorem execSlotPurgeDone_keeps {M : Part → Prop} [Fact (M .host)] [Fact (M .mem)] [Fact (M .ref)] {s0 : State} {slot : ℕ}
    {s : Sys2Proof.Machine.State} (hK : Keeps M s0 s) :
    KeepsO M s0 (execSlotPurgeDone slot s) := by
  unfold execSlotPurgeDone
  split
  · refine KeepsO.next ?_
    with_reducible assumption
  · refine KeepsO.ite ?_ ?_
    · intro x0
      refine KeepsO.next ?_
      with_reducible assumption
    · intro x1
      extract_lets v2 v3 v4
      have h5 : Keeps M s0 v4 := by
        unfold v4
        refine Keeps.mk' ?_ le_rfl rfl (fun x => x) (fun x => x) le_rfl
        with_reducible assumption
      clear_value v4
      refine KeepsO.next ?_
      refine refEvent_keeps ?_
      with_reducible assumption

theorem execPurge_keeps {M : Part → Prop} [Fact (M .free)] [Fact (M .regs)] [Fact (M .host)] [Fact (M .lkr)] [Fact (M .mem)]
    [Fact (M .ref)] [Fact (M .scb)] [Fact (M .cells)] {s0 : State} {session : ℕ} {_body : List Sys2Proof.Byte}
    {s : Sys2Proof.Machine.State} (hK : Keeps M s0 s) :
    KeepsO M s0 (execPurge session _body s) := by
  unfold execPurge
  refine KeepsO.next ?_
  refine State.tenant_keeps ?_ ?_
  · intro x0
    intro x1
    intro x2
    intro x3
    intro x4
    intro x5
    refine KeepsT.mk ?_
    refine State.purgeSlot_keeps ?_
    with_reducible assumption
  · with_reducible assumption

theorem execCombine_keeps {M : Part → Prop} [Fact (M .free)] [Fact (M .regs)] [Fact (M .host)] [Fact (M .ump)] [Fact (M .mem)]
    [Fact (M .scb)] [Fact (M .eng)] [Fact (M .cells)] {s0 : State} {engine : ℕ} {cmd : Sys2Proof.Desc}
    {s : Sys2Proof.Machine.State} (hK : Keeps M s0 s) :
    KeepsO M s0 (execCombine engine cmd s) := by
  unfold execCombine
  refine vecStep_keeps ?_
  with_reducible assumption

theorem execLoadStart_keeps {M : Part → Prop} [Fact (M .regs)] [Fact (M .wst)] {s0 : State} {port : Sys2Proof.Machine.Port}
    {value : Sys2Proof.Word} {s : Sys2Proof.Machine.State} (hK : Keeps M s0 s) :
    KeepsO M s0 (execLoadStart port value s) := by
  unfold execLoadStart
  refine KeepsO.ite ?_ ?_
  · intro x0
    refine KeepsO.next ?_
    with_reducible assumption
  · intro x1
    extract_lets v2 v3 v4 v5 v6 v7
    have h8 : Keeps M s0 v2 := by
      unfold v2
      refine State.setFld_keeps ?_
      with_reducible assumption
    clear_value v2
    have h9 : Keeps M s0 v5 := by
      unfold v5
      refine State.setLoadStatus_keeps ?_
      refine State.takeTarget_keeps ?_
      with_reducible assumption
    clear_value v5
    have h10 : Keeps M s0 v6 := by
      unfold v6
      refine Keeps.ite ?_ ?_
      · intro x11
        refine State.dropOther_keeps ?_
        with_reducible assumption
      · intro x12
        with_reducible assumption
    clear_value v6
    refine KeepsO.ite ?_ ?_
    · intro x13
      refine KeepsO.next ?_
      with_reducible assumption
    · intro x14
      split
      · refine KeepsO.next ?_
        refine refuseLoad_keeps ?_
        with_reducible assumption
      · refine KeepsO.ite ?_ ?_
        · intro x15
          refine KeepsO.next ?_
          refine refuseLoad_keeps ?_
          with_reducible assumption
        · intro x16
          refine KeepsO.next ?_
          refine Keeps.mk' ?_ le_rfl rfl (fun x => x) (fun x => x) le_rfl
          with_reducible assumption

theorem execGetVersion_keeps {M : Part → Prop} [Fact (M .free)] [Fact (M .host)] [Fact (M .ref)] {s0 : State}
    {port : Sys2Proof.Machine.Port} {body : List Sys2Proof.Byte} {s : Sys2Proof.Machine.State} (hK : Keeps M s0 s) :
    KeepsO M s0 (execGetVersion port body s) := by
  unfold execGetVersion
  refine KeepsO.next ?_
  refine State.spdm_keeps ?_ ?_
  · intro x0
    intro x1
    refine State.spdmReply_keeps ?_
    refine State.setConn_keeps ?_
    with_reducible assumption
  · with_reducible assumption

theorem execMgmtAtTsReached_keeps {M : Part → Prop} [Fact (M .ts)] [Fact (M .free)] [Fact (M .regs)] [Fact (M .host)]
    [Fact (M .ump)] [Fact (M .lkr)] [Fact (M .mem)] [Fact (M .ref)] [Fact (M .err)] [Fact (M .pwr)] [Fact (M .scb)]
    [Fact (M .mgl)] [Fact (M .rdc)] [Fact (M .wst)] [Fact (M .eng)] [Fact (M .cells)] {s0 : State}
    {s : Sys2Proof.Machine.State} (hK : Keeps M s0 s) :
    KeepsO M s0 (execMgmtAtTsReached s) := by
  unfold execMgmtAtTsReached
  split
  · refine KeepsO.next ?_
    with_reducible assumption
  · split
    · refine KeepsO.ite ?_ ?_
      · intro x0
        refine KeepsO.next ?_
        with_reducible assumption
      · intro x1
        refine KeepsO.next ?_
        refine State.mgmtAct_keeps ?_
        refine Keeps.mk' ?_ le_rfl rfl (fun x => x) (fun x => x) le_rfl
        with_reducible assumption
    · refine KeepsO.next ?_
      refine State.mgmtAct_keeps ?_
      refine Keeps.mk' ?_ le_rfl rfl (fun x => x) (fun x => x) le_rfl
      with_reducible assumption

theorem execEmbagBwd_keeps [Fact (M .free)] [Fact (M .regs)] [Fact (M .host)] [Fact (M .ump)] [Fact (M .mem)] [Fact (M .scb)]
    [Fact (M .eng)] [Fact (M .cells)] {s0 : State} {engine : Nat} {cmd : Desc} {s : State} (hK : Keeps M s0 s) :
    KeepsO M s0 (execEmbagBwd engine cmd s) := by
  unfold execEmbagBwd
  refine gatherStep_keeps (fun w c => Keeps.ite (fun _ => hK) (fun _ => ?_)) hK
  refine State.gMoved_keeps (Keeps.foldl ?_ (fun t x h => writeGrad_keeps h))
  exact Keeps.mk' (Keeps.foldlSnd (readOffs_keeps hK) (fun t x h => readContribs_keeps h)) le_rfl rfl (fun x => x) (fun x => x) le_rfl

theorem execServe_keeps {M : Part → Prop} [Fact (M .free)] [Fact (M .regs)] [Fact (M .host)] [Fact (M .ump)] [Fact (M .scb)]
    {s0 : State} {ctx : ℕ} {ring : ℕ} {s : Sys2Proof.Machine.State} (hK : Keeps M s0 s) :
    KeepsO M s0 (execServe ctx ring s) := by
  unfold execServe
  split
  · refine KeepsO.next ?_
    with_reducible assumption
  · split
    · refine KeepsO.next ?_
      refine State.finish_keeps ?_
      with_reducible assumption
    · extract_lets v0 v1 v2
      have h3 : Keeps M s0 v1 := by
        unfold v1
        refine State.begin_keeps ?_
        refine State.freed_keeps ?_
        with_reducible assumption
      clear_value v1
      refine KeepsO.next ?_
      refine Keeps.mk' ?_ le_rfl rfl (fun x => x) (fun x => x) le_rfl
      with_reducible assumption

theorem execLoadResend_keeps {M : Part → Prop} [Fact (M .regs)] [Fact (M .scb)] [Fact (M .mgl)] {s0 : State}
    {s : Sys2Proof.Machine.State} (hK : Keeps M s0 s) :
    KeepsO M s0 (execLoadResend s) := by
  unfold execLoadResend
  split
  · refine KeepsO.next ?_
    with_reducible assumption
  · extract_lets v0 v1
    have h2 : Keeps M s0 v0 := by
      unfold v0
      refine State.takeInbox_keeps ?_
      with_reducible assumption
    clear_value v0
    split
    · refine KeepsO.next ?_
      refine State.sendLoad_keeps ?_
      with_reducible assumption
    · refine KeepsO.ite ?_ ?_
      · intro x3
        refine KeepsO.next ?_
        refine State.sendLoad_keeps ?_
        with_reducible assumption
      · intro x4
        refine KeepsO.next ?_
        refine State.send_keeps ?_
        with_reducible assumption
    · refine KeepsO.next ?_
      refine State.send_keeps ?_
      with_reducible assumption

theorem execTileSignal_keeps {M : Part → Prop} [Fact (M .ump)] [Fact (M .eng)] {s0 : State} {court : ℕ} {cmd : Sys2Proof.Desc}
    {s : Sys2Proof.Machine.State} (hK : Keeps M s0 s) :
    KeepsO M s0 (execTileSignal court cmd s) := by
  unfold execTileSignal
  refine KeepsO.next ?_
  refine State.signalCommand_keeps ?_
  with_reducible assumption

theorem execInputUndervoltage_keeps {M : Part → Prop} [Fact (M .ts)] [Fact (M .free)] [Fact (M .regs)] [Fact (M .host)]
    [Fact (M .ump)] [Fact (M .lkr)] [Fact (M .mem)] [Fact (M .ref)] [Fact (M .err)] [Fact (M .pwr)] [Fact (M .scb)]
    [Fact (M .mgl)] [Fact (M .rdc)] [Fact (M .wst)] [Fact (M .eng)] [Fact (M .cells)] {s0 : State} {millivolts : ℕ}
    {s : Sys2Proof.Machine.State} (hK : Keeps M s0 s) :
    KeepsO M s0 (execInputUndervoltage millivolts s) := by
  unfold execInputUndervoltage
  refine KeepsO.ite ?_ ?_
  · intro x0
    refine KeepsO.next ?_
    with_reducible assumption
  · intro x1
    refine KeepsO.next ?_
    refine State.railFails_keeps ?_
    refine Keeps.mk' ?_ le_rfl rfl (fun x => x) (fun x => x) le_rfl
    with_reducible assumption

theorem execReadRsp_keeps {M : Part → Prop} [Fact (M .free)] [Fact (M .regs)] [Fact (M .ump)] [Fact (M .mem)] [Fact (M .scb)]
    [Fact (M .mgl)] [Fact (M .wst)] [Fact (M .cells)] {s0 : State} {s : Sys2Proof.Machine.State} (hK : Keeps M s0 s) :
    KeepsO M s0 (execReadRsp s) := by
  unfold execReadRsp
  split
  · refine KeepsO.next ?_
    with_reducible assumption
  · extract_lets v0 v1 v2 v3 v4 v5 v6 v7 v8 v9
    have h10 : Keeps M s0 v0 := by
      unfold v0
      refine State.takeInbox_keeps ?_
      with_reducible assumption
    clear_value v0
    have h11 : Keeps M s0 v7 := by
      unfold v7
      refine State.addCharge_keeps ?_
      with_reducible assumption
    clear_value v7
    have h12 : Keeps M s0 v9 := by
      unfold v9
      refine Keeps.mk' ?_ le_rfl rfl (fun x => x) (fun x => x) le_rfl
      with_reducible assumption
    clear_value v9
    split
    · refine KeepsO.next ?_
      with_reducible assumption
    · extract_lets v13
      refine KeepsO.ite ?_ ?_
      · intro x14
        refine KeepsO.next ?_
        refine Keeps.mk' ?_ le_rfl rfl (fun x => x) (fun x => x) le_rfl
        with_reducible assumption
      · intro x15
        refine KeepsO.next ?_
        refine Keeps.elim ?_ ?_
        · with_reducible assumption
        · intro x16
          refine fetchDone_keeps ?_
          with_reducible assumption

theorem execEw_keeps {M : Part → Prop} [Fact (M .free)] [Fact (M .regs)] [Fact (M .host)] [Fact (M .ump)] [Fact (M .mem)]
    [Fact (M .scb)] [Fact (M .eng)] [Fact (M .cells)] {s0 : State} {engine : ℕ} {cmd : Sys2Proof.Desc}
    {s : Sys2Proof.Machine.State} (hK : Keeps M s0 s) :
    KeepsO M s0 (execEw engine cmd s) := by
  unfold execEw
  refine vecStep_keeps ?_
  with_reducible assumption

theorem execBootChunkReceive_keeps {M : Part → Prop} [Fact (M .pwr)] [Fact (M .mgl)] {s0 : State}
    {s : Sys2Proof.Machine.State} (hK : Keeps M s0 s) :
    KeepsO M s0 (execBootChunkReceive s) := by
  unfold execBootChunkReceive
  split
  · refine KeepsO.next ?_
    with_reducible assumption
  · extract_lets v0 v1 v2 v3
    have h4 : Keeps M s0 v1 := by
      unfold v1
      refine Keeps.mk' ?_ le_rfl rfl (fun x => x) (fun x => x) le_rfl
      with_reducible assumption
    clear_value v1
    have h5 : Keeps M s0 v3 := by
      unfold v3
      refine Keeps.mk' ?_ le_rfl rfl (fun x => x) (fun x => x) le_rfl
      with_reducible assumption
    clear_value v3
    refine KeepsO.ite ?_ ?_
    · intro x6
      refine KeepsO.next ?_
      refine relayAnswer_keeps ?_
      with_reducible assumption
    · intro x7
      refine KeepsO.ite ?_ ?_
      · intro x8
        refine KeepsO.next ?_
        with_reducible assumption
      · intro x9
        refine KeepsO.next ?_
        refine Keeps.ite ?_ ?_
        · intro x10
          with_reducible assumption
        · intro x11
          refine requestChunk_keeps ?_
          with_reducible assumption

theorem execPrefixGatherStart_keeps {M : Part → Prop} [Fact (M .lkr)] {s0 : State} {die : ℕ} {s : Sys2Proof.Machine.State}
    (hK : Keeps M s0 s) :
    KeepsO M s0 (execPrefixGatherStart die s) := by
  unfold execPrefixGatherStart
  split
  · extract_lets v0 v1
    refine KeepsO.ite ?_ ?_
    · intro x2
      refine KeepsO.next ?_
      with_reducible assumption
    · intro x3
      refine KeepsO.next ?_
      refine State.setGather_keeps ?_
      with_reducible assumption
  · refine KeepsO.next ?_
    with_reducible assumption

theorem execVfEnable_keeps {M : Part → Prop} [Fact (M .free)] [Fact (M .regs)] [Fact (M .host)] [Fact (M .ump)]
    [Fact (M .lkr)] [Fact (M .mem)] [Fact (M .scb)] [Fact (M .mgl)] [Fact (M .rdc)] [Fact (M .wst)] [Fact (M .eng)]
    [Fact (M .cells)] {s0 : State} {port : Sys2Proof.Machine.Port} {count : ℕ} {s : Sys2Proof.Machine.State}
    (hK : Keeps M s0 s) :
    KeepsO M s0 (execVfEnable port count s) := by
  unfold execVfEnable
  refine KeepsO.ite ?_ ?_
  · intro x0
    refine KeepsO.next ?_
    with_reducible assumption
  · intro x1
    extract_lets v2 v3
    have h4 : Keeps M s0 v3 := by
      unfold v3
      refine Keeps.foldl ?_ ?_
      · with_reducible assumption
      · intro x5
        intro x6
        intro x7
        refine State.vfReset_keeps ?_
        with_reducible assumption
    clear_value v3
    refine KeepsO.next ?_
    refine State.modPort_keeps ?_
    with_reducible assumption

theorem execPeerTakesLinkDown_keeps {M : Part → Prop} [Fact (M .regs)] [Fact (M .host)] [Fact (M .mgl)] {s0 : State}
    {port : ℕ} {s : Sys2Proof.Machine.State} (hK : Keeps M s0 s) :
    KeepsO M s0 (execPeerTakesLinkDown port s) := by
  unfold execPeerTakesLinkDown
  refine KeepsO.ite ?_ ?_
  · intro x0
    refine KeepsO.next ?_
    with_reducible assumption
  · intro x1
    refine KeepsO.next ?_
    refine State.linkDown_keeps ?_
    with_reducible assumption

theorem execSpiNorShardRead_keeps {M : Part → Prop} [Fact (M .regs)] [Fact (M .host)] [Fact (M .mem)] [Fact (M .scb)]
    [Fact (M .mgl)] [Fact (M .wst)] [Fact (M .cells)] {s0 : State} {s : Sys2Proof.Machine.State} (hK : Keeps M s0 s) :
    KeepsO M s0 (execSpiNorShardRead s) := by
  unfold execSpiNorShardRead
  split
  · refine KeepsO.ite ?_ ?_
    · intro x0
      refine KeepsO.next ?_
      with_reducible assumption
    · intro x1
      split
      · extract_lets v2 v3 v4 v5 v6
        have h7 : Keeps M s0 v6 := by
          unfold v6
          refine State.modLoad_keeps ?_
          with_reducible assumption
        clear_value v6
        refine KeepsO.ite ?_ ?_
        · intro x8
          refine KeepsO.next ?_
          refine State.modLoad_keeps ?_
          refine State.takeBytes_keeps ?_
          with_reducible assumption
        · intro x9
          refine KeepsO.ite ?_ ?_
          · intro x10
            refine KeepsO.next ?_
            with_reducible assumption
          · intro x11
            refine KeepsO.next ?_
            refine State.takeBytes_keeps ?_
            with_reducible assumption
  · refine KeepsO.next ?_
    with_reducible assumption

theorem execPmuCycLoRead_keeps {M : Part → Prop} [Fact (M .host)] {s0 : State} {port : Sys2Proof.Machine.Port} {block : ℕ}
    {s : Sys2Proof.Machine.State} (hK : Keeps M s0 s) :
    KeepsO M s0 (execPmuCycLoRead port block s) := by
  unfold execPmuCycLoRead
  refine KeepsO.ite ?_ ?_
  · intro x0
    refine KeepsO.next ?_
    refine State.emit_keeps ?_
    with_reducible assumption
  · intro x1
    extract_lets v2
    have h3 : Keeps M s0 v2 := by
      unfold v2
      refine State.modPort_keeps ?_
      with_reducible assumption
    clear_value v2
    refine KeepsO.next ?_
    refine State.readLo_keeps ?_
    with_reducible assumption

theorem execPmuValLoRead_keeps {M : Part → Prop} [Fact (M .host)] {s0 : State} {port : Sys2Proof.Machine.Port} {block : ℕ}
    {counter : ℕ} {s : Sys2Proof.Machine.State} (hK : Keeps M s0 s) :
    KeepsO M s0 (execPmuValLoRead port block counter s) := by
  unfold execPmuValLoRead
  refine KeepsO.ite ?_ ?_
  · intro x0
    refine KeepsO.next ?_
    refine State.emit_keeps ?_
    with_reducible assumption
  · intro x1
    extract_lets v2 v3 v4
    have h5 : Keeps M s0 v4 := by
      unfold v4
      refine State.modPort_keeps ?_
      with_reducible assumption
    clear_value v4
    refine KeepsO.next ?_
    refine State.emit_keeps ?_
    with_reducible assumption

theorem execPmuClr_keeps {M : Part → Prop} [Fact (M .scb)] {s0 : State} {port : Sys2Proof.Machine.Port} {block : ℕ}
    {value : Sys2Proof.Word} {s : Sys2Proof.Machine.State} (hK : Keeps M s0 s) :
    KeepsO M s0 (execPmuClr port block value s) := by
  unfold execPmuClr
  refine KeepsO.ite ?_ ?_
  · intro x0
    refine KeepsO.next ?_
    with_reducible assumption
  · intro x1
    extract_lets v2 v3 v4
    refine KeepsO.next ?_
    refine Keeps.mk' ?_ le_rfl rfl (fun x => x) (fun x => x) le_rfl
    with_reducible assumption

theorem execTraceWordTimeout_keeps {M : Part → Prop} [Fact (M .ts)] [Fact (M .scb)] {s0 : State} {queue : ℕ}
    {s : Sys2Proof.Machine.State} (hK : Keeps M s0 s) :
    KeepsO M s0 (execTraceWordTimeout queue s) := by
  unfold execTraceWordTimeout
  extract_lets v0
  refine KeepsO.ite ?_ ?_
  · intro x1
    refine KeepsO.next ?_
    with_reducible assumption
  · intro x2
    refine KeepsO.next ?_
    refine State.setQueue_keeps ?_
    refine Keeps.mk' ?_ le_rfl rfl (fun x => x) (fun x => x) le_rfl
    with_reducible assumption

theorem execSwMark_keeps {M : Part → Prop} [Fact (M .free)] [Fact (M .scb)] {s0 : State} {port : Sys2Proof.Machine.Port}
    {value : Sys2Proof.Word} {s : Sys2Proof.Machine.State} (hK : Keeps M s0 s) :
    KeepsO M s0 (execSwMark port value s) := by
  unfold execSwMark
  refine KeepsO.ite ?_ ?_
  · intro x0
    refine KeepsO.next ?_
    with_reducible assumption
  · intro x1
    extract_lets v2 v3
    refine KeepsO.next ?_
    refine Keeps.ite ?_ ?_
    · intro x4
      refine State.trace_keeps ?_
      with_reducible assumption
    · intro x5
      with_reducible assumption

theorem execThermalHoldExit_keeps {M : Part → Prop} [Fact (M .ts)] [Fact (M .free)] [Fact (M .regs)] [Fact (M .ump)]
    [Fact (M .err)] [Fact (M .pwr)] [Fact (M .scb)] {s0 : State} {s : Sys2Proof.Machine.State} (hK : Keeps M s0 s) :
    KeepsO M s0 (execThermalHoldExit s) := by
  unfold execThermalHoldExit
  split
  · extract_lets v0 v1 v2 v3
    have h4 : Keeps M s0 v0 := by
      unfold v0
      refine Keeps.mk' ?_ le_rfl rfl (fun x => x) (fun x => x) le_rfl
      with_reducible assumption
    clear_value v0
    have h5 : Keeps M s0 v1 := by
      unfold v1
      refine Keeps.ite ?_ ?_
      · intro x6
        with_reducible assumption
      · intro x7
        refine State.setClock_keeps ?_
        with_reducible assumption
    clear_value v1
    have h8 : Keeps M s0 v3 := by
      unfold v3
      refine Keeps.mk' ?_ le_rfl rfl (fun x => x) (fun x => x) le_rfl
      with_reducible assumption
    clear_value v3
    refine KeepsO.ite ?_ ?_
    · intro x9
      refine KeepsO.next ?_
      with_reducible assumption
    · intro x10
      split
      · refine KeepsO.next ?_
        refine State.waitSlot_keeps ?_
        with_reducible assumption
      · refine KeepsO.next ?_
        refine State.extendSlot_keeps ?_
        with_reducible assumption
  · refine KeepsO.next ?_
    with_reducible assumption

theorem execThermalHoldEntry_keeps {M : Part → Prop} [Fact (M .free)] [Fact (M .regs)] [Fact (M .host)] [Fact (M .ump)]
    [Fact (M .lkr)] [Fact (M .mem)] [Fact (M .err)] [Fact (M .pwr)] [Fact (M .scb)] [Fact (M .mgl)] [Fact (M .rdc)]
    [Fact (M .wst)] [Fact (M .eng)] [Fact (M .cells)] {s0 : State} {sensor : ℕ} {eighths : ℤ} {s : Sys2Proof.Machine.State}
    (hK : Keeps M s0 s) :
    KeepsO M s0 (execThermalHoldEntry sensor eighths s) := by
  unfold execThermalHoldEntry
  refine KeepsO.ite ?_ ?_
  · intro x0
    refine KeepsO.next ?_
    with_reducible assumption
  · intro x1
    extract_lets v2 v3 v4 v5 v6 v7
    have h8 : Keeps M s0 v2 := by
      unfold v2
      refine State.readSensor_keeps ?_
      with_reducible assumption
    clear_value v2
    have h9 : Keeps M s0 v5 := by
      unfold v5
      refine State.stopWork_keeps ?_
      with_reducible assumption
    clear_value v5
    have h10 : Keeps M s0 v7 := by
      unfold v7
      refine State.setFld_keeps ?_
      refine Keeps.mk' ?_ le_rfl rfl (fun x => x) (fun x => x) le_rfl
      with_reducible assumption
    clear_value v7
    refine KeepsO.ite ?_ ?_
    · intro x11
      refine KeepsO.next ?_
      with_reducible assumption
    · intro x12
      refine KeepsO.next ?_
      refine State.fault_keeps ?_
      with_reducible assumption

theorem execFenceComplete_keeps {M : Part → Prop} [Fact (M .free)] [Fact (M .regs)] [Fact (M .host)] [Fact (M .ump)]
    [Fact (M .lkr)] [Fact (M .mem)] [Fact (M .err)] [Fact (M .scb)] [Fact (M .mgl)] [Fact (M .rdc)] [Fact (M .wst)]
    [Fact (M .eng)] [Fact (M .cells)] {s0 : State} {s : Sys2Proof.Machine.State} (hK : Keeps M s0 s) :
    KeepsO M s0 (execFenceComplete s) := by
  unfold execFenceComplete
  split
  · refine KeepsO.next ?_
    with_reducible assumption
  · refine KeepsO.ite ?_ ?_
    · intro x0
      refine KeepsO.next ?_
      with_reducible assumption
    · intro x1
      refine KeepsO.next ?_
      refine State.extendSlot_keeps ?_
      refine State.fenceUnit_keeps ?_
      refine Keeps.mk' ?_ le_rfl rfl (fun x => x) (fun x => x) le_rfl
      with_reducible assumption

theorem execStorm_keeps {M : Part → Prop} [Fact (M .free)] [Fact (M .regs)] [Fact (M .host)] [Fact (M .ump)] [Fact (M .lkr)]
    [Fact (M .mem)] [Fact (M .err)] [Fact (M .scb)] [Fact (M .mgl)] [Fact (M .rdc)] [Fact (M .wst)] [Fact (M .eng)]
    [Fact (M .cells)] {s0 : State} {kind : ℕ} {unit : ℕ} {s : Sys2Proof.Machine.State} (hK : Keeps M s0 s) :
    KeepsO M s0 (execStorm kind unit s) := by
  unfold execStorm
  refine KeepsO.ite ?_ ?_
  · intro x0
    refine KeepsO.next ?_
    refine State.unitFails_keeps ?_
    with_reducible assumption
  · intro x1
    refine KeepsO.next ?_
    with_reducible assumption

theorem execProgressTimeout_keeps {M : Part → Prop} [Fact (M .free)] [Fact (M .regs)] [Fact (M .host)] [Fact (M .ump)]
    [Fact (M .lkr)] [Fact (M .mem)] [Fact (M .err)] [Fact (M .scb)] [Fact (M .mgl)] [Fact (M .rdc)] [Fact (M .wst)]
    [Fact (M .eng)] [Fact (M .cells)] {s0 : State} {kind : ℕ} {unit : ℕ} {s : Sys2Proof.Machine.State} (hK : Keeps M s0 s) :
    KeepsO M s0 (execProgressTimeout kind unit s) := by
  unfold execProgressTimeout
  refine KeepsO.ite ?_ ?_
  · intro x0
    refine KeepsO.next ?_
    refine State.unitFails_keeps ?_
    with_reducible assumption
  · intro x1
    refine KeepsO.next ?_
    with_reducible assumption

theorem execUnitFaultReport_keeps {M : Part → Prop} [Fact (M .free)] [Fact (M .regs)] [Fact (M .host)] [Fact (M .ump)]
    [Fact (M .lkr)] [Fact (M .mem)] [Fact (M .err)] [Fact (M .scb)] [Fact (M .mgl)] [Fact (M .rdc)] [Fact (M .wst)]
    [Fact (M .eng)] [Fact (M .cells)] {s0 : State} {kind : ℕ} {unit : ℕ} {cause : ℕ} {s : Sys2Proof.Machine.State}
    (hK : Keeps M s0 s) :
    KeepsO M s0 (execUnitFaultReport kind unit cause s) := by
  unfold execUnitFaultReport
  refine KeepsO.next ?_
  refine State.unitFails_keeps ?_
  with_reducible assumption

theorem execClose_keeps {M : Part → Prop} [Fact (M .host)] [Fact (M .ref)] {s0 : State} {session : ℕ}
    {_body : List Sys2Proof.Byte} {s : Sys2Proof.Machine.State} (hK : Keeps M s0 s) :
    KeepsO M s0 (execClose session _body s) := by
  unfold execClose
  refine KeepsO.next ?_
  refine State.tenant_keeps ?_ ?_
  · intro x0
    intro x1
    intro x2
    intro x3
    intro x4
    intro x5
    refine KeepsT.mk ?_
    refine State.closeSession_keeps ?_
    with_reducible assumption
  · with_reducible assumption

theorem execResume_keeps {M : Part → Prop} [Fact (M .free)] [Fact (M .regs)] [Fact (M .host)] [Fact (M .ref)] {s0 : State}
    {session : ℕ} {body : List Sys2Proof.Byte} {s : Sys2Proof.Machine.State} (hK : Keeps M s0 s) :
    KeepsO M s0 (execResume session body s) := by
  unfold execResume
  refine KeepsO.next ?_
  refine State.vendor_keeps ?_ ?_
  · intro x0
    intro x1
    intro x2
    extract_lets v3
    split
    · refine KeepsT.mk ?_
      refine State.authFail_keeps ?_
      with_reducible assumption
    · extract_lets v4
      refine KeepsT.ite ?_ ?_
      · intro x5
        refine KeepsT.mk ?_
        refine State.authFail_keeps ?_
        with_reducible assumption
      · intro x6
        split
        · rename_i hq7
          refine Keeps.viaPair (M := M) (s0 := s0) hq7 ?_ (fun hk8 => ?_)
          · refine newTicket_keeps ?_
            with_reducible assumption
          · extract_lets v9
            have h10 : Keeps M s0 v9 := by
              unfold v9
              refine State.setSession_keeps ?_
              with_reducible assumption
            clear_value v9
            refine KeepsT.mk ?_
            refine State.setSpdm_keeps ?_
            with_reducible assumption
  · with_reducible assumption

theorem execReport_keeps {M : Part → Prop} [Fact (M .free)] [Fact (M .host)] {s0 : State} {session : ℕ}
    {body : List Sys2Proof.Byte} {s : Sys2Proof.Machine.State} (hK : Keeps M s0 s) :
    KeepsO M s0 (execReport session body s) := by
  unfold execReport
  refine KeepsO.next ?_
  refine State.tenant_keeps ?_ ?_
  · intro x0
    intro x1
    intro x2
    intro x3
    intro x4
    intro x5
    extract_lets v6
    split
    · rename_i hq7
      refine Keeps.viaPair (M := M) (s0 := s0) hq7 ?_ (fun hk8 => ?_)
      · refine State.signed_keeps ?_
        with_reducible assumption
      · refine KeepsT.mk ?_
        with_reducible assumption
  · with_reducible assumption

theorem execAllow_keeps {M : Part → Prop} [Fact (M .host)] [Fact (M .ref)] {s0 : State} {session : ℕ}
    {body : List Sys2Proof.Byte} {s : Sys2Proof.Machine.State} (hK : Keeps M s0 s) :
    KeepsO M s0 (execAllow session body s) := by
  unfold execAllow
  refine KeepsO.next ?_
  refine State.tenant_keeps ?_ ?_
  · intro x0
    intro x1
    intro x2
    intro x3
    intro x4
    intro x5
    extract_lets v6 v7
    refine KeepsT.ite ?_ ?_
    · intro x8
      refine KeepsT.mk ?_
      with_reducible assumption
    · intro x9
      refine KeepsT.mk ?_
      refine State.setSession_keeps ?_
      with_reducible assumption
  · with_reducible assumption

theorem execGrant_keeps {M : Part → Prop} [Fact (M .host)] [Fact (M .ref)] {s0 : State} {session : ℕ}
    {body : List Sys2Proof.Byte} {s : Sys2Proof.Machine.State} (hK : Keeps M s0 s) :
    KeepsO M s0 (execGrant session body s) := by
  unfold execGrant
  refine KeepsO.next ?_
  refine State.tenant_keeps ?_ ?_
  · intro x0
    intro x1
    intro x2
    intro x3
    intro x4
    intro x5
    extract_lets v6 v7 v8 v9 v10 v11
    have h12 : Keeps M s0 v11 := by
      unfold v11
      refine State.setSession_keeps ?_
      with_reducible assumption
    clear_value v11
    refine KeepsT.ite ?_ ?_
    · intro x13
      refine KeepsT.mk ?_
      with_reducible assumption
    · intro x14
      refine KeepsT.mk ?_
      refine Keeps.foldl ?_ ?_
      · with_reducible assumption
      · intro x15
        intro x16
        intro x17
        refine State.modCtx_keeps ?_
        with_reducible assumption
  · with_reducible assumption

theorem execPkeyRotate_keeps {M : Part → Prop} [Fact (M .host)] [Fact (M .mem)] {s0 : State} {session : ℕ}
    {_body : List Sys2Proof.Byte} {s : Sys2Proof.Machine.State} (hK : Keeps M s0 s) :
    KeepsO M s0 (execPkeyRotate session _body s) := by
  unfold execPkeyRotate
  refine KeepsO.next ?_
  refine State.tenant_keeps ?_ ?_
  · intro x0
    intro x1
    intro x2
    intro x3
    intro x4
    intro x5
    refine KeepsT.ite ?_ ?_
    · intro x6
      refine KeepsT.mk ?_
      with_reducible assumption
    · intro x7
      refine KeepsT.ite ?_ ?_
      · intro x8
        refine KeepsT.mk ?_
        with_reducible assumption
      · intro x9
        refine KeepsT.mk ?_
        refine State.rotate_keeps ?_
        with_reducible assumption
  · with_reducible assumption

theorem execSkeyRevoke_keeps {M : Part → Prop} [Fact (M .free)] [Fact (M .regs)] [Fact (M .host)] [Fact (M .lkr)]
    [Fact (M .mem)] [Fact (M .ref)] [Fact (M .scb)] [Fact (M .cells)] {s0 : State} {session : ℕ} {body : List Sys2Proof.Byte}
    {s : Sys2Proof.Machine.State} (hK : Keeps M s0 s) :
    KeepsO M s0 (execSkeyRevoke session body s) := by
  unfold execSkeyRevoke
  refine KeepsO.next ?_
  refine State.tenant_keeps ?_ ?_
  · intro x0
    intro x1
    intro x2
    intro x3
    intro x4
    intro x5
    extract_lets v6 v7
    refine KeepsT.ite ?_ ?_
    · intro x8
      refine KeepsT.mk ?_
      with_reducible assumption
    · intro x9
      refine KeepsT.mk ?_
      refine State.revoke_keeps ?_
      refine State.setSlot_keeps ?_
      with_reducible assumption
  · with_reducible assumption

theorem execSkeyInstall_keeps {M : Part → Prop} [Fact (M .host)] [Fact (M .mem)] [Fact (M .ref)] {s0 : State} {session : ℕ}
    {body : List Sys2Proof.Byte} {s : Sys2Proof.Machine.State} (hK : Keeps M s0 s) :
    KeepsO M s0 (execSkeyInstall session body s) := by
  unfold execSkeyInstall
  refine KeepsO.next ?_
  refine State.tenant_keeps ?_ ?_
  · intro x0
    intro x1
    intro x2
    intro x3
    intro x4
    intro x5
    extract_lets v6 v7
    clear_value v7
    clear_value v6
    split
    · refine KeepsT.mk ?_
      with_reducible assumption
    · extract_lets v8 v9 v10
      have h11 : Keeps M s0 v10 := by
        unfold v10
        refine State.setSlot_keeps ?_
        with_reducible assumption
      clear_value v10
      refine KeepsT.ite ?_ ?_
      · intro x12
        refine KeepsT.mk ?_
        with_reducible assumption
      · intro x13
        refine KeepsT.ite ?_ ?_
        · intro x14
          refine KeepsT.mk ?_
          refine refDebug_keeps ?_
          with_reducible assumption
        · intro x15
          refine KeepsT.mk ?_
          refine Keeps.ite ?_ ?_
          · intro x16
            with_reducible assumption
          · intro x17
            refine State.newPageKey_keeps ?_
            with_reducible assumption
  · with_reducible assumption

theorem execTntKem_keeps {M : Part → Prop} [Fact (M .free)] [Fact (M .host)] [Fact (M .ref)] {s0 : State} {session : ℕ}
    {body : List Sys2Proof.Byte} {s : Sys2Proof.Machine.State} (hK : Keeps M s0 s) :
    KeepsO M s0 (execTntKem session body s) := by
  unfold execTntKem
  refine KeepsO.next ?_
  refine State.tenant_keeps ?_ ?_
  · intro x0
    intro x1
    intro x2
    intro x3
    intro x4
    intro x5
    refine KeepsT.ite ?_ ?_
    · intro x6
      refine KeepsT.mk ?_
      with_reducible assumption
    · intro x7
      extract_lets v8 v9
      split
      · rename_i hq10
        refine Keeps.viaPair (M := M) (s0 := s0) hq10 ?_ (fun hk11 => ?_)
        · refine newTicket_keeps ?_
          with_reducible assumption
        · refine KeepsT.mk ?_
          refine State.setSession_keeps ?_
          with_reducible assumption
  · with_reducible assumption

theorem execTntBind_keeps [Fact (M .free)] [Fact (M .regs)] [Fact (M .host)] [Fact (M .ref)] {s0 : State} {session : Nat}
    {body : List Byte} {s : State} (hK : Keeps M s0 s) :
    KeepsO M s0 (execTntBind session body s) := by
  refine KeepsO.next (State.vendor_keeps (fun k t h => ?_) hK)
  dsimp only
  split
  · refine KeepsT.ite (fun _ => State.authFail_keeps h) (fun _ => KeepsT.ite (fun _ => h) (fun _ => KeepsT.elim h (fun n => bindTo_keeps h)))
  · exact h
  · split
    · exact h
    · exact bindTo_keeps (State.setSlot_keeps h)

theorem execIdeKm_keeps {M : Part → Prop} [Fact (M .free)] [Fact (M .host)] [Fact (M .ref)] {s0 : State}
    {port : Sys2Proof.Machine.Port} {session : ℕ} {body : List Sys2Proof.Byte} {s : Sys2Proof.Machine.State}
    (hK : Keeps M s0 s) :
    KeepsO M s0 (execIdeKm port session body s) := by
  unfold execIdeKm
  refine KeepsO.next ?_
  refine State.spdmIn_keeps ?_ ?_
  · intro x0
    intro x1
    intro x2
    extract_lets v3 v4 v5
    refine Keeps.ite ?_ ?_
    · intro x6
      refine State.spdmError_keeps ?_
      with_reducible assumption
    · intro x7
      refine State.spdmReply_keeps ?_
      refine State.setConn_keeps ?_
      with_reducible assumption
  · with_reducible assumption

theorem execEndSession_keeps {M : Part → Prop} [Fact (M .free)] [Fact (M .host)] [Fact (M .ref)] {s0 : State}
    {port : Sys2Proof.Machine.Port} {session : ℕ} {body : List Sys2Proof.Byte} {s : Sys2Proof.Machine.State}
    (hK : Keeps M s0 s) :
    KeepsO M s0 (execEndSession port session body s) := by
  unfold execEndSession
  refine KeepsO.next ?_
  refine State.spdmIn_keeps ?_ ?_
  · intro x0
    intro x1
    intro x2
    refine State.spdmReply_keeps ?_
    refine Keeps.mk' ?_ le_rfl rfl (fun x => x) (fun x => x) le_rfl
    with_reducible assumption
  · with_reducible assumption

theorem execKeyUpdate_keeps {M : Part → Prop} [Fact (M .free)] [Fact (M .host)] [Fact (M .ref)] {s0 : State}
    {port : Sys2Proof.Machine.Port} {session : ℕ} {body : List Sys2Proof.Byte} {s : Sys2Proof.Machine.State}
    (hK : Keeps M s0 s) :
    KeepsO M s0 (execKeyUpdate port session body s) := by
  unfold execKeyUpdate
  refine KeepsO.next ?_
  refine State.spdmIn_keeps ?_ ?_
  · intro x0
    intro x1
    intro x2
    refine State.spdmReply_keeps ?_
    refine State.setSpdm_keeps ?_
    with_reducible assumption
  · with_reducible assumption

theorem execSpdmHeartbeat_keeps {M : Part → Prop} [Fact (M .free)] [Fact (M .host)] {s0 : State}
    {port : Sys2Proof.Machine.Port} {session : ℕ} {body : List Sys2Proof.Byte} {s : Sys2Proof.Machine.State}
    (hK : Keeps M s0 s) :
    KeepsO M s0 (execSpdmHeartbeat port session body s) := by
  unfold execSpdmHeartbeat
  refine KeepsO.next ?_
  refine State.spdmIn_keeps ?_ ?_
  · intro x0
    intro x1
    intro x2
    refine State.spdmReply_keeps ?_
    with_reducible assumption
  · with_reducible assumption

theorem execFinish_keeps {M : Part → Prop} [Fact (M .free)] [Fact (M .host)] [Fact (M .ref)] {s0 : State}
    {port : Sys2Proof.Machine.Port} {session : ℕ} {leafHash : Sys2Proof.Machine.Digest} {verified : Bool}
    {s : Sys2Proof.Machine.State} (hK : Keeps M s0 s) :
    KeepsO M s0 (execFinish port session leafHash verified s) := by
  unfold execFinish
  refine KeepsO.next ?_
  refine State.spdm_keeps ?_ ?_
  · intro x0
    intro x1
    split
    · refine Keeps.ite ?_ ?_
      · intro x2
        refine State.spdmError_keeps ?_
        with_reducible assumption
      · intro x3
        refine Keeps.ite ?_ ?_
        · intro x4
          refine State.spdmReply_keeps ?_
          refine State.setSpdm_keeps ?_
          with_reducible assumption
        · intro x5
          refine State.spdmError_keeps ?_
          refine Keeps.mk' ?_ le_rfl rfl (fun x => x) (fun x => x) le_rfl
          with_reducible assumption
    · refine State.spdmError_keeps ?_
      with_reducible assumption
  · with_reducible assumption

theorem execGetMeasurements_keeps {M : Part → Prop} [Fact (M .free)] [Fact (M .host)] {s0 : State}
    {port : Sys2Proof.Machine.Port} {body : List Sys2Proof.Byte} {s : Sys2Proof.Machine.State} (hK : Keeps M s0 s) :
    KeepsO M s0 (execGetMeasurements port body s) := by
  unfold execGetMeasurements
  refine KeepsO.next ?_
  refine State.spdm_keeps ?_ ?_
  · intro x0
    intro x1
    extract_lets v2 v3
    refine Keeps.ite ?_ ?_
    · intro x4
      refine State.spdmError_keeps ?_
      with_reducible assumption
    · intro x5
      split
      · rename_i hq6
        refine Keeps.viaPair (M := M) (s0 := s0) hq6 ?_ (fun hk7 => ?_)
        · refine State.signed_keeps ?_
          with_reducible assumption
        · refine State.emit_keeps ?_
          with_reducible assumption
  · with_reducible assumption

theorem execChallenge_keeps {M : Part → Prop} [Fact (M .free)] [Fact (M .host)] {s0 : State} {port : Sys2Proof.Machine.Port}
    {body : List Sys2Proof.Byte} {s : Sys2Proof.Machine.State} (hK : Keeps M s0 s) :
    KeepsO M s0 (execChallenge port body s) := by
  unfold execChallenge
  refine KeepsO.next ?_
  refine State.spdm_keeps ?_ ?_
  · intro x0
    intro x1
    split
    · rename_i hq2
      refine Keeps.viaPair (M := M) (s0 := s0) hq2 ?_ (fun hk3 => ?_)
      · refine State.signed_keeps ?_
        with_reducible assumption
      · refine State.emit_keeps ?_
        with_reducible assumption
  · with_reducible assumption

theorem execGetCertificate_keeps {M : Part → Prop} [Fact (M .host)] {s0 : State} {port : Sys2Proof.Machine.Port}
    {body : List Sys2Proof.Byte} {s : Sys2Proof.Machine.State} (hK : Keeps M s0 s) :
    KeepsO M s0 (execGetCertificate port body s) := by
  unfold execGetCertificate
  refine KeepsO.next ?_
  refine State.spdm_keeps ?_ ?_
  · intro x0
    intro x1
    refine Keeps.ite ?_ ?_
    · intro x2
      refine State.spdmError_keeps ?_
      with_reducible assumption
    · intro x3
      extract_lets v4 v5
      refine State.emit_keeps ?_
      with_reducible assumption
  · with_reducible assumption

theorem execGetDigests_keeps {M : Part → Prop} [Fact (M .host)] {s0 : State} {port : Sys2Proof.Machine.Port}
    {_body : List Sys2Proof.Byte} {s : Sys2Proof.Machine.State} (hK : Keeps M s0 s) :
    KeepsO M s0 (execGetDigests port _body s) := by
  unfold execGetDigests
  refine KeepsO.next ?_
  refine State.spdm_keeps ?_ ?_
  · intro x0
    intro x1
    refine State.emit_keeps ?_
    with_reducible assumption
  · with_reducible assumption

theorem execNegotiateAlgorithms_keeps {M : Part → Prop} [Fact (M .free)] [Fact (M .host)] [Fact (M .ref)] {s0 : State}
    {port : Sys2Proof.Machine.Port} {body : List Sys2Proof.Byte} {s : Sys2Proof.Machine.State} (hK : Keeps M s0 s) :
    KeepsO M s0 (execNegotiateAlgorithms port body s) := by
  unfold execNegotiateAlgorithms
  refine KeepsO.next ?_
  refine State.spdm_keeps ?_ ?_
  · intro x0
    intro x1
    refine State.spdmReply_keeps ?_
    refine State.setConn_keeps ?_
    with_reducible assumption
  · with_reducible assumption

theorem execGetCapabilities_keeps {M : Part → Prop} [Fact (M .free)] [Fact (M .host)] [Fact (M .ref)] {s0 : State}
    {port : Sys2Proof.Machine.Port} {body : List Sys2Proof.Byte} {s : Sys2Proof.Machine.State} (hK : Keeps M s0 s) :
    KeepsO M s0 (execGetCapabilities port body s) := by
  unfold execGetCapabilities
  refine KeepsO.next ?_
  refine State.spdm_keeps ?_ ?_
  · intro x0
    intro x1
    refine State.spdmReply_keeps ?_
    refine State.setConn_keeps ?_
    with_reducible assumption
  · with_reducible assumption

theorem execDbgChallenge_keeps {M : Part → Prop} [Fact (M .free)] [Fact (M .host)] [Fact (M .ref)] {s0 : State} {level : ℕ}
    {s : Sys2Proof.Machine.State} (hK : Keeps M s0 s) :
    KeepsO M s0 (execDbgChallenge level s) := by
  unfold execDbgChallenge
  refine KeepsO.ite ?_ ?_
  · intro x0
    refine KeepsO.next ?_
    with_reducible assumption
  · intro x1
    extract_lets v2 v3 v4
    have h5 : Keeps M s0 v3 := by
      unfold v3
      refine State.emit_keeps ?_
      refine State.freed_keeps ?_
      with_reducible assumption
    clear_value v3
    refine KeepsO.next ?_
    refine Keeps.mk' ?_ le_rfl rfl (fun x => x) (fun x => x) le_rfl
    with_reducible assumption

theorem execRefProfCtlReq_keeps {M : Part → Prop} [Fact (M .regs)] [Fact (M .host)] [Fact (M .ref)] {s0 : State}
    {port : Sys2Proof.Machine.Port} {value : Sys2Proof.Word} {s : Sys2Proof.Machine.State} (hK : Keeps M s0 s) :
    KeepsO M s0 (execRefProfCtlReq port value s) := by
  unfold execRefProfCtlReq
  refine KeepsO.ite ?_ ?_
  · intro x0
    refine KeepsO.next ?_
    with_reducible assumption
  · intro x1
    refine KeepsO.ite ?_ ?_
    · intro x2
      refine KeepsO.next ?_
      refine Keeps.ite ?_ ?_
      · intro x3
        refine State.setProfiling_keeps ?_
        with_reducible assumption
      · intro x4
        with_reducible assumption
    · intro x5
      refine KeepsO.ite ?_ ?_
      · intro x6
        refine KeepsO.next ?_
        with_reducible assumption
      · intro x7
        refine KeepsO.ite ?_ ?_
        · intro x8
          refine KeepsO.next ?_
          refine refDebug_keeps ?_
          refine State.setProfiling_keeps ?_
          with_reducible assumption
        · intro x9
          refine KeepsO.next ?_
          refine refDebug_keeps ?_
          with_reducible assumption

theorem execRefDbgCtlLock_keeps {M : Part → Prop} [Fact (M .regs)] [Fact (M .host)] [Fact (M .ref)] {s0 : State}
    {port : Sys2Proof.Machine.Port} {value : Sys2Proof.Word} {s : Sys2Proof.Machine.State} (hK : Keeps M s0 s) :
    KeepsO M s0 (execRefDbgCtlLock port value s) := by
  unfold execRefDbgCtlLock
  refine KeepsO.ite ?_ ?_
  · intro x0
    refine KeepsO.next ?_
    with_reducible assumption
  · intro x1
    split
    · refine KeepsO.next ?_
      refine refDebug_keeps ?_
      refine State.setDebug_keeps ?_
      with_reducible assumption
    · refine KeepsO.next ?_
      refine refDebug_keeps ?_
      with_reducible assumption
    · refine KeepsO.next ?_
      with_reducible assumption

theorem execPurgeGo_keeps {M : Part → Prop} [Fact (M .free)] [Fact (M .regs)] [Fact (M .host)] [Fact (M .lkr)] [Fact (M .mem)]
    [Fact (M .ref)] [Fact (M .scb)] [Fact (M .cells)] {s0 : State} {port : Sys2Proof.Machine.Port} {value : Sys2Proof.Word}
    {s : Sys2Proof.Machine.State} (hK : Keeps M s0 s) :
    KeepsO M s0 (execPurgeGo port value s) := by
  unfold execPurgeGo
  refine KeepsO.ite ?_ ?_
  · intro x0
    refine KeepsO.next ?_
    with_reducible assumption
  · intro x1
    extract_lets v2 v3
    have h4 : Keeps M s0 v3 := by
      unfold v3
      refine State.setFld_keeps ?_
      with_reducible assumption
    clear_value v3
    refine KeepsO.ite ?_ ?_
    · intro x5
      refine KeepsO.next ?_
      with_reducible assumption
    · intro x6
      refine KeepsO.next ?_
      refine State.purgeSlot_keeps ?_
      with_reducible assumption

theorem execRefRotateGo_keeps {M : Part → Prop} [Fact (M .regs)] [Fact (M .mem)] {s0 : State} {port : Sys2Proof.Machine.Port}
    {value : Sys2Proof.Word} {s : Sys2Proof.Machine.State} (hK : Keeps M s0 s) :
    KeepsO M s0 (execRefRotateGo port value s) := by
  unfold execRefRotateGo
  refine KeepsO.ite ?_ ?_
  · intro x0
    refine KeepsO.next ?_
    with_reducible assumption
  · intro x1
    extract_lets v2 v3
    have h4 : Keeps M s0 v3 := by
      unfold v3
      refine State.setFld_keeps ?_
      with_reducible assumption
    clear_value v3
    refine KeepsO.ite ?_ ?_
    · intro x5
      refine KeepsO.next ?_
      with_reducible assumption
    · intro x6
      refine KeepsO.ite ?_ ?_
      · intro x7
        refine KeepsO.next ?_
        refine State.setFld_keeps ?_
        with_reducible assumption
      · intro x8
        refine KeepsO.next ?_
        refine State.rotate_keeps ?_
        refine State.setFld_keeps ?_
        with_reducible assumption

theorem execKeyLoadReceive_keeps {M : Part → Prop} [Fact (M .free)] [Fact (M .mem)] [Fact (M .scb)] {s0 : State} {die : ℕ}
    {slot : ℕ} {s : Sys2Proof.Machine.State} (hK : Keeps M s0 s) :
    KeepsO M s0 (execKeyLoadReceive die slot s) := by
  unfold execKeyLoadReceive
  split
  · refine KeepsO.next ?_
    with_reducible assumption
  · refine KeepsO.ite ?_ ?_
    · intro x0
      refine KeepsO.next ?_
      with_reducible assumption
    · intro x1
      extract_lets v2 v3 v4 v5
      have h6 : Keeps M s0 v4 := by
        unfold v4
        refine Keeps.mk' ?_ le_rfl rfl (fun x => x) (fun x => x) le_rfl
        with_reducible assumption
      clear_value v4
      refine KeepsO.ite ?_ ?_
      · intro x7
        refine KeepsO.next ?_
        refine traceSweep_keeps ?_
        refine Keeps.mk' ?_ le_rfl rfl (fun x => x) (fun x => x) le_rfl
        with_reducible assumption
      · intro x8
        refine KeepsO.next ?_
        with_reducible assumption

theorem execScrubPageDone_keeps {M : Part → Prop} [Fact (M .regs)] [Fact (M .host)] [Fact (M .mem)] [Fact (M .scb)]
    [Fact (M .cells)] {s0 : State} {s : Sys2Proof.Machine.State} (hK : Keeps M s0 s) :
    KeepsO M s0 (execScrubPageDone s) := by
  unfold execScrubPageDone
  refine KeepsO.ite ?_ ?_
  · intro x0
    refine KeepsO.next ?_
    with_reducible assumption
  · intro x1
    split
    · refine KeepsO.next ?_
      refine State.scrubPage_keeps ?_
      with_reducible assumption
    · refine KeepsO.next ?_
      with_reducible assumption

theorem execMemReread_keeps {M : Part → Prop} [Fact (M .free)] [Fact (M .regs)] [Fact (M .host)] [Fact (M .ump)]
    [Fact (M .lkr)] [Fact (M .mem)] [Fact (M .err)] [Fact (M .scb)] [Fact (M .mgl)] [Fact (M .rdc)] [Fact (M .wst)]
    [Fact (M .eng)] [Fact (M .cells)] {s0 : State} {addr : ℕ} {word : List Sys2Proof.Byte} {rewriteOk : Bool}
    {s : Sys2Proof.Machine.State} (hK : Keeps M s0 s) :
    KeepsO M s0 (execMemReread addr word rewriteOk s) := by
  unfold execMemReread
  extract_lets v0 v1
  have h2 : Keeps M s0 v1 := by
    unfold v1
    refine countCe_keeps ?_
    with_reducible assumption
  clear_value v1
  refine KeepsO.ite ?_ ?_
  · intro x3
    refine KeepsO.next ?_
    with_reducible assumption
  · intro x4
    split
    · refine KeepsO.next ?_
      refine Keeps.ite ?_ ?_
      · intro x5
        refine State.lineGood_keeps ?_
        with_reducible assumption
      · intro x6
        with_reducible assumption
    · refine KeepsO.next ?_
      refine Keeps.ite ?_ ?_
      · intro x7
        refine State.lineGood_keeps ?_
        with_reducible assumption
      · intro x8
        with_reducible assumption
    · refine KeepsO.next ?_
      refine Keeps.ite ?_ ?_
      · intro x9
        refine State.lineFails_keeps ?_
        with_reducible assumption
      · intro x10
        refine State.wordFails_keeps ?_
        with_reducible assumption

theorem execLkrQueryDone_keeps {M : Part → Prop} [Fact (M .regs)] [Fact (M .lkr)] [Fact (M .scb)] {s0 : State}
    {s : Sys2Proof.Machine.State} (hK : Keeps M s0 s) :
    KeepsO M s0 (execLkrQueryDone s) := by
  unfold execLkrQueryDone
  refine KeepsO.ite ?_ ?_
  · intro x0
    refine KeepsO.next ?_
    with_reducible assumption
  · intro x1
    extract_lets v2
    split
    · extract_lets v3 v4
      have h5 : Keeps M s0 v3 := by
        unfold v3
        refine State.setReg_keeps ?_
        refine State.setReg_keeps ?_
        with_reducible assumption
      clear_value v3
      refine KeepsO.next ?_
      refine State.countLookup_keeps ?_
      refine Keeps.mk' ?_ le_rfl rfl (fun x => x) (fun x => x) le_rfl
      with_reducible assumption

theorem execLkrQuery_keeps {M : Part → Prop} [Fact (M .regs)] [Fact (M .lkr)] {s0 : State} {port : Sys2Proof.Machine.Port}
    {value : Sys2Proof.Word} {s : Sys2Proof.Machine.State} (hK : Keeps M s0 s) :
    KeepsO M s0 (execLkrQuery port value s) := by
  unfold execLkrQuery
  refine KeepsO.ite ?_ ?_
  · intro x0
    refine KeepsO.next ?_
    with_reducible assumption
  · intro x1
    extract_lets v2 v3
    have h4 : Keeps M s0 v2 := by
      unfold v2
      refine State.setFld_keeps ?_
      refine State.setReg_keeps ?_
      with_reducible assumption
    clear_value v2
    refine KeepsO.next ?_
    refine Keeps.mk' ?_ le_rfl rfl (fun x => x) (fun x => x) le_rfl
    with_reducible assumption

theorem execDrainLimitExpiry_keeps {M : Part → Prop} [Fact (M .ts)] {s0 : State} {s : Sys2Proof.Machine.State}
    (hK : Keeps M s0 s) :
    KeepsO M s0 (execDrainLimitExpiry s) := by
  unfold execDrainLimitExpiry
  split
  · refine KeepsO.next ?_
    with_reducible assumption
  · refine KeepsO.next ?_
    refine Keeps.mk' ?_ le_rfl rfl (fun x => x) (fun x => x) le_rfl
    with_reducible assumption

theorem execMirrorFetchTimeout_keeps {M : Part → Prop} [Fact (M .ts)] [Fact (M .free)] [Fact (M .regs)] [Fact (M .host)]
    [Fact (M .ump)] [Fact (M .lkr)] [Fact (M .mem)] [Fact (M .scb)] [Fact (M .mgl)] [Fact (M .rdc)] [Fact (M .wst)]
    [Fact (M .eng)] [Fact (M .cells)] {s0 : State} {shard : ℕ} {s : Sys2Proof.Machine.State} (hK : Keeps M s0 s) :
    KeepsO M s0 (execMirrorFetchTimeout shard s) := by
  unfold execMirrorFetchTimeout
  split
  · refine KeepsO.next ?_
    with_reducible assumption
  · extract_lets v0 v1
    have h2 : Keeps M s0 v1 := by
      unfold v1
      refine Keeps.mk' ?_ le_rfl rfl (fun x => x) (fun x => x) le_rfl
      with_reducible assumption
    clear_value v1
    refine KeepsO.next ?_
    refine State.fenceShard_keeps ?_
    with_reducible assumption

theorem execReadReq_keeps {M : Part → Prop} [Fact (M .regs)] [Fact (M .scb)] [Fact (M .mgl)] {s0 : State}
    {s : Sys2Proof.Machine.State} (hK : Keeps M s0 s) :
    KeepsO M s0 (execReadReq s) := by
  unfold execReadReq
  split
  · refine KeepsO.next ?_
    with_reducible assumption
  · extract_lets v0 v1 v2 v3
    have h4 : Keeps M s0 v0 := by
      unfold v0
      refine State.takeInbox_keeps ?_
      with_reducible assumption
    clear_value v0
    split
    · refine KeepsO.next ?_
      with_reducible assumption
    · extract_lets v5
      refine KeepsO.next ?_
      refine Keeps.foldl ?_ ?_
      · with_reducible assumption
      · intro x6
        intro x7
        intro x8
        refine State.send_keeps ?_
        with_reducible assumption

theorem execWsLineReread_keeps {M : Part → Prop} [Fact (M .free)] [Fact (M .regs)] [Fact (M .host)] [Fact (M .ump)]
    [Fact (M .lkr)] [Fact (M .mem)] [Fact (M .scb)] [Fact (M .mgl)] [Fact (M .rdc)] [Fact (M .wst)] [Fact (M .eng)]
    [Fact (M .cells)] {s0 : State} {die : ℕ} {block : ℕ} {_line : ℕ} {first : List Sys2Proof.Byte}
    {second : List Sys2Proof.Byte} {s : Sys2Proof.Machine.State} (hK : Keeps M s0 s) :
    KeepsO M s0 (execWsLineReread die block _line first second s) := by
  unfold execWsLineReread
  split
  · refine KeepsO.next ?_
    with_reducible assumption
  · refine KeepsO.ite ?_ ?_
    · intro x0
      extract_lets v1
      have h2 : Keeps M s0 v1 := by
        unfold v1
        refine State.bump_keeps ?_
        refine State.bump_keeps ?_
        with_reducible assumption
      clear_value v1
      refine KeepsO.next ?_
      refine State.count_keeps ?_
      with_reducible assumption
    · intro x3
      extract_lets v4 v5 v6 v7
      have h8 : Keeps M s0 v4 := by
        unfold v4
        refine State.count_keeps ?_
        with_reducible assumption
      clear_value v4
      have h9 : Keeps M s0 v7 := by
        unfold v7
        refine Keeps.mk' ?_ le_rfl rfl (fun x => x) (fun x => x) le_rfl
        with_reducible assumption
      clear_value v7
      refine KeepsO.next ?_
      refine State.missShard_keeps ?_
      refine blockFault_keeps ?_
      with_reducible assumption

theorem execLoadSourceTimeout_keeps {M : Part → Prop} [Fact (M .ts)] [Fact (M .regs)] [Fact (M .host)] [Fact (M .wst)]
    {s0 : State} {s : Sys2Proof.Machine.State} (hK : Keeps M s0 s) :
    KeepsO M s0 (execLoadSourceTimeout s) := by
  unfold execLoadSourceTimeout
  split
  · refine KeepsO.next ?_
    with_reducible assumption
  · refine KeepsO.next ?_
    refine State.loadFails_keeps ?_
    refine Keeps.mk' ?_ le_rfl rfl (fun x => x) (fun x => x) le_rfl
    with_reducible assumption

theorem execLoadGone_keeps {M : Part → Prop} [Fact (M .host)] [Fact (M .mgl)] [Fact (M .wst)] {s0 : State}
    {s : Sys2Proof.Machine.State} (hK : Keeps M s0 s) :
    KeepsO M s0 (execLoadGone s) := by
  unfold execLoadGone
  split
  · refine KeepsO.next ?_
    with_reducible assumption
  · extract_lets v0
    have h1 : Keeps M s0 v0 := by
      unfold v0
      refine State.takeInbox_keeps ?_
      with_reducible assumption
    clear_value v0
    split
    · refine KeepsO.next ?_
      with_reducible assumption
    · refine KeepsO.ite ?_ ?_
      · intro x2
        refine KeepsO.next ?_
        refine State.needShard_keeps ?_
        with_reducible assumption
      · intro x3
        refine KeepsO.next ?_
        with_reducible assumption

theorem execLoadData_keeps {M : Part → Prop} [Fact (M .regs)] [Fact (M .host)] [Fact (M .mem)] [Fact (M .scb)] [Fact (M .mgl)]
    [Fact (M .wst)] [Fact (M .cells)] {s0 : State} {s : Sys2Proof.Machine.State} (hK : Keeps M s0 s) :
    KeepsO M s0 (execLoadData s) := by
  unfold execLoadData
  split
  · refine KeepsO.next ?_
    with_reducible assumption
  · extract_lets v0 v1 v2
    have h3 : Keeps M s0 v0 := by
      unfold v0
      refine State.takeInbox_keeps ?_
      with_reducible assumption
    clear_value v0
    split
    · refine KeepsO.ite ?_ ?_
      · intro x4
        refine KeepsO.next ?_
        with_reducible assumption
      · intro x5
        refine KeepsO.ite ?_ ?_
        · intro x6
          refine KeepsO.ite ?_ ?_
          · intro x7
            refine KeepsO.next ?_
            with_reducible assumption
          · intro x8
            refine KeepsO.next ?_
            refine State.takeBytes_keeps ?_
            with_reducible assumption
        · intro x9
          extract_lets v10 v11 v12 v13 v14
          have h15 : Keeps M s0 v13 := by
            unfold v13
            refine Keeps.foldl ?_ ?_
            · with_reducible assumption
            · intro x16
              intro x17
              intro x18
              refine State.askResend_keeps ?_
              with_reducible assumption
          clear_value v13
          have h19 : Keeps M s0 v14 := by
            unfold v14
            refine Keeps.ite ?_ ?_
            · intro x20
              refine State.modLoad_keeps ?_
              with_reducible assumption
            · intro x21
              with_reducible assumption
          clear_value v14
          refine KeepsO.ite ?_ ?_
          · intro x22
            refine KeepsO.next ?_
            with_reducible assumption
          · intro x23
            refine KeepsO.next ?_
            refine State.takePiece_keeps ?_
            with_reducible assumption
    · refine KeepsO.next ?_
      with_reducible assumption

theorem execShardWriteDone_keeps {M : Part → Prop} [Fact (M .regs)] [Fact (M .host)] [Fact (M .mem)] [Fact (M .ref)]
    [Fact (M .wst)] [Fact (M .cells)] {s0 : State} {verified : Bool} {s : Sys2Proof.Machine.State} (hK : Keeps M s0 s) :
    KeepsO M s0 (execShardWriteDone verified s) := by
  unfold execShardWriteDone
  split
  · refine KeepsO.next ?_
    with_reducible assumption
  · split
    · refine KeepsO.next ?_
      with_reducible assumption
    · extract_lets v0
      refine KeepsO.ite ?_ ?_
      · intro x1
        refine KeepsO.next ?_
        refine shardPlaced_keeps ?_
        with_reducible assumption
      · intro x2
        refine KeepsO.ite ?_ ?_
        · intro x3
          refine KeepsO.next ?_
          refine State.modLoad_keeps ?_
          refine State.putShard_keeps ?_
          with_reducible assumption
        · intro x4
          refine KeepsO.next ?_
          refine badBlock_keeps ?_
          with_reducible assumption

theorem execPreambleVerify_keeps {M : Part → Prop} [Fact (M .regs)] [Fact (M .host)] [Fact (M .mem)] [Fact (M .scb)]
    [Fact (M .mgl)] [Fact (M .wst)] [Fact (M .cells)] {s0 : State} {s : Sys2Proof.Machine.State} (hK : Keeps M s0 s) :
    KeepsO M s0 (execPreambleVerify s) := by
  unfold execPreambleVerify
  split
  · refine KeepsO.next ?_
    with_reducible assumption
  · refine KeepsO.ite ?_ ?_
    · intro x0
      refine KeepsO.next ?_
      with_reducible assumption
    · intro x1
      split
      · refine KeepsO.next ?_
        refine State.loadFails_keeps ?_
        with_reducible assumption
      · refine KeepsO.ite ?_ ?_
        · intro x2
          refine KeepsO.next ?_
          refine State.loadFails_keeps ?_
          with_reducible assumption
        · intro x3
          extract_lets v4 v5 v6 v7 v8
          have h9 : Keeps M s0 v4 := by
            unfold v4
            refine Keeps.ite ?_ ?_
            · intro x10
              refine takeOther_keeps ?_
              with_reducible assumption
            · intro x11
              with_reducible assumption
          clear_value v4
          have h12 : Keeps M s0 v6 := by
            unfold v6
            refine State.modLoad_keeps ?_
            with_reducible assumption
          clear_value v6
          have h13 : Keeps M s0 v8 := by
            unfold v8
            refine forwardPreamble_keeps ?_
            with_reducible assumption
          clear_value v8
          refine KeepsO.ite ?_ ?_
          · intro x14
            refine KeepsO.next ?_
            refine State.loadFails_keeps ?_
            with_reducible assumption
          · intro x15
            refine KeepsO.next ?_
            refine Keeps.foldl ?_ ?_
            · with_reducible assumption
            · intro x16
              intro x17
              intro x18
              refine State.shardArrives_keeps ?_
              with_reducible assumption

theorem execLoadAbort_keeps {M : Part → Prop} [Fact (M .regs)] [Fact (M .host)] [Fact (M .wst)] {s0 : State}
    {port : Sys2Proof.Machine.Port} {value : Sys2Proof.Word} {s : Sys2Proof.Machine.State} (hK : Keeps M s0 s) :
    KeepsO M s0 (execLoadAbort port value s) := by
  unfold execLoadAbort
  refine KeepsO.ite ?_ ?_
  · intro x0
    refine KeepsO.next ?_
    with_reducible assumption
  · intro x1
    extract_lets v2
    have h3 : Keeps M s0 v2 := by
      unfold v2
      refine State.setFld_keeps ?_
      with_reducible assumption
    clear_value v2
    refine KeepsO.next ?_
    refine Keeps.ite ?_ ?_
    · intro x4
      refine State.loadFails_keeps ?_
      with_reducible assumption
    · intro x5
      with_reducible assumption

theorem execRekeyLimit_keeps {M : Part → Prop} [Fact (M .regs)] [Fact (M .host)] [Fact (M .mgl)] {s0 : State} {port : ℕ}
    {s : Sys2Proof.Machine.State} (hK : Keeps M s0 s) :
    KeepsO M s0 (execRekeyLimit port s) := by
  unfold execRekeyLimit
  extract_lets v0
  refine KeepsO.ite ?_ ?_
  · intro x1
    refine KeepsO.next ?_
    refine State.linkDown_keeps ?_
    with_reducible assumption
  · intro x2
    refine KeepsO.next ?_
    with_reducible assumption

theorem execRekey_keeps {M : Part → Prop} [Fact (M .free)] [Fact (M .host)] [Fact (M .mgl)] {s0 : State} {port : ℕ}
    {peer : Sys2Proof.PeerProof} {s : Sys2Proof.Machine.State} (hK : Keeps M s0 s) :
    KeepsO M s0 (execRekey port peer s) := by
  unfold execRekey
  extract_lets v0 v1 v2
  have h3 : Keeps M s0 v2 := by
    unfold v2
    refine State.handshake_keeps ?_
    with_reducible assumption
  clear_value v2
  refine KeepsO.ite ?_ ?_
  · intro x4
    refine KeepsO.next ?_
    with_reducible assumption
  · intro x5
    clear_value v1
    clear_value v0
    split
    · refine KeepsO.next ?_
      refine State.setLink_keeps ?_
      with_reducible assumption
    · refine KeepsO.next ?_
      with_reducible assumption

theorem execSessionHandshake_keeps {M : Part → Prop} [Fact (M .free)] [Fact (M .host)] [Fact (M .mgl)] {s0 : State} {port : ℕ}
    {peer : Sys2Proof.PeerProof} {s : Sys2Proof.Machine.State} (hK : Keeps M s0 s) :
    KeepsO M s0 (execSessionHandshake port peer s) := by
  unfold execSessionHandshake
  extract_lets v0 v1 v2 v3
  have h4 : Keeps M s0 v2 := by
    unfold v2
    refine State.handshake_keeps ?_
    with_reducible assumption
  clear_value v2
  refine KeepsO.ite ?_ ?_
  · intro x5
    refine KeepsO.next ?_
    with_reducible assumption
  · intro x6
    clear_value v3
    clear_value v1
    clear_value v0
    split
    · refine KeepsO.next ?_
      refine State.setLink_keeps ?_
      with_reducible assumption
    · refine KeepsO.next ?_
      refine State.opEvent_keeps ?_
      refine State.setLink_keeps ?_
      with_reducible assumption

theorem execTsyncTimeout_keeps {M : Part → Prop} [Fact (M .host)] [Fact (M .mgl)] {s0 : State} {s : Sys2Proof.Machine.State}
    (hK : Keeps M s0 s) :
    KeepsO M s0 (execTsyncTimeout s) := by
  unfold execTsyncTimeout
  extract_lets v0
  refine KeepsO.ite ?_ ?_
  · intro x1
    refine KeepsO.next ?_
    with_reducible assumption
  · intro x2
    refine KeepsO.ite ?_ ?_
    · intro x3
      refine KeepsO.next ?_
      refine State.setTsync_keeps ?_
      with_reducible assumption
    · intro x4
      refine KeepsO.ite ?_ ?_
      · intro x5
        refine KeepsO.next ?_
        refine State.setTsync_keeps ?_
        with_reducible assumption
      · intro x6
        refine KeepsO.next ?_
        with_reducible assumption

theorem execSyncReply_keeps {M : Part → Prop} [Fact (M .ts)] [Fact (M .free)] [Fact (M .regs)] [Fact (M .host)]
    [Fact (M .scb)] [Fact (M .mgl)] {s0 : State} {t2 : ℕ} {t3 : ℕ} {t4 : ℕ} {st : ℕ} {hops : ℕ × Sys2Proof.Machine.LmcCheck}
    {s : Sys2Proof.Machine.State} (hK : Keeps M s0 s) :
    KeepsO M s0 (execSyncReply t2 t3 t4 st hops s) := by
  unfold execSyncReply
  extract_lets v0 v1 v2 v3 v4 v5 v6
  have h7 : Keeps M s0 v2 := by
    unfold v2
    refine Keeps.mk' ?_ le_rfl rfl (fun x => x) (fun x => x) le_rfl
    with_reducible assumption
  clear_value v2
  have h8 : Keeps M s0 v6 := by
    unfold v6
    refine State.freed_keeps ?_
    with_reducible assumption
  clear_value v6
  split
  · refine KeepsO.next ?_
    with_reducible assumption
  · extract_lets v9 v10 v11 v12 v13 v14 v15 v16 v17 v18
    have h19 : Keeps M s0 v14 := by
      unfold v14
      refine Keeps.ite ?_ ?_
      · intro x20
        refine Keeps.mk' ?_ le_rfl rfl (fun x => x) (fun x => x) le_rfl
        with_reducible assumption
      · intro x21
        with_reducible assumption
    clear_value v14
    have h22 : Keeps M s0 v15 := by
      unfold v15
      refine State.setTsync_keeps ?_
      with_reducible assumption
    clear_value v15
    have h23 : Keeps M s0 v16 := by
      unfold v16
      refine State.setFld_keeps ?_
      with_reducible assumption
    clear_value v16
    have h24 : Keeps M s0 v18 := by
      unfold v18
      refine State.trace_keeps ?_
      with_reducible assumption
    clear_value v18
    refine KeepsO.ite ?_ ?_
    · intro x25
      refine KeepsO.next ?_
      refine State.setFld_keeps ?_
      with_reducible assumption
    · intro x26
      refine KeepsO.next ?_
      with_reducible assumption

theorem execSyncReq_keeps {M : Part → Prop} [Fact (M .free)] [Fact (M .host)] {s0 : State}
    {port : ℕ × Sys2Proof.Machine.LmcCheck} {s : Sys2Proof.Machine.State} (hK : Keeps M s0 s) :
    KeepsO M s0 (execSyncReq port s) := by
  unfold execSyncReq
  refine KeepsO.ite ?_ ?_
  · intro x0
    refine KeepsO.next ?_
    with_reducible assumption
  · intro x1
    extract_lets v2 v3 v4 v5
    have h6 : Keeps M s0 v3 := by
      unfold v3
      refine State.freed_keeps ?_
      with_reducible assumption
    clear_value v3
    have h7 : Keeps M s0 v5 := by
      unfold v5
      refine State.freed_keeps ?_
      with_reducible assumption
    clear_value v5
    split
    · refine KeepsO.next ?_
      refine State.sendLmc_keeps ?_
      with_reducible assumption

theorem execTsyncExchange_keeps {M : Part → Prop} [Fact (M .free)] [Fact (M .host)] [Fact (M .mgl)] {s0 : State}
    {s : Sys2Proof.Machine.State} (hK : Keeps M s0 s) :
    KeepsO M s0 (execTsyncExchange s) := by
  unfold execTsyncExchange
  extract_lets v0 v1 v2 v3 v4 v5 v6
  have h7 : Keeps M s0 v5 := by
    unfold v5
    refine State.freed_keeps ?_
    with_reducible assumption
  clear_value v5
  refine KeepsO.ite ?_ ?_
  · intro x8
    refine KeepsO.next ?_
    with_reducible assumption
  · intro x9
    refine KeepsO.ite ?_ ?_
    · intro x10
      refine KeepsO.next ?_
      refine Keeps.mk' ?_ le_rfl rfl (fun x => x) (fun x => x) le_rfl
      with_reducible assumption
    · intro x11
      refine KeepsO.next ?_
      refine State.sendLmc_keeps ?_
      refine Keeps.mk' ?_ le_rfl rfl (fun x => x) (fun x => x) le_rfl
      with_reducible assumption

theorem execLmcCreditReturn_keeps {M : Part → Prop} [Fact (M .mgl)] {s0 : State} {port : ℕ} {vc : ℕ}
    {count : ℕ × Sys2Proof.Machine.LmcCheck} {s : Sys2Proof.Machine.State} (hK : Keeps M s0 s) :
    KeepsO M s0 (execLmcCreditReturn port vc count s) := by
  unfold execLmcCreditReturn
  extract_lets v0
  refine KeepsO.ite ?_ ?_
  · intro x1
    refine KeepsO.next ?_
    with_reducible assumption
  · intro x2
    refine KeepsO.next ?_
    refine State.setLink_keeps ?_
    with_reducible assumption

theorem execLmcReplayRequest_keeps {M : Part → Prop} [Fact (M .free)] [Fact (M .regs)] [Fact (M .host)] [Fact (M .err)]
    [Fact (M .scb)] [Fact (M .mgl)] {s0 : State} {port : ℕ} {seq : ℕ × Sys2Proof.Machine.LmcCheck}
    {s : Sys2Proof.Machine.State} (hK : Keeps M s0 s) :
    KeepsO M s0 (execLmcReplayRequest port seq s) := by
  unfold execLmcReplayRequest
  extract_lets v0 v1 v2 v3 v4
  have h5 : Keeps M s0 v2 := by
    unfold v2
    refine State.bump_keeps ?_
    with_reducible assumption
  clear_value v2
  have h6 : Keeps M s0 v3 := by
    unfold v3
    refine State.count_keeps ?_
    with_reducible assumption
  clear_value v3
  refine KeepsO.ite ?_ ?_
  · intro x7
    refine KeepsO.next ?_
    with_reducible assumption
  · intro x8
    refine KeepsO.ite ?_ ?_
    · intro x9
      refine KeepsO.next ?_
      refine State.linkFall_keeps ?_
      with_reducible assumption
    · intro x10
      refine KeepsO.next ?_
      refine Keeps.foldl ?_ ?_
      · with_reducible assumption
      · intro x11
        intro x12
        intro x13
        unfold v4
        split
        · refine State.emit_keeps ?_
          with_reducible assumption

theorem execFrameReceive_keeps {M : Part → Prop} [Fact (M .free)] [Fact (M .regs)] [Fact (M .host)] [Fact (M .err)]
    [Fact (M .scb)] [Fact (M .mgl)] {s0 : State} {port : ℕ} {frame : Sys2Proof.LinkFrame} {s : Sys2Proof.Machine.State}
    (hK : Keeps M s0 s) :
    KeepsO M s0 (execFrameReceive port frame s) := by
  unfold execFrameReceive
  extract_lets v0 v1 v2
  refine KeepsO.ite ?_ ?_
  · intro x3
    refine KeepsO.next ?_
    with_reducible assumption
  · intro x4
    split
    · split
      · extract_lets v5
        have h6 : Keeps M s0 v5 := by
          unfold v5
          refine State.setLink_keeps ?_
          with_reducible assumption
        clear_value v5
        refine KeepsO.next ?_
        refine State.count_keeps ?_
        with_reducible assumption
    · refine KeepsO.ite ?_ ?_
      · intro x7
        refine KeepsO.next ?_
        refine State.linkFall_keeps ?_
        with_reducible assumption
      · intro x8
        refine KeepsO.next ?_
        refine State.sendLmc_keeps ?_
        refine State.setLink_keeps ?_
        with_reducible assumption

theorem execPortUp_keeps {M : Part → Prop} [Fact (M .mgl)] {s0 : State} {port : ℕ} {peer : Sys2Proof.PeerLink}
    {s : Sys2Proof.Machine.State} (hK : Keeps M s0 s) :
    KeepsO M s0 (execPortUp port peer s) := by
  unfold execPortUp
  extract_lets v0 v1 v2
  refine KeepsO.ite ?_ ?_
  · intro x3
    refine KeepsO.next ?_
    with_reducible assumption
  · intro x4
    refine KeepsO.ite ?_ ?_
    · intro x5
      refine KeepsO.next ?_
      refine State.setLink_keeps ?_
      with_reducible assumption
    · intro x6
      refine KeepsO.ite ?_ ?_
      · intro x7
        refine KeepsO.next ?_
        with_reducible assumption
      · intro x8
        refine KeepsO.ite ?_ ?_
        · intro x9
          refine KeepsO.next ?_
          refine State.setLink_keeps ?_
          with_reducible assumption
        · intro x10
          refine KeepsO.ite ?_ ?_
          · intro x11
            refine KeepsO.next ?_
            with_reducible assumption
          · intro x12
            refine KeepsO.ite ?_ ?_
            · intro x13
              refine KeepsO.next ?_
              with_reducible assumption
            · intro x14
              refine KeepsO.next ?_
              refine State.setLink_keeps ?_
              with_reducible assumption

theorem execVerdictTimeout_keeps {M : Part → Prop} [Fact (M .ts)] [Fact (M .free)] [Fact (M .regs)] [Fact (M .host)]
    [Fact (M .ump)] [Fact (M .lkr)] [Fact (M .mem)] [Fact (M .scb)] [Fact (M .mgl)] [Fact (M .rdc)] [Fact (M .wst)]
    [Fact (M .eng)] [Fact (M .cells)] {s0 : State} {s : Sys2Proof.Machine.State} (hK : Keeps M s0 s) :
    KeepsO M s0 (execVerdictTimeout s) := by
  unfold execVerdictTimeout
  extract_lets v0
  have h1 : Keeps M s0 v0 := by
    unfold v0
    refine State.forwardLate_keeps ?_
    with_reducible assumption
  clear_value v0
  split
  · refine KeepsO.next ?_
    with_reducible assumption
  · refine KeepsO.ite ?_ ?_
    · intro x2
      refine KeepsO.next ?_
      with_reducible assumption
    · intro x3
      refine KeepsO.next ?_
      refine State.faultSelf_keeps ?_
      refine Keeps.mk' ?_ le_rfl rfl (fun x => x) (fun x => x) le_rfl
      with_reducible assumption

theorem execVerdictReceive_keeps {M : Part → Prop} [Fact (M .regs)] [Fact (M .ump)] [Fact (M .scb)] [Fact (M .mgl)]
    [Fact (M .rdc)] {s0 : State} {s : Sys2Proof.Machine.State} (hK : Keeps M s0 s) :
    KeepsO M s0 (execVerdictReceive s) := by
  unfold execVerdictReceive
  refine KeepsO.next ?_
  refine takeInbox_keeps ?_ ?_
  · intro x0
    intro x1
    intro x2
    refine takeVerdict_keeps ?_
    with_reducible assumption
  · with_reducible assumption

theorem execVoteForwardBound_keeps {M : Part → Prop} [Fact (M .ts)] [Fact (M .free)] [Fact (M .regs)] [Fact (M .host)]
    [Fact (M .ump)] [Fact (M .lkr)] [Fact (M .mem)] [Fact (M .scb)] [Fact (M .mgl)] [Fact (M .rdc)] [Fact (M .wst)]
    [Fact (M .eng)] [Fact (M .cells)] {s0 : State} {s : Sys2Proof.Machine.State} (hK : Keeps M s0 s) :
    KeepsO M s0 (execVoteForwardBound s) := by
  unfold execVoteForwardBound
  refine KeepsO.next ?_
  refine State.forwardLate_keeps ?_
  with_reducible assumption

theorem execVoteReceive_keeps {M : Part → Prop} [Fact (M .regs)] [Fact (M .ump)] [Fact (M .scb)] [Fact (M .mgl)]
    [Fact (M .rdc)] {s0 : State} {s : Sys2Proof.Machine.State} (hK : Keeps M s0 s) :
    KeepsO M s0 (execVoteReceive s) := by
  unfold execVoteReceive
  refine KeepsO.next ?_
  refine takeInbox_keeps ?_ ?_
  · intro x0
    intro x1
    intro x2
    refine takeVote_keeps ?_
    with_reducible assumption
  · with_reducible assumption

theorem execVoteSend_keeps {M : Part → Prop} [Fact (M .ts)] [Fact (M .free)] [Fact (M .regs)] [Fact (M .host)] [Fact (M .ump)]
    [Fact (M .lkr)] [Fact (M .mem)] [Fact (M .scb)] [Fact (M .mgl)] [Fact (M .rdc)] [Fact (M .wst)] [Fact (M .eng)]
    [Fact (M .cells)] {s0 : State} {s : Sys2Proof.Machine.State} (hK : Keeps M s0 s) :
    KeepsO M s0 (execVoteSend s) := by
  unfold execVoteSend
  refine KeepsO.next ?_
  refine State.castVote_keeps ?_
  with_reducible assumption

theorem execDueNsDeadline_keeps {M : Part → Prop} [Fact (M .ts)] [Fact (M .free)] [Fact (M .regs)] [Fact (M .host)]
    [Fact (M .ump)] [Fact (M .lkr)] [Fact (M .mem)] [Fact (M .scb)] [Fact (M .mgl)] [Fact (M .rdc)] [Fact (M .wst)]
    [Fact (M .eng)] [Fact (M .cells)] {s0 : State} {channel : ℕ} {s : Sys2Proof.Machine.State} (hK : Keeps M s0 s) :
    KeepsO M s0 (execDueNsDeadline channel s) := by
  unfold execDueNsDeadline
  split
  · refine KeepsO.ite ?_ ?_
    · intro x0
      refine KeepsO.next ?_
      with_reducible assumption
    · intro x1
      split
      · refine KeepsO.next ?_
        with_reducible assumption
      · refine KeepsO.next ?_
        refine State.failVote_keeps ?_
        refine Keeps.mk' ?_ le_rfl rfl (fun x => x) (fun x => x) le_rfl
        with_reducible assumption
  · refine KeepsO.next ?_
    with_reducible assumption

theorem execFbReturnReceive_keeps {M : Part → Prop} [Fact (M .free)] [Fact (M .regs)] [Fact (M .ump)] [Fact (M .mem)]
    [Fact (M .scb)] [Fact (M .mgl)] [Fact (M .rdc)] [Fact (M .cells)] {s0 : State} {s : Sys2Proof.Machine.State}
    (hK : Keeps M s0 s) :
    KeepsO M s0 (execFbReturnReceive s) := by
  unfold execFbReturnReceive
  refine KeepsO.next ?_
  refine takeInbox_keeps ?_ ?_
  · intro x0
    intro x1
    intro x2
    refine takePacket_keeps ?_ ?_
    · intro x3
      intro x4
      intro x5
      intro x6
      intro x7
      intro x8
      refine takeReturn_keeps ?_
      with_reducible assumption
    · with_reducible assumption
  · with_reducible assumption

theorem execFbRowReceive_keeps {M : Part → Prop} [Fact (M .free)] [Fact (M .regs)] [Fact (M .ump)] [Fact (M .mem)]
    [Fact (M .scb)] [Fact (M .mgl)] [Fact (M .rdc)] [Fact (M .cells)] {s0 : State} {s : Sys2Proof.Machine.State}
    (hK : Keeps M s0 s) :
    KeepsO M s0 (execFbRowReceive s) := by
  unfold execFbRowReceive
  refine KeepsO.next ?_
  refine takeInbox_keeps ?_ ?_
  · intro x0
    intro x1
    intro x2
    refine takePacket_keeps ?_ ?_
    · intro x3
      intro x4
      intro x5
      intro x6
      intro x7
      intro x8
      refine takeRow_keeps ?_
      with_reducible assumption
    · with_reducible assumption
  · with_reducible assumption

theorem execFbCountsReceive_keeps {M : Part → Prop} [Fact (M .free)] [Fact (M .regs)] [Fact (M .ump)] [Fact (M .mem)]
    [Fact (M .scb)] [Fact (M .mgl)] [Fact (M .rdc)] [Fact (M .cells)] {s0 : State} {s : Sys2Proof.Machine.State}
    (hK : Keeps M s0 s) :
    KeepsO M s0 (execFbCountsReceive s) := by
  unfold execFbCountsReceive
  refine KeepsO.next ?_
  refine takeInbox_keeps ?_ ?_
  · intro x0
    intro x1
    intro x2
    refine takePacket_keeps ?_ ?_
    · intro x3
      intro x4
      intro x5
      intro x6
      intro x7
      intro x8
      refine takeCounts_keeps ?_
      with_reducible assumption
    · with_reducible assumption
  · with_reducible assumption

theorem execRdcDataReceive_keeps {M : Part → Prop} [Fact (M .free)] [Fact (M .regs)] [Fact (M .host)] [Fact (M .ump)]
    [Fact (M .lkr)] [Fact (M .mem)] [Fact (M .scb)] [Fact (M .mgl)] [Fact (M .rdc)] [Fact (M .wst)] [Fact (M .eng)]
    [Fact (M .cells)] {s0 : State} {s : Sys2Proof.Machine.State} (hK : Keeps M s0 s) :
    KeepsO M s0 (execRdcDataReceive s) := by
  unfold execRdcDataReceive
  refine KeepsO.next ?_
  refine takeInbox_keeps ?_ ?_
  · intro x0
    intro x1
    intro x2
    refine takePacket_keeps ?_ ?_
    · intro x3
      intro x4
      intro x5
      intro x6
      intro x7
      intro x8
      split
      · refine takeUp_keeps ?_
        with_reducible assumption
      · refine takeDown_keeps ?_
        with_reducible assumption
      · refine takeGather_keeps ?_
        with_reducible assumption
      · with_reducible assumption
    · with_reducible assumption
  · with_reducible assumption

theorem execChannelEnd_keeps {M : Part → Prop} [Fact (M .eng)] {s0 : State} {channel : ℕ} {cmd : Sys2Proof.Desc}
    {s : Sys2Proof.Machine.State} (hK : Keeps M s0 s) :
    KeepsO M s0 (execChannelEnd channel cmd s) := by
  unfold execChannelEnd
  refine KeepsO.next ?_
  refine State.endCommand_keeps ?_
  with_reducible assumption

theorem execChannelSignal_keeps {M : Part → Prop} [Fact (M .ump)] [Fact (M .eng)] {s0 : State} {channel : ℕ}
    {cmd : Sys2Proof.Desc} {s : Sys2Proof.Machine.State} (hK : Keeps M s0 s) :
    KeepsO M s0 (execChannelSignal channel cmd s) := by
  unfold execChannelSignal
  refine KeepsO.next ?_
  refine State.signalCommand_keeps ?_
  with_reducible assumption

theorem execChannelWait_keeps {M : Part → Prop} [Fact (M .eng)] {s0 : State} {channel : ℕ} {cmd : Sys2Proof.Desc}
    {s : Sys2Proof.Machine.State} (hK : Keeps M s0 s) :
    KeepsO M s0 (execChannelWait channel cmd s) := by
  unfold execChannelWait
  refine KeepsO.next ?_
  refine State.waitCommand_keeps ?_
  with_reducible assumption

theorem execChannelCombine_keeps {M : Part → Prop} [Fact (M .free)] [Fact (M .regs)] [Fact (M .ump)] [Fact (M .mem)]
    [Fact (M .scb)] [Fact (M .mgl)] [Fact (M .rdc)] [Fact (M .eng)] [Fact (M .cells)] {s0 : State} {channel : ℕ}
    {cmd : Sys2Proof.Desc} {s : Sys2Proof.Machine.State} (hK : Keeps M s0 s) :
    KeepsO M s0 (execChannelCombine channel cmd s) := by
  unfold execChannelCombine
  refine KeepsO.ite ?_ ?_
  · intro x0
    refine issueChan_keeps ?_ ?_
    · intro x1
      intro x2
      intro x3
      intro x4
      intro x5
      refine startCombine_keeps ?_
      with_reducible assumption
    · with_reducible assumption
  · intro x6
    refine KeepsO.next ?_
    with_reducible assumption

theorem execDispatch_keeps {M : Part → Prop} [Fact (M .free)] [Fact (M .regs)] [Fact (M .ump)] [Fact (M .mem)] [Fact (M .scb)]
    [Fact (M .mgl)] [Fact (M .rdc)] [Fact (M .eng)] [Fact (M .cells)] {s0 : State} {channel : ℕ} {cmd : Sys2Proof.Desc}
    {s : Sys2Proof.Machine.State} (hK : Keeps M s0 s) :
    KeepsO M s0 (execDispatch channel cmd s) := by
  unfold execDispatch
  refine issueChan_keeps ?_ ?_
  · intro x0
    intro x1
    intro x2
    intro x3
    intro x4
    refine startDispatch_keeps ?_
    with_reducible assumption
  · with_reducible assumption

theorem execAllgather_keeps {M : Part → Prop} [Fact (M .free)] [Fact (M .regs)] [Fact (M .ump)] [Fact (M .mem)]
    [Fact (M .scb)] [Fact (M .mgl)] [Fact (M .rdc)] [Fact (M .eng)] [Fact (M .cells)] {s0 : State} {channel : ℕ}
    {cmd : Sys2Proof.Desc} {s : Sys2Proof.Machine.State} (hK : Keeps M s0 s) :
    KeepsO M s0 (execAllgather channel cmd s) := by
  unfold execAllgather
  refine issueChan_keeps ?_ ?_
  · intro x0
    intro x1
    intro x2
    intro x3
    intro x4
    refine startGather_keeps ?_
    with_reducible assumption
  · with_reducible assumption

theorem execBcast_keeps {M : Part → Prop} [Fact (M .free)] [Fact (M .regs)] [Fact (M .ump)] [Fact (M .mem)] [Fact (M .scb)]
    [Fact (M .mgl)] [Fact (M .rdc)] [Fact (M .eng)] [Fact (M .cells)] {s0 : State} {channel : ℕ} {cmd : Sys2Proof.Desc}
    {s : Sys2Proof.Machine.State} (hK : Keeps M s0 s) :
    KeepsO M s0 (execBcast channel cmd s) := by
  unfold execBcast
  refine issueChan_keeps ?_ ?_
  · intro x0
    intro x1
    intro x2
    intro x3
    intro x4
    refine startBcast_keeps ?_
    with_reducible assumption
  · with_reducible assumption

theorem execReduce_keeps {M : Part → Prop} [Fact (M .free)] [Fact (M .regs)] [Fact (M .host)] [Fact (M .ump)] [Fact (M .lkr)]
    [Fact (M .mem)] [Fact (M .scb)] [Fact (M .mgl)] [Fact (M .rdc)] [Fact (M .wst)] [Fact (M .eng)] [Fact (M .cells)]
    {s0 : State} {channel : ℕ} {cmd : Sys2Proof.Desc} {s : Sys2Proof.Machine.State} (hK : Keeps M s0 s) :
    KeepsO M s0 (execReduce channel cmd s) := by
  unfold execReduce
  refine issueChan_keeps ?_ ?_
  · intro x0
    intro x1
    intro x2
    intro x3
    intro x4
    refine tryChunks_keeps ?_
    with_reducible assumption
  · with_reducible assumption

theorem execAllreduce_keeps {M : Part → Prop} [Fact (M .free)] [Fact (M .regs)] [Fact (M .host)] [Fact (M .ump)]
    [Fact (M .lkr)] [Fact (M .mem)] [Fact (M .scb)] [Fact (M .mgl)] [Fact (M .rdc)] [Fact (M .wst)] [Fact (M .eng)]
    [Fact (M .cells)] {s0 : State} {channel : ℕ} {cmd : Sys2Proof.Desc} {s : Sys2Proof.Machine.State} (hK : Keeps M s0 s) :
    KeepsO M s0 (execAllreduce channel cmd s) := by
  unfold execAllreduce
  refine issueChan_keeps ?_ ?_
  · intro x0
    intro x1
    intro x2
    intro x3
    intro x4
    refine tryChunks_keeps ?_
    with_reducible assumption
  · with_reducible assumption

theorem execGatherEnd_keeps {M : Part → Prop} [Fact (M .eng)] {s0 : State} {engine : ℕ} {cmd : Sys2Proof.Desc}
    {s : Sys2Proof.Machine.State} (hK : Keeps M s0 s) :
    KeepsO M s0 (execGatherEnd engine cmd s) := by
  unfold execGatherEnd
  refine KeepsO.next ?_
  refine State.endCommand_keeps ?_
  with_reducible assumption

theorem execGatherWait_keeps {M : Part → Prop} [Fact (M .eng)] {s0 : State} {engine : ℕ} {cmd : Sys2Proof.Desc}
    {s : Sys2Proof.Machine.State} (hK : Keeps M s0 s) :
    KeepsO M s0 (execGatherWait engine cmd s) := by
  unfold execGatherWait
  refine KeepsO.next ?_
  refine State.waitCommand_keeps ?_
  with_reducible assumption

theorem execEmbag_keeps {M : Part → Prop} [Fact (M .free)] [Fact (M .regs)] [Fact (M .host)] [Fact (M .ump)] [Fact (M .mem)]
    [Fact (M .scb)] [Fact (M .eng)] [Fact (M .cells)] {s0 : State} {engine : ℕ} {cmd : Sys2Proof.Desc}
    {s : Sys2Proof.Machine.State} (hK : Keeps M s0 s) :
    KeepsO M s0 (execEmbag engine cmd s) := by
  unfold execEmbag
  refine gatherStep_keeps ?_ ?_
  · intro x0
    intro x1
    refine Keeps.ite ?_ ?_
    · intro x2
      with_reducible assumption
    · intro x3
      split
      · rename_i hq4
        refine Keeps.viaPair (M := M) (s0 := s0) hq4 ?_ (fun hk5 => ?_)
        · refine readOffs_keeps ?_
          with_reducible assumption
        · refine Keeps.foldl ?_ ?_
          · with_reducible assumption
          · intro x6
            intro x7
            intro x8
            refine runBag_keeps ?_
            with_reducible assumption
  · with_reducible assumption

theorem execListCopy_keeps {M : Part → Prop} [Fact (M .free)] [Fact (M .regs)] [Fact (M .host)] [Fact (M .ump)]
    [Fact (M .mem)] [Fact (M .scb)] [Fact (M .eng)] [Fact (M .cells)] {s0 : State} {engine : ℕ} {cmd : Sys2Proof.Desc}
    {s : Sys2Proof.Machine.State} (hK : Keeps M s0 s) :
    KeepsO M s0 (execListCopy engine cmd s) := by
  unfold execListCopy
  refine gatherStep_keeps ?_ ?_
  · intro x0
    intro x1
    split
    · rename_i hq2
      refine Keeps.viaPair (M := M) (s0 := s0) hq2 ?_ (fun hk3 => ?_)
      · refine State.gRead_keeps ?_
        with_reducible assumption
      · refine Keeps.foldl ?_ ?_
        · with_reducible assumption
        · intro x4
          intro x5
          intro x6
          refine copyRun_keeps ?_
          with_reducible assumption
  · with_reducible assumption

theorem execCopy_keeps {M : Part → Prop} [Fact (M .free)] [Fact (M .regs)] [Fact (M .host)] [Fact (M .ump)] [Fact (M .mem)]
    [Fact (M .scb)] [Fact (M .eng)] [Fact (M .cells)] {s0 : State} {engine : ℕ} {cmd : Sys2Proof.Desc}
    {s : Sys2Proof.Machine.State} (hK : Keeps M s0 s) :
    KeepsO M s0 (execCopy engine cmd s) := by
  unfold execCopy
  refine gatherStep_keeps ?_ ?_
  · intro x0
    intro x1
    refine copyRun_keeps ?_
    with_reducible assumption
  · with_reducible assumption

theorem execVecEnd_keeps {M : Part → Prop} [Fact (M .eng)] {s0 : State} {engine : ℕ} {cmd : Sys2Proof.Desc}
    {s : Sys2Proof.Machine.State} (hK : Keeps M s0 s) :
    KeepsO M s0 (execVecEnd engine cmd s) := by
  unfold execVecEnd
  refine KeepsO.next ?_
  refine State.endCommand_keeps ?_
  with_reducible assumption

theorem execVecSignal_keeps {M : Part → Prop} [Fact (M .ump)] [Fact (M .eng)] {s0 : State} {engine : ℕ} {cmd : Sys2Proof.Desc}
    {s : Sys2Proof.Machine.State} (hK : Keeps M s0 s) :
    KeepsO M s0 (execVecSignal engine cmd s) := by
  unfold execVecSignal
  refine KeepsO.next ?_
  refine State.signalCommand_keeps ?_
  with_reducible assumption

theorem execVecWait_keeps {M : Part → Prop} [Fact (M .eng)] {s0 : State} {engine : ℕ} {cmd : Sys2Proof.Desc}
    {s : Sys2Proof.Machine.State} (hK : Keeps M s0 s) :
    KeepsO M s0 (execVecWait engine cmd s) := by
  unfold execVecWait
  refine KeepsO.next ?_
  refine State.waitCommand_keeps ?_
  with_reducible assumption

theorem execNormBwd_keeps {M : Part → Prop} [Fact (M .free)] [Fact (M .regs)] [Fact (M .host)] [Fact (M .ump)] [Fact (M .mem)]
    [Fact (M .scb)] [Fact (M .eng)] [Fact (M .cells)] {s0 : State} {engine : ℕ} {cmd : Sys2Proof.Desc}
    {s : Sys2Proof.Machine.State} (hK : Keeps M s0 s) :
    KeepsO M s0 (execNormBwd engine cmd s) := by
  unfold execNormBwd
  refine vecStep_keeps ?_
  with_reducible assumption

theorem execSoftmaxBwd_keeps {M : Part → Prop} [Fact (M .free)] [Fact (M .regs)] [Fact (M .host)] [Fact (M .ump)]
    [Fact (M .mem)] [Fact (M .scb)] [Fact (M .eng)] [Fact (M .cells)] {s0 : State} {engine : ℕ} {cmd : Sys2Proof.Desc}
    {s : Sys2Proof.Machine.State} (hK : Keeps M s0 s) :
    KeepsO M s0 (execSoftmaxBwd engine cmd s) := by
  unfold execSoftmaxBwd
  refine vecStep_keeps ?_
  with_reducible assumption

theorem execScan_keeps {M : Part → Prop} [Fact (M .free)] [Fact (M .regs)] [Fact (M .host)] [Fact (M .ump)] [Fact (M .mem)]
    [Fact (M .scb)] [Fact (M .eng)] [Fact (M .cells)] {s0 : State} {engine : ℕ} {cmd : Sys2Proof.Desc}
    {s : Sys2Proof.Machine.State} (hK : Keeps M s0 s) :
    KeepsO M s0 (execScan engine cmd s) := by
  unfold execScan
  split
  · refine KeepsO.next ?_
    with_reducible assumption
  · extract_lets v0
    refine KeepsO.ite ?_ ?_
    · intro x1
      refine KeepsO.next ?_
      with_reducible assumption
    · intro x2
      refine guarded_keeps ?_
      refine runVec_keeps ?_
      with_reducible assumption

theorem execOpt_keeps {M : Part → Prop} [Fact (M .free)] [Fact (M .regs)] [Fact (M .host)] [Fact (M .ump)] [Fact (M .mem)]
    [Fact (M .scb)] [Fact (M .eng)] [Fact (M .cells)] {s0 : State} {engine : ℕ} {cmd : Sys2Proof.Desc}
    {s : Sys2Proof.Machine.State} (hK : Keeps M s0 s) :
    KeepsO M s0 (execOpt engine cmd s) := by
  unfold execOpt
  split
  · refine KeepsO.next ?_
    with_reducible assumption
  · extract_lets v0 v1 v2 v3
    have h4 : Keeps M s0 v2 := by
      unfold v2
      refine runVec_keeps ?_
      with_reducible assumption
    clear_value v2
    have h5 : Keeps M s0 v3 := by
      unfold v3
      refine Keeps.ite ?_ ?_
      · intro x6
        with_reducible assumption
      · intro x7
        refine State.modWork_keeps ?_
        refine State.bump_keeps ?_
        with_reducible assumption
    clear_value v3
    refine KeepsO.ite ?_ ?_
    · intro x8
      refine KeepsO.next ?_
      with_reducible assumption
    · intro x9
      refine guarded_keeps ?_
      with_reducible assumption

theorem execLoss_keeps {M : Part → Prop} [Fact (M .free)] [Fact (M .regs)] [Fact (M .host)] [Fact (M .ump)] [Fact (M .mem)]
    [Fact (M .scb)] [Fact (M .eng)] [Fact (M .cells)] {s0 : State} {engine : ℕ} {cmd : Sys2Proof.Desc}
    {s : Sys2Proof.Machine.State} (hK : Keeps M s0 s) :
    KeepsO M s0 (execLoss engine cmd s) := by
  unfold execLoss
  refine vecStep_keeps ?_
  with_reducible assumption

theorem execRoute_keeps {M : Part → Prop} [Fact (M .free)] [Fact (M .regs)] [Fact (M .host)] [Fact (M .ump)] [Fact (M .mem)]
    [Fact (M .scb)] [Fact (M .eng)] [Fact (M .cells)] {s0 : State} {engine : ℕ} {cmd : Sys2Proof.Desc}
    {s : Sys2Proof.Machine.State} (hK : Keeps M s0 s) :
    KeepsO M s0 (execRoute engine cmd s) := by
  unfold execRoute
  refine vecStep_keeps ?_
  with_reducible assumption

theorem execRmsnorm_keeps {M : Part → Prop} [Fact (M .free)] [Fact (M .regs)] [Fact (M .host)] [Fact (M .ump)] [Fact (M .mem)]
    [Fact (M .scb)] [Fact (M .eng)] [Fact (M .cells)] {s0 : State} {engine : ℕ} {cmd : Sys2Proof.Desc}
    {s : Sys2Proof.Machine.State} (hK : Keeps M s0 s) :
    KeepsO M s0 (execRmsnorm engine cmd s) := by
  unfold execRmsnorm
  refine vecStep_keeps ?_
  with_reducible assumption

theorem execLnorm_keeps {M : Part → Prop} [Fact (M .free)] [Fact (M .regs)] [Fact (M .host)] [Fact (M .ump)] [Fact (M .mem)]
    [Fact (M .scb)] [Fact (M .eng)] [Fact (M .cells)] {s0 : State} {engine : ℕ} {cmd : Sys2Proof.Desc}
    {s : Sys2Proof.Machine.State} (hK : Keeps M s0 s) :
    KeepsO M s0 (execLnorm engine cmd s) := by
  unfold execLnorm
  refine vecStep_keeps ?_
  with_reducible assumption

theorem execSoftmax_keeps {M : Part → Prop} [Fact (M .free)] [Fact (M .regs)] [Fact (M .host)] [Fact (M .ump)] [Fact (M .mem)]
    [Fact (M .scb)] [Fact (M .eng)] [Fact (M .cells)] {s0 : State} {engine : ℕ} {cmd : Sys2Proof.Desc}
    {s : Sys2Proof.Machine.State} (hK : Keeps M s0 s) :
    KeepsO M s0 (execSoftmax engine cmd s) := by
  unfold execSoftmax
  refine vecStep_keeps ?_
  with_reducible assumption

theorem execRed_keeps {M : Part → Prop} [Fact (M .free)] [Fact (M .regs)] [Fact (M .host)] [Fact (M .ump)] [Fact (M .mem)]
    [Fact (M .scb)] [Fact (M .eng)] [Fact (M .cells)] {s0 : State} {engine : ℕ} {cmd : Sys2Proof.Desc}
    {s : Sys2Proof.Machine.State} (hK : Keeps M s0 s) :
    KeepsO M s0 (execRed engine cmd s) := by
  unfold execRed
  refine vecStep_keeps ?_
  with_reducible assumption

theorem execTileEnd_keeps {M : Part → Prop} [Fact (M .eng)] {s0 : State} {court : ℕ} {cmd : Sys2Proof.Desc}
    {s : Sys2Proof.Machine.State} (hK : Keeps M s0 s) :
    KeepsO M s0 (execTileEnd court cmd s) := by
  unfold execTileEnd
  refine KeepsO.next ?_
  refine State.endCommand_keeps ?_
  with_reducible assumption

theorem execTileWait_keeps {M : Part → Prop} [Fact (M .eng)] {s0 : State} {court : ℕ} {cmd : Sys2Proof.Desc}
    {s : Sys2Proof.Machine.State} (hK : Keeps M s0 s) :
    KeepsO M s0 (execTileWait court cmd s) := by
  unfold execTileWait
  refine KeepsO.next ?_
  refine State.waitCommand_keeps ?_
  with_reducible assumption

theorem execTileDrain_keeps {M : Part → Prop} [Fact (M .free)] [Fact (M .regs)] [Fact (M .ump)] [Fact (M .mem)]
    [Fact (M .scb)] [Fact (M .eng)] [Fact (M .cells)] {s0 : State} {court : ℕ} {cube : ℕ} {s : Sys2Proof.Machine.State}
    (hK : Keeps M s0 s) :
    KeepsO M s0 (execTileDrain court cube s) := by
  unfold execTileDrain
  split
  · extract_lets v0 v1
    have h2 : Keeps M s0 v0 := by
      unfold v0
      refine State.remark_keeps ?_
      refine State.markDrained_keeps ?_
      refine drainOne_keeps ?_
      refine State.setTiles_keeps ?_
      with_reducible assumption
    clear_value v0
    refine KeepsO.next ?_
    refine Keeps.foldl ?_ ?_
    · with_reducible assumption
    · intro x3
      intro x4
      intro x5
      refine startTiles_keeps ?_
      with_reducible assumption
  · refine KeepsO.next ?_
    with_reducible assumption

theorem execMmaPair_keeps {M : Part → Prop} [Fact (M .eng)] {s0 : State} {court : ℕ} {cmd : Sys2Proof.Desc}
    {s : Sys2Proof.Machine.State} (hK : Keeps M s0 s) :
    KeepsO M s0 (execMmaPair court cmd s) := by
  unfold execMmaPair
  split
  · refine KeepsO.next ?_
    with_reducible assumption
  · refine KeepsO.ite ?_ ?_
    · intro x0
      refine KeepsO.next ?_
      with_reducible assumption
    · intro x1
      extract_lets v2 v3
      have h4 : Keeps M s0 v2 := by
        unfold v2
        refine State.advance_keeps ?_
        with_reducible assumption
      clear_value v2
      refine KeepsO.next ?_
      refine Keeps.mk' ?_ le_rfl rfl (fun x => x) (fun x => x) le_rfl
      with_reducible assumption

theorem execMma_keeps {M : Part → Prop} [Fact (M .free)] [Fact (M .regs)] [Fact (M .ump)] [Fact (M .scb)] [Fact (M .eng)]
    {s0 : State} {court : ℕ} {cmd : Sys2Proof.Desc} {s : Sys2Proof.Machine.State} (hK : Keeps M s0 s) :
    KeepsO M s0 (execMma court cmd s) := by
  unfold execMma
  split
  · refine KeepsO.next ?_
    with_reducible assumption
  · refine KeepsO.ite ?_ ?_
    · intro x0
      refine KeepsO.next ?_
      with_reducible assumption
    · intro x1
      split
      · refine guarded_keeps ?_
        refine runTiles_keeps ?_
        refine State.countInexact_keeps ?_
        with_reducible assumption
      · extract_lets v2 v3 v4
        have h5 : Keeps M s0 v2 := by
          unfold v2
          refine State.countInexact_keeps ?_
          refine State.countInexact_keeps ?_
          with_reducible assumption
        clear_value v2
        have h6 : Keeps M s0 v4 := by
          unfold v4
          refine Keeps.mk' ?_ le_rfl rfl (fun x => x) (fun x => x) le_rfl
          with_reducible assumption
        clear_value v4
        refine guarded_keeps ?_
        refine runTiles_keeps ?_
        with_reducible assumption

theorem execKvWriteback_keeps {M : Part → Prop} [Fact (M .free)] [Fact (M .regs)] [Fact (M .host)] [Fact (M .ump)]
    [Fact (M .mem)] [Fact (M .scb)] [Fact (M .cells)] {s0 : State} {die : ℕ} {layer : ℕ} {s : Sys2Proof.Machine.State}
    (hK : Keeps M s0 s) :
    KeepsO M s0 (execKvWriteback die layer s) := by
  unfold execKvWriteback
  split
  · refine KeepsO.next ?_
    with_reducible assumption
  · split
    · refine KeepsO.ite ?_ ?_
      · intro x0
        refine KeepsO.next ?_
        with_reducible assumption
      · intro x1
        extract_lets v2
        have h3 : Keeps M s0 v2 := by
          unfold v2
          refine Keeps.ite ?_ ?_
          · intro x4
            with_reducible assumption
          · intro x5
            refine Keeps.foldl ?_ ?_
            · with_reducible assumption
            · intro x6
              intro x7
              intro x8
              refine writeSlot_keeps ?_
              with_reducible assumption
        clear_value v2
        refine KeepsO.next ?_
        refine State.modWork_keeps ?_
        with_reducible assumption
    · refine KeepsO.next ?_
      with_reducible assumption

theorem execPrefixGatherComplete_keeps {M : Part → Prop} [Fact (M .free)] [Fact (M .regs)] [Fact (M .ump)] [Fact (M .lkr)]
    [Fact (M .mem)] [Fact (M .scb)] [Fact (M .cells)] {s0 : State} {die : ℕ} {s : Sys2Proof.Machine.State} (hK : Keeps M s0 s)
    :
    KeepsO M s0 (execPrefixGatherComplete die s) := by
  unfold execPrefixGatherComplete
  split
  · split
    · refine KeepsO.next ?_
      with_reducible assumption
    · extract_lets v0 v1 v2 v3 v4 v5 v6 v7 v8 v9 v10
      have h11 : Keeps M s0 v8 := by
        unfold v8
        refine Keeps.foldl ?_ ?_
        · with_reducible assumption
        · intro x12
          intro x13
          intro x14
          unfold v7
          extract_lets v15 v16
          have h17 : Keeps M s0 v16 := by
            unfold v16
            refine State.pageTraffic_keeps ?_
            with_reducible assumption
          clear_value v16
          refine State.count_keeps ?_
          with_reducible assumption
      clear_value v8
      have h18 : Keeps M s0 v9 := by
        unfold v9
        refine State.traffic_keeps ?_
        refine State.chipWrite_keeps ?_
        with_reducible assumption
      clear_value v9
      have h19 : Keeps M s0 v10 := by
        unfold v10
        refine State.setGather_keeps ?_
        with_reducible assumption
      clear_value v10
      refine KeepsO.ite ?_ ?_
      · intro x20
        refine KeepsO.next ?_
        with_reducible assumption
      · intro x21
        refine KeepsO.next ?_
        refine State.trace_keeps ?_
        with_reducible assumption
  · refine KeepsO.next ?_
    with_reducible assumption

theorem execLayerComputeStart_keeps {M : Part → Prop} [Fact (M .regs)] [Fact (M .host)] [Fact (M .wst)] {s0 : State}
    {s : Sys2Proof.Machine.State} (hK : Keeps M s0 s) :
    KeepsO M s0 (execLayerComputeStart s) := by
  unfold execLayerComputeStart
  split
  · extract_lets v0 v1
    have h2 : Keeps M s0 v1 := by
      unfold v1
      refine State.setStream_keeps ?_
      with_reducible assumption
    clear_value v1
    refine KeepsO.ite ?_ ?_
    · intro x3
      refine KeepsO.next ?_
      with_reducible assumption
    · intro x4
      split
      · refine KeepsO.next ?_
        refine prefixLate_keeps ?_
        with_reducible assumption
      · refine KeepsO.next ?_
        refine State.setStream_keeps ?_
        with_reducible assumption
  · refine KeepsO.next ?_
    with_reducible assumption

theorem execStreamEntryComplete_keeps {M : Part → Prop} [Fact (M .free)] [Fact (M .regs)] [Fact (M .host)] [Fact (M .ump)]
    [Fact (M .mem)] [Fact (M .scb)] [Fact (M .wst)] [Fact (M .cells)] {s0 : State} {s : Sys2Proof.Machine.State}
    (hK : Keeps M s0 s) :
    KeepsO M s0 (execStreamEntryComplete s) := by
  unfold execStreamEntryComplete
  split
  · split
    · refine KeepsO.next ?_
      with_reducible assumption
    · extract_lets v0 v1 v2 v3 v4 v5
      have h6 : Keeps M s0 v1 := by
        unfold v1
        refine Keeps.foldl ?_ ?_
        · with_reducible assumption
        · intro x7
          intro x8
          intro x9
          refine Keeps.foldl ?_ ?_
          · with_reducible assumption
          · intro x10
            intro x11
            intro x12
            refine copyPart_keeps ?_
            with_reducible assumption
      clear_value v1
      have h13 : Keeps M s0 v2 := by
        unfold v2
        refine State.setStream_keeps ?_
        with_reducible assumption
      clear_value v2
      have h14 : Keeps M s0 v4 := by
        unfold v4
        refine Keeps.ite ?_ ?_
        · intro x15
          refine lateEntry_keeps ?_
          with_reducible assumption
        · intro x16
          with_reducible assumption
      clear_value v4
      refine KeepsO.ite ?_ ?_
      · intro x17
        refine KeepsO.next ?_
        with_reducible assumption
      · intro x18
        refine KeepsO.next ?_
        refine Keeps.foldl ?_ ?_
        · with_reducible assumption
        · intro x19
          intro x20
          intro x21
          refine State.trace_keeps ?_
          with_reducible assumption
  · refine KeepsO.next ?_
    with_reducible assumption

theorem execLayerStreamStart_keeps {M : Part → Prop} [Fact (M .free)] [Fact (M .regs)] [Fact (M .host)] [Fact (M .ump)]
    [Fact (M .lkr)] [Fact (M .mem)] [Fact (M .scb)] [Fact (M .mgl)] [Fact (M .rdc)] [Fact (M .wst)] [Fact (M .eng)]
    [Fact (M .cells)] {s0 : State} {s : Sys2Proof.Machine.State} (hK : Keeps M s0 s) :
    KeepsO M s0 (execLayerStreamStart s) := by
  unfold execLayerStreamStart
  split
  · refine KeepsO.next ?_
    with_reducible assumption
  · split
    · refine KeepsO.next ?_
      with_reducible assumption
    · refine KeepsO.ite ?_ ?_
      · intro x0
        refine KeepsO.next ?_
        with_reducible assumption
      · intro x1
        extract_lets v2 v3
        have h4 : Keeps M s0 v3 := by
          unfold v3
          refine State.setStream_keeps ?_
          with_reducible assumption
        clear_value v3
        refine KeepsO.next ?_
        refine Keeps.foldl ?_ ?_
        · with_reducible assumption
        · intro x5
          intro x6
          intro x7
          refine State.missShard_keeps ?_
          with_reducible assumption

theorem execServeEnd_keeps {M : Part → Prop} [Fact (M .free)] [Fact (M .ump)] [Fact (M .lkr)] [Fact (M .scb)] [Fact (M .mgl)]
    [Fact (M .rdc)] [Fact (M .wst)] [Fact (M .eng)] {s0 : State} {s : Sys2Proof.Machine.State} (hK : Keeps M s0 s) :
    KeepsO M s0 (execServeEnd s) := by
  unfold execServeEnd
  split
  · refine KeepsO.next ?_
    with_reducible assumption
  · refine KeepsO.ite ?_ ?_
    · intro x0
      refine KeepsO.next ?_
      with_reducible assumption
    · intro x1
      refine KeepsO.next ?_
      refine State.trace_keeps ?_
      refine State.workEnded_keeps ?_
      with_reducible assumption

theorem execSegmentEnd_keeps {M : Part → Prop} [Fact (M .free)] [Fact (M .host)] [Fact (M .ump)] [Fact (M .lkr)]
    [Fact (M .scb)] [Fact (M .mgl)] [Fact (M .rdc)] [Fact (M .wst)] [Fact (M .eng)] {s0 : State} {s : Sys2Proof.Machine.State}
    (hK : Keeps M s0 s) :
    KeepsO M s0 (execSegmentEnd s) := by
  unfold execSegmentEnd
  split
  · refine KeepsO.next ?_
    with_reducible assumption
  · refine KeepsO.ite ?_ ?_
    · intro x0
      refine KeepsO.next ?_
      with_reducible assumption
    · intro x1
      extract_lets v2
      have h3 : Keeps M s0 v2 := by
        unfold v2
        refine State.trace_keeps ?_
        refine State.workEnded_keeps ?_
        with_reducible assumption
      clear_value v2
      refine KeepsO.ite ?_ ?_
      · intro x4
        refine KeepsO.next ?_
        with_reducible assumption
      · intro x5
        refine KeepsO.next ?_
        refine Keeps.ite ?_ ?_
        · intro x6
          refine advanceStep_keeps ?_
          with_reducible assumption
        · intro x7
          refine segmentProbed_keeps ?_
          with_reducible assumption

theorem execSegmentStart_keeps {M : Part → Prop} [Fact (M .free)] [Fact (M .regs)] [Fact (M .host)] [Fact (M .ump)]
    [Fact (M .lkr)] [Fact (M .scb)] [Fact (M .mgl)] [Fact (M .rdc)] [Fact (M .wst)] [Fact (M .eng)] {s0 : State}
    {s : Sys2Proof.Machine.State} (hK : Keeps M s0 s) :
    KeepsO M s0 (execSegmentStart s) := by
  unfold execSegmentStart
  split
  · refine KeepsO.next ?_
    with_reducible assumption
  · refine KeepsO.ite ?_ ?_
    · intro x0
      refine KeepsO.next ?_
      with_reducible assumption
    · intro x1
      split
      · refine KeepsO.next ?_
        refine startSegment_keeps ?_
        with_reducible assumption
      · split
        · extract_lets v2 v3
          have h4 : Keeps M s0 v3 := by
            unfold v3
            refine Keeps.mk' ?_ le_rfl rfl (fun x => x) (fun x => x) le_rfl
            with_reducible assumption
          clear_value v3
          split
          · refine KeepsO.next ?_
            refine startSegment_keeps ?_
            with_reducible assumption
          · refine KeepsO.next ?_
            with_reducible assumption

theorem execUrgentSubstitution_keeps {M : Part → Prop} [Fact (M .free)] [Fact (M .regs)] [Fact (M .host)] [Fact (M .ump)]
    [Fact (M .lkr)] [Fact (M .mem)] [Fact (M .scb)] [Fact (M .mgl)] [Fact (M .rdc)] [Fact (M .wst)] [Fact (M .eng)]
    [Fact (M .cells)] {s0 : State} {port : Sys2Proof.Machine.Port} {value : Sys2Proof.Word} {s : Sys2Proof.Machine.State}
    (hK : Keeps M s0 s) :
    KeepsO M s0 (execUrgentSubstitution port value s) := by
  unfold execUrgentSubstitution
  extract_lets v0 v1 v2
  have h3 : Keeps M s0 v2 := by
    unfold v2
    refine State.setFld_keeps ?_
    with_reducible assumption
  clear_value v2
  refine KeepsO.ite ?_ ?_
  · intro x4
    refine KeepsO.next ?_
    with_reducible assumption
  · intro x5
    refine KeepsO.ite ?_ ?_
    · intro x6
      refine KeepsO.next ?_
      refine State.urgent_keeps ?_
      with_reducible assumption
    · intro x7
      refine KeepsO.next ?_
      with_reducible assumption

theorem execOverrunLimit_keeps {M : Part → Prop} [Fact (M .ts)] [Fact (M .free)] [Fact (M .regs)] [Fact (M .host)]
    [Fact (M .ump)] [Fact (M .lkr)] [Fact (M .mem)] [Fact (M .scb)] [Fact (M .mgl)] [Fact (M .rdc)] [Fact (M .wst)]
    [Fact (M .eng)] [Fact (M .cells)] {s0 : State} {s : Sys2Proof.Machine.State} (hK : Keeps M s0 s) :
    KeepsO M s0 (execOverrunLimit s) := by
  unfold execOverrunLimit
  split
  · refine KeepsO.next ?_
    with_reducible assumption
  · refine KeepsO.ite ?_ ?_
    · intro x0
      refine KeepsO.next ?_
      with_reducible assumption
    · intro x1
      refine KeepsO.next ?_
      refine State.urgent_keeps ?_
      refine Keeps.mk' ?_ le_rfl rfl (fun x => x) (fun x => x) le_rfl
      with_reducible assumption

theorem execRsvWindowEnd_keeps {M : Part → Prop} [Fact (M .ts)] [Fact (M .regs)] [Fact (M .host)] [Fact (M .ump)] {s0 : State}
    {index : ℕ} {s : Sys2Proof.Machine.State} (hK : Keeps M s0 s) :
    KeepsO M s0 (execRsvWindowEnd index s) := by
  unfold execRsvWindowEnd
  extract_lets v0 v1
  have h2 : Keeps M s0 v0 := by
    unfold v0
    refine Keeps.ite ?_ ?_
    · intro x3
      refine State.noteJobs_keeps ?_
      with_reducible assumption
    · intro x4
      with_reducible assumption
  clear_value v0
  split
  · extract_lets v5 v6
    have h7 : Keeps M s0 v5 := by
      unfold v5
      refine State.setRsvRun_keeps ?_
      refine Keeps.mk' ?_ le_rfl rfl (fun x => x) (fun x => x) le_rfl
      with_reducible assumption
    clear_value v5
    have h8 : Keeps M s0 v6 := by
      unfold v6
      refine State.bump_keeps ?_
      with_reducible assumption
    clear_value v6
    refine KeepsO.next ?_
    refine State.later_keeps ?_
    with_reducible assumption
  · refine KeepsO.next ?_
    with_reducible assumption

theorem execGroupSlotStart_keeps {M : Part → Prop} [Fact (M .ts)] [Fact (M .ump)] [Fact (M .rdc)] {s0 : State} {index : ℕ}
    {s : Sys2Proof.Machine.State} (hK : Keeps M s0 s) :
    KeepsO M s0 (execGroupSlotStart index s) := by
  unfold execGroupSlotStart
  split
  · refine KeepsO.next ?_
    with_reducible assumption
  · refine KeepsO.ite ?_ ?_
    · intro x0
      refine KeepsO.next ?_
      with_reducible assumption
    · intro x1
      extract_lets v2 v3 v4
      have h5 : Keeps M s0 v4 := by
        unfold v4
        refine State.setRsvRun_keeps ?_
        refine Keeps.mk' ?_ le_rfl rfl (fun x => x) (fun x => x) le_rfl
        with_reducible assumption
      clear_value v4
      refine KeepsO.next ?_
      refine State.startStep_keeps ?_
      with_reducible assumption

theorem execServeBoundary_keeps {M : Part → Prop} [Fact (M .ts)] [Fact (M .free)] [Fact (M .regs)] [Fact (M .host)]
    [Fact (M .ump)] [Fact (M .lkr)] [Fact (M .mem)] [Fact (M .ref)] [Fact (M .scb)] [Fact (M .mgl)] [Fact (M .rdc)]
    [Fact (M .wst)] [Fact (M .eng)] [Fact (M .cells)] {s0 : State} {s : Sys2Proof.Machine.State} (hK : Keeps M s0 s) :
    KeepsO M s0 (execServeBoundary s) := by
  unfold execServeBoundary
  split
  · refine KeepsO.next ?_
    with_reducible assumption
  · refine KeepsO.ite ?_ ?_
    · intro x0
      refine KeepsO.next ?_
      with_reducible assumption
    · intro x1
      refine KeepsO.next ?_
      refine State.boundary_keeps ?_
      refine Keeps.mk' ?_ le_rfl rfl (fun x => x) (fun x => x) le_rfl
      with_reducible assumption

theorem execSlotEnd_keeps {M : Part → Prop} [Fact (M .ts)] [Fact (M .free)] [Fact (M .regs)] [Fact (M .host)] [Fact (M .ump)]
    [Fact (M .lkr)] [Fact (M .mem)] [Fact (M .pwr)] [Fact (M .scb)] [Fact (M .mgl)] [Fact (M .rdc)] [Fact (M .wst)]
    [Fact (M .eng)] [Fact (M .cells)] {s0 : State} {s : Sys2Proof.Machine.State} (hK : Keeps M s0 s) :
    KeepsO M s0 (execSlotEnd s) := by
  unfold execSlotEnd
  split
  · refine KeepsO.next ?_
    with_reducible assumption
  · refine KeepsO.ite ?_ ?_
    · intro x0
      refine KeepsO.next ?_
      with_reducible assumption
    · intro x1
      split
      · refine KeepsO.ite ?_ ?_
        · intro x2
          refine KeepsO.next ?_
          with_reducible assumption
        · intro x3
          refine KeepsO.next ?_
          refine beginOverrun_keeps ?_
          with_reducible assumption
      · extract_lets v4 v5
        have h6 : Keeps M s0 v5 := by
          unfold v5
          refine nextSlot_keeps ?_
          refine slotEffects_keeps ?_
          refine Keeps.mk' ?_ le_rfl rfl (fun x => x) (fun x => x) le_rfl
          with_reducible assumption
        clear_value v5
        refine KeepsO.next ?_
        refine Keeps.mk' ?_ le_rfl rfl (fun x => x) (fun x => x) le_rfl
        with_reducible assumption

theorem execHdlAppliedTsLoRead_keeps {M : Part → Prop} [Fact (M .host)] {s0 : State} {port : Sys2Proof.Machine.Port}
    {s : Sys2Proof.Machine.State} (hK : Keeps M s0 s) :
    KeepsO M s0 (execHdlAppliedTsLoRead port s) := by
  unfold execHdlAppliedTsLoRead
  refine KeepsO.ite ?_ ?_
  · intro x0
    refine KeepsO.next ?_
    refine State.readLo_keeps ?_
    with_reducible assumption
  · intro x1
    refine KeepsO.next ?_
    refine State.emit_keeps ?_
    with_reducible assumption

theorem execRstMgmtSeqLoRead_keeps {M : Part → Prop} [Fact (M .host)] {s0 : State} {port : Sys2Proof.Machine.Port}
    {s : Sys2Proof.Machine.State} (hK : Keeps M s0 s) :
    KeepsO M s0 (execRstMgmtSeqLoRead port s) := by
  unfold execRstMgmtSeqLoRead
  refine KeepsO.ite ?_ ?_
  · intro x0
    refine KeepsO.next ?_
    refine State.readLo_keeps ?_
    with_reducible assumption
  · intro x1
    refine KeepsO.next ?_
    refine State.emit_keeps ?_
    with_reducible assumption

theorem execClkThrNsLoRead_keeps {M : Part → Prop} [Fact (M .host)] {s0 : State} {port : Sys2Proof.Machine.Port}
    {s : Sys2Proof.Machine.State} (hK : Keeps M s0 s) :
    KeepsO M s0 (execClkThrNsLoRead port s) := by
  unfold execClkThrNsLoRead
  refine KeepsO.ite ?_ ?_
  · intro x0
    refine KeepsO.next ?_
    refine State.readLo_keeps ?_
    with_reducible assumption
  · intro x1
    refine KeepsO.next ?_
    refine State.emit_keeps ?_
    with_reducible assumption

theorem execRdcGstepLoRead_keeps {M : Part → Prop} [Fact (M .host)] {s0 : State} {port : Sys2Proof.Machine.Port}
    {s : Sys2Proof.Machine.State} (hK : Keeps M s0 s) :
    KeepsO M s0 (execRdcGstepLoRead port s) := by
  unfold execRdcGstepLoRead
  refine KeepsO.ite ?_ ?_
  · intro x0
    refine KeepsO.next ?_
    refine State.readLo_keeps ?_
    with_reducible assumption
  · intro x1
    refine KeepsO.next ?_
    refine State.emit_keeps ?_
    with_reducible assumption

theorem execUmpServeNoLoRead_keeps {M : Part → Prop} [Fact (M .host)] {s0 : State} {port : Sys2Proof.Machine.Port}
    {s : Sys2Proof.Machine.State} (hK : Keeps M s0 s) :
    KeepsO M s0 (execUmpServeNoLoRead port s) := by
  unfold execUmpServeNoLoRead
  refine KeepsO.ite ?_ ?_
  · intro x0
    refine KeepsO.next ?_
    refine State.readLo_keeps ?_
    with_reducible assumption
  · intro x1
    refine KeepsO.next ?_
    refine State.emit_keeps ?_
    with_reducible assumption

theorem execCrtSatTotalLoRead_keeps {M : Part → Prop} [Fact (M .host)] {s0 : State} {port : Sys2Proof.Machine.Port}
    {s : Sys2Proof.Machine.State} (hK : Keeps M s0 s) :
    KeepsO M s0 (execCrtSatTotalLoRead port s) := by
  unfold execCrtSatTotalLoRead
  refine KeepsO.ite ?_ ?_
  · intro x0
    refine KeepsO.next ?_
    refine State.readLo_keeps ?_
    with_reducible assumption
  · intro x1
    refine KeepsO.next ?_
    refine State.emit_keeps ?_
    with_reducible assumption

theorem execScbTsLoRead_keeps {M : Part → Prop} [Fact (M .host)] {s0 : State} {port : Sys2Proof.Machine.Port}
    {s : Sys2Proof.Machine.State} (hK : Keeps M s0 s) :
    KeepsO M s0 (execScbTsLoRead port s) := by
  unfold execScbTsLoRead
  refine KeepsO.ite ?_ ?_
  · intro x0
    refine KeepsO.next ?_
    refine State.readLo_keeps ?_
    with_reducible assumption
  · intro x1
    refine KeepsO.next ?_
    refine State.emit_keeps ?_
    with_reducible assumption

theorem execRegisterWrite_keeps {M : Part → Prop} [Fact (M .regs)] [Fact (M .host)] {s0 : State}
    {port : Sys2Proof.Machine.Port} {func : ℕ} {offset : ℕ} {bytes : ℕ} {value : ℕ} {s : Sys2Proof.Machine.State}
    (hK : Keeps M s0 s) :
    KeepsO M s0 (execRegisterWrite port func offset bytes value s) := by
  unfold execRegisterWrite
  refine KeepsO.ite ?_ ?_
  · intro x0
    refine KeepsO.next ?_
    with_reducible assumption
  · intro x1
    refine KeepsO.ite ?_ ?_
    · intro x2
      refine KeepsO.ite ?_ ?_
      · intro x3
        refine KeepsO.next ?_
        with_reducible assumption
      · intro x4
        refine KeepsO.next ?_
        refine State.flagWrite_keeps ?_
        with_reducible assumption
    · intro x5
      refine KeepsO.ite ?_ ?_
      · intro x6
        refine KeepsO.next ?_
        refine State.write32_keeps ?_
        with_reducible assumption
      · intro x7
        refine KeepsO.ite ?_ ?_
        · intro x8
          refine KeepsO.next ?_
          refine State.write32_keeps ?_
          refine State.write32_keeps ?_
          with_reducible assumption
        · intro x9
          refine KeepsO.next ?_
          with_reducible assumption

theorem execHuddleCheckDone_keeps {M : Part → Prop} [Fact (M .free)] [Fact (M .regs)] [Fact (M .host)] [Fact (M .ump)]
    [Fact (M .lkr)] [Fact (M .mem)] [Fact (M .ref)] [Fact (M .scb)] [Fact (M .mgl)] [Fact (M .rdc)] [Fact (M .wst)]
    [Fact (M .eng)] [Fact (M .cells)] {s0 : State} {port : Sys2Proof.Machine.Port} {s : Sys2Proof.Machine.State}
    (hK : Keeps M s0 s) :
    KeepsO M s0 (execHuddleCheckDone port s) := by
  unfold execHuddleCheckDone
  extract_lets v0 v1 v2
  have h3 : Keeps M s0 v2 := by
    unfold v2
    refine State.setFld_keeps ?_
    with_reducible assumption
  clear_value v2
  split
  · refine KeepsO.next ?_
    with_reducible assumption
  · refine KeepsO.next ?_
    refine State.modBank_keeps ?_
    with_reducible assumption

theorem execHuddleDiscard_keeps {M : Part → Prop} [Fact (M .regs)] [Fact (M .host)] {s0 : State}
    {port : Sys2Proof.Machine.Port} {_check : Bool} {_apply : Bool} {atTs : Bool} {s : Sys2Proof.Machine.State}
    (hK : Keeps M s0 s) :
    KeepsO M s0 (execHuddleDiscard port _check _apply atTs s) := by
  unfold execHuddleDiscard
  refine KeepsO.ite ?_ ?_
  · intro x0
    refine KeepsO.next ?_
    with_reducible assumption
  · intro x1
    refine KeepsO.next ?_
    refine State.modBank_keeps ?_
    refine State.hdlCtl_keeps ?_
    with_reducible assumption

theorem execHuddleApplyRequest_keeps {M : Part → Prop} [Fact (M .regs)] [Fact (M .host)] {s0 : State}
    {port : Sys2Proof.Machine.Port} {_check : Bool} {atTs : Bool} {s : Sys2Proof.Machine.State} (hK : Keeps M s0 s) :
    KeepsO M s0 (execHuddleApplyRequest port _check atTs s) := by
  unfold execHuddleApplyRequest
  refine KeepsO.ite ?_ ?_
  · intro x0
    refine KeepsO.next ?_
    with_reducible assumption
  · intro x1
    extract_lets v2
    refine KeepsO.next ?_
    refine State.modBank_keeps ?_
    refine State.hdlCtl_keeps ?_
    with_reducible assumption

theorem execHuddleCheck_keeps {M : Part → Prop} [Fact (M .regs)] [Fact (M .host)] {s0 : State} {port : Sys2Proof.Machine.Port}
    {atTs : Bool} {s : Sys2Proof.Machine.State} (hK : Keeps M s0 s) :
    KeepsO M s0 (execHuddleCheck port atTs s) := by
  unfold execHuddleCheck
  refine KeepsO.ite ?_ ?_
  · intro x0
    refine KeepsO.next ?_
    with_reducible assumption
  · intro x1
    refine KeepsO.next ?_
    refine State.modBank_keeps ?_
    refine State.hdlCtl_keeps ?_
    with_reducible assumption

theorem execStagedWrite_keeps {M : Part → Prop} [Fact (M .regs)] [Fact (M .host)] {s0 : State} {port : Sys2Proof.Machine.Port}
    {offset : ℕ} {value : Sys2Proof.Word} {s : Sys2Proof.Machine.State} (hK : Keeps M s0 s) :
    KeepsO M s0 (execStagedWrite port offset value s) := by
  unfold execStagedWrite
  split
  · refine KeepsO.next ?_
    with_reducible assumption
  · refine KeepsO.ite ?_ ?_
    · intro x0
      refine KeepsO.next ?_
      with_reducible assumption
    · intro x1
      refine KeepsO.ite ?_ ?_
      · intro x2
        refine KeepsO.next ?_
        refine State.setFld_keeps ?_
        with_reducible assumption
      · intro x3
        refine KeepsO.next ?_
        refine State.modBank_keeps ?_
        with_reducible assumption

theorem execPeerLost_keeps {M : Part → Prop} [Fact (M .ts)] [Fact (M .host)] {s0 : State} {cause : Sys2Proof.PeerLoss}
    {s : Sys2Proof.Machine.State} (hK : Keeps M s0 s) :
    KeepsO M s0 (execPeerLost cause s) := by
  unfold execPeerLost
  split
  · refine KeepsO.next ?_
    refine State.modPort_keeps ?_
    with_reducible assumption
  · extract_lets v0 v1
    refine KeepsO.ite ?_ ?_
    · intro x2
      refine KeepsO.next ?_
      with_reducible assumption
    · intro x3
      refine KeepsO.next ?_
      refine Keeps.mk' ?_ le_rfl rfl (fun x => x) (fun x => x) le_rfl
      with_reducible assumption

theorem execHubHeartbeat_keeps {M : Part → Prop} [Fact (M .host)] {s0 : State} {port : Sys2Proof.Machine.Port}
    {_value : Sys2Proof.Word} {s : Sys2Proof.Machine.State} (hK : Keeps M s0 s) :
    KeepsO M s0 (execHubHeartbeat port _value s) := by
  unfold execHubHeartbeat
  refine KeepsO.ite ?_ ?_
  · intro x0
    refine KeepsO.next ?_
    with_reducible assumption
  · intro x1
    refine KeepsO.next ?_
    refine Keeps.mk' ?_ le_rfl rfl (fun x => x) (fun x => x) le_rfl
    with_reducible assumption

theorem execMailboxReplyCopy_keeps {M : Part → Prop} [Fact (M .regs)] [Fact (M .host)] {s0 : State}
    {port : Sys2Proof.Machine.Port} {message : Sys2Proof.Desc} {s : Sys2Proof.Machine.State} (hK : Keeps M s0 s) :
    KeepsO M s0 (execMailboxReplyCopy port message s) := by
  unfold execMailboxReplyCopy
  extract_lets v0 v1
  refine KeepsO.ite ?_ ?_
  · intro x2
    refine KeepsO.next ?_
    with_reducible assumption
  · intro x3
    refine KeepsO.ite ?_ ?_
    · intro x4
      refine KeepsO.next ?_
      refine State.bump_keeps ?_
      refine takeMessage_keeps ?_
      with_reducible assumption
    · intro x5
      refine KeepsO.ite ?_ ?_
      · intro x6
        refine KeepsO.next ?_
        with_reducible assumption
      · intro x7
        refine KeepsO.next ?_
        refine State.produce_keeps ?_
        refine takeMessage_keeps ?_
        with_reducible assumption

theorem execMailboxRequestCopy_keeps {M : Part → Prop} [Fact (M .host)] {s0 : State} {port : Sys2Proof.Machine.Port} {vf : ℕ}
    {message : Sys2Proof.Desc} {s : Sys2Proof.Machine.State} (hK : Keeps M s0 s) :
    KeepsO M s0 (execMailboxRequestCopy port vf message s) := by
  unfold execMailboxRequestCopy
  extract_lets v0 v1
  refine KeepsO.ite ?_ ?_
  · intro x2
    refine KeepsO.next ?_
    with_reducible assumption
  · intro x3
    refine KeepsO.next ?_
    refine State.produce_keeps ?_
    refine takeMessage_keeps ?_
    with_reducible assumption

theorem execSchedUnloadDone_keeps {M : Part → Prop} [Fact (M .free)] [Fact (M .regs)] [Fact (M .host)] [Fact (M .ump)]
    [Fact (M .ref)] [Fact (M .err)] [Fact (M .scb)] [Fact (M .wst)] {s0 : State} {slot : ℕ} {s : Sys2Proof.Machine.State}
    (hK : Keeps M s0 s) :
    KeepsO M s0 (execSchedUnloadDone slot s) := by
  unfold execSchedUnloadDone
  split
  · refine KeepsO.next ?_
    with_reducible assumption
  · refine KeepsO.ite ?_ ?_
    · intro x0
      refine KeepsO.next ?_
      with_reducible assumption
    · intro x1
      extract_lets v2 v3 v4 v5 v6
      have h7 : Keeps M s0 v5 := by
        unfold v5
        refine Keeps.mk' ?_ le_rfl rfl (fun x => x) (fun x => x) le_rfl
        with_reducible assumption
      clear_value v5
      have h8 : Keeps M s0 v6 := by
        unfold v6
        refine State.measureSchedule_keeps ?_
        with_reducible assumption
      clear_value v6
      refine KeepsO.next ?_
      refine Keeps.elim ?_ ?_
      · with_reducible assumption
      · intro x9
        refine State.finish_keeps ?_
        with_reducible assumption

theorem execSchedUnload_keeps {M : Part → Prop} [Fact (M .free)] [Fact (M .regs)] [Fact (M .host)] [Fact (M .ump)]
    [Fact (M .scb)] {s0 : State} {ctx : ℕ} {ring : ℕ} {s : Sys2Proof.Machine.State} (hK : Keeps M s0 s) :
    KeepsO M s0 (execSchedUnload ctx ring s) := by
  unfold execSchedUnload
  split
  · refine KeepsO.next ?_
    with_reducible assumption
  · extract_lets v0 v1 v2 v3
    have h4 : Keeps M s0 v2 := by
      unfold v2
      refine State.begin_keeps ?_
      with_reducible assumption
    clear_value v2
    refine KeepsO.ite ?_ ?_
    · intro x5
      refine KeepsO.next ?_
      refine State.finish_keeps ?_
      with_reducible assumption
    · intro x6
      split
      · refine KeepsO.next ?_
        refine State.finish_keeps ?_
        with_reducible assumption
      · refine KeepsO.ite ?_ ?_
        · intro x7
          refine KeepsO.next ?_
          refine State.finish_keeps ?_
          with_reducible assumption
        · intro x8
          extract_lets v9
          refine KeepsO.next ?_
          refine Keeps.mk' ?_ le_rfl rfl (fun x => x) (fun x => x) le_rfl
          with_reducible assumption

theorem execSchedLoad_keeps {M : Part → Prop} [Fact (M .free)] [Fact (M .regs)] [Fact (M .host)] [Fact (M .ump)]
    [Fact (M .ref)] [Fact (M .scb)] {s0 : State} {ctx : ℕ} {ring : ℕ} {image : Option Sys2Proof.ImageSrc}
    {s : Sys2Proof.Machine.State} (hK : Keeps M s0 s) :
    KeepsO M s0 (execSchedLoad ctx ring image s) := by
  unfold execSchedLoad
  split
  · refine KeepsO.next ?_
    with_reducible assumption
  · extract_lets v0 v1 v2 v3
    refine KeepsO.ite ?_ ?_
    · intro x4
      refine KeepsO.next ?_
      refine State.finish_keeps ?_
      with_reducible assumption
    · intro x5
      split
      · refine KeepsO.next ?_
        refine State.finish_keeps ?_
        with_reducible assumption
      · refine KeepsO.ite ?_ ?_
        · intro x6
          refine KeepsO.next ?_
          refine State.finish_keeps ?_
          with_reducible assumption
        · intro x7
          refine KeepsO.ite ?_ ?_
          · intro x8
            refine KeepsO.next ?_
            refine State.finish_keeps ?_
            refine State.freed_keeps ?_
            with_reducible assumption
          · intro x9
            extract_lets v10 v11
            have h12 : Keeps M s0 v11 := by
              unfold v11
              refine Keeps.mk' ?_ le_rfl rfl (fun x => x) (fun x => x) le_rfl
              with_reducible assumption
            clear_value v11
            refine KeepsO.next ?_
            refine State.finish_keeps ?_
            refine State.measureSchedule_keeps ?_
            with_reducible assumption

theorem execWsLoad_keeps {M : Part → Prop} [Fact (M .free)] [Fact (M .regs)] [Fact (M .host)] [Fact (M .ump)] [Fact (M .mem)]
    [Fact (M .scb)] [Fact (M .mgl)] [Fact (M .wst)] [Fact (M .cells)] {s0 : State} {ctx : ℕ} {ring : ℕ}
    {s : Sys2Proof.Machine.State} (hK : Keeps M s0 s) :
    KeepsO M s0 (execWsLoad ctx ring s) := by
  unfold execWsLoad
  split
  · refine KeepsO.next ?_
    with_reducible assumption
  · extract_lets v0 v1 v2 v3 v4 v5
    refine KeepsO.ite ?_ ?_
    · intro x6
      refine KeepsO.next ?_
      refine State.finish_keeps ?_
      with_reducible assumption
    · intro x7
      split
      · refine KeepsO.next ?_
        refine State.finish_keeps ?_
        with_reducible assumption
      · refine KeepsO.ite ?_ ?_
        · intro x8
          refine KeepsO.next ?_
          refine State.finish_keeps ?_
          with_reducible assumption
        · intro x9
          split
          · refine KeepsO.ite ?_ ?_
            · intro x10
              refine KeepsO.next ?_
              refine State.finish_keeps ?_
              refine State.shardArrives_keeps ?_
              with_reducible assumption
            · intro x11
              refine KeepsO.next ?_
              refine State.finish_keeps ?_
              with_reducible assumption
          · refine KeepsO.ite ?_ ?_
            · intro x12
              refine KeepsO.next ?_
              refine State.finish_keeps ?_
              with_reducible assumption
            · intro x13
              refine KeepsO.next ?_
              refine State.finish_keeps ?_
              refine takeHost_keeps ?_
              with_reducible assumption

theorem execPracticeCloseDone_keeps {M : Part → Prop} [Fact (M .free)] [Fact (M .regs)] [Fact (M .host)] [Fact (M .lkr)]
    [Fact (M .mem)] [Fact (M .scb)] [Fact (M .cells)] {s0 : State} {adapter : ℕ} {s : Sys2Proof.Machine.State}
    (hK : Keeps M s0 s) :
    KeepsO M s0 (execPracticeCloseDone adapter s) := by
  unfold execPracticeCloseDone
  split
  · refine KeepsO.next ?_
    with_reducible assumption
  · split
    · refine KeepsO.next ?_
      with_reducible assumption
    · refine KeepsO.ite ?_ ?_
      · intro x0
        refine KeepsO.next ?_
        with_reducible assumption
      · intro x1
        refine KeepsO.next ?_
        refine State.finish_keeps ?_
        refine State.closeRecord_keeps ?_
        with_reducible assumption

theorem execPracticeClose_keeps {M : Part → Prop} [Fact (M .free)] [Fact (M .regs)] [Fact (M .host)] [Fact (M .lkr)]
    [Fact (M .scb)] {s0 : State} {ctx : ℕ} {ring : ℕ} {s : Sys2Proof.Machine.State} (hK : Keeps M s0 s) :
    KeepsO M s0 (execPracticeClose ctx ring s) := by
  unfold execPracticeClose
  split
  · refine KeepsO.next ?_
    with_reducible assumption
  · extract_lets v0
    split
    · refine KeepsO.next ?_
      refine State.finish_keeps ?_
      with_reducible assumption
    · refine KeepsO.ite ?_ ?_
      · intro x1
        refine KeepsO.next ?_
        refine State.finish_keeps ?_
        with_reducible assumption
      · intro x2
        refine KeepsO.ite ?_ ?_
        · intro x3
          refine KeepsO.next ?_
          refine State.finish_keeps ?_
          with_reducible assumption
        · intro x4
          refine KeepsO.next ?_
          refine State.modRecord_keeps ?_
          refine State.begin_keeps ?_
          with_reducible assumption

theorem execPracticeStep_keeps {M : Part → Prop} [Fact (M .free)] [Fact (M .regs)] [Fact (M .host)] [Fact (M .ump)]
    [Fact (M .mem)] [Fact (M .scb)] [Fact (M .cells)] {s0 : State} {ctx : ℕ} {ring : ℕ} {s : Sys2Proof.Machine.State}
    (hK : Keeps M s0 s) :
    KeepsO M s0 (execPracticeStep ctx ring s) := by
  unfold execPracticeStep
  split
  · refine KeepsO.next ?_
    with_reducible assumption
  · extract_lets v0 v1 v2 v3 v4 v5
    have h6 : Keeps M s0 v4 := by
      unfold v4
      refine State.begin_keeps ?_
      with_reducible assumption
    clear_value v4
    split
    · refine KeepsO.next ?_
      refine State.finish_keeps ?_
      with_reducible assumption
    · split
      · refine KeepsO.next ?_
        refine State.finish_keeps ?_
        with_reducible assumption
      · extract_lets v7
        refine KeepsO.next ?_
        refine Keeps.mk' ?_ le_rfl rfl (fun x => x) (fun x => x) le_rfl
        with_reducible assumption

theorem execPracticeOpen_keeps {M : Part → Prop} [Fact (M .free)] [Fact (M .regs)] [Fact (M .host)] [Fact (M .lkr)]
    [Fact (M .mem)] [Fact (M .scb)] [Fact (M .cells)] {s0 : State} {ctx : ℕ} {ring : ℕ} {blob : Option (List Sys2Proof.Byte)}
    {s : Sys2Proof.Machine.State} (hK : Keeps M s0 s) :
    KeepsO M s0 (execPracticeOpen ctx ring blob s) := by
  unfold execPracticeOpen
  split
  · refine KeepsO.next ?_
    with_reducible assumption
  · extract_lets v0 v1 v2
    split
    · refine KeepsO.next ?_
      refine State.finish_keeps ?_
      with_reducible assumption
    · split
      · extract_lets v3 v4 v5
        have h6 : Keeps M s0 v5 := by
          unfold v5
          refine Keeps.ite ?_ ?_
          · intro x7
            refine State.countGcm_keeps ?_
            with_reducible assumption
          · intro x8
            with_reducible assumption
        clear_value v5
        refine KeepsO.ite ?_ ?_
        · intro x9
          refine KeepsO.next ?_
          refine State.finish_keeps ?_
          with_reducible assumption
        · intro x10
          clear_value v4
          clear_value v3
          clear_value v2
          clear_value v1
          clear_value v0
          split
          · refine KeepsO.next ?_
            refine State.finish_keeps ?_
            refine Keeps.ite ?_ ?_
            · intro x11
              refine State.bump_keeps ?_
              with_reducible assumption
            · intro x12
              with_reducible assumption
          · refine KeepsO.ite ?_ ?_
            · intro x13
              refine KeepsO.next ?_
              refine State.finish_keeps ?_
              with_reducible assumption
            · intro x14
              split
              · refine KeepsO.next ?_
                refine State.finish_keeps ?_
                with_reducible assumption
              · rename_i hq15
                refine Keeps.viaMade (M := M) (s0 := s0) hq15 ?_ (fun hk16 => ?_)
                · refine makeRoom_keeps ?_
                  with_reducible assumption
                · refine KeepsO.next ?_
                  refine State.finish_keeps ?_
                  refine openRecord_keeps ?_
                  with_reducible assumption
      · refine KeepsO.next ?_
        refine State.finish_keeps ?_
        with_reducible assumption

theorem execAdapterRevoke_keeps {M : Part → Prop} [Fact (M .free)] [Fact (M .regs)] [Fact (M .host)] [Fact (M .lkr)]
    [Fact (M .mem)] [Fact (M .scb)] [Fact (M .cells)] {s0 : State} {ctx : ℕ} {ring : ℕ} {s : Sys2Proof.Machine.State}
    (hK : Keeps M s0 s) :
    KeepsO M s0 (execAdapterRevoke ctx ring s) := by
  unfold execAdapterRevoke
  split
  · refine KeepsO.next ?_
    with_reducible assumption
  · extract_lets v0 v1 v2
    refine KeepsO.ite ?_ ?_
    · intro x3
      refine KeepsO.next ?_
      refine State.adapterBad_keeps ?_
      with_reducible assumption
    · intro x4
      refine KeepsO.ite ?_ ?_
      · intro x5
        refine KeepsO.next ?_
        refine State.adapterBad_keeps ?_
        with_reducible assumption
      · intro x6
        refine KeepsO.next ?_
        refine State.revoke_keeps ?_
        refine State.begin_keeps ?_
        with_reducible assumption

theorem execAdapterLoadComplete_keeps {M : Part → Prop} [Fact (M .free)] [Fact (M .regs)] [Fact (M .host)] [Fact (M .lkr)]
    [Fact (M .mem)] [Fact (M .scb)] [Fact (M .cells)] {s0 : State} {adapter : ℕ} {sealed : Option (List Sys2Proof.Byte)}
    {s : Sys2Proof.Machine.State} (hK : Keeps M s0 s) :
    KeepsO M s0 (execAdapterLoadComplete adapter sealed s) := by
  unfold execAdapterLoadComplete
  split
  · refine KeepsO.next ?_
    with_reducible assumption
  · extract_lets v0 v1
    have h2 : Keeps M s0 v1 := by
      unfold v1
      refine State.countGcm_keeps ?_
      with_reducible assumption
    clear_value v1
    split
    · refine KeepsO.next ?_
      refine loadBroken_keeps ?_
      with_reducible assumption
    · refine KeepsO.ite ?_ ?_
      · intro x3
        refine KeepsO.next ?_
        refine loadBroken_keeps ?_
        with_reducible assumption
      · intro x4
        split
        · refine KeepsO.next ?_
          refine loadBroken_keeps ?_
          with_reducible assumption
        · extract_lets v5 v6 v7 v8 v9 v10
          have h11 : Keeps M s0 v5 := by
            unfold v5
            refine State.writePages_keeps ?_
            with_reducible assumption
          clear_value v5
          have h12 : Keeps M s0 v7 := by
            unfold v7
            refine Keeps.mk' ?_ le_rfl rfl (fun x => x) (fun x => x) le_rfl
            with_reducible assumption
          clear_value v7
          have h13 : Keeps M s0 v10 := by
            unfold v10
            refine Keeps.ite ?_ ?_
            · intro x14
              refine Keeps.mk' ?_ le_rfl rfl (fun x => x) (fun x => x) le_rfl
              with_reducible assumption
            · intro x15
              refine State.modDir_keeps ?_
              with_reducible assumption
          clear_value v10
          refine KeepsO.next ?_
          refine State.finish_keeps ?_
          with_reducible assumption

theorem execAdapterLoad_keeps {M : Part → Prop} [Fact (M .free)] [Fact (M .regs)] [Fact (M .host)] [Fact (M .lkr)]
    [Fact (M .mem)] [Fact (M .scb)] {s0 : State} {ctx : ℕ} {ring : ℕ} {header : Option (BitVec 2048)}
    {s : Sys2Proof.Machine.State} (hK : Keeps M s0 s) :
    KeepsO M s0 (execAdapterLoad ctx ring header s) := by
  unfold execAdapterLoad
  split
  · refine KeepsO.next ?_
    with_reducible assumption
  · split
    · refine KeepsO.next ?_
      refine State.adapterBad_keeps ?_
      with_reducible assumption
    · extract_lets v0 v1 v2
      have h3 : Keeps M s0 v2 := by
        unfold v2
        refine State.countLookup_keeps ?_
        with_reducible assumption
      clear_value v2
      refine KeepsO.ite ?_ ?_
      · intro x4
        refine KeepsO.next ?_
        refine State.adapterBad_keeps ?_
        with_reducible assumption
      · intro x5
        refine KeepsO.ite ?_ ?_
        · intro x6
          refine KeepsO.next ?_
          refine State.adapterBad_keeps ?_
          with_reducible assumption
        · intro x7
          refine KeepsO.ite ?_ ?_
          · intro x8
            refine KeepsO.next ?_
            refine State.adapterBad_keeps ?_
            with_reducible assumption
          · intro x9
            refine KeepsO.ite ?_ ?_
            · intro x10
              refine KeepsO.next ?_
              refine State.adapterBad_keeps ?_
              with_reducible assumption
            · intro x11
              split
              · refine KeepsO.next ?_
                refine startLoad_keeps ?_
                with_reducible assumption
              · split
                · refine KeepsO.next ?_
                  refine State.finish_keeps ?_
                  with_reducible assumption
                · refine KeepsO.next ?_
                  refine State.adapterBad_keeps ?_
                  with_reducible assumption
                · refine KeepsO.next ?_
                  refine startLoad_keeps ?_
                  with_reducible assumption

theorem execWindowHostAccess_keeps {M : Part → Prop} [Fact (M .free)] [Fact (M .regs)] [Fact (M .host)] [Fact (M .ump)]
    [Fact (M .mem)] [Fact (M .pwr)] [Fact (M .scb)] [Fact (M .cells)] {s0 : State} {port : Sys2Proof.Machine.Port} {func : ℕ}
    {offset : ℕ} {access : Sys2Proof.HostAccess} {s : Sys2Proof.Machine.State} (hK : Keeps M s0 s) :
    KeepsO M s0 (execWindowHostAccess port func offset access s) := by
  unfold execWindowHostAccess
  refine KeepsO.ite ?_ ?_
  · intro x0
    refine KeepsO.ite ?_ ?_
    · intro x1
      split
      · refine KeepsO.next ?_
        refine State.emit_keeps ?_
        with_reducible assumption
      · refine KeepsO.ite ?_ ?_
        · intro x2
          refine KeepsO.next ?_
          refine Keeps.mk' ?_ le_rfl rfl (fun x => x) (fun x => x) le_rfl
          with_reducible assumption
        · intro x3
          refine KeepsO.next ?_
          with_reducible assumption
    · intro x4
      refine KeepsO.next ?_
      with_reducible assumption
  · intro x5
    refine KeepsO.ite ?_ ?_
    · intro x6
      refine KeepsO.next ?_
      with_reducible assumption
    · intro x7
      extract_lets v8 v9
      split
      · refine KeepsO.ite ?_ ?_
        · intro x10
          refine KeepsO.next ?_
          refine State.emit_keeps ?_
          with_reducible assumption
        · intro x11
          split
          · rename_i hq12
            refine Keeps.viaPair (M := M) (s0 := s0) hq12 ?_ (fun hk13 => ?_)
            · refine hostRead_keeps ?_
              with_reducible assumption
            · extract_lets v14 v15
              have h16 : Keeps M s0 v14 := by
                unfold v14
                refine State.count_keeps ?_
                with_reducible assumption
              clear_value v14
              have h17 : Keeps M s0 v15 := by
                unfold v15
                refine State.countLines_keeps ?_
                with_reducible assumption
              clear_value v15
              refine KeepsO.next ?_
              refine State.emit_keeps ?_
              with_reducible assumption
      · extract_lets v18 v19 v20 v21
        have h22 : Keeps M s0 v19 := by
          unfold v19
          refine writeHostCells_keeps ?_
          with_reducible assumption
        clear_value v19
        have h23 : Keeps M s0 v20 := by
          unfold v20
          refine State.count_keeps ?_
          with_reducible assumption
        clear_value v20
        have h24 : Keeps M s0 v21 := by
          unfold v21
          refine State.countLines_keeps ?_
          with_reducible assumption
        clear_value v21
        refine KeepsO.ite ?_ ?_
        · intro x25
          refine KeepsO.next ?_
          refine State.flagWrite_keeps ?_
          with_reducible assumption
        · intro x26
          refine KeepsO.next ?_
          refine Keeps.ite ?_ ?_
          · intro x27
            refine State.winViolation_keeps ?_
            with_reducible assumption
          · intro x28
            with_reducible assumption

theorem execFlagHandover_keeps {M : Part → Prop} [Fact (M .regs)] [Fact (M .host)] {s0 : State}
    {port : Sys2Proof.Machine.Port} {func : ℕ} {slot : ℕ} {bytes : ℕ} {gen : ℕ} {s : Sys2Proof.Machine.State}
    (hK : Keeps M s0 s) :
    KeepsO M s0 (execFlagHandover port func slot bytes gen s) := by
  unfold execFlagHandover
  refine KeepsO.ite ?_ ?_
  · intro x0
    refine KeepsO.next ?_
    with_reducible assumption
  · intro x1
    refine KeepsO.next ?_
    refine Keeps.elim ?_ ?_
    · with_reducible assumption
    · intro x2
      refine State.handOver_keeps ?_
      with_reducible assumption

theorem execDescriptorAccept_keeps {M : Part → Prop} [Fact (M .free)] [Fact (M .regs)] [Fact (M .host)] [Fact (M .ump)]
    [Fact (M .mem)] [Fact (M .scb)] [Fact (M .cells)] {s0 : State} {ctx : ℕ} {ring : ℕ} {read : Sys2Proof.DescRead}
    {s : Sys2Proof.Machine.State} (hK : Keeps M s0 s) :
    KeepsO M s0 (execDescriptorAccept ctx ring read s) := by
  unfold execDescriptorAccept
  split
  · refine KeepsO.next ?_
    with_reducible assumption
  · split
    · refine KeepsO.next ?_
      refine State.modRing_keeps ?_
      with_reducible assumption
    · refine KeepsO.ite ?_ ?_
      · intro x0
        refine KeepsO.next ?_
        with_reducible assumption
      · intro x1
        extract_lets v2 v3 v4 v5
        have h6 : Keeps M s0 v3 := by
          unfold v3
          refine State.writeback_keeps ?_
          refine State.accept_keeps ?_
          with_reducible assumption
        clear_value v3
        have h7 : Keeps M s0 v4 := by
          unfold v4
          refine State.count_keeps ?_
          with_reducible assumption
        clear_value v4
        have h8 : Keeps M s0 v5 := by
          unfold v5
          refine State.trace_keeps ?_
          with_reducible assumption
        clear_value v5
        split
        · refine KeepsO.next ?_
          refine State.finish_keeps ?_
          with_reducible assumption
        · refine KeepsO.next ?_
          with_reducible assumption

theorem execDoorbellWrite_keeps {M : Part → Prop} [Fact (M .free)] [Fact (M .regs)] [Fact (M .host)] [Fact (M .ump)]
    [Fact (M .lkr)] [Fact (M .mem)] [Fact (M .pwr)] [Fact (M .scb)] [Fact (M .mgl)] [Fact (M .rdc)] [Fact (M .wst)]
    [Fact (M .eng)] [Fact (M .cells)] {s0 : State} {port : Sys2Proof.Machine.Port} {func : ℕ} {page : ℕ} {offset : ℕ}
    {bytes : ℕ} {value : ℕ} {s : Sys2Proof.Machine.State} (hK : Keeps M s0 s) :
    KeepsO M s0 (execDoorbellWrite port func page offset bytes value s) := by
  unfold execDoorbellWrite
  refine KeepsO.ite ?_ ?_
  · intro x0
    refine KeepsO.next ?_
    with_reducible assumption
  · intro x1
    split
    · refine KeepsO.next ?_
      with_reducible assumption
    · extract_lets v2
      have h3 : Keeps M s0 v2 := by
        unfold v2
        refine State.bump_keeps ?_
        with_reducible assumption
      clear_value v2
      refine KeepsO.ite ?_ ?_
      · intro x4
        refine KeepsO.next ?_
        with_reducible assumption
      · intro x5
        split
        · refine KeepsO.next ?_
          with_reducible assumption
        · extract_lets v6 v7
          have h8 : Keeps M s0 v6 := by
            unfold v6
            refine State.modRing_keeps ?_
            with_reducible assumption
          clear_value v6
          have h9 : Keeps M s0 v7 := by
            unfold v7
            refine State.count_keeps ?_
            with_reducible assumption
          clear_value v7
          refine KeepsO.next ?_
          refine Keeps.ite ?_ ?_
          · intro x10
            refine State.requestPower_keeps ?_
            with_reducible assumption
          · intro x11
            with_reducible assumption

theorem execFabricFlitReceive_keeps {M : Part → Prop} [Fact (M .free)] [Fact (M .regs)] [Fact (M .host)] [Fact (M .ump)]
    [Fact (M .lkr)] [Fact (M .mem)] [Fact (M .err)] [Fact (M .scb)] [Fact (M .mgl)] [Fact (M .rdc)] [Fact (M .wst)]
    [Fact (M .eng)] [Fact (M .cells)] {s0 : State} {link : Sys2Proof.Machine.Die × Sys2Proof.Machine.Die} {seq : ℕ}
    {word : Sys2Proof.Machine.FlitArrival} {s : Sys2Proof.Machine.State} (hK : Keeps M s0 s) :
    KeepsO M s0 (execFabricFlitReceive link seq word s) := by
  unfold execFabricFlitReceive
  split
  · refine KeepsO.next ?_
    with_reducible assumption
  · refine KeepsO.ite ?_ ?_
    · intro x0
      refine KeepsO.next ?_
      with_reducible assumption
    · intro x1
      refine KeepsO.ite ?_ ?_
      · intro x2
        refine KeepsO.next ?_
        refine State.setFabric_keeps ?_
        with_reducible assumption
      · intro x3
        extract_lets v4 v5 v6
        have h7 : Keeps M s0 v6 := by
          unfold v6
          refine State.setFabric_keeps ?_
          with_reducible assumption
        clear_value v6
        split
        · refine KeepsO.next ?_
          unfold v5
          refine State.fabricAccept_keeps ?_
          refine State.setFabric_keeps ?_
          with_reducible assumption
        · refine KeepsO.next ?_
          unfold v5
          refine State.fabricAccept_keeps ?_
          refine State.setFabric_keeps ?_
          with_reducible assumption
        · refine KeepsO.ite ?_ ?_
          · intro x8
            refine KeepsO.next ?_
            refine State.fabricResend_keeps ?_
            with_reducible assumption
          · intro x9
            refine KeepsO.next ?_
            refine State.deviceFails_keeps ?_
            with_reducible assumption

theorem execFlashOpDone_keeps {M : Part → Prop} [Fact (M .free)] [Fact (M .regs)] [Fact (M .pwr)] {s0 : State}
    {verified : Bool} {s : Sys2Proof.Machine.State} (hK : Keeps M s0 s) :
    KeepsO M s0 (execFlashOpDone verified s) := by
  unfold execFlashOpDone
  split
  · refine KeepsO.next ?_
    with_reducible assumption
  · extract_lets v0 v1 v2 v3 v4 v5
    have h6 : Keeps M s0 v1 := by
      unfold v1
      refine Keeps.ite ?_ ?_
      · intro x7
        with_reducible assumption
      · intro x8
        refine State.setFld_keeps ?_
        refine abandonFlash_keeps ?_
        with_reducible assumption
    clear_value v1
    have h9 : Keeps M s0 v2 := by
      unfold v2
      refine State.setFld_keeps ?_
      with_reducible assumption
    clear_value v2
    have h10 : Keeps M s0 v4 := by
      unfold v4
      refine Keeps.mk' ?_ le_rfl rfl (fun x => x) (fun x => x) le_rfl
      with_reducible assumption
    clear_value v4
    refine KeepsO.ite ?_ ?_
    · intro x11
      refine KeepsO.next ?_
      with_reducible assumption
    · intro x12
      split
      · refine KeepsO.next ?_
        refine fillFlashBuffer_keeps ?_
        with_reducible assumption
      · refine KeepsO.next ?_
        refine Keeps.mk' ?_ le_rfl rfl (fun x => x) (fun x => x) le_rfl
        with_reducible assumption
      · refine KeepsO.next ?_
        refine Keeps.mk' ?_ le_rfl rfl (fun x => x) (fun x => x) le_rfl
        with_reducible assumption

theorem execFlashErase_keeps {M : Part → Prop} [Fact (M .regs)] [Fact (M .pwr)] {s0 : State} {port : Sys2Proof.Machine.Port}
    {value : Sys2Proof.Word} {s : Sys2Proof.Machine.State} (hK : Keeps M s0 s) :
    KeepsO M s0 (execFlashErase port value s) := by
  unfold execFlashErase
  refine KeepsO.next ?_
  refine State.flashCtl_keeps ?_
  with_reducible assumption

theorem execFlashProgram_keeps {M : Part → Prop} [Fact (M .regs)] [Fact (M .pwr)] {s0 : State} {port : Sys2Proof.Machine.Port}
    {value : Sys2Proof.Word} {s : Sys2Proof.Machine.State} (hK : Keeps M s0 s) :
    KeepsO M s0 (execFlashProgram port value s) := by
  unfold execFlashProgram
  refine KeepsO.next ?_
  refine State.flashCtl_keeps ?_
  with_reducible assumption

theorem execFlashRead_keeps {M : Part → Prop} [Fact (M .regs)] [Fact (M .pwr)] {s0 : State} {port : Sys2Proof.Machine.Port}
    {value : Sys2Proof.Word} {s : Sys2Proof.Machine.State} (hK : Keeps M s0 s) :
    KeepsO M s0 (execFlashRead port value s) := by
  unfold execFlashRead
  refine KeepsO.next ?_
  refine State.flashCtl_keeps ?_
  with_reducible assumption

theorem execSmbAlert_keeps {M : Part → Prop} [Fact (M .host)] {s0 : State} {s : Sys2Proof.Machine.State} (hK : Keeps M s0 s) :
    KeepsO M s0 (execSmbAlert s) := by
  unfold execSmbAlert
  refine State.smbus_keeps ?_
  with_reducible assumption

theorem execSmbState_keeps {M : Part → Prop} [Fact (M .host)] {s0 : State} {s : Sys2Proof.Machine.State} (hK : Keeps M s0 s) :
    KeepsO M s0 (execSmbState s) := by
  unfold execSmbState
  refine State.smbus_keeps ?_
  with_reducible assumption

theorem execSmbRstCause_keeps {M : Part → Prop} [Fact (M .host)] {s0 : State} {s : Sys2Proof.Machine.State} (hK : Keeps M s0 s) :
    KeepsO M s0 (execSmbRstCause s) := by
  unfold execSmbRstCause
  refine State.smbus_keeps ?_
  with_reducible assumption

theorem execSmbBootStatus_keeps {M : Part → Prop} [Fact (M .host)] {s0 : State} {s : Sys2Proof.Machine.State}
    (hK : Keeps M s0 s) :
    KeepsO M s0 (execSmbBootStatus s) := by
  unfold execSmbBootStatus
  refine State.smbus_keeps ?_
  with_reducible assumption

theorem execSmbJunction_keeps {M : Part → Prop} [Fact (M .host)] {s0 : State} {s : Sys2Proof.Machine.State} (hK : Keeps M s0 s) :
    KeepsO M s0 (execSmbJunction s) := by
  unfold execSmbJunction
  refine State.smbus_keeps ?_
  with_reducible assumption

theorem execSmbPower_keeps {M : Part → Prop} [Fact (M .host)] {s0 : State} {s : Sys2Proof.Machine.State} (hK : Keeps M s0 s) :
    KeepsO M s0 (execSmbPower s) := by
  unfold execSmbPower
  refine State.smbus_keeps ?_
  with_reducible assumption

theorem execSmbInputCurrent_keeps {M : Part → Prop} [Fact (M .host)] {s0 : State} {s : Sys2Proof.Machine.State}
    (hK : Keeps M s0 s) :
    KeepsO M s0 (execSmbInputCurrent s) := by
  unfold execSmbInputCurrent
  refine State.smbus_keeps ?_
  with_reducible assumption

theorem execSmbV48_keeps {M : Part → Prop} [Fact (M .host)] {s0 : State} {s : Sys2Proof.Machine.State} (hK : Keeps M s0 s) :
    KeepsO M s0 (execSmbV48 s) := by
  unfold execSmbV48
  refine State.smbus_keeps ?_
  with_reducible assumption

theorem execMgmtResume_keeps {M : Part → Prop} [Fact (M .ts)] [Fact (M .free)] [Fact (M .regs)] [Fact (M .host)]
    [Fact (M .ump)] [Fact (M .lkr)] [Fact (M .mem)] [Fact (M .ref)] [Fact (M .err)] [Fact (M .pwr)] [Fact (M .scb)]
    [Fact (M .mgl)] [Fact (M .rdc)] [Fact (M .wst)] [Fact (M .eng)] [Fact (M .cells)] {s0 : State}
    {s : Sys2Proof.Machine.State} (hK : Keeps M s0 s) :
    KeepsO M s0 (execMgmtResume s) := by
  unfold execMgmtResume
  refine KeepsO.next ?_
  refine State.mgmt_keeps ?_
  with_reducible assumption

theorem execMgmtHalfTime_keeps {M : Part → Prop} [Fact (M .ts)] [Fact (M .free)] [Fact (M .regs)] [Fact (M .host)]
    [Fact (M .ump)] [Fact (M .lkr)] [Fact (M .mem)] [Fact (M .ref)] [Fact (M .err)] [Fact (M .pwr)] [Fact (M .scb)]
    [Fact (M .mgl)] [Fact (M .rdc)] [Fact (M .wst)] [Fact (M .eng)] [Fact (M .cells)] {s0 : State}
    {s : Sys2Proof.Machine.State} (hK : Keeps M s0 s) :
    KeepsO M s0 (execMgmtHalfTime s) := by
  unfold execMgmtHalfTime
  refine KeepsO.next ?_
  refine State.mgmt_keeps ?_
  with_reducible assumption

theorem execMgmtWarmReset_keeps {M : Part → Prop} [Fact (M .ts)] [Fact (M .free)] [Fact (M .regs)] [Fact (M .host)]
    [Fact (M .ump)] [Fact (M .lkr)] [Fact (M .mem)] [Fact (M .ref)] [Fact (M .err)] [Fact (M .pwr)] [Fact (M .scb)]
    [Fact (M .mgl)] [Fact (M .rdc)] [Fact (M .wst)] [Fact (M .eng)] [Fact (M .cells)] {s0 : State}
    {s : Sys2Proof.Machine.State} (hK : Keeps M s0 s) :
    KeepsO M s0 (execMgmtWarmReset s) := by
  unfold execMgmtWarmReset
  refine KeepsO.next ?_
  refine State.mgmt_keeps ?_
  with_reducible assumption

theorem execPowerControlTick_keeps {M : Part → Prop} [Fact (M .free)] [Fact (M .regs)] [Fact (M .err)] [Fact (M .pwr)]
    [Fact (M .scb)] {s0 : State} {reading : Sys2Proof.PowerReading} {s : Sys2Proof.Machine.State} (hK : Keeps M s0 s) :
    KeepsO M s0 (execPowerControlTick reading s) := by
  unfold execPowerControlTick
  refine KeepsO.ite ?_ ?_
  · intro x0
    refine KeepsO.next ?_
    with_reducible assumption
  · intro x1
    extract_lets v2 v3
    have h4 : Keeps M s0 v2 := by
      unfold v2
      refine State.takeReading_keeps ?_
      with_reducible assumption
    clear_value v2
    have h5 : Keeps M s0 v3 := by
      unfold v3
      refine State.refreshVfPower_keeps ?_
      with_reducible assumption
    clear_value v3
    refine KeepsO.ite ?_ ?_
    · intro x6
      refine KeepsO.next ?_
      with_reducible assumption
    · intro x7
      refine KeepsO.next ?_
      refine Keeps.ite ?_ ?_
      · intro x8
        with_reducible assumption
      · intro x9
        refine State.steerClock_keeps ?_
        with_reducible assumption

theorem execPwrReqStandby_keeps {M : Part → Prop} [Fact (M .free)] [Fact (M .regs)] [Fact (M .host)] [Fact (M .ump)]
    [Fact (M .lkr)] [Fact (M .mem)] [Fact (M .pwr)] [Fact (M .scb)] [Fact (M .mgl)] [Fact (M .rdc)] [Fact (M .wst)]
    [Fact (M .eng)] [Fact (M .cells)] {s0 : State} {_port : Sys2Proof.Machine.Port} {s : Sys2Proof.Machine.State}
    (hK : Keeps M s0 s) :
    KeepsO M s0 (execPwrReqStandby _port s) := by
  unfold execPwrReqStandby
  refine KeepsO.ite ?_ ?_
  · intro x0
    refine KeepsO.next ?_
    refine State.requestPower_keeps ?_
    with_reducible assumption
  · intro x1
    refine KeepsO.next ?_
    with_reducible assumption

theorem execPwrReqIdle_keeps {M : Part → Prop} [Fact (M .free)] [Fact (M .regs)] [Fact (M .host)] [Fact (M .ump)]
    [Fact (M .lkr)] [Fact (M .mem)] [Fact (M .pwr)] [Fact (M .scb)] [Fact (M .mgl)] [Fact (M .rdc)] [Fact (M .wst)]
    [Fact (M .eng)] [Fact (M .cells)] {s0 : State} {_port : Sys2Proof.Machine.Port} {s : Sys2Proof.Machine.State}
    (hK : Keeps M s0 s) :
    KeepsO M s0 (execPwrReqIdle _port s) := by
  unfold execPwrReqIdle
  refine KeepsO.ite ?_ ?_
  · intro x0
    refine KeepsO.next ?_
    refine State.requestPower_keeps ?_
    with_reducible assumption
  · intro x1
    refine KeepsO.next ?_
    with_reducible assumption

theorem execPwrReqActive_keeps {M : Part → Prop} [Fact (M .free)] [Fact (M .regs)] [Fact (M .host)] [Fact (M .ump)]
    [Fact (M .lkr)] [Fact (M .mem)] [Fact (M .pwr)] [Fact (M .scb)] [Fact (M .mgl)] [Fact (M .rdc)] [Fact (M .wst)]
    [Fact (M .eng)] [Fact (M .cells)] {s0 : State} {_port : Sys2Proof.Machine.Port} {s : Sys2Proof.Machine.State}
    (hK : Keeps M s0 s) :
    KeepsO M s0 (execPwrReqActive _port s) := by
  unfold execPwrReqActive
  refine KeepsO.ite ?_ ?_
  · intro x0
    refine KeepsO.next ?_
    refine State.requestPower_keeps ?_
    with_reducible assumption
  · intro x1
    refine KeepsO.next ?_
    with_reducible assumption

theorem execFlashSelChange_keeps {M : Part → Prop} [Fact (M .regs)] [Fact (M .pwr)] {s0 : State} {level : Bool}
    {s : Sys2Proof.Machine.State} (hK : Keeps M s0 s) :
    KeepsO M s0 (execFlashSelChange level s) := by
  unfold execFlashSelChange
  extract_lets v0 v1 v2 v3
  have h4 : Keeps M s0 v3 := by
    unfold v3
    refine Keeps.mk' ?_ le_rfl rfl (fun x => x) (fun x => x) le_rfl
    with_reducible assumption
  clear_value v3
  refine KeepsO.next ?_
  refine Keeps.ite ?_ ?_
  · intro x5
    refine State.bootFails_keeps ?_
    with_reducible assumption
  · intro x6
    with_reducible assumption

theorem execBootLoadResend_keeps {M : Part → Prop} [Fact (M .mgl)] {s0 : State} {s : Sys2Proof.Machine.State}
    (hK : Keeps M s0 s) :
    KeepsO M s0 (execBootLoadResend s) := by
  unfold execBootLoadResend
  refine KeepsO.ite ?_ ?_
  · intro x0
    refine KeepsO.next ?_
    with_reducible assumption
  · intro x1
    split
    · refine KeepsO.next ?_
      with_reducible assumption
    · extract_lets v2 v3 v4 v5 v6
      have h7 : Keeps M s0 v3 := by
        unfold v3
        refine Keeps.mk' ?_ le_rfl rfl (fun x => x) (fun x => x) le_rfl
        with_reducible assumption
      clear_value v3
      have h8 : Keeps M s0 v6 := by
        unfold v6
        refine Keeps.mk' ?_ le_rfl rfl (fun x => x) (fun x => x) le_rfl
        with_reducible assumption
      clear_value v6
      split
      · refine KeepsO.ite ?_ ?_
        · intro x9
          refine KeepsO.next ?_
          refine State.sendBoot_keeps ?_
          with_reducible assumption
        · intro x10
          refine KeepsO.next ?_
          refine State.sendBoot_keeps ?_
          with_reducible assumption
      · refine KeepsO.next ?_
        refine State.sendBoot_keeps ?_
        with_reducible assumption
      · refine KeepsO.next ?_
        refine State.sendBoot_keeps ?_
        with_reducible assumption

theorem execBootHostTimeout_keeps {M : Part → Prop} [Fact (M .ts)] [Fact (M .regs)] [Fact (M .pwr)] {s0 : State}
    {s : Sys2Proof.Machine.State} (hK : Keeps M s0 s) :
    KeepsO M s0 (execBootHostTimeout s) := by
  unfold execBootHostTimeout
  refine KeepsO.ite ?_ ?_
  · intro x0
    refine KeepsO.next ?_
    with_reducible assumption
  · intro x1
    refine KeepsO.next ?_
    refine State.bootFails_keeps ?_
    refine Keeps.mk' ?_ le_rfl rfl (fun x => x) (fun x => x) le_rfl
    with_reducible assumption

theorem execBootGo_keeps {M : Part → Prop} [Fact (M .regs)] [Fact (M .pwr)] {s0 : State} {_port : Sys2Proof.Machine.Port}
    {value : Sys2Proof.Word} {s : Sys2Proof.Machine.State} (hK : Keeps M s0 s) :
    KeepsO M s0 (execBootGo _port value s) := by
  unfold execBootGo
  refine KeepsO.ite ?_ ?_
  · intro x0
    refine KeepsO.next ?_
    with_reducible assumption
  · intro x1
    refine KeepsO.ite ?_ ?_
    · intro x2
      refine KeepsO.next ?_
      refine State.bootFails_keeps ?_
      with_reducible assumption
    · intro x3
      refine KeepsO.next ?_
      refine Keeps.mk' ?_ le_rfl rfl (fun x => x) (fun x => x) le_rfl
      with_reducible assumption

theorem execBootSequence_keeps {M : Part → Prop} [Fact (M .free)] [Fact (M .regs)] [Fact (M .host)] [Fact (M .ump)]
    [Fact (M .lkr)] [Fact (M .mem)] [Fact (M .ref)] [Fact (M .err)] [Fact (M .pwr)] [Fact (M .scb)] [Fact (M .mgl)]
    [Fact (M .rdc)] [Fact (M .wst)] [Fact (M .eng)] [Fact (M .cells)] {s0 : State} {tests : Sys2Proof.BootTests}
    {s : Sys2Proof.Machine.State} (hK : Keeps M s0 s) :
    KeepsO M s0 (execBootSequence tests s) := by
  unfold execBootSequence
  refine KeepsO.ite ?_ ?_
  · intro x0
    refine KeepsO.next ?_
    with_reducible assumption
  · intro x1
    extract_lets v2
    have h3 : Keeps M s0 v2 := by
      unfold v2
      refine bootRun_keeps ?_
      with_reducible assumption
    clear_value v2
    refine KeepsO.next ?_
    refine Keeps.ite ?_ ?_
    · intro x4
      refine requestChunk_keeps ?_
      with_reducible assumption
    · intro x5
      with_reducible assumption

theorem execFunctionLevelReset_keeps {M : Part → Prop} [Fact (M .free)] [Fact (M .regs)] [Fact (M .host)] [Fact (M .ump)]
    [Fact (M .lkr)] [Fact (M .mem)] [Fact (M .ref)] [Fact (M .scb)] [Fact (M .mgl)] [Fact (M .rdc)] [Fact (M .wst)]
    [Fact (M .eng)] [Fact (M .cells)] {s0 : State} {port : Sys2Proof.Machine.Port} {func : ℕ} {s : Sys2Proof.Machine.State}
    (hK : Keeps M s0 s) :
    KeepsO M s0 (execFunctionLevelReset port func s) := by
  unfold execFunctionLevelReset
  refine KeepsO.ite ?_ ?_
  · intro x0
    refine KeepsO.next ?_
    with_reducible assumption
  · intro x1
    refine KeepsO.ite ?_ ?_
    · intro x2
      refine KeepsO.next ?_
      refine State.portReset_keeps ?_
      with_reducible assumption
    · intro x3
      refine KeepsO.ite ?_ ?_
      · intro x4
        refine KeepsO.next ?_
        refine State.vfReset_keeps ?_
        with_reducible assumption
      · intro x5
        refine KeepsO.next ?_
        with_reducible assumption

theorem execRefereeFault_keeps {M : Part → Prop} [Fact (M .ts)] [Fact (M .free)] [Fact (M .regs)] [Fact (M .host)]
    [Fact (M .ump)] [Fact (M .lkr)] [Fact (M .mem)] [Fact (M .ref)] [Fact (M .err)] [Fact (M .pwr)] [Fact (M .scb)]
    [Fact (M .mgl)] [Fact (M .rdc)] [Fact (M .wst)] [Fact (M .eng)] [Fact (M .cells)] {s0 : State} {cause : ℕ}
    {s : Sys2Proof.Machine.State} (hK : Keeps M s0 s) :
    KeepsO M s0 (execRefereeFault cause s) := by
  unfold execRefereeFault
  refine KeepsO.ite ?_ ?_
  · intro x0
    refine KeepsO.next ?_
    with_reducible assumption
  · intro x1
    extract_lets v2
    have h3 : Keeps M s0 v2 := by
      unfold v2
      refine Keeps.ite ?_ ?_
      · intro x4
        refine State.failDevice_keeps ?_
        with_reducible assumption
      · intro x5
        with_reducible assumption
    clear_value v2
    refine KeepsO.next ?_
    refine State.coldReset_keeps ?_
    with_reducible assumption

theorem execUmpireWatchdog_keeps {M : Part → Prop} [Fact (M .ts)] [Fact (M .free)] [Fact (M .regs)] [Fact (M .host)]
    [Fact (M .ump)] [Fact (M .lkr)] [Fact (M .mem)] [Fact (M .ref)] [Fact (M .err)] [Fact (M .pwr)] [Fact (M .scb)]
    [Fact (M .mgl)] [Fact (M .rdc)] [Fact (M .wst)] [Fact (M .eng)] [Fact (M .cells)] {s0 : State}
    {s : Sys2Proof.Machine.State} (hK : Keeps M s0 s) :
    KeepsO M s0 (execUmpireWatchdog s) := by
  unfold execUmpireWatchdog
  refine KeepsO.ite ?_ ?_
  · intro x0
    refine KeepsO.next ?_
    with_reducible assumption
  · intro x1
    extract_lets v2 v3
    have h4 : Keeps M s0 v3 := by
      unfold v3
      refine State.failDevice_keeps ?_
      with_reducible assumption
    clear_value v3
    refine KeepsO.next ?_
    refine State.warmReset_keeps ?_
    with_reducible assumption

theorem execRailFault_keeps {M : Part → Prop} [Fact (M .ts)] [Fact (M .free)] [Fact (M .regs)] [Fact (M .host)]
    [Fact (M .ump)] [Fact (M .lkr)] [Fact (M .mem)] [Fact (M .ref)] [Fact (M .err)] [Fact (M .pwr)] [Fact (M .scb)]
    [Fact (M .mgl)] [Fact (M .rdc)] [Fact (M .wst)] [Fact (M .eng)] [Fact (M .cells)] {s0 : State} {rail : ℕ}
    {s : Sys2Proof.Machine.State} (hK : Keeps M s0 s) :
    KeepsO M s0 (execRailFault rail s) := by
  unfold execRailFault
  refine KeepsO.next ?_
  refine State.railFails_keeps ?_
  with_reducible assumption

theorem execThermalTripEnd_keeps {M : Part → Prop} [Fact (M .ts)] [Fact (M .regs)] [Fact (M .ref)] [Fact (M .pwr)]
    {s0 : State} {readings : List ℤ} {s : Sys2Proof.Machine.State} (hK : Keeps M s0 s) :
    KeepsO M s0 (execThermalTripEnd readings s) := by
  unfold execThermalTripEnd
  extract_lets v0 v1 v2 v3 v4
  have h5 : Keeps M s0 v1 := by
    unfold v1
    refine Keeps.mk' ?_ le_rfl rfl (fun x => x) (fun x => x) le_rfl
    with_reducible assumption
  have h6 : Keeps M s0 v4 := by
    unfold v4
    refine Keeps.mk' ?_ le_rfl rfl (fun x => x) (fun x => x) le_rfl
    with_reducible assumption
  refine KeepsO.ite ?_ ?_
  · intro x7
    refine KeepsO.next ?_
    with_reducible assumption
  · intro x8
    refine KeepsO.next ?_
    refine Keeps.ite ?_ ?_
    · intro x9
      refine State.startBoot_keeps ?_
      with_reducible assumption
    · intro x10
      with_reducible assumption

theorem execRstCtlWarm_keeps {M : Part → Prop} [Fact (M .ts)] [Fact (M .free)] [Fact (M .regs)] [Fact (M .host)]
    [Fact (M .ump)] [Fact (M .lkr)] [Fact (M .mem)] [Fact (M .ref)] [Fact (M .err)] [Fact (M .pwr)] [Fact (M .scb)]
    [Fact (M .mgl)] [Fact (M .rdc)] [Fact (M .wst)] [Fact (M .eng)] [Fact (M .cells)] {s0 : State}
    {port : Sys2Proof.Machine.Port} {value : Sys2Proof.Word} {s : Sys2Proof.Machine.State} (hK : Keeps M s0 s) :
    KeepsO M s0 (execRstCtlWarm port value s) := by
  unfold execRstCtlWarm
  refine KeepsO.ite ?_ ?_
  · intro x0
    refine KeepsO.next ?_
    refine State.warmReset_keeps ?_
    with_reducible assumption
  · intro x1
    refine KeepsO.next ?_
    with_reducible assumption

theorem execWarmReset_keeps {M : Part → Prop} [Fact (M .ts)] [Fact (M .free)] [Fact (M .regs)] [Fact (M .host)]
    [Fact (M .ump)] [Fact (M .lkr)] [Fact (M .mem)] [Fact (M .ref)] [Fact (M .err)] [Fact (M .pwr)] [Fact (M .scb)]
    [Fact (M .mgl)] [Fact (M .rdc)] [Fact (M .wst)] [Fact (M .eng)] [Fact (M .cells)] {s0 : State}
    {s : Sys2Proof.Machine.State} (hK : Keeps M s0 s) :
    KeepsO M s0 (execWarmReset s) := by
  unfold execWarmReset
  refine KeepsO.next ?_
  refine State.warmReset_keeps ?_
  with_reducible assumption

theorem execSysRstNRelease_keeps {M : Part → Prop} [Fact (M .ts)] [Fact (M .regs)] [Fact (M .ref)] [Fact (M .pwr)]
    {s0 : State} {straps : ℕ} {s : Sys2Proof.Machine.State} (hK : Keeps M s0 s) :
    KeepsO M s0 (execSysRstNRelease straps s) := by
  unfold execSysRstNRelease
  refine KeepsO.ite ?_ ?_
  · intro x0
    refine KeepsO.next ?_
    with_reducible assumption
  · intro x1
    extract_lets v2 v3 v4
    have h5 : Keeps M s0 v2 := by
      unfold v2
      refine State.setReg_keeps ?_
      with_reducible assumption
    clear_value v2
    have h6 : Keeps M s0 v4 := by
      unfold v4
      refine Keeps.mk' ?_ le_rfl rfl (fun x => x) (fun x => x) le_rfl
      with_reducible assumption
    clear_value v4
    refine KeepsO.next ?_
    refine Keeps.ite ?_ ?_
    · intro x7
      with_reducible assumption
    · intro x8
      refine State.startBoot_keeps ?_
      with_reducible assumption

theorem execColdReset_keeps {M : Part → Prop} [Fact (M .ts)] [Fact (M .free)] [Fact (M .regs)] [Fact (M .host)]
    [Fact (M .ump)] [Fact (M .lkr)] [Fact (M .mem)] [Fact (M .ref)] [Fact (M .err)] [Fact (M .pwr)] [Fact (M .scb)]
    [Fact (M .mgl)] [Fact (M .rdc)] [Fact (M .wst)] [Fact (M .eng)] [Fact (M .cells)] {s0 : State}
    {s : Sys2Proof.Machine.State} (hK : Keeps M s0 s) :
    KeepsO M s0 (execColdReset s) := by
  unfold execColdReset
  refine KeepsO.ite ?_ ?_
  · intro x0
    refine KeepsO.next ?_
    with_reducible assumption
  · intro x1
    extract_lets v2 v3
    have h4 : Keeps M s0 v2 := by
      unfold v2
      refine State.coldState_keeps ?_
      with_reducible assumption
    clear_value v2
    refine KeepsO.next ?_
    refine Keeps.mk' ?_ le_rfl rfl (fun x => x) (fun x => x) le_rfl
    with_reducible assumption

theorem execPowerDown_keeps {M : Part → Prop} [Fact (M .ts)] [Fact (M .free)] [Fact (M .regs)] [Fact (M .host)]
    [Fact (M .ump)] [Fact (M .lkr)] [Fact (M .mem)] [Fact (M .ref)] [Fact (M .err)] [Fact (M .pwr)] [Fact (M .scb)]
    [Fact (M .mgl)] [Fact (M .rdc)] [Fact (M .wst)] [Fact (M .eng)] [Fact (M .cells)] {s0 : State}
    {s : Sys2Proof.Machine.State} (hK : Keeps M s0 s) :
    KeepsO M s0 (execPowerDown s) := by
  unfold execPowerDown
  extract_lets v0 v1
  have h2 : Keeps M s0 v0 := by
    unfold v0
    refine State.coldState_keeps ?_
    with_reducible assumption
  clear_value v0
  refine KeepsO.next ?_
  refine Keeps.mk' ?_ le_rfl rfl (fun x => x) (fun x => x) le_rfl
  with_reducible assumption

theorem execPowerUp_keeps {M : Part → Prop} [Fact (M .ts)] [Fact (M .free)] [Fact (M .regs)] [Fact (M .host)] [Fact (M .ump)]
    [Fact (M .lkr)] [Fact (M .mem)] [Fact (M .ref)] [Fact (M .err)] [Fact (M .pwr)] [Fact (M .scb)] [Fact (M .mgl)]
    [Fact (M .rdc)] [Fact (M .wst)] [Fact (M .eng)] [Fact (M .cells)] {s0 : State} {s : Sys2Proof.Machine.State}
    (hK : Keeps M s0 s) :
    KeepsO M s0 (execPowerUp s) := by
  unfold execPowerUp
  refine KeepsO.ite ?_ ?_
  · intro x0
    refine KeepsO.next ?_
    with_reducible assumption
  · intro x1
    extract_lets v2 v3
    have h4 : Keeps M s0 v2 := by
      unfold v2
      refine State.coldState_keeps ?_
      with_reducible assumption
    clear_value v2
    refine KeepsO.next ?_
    refine Keeps.mk' ?_ le_rfl rfl (fun x => x) (fun x => x) le_rfl
    with_reducible assumption

end Sys2Proof.Machine
end

