-- ==== Sys2Proof/Laws/Frames.lean ====
section
/-! SUPPORT. For every constructor, what its command keeps, the parts of the state that `touched` does not name among it:
one lemma per row, which a statement about every command assembles by cases. -/
set_option linter.all false
namespace Sys2Proof.Machine
open Sys2Proof

/-- A keeping that touches the parts of one set touches no more than a larger one. -/
theorem Keeps.weaken {M N : Part → Prop} {s t : State} (h : Keeps M s t) (k : ∀ p, M p → N p) : Keeps N s t :=
  { h with parts := fun p hp => h.parts p (fun x => hp (k p x)) }

theorem everyPart : ∀ p, (fun _ => True : Part → Prop) p → p ∈ (Part.every : List Part) := by
  intro p; cases p <;> decide

theorem powerUp_keeps {s t : State} (h : exec (.powerUp) s = .next t) : Keeps (· ∈ touched (.powerUp)) s t := by
  have : Fact True := ⟨trivial⟩
  exact (execPowerUp_keeps (M := fun _ => True)
    (Keeps.refl s) t h).weaken everyPart

theorem powerDown_keeps {s t : State} (h : exec (.powerDown) s = .next t) : Keeps (· ∈ touched (.powerDown)) s t := by
  have : Fact True := ⟨trivial⟩
  exact (execPowerDown_keeps (M := fun _ => True)
    (Keeps.refl s) t h).weaken everyPart

theorem coldReset_keeps {s t : State} (h : exec (.coldReset) s = .next t) : Keeps (· ∈ touched (.coldReset)) s t := by
  have : Fact True := ⟨trivial⟩
  exact (execColdReset_keeps (M := fun _ => True)
    (Keeps.refl s) t h).weaken everyPart

theorem parts_ts_regs_ref_pwr : ∀ p,
    (fun p => match p with | .ts => True | .regs => True | .ref => True | .pwr => True | _ => False : Part → Prop) p → p ∈
    ([.ts, .regs, .ref, .pwr] : List Part) := by
  intro p; cases p <;> decide

theorem sysRstNRelease_keeps {a0} {s t : State} (h : exec (.sysRstNRelease a0) s = .next t) : Keeps
    (· ∈ touched (.sysRstNRelease a0)) s t := by
  have : Fact True := ⟨trivial⟩
  exact (execSysRstNRelease_keeps (M := fun p => match p with | .ts => True | .regs => True | .ref => True | .pwr => True | _ => False)
    (Keeps.refl s) t h).weaken parts_ts_regs_ref_pwr

theorem warmReset_keeps {s t : State} (h : exec (.warmReset) s = .next t) : Keeps (· ∈ touched (.warmReset)) s t := by
  have : Fact True := ⟨trivial⟩
  exact (execWarmReset_keeps (M := fun _ => True)
    (Keeps.refl s) t h).weaken everyPart

theorem rstCtlWarm_keeps {a0} {a1} {s t : State} (h : exec (.rstCtlWarm a0 a1) s = .next t) : Keeps
    (· ∈ touched (.rstCtlWarm a0 a1)) s t := by
  have : Fact True := ⟨trivial⟩
  exact (execRstCtlWarm_keeps (M := fun _ => True)
    (Keeps.refl s) t h).weaken everyPart

theorem thermalTrip_keeps {a0} {a1} {s t : State} (h : exec (.thermalTrip a0 a1) s = .next t) : Keeps
    (· ∈ touched (.thermalTrip a0 a1)) s t := by
  have : Fact True := ⟨trivial⟩
  exact (execThermalTrip_keeps (M := fun _ => True)
    (Keeps.refl s) t h).weaken everyPart

theorem thermalTripEnd_keeps {a0} {s t : State} (h : exec (.thermalTripEnd a0) s = .next t) : Keeps
    (· ∈ touched (.thermalTripEnd a0)) s t := by
  have : Fact True := ⟨trivial⟩
  exact (execThermalTripEnd_keeps (M := fun p => match p with | .ts => True | .regs => True | .ref => True | .pwr => True | _ => False)
    (Keeps.refl s) t h).weaken parts_ts_regs_ref_pwr

theorem railFault_keeps {a0} {s t : State} (h : exec (.railFault a0) s = .next t) : Keeps (· ∈ touched (.railFault a0)) s t := by
  have : Fact True := ⟨trivial⟩
  exact (execRailFault_keeps (M := fun _ => True)
    (Keeps.refl s) t h).weaken everyPart

theorem inputUndervoltage_keeps {a0} {s t : State} (h : exec (.inputUndervoltage a0) s = .next t) : Keeps
    (· ∈ touched (.inputUndervoltage a0)) s t := by
  have : Fact True := ⟨trivial⟩
  exact (execInputUndervoltage_keeps (M := fun _ => True)
    (Keeps.refl s) t h).weaken everyPart

theorem umpireWatchdog_keeps {s t : State} (h : exec (.umpireWatchdog) s = .next t) : Keeps (· ∈ touched (.umpireWatchdog)) s
    t := by
  have : Fact True := ⟨trivial⟩
  exact (execUmpireWatchdog_keeps (M := fun _ => True)
    (Keeps.refl s) t h).weaken everyPart

theorem refereeFault_keeps {a0} {s t : State} (h : exec (.refereeFault a0) s = .next t) : Keeps
    (· ∈ touched (.refereeFault a0)) s t := by
  have : Fact True := ⟨trivial⟩
  exact (execRefereeFault_keeps (M := fun _ => True)
    (Keeps.refl s) t h).weaken everyPart

theorem parts_free_regs_host_ump_lkr_mem_ref_scb_mgl_rdc_wst_eng_cells : ∀ p,
    (fun p => match p with | .free => True | .regs => True | .host => True | .ump => True | .lkr => True | .mem => True | .ref => True | .scb => True | .mgl => True | .rdc => True | .wst => True | .eng => True | .cells => True | _ => False : Part → Prop)
    p → p ∈ ([.free, .regs, .host, .ump, .lkr, .mem, .ref, .scb, .mgl, .rdc, .wst, .eng, .cells] : List Part) := by
  intro p; cases p <;> decide

theorem portReset_keeps {a0} {s t : State} (h : exec (.portReset a0) s = .next t) : Keeps (· ∈ touched (.portReset a0)) s t := by
  have : Fact True := ⟨trivial⟩
  exact (execPortReset_keeps (M := fun p => match p with | .free => True | .regs => True | .host => True | .ump => True | .lkr => True | .mem => True | .ref => True | .scb => True | .mgl => True | .rdc => True | .wst => True | .eng => True | .cells => True | _ => False)
    (Keeps.refl s) t h).weaken parts_free_regs_host_ump_lkr_mem_ref_scb_mgl_rdc_wst_eng_cells

theorem functionLevelReset_keeps {a0} {a1} {s t : State} (h : exec (.functionLevelReset a0 a1) s = .next t) : Keeps
    (· ∈ touched (.functionLevelReset a0 a1)) s t := by
  have : Fact True := ⟨trivial⟩
  exact (execFunctionLevelReset_keeps (M := fun p => match p with | .free => True | .regs => True | .host => True | .ump => True | .lkr => True | .mem => True | .ref => True | .scb => True | .mgl => True | .rdc => True | .wst => True | .eng => True | .cells => True | _ => False)
    (Keeps.refl s) t h).weaken parts_free_regs_host_ump_lkr_mem_ref_scb_mgl_rdc_wst_eng_cells

theorem parts_free_regs_host_ump_lkr_mem_ref_err_pwr_scb_mgl_rdc_wst_eng_cells : ∀ p,
    (fun p => match p with | .free => True | .regs => True | .host => True | .ump => True | .lkr => True | .mem => True | .ref => True | .err => True | .pwr => True | .scb => True | .mgl => True | .rdc => True | .wst => True | .eng => True | .cells => True | _ => False : Part → Prop)
    p → p ∈ ([.free, .regs, .host, .ump, .lkr, .mem, .ref, .err, .pwr, .scb, .mgl, .rdc, .wst, .eng, .cells] : List Part)
    := by
  intro p; cases p <;> decide

theorem bootSequence_keeps {a0} {s t : State} (h : exec (.bootSequence a0) s = .next t) : Keeps
    (· ∈ touched (.bootSequence a0)) s t := by
  have : Fact True := ⟨trivial⟩
  exact (execBootSequence_keeps (M := fun p => match p with | .free => True | .regs => True | .host => True | .ump => True | .lkr => True | .mem => True | .ref => True | .err => True | .pwr => True | .scb => True | .mgl => True | .rdc => True | .wst => True | .eng => True | .cells => True | _ => False)
    (Keeps.refl s) t h).weaken parts_free_regs_host_ump_lkr_mem_ref_err_pwr_scb_mgl_rdc_wst_eng_cells

theorem parts_regs_pwr : ∀ p, (fun p => match p with | .regs => True | .pwr => True | _ => False : Part → Prop) p → p ∈
    ([.regs, .pwr] : List Part) := by
  intro p; cases p <;> decide

theorem bootGo_keeps {a0} {a1} {s t : State} (h : exec (.bootGo a0 a1) s = .next t) : Keeps (· ∈ touched (.bootGo a0 a1)) s t
    := by
  have : Fact True := ⟨trivial⟩
  exact (execBootGo_keeps (_port := a0) (M := fun p => match p with | .regs => True | .pwr => True | _ => False)
    (Keeps.refl s) t h).weaken parts_regs_pwr

theorem parts_ts_regs_pwr : ∀ p,
    (fun p => match p with | .ts => True | .regs => True | .pwr => True | _ => False : Part → Prop) p → p ∈
    ([.ts, .regs, .pwr] : List Part) := by
  intro p; cases p <;> decide

theorem bootHostTimeout_keeps {s t : State} (h : exec (.bootHostTimeout) s = .next t) : Keeps (· ∈ touched (.bootHostTimeout))
    s t := by
  have : Fact True := ⟨trivial⟩
  exact (execBootHostTimeout_keeps (M := fun p => match p with | .ts => True | .regs => True | .pwr => True | _ => False)
    (Keeps.refl s) t h).weaken parts_ts_regs_pwr

theorem parts_pwr_mgl : ∀ p, (fun p => match p with | .pwr => True | .mgl => True | _ => False : Part → Prop) p → p ∈
    ([.pwr, .mgl] : List Part) := by
  intro p; cases p <;> decide

theorem bootChunkReceive_keeps {s t : State} (h : exec (.bootChunkReceive) s = .next t) : Keeps
    (· ∈ touched (.bootChunkReceive)) s t := by
  have : Fact True := ⟨trivial⟩
  exact (execBootChunkReceive_keeps (M := fun p => match p with | .pwr => True | .mgl => True | _ => False)
    (Keeps.refl s) t h).weaken parts_pwr_mgl

theorem parts_regs_pwr_mgl : ∀ p,
    (fun p => match p with | .regs => True | .pwr => True | .mgl => True | _ => False : Part → Prop) p → p ∈
    ([.regs, .pwr, .mgl] : List Part) := by
  intro p; cases p <;> decide

theorem bootLoadGone_keeps {s t : State} (h : exec (.bootLoadGone) s = .next t) : Keeps (· ∈ touched (.bootLoadGone)) s t := by
  have : Fact True := ⟨trivial⟩
  exact (execBootLoadGone_keeps (M := fun p => match p with | .regs => True | .pwr => True | .mgl => True | _ => False)
    (Keeps.refl s) t h).weaken parts_regs_pwr_mgl

theorem parts_mgl : ∀ p, (fun p => match p with | .mgl => True | _ => False : Part → Prop) p → p ∈ ([.mgl] : List Part) := by
  intro p; cases p <;> decide

theorem bootLoadResend_keeps {s t : State} (h : exec (.bootLoadResend) s = .next t) : Keeps (· ∈ touched (.bootLoadResend)) s
    t := by
  have : Fact True := ⟨trivial⟩
  exact (execBootLoadResend_keeps (M := fun p => match p with | .mgl => True | _ => False)
    (Keeps.refl s) t h).weaken parts_mgl

theorem flashSelChange_keeps {a0} {s t : State} (h : exec (.flashSelChange a0) s = .next t) : Keeps
    (· ∈ touched (.flashSelChange a0)) s t := by
  have : Fact True := ⟨trivial⟩
  exact (execFlashSelChange_keeps (M := fun p => match p with | .regs => True | .pwr => True | _ => False)
    (Keeps.refl s) t h).weaken parts_regs_pwr

theorem parts_free_regs_host_ump_lkr_mem_pwr_scb_mgl_rdc_wst_eng_cells : ∀ p,
    (fun p => match p with | .free => True | .regs => True | .host => True | .ump => True | .lkr => True | .mem => True | .pwr => True | .scb => True | .mgl => True | .rdc => True | .wst => True | .eng => True | .cells => True | _ => False : Part → Prop)
    p → p ∈ ([.free, .regs, .host, .ump, .lkr, .mem, .pwr, .scb, .mgl, .rdc, .wst, .eng, .cells] : List Part) := by
  intro p; cases p <;> decide

theorem pwrReqActive_keeps {a0} {s t : State} (h : exec (.pwrReqActive a0) s = .next t) : Keeps
    (· ∈ touched (.pwrReqActive a0)) s t := by
  have : Fact True := ⟨trivial⟩
  exact (execPwrReqActive_keeps (_port := a0) (M := fun p => match p with | .free => True | .regs => True | .host => True | .ump => True | .lkr => True | .mem => True | .pwr => True | .scb => True | .mgl => True | .rdc => True | .wst => True | .eng => True | .cells => True | _ => False)
    (Keeps.refl s) t h).weaken parts_free_regs_host_ump_lkr_mem_pwr_scb_mgl_rdc_wst_eng_cells

theorem pwrReqIdle_keeps {a0} {s t : State} (h : exec (.pwrReqIdle a0) s = .next t) : Keeps (· ∈ touched (.pwrReqIdle a0)) s t
    := by
  have : Fact True := ⟨trivial⟩
  exact (execPwrReqIdle_keeps (_port := a0) (M := fun p => match p with | .free => True | .regs => True | .host => True | .ump => True | .lkr => True | .mem => True | .pwr => True | .scb => True | .mgl => True | .rdc => True | .wst => True | .eng => True | .cells => True | _ => False)
    (Keeps.refl s) t h).weaken parts_free_regs_host_ump_lkr_mem_pwr_scb_mgl_rdc_wst_eng_cells

theorem pwrReqStandby_keeps {a0} {s t : State} (h : exec (.pwrReqStandby a0) s = .next t) : Keeps
    (· ∈ touched (.pwrReqStandby a0)) s t := by
  have : Fact True := ⟨trivial⟩
  exact (execPwrReqStandby_keeps (_port := a0) (M := fun p => match p with | .free => True | .regs => True | .host => True | .ump => True | .lkr => True | .mem => True | .pwr => True | .scb => True | .mgl => True | .rdc => True | .wst => True | .eng => True | .cells => True | _ => False)
    (Keeps.refl s) t h).weaken parts_free_regs_host_ump_lkr_mem_pwr_scb_mgl_rdc_wst_eng_cells

theorem parts_free_regs_err_pwr_scb : ∀ p,
    (fun p => match p with | .free => True | .regs => True | .err => True | .pwr => True | .scb => True | _ => False : Part → Prop)
    p → p ∈ ([.free, .regs, .err, .pwr, .scb] : List Part) := by
  intro p; cases p <;> decide

theorem powerControlTick_keeps {a0} {s t : State} (h : exec (.powerControlTick a0) s = .next t) : Keeps
    (· ∈ touched (.powerControlTick a0)) s t := by
  have : Fact True := ⟨trivial⟩
  exact (execPowerControlTick_keeps (M := fun p => match p with | .free => True | .regs => True | .err => True | .pwr => True | .scb => True | _ => False)
    (Keeps.refl s) t h).weaken parts_free_regs_err_pwr_scb

theorem mgmtWarmReset_keeps {s t : State} (h : exec (.mgmtWarmReset) s = .next t) : Keeps (· ∈ touched (.mgmtWarmReset)) s t := by
  have : Fact True := ⟨trivial⟩
  exact (execMgmtWarmReset_keeps (M := fun _ => True)
    (Keeps.refl s) t h).weaken everyPart

theorem mgmtHalfTime_keeps {s t : State} (h : exec (.mgmtHalfTime) s = .next t) : Keeps (· ∈ touched (.mgmtHalfTime)) s t := by
  have : Fact True := ⟨trivial⟩
  exact (execMgmtHalfTime_keeps (M := fun _ => True)
    (Keeps.refl s) t h).weaken everyPart

theorem mgmtResume_keeps {s t : State} (h : exec (.mgmtResume) s = .next t) : Keeps (· ∈ touched (.mgmtResume)) s t := by
  have : Fact True := ⟨trivial⟩
  exact (execMgmtResume_keeps (M := fun _ => True)
    (Keeps.refl s) t h).weaken everyPart

theorem mgmtAtTsReached_keeps {s t : State} (h : exec (.mgmtAtTsReached) s = .next t) : Keeps (· ∈ touched (.mgmtAtTsReached))
    s t := by
  have : Fact True := ⟨trivial⟩
  exact (execMgmtAtTsReached_keeps (M := fun _ => True)
    (Keeps.refl s) t h).weaken everyPart

theorem parts_host : ∀ p, (fun p => match p with | .host => True | _ => False : Part → Prop) p → p ∈ ([.host] : List Part) := by
  intro p; cases p <;> decide

theorem smbV48_keeps {s t : State} (h : exec (.smbV48) s = .next t) : Keeps (· ∈ touched (.smbV48)) s t := by
  have : Fact True := ⟨trivial⟩
  exact (execSmbV48_keeps (M := fun p => match p with | .host => True | _ => False)
    (Keeps.refl s) t h).weaken parts_host

theorem smbInputCurrent_keeps {s t : State} (h : exec (.smbInputCurrent) s = .next t) : Keeps (· ∈ touched (.smbInputCurrent))
    s t := by
  have : Fact True := ⟨trivial⟩
  exact (execSmbInputCurrent_keeps (M := fun p => match p with | .host => True | _ => False)
    (Keeps.refl s) t h).weaken parts_host

theorem smbPower_keeps {s t : State} (h : exec (.smbPower) s = .next t) : Keeps (· ∈ touched (.smbPower)) s t := by
  have : Fact True := ⟨trivial⟩
  exact (execSmbPower_keeps (M := fun p => match p with | .host => True | _ => False)
    (Keeps.refl s) t h).weaken parts_host

theorem smbJunction_keeps {s t : State} (h : exec (.smbJunction) s = .next t) : Keeps (· ∈ touched (.smbJunction)) s t := by
  have : Fact True := ⟨trivial⟩
  exact (execSmbJunction_keeps (M := fun p => match p with | .host => True | _ => False)
    (Keeps.refl s) t h).weaken parts_host

theorem smbInlet_keeps {s t : State} (h : exec (.smbInlet) s = .next t) : Keeps (· ∈ touched (.smbInlet)) s t := by
  have : Fact True := ⟨trivial⟩
  exact (execSmbInlet_keeps (M := fun p => match p with | .host => True | _ => False)
    (Keeps.refl s) t h).weaken parts_host

theorem smbBootStatus_keeps {s t : State} (h : exec (.smbBootStatus) s = .next t) : Keeps (· ∈ touched (.smbBootStatus)) s t := by
  have : Fact True := ⟨trivial⟩
  exact (execSmbBootStatus_keeps (M := fun p => match p with | .host => True | _ => False)
    (Keeps.refl s) t h).weaken parts_host

theorem smbRstCause_keeps {s t : State} (h : exec (.smbRstCause) s = .next t) : Keeps (· ∈ touched (.smbRstCause)) s t := by
  have : Fact True := ⟨trivial⟩
  exact (execSmbRstCause_keeps (M := fun p => match p with | .host => True | _ => False)
    (Keeps.refl s) t h).weaken parts_host

theorem smbState_keeps {s t : State} (h : exec (.smbState) s = .next t) : Keeps (· ∈ touched (.smbState)) s t := by
  have : Fact True := ⟨trivial⟩
  exact (execSmbState_keeps (M := fun p => match p with | .host => True | _ => False)
    (Keeps.refl s) t h).weaken parts_host

theorem smbAlert_keeps {s t : State} (h : exec (.smbAlert) s = .next t) : Keeps (· ∈ touched (.smbAlert)) s t := by
  have : Fact True := ⟨trivial⟩
  exact (execSmbAlert_keeps (M := fun p => match p with | .host => True | _ => False)
    (Keeps.refl s) t h).weaken parts_host

theorem flashRead_keeps {a0} {a1} {s t : State} (h : exec (.flashRead a0 a1) s = .next t) : Keeps
    (· ∈ touched (.flashRead a0 a1)) s t := by
  have : Fact True := ⟨trivial⟩
  exact (execFlashRead_keeps (M := fun p => match p with | .regs => True | .pwr => True | _ => False)
    (Keeps.refl s) t h).weaken parts_regs_pwr

theorem flashProgram_keeps {a0} {a1} {s t : State} (h : exec (.flashProgram a0 a1) s = .next t) : Keeps
    (· ∈ touched (.flashProgram a0 a1)) s t := by
  have : Fact True := ⟨trivial⟩
  exact (execFlashProgram_keeps (M := fun p => match p with | .regs => True | .pwr => True | _ => False)
    (Keeps.refl s) t h).weaken parts_regs_pwr

theorem flashErase_keeps {a0} {a1} {s t : State} (h : exec (.flashErase a0 a1) s = .next t) : Keeps
    (· ∈ touched (.flashErase a0 a1)) s t := by
  have : Fact True := ⟨trivial⟩
  exact (execFlashErase_keeps (M := fun p => match p with | .regs => True | .pwr => True | _ => False)
    (Keeps.refl s) t h).weaken parts_regs_pwr

theorem parts_free_regs_pwr : ∀ p,
    (fun p => match p with | .free => True | .regs => True | .pwr => True | _ => False : Part → Prop) p → p ∈
    ([.free, .regs, .pwr] : List Part) := by
  intro p; cases p <;> decide

theorem flashOpDone_keeps {a0} {s t : State} (h : exec (.flashOpDone a0) s = .next t) : Keeps (· ∈ touched (.flashOpDone a0))
    s t := by
  have : Fact True := ⟨trivial⟩
  exact (execFlashOpDone_keeps (M := fun p => match p with | .free => True | .regs => True | .pwr => True | _ => False)
    (Keeps.refl s) t h).weaken parts_free_regs_pwr

theorem parts_free_regs_host_ump_lkr_mem_err_scb_mgl_rdc_wst_eng_cells : ∀ p,
    (fun p => match p with | .free => True | .regs => True | .host => True | .ump => True | .lkr => True | .mem => True | .err => True | .scb => True | .mgl => True | .rdc => True | .wst => True | .eng => True | .cells => True | _ => False : Part → Prop)
    p → p ∈ ([.free, .regs, .host, .ump, .lkr, .mem, .err, .scb, .mgl, .rdc, .wst, .eng, .cells] : List Part) := by
  intro p; cases p <;> decide

theorem fabricFlitReceive_keeps {a0} {a1} {a2} {s t : State} (h : exec (.fabricFlitReceive a0 a1 a2) s = .next t) : Keeps
    (· ∈ touched (.fabricFlitReceive a0 a1 a2)) s t := by
  have : Fact True := ⟨trivial⟩
  exact (execFabricFlitReceive_keeps (M := fun p => match p with | .free => True | .regs => True | .host => True | .ump => True | .lkr => True | .mem => True | .err => True | .scb => True | .mgl => True | .rdc => True | .wst => True | .eng => True | .cells => True | _ => False)
    (Keeps.refl s) t h).weaken parts_free_regs_host_ump_lkr_mem_err_scb_mgl_rdc_wst_eng_cells

theorem doorbellWrite_keeps {a0} {a1} {a2} {a3} {a4} {a5} {s t : State}
    (h : exec (.doorbellWrite a0 a1 a2 a3 a4 a5) s = .next t) : Keeps (· ∈ touched (.doorbellWrite a0 a1 a2 a3 a4 a5)) s t
    := by
  have : Fact True := ⟨trivial⟩
  exact (execDoorbellWrite_keeps (M := fun p => match p with | .free => True | .regs => True | .host => True | .ump => True | .lkr => True | .mem => True | .pwr => True | .scb => True | .mgl => True | .rdc => True | .wst => True | .eng => True | .cells => True | _ => False)
    (Keeps.refl s) t h).weaken parts_free_regs_host_ump_lkr_mem_pwr_scb_mgl_rdc_wst_eng_cells

theorem parts_free_regs_host_ump_mem_scb_cells : ∀ p,
    (fun p => match p with | .free => True | .regs => True | .host => True | .ump => True | .mem => True | .scb => True | .cells => True | _ => False : Part → Prop)
    p → p ∈ ([.free, .regs, .host, .ump, .mem, .scb, .cells] : List Part) := by
  intro p; cases p <;> decide

theorem descriptorAccept_keeps {a0} {a1} {a2} {s t : State} (h : exec (.descriptorAccept a0 a1 a2) s = .next t) : Keeps
    (· ∈ touched (.descriptorAccept a0 a1 a2)) s t := by
  have : Fact True := ⟨trivial⟩
  exact (execDescriptorAccept_keeps (M := fun p => match p with | .free => True | .regs => True | .host => True | .ump => True | .mem => True | .scb => True | .cells => True | _ => False)
    (Keeps.refl s) t h).weaken parts_free_regs_host_ump_mem_scb_cells

theorem parts_regs_host : ∀ p, (fun p => match p with | .regs => True | .host => True | _ => False : Part → Prop) p → p ∈
    ([.regs, .host] : List Part) := by
  intro p; cases p <;> decide

theorem flagHandover_keeps {a0} {a1} {a2} {a3} {a4} {s t : State} (h : exec (.flagHandover a0 a1 a2 a3 a4) s = .next t) :
    Keeps (· ∈ touched (.flagHandover a0 a1 a2 a3 a4)) s t := by
  have : Fact True := ⟨trivial⟩
  exact (execFlagHandover_keeps (M := fun p => match p with | .regs => True | .host => True | _ => False)
    (Keeps.refl s) t h).weaken parts_regs_host

theorem flagReclaim_keeps {a0} {a1} {a2} {a3} {a4} {s t : State} (h : exec (.flagReclaim a0 a1 a2 a3 a4) s = .next t) : Keeps
    (· ∈ touched (.flagReclaim a0 a1 a2 a3 a4)) s t := by
  have : Fact True := ⟨trivial⟩
  exact (execFlagReclaim_keeps (M := fun p => match p with | .regs => True | .host => True | _ => False)
    (Keeps.refl s) t h).weaken parts_regs_host

theorem parts_free_regs_host_ump_mem_pwr_scb_cells : ∀ p,
    (fun p => match p with | .free => True | .regs => True | .host => True | .ump => True | .mem => True | .pwr => True | .scb => True | .cells => True | _ => False : Part → Prop)
    p → p ∈ ([.free, .regs, .host, .ump, .mem, .pwr, .scb, .cells] : List Part) := by
  intro p; cases p <;> decide

theorem windowHostAccess_keeps {a0} {a1} {a2} {a3} {s t : State} (h : exec (.windowHostAccess a0 a1 a2 a3) s = .next t) :
    Keeps (· ∈ touched (.windowHostAccess a0 a1 a2 a3)) s t := by
  have : Fact True := ⟨trivial⟩
  exact (execWindowHostAccess_keeps (M := fun p => match p with | .free => True | .regs => True | .host => True | .ump => True | .mem => True | .pwr => True | .scb => True | .cells => True | _ => False)
    (Keeps.refl s) t h).weaken parts_free_regs_host_ump_mem_pwr_scb_cells

theorem parts_free_regs_host_ump_scb : ∀ p,
    (fun p => match p with | .free => True | .regs => True | .host => True | .ump => True | .scb => True | _ => False : Part → Prop)
    p → p ∈ ([.free, .regs, .host, .ump, .scb] : List Part) := by
  intro p; cases p <;> decide

theorem serve_keeps {a0} {a1} {s t : State} (h : exec (.serve a0 a1) s = .next t) : Keeps (· ∈ touched (.serve a0 a1)) s t := by
  have : Fact True := ⟨trivial⟩
  exact (execServe_keeps (M := fun p => match p with | .free => True | .regs => True | .host => True | .ump => True | .scb => True | _ => False)
    (Keeps.refl s) t h).weaken parts_free_regs_host_ump_scb

theorem parts_free_regs_host_lkr_mem_scb : ∀ p,
    (fun p => match p with | .free => True | .regs => True | .host => True | .lkr => True | .mem => True | .scb => True | _ => False : Part → Prop)
    p → p ∈ ([.free, .regs, .host, .lkr, .mem, .scb] : List Part) := by
  intro p; cases p <;> decide

theorem adapterLoad_keeps {a0} {a1} {a2} {s t : State} (h : exec (.adapterLoad a0 a1 a2) s = .next t) : Keeps
    (· ∈ touched (.adapterLoad a0 a1 a2)) s t := by
  have : Fact True := ⟨trivial⟩
  exact (execAdapterLoad_keeps (M := fun p => match p with | .free => True | .regs => True | .host => True | .lkr => True | .mem => True | .scb => True | _ => False)
    (Keeps.refl s) t h).weaken parts_free_regs_host_lkr_mem_scb

theorem parts_free_regs_host_lkr_mem_scb_cells : ∀ p,
    (fun p => match p with | .free => True | .regs => True | .host => True | .lkr => True | .mem => True | .scb => True | .cells => True | _ => False : Part → Prop)
    p → p ∈ ([.free, .regs, .host, .lkr, .mem, .scb, .cells] : List Part) := by
  intro p; cases p <;> decide

theorem adapterLoadComplete_keeps {a0} {a1} {s t : State} (h : exec (.adapterLoadComplete a0 a1) s = .next t) : Keeps
    (· ∈ touched (.adapterLoadComplete a0 a1)) s t := by
  have : Fact True := ⟨trivial⟩
  exact (execAdapterLoadComplete_keeps (M := fun p => match p with | .free => True | .regs => True | .host => True | .lkr => True | .mem => True | .scb => True | .cells => True | _ => False)
    (Keeps.refl s) t h).weaken parts_free_regs_host_lkr_mem_scb_cells

theorem adapterUnload_keeps {a0} {a1} {s t : State} (h : exec (.adapterUnload a0 a1) s = .next t) : Keeps
    (· ∈ touched (.adapterUnload a0 a1)) s t := by
  have : Fact True := ⟨trivial⟩
  exact (execAdapterUnload_keeps (M := fun p => match p with | .free => True | .regs => True | .host => True | .lkr => True | .mem => True | .scb => True | _ => False)
    (Keeps.refl s) t h).weaken parts_free_regs_host_lkr_mem_scb

theorem adapterRevoke_keeps {a0} {a1} {s t : State} (h : exec (.adapterRevoke a0 a1) s = .next t) : Keeps
    (· ∈ touched (.adapterRevoke a0 a1)) s t := by
  have : Fact True := ⟨trivial⟩
  exact (execAdapterRevoke_keeps (M := fun p => match p with | .free => True | .regs => True | .host => True | .lkr => True | .mem => True | .scb => True | .cells => True | _ => False)
    (Keeps.refl s) t h).weaken parts_free_regs_host_lkr_mem_scb_cells

theorem practiceOpen_keeps {a0} {a1} {a2} {s t : State} (h : exec (.practiceOpen a0 a1 a2) s = .next t) : Keeps
    (· ∈ touched (.practiceOpen a0 a1 a2)) s t := by
  have : Fact True := ⟨trivial⟩
  exact (execPracticeOpen_keeps (M := fun p => match p with | .free => True | .regs => True | .host => True | .lkr => True | .mem => True | .scb => True | .cells => True | _ => False)
    (Keeps.refl s) t h).weaken parts_free_regs_host_lkr_mem_scb_cells

theorem practiceStep_keeps {a0} {a1} {s t : State} (h : exec (.practiceStep a0 a1) s = .next t) : Keeps
    (· ∈ touched (.practiceStep a0 a1)) s t := by
  have : Fact True := ⟨trivial⟩
  exact (execPracticeStep_keeps (M := fun p => match p with | .free => True | .regs => True | .host => True | .ump => True | .mem => True | .scb => True | .cells => True | _ => False)
    (Keeps.refl s) t h).weaken parts_free_regs_host_ump_mem_scb_cells

theorem parts_free_regs_host_lkr_scb : ∀ p,
    (fun p => match p with | .free => True | .regs => True | .host => True | .lkr => True | .scb => True | _ => False : Part → Prop)
    p → p ∈ ([.free, .regs, .host, .lkr, .scb] : List Part) := by
  intro p; cases p <;> decide

theorem practiceExport_keeps {a0} {a1} {s t : State} (h : exec (.practiceExport a0 a1) s = .next t) : Keeps
    (· ∈ touched (.practiceExport a0 a1)) s t := by
  have : Fact True := ⟨trivial⟩
  exact (execPracticeExport_keeps (M := fun p => match p with | .free => True | .regs => True | .host => True | .lkr => True | .scb => True | _ => False)
    (Keeps.refl s) t h).weaken parts_free_regs_host_lkr_scb

theorem practiceExportDone_keeps {a0} {s t : State} (h : exec (.practiceExportDone a0) s = .next t) : Keeps
    (· ∈ touched (.practiceExportDone a0)) s t := by
  have : Fact True := ⟨trivial⟩
  exact (execPracticeExportDone_keeps (M := fun p => match p with | .free => True | .regs => True | .host => True | .lkr => True | .scb => True | _ => False)
    (Keeps.refl s) t h).weaken parts_free_regs_host_lkr_scb

theorem practiceClose_keeps {a0} {a1} {s t : State} (h : exec (.practiceClose a0 a1) s = .next t) : Keeps
    (· ∈ touched (.practiceClose a0 a1)) s t := by
  have : Fact True := ⟨trivial⟩
  exact (execPracticeClose_keeps (M := fun p => match p with | .free => True | .regs => True | .host => True | .lkr => True | .scb => True | _ => False)
    (Keeps.refl s) t h).weaken parts_free_regs_host_lkr_scb

theorem practiceCloseDone_keeps {a0} {s t : State} (h : exec (.practiceCloseDone a0) s = .next t) : Keeps
    (· ∈ touched (.practiceCloseDone a0)) s t := by
  have : Fact True := ⟨trivial⟩
  exact (execPracticeCloseDone_keeps (M := fun p => match p with | .free => True | .regs => True | .host => True | .lkr => True | .mem => True | .scb => True | .cells => True | _ => False)
    (Keeps.refl s) t h).weaken parts_free_regs_host_lkr_mem_scb_cells

theorem parts_free_regs_host_ump_mem_scb_mgl_wst_cells : ∀ p,
    (fun p => match p with | .free => True | .regs => True | .host => True | .ump => True | .mem => True | .scb => True | .mgl => True | .wst => True | .cells => True | _ => False : Part → Prop)
    p → p ∈ ([.free, .regs, .host, .ump, .mem, .scb, .mgl, .wst, .cells] : List Part) := by
  intro p; cases p <;> decide

theorem wsLoad_keeps {a0} {a1} {s t : State} (h : exec (.wsLoad a0 a1) s = .next t) : Keeps (· ∈ touched (.wsLoad a0 a1)) s t
    := by
  have : Fact True := ⟨trivial⟩
  exact (execWsLoad_keeps (M := fun p => match p with | .free => True | .regs => True | .host => True | .ump => True | .mem => True | .scb => True | .mgl => True | .wst => True | .cells => True | _ => False)
    (Keeps.refl s) t h).weaken parts_free_regs_host_ump_mem_scb_mgl_wst_cells

theorem parts_free_regs_host_ump_ref_scb : ∀ p,
    (fun p => match p with | .free => True | .regs => True | .host => True | .ump => True | .ref => True | .scb => True | _ => False : Part → Prop)
    p → p ∈ ([.free, .regs, .host, .ump, .ref, .scb] : List Part) := by
  intro p; cases p <;> decide

theorem schedLoad_keeps {a0} {a1} {a2} {s t : State} (h : exec (.schedLoad a0 a1 a2) s = .next t) : Keeps
    (· ∈ touched (.schedLoad a0 a1 a2)) s t := by
  have : Fact True := ⟨trivial⟩
  exact (execSchedLoad_keeps (M := fun p => match p with | .free => True | .regs => True | .host => True | .ump => True | .ref => True | .scb => True | _ => False)
    (Keeps.refl s) t h).weaken parts_free_regs_host_ump_ref_scb

theorem schedUnload_keeps {a0} {a1} {s t : State} (h : exec (.schedUnload a0 a1) s = .next t) : Keeps
    (· ∈ touched (.schedUnload a0 a1)) s t := by
  have : Fact True := ⟨trivial⟩
  exact (execSchedUnload_keeps (M := fun p => match p with | .free => True | .regs => True | .host => True | .ump => True | .scb => True | _ => False)
    (Keeps.refl s) t h).weaken parts_free_regs_host_ump_scb

theorem parts_free_regs_host_ump_ref_err_scb_wst : ∀ p,
    (fun p => match p with | .free => True | .regs => True | .host => True | .ump => True | .ref => True | .err => True | .scb => True | .wst => True | _ => False : Part → Prop)
    p → p ∈ ([.free, .regs, .host, .ump, .ref, .err, .scb, .wst] : List Part) := by
  intro p; cases p <;> decide

theorem schedUnloadDone_keeps {a0} {s t : State} (h : exec (.schedUnloadDone a0) s = .next t) : Keeps
    (· ∈ touched (.schedUnloadDone a0)) s t := by
  have : Fact True := ⟨trivial⟩
  exact (execSchedUnloadDone_keeps (M := fun p => match p with | .free => True | .regs => True | .host => True | .ump => True | .ref => True | .err => True | .scb => True | .wst => True | _ => False)
    (Keeps.refl s) t h).weaken parts_free_regs_host_ump_ref_err_scb_wst

theorem mailboxRequestCopy_keeps {a0} {a1} {a2} {s t : State} (h : exec (.mailboxRequestCopy a0 a1 a2) s = .next t) : Keeps
    (· ∈ touched (.mailboxRequestCopy a0 a1 a2)) s t := by
  have : Fact True := ⟨trivial⟩
  exact (execMailboxRequestCopy_keeps (M := fun p => match p with | .host => True | _ => False)
    (Keeps.refl s) t h).weaken parts_host

theorem mailboxReplyCopy_keeps {a0} {a1} {s t : State} (h : exec (.mailboxReplyCopy a0 a1) s = .next t) : Keeps
    (· ∈ touched (.mailboxReplyCopy a0 a1)) s t := by
  have : Fact True := ⟨trivial⟩
  exact (execMailboxReplyCopy_keeps (M := fun p => match p with | .regs => True | .host => True | _ => False)
    (Keeps.refl s) t h).weaken parts_regs_host

theorem hubMbxCfg4Write_keeps {a0} {a1} {a2} {s t : State} (h : exec (.hubMbxCfg4Write a0 a1 a2) s = .next t) : Keeps
    (· ∈ touched (.hubMbxCfg4Write a0 a1 a2)) s t := by
  have : Fact True := ⟨trivial⟩
  exact (execHubMbxCfg4Write_keeps (M := fun p => match p with | .regs => True | .host => True | _ => False)
    (Keeps.refl s) t h).weaken parts_regs_host

theorem hubHeartbeat_keeps {a0} {a1} {s t : State} (h : exec (.hubHeartbeat a0 a1) s = .next t) : Keeps
    (· ∈ touched (.hubHeartbeat a0 a1)) s t := by
  have : Fact True := ⟨trivial⟩
  exact (execHubHeartbeat_keeps (_value := a1) (M := fun p => match p with | .host => True | _ => False)
    (Keeps.refl s) t h).weaken parts_host

theorem parts_ts_host : ∀ p, (fun p => match p with | .ts => True | .host => True | _ => False : Part → Prop) p → p ∈
    ([.ts, .host] : List Part) := by
  intro p; cases p <;> decide

theorem peerLost_keeps {a0} {s t : State} (h : exec (.peerLost a0) s = .next t) : Keeps (· ∈ touched (.peerLost a0)) s t := by
  have : Fact True := ⟨trivial⟩
  exact (execPeerLost_keeps (M := fun p => match p with | .ts => True | .host => True | _ => False)
    (Keeps.refl s) t h).weaken parts_ts_host

theorem stagedWrite_keeps {a0} {a1} {a2} {s t : State} (h : exec (.stagedWrite a0 a1 a2) s = .next t) : Keeps
    (· ∈ touched (.stagedWrite a0 a1 a2)) s t := by
  have : Fact True := ⟨trivial⟩
  exact (execStagedWrite_keeps (M := fun p => match p with | .regs => True | .host => True | _ => False)
    (Keeps.refl s) t h).weaken parts_regs_host

theorem huddleCheck_keeps {a0} {a1} {s t : State} (h : exec (.huddleCheck a0 a1) s = .next t) : Keeps
    (· ∈ touched (.huddleCheck a0 a1)) s t := by
  have : Fact True := ⟨trivial⟩
  exact (execHuddleCheck_keeps (M := fun p => match p with | .regs => True | .host => True | _ => False)
    (Keeps.refl s) t h).weaken parts_regs_host

theorem huddleApplyRequest_keeps {a0} {a1} {a2} {s t : State} (h : exec (.huddleApplyRequest a0 a1 a2) s = .next t) : Keeps
    (· ∈ touched (.huddleApplyRequest a0 a1 a2)) s t := by
  have : Fact True := ⟨trivial⟩
  exact (execHuddleApplyRequest_keeps (_check := a1) (M := fun p => match p with | .regs => True | .host => True | _ => False)
    (Keeps.refl s) t h).weaken parts_regs_host

theorem huddleDiscard_keeps {a0} {a1} {a2} {a3} {s t : State} (h : exec (.huddleDiscard a0 a1 a2 a3) s = .next t) : Keeps
    (· ∈ touched (.huddleDiscard a0 a1 a2 a3)) s t := by
  have : Fact True := ⟨trivial⟩
  exact (execHuddleDiscard_keeps (_check := a1) (_apply := a2) (M := fun p => match p with | .regs => True | .host => True | _ => False)
    (Keeps.refl s) t h).weaken parts_regs_host

theorem huddleCheckDone_keeps {a0} {s t : State} (h : exec (.huddleCheckDone a0) s = .next t) : Keeps
    (· ∈ touched (.huddleCheckDone a0)) s t := by
  have : Fact True := ⟨trivial⟩
  exact (execHuddleCheckDone_keeps (M := fun p => match p with | .free => True | .regs => True | .host => True | .ump => True | .lkr => True | .mem => True | .ref => True | .scb => True | .mgl => True | .rdc => True | .wst => True | .eng => True | .cells => True | _ => False)
    (Keeps.refl s) t h).weaken parts_free_regs_host_ump_lkr_mem_ref_scb_mgl_rdc_wst_eng_cells

theorem registerWrite_keeps {a0} {a1} {a2} {a3} {a4} {s t : State} (h : exec (.registerWrite a0 a1 a2 a3 a4) s = .next t) :
    Keeps (· ∈ touched (.registerWrite a0 a1 a2 a3 a4)) s t := by
  have : Fact True := ⟨trivial⟩
  exact (execRegisterWrite_keeps (M := fun p => match p with | .regs => True | .host => True | _ => False)
    (Keeps.refl s) t h).weaken parts_regs_host

theorem scbTsLoRead_keeps {a0} {s t : State} (h : exec (.scbTsLoRead a0) s = .next t) : Keeps (· ∈ touched (.scbTsLoRead a0))
    s t := by
  have : Fact True := ⟨trivial⟩
  exact (execScbTsLoRead_keeps (M := fun p => match p with | .host => True | _ => False)
    (Keeps.refl s) t h).weaken parts_host

theorem crtSatTotalLoRead_keeps {a0} {s t : State} (h : exec (.crtSatTotalLoRead a0) s = .next t) : Keeps
    (· ∈ touched (.crtSatTotalLoRead a0)) s t := by
  have : Fact True := ⟨trivial⟩
  exact (execCrtSatTotalLoRead_keeps (M := fun p => match p with | .host => True | _ => False)
    (Keeps.refl s) t h).weaken parts_host

theorem umpServeNoLoRead_keeps {a0} {s t : State} (h : exec (.umpServeNoLoRead a0) s = .next t) : Keeps
    (· ∈ touched (.umpServeNoLoRead a0)) s t := by
  have : Fact True := ⟨trivial⟩
  exact (execUmpServeNoLoRead_keeps (M := fun p => match p with | .host => True | _ => False)
    (Keeps.refl s) t h).weaken parts_host

theorem rdcGstepLoRead_keeps {a0} {s t : State} (h : exec (.rdcGstepLoRead a0) s = .next t) : Keeps
    (· ∈ touched (.rdcGstepLoRead a0)) s t := by
  have : Fact True := ⟨trivial⟩
  exact (execRdcGstepLoRead_keeps (M := fun p => match p with | .host => True | _ => False)
    (Keeps.refl s) t h).weaken parts_host

theorem clkThrNsLoRead_keeps {a0} {s t : State} (h : exec (.clkThrNsLoRead a0) s = .next t) : Keeps
    (· ∈ touched (.clkThrNsLoRead a0)) s t := by
  have : Fact True := ⟨trivial⟩
  exact (execClkThrNsLoRead_keeps (M := fun p => match p with | .host => True | _ => False)
    (Keeps.refl s) t h).weaken parts_host

theorem rstMgmtSeqLoRead_keeps {a0} {s t : State} (h : exec (.rstMgmtSeqLoRead a0) s = .next t) : Keeps
    (· ∈ touched (.rstMgmtSeqLoRead a0)) s t := by
  have : Fact True := ⟨trivial⟩
  exact (execRstMgmtSeqLoRead_keeps (M := fun p => match p with | .host => True | _ => False)
    (Keeps.refl s) t h).weaken parts_host

theorem hdlAppliedTsLoRead_keeps {a0} {s t : State} (h : exec (.hdlAppliedTsLoRead a0) s = .next t) : Keeps
    (· ∈ touched (.hdlAppliedTsLoRead a0)) s t := by
  have : Fact True := ⟨trivial⟩
  exact (execHdlAppliedTsLoRead_keeps (M := fun p => match p with | .host => True | _ => False)
    (Keeps.refl s) t h).weaken parts_host

theorem parts_ts_free_regs_host_ump_lkr_mem_pwr_scb_mgl_rdc_wst_eng_cells : ∀ p,
    (fun p => match p with | .ts => True | .free => True | .regs => True | .host => True | .ump => True | .lkr => True | .mem => True | .pwr => True | .scb => True | .mgl => True | .rdc => True | .wst => True | .eng => True | .cells => True | _ => False : Part → Prop)
    p → p ∈ ([.ts, .free, .regs, .host, .ump, .lkr, .mem, .pwr, .scb, .mgl, .rdc, .wst, .eng, .cells] : List Part) := by
  intro p; cases p <;> decide

theorem slotEnd_keeps {s t : State} (h : exec (.slotEnd) s = .next t) : Keeps (· ∈ touched (.slotEnd)) s t := by
  have : Fact True := ⟨trivial⟩
  exact (execSlotEnd_keeps (M := fun p => match p with | .ts => True | .free => True | .regs => True | .host => True | .ump => True | .lkr => True | .mem => True | .pwr => True | .scb => True | .mgl => True | .rdc => True | .wst => True | .eng => True | .cells => True | _ => False)
    (Keeps.refl s) t h).weaken parts_ts_free_regs_host_ump_lkr_mem_pwr_scb_mgl_rdc_wst_eng_cells

theorem parts_ts_free_regs_host_ump_lkr_mem_ref_scb_mgl_rdc_wst_eng_cells : ∀ p,
    (fun p => match p with | .ts => True | .free => True | .regs => True | .host => True | .ump => True | .lkr => True | .mem => True | .ref => True | .scb => True | .mgl => True | .rdc => True | .wst => True | .eng => True | .cells => True | _ => False : Part → Prop)
    p → p ∈ ([.ts, .free, .regs, .host, .ump, .lkr, .mem, .ref, .scb, .mgl, .rdc, .wst, .eng, .cells] : List Part) := by
  intro p; cases p <;> decide

theorem serveBoundary_keeps {s t : State} (h : exec (.serveBoundary) s = .next t) : Keeps (· ∈ touched (.serveBoundary)) s t := by
  have : Fact True := ⟨trivial⟩
  exact (execServeBoundary_keeps (M := fun p => match p with | .ts => True | .free => True | .regs => True | .host => True | .ump => True | .lkr => True | .mem => True | .ref => True | .scb => True | .mgl => True | .rdc => True | .wst => True | .eng => True | .cells => True | _ => False)
    (Keeps.refl s) t h).weaken parts_ts_free_regs_host_ump_lkr_mem_ref_scb_mgl_rdc_wst_eng_cells

theorem parts_ts_ump_rdc : ∀ p, (fun p => match p with | .ts => True | .ump => True | .rdc => True | _ => False : Part → Prop)
    p → p ∈ ([.ts, .ump, .rdc] : List Part) := by
  intro p; cases p <;> decide

theorem groupSlotStart_keeps {a0} {s t : State} (h : exec (.groupSlotStart a0) s = .next t) : Keeps
    (· ∈ touched (.groupSlotStart a0)) s t := by
  have : Fact True := ⟨trivial⟩
  exact (execGroupSlotStart_keeps (M := fun p => match p with | .ts => True | .ump => True | .rdc => True | _ => False)
    (Keeps.refl s) t h).weaken parts_ts_ump_rdc

theorem parts_ts_regs_host_ump : ∀ p,
    (fun p => match p with | .ts => True | .regs => True | .host => True | .ump => True | _ => False : Part → Prop) p → p ∈
    ([.ts, .regs, .host, .ump] : List Part) := by
  intro p; cases p <;> decide

theorem rsvWindowEnd_keeps {a0} {s t : State} (h : exec (.rsvWindowEnd a0) s = .next t) : Keeps
    (· ∈ touched (.rsvWindowEnd a0)) s t := by
  have : Fact True := ⟨trivial⟩
  exact (execRsvWindowEnd_keeps (M := fun p => match p with | .ts => True | .regs => True | .host => True | .ump => True | _ => False)
    (Keeps.refl s) t h).weaken parts_ts_regs_host_ump

theorem parts_ts_free_regs_host_ump_lkr_mem_scb_mgl_rdc_wst_eng_cells : ∀ p,
    (fun p => match p with | .ts => True | .free => True | .regs => True | .host => True | .ump => True | .lkr => True | .mem => True | .scb => True | .mgl => True | .rdc => True | .wst => True | .eng => True | .cells => True | _ => False : Part → Prop)
    p → p ∈ ([.ts, .free, .regs, .host, .ump, .lkr, .mem, .scb, .mgl, .rdc, .wst, .eng, .cells] : List Part) := by
  intro p; cases p <;> decide

theorem overrunLimit_keeps {s t : State} (h : exec (.overrunLimit) s = .next t) : Keeps (· ∈ touched (.overrunLimit)) s t := by
  have : Fact True := ⟨trivial⟩
  exact (execOverrunLimit_keeps (M := fun p => match p with | .ts => True | .free => True | .regs => True | .host => True | .ump => True | .lkr => True | .mem => True | .scb => True | .mgl => True | .rdc => True | .wst => True | .eng => True | .cells => True | _ => False)
    (Keeps.refl s) t h).weaken parts_ts_free_regs_host_ump_lkr_mem_scb_mgl_rdc_wst_eng_cells

theorem parts_free_regs_host_ump_lkr_mem_scb_mgl_rdc_wst_eng_cells : ∀ p,
    (fun p => match p with | .free => True | .regs => True | .host => True | .ump => True | .lkr => True | .mem => True | .scb => True | .mgl => True | .rdc => True | .wst => True | .eng => True | .cells => True | _ => False : Part → Prop)
    p → p ∈ ([.free, .regs, .host, .ump, .lkr, .mem, .scb, .mgl, .rdc, .wst, .eng, .cells] : List Part) := by
  intro p; cases p <;> decide

theorem urgentSubstitution_keeps {a0} {a1} {s t : State} (h : exec (.urgentSubstitution a0 a1) s = .next t) : Keeps
    (· ∈ touched (.urgentSubstitution a0 a1)) s t := by
  have : Fact True := ⟨trivial⟩
  exact (execUrgentSubstitution_keeps (M := fun p => match p with | .free => True | .regs => True | .host => True | .ump => True | .lkr => True | .mem => True | .scb => True | .mgl => True | .rdc => True | .wst => True | .eng => True | .cells => True | _ => False)
    (Keeps.refl s) t h).weaken parts_free_regs_host_ump_lkr_mem_scb_mgl_rdc_wst_eng_cells

theorem parts_free_regs_host_ump_lkr_scb_mgl_rdc_wst_eng : ∀ p,
    (fun p => match p with | .free => True | .regs => True | .host => True | .ump => True | .lkr => True | .scb => True | .mgl => True | .rdc => True | .wst => True | .eng => True | _ => False : Part → Prop)
    p → p ∈ ([.free, .regs, .host, .ump, .lkr, .scb, .mgl, .rdc, .wst, .eng] : List Part) := by
  intro p; cases p <;> decide

theorem segmentStart_keeps {s t : State} (h : exec (.segmentStart) s = .next t) : Keeps (· ∈ touched (.segmentStart)) s t := by
  have : Fact True := ⟨trivial⟩
  exact (execSegmentStart_keeps (M := fun p => match p with | .free => True | .regs => True | .host => True | .ump => True | .lkr => True | .scb => True | .mgl => True | .rdc => True | .wst => True | .eng => True | _ => False)
    (Keeps.refl s) t h).weaken parts_free_regs_host_ump_lkr_scb_mgl_rdc_wst_eng

theorem parts_free_host_ump_lkr_scb_mgl_rdc_wst_eng : ∀ p,
    (fun p => match p with | .free => True | .host => True | .ump => True | .lkr => True | .scb => True | .mgl => True | .rdc => True | .wst => True | .eng => True | _ => False : Part → Prop)
    p → p ∈ ([.free, .host, .ump, .lkr, .scb, .mgl, .rdc, .wst, .eng] : List Part) := by
  intro p; cases p <;> decide

theorem segmentEnd_keeps {s t : State} (h : exec (.segmentEnd) s = .next t) : Keeps (· ∈ touched (.segmentEnd)) s t := by
  have : Fact True := ⟨trivial⟩
  exact (execSegmentEnd_keeps (M := fun p => match p with | .free => True | .host => True | .ump => True | .lkr => True | .scb => True | .mgl => True | .rdc => True | .wst => True | .eng => True | _ => False)
    (Keeps.refl s) t h).weaken parts_free_host_ump_lkr_scb_mgl_rdc_wst_eng

theorem parts_free_ump_lkr_scb_mgl_rdc_wst_eng : ∀ p,
    (fun p => match p with | .free => True | .ump => True | .lkr => True | .scb => True | .mgl => True | .rdc => True | .wst => True | .eng => True | _ => False : Part → Prop)
    p → p ∈ ([.free, .ump, .lkr, .scb, .mgl, .rdc, .wst, .eng] : List Part) := by
  intro p; cases p <;> decide

theorem serveEnd_keeps {s t : State} (h : exec (.serveEnd) s = .next t) : Keeps (· ∈ touched (.serveEnd)) s t := by
  have : Fact True := ⟨trivial⟩
  exact (execServeEnd_keeps (M := fun p => match p with | .free => True | .ump => True | .lkr => True | .scb => True | .mgl => True | .rdc => True | .wst => True | .eng => True | _ => False)
    (Keeps.refl s) t h).weaken parts_free_ump_lkr_scb_mgl_rdc_wst_eng

theorem layerStreamStart_keeps {s t : State} (h : exec (.layerStreamStart) s = .next t) : Keeps
    (· ∈ touched (.layerStreamStart)) s t := by
  have : Fact True := ⟨trivial⟩
  exact (execLayerStreamStart_keeps (M := fun p => match p with | .free => True | .regs => True | .host => True | .ump => True | .lkr => True | .mem => True | .scb => True | .mgl => True | .rdc => True | .wst => True | .eng => True | .cells => True | _ => False)
    (Keeps.refl s) t h).weaken parts_free_regs_host_ump_lkr_mem_scb_mgl_rdc_wst_eng_cells

theorem parts_free_regs_host_ump_mem_scb_wst_cells : ∀ p,
    (fun p => match p with | .free => True | .regs => True | .host => True | .ump => True | .mem => True | .scb => True | .wst => True | .cells => True | _ => False : Part → Prop)
    p → p ∈ ([.free, .regs, .host, .ump, .mem, .scb, .wst, .cells] : List Part) := by
  intro p; cases p <;> decide

theorem streamEntryComplete_keeps {s t : State} (h : exec (.streamEntryComplete) s = .next t) : Keeps
    (· ∈ touched (.streamEntryComplete)) s t := by
  have : Fact True := ⟨trivial⟩
  exact (execStreamEntryComplete_keeps (M := fun p => match p with | .free => True | .regs => True | .host => True | .ump => True | .mem => True | .scb => True | .wst => True | .cells => True | _ => False)
    (Keeps.refl s) t h).weaken parts_free_regs_host_ump_mem_scb_wst_cells

theorem parts_regs_host_wst : ∀ p,
    (fun p => match p with | .regs => True | .host => True | .wst => True | _ => False : Part → Prop) p → p ∈
    ([.regs, .host, .wst] : List Part) := by
  intro p; cases p <;> decide

theorem layerComputeStart_keeps {s t : State} (h : exec (.layerComputeStart) s = .next t) : Keeps
    (· ∈ touched (.layerComputeStart)) s t := by
  have : Fact True := ⟨trivial⟩
  exact (execLayerComputeStart_keeps (M := fun p => match p with | .regs => True | .host => True | .wst => True | _ => False)
    (Keeps.refl s) t h).weaken parts_regs_host_wst

theorem parts_lkr : ∀ p, (fun p => match p with | .lkr => True | _ => False : Part → Prop) p → p ∈ ([.lkr] : List Part) := by
  intro p; cases p <;> decide

theorem prefixGatherStart_keeps {a0} {s t : State} (h : exec (.prefixGatherStart a0) s = .next t) : Keeps
    (· ∈ touched (.prefixGatherStart a0)) s t := by
  have : Fact True := ⟨trivial⟩
  exact (execPrefixGatherStart_keeps (M := fun p => match p with | .lkr => True | _ => False)
    (Keeps.refl s) t h).weaken parts_lkr

theorem parts_free_regs_ump_lkr_mem_scb_cells : ∀ p,
    (fun p => match p with | .free => True | .regs => True | .ump => True | .lkr => True | .mem => True | .scb => True | .cells => True | _ => False : Part → Prop)
    p → p ∈ ([.free, .regs, .ump, .lkr, .mem, .scb, .cells] : List Part) := by
  intro p; cases p <;> decide

theorem prefixGatherComplete_keeps {a0} {s t : State} (h : exec (.prefixGatherComplete a0) s = .next t) : Keeps
    (· ∈ touched (.prefixGatherComplete a0)) s t := by
  have : Fact True := ⟨trivial⟩
  exact (execPrefixGatherComplete_keeps (M := fun p => match p with | .free => True | .regs => True | .ump => True | .lkr => True | .mem => True | .scb => True | .cells => True | _ => False)
    (Keeps.refl s) t h).weaken parts_free_regs_ump_lkr_mem_scb_cells

theorem kvWriteback_keeps {a0} {a1} {s t : State} (h : exec (.kvWriteback a0 a1) s = .next t) : Keeps
    (· ∈ touched (.kvWriteback a0 a1)) s t := by
  have : Fact True := ⟨trivial⟩
  exact (execKvWriteback_keeps (M := fun p => match p with | .free => True | .regs => True | .host => True | .ump => True | .mem => True | .scb => True | .cells => True | _ => False)
    (Keeps.refl s) t h).weaken parts_free_regs_host_ump_mem_scb_cells

theorem parts_ump : ∀ p, (fun p => match p with | .ump => True | _ => False : Part → Prop) p → p ∈ ([.ump] : List Part) := by
  intro p; cases p <;> decide

theorem kvWritebackDone_keeps {a0} {a1} {s t : State} (h : exec (.kvWritebackDone a0 a1) s = .next t) : Keeps
    (· ∈ touched (.kvWritebackDone a0 a1)) s t := by
  have : Fact True := ⟨trivial⟩
  exact (execKvWritebackDone_keeps (M := fun p => match p with | .ump => True | _ => False)
    (Keeps.refl s) t h).weaken parts_ump

theorem parts_free_regs_ump_scb_eng : ∀ p,
    (fun p => match p with | .free => True | .regs => True | .ump => True | .scb => True | .eng => True | _ => False : Part → Prop)
    p → p ∈ ([.free, .regs, .ump, .scb, .eng] : List Part) := by
  intro p; cases p <;> decide

theorem mma_keeps {a0} {a1} {s t : State} (h : exec (.mma a0 a1) s = .next t) : Keeps (· ∈ touched (.mma a0 a1)) s t := by
  have : Fact True := ⟨trivial⟩
  exact (execMma_keeps (M := fun p => match p with | .free => True | .regs => True | .ump => True | .scb => True | .eng => True | _ => False)
    (Keeps.refl s) t h).weaken parts_free_regs_ump_scb_eng

theorem parts_eng : ∀ p, (fun p => match p with | .eng => True | _ => False : Part → Prop) p → p ∈ ([.eng] : List Part) := by
  intro p; cases p <;> decide

theorem mmaPair_keeps {a0} {a1} {s t : State} (h : exec (.mmaPair a0 a1) s = .next t) : Keeps (· ∈ touched (.mmaPair a0 a1)) s
    t := by
  have : Fact True := ⟨trivial⟩
  exact (execMmaPair_keeps (M := fun p => match p with | .eng => True | _ => False)
    (Keeps.refl s) t h).weaken parts_eng

theorem parts_free_regs_ump_mem_scb_eng_cells : ∀ p,
    (fun p => match p with | .free => True | .regs => True | .ump => True | .mem => True | .scb => True | .eng => True | .cells => True | _ => False : Part → Prop)
    p → p ∈ ([.free, .regs, .ump, .mem, .scb, .eng, .cells] : List Part) := by
  intro p; cases p <;> decide

theorem tileDrain_keeps {a0} {a1} {s t : State} (h : exec (.tileDrain a0 a1) s = .next t) : Keeps
    (· ∈ touched (.tileDrain a0 a1)) s t := by
  have : Fact True := ⟨trivial⟩
  exact (execTileDrain_keeps (M := fun p => match p with | .free => True | .regs => True | .ump => True | .mem => True | .scb => True | .eng => True | .cells => True | _ => False)
    (Keeps.refl s) t h).weaken parts_free_regs_ump_mem_scb_eng_cells

theorem tileWait_keeps {a0} {a1} {s t : State} (h : exec (.tileWait a0 a1) s = .next t) : Keeps
    (· ∈ touched (.tileWait a0 a1)) s t := by
  have : Fact True := ⟨trivial⟩
  exact (execTileWait_keeps (M := fun p => match p with | .eng => True | _ => False)
    (Keeps.refl s) t h).weaken parts_eng

theorem parts_ump_eng : ∀ p, (fun p => match p with | .ump => True | .eng => True | _ => False : Part → Prop) p → p ∈
    ([.ump, .eng] : List Part) := by
  intro p; cases p <;> decide

theorem tileSignal_keeps {a0} {a1} {s t : State} (h : exec (.tileSignal a0 a1) s = .next t) : Keeps
    (· ∈ touched (.tileSignal a0 a1)) s t := by
  have : Fact True := ⟨trivial⟩
  exact (execTileSignal_keeps (M := fun p => match p with | .ump => True | .eng => True | _ => False)
    (Keeps.refl s) t h).weaken parts_ump_eng

theorem tileEnd_keeps {a0} {a1} {s t : State} (h : exec (.tileEnd a0 a1) s = .next t) : Keeps (· ∈ touched (.tileEnd a0 a1)) s
    t := by
  have : Fact True := ⟨trivial⟩
  exact (execTileEnd_keeps (M := fun p => match p with | .eng => True | _ => False)
    (Keeps.refl s) t h).weaken parts_eng

theorem semaphoreReached_keeps {a0} {s t : State} (h : exec (.semaphoreReached a0) s = .next t) : Keeps
    (· ∈ touched (.semaphoreReached a0)) s t := by
  have : Fact True := ⟨trivial⟩
  exact (execSemaphoreReached_keeps (M := fun p => match p with | .eng => True | _ => False)
    (Keeps.refl s) t h).weaken parts_eng

theorem parts_free_regs_host_ump_mem_scb_eng_cells : ∀ p,
    (fun p => match p with | .free => True | .regs => True | .host => True | .ump => True | .mem => True | .scb => True | .eng => True | .cells => True | _ => False : Part → Prop)
    p → p ∈ ([.free, .regs, .host, .ump, .mem, .scb, .eng, .cells] : List Part) := by
  intro p; cases p <;> decide

theorem ew_keeps {a0} {a1} {s t : State} (h : exec (.ew a0 a1) s = .next t) : Keeps (· ∈ touched (.ew a0 a1)) s t := by
  have : Fact True := ⟨trivial⟩
  exact (execEw_keeps (M := fun p => match p with | .free => True | .regs => True | .host => True | .ump => True | .mem => True | .scb => True | .eng => True | .cells => True | _ => False)
    (Keeps.refl s) t h).weaken parts_free_regs_host_ump_mem_scb_eng_cells

theorem red_keeps {a0} {a1} {s t : State} (h : exec (.red a0 a1) s = .next t) : Keeps (· ∈ touched (.red a0 a1)) s t := by
  have : Fact True := ⟨trivial⟩
  exact (execRed_keeps (M := fun p => match p with | .free => True | .regs => True | .host => True | .ump => True | .mem => True | .scb => True | .eng => True | .cells => True | _ => False)
    (Keeps.refl s) t h).weaken parts_free_regs_host_ump_mem_scb_eng_cells

theorem softmax_keeps {a0} {a1} {s t : State} (h : exec (.softmax a0 a1) s = .next t) : Keeps (· ∈ touched (.softmax a0 a1)) s
    t := by
  have : Fact True := ⟨trivial⟩
  exact (execSoftmax_keeps (M := fun p => match p with | .free => True | .regs => True | .host => True | .ump => True | .mem => True | .scb => True | .eng => True | .cells => True | _ => False)
    (Keeps.refl s) t h).weaken parts_free_regs_host_ump_mem_scb_eng_cells

theorem lnorm_keeps {a0} {a1} {s t : State} (h : exec (.lnorm a0 a1) s = .next t) : Keeps (· ∈ touched (.lnorm a0 a1)) s t := by
  have : Fact True := ⟨trivial⟩
  exact (execLnorm_keeps (M := fun p => match p with | .free => True | .regs => True | .host => True | .ump => True | .mem => True | .scb => True | .eng => True | .cells => True | _ => False)
    (Keeps.refl s) t h).weaken parts_free_regs_host_ump_mem_scb_eng_cells

theorem rmsnorm_keeps {a0} {a1} {s t : State} (h : exec (.rmsnorm a0 a1) s = .next t) : Keeps (· ∈ touched (.rmsnorm a0 a1)) s
    t := by
  have : Fact True := ⟨trivial⟩
  exact (execRmsnorm_keeps (M := fun p => match p with | .free => True | .regs => True | .host => True | .ump => True | .mem => True | .scb => True | .eng => True | .cells => True | _ => False)
    (Keeps.refl s) t h).weaken parts_free_regs_host_ump_mem_scb_eng_cells

theorem route_keeps {a0} {a1} {s t : State} (h : exec (.route a0 a1) s = .next t) : Keeps (· ∈ touched (.route a0 a1)) s t := by
  have : Fact True := ⟨trivial⟩
  exact (execRoute_keeps (M := fun p => match p with | .free => True | .regs => True | .host => True | .ump => True | .mem => True | .scb => True | .eng => True | .cells => True | _ => False)
    (Keeps.refl s) t h).weaken parts_free_regs_host_ump_mem_scb_eng_cells

theorem loss_keeps {a0} {a1} {s t : State} (h : exec (.loss a0 a1) s = .next t) : Keeps (· ∈ touched (.loss a0 a1)) s t := by
  have : Fact True := ⟨trivial⟩
  exact (execLoss_keeps (M := fun p => match p with | .free => True | .regs => True | .host => True | .ump => True | .mem => True | .scb => True | .eng => True | .cells => True | _ => False)
    (Keeps.refl s) t h).weaken parts_free_regs_host_ump_mem_scb_eng_cells

theorem combine_keeps {a0} {a1} {s t : State} (h : exec (.combine a0 a1) s = .next t) : Keeps (· ∈ touched (.combine a0 a1)) s
    t := by
  have : Fact True := ⟨trivial⟩
  exact (execCombine_keeps (M := fun p => match p with | .free => True | .regs => True | .host => True | .ump => True | .mem => True | .scb => True | .eng => True | .cells => True | _ => False)
    (Keeps.refl s) t h).weaken parts_free_regs_host_ump_mem_scb_eng_cells

theorem opt_keeps {a0} {a1} {s t : State} (h : exec (.opt a0 a1) s = .next t) : Keeps (· ∈ touched (.opt a0 a1)) s t := by
  have : Fact True := ⟨trivial⟩
  exact (execOpt_keeps (M := fun p => match p with | .free => True | .regs => True | .host => True | .ump => True | .mem => True | .scb => True | .eng => True | .cells => True | _ => False)
    (Keeps.refl s) t h).weaken parts_free_regs_host_ump_mem_scb_eng_cells

theorem scan_keeps {a0} {a1} {s t : State} (h : exec (.scan a0 a1) s = .next t) : Keeps (· ∈ touched (.scan a0 a1)) s t := by
  have : Fact True := ⟨trivial⟩
  exact (execScan_keeps (M := fun p => match p with | .free => True | .regs => True | .host => True | .ump => True | .mem => True | .scb => True | .eng => True | .cells => True | _ => False)
    (Keeps.refl s) t h).weaken parts_free_regs_host_ump_mem_scb_eng_cells

theorem softmaxBwd_keeps {a0} {a1} {s t : State} (h : exec (.softmaxBwd a0 a1) s = .next t) : Keeps
    (· ∈ touched (.softmaxBwd a0 a1)) s t := by
  have : Fact True := ⟨trivial⟩
  exact (execSoftmaxBwd_keeps (M := fun p => match p with | .free => True | .regs => True | .host => True | .ump => True | .mem => True | .scb => True | .eng => True | .cells => True | _ => False)
    (Keeps.refl s) t h).weaken parts_free_regs_host_ump_mem_scb_eng_cells

theorem normBwd_keeps {a0} {a1} {s t : State} (h : exec (.normBwd a0 a1) s = .next t) : Keeps (· ∈ touched (.normBwd a0 a1)) s
    t := by
  have : Fact True := ⟨trivial⟩
  exact (execNormBwd_keeps (M := fun p => match p with | .free => True | .regs => True | .host => True | .ump => True | .mem => True | .scb => True | .eng => True | .cells => True | _ => False)
    (Keeps.refl s) t h).weaken parts_free_regs_host_ump_mem_scb_eng_cells

theorem vecWait_keeps {a0} {a1} {s t : State} (h : exec (.vecWait a0 a1) s = .next t) : Keeps (· ∈ touched (.vecWait a0 a1)) s
    t := by
  have : Fact True := ⟨trivial⟩
  exact (execVecWait_keeps (M := fun p => match p with | .eng => True | _ => False)
    (Keeps.refl s) t h).weaken parts_eng

theorem vecSignal_keeps {a0} {a1} {s t : State} (h : exec (.vecSignal a0 a1) s = .next t) : Keeps
    (· ∈ touched (.vecSignal a0 a1)) s t := by
  have : Fact True := ⟨trivial⟩
  exact (execVecSignal_keeps (M := fun p => match p with | .ump => True | .eng => True | _ => False)
    (Keeps.refl s) t h).weaken parts_ump_eng

theorem vecEnd_keeps {a0} {a1} {s t : State} (h : exec (.vecEnd a0 a1) s = .next t) : Keeps (· ∈ touched (.vecEnd a0 a1)) s t
    := by
  have : Fact True := ⟨trivial⟩
  exact (execVecEnd_keeps (M := fun p => match p with | .eng => True | _ => False)
    (Keeps.refl s) t h).weaken parts_eng

theorem copy_keeps {a0} {a1} {s t : State} (h : exec (.copy a0 a1) s = .next t) : Keeps (· ∈ touched (.copy a0 a1)) s t := by
  have : Fact True := ⟨trivial⟩
  exact (execCopy_keeps (M := fun p => match p with | .free => True | .regs => True | .host => True | .ump => True | .mem => True | .scb => True | .eng => True | .cells => True | _ => False)
    (Keeps.refl s) t h).weaken parts_free_regs_host_ump_mem_scb_eng_cells

theorem listCopy_keeps {a0} {a1} {s t : State} (h : exec (.listCopy a0 a1) s = .next t) : Keeps
    (· ∈ touched (.listCopy a0 a1)) s t := by
  have : Fact True := ⟨trivial⟩
  exact (execListCopy_keeps (M := fun p => match p with | .free => True | .regs => True | .host => True | .ump => True | .mem => True | .scb => True | .eng => True | .cells => True | _ => False)
    (Keeps.refl s) t h).weaken parts_free_regs_host_ump_mem_scb_eng_cells

theorem embag_keeps {a0} {a1} {s t : State} (h : exec (.embag a0 a1) s = .next t) : Keeps (· ∈ touched (.embag a0 a1)) s t := by
  have : Fact True := ⟨trivial⟩
  exact (execEmbag_keeps (M := fun p => match p with | .free => True | .regs => True | .host => True | .ump => True | .mem => True | .scb => True | .eng => True | .cells => True | _ => False)
    (Keeps.refl s) t h).weaken parts_free_regs_host_ump_mem_scb_eng_cells

theorem embagBwd_keeps {a0} {a1} {s t : State} (h : exec (.embagBwd a0 a1) s = .next t) : Keeps
    (· ∈ touched (.embagBwd a0 a1)) s t := by
  have : Fact True := ⟨trivial⟩
  exact (execEmbagBwd_keeps (M := fun p => match p with | .free => True | .regs => True | .host => True | .ump => True | .mem => True | .scb => True | .eng => True | .cells => True | _ => False)
    (Keeps.refl s) t h).weaken parts_free_regs_host_ump_mem_scb_eng_cells

theorem gatherWait_keeps {a0} {a1} {s t : State} (h : exec (.gatherWait a0 a1) s = .next t) : Keeps
    (· ∈ touched (.gatherWait a0 a1)) s t := by
  have : Fact True := ⟨trivial⟩
  exact (execGatherWait_keeps (M := fun p => match p with | .eng => True | _ => False)
    (Keeps.refl s) t h).weaken parts_eng

theorem gatherSignal_keeps {a0} {a1} {s t : State} (h : exec (.gatherSignal a0 a1) s = .next t) : Keeps
    (· ∈ touched (.gatherSignal a0 a1)) s t := by
  have : Fact True := ⟨trivial⟩
  exact (execGatherSignal_keeps (M := fun p => match p with | .ump => True | .eng => True | _ => False)
    (Keeps.refl s) t h).weaken parts_ump_eng

theorem gatherEnd_keeps {a0} {a1} {s t : State} (h : exec (.gatherEnd a0 a1) s = .next t) : Keeps
    (· ∈ touched (.gatherEnd a0 a1)) s t := by
  have : Fact True := ⟨trivial⟩
  exact (execGatherEnd_keeps (M := fun p => match p with | .eng => True | _ => False)
    (Keeps.refl s) t h).weaken parts_eng

theorem allreduce_keeps {a0} {a1} {s t : State} (h : exec (.allreduce a0 a1) s = .next t) : Keeps
    (· ∈ touched (.allreduce a0 a1)) s t := by
  have : Fact True := ⟨trivial⟩
  exact (execAllreduce_keeps (M := fun p => match p with | .free => True | .regs => True | .host => True | .ump => True | .lkr => True | .mem => True | .scb => True | .mgl => True | .rdc => True | .wst => True | .eng => True | .cells => True | _ => False)
    (Keeps.refl s) t h).weaken parts_free_regs_host_ump_lkr_mem_scb_mgl_rdc_wst_eng_cells

theorem reduce_keeps {a0} {a1} {s t : State} (h : exec (.reduce a0 a1) s = .next t) : Keeps (· ∈ touched (.reduce a0 a1)) s t
    := by
  have : Fact True := ⟨trivial⟩
  exact (execReduce_keeps (M := fun p => match p with | .free => True | .regs => True | .host => True | .ump => True | .lkr => True | .mem => True | .scb => True | .mgl => True | .rdc => True | .wst => True | .eng => True | .cells => True | _ => False)
    (Keeps.refl s) t h).weaken parts_free_regs_host_ump_lkr_mem_scb_mgl_rdc_wst_eng_cells

theorem parts_free_regs_ump_mem_scb_mgl_rdc_eng_cells : ∀ p,
    (fun p => match p with | .free => True | .regs => True | .ump => True | .mem => True | .scb => True | .mgl => True | .rdc => True | .eng => True | .cells => True | _ => False : Part → Prop)
    p → p ∈ ([.free, .regs, .ump, .mem, .scb, .mgl, .rdc, .eng, .cells] : List Part) := by
  intro p; cases p <;> decide

theorem bcast_keeps {a0} {a1} {s t : State} (h : exec (.bcast a0 a1) s = .next t) : Keeps (· ∈ touched (.bcast a0 a1)) s t := by
  have : Fact True := ⟨trivial⟩
  exact (execBcast_keeps (M := fun p => match p with | .free => True | .regs => True | .ump => True | .mem => True | .scb => True | .mgl => True | .rdc => True | .eng => True | .cells => True | _ => False)
    (Keeps.refl s) t h).weaken parts_free_regs_ump_mem_scb_mgl_rdc_eng_cells

theorem allgather_keeps {a0} {a1} {s t : State} (h : exec (.allgather a0 a1) s = .next t) : Keeps
    (· ∈ touched (.allgather a0 a1)) s t := by
  have : Fact True := ⟨trivial⟩
  exact (execAllgather_keeps (M := fun p => match p with | .free => True | .regs => True | .ump => True | .mem => True | .scb => True | .mgl => True | .rdc => True | .eng => True | .cells => True | _ => False)
    (Keeps.refl s) t h).weaken parts_free_regs_ump_mem_scb_mgl_rdc_eng_cells

theorem dispatch_keeps {a0} {a1} {s t : State} (h : exec (.dispatch a0 a1) s = .next t) : Keeps
    (· ∈ touched (.dispatch a0 a1)) s t := by
  have : Fact True := ⟨trivial⟩
  exact (execDispatch_keeps (M := fun p => match p with | .free => True | .regs => True | .ump => True | .mem => True | .scb => True | .mgl => True | .rdc => True | .eng => True | .cells => True | _ => False)
    (Keeps.refl s) t h).weaken parts_free_regs_ump_mem_scb_mgl_rdc_eng_cells

theorem channelCombine_keeps {a0} {a1} {s t : State} (h : exec (.channelCombine a0 a1) s = .next t) : Keeps
    (· ∈ touched (.channelCombine a0 a1)) s t := by
  have : Fact True := ⟨trivial⟩
  exact (execChannelCombine_keeps (M := fun p => match p with | .free => True | .regs => True | .ump => True | .mem => True | .scb => True | .mgl => True | .rdc => True | .eng => True | .cells => True | _ => False)
    (Keeps.refl s) t h).weaken parts_free_regs_ump_mem_scb_mgl_rdc_eng_cells

theorem channelWait_keeps {a0} {a1} {s t : State} (h : exec (.channelWait a0 a1) s = .next t) : Keeps
    (· ∈ touched (.channelWait a0 a1)) s t := by
  have : Fact True := ⟨trivial⟩
  exact (execChannelWait_keeps (M := fun p => match p with | .eng => True | _ => False)
    (Keeps.refl s) t h).weaken parts_eng

theorem channelSignal_keeps {a0} {a1} {s t : State} (h : exec (.channelSignal a0 a1) s = .next t) : Keeps
    (· ∈ touched (.channelSignal a0 a1)) s t := by
  have : Fact True := ⟨trivial⟩
  exact (execChannelSignal_keeps (M := fun p => match p with | .ump => True | .eng => True | _ => False)
    (Keeps.refl s) t h).weaken parts_ump_eng

theorem channelEnd_keeps {a0} {a1} {s t : State} (h : exec (.channelEnd a0 a1) s = .next t) : Keeps
    (· ∈ touched (.channelEnd a0 a1)) s t := by
  have : Fact True := ⟨trivial⟩
  exact (execChannelEnd_keeps (M := fun p => match p with | .eng => True | _ => False)
    (Keeps.refl s) t h).weaken parts_eng

theorem rdcDataReceive_keeps {s t : State} (h : exec (.rdcDataReceive) s = .next t) : Keeps (· ∈ touched (.rdcDataReceive)) s
    t := by
  have : Fact True := ⟨trivial⟩
  exact (execRdcDataReceive_keeps (M := fun p => match p with | .free => True | .regs => True | .host => True | .ump => True | .lkr => True | .mem => True | .scb => True | .mgl => True | .rdc => True | .wst => True | .eng => True | .cells => True | _ => False)
    (Keeps.refl s) t h).weaken parts_free_regs_host_ump_lkr_mem_scb_mgl_rdc_wst_eng_cells

theorem parts_free_regs_ump_mem_scb_mgl_rdc_cells : ∀ p,
    (fun p => match p with | .free => True | .regs => True | .ump => True | .mem => True | .scb => True | .mgl => True | .rdc => True | .cells => True | _ => False : Part → Prop)
    p → p ∈ ([.free, .regs, .ump, .mem, .scb, .mgl, .rdc, .cells] : List Part) := by
  intro p; cases p <;> decide

theorem fbCountsReceive_keeps {s t : State} (h : exec (.fbCountsReceive) s = .next t) : Keeps (· ∈ touched (.fbCountsReceive))
    s t := by
  have : Fact True := ⟨trivial⟩
  exact (execFbCountsReceive_keeps (M := fun p => match p with | .free => True | .regs => True | .ump => True | .mem => True | .scb => True | .mgl => True | .rdc => True | .cells => True | _ => False)
    (Keeps.refl s) t h).weaken parts_free_regs_ump_mem_scb_mgl_rdc_cells

theorem fbRowReceive_keeps {s t : State} (h : exec (.fbRowReceive) s = .next t) : Keeps (· ∈ touched (.fbRowReceive)) s t := by
  have : Fact True := ⟨trivial⟩
  exact (execFbRowReceive_keeps (M := fun p => match p with | .free => True | .regs => True | .ump => True | .mem => True | .scb => True | .mgl => True | .rdc => True | .cells => True | _ => False)
    (Keeps.refl s) t h).weaken parts_free_regs_ump_mem_scb_mgl_rdc_cells

theorem fbReturnReceive_keeps {s t : State} (h : exec (.fbReturnReceive) s = .next t) : Keeps (· ∈ touched (.fbReturnReceive))
    s t := by
  have : Fact True := ⟨trivial⟩
  exact (execFbReturnReceive_keeps (M := fun p => match p with | .free => True | .regs => True | .ump => True | .mem => True | .scb => True | .mgl => True | .rdc => True | .cells => True | _ => False)
    (Keeps.refl s) t h).weaken parts_free_regs_ump_mem_scb_mgl_rdc_cells

theorem dueNsDeadline_keeps {a0} {s t : State} (h : exec (.dueNsDeadline a0) s = .next t) : Keeps
    (· ∈ touched (.dueNsDeadline a0)) s t := by
  have : Fact True := ⟨trivial⟩
  exact (execDueNsDeadline_keeps (M := fun p => match p with | .ts => True | .free => True | .regs => True | .host => True | .ump => True | .lkr => True | .mem => True | .scb => True | .mgl => True | .rdc => True | .wst => True | .eng => True | .cells => True | _ => False)
    (Keeps.refl s) t h).weaken parts_ts_free_regs_host_ump_lkr_mem_scb_mgl_rdc_wst_eng_cells

theorem voteSend_keeps {s t : State} (h : exec (.voteSend) s = .next t) : Keeps (· ∈ touched (.voteSend)) s t := by
  have : Fact True := ⟨trivial⟩
  exact (execVoteSend_keeps (M := fun p => match p with | .ts => True | .free => True | .regs => True | .host => True | .ump => True | .lkr => True | .mem => True | .scb => True | .mgl => True | .rdc => True | .wst => True | .eng => True | .cells => True | _ => False)
    (Keeps.refl s) t h).weaken parts_ts_free_regs_host_ump_lkr_mem_scb_mgl_rdc_wst_eng_cells

theorem parts_regs_ump_scb_mgl_rdc : ∀ p,
    (fun p => match p with | .regs => True | .ump => True | .scb => True | .mgl => True | .rdc => True | _ => False : Part → Prop)
    p → p ∈ ([.regs, .ump, .scb, .mgl, .rdc] : List Part) := by
  intro p; cases p <;> decide

theorem voteReceive_keeps {s t : State} (h : exec (.voteReceive) s = .next t) : Keeps (· ∈ touched (.voteReceive)) s t := by
  have : Fact True := ⟨trivial⟩
  exact (execVoteReceive_keeps (M := fun p => match p with | .regs => True | .ump => True | .scb => True | .mgl => True | .rdc => True | _ => False)
    (Keeps.refl s) t h).weaken parts_regs_ump_scb_mgl_rdc

theorem voteForwardBound_keeps {s t : State} (h : exec (.voteForwardBound) s = .next t) : Keeps
    (· ∈ touched (.voteForwardBound)) s t := by
  have : Fact True := ⟨trivial⟩
  exact (execVoteForwardBound_keeps (M := fun p => match p with | .ts => True | .free => True | .regs => True | .host => True | .ump => True | .lkr => True | .mem => True | .scb => True | .mgl => True | .rdc => True | .wst => True | .eng => True | .cells => True | _ => False)
    (Keeps.refl s) t h).weaken parts_ts_free_regs_host_ump_lkr_mem_scb_mgl_rdc_wst_eng_cells

theorem verdictReceive_keeps {s t : State} (h : exec (.verdictReceive) s = .next t) : Keeps (· ∈ touched (.verdictReceive)) s
    t := by
  have : Fact True := ⟨trivial⟩
  exact (execVerdictReceive_keeps (M := fun p => match p with | .regs => True | .ump => True | .scb => True | .mgl => True | .rdc => True | _ => False)
    (Keeps.refl s) t h).weaken parts_regs_ump_scb_mgl_rdc

theorem verdictTimeout_keeps {s t : State} (h : exec (.verdictTimeout) s = .next t) : Keeps (· ∈ touched (.verdictTimeout)) s
    t := by
  have : Fact True := ⟨trivial⟩
  exact (execVerdictTimeout_keeps (M := fun p => match p with | .ts => True | .free => True | .regs => True | .host => True | .ump => True | .lkr => True | .mem => True | .scb => True | .mgl => True | .rdc => True | .wst => True | .eng => True | .cells => True | _ => False)
    (Keeps.refl s) t h).weaken parts_ts_free_regs_host_ump_lkr_mem_scb_mgl_rdc_wst_eng_cells

theorem portUp_keeps {a0} {a1} {s t : State} (h : exec (.portUp a0 a1) s = .next t) : Keeps (· ∈ touched (.portUp a0 a1)) s t
    := by
  have : Fact True := ⟨trivial⟩
  exact (execPortUp_keeps (M := fun p => match p with | .mgl => True | _ => False)
    (Keeps.refl s) t h).weaken parts_mgl

theorem parts_ts_free_regs_host_err_scb_mgl : ∀ p,
    (fun p => match p with | .ts => True | .free => True | .regs => True | .host => True | .err => True | .scb => True | .mgl => True | _ => False : Part → Prop)
    p → p ∈ ([.ts, .free, .regs, .host, .err, .scb, .mgl] : List Part) := by
  intro p; cases p <;> decide

theorem portRetry_keeps {a0} {s t : State} (h : exec (.portRetry a0) s = .next t) : Keeps (· ∈ touched (.portRetry a0)) s t := by
  have : Fact True := ⟨trivial⟩
  exact (execPortRetry_keeps (M := fun p => match p with | .ts => True | .free => True | .regs => True | .host => True | .err => True | .scb => True | .mgl => True | _ => False)
    (Keeps.refl s) t h).weaken parts_ts_free_regs_host_err_scb_mgl

theorem parts_free_regs_host_err_scb_mgl : ∀ p,
    (fun p => match p with | .free => True | .regs => True | .host => True | .err => True | .scb => True | .mgl => True | _ => False : Part → Prop)
    p → p ∈ ([.free, .regs, .host, .err, .scb, .mgl] : List Part) := by
  intro p; cases p <;> decide

theorem frameReceive_keeps {a0} {a1} {s t : State} (h : exec (.frameReceive a0 a1) s = .next t) : Keeps
    (· ∈ touched (.frameReceive a0 a1)) s t := by
  have : Fact True := ⟨trivial⟩
  exact (execFrameReceive_keeps (M := fun p => match p with | .free => True | .regs => True | .host => True | .err => True | .scb => True | .mgl => True | _ => False)
    (Keeps.refl s) t h).weaken parts_free_regs_host_err_scb_mgl

theorem lmcReplayRequest_keeps {a0} {a1} {s t : State} (h : exec (.lmcReplayRequest a0 a1) s = .next t) : Keeps
    (· ∈ touched (.lmcReplayRequest a0 a1)) s t := by
  have : Fact True := ⟨trivial⟩
  exact (execLmcReplayRequest_keeps (M := fun p => match p with | .free => True | .regs => True | .host => True | .err => True | .scb => True | .mgl => True | _ => False)
    (Keeps.refl s) t h).weaken parts_free_regs_host_err_scb_mgl

theorem lmcCreditReturn_keeps {a0} {a1} {a2} {s t : State} (h : exec (.lmcCreditReturn a0 a1 a2) s = .next t) : Keeps
    (· ∈ touched (.lmcCreditReturn a0 a1 a2)) s t := by
  have : Fact True := ⟨trivial⟩
  exact (execLmcCreditReturn_keeps (M := fun p => match p with | .mgl => True | _ => False)
    (Keeps.refl s) t h).weaken parts_mgl

theorem parts_free_regs_host_scb_mgl : ∀ p,
    (fun p => match p with | .free => True | .regs => True | .host => True | .scb => True | .mgl => True | _ => False : Part → Prop)
    p → p ∈ ([.free, .regs, .host, .scb, .mgl] : List Part) := by
  intro p; cases p <;> decide

theorem packetRoute_keeps {a0} {s t : State} (h : exec (.packetRoute a0) s = .next t) : Keeps (· ∈ touched (.packetRoute a0))
    s t := by
  have : Fact True := ⟨trivial⟩
  exact (execPacketRoute_keeps (M := fun p => match p with | .free => True | .regs => True | .host => True | .scb => True | .mgl => True | _ => False)
    (Keeps.refl s) t h).weaken parts_free_regs_host_scb_mgl

theorem parts_regs_host_ump_scb_mgl : ∀ p,
    (fun p => match p with | .regs => True | .host => True | .ump => True | .scb => True | .mgl => True | _ => False : Part → Prop)
    p → p ∈ ([.regs, .host, .ump, .scb, .mgl] : List Part) := by
  intro p; cases p <;> decide

theorem outputArbitration_keeps {a0} {s t : State} (h : exec (.outputArbitration a0) s = .next t) : Keeps
    (· ∈ touched (.outputArbitration a0)) s t := by
  have : Fact True := ⟨trivial⟩
  exact (execOutputArbitration_keeps (M := fun p => match p with | .regs => True | .host => True | .ump => True | .scb => True | .mgl => True | _ => False)
    (Keeps.refl s) t h).weaken parts_regs_host_ump_scb_mgl

theorem parts_free_host_mgl : ∀ p,
    (fun p => match p with | .free => True | .host => True | .mgl => True | _ => False : Part → Prop) p → p ∈
    ([.free, .host, .mgl] : List Part) := by
  intro p; cases p <;> decide

theorem tsyncExchange_keeps {s t : State} (h : exec (.tsyncExchange) s = .next t) : Keeps (· ∈ touched (.tsyncExchange)) s t := by
  have : Fact True := ⟨trivial⟩
  exact (execTsyncExchange_keeps (M := fun p => match p with | .free => True | .host => True | .mgl => True | _ => False)
    (Keeps.refl s) t h).weaken parts_free_host_mgl

theorem parts_free_host : ∀ p, (fun p => match p with | .free => True | .host => True | _ => False : Part → Prop) p → p ∈
    ([.free, .host] : List Part) := by
  intro p; cases p <;> decide

theorem syncReq_keeps {a0} {s t : State} (h : exec (.syncReq a0) s = .next t) : Keeps (· ∈ touched (.syncReq a0)) s t := by
  have : Fact True := ⟨trivial⟩
  exact (execSyncReq_keeps (M := fun p => match p with | .free => True | .host => True | _ => False)
    (Keeps.refl s) t h).weaken parts_free_host

theorem parts_ts_free_regs_host_scb_mgl : ∀ p,
    (fun p => match p with | .ts => True | .free => True | .regs => True | .host => True | .scb => True | .mgl => True | _ => False : Part → Prop)
    p → p ∈ ([.ts, .free, .regs, .host, .scb, .mgl] : List Part) := by
  intro p; cases p <;> decide

theorem syncReply_keeps {a0} {a1} {a2} {a3} {a4} {s t : State} (h : exec (.syncReply a0 a1 a2 a3 a4) s = .next t) : Keeps
    (· ∈ touched (.syncReply a0 a1 a2 a3 a4)) s t := by
  have : Fact True := ⟨trivial⟩
  exact (execSyncReply_keeps (M := fun p => match p with | .ts => True | .free => True | .regs => True | .host => True | .scb => True | .mgl => True | _ => False)
    (Keeps.refl s) t h).weaken parts_ts_free_regs_host_scb_mgl

theorem parts_host_mgl : ∀ p, (fun p => match p with | .host => True | .mgl => True | _ => False : Part → Prop) p → p ∈
    ([.host, .mgl] : List Part) := by
  intro p; cases p <;> decide

theorem tsyncTimeout_keeps {s t : State} (h : exec (.tsyncTimeout) s = .next t) : Keeps (· ∈ touched (.tsyncTimeout)) s t := by
  have : Fact True := ⟨trivial⟩
  exact (execTsyncTimeout_keeps (M := fun p => match p with | .host => True | .mgl => True | _ => False)
    (Keeps.refl s) t h).weaken parts_host_mgl

theorem sessionHandshake_keeps {a0} {a1} {s t : State} (h : exec (.sessionHandshake a0 a1) s = .next t) : Keeps
    (· ∈ touched (.sessionHandshake a0 a1)) s t := by
  have : Fact True := ⟨trivial⟩
  exact (execSessionHandshake_keeps (M := fun p => match p with | .free => True | .host => True | .mgl => True | _ => False)
    (Keeps.refl s) t h).weaken parts_free_host_mgl

theorem rekey_keeps {a0} {a1} {s t : State} (h : exec (.rekey a0 a1) s = .next t) : Keeps (· ∈ touched (.rekey a0 a1)) s t := by
  have : Fact True := ⟨trivial⟩
  exact (execRekey_keeps (M := fun p => match p with | .free => True | .host => True | .mgl => True | _ => False)
    (Keeps.refl s) t h).weaken parts_free_host_mgl

theorem parts_regs_host_mgl : ∀ p,
    (fun p => match p with | .regs => True | .host => True | .mgl => True | _ => False : Part → Prop) p → p ∈
    ([.regs, .host, .mgl] : List Part) := by
  intro p; cases p <;> decide

theorem rekeyLimit_keeps {a0} {s t : State} (h : exec (.rekeyLimit a0) s = .next t) : Keeps (· ∈ touched (.rekeyLimit a0)) s t
    := by
  have : Fact True := ⟨trivial⟩
  exact (execRekeyLimit_keeps (M := fun p => match p with | .regs => True | .host => True | .mgl => True | _ => False)
    (Keeps.refl s) t h).weaken parts_regs_host_mgl

theorem parts_regs_wst : ∀ p, (fun p => match p with | .regs => True | .wst => True | _ => False : Part → Prop) p → p ∈
    ([.regs, .wst] : List Part) := by
  intro p; cases p <;> decide

theorem loadStart_keeps {a0} {a1} {s t : State} (h : exec (.loadStart a0 a1) s = .next t) : Keeps
    (· ∈ touched (.loadStart a0 a1)) s t := by
  have : Fact True := ⟨trivial⟩
  exact (execLoadStart_keeps (M := fun p => match p with | .regs => True | .wst => True | _ => False)
    (Keeps.refl s) t h).weaken parts_regs_wst

theorem loadAbort_keeps {a0} {a1} {s t : State} (h : exec (.loadAbort a0 a1) s = .next t) : Keeps
    (· ∈ touched (.loadAbort a0 a1)) s t := by
  have : Fact True := ⟨trivial⟩
  exact (execLoadAbort_keeps (M := fun p => match p with | .regs => True | .host => True | .wst => True | _ => False)
    (Keeps.refl s) t h).weaken parts_regs_host_wst

theorem parts_regs_host_mem_scb_mgl_wst_cells : ∀ p,
    (fun p => match p with | .regs => True | .host => True | .mem => True | .scb => True | .mgl => True | .wst => True | .cells => True | _ => False : Part → Prop)
    p → p ∈ ([.regs, .host, .mem, .scb, .mgl, .wst, .cells] : List Part) := by
  intro p; cases p <;> decide

theorem preambleVerify_keeps {s t : State} (h : exec (.preambleVerify) s = .next t) : Keeps (· ∈ touched (.preambleVerify)) s
    t := by
  have : Fact True := ⟨trivial⟩
  exact (execPreambleVerify_keeps (M := fun p => match p with | .regs => True | .host => True | .mem => True | .scb => True | .mgl => True | .wst => True | .cells => True | _ => False)
    (Keeps.refl s) t h).weaken parts_regs_host_mem_scb_mgl_wst_cells

theorem parts_regs_host_mem_ref_wst_cells : ∀ p,
    (fun p => match p with | .regs => True | .host => True | .mem => True | .ref => True | .wst => True | .cells => True | _ => False : Part → Prop)
    p → p ∈ ([.regs, .host, .mem, .ref, .wst, .cells] : List Part) := by
  intro p; cases p <;> decide

theorem shardWriteDone_keeps {a0} {s t : State} (h : exec (.shardWriteDone a0) s = .next t) : Keeps
    (· ∈ touched (.shardWriteDone a0)) s t := by
  have : Fact True := ⟨trivial⟩
  exact (execShardWriteDone_keeps (M := fun p => match p with | .regs => True | .host => True | .mem => True | .ref => True | .wst => True | .cells => True | _ => False)
    (Keeps.refl s) t h).weaken parts_regs_host_mem_ref_wst_cells

theorem loadData_keeps {s t : State} (h : exec (.loadData) s = .next t) : Keeps (· ∈ touched (.loadData)) s t := by
  have : Fact True := ⟨trivial⟩
  exact (execLoadData_keeps (M := fun p => match p with | .regs => True | .host => True | .mem => True | .scb => True | .mgl => True | .wst => True | .cells => True | _ => False)
    (Keeps.refl s) t h).weaken parts_regs_host_mem_scb_mgl_wst_cells

theorem parts_regs_scb_mgl : ∀ p,
    (fun p => match p with | .regs => True | .scb => True | .mgl => True | _ => False : Part → Prop) p → p ∈
    ([.regs, .scb, .mgl] : List Part) := by
  intro p; cases p <;> decide

theorem loadResend_keeps {s t : State} (h : exec (.loadResend) s = .next t) : Keeps (· ∈ touched (.loadResend)) s t := by
  have : Fact True := ⟨trivial⟩
  exact (execLoadResend_keeps (M := fun p => match p with | .regs => True | .scb => True | .mgl => True | _ => False)
    (Keeps.refl s) t h).weaken parts_regs_scb_mgl

theorem parts_host_mgl_wst : ∀ p,
    (fun p => match p with | .host => True | .mgl => True | .wst => True | _ => False : Part → Prop) p → p ∈
    ([.host, .mgl, .wst] : List Part) := by
  intro p; cases p <;> decide

theorem loadGone_keeps {s t : State} (h : exec (.loadGone) s = .next t) : Keeps (· ∈ touched (.loadGone)) s t := by
  have : Fact True := ⟨trivial⟩
  exact (execLoadGone_keeps (M := fun p => match p with | .host => True | .mgl => True | .wst => True | _ => False)
    (Keeps.refl s) t h).weaken parts_host_mgl_wst

theorem parts_ts_regs_host_wst : ∀ p,
    (fun p => match p with | .ts => True | .regs => True | .host => True | .wst => True | _ => False : Part → Prop) p → p ∈
    ([.ts, .regs, .host, .wst] : List Part) := by
  intro p; cases p <;> decide

theorem loadSourceTimeout_keeps {s t : State} (h : exec (.loadSourceTimeout) s = .next t) : Keeps
    (· ∈ touched (.loadSourceTimeout)) s t := by
  have : Fact True := ⟨trivial⟩
  exact (execLoadSourceTimeout_keeps (M := fun p => match p with | .ts => True | .regs => True | .host => True | .wst => True | _ => False)
    (Keeps.refl s) t h).weaken parts_ts_regs_host_wst

theorem wsLineReread_keeps {a0} {a1} {a2} {a3} {a4} {s t : State} (h : exec (.wsLineReread a0 a1 a2 a3 a4) s = .next t) :
    Keeps (· ∈ touched (.wsLineReread a0 a1 a2 a3 a4)) s t := by
  have : Fact True := ⟨trivial⟩
  exact (execWsLineReread_keeps (_line := a2) (M := fun p => match p with | .free => True | .regs => True | .host => True | .ump => True | .lkr => True | .mem => True | .scb => True | .mgl => True | .rdc => True | .wst => True | .eng => True | .cells => True | _ => False)
    (Keeps.refl s) t h).weaken parts_free_regs_host_ump_lkr_mem_scb_mgl_rdc_wst_eng_cells

theorem readReq_keeps {s t : State} (h : exec (.readReq) s = .next t) : Keeps (· ∈ touched (.readReq)) s t := by
  have : Fact True := ⟨trivial⟩
  exact (execReadReq_keeps (M := fun p => match p with | .regs => True | .scb => True | .mgl => True | _ => False)
    (Keeps.refl s) t h).weaken parts_regs_scb_mgl

theorem parts_free_regs_ump_mem_scb_mgl_wst_cells : ∀ p,
    (fun p => match p with | .free => True | .regs => True | .ump => True | .mem => True | .scb => True | .mgl => True | .wst => True | .cells => True | _ => False : Part → Prop)
    p → p ∈ ([.free, .regs, .ump, .mem, .scb, .mgl, .wst, .cells] : List Part) := by
  intro p; cases p <;> decide

theorem readRsp_keeps {s t : State} (h : exec (.readRsp) s = .next t) : Keeps (· ∈ touched (.readRsp)) s t := by
  have : Fact True := ⟨trivial⟩
  exact (execReadRsp_keeps (M := fun p => match p with | .free => True | .regs => True | .ump => True | .mem => True | .scb => True | .mgl => True | .wst => True | .cells => True | _ => False)
    (Keeps.refl s) t h).weaken parts_free_regs_ump_mem_scb_mgl_wst_cells

theorem mirrorFetchTimeout_keeps {a0} {s t : State} (h : exec (.mirrorFetchTimeout a0) s = .next t) : Keeps
    (· ∈ touched (.mirrorFetchTimeout a0)) s t := by
  have : Fact True := ⟨trivial⟩
  exact (execMirrorFetchTimeout_keeps (M := fun p => match p with | .ts => True | .free => True | .regs => True | .host => True | .ump => True | .lkr => True | .mem => True | .scb => True | .mgl => True | .rdc => True | .wst => True | .eng => True | .cells => True | _ => False)
    (Keeps.refl s) t h).weaken parts_ts_free_regs_host_ump_lkr_mem_scb_mgl_rdc_wst_eng_cells

theorem parts_ts : ∀ p, (fun p => match p with | .ts => True | _ => False : Part → Prop) p → p ∈ ([.ts] : List Part) := by
  intro p; cases p <;> decide

theorem drainLimitExpiry_keeps {s t : State} (h : exec (.drainLimitExpiry) s = .next t) : Keeps
    (· ∈ touched (.drainLimitExpiry)) s t := by
  have : Fact True := ⟨trivial⟩
  exact (execDrainLimitExpiry_keeps (M := fun p => match p with | .ts => True | _ => False)
    (Keeps.refl s) t h).weaken parts_ts

theorem parts_regs_lkr : ∀ p, (fun p => match p with | .regs => True | .lkr => True | _ => False : Part → Prop) p → p ∈
    ([.regs, .lkr] : List Part) := by
  intro p; cases p <;> decide

theorem lkrQuery_keeps {a0} {a1} {s t : State} (h : exec (.lkrQuery a0 a1) s = .next t) : Keeps
    (· ∈ touched (.lkrQuery a0 a1)) s t := by
  have : Fact True := ⟨trivial⟩
  exact (execLkrQuery_keeps (M := fun p => match p with | .regs => True | .lkr => True | _ => False)
    (Keeps.refl s) t h).weaken parts_regs_lkr

theorem parts_regs_lkr_scb : ∀ p,
    (fun p => match p with | .regs => True | .lkr => True | .scb => True | _ => False : Part → Prop) p → p ∈
    ([.regs, .lkr, .scb] : List Part) := by
  intro p; cases p <;> decide

theorem lkrQueryDone_keeps {s t : State} (h : exec (.lkrQueryDone) s = .next t) : Keeps (· ∈ touched (.lkrQueryDone)) s t := by
  have : Fact True := ⟨trivial⟩
  exact (execLkrQueryDone_keeps (M := fun p => match p with | .regs => True | .lkr => True | .scb => True | _ => False)
    (Keeps.refl s) t h).weaken parts_regs_lkr_scb

theorem parts_free_regs_lkr_mem_scb_cells : ∀ p,
    (fun p => match p with | .free => True | .regs => True | .lkr => True | .mem => True | .scb => True | .cells => True | _ => False : Part → Prop)
    p → p ∈ ([.free, .regs, .lkr, .mem, .scb, .cells] : List Part) := by
  intro p; cases p <;> decide

theorem commitCopyDone_keeps {a0} {s t : State} (h : exec (.commitCopyDone a0) s = .next t) : Keeps
    (· ∈ touched (.commitCopyDone a0)) s t := by
  have : Fact True := ⟨trivial⟩
  exact (execCommitCopyDone_keeps (M := fun p => match p with | .free => True | .regs => True | .lkr => True | .mem => True | .scb => True | .cells => True | _ => False)
    (Keeps.refl s) t h).weaken parts_free_regs_lkr_mem_scb_cells

theorem memReread_keeps {a0} {a1} {a2} {s t : State} (h : exec (.memReread a0 a1 a2) s = .next t) : Keeps
    (· ∈ touched (.memReread a0 a1 a2)) s t := by
  have : Fact True := ⟨trivial⟩
  exact (execMemReread_keeps (M := fun p => match p with | .free => True | .regs => True | .host => True | .ump => True | .lkr => True | .mem => True | .err => True | .scb => True | .mgl => True | .rdc => True | .wst => True | .eng => True | .cells => True | _ => False)
    (Keeps.refl s) t h).weaken parts_free_regs_host_ump_lkr_mem_err_scb_mgl_rdc_wst_eng_cells

theorem patrolRead_keeps {a0} {a1} {s t : State} (h : exec (.patrolRead a0 a1) s = .next t) : Keeps
    (· ∈ touched (.patrolRead a0 a1)) s t := by
  have : Fact True := ⟨trivial⟩
  exact (execPatrolRead_keeps (M := fun p => match p with | .free => True | .regs => True | .host => True | .ump => True | .lkr => True | .mem => True | .err => True | .scb => True | .mgl => True | .rdc => True | .wst => True | .eng => True | .cells => True | _ => False)
    (Keeps.refl s) t h).weaken parts_free_regs_host_ump_lkr_mem_err_scb_mgl_rdc_wst_eng_cells

theorem parts_regs_host_mem_scb_cells : ∀ p,
    (fun p => match p with | .regs => True | .host => True | .mem => True | .scb => True | .cells => True | _ => False : Part → Prop)
    p → p ∈ ([.regs, .host, .mem, .scb, .cells] : List Part) := by
  intro p; cases p <;> decide

theorem scrubPageDone_keeps {s t : State} (h : exec (.scrubPageDone) s = .next t) : Keeps (· ∈ touched (.scrubPageDone)) s t := by
  have : Fact True := ⟨trivial⟩
  exact (execScrubPageDone_keeps (M := fun p => match p with | .regs => True | .host => True | .mem => True | .scb => True | .cells => True | _ => False)
    (Keeps.refl s) t h).weaken parts_regs_host_mem_scb_cells

theorem parts_free_mem_scb : ∀ p,
    (fun p => match p with | .free => True | .mem => True | .scb => True | _ => False : Part → Prop) p → p ∈
    ([.free, .mem, .scb] : List Part) := by
  intro p; cases p <;> decide

theorem keyLoadReceive_keeps {a0} {a1} {s t : State} (h : exec (.keyLoadReceive a0 a1) s = .next t) : Keeps
    (· ∈ touched (.keyLoadReceive a0 a1)) s t := by
  have : Fact True := ⟨trivial⟩
  exact (execKeyLoadReceive_keeps (M := fun p => match p with | .free => True | .mem => True | .scb => True | _ => False)
    (Keeps.refl s) t h).weaken parts_free_mem_scb

theorem sweepLine_keeps {a0} {s t : State} (h : exec (.sweepLine a0) s = .next t) : Keeps (· ∈ touched (.sweepLine a0)) s t := by
  have : Fact True := ⟨trivial⟩
  exact (execSweepLine_keeps (M := fun p => match p with | .free => True | .regs => True | .host => True | .ump => True | .lkr => True | .mem => True | .err => True | .scb => True | .mgl => True | .rdc => True | .wst => True | .eng => True | .cells => True | _ => False)
    (Keeps.refl s) t h).weaken parts_free_regs_host_ump_lkr_mem_err_scb_mgl_rdc_wst_eng_cells

theorem parts_regs_mem : ∀ p, (fun p => match p with | .regs => True | .mem => True | _ => False : Part → Prop) p → p ∈
    ([.regs, .mem] : List Part) := by
  intro p; cases p <;> decide

theorem refRotateGo_keeps {a0} {a1} {s t : State} (h : exec (.refRotateGo a0 a1) s = .next t) : Keeps
    (· ∈ touched (.refRotateGo a0 a1)) s t := by
  have : Fact True := ⟨trivial⟩
  exact (execRefRotateGo_keeps (M := fun p => match p with | .regs => True | .mem => True | _ => False)
    (Keeps.refl s) t h).weaken parts_regs_mem

theorem parts_free_regs_host_lkr_mem_ref_scb_cells : ∀ p,
    (fun p => match p with | .free => True | .regs => True | .host => True | .lkr => True | .mem => True | .ref => True | .scb => True | .cells => True | _ => False : Part → Prop)
    p → p ∈ ([.free, .regs, .host, .lkr, .mem, .ref, .scb, .cells] : List Part) := by
  intro p; cases p <;> decide

theorem purgeGo_keeps {a0} {a1} {s t : State} (h : exec (.purgeGo a0 a1) s = .next t) : Keeps (· ∈ touched (.purgeGo a0 a1)) s
    t := by
  have : Fact True := ⟨trivial⟩
  exact (execPurgeGo_keeps (M := fun p => match p with | .free => True | .regs => True | .host => True | .lkr => True | .mem => True | .ref => True | .scb => True | .cells => True | _ => False)
    (Keeps.refl s) t h).weaken parts_free_regs_host_lkr_mem_ref_scb_cells

theorem parts_host_mem_ref : ∀ p,
    (fun p => match p with | .host => True | .mem => True | .ref => True | _ => False : Part → Prop) p → p ∈
    ([.host, .mem, .ref] : List Part) := by
  intro p; cases p <;> decide

theorem slotPurgeDone_keeps {a0} {s t : State} (h : exec (.slotPurgeDone a0) s = .next t) : Keeps
    (· ∈ touched (.slotPurgeDone a0)) s t := by
  have : Fact True := ⟨trivial⟩
  exact (execSlotPurgeDone_keeps (M := fun p => match p with | .host => True | .mem => True | .ref => True | _ => False)
    (Keeps.refl s) t h).weaken parts_host_mem_ref

theorem parts_regs_host_ref : ∀ p,
    (fun p => match p with | .regs => True | .host => True | .ref => True | _ => False : Part → Prop) p → p ∈
    ([.regs, .host, .ref] : List Part) := by
  intro p; cases p <;> decide

theorem refDbgCtlLock_keeps {a0} {a1} {s t : State} (h : exec (.refDbgCtlLock a0 a1) s = .next t) : Keeps
    (· ∈ touched (.refDbgCtlLock a0 a1)) s t := by
  have : Fact True := ⟨trivial⟩
  exact (execRefDbgCtlLock_keeps (M := fun p => match p with | .regs => True | .host => True | .ref => True | _ => False)
    (Keeps.refl s) t h).weaken parts_regs_host_ref

theorem refProfCtlReq_keeps {a0} {a1} {s t : State} (h : exec (.refProfCtlReq a0 a1) s = .next t) : Keeps
    (· ∈ touched (.refProfCtlReq a0 a1)) s t := by
  have : Fact True := ⟨trivial⟩
  exact (execRefProfCtlReq_keeps (M := fun p => match p with | .regs => True | .host => True | .ref => True | _ => False)
    (Keeps.refl s) t h).weaken parts_regs_host_ref

theorem parts_free_host_ref : ∀ p,
    (fun p => match p with | .free => True | .host => True | .ref => True | _ => False : Part → Prop) p → p ∈
    ([.free, .host, .ref] : List Part) := by
  intro p; cases p <;> decide

theorem dbgChallenge_keeps {a0} {s t : State} (h : exec (.dbgChallenge a0) s = .next t) : Keeps
    (· ∈ touched (.dbgChallenge a0)) s t := by
  have : Fact True := ⟨trivial⟩
  exact (execDbgChallenge_keeps (M := fun p => match p with | .free => True | .host => True | .ref => True | _ => False)
    (Keeps.refl s) t h).weaken parts_free_host_ref

theorem parts_regs_host_mem_ref : ∀ p,
    (fun p => match p with | .regs => True | .host => True | .mem => True | .ref => True | _ => False : Part → Prop) p → p ∈
    ([.regs, .host, .mem, .ref] : List Part) := by
  intro p; cases p <;> decide

theorem dbgResponse_keeps {a0} {a1} {a2} {s t : State} (h : exec (.dbgResponse a0 a1 a2) s = .next t) : Keeps
    (· ∈ touched (.dbgResponse a0 a1 a2)) s t := by
  have : Fact True := ⟨trivial⟩
  exact (execDbgResponse_keeps (M := fun p => match p with | .regs => True | .host => True | .mem => True | .ref => True | _ => False)
    (Keeps.refl s) t h).weaken parts_regs_host_mem_ref

theorem getVersion_keeps {a0} {a1} {s t : State} (h : exec (.getVersion a0 a1) s = .next t) : Keeps
    (· ∈ touched (.getVersion a0 a1)) s t := by
  have : Fact True := ⟨trivial⟩
  exact (execGetVersion_keeps (M := fun p => match p with | .free => True | .host => True | .ref => True | _ => False)
    (Keeps.refl s) t h).weaken parts_free_host_ref

theorem getCapabilities_keeps {a0} {a1} {s t : State} (h : exec (.getCapabilities a0 a1) s = .next t) : Keeps
    (· ∈ touched (.getCapabilities a0 a1)) s t := by
  have : Fact True := ⟨trivial⟩
  exact (execGetCapabilities_keeps (M := fun p => match p with | .free => True | .host => True | .ref => True | _ => False)
    (Keeps.refl s) t h).weaken parts_free_host_ref

theorem negotiateAlgorithms_keeps {a0} {a1} {s t : State} (h : exec (.negotiateAlgorithms a0 a1) s = .next t) : Keeps
    (· ∈ touched (.negotiateAlgorithms a0 a1)) s t := by
  have : Fact True := ⟨trivial⟩
  exact (execNegotiateAlgorithms_keeps (M := fun p => match p with | .free => True | .host => True | .ref => True | _ => False)
    (Keeps.refl s) t h).weaken parts_free_host_ref

theorem getDigests_keeps {a0} {a1} {s t : State} (h : exec (.getDigests a0 a1) s = .next t) : Keeps
    (· ∈ touched (.getDigests a0 a1)) s t := by
  have : Fact True := ⟨trivial⟩
  exact (execGetDigests_keeps (_body := a1) (M := fun p => match p with | .host => True | _ => False)
    (Keeps.refl s) t h).weaken parts_host

theorem getCertificate_keeps {a0} {a1} {s t : State} (h : exec (.getCertificate a0 a1) s = .next t) : Keeps
    (· ∈ touched (.getCertificate a0 a1)) s t := by
  have : Fact True := ⟨trivial⟩
  exact (execGetCertificate_keeps (M := fun p => match p with | .host => True | _ => False)
    (Keeps.refl s) t h).weaken parts_host

theorem challenge_keeps {a0} {a1} {s t : State} (h : exec (.challenge a0 a1) s = .next t) : Keeps
    (· ∈ touched (.challenge a0 a1)) s t := by
  have : Fact True := ⟨trivial⟩
  exact (execChallenge_keeps (M := fun p => match p with | .free => True | .host => True | _ => False)
    (Keeps.refl s) t h).weaken parts_free_host

theorem getMeasurements_keeps {a0} {a1} {s t : State} (h : exec (.getMeasurements a0 a1) s = .next t) : Keeps
    (· ∈ touched (.getMeasurements a0 a1)) s t := by
  have : Fact True := ⟨trivial⟩
  exact (execGetMeasurements_keeps (M := fun p => match p with | .free => True | .host => True | _ => False)
    (Keeps.refl s) t h).weaken parts_free_host

theorem keyExchange_keeps {a0} {a1} {s t : State} (h : exec (.keyExchange a0 a1) s = .next t) : Keeps
    (· ∈ touched (.keyExchange a0 a1)) s t := by
  have : Fact True := ⟨trivial⟩
  exact (execKeyExchange_keeps (M := fun p => match p with | .free => True | .host => True | .ref => True | _ => False)
    (Keeps.refl s) t h).weaken parts_free_host_ref

theorem finish_keeps {a0} {a1} {a2} {a3} {s t : State} (h : exec (.finish a0 a1 a2 a3) s = .next t) : Keeps
    (· ∈ touched (.finish a0 a1 a2 a3)) s t := by
  have : Fact True := ⟨trivial⟩
  exact (execFinish_keeps (M := fun p => match p with | .free => True | .host => True | .ref => True | _ => False)
    (Keeps.refl s) t h).weaken parts_free_host_ref

theorem spdmHeartbeat_keeps {a0} {a1} {a2} {s t : State} (h : exec (.spdmHeartbeat a0 a1 a2) s = .next t) : Keeps
    (· ∈ touched (.spdmHeartbeat a0 a1 a2)) s t := by
  have : Fact True := ⟨trivial⟩
  exact (execSpdmHeartbeat_keeps (M := fun p => match p with | .free => True | .host => True | _ => False)
    (Keeps.refl s) t h).weaken parts_free_host

theorem keyUpdate_keeps {a0} {a1} {a2} {s t : State} (h : exec (.keyUpdate a0 a1 a2) s = .next t) : Keeps
    (· ∈ touched (.keyUpdate a0 a1 a2)) s t := by
  have : Fact True := ⟨trivial⟩
  exact (execKeyUpdate_keeps (M := fun p => match p with | .free => True | .host => True | .ref => True | _ => False)
    (Keeps.refl s) t h).weaken parts_free_host_ref

theorem endSession_keeps {a0} {a1} {a2} {s t : State} (h : exec (.endSession a0 a1 a2) s = .next t) : Keeps
    (· ∈ touched (.endSession a0 a1 a2)) s t := by
  have : Fact True := ⟨trivial⟩
  exact (execEndSession_keeps (M := fun p => match p with | .free => True | .host => True | .ref => True | _ => False)
    (Keeps.refl s) t h).weaken parts_free_host_ref

theorem ideKm_keeps {a0} {a1} {a2} {s t : State} (h : exec (.ideKm a0 a1 a2) s = .next t) : Keeps
    (· ∈ touched (.ideKm a0 a1 a2)) s t := by
  have : Fact True := ⟨trivial⟩
  exact (execIdeKm_keeps (M := fun p => match p with | .free => True | .host => True | .ref => True | _ => False)
    (Keeps.refl s) t h).weaken parts_free_host_ref

theorem parts_free_regs_host_ref : ∀ p,
    (fun p => match p with | .free => True | .regs => True | .host => True | .ref => True | _ => False : Part → Prop) p → p ∈
    ([.free, .regs, .host, .ref] : List Part) := by
  intro p; cases p <;> decide

theorem tntBind_keeps {a0} {a1} {s t : State} (h : exec (.tntBind a0 a1) s = .next t) : Keeps (· ∈ touched (.tntBind a0 a1)) s
    t := by
  have : Fact True := ⟨trivial⟩
  exact (execTntBind_keeps (M := fun p => match p with | .free => True | .regs => True | .host => True | .ref => True | _ => False)
    (Keeps.refl s) t h).weaken parts_free_regs_host_ref

theorem tntKem_keeps {a0} {a1} {s t : State} (h : exec (.tntKem a0 a1) s = .next t) : Keeps (· ∈ touched (.tntKem a0 a1)) s t
    := by
  have : Fact True := ⟨trivial⟩
  exact (execTntKem_keeps (M := fun p => match p with | .free => True | .host => True | .ref => True | _ => False)
    (Keeps.refl s) t h).weaken parts_free_host_ref

theorem skeyInstall_keeps {a0} {a1} {s t : State} (h : exec (.skeyInstall a0 a1) s = .next t) : Keeps
    (· ∈ touched (.skeyInstall a0 a1)) s t := by
  have : Fact True := ⟨trivial⟩
  exact (execSkeyInstall_keeps (M := fun p => match p with | .host => True | .mem => True | .ref => True | _ => False)
    (Keeps.refl s) t h).weaken parts_host_mem_ref

theorem skeyRevoke_keeps {a0} {a1} {s t : State} (h : exec (.skeyRevoke a0 a1) s = .next t) : Keeps
    (· ∈ touched (.skeyRevoke a0 a1)) s t := by
  have : Fact True := ⟨trivial⟩
  exact (execSkeyRevoke_keeps (M := fun p => match p with | .free => True | .regs => True | .host => True | .lkr => True | .mem => True | .ref => True | .scb => True | .cells => True | _ => False)
    (Keeps.refl s) t h).weaken parts_free_regs_host_lkr_mem_ref_scb_cells

theorem parts_host_mem : ∀ p, (fun p => match p with | .host => True | .mem => True | _ => False : Part → Prop) p → p ∈
    ([.host, .mem] : List Part) := by
  intro p; cases p <;> decide

theorem pkeyRotate_keeps {a0} {a1} {s t : State} (h : exec (.pkeyRotate a0 a1) s = .next t) : Keeps
    (· ∈ touched (.pkeyRotate a0 a1)) s t := by
  have : Fact True := ⟨trivial⟩
  exact (execPkeyRotate_keeps (_body := a1) (M := fun p => match p with | .host => True | .mem => True | _ => False)
    (Keeps.refl s) t h).weaken parts_host_mem

theorem parts_host_ref : ∀ p, (fun p => match p with | .host => True | .ref => True | _ => False : Part → Prop) p → p ∈
    ([.host, .ref] : List Part) := by
  intro p; cases p <;> decide

theorem grant_keeps {a0} {a1} {s t : State} (h : exec (.grant a0 a1) s = .next t) : Keeps (· ∈ touched (.grant a0 a1)) s t := by
  have : Fact True := ⟨trivial⟩
  exact (execGrant_keeps (M := fun p => match p with | .host => True | .ref => True | _ => False)
    (Keeps.refl s) t h).weaken parts_host_ref

theorem allow_keeps {a0} {a1} {s t : State} (h : exec (.allow a0 a1) s = .next t) : Keeps (· ∈ touched (.allow a0 a1)) s t := by
  have : Fact True := ⟨trivial⟩
  exact (execAllow_keeps (M := fun p => match p with | .host => True | .ref => True | _ => False)
    (Keeps.refl s) t h).weaken parts_host_ref

theorem consent_keeps {a0} {a1} {s t : State} (h : exec (.consent a0 a1) s = .next t) : Keeps (· ∈ touched (.consent a0 a1)) s
    t := by
  have : Fact True := ⟨trivial⟩
  exact (execConsent_keeps (M := fun p => match p with | .host => True | .ref => True | _ => False)
    (Keeps.refl s) t h).weaken parts_host_ref

theorem report_keeps {a0} {a1} {s t : State} (h : exec (.report a0 a1) s = .next t) : Keeps (· ∈ touched (.report a0 a1)) s t
    := by
  have : Fact True := ⟨trivial⟩
  exact (execReport_keeps (M := fun p => match p with | .free => True | .host => True | _ => False)
    (Keeps.refl s) t h).weaken parts_free_host

theorem resume_keeps {a0} {a1} {s t : State} (h : exec (.resume a0 a1) s = .next t) : Keeps (· ∈ touched (.resume a0 a1)) s t
    := by
  have : Fact True := ⟨trivial⟩
  exact (execResume_keeps (M := fun p => match p with | .free => True | .regs => True | .host => True | .ref => True | _ => False)
    (Keeps.refl s) t h).weaken parts_free_regs_host_ref

theorem close_keeps {a0} {a1} {s t : State} (h : exec (.close a0 a1) s = .next t) : Keeps (· ∈ touched (.close a0 a1)) s t := by
  have : Fact True := ⟨trivial⟩
  exact (execClose_keeps (_body := a1) (M := fun p => match p with | .host => True | .ref => True | _ => False)
    (Keeps.refl s) t h).weaken parts_host_ref

theorem purge_keeps {a0} {a1} {s t : State} (h : exec (.purge a0 a1) s = .next t) : Keeps (· ∈ touched (.purge a0 a1)) s t := by
  have : Fact True := ⟨trivial⟩
  exact (execPurge_keeps (_body := a1) (M := fun p => match p with | .free => True | .regs => True | .host => True | .lkr => True | .mem => True | .ref => True | .scb => True | .cells => True | _ => False)
    (Keeps.refl s) t h).weaken parts_free_regs_host_lkr_mem_ref_scb_cells

theorem unitFaultReport_keeps {a0} {a1} {a2} {s t : State} (h : exec (.unitFaultReport a0 a1 a2) s = .next t) : Keeps
    (· ∈ touched (.unitFaultReport a0 a1 a2)) s t := by
  have : Fact True := ⟨trivial⟩
  exact (execUnitFaultReport_keeps (M := fun p => match p with | .free => True | .regs => True | .host => True | .ump => True | .lkr => True | .mem => True | .err => True | .scb => True | .mgl => True | .rdc => True | .wst => True | .eng => True | .cells => True | _ => False)
    (Keeps.refl s) t h).weaken parts_free_regs_host_ump_lkr_mem_err_scb_mgl_rdc_wst_eng_cells

theorem progressTimeout_keeps {a0} {a1} {s t : State} (h : exec (.progressTimeout a0 a1) s = .next t) : Keeps
    (· ∈ touched (.progressTimeout a0 a1)) s t := by
  have : Fact True := ⟨trivial⟩
  exact (execProgressTimeout_keeps (M := fun p => match p with | .free => True | .regs => True | .host => True | .ump => True | .lkr => True | .mem => True | .err => True | .scb => True | .mgl => True | .rdc => True | .wst => True | .eng => True | .cells => True | _ => False)
    (Keeps.refl s) t h).weaken parts_free_regs_host_ump_lkr_mem_err_scb_mgl_rdc_wst_eng_cells

theorem storm_keeps {a0} {a1} {s t : State} (h : exec (.storm a0 a1) s = .next t) : Keeps (· ∈ touched (.storm a0 a1)) s t := by
  have : Fact True := ⟨trivial⟩
  exact (execStorm_keeps (M := fun p => match p with | .free => True | .regs => True | .host => True | .ump => True | .lkr => True | .mem => True | .err => True | .scb => True | .mgl => True | .rdc => True | .wst => True | .eng => True | .cells => True | _ => False)
    (Keeps.refl s) t h).weaken parts_free_regs_host_ump_lkr_mem_err_scb_mgl_rdc_wst_eng_cells

theorem fenceComplete_keeps {s t : State} (h : exec (.fenceComplete) s = .next t) : Keeps (· ∈ touched (.fenceComplete)) s t := by
  have : Fact True := ⟨trivial⟩
  exact (execFenceComplete_keeps (M := fun p => match p with | .free => True | .regs => True | .host => True | .ump => True | .lkr => True | .mem => True | .err => True | .scb => True | .mgl => True | .rdc => True | .wst => True | .eng => True | .cells => True | _ => False)
    (Keeps.refl s) t h).weaken parts_free_regs_host_ump_lkr_mem_err_scb_mgl_rdc_wst_eng_cells

theorem parts_free_regs_host_ump_lkr_mem_err_pwr_scb_mgl_rdc_wst_eng_cells : ∀ p,
    (fun p => match p with | .free => True | .regs => True | .host => True | .ump => True | .lkr => True | .mem => True | .err => True | .pwr => True | .scb => True | .mgl => True | .rdc => True | .wst => True | .eng => True | .cells => True | _ => False : Part → Prop)
    p → p ∈ ([.free, .regs, .host, .ump, .lkr, .mem, .err, .pwr, .scb, .mgl, .rdc, .wst, .eng, .cells] : List Part) := by
  intro p; cases p <;> decide

theorem thermalHoldEntry_keeps {a0} {a1} {s t : State} (h : exec (.thermalHoldEntry a0 a1) s = .next t) : Keeps
    (· ∈ touched (.thermalHoldEntry a0 a1)) s t := by
  have : Fact True := ⟨trivial⟩
  exact (execThermalHoldEntry_keeps (M := fun p => match p with | .free => True | .regs => True | .host => True | .ump => True | .lkr => True | .mem => True | .err => True | .pwr => True | .scb => True | .mgl => True | .rdc => True | .wst => True | .eng => True | .cells => True | _ => False)
    (Keeps.refl s) t h).weaken parts_free_regs_host_ump_lkr_mem_err_pwr_scb_mgl_rdc_wst_eng_cells

theorem parts_ts_free_regs_ump_err_pwr_scb : ∀ p,
    (fun p => match p with | .ts => True | .free => True | .regs => True | .ump => True | .err => True | .pwr => True | .scb => True | _ => False : Part → Prop)
    p → p ∈ ([.ts, .free, .regs, .ump, .err, .pwr, .scb] : List Part) := by
  intro p; cases p <;> decide

theorem thermalHoldExit_keeps {s t : State} (h : exec (.thermalHoldExit) s = .next t) : Keeps (· ∈ touched (.thermalHoldExit))
    s t := by
  have : Fact True := ⟨trivial⟩
  exact (execThermalHoldExit_keeps (M := fun p => match p with | .ts => True | .free => True | .regs => True | .ump => True | .err => True | .pwr => True | .scb => True | _ => False)
    (Keeps.refl s) t h).weaken parts_ts_free_regs_ump_err_pwr_scb

theorem parts_host_scb : ∀ p, (fun p => match p with | .host => True | .scb => True | _ => False : Part → Prop) p → p ∈
    ([.host, .scb] : List Part) := by
  intro p; cases p <;> decide

theorem tracePop_keeps {a0} {s t : State} (h : exec (.tracePop a0) s = .next t) : Keeps (· ∈ touched (.tracePop a0)) s t := by
  have : Fact True := ⟨trivial⟩
  exact (execTracePop_keeps (M := fun p => match p with | .host => True | .scb => True | _ => False)
    (Keeps.refl s) t h).weaken parts_host_scb

theorem parts_free_scb : ∀ p, (fun p => match p with | .free => True | .scb => True | _ => False : Part → Prop) p → p ∈
    ([.free, .scb] : List Part) := by
  intro p; cases p <;> decide

theorem swMark_keeps {a0} {a1} {s t : State} (h : exec (.swMark a0 a1) s = .next t) : Keeps (· ∈ touched (.swMark a0 a1)) s t
    := by
  have : Fact True := ⟨trivial⟩
  exact (execSwMark_keeps (M := fun p => match p with | .free => True | .scb => True | _ => False)
    (Keeps.refl s) t h).weaken parts_free_scb

theorem parts_ts_scb : ∀ p, (fun p => match p with | .ts => True | .scb => True | _ => False : Part → Prop) p → p ∈
    ([.ts, .scb] : List Part) := by
  intro p; cases p <;> decide

theorem traceWordTimeout_keeps {a0} {s t : State} (h : exec (.traceWordTimeout a0) s = .next t) : Keeps
    (· ∈ touched (.traceWordTimeout a0)) s t := by
  have : Fact True := ⟨trivial⟩
  exact (execTraceWordTimeout_keeps (M := fun p => match p with | .ts => True | .scb => True | _ => False)
    (Keeps.refl s) t h).weaken parts_ts_scb

theorem parts_scb : ∀ p, (fun p => match p with | .scb => True | _ => False : Part → Prop) p → p ∈ ([.scb] : List Part) := by
  intro p; cases p <;> decide

theorem pmuClr_keeps {a0} {a1} {a2} {s t : State} (h : exec (.pmuClr a0 a1 a2) s = .next t) : Keeps
    (· ∈ touched (.pmuClr a0 a1 a2)) s t := by
  have : Fact True := ⟨trivial⟩
  exact (execPmuClr_keeps (M := fun p => match p with | .scb => True | _ => False)
    (Keeps.refl s) t h).weaken parts_scb

theorem pmuValLoRead_keeps {a0} {a1} {a2} {s t : State} (h : exec (.pmuValLoRead a0 a1 a2) s = .next t) : Keeps
    (· ∈ touched (.pmuValLoRead a0 a1 a2)) s t := by
  have : Fact True := ⟨trivial⟩
  exact (execPmuValLoRead_keeps (M := fun p => match p with | .host => True | _ => False)
    (Keeps.refl s) t h).weaken parts_host

theorem pmuCycLoRead_keeps {a0} {a1} {s t : State} (h : exec (.pmuCycLoRead a0 a1) s = .next t) : Keeps
    (· ∈ touched (.pmuCycLoRead a0 a1)) s t := by
  have : Fact True := ⟨trivial⟩
  exact (execPmuCycLoRead_keeps (M := fun p => match p with | .host => True | _ => False)
    (Keeps.refl s) t h).weaken parts_host

theorem perstDeassertion_keeps {a0} {s t : State} (h : exec (.perstDeassertion a0) s = .next t) : Keeps
    (· ∈ touched (.perstDeassertion a0)) s t := by
  have : Fact True := ⟨trivial⟩
  exact (execPerstDeassertion_keeps (M := fun p => match p with | .host => True | _ => False)
    (Keeps.refl s) t h).weaken parts_host

theorem spiNorShardRead_keeps {s t : State} (h : exec (.spiNorShardRead) s = .next t) : Keeps (· ∈ touched (.spiNorShardRead))
    s t := by
  have : Fact True := ⟨trivial⟩
  exact (execSpiNorShardRead_keeps (M := fun p => match p with | .regs => True | .host => True | .mem => True | .scb => True | .mgl => True | .wst => True | .cells => True | _ => False)
    (Keeps.refl s) t h).weaken parts_regs_host_mem_scb_mgl_wst_cells

theorem peerTakesLinkDown_keeps {a0} {s t : State} (h : exec (.peerTakesLinkDown a0) s = .next t) : Keeps
    (· ∈ touched (.peerTakesLinkDown a0)) s t := by
  have : Fact True := ⟨trivial⟩
  exact (execPeerTakesLinkDown_keeps (M := fun p => match p with | .regs => True | .host => True | .mgl => True | _ => False)
    (Keeps.refl s) t h).weaken parts_regs_host_mgl

theorem vfEnable_keeps {a0} {a1} {s t : State} (h : exec (.vfEnable a0 a1) s = .next t) : Keeps
    (· ∈ touched (.vfEnable a0 a1)) s t := by
  have : Fact True := ⟨trivial⟩
  exact (execVfEnable_keeps (M := fun p => match p with | .free => True | .regs => True | .host => True | .ump => True | .lkr => True | .mem => True | .scb => True | .mgl => True | .rdc => True | .wst => True | .eng => True | .cells => True | _ => False)
    (Keeps.refl s) t h).weaken parts_free_regs_host_ump_lkr_mem_scb_mgl_rdc_wst_eng_cells

end Sys2Proof.Machine
end

