-- ==== Sys2Proof/Laws/PerInstr.lean ====
section
/-! SUPPORT. A statement made once per constructor: what `touched` says of the byte memory it says of the memory. -/
namespace Sys2Proof.Laws.MemTouch
open Sys2Proof Sys2Proof.Machine
set_option linter.all false

/-- A command that may change a byte of memory may change the memory's part of the state. -/
def Statement (i : Instr) : Prop := Part.cells ∈ touched i → Part.mem ∈ touched i

/-- The statement as a check of the table. -/
theorem of_check {i : Instr} (h : (!(touched i).contains .cells || (touched i).contains .mem) = true) : Statement i := by
  intro hc
  simpa [hc] using h

theorem powerUp : Statement (.powerUp) := of_check rfl
theorem powerDown : Statement (.powerDown) := of_check rfl
theorem coldReset : Statement (.coldReset) := of_check rfl
theorem sysRstNRelease (straps : Nat) : Statement (.sysRstNRelease straps) := of_check rfl
theorem warmReset : Statement (.warmReset) := of_check rfl
theorem rstCtlWarm (port : Port) (value : Word) : Statement (.rstCtlWarm port value) := of_check rfl
theorem thermalTrip (sensor : Nat) (eighths : Int) : Statement (.thermalTrip sensor eighths) := of_check rfl
theorem thermalTripEnd (readings : List Int) : Statement (.thermalTripEnd readings) := of_check rfl
theorem railFault (rail : Nat) : Statement (.railFault rail) := of_check rfl
theorem inputUndervoltage (millivolts : Nat) : Statement (.inputUndervoltage millivolts) := of_check rfl
theorem umpireWatchdog : Statement (.umpireWatchdog) := of_check rfl
theorem refereeFault (cause : Nat) : Statement (.refereeFault cause) := of_check rfl
theorem portReset (port : Port) : Statement (.portReset port) := of_check rfl
theorem functionLevelReset (port : Port) (func : Nat) : Statement (.functionLevelReset port func) := of_check rfl
theorem bootSequence (tests : BootTests) : Statement (.bootSequence tests) := of_check rfl
theorem bootGo (port : Port) (value : Word) : Statement (.bootGo port value) := of_check rfl
theorem bootHostTimeout : Statement (.bootHostTimeout) := of_check rfl
theorem bootChunkReceive : Statement (.bootChunkReceive) := of_check rfl
theorem bootLoadGone : Statement (.bootLoadGone) := of_check rfl
theorem bootLoadResend : Statement (.bootLoadResend) := of_check rfl
theorem flashSelChange (level : Bool) : Statement (.flashSelChange level) := of_check rfl
theorem pwrReqActive (port : Port) : Statement (.pwrReqActive port) := of_check rfl
theorem pwrReqIdle (port : Port) : Statement (.pwrReqIdle port) := of_check rfl
theorem pwrReqStandby (port : Port) : Statement (.pwrReqStandby port) := of_check rfl
theorem powerControlTick (reading : PowerReading) : Statement (.powerControlTick reading) := of_check rfl
theorem mgmtWarmReset : Statement (.mgmtWarmReset) := of_check rfl
theorem mgmtHalfTime : Statement (.mgmtHalfTime) := of_check rfl
theorem mgmtResume : Statement (.mgmtResume) := of_check rfl
theorem mgmtAtTsReached : Statement (.mgmtAtTsReached) := of_check rfl
theorem smbV48 : Statement (.smbV48) := of_check rfl
theorem smbInputCurrent : Statement (.smbInputCurrent) := of_check rfl
theorem smbPower : Statement (.smbPower) := of_check rfl
theorem smbJunction : Statement (.smbJunction) := of_check rfl
theorem smbInlet : Statement (.smbInlet) := of_check rfl
theorem smbBootStatus : Statement (.smbBootStatus) := of_check rfl
theorem smbRstCause : Statement (.smbRstCause) := of_check rfl
theorem smbState : Statement (.smbState) := of_check rfl
theorem smbAlert : Statement (.smbAlert) := of_check rfl
theorem flashRead (port : Port) (value : Word) : Statement (.flashRead port value) := of_check rfl
theorem flashProgram (port : Port) (value : Word) : Statement (.flashProgram port value) := of_check rfl
theorem flashErase (port : Port) (value : Word) : Statement (.flashErase port value) := of_check rfl
theorem flashOpDone (verified : Bool) : Statement (.flashOpDone verified) := of_check rfl
theorem fabricFlitReceive (link : Die × Die) (seq : Nat) (word : FlitArrival) : Statement (.fabricFlitReceive link seq word)
    := of_check rfl
theorem doorbellWrite (port : Port) (func page offset bytes value : Nat) : Statement
    (.doorbellWrite port func page offset bytes value) := of_check rfl
theorem descriptorAccept (ctx ring : Nat) (read : DescRead) : Statement (.descriptorAccept ctx ring read) := of_check rfl
theorem flagHandover (port : Port) (func slot bytes gen : Nat) : Statement (.flagHandover port func slot bytes gen)
    := of_check rfl
theorem flagReclaim (port : Port) (func slot bytes gen : Nat) : Statement (.flagReclaim port func slot bytes gen) := of_check rfl
theorem windowHostAccess (port : Port) (func offset : Nat) (access : HostAccess) : Statement
    (.windowHostAccess port func offset access) := of_check rfl
theorem serve (ctx ring : Nat) : Statement (.serve ctx ring) := of_check rfl
theorem adapterLoad (ctx ring : Nat) (header : Option (BitVec 2048)) : Statement (.adapterLoad ctx ring header) := of_check rfl
theorem adapterLoadComplete (adapter : Nat) (sealed : Option (List Byte)) : Statement (.adapterLoadComplete adapter sealed)
    := of_check rfl
theorem adapterUnload (ctx ring : Nat) : Statement (.adapterUnload ctx ring) := of_check rfl
theorem adapterRevoke (ctx ring : Nat) : Statement (.adapterRevoke ctx ring) := of_check rfl
theorem practiceOpen (ctx ring : Nat) (blob : Option (List Byte)) : Statement (.practiceOpen ctx ring blob) := of_check rfl
theorem practiceStep (ctx ring : Nat) : Statement (.practiceStep ctx ring) := of_check rfl
theorem practiceExport (ctx ring : Nat) : Statement (.practiceExport ctx ring) := of_check rfl
theorem practiceExportDone (adapter : Nat × Bool) : Statement (.practiceExportDone adapter) := of_check rfl
theorem practiceClose (ctx ring : Nat) : Statement (.practiceClose ctx ring) := of_check rfl
theorem practiceCloseDone (adapter : Nat) : Statement (.practiceCloseDone adapter) := of_check rfl
theorem wsLoad (ctx ring : Nat) : Statement (.wsLoad ctx ring) := of_check rfl
theorem schedLoad (ctx ring : Nat) (image : Option ImageSrc) : Statement (.schedLoad ctx ring image) := of_check rfl
theorem schedUnload (ctx ring : Nat) : Statement (.schedUnload ctx ring) := of_check rfl
theorem schedUnloadDone (slot : Nat) : Statement (.schedUnloadDone slot) := of_check rfl
theorem mailboxRequestCopy (port : Port) (vf : Nat) (message : Desc) : Statement (.mailboxRequestCopy port vf message)
    := of_check rfl
theorem mailboxReplyCopy (port : Port) (message : Desc) : Statement (.mailboxReplyCopy port message) := of_check rfl
theorem hubMbxCfg4Write (port : Port) (func : Nat) (value : Word) : Statement (.hubMbxCfg4Write port func value) := of_check rfl
theorem hubHeartbeat (port : Port) (value : Word) : Statement (.hubHeartbeat port value) := of_check rfl
theorem peerLost (cause : PeerLoss) : Statement (.peerLost cause) := of_check rfl
theorem stagedWrite (port : Port) (offset : Nat) (value : Word) : Statement (.stagedWrite port offset value) := of_check rfl
theorem huddleCheck (port : Port) (atTs : Bool) : Statement (.huddleCheck port atTs) := of_check rfl
theorem huddleApplyRequest (port : Port) (check atTs : Bool) : Statement (.huddleApplyRequest port check atTs) := of_check rfl
theorem huddleDiscard (port : Port) (check apply atTs : Bool) : Statement (.huddleDiscard port check apply atTs) := of_check rfl
theorem huddleCheckDone (port : Port) : Statement (.huddleCheckDone port) := of_check rfl
theorem registerWrite (port : Port) (func offset bytes value : Nat) : Statement (.registerWrite port func offset bytes value)
    := of_check rfl
theorem scbTsLoRead (port : Port) : Statement (.scbTsLoRead port) := of_check rfl
theorem crtSatTotalLoRead (port : Port) : Statement (.crtSatTotalLoRead port) := of_check rfl
theorem umpServeNoLoRead (port : Port) : Statement (.umpServeNoLoRead port) := of_check rfl
theorem rdcGstepLoRead (port : Port) : Statement (.rdcGstepLoRead port) := of_check rfl
theorem clkThrNsLoRead (port : Port) : Statement (.clkThrNsLoRead port) := of_check rfl
theorem rstMgmtSeqLoRead (port : Port) : Statement (.rstMgmtSeqLoRead port) := of_check rfl
theorem hdlAppliedTsLoRead (port : Port) : Statement (.hdlAppliedTsLoRead port) := of_check rfl
theorem slotEnd : Statement (.slotEnd) := of_check rfl
theorem serveBoundary : Statement (.serveBoundary) := of_check rfl
theorem groupSlotStart (index : Nat) : Statement (.groupSlotStart index) := of_check rfl
theorem rsvWindowEnd (index : Nat) : Statement (.rsvWindowEnd index) := of_check rfl
theorem overrunLimit : Statement (.overrunLimit) := of_check rfl
theorem urgentSubstitution (port : Port) (value : Word) : Statement (.urgentSubstitution port value) := of_check rfl
theorem segmentStart : Statement (.segmentStart) := of_check rfl
theorem segmentEnd : Statement (.segmentEnd) := of_check rfl
theorem serveEnd : Statement (.serveEnd) := of_check rfl
theorem layerStreamStart : Statement (.layerStreamStart) := of_check rfl
theorem streamEntryComplete : Statement (.streamEntryComplete) := of_check rfl
theorem layerComputeStart : Statement (.layerComputeStart) := of_check rfl
theorem prefixGatherStart (die : Nat) : Statement (.prefixGatherStart die) := of_check rfl
theorem prefixGatherComplete (die : Nat) : Statement (.prefixGatherComplete die) := of_check rfl
theorem kvWriteback (die layer : Nat) : Statement (.kvWriteback die layer) := of_check rfl
theorem kvWritebackDone (die layer : Nat) : Statement (.kvWritebackDone die layer) := of_check rfl
theorem mma (court : Nat) (cmd : Desc) : Statement (.mma court cmd) := of_check rfl
theorem mmaPair (court : Nat) (cmd : Desc) : Statement (.mmaPair court cmd) := of_check rfl
theorem tileDrain (court cube : Nat) : Statement (.tileDrain court cube) := of_check rfl
theorem tileWait (court : Nat) (cmd : Desc) : Statement (.tileWait court cmd) := of_check rfl
theorem tileSignal (court : Nat) (cmd : Desc) : Statement (.tileSignal court cmd) := of_check rfl
theorem tileEnd (court : Nat) (cmd : Desc) : Statement (.tileEnd court cmd) := of_check rfl
theorem semaphoreReached (sem : Nat) : Statement (.semaphoreReached sem) := of_check rfl
theorem ew (engine : Nat) (cmd : Desc) : Statement (.ew engine cmd) := of_check rfl
theorem red (engine : Nat) (cmd : Desc) : Statement (.red engine cmd) := of_check rfl
theorem softmax (engine : Nat) (cmd : Desc) : Statement (.softmax engine cmd) := of_check rfl
theorem lnorm (engine : Nat) (cmd : Desc) : Statement (.lnorm engine cmd) := of_check rfl
theorem rmsnorm (engine : Nat) (cmd : Desc) : Statement (.rmsnorm engine cmd) := of_check rfl
theorem route (engine : Nat) (cmd : Desc) : Statement (.route engine cmd) := of_check rfl
theorem loss (engine : Nat) (cmd : Desc) : Statement (.loss engine cmd) := of_check rfl
theorem combine (engine : Nat) (cmd : Desc) : Statement (.combine engine cmd) := of_check rfl
theorem opt (engine : Nat) (cmd : Desc) : Statement (.opt engine cmd) := of_check rfl
theorem scan (engine : Nat) (cmd : Desc) : Statement (.scan engine cmd) := of_check rfl
theorem softmaxBwd (engine : Nat) (cmd : Desc) : Statement (.softmaxBwd engine cmd) := of_check rfl
theorem normBwd (engine : Nat) (cmd : Desc) : Statement (.normBwd engine cmd) := of_check rfl
theorem vecWait (engine : Nat) (cmd : Desc) : Statement (.vecWait engine cmd) := of_check rfl
theorem vecSignal (engine : Nat) (cmd : Desc) : Statement (.vecSignal engine cmd) := of_check rfl
theorem vecEnd (engine : Nat) (cmd : Desc) : Statement (.vecEnd engine cmd) := of_check rfl
theorem copy (engine : Nat) (cmd : Desc) : Statement (.copy engine cmd) := of_check rfl
theorem listCopy (engine : Nat) (cmd : Desc) : Statement (.listCopy engine cmd) := of_check rfl
theorem embag (engine : Nat) (cmd : Desc) : Statement (.embag engine cmd) := of_check rfl
theorem embagBwd (engine : Nat) (cmd : Desc) : Statement (.embagBwd engine cmd) := of_check rfl
theorem gatherWait (engine : Nat) (cmd : Desc) : Statement (.gatherWait engine cmd) := of_check rfl
theorem gatherSignal (engine : Nat) (cmd : Desc) : Statement (.gatherSignal engine cmd) := of_check rfl
theorem gatherEnd (engine : Nat) (cmd : Desc) : Statement (.gatherEnd engine cmd) := of_check rfl
theorem allreduce (channel : Nat) (cmd : Desc) : Statement (.allreduce channel cmd) := of_check rfl
theorem reduce (channel : Nat) (cmd : Desc) : Statement (.reduce channel cmd) := of_check rfl
theorem bcast (channel : Nat) (cmd : Desc) : Statement (.bcast channel cmd) := of_check rfl
theorem allgather (channel : Nat) (cmd : Desc) : Statement (.allgather channel cmd) := of_check rfl
theorem dispatch (channel : Nat) (cmd : Desc) : Statement (.dispatch channel cmd) := of_check rfl
theorem channelCombine (channel : Nat) (cmd : Desc) : Statement (.channelCombine channel cmd) := of_check rfl
theorem channelWait (channel : Nat) (cmd : Desc) : Statement (.channelWait channel cmd) := of_check rfl
theorem channelSignal (channel : Nat) (cmd : Desc) : Statement (.channelSignal channel cmd) := of_check rfl
theorem channelEnd (channel : Nat) (cmd : Desc) : Statement (.channelEnd channel cmd) := of_check rfl
theorem rdcDataReceive : Statement (.rdcDataReceive) := of_check rfl
theorem fbCountsReceive : Statement (.fbCountsReceive) := of_check rfl
theorem fbRowReceive : Statement (.fbRowReceive) := of_check rfl
theorem fbReturnReceive : Statement (.fbReturnReceive) := of_check rfl
theorem dueNsDeadline (channel : Nat) : Statement (.dueNsDeadline channel) := of_check rfl
theorem voteSend : Statement (.voteSend) := of_check rfl
theorem voteReceive : Statement (.voteReceive) := of_check rfl
theorem voteForwardBound : Statement (.voteForwardBound) := of_check rfl
theorem verdictReceive : Statement (.verdictReceive) := of_check rfl
theorem verdictTimeout : Statement (.verdictTimeout) := of_check rfl
theorem portUp (port : Nat) (peer : PeerLink) : Statement (.portUp port peer) := of_check rfl
theorem portRetry (port : Nat) : Statement (.portRetry port) := of_check rfl
theorem frameReceive (port : Nat) (frame : LinkFrame) : Statement (.frameReceive port frame) := of_check rfl
theorem lmcReplayRequest (port : Nat) (seq : Nat × LmcCheck) : Statement (.lmcReplayRequest port seq) := of_check rfl
theorem lmcCreditReturn (port vc : Nat) (count : Nat × LmcCheck) : Statement (.lmcCreditReturn port vc count) := of_check rfl
theorem packetRoute (port : Nat) : Statement (.packetRoute port) := of_check rfl
theorem outputArbitration (port : Nat) : Statement (.outputArbitration port) := of_check rfl
theorem tsyncExchange : Statement (.tsyncExchange) := of_check rfl
theorem syncReq (port : Nat × LmcCheck) : Statement (.syncReq port) := of_check rfl
theorem syncReply (t2 t3 t4 st : Nat) (hops : Nat × LmcCheck) : Statement (.syncReply t2 t3 t4 st hops) := of_check rfl
theorem tsyncTimeout : Statement (.tsyncTimeout) := of_check rfl
theorem sessionHandshake (port : Nat) (peer : PeerProof) : Statement (.sessionHandshake port peer) := of_check rfl
theorem rekey (port : Nat) (peer : PeerProof) : Statement (.rekey port peer) := of_check rfl
theorem rekeyLimit (port : Nat) : Statement (.rekeyLimit port) := of_check rfl
theorem loadStart (port : Port) (value : Word) : Statement (.loadStart port value) := of_check rfl
theorem loadAbort (port : Port) (value : Word) : Statement (.loadAbort port value) := of_check rfl
theorem preambleVerify : Statement (.preambleVerify) := of_check rfl
theorem shardWriteDone (verified : Bool) : Statement (.shardWriteDone verified) := of_check rfl
theorem loadData : Statement (.loadData) := of_check rfl
theorem loadResend : Statement (.loadResend) := of_check rfl
theorem loadGone : Statement (.loadGone) := of_check rfl
theorem loadSourceTimeout : Statement (.loadSourceTimeout) := of_check rfl
theorem wsLineReread (die block line : Nat) (first second : List Byte) : Statement (.wsLineReread die block line first second)
    := of_check rfl
theorem readReq : Statement (.readReq) := of_check rfl
theorem readRsp : Statement (.readRsp) := of_check rfl
theorem mirrorFetchTimeout (shard : Nat) : Statement (.mirrorFetchTimeout shard) := of_check rfl
theorem drainLimitExpiry : Statement (.drainLimitExpiry) := of_check rfl
theorem lkrQuery (port : Port) (value : Word) : Statement (.lkrQuery port value) := of_check rfl
theorem lkrQueryDone : Statement (.lkrQueryDone) := of_check rfl
theorem commitCopyDone (adapter : Nat) : Statement (.commitCopyDone adapter) := of_check rfl
theorem memReread (addr : Nat) (word : List Byte) (rewriteOk : Bool) : Statement (.memReread addr word rewriteOk) := of_check rfl
theorem patrolRead (word reread : List Byte) : Statement (.patrolRead word reread) := of_check rfl
theorem scrubPageDone : Statement (.scrubPageDone) := of_check rfl
theorem keyLoadReceive (die slot : Nat) : Statement (.keyLoadReceive die slot) := of_check rfl
theorem sweepLine (slot : Nat) : Statement (.sweepLine slot) := of_check rfl
theorem refRotateGo (port : Port) (value : Word) : Statement (.refRotateGo port value) := of_check rfl
theorem purgeGo (port : Port) (value : Word) : Statement (.purgeGo port value) := of_check rfl
theorem slotPurgeDone (slot : Nat) : Statement (.slotPurgeDone slot) := of_check rfl
theorem refDbgCtlLock (port : Port) (value : Word) : Statement (.refDbgCtlLock port value) := of_check rfl
theorem refProfCtlReq (port : Port) (value : Word) : Statement (.refProfCtlReq port value) := of_check rfl
theorem dbgChallenge (level : Nat) : Statement (.dbgChallenge level) := of_check rfl
theorem dbgResponse (rsa slh block : List Byte) : Statement (.dbgResponse rsa slh block) := of_check rfl
theorem getVersion (port : Port) (body : List Byte) : Statement (.getVersion port body) := of_check rfl
theorem getCapabilities (port : Port) (body : List Byte) : Statement (.getCapabilities port body) := of_check rfl
theorem negotiateAlgorithms (port : Port) (body : List Byte) : Statement (.negotiateAlgorithms port body) := of_check rfl
theorem getDigests (port : Port) (body : List Byte) : Statement (.getDigests port body) := of_check rfl
theorem getCertificate (port : Port) (body : List Byte) : Statement (.getCertificate port body) := of_check rfl
theorem challenge (port : Port) (body : List Byte) : Statement (.challenge port body) := of_check rfl
theorem getMeasurements (port : Port) (body : List Byte) : Statement (.getMeasurements port body) := of_check rfl
theorem keyExchange (port : Port) (body : List Byte) : Statement (.keyExchange port body) := of_check rfl
theorem finish (port : Port) (session : Nat) (leafHash : Digest) (verified : Bool) : Statement
    (.finish port session leafHash verified) := of_check rfl
theorem spdmHeartbeat (port : Port) (session : Nat) (body : List Byte) : Statement (.spdmHeartbeat port session body)
    := of_check rfl
theorem keyUpdate (port : Port) (session : Nat) (body : List Byte) : Statement (.keyUpdate port session body) := of_check rfl
theorem endSession (port : Port) (session : Nat) (body : List Byte) : Statement (.endSession port session body) := of_check rfl
theorem ideKm (port : Port) (session : Nat) (body : List Byte) : Statement (.ideKm port session body) := of_check rfl
theorem tntBind (session : Nat) (body : List Byte) : Statement (.tntBind session body) := of_check rfl
theorem tntKem (session : Nat) (body : List Byte) : Statement (.tntKem session body) := of_check rfl
theorem skeyInstall (session : Nat) (body : List Byte) : Statement (.skeyInstall session body) := of_check rfl
theorem skeyRevoke (session : Nat) (body : List Byte) : Statement (.skeyRevoke session body) := of_check rfl
theorem pkeyRotate (session : Nat) (body : List Byte) : Statement (.pkeyRotate session body) := of_check rfl
theorem grant (session : Nat) (body : List Byte) : Statement (.grant session body) := of_check rfl
theorem allow (session : Nat) (body : List Byte) : Statement (.allow session body) := of_check rfl
theorem consent (session : Nat) (body : List Byte) : Statement (.consent session body) := of_check rfl
theorem report (session : Nat) (body : List Byte) : Statement (.report session body) := of_check rfl
theorem resume (session : Nat) (body : List Byte) : Statement (.resume session body) := of_check rfl
theorem close (session : Nat) (body : List Byte) : Statement (.close session body) := of_check rfl
theorem purge (session : Nat) (body : List Byte) : Statement (.purge session body) := of_check rfl
theorem unitFaultReport (kind unit cause : Nat) : Statement (.unitFaultReport kind unit cause) := of_check rfl
theorem progressTimeout (kind unit : Nat) : Statement (.progressTimeout kind unit) := of_check rfl
theorem storm (kind unit : Nat) : Statement (.storm kind unit) := of_check rfl
theorem fenceComplete : Statement (.fenceComplete) := of_check rfl
theorem thermalHoldEntry (sensor : Nat) (eighths : Int) : Statement (.thermalHoldEntry sensor eighths) := of_check rfl
theorem thermalHoldExit : Statement (.thermalHoldExit) := of_check rfl
theorem tracePop (port : Port) : Statement (.tracePop port) := of_check rfl
theorem swMark (port : Port) (value : Word) : Statement (.swMark port value) := of_check rfl
theorem traceWordTimeout (queue : Nat) : Statement (.traceWordTimeout queue) := of_check rfl
theorem pmuClr (port : Port) (block : Nat) (value : Word) : Statement (.pmuClr port block value) := of_check rfl
theorem pmuValLoRead (port : Port) (block counter : Nat) : Statement (.pmuValLoRead port block counter) := of_check rfl
theorem pmuCycLoRead (port : Port) (block : Nat) : Statement (.pmuCycLoRead port block) := of_check rfl
theorem perstDeassertion (port : Port) : Statement (.perstDeassertion port) := of_check rfl
theorem spiNorShardRead : Statement (.spiNorShardRead) := of_check rfl
theorem peerTakesLinkDown (port : Nat) : Statement (.peerTakesLinkDown port) := of_check rfl
theorem vfEnable (port : Port) (count : Nat) : Statement (.vfEnable port count) := of_check rfl

end Sys2Proof.Laws.MemTouch
end

