-- ==== Sys2Proof/Laws/State.lean ====
section
/-! SUPPORT. The small laws of the state: what each basic operation leaves alone, field by field, and what the fields of a
register read after one is set. -/
namespace Sys2Proof.Machine
open Sys2Proof

/-! Bit fields. -/

/-- A field reads only the bits below its end. -/
theorem bitsOf_mod {v lo w n : Nat} (h : lo + w ≤ n) : bitsOf (v % 2 ^ n) lo w = bitsOf v lo w := by
  apply Nat.eq_of_testBit_eq
  intro i
  simp only [bitsOf, Nat.testBit_mod_two_pow, Nat.testBit_shiftRight]
  by_cases hi : i < w
  · simp [hi, show lo + i < n by omega]
  · simp [hi]

/-- A field that was set reads as the value, cut to its width. -/
theorem bitsOf_setBits_self (v lo w x : Nat) : bitsOf (setBits v lo w x) lo w = x % 2 ^ w := by
  have hx : x % 2 ^ w < 2 ^ w := Nat.mod_lt _ (Nat.two_pow_pos w)
  have hl : v % 2 ^ lo < 2 ^ lo := Nat.mod_lt _ (Nat.two_pow_pos lo)
  have e : setBits v lo w x = 2 ^ lo * (2 ^ w * (v >>> (lo + w)) + x % 2 ^ w) + v % 2 ^ lo := by
    simp only [setBits, Nat.shiftLeft_eq]
    ring
  rw [bitsOf, e, Nat.shiftRight_eq_div_pow, Nat.mul_add_div (Nat.two_pow_pos lo), Nat.div_eq_of_lt hl, Nat.add_zero,
    Nat.mul_add_mod, Nat.mod_eq_of_lt hx]

/-- Setting a field leaves the bits above it alone. -/
theorem bitsOf_setBits_above {v lo w x lo' w' : Nat} (h : lo + w ≤ lo') : bitsOf (setBits v lo w x) lo' w' = bitsOf v lo' w' := by
  have hx : x % 2 ^ w < 2 ^ w := Nat.mod_lt _ (Nat.two_pow_pos w)
  have hl : v % 2 ^ lo < 2 ^ lo := Nat.mod_lt _ (Nat.two_pow_pos lo)
  have hb : 2 ^ lo * (x % 2 ^ w) + v % 2 ^ lo < 2 ^ (lo + w) := by
    have : 2 ^ lo * (x % 2 ^ w + 1) ≤ 2 ^ lo * 2 ^ w := Nat.mul_le_mul_left _ hx
    rw [pow_add]
    nlinarith
  have e : setBits v lo w x = 2 ^ (lo + w) * (v >>> (lo + w)) + (2 ^ lo * (x % 2 ^ w) + v % 2 ^ lo) := by
    simp only [setBits, Nat.shiftLeft_eq]
    ring
  obtain ⟨d, rfl⟩ := Nat.exists_eq_add_of_le h
  simp only [bitsOf]
  rw [Nat.shiftRight_add, Nat.shiftRight_add v, e, Nat.shiftRight_eq_div_pow _ (lo + w), Nat.mul_add_div (Nat.two_pow_pos _),
    Nat.div_eq_of_lt hb, Nat.add_zero]

/-- Setting a field leaves the bits below it alone. -/
theorem bitsOf_setBits_below {v lo w x lo' w' : Nat} (h : lo' + w' ≤ lo) : bitsOf (setBits v lo w x) lo' w' = bitsOf v lo' w'
    := by
  have e : setBits v lo w x = v % 2 ^ lo + 2 ^ lo * (2 ^ w * (v >>> (lo + w)) + x % 2 ^ w) := by
    simp only [setBits, Nat.shiftLeft_eq]
    ring
  rw [← bitsOf_mod h, e, Nat.add_mul_mod_self_left, Nat.mod_mod, bitsOf_mod h]

/-- A register's field reads as it was set. -/
theorem wordFld_wordPut_self (v : Word) {lo w x : Nat} (h : lo + w ≤ 32) : wordFld (wordPut v lo w x) lo w = x % 2 ^ w := by
  rw [wordFld, wordPut, BitVec.toNat_ofNat, bitsOf_mod h, bitsOf_setBits_self]

/-- Setting a register's field leaves its other fields alone. -/
theorem wordFld_wordPut_ne (v : Word) {lo w x lo' w' : Nat} (h : lo' + w' ≤ 32) (k : lo + w ≤ lo' ∨ lo' + w' ≤ lo) :
    wordFld (wordPut v lo w x) lo' w' = wordFld v lo' w' := by
  rw [wordFld, wordPut, BitVec.toNat_ofNat, bitsOf_mod h]
  rcases k with k | k
  · rw [bitsOf_setBits_above k, wordFld]
  · rw [bitsOf_setBits_below k, wordFld]

/-- A field set in the state reads as the value, cut to its width. -/
theorem State.regFld_setFld_self (s : State) {k lo w x : Nat} (h : lo + w ≤ 32) : (s.setFld k lo w x).regFld k lo w = x % 2 ^
    w := by
  rw [State.regFld, State.setFld, State.regAt_setReg_self, wordFld_wordPut_self _ h]

/-- A field set in the state to a value that fits reads as the value. -/
theorem State.regFld_setFld_of_lt (s : State) {k lo w x : Nat} (h : lo + w ≤ 32) (hx : x < 2 ^ w) :
    (s.setFld k lo w x).regFld k lo w = x := by rw [State.regFld_setFld_self s h, Nat.mod_eq_of_lt hx]

/-- A field set in the state leaves the fields of other registers alone. -/
theorem State.regFld_setFld_key {s : State} (hw : Tbl.wf s.regs = true) {k j lo w x : Nat} (h : j ≠ k) (lo' w' : Nat) :
    (s.setFld k lo w x).regFld j lo' w' = s.regFld j lo' w' := by
  simp only [State.setFld, State.regFld]
  rw [State.regAt_setReg_ne _ hw h]

/-- A field set in the state keeps the register table canonical. -/
theorem State.setFld_wf {s : State} (h : RegsWf s.regs) (k lo w x : Nat) : RegsWf (s.setFld k lo w x).regs := RegsWf.regsSet _ _ h

/-- A field set in the state leaves the register's other fields alone. -/
theorem State.regFld_setFld_ne (s : State) {k lo w x lo' w' : Nat} (h : lo' + w' ≤ 32) (d : lo + w ≤ lo' ∨ lo' + w' ≤ lo) :
    (s.setFld k lo w x).regFld k lo' w' = s.regFld k lo' w' := by
  rw [State.regFld, State.setFld, State.regAt_setReg_self, wordFld_wordPut_ne _ h d, State.regFld]

/-- A register's fields read as the word set. -/
@[simp] theorem State.regFld_setReg_self (s : State) (k lo w : Nat) (v : Word) : (s.setReg k v).regFld k lo w = wordFld v lo w := by
  rw [State.regFld, State.regAt_setReg_self]

/-- A field reads the same in states of one register table. -/
theorem State.regAt_congr {s t : State} (h : t.regs = s.regs) (k : Nat) : t.regAt k = s.regAt k
    := by rw [State.regAt, State.regAt, h]

/-- A register's field reads the same in states of one register table. -/
theorem State.regFld_congr {s t : State} (h : t.regs = s.regs) (k lo w : Nat) : t.regFld k lo w = s.regFld k lo w := by
  rw [State.regFld, State.regFld, State.regAt_congr h]

/-! Ports. -/

@[simp] theorem HostState.port_setPort_self (h : HostState) (p : Port) (x : PortState) : (h.setPort p x).port p = x := by cases p <;> rfl
@[simp] theorem HostState.port_setPort_other (h : HostState) (p : Port) (x : PortState) : (h.setPort p x).port p.other = h.port p.other := by
  cases p <;> rfl
@[simp] theorem HostState.setPort_out (h : HostState) (p : Port) (x : PortState) : (h.setPort p x).out = h.out := by cases p <;> rfl
@[simp] theorem HostState.setPort_owner (h : HostState) (p : Port) (x : PortState) : (h.setPort p x).owner = h.owner := by cases p <;> rfl
@[simp] theorem HostState.setPort_contexts (h : HostState) (p : Port) (x : PortState) : (h.setPort p x).contexts = h.contexts := by
  cases p <;> rfl
@[simp] theorem HostState.setPort_accepted (h : HostState) (p : Port) (x : PortState) : (h.setPort p x).accepted = h.accepted := by
  cases p <;> rfl
@[simp] theorem State.modPort_port_self (s : State) (p : Port) (f : PortState → PortState) :
    (s.modPort p f).host.port p = f (s.host.port p) := HostState.port_setPort_self ..
@[simp] theorem State.modPort_port_other (s : State) (p : Port) (f : PortState → PortState) :
    (s.modPort p f).host.port p.other = s.host.port p.other := HostState.port_setPort_other ..
@[simp] theorem State.modPort_out (s : State) (p : Port) (f : PortState → PortState) : (s.modPort p f).host.out = s.host.out :=
  HostState.setPort_out ..
@[simp] theorem State.modPort_owner (s : State) (p : Port) (f : PortState → PortState) : (s.modPort p f).host.owner = s.host.owner :=
  HostState.setPort_owner ..
@[simp] theorem State.modPort_contexts (s : State) (p : Port) (f : PortState → PortState) :
    (s.modPort p f).host.contexts = s.host.contexts := HostState.setPort_contexts ..
@[simp] theorem State.modPort_accepted (s : State) (p : Port) (f : PortState → PortState) :
    (s.modPort p f).host.accepted = s.host.accepted := HostState.setPort_accepted ..

/-- What is sent is the log's last entry. -/
@[simp] theorem State.emit_out (s : State) (o : Output) : (s.emit o).host.out = s.host.out ++ [o] := rfl

/-! What the basic operations leave alone. -/

@[simp] theorem State.setReg_pending (s : State) (k : Nat) (v : Word) : (s.setReg k v).pending = s.pending := rfl
@[simp] theorem State.setReg_ts (s : State) (k : Nat) (v : Word) : (s.setReg k v).ts = s.ts := rfl
@[simp] theorem State.setReg_freeCtr (s : State) (k : Nat) (v : Word) : (s.setReg k v).freeCtr = s.freeCtr := rfl
@[simp] theorem State.setReg_host (s : State) (k : Nat) (v : Word) : (s.setReg k v).host = s.host := rfl
@[simp] theorem State.setReg_ump (s : State) (k : Nat) (v : Word) : (s.setReg k v).ump = s.ump := rfl
@[simp] theorem State.setReg_lkr (s : State) (k : Nat) (v : Word) : (s.setReg k v).lkr = s.lkr := rfl
@[simp] theorem State.setReg_mem (s : State) (k : Nat) (v : Word) : (s.setReg k v).mem = s.mem := rfl
@[simp] theorem State.setReg_ref (s : State) (k : Nat) (v : Word) : (s.setReg k v).ref = s.ref := rfl
@[simp] theorem State.setReg_err (s : State) (k : Nat) (v : Word) : (s.setReg k v).err = s.err := rfl
@[simp] theorem State.setReg_pwr (s : State) (k : Nat) (v : Word) : (s.setReg k v).pwr = s.pwr := rfl
@[simp] theorem State.setReg_scb (s : State) (k : Nat) (v : Word) : (s.setReg k v).scb = s.scb := rfl
@[simp] theorem State.setReg_mgl (s : State) (k : Nat) (v : Word) : (s.setReg k v).mgl = s.mgl := rfl
@[simp] theorem State.setReg_rdc (s : State) (k : Nat) (v : Word) : (s.setReg k v).rdc = s.rdc := rfl
@[simp] theorem State.setReg_wst (s : State) (k : Nat) (v : Word) : (s.setReg k v).wst = s.wst := rfl
@[simp] theorem State.setReg_eng (s : State) (k : Nat) (v : Word) : (s.setReg k v).eng = s.eng := rfl

@[simp] theorem State.setFld_pending (s : State) (k lo w x : Nat) : (s.setFld k lo w x).pending = s.pending := rfl
@[simp] theorem State.setFld_ts (s : State) (k lo w x : Nat) : (s.setFld k lo w x).ts = s.ts := rfl
@[simp] theorem State.setFld_freeCtr (s : State) (k lo w x : Nat) : (s.setFld k lo w x).freeCtr = s.freeCtr := rfl
@[simp] theorem State.setFld_host (s : State) (k lo w x : Nat) : (s.setFld k lo w x).host = s.host := rfl
@[simp] theorem State.setFld_ump (s : State) (k lo w x : Nat) : (s.setFld k lo w x).ump = s.ump := rfl
@[simp] theorem State.setFld_lkr (s : State) (k lo w x : Nat) : (s.setFld k lo w x).lkr = s.lkr := rfl
@[simp] theorem State.setFld_mem (s : State) (k lo w x : Nat) : (s.setFld k lo w x).mem = s.mem := rfl
@[simp] theorem State.setFld_ref (s : State) (k lo w x : Nat) : (s.setFld k lo w x).ref = s.ref := rfl
@[simp] theorem State.setFld_err (s : State) (k lo w x : Nat) : (s.setFld k lo w x).err = s.err := rfl
@[simp] theorem State.setFld_pwr (s : State) (k lo w x : Nat) : (s.setFld k lo w x).pwr = s.pwr := rfl
@[simp] theorem State.setFld_scb (s : State) (k lo w x : Nat) : (s.setFld k lo w x).scb = s.scb := rfl
@[simp] theorem State.setFld_mgl (s : State) (k lo w x : Nat) : (s.setFld k lo w x).mgl = s.mgl := rfl
@[simp] theorem State.setFld_rdc (s : State) (k lo w x : Nat) : (s.setFld k lo w x).rdc = s.rdc := rfl
@[simp] theorem State.setFld_wst (s : State) (k lo w x : Nat) : (s.setFld k lo w x).wst = s.wst := rfl
@[simp] theorem State.setFld_eng (s : State) (k lo w x : Nat) : (s.setFld k lo w x).eng = s.eng := rfl

@[simp] theorem State.bump_pending (s : State) (k n : Nat) : (s.bump k n).pending = s.pending := rfl
@[simp] theorem State.bump_ts (s : State) (k n : Nat) : (s.bump k n).ts = s.ts := rfl
@[simp] theorem State.bump_freeCtr (s : State) (k n : Nat) : (s.bump k n).freeCtr = s.freeCtr := rfl
@[simp] theorem State.bump_host (s : State) (k n : Nat) : (s.bump k n).host = s.host := rfl
@[simp] theorem State.bump_ump (s : State) (k n : Nat) : (s.bump k n).ump = s.ump := rfl
@[simp] theorem State.bump_lkr (s : State) (k n : Nat) : (s.bump k n).lkr = s.lkr := rfl
@[simp] theorem State.bump_mem (s : State) (k n : Nat) : (s.bump k n).mem = s.mem := rfl
@[simp] theorem State.bump_ref (s : State) (k n : Nat) : (s.bump k n).ref = s.ref := rfl
@[simp] theorem State.bump_err (s : State) (k n : Nat) : (s.bump k n).err = s.err := rfl
@[simp] theorem State.bump_pwr (s : State) (k n : Nat) : (s.bump k n).pwr = s.pwr := rfl
@[simp] theorem State.bump_scb (s : State) (k n : Nat) : (s.bump k n).scb = s.scb := rfl
@[simp] theorem State.bump_mgl (s : State) (k n : Nat) : (s.bump k n).mgl = s.mgl := rfl
@[simp] theorem State.bump_rdc (s : State) (k n : Nat) : (s.bump k n).rdc = s.rdc := rfl
@[simp] theorem State.bump_wst (s : State) (k n : Nat) : (s.bump k n).wst = s.wst := rfl
@[simp] theorem State.bump_eng (s : State) (k n : Nat) : (s.bump k n).eng = s.eng := rfl

@[simp] theorem State.setReg64_pending (s : State) (lo hi v : Nat) : (s.setReg64 lo hi v).pending = s.pending := rfl
@[simp] theorem State.setReg64_ts (s : State) (lo hi v : Nat) : (s.setReg64 lo hi v).ts = s.ts := rfl
@[simp] theorem State.setReg64_freeCtr (s : State) (lo hi v : Nat) : (s.setReg64 lo hi v).freeCtr = s.freeCtr := rfl
@[simp] theorem State.setReg64_host (s : State) (lo hi v : Nat) : (s.setReg64 lo hi v).host = s.host := rfl
@[simp] theorem State.setReg64_ump (s : State) (lo hi v : Nat) : (s.setReg64 lo hi v).ump = s.ump := rfl
@[simp] theorem State.setReg64_lkr (s : State) (lo hi v : Nat) : (s.setReg64 lo hi v).lkr = s.lkr := rfl
@[simp] theorem State.setReg64_mem (s : State) (lo hi v : Nat) : (s.setReg64 lo hi v).mem = s.mem := rfl
@[simp] theorem State.setReg64_ref (s : State) (lo hi v : Nat) : (s.setReg64 lo hi v).ref = s.ref := rfl
@[simp] theorem State.setReg64_err (s : State) (lo hi v : Nat) : (s.setReg64 lo hi v).err = s.err := rfl
@[simp] theorem State.setReg64_pwr (s : State) (lo hi v : Nat) : (s.setReg64 lo hi v).pwr = s.pwr := rfl
@[simp] theorem State.setReg64_scb (s : State) (lo hi v : Nat) : (s.setReg64 lo hi v).scb = s.scb := rfl
@[simp] theorem State.setReg64_mgl (s : State) (lo hi v : Nat) : (s.setReg64 lo hi v).mgl = s.mgl := rfl
@[simp] theorem State.setReg64_rdc (s : State) (lo hi v : Nat) : (s.setReg64 lo hi v).rdc = s.rdc := rfl
@[simp] theorem State.setReg64_wst (s : State) (lo hi v : Nat) : (s.setReg64 lo hi v).wst = s.wst := rfl
@[simp] theorem State.setReg64_eng (s : State) (lo hi v : Nat) : (s.setReg64 lo hi v).eng = s.eng := rfl

@[simp] theorem State.freed_pending (s : State) : (s.freed).pending = s.pending := rfl
@[simp] theorem State.freed_ts (s : State) : (s.freed).ts = s.ts := rfl
@[simp] theorem State.freed_regs (s : State) : (s.freed).regs = s.regs := rfl
@[simp] theorem State.freed_host (s : State) : (s.freed).host = s.host := rfl
@[simp] theorem State.freed_ump (s : State) : (s.freed).ump = s.ump := rfl
@[simp] theorem State.freed_lkr (s : State) : (s.freed).lkr = s.lkr := rfl
@[simp] theorem State.freed_mem (s : State) : (s.freed).mem = s.mem := rfl
@[simp] theorem State.freed_ref (s : State) : (s.freed).ref = s.ref := rfl
@[simp] theorem State.freed_err (s : State) : (s.freed).err = s.err := rfl
@[simp] theorem State.freed_pwr (s : State) : (s.freed).pwr = s.pwr := rfl
@[simp] theorem State.freed_scb (s : State) : (s.freed).scb = s.scb := rfl
@[simp] theorem State.freed_mgl (s : State) : (s.freed).mgl = s.mgl := rfl
@[simp] theorem State.freed_rdc (s : State) : (s.freed).rdc = s.rdc := rfl
@[simp] theorem State.freed_wst (s : State) : (s.freed).wst = s.wst := rfl
@[simp] theorem State.freed_eng (s : State) : (s.freed).eng = s.eng := rfl

@[simp] theorem State.emit_pending (s : State) (o : Output) : (s.emit o).pending = s.pending := rfl
@[simp] theorem State.emit_ts (s : State) (o : Output) : (s.emit o).ts = s.ts := rfl
@[simp] theorem State.emit_freeCtr (s : State) (o : Output) : (s.emit o).freeCtr = s.freeCtr := rfl
@[simp] theorem State.emit_regs (s : State) (o : Output) : (s.emit o).regs = s.regs := rfl
@[simp] theorem State.emit_ump (s : State) (o : Output) : (s.emit o).ump = s.ump := rfl
@[simp] theorem State.emit_lkr (s : State) (o : Output) : (s.emit o).lkr = s.lkr := rfl
@[simp] theorem State.emit_mem (s : State) (o : Output) : (s.emit o).mem = s.mem := rfl
@[simp] theorem State.emit_ref (s : State) (o : Output) : (s.emit o).ref = s.ref := rfl
@[simp] theorem State.emit_err (s : State) (o : Output) : (s.emit o).err = s.err := rfl
@[simp] theorem State.emit_pwr (s : State) (o : Output) : (s.emit o).pwr = s.pwr := rfl
@[simp] theorem State.emit_scb (s : State) (o : Output) : (s.emit o).scb = s.scb := rfl
@[simp] theorem State.emit_mgl (s : State) (o : Output) : (s.emit o).mgl = s.mgl := rfl
@[simp] theorem State.emit_rdc (s : State) (o : Output) : (s.emit o).rdc = s.rdc := rfl
@[simp] theorem State.emit_wst (s : State) (o : Output) : (s.emit o).wst = s.wst := rfl
@[simp] theorem State.emit_eng (s : State) (o : Output) : (s.emit o).eng = s.eng := rfl

@[simp] theorem State.modPort_pending (s : State) (p : Port) (f : PortState → PortState) : (s.modPort p f).pending = s.pending := rfl
@[simp] theorem State.modPort_ts (s : State) (p : Port) (f : PortState → PortState) : (s.modPort p f).ts = s.ts := rfl
@[simp] theorem State.modPort_freeCtr (s : State) (p : Port) (f : PortState → PortState) : (s.modPort p f).freeCtr = s.freeCtr := rfl
@[simp] theorem State.modPort_regs (s : State) (p : Port) (f : PortState → PortState) : (s.modPort p f).regs = s.regs := rfl
@[simp] theorem State.modPort_ump (s : State) (p : Port) (f : PortState → PortState) : (s.modPort p f).ump = s.ump := rfl
@[simp] theorem State.modPort_lkr (s : State) (p : Port) (f : PortState → PortState) : (s.modPort p f).lkr = s.lkr := rfl
@[simp] theorem State.modPort_mem (s : State) (p : Port) (f : PortState → PortState) : (s.modPort p f).mem = s.mem := rfl
@[simp] theorem State.modPort_ref (s : State) (p : Port) (f : PortState → PortState) : (s.modPort p f).ref = s.ref := rfl
@[simp] theorem State.modPort_err (s : State) (p : Port) (f : PortState → PortState) : (s.modPort p f).err = s.err := rfl
@[simp] theorem State.modPort_pwr (s : State) (p : Port) (f : PortState → PortState) : (s.modPort p f).pwr = s.pwr := rfl
@[simp] theorem State.modPort_scb (s : State) (p : Port) (f : PortState → PortState) : (s.modPort p f).scb = s.scb := rfl
@[simp] theorem State.modPort_mgl (s : State) (p : Port) (f : PortState → PortState) : (s.modPort p f).mgl = s.mgl := rfl
@[simp] theorem State.modPort_rdc (s : State) (p : Port) (f : PortState → PortState) : (s.modPort p f).rdc = s.rdc := rfl
@[simp] theorem State.modPort_wst (s : State) (p : Port) (f : PortState → PortState) : (s.modPort p f).wst = s.wst := rfl
@[simp] theorem State.modPort_eng (s : State) (p : Port) (f : PortState → PortState) : (s.modPort p f).eng = s.eng := rfl

@[simp] theorem State.setCtx_pending (s : State) (c : Nat) (x : Context) : (s.setCtx c x).pending = s.pending := rfl
@[simp] theorem State.setCtx_ts (s : State) (c : Nat) (x : Context) : (s.setCtx c x).ts = s.ts := rfl
@[simp] theorem State.setCtx_freeCtr (s : State) (c : Nat) (x : Context) : (s.setCtx c x).freeCtr = s.freeCtr := rfl
@[simp] theorem State.setCtx_regs (s : State) (c : Nat) (x : Context) : (s.setCtx c x).regs = s.regs := rfl
@[simp] theorem State.setCtx_ump (s : State) (c : Nat) (x : Context) : (s.setCtx c x).ump = s.ump := rfl
@[simp] theorem State.setCtx_lkr (s : State) (c : Nat) (x : Context) : (s.setCtx c x).lkr = s.lkr := rfl
@[simp] theorem State.setCtx_mem (s : State) (c : Nat) (x : Context) : (s.setCtx c x).mem = s.mem := rfl
@[simp] theorem State.setCtx_ref (s : State) (c : Nat) (x : Context) : (s.setCtx c x).ref = s.ref := rfl
@[simp] theorem State.setCtx_err (s : State) (c : Nat) (x : Context) : (s.setCtx c x).err = s.err := rfl
@[simp] theorem State.setCtx_pwr (s : State) (c : Nat) (x : Context) : (s.setCtx c x).pwr = s.pwr := rfl
@[simp] theorem State.setCtx_scb (s : State) (c : Nat) (x : Context) : (s.setCtx c x).scb = s.scb := rfl
@[simp] theorem State.setCtx_mgl (s : State) (c : Nat) (x : Context) : (s.setCtx c x).mgl = s.mgl := rfl
@[simp] theorem State.setCtx_rdc (s : State) (c : Nat) (x : Context) : (s.setCtx c x).rdc = s.rdc := rfl
@[simp] theorem State.setCtx_wst (s : State) (c : Nat) (x : Context) : (s.setCtx c x).wst = s.wst := rfl
@[simp] theorem State.setCtx_eng (s : State) (c : Nat) (x : Context) : (s.setCtx c x).eng = s.eng := rfl

@[simp] theorem State.later_pending (s : State) (d : EventDest) (e : Rec32) (b : Bool) : (s.later d e b).pending = s.pending := rfl
@[simp] theorem State.later_ts (s : State) (d : EventDest) (e : Rec32) (b : Bool) : (s.later d e b).ts = s.ts := rfl
@[simp] theorem State.later_freeCtr (s : State) (d : EventDest) (e : Rec32) (b : Bool) : (s.later d e b).freeCtr = s.freeCtr := rfl
@[simp] theorem State.later_regs (s : State) (d : EventDest) (e : Rec32) (b : Bool) : (s.later d e b).regs = s.regs := rfl
@[simp] theorem State.later_ump (s : State) (d : EventDest) (e : Rec32) (b : Bool) : (s.later d e b).ump = s.ump := rfl
@[simp] theorem State.later_lkr (s : State) (d : EventDest) (e : Rec32) (b : Bool) : (s.later d e b).lkr = s.lkr := rfl
@[simp] theorem State.later_mem (s : State) (d : EventDest) (e : Rec32) (b : Bool) : (s.later d e b).mem = s.mem := rfl
@[simp] theorem State.later_ref (s : State) (d : EventDest) (e : Rec32) (b : Bool) : (s.later d e b).ref = s.ref := rfl
@[simp] theorem State.later_err (s : State) (d : EventDest) (e : Rec32) (b : Bool) : (s.later d e b).err = s.err := rfl
@[simp] theorem State.later_pwr (s : State) (d : EventDest) (e : Rec32) (b : Bool) : (s.later d e b).pwr = s.pwr := rfl
@[simp] theorem State.later_scb (s : State) (d : EventDest) (e : Rec32) (b : Bool) : (s.later d e b).scb = s.scb := rfl
@[simp] theorem State.later_mgl (s : State) (d : EventDest) (e : Rec32) (b : Bool) : (s.later d e b).mgl = s.mgl := rfl
@[simp] theorem State.later_rdc (s : State) (d : EventDest) (e : Rec32) (b : Bool) : (s.later d e b).rdc = s.rdc := rfl
@[simp] theorem State.later_wst (s : State) (d : EventDest) (e : Rec32) (b : Bool) : (s.later d e b).wst = s.wst := rfl
@[simp] theorem State.later_eng (s : State) (d : EventDest) (e : Rec32) (b : Bool) : (s.later d e b).eng = s.eng := rfl

@[simp] theorem State.begin_pending (s : State) (d : Nat) : (s.begin d).pending = s.pending := rfl
@[simp] theorem State.begin_ts (s : State) (d : Nat) : (s.begin d).ts = s.ts := rfl
@[simp] theorem State.begin_freeCtr (s : State) (d : Nat) : (s.begin d).freeCtr = s.freeCtr := rfl
@[simp] theorem State.begin_regs (s : State) (d : Nat) : (s.begin d).regs = s.regs := rfl
@[simp] theorem State.begin_ump (s : State) (d : Nat) : (s.begin d).ump = s.ump := rfl
@[simp] theorem State.begin_lkr (s : State) (d : Nat) : (s.begin d).lkr = s.lkr := rfl
@[simp] theorem State.begin_mem (s : State) (d : Nat) : (s.begin d).mem = s.mem := rfl
@[simp] theorem State.begin_ref (s : State) (d : Nat) : (s.begin d).ref = s.ref := rfl
@[simp] theorem State.begin_err (s : State) (d : Nat) : (s.begin d).err = s.err := rfl
@[simp] theorem State.begin_pwr (s : State) (d : Nat) : (s.begin d).pwr = s.pwr := rfl
@[simp] theorem State.begin_scb (s : State) (d : Nat) : (s.begin d).scb = s.scb := rfl
@[simp] theorem State.begin_mgl (s : State) (d : Nat) : (s.begin d).mgl = s.mgl := rfl
@[simp] theorem State.begin_rdc (s : State) (d : Nat) : (s.begin d).rdc = s.rdc := rfl
@[simp] theorem State.begin_wst (s : State) (d : Nat) : (s.begin d).wst = s.wst := rfl
@[simp] theorem State.begin_eng (s : State) (d : Nat) : (s.begin d).eng = s.eng := rfl

@[simp] theorem State.setQueue_pending (s : State) (n : Nat) (q : TraceQueue) : (s.setQueue n q).pending = s.pending := rfl
@[simp] theorem State.setQueue_ts (s : State) (n : Nat) (q : TraceQueue) : (s.setQueue n q).ts = s.ts := rfl
@[simp] theorem State.setQueue_freeCtr (s : State) (n : Nat) (q : TraceQueue) : (s.setQueue n q).freeCtr = s.freeCtr := rfl
@[simp] theorem State.setQueue_regs (s : State) (n : Nat) (q : TraceQueue) : (s.setQueue n q).regs = s.regs := rfl
@[simp] theorem State.setQueue_host (s : State) (n : Nat) (q : TraceQueue) : (s.setQueue n q).host = s.host := rfl
@[simp] theorem State.setQueue_ump (s : State) (n : Nat) (q : TraceQueue) : (s.setQueue n q).ump = s.ump := rfl
@[simp] theorem State.setQueue_lkr (s : State) (n : Nat) (q : TraceQueue) : (s.setQueue n q).lkr = s.lkr := rfl
@[simp] theorem State.setQueue_mem (s : State) (n : Nat) (q : TraceQueue) : (s.setQueue n q).mem = s.mem := rfl
@[simp] theorem State.setQueue_ref (s : State) (n : Nat) (q : TraceQueue) : (s.setQueue n q).ref = s.ref := rfl
@[simp] theorem State.setQueue_err (s : State) (n : Nat) (q : TraceQueue) : (s.setQueue n q).err = s.err := rfl
@[simp] theorem State.setQueue_pwr (s : State) (n : Nat) (q : TraceQueue) : (s.setQueue n q).pwr = s.pwr := rfl
@[simp] theorem State.setQueue_mgl (s : State) (n : Nat) (q : TraceQueue) : (s.setQueue n q).mgl = s.mgl := rfl
@[simp] theorem State.setQueue_rdc (s : State) (n : Nat) (q : TraceQueue) : (s.setQueue n q).rdc = s.rdc := rfl
@[simp] theorem State.setQueue_wst (s : State) (n : Nat) (q : TraceQueue) : (s.setQueue n q).wst = s.wst := rfl
@[simp] theorem State.setQueue_eng (s : State) (n : Nat) (q : TraceQueue) : (s.setQueue n q).eng = s.eng := rfl

@[simp] theorem State.setLink_pending (s : State) (p : Nat) (l : MglPort) : (s.setLink p l).pending = s.pending := rfl
@[simp] theorem State.setLink_ts (s : State) (p : Nat) (l : MglPort) : (s.setLink p l).ts = s.ts := rfl
@[simp] theorem State.setLink_freeCtr (s : State) (p : Nat) (l : MglPort) : (s.setLink p l).freeCtr = s.freeCtr := rfl
@[simp] theorem State.setLink_regs (s : State) (p : Nat) (l : MglPort) : (s.setLink p l).regs = s.regs := rfl
@[simp] theorem State.setLink_host (s : State) (p : Nat) (l : MglPort) : (s.setLink p l).host = s.host := rfl
@[simp] theorem State.setLink_ump (s : State) (p : Nat) (l : MglPort) : (s.setLink p l).ump = s.ump := rfl
@[simp] theorem State.setLink_lkr (s : State) (p : Nat) (l : MglPort) : (s.setLink p l).lkr = s.lkr := rfl
@[simp] theorem State.setLink_mem (s : State) (p : Nat) (l : MglPort) : (s.setLink p l).mem = s.mem := rfl
@[simp] theorem State.setLink_ref (s : State) (p : Nat) (l : MglPort) : (s.setLink p l).ref = s.ref := rfl
@[simp] theorem State.setLink_err (s : State) (p : Nat) (l : MglPort) : (s.setLink p l).err = s.err := rfl
@[simp] theorem State.setLink_pwr (s : State) (p : Nat) (l : MglPort) : (s.setLink p l).pwr = s.pwr := rfl
@[simp] theorem State.setLink_scb (s : State) (p : Nat) (l : MglPort) : (s.setLink p l).scb = s.scb := rfl
@[simp] theorem State.setLink_rdc (s : State) (p : Nat) (l : MglPort) : (s.setLink p l).rdc = s.rdc := rfl
@[simp] theorem State.setLink_wst (s : State) (p : Nat) (l : MglPort) : (s.setLink p l).wst = s.wst := rfl
@[simp] theorem State.setLink_eng (s : State) (p : Nat) (l : MglPort) : (s.setLink p l).eng = s.eng := rfl

@[simp] theorem State.takeInbox_pending (s : State) (f : InboxPacket → Bool) : (s.takeInbox f).pending = s.pending := rfl
@[simp] theorem State.takeInbox_ts (s : State) (f : InboxPacket → Bool) : (s.takeInbox f).ts = s.ts := rfl
@[simp] theorem State.takeInbox_freeCtr (s : State) (f : InboxPacket → Bool) : (s.takeInbox f).freeCtr = s.freeCtr := rfl
@[simp] theorem State.takeInbox_regs (s : State) (f : InboxPacket → Bool) : (s.takeInbox f).regs = s.regs := rfl
@[simp] theorem State.takeInbox_host (s : State) (f : InboxPacket → Bool) : (s.takeInbox f).host = s.host := rfl
@[simp] theorem State.takeInbox_ump (s : State) (f : InboxPacket → Bool) : (s.takeInbox f).ump = s.ump := rfl
@[simp] theorem State.takeInbox_lkr (s : State) (f : InboxPacket → Bool) : (s.takeInbox f).lkr = s.lkr := rfl
@[simp] theorem State.takeInbox_mem (s : State) (f : InboxPacket → Bool) : (s.takeInbox f).mem = s.mem := rfl
@[simp] theorem State.takeInbox_ref (s : State) (f : InboxPacket → Bool) : (s.takeInbox f).ref = s.ref := rfl
@[simp] theorem State.takeInbox_err (s : State) (f : InboxPacket → Bool) : (s.takeInbox f).err = s.err := rfl
@[simp] theorem State.takeInbox_pwr (s : State) (f : InboxPacket → Bool) : (s.takeInbox f).pwr = s.pwr := rfl
@[simp] theorem State.takeInbox_scb (s : State) (f : InboxPacket → Bool) : (s.takeInbox f).scb = s.scb := rfl
@[simp] theorem State.takeInbox_rdc (s : State) (f : InboxPacket → Bool) : (s.takeInbox f).rdc = s.rdc := rfl
@[simp] theorem State.takeInbox_wst (s : State) (f : InboxPacket → Bool) : (s.takeInbox f).wst = s.wst := rfl
@[simp] theorem State.takeInbox_eng (s : State) (f : InboxPacket → Bool) : (s.takeInbox f).eng = s.eng := rfl

@[simp] theorem State.setServe_pending (s : State) (r : ReadyServe) : (s.setServe r).pending = s.pending := rfl
@[simp] theorem State.setServe_ts (s : State) (r : ReadyServe) : (s.setServe r).ts = s.ts := rfl
@[simp] theorem State.setServe_freeCtr (s : State) (r : ReadyServe) : (s.setServe r).freeCtr = s.freeCtr := rfl
@[simp] theorem State.setServe_regs (s : State) (r : ReadyServe) : (s.setServe r).regs = s.regs := rfl
@[simp] theorem State.setServe_host (s : State) (r : ReadyServe) : (s.setServe r).host = s.host := rfl
@[simp] theorem State.setServe_lkr (s : State) (r : ReadyServe) : (s.setServe r).lkr = s.lkr := rfl
@[simp] theorem State.setServe_mem (s : State) (r : ReadyServe) : (s.setServe r).mem = s.mem := rfl
@[simp] theorem State.setServe_ref (s : State) (r : ReadyServe) : (s.setServe r).ref = s.ref := rfl
@[simp] theorem State.setServe_err (s : State) (r : ReadyServe) : (s.setServe r).err = s.err := rfl
@[simp] theorem State.setServe_pwr (s : State) (r : ReadyServe) : (s.setServe r).pwr = s.pwr := rfl
@[simp] theorem State.setServe_scb (s : State) (r : ReadyServe) : (s.setServe r).scb = s.scb := rfl
@[simp] theorem State.setServe_mgl (s : State) (r : ReadyServe) : (s.setServe r).mgl = s.mgl := rfl
@[simp] theorem State.setServe_rdc (s : State) (r : ReadyServe) : (s.setServe r).rdc = s.rdc := rfl
@[simp] theorem State.setServe_wst (s : State) (r : ReadyServe) : (s.setServe r).wst = s.wst := rfl
@[simp] theorem State.setServe_eng (s : State) (r : ReadyServe) : (s.setServe r).eng = s.eng := rfl

@[simp] theorem State.setRsvRun_pending (s : State) (i : Nat) (r : RsvRun) : (s.setRsvRun i r).pending = s.pending := rfl
@[simp] theorem State.setRsvRun_ts (s : State) (i : Nat) (r : RsvRun) : (s.setRsvRun i r).ts = s.ts := rfl
@[simp] theorem State.setRsvRun_freeCtr (s : State) (i : Nat) (r : RsvRun) : (s.setRsvRun i r).freeCtr = s.freeCtr := rfl
@[simp] theorem State.setRsvRun_regs (s : State) (i : Nat) (r : RsvRun) : (s.setRsvRun i r).regs = s.regs := rfl
@[simp] theorem State.setRsvRun_host (s : State) (i : Nat) (r : RsvRun) : (s.setRsvRun i r).host = s.host := rfl
@[simp] theorem State.setRsvRun_lkr (s : State) (i : Nat) (r : RsvRun) : (s.setRsvRun i r).lkr = s.lkr := rfl
@[simp] theorem State.setRsvRun_mem (s : State) (i : Nat) (r : RsvRun) : (s.setRsvRun i r).mem = s.mem := rfl
@[simp] theorem State.setRsvRun_ref (s : State) (i : Nat) (r : RsvRun) : (s.setRsvRun i r).ref = s.ref := rfl
@[simp] theorem State.setRsvRun_err (s : State) (i : Nat) (r : RsvRun) : (s.setRsvRun i r).err = s.err := rfl
@[simp] theorem State.setRsvRun_pwr (s : State) (i : Nat) (r : RsvRun) : (s.setRsvRun i r).pwr = s.pwr := rfl
@[simp] theorem State.setRsvRun_scb (s : State) (i : Nat) (r : RsvRun) : (s.setRsvRun i r).scb = s.scb := rfl
@[simp] theorem State.setRsvRun_mgl (s : State) (i : Nat) (r : RsvRun) : (s.setRsvRun i r).mgl = s.mgl := rfl
@[simp] theorem State.setRsvRun_rdc (s : State) (i : Nat) (r : RsvRun) : (s.setRsvRun i r).rdc = s.rdc := rfl
@[simp] theorem State.setRsvRun_wst (s : State) (i : Nat) (r : RsvRun) : (s.setRsvRun i r).wst = s.wst := rfl
@[simp] theorem State.setRsvRun_eng (s : State) (i : Nat) (r : RsvRun) : (s.setRsvRun i r).eng = s.eng := rfl

@[simp] theorem State.waitSlot_pending (s : State) (t : Nat) : (s.waitSlot t).pending = s.pending := rfl
@[simp] theorem State.waitSlot_ts (s : State) (t : Nat) : (s.waitSlot t).ts = s.ts := rfl
@[simp] theorem State.waitSlot_freeCtr (s : State) (t : Nat) : (s.waitSlot t).freeCtr = s.freeCtr := rfl
@[simp] theorem State.waitSlot_regs (s : State) (t : Nat) : (s.waitSlot t).regs = s.regs := rfl
@[simp] theorem State.waitSlot_host (s : State) (t : Nat) : (s.waitSlot t).host = s.host := rfl
@[simp] theorem State.waitSlot_lkr (s : State) (t : Nat) : (s.waitSlot t).lkr = s.lkr := rfl
@[simp] theorem State.waitSlot_mem (s : State) (t : Nat) : (s.waitSlot t).mem = s.mem := rfl
@[simp] theorem State.waitSlot_ref (s : State) (t : Nat) : (s.waitSlot t).ref = s.ref := rfl
@[simp] theorem State.waitSlot_err (s : State) (t : Nat) : (s.waitSlot t).err = s.err := rfl
@[simp] theorem State.waitSlot_pwr (s : State) (t : Nat) : (s.waitSlot t).pwr = s.pwr := rfl
@[simp] theorem State.waitSlot_scb (s : State) (t : Nat) : (s.waitSlot t).scb = s.scb := rfl
@[simp] theorem State.waitSlot_mgl (s : State) (t : Nat) : (s.waitSlot t).mgl = s.mgl := rfl
@[simp] theorem State.waitSlot_rdc (s : State) (t : Nat) : (s.waitSlot t).rdc = s.rdc := rfl
@[simp] theorem State.waitSlot_wst (s : State) (t : Nat) : (s.waitSlot t).wst = s.wst := rfl
@[simp] theorem State.waitSlot_eng (s : State) (t : Nat) : (s.waitSlot t).eng = s.eng := rfl

@[simp] theorem State.modReq_pending (s : State) (c n : Nat) (f : Request → Request) : (s.modReq c n f).pending = s.pending := rfl
@[simp] theorem State.modReq_ts (s : State) (c n : Nat) (f : Request → Request) : (s.modReq c n f).ts = s.ts := rfl
@[simp] theorem State.modReq_freeCtr (s : State) (c n : Nat) (f : Request → Request) : (s.modReq c n f).freeCtr = s.freeCtr := rfl
@[simp] theorem State.modReq_regs (s : State) (c n : Nat) (f : Request → Request) : (s.modReq c n f).regs = s.regs := rfl
@[simp] theorem State.modReq_host (s : State) (c n : Nat) (f : Request → Request) : (s.modReq c n f).host = s.host := rfl
@[simp] theorem State.modReq_lkr (s : State) (c n : Nat) (f : Request → Request) : (s.modReq c n f).lkr = s.lkr := rfl
@[simp] theorem State.modReq_mem (s : State) (c n : Nat) (f : Request → Request) : (s.modReq c n f).mem = s.mem := rfl
@[simp] theorem State.modReq_ref (s : State) (c n : Nat) (f : Request → Request) : (s.modReq c n f).ref = s.ref := rfl
@[simp] theorem State.modReq_err (s : State) (c n : Nat) (f : Request → Request) : (s.modReq c n f).err = s.err := rfl
@[simp] theorem State.modReq_pwr (s : State) (c n : Nat) (f : Request → Request) : (s.modReq c n f).pwr = s.pwr := rfl
@[simp] theorem State.modReq_scb (s : State) (c n : Nat) (f : Request → Request) : (s.modReq c n f).scb = s.scb := rfl
@[simp] theorem State.modReq_mgl (s : State) (c n : Nat) (f : Request → Request) : (s.modReq c n f).mgl = s.mgl := rfl
@[simp] theorem State.modReq_rdc (s : State) (c n : Nat) (f : Request → Request) : (s.modReq c n f).rdc = s.rdc := rfl
@[simp] theorem State.modReq_wst (s : State) (c n : Nat) (f : Request → Request) : (s.modReq c n f).wst = s.wst := rfl
@[simp] theorem State.modReq_eng (s : State) (c n : Nat) (f : Request → Request) : (s.modReq c n f).eng = s.eng := rfl

@[simp] theorem State.modDir_pending (s : State) (n : Nat) (f : DirEntry → DirEntry) : (s.modDir n f).pending = s.pending := rfl
@[simp] theorem State.modDir_ts (s : State) (n : Nat) (f : DirEntry → DirEntry) : (s.modDir n f).ts = s.ts := rfl
@[simp] theorem State.modDir_freeCtr (s : State) (n : Nat) (f : DirEntry → DirEntry) : (s.modDir n f).freeCtr = s.freeCtr := rfl
@[simp] theorem State.modDir_regs (s : State) (n : Nat) (f : DirEntry → DirEntry) : (s.modDir n f).regs = s.regs := rfl
@[simp] theorem State.modDir_host (s : State) (n : Nat) (f : DirEntry → DirEntry) : (s.modDir n f).host = s.host := rfl
@[simp] theorem State.modDir_ump (s : State) (n : Nat) (f : DirEntry → DirEntry) : (s.modDir n f).ump = s.ump := rfl
@[simp] theorem State.modDir_mem (s : State) (n : Nat) (f : DirEntry → DirEntry) : (s.modDir n f).mem = s.mem := rfl
@[simp] theorem State.modDir_ref (s : State) (n : Nat) (f : DirEntry → DirEntry) : (s.modDir n f).ref = s.ref := rfl
@[simp] theorem State.modDir_err (s : State) (n : Nat) (f : DirEntry → DirEntry) : (s.modDir n f).err = s.err := rfl
@[simp] theorem State.modDir_pwr (s : State) (n : Nat) (f : DirEntry → DirEntry) : (s.modDir n f).pwr = s.pwr := rfl
@[simp] theorem State.modDir_scb (s : State) (n : Nat) (f : DirEntry → DirEntry) : (s.modDir n f).scb = s.scb := rfl
@[simp] theorem State.modDir_mgl (s : State) (n : Nat) (f : DirEntry → DirEntry) : (s.modDir n f).mgl = s.mgl := rfl
@[simp] theorem State.modDir_rdc (s : State) (n : Nat) (f : DirEntry → DirEntry) : (s.modDir n f).rdc = s.rdc := rfl
@[simp] theorem State.modDir_wst (s : State) (n : Nat) (f : DirEntry → DirEntry) : (s.modDir n f).wst = s.wst := rfl
@[simp] theorem State.modDir_eng (s : State) (n : Nat) (f : DirEntry → DirEntry) : (s.modDir n f).eng = s.eng := rfl

@[simp] theorem State.setPages_pending (s : State) (ps : List Nat) (e : PageEntry) : (s.setPages ps e).pending = s.pending := rfl
@[simp] theorem State.setPages_ts (s : State) (ps : List Nat) (e : PageEntry) : (s.setPages ps e).ts = s.ts := rfl
@[simp] theorem State.setPages_freeCtr (s : State) (ps : List Nat) (e : PageEntry) : (s.setPages ps e).freeCtr = s.freeCtr := rfl
@[simp] theorem State.setPages_regs (s : State) (ps : List Nat) (e : PageEntry) : (s.setPages ps e).regs = s.regs := rfl
@[simp] theorem State.setPages_host (s : State) (ps : List Nat) (e : PageEntry) : (s.setPages ps e).host = s.host := rfl
@[simp] theorem State.setPages_ump (s : State) (ps : List Nat) (e : PageEntry) : (s.setPages ps e).ump = s.ump := rfl
@[simp] theorem State.setPages_lkr (s : State) (ps : List Nat) (e : PageEntry) : (s.setPages ps e).lkr = s.lkr := rfl
@[simp] theorem State.setPages_ref (s : State) (ps : List Nat) (e : PageEntry) : (s.setPages ps e).ref = s.ref := rfl
@[simp] theorem State.setPages_err (s : State) (ps : List Nat) (e : PageEntry) : (s.setPages ps e).err = s.err := rfl
@[simp] theorem State.setPages_pwr (s : State) (ps : List Nat) (e : PageEntry) : (s.setPages ps e).pwr = s.pwr := rfl
@[simp] theorem State.setPages_scb (s : State) (ps : List Nat) (e : PageEntry) : (s.setPages ps e).scb = s.scb := rfl
@[simp] theorem State.setPages_mgl (s : State) (ps : List Nat) (e : PageEntry) : (s.setPages ps e).mgl = s.mgl := rfl
@[simp] theorem State.setPages_rdc (s : State) (ps : List Nat) (e : PageEntry) : (s.setPages ps e).rdc = s.rdc := rfl
@[simp] theorem State.setPages_wst (s : State) (ps : List Nat) (e : PageEntry) : (s.setPages ps e).wst = s.wst := rfl
@[simp] theorem State.setPages_eng (s : State) (ps : List Nat) (e : PageEntry) : (s.setPages ps e).eng = s.eng := rfl

@[simp] theorem State.modStep_pending (s : State) (f : GroupStep → GroupStep) : (s.modStep f).pending = s.pending := rfl
@[simp] theorem State.modStep_ts (s : State) (f : GroupStep → GroupStep) : (s.modStep f).ts = s.ts := rfl
@[simp] theorem State.modStep_freeCtr (s : State) (f : GroupStep → GroupStep) : (s.modStep f).freeCtr = s.freeCtr := rfl
@[simp] theorem State.modStep_regs (s : State) (f : GroupStep → GroupStep) : (s.modStep f).regs = s.regs := rfl
@[simp] theorem State.modStep_host (s : State) (f : GroupStep → GroupStep) : (s.modStep f).host = s.host := rfl
@[simp] theorem State.modStep_ump (s : State) (f : GroupStep → GroupStep) : (s.modStep f).ump = s.ump := rfl
@[simp] theorem State.modStep_lkr (s : State) (f : GroupStep → GroupStep) : (s.modStep f).lkr = s.lkr := rfl
@[simp] theorem State.modStep_mem (s : State) (f : GroupStep → GroupStep) : (s.modStep f).mem = s.mem := rfl
@[simp] theorem State.modStep_ref (s : State) (f : GroupStep → GroupStep) : (s.modStep f).ref = s.ref := rfl
@[simp] theorem State.modStep_err (s : State) (f : GroupStep → GroupStep) : (s.modStep f).err = s.err := rfl
@[simp] theorem State.modStep_pwr (s : State) (f : GroupStep → GroupStep) : (s.modStep f).pwr = s.pwr := rfl
@[simp] theorem State.modStep_scb (s : State) (f : GroupStep → GroupStep) : (s.modStep f).scb = s.scb := rfl
@[simp] theorem State.modStep_mgl (s : State) (f : GroupStep → GroupStep) : (s.modStep f).mgl = s.mgl := rfl
@[simp] theorem State.modStep_wst (s : State) (f : GroupStep → GroupStep) : (s.modStep f).wst = s.wst := rfl
@[simp] theorem State.modStep_eng (s : State) (f : GroupStep → GroupStep) : (s.modStep f).eng = s.eng := rfl

@[simp] theorem State.modRun_pending (s : State) (c n : Nat) (f : ChanRun → ChanRun) : (s.modRun c n f).pending = s.pending := rfl
@[simp] theorem State.modRun_ts (s : State) (c n : Nat) (f : ChanRun → ChanRun) : (s.modRun c n f).ts = s.ts := rfl
@[simp] theorem State.modRun_freeCtr (s : State) (c n : Nat) (f : ChanRun → ChanRun) : (s.modRun c n f).freeCtr = s.freeCtr := rfl
@[simp] theorem State.modRun_regs (s : State) (c n : Nat) (f : ChanRun → ChanRun) : (s.modRun c n f).regs = s.regs := rfl
@[simp] theorem State.modRun_host (s : State) (c n : Nat) (f : ChanRun → ChanRun) : (s.modRun c n f).host = s.host := rfl
@[simp] theorem State.modRun_ump (s : State) (c n : Nat) (f : ChanRun → ChanRun) : (s.modRun c n f).ump = s.ump := rfl
@[simp] theorem State.modRun_lkr (s : State) (c n : Nat) (f : ChanRun → ChanRun) : (s.modRun c n f).lkr = s.lkr := rfl
@[simp] theorem State.modRun_mem (s : State) (c n : Nat) (f : ChanRun → ChanRun) : (s.modRun c n f).mem = s.mem := rfl
@[simp] theorem State.modRun_ref (s : State) (c n : Nat) (f : ChanRun → ChanRun) : (s.modRun c n f).ref = s.ref := rfl
@[simp] theorem State.modRun_err (s : State) (c n : Nat) (f : ChanRun → ChanRun) : (s.modRun c n f).err = s.err := rfl
@[simp] theorem State.modRun_pwr (s : State) (c n : Nat) (f : ChanRun → ChanRun) : (s.modRun c n f).pwr = s.pwr := rfl
@[simp] theorem State.modRun_scb (s : State) (c n : Nat) (f : ChanRun → ChanRun) : (s.modRun c n f).scb = s.scb := rfl
@[simp] theorem State.modRun_mgl (s : State) (c n : Nat) (f : ChanRun → ChanRun) : (s.modRun c n f).mgl = s.mgl := rfl
@[simp] theorem State.modRun_wst (s : State) (c n : Nat) (f : ChanRun → ChanRun) : (s.modRun c n f).wst = s.wst := rfl
@[simp] theorem State.modRun_eng (s : State) (c n : Nat) (f : ChanRun → ChanRun) : (s.modRun c n f).eng = s.eng := rfl

@[simp] theorem State.readSensor_pending (s : State) (n : Nat) (t : Int) : (s.readSensor n t).pending = s.pending := rfl
@[simp] theorem State.readSensor_ts (s : State) (n : Nat) (t : Int) : (s.readSensor n t).ts = s.ts := rfl
@[simp] theorem State.readSensor_freeCtr (s : State) (n : Nat) (t : Int) : (s.readSensor n t).freeCtr = s.freeCtr := rfl
@[simp] theorem State.readSensor_regs (s : State) (n : Nat) (t : Int) : (s.readSensor n t).regs = s.regs := rfl
@[simp] theorem State.readSensor_host (s : State) (n : Nat) (t : Int) : (s.readSensor n t).host = s.host := rfl
@[simp] theorem State.readSensor_ump (s : State) (n : Nat) (t : Int) : (s.readSensor n t).ump = s.ump := rfl
@[simp] theorem State.readSensor_lkr (s : State) (n : Nat) (t : Int) : (s.readSensor n t).lkr = s.lkr := rfl
@[simp] theorem State.readSensor_mem (s : State) (n : Nat) (t : Int) : (s.readSensor n t).mem = s.mem := rfl
@[simp] theorem State.readSensor_ref (s : State) (n : Nat) (t : Int) : (s.readSensor n t).ref = s.ref := rfl
@[simp] theorem State.readSensor_err (s : State) (n : Nat) (t : Int) : (s.readSensor n t).err = s.err := rfl
@[simp] theorem State.readSensor_scb (s : State) (n : Nat) (t : Int) : (s.readSensor n t).scb = s.scb := rfl
@[simp] theorem State.readSensor_mgl (s : State) (n : Nat) (t : Int) : (s.readSensor n t).mgl = s.mgl := rfl
@[simp] theorem State.readSensor_rdc (s : State) (n : Nat) (t : Int) : (s.readSensor n t).rdc = s.rdc := rfl
@[simp] theorem State.readSensor_wst (s : State) (n : Nat) (t : Int) : (s.readSensor n t).wst = s.wst := rfl
@[simp] theorem State.readSensor_eng (s : State) (n : Nat) (t : Int) : (s.readSensor n t).eng = s.eng := rfl

@[simp] theorem State.setSession_pending (s : State) (n : Nat) (t : Session) : (s.setSession n t).pending = s.pending := rfl
@[simp] theorem State.setSession_ts (s : State) (n : Nat) (t : Session) : (s.setSession n t).ts = s.ts := rfl
@[simp] theorem State.setSession_freeCtr (s : State) (n : Nat) (t : Session) : (s.setSession n t).freeCtr = s.freeCtr := rfl
@[simp] theorem State.setSession_regs (s : State) (n : Nat) (t : Session) : (s.setSession n t).regs = s.regs := rfl
@[simp] theorem State.setSession_host (s : State) (n : Nat) (t : Session) : (s.setSession n t).host = s.host := rfl
@[simp] theorem State.setSession_ump (s : State) (n : Nat) (t : Session) : (s.setSession n t).ump = s.ump := rfl
@[simp] theorem State.setSession_lkr (s : State) (n : Nat) (t : Session) : (s.setSession n t).lkr = s.lkr := rfl
@[simp] theorem State.setSession_mem (s : State) (n : Nat) (t : Session) : (s.setSession n t).mem = s.mem := rfl
@[simp] theorem State.setSession_err (s : State) (n : Nat) (t : Session) : (s.setSession n t).err = s.err := rfl
@[simp] theorem State.setSession_pwr (s : State) (n : Nat) (t : Session) : (s.setSession n t).pwr = s.pwr := rfl
@[simp] theorem State.setSession_scb (s : State) (n : Nat) (t : Session) : (s.setSession n t).scb = s.scb := rfl
@[simp] theorem State.setSession_mgl (s : State) (n : Nat) (t : Session) : (s.setSession n t).mgl = s.mgl := rfl
@[simp] theorem State.setSession_rdc (s : State) (n : Nat) (t : Session) : (s.setSession n t).rdc = s.rdc := rfl
@[simp] theorem State.setSession_wst (s : State) (n : Nat) (t : Session) : (s.setSession n t).wst = s.wst := rfl
@[simp] theorem State.setSession_eng (s : State) (n : Nat) (t : Session) : (s.setSession n t).eng = s.eng := rfl

@[simp] theorem State.setSpdm_pending (s : State) (n : Nat) (k : SpdmSession) : (s.setSpdm n k).pending = s.pending := rfl
@[simp] theorem State.setSpdm_ts (s : State) (n : Nat) (k : SpdmSession) : (s.setSpdm n k).ts = s.ts := rfl
@[simp] theorem State.setSpdm_freeCtr (s : State) (n : Nat) (k : SpdmSession) : (s.setSpdm n k).freeCtr = s.freeCtr := rfl
@[simp] theorem State.setSpdm_regs (s : State) (n : Nat) (k : SpdmSession) : (s.setSpdm n k).regs = s.regs := rfl
@[simp] theorem State.setSpdm_host (s : State) (n : Nat) (k : SpdmSession) : (s.setSpdm n k).host = s.host := rfl
@[simp] theorem State.setSpdm_ump (s : State) (n : Nat) (k : SpdmSession) : (s.setSpdm n k).ump = s.ump := rfl
@[simp] theorem State.setSpdm_lkr (s : State) (n : Nat) (k : SpdmSession) : (s.setSpdm n k).lkr = s.lkr := rfl
@[simp] theorem State.setSpdm_mem (s : State) (n : Nat) (k : SpdmSession) : (s.setSpdm n k).mem = s.mem := rfl
@[simp] theorem State.setSpdm_err (s : State) (n : Nat) (k : SpdmSession) : (s.setSpdm n k).err = s.err := rfl
@[simp] theorem State.setSpdm_pwr (s : State) (n : Nat) (k : SpdmSession) : (s.setSpdm n k).pwr = s.pwr := rfl
@[simp] theorem State.setSpdm_scb (s : State) (n : Nat) (k : SpdmSession) : (s.setSpdm n k).scb = s.scb := rfl
@[simp] theorem State.setSpdm_mgl (s : State) (n : Nat) (k : SpdmSession) : (s.setSpdm n k).mgl = s.mgl := rfl
@[simp] theorem State.setSpdm_rdc (s : State) (n : Nat) (k : SpdmSession) : (s.setSpdm n k).rdc = s.rdc := rfl
@[simp] theorem State.setSpdm_wst (s : State) (n : Nat) (k : SpdmSession) : (s.setSpdm n k).wst = s.wst := rfl
@[simp] theorem State.setSpdm_eng (s : State) (n : Nat) (k : SpdmSession) : (s.setSpdm n k).eng = s.eng := rfl

/-! What the other basic operations leave alone. -/

@[simp] theorem State.setEngine_pending (s : State) (e : Engine) (r : EngineRun) : (s.setEngine e r).pending = s.pending := by cases e <;> rfl
@[simp] theorem State.setEngine_ts (s : State) (e : Engine) (r : EngineRun) : (s.setEngine e r).ts = s.ts := by cases e <;> rfl
@[simp] theorem State.setEngine_freeCtr (s : State) (e : Engine) (r : EngineRun) : (s.setEngine e r).freeCtr = s.freeCtr := by cases e <;> rfl
@[simp] theorem State.setEngine_regs (s : State) (e : Engine) (r : EngineRun) : (s.setEngine e r).regs = s.regs := by cases e <;> rfl
@[simp] theorem State.setEngine_host (s : State) (e : Engine) (r : EngineRun) : (s.setEngine e r).host = s.host := by cases e <;> rfl
@[simp] theorem State.setEngine_ump (s : State) (e : Engine) (r : EngineRun) : (s.setEngine e r).ump = s.ump := by cases e <;> rfl
@[simp] theorem State.setEngine_lkr (s : State) (e : Engine) (r : EngineRun) : (s.setEngine e r).lkr = s.lkr := by cases e <;> rfl
@[simp] theorem State.setEngine_mem (s : State) (e : Engine) (r : EngineRun) : (s.setEngine e r).mem = s.mem := by cases e <;> rfl
@[simp] theorem State.setEngine_ref (s : State) (e : Engine) (r : EngineRun) : (s.setEngine e r).ref = s.ref := by cases e <;> rfl
@[simp] theorem State.setEngine_err (s : State) (e : Engine) (r : EngineRun) : (s.setEngine e r).err = s.err := by cases e <;> rfl
@[simp] theorem State.setEngine_pwr (s : State) (e : Engine) (r : EngineRun) : (s.setEngine e r).pwr = s.pwr := by cases e <;> rfl
@[simp] theorem State.setEngine_scb (s : State) (e : Engine) (r : EngineRun) : (s.setEngine e r).scb = s.scb := by cases e <;> rfl
@[simp] theorem State.setEngine_mgl (s : State) (e : Engine) (r : EngineRun) : (s.setEngine e r).mgl = s.mgl := by cases e <;> rfl
@[simp] theorem State.setEngine_rdc (s : State) (e : Engine) (r : EngineRun) : (s.setEngine e r).rdc = s.rdc := by cases e <;> rfl
@[simp] theorem State.setEngine_wst (s : State) (e : Engine) (r : EngineRun) : (s.setEngine e r).wst = s.wst := by cases e <;> rfl

@[simp] theorem State.modSweep_pending (s : State) (n : Nat) (f : Sweep → Sweep) : (s.modSweep n f).pending = s.pending := rfl
@[simp] theorem State.modSweep_ts (s : State) (n : Nat) (f : Sweep → Sweep) : (s.modSweep n f).ts = s.ts := rfl
@[simp] theorem State.modSweep_freeCtr (s : State) (n : Nat) (f : Sweep → Sweep) : (s.modSweep n f).freeCtr = s.freeCtr := rfl
@[simp] theorem State.modSweep_regs (s : State) (n : Nat) (f : Sweep → Sweep) : (s.modSweep n f).regs = s.regs := rfl
@[simp] theorem State.modSweep_host (s : State) (n : Nat) (f : Sweep → Sweep) : (s.modSweep n f).host = s.host := rfl
@[simp] theorem State.modSweep_ump (s : State) (n : Nat) (f : Sweep → Sweep) : (s.modSweep n f).ump = s.ump := rfl
@[simp] theorem State.modSweep_lkr (s : State) (n : Nat) (f : Sweep → Sweep) : (s.modSweep n f).lkr = s.lkr := rfl
@[simp] theorem State.modSweep_ref (s : State) (n : Nat) (f : Sweep → Sweep) : (s.modSweep n f).ref = s.ref := rfl
@[simp] theorem State.modSweep_err (s : State) (n : Nat) (f : Sweep → Sweep) : (s.modSweep n f).err = s.err := rfl
@[simp] theorem State.modSweep_pwr (s : State) (n : Nat) (f : Sweep → Sweep) : (s.modSweep n f).pwr = s.pwr := rfl
@[simp] theorem State.modSweep_scb (s : State) (n : Nat) (f : Sweep → Sweep) : (s.modSweep n f).scb = s.scb := rfl
@[simp] theorem State.modSweep_mgl (s : State) (n : Nat) (f : Sweep → Sweep) : (s.modSweep n f).mgl = s.mgl := rfl
@[simp] theorem State.modSweep_rdc (s : State) (n : Nat) (f : Sweep → Sweep) : (s.modSweep n f).rdc = s.rdc := rfl
@[simp] theorem State.modSweep_wst (s : State) (n : Nat) (f : Sweep → Sweep) : (s.modSweep n f).wst = s.wst := rfl
@[simp] theorem State.modSweep_eng (s : State) (n : Nat) (f : Sweep → Sweep) : (s.modSweep n f).eng = s.eng := rfl

@[simp] theorem State.setSlot_pending (s : State) (n : Nat) (r : RefSlot) : (s.setSlot n r).pending = s.pending := rfl
@[simp] theorem State.setSlot_ts (s : State) (n : Nat) (r : RefSlot) : (s.setSlot n r).ts = s.ts := rfl
@[simp] theorem State.setSlot_freeCtr (s : State) (n : Nat) (r : RefSlot) : (s.setSlot n r).freeCtr = s.freeCtr := rfl
@[simp] theorem State.setSlot_regs (s : State) (n : Nat) (r : RefSlot) : (s.setSlot n r).regs = s.regs := rfl
@[simp] theorem State.setSlot_host (s : State) (n : Nat) (r : RefSlot) : (s.setSlot n r).host = s.host := rfl
@[simp] theorem State.setSlot_ump (s : State) (n : Nat) (r : RefSlot) : (s.setSlot n r).ump = s.ump := rfl
@[simp] theorem State.setSlot_lkr (s : State) (n : Nat) (r : RefSlot) : (s.setSlot n r).lkr = s.lkr := rfl
@[simp] theorem State.setSlot_mem (s : State) (n : Nat) (r : RefSlot) : (s.setSlot n r).mem = s.mem := rfl
@[simp] theorem State.setSlot_err (s : State) (n : Nat) (r : RefSlot) : (s.setSlot n r).err = s.err := rfl
@[simp] theorem State.setSlot_pwr (s : State) (n : Nat) (r : RefSlot) : (s.setSlot n r).pwr = s.pwr := rfl
@[simp] theorem State.setSlot_scb (s : State) (n : Nat) (r : RefSlot) : (s.setSlot n r).scb = s.scb := rfl
@[simp] theorem State.setSlot_mgl (s : State) (n : Nat) (r : RefSlot) : (s.setSlot n r).mgl = s.mgl := rfl
@[simp] theorem State.setSlot_rdc (s : State) (n : Nat) (r : RefSlot) : (s.setSlot n r).rdc = s.rdc := rfl
@[simp] theorem State.setSlot_wst (s : State) (n : Nat) (r : RefSlot) : (s.setSlot n r).wst = s.wst := rfl
@[simp] theorem State.setSlot_eng (s : State) (n : Nat) (r : RefSlot) : (s.setSlot n r).eng = s.eng := rfl

@[simp] theorem State.setConn_pending (s : State) (p : Port) (c : SpdmConn) : (s.setConn p c).pending = s.pending := by cases p <;> rfl
@[simp] theorem State.setConn_ts (s : State) (p : Port) (c : SpdmConn) : (s.setConn p c).ts = s.ts := by cases p <;> rfl
@[simp] theorem State.setConn_freeCtr (s : State) (p : Port) (c : SpdmConn) : (s.setConn p c).freeCtr = s.freeCtr := by cases p <;> rfl
@[simp] theorem State.setConn_regs (s : State) (p : Port) (c : SpdmConn) : (s.setConn p c).regs = s.regs := by cases p <;> rfl
@[simp] theorem State.setConn_host (s : State) (p : Port) (c : SpdmConn) : (s.setConn p c).host = s.host := by cases p <;> rfl
@[simp] theorem State.setConn_ump (s : State) (p : Port) (c : SpdmConn) : (s.setConn p c).ump = s.ump := by cases p <;> rfl
@[simp] theorem State.setConn_lkr (s : State) (p : Port) (c : SpdmConn) : (s.setConn p c).lkr = s.lkr := by cases p <;> rfl
@[simp] theorem State.setConn_mem (s : State) (p : Port) (c : SpdmConn) : (s.setConn p c).mem = s.mem := by cases p <;> rfl
@[simp] theorem State.setConn_err (s : State) (p : Port) (c : SpdmConn) : (s.setConn p c).err = s.err := by cases p <;> rfl
@[simp] theorem State.setConn_pwr (s : State) (p : Port) (c : SpdmConn) : (s.setConn p c).pwr = s.pwr := by cases p <;> rfl
@[simp] theorem State.setConn_scb (s : State) (p : Port) (c : SpdmConn) : (s.setConn p c).scb = s.scb := by cases p <;> rfl
@[simp] theorem State.setConn_mgl (s : State) (p : Port) (c : SpdmConn) : (s.setConn p c).mgl = s.mgl := by cases p <;> rfl
@[simp] theorem State.setConn_rdc (s : State) (p : Port) (c : SpdmConn) : (s.setConn p c).rdc = s.rdc := by cases p <;> rfl
@[simp] theorem State.setConn_wst (s : State) (p : Port) (c : SpdmConn) : (s.setConn p c).wst = s.wst := by cases p <;> rfl
@[simp] theorem State.setConn_eng (s : State) (p : Port) (c : SpdmConn) : (s.setConn p c).eng = s.eng := by cases p <;> rfl

@[simp] theorem State.setGather_pending (s : State) (d : Nat) (g : GatherState) : (s.setGather d g).pending = s.pending := rfl
@[simp] theorem State.setGather_ts (s : State) (d : Nat) (g : GatherState) : (s.setGather d g).ts = s.ts := rfl
@[simp] theorem State.setGather_freeCtr (s : State) (d : Nat) (g : GatherState) : (s.setGather d g).freeCtr = s.freeCtr := rfl
@[simp] theorem State.setGather_regs (s : State) (d : Nat) (g : GatherState) : (s.setGather d g).regs = s.regs := rfl
@[simp] theorem State.setGather_host (s : State) (d : Nat) (g : GatherState) : (s.setGather d g).host = s.host := rfl
@[simp] theorem State.setGather_ump (s : State) (d : Nat) (g : GatherState) : (s.setGather d g).ump = s.ump := rfl
@[simp] theorem State.setGather_mem (s : State) (d : Nat) (g : GatherState) : (s.setGather d g).mem = s.mem := rfl
@[simp] theorem State.setGather_ref (s : State) (d : Nat) (g : GatherState) : (s.setGather d g).ref = s.ref := rfl
@[simp] theorem State.setGather_err (s : State) (d : Nat) (g : GatherState) : (s.setGather d g).err = s.err := rfl
@[simp] theorem State.setGather_pwr (s : State) (d : Nat) (g : GatherState) : (s.setGather d g).pwr = s.pwr := rfl
@[simp] theorem State.setGather_scb (s : State) (d : Nat) (g : GatherState) : (s.setGather d g).scb = s.scb := rfl
@[simp] theorem State.setGather_mgl (s : State) (d : Nat) (g : GatherState) : (s.setGather d g).mgl = s.mgl := rfl
@[simp] theorem State.setGather_rdc (s : State) (d : Nat) (g : GatherState) : (s.setGather d g).rdc = s.rdc := rfl
@[simp] theorem State.setGather_wst (s : State) (d : Nat) (g : GatherState) : (s.setGather d g).wst = s.wst := rfl
@[simp] theorem State.setGather_eng (s : State) (d : Nat) (g : GatherState) : (s.setGather d g).eng = s.eng := rfl

@[simp] theorem State.setTiles_pending (s : State) (c : Nat) (ts : List Tile) : (s.setTiles c ts).pending = s.pending := rfl
@[simp] theorem State.setTiles_ts (s : State) (c : Nat) (ts : List Tile) : (s.setTiles c ts).ts = s.ts := rfl
@[simp] theorem State.setTiles_freeCtr (s : State) (c : Nat) (ts : List Tile) : (s.setTiles c ts).freeCtr = s.freeCtr := rfl
@[simp] theorem State.setTiles_regs (s : State) (c : Nat) (ts : List Tile) : (s.setTiles c ts).regs = s.regs := rfl
@[simp] theorem State.setTiles_host (s : State) (c : Nat) (ts : List Tile) : (s.setTiles c ts).host = s.host := rfl
@[simp] theorem State.setTiles_ump (s : State) (c : Nat) (ts : List Tile) : (s.setTiles c ts).ump = s.ump := rfl
@[simp] theorem State.setTiles_lkr (s : State) (c : Nat) (ts : List Tile) : (s.setTiles c ts).lkr = s.lkr := rfl
@[simp] theorem State.setTiles_mem (s : State) (c : Nat) (ts : List Tile) : (s.setTiles c ts).mem = s.mem := rfl
@[simp] theorem State.setTiles_ref (s : State) (c : Nat) (ts : List Tile) : (s.setTiles c ts).ref = s.ref := rfl
@[simp] theorem State.setTiles_err (s : State) (c : Nat) (ts : List Tile) : (s.setTiles c ts).err = s.err := rfl
@[simp] theorem State.setTiles_pwr (s : State) (c : Nat) (ts : List Tile) : (s.setTiles c ts).pwr = s.pwr := rfl
@[simp] theorem State.setTiles_scb (s : State) (c : Nat) (ts : List Tile) : (s.setTiles c ts).scb = s.scb := rfl
@[simp] theorem State.setTiles_mgl (s : State) (c : Nat) (ts : List Tile) : (s.setTiles c ts).mgl = s.mgl := rfl
@[simp] theorem State.setTiles_rdc (s : State) (c : Nat) (ts : List Tile) : (s.setTiles c ts).rdc = s.rdc := rfl
@[simp] theorem State.setTiles_wst (s : State) (c : Nat) (ts : List Tile) : (s.setTiles c ts).wst = s.wst := rfl

@[simp] theorem State.setTodo_pending (s : State) (c : Nat) (ts : List Tile) : (s.setTodo c ts).pending = s.pending := rfl
@[simp] theorem State.setTodo_ts (s : State) (c : Nat) (ts : List Tile) : (s.setTodo c ts).ts = s.ts := rfl
@[simp] theorem State.setTodo_freeCtr (s : State) (c : Nat) (ts : List Tile) : (s.setTodo c ts).freeCtr = s.freeCtr := rfl
@[simp] theorem State.setTodo_regs (s : State) (c : Nat) (ts : List Tile) : (s.setTodo c ts).regs = s.regs := rfl
@[simp] theorem State.setTodo_host (s : State) (c : Nat) (ts : List Tile) : (s.setTodo c ts).host = s.host := rfl
@[simp] theorem State.setTodo_ump (s : State) (c : Nat) (ts : List Tile) : (s.setTodo c ts).ump = s.ump := rfl
@[simp] theorem State.setTodo_lkr (s : State) (c : Nat) (ts : List Tile) : (s.setTodo c ts).lkr = s.lkr := rfl
@[simp] theorem State.setTodo_mem (s : State) (c : Nat) (ts : List Tile) : (s.setTodo c ts).mem = s.mem := rfl
@[simp] theorem State.setTodo_ref (s : State) (c : Nat) (ts : List Tile) : (s.setTodo c ts).ref = s.ref := rfl
@[simp] theorem State.setTodo_err (s : State) (c : Nat) (ts : List Tile) : (s.setTodo c ts).err = s.err := rfl
@[simp] theorem State.setTodo_pwr (s : State) (c : Nat) (ts : List Tile) : (s.setTodo c ts).pwr = s.pwr := rfl
@[simp] theorem State.setTodo_scb (s : State) (c : Nat) (ts : List Tile) : (s.setTodo c ts).scb = s.scb := rfl
@[simp] theorem State.setTodo_mgl (s : State) (c : Nat) (ts : List Tile) : (s.setTodo c ts).mgl = s.mgl := rfl
@[simp] theorem State.setTodo_rdc (s : State) (c : Nat) (ts : List Tile) : (s.setTodo c ts).rdc = s.rdc := rfl
@[simp] theorem State.setTodo_wst (s : State) (c : Nat) (ts : List Tile) : (s.setTodo c ts).wst = s.wst := rfl

@[simp] theorem State.markDrained_pending (s : State) (c : Nat) (x : Tile) : (s.markDrained c x).pending = s.pending := rfl
@[simp] theorem State.markDrained_ts (s : State) (c : Nat) (x : Tile) : (s.markDrained c x).ts = s.ts := rfl
@[simp] theorem State.markDrained_freeCtr (s : State) (c : Nat) (x : Tile) : (s.markDrained c x).freeCtr = s.freeCtr := rfl
@[simp] theorem State.markDrained_regs (s : State) (c : Nat) (x : Tile) : (s.markDrained c x).regs = s.regs := rfl
@[simp] theorem State.markDrained_host (s : State) (c : Nat) (x : Tile) : (s.markDrained c x).host = s.host := rfl
@[simp] theorem State.markDrained_ump (s : State) (c : Nat) (x : Tile) : (s.markDrained c x).ump = s.ump := rfl
@[simp] theorem State.markDrained_lkr (s : State) (c : Nat) (x : Tile) : (s.markDrained c x).lkr = s.lkr := rfl
@[simp] theorem State.markDrained_mem (s : State) (c : Nat) (x : Tile) : (s.markDrained c x).mem = s.mem := rfl
@[simp] theorem State.markDrained_ref (s : State) (c : Nat) (x : Tile) : (s.markDrained c x).ref = s.ref := rfl
@[simp] theorem State.markDrained_err (s : State) (c : Nat) (x : Tile) : (s.markDrained c x).err = s.err := rfl
@[simp] theorem State.markDrained_pwr (s : State) (c : Nat) (x : Tile) : (s.markDrained c x).pwr = s.pwr := rfl
@[simp] theorem State.markDrained_scb (s : State) (c : Nat) (x : Tile) : (s.markDrained c x).scb = s.scb := rfl
@[simp] theorem State.markDrained_mgl (s : State) (c : Nat) (x : Tile) : (s.markDrained c x).mgl = s.mgl := rfl
@[simp] theorem State.markDrained_rdc (s : State) (c : Nat) (x : Tile) : (s.markDrained c x).rdc = s.rdc := rfl
@[simp] theorem State.markDrained_wst (s : State) (c : Nat) (x : Tile) : (s.markDrained c x).wst = s.wst := rfl

@[simp] theorem State.modWork_pending (s : State) (f : Work → Work) : (s.modWork f).pending = s.pending := rfl
@[simp] theorem State.modWork_ts (s : State) (f : Work → Work) : (s.modWork f).ts = s.ts := rfl
@[simp] theorem State.modWork_freeCtr (s : State) (f : Work → Work) : (s.modWork f).freeCtr = s.freeCtr := rfl
@[simp] theorem State.modWork_regs (s : State) (f : Work → Work) : (s.modWork f).regs = s.regs := rfl
@[simp] theorem State.modWork_host (s : State) (f : Work → Work) : (s.modWork f).host = s.host := rfl
@[simp] theorem State.modWork_lkr (s : State) (f : Work → Work) : (s.modWork f).lkr = s.lkr := rfl
@[simp] theorem State.modWork_mem (s : State) (f : Work → Work) : (s.modWork f).mem = s.mem := rfl
@[simp] theorem State.modWork_ref (s : State) (f : Work → Work) : (s.modWork f).ref = s.ref := rfl
@[simp] theorem State.modWork_err (s : State) (f : Work → Work) : (s.modWork f).err = s.err := rfl
@[simp] theorem State.modWork_pwr (s : State) (f : Work → Work) : (s.modWork f).pwr = s.pwr := rfl
@[simp] theorem State.modWork_scb (s : State) (f : Work → Work) : (s.modWork f).scb = s.scb := rfl
@[simp] theorem State.modWork_mgl (s : State) (f : Work → Work) : (s.modWork f).mgl = s.mgl := rfl
@[simp] theorem State.modWork_rdc (s : State) (f : Work → Work) : (s.modWork f).rdc = s.rdc := rfl
@[simp] theorem State.modWork_wst (s : State) (f : Work → Work) : (s.modWork f).wst = s.wst := rfl
@[simp] theorem State.modWork_eng (s : State) (f : Work → Work) : (s.modWork f).eng = s.eng := rfl

@[simp] theorem State.setAcct_pending (s : State) (c : Nat) (a : Acct) : (s.setAcct c a).pending = s.pending := rfl
@[simp] theorem State.setAcct_ts (s : State) (c : Nat) (a : Acct) : (s.setAcct c a).ts = s.ts := rfl
@[simp] theorem State.setAcct_freeCtr (s : State) (c : Nat) (a : Acct) : (s.setAcct c a).freeCtr = s.freeCtr := rfl
@[simp] theorem State.setAcct_regs (s : State) (c : Nat) (a : Acct) : (s.setAcct c a).regs = s.regs := rfl
@[simp] theorem State.setAcct_host (s : State) (c : Nat) (a : Acct) : (s.setAcct c a).host = s.host := rfl
@[simp] theorem State.setAcct_lkr (s : State) (c : Nat) (a : Acct) : (s.setAcct c a).lkr = s.lkr := rfl
@[simp] theorem State.setAcct_mem (s : State) (c : Nat) (a : Acct) : (s.setAcct c a).mem = s.mem := rfl
@[simp] theorem State.setAcct_ref (s : State) (c : Nat) (a : Acct) : (s.setAcct c a).ref = s.ref := rfl
@[simp] theorem State.setAcct_err (s : State) (c : Nat) (a : Acct) : (s.setAcct c a).err = s.err := rfl
@[simp] theorem State.setAcct_pwr (s : State) (c : Nat) (a : Acct) : (s.setAcct c a).pwr = s.pwr := rfl
@[simp] theorem State.setAcct_scb (s : State) (c : Nat) (a : Acct) : (s.setAcct c a).scb = s.scb := rfl
@[simp] theorem State.setAcct_mgl (s : State) (c : Nat) (a : Acct) : (s.setAcct c a).mgl = s.mgl := rfl
@[simp] theorem State.setAcct_rdc (s : State) (c : Nat) (a : Acct) : (s.setAcct c a).rdc = s.rdc := rfl
@[simp] theorem State.setAcct_wst (s : State) (c : Nat) (a : Acct) : (s.setAcct c a).wst = s.wst := rfl
@[simp] theorem State.setAcct_eng (s : State) (c : Nat) (a : Acct) : (s.setAcct c a).eng = s.eng := rfl

@[simp] theorem State.modPStep_pending (s : State) (d : Nat) (f : PStep → PStep) : (s.modPStep d f).pending = s.pending := rfl
@[simp] theorem State.modPStep_ts (s : State) (d : Nat) (f : PStep → PStep) : (s.modPStep d f).ts = s.ts := rfl
@[simp] theorem State.modPStep_freeCtr (s : State) (d : Nat) (f : PStep → PStep) : (s.modPStep d f).freeCtr = s.freeCtr := rfl
@[simp] theorem State.modPStep_regs (s : State) (d : Nat) (f : PStep → PStep) : (s.modPStep d f).regs = s.regs := rfl
@[simp] theorem State.modPStep_host (s : State) (d : Nat) (f : PStep → PStep) : (s.modPStep d f).host = s.host := rfl
@[simp] theorem State.modPStep_lkr (s : State) (d : Nat) (f : PStep → PStep) : (s.modPStep d f).lkr = s.lkr := rfl
@[simp] theorem State.modPStep_mem (s : State) (d : Nat) (f : PStep → PStep) : (s.modPStep d f).mem = s.mem := rfl
@[simp] theorem State.modPStep_ref (s : State) (d : Nat) (f : PStep → PStep) : (s.modPStep d f).ref = s.ref := rfl
@[simp] theorem State.modPStep_err (s : State) (d : Nat) (f : PStep → PStep) : (s.modPStep d f).err = s.err := rfl
@[simp] theorem State.modPStep_pwr (s : State) (d : Nat) (f : PStep → PStep) : (s.modPStep d f).pwr = s.pwr := rfl
@[simp] theorem State.modPStep_scb (s : State) (d : Nat) (f : PStep → PStep) : (s.modPStep d f).scb = s.scb := rfl
@[simp] theorem State.modPStep_mgl (s : State) (d : Nat) (f : PStep → PStep) : (s.modPStep d f).mgl = s.mgl := rfl
@[simp] theorem State.modPStep_rdc (s : State) (d : Nat) (f : PStep → PStep) : (s.modPStep d f).rdc = s.rdc := rfl
@[simp] theorem State.modPStep_wst (s : State) (d : Nat) (f : PStep → PStep) : (s.modPStep d f).wst = s.wst := rfl
@[simp] theorem State.modPStep_eng (s : State) (d : Nat) (f : PStep → PStep) : (s.modPStep d f).eng = s.eng := rfl

@[simp] theorem State.modRecord_pending (s : State) (n : Nat) (f : Record → Record) : (s.modRecord n f).pending = s.pending := rfl
@[simp] theorem State.modRecord_ts (s : State) (n : Nat) (f : Record → Record) : (s.modRecord n f).ts = s.ts := rfl
@[simp] theorem State.modRecord_freeCtr (s : State) (n : Nat) (f : Record → Record) : (s.modRecord n f).freeCtr = s.freeCtr := rfl
@[simp] theorem State.modRecord_regs (s : State) (n : Nat) (f : Record → Record) : (s.modRecord n f).regs = s.regs := rfl
@[simp] theorem State.modRecord_host (s : State) (n : Nat) (f : Record → Record) : (s.modRecord n f).host = s.host := rfl
@[simp] theorem State.modRecord_ump (s : State) (n : Nat) (f : Record → Record) : (s.modRecord n f).ump = s.ump := rfl
@[simp] theorem State.modRecord_mem (s : State) (n : Nat) (f : Record → Record) : (s.modRecord n f).mem = s.mem := rfl
@[simp] theorem State.modRecord_ref (s : State) (n : Nat) (f : Record → Record) : (s.modRecord n f).ref = s.ref := rfl
@[simp] theorem State.modRecord_err (s : State) (n : Nat) (f : Record → Record) : (s.modRecord n f).err = s.err := rfl
@[simp] theorem State.modRecord_pwr (s : State) (n : Nat) (f : Record → Record) : (s.modRecord n f).pwr = s.pwr := rfl
@[simp] theorem State.modRecord_scb (s : State) (n : Nat) (f : Record → Record) : (s.modRecord n f).scb = s.scb := rfl
@[simp] theorem State.modRecord_mgl (s : State) (n : Nat) (f : Record → Record) : (s.modRecord n f).mgl = s.mgl := rfl
@[simp] theorem State.modRecord_rdc (s : State) (n : Nat) (f : Record → Record) : (s.modRecord n f).rdc = s.rdc := rfl
@[simp] theorem State.modRecord_wst (s : State) (n : Nat) (f : Record → Record) : (s.modRecord n f).wst = s.wst := rfl
@[simp] theorem State.modRecord_eng (s : State) (n : Nat) (f : Record → Record) : (s.modRecord n f).eng = s.eng := rfl

@[simp] theorem State.setStream_pending (s : State) (r : StreamRun) : (s.setStream r).pending = s.pending := rfl
@[simp] theorem State.setStream_ts (s : State) (r : StreamRun) : (s.setStream r).ts = s.ts := rfl
@[simp] theorem State.setStream_freeCtr (s : State) (r : StreamRun) : (s.setStream r).freeCtr = s.freeCtr := rfl
@[simp] theorem State.setStream_regs (s : State) (r : StreamRun) : (s.setStream r).regs = s.regs := rfl
@[simp] theorem State.setStream_host (s : State) (r : StreamRun) : (s.setStream r).host = s.host := rfl
@[simp] theorem State.setStream_ump (s : State) (r : StreamRun) : (s.setStream r).ump = s.ump := rfl
@[simp] theorem State.setStream_lkr (s : State) (r : StreamRun) : (s.setStream r).lkr = s.lkr := rfl
@[simp] theorem State.setStream_mem (s : State) (r : StreamRun) : (s.setStream r).mem = s.mem := rfl
@[simp] theorem State.setStream_ref (s : State) (r : StreamRun) : (s.setStream r).ref = s.ref := rfl
@[simp] theorem State.setStream_err (s : State) (r : StreamRun) : (s.setStream r).err = s.err := rfl
@[simp] theorem State.setStream_pwr (s : State) (r : StreamRun) : (s.setStream r).pwr = s.pwr := rfl
@[simp] theorem State.setStream_scb (s : State) (r : StreamRun) : (s.setStream r).scb = s.scb := rfl
@[simp] theorem State.setStream_mgl (s : State) (r : StreamRun) : (s.setStream r).mgl = s.mgl := rfl
@[simp] theorem State.setStream_rdc (s : State) (r : StreamRun) : (s.setStream r).rdc = s.rdc := rfl
@[simp] theorem State.setStream_eng (s : State) (r : StreamRun) : (s.setStream r).eng = s.eng := rfl

@[simp] theorem State.modLoad_pending (s : State) (f : WsLoad → WsLoad) : (s.modLoad f).pending = s.pending := rfl
@[simp] theorem State.modLoad_ts (s : State) (f : WsLoad → WsLoad) : (s.modLoad f).ts = s.ts := rfl
@[simp] theorem State.modLoad_freeCtr (s : State) (f : WsLoad → WsLoad) : (s.modLoad f).freeCtr = s.freeCtr := rfl
@[simp] theorem State.modLoad_regs (s : State) (f : WsLoad → WsLoad) : (s.modLoad f).regs = s.regs := rfl
@[simp] theorem State.modLoad_host (s : State) (f : WsLoad → WsLoad) : (s.modLoad f).host = s.host := rfl
@[simp] theorem State.modLoad_ump (s : State) (f : WsLoad → WsLoad) : (s.modLoad f).ump = s.ump := rfl
@[simp] theorem State.modLoad_lkr (s : State) (f : WsLoad → WsLoad) : (s.modLoad f).lkr = s.lkr := rfl
@[simp] theorem State.modLoad_mem (s : State) (f : WsLoad → WsLoad) : (s.modLoad f).mem = s.mem := rfl
@[simp] theorem State.modLoad_ref (s : State) (f : WsLoad → WsLoad) : (s.modLoad f).ref = s.ref := rfl
@[simp] theorem State.modLoad_err (s : State) (f : WsLoad → WsLoad) : (s.modLoad f).err = s.err := rfl
@[simp] theorem State.modLoad_pwr (s : State) (f : WsLoad → WsLoad) : (s.modLoad f).pwr = s.pwr := rfl
@[simp] theorem State.modLoad_scb (s : State) (f : WsLoad → WsLoad) : (s.modLoad f).scb = s.scb := rfl
@[simp] theorem State.modLoad_mgl (s : State) (f : WsLoad → WsLoad) : (s.modLoad f).mgl = s.mgl := rfl
@[simp] theorem State.modLoad_rdc (s : State) (f : WsLoad → WsLoad) : (s.modLoad f).rdc = s.rdc := rfl
@[simp] theorem State.modLoad_eng (s : State) (f : WsLoad → WsLoad) : (s.modLoad f).eng = s.eng := rfl

@[simp] theorem State.setFabric_pending (s : State) (a b : Die) (l : FabricLink) : (s.setFabric a b l).pending = s.pending := rfl
@[simp] theorem State.setFabric_ts (s : State) (a b : Die) (l : FabricLink) : (s.setFabric a b l).ts = s.ts := rfl
@[simp] theorem State.setFabric_freeCtr (s : State) (a b : Die) (l : FabricLink) : (s.setFabric a b l).freeCtr = s.freeCtr := rfl
@[simp] theorem State.setFabric_regs (s : State) (a b : Die) (l : FabricLink) : (s.setFabric a b l).regs = s.regs := rfl
@[simp] theorem State.setFabric_host (s : State) (a b : Die) (l : FabricLink) : (s.setFabric a b l).host = s.host := rfl
@[simp] theorem State.setFabric_ump (s : State) (a b : Die) (l : FabricLink) : (s.setFabric a b l).ump = s.ump := rfl
@[simp] theorem State.setFabric_lkr (s : State) (a b : Die) (l : FabricLink) : (s.setFabric a b l).lkr = s.lkr := rfl
@[simp] theorem State.setFabric_mem (s : State) (a b : Die) (l : FabricLink) : (s.setFabric a b l).mem = s.mem := rfl
@[simp] theorem State.setFabric_ref (s : State) (a b : Die) (l : FabricLink) : (s.setFabric a b l).ref = s.ref := rfl
@[simp] theorem State.setFabric_err (s : State) (a b : Die) (l : FabricLink) : (s.setFabric a b l).err = s.err := rfl
@[simp] theorem State.setFabric_pwr (s : State) (a b : Die) (l : FabricLink) : (s.setFabric a b l).pwr = s.pwr := rfl
@[simp] theorem State.setFabric_scb (s : State) (a b : Die) (l : FabricLink) : (s.setFabric a b l).scb = s.scb := rfl
@[simp] theorem State.setFabric_rdc (s : State) (a b : Die) (l : FabricLink) : (s.setFabric a b l).rdc = s.rdc := rfl
@[simp] theorem State.setFabric_wst (s : State) (a b : Die) (l : FabricLink) : (s.setFabric a b l).wst = s.wst := rfl
@[simp] theorem State.setFabric_eng (s : State) (a b : Die) (l : FabricLink) : (s.setFabric a b l).eng = s.eng := rfl

@[simp] theorem State.freeBanks_pending (s : State) : (s.freeBanks).pending = s.pending := rfl
@[simp] theorem State.freeBanks_ts (s : State) : (s.freeBanks).ts = s.ts := rfl
@[simp] theorem State.freeBanks_freeCtr (s : State) : (s.freeBanks).freeCtr = s.freeCtr := rfl
@[simp] theorem State.freeBanks_regs (s : State) : (s.freeBanks).regs = s.regs := rfl
@[simp] theorem State.freeBanks_host (s : State) : (s.freeBanks).host = s.host := rfl
@[simp] theorem State.freeBanks_ump (s : State) : (s.freeBanks).ump = s.ump := rfl
@[simp] theorem State.freeBanks_lkr (s : State) : (s.freeBanks).lkr = s.lkr := rfl
@[simp] theorem State.freeBanks_mem (s : State) : (s.freeBanks).mem = s.mem := rfl
@[simp] theorem State.freeBanks_ref (s : State) : (s.freeBanks).ref = s.ref := rfl
@[simp] theorem State.freeBanks_err (s : State) : (s.freeBanks).err = s.err := rfl
@[simp] theorem State.freeBanks_pwr (s : State) : (s.freeBanks).pwr = s.pwr := rfl
@[simp] theorem State.freeBanks_scb (s : State) : (s.freeBanks).scb = s.scb := rfl
@[simp] theorem State.freeBanks_rdc (s : State) : (s.freeBanks).rdc = s.rdc := rfl
@[simp] theorem State.freeBanks_wst (s : State) : (s.freeBanks).wst = s.wst := rfl
@[simp] theorem State.freeBanks_eng (s : State) : (s.freeBanks).eng = s.eng := rfl

@[simp] theorem State.setLatch_pending (s : State) (p : Port) (o v : Nat) : (s.setLatch p o v).pending = s.pending := by unfold State.setLatch; split <;> rfl
@[simp] theorem State.setLatch_ts (s : State) (p : Port) (o v : Nat) : (s.setLatch p o v).ts = s.ts := by unfold State.setLatch; split <;> rfl
@[simp] theorem State.setLatch_freeCtr (s : State) (p : Port) (o v : Nat) : (s.setLatch p o v).freeCtr = s.freeCtr := by unfold State.setLatch; split <;> rfl
@[simp] theorem State.setLatch_regs (s : State) (p : Port) (o v : Nat) : (s.setLatch p o v).regs = s.regs := by unfold State.setLatch; split <;> rfl
@[simp] theorem State.setLatch_ump (s : State) (p : Port) (o v : Nat) : (s.setLatch p o v).ump = s.ump := by unfold State.setLatch; split <;> rfl
@[simp] theorem State.setLatch_lkr (s : State) (p : Port) (o v : Nat) : (s.setLatch p o v).lkr = s.lkr := by unfold State.setLatch; split <;> rfl
@[simp] theorem State.setLatch_mem (s : State) (p : Port) (o v : Nat) : (s.setLatch p o v).mem = s.mem := by unfold State.setLatch; split <;> rfl
@[simp] theorem State.setLatch_ref (s : State) (p : Port) (o v : Nat) : (s.setLatch p o v).ref = s.ref := by unfold State.setLatch; split <;> rfl
@[simp] theorem State.setLatch_err (s : State) (p : Port) (o v : Nat) : (s.setLatch p o v).err = s.err := by unfold State.setLatch; split <;> rfl
@[simp] theorem State.setLatch_pwr (s : State) (p : Port) (o v : Nat) : (s.setLatch p o v).pwr = s.pwr := by unfold State.setLatch; split <;> rfl
@[simp] theorem State.setLatch_scb (s : State) (p : Port) (o v : Nat) : (s.setLatch p o v).scb = s.scb := by unfold State.setLatch; split <;> rfl
@[simp] theorem State.setLatch_mgl (s : State) (p : Port) (o v : Nat) : (s.setLatch p o v).mgl = s.mgl := by unfold State.setLatch; split <;> rfl
@[simp] theorem State.setLatch_rdc (s : State) (p : Port) (o v : Nat) : (s.setLatch p o v).rdc = s.rdc := by unfold State.setLatch; split <;> rfl
@[simp] theorem State.setLatch_wst (s : State) (p : Port) (o v : Nat) : (s.setLatch p o v).wst = s.wst := by unfold State.setLatch; split <;> rfl
@[simp] theorem State.setLatch_eng (s : State) (p : Port) (o v : Nat) : (s.setLatch p o v).eng = s.eng := by unfold State.setLatch; split <;> rfl

/-- A run, a gather, the flit queue of a link and a court's tiles read as they were set. -/
@[simp] theorem State.setStream_stream (s : State) (r : StreamRun) : (s.setStream r).wst.stream = some r := rfl
@[simp] theorem State.setGather_gatherOf (s : State) (d : Nat) (g : GatherState) : (s.setGather d g).gatherOf d = g := by
  simp [State.gatherOf, State.setGather, Tbl.getD]
@[simp] theorem State.setFabric_fabricLink (s : State) (a b : Die) (l : FabricLink) : (s.setFabric a b l).fabricLink a b = l := by
  simp [State.fabricLink, State.setFabric, Tbl.getD]

end Sys2Proof.Machine
end

