-- ==== Sys2Proof/WellFormed.lean ====
section
/-! DEFINITION. Which commands name units that exist: courts, cubes, engines, channels, dies, ports, functions,
contexts, rings and slots within the counts of R5, R16, R17, R407, R441 and R452. -/
namespace Sys2Proof

/-- Does every unit number the command carries name a unit of the device? -/
def Instr.wellFormed (i : Instr) : Bool :=
  match i with
  | .powerUp => true
  | .powerDown => true
  | .coldReset => true
  | .sysRstNRelease _ => true
  | .warmReset => true
  | .rstCtlWarm _ _ => true
  | .thermalTrip sensor _ => decide (sensor < 74)
  | .thermalTripEnd _ => true
  | .railFault rail => decide (rail < 9)
  | .inputUndervoltage _ => true
  | .umpireWatchdog => true
  | .refereeFault _ => true
  | .portReset _ => true
  | .functionLevelReset _ func => decide (func < 64)
  | .bootSequence _ => true
  | .bootGo _ _ => true
  | .bootHostTimeout => true
  | .bootChunkReceive => true
  | .bootLoadGone => true
  | .bootLoadResend => true
  | .flashSelChange _ => true
  | .pwrReqActive _ => true
  | .pwrReqIdle _ => true
  | .pwrReqStandby _ => true
  | .powerControlTick _ => true
  | .mgmtWarmReset => true
  | .mgmtHalfTime => true
  | .mgmtResume => true
  | .mgmtAtTsReached => true
  | .smbV48 => true
  | .smbInputCurrent => true
  | .smbPower => true
  | .smbJunction => true
  | .smbInlet => true
  | .smbBootStatus => true
  | .smbRstCause => true
  | .smbState => true
  | .smbAlert => true
  | .flashRead _ _ => true
  | .flashProgram _ _ => true
  | .flashErase _ _ => true
  | .flashOpDone _ => true
  | .fabricFlitReceive link _ word =>
    Machine.joined link.1 link.2 && word.flit.src.present && word.flit.dst.present &&
      decide (word.flit.data.length = 64) && decide (word.received.length = 67)
  | .doorbellWrite _ func page _ _ _ => decide (func < 64) && decide (page < 256)
  | .descriptorAccept ctx ring _ => decide (ctx < 4096) && decide (ring < 16)
  | .flagHandover _ func _ _ _ => decide (func < 64)
  | .flagReclaim _ func _ _ _ => decide (func < 64)
  | .windowHostAccess _ func _ _ => decide (func < 64)
  | .serve ctx ring => decide (ctx < 4096) && decide (ring < 16)
  | .adapterLoad ctx ring _ => decide (ctx < 4096) && decide (ring < 16)
  | .adapterLoadComplete _ _ => true
  | .adapterUnload ctx ring => decide (ctx < 4096) && decide (ring < 16)
  | .adapterRevoke ctx ring => decide (ctx < 4096) && decide (ring < 16)
  | .practiceOpen ctx ring _ => decide (ctx < 4096) && decide (ring < 16)
  | .practiceStep ctx ring => decide (ctx < 4096) && decide (ring < 16)
  | .practiceExport ctx ring => decide (ctx < 4096) && decide (ring < 16)
  | .practiceExportDone _ => true
  | .practiceClose ctx ring => decide (ctx < 4096) && decide (ring < 16)
  | .practiceCloseDone _ => true
  | .wsLoad ctx ring => decide (ctx < 4096) && decide (ring < 16)
  | .schedLoad ctx ring _ => decide (ctx < 4096) && decide (ring < 16)
  | .schedUnload ctx ring => decide (ctx < 4096) && decide (ring < 16)
  | .schedUnloadDone slot => decide (slot < 8)
  | .mailboxRequestCopy _ vf _ => decide (vf < 64)
  | .mailboxReplyCopy _ _ => true
  | .hubMbxCfg4Write _ func _ => decide (func < 64)
  | .hubHeartbeat _ _ => true
  | .peerLost _ => true
  | .stagedWrite _ _ _ => true
  | .huddleCheck _ _ => true
  | .huddleApplyRequest _ _ _ => true
  | .huddleDiscard _ _ _ _ => true
  | .huddleCheckDone _ => true
  | .registerWrite _ func _ _ _ => decide (func < 64)
  | .scbTsLoRead _ => true
  | .crtSatTotalLoRead _ => true
  | .umpServeNoLoRead _ => true
  | .rdcGstepLoRead _ => true
  | .clkThrNsLoRead _ => true
  | .rstMgmtSeqLoRead _ => true
  | .hdlAppliedTsLoRead _ => true
  | .slotEnd => true
  | .serveBoundary => true
  | .groupSlotStart index => decide (index < 64)
  | .rsvWindowEnd index => decide (index < 64)
  | .overrunLimit => true
  | .urgentSubstitution _ _ => true
  | .segmentStart => true
  | .segmentEnd => true
  | .serveEnd => true
  | .layerStreamStart => true
  | .streamEntryComplete => true
  | .layerComputeStart => true
  | .prefixGatherStart die => decide (die < 16)
  | .prefixGatherComplete die => decide (die < 16)
  | .kvWriteback die layer => decide (die < 16) && decide (layer < 1024)
  | .kvWritebackDone die layer => decide (die < 16) && decide (layer < 1024)
  | .mma court _ => decide (court < 128)
  | .mmaPair court _ => decide (court < 128)
  | .tileDrain court cube => decide (court < 128) && decide (cube < 4)
  | .tileWait court _ => decide (court < 128)
  | .tileSignal court _ => decide (court < 128)
  | .tileEnd court _ => decide (court < 128)
  | .semaphoreReached sem => decide (sem < 1024)
  | .ew engine _ => decide (engine < 256)
  | .red engine _ => decide (engine < 256)
  | .softmax engine _ => decide (engine < 256)
  | .lnorm engine _ => decide (engine < 256)
  | .rmsnorm engine _ => decide (engine < 256)
  | .route engine _ => decide (engine < 256)
  | .loss engine _ => decide (engine < 256)
  | .combine engine _ => decide (engine < 256)
  | .opt engine _ => decide (engine < 256)
  | .scan engine _ => decide (engine < 256)
  | .softmaxBwd engine _ => decide (engine < 256)
  | .normBwd engine _ => decide (engine < 256)
  | .vecWait engine _ => decide (engine < 256)
  | .vecSignal engine _ => decide (engine < 256)
  | .vecEnd engine _ => decide (engine < 256)
  | .copy engine _ => decide (engine < 32)
  | .listCopy engine _ => decide (engine < 32)
  | .embag engine _ => decide (engine < 32)
  | .embagBwd engine _ => decide (engine < 32)
  | .gatherWait engine _ => decide (engine < 32)
  | .gatherSignal engine _ => decide (engine < 32)
  | .gatherEnd engine _ => decide (engine < 32)
  | .allreduce channel _ => decide (channel < 68)
  | .reduce channel _ => decide (channel < 68)
  | .bcast channel _ => decide (channel < 68)
  | .allgather channel _ => decide (channel < 68)
  | .dispatch channel _ => decide (channel < 68)
  | .channelCombine channel _ => decide (channel < 68)
  | .channelWait channel _ => decide (channel < 68)
  | .channelSignal channel _ => decide (channel < 68)
  | .channelEnd channel _ => decide (channel < 68)
  | .rdcDataReceive => true
  | .fbCountsReceive => true
  | .fbRowReceive => true
  | .fbReturnReceive => true
  | .dueNsDeadline channel => decide (channel < 68)
  | .voteSend => true
  | .voteReceive => true
  | .voteForwardBound => true
  | .verdictReceive => true
  | .verdictTimeout => true
  | .portUp port _ => decide (port < 16)
  | .portRetry port => decide (port < 16)
  | .frameReceive port _ => decide (port < 16)
  | .lmcReplayRequest port _ => decide (port < 16)
  | .lmcCreditReturn port _ _ => decide (port < 16)
  | .packetRoute port => decide (port < 16)
  | .outputArbitration port => decide (port < 16)
  | .tsyncExchange => true
  | .syncReq port => decide (port.1 < 16)
  | .syncReply _ _ _ _ _ => true
  | .tsyncTimeout => true
  | .sessionHandshake port _ => decide (port < 16)
  | .rekey port _ => decide (port < 16)
  | .rekeyLimit port => decide (port < 16)
  | .loadStart _ _ => true
  | .loadAbort _ _ => true
  | .preambleVerify => true
  | .shardWriteDone _ => true
  | .loadData => true
  | .loadResend => true
  | .loadGone => true
  | .loadSourceTimeout => true
  | .wsLineReread die block line _ _ => decide (die < 16) && decide (block < 8192) && decide (line < 16384)
  | .readReq => true
  | .readRsp => true
  | .mirrorFetchTimeout _ => true
  | .drainLimitExpiry => true
  | .lkrQuery _ _ => true
  | .lkrQueryDone => true
  | .commitCopyDone _ => true
  | .memReread _ _ _ => true
  | .patrolRead _ _ => true
  | .scrubPageDone => true
  | .keyLoadReceive die slot => decide (die < 4) && decide (slot < 65536)
  | .sweepLine slot => decide (slot < 65536)
  | .refRotateGo _ _ => true
  | .purgeGo _ _ => true
  | .slotPurgeDone slot => decide (slot < 65536)
  | .refDbgCtlLock _ _ => true
  | .refProfCtlReq _ _ => true
  | .dbgChallenge _ => true
  | .dbgResponse _ _ _ => true
  | .getVersion _ _ => true
  | .getCapabilities _ _ => true
  | .negotiateAlgorithms _ _ => true
  | .getDigests _ _ => true
  | .getCertificate _ _ => true
  | .challenge _ _ => true
  | .getMeasurements _ _ => true
  | .keyExchange _ _ => true
  | .finish _ _ _ _ => true
  | .spdmHeartbeat _ _ _ => true
  | .keyUpdate _ _ _ => true
  | .endSession _ _ _ => true
  | .ideKm _ _ _ => true
  | .tntBind _ _ => true
  | .tntKem _ _ => true
  | .skeyInstall _ _ => true
  | .skeyRevoke _ _ => true
  | .pkeyRotate _ _ => true
  | .grant _ _ => true
  | .allow _ _ => true
  | .consent _ _ => true
  | .report _ _ => true
  | .resume _ _ => true
  | .close _ _ => true
  | .purge _ _ => true
  | .unitFaultReport _ _ _ => true
  | .progressTimeout _ _ => true
  | .storm _ _ => true
  | .fenceComplete => true
  | .thermalHoldEntry sensor _ => decide (sensor < 74)
  | .thermalHoldExit => true
  | .tracePop _ => true
  | .swMark _ _ => true
  | .traceWordTimeout queue => decide (queue < 24)
  | .pmuClr _ block _ => decide (block < 24)
  | .pmuValLoRead _ block counter => decide (block < 24) && decide (counter < 8)
  | .pmuCycLoRead _ block => decide (block < 24)
  | .perstDeassertion _ => true
  | .spiNorShardRead => true
  | .peerTakesLinkDown port => decide (port < 16)
  | .vfEnable _ _ => true

end Sys2Proof
end

