-- ==== Sys2Proof/Tests/Slice0.lean ====
section
/-! SUPPORT. Tests: for every statement with hypotheses a state and operands that meet them, clause by clause; ill-formed
commands that WellFormed refuses; and a few effects worked out by hand from the spec. -/
namespace Sys2Proof.Tests
open Sys2Proof Sys2Proof.Machine
set_option linter.all false
set_option Elab.async false
set_option maxRecDepth 100000

/-! Small states. -/

/-- A device that has booted. -/
def run : State := { State.reset with pwr := { State.reset.pwr with phase := .running } }
/-- A state with another power part. -/
def pwr (f : PwrState → PwrState) (s : State) : State := { s with pwr := f s.pwr }
/-- A state with a field of a register set. -/
def reg (key lo w v : Nat) (s : State) : State := s.setFld key lo w v
/-- A state whose inbox holds one packet. -/
def inbox (k : InboxPacket) (s : State) : State := { s with mgl := { s.mgl with inbox := [k] } }
/-- A packet of a type. -/
def packet (ty vc ch seq : Nat) (data : List Byte) : Packet :=
  { dst := 0, src := 0, vc := vc, hops := 0, ch := ch, ty := ty, len := data.length, tsLo := 0, seq := seq, reserved := 0, data := data }
/-- A packet received on port 0. -/
def got (ty vc ch seq : Nat) (data : List Byte) : InboxPacket := ⟨0, true, packet ty vc ch seq data⟩
/-- A port that is UP. -/
def upPort : MglPort := { MglPort.down with phase := .up }
/-- A state with a port of Mirgarlink set. -/
def port (p : Nat) (l : MglPort) (s : State) : State := s.setLink p l

theorem inv_of {s : State} (h1 : s.mem.cells = []) (h2 : s.regs = []) : s.Inv :=
  ⟨by rw [h1]; rfl, by rw [h2]; exact RegsWf.nil⟩
theorem inv_reg {s : State} (key lo w v : Nat) (h : s.Inv) : (reg key lo w v s).Inv := ⟨h.1, RegsWf.regsSet _ _ h.2⟩

/-! The step. -/

theorem witness_StepKeepsInv : ∃ s t : State, s.Inv ∧ step s = .next t ∧ s.pending ≠ [] :=
  ⟨{ run with pending := [.smbV48] }, _, inv_of rfl rfl, rfl, by decide⟩
theorem witness_EpochAndSvnNeverFall : ∃ s t : State, step s = .next t ∧ 0 < s.wst.epoch ∧ 0 < s.pwr.fusedSvn :=
  ⟨{ run with pending := [.smbV48], wst := { run.wst with epoch := 1 }, pwr := { run.pwr with fusedSvn := 1 } }, _, rfl, by decide, by decide⟩
theorem witness_CommandsLeaveQueueAndOutput : ∃ (c : Instr) (s t : State), exec c s = .next t ∧ s.pending ≠ [] ∧ s.host.out ≠ [] :=
  ⟨.smbV48, { run with pending := [.smbPower], host := { run.host with out := [.smbus 0 0] } }, _, rfl, by decide, by decide⟩
theorem witness_FrameOfEveryCommand : ∃ (c : Instr) (s t : State) (p : Part), exec c s = .next t ∧ p ∉ touched c ∧
    Part.cells ∉ touched c := ⟨.smbV48, run, _, .regs, rfl, by decide, by decide⟩

/-! Power, resets and bring-up. -/

theorem witness_PowerComesAndGoes :
    (∃ s : State, s.pwr.phase = .off ∧ s.pwr.v48 = true) ∧ (∃ s : State, s.pwr.phase ≠ .off) ∧
    (∃ (s : State) (straps : Nat), s.Inv ∧ s.pwr.powerGood = true ∧ s.pwr.phase = .coldReset ∧ s.pwr.sysRstN = false ∧
      s.pwr.trip = false ∧ s.pwr.warmBoot = false ∧ straps < 16) ∧
    (∃ s : State, s.pwr.sysRstN = true) :=
  ⟨⟨pwr (fun p => { p with phase := .off }) run, by decide⟩, ⟨run, by decide⟩,
    ⟨pwr (fun p => { p with phase := .coldReset, sysRstN := false }) run, 15, inv_of rfl rfl, by decide⟩, ⟨run, by decide⟩⟩

theorem witness_ResetsComplete :
    (∃ (s : State) (v : Word), s.Inv ∧ warmMay s ∧ v.getLsbD 0 = true) ∧
    (∃ (s : State) (n : Nat) (e : Int), s.pwr.phase ≠ .off ∧ n < 64 ∧ 896 ≤ e ∧ s.pwr.trip = false) ∧
    (∃ (s : State) (xs : List Int), s.pwr.trip = true ∧ s.pwr.sysRstN = true ∧ s.pwr.phase = .coldReset ∧ xs ≠ [] ∧
      ∀ x ∈ readAll s.pwr.sensors xs, x.1 < 64 → x.2 ≤ 720) ∧
    (∃ (s : State) (r : Nat), s.pwr.phase ≠ .off ∧ r < 9) ∧ (∃ (s : State) (mv : Nat), s.pwr.phase ≠ .off ∧ mv < 38000) ∧
    (∃ s : State, s.Inv ∧ s.pwr.phase = .running) ∧
    (∃ s : State, s.pwr.phase = .running ∧ s.pwr.sysRstN = true ∧ s.pwr.trip = false ∧ s.pwr.powerGood = true) ∧
    (∃ (s : State) (p : Port) (f : Nat), s.Inv ∧ s.pwr.phase = .running ∧ 0 < f ∧ f ≤ (s.host.port p).vfs) :=
  ⟨⟨run, 1, inv_of rfl rfl, Or.inl rfl, by decide⟩, ⟨run, 63, 896, by decide⟩,
    ⟨pwr (fun p => { p with phase := .coldReset, trip := true }) run, [720, -8], by decide⟩, ⟨run, 8, by decide⟩,
    ⟨run, 37999, by decide⟩, ⟨run, inv_of rfl rfl, rfl⟩, ⟨run, by decide⟩,
    ⟨run.modPort .a (fun q => { q with vfs := 63 }), .a, 63, inv_of rfl rfl, by decide⟩⟩

theorem witness_WarmResetRestoresRegisters : ∃ (s : State) (key : Nat), s.Inv ∧ warmMay s ∧ key ≠ R.rstCause ∧
    key ≠ R.wstCtl ∧ key ≠ R.clkStatus ∧ s.regAt key ≠ regReset key :=
  ⟨reg R.umpCtl 0 8 7 run, R.umpCtl, inv_reg _ _ _ _ (inv_of rfl rfl), Or.inl rfl, by decide⟩

/-- A device that boots from host A. -/
def booting : State := reg R.rstBootLen 0 27 4096 (reg R.rstStraps 0 2 1 State.reset)
/-- A device that boots by pass chain. -/
def chained : State := reg R.rstStraps 0 2 3 State.reset

theorem witness_BootCompletes :
    (∃ (s : State) (b : BootTests), s.Inv ∧ s.pwr.phase = .booting ∧ s.regFld R.rstBootStatus 0 4 = 0 ∧
      s.regFld R.rstStraps 2 2 ≠ 3 ∧ s.regFld R.rstStraps 0 2 = 1 ∧ s.pwr.goReceived = false ∧ b.selfTest = true) ∧
    (∃ s : State, s.Inv ∧ s.pwr.phase = .booting ∧ s.regFld R.rstBootStatus 0 4 = 7 ∧ (∀ d < 16, s.courtCount d ≠ 0) ∧
      s.regAt R.lkrOnline ≠ 0) ∧
    (∃ (s : State) (v : Word), s.Inv ∧ waitsForHost s = true ∧ v.getLsbD 0 = true ∧ s.regFld R.rstBootLen 0 27 ≠ 0) ∧
    (∃ s : State, s.pwr.phase ≠ .booting) ∧
    (∃ s : State, s.Inv ∧ s.pwr.phase = .booting ∧ s.regFld R.rstStraps 0 2 = 0 ∧ s.pwr.flashSel = false) :=
  have i := inv_reg R.rstBootLen 0 27 4096 (inv_reg R.rstStraps 0 2 1 (inv_of (s := State.reset) rfl rfl))
  ⟨⟨booting, ⟨true, true, [], [], [], []⟩, i, by decide⟩,
    ⟨reg R.rstBootStatus 0 4 7 State.reset, inv_reg _ _ _ _ (inv_of (s := State.reset) rfl rfl), by decide⟩,
    ⟨booting, 1, i, by decide⟩, ⟨run, by decide⟩,
    ⟨State.reset, inv_of rfl rfl, by decide⟩⟩

theorem witness_PassChainCompletes :
    (∃ (s : State) (k : InboxPacket), s.mgl.inbox = [k] ∧ isBootAnswer 0x20 k = true ∧ chainBooting s = true ∧
      k.packet.seq * 4096 = s.pwr.bundleLen ∧ k.packet.len = 4096) ∧
    (∃ (s : State) (k : InboxPacket), s.Inv ∧ s.mgl.inbox = [k] ∧ isBootAnswer 0x22 k = true ∧ chainBooting s = true) ∧
    (∃ (s : State) (k : InboxPacket), s.pwr.phase = .running ∧ s.mgl.inbox = [k] ∧ isBootRequest s k = true ∧
      s.regFld R.rstStraps 0 2 = 0 ∧ s.pwr.flashSel = false ∧ k.packet.seq < 16384) ∧
    (∃ (s : State) (k : InboxPacket), s.pwr.phase = .running ∧ s.mgl.inbox = [k] ∧ isBootRequest s k = true ∧
      s.regFld R.rstStraps 0 2 = 3) ∧
    (∃ (s : State) (k : InboxPacket), s.pwr.phase = .running ∧ s.mgl.inbox = [k] ∧ isBootRequest s k = true ∧
      s.regFld R.rstStraps 0 2 = 0 ∧ 16384 ≤ k.packet.seq) ∧
    (∀ ty ∈ [0x20, 0x22], ∃ (s : State) (k : InboxPacket), s.pwr.phase = .running ∧ s.mgl.inbox = [k] ∧ relays s k = true ∧
      isBootAnswer ty k = true) :=
  let asked (n : Nat) : State := inbox (got 0x21 15 127 n []) (port 0 { upPort with boot := true } run)
  ⟨⟨inbox (got 0x20 15 127 0 (List.replicate 4096 0)) chained, got 0x20 15 127 0 (List.replicate 4096 0), rfl, rfl,
      by decide, rfl, List.length_replicate ..⟩,
    ⟨inbox (got 0x22 15 127 0 []) chained, got 0x22 15 127 0 [],
      show chained.Inv from inv_reg _ _ _ _ (inv_of (s := State.reset) rfl rfl), rfl, by decide⟩,
    ⟨asked 16383, got 0x21 15 127 16383 [], by decide⟩, ⟨reg R.rstStraps 0 2 3 (asked 1), got 0x21 15 127 1 [], by decide⟩,
    ⟨asked 16384, got 0x21 15 127 16384 [], by decide⟩, fun ty h =>
      ⟨{ run with mgl := { run.mgl with inbox := [got ty 15 127 5 []], bootRelay := [(2, 5)] } }, got ty 15 127 5 [],
        by fin_cases h <;> decide⟩⟩

/-! Power states, management commands, the board. -/

/-- A slot that runs. -/
def idleSlot : Slot := ⟨0, 500000, 500000, .idle, none, true⟩
def ump (f : UmpState → UmpState) (s : State) : State := { s with ump := f s.ump }

theorem witness_PowerStatesComplete :
    (∀ x ∈ [PowerState.active, .idle, .standby], ∃ s : State, s.Inv ∧ s.pwr.phase = .running ∧ s.pwr.request = none ∧
      s.pwr.state = x ∧ s.ump.slot = none) ∧
    (∃ s : State, s.Inv ∧ s.pwr.phase = .running ∧ s.pwr.request = none ∧ s.pwr.state = .active ∧ s.ump.slot ≠ none) ∧
    (∃ s : State, s.Inv ∧ s.pwr.phase = .running ∧ s.pwr.request ≠ none) ∧
    (∃ s : State, s.Inv ∧ s.pwr.phase = .running ∧ s.pwr.state = .active ∧ s.clock16 = 16) ∧
    (∃ s : State, s.Inv ∧ s.pwr.phase = .running ∧ s.pwr.state = .active ∧ s.clock16 = 12) :=
  ⟨fun x _ => ⟨pwr (fun p => { p with state := x }) run, inv_of rfl rfl, rfl, rfl, rfl, rfl⟩,
    ⟨ump (fun u => { u with slot := some idleSlot }) run, inv_of rfl rfl, by decide⟩,
    ⟨pwr (fun p => { p with request := some .idle }) run, inv_of rfl rfl, by decide⟩, ⟨run, inv_of rfl rfl, by decide⟩,
    ⟨reg R.clkStatus 0 4 12 run, inv_reg _ _ _ _ (inv_of (s := run) rfl rfl), by decide⟩⟩

/-- A member of a group whose controller has rank 0. -/
def member : State := { run with ref := { run.ref with groupList := [1] } }
/-- A management packet. -/
def mgmt (cmd sq at_ : Nat) : InboxPacket := got 0x30 15 127 0 (bytesOf 4 cmd ++ bytesOf 4 0 ++ bytesOf 8 sq ++ bytesOf 8 at_)

/-- A member with another power state. -/
def memberIn (x : PowerState) : State := pwr (fun p => { p with state := x }) member

theorem witness_ManagementCommandsComplete :
    (∃ (s : State) (k : InboxPacket), s.Inv ∧ s.inbox? (isMgmt 1) = some k ∧ mgmtAccepted s k = true ∧
      ofBytes ((k.packet.data.drop 16).take 8) = 0 ∧ warmMay s) ∧
    (∀ x ∈ [PowerState.active, .idle, .standby], ∀ n ∈ [2, 3], ∃ (s : State) (k : InboxPacket), s.Inv ∧
      s.inbox? (isMgmt n) = some k ∧ mgmtAccepted s k = true ∧ ofBytes ((k.packet.data.drop 16).take 8) = 0 ∧
      s.pwr.phase = .running ∧ s.pwr.request = none ∧ s.pwr.state = x) ∧
    (∀ n ∈ [2, 3], ∃ (s : State) (k : InboxPacket), s.Inv ∧ s.inbox? (isMgmt n) = some k ∧ mgmtAccepted s k = true ∧
      ofBytes ((k.packet.data.drop 16).take 8) = 0 ∧ s.pwr.phase = .running ∧ s.pwr.request ≠ none) ∧
    (∀ n ∈ [1, 2, 3], ∃ (s : State) (k : InboxPacket), s.inbox? (isMgmt n) = some k ∧ mgmtAccepted s k = true ∧
      ofBytes ((k.packet.data.drop 16).take 8) ≠ 0) ∧
    (∀ n ∈ [1, 2, 3], ∃ (s : State) (k : InboxPacket), s.inbox? (isMgmt n) = some k ∧ mgmtAccepted s k = false) ∧
    (∃ (s : State) (at_ : Nat), s.Inv ∧ s.pwr.mgmt = some (.warmReset, at_) ∧ s.ump.slot = none ∧ warmMay s) ∧
    (∃ (s : State) (at_ : Nat) (u : Slot), s.Inv ∧ s.pwr.mgmt = some (.halfTime, at_) ∧ s.ump.slot = some u ∧ at_ ≤ u.slotEnd ∧
      s.pwr.phase = .running ∧ s.pwr.request = none ∧ s.pwr.state = .active) ∧
    (∃ (s : State) (at_ : Nat), s.Inv ∧ s.pwr.mgmt = some (.resume, at_) ∧ s.ump.slot = none ∧
      s.pwr.phase = .running ∧ s.pwr.request = none ∧ s.pwr.state = .idle) :=
  ⟨⟨inbox (mgmt 1 1 0) member, mgmt 1 1 0, inv_of rfl rfl, by decide, by decide, by decide, Or.inl rfl⟩,
    fun x h n k => ⟨inbox (mgmt n 1 0) (memberIn x), mgmt n 1 0, inv_of rfl rfl, by fin_cases h <;> fin_cases k <;> decide⟩,
    fun n k => ⟨inbox (mgmt n 1 0) (pwr (fun p => { p with request := some .idle }) member), mgmt n 1 0, inv_of rfl rfl,
      by fin_cases k <;> decide⟩,
    fun n k => ⟨inbox (mgmt n 1 7) member, mgmt n 1 7, by fin_cases k <;> decide⟩,
    fun n k => ⟨inbox (mgmt n 0 7) member, mgmt n 0 7, by fin_cases k <;> decide⟩,
    ⟨pwr (fun p => { p with mgmt := some (.warmReset, 5) }) member, 5, inv_of rfl rfl, rfl, rfl, Or.inl rfl⟩,
    ⟨pwr (fun p => { p with mgmt := some (.halfTime, 5) }) (ump (fun u => { u with slot := some idleSlot }) run), 5, idleSlot,
      inv_of rfl rfl, by decide⟩,
    ⟨pwr (fun p => { p with mgmt := some (.resume, 5), state := .idle }) run, 5, inv_of rfl rfl, by decide⟩⟩

theorem witness_BoardManagementCompletes :
    (∃ s : State, s.pwr.pwrEn = true) ∧
    (∃ (s : State) (v : Word), s.Inv ∧ s.pwr.phase = .running ∧ s.pwr.flashSel = false ∧ s.pwr.flashOp = none ∧
      v.getLsbD 31 = true ∧ v.getLsbD 3 = false) ∧
    (∀ op ∈ [0, 1, 2], ∃ (s : State) (addr : Nat) (bs : List Byte), s.Inv ∧ s.pwr.flashOp = some ⟨op, addr, bs⟩) :=
  ⟨⟨run, rfl⟩, ⟨run, 0x80000000, inv_of rfl rfl, by decide⟩,
    fun op _ => ⟨pwr (fun p => { p with flashOp := some ⟨op, 0x3FFFFC0, []⟩ }) run, 0x3FFFFC0, [], inv_of rfl rfl, rfl⟩⟩

/-! The fabric and Mirgarlink. -/

/-- A port in training. -/
def trainingPort : MglPort := { MglPort.down with phase := .training }

/-- A flit on its way, and a link that waits for it. -/
def flit (d : Die) : FabricFlit := ⟨.ctrl, .cd 0, d, List.replicate 64 0⟩
def fabricAt (b : Die) (l : FabricLink) : State := run.setFabric (.cd 0) b l
/-- 67 bytes that are no codeword of SC8 and that it cannot correct. -/
def badWord : List Byte := [1, 0, 0, 0, 0, 0, 0, 0, 0, 1, 2] ++ List.replicate 56 0

theorem witness_FabricFlitsDeliver :
    (∀ d ∈ [Die.sd 0, .wd 3], ∃ (s : State) (b : Die) (l : FabricLink) (word : FlitArrival), s.powered = true ∧
      joined (.cd 0) b = true ∧ (s.fabricLink (.cd 0) b).sentAs 0 word.flit = some l ∧ l.expected = 0 ∧ word.flit.dst = d ∧
      sc8Decode word.received = .correct) ∧
    (∃ (s : State) (l : FabricLink) (word : FlitArrival) (bytes : List Byte), s.powered = true ∧
      (s.fabricLink (.cd 0) (.sd 0)).sentAs 0 word.flit = some l ∧ l.expected = 0 ∧ sc8Decode word.received = .corrected bytes) ∧
    (∀ n ∈ [1, 2], ∃ (s : State) (l : FabricLink) (word : FlitArrival), s.powered = true ∧
      (s.fabricLink (.cd 0) (.sd 0)).sentAs 0 word.flit = some l ∧ l.expected = 0 ∧ sc8Decode word.received = .uncorrectable ∧
      l.fails = n) ∧
    (∃ (s : State) (l : FabricLink) (word : FlitArrival), s.powered = true ∧
      (s.fabricLink (.cd 0) (.sd 0)).sentAs 0 word.flit = some l ∧ l.expected ≠ 0) :=
  let zeros : List Byte := List.replicate 67 0
  ⟨fun d h => ⟨run, if d = .sd 0 then .sd 0 else .xd 0, (FabricLink.idle.record (flit d)), ⟨flit d, zeros⟩,
      by fin_cases h <;> decide⟩,
    ⟨run, (FabricLink.idle.record (flit (.sd 0))), ⟨flit (.sd 0), 9 :: List.replicate 66 0⟩, zeros, by decide⟩,
    fun n h => ⟨fabricAt (.sd 0) { FabricLink.idle with fails := n }, { FabricLink.idle.record (flit (.sd 0)) with fails := n },
      ⟨flit (.sd 0), badWord⟩, by fin_cases h <;> decide⟩,
    ⟨fabricAt (.sd 0) { FabricLink.idle with expected := 3 }, { FabricLink.idle.record (flit (.sd 0)) with expected := 3 },
      ⟨flit (.sd 0), zeros⟩, by decide⟩⟩

/-- A peer whose alias key is the base point (private key 1), with its signature of an empty transcript under nonce 1. -/
def goodPeer : PeerProof :=
  let key := beBytes 48 p384Base.1 ++ beBytes 48 p384Base.2
  { devId := 7, verified := true, aliasKey := key, ciphertext := [], ecdh := key, transcript := [],
    signature := beBytes 48 p384Base.1 ++ beBytes 48
      0xE3382ACA10379B6FDB8AF99DA4D290DE901AF273A065A2DBA604099FE64B0C127C51D11DA6C48F680F6F3129BB0EC412 }
theorem goodPeer_verifies : ecdsaVerify goodPeer.aliasKey goodPeer.transcript goodPeer.signature = true := by decide +kernel
theorem goodPeer_onCurve : onCurve (beNum (goodPeer.ecdh.take 48), beNum (goodPeer.ecdh.drop 48)) = true := by decide +kernel
theorem goodPeer_secret (s : State) : ∃ secret, linkSecret s goodPeer = some secret := by
  have h : goodPeer.ecdh.length = 96 := by decide +kernel
  simp [linkSecret, ecdhSecret, goodPeer_onCurve, h]
/-- A device whose member list names the peer. -/
def known (s : State) : State := { s with ref := { s.ref with groupList := [7], aliasKey := true } }
theorem goodPeer_accepted (s : State) : peerAccepted (known s) goodPeer = true := by
  simp [peerAccepted, goodPeer_verifies, known, show goodPeer.verified = true from rfl, show goodPeer.devId = 7 from rfl]

theorem witness_PortLifeCompletes :
    (∃ (s : State) (p : Nat) (peer : PeerLink), s.pwr.phase = .running ∧ (s.link p).phase = .training ∧ peer.lanes = 8 ∧
      peer.booting = false ∧ peer.enc = s.linkEnc p ∧ (s.linkEnc p = true → (s.link p).secure = true)) ∧
    (∃ (s : State) (p : Nat) (peer : PeerLink), s.pwr.phase = .running ∧ (s.link p).phase = .training ∧ peer.lanes = 8 ∧
      peer.booting = true) ∧
    (∀ old ∈ [[], [0, 0]], ∃ (s : State) (p : Nat), (s.link p).phase = .training ∧ Tbl.getD s.err.portFalls p [] = old) ∧
    (∃ (s : State) (p : Nat), (s.link p).phase = .up) ∧
    (∃ (s : State) (p : Nat) (peer : PeerProof) (secret : List Byte), (s.link p).phase = .training ∧ s.linkEnc p = true ∧
      peerAccepted s peer = true ∧ linkSecret s peer = some secret) ∧
    (∃ (s : State) (p : Nat) (peer : PeerProof), (s.link p).phase = .training ∧ s.linkEnc p = true ∧ peerAccepted s peer = false) ∧
    (∃ (s : State) (p : Nat) (peer : PeerProof) (secret : List Byte), (s.link p).phase = .up ∧ (s.link p).secure = true ∧
      2 ^ 30 ≤ (s.link p).txFrames ∧ (s.link p).keyEpochTx = (s.link p).newSlot ∧ (s.link p).keyEpochRx = (s.link p).newSlot ∧
      peerAccepted s peer = true ∧ linkSecret s peer = some secret) ∧
    (∃ (s : State) (p : Nat) (peer : PeerProof), (s.link p).phase = .up ∧ (s.link p).secure = true ∧
      2 ^ 30 ≤ (s.link p).rxFrames ∧ (s.link p).keyEpochTx = (s.link p).newSlot ∧ (s.link p).keyEpochRx = (s.link p).newSlot ∧
      peerAccepted s peer = false) ∧
    (∃ (s : State) (p : Nat), (s.link p).phase = .up ∧ (s.link p).secure = true ∧
      (s.link p).keyEpochTx = (s.link p).newSlot ∧ 2 ^ 31 ≤ (s.link p).txFrames) ∧
    (∃ (s : State) (p : Nat), (s.link p).phase = .up ∧ (s.link p).secure = true ∧
      (s.link p).keyEpochRx = (s.link p).newSlot ∧ 2 ^ 31 ≤ (s.link p).rxFrames) :=
  let secure : MglPort := { upPort with secure := true }
  let bad : PeerProof := { goodPeer with verified := false }
  let trained := known (port 15 trainingPort run)
  let old := known (port 0 { secure with txFrames := 2 ^ 30 } run)
  let ⟨a, ha⟩ := goodPeer_secret trained
  let ⟨b, hb⟩ := goodPeer_secret old
  ⟨⟨port 15 { trainingPort with secure := true } run, 15, ⟨8, true, false⟩, by decide⟩,
    ⟨port 15 trainingPort run, 15, ⟨8, false, true⟩, by decide⟩,
    fun old _ => ⟨{ port 15 trainingPort run with err := { run.err with portFalls := [(15, old)] } }, 15, rfl, rfl⟩,
    ⟨port 0 upPort run, 0, by decide⟩, ⟨trained, 15, goodPeer, a, by decide, by decide, goodPeer_accepted _, ha⟩,
    ⟨trained, 15, bad, by decide, by decide, rfl⟩,
    ⟨old, 0, goodPeer, b, by decide, by decide, by decide, by decide, by decide, goodPeer_accepted _, hb⟩,
    ⟨port 0 { secure with rxFrames := 2 ^ 30 } run, 0, bad, by decide, by decide, by decide, by decide, by decide, rfl⟩,
    ⟨port 0 { secure with txFrames := 2 ^ 31 } run, 0, by decide⟩,
    ⟨port 0 { secure with rxFrames := 2 ^ 31 } run, 0, by decide⟩⟩

theorem witness_FramesComplete :
    (∃ (s : State) (p : Nat) (f : LinkFrame) (flits : List Byte), (s.link p).phase = .up ∧
      frameFlits (s.link p) p f = some flits) ∧
    (∀ n ∈ [1, 2], ∃ (s : State) (p : Nat) (f : LinkFrame), (s.link p).phase = .up ∧ frameFlits (s.link p) p f = none ∧
      f.decoded = false ∧ (s.link p).rxFails = n) ∧
    (∀ found ∈ [true, false], ∃ (s : State) (p seq : Nat) (x : LmcCheck), (s.link p).phase = .up ∧
      lmcTaken s p 1 [seq] x = true ∧ seq < (s.link p).txSeq ∧ (s.link p).replay.any (fun f => f.seq == seq) = found) ∧
    (∃ (s : State) (p vc n : Nat) (x : LmcCheck), (s.link p).phase = .up ∧ lmcTaken s p 4 [vc, n] x = true) :=
  let sent : State := port 0 { upPort with replay := [⟨4, 0, []⟩], txSeq := 5 } run
  ⟨⟨port 0 upPort run, 0, ⟨true, 0, 0, false, 0, BitVec.ofNat 128 (crc64 [1, 2]), [1, 2]⟩, [1, 2], by decide⟩,
    fun n _ => ⟨port 0 { upPort with rxFails := n } run, 0, ⟨false, 0, 0, false, 0, 0, []⟩, rfl, rfl, rfl, rfl⟩,
    fun found h => ⟨sent, 0, if found then 4 else 3, lmcCheck (sent.link 0) 1 1 [if found then 4 else 3],
      by fin_cases h <;> decide +kernel⟩,
    ⟨sent, 0, 14, 5, lmcCheck (sent.link 0) 1 4 [14, 5], by decide +kernel⟩⟩

theorem witness_PacketsComplete :
    (∃ (s : State) (p : Nat) (k : Packet), (s.link p).boot = false ∧ (s.link p).rxQueue = [k] ∧ k.inRange = false) ∧
    (∃ (s : State) (p : Nat) (k : Packet), (s.link p).boot = false ∧ (s.link p).rxQueue = [k] ∧ k.inRange = true ∧ k.hops = 4 ∧
      k.dst ≠ s.rank) ∧
    (∀ r ∈ [16, 31], ∃ (s : State) (p : Nat) (k : Packet), (s.link p).boot = false ∧ (s.link p).rxQueue = [k] ∧
      k.inRange = true ∧ k.hops = 4 ∧ k.dst = s.rank ∧ s.route k.dst = r) ∧
    (∃ (s : State) (p q : Nat) (k : Packet), (s.link p).boot = false ∧ (s.link p).rxQueue = [k] ∧ k.inRange = true ∧
      k.hops < 4 ∧ s.route k.dst = q ∧ q < 16 ∧ q ≠ p ∧ s.linkUp q = true) ∧
    (∃ (s : State) (p : Nat) (x : Nat × QueuedPacket × MglPort), (s.link p).phase = .up ∧
      choosePacket s (s.link p) = some x) ∧
    (∃ (s : State) (p : Nat), (s.link p).phase = .up ∧ choosePacket s (s.link p) = none ∧ (s.link p).txOpen = []) :=
  let k := packet 1 5 0 0 []
  let holds (k : Packet) : State :=
    port 2 { upPort with rxQueue := [k], banks := List.replicate 4 ⟨none, []⟩, txQueue := [⟨16, none, 0, false, k⟩] } run
  let s := holds k
  ⟨⟨holds { k with ch := 80 }, 2, { k with ch := 80 }, by decide⟩,
    ⟨holds { k with hops := 4, dst := 9 }, 2, { k with hops := 4, dst := 9 }, by decide⟩,
    fun r h => ⟨reg (keyOf R.mglRtData 0) 0 5 r (holds { k with hops := 4 }), 2, { k with hops := 4 },
      by fin_cases h <;> decide⟩,
    ⟨reg (keyOf R.mglRtData 0) 0 5 9 (port 9 upPort s), 2, 9, k, by decide⟩,
    ⟨s, 2, ((choosePacket s (s.link 2)).get (by decide)), by decide, by simp⟩, ⟨port 0 upPort run, 0, by decide⟩⟩

theorem witness_TimeSynchronisationCompletes :
    (∀ up ∈ [true, false], ∃ s : State, s.regFld R.mglTsyncCtl 31 1 = 0 ∧ s.linkUp (s.regFld R.mglTsyncCtl 16 4) = up) ∧
    (∃ (s : State) (p : Nat) (x : LmcCheck), s.linkUp p = true ∧ lmcTaken s p 2 [] x = true) ∧
    (∀ st ∈ [0, 1, 3], ∃ (s : State) (t1 : Nat) (x : LmcCheck), s.mgl.tsync.t1 = some t1 ∧ s.mgl.tsync.st = st ∧
      lmcTaken s (s.regFld R.mglTsyncCtl 16 4) 3 [6, 7, 2, 3] x = true) ∧
    (∃ s : State, s.regFld R.mglTsyncCtl 31 1 = 0 ∧ s.mgl.tsync.st ≠ 0 ∧ s.mgl.tsync.lastExchange + 1000000 ≤ s.ts) ∧
    (∃ s : State, s.regFld R.mglTsyncCtl 31 1 = 0 ∧ s.mgl.tsync.st ≠ 0 ∧ s.ts < s.mgl.tsync.lastExchange + 1000000 ∧
      2 ≤ s.mgl.tsync.missed) :=
  let sync (t : TsyncState) (s : State) : State := { s with mgl := { s.mgl with tsync := t } }
  ⟨fun up h => ⟨if up then port 0 upPort run else run, by fin_cases h <;> decide⟩,
    ⟨port 0 upPort run, 0, lmcCheck upPort 1 2 [], by decide +kernel⟩,
    fun st h => ⟨sync { TsyncState.reset with st := st, t1 := some 5 } (port 0 upPort run), 5, lmcCheck upPort 1 3 [6, 7, 2, 3],
      by fin_cases h <;> decide +kernel⟩,
    ⟨{ sync { TsyncState.reset with st := 2 } run with ts := 1000000 }, by decide⟩,
    ⟨sync { TsyncState.reset with st := 2, missed := 2 } run, by decide⟩⟩
/-! The host interface. -/

/-- A ring of a kind, of 64 entries, with its indices. -/
def ring (k : RingKind) (p c : Nat) : Ring :=
  { base := 0, wb := 0, kind := k, log2 := 6, pair := 2, vec := 0, irqEn := false, pasidEn := false, pasid := 0, p := p, c := c,
    reserved := 0, lost := 0, stopped := false, irqTs := none }
/-- A context of port A's PF with a submission, an adapter and a completion ring. -/
def ctx (session : Nat) : Context :=
  ⟨.a, 0, 1, session, [(0, ring .submit 1 0), (1, ring .adapter 1 0), (2, ring .complete 0 0)], [], 0, none⟩
/-- A device with context 200. -/
def hosted : State := run.setCtx 200 (ctx 0)
/-- A flag of the window. -/
def flag (slot : Nat) (f : WinFlag) (s : State) : State := s.modPort .a (fun p => { p with flags := Tbl.set p.flags slot f })
/-- A descriptor of an opcode with COUNT 1. -/
def descOf (op ctx : Nat) (fs : List LayoutField) : Desc := layout 512 ([(0, 0, 8, op), (2, 0, 16, ctx), (8, 0, 32, 1)] ++ fs)

theorem witness_DoorbellsComplete :
    (∃ (s : State) (p : Port) (func page c r v : Nat) (x : Context) (q u : Ring), s.pwr.phase = .running ∧
      pageOwner s p func page = some c ∧ Tbl.get? s.host.contexts c = some x ∧ Tbl.wf x.rings = true ∧
      Tbl.get? x.rings r = some q ∧ r < 16 ∧ v < 2 ^ 32 ∧ ringDoorbell q v = some u) ∧
    (∀ (n : Nat × Nat × Nat), n ∈ [(8, 0, 0), (4, 4, 0), (4, 0x80, 0), (4, 0, 66), (4, 0x78, 0)] →
      ∃ (s : State) (p : Port) (func page c : Nat), s.pwr.phase = .running ∧ pageOwner s p func page = some c ∧
      (n.1 ≠ 4 ∨ n.2.1 % 8 ≠ 0 ∨ 0x78 < n.2.1 ∨
        (s.ring? c (n.2.1 / 8)).bind (fun r => ringDoorbell r (n.2.2 % 2 ^ 32)) = none)) :=
  ⟨⟨hosted, .a, 0, 1, 200, 0, 64, ctx 0, ring .submit 1 0, { ring .submit 1 0 with p := 64 }, by decide⟩,
    fun n h => ⟨hosted, .a, 0, 1, 200, by fin_cases h <;> decide⟩⟩

theorem witness_DescriptorAcceptCompletes :
    (∃ (s : State) (c r : Nat) (x : Context) (q : Ring) (d : Desc), mayRead s c r = some (x, q) ∧ fld d 1 0 1 = 0 ∧
      s.Inv ∧ headerStatus s c x q.kind d = none) ∧
    (∃ (s : State) (c r : Nat) (x : Context) (q : Ring) (d : Desc), mayRead s c r = some (x, q) ∧ fld d 1 0 1 = 0 ∧
      fld d 1 1 7 = 0 ∧ opcodeRing (fld d 0 0 8) = some q.kind ∧ fld d 2 0 16 = c ∧ fld d 12 0 32 = 0 ∧ fld d 8 0 32 ≠ 0 ∧
      [0x30, 0x31, 0x32, 0x42, 0x43].contains (fld d 0 0 8) = true) ∧
    (∃ (s : State) (c r : Nat) (x : Context) (q : Ring) (d : Desc), mayRead s c r = some (x, q) ∧ fld d 1 0 1 = 1 ∧
      s.host.accepted.any (fun a => a.ctx == c && a.ring == r) = true) :=
  let d := descOf 0x30 200 []
  ⟨⟨hosted, 200, 1, ctx 0, ring .adapter 1 0, d, by decide, by decide, inv_of rfl rfl, by decide⟩,
    ⟨hosted, 200, 1, ctx 0, ring .adapter 1 0, d, by decide⟩,
    ⟨{ hosted with host := { hosted.host with accepted := [⟨0, 200, 1, d, [], true, 0, false, 2, none⟩] } }, 200, 1, ctx 0,
      ring .adapter 1 0, descOf 0x30 200 [(1, 0, 1, 1)], by decide⟩⟩

theorem witness_WindowCompletes :
    (∀ (n : Nat × Nat), n ∈ [(0, 131071), (1, 0), (63, 2047)] → ∃ (s : State) (p : Port) (i : Nat), s.pwr.phase = .running ∧
      funcExists s p n.1 = true ∧ slotSeen n.1 n.2 = some i ∧ s.slotOwn p i = false) ∧
    (∃ (s : State) (p : Port) (i : Nat), s.pwr.phase = .running ∧ funcExists s p 63 = true ∧ slotSeen 63 2047 = some i ∧
      ((s.host.port p).flag i).own = true ∧ slotNamed s p i = false ∧ acctSlot s p i = false ∧ s.slotOffline p i = false) ∧
    (∃ (s : State) (p : Port) (slot n gen : Nat), s.pwr.phase = .running ∧ slotSeen 0 slot = some slot ∧
      (n ≠ 8 ∨ gen ≠ ((s.host.port p).flag slot).gen)) ∧
    (∃ (s : State) (p : Port) (off : Nat) (d : List Byte), s.pwr.phase = .booting ∧ s.regFld R.rstStraps 0 2 = p.num + 1 ∧
      off + d.length ≤ 67108864) ∧
    (∃ (s : State) (p : Port) (off n : Nat), s.pwr.phase = .running ∧ off + n ≤ 0x2_0000_0000 ∧ n ≤ 4096 ∧ 0 < n ∧
      ∀ i < n, ((s.host.port p).flag ((off + i) / 65536)).own = true ∧ acctSlot s p ((off + i) / 65536) = false) ∧
    (∀ fails ∈ [true, false], ∃ (s : State) (p : Port) (f off n : Nat), s.pwr.phase = .running ∧ funcExists s p f = true ∧
      n ≤ 4096 ∧ hostReadFails s p f off n = fails) ∧
    (∃ (s : State) (p : Port) (f off : Nat) (d : List Byte), s.Inv ∧ s.pwr.phase = .running ∧ funcExists s p f = true ∧
      d.length ≤ 4096 ∧ d ≠ [] ∧ f ≠ 0) ∧
    (∃ (s : State) (p : Port) (d : List Byte), s.Inv ∧ s.pwr.phase = .running ∧ d.length ≤ 4096 ∧ d ≠ []) :=
  let vfs := run.modPort .a (fun p => { p with vfs := 63 })
  ⟨fun n h => ⟨vfs, .a, (slotSeen n.1 n.2).getD 0, by fin_cases h <;> decide⟩,
    ⟨flag (131072 + 62 * 2048 + 2047) ⟨true, 5⟩ vfs, .a, 131072 + 62 * 2048 + 2047, by decide⟩, ⟨run, .b, 0, 4, 0, by decide⟩,
    ⟨booting, .a, 67108863, [1], by decide⟩, ⟨flag 131071 ⟨true, 5⟩ run, .a, 0x1_FFFF_FFFF, 1, by decide⟩,
    fun fails h => ⟨if fails then { run with mem := { run.mem with bad := [run.winBase .a / 64] } } else run, .a, 0, 0, 64,
      by fin_cases h <;> decide⟩,
    ⟨vfs, .a, 63, 0, [1], inv_of rfl rfl, by decide⟩, ⟨run, .b, [1], inv_of rfl rfl, by decide⟩⟩

/-- A device whose port A has a VF, each function with its mailbox rings. -/
def mailed : State :=
  let mbx (f : Nat) (s : State) : State := s.setCtx (setupCtx .a f)
    ⟨.a, f, 0, 0, [(0, ring .mailboxOut 1 0), (1, ring .mailboxIn 0 0)], [], 0, none⟩
  mbx 1 (mbx 0 (run.modPort .a (fun p => { p with vfs := 1 })))

theorem witness_MailboxAndOwnershipComplete :
    (∃ (s : State) (p : Port) (vf : Nat), vf ≠ 0 ∧ funcExists s p vf = true ∧ hasMessage s (setupCtx p vf) = true ∧
      hasRoom s (setupCtx p 0) = true) ∧
    (∃ (s : State) (p : Port) (m : Desc), hasMessage s (setupCtx p 0) = true ∧ fld m 0 0 8 = 0x80 ∧ fld m 4 0 6 ≠ 0 ∧
      funcExists s p (fld m 4 0 6) = true ∧ hasRoom s (setupCtx p (fld m 4 0 6)) = true) ∧
    (∃ (s : State) (p : Port) (m : Desc), hasMessage s (setupCtx p 0) = true ∧ fld m 0 0 8 = 0x80 ∧ fld m 4 0 6 ≠ 0 ∧
      funcExists s p (fld m 4 0 6) = false) ∧
    (∃ (s : State) (p : Port) (f : Nat) (v : Word), s.pwr.phase = .running ∧ f ≤ 63 ∧ funcExists s p f = true ∧
      s.regFld (portKey p (keyOf R.hubMbxSel f)) 0 1 = 0 ∧ s.ring? (setupCtx p f) 0 = none ∧ wordFld v 0 3 = 4 ∧
      6 ≤ wordFld v 3 5 ∧ wordFld v 3 5 ≤ 16) ∧
    (∃ (s : State) (p : Port) (f : Nat), s.pwr.phase = .running ∧ f ≤ 63 ∧ funcExists s p f = true ∧
      s.ring? (setupCtx p f) (s.regFld (portKey p (keyOf R.hubMbxSel f)) 0 1) ≠ none) ∧
    (∃ s : State, s.pwr.phase = .running ∧ s.regFld (portKey s.host.owner R.hubOwner) 0 16 ≠ 0) ∧
    (∃ (s : State) (p : Port) (n : Nat), s.pwr.phase = .running ∧ n ≤ 63 ∧ (s.host.port p).vfs ≤ n) :=
  ⟨⟨mailed, .a, 1, by decide⟩, ⟨mailed, .a, layout 512 [(0, 0, 8, 0x80), (4, 0, 6, 1)], by decide⟩,
    ⟨mailed, .a, layout 512 [(0, 0, 8, 0x80), (4, 0, 6, 2)], by decide⟩,
    ⟨run.modPort .b (fun p => { p with vfs := 63 }), .b, 63, 4 + 8 * 16, by decide⟩, ⟨mailed, .a, 1, by decide⟩,
    ⟨run, by decide⟩, ⟨run, .b, 63, by decide⟩⟩

/-! Huddle and the registers. -/

theorem witness_StagedWritesComplete :
    (∃ (s : State) (p : Port) (off : Nat) (row : RegRow), s.pwr.phase = .running ∧ regRow off = some row ∧ off < 0x400_0000 ∧
      row.st ≠ 0 ∧ mayStage s p off = true) ∧
    (∃ (s : State) (p : Port) (off : Nat) (row : RegRow), s.pwr.phase = .running ∧ regRow off = some row ∧ off < 0x400_0000 ∧
      row.st ≠ 0 ∧ mayStage s p off = false) :=
  ⟨⟨run, .a, R.pwrLimit, (regRow R.pwrLimit).get (by decide), by decide⟩,
    ⟨run, .b, R.pwrLimit, (regRow R.pwrLimit).get (by decide), by decide⟩⟩

/-- A bank of port A with one staged write of PWR_LIMIT, on a device whose rank is routed to itself. -/
def banked (b : Bank) : State := reg (keyOf R.mglRtData 0) 0 5 16 (run.modPort .a (fun p => { p with bank := b }))
def limitTo (watts : Nat) : StagedWrite := ⟨R.pwrLimit, 0xFFF, watts⟩

theorem witness_HuddleCommandsComplete :
    (∃ (s : State) (p : Port), (s.host.port p).bank.running = some .check ∧
      hdlCheck s p ((s.host.port p).bank.writes.take (s.host.port p).bank.covered) ≠ 0) ∧
    (∃ (s : State) (p : Port) (at_ : Option Nat), (s.host.port p).bank.running = some (.apply at_) ∧
      (s.host.port p).bank.writes ≠ [] ∧
      hdlCheck s p ((s.host.port p).bank.writes.take (s.host.port p).bank.covered) = 0) ∧
    (∃ (s : State) (p : Port) (at_ : Option Nat), (s.host.port p).bank.running = some (.apply at_) ∧
      hdlCheck s p ((s.host.port p).bank.writes.take (s.host.port p).bank.covered) ≠ 0) :=
  ⟨⟨banked ⟨.staged, [limitTo 799], some .check, 1, none, 0⟩, .a, by decide⟩,
    ⟨banked ⟨.passed, [limitTo 800], some (.apply none), 1, none, 0⟩, .a, none, by decide⟩,
    ⟨banked ⟨.passed, [limitTo 799], some (.apply none), 1, none, 0⟩, .a, none, by decide⟩⟩

theorem witness_RegisterWriteCompletes : ∃ (s : State) (p : Port) (off : Nat) (row : RegRow), s.Inv ∧ s.pwr.phase = .running ∧
    p = s.host.owner ∧ off < 0x400_0000 ∧ off % 4 = 0 ∧ regRow off = some row ∧ row.w1c ≠ 0 ∧ row.rw ≠ 0 :=
  ⟨run, .a, R.pmuCfg 0 0, (regRow (R.pmuCfg 0 0)).get (by decide), inv_of rfl rfl, by decide⟩

theorem witness_LatchingReadsComplete : ∃ s : State, s.pwr.phase = .running ∧ 2 ^ 32 ≤ s.ts :=
  ⟨{ run with ts := 2 ^ 40 }, by decide⟩

/-! Traces and counters. -/

/-- A trace queue that is full of words of two records. -/
def fullQueue : TraceQueue :=
  { TraceQueue.empty with wp := 4096, rp := 0, words := [(0, ⟨[1, 2], 0, 0, 0⟩)], openRecords := [5], lost := 2 ^ 32 - 1 }

theorem witness_TraceAndCounterCommandsComplete :
    (∃ (s : State) (p : Port) (n : Nat), s.pwr.phase = .running ∧ n = s.regFld (portKey p R.scbTrcSel) 0 5 ∧ n < 24 ∧
      s.regFld (keyOf R.scbTrcCtl n) 0 1 = 1 ∧ (s.regAt (keyOf R.scbTrcKinds n)).getLsbD 17 = true ∧
      (s.queue n).lastWrite ≠ some s.ts) ∧
    (∃ (s : State) (p : Port) (n : Nat), s.pwr.phase = .running ∧ n = s.regFld (portKey p R.scbTrcSel) 0 5 ∧ n < 24 ∧
      s.regFld (keyOf R.scbTrcCtl n) 0 1 = 0) ∧
    (∃ (s : State) (n : Nat), n < 24 ∧ (s.queue n).openRecords ≠ []) ∧
    (∃ (s : State) (b n : Nat), s.pwr.phase = .running ∧ b < 24 ∧ n < 8) :=
  ⟨⟨reg (keyOf R.scbTrcKinds 23) 17 1 1 (reg (keyOf R.scbTrcCtl 23) 0 1 1 (reg (portKey .b R.scbTrcSel) 0 5 23 run)), .b, 23,
      by decide⟩, ⟨run, .a, 0, by decide⟩, ⟨run.setQueue 23 fullQueue, 23, by decide⟩, ⟨run, 23, 7, by decide⟩⟩

theorem witness_FullTraceQueueDropsOldest : ∃ (s : State) (p : Port) (n : Nat) (w : TraceWord), s.pwr.phase = .running ∧
    s.regFld (portKey p R.scbTrcSel) 0 5 = n ∧ ((s.queue n).wp + 8192 - (s.queue n).rp) % 8192 = 4096 ∧
    (s.queue n).rp < 8192 ∧ (s.queue n).wp < 8192 ∧ Tbl.get? (s.queue n).words ((s.queue n).rp % 4096) = some w :=
  ⟨run.setQueue 0 fullQueue, .a, 0, ⟨[1, 2], 0, 0, 0⟩, by decide⟩

/-- The lost-record count wraps at 2^32 (R583). -/
theorem test_full_queue_lost_wraps : fullQueue.commit.lost = 1 ∧ fullQueue.commit.rp = 1 := by decide

theorem witness_PortsReadApart : ∃ (s t : State) (p : Port) (i : Instr) (off : Nat), s.Inv ∧
    i = .registerWrite p 0 R.scbTrcSel 4 (7 : Word).toNat ∧ off = R.scbTrcSel ∧ exec i s = .next t ∧
    t.readReg p 0 off ≠ s.readReg p 0 off :=
  ⟨run, _, .a, .registerWrite .a 0 R.scbTrcSel 4 7, R.scbTrcSel, inv_of rfl rfl, rfl, rfl, rfl, by decide⟩

/-! The memory system, faults and thermal hold. -/

/-- A word of zeros with one byte changed: one symbol to correct. -/
def oneWrong : List Byte := 5 :: List.replicate 66 0
/-- Two bytes changed. -/
def twoWrong : List Byte := 5 :: 6 :: List.replicate 65 0
/-- A device with a tenant's slot 3: its page key, a page, and a line under the old key. -/
def keyed (cur : Nat) (old : Bool) : State :=
  { run with mem := { run.mem with
      keySlots := [(3, ⟨cur, old, [0], 4, 5⟩)], pages := [(70000, ⟨2, 1, 3⟩)], lines := [(71680000, ⟨1, 1 - cur, 4⟩)] } }
def mem (f : MemState → MemState) (s : State) : State := { s with mem := f s.mem }

theorem witness_ClassMismatchReadsZero :
    (∃ (s : State) (line : Nat) (l : LineMeta), Tbl.get? s.mem.lines line = some l ∧ l.cls ≠ (s.page (line / 1024)).cls) ∧
    (∃ (s : State) (line : Nat), Tbl.get? s.mem.lines line = none) :=
  ⟨⟨mem (fun m => { m with lines := [(71680000, ⟨2, 0, 4⟩)] }) (keyed 1 true), 71680000, ⟨2, 0, 4⟩, by decide⟩, ⟨run, 0, rfl⟩⟩

theorem witness_MemoryCommandsComplete :
    (∃ (s : State) (a : Nat) (word fixed : List Byte), s.Inv ∧ s.pwr.phase = .running ∧ inLpddr a = true ∧
      s.pageOffline (a / 65536) = false ∧ sc8Decode word = .corrected fixed) ∧
    (∃ s : State, s.Inv ∧ s.pwr.phase = .running ∧ s.regFld R.scbErrCtl 0 16 = 1 ∧ unitInUse s 7 (channelOf 0) = true ∧
      Tbl.getD s.mem.ceSecond (512 + channelOf 0) (s.ts / 1000000000, 0) = (s.ts / 1000000000, 1)) ∧
    (∀ a ∈ [courtBase, courtBase + 0x1FFFFFFF], inCourt a = true ∧ inLpddr a = false) ∧
    (∀ a ∈ [sramBase, sramBase + 16 * sdBytes - 1], inSram a = true ∧ run.sramOnline a = true ∧ inLpddr a = false) ∧
    (∃ (s : State) (word : List Byte) (line : Nat), s.pwr.phase = .running ∧ s.pwr.state = .active ∧
      s.regFld R.memCtl 16 8 ≠ 0 ∧
      (patrolNext s (patrolFuel s) s.mem.patrolLine).or (patrolNext s (patrolFuel s) 0) = some line ∧ sc8Decode word = .correct) ∧
    (∃ fixed, sc8Decode oneWrong = .corrected fixed) ∧ sc8Decode twoWrong = .uncorrectable ∧
    (∃ (s : State) (j : ScrubJob) (js : List ScrubJob) (p : Nat) (ps : List Nat), s.Inv ∧ s.pwr.phase = .running ∧
      s.pwr.state = .active ∧ s.regFld R.memCtl 0 11 ≠ 0 ∧ s.mem.scrubs = j :: js ∧ j.pages = p :: ps) ∧
    (∃ (s : State) (die slot : Nat) (k : KeySlot), s.pwr.phase = .running ∧ die < 4 ∧ Tbl.get? s.mem.keySlots slot = some k ∧
      die ∉ k.switched) ∧
    (∃ (s : State) (slot line : Nat) (w : Sweep) (k : KeySlot) (l : LineMeta), s.pwr.phase = .running ∧ s.pwr.state = .active ∧
      s.regFld R.memCtl 0 11 ≠ 0 ∧ s.mem.sweeps.find? (fun w => w.slot == slot) = some w ∧
      Tbl.get? s.mem.keySlots slot = some k ∧ Tbl.get? s.mem.lines line = some l ∧ line ∉ s.mem.bad ∧
      (s.mem.lines.map (·.1)).find? (fun l => decide (w.nextLine ≤ l) && oldLine s slot (1 - k.cur) l && !s.pageOffline (l / 1024)) =
        some line) ∧
    (∃ (s : State) (slot : Nat) (w : Sweep) (k : KeySlot), s.pwr.phase = .running ∧ s.pwr.state = .active ∧
      s.regFld R.memCtl 0 11 ≠ 0 ∧ s.mem.sweeps.find? (fun w => w.slot == slot) = some w ∧
      Tbl.get? s.mem.keySlots slot = some k ∧ ∀ line, oldLine s slot (1 - k.cur) line = false) :=
  ⟨⟨run, 0xEFFFFFFFC0, oneWrong, _, inv_of rfl rfl, rfl, by decide, by decide, rfl⟩,
    ⟨reg R.scbErrCtl 0 16 1 (mem (fun m => { m with ceSecond := [(512 + channelOf 0, (0, 1))] }) run),
      inv_reg _ _ _ _ (inv_of rfl rfl), by decide⟩,
    by decide, by decide,
    ⟨run, List.replicate 67 0, 15032385536, by decide⟩, ⟨_, rfl⟩, by decide,
    ⟨mem (fun m => { m with scrubs := [⟨[9, 10], [9, 10], 9, 2, 0, false, false⟩] }) run, ⟨[9, 10], [9, 10], 9, 2, 0, false, false⟩, [], 9,
      [10], inv_of rfl rfl, by decide⟩,
    ⟨keyed 1 true, 3, 3, ⟨1, true, [0], 4, 5⟩, by decide⟩,
    ⟨mem (fun m => { m with sweeps := [⟨3, 0, []⟩] }) (keyed 1 true), 3, 71680000, ⟨3, 0, []⟩, ⟨1, true, [0], 4, 5⟩, ⟨1, 0, 4⟩, by decide⟩,
    ⟨mem (fun m => { m with sweeps := [⟨3, 0, []⟩], lines := [] }) (keyed 1 true), 3, ⟨3, 0, []⟩, ⟨1, true, [0], 4, 5⟩, by decide,
      by decide, by decide, by decide, by decide, fun line => by simp [oldLine, mem, Tbl.get?]⟩⟩

def err (f : ErrState → ErrState) (s : State) : State := { s with err := f s.err }
def aFault (kind unit : Nat) : PendingFault := ⟨kind, unit, 1, 1, 0, false, 0, 0, [], [], none⟩

theorem witness_FaultsComplete :
    (∀ x ∈ [(1, 511), (2, 127), (3, 255), (4, 511), (5, 0), (7, 127), (9, 15), (10, 15), (11, 3), (12, 15), (13, 7), (14, 15),
        (15, 4), (17, 0)], run.pwr.phase = .running ∧ unitInUse run x.1 x.2 = true) ∧
    (run.regFld R.scbErrCtl 0 16 ≠ 0) ∧
    (∃ (s : State) (p : PendingFault) (rest : List PendingFault), s.Inv ∧ s.err.faults = p :: rest ∧ s.pwr.state = .active ∧
      p.unitKind = 4 ∧ p.unit < 512) ∧
    (∀ x ∈ [(2, 127), (5, 0), (10, 15)], ∃ (s : State) (p : PendingFault), s.Inv ∧ s.err.faults = [p] ∧
      s.pwr.request = some .active ∧ s.pwr.state = .idle ∧ (p.unitKind, p.unit) = x) ∧
    (∃ s : State, s.pwr.phase = .running ∧ s.err.hold = false ∧ s.clock16 = 12) ∧
    (∃ (s : State) (e : Int), s.pwr.phase = .running ∧ s.err.hold = false ∧ 840 ≤ e) ∧
    (∃ (s : State) (t0 : Nat), s.Inv ∧ s.err.hold = true ∧ s.err.coolSince = some t0) :=
  ⟨by decide, by decide, ⟨err (fun e => { e with faults := [aFault 4 511] }) run, aFault 4 511, [], inv_of rfl rfl, rfl, rfl, by decide⟩,
    fun x h => ⟨pwr (fun q => { q with state := .idle, request := some .active }) (err (fun e => { e with faults := [aFault x.1 x.2] }) run),
      aFault x.1 x.2, inv_of rfl rfl, rfl, rfl, rfl, rfl⟩,
    ⟨reg R.clkStatus 0 4 12 run, by decide⟩,
    ⟨run, 840, by decide⟩, ⟨err (fun e => { e with hold := true, coolSince := some 5 }) run, 5, inv_of rfl rfl, rfl, rfl⟩⟩

/-! The Referee. -/

/-- A tenant's key slot. -/
def slotOf (present : Bool) : RefSlot := ⟨40, 7, .bound, (if present then 2 else 0, 9), (0, 0), present, true, true, 0⟩
def ref (f : RefState → RefState) (s : State) : State := { s with ref := f s.ref }
/-- A device with tenant 40 in slot 3, tenant session 1 of a state, and SPDM session 0 that carries it. -/
def tenanted (st : SessState) : State :=
  ref (fun r => { r with
    slots := [(3, slotOf true)], sessions := [(1, ⟨40, 3, st, [], [], sha384 (List.replicate 16 0), 0, 0⟩)]
    spdm := [(0, ⟨.a, 7, 0, true, 0, 1⟩)] }) (keyed 1 false)

theorem witness_RefereeRegistersComplete :
    (∃ (s : State) (v : Word) (r : RefSlot) (k : KeySlot), s.pwr.phase = .running ∧ wordFld v 31 1 = 1 ∧
      s.slot? (wordFld v 0 16) = some r ∧ Tbl.get? s.mem.keySlots (wordFld v 0 16) = some k ∧ rotateBusy s (wordFld v 0 16) = false) ∧
    (∃ (s : State) (v : Word) (r : RefSlot), s.pwr.phase = .running ∧ wordFld v 31 1 = 1 ∧ s.slot? (wordFld v 0 16) = some r ∧
      rotateBusy s (wordFld v 0 16) = true) ∧
    (∃ (s : State) (v : Word) (r : RefSlot), s.Inv ∧ s.pwr.phase = .running ∧ wordFld v 31 1 = 1 ∧
      s.slot? (wordFld v 0 16) = some r ∧ r.st = .bound) ∧
    (∃ (s : State) (slot : Nat) (r : RefSlot), s.slot? slot = some r ∧ r.st = .purging ∧
      ∀ p ∈ s.mem.pages, p.2.cls = 1 → p.2.index ≠ slot) ∧
    (∃ (s : State) (v : Word), s.pwr.phase = .running ∧ wordFld v 0 1 = 1 ∧ s.ref.debugLevel = 1) ∧
    (∃ (s : State) (v : Word), s.pwr.phase = .running ∧ wordFld v 0 1 = 1 ∧ s.ref.profiling = false ∧
      s.allPresent (·.profileOk) = true) ∧
    (∃ (s : State) (v : Word), s.pwr.phase = .running ∧ wordFld v 0 1 = 1 ∧ s.ref.profiling = false ∧
      s.allPresent (·.profileOk) = false) ∧
    (∃ (s : State) (v : Word), s.pwr.phase = .running ∧ wordFld v 0 1 = 0 ∧ s.ref.profiling = true) :=
  let withSlot (s : State) (r : RefSlot) : State := ref (fun q => { q with slots := [(3, r)] }) s
  ⟨⟨withSlot (keyed 1 false) (slotOf true), 0x80000003, slotOf true, ⟨1, false, [0], 4, 5⟩, by decide⟩,
    ⟨withSlot (keyed 1 true) (slotOf true), 0x80000003, slotOf true, by decide⟩,
    ⟨withSlot (keyed 1 true) (slotOf true), 0x80000003, slotOf true, inv_of rfl rfl, by decide⟩,
    ⟨withSlot run { slotOf true with st := .purging }, 3, { slotOf true with st := .purging }, by decide⟩,
    ⟨ref (fun r => { r with debugLevel := 1 }) run, 1, by decide⟩, ⟨withSlot run (slotOf true), 1, by decide⟩,
    ⟨withSlot run { slotOf true with profileOk := false }, 1, by decide⟩,
    ⟨ref (fun r => { r with profiling := true }) run, 0, by decide⟩⟩

theorem witness_DebugPortCompletes :
    (∃ s : State, s.pwr.phase = .running ∧ s.ref.dbgFails < 16) ∧
    (∀ level ∈ [1, 2], ∃ (s : State) (n : BitVec 512), s.pwr.phase = .running ∧ s.ref.dbgFails < 16 ∧
      s.ref.nonce = some (level, n) ∧ debugAllowed s level = true) :=
  ⟨⟨ref (fun r => { r with dbgFails := 15 }) run, by decide⟩, fun level h => by
    simp only [List.mem_cons, List.not_mem_nil, or_false] at h
    rcases h with rfl | rfl
    · exact ⟨ref (fun r => { r with nonce := some (1, 0), slots := [(3, slotOf true)] }) run, 0, by decide⟩
    · exact ⟨ref (fun r => { r with nonce := some (2, 0), slots := [(3, slotOf false)] }) run, 0, by decide⟩⟩

/-- A port whose connection has been negotiated. -/
def negotiated : State := ref (fun r => { r with connA := ⟨true, true, true, []⟩ }) run

theorem witness_SpdmCompletes :
    (∃ (s : State) (p : Port), spdmOpen s ∧ (s.conn p).version = true ∧ (s.conn p).capabilities = true ∧
      (s.conn p).algorithms = true ∧ (List.range 64).find? (fun j => (Tbl.get? s.ref.spdm j).isNone) = some 0) ∧
    (∃ (s : State) (p : Port) (i : Nat) (k : SpdmSession), spdmOpen s ∧ Tbl.get? s.ref.spdm i = some k ∧ k.port = p ∧
      k.established = false) ∧
    (∃ (s : State) (p : Port) (i : Nat) (k : SpdmSession) (body : List Byte), spdmOpen s ∧ Tbl.get? s.ref.spdm i = some k ∧
      k.port = p ∧ k.established = true ∧ ofBytes (body.take 1) = 2 ∧ ofBytes ((body.drop 1).take 1) < 8) ∧
    (∃ body : List Byte, ofBytes (body.take 1) ≠ 2 ∧ ofBytes ((body.drop 1).take 1) < 8) ∧
    (∀ n ∈ [13, 255], ∃ body : List Byte, ofBytes (body.take 1) % 16 = 0 ∧ ofBytes ((body.drop 1).take 1) = n) :=
  ⟨⟨negotiated, .a, by unfold spdmOpen; decide, by decide⟩,
    ⟨ref (fun r => { r with spdm := [(63, ⟨.a, 0, 0, false, 0, 0⟩)] }) negotiated, .a, 63, ⟨.a, 0, 0, false, 0, 0⟩,
      by unfold spdmOpen; decide, by decide⟩,
    ⟨ref (fun r => { r with spdm := [(63, ⟨.a, 0, 0, true, 0, 0⟩)] }) negotiated, .a, 63, ⟨.a, 0, 0, true, 0, 0⟩, [2, 7],
      by unfold spdmOpen; decide, by decide⟩,
    ⟨[0, 7], by decide⟩, fun n h => by
      simp only [List.mem_cons, List.not_mem_nil, or_false] at h
      rcases h with rfl | rfl
      · exact ⟨[0, 13], by decide⟩
      · exact ⟨[0, 255], by decide⟩⟩

theorem witness_TenantBindingCompletes :
    (∃ (s : State) (i n slot : Nat) (k : SpdmSession) (body : List Byte), spdmOpen s ∧ Tbl.get? s.ref.spdm i = some k ∧
      k.established = true ∧ s.ref.slots.find? (fun p => p.2.tenant == bodyNum body 0 4) = none ∧ s.freeSession = some n ∧
      s.freeSlot = some slot) ∧
    (∃ (s : State) (i n slot : Nat) (k : SpdmSession) (r : RefSlot) (body : List Byte), spdmOpen s ∧
      Tbl.get? s.ref.spdm i = some k ∧ k.established = true ∧
      s.ref.slots.find? (fun p => p.2.tenant == bodyNum body 0 4) = some (slot, r) ∧ r.keyHash = k.leafHash ∧ r.st = .bound ∧
      s.freeSession = some n) ∧
    (∃ (s : State) (i n : Nat) (k : SpdmSession) (q : Session) (r : RefSlot), tenantHere s i k n q r ∧ q.st = .binding) ∧
    (∃ (s : State) (i n : Nat) (k : SpdmSession) (q : Session) (r : RefSlot) (body : List Byte), spdmOpen s ∧
      Tbl.get? s.ref.spdm i = some k ∧ k.established = true ∧ bodyNum body 0 4 = n ∧ Tbl.get? s.ref.sessions n = some q ∧
      s.slot? q.slot = some r ∧ r.keyHash = k.leafHash ∧ q.st = .suspended ∧
      q.ticket = sha384 ((body.drop 4).take 16)) :=
  let body : List Byte := bytesOf 4 1 ++ List.replicate 16 0
  ⟨⟨tenanted .active, 0, 2, 0, ⟨.a, 7, 0, true, 0, 1⟩, bytesOf 4 41, by unfold spdmOpen; decide, rfl, rfl, by decide, by rfl, by rfl⟩,
    ⟨tenanted .active, 0, 2, 3, ⟨.a, 7, 0, true, 0, 1⟩, slotOf true, bytesOf 4 40, by unfold spdmOpen; decide, rfl, rfl, by decide, rfl, rfl,
      by rfl⟩,
    ⟨tenanted .binding, 0, 1, ⟨.a, 7, 0, true, 0, 1⟩, _, slotOf true,
      ⟨by unfold spdmOpen; decide, rfl, rfl, rfl, by decide, rfl, by simp, rfl⟩, rfl⟩,
    ⟨tenanted .suspended, 0, 1, ⟨.a, 7, 0, true, 0, 1⟩, _, slotOf true, body, by unfold spdmOpen; decide, rfl, rfl, by decide, rfl, rfl,
      rfl, rfl, rfl⟩⟩

theorem witness_TenantKeysAndSessionsComplete :
    ∃ (s : State) (i n : Nat) (k : SpdmSession) (q : Session) (r : RefSlot), tenantHere s i k n q r ∧
      (∃ body : List Byte, q.st ≠ .binding ∧ r.skey0.1 < bodyNum body 0 4 ∧ r.skey1.1 < bodyNum body 0 4 ∧ installRefused s r = false) ∧
      (∃ body : List Byte, bodyNum body 0 4 ≠ 0 ∧ r.skey0.1 = bodyNum body 0 4) ∧
      (∃ body : List Byte, bodyNum body 0 4 ≠ 0 ∧ r.skey0.1 ≠ bodyNum body 0 4 ∧ r.skey1.1 = bodyNum body 0 4) ∧
      (∃ e : KeySlot, rotateBusy s q.slot = false ∧ r.pkey = true ∧ Tbl.get? s.mem.keySlots q.slot = some e) ∧
      r.st = .bound ∧
      (∃ body : List Byte, bodyNum body 0 1 = 1 ∧ bodyNum body 1 1 = 63 ∧ bodyNum body 2 2 = 0xFFFF ∧ q.grants.length = 15) ∧
      (∃ body : List Byte, bodyNum body 0 1 = 0 ∧ bodyNum body 1 1 = 0 ∧ bodyNum body 2 2 = 0) ∧
      (∃ body : List Byte, bodyNum body 0 1 = 8) ∧
      (∃ body : List Byte, s.ref.debugLevel = 1 ∧ r.debugOk = true ∧ bitAt (bodyNum body 0 1) 0 = true) :=
  let grants : List Grant := (List.range 15).map (fun f => ⟨.a, f, 3⟩)
  let q : Session := ⟨40, 3, .active, grants, [], 0, 0, 0⟩
  let r : RefSlot := { slotOf true with skey1 := (1, 8) }
  ⟨ref (fun x => { x with slots := [(3, r)], sessions := [(1, q)], debugLevel := 1 }) (tenanted .active), 0, 1, ⟨.a, 7, 0, true, 0, 1⟩, q, r,
    ⟨by unfold spdmOpen; decide, rfl, rfl, rfl, by decide, rfl, by simp [q], rfl⟩,
    ⟨bytesOf 4 3, by decide⟩, ⟨bytesOf 4 2, by decide⟩, ⟨bytesOf 4 1, by decide⟩, ⟨⟨1, false, [0], 4, 5⟩, by decide⟩, rfl,
    ⟨[1, 63, 0xFF, 0xFF], by decide⟩, ⟨[0, 0, 0, 0], by decide⟩, ⟨[8], by decide⟩, ⟨[1], by decide⟩⟩


/-! Adapters, practice, schedules and serves. -/

/-- A descriptor accepted on a ring of context 200. -/
def acceptedOn (r : Nat) (d : Desc) : Accepted := ⟨5, 200, r, d, [], true, 0, false, 2, none⟩
/-- Tenant 40 in slot 3 with context 200 in its session 1, a bullpen of four pages, bank 0 ACTIVE with image 9, and one
accepted descriptor. -/
def served (r : Nat) (d : Desc) : State :=
  let s := (reg R.lkrBullpenPages 0 24 4 (tenanted .active)).setCtx 200 (ctx 1)
  { s with host := { s.host with accepted := [acceptedOn r d] }, wst := { s.wst with bank0 := { BankRec.blank with st := .active, imageId := 9, epoch := 1 } } }
/-- A PREFIX header of adapter 6 of tenant 40, trained on image 9: one layer, one position, 32 elements of code 0x01. -/
def prefixHeader : BitVec 2048 :=
  layout 2048 [(0, 0, 32, 0x4B4C4441), (4, 0, 8, 1), (8, 0, 64, 6), (16, 0, 32, 40), (20, 0, 32, 1), (24, 0, 64, 9), (64, 0, 16, 1),
    (66, 0, 16, 1), (68, 0, 16, 32), (70, 0, 8, 1), (72, 0, 32, 2), (96, 0, 64, 256)]
/-- An ADAPTER_LOAD of that blob. -/
def loadDesc : Desc := descOf 0x30 200 [(24, 0, 64, 528), (32, 0, 64, 6), (40, 0, 32, 40)]
/-- Its entry. -/
def entry6 (st : EntryState) : DirEntry := ⟨6, 40, 3, st, 0, 1, 200, 1, 0, [0], 0, 0, 1, 1, 32, 9, []⟩
/-- The load under way. -/
def load6 : AdapterLoad := ⟨6, 5, 200, 1, [0], false, prefixHeader⟩
def lkr (f : LkrState → LkrState) (s : State) : State := { s with lkr := f s.lkr }
/-- A context of tenant 40 whose adapter 6 is RESIDENT. -/
def resident (r : Nat) (d : Desc) : State := lkr (fun l => { l with dir := [entry6 .resident] }) (served r d)

theorem witness_AdapterLoad : ∃ (s : State) (c r : Nat) (a : Accepted) (h : BitVec 2048), s.oldest c r 0x30 = some a ∧
    loadFormatOk a.desc h = true ∧ loadTenantOk s c (BlobHeader.ofBits h) = true ∧ s.imageHeld (BlobHeader.ofBits h) = true ∧
    (s.skeyOf (BlobHeader.ofBits h).tenant (BlobHeader.ofBits h).skeyGen).isSome = true ∧
    s.dirEntry (fld a.desc 32 0 64) = none ∧
    (makeRoom (s.countLookup c (fld a.desc 32 0 64)) (BlobHeader.ofBits h).tenant (copyPages (BlobHeader.ofBits h).payload)
      true (BlobHeader.ofBits h).adapter).isSome = true :=
  ⟨served 1 loadDesc, 200, 1, acceptedOn 1 loadDesc, prefixHeader, by decide, by decide, by decide, by decide, by decide, by decide,
    by decide⟩

/-- A PREFIX header of a version of adapter 6. -/
def prefixOf (version : Nat) : BitVec 2048 := prefixHeader ||| layout 2048 [(20, 0, 32, version)]
/-- The load of version 3 beside the entry of version 1. -/
def higher6 : AdapterLoad := ⟨6, 5, 200, 3, [1], true, prefixOf 3⟩

/-- The key of generation 2 of tenant 40 expands to round keys of 16 bytes. -/
theorem key9_expands : ((roundKeys (bytesOf 32 (9 : BitVec 256).toNat)).getD 14 []).length = 16 := by decide +kernel

theorem higher_opens (s : State) (h : s.skeyOf 40 2 = some 9) :
    (s.openBlob (prefixOf 3) (sealedUnder 9 (prefixOf 3) (List.replicate 256 7))).isSome = true := by
  have ht : BlobHeader.ofBits (prefixOf 3) = { BlobHeader.ofBits (prefixOf 3) with tenant := 40, skeyGen := 2 } := by decide
  rw [openBlob_sealed key9_expands _ _ (by rw [ht]; exact h)]; rfl

theorem witness_AdapterAndDirectoryComplete :
    (∃ (s : State) (c r : Nat) (a : Accepted) (e : DirEntry), s.oldest c r 0x30 = some a ∧ s.dirEntry (fld a.desc 32 0 64) = some e ∧
      (∀ v ∈ [1, 3], let h := prefixOf v
        loadFormatOk a.desc h = true ∧ loadTenantOk s c (BlobHeader.ofBits h) = true ∧ s.imageHeld (BlobHeader.ofBits h) = true ∧
        (s.skeyOf (BlobHeader.ofBits h).tenant (BlobHeader.ofBits h).skeyGen).isSome = true) ∧
      let s0 := s.countLookup c (fld a.desc 32 0 64)
      existingEntry s0 e (BlobHeader.ofBits (prefixOf 1)) = some none ∧
      existingEntry s0 e (BlobHeader.ofBits (prefixOf 3)) = none ∧
      (makeRoom s0 40 (copyPages (BlobHeader.ofBits (prefixOf 3)).payload) false 6).isSome = true) ∧
    (∃ (s : State) (id : Nat) (l : AdapterLoad) (data : List Byte), s.lkr.loads.find? (fun l => l.adapter == id) = some l ∧
      l.higher = true ∧ data.length = (BlobHeader.ofBits l.header).payload + 16 ∧ (s.openBlob l.header data).isSome = true) ∧
    (∃ (s : State) (id : Nat) (l : AdapterLoad) (e : DirEntry) (data : List Byte),
      s.lkr.loads.find? (fun l => l.adapter == id) = some l ∧ l.higher = false ∧ s.dirEntry id = some e ∧
      data.length = (BlobHeader.ofBits l.header).payload + 16) ∧
    (∃ (s : State) (c r : Nat) (a : Accepted) (e : DirEntry), s.oldest c r 0x31 = some a ∧ removeFormatOk a.desc false = true ∧
      s.tenantOfCtx c = some (fld a.desc 40 0 32) ∧ s.dirEntry (fld a.desc 32 0 64) = some e ∧ e.tenant = fld a.desc 40 0 32 ∧
      e.st = .resident ∧ s.versionPending (fld a.desc 32 0 64) = false ∧ e.pins = 0) ∧
    (∀ all ∈ [0, 1], ∃ (s : State) (c r : Nat) (a : Accepted), s.oldest c r 0x32 = some a ∧ removeFormatOk a.desc true = true ∧
      fld a.desc 44 0 1 = all ∧ (fld a.desc 44 0 1 = 1 → fld a.desc 32 0 64 = 0) ∧ mayRevoke s c (fld a.desc 40 0 32) = true) ∧
    (∃ s : State, s.Inv ∧ s.pwr.phase = .running) ∧
    (∃ (s : State) (e : DirEntry), s.Inv ∧ s.lkr.queryBusy = true ∧ s.dirEntry s.lkr.queryId = some e) ∧
    (∃ s : State, s.Inv ∧ s.lkr.queryBusy = true ∧ s.dirEntry s.lkr.queryId = none) :=
  let un := descOf 0x31 200 [(32, 0, 64, 6), (40, 0, 32, 40)]
  let one := descOf 0x32 200 [(32, 0, 64, 6), (40, 0, 32, 40)]
  let all := descOf 0x32 200 [(40, 0, 32, 40), (44, 0, 1, 1)]
  ⟨⟨resident 1 loadDesc, 200, 1, acceptedOn 1 loadDesc, entry6 .resident, by decide⟩,
    ⟨lkr (fun l => { l with loads := [higher6] }) (served 1 loadDesc), 6, higher6, sealedUnder 9 (prefixOf 3) (List.replicate 256 7), rfl, rfl,
      by rw [sealedUnder_length key9_expands]; decide, higher_opens _ rfl⟩,
    ⟨lkr (fun l => { l with loads := [load6], dir := [entry6 .loading] }) (served 1 loadDesc), 6, load6, entry6 .loading,
      List.replicate 272 0, by decide⟩,
    ⟨resident 1 un, 200, 1, acceptedOn 1 un, entry6 .resident, by decide⟩,
    fun k h => by
      simp only [List.mem_cons, List.not_mem_nil, or_false] at h
      rcases h with rfl | rfl
      · exact ⟨resident 1 one, 200, 1, acceptedOn 1 one, by decide⟩
      · exact ⟨resident 1 all, 200, 1, acceptedOn 1 all, by decide⟩,
    ⟨run, inv_of rfl rfl, rfl⟩,
    ⟨lkr (fun l => { l with queryBusy := true, queryId := 6, dir := [entry6 .lost] }) run, entry6 .lost, inv_of rfl rfl, by decide⟩,
    ⟨lkr (fun l => { l with queryBusy := true, queryId := 6 }) run, inv_of rfl rfl, by decide⟩⟩

/-- A practice program of one part that fits adapter 6: SGD, one segment. -/
def program7 : Program :=
  { programId := 7, lossMode := 0, kWide := 0, kNarrow := 0, optMode := 1, seqMax := 8, tokMax := 64, parts := 1, teacher := 0,
    layers := 1, plen := 1, dKv := 32, fmt := 1, maxAdapters := 4, segments := [⟨1000, [], .empty, []⟩], group := none }
/-- The image of bank 0, with that program. -/
def image9 : Image := ⟨9, 77, false, none, 1, [], [program7], []⟩
/-- Its practice record, owned by a context. -/
def record6 (c : Nat) : Record :=
  { adapter := 6, ctx := c, imageId := 9, program := 7, parts := 1, optMode := 1, beta1 := 0, beta2 := 0, eps := 0, shadow := [1],
    spare := [2], state0 := [3], state1 := [3], current := 0, lastStep := 0, commit := none, later := [], closing := none, exports := [],
    pinned := true }
/-- A resident adapter with image 9 loaded in slot 0. -/
def practised (r : Nat) (d : Desc) : State := ump (fun u => { u with images := [(0, image9)] }) (resident r d)
/-- The same with a record. -/
def recorded (r : Nat) (d : Desc) (q : Record) : State := lkr (fun l => { l with records := [q] }) (practised r d)
/-- A PRACTICE_OPEN of adapter 6 under program 7. -/
def openDesc : Desc := descOf 0x40 200 [(16, 0, 64, 6), (40, 0, 16, 7)]
/-- A step of program 7 in context 200. -/
def step7 : PStep := ⟨5, 200, 1, 0, 9, 7, 0, 0, 0, false, [], [], [], 0, [], none, false, false, 0⟩
/-- A PRACTICE_STEP with its adapter list at byte 0 and its batch block at byte 64: one sequence of one token on adapter 6. -/
def stepDesc : Desc := descOf 0x41 200 [(24, 0, 48, 0), (32, 0, 48, 64), (40, 0, 16, 7)]
/-- Page 0 of context 200's tenant holds that list and that block. -/
def batched : State :=
  let s := (recorded 0 stepDesc (record6 200)).setPages [0] ⟨3, 1, 3⟩
  (s.writeLine 0 (bytesOf 8 6 ++ List.replicate 56 0)).writeLine 1 (bytesOf 4 1 ++ bytesOf 4 1 ++ List.replicate 56 0)

theorem witness_PracticeOpen : ∃ (s : State) (c r n : Nat) (a : Accepted) (e : DirEntry) (i : Image) (g : Program),
    s.oldest c r 0x40 = some a ∧ s.record? (fld a.desc 16 0 64) = none ∧ s.dirEntry (fld a.desc 16 0 64) = some e ∧
    s.programOf (fld a.desc 40 0 16) = some (n, i, g) ∧ i.unloading = false ∧ openFieldsOk a.desc = true ∧
    hyperOk g.optMode a.desc = true ∧ openEntryOk s c i g e = true ∧ fld a.desc 42 0 1 = 0 ∧
    stateImageBytes g.parts g.optMode (paramCount e.layers e.plen e.dKv) ≤ 2 ^ 30 ∧ s.lkr.records.length < 4096 ∧
    (makeRoom s e.tenant (2 * e.pages.length + 2 * ceilDiv (stateImageBytes g.parts g.optMode (paramCount e.layers e.plen e.dKv))
      pageBytes) false (fld a.desc 16 0 64)).isSome = true :=
  ⟨reg R.lkrBullpenPages 0 24 5 (practised 0 openDesc), 200, 0, 0, acceptedOn 0 openDesc, entry6 .resident, image9, program7, by decide, by decide, by decide,
    by decide, by decide, by decide, by decide, by decide, by decide, by decide, by decide, by decide⟩

/-- A PRACTICE_OPEN with a STATE blob of a state image of one part, and that blob. -/
def stateDesc : Desc := descOf 0x40 200 [(16, 0, 64, 6), (32, 0, 64, 1296), (40, 0, 16, 7), (42, 0, 1, 1)]
def stateHeader : BitVec 2048 := layout 2048 [(0, 0, 32, 0x4B4C4441), (4, 0, 8, 1), (5, 0, 8, 1), (8, 0, 64, 6), (16, 0, 32, 40), (20, 0, 32, 1),
    (24, 0, 64, 9), (64, 0, 16, 1), (66, 0, 16, 1), (68, 0, 16, 32), (70, 0, 8, 1), (72, 0, 32, 2), (96, 0, 64, 1024)]
def stateImage : List Byte := bytesOf 5 0x100000001 ++ List.replicate 1019 0
def stateBlob : List Byte := headerBytes stateHeader ++ sealedUnder 9 stateHeader stateImage

/-- A device where that OPEN is the oldest descriptor and the Bullpen has room. -/
def stateReady : State := reg R.lkrBullpenPages 0 24 5 (practised 0 stateDesc)

theorem state_opens : openState stateReady stateDesc (entry6 .resident) program7 1024 stateBlob = .ok stateImage := by
  have hl : (headerBytes stateHeader).length = 256 := by decide
  have hb : stateBlob.length = 1296 := by
    rw [stateBlob, List.length_append, hl, sealedUnder_length key9_expands]; rfl
  have hh : BitVec.ofNat 2048 (ofBytes (stateBlob.take 256)) = stateHeader := by
    rw [stateBlob, List.take_left' hl]; decide
  have hd : stateBlob.drop 256 = sealedUnder 9 stateHeader stateImage := by rw [stateBlob, List.drop_left' hl]
  have ho : stateReady.openBlob stateHeader (sealedUnder 9 stateHeader stateImage) = some stateImage :=
    openBlob_sealed key9_expands _ _ (by decide)
  rw [openState, hh, hd, hb, ho]
  decide

theorem witness_PracticeOpenFromState : ∃ (s : State) (c r n : Nat) (a : Accepted) (e : DirEntry) (i : Image) (g : Program),
    s.oldest c r 0x40 = some a ∧ s.record? (fld a.desc 16 0 64) = none ∧ s.dirEntry (fld a.desc 16 0 64) = some e ∧
    s.programOf (fld a.desc 40 0 16) = some (n, i, g) ∧ i.unloading = false ∧ openFieldsOk a.desc = true ∧
    hyperOk g.optMode a.desc = true ∧ openEntryOk s c i g e = true ∧ fld a.desc 42 0 1 = 1 ∧
    stateImageBytes g.parts g.optMode (paramCount e.layers e.plen e.dKv) = 1024 ∧ openState s a.desc e g 1024 stateBlob = .ok stateImage ∧
    (makeRoom (s.countGcm c 6 1024) e.tenant (2 * e.pages.length + 2 * ceilDiv 1024 pageBytes) false 6).isSome = true :=
  ⟨stateReady, 200, 0, 0, acceptedOn 0 stateDesc, entry6 .resident, image9, program7, by decide,
    by decide, by decide, by decide, by decide, by decide, by decide, by decide, by decide, by decide, state_opens, by decide⟩

theorem witness_PracticeStep : ∃ (s : State) (c r n : Nat) (a : Accepted) (i : Image) (g : Program), s.oldest c r 0x41 = some a ∧
    s.programOf (fld a.desc 40 0 16) = some (n, i, g) ∧ stepStatus s c a.desc i g = none :=
  ⟨batched, 200, 0, 0, acceptedOn 0 stepDesc, image9, program7, by decide, by decide, by decide⟩

theorem witness_PracticeCompletes :
    (∃ (s : State) (c r : Nat) (a : Accepted) (q : Record), s.oldest c r 0x40 = some a ∧
      s.record? (fld a.desc 16 0 64) = some q ∧ q.ctx ≠ c) ∧
    (∃ (s : State) (c r : Nat) (a : Accepted) (q : Record) (e : DirEntry), s.oldest c r 0x42 = some a ∧
      s.record? (fld a.desc 16 0 64) = some q ∧ s.dirEntry (fld a.desc 16 0 64) = some e ∧ q.ctx = c ∧ fld a.desc 8 0 32 = 1 ∧
      fld a.desc 40 1 191 = 0 ∧ 256 + exportBytes q e (fld a.desc 40 0 1 == 1) + 16 ≤ fld a.desc 32 0 64) ∧
    (∃ (s : State) (id gen : Nat) (key : BitVec 256) (q : Record) (e : DirEntry) (did : Nat) (isState : Bool)
      (rest : List (Nat × Bool)) (a : Accepted), s.record? id = some q ∧ s.dirEntry id = some e ∧
      q.exports = (did, isState) :: rest ∧ s.stepRunning id = false ∧ s.newestKey e.tenant = some (gen, key) ∧
      s.acc? did = some a) ∧
    (∃ (s : State) (c r : Nat) (a : Accepted) (q : Record), s.oldest c r 0x43 = some a ∧
      s.record? (fld a.desc 16 0 64) = some q ∧ q.ctx = c ∧ fld a.desc 8 0 32 = 1 ∧ fld a.desc 24 0 320 = 0 ∧ q.closing = none) ∧
    (∃ (s : State) (id did : Nat) (q : Record), s.record? id = some q ∧ q.closing = some did ∧ q.commit = none ∧
      q.exports = [] ∧ ∀ p ∈ s.ump.steps, id ∉ p.adapters) ∧
    (∃ (s : State) (id no : Nat) (q : Record) (e : DirEntry), s.record? id = some q ∧ s.dirEntry id = some e ∧
      q.commit = some ⟨no, none⟩ ∧ s.ump.work = none) :=
  let exp := descOf 0x42 200 [(16, 0, 64, 6), (32, 0, 64, 528)]
  let close := descOf 0x43 200 [(16, 0, 64, 6)]
  let exporting : Record := { record6 200 with exports := [(5, false)] }
  let closing : Record := { record6 200 with closing := some 5 }
  let committing : Record := { record6 200 with commit := some ⟨1, none⟩ }
  ⟨⟨recorded 0 openDesc (record6 201), 200, 0, acceptedOn 0 openDesc, record6 201, by decide⟩,
    ⟨recorded 1 exp (record6 200), 200, 1, acceptedOn 1 exp, record6 200, entry6 .resident, by decide⟩,
    ⟨recorded 1 exp exporting, 6, 2, 9, exporting, entry6 .resident, 5, false, [], acceptedOn 1 exp, by decide⟩,
    ⟨recorded 1 close (record6 200), 200, 1, acceptedOn 1 close, record6 200, by decide⟩,
    ⟨recorded 1 close closing, 6, 5, closing, by decide⟩,
    ⟨recorded 0 openDesc committing, 6, 1, committing, entry6 .resident, by decide⟩⟩

/-- A schedule image of image 9 without contents. -/
def emptySrc : ImageSrc := ⟨77, 9, 1, [], [], []⟩

theorem witness_SchedulesAndServesComplete :
    (∃ (s : State) (c r : Nat) (a : Accepted) (src : ImageSrc), s.oldest c r 0x51 = some a ∧ fld a.desc 8 0 32 = 1 ∧
      fld a.desc 32 3 253 = 0 ∧ 4096 ≤ fld a.desc 24 0 64 ∧ fld a.desc 24 0 64 ≤ 268435456 ∧
      Tbl.get? s.ump.images (fld a.desc 32 0 3) = none ∧ s.imageOf src.imageId = none ∧ imageOk s src = true) ∧
    (∃ (s : State) (c r : Nat) (a : Accepted) (i : Image), s.oldest c r 0x52 = some a ∧ fld a.desc 8 0 32 = 1 ∧
      fld a.desc 16 0 128 = 0 ∧ fld a.desc 32 3 253 = 0 ∧ Tbl.get? s.ump.images (fld a.desc 32 0 3) = some i ∧
      i.unloading = false ∧ ∀ q ∈ s.lkr.records, q.imageId ≠ i.imageId) ∧
    (∃ (s : State) (slot : Nat) (i : Image), Tbl.get? s.ump.images slot = some i ∧ i.unloading = true ∧
      ∀ a ∈ s.host.accepted, namesImage s slot i a = false) ∧
    (∃ (s : State) (c r : Nat) (a : Accepted), s.oldest c r 0x20 = some a ∧ serveStatus s a = none) :=
  let load := descOf 0x51 200 [(24, 0, 64, 268435456), (32, 0, 3, 7)]
  let unload := descOf 0x52 200 []
  let serve := descOf 0x20 200 [(16, 0, 16, 1), (20, 0, 32, 1), (40, 0, 64, 65536)]
  ⟨⟨served 0 load, 200, 0, acceptedOn 0 load, emptySrc, by decide⟩,
    ⟨practised 0 unload, 200, 0, acceptedOn 0 unload, image9, by decide⟩,
    ⟨ump (fun u => { u with images := [(0, { image9 with unloading := true })] }) run, 0, { image9 with unloading := true }, by decide⟩,
    ⟨served 0 serve, 200, 0, acceptedOn 0 serve, by decide⟩⟩

/-! Slots and work. -/

/-- Work of context 200 under step or serve 5 of image slot 0. -/
def workOf (k : WorkKind) : Work := ⟨k, 200, 5, 0, false, 0, 1, 0, 0, none, none, [], .zero, [], [], 0, 0, false, []⟩
/-- A slot that runs, with work on the array. -/
def working (k : WorkKind) (s : State) : State := ump (fun u => { u with slot := some idleSlot, work := some (workOf k) }) s
/-- A reservation entry 3 of a period of 10 units. -/
def reservedFor (group : Nat) : State :=
  reg (keyOf R.umpRsvCfg 3) 28 1 group (reg (keyOf R.umpRsvPeriod 3) 0 23 10 run)

theorem witness_SlotEndCompletes :
    (∃ (s : State) (u : Slot) (w : Work), s.Inv ∧ s.ump.slot = some u ∧ s.err.faults = [] ∧ u.boundaryDone = true ∧
      s.ump.work = some w ∧ s.ump.overrun = none) ∧
    (∃ (s : State) (u : Slot), s.ump.slot = some u ∧ s.err.faults = [] ∧ s.err.hold = false ∧ s.err.deviceFault = false ∧
      u.boundaryDone = true ∧ s.ump.work = none ∧ s.ump.done = [] ∧ s.ump.steps = [] ∧ s.ump.ready = [] ∧ s.ump.overrun = none ∧
      s.host.completions = [] ∧ s.host.events = [] ∧ s.rdc.step = none ∧ s.pwr.request = none ∧ u.kind = .idle) :=
  ⟨⟨working .serve run, idleSlot, workOf .serve, inv_of rfl rfl, by decide⟩,
    ⟨ump (fun u => { u with slot := some idleSlot }) run, idleSlot, by decide⟩⟩

theorem witness_SlotEndHeld : ∃ (s : State) (u : Slot), s.ump.slot = some u ∧ s.err.faults = [] ∧ s.err.hold = true ∧
    s.ump.work = none ∧ s.ump.done = [] ∧ s.ump.steps = [] ∧ s.host.completions = [] ∧ s.host.events = [] ∧ s.rdc.step = none ∧
    s.pwr.request = none :=
  ⟨err (fun e => { e with hold := true }) (ump (fun u => { u with slot := some idleSlot }) run), idleSlot, by decide⟩

/-- The same with a window that is open, in hold or not. -/
def windowed (hold : Bool) : State :=
  err (fun e => { e with hold := hold }) (ump (fun u => { u with rsv := [(3, ⟨none, [2], 0⟩)] }) (reservedFor 0))

theorem witness_SlotTimelineCompletes :
    (∃ (s : State) (u : Slot), s.ump.slot = some u ∧ u.boundaryDone = false ∧ s.halted = false ∧ stepBegun s u = true) ∧
    (∃ (s : State) (i : Nat) (e : RsvEntry), s.rsvEntry i = some e ∧ e.group = true ∧ s.pwr.phase = .running) ∧
    (∀ hold : Bool, (windowed hold).rsvEntry 3 = some ⟨3, false, 0, 0, 100000, 0⟩ ∧ (windowed hold).err.hold = hold ∧
      ((if (windowed hold).err.hold then (windowed hold).noteJobs (windowed hold).ts else windowed hold).rsvRun 3).windows = [2]) ∧
    (∃ (s : State) (v : Word), s.pwr.phase = .running ∧ wordFld v 31 1 = 0 ∧ wordFld v 0 16 = 4095) ∧
    (∃ (s : State) (u : Slot) (w : Work) (o : Nat × Nat × Nat), s.ump.slot = some u ∧ s.ump.work = some w ∧
      s.ump.overrun = some o) ∧
    (∃ (s : State) (v : Word) (w : Work), s.pwr.phase = .running ∧ s.ump.work = some w ∧ wordFld v 0 16 = w.ctx ∧ w.ctx ≠ 0 ∧
      w.ctx ≤ 4095 ∧ wordFld v 31 1 = 1) :=
  ⟨⟨ump (fun u => { u with slot := some { idleSlot with boundaryDone := false } }) run, { idleSlot with boundaryDone := false }, by decide⟩,
    ⟨reservedFor 1, 3, ⟨3, true, 0, 0, 100000, 0⟩, by decide⟩,
    by decide +kernel,
    ⟨run, 0xFFF, by decide⟩,
    ⟨ump (fun u => { u with overrun := some (200, 1, 500000) }) (working .serve run), idleSlot, workOf .serve, (200, 1, 500000), by decide⟩,
    ⟨working .serve run, 0x800000C8, workOf .serve, by decide⟩⟩

/-- A serve class whose streams and programs are empty, with a prefix and KV of one layer. -/
def class1 : ServeClass :=
  ⟨1000, ⟨1, 1, 32, 1, 64, 16, 0, 8, 0, 0, 5⟩, ⟨1, 1, 32, 8, 4, 1⟩, [], .empty, [], none⟩
/-- An image with it. -/
def image8 : Image := ⟨9, 77, false, none, 4, [class1], [], []⟩
/-- A ready serve of request 1, which steps. -/
def ready5 : ReadyServe :=
  { readyOf (acceptedOn 0 (descOf 0x20 200 [(16, 0, 16, 1)])) 0 0 with steps := [(1, 3)], settled := true }
/-- A stream of two layers. -/
def stream2 (started completed compute ended : Nat) : StreamRun :=
  ⟨[⟨0, 0, 0, 10⟩, ⟨1, 0, 0, 20⟩], 0, 1, started, completed, compute, ended, 0, [], []⟩
/-- A serve that runs: its request 1 is on die 0, and two layers are released for write-back. -/
def serving (t : StreamRun) : State :=
  let w : Work := { workOf .serve with sems := [(5, 2)] }
  let s := ump (fun u => { u with
    slot := some idleSlot, work := some w, ready := [ready5], images := [(0, image8)]
    requests := [⟨200, 1, 1, 1, false, 3, 0, 0, 0, 0, [], none, none⟩] }) (served 0 openDesc)
  { s with wst := { s.wst with stream := some t } }
def servingWork : Work := { workOf .serve with sems := [(5, 2)] }

/-- A slot that runs, with a practice step that waits. -/
def stepping : State := ump (fun u => { u with slot := some idleSlot, steps := [step7] }) (practised 0 stepDesc)

theorem witness_WorkStartsAndEndsComplete :
    (∃ (s : State) (u : Slot) (c b : Nat) (d : Drr) (p : PStep) (x : Segment) (g : Program) (i : Image), s.ump.slot = some u ∧
      u.boundaryDone = true ∧ s.halted = false ∧ s.ump.work = none ∧ s.ump.overrun = none ∧ s.ts < u.slotEnd ∧
      stepBegun s u = true ∧ groupSegment s u = none ∧ s.pickSegment (u.slotEnd - s.ts) = (some c, d) ∧
      nextSegment s false c = some (p, x) ∧ programAt s p = some g ∧ Tbl.get? s.ump.images p.imgSlot = some i ∧
      segmentBank s p g x = some b) ∧
    (∃ (s : State) (w : Work), s.ump.work = some w ∧ w.practice = true ∧ enginesDone s w = true) ∧
    (∃ (s : State) (w : Work), s.ump.work = some w ∧ w.practice = false ∧ enginesDone s w = true ∧ writebacksDone s w = true) :=
  ⟨⟨stepping, idleSlot, 200, 0, (stepping.pickSegment 500000).2, step7, ⟨1000, [], .empty, []⟩, program7, image9, by decide,
      by decide, by decide, by decide, by decide, by decide, by decide, by decide, by rfl, by decide, by decide, by decide, by decide⟩,
    ⟨working .segment run, workOf .segment, by decide⟩, ⟨working .serve run, workOf .serve, by decide⟩⟩

/-- Group slot of entry 3 of context 200, whose class the image holds beside a program whose segment runs in group slots. -/
def groupSlot : Slot := ⟨0, 500000, 500000, .group 3, none, true⟩
def boundProgram : Program := { program7 with group := some ⟨1, [4], []⟩ }
def groupStepping : State :=
  let s := ump (fun u => { u with
    slot := some groupSlot, steps := [step7], images := [(0, { image9 with classes := [class1], programs := [boundProgram] })] })
    (practised 0 stepDesc)
  let s := reg (keyOf R.umpRsvCfg 3) 16 12 200 (reg (keyOf R.umpRsvCfg 3) 28 1 1 (reg (keyOf R.umpRsvPeriod 3) 0 23 10 s))
  { reg (keyOf R.umpRsvCfg 3) 0 16 class1.kv.cls s with
    rdc := { s.rdc with step := some ⟨3, 0, true, false, 0, 5, 100, [], .zero, false, [], false, none, 0, false, false⟩ } }

theorem witness_GroupSegmentStarts : ∃ (s : State) (u : Slot) (b : Nat) (p : PStep) (x : Segment) (g : Program) (i : Image),
    s.ump.slot = some u ∧ u.boundaryDone = true ∧ s.halted = false ∧ s.ump.work = none ∧ s.ump.overrun = none ∧ s.ts < u.slotEnd ∧
    stepBegun s u = true ∧ groupSegment s u = some (p, x) ∧ programAt s p = some g ∧ Tbl.get? s.ump.images p.imgSlot = some i ∧
    segmentBank s p g x = some b :=
  ⟨groupStepping, groupSlot, 0, step7, ⟨1000, [], .empty, []⟩, boundProgram, { image9 with classes := [class1], programs := [boundProgram] },
    rfl, rfl, by decide, rfl, rfl, by decide, by decide, by decide, by decide, by decide, by decide⟩

theorem witness_LayersAndGathersComplete :
    (∃ (s : State) (r : StreamRun) (e : StreamEntry) (w : Work), s.wst.stream = some r ∧ s.ump.work = some w ∧
      r.entries[r.started]? = some e ∧ r.mayStart = true ∧ s.entryLost r e = [] ∧ s.mirrorOn = true) ∧
    (∃ (s : State) (r : StreamRun) (e : StreamEntry) (w : Work), s.wst.stream = some r ∧ s.ump.work = some w ∧
      r.entries[r.completed]? = some e ∧ r.completed < r.started ∧
      (s.entryLost r e).all (fun x => r.fetched.contains (r.completed, x)) = true) ∧
    (∃ (s : State) (r : StreamRun) (w : Work), s.wst.stream = some r ∧ s.ump.work = some w ∧ r.completed ≤ r.computeStarted) ∧
    (∃ (s : State) (r : StreamRun) (w : Work), s.wst.stream = some r ∧ s.ump.work = some w ∧ r.computeStarted < r.completed ∧
      gathersOpen s w r.computeStarted = []) ∧
    (∃ (s : State) (die : Nat) (r : StreamRun) (w : Work) (i : Image), s.wst.stream = some r ∧ s.ump.work = some w ∧ die < 16 ∧
      (s.prefixOf w).isSome = true ∧ (s.gatherOf die).started = (s.gatherOf die).completed ∧
      Tbl.get? s.ump.images w.imgSlot = some i ∧ (s.gatherOf die).started < i.layers ∧
      (s.gatherOf die).started = 2 ∧ r.released (s.gatherOf die).started = true) ∧
    (∃ (s : State) (die : Nat) (r : StreamRun) (w : Work), s.wst.stream = some r ∧ s.ump.work = some w ∧
      (s.prefixOf w).isSome = true ∧ (s.gatherOf die).started ≠ (s.gatherOf die).completed) ∧
    (∃ (s : State) (die layer : Nat) (w : Work) (k : ServeClass) (r : ReadyServe), s.ump.work = some w ∧ classRun s w = some k ∧
      s.ump.ready.find? (fun r => r.did == w.did) = some r ∧ w.practice = false ∧ (steppingDies s w).contains die = true ∧
      (w.writeback die).1 = layer ∧ layer < releasedLayers s w) ∧
    (∃ (s : State) (die layer : Nat) (w : Work) (k : ServeClass), s.ump.work = some w ∧ classRun s w = some k ∧
      w.practice = false ∧ (w.writeback die).2 = layer ∧ layer < (w.writeback die).1) :=
  let writing : Work := { servingWork with writebacks := [(0, (2, 1))] }
  ⟨⟨reg R.wstCtl 4 1 1 (serving (stream2 1 1 0 0)), stream2 1 1 0 0, ⟨1, 0, 0, 20⟩, servingWork, by decide⟩,
    ⟨serving (stream2 2 1 0 0), stream2 2 1 0 0, ⟨1, 0, 0, 20⟩, servingWork, by decide⟩,
    ⟨serving (stream2 2 2 2 1), stream2 2 2 2 1, servingWork, by decide⟩,
    ⟨ump (fun u => { u with work := some (workOf .segment) }) (serving (stream2 1 1 0 0)), stream2 1 1 0 0, workOf .segment, by decide⟩,
    ⟨lkr (fun l => { l with gathers := [(15, ⟨2, 2⟩)] }) (serving (stream2 2 2 2 1)), 15, stream2 2 2 2 1, servingWork, image8, by decide⟩,
    ⟨lkr (fun l => { l with gathers := [(15, ⟨2, 1⟩)] }) (serving (stream2 2 2 2 1)), 15, stream2 2 2 2 1, servingWork, by decide⟩,
    ⟨serving (stream2 2 2 2 1), 0, 0, servingWork, class1, ready5, by decide⟩,
    ⟨ump (fun u => { u with work := some writing }) (serving (stream2 2 2 2 1)), 0, 1, writing, class1, by decide⟩⟩

/-! The weight store. -/

def wst (f : WstState → WstState) (s : State) : State := { s with wst := f s.wst }
/-- A device whose weight store loads into bank 1. -/
def loading (l : WsLoad) (s : State) : State := wst (fun w => { w with load := some l }) s
/-- The header of an image whose shards start at 4 MiB. -/
def imageHead : List Byte :=
  bytesOf 4 0x59545256 ++ bytesOf 4 1 ++ bytesOf 8 256 ++ bytesOf 8 256 ++ bytesOf 8 256 ++ bytesOf 8 256 ++ bytesOf 8 0x40_0000 ++
    List.replicate 80 0
/-- A load whose header has arrived. -/
def headed (src : LoadSource) (n : Nat) : WsLoad :=
  { freshLoad 1 0 false src with preamble := Memory.writeBytes [] 0 imageHead, received := n, nextA := n }
/-- A bundle in flash whose entry of KIND 4 has 192 bytes. -/
def flashed : Memory :=
  Memory.writeBytes [] 0 (bytesOf 4 0x4E424244 ++ bytesOf 4 0x401 ++ List.replicate 56 0 ++ bytesOf 4 4 ++ bytesOf 4 4096 ++ bytesOf 8 192)

theorem witness_LoadCommandsComplete :
    (∀ src ∈ [0, 1, 2, 3, 4], ∃ (s : State) (v : Word) (x : LoadSource), s.Inv ∧ s.pwr.phase = .running ∧ wordFld v 0 1 = 1 ∧
      wordFld v 2 3 = src ∧ loadSourceOf s (wordFld v 2 3) = some x ∧ s.wst.load = none ∧ s.bankBusy (wordFld v 5 1) = false) ∧
    (∃ (s : State) (v : Word) (x : LoadSource), s.pwr.phase = .running ∧ wordFld v 0 1 = 1 ∧ loadSourceOf s (wordFld v 2 3) = some x ∧
      (s.wst.load.isSome || s.bankBusy (wordFld v 5 1)) = true) ∧
    (∃ (s : State) (v : Word) (l : WsLoad), s.pwr.phase = .running ∧ wordFld v 1 1 = 1 ∧ s.wst.load = some l) ∧
    (∃ (s : State) (c r so : Nat) (a : Accepted) (l : WsLoad) (x : Context), s.oldest c r 0x50 = some a ∧ fld a.desc 8 0 32 = 1 ∧
      fld a.desc 36 0 224 = 0 ∧ fld a.desc 24 0 64 % 65536 = 0 ∧ fld a.desc 32 0 32 % 256 = 0 ∧ fld a.desc 32 0 32 ≠ 0 ∧
      fld a.desc 32 0 32 ≤ 67108864 ∧ a.slotsOk = true ∧ s.wst.load = some l ∧ l.source = .portA ∧ s.ctx? c = some x ∧
      x.port = .a ∧ l.shardOff = some so ∧ l.nextA = fld a.desc 16 0 64 ∧
      l.nextA + (s.winRead c (fld a.desc 24 0 64) (fld a.desc 32 0 32)).length ≤ so ∧
      s.winRead c (fld a.desc 24 0 64) (fld a.desc 32 0 32) ≠ []) ∧
    (∃ (s : State) (l : WsLoad) (es : List (Nat × Nat × Nat × Nat)), s.wst.load = some l ∧
      bundleEntries s.pwr.flash = some es ∧ l.source = .flash ∧ s.pwr.flashSel = false ∧ es.any (fun e => e.1 == 4) = true ∧
      l.received = 0 ∧ l.preamble = []) :=
  let piece := descOf 0x50 200 [(16, 0, 64, 0x3FFF00), (24, 0, 64, 65536), (32, 0, 32, 256)]
  ⟨fun src h => by
      simp only [List.mem_cons, List.not_mem_nil, or_false] at h
      rcases h with rfl | rfl | rfl | rfl | rfl
      · exact ⟨run, 1, .portA, inv_of rfl rfl, by decide⟩
      · exact ⟨run, 5, .portB, inv_of rfl rfl, by decide⟩
      · exact ⟨run, 0x29, .both, inv_of rfl rfl, by decide⟩
      · exact ⟨run, 13, .flash, inv_of rfl rfl, by decide⟩
      · exact ⟨reg R.wstChain 0 16 0x8000 run, 17, .chain, inv_reg _ _ _ _ (inv_of rfl rfl), by decide⟩,
    ⟨loading (freshLoad 1 0 false .portA) run, 0x21, .portA, by decide⟩,
    ⟨loading (freshLoad 1 0 false .portA) run, 2, freshLoad 1 0 false .portA, by decide⟩,
    ⟨loading (headed .portA 0x3FFF00) (served 0 piece), 200, 0, 0x40_0000, acceptedOn 0 piece, headed .portA 0x3FFF00, ctx 1,
      by decide, by decide, by decide, by decide, by decide, by decide, by decide, rfl, rfl, rfl, rfl, rfl, by decide, by decide,
      by decide, by decide⟩,
    ⟨pwr (fun p => { p with flash := flashed, flashSel := false }) (loading (freshLoad 1 0 false .flash) run), freshLoad 1 0 false .flash,
      (bundleEntries flashed).getD [], by decide⟩⟩

/-- A manifest of three shards. -/
def manifest3 : Manifest := ⟨9, 1, false, 3, 1, 1, 0, 0, 0x40_0000⟩
/-- A load that is writing a shard. -/
def writing (fails : Nat) : WsLoad :=
  { headed .portA 0x40_0000 with manifest := some manifest3, writing := some ⟨1, [7], 1, 0, fails⟩ }
/-- The same with the two other shards in place. -/
def lastShard : WsLoad := { writing 0 with place := [⟨0, 0, 1, 0⟩, ⟨2, 2, 1, 0⟩] }
/-- A device that takes its image from port 15 by pass chain. -/
def chainIn : State := reg R.wstChain 0 16 0x8000 run
/-- A chain packet received on port 15. -/
def chainGot (ty sq : Nat) (data : List Byte) : InboxPacket := ⟨15, true, packet ty 15 127 sq data⟩

theorem witness_LoadProgressCompletes :
    (∃ (s : State) (l : WsLoad), s.wst.load = some l ∧ l.manifest = none ∧ l.preambleThere = true ∧ l.unchecked = []) ∧
    (∃ (s : State) (l : WsLoad) (w : ShardWrite) (f : Manifest), s.wst.load = some l ∧ l.writing = some w ∧ l.waiting = [] ∧
      l.manifest = some f ∧ l.place.length + 1 < f.shards) ∧
    (∃ (s : State) (l : WsLoad) (w : ShardWrite) (f : Manifest), s.wst.load = some l ∧ l.writing = some w ∧ l.target < 2 ∧
      l.manifest = some f ∧ f.shards ≤ l.place.length + 1) ∧
    (∀ n ∈ [0, 1], ∃ (s : State) (l : WsLoad) (w : ShardWrite), s.wst.load = some l ∧ l.writing = some w ∧ w.fails = n) ∧
    (∃ (s : State) (k : InboxPacket) (l : WsLoad) (i so : Nat), s.inbox? (isChain s 0x20) = some k ∧ s.wst.load = some l ∧
      l.source = .chain ∧ s.chainIn.idxOf? k.port = some i ∧ k.packet.seq = preambleSeq ∧ l.manifest = none ∧
      l.shardOff = some so ∧ k.packet.data ≠ [] ∧ l.received + k.packet.data.length ≤ so) ∧
    (∃ (s : State) (k : InboxPacket) (w : Nat × List Byte), s.inbox? (isChain s 0x21) = some k ∧
      s.wst.window.find? (fun w => w.1 == k.packet.seq) = some w) ∧
    (∃ (s : State) (k : InboxPacket) (l : WsLoad), s.inbox? (isChain s 0x22) = some k ∧ s.wst.load = some l ∧
      k.packet.seq ∈ l.resends) :=
  ⟨⟨loading (headed .portA 0x40_0000) run, headed .portA 0x40_0000, by decide⟩,
    ⟨loading (writing 0) run, writing 0, ⟨1, [7], 1, 0, 0⟩, manifest3, by decide⟩,
    ⟨loading lastShard run, lastShard, ⟨1, [7], 1, 0, 0⟩, manifest3, by decide⟩,
    fun n _ => ⟨loading (writing n) run, writing n, ⟨1, [7], 1, 0, n⟩, rfl, rfl, rfl⟩,
    ⟨inbox (chainGot 0x20 preambleSeq [1]) (loading (headed .chain 0x3F_FFFF) chainIn), chainGot 0x20 preambleSeq [1],
      headed .chain 0x3F_FFFF, 0, 0x40_0000, by decide, by decide, by decide, by decide, by decide, by decide, by decide, by decide,
      by decide⟩,
    ⟨inbox (chainGot 0x21 4 []) (wst (fun w => { w with window := [(4, [1])] }) chainIn), chainGot 0x21 4 [], (4, [1]), by decide⟩,
    ⟨inbox (chainGot 0x22 4 []) (loading { headed .chain 128 with resends := [4] } chainIn), chainGot 0x22 4 [],
      { headed .chain 128 with resends := [4] }, by decide⟩⟩

/-- A bank with one shard of layer 0 on die 3, in its block 3071. -/
def oneShard (st : WsBankState) : BankRec :=
  { BankRec.blank with
    st := st, imageId := 9, epoch := 1, layers := 1, shards := 1, layout := [⟨1, 0, 0xFFFF, 0x01, 3, 0, 0, 512⟩]
    place := [⟨0, 3, 0, 3071⟩] }
/-- A device that streams that layer. -/
def streaming : State := wst (fun w => { w with bank0 := oneShard .active, stream := some (stream2 1 0 0 0) }) run
/-- A line whose first word has two wrong symbols. -/
def badLine : List Byte := 5 :: 9 :: List.replicate 266 0
def goodLine : List Byte := List.replicate 268 0
/-- A request for the shard, and its answer. -/
def askShard : InboxPacket := got 0x10 14 127 0 (bytesOf 8 9 ++ bytesOf 4 0)
def giveShard : InboxPacket := got 0x11 14 127 0 (bytesOf 8 9 ++ bytesOf 4 0 ++ bytesOf 4 0 ++ [1])

theorem witness_LostShardsComplete :
    (∀ first ∈ [goodLine, badLine], ∀ second ∈ [goodLine, badLine], ∃ (s : State) (die block b shard entry : Nat), s.Inv ∧
      streamingShard s die block = some (b, shard, entry) ∧ lineReadable first = decide (first = goodLine) ∧
      lineReadable second = decide (second = goodLine)) ∧
    (∃ (s : State) (k : InboxPacket) (b : Nat), s.inbox? (fun k => k.packet.ty == 0x10) = some k ∧
      [0, 1].find? (fun b => (decide ((s.bank b).st = .active) || decide ((s.bank b).st = .draining) ||
        decide ((s.bank b).st = .ready)) && (s.bank b).imageId == ofBytes (k.packet.data.take 8) &&
        !s.shardGone b (ofBytes ((k.packet.data.drop 8).take 4))) = some b) ∧
    (∃ (s : State) (k : InboxPacket) (f : MirrorFetch), s.inbox? (fun k => k.packet.ty == 0x11) = some k ∧
      s.wst.fetches.find? (fun f => f.shard == ofBytes ((k.packet.data.drop 8).take 4) &&
        (s.bank f.bank).imageId == ofBytes (k.packet.data.take 8) &&
        f.data.length == ofBytes ((k.packet.data.drop 12).take 4)) = some f ∧
      (f.data ++ k.packet.data.drop 16).length < usedLen (entriesIn (s.bank f.bank) f.shard) f.shard) ∧
    (∃ (s : State) (shard : Nat) (f : MirrorFetch), s.wst.fetches.find? (fun f => f.shard == shard) = some f) ∧
    (∃ (s : State) (b : Nat), [0, 1].find? (fun b => decide ((s.bank b).st = .draining)) = some b) :=
  let fetching := wst (fun w => { w with fetches := [⟨0, 0, 0, 0, []⟩] }) streaming
  ⟨fun first h1 second h2 => ⟨streaming, 3, 3071, 0, 0, 0, inv_of rfl rfl, by decide, by
      have h : ∀ x ∈ [goodLine, badLine], lineReadable x = decide (x = goodLine) := by decide
      exact ⟨h _ h1, h _ h2⟩⟩,
    ⟨inbox askShard streaming, askShard, 0, by decide⟩,
    ⟨inbox giveShard fetching, giveShard, ⟨0, 0, 0, 0, []⟩, by decide⟩,
    ⟨fetching, 0, ⟨0, 0, 0, 0, []⟩, by decide⟩,
    ⟨wst (fun w => { w with bank1 := oneShard .draining }) run, 1, by decide⟩⟩

/-! The engines. -/

/-- A serve that runs a class with these programs, on court 0, vector engine 0, gather engine 0 and channel 64. -/
def programs (tile vec gather chan : List Desc) : State :=
  let k : ServeClass := { class1 with
    programs := { ProgramSet.empty with tile := [(0, tile)], vec := [(0, vec)], gather := [(0, gather)] }
    group := some ⟨100, [], [⟨64, 31, chan⟩]⟩ }
  ump (fun u => { u with images := [(0, { image8 with classes := [k] })] }) (serving (stream2 1 1 1 0))
/-- A command word of an opcode. -/
def word (op : Nat) (fs : List LayoutField) : Desc := layout 512 ((0, 0, 8, op) :: fs)
/-- A device address in the SRAM of die 0. -/
def sram0 : Nat := sdAddr 0 0
/-- An engine's number in `programs`. -/
def engines : List Engine := [.court 0, .vec 0, .gather 0, .channel 64]

theorem witness_SequencersComplete :
    (∀ e ∈ engines, ∀ v ∈ [2, 3], ∃ (s : State) (cmd : Desc) (w : Work), s.issued e 0x10 cmd = some w ∧
      fld cmd 8 0 32 = v ∧ s.sem (fld cmd 4 0 16) = 2) ∧
    (∀ e ∈ engines, ∃ (s : State) (cmd : Desc) (w : Work), s.issued e 0x11 cmd = some w ∧ s.tilesOf 0 = [] ∧ s.todoOf 0 = [] ∧
      ∀ r ∈ s.rdc.chans, r.channel = 64 → r.issued = true → r.complete = true) ∧
    (∀ e ∈ engines, ∃ (s : State) (cmd : Desc) (w : Work), s.issued e 0x1F cmd = some w) := by
  refine ⟨fun e he v hv => ?_, fun e he => ?_, fun e he => ?_⟩
  · let c := word 0x10 [(4, 0, 16, 5), (8, 0, 32, v)]
    refine ⟨programs [c] [c] [c] [c], c, servingWork, ?_⟩
    simp only [engines, List.mem_cons, List.not_mem_nil, or_false] at he hv
    rcases he with rfl | rfl | rfl | rfl <;> rcases hv with rfl | rfl <;> decide
  · let c := word 0x11 [(4, 0, 16, 1023), (8, 0, 32, 1)]
    refine ⟨programs [c] [c] [c] [c], c, servingWork, ?_⟩
    simp only [engines, List.mem_cons, List.not_mem_nil, or_false] at he
    rcases he with rfl | rfl | rfl | rfl <;> decide
  · let c := word 0x1F []
    refine ⟨programs [c] [c] [c] [c], c, servingWork, ?_⟩
    simp only [engines, List.mem_cons, List.not_mem_nil, or_false] at he
    rcases he with rfl | rfl | rfl | rfl <;> decide

/-- A tile command at addresses of SRAM. -/
def tileWord (op : Nat) : Desc := word op [(16, 0, 48, sram0), (24, 0, 48, sram0), (32, 0, 48, sram0)]
/-- A command whose A_ADDR, X_ADDR or SRC_ADDR lies in no region of R623. -/
def farWord (op : Nat) : Desc := word op [(4, 0, 32, 1), (16, 0, 48, 0xF000_0000_0000)]
/-- Its tile on cube 3. -/
def aTile : Tile := ⟨tileWord 1, 0, 3, 3, 0, 0, false, []⟩
def eng (f : EngineState → EngineState) (s : State) : State := { s with eng := f s.eng }

theorem witness_TileCommandsComplete :
    (∀ pair ∈ [none, some (tileWord 2)], ∃ (s : State) (court : Nat) (cmd : Desc) (w : Work),
      s.issued (.court court) 0x01 cmd = some w ∧ commandReady s court = true ∧
      (∀ a ∈ (TileCmd.ofBits cmd).addrs, mapped a = true) ∧ Tbl.get? s.eng.pairs court = pair ∧
      (∀ first, Tbl.get? s.eng.pairs court = some first → ∀ a ∈ (TileCmd.ofBits first).addrs, mapped a = true)) ∧
    (∃ (s : State) (court : Nat) (cmd : Desc) (w : Work), s.issued (.court court) 0x01 cmd = some w ∧ commandReady s court = true ∧
      Tbl.get? s.eng.pairs court = none ∧ mapped (TileCmd.ofBits cmd).aAddr = false) ∧
    (∃ (s : State) (court : Nat) (cmd : Desc) (w : Work), s.issued (.court court) 0x02 cmd = some w ∧ commandReady s court = true) ∧
    (∃ (s : State) (court cube : Nat) (w : Work) (x : Tile), s.Inv ∧ s.ump.work = some w ∧
      (s.tilesOf court).find? (fun t => t.cube == cube) = some x) := by
  refine ⟨fun pair h => ?_, ⟨programs [farWord 1] [] [] [], 0, farWord 1, servingWork, by decide⟩, ⟨programs [tileWord 2] [] [] [], 0, tileWord 2, servingWork, by decide⟩,
    ⟨eng (fun e => { e with tiles := [(0, [aTile])] }) (working .serve run), 0, 3, workOf .serve, aTile, inv_of rfl rfl, by decide⟩⟩
  simp only [List.mem_cons, List.not_mem_nil, or_false] at h
  rcases h with rfl | rfl
  · exact ⟨programs [tileWord 1] [] [] [], 0, tileWord 1, servingWork, by decide, by decide, by decide, by decide,
      fun f h => absurd (show (none : Option Desc) = some f from h) (by simp)⟩
  · refine ⟨eng (fun e => { e with pairs := [(0, tileWord 2)] }) (programs [tileWord 1] [] [] []), 0, tileWord 1, servingWork, by decide,
      by decide, by decide, by decide, fun f h => ?_⟩
    have : f = tileWord 2 := by simpa [eng, Tbl.get?] using h.symm
    subst this; decide

theorem inv_programs (tile vec gather chan : List Desc) : (programs tile vec gather chan).Inv :=
  ⟨rfl, (inv_reg R.lkrBullpenPages 0 24 4 (inv_of (s := run) rfl rfl)).2⟩

theorem witness_VectorCommandsComplete : ∀ op ∈ [1, 2, 3, 4, 5, 6, 7, 8, 9, 10, 11], ∀ mode ∈ [1, 2],
    ∃ (s : State) (e : Nat) (cmd : Desc) (w : Work), s.Inv ∧ s.issued (.vec e) op cmd = some w ∧
      (VecCmd.ofBits cmd).mode = mode ∧ mapped (VecCmd.ofBits cmd).xAddr = true ∧ mapped (VecCmd.ofBits cmd).zAddr = true ∧
      mapped (VecCmd.ofBits cmd).yAddr = true ∧ mapped (VecCmd.ofBits cmd).auxAddr = true := fun op ho mode hm => by
  let c := word op [(15, 0, 8, mode), (16, 0, 48, sram0), (24, 0, 48, sram0), (32, 0, 48, sram0), (40, 0, 48, sram0)]
  refine ⟨programs [] [c] [] [], 0, c, servingWork, inv_programs _ _ _ _, ?_⟩
  have h : ∀ op ∈ [1, 2, 3, 4, 5, 6, 7, 8, 9, 10, 11], ∀ mode ∈ [1, 2],
      let c := word op [(15, 0, 8, mode), (16, 0, 48, sram0), (24, 0, 48, sram0), (32, 0, 48, sram0), (40, 0, 48, sram0)]
      (programs [] [c] [] []).issued (.vec 0) op c = some servingWork ∧
      (VecCmd.ofBits c).mode = mode ∧ mapped (VecCmd.ofBits c).xAddr = true ∧ mapped (VecCmd.ofBits c).zAddr = true ∧
      mapped (VecCmd.ofBits c).yAddr = true ∧ mapped (VecCmd.ofBits c).auxAddr = true := by decide
  exact h op ho mode hm

theorem witness_FarAddressesFault :
    (∀ op ∈ [1, 2, 3, 4, 5, 6, 7, 8, 10, 11], (programs [] [farWord op] [] []).issued (.vec 0) op (farWord op) = some servingWork ∧
      mapped (VecCmd.ofBits (farWord op)).xAddr = false) ∧
    (∀ op ∈ [1, 2, 3, 4], (programs [] [] [farWord op] []).issued (.gather 0) op (farWord op) = some servingWork ∧
      mapped (GatherCmd.ofBits (farWord op)).src = false) ∧
    (∀ op ∈ [1, 2, 3, 4, 5], (programs [] [] [] [farWord op]).issued (.channel 64) op (farWord op) = some servingWork ∧
      mapped (ChanCmd.ofBits (farWord op)).src = false) := by decide

theorem witness_GatherCommandsComplete : ∀ op ∈ [1, 2, 3, 4], ∃ (s : State) (e : Nat) (cmd : Desc) (w : Work), s.Inv ∧
    s.issued (.gather e) op cmd = some w ∧ mapped (GatherCmd.ofBits cmd).src = true ∧ mapped (GatherCmd.ofBits cmd).dst = true ∧
    s.mem.scrubs = [] ∧ (∀ a, (s.boundPlace w a).isNone = true) ∧ inLpddr (GatherCmd.ofBits cmd).dst = false ∧ inLpddr (GatherCmd.ofBits cmd).src = false ∧
    (∀ j < 256 * (GatherCmd.ofBits cmd).count, inSram ((GatherCmd.ofBits cmd).dst + j) = true ∧
      s.sramOnline ((GatherCmd.ofBits cmd).dst + j) = true) := fun op ho => by
  let c := word op [(4, 0, 32, 1), (16, 0, 48, sram0), (24, 0, 48, sram0 + 0x4000)]
  refine ⟨programs [] [] [c] [], 0, c, servingWork, inv_programs _ _ _ _, ?_⟩
  simp only [List.mem_cons, List.not_mem_nil, or_false] at ho
  rcases ho with rfl | rfl | rfl | rfl <;> exact ⟨by decide, by decide, by decide, rfl, fun _ => rfl, by decide, by decide, by decide⟩

/-! The group. -/

/-- A channel command of one element at addresses of SRAM. -/
def chanWord (op : Nat) : Desc := word op [(4, 0, 32, 1), (8, 0, 32, 50), (16, 0, 48, sram0), (24, 0, 48, sram0), (32, 0, 48, sram0)]

theorem witness_ChannelCommandsComplete : ∀ op ∈ [1, 2, 3, 4, 5, 6], ∃ (s : State) (ch : Nat) (cmd : Desc) (w : Work),
    s.issued (.channel ch) op cmd = some w ∧ (∀ a ∈ [(ChanCmd.ofBits cmd).src, (ChanCmd.ofBits cmd).dst,
      (ChanCmd.ofBits cmd).recv], mapped a = true) ∧ (ChanCmd.ofBits cmd).wire ≠ 2 ∧ dispatchDone s ch = true := fun op ho => by
  refine ⟨programs [] [] [] [chanWord op], 64, chanWord op, servingWork, ?_⟩
  simp only [List.mem_cons, List.not_mem_nil, or_false] at ho
  rcases ho with rfl | rfl | rfl | rfl | rfl | rfl <;> decide

/-- The 32-byte header of a group packet of class 1 in group step 0 (R426). -/
def groupHead (kind leaf : Nat) : List Byte := bytesOf 32 (layout 256 [(8, 0, 8, kind), (8, 16, 16, 1), (12, 0, 12, leaf)]).toNat
/-- A packet of channel 64's first command. -/
def groupGot (ty kind : Nat) : InboxPacket := got ty 1 64 0 (groupHead kind 2 ++ [1, 2])
/-- A device that runs that command and has received a packet. -/
def receiving (op : Nat) (k : InboxPacket) : State :=
  let s := inbox k (programs [] [] [] [chanWord op])
  { s with rdc := { s.rdc with chans := [.start 64 0 (chanWord op)] } }
/-- A group step that runs work 5. -/
def groupStep : GroupStep := ⟨3, 0, true, true, 0, 5, 100, [], .zero, false, [], false, none, 0, false, false⟩
def rdc (f : RdcState → RdcState) (s : State) : State := { s with rdc := f s.rdc }

/-- The channel's packet is of the running work, of its command in `chanWord op`, and noted with its run. -/
def takes (s : State) (k : InboxPacket) (op : Nat) : Prop :=
  s.ump.work = some servingWork ∧ (sendingCommands s servingWork k.packet.ch)[k.packet.seq]? = some (chanWord op) ∧
    stale s k.packet = false ∧ s.run? k.packet.ch k.packet.seq = some (.start 64 0 (chanWord op))

/-- A packet of a kind of TYPE RDC_DATA, which is no vote and no verdict. -/
def dataGot (kind : Nat) : InboxPacket := groupGot 1 kind
/-- A reduction with WIRE 2. -/
def sharedWord : Desc := chanWord 1 ||| layout 512 [(1, 4, 2, 2)]

theorem witness_ChannelPacketsComplete :
    (∀ x ∈ [(2, 4), (1, 3), (0, 1)], ∃ s : State, takes s (dataGot x.1) x.2 ∧ (subHeadOf (dataGot x.1).packet.data).kind = x.1 ∧
      s.inbox? (fun k => k.packet.ty == 1 && decide (kindOf k ≠ 3 ∧ kindOf k ≠ 4)) = some (dataGot x.1)) ∧
    (∃ s : State, takes s (groupGot 2 5) 5 ∧ s.inbox? (fun k => k.packet.ty == 2 && kindOf k == 5) = some (groupGot 2 5)) ∧
    (∃ s : State, takes s (groupGot 2 6) 5 ∧ s.inbox? (fun k => k.packet.ty == 2 && kindOf k != 5) = some (groupGot 2 6)) ∧
    (∃ s : State, takes s (groupGot 3 7) 6 ∧ s.inbox? (fun k => k.packet.ty == 3) = some (groupGot 3 7)) ∧
    (∀ x ∈ [(1, 2), (2, 5), (2, 6), (3, 7)], stale (inbox (groupGot x.1 x.2) run) (groupGot x.1 x.2).packet = true) ∧
    (∃ (s : State) (ch due : Nat) (g : GroupStep) (w : Work), s.rdc.step = some g ∧ s.ump.work = some w ∧ g.hasWork = true ∧
      g.workId = w.did ∧ missingDue s w ch = some due) :=
  ⟨fun x h => ⟨receiving x.2 (dataGot x.1), by
      simp only [List.mem_cons, List.not_mem_nil, or_false] at h
      rcases h with rfl | rfl | rfl <;> (unfold takes; decide)⟩,
    ⟨receiving 5 (groupGot 2 5), by unfold takes; decide⟩, ⟨receiving 5 (groupGot 2 6), by unfold takes; decide⟩,
    ⟨receiving 6 (groupGot 3 7), by unfold takes; decide⟩, by decide,
    ⟨reg R.rdcGrpA 16 13 2 (rdc (fun r => { r with step := some groupStep }) (programs [] [] [] [chanWord 1])), 64, 50, groupStep,
      servingWork, by decide⟩⟩

/-- A device in that group step. -/
def stepping4 (g : GroupStep) : State := rdc (fun r => { r with step := some g }) run
/-- A vote or a verdict from leaf 1. -/
def voteGot (kind : Nat) : InboxPacket := got 1 15 63 0 (bytesOf 32 (layout 256 [(8, 0, 8, kind), (12, 0, 12, 1)]).toNat)

theorem witness_VotesComplete :
    (∃ (s : State) (g : GroupStep), s.rdc.step = some g ∧ owesVote g = true) ∧
    (∃ (s : State) (g : GroupStep) (k : InboxPacket), s.inbox? (fun k => k.packet.ty == 1 && kindOf k == 3) = some k ∧
      staleVote s k.packet = false ∧ s.rdc.step = some g ∧ g.takesPart = true ∧ g.forwarded = false ∧
      (subHeadOf k.packet.data).leaf ∉ g.children ∧
      (groupChildren s).any (fun q => q.2 == (subHeadOf k.packet.data).leaf) = true) ∧
    (∃ (s : State) (g : GroupStep), s.rdc.step = some g ∧ g.own = true ∧ g.takesPart = true ∧ g.forwarded = false ∧
      g.verdict = none) ∧
    (∃ (s : State) (g : GroupStep) (k : InboxPacket), s.inbox? (fun k => k.packet.ty == 1 && kindOf k == 4) = some k ∧
      staleVote s k.packet = false ∧ s.rdc.step = some g ∧ g.takesPart = true ∧ g.verdict = none) ∧
    (∃ (s : State) (g : GroupStep), s.rdc.step = some g ∧ g.own = true ∧ g.takesPart = true ∧ g.forwarded = true ∧
      g.verdict = none) ∧
    (∀ kind ∈ [3, 4], staleVote run (voteGot kind).packet = true ∧
      (inbox (voteGot kind) run).inbox? (fun k => k.packet.ty == 1 && kindOf k == kind) = some (voteGot kind)) :=
  let voted : GroupStep := { groupStep with own := true }
  let sent : GroupStep := { voted with forwarded := true }
  ⟨⟨stepping4 groupStep, groupStep, by decide⟩,
    ⟨inbox (voteGot 3) (reg R.rdcGrpA 16 13 2 (stepping4 groupStep)), groupStep, voteGot 3, by decide⟩,
    ⟨stepping4 voted, voted, by decide⟩,
    ⟨inbox (voteGot 4) (stepping4 groupStep), groupStep, voteGot 4, by decide⟩,
    ⟨stepping4 sent, sent, by decide⟩, by decide⟩

theorem witness_RootDecidesVerdict : ∀ attempt ∈ [0, 3], ∀ fail ∈ [false, true], ∃ (s : State) (g : GroupStep),
    s.rdc.step = some g ∧ g.own = true ∧ g.forwarded = false ∧ g.verdict = none ∧ groupLeaf s = 0 ∧
    (∀ q ∈ groupChildren s, q.2 ∈ g.children) ∧ (s.attemptOf g.workId).attempt = attempt ∧ g.vote.fail = fail :=
  fun attempt _ fail _ =>
    let g : GroupStep := { groupStep with own := true, vote := { Vote.zero with fail := fail } }
    ⟨rdc (fun r => { r with step := some g, attempts := [(5, ⟨attempt, 0, [], []⟩)] }) run, g, rfl, rfl, rfl, rfl,
      show groupLeaf run = 0 by decide, fun q h => absurd (show q ∈ groupChildren run from h) (by
        rw [show groupChildren run = [] by decide]; simp), rfl, rfl⟩

/-- A saturated sum: fifteen planes of the largest INT32 and one of −1 (R95). -/
theorem witness_Int8PathSaturates : ∃ (c : TileCmd) (ps : List PlaneAcc), c.acc = 1 ∧ ps.length = 16 ∧
    int32Of (drainElement c ps).1 = 2147483647 :=
  ⟨TileCmd.ofBits (0x40#512 <<< 8), (⟨0xFFFFFFFF#32, 0, false⟩ : PlaneAcc) :: List.replicate 15 ⟨0x7FFFFFFF#32, 0, false⟩, by decide⟩

/-! The spec's worked examples, and a few effects worked out by hand. -/

/-- An IQ4Z row of 4,096 elements (R44): the scale, zero point and code of element 2,760 stand at bytes 1,446, 1,451 and 1,552. -/
theorem test_iq4z_row_places :
    let rd : Nat → Byte := fun a => if a = 1446 then 0x7C else if a = 1451 then 0xF8 else if a = 1552 then 0x5B else 0
    Fmt.iq4z.rowBytes 4096 = 2304 ∧ blockScale rd .iq4z 0 2760 = 0x7C ∧ zeroPoint rd 0 2760 = 8 ∧
      elemCode rd .iq4z 0 2760 = 11 ∧ e5m3Code (elemNum rd .iq4z 0 2760) = some 0x084 := by decide
/-- A row written as MXFP8 E4M3 with block amax 3.1: scale byte 0x78, code 0x7C (R58). -/
theorem test_block_conversion :
    let o := convertBlock .mxE4m3 0 [.rne, .rne] [0x40466666#32, 0#32]
    o.scale = 0x78 ∧ o.codes = [0x7C, 0] := by decide
/-- 0.3 to E5M2 by stochastic rounding (R60). -/
theorem test_stochastic_rounding :
    (convertElem .e5m2 0 (.sr 0x3333) 0x3E99999A#32).1 = 0x34 ∧ (convertElem .e5m2 0 (.sr 0x3334) 0x3E99999A#32).1 = 0x35 := by decide
/-- The largest of the amax history is 1,900: EXP is 3, and 1,700 is written as 0x75 (R65). -/
theorem test_outer_scale :
    chooseExponent32 0x44ED8000#32 .e4m3 = 3 ∧ (convertElem .e4m3 3 .rne 0x44D48000#32).1 = 0x75 := by decide
/-- A tensor of 3,145,728 elements with SAT_FRAC 0x10 passes its threshold at 769 clamped values (R73). -/
theorem test_saturation_threshold :
    let e : TensorEntry := { TensorEntry.plain with satFrac := 16 }
    satPassed e ⟨768, 3145728, 0, 0⟩ = false ∧ satPassed e ⟨769, 3145728, 0, 0⟩ = true := by decide
/-- 2^24, 1 and 1 in one plane: FP32 keeps 2^24, and the compensated accumulator gives 2^24 + 2 (R94). -/
theorem test_compensated_accumulation :
    let two24 : F32 := 0x4B800000
    let run (c : Bool) := planeValue c ([two24, one32, one32].foldl (accumulate c) .start)
    run false = some two24 ∧ run true = some 0x4B800001#32 := by decide
/-- The momentum table of R180: three steps of a master of 1.0 with its carry. -/
theorem test_carry_add :
    carryAdd one32 0 0x32800000#32 = (one32, 0xB280) ∧ carryAdd one32 0xB2800000#32 0x32C00000#32 = (0x3F7FFFFF#32, 0x32C0) ∧
      carryAdd 0x3F7FFFFF#32 0x32C00000#32 0x32E00000#32 = (0x3F7FFFFF#32, 0xB180) := by decide
/-- Pages of an adapter of 80 layers, 32 positions and 1,024 elements, in BF16 and in MXFP8 (R231). -/
theorem test_adapter_pages :
    layerBlock 0x01 32 1024 = 131072 ∧ copyPages (80 * 131072) = 161 ∧ layerBlock 0x10 32 1024 = 67584 ∧ copyPages (80 * 67584) = 83 := by
  decide
/-- The tree over six leaves (R411): leaves 1, 2 and 4 send to leaf 0 at levels 1, 2 and 3, and leaf 5 to leaf 4. -/
theorem test_tree_of_six :
    levels 6 = 3 ∧ childrenOf 0 6 = [(1, 1), (2, 2), (3, 4)] ∧ childrenOf 2 6 = [(1, 3)] ∧ childrenOf 4 6 = [(1, 5)] := by decide
/-- Bit 0 of a line's metadata byte flipped is corrected (R487). -/
theorem test_metadata_bit_corrected :
    sc8Decode (List.replicate 64 0 ++ [1, 0, 0, 0]) = .corrected (List.replicate 68 0) := by decide
/-- Address 0x0000_1234_5680 lies in channel 52 of device 6 on MD1, in slot 11 of its block (R492, R493). -/
theorem test_line_place : linePlace 0x12345680 = ⟨52, 6, 1, 2819776, 2820032, 11⟩ := by decide
/-- SHA-384 of "abc" (FIPS 180-4), which R194 and R525 name. -/
theorem test_sha384_abc : bytesOf 48 (sha384 [0x61, 0x62, 0x63]).toNat =
    beBytes 48 0xcb00753f45a35e8bb5a03d699ac65007272c32ab0eded1631a8b605a43ff5bed8086072ba1e7cc2358baeca134c825a7 := by decide +kernel
/-- A block under AES-256 (FIPS 197, C.3), which R230 and R496 name. -/
theorem test_aes256_block : aesEncrypt ((List.range 32).map (BitVec.ofNat 8)) (beBytes 16 0x00112233445566778899aabbccddeeff) =
    beBytes 16 0x8ea2b7ca516745bfeafc49904b496089 := by decide +kernel
/-- Deficit round-robin of contexts 30 (share 3) and 31 (share 1) with slots of 2,000 µs (R349). -/
theorem test_drr_choices :
    let pick (d : Drr) := drrLoop (fun c => if c = 30 then 3000000 else 1000000) (fun _ => 2000000) (fun _ => true) 20 d
    let picks := (List.range 6).foldl (fun (acc : List (Option Nat) × Drr) _ =>
      let r := pick acc.2
      (acc.1 ++ [r.1], r.2)) ([], Drr.empty.refresh [30, 31] [30, 31])
    picks.1 = [some 30, some 30, some 30, some 31, some 30, some 30] := by decide
/-- A slot handed over and given back (R447, R449): GEN 5 becomes 6, with OWN 0. -/
theorem test_slot_given_back :
    (PortState.giveBack { PortState.reset with flags := [(16, ⟨true, 5⟩)] } [16]).flag 16 = ⟨false, 6⟩ := by decide
/-- A serve of 1,000 entries with OUT_EXTRA 64 needs 80,128 bytes of output (R308). -/
theorem test_output_area : outNeed 1000 64 = 80128 := by decide
/-- Segments of 420 µs run in 315 µs at the unstretched clock of 12/16, and one that does not fit is not chosen (R31, R350). -/
theorem test_segment_length : (ump (fun u => { u with stretch := 8 }) run).segLen 420000 = 420000 ∧
    (ump (fun u => { u with stretch := 6 }) run).segLen 420000 = 560000 := by decide

/-! Commands that WellFormed refuses, one for each kind of check, and one that it lets through. -/

theorem test_ill_formed_units :
    [Instr.thermalTrip 74 0, .railFault 9, .functionLevelReset .a 64, .schedUnloadDone 8, .groupSlotStart 64, .rsvWindowEnd 64,
      .prefixGatherStart 16, .prefixGatherComplete 16, .kvWriteback 16 0, .kvWriteback 0 1024, .kvWritebackDone 16 0,
      .semaphoreReached 1024, .thermalHoldEntry 74 0, .traceWordTimeout 24, .pmuClr .a 24 0, .keyLoadReceive 4 0,
      .keyLoadReceive 0 65536, .sweepLine 65536, .slotPurgeDone 65536].all (fun i => !i.wellFormed) = true := by decide
theorem test_ill_formed_host :
    [Instr.doorbellWrite .a 64 0 0 4 0, .doorbellWrite .a 0 256 0 4 0, .descriptorAccept 4096 0 .failed, .descriptorAccept 0 16 .failed,
      .flagHandover .a 64 0 8 0, .serve 4096 0, .serve 0 16, .adapterLoad 4096 0 none, .practiceStep 0 16,
      .wsLoad 4096 0, .mailboxRequestCopy .a 64 0, .registerWrite .a 64 0 4 0].all (fun i => !i.wellFormed) = true := by decide
theorem test_ill_formed_engines :
    [Instr.mma 128 0, .mmaPair 128 0, .tileDrain 128 0, .tileDrain 0 4, .ew 256 0, .normBwd 256 0, .vecWait 256 0, .copy 32 0,
      .gatherEnd 32 0, .allreduce 68 0, .channelEnd 68 0, .dueNsDeadline 68, .portRetry 16, .packetRoute 16, .peerTakesLinkDown 16,
      .wsLineReread 16 0 0 [] [], .wsLineReread 0 8192 0 [] [], .wsLineReread 0 0 16384 [] []].all (fun i => !i.wellFormed) = true := by decide
theorem test_well_formed :
    [Instr.railFault 8, .tileDrain 127 3, .channelEnd 67 0, .serve 4095 15, .keyLoadReceive 3 65535].all Instr.wellFormed = true := by decide

/-! Steps. -/

/-- Reset asserts no command: an idle step lets one nanosecond pass (assumption 1), and no table word spells a command. -/
theorem test_idle_step : step { State.reset with ts := 5 } = .next { State.reset with ts := 6 } ∧ State.reset.withFetchWord 8 0 = State.reset :=
  ⟨rfl, rfl⟩

end Sys2Proof.Tests
end

section
/-! SUPPORT. The narrow integer codes reach the multiplier unrounded (R49): an integer with no more significant bits than a
format's significand is only shifted into place when it is rounded, so that its code decodes to it again. -/
namespace Sys2Proof.Machine
open Sys2Proof

/-! Rounding a magnitude that fits the significand. -/

/-- A code with a finite magnitude decodes to its sign and that magnitude. -/
theorem decodeFloat_signCode {f : FloatFmt} {mag : Nat} (hfin : mag ≤ f.maxFin) (hlt : mag < 2 ^ f.magBits) (n : Bool) :
    decodeFloat f (signCode f n mag) = .fin n (magValue f mag).1 (magValue f mag).2 := by
  have hsign : (signCode f n mag).testBit f.magBits = n := by
    cases n <;> simp [signCode, Nat.testBit_two_pow_add_eq, Nat.testBit_lt_two_pow hlt]
  have hmag : signCode f n mag % 2 ^ f.magBits = mag := by
    cases n <;> simp [signCode, Nat.mod_eq_of_lt hlt]
  simp only [decodeFloat, hsign, hmag, if_pos hfin]

/-- The magnitude code `x * 2 ^ manBits + q` with `q` a full significand is that of a normal of exponent field `x + 1`. -/
theorem magValue_normal {f : FloatFmt} (x : Nat) {q : Nat} (hlo : 2 ^ f.manBits ≤ q) (hhi : q < 2 ^ (f.manBits + 1)) :
    magValue f (x * 2 ^ f.manBits + q) = (q, (x : Int) + f.emin - f.manBits) := by
  obtain ⟨M, rfl⟩ := Nat.exists_eq_add_of_le hlo
  have hM : M < 2 ^ f.manBits := by rw [Nat.pow_succ] at hhi; omega
  have hcode : x * 2 ^ f.manBits + (2 ^ f.manBits + M) = 2 ^ f.manBits * (x + 1) + M := by ring
  have hexp : (x * 2 ^ f.manBits + (2 ^ f.manBits + M)) >>> f.manBits = x + 1 := by
    rw [hcode, Nat.shiftRight_eq_div_pow, Nat.mul_add_div (Nat.two_pow_pos _), Nat.div_eq_of_lt hM, Nat.add_zero]
  have hman : (x * 2 ^ f.manBits + (2 ^ f.manBits + M)) % 2 ^ f.manBits = M := by
    rw [hcode, Nat.mul_add_mod, Nat.mod_eq_of_lt hM]
  simp only [magValue, hexp, hman, Nat.succ_ne_zero, if_false, FloatFmt.emin]
  push_cast
  congr 1
  ring

/-- An integer with no more significant bits than the significand fills it when it is shifted up. -/
theorem significand_bounds {m p : Nat} (hm : m ≠ 0) (hp : Nat.log2 m ≤ p) :
    2 ^ p ≤ m * 2 ^ (p - Nat.log2 m) ∧ m * 2 ^ (p - Nat.log2 m) < 2 ^ (p + 1) := by
  constructor
  · calc 2 ^ p = 2 ^ Nat.log2 m * 2 ^ (p - Nat.log2 m) := by rw [← Nat.pow_add, Nat.add_sub_cancel' hp]
      _ ≤ m * 2 ^ (p - Nat.log2 m) := Nat.mul_le_mul_right _ (Nat.log2_self_le hm)
  · calc m * 2 ^ (p - Nat.log2 m) < 2 ^ (Nat.log2 m + 1) * 2 ^ (p - Nat.log2 m) :=
          Nat.mul_lt_mul_of_pos_right Nat.lt_log2_self (Nat.two_pow_pos _)
      _ = 2 ^ (p + 1) := by rw [← Nat.pow_add]; congr 1; omega

/-- Rounding an integer in the normal range with no more significant bits than the significand only shifts it up. -/
theorem roundMag_of_fits {f : FloatFmt} (rnd : Rounding) {m : Nat} (hm : m ≠ 0) (hlog : Nat.log2 m ≤ f.manBits)
    (hmin : f.emin ≤ Nat.log2 m) : roundMag f rnd m 0 =
      ((Nat.log2 m : Int) - f.emin).toNat * 2 ^ f.manBits + m * 2 ^ (f.manBits - Nat.log2 m) := by
  have hshift : (0 : Int) - (Nat.log2 m - f.manBits) = (f.manBits - Nat.log2 m : Nat) := by omega
  have hround : roundInt rnd m ((f.manBits - Nat.log2 m : Nat) : Int) false = m * 2 ^ (f.manBits - Nat.log2 m) := by
    rw [roundInt, if_pos (Int.natCast_nonneg _), Int.toNat_natCast, Nat.shiftLeft_eq]
  simp only [roundMag, if_neg hm, floorLog2, Int.add_zero, max_eq_left hmin, hshift, hround]

/-! The narrow integers at the multiplier. -/

/-- A nonzero magnitude of at most four bits reaches the multiplier shifted up to E5M3's four-bit significand. -/
theorem multiplierNum_of_lt_16 (n : Bool) {m : Nat} (hm : m ≠ 0) (h16 : m < 16) :
    multiplierNum (.fin n m 0) = .fin n (m * 2 ^ (3 - Nat.log2 m)) (-((3 - Nat.log2 m : Nat) : Int)) := by
  have hlog : Nat.log2 m ≤ 3 := Nat.lt_succ_iff.mp ((Nat.log2_lt hm).mpr h16)
  obtain ⟨hlo, hhi⟩ := significand_bounds hm hlog
  have hcode : roundMag .e5m3 .rne m 0 = (Nat.log2 m + 14) * 2 ^ 3 + m * 2 ^ (3 - Nat.log2 m) := by
    have hmin : FloatFmt.e5m3.emin ≤ Nat.log2 m := by simp only [FloatFmt.emin, FloatFmt.e5m3]; omega
    have hexp : ((Nat.log2 m : Int) - FloatFmt.e5m3.emin).toNat = Nat.log2 m + 14 := by
      simp only [FloatFmt.emin, FloatFmt.e5m3]; omega
    rw [roundMag_of_fits (f := .e5m3) .rne hm hlog hmin, hexp, FloatFmt.e5m3]
  have hval : magValue .e5m3 (roundMag .e5m3 .rne m 0) =
      (m * 2 ^ (3 - Nat.log2 m), -((3 - Nat.log2 m : Nat) : Int)) := by
    rw [hcode]
    refine (magValue_normal (f := .e5m3) (Nat.log2 m + 14) hlo hhi).trans ?_
    simp only [FloatFmt.emin, FloatFmt.e5m3, Prod.mk.injEq, true_and]
    omega
  have hfin : roundMag .e5m3 .rne m 0 ≤ 0xFF := by omega
  have hdecode := decodeFloat_signCode (f := .e5m3) hfin (Nat.lt_succ_of_le hfin) n
  rwa [hval] at hdecode

/-- A signed integer of −15 to 15 reaches the multiplier with its exact value (R49). -/
theorem multiplierNum_ofInt {v : Int} (hlo : -15 ≤ v) (hhi : v ≤ 15) :
    ∃ (n : Bool) (m j : Nat), multiplierNum (.ofInt v 0) = .fin n m (-(j : Int)) ∧
      m = v.natAbs * 2 ^ j ∧ (v ≠ 0 → n = decide (v < 0)) := by
  by_cases hv : v = 0
  · subst hv
    exact ⟨false, 0, 17, rfl, rfl, fun h => absurd rfl h⟩
  · exact ⟨_, _, _, multiplierNum_of_lt_16 _ (Int.natAbs_ne_zero.mpr hv) (by omega), rfl, fun _ => rfl⟩

/-! The codes and the zero point (R40, R43 to R45). -/

/-- A field of `w` bits is below `2 ^ w`. -/
theorem bitsOf_lt_two_pow (v lo w : Nat) : bitsOf v lo w < 2 ^ w := Nat.mod_lt _ (Nat.two_pow_pos w)

theorem elemCode_int4_lt (rd : Nat → Byte) (row k : Nat) : elemCode rd .int4 row k < 16 :=
  bitsOf_lt_two_pow _ _ 4

theorem elemCode_iq4z_lt (rd : Nat → Byte) (row k : Nat) : elemCode rd .iq4z row k < 16 :=
  bitsOf_lt_two_pow _ _ 4

theorem zeroPoint_lt (rd : Nat → Byte) (row k : Nat) : zeroPoint rd row k < 16 :=
  bitsOf_lt_two_pow _ _ 4

/-- Two's complement of four bits covers −8 to 7 (R40). -/
theorem signed_four_bounds {c : Nat} (hc : c < 16) : -8 ≤ signed 4 c ∧ signed 4 c ≤ 7 := by
  unfold signed
  split <;> omega

/-- Settles O50: an INT4 code lies in −8 to 7 and the difference of two 4-bit IQ4Z fields in −15 to 15, and every integer of
that range fits E5M3's significand. -/
theorem integerCodesReachMultiplierExactly : Obligations.IntegerCodesReachMultiplierExactly := by
  refine ⟨fun rd row k => ?_, fun rd row k => ?_⟩
  · obtain ⟨hlo, hhi⟩ := signed_four_bounds (elemCode_int4_lt rd row k)
    exact ⟨multiplierNum_ofInt (by omega) (by omega), hlo, hhi⟩
  · have hc := elemCode_iq4z_lt rd row k
    have hz := zeroPoint_lt rd row k
    intro v
    have hlo : -15 ≤ v := by omega
    have hhi : v ≤ 15 := by omega
    exact ⟨multiplierNum_ofInt hlo hhi, hlo, hhi⟩

end Sys2Proof.Machine
end

section
/-! SUPPORT. The INT8 path (R52, R95): accumulator bits read as INT32 are their two's complement, so a sum that was saturated
to the INT32 range is read back from them unchanged; the model's INT32 sums are then saturating additions of those readings. -/
namespace Sys2Proof.Machine
open Sys2Proof

/-! Saturated values as accumulator bits. -/

/-- The INT32 value nearest to an integer (R52). -/
def clampInt32 (x : Int) : Int := max (-2147483648) (min 2147483647 x)

/-- Addition on the INT8 path (R95). -/
def int32Add (x y : Int) : Int := clampInt32 (x + y)

theorem int32Of_eq_toInt (x : F32) : int32Of x = x.toInt := by
  simp only [int32Of, signed, BitVec.toInt]
  split <;> split <;> omega

theorem int32Of_ofInt32Bits {i : Int} (hlo : -2147483648 ≤ i) (hhi : i ≤ 2147483647) : int32Of (ofInt32Bits i) = i := by
  rw [int32Of_eq_toInt, ofInt32Bits]
  exact BitVec.toInt_ofInt_eq_self (by decide) (by omega) (by omega)

theorem satInt32_fst (x : Int) : (satInt32 x).1 = clampInt32 x := by
  unfold satInt32 clampInt32
  split
  · omega
  · split <;> omega

@[simp] theorem int32Of_satInt32 (x : Int) : int32Of (ofInt32Bits (satInt32 x).1) = clampInt32 x := by
  rw [satInt32_fst]
  exact int32Of_ofInt32Bits (by unfold clampInt32; omega) (by unfold clampInt32; omega)

/-! The accumulator of a plane. -/

/-- A plane's accumulator as the INT8 path reads it: an empty one counts as 0 (R95). -/
def PlaneAcc.int32 (a : PlaneAcc) : Int := if a.empty then 0 else int32Of a.hi

theorem int32_accumulateInt (a : PlaneAcc) (n : Nat) (x : Int) :
    (accumulateInt (a, n) x).1.int32 = int32Add a.int32 x :=
  int32Of_satInt32 (a.int32 + x)

/-! The tree of a drained element. -/

/-- combine on the INT8 path, with the count of saturations. -/
def int8Combine (x y : F32 × Nat) : F32 × Nat :=
  (ofInt32Bits (satInt32 (int32Of x.1 + int32Of y.1)).1, x.2 + y.2 + (satInt32 (int32Of x.1 + int32Of y.1)).2.toNat)

/-- A leaf of the tree: the bits that plane_value returns, and no saturation yet. -/
def int8Leaf (p : PlaneAcc) : F32 × Nat := (if p.empty then zero32 else p.hi, 0)

/-- One level of the INT8 tree: neighbours combined in pairs. -/
abbrev int8Level : List (F32 × Nat) → List (F32 × Nat) := drainElement.level int8Combine

@[simp] theorem int32Of_int8Combine (x y : F32 × Nat) :
    int32Of (int8Combine x y).1 = int32Add (int32Of x.1) (int32Of y.1) :=
  int32Of_satInt32 _

@[simp] theorem int32Of_int8Leaf (p : PlaneAcc) : int32Of (int8Leaf p).1 = p.int32 := by
  cases h : p.empty
  · simp [int8Leaf, PlaneAcc.int32, h]
  · simp [int8Leaf, PlaneAcc.int32, h, int32Of_eq_toInt, zero32]

/-- On the INT8 path an element is four levels of combine over its leaves. -/
theorem drainElement_int8 {c : TileCmd} (hacc : c.acc = 1) (ps : List PlaneAcc) :
    drainElement c ps = (int8Level (int8Level (int8Level (int8Level (ps.map int8Leaf))))).headD (zero32, 0) := by
  rw [drainElement, if_pos hacc]
  rfl

/-- A map over a list of `n` goes through its entries in order. -/
theorem map_eq_map_range_getD {α β : Type} (f : α → β) {l : List α} {n : Nat} (h : l.length = n) (d : α) :
    l.map f = (List.range n).map (fun i => f (l.getD i d)) := by
  subst h
  refine List.ext_getElem (by simp) fun i hi _ => ?_
  have hi' : i < l.length := by simpa using hi
  simp [hi']

/-- The tree of sixteen INT32 values, neighbours first (R93, R95). -/
def int32Tree (v : Nat → Int) : Int :=
  let quad (i : Nat) : Int := int32Add (int32Add (v i) (v (i + 1))) (int32Add (v (i + 2)) (v (i + 3)))
  int32Add (int32Add (quad 0) (quad 4)) (int32Add (quad 8) (quad 12))

/-- Read as INT32, four levels over sixteen leaves are the tree of their readings. -/
theorem int32Of_int8Level_four (leaf : Nat → F32 × Nat) :
    int32Of ((int8Level (int8Level (int8Level (int8Level ((List.range 16).map leaf))))).headD (zero32, 0)).1 =
      int32Tree (fun i => int32Of (leaf i).1) := by
  simp only [List.range, List.range.loop, List.map_cons, List.map_nil, drainElement.level, List.headD_cons,
    int32Of_int8Combine, int32Tree]

theorem int32Of_drainElement {c : TileCmd} (hacc : c.acc = 1) {ps : List PlaneAcc} (hlen : ps.length = 16) :
    int32Of (drainElement c ps).1 = int32Tree (fun i => (ps.getD i .start).int32) := by
  rw [drainElement_int8 hacc, map_eq_map_range_getD int8Leaf hlen .start, int32Of_int8Level_four]
  simp only [int32Of_int8Leaf]

/-- Settles O51: a saturated sum is read back from its bits as it is, so that every accumulate and every combine is one
saturating addition, and sixteen leaves in order pair up into the tree. -/
theorem int8PathSaturates : Obligations.Int8PathSaturates :=
  ⟨int32_accumulateInt, fun _ _ hacc hlen => int32Of_drainElement hacc hlen⟩

end Sys2Proof.Machine
end

section
/-! SUPPORT. The root of the vote tree (R420, R421): with every vote here it decides, sends the verdict down its children and
holds it. Sending touches the digests of the group work alone, so that the step in progress is still there to hold the
verdict. -/
namespace Sys2Proof.Machine
open Sys2Proof

/-! What sending leaves of the group step. -/

/-- A packet sent touches registers, counters and the link layer only. -/
@[simp] theorem State.send_rdc (s : State) (vc ty ch dst seq : Nat) (data : List Byte) :
    (s.send vc ty ch dst seq data).rdc = s.rdc :=
  have : Fact True := ⟨trivial⟩
  (State.send_keeps (M := fun p => match p with | .regs => True | .scb => True | .mgl => True | _ => False)
    (Keeps.refl s)).parts .rdc id

@[simp] theorem State.mark_rdc_step (s : State) (sending : Bool) (k : Packet) : (s.mark sending k).rdc.step = s.rdc.step := rfl

@[simp] theorem sendVoteTo_rdc_step (s : State) (g : GroupStep) (kind level leaf : Nat) (v : Vote) :
    (sendVoteTo s g kind level leaf v).rdc.step = s.rdc.step := by
  simp only [sendVoteTo, State.sendMarked, State.send_rdc, State.mark_rdc_step]

@[simp] theorem sendVerdict_rdc_step (s : State) (g : GroupStep) (v : Vote) : (sendVerdict s g v).rdc.step = s.rdc.step := by
  unfold sendVerdict
  induction groupChildren s generalizing s with
  | nil => rfl
  | cons q qs ih => rw [List.foldl_cons, ih, sendVoteTo_rdc_step]

/-! Holding, deciding and forwarding. -/

@[simp] theorem State.modStep_rdc_step (s : State) (f : GroupStep → GroupStep) : (s.modStep f).rdc.step = s.rdc.step.map f := rfl

/-- The first verdict of a step is the one that it holds (R421). -/
theorem State.holdVerdict_rdc_step {s : State} {g : GroupStep} (hstep : s.rdc.step = some g) (hnone : g.verdict = none)
    (v : Vote) : (s.holdVerdict v).rdc.step = some { g with verdict := some v } := by
  simp [holdVerdict, snapshot, hstep, hnone]

/-- The verdict's three cases in R421's order. -/
theorem decideVote_eq (v : Vote) (attempt : Nat) : decideVote v attempt = { v with
    verdict := if (v.fail || v.overflow) = true ∧ attempt = 3 then 2 else if (v.fail || v.overflow) = true then 1 else 0 } := by
  by_cases hfailed : (v.fail || v.overflow) = true <;> simp [decideVote, hfailed]

@[simp] theorem Vote.pad_fail (n : Nat) (v : Vote) : (v.pad n).fail = v.fail := rfl
@[simp] theorem Vote.pad_overflow (n : Nat) (v : Vote) : (v.pad n).overflow = v.overflow := rfl

/-- A node that has its own vote and those of all its children forwards them (R420). -/
theorem State.tryForward_of_votes {s : State} {g : GroupStep} (hstep : s.rdc.step = some g) (hown : g.own = true)
    (hforwarded : g.forwarded = false) (hchildren : ∀ q ∈ groupChildren s, q.2 ∈ g.children) :
    s.tryForward = forwardVote s g := by
  have hall : (groupChildren s).all (fun q => g.children.contains q.2) = true := by simpa using hchildren
  simp only [tryForward, hstep, hown, hforwarded, hall, Bool.not_false, Bool.and_self, if_true]

/-- Leaf 0 has no parent: it decides, sends the verdict down and holds it (R421). -/
theorem forwardVote_of_root {s : State} (hroot : groupLeaf s = 0) (g : GroupStep) : forwardVote s g =
    let v := decideVote (g.vote.pad g.slots.length) (s.attemptOf g.workId).attempt
    (sendVerdict (s.modStep (fun g => { g with forwarded := true })) g v).holdVerdict v := by
  have hparent : parentOf (groupLeaf (s.modStep (fun g => { g with forwarded := true }))) = none :=
    congrArg parentOf (show groupLeaf (s.modStep _) = 0 from hroot)
  simp only [forwardVote, hparent]
  rfl

/-- Settles O59: with all votes here the root forwards, which at leaf 0 is to decide; sending the verdict down keeps the step,
which then holds it. -/
theorem rootDecidesVerdict : Obligations.RootDecidesVerdict := by
  intro s g hstep hown hforwarded hnone hroot hchildren failed attempt v
  have hdecide : decideVote (g.vote.pad g.slots.length) attempt = v := decideVote_eq _ attempt
  have hforward : s.tryForward =
      (sendVerdict (s.modStep (fun g => { g with forwarded := true })) g v).holdVerdict v := by
    rw [State.tryForward_of_votes hstep hown hforwarded hchildren, forwardVote_of_root hroot, ← hdecide]
  refine ⟨hforward, { g with forwarded := true, verdict := some v }, ?_, rfl⟩
  rw [hforward]
  exact State.holdVerdict_rdc_step (g := { g with forwarded := true }) (by simp [hstep]) hnone v

end Sys2Proof.Machine
end

section
/-! SUPPORT. Reads of a line that deliver no stored byte (R499): a DATA line of another class than its page's, and a ZERO
line. Each is the bytes the reader sees, then the count the read leaves. -/
namespace Sys2Proof.Machine
open Sys2Proof

/-- The class is compared before a key is chosen: the line's cells, its key and its correctability play no part. -/
theorem State.lineBytes_of_cls_ne {s : State} {line : Nat} {l : LineMeta} (hdata : Tbl.get? s.mem.lines line = some l)
    (hcls : l.cls ≠ (s.page (line / 1024)).cls) : s.lineBytes line = (List.replicate 64 0, true, false) := by
  simp [lineBytes, hdata, hcls]

theorem State.lineBytes_of_zero {s : State} {line : Nat} (hzero : Tbl.get? s.mem.lines line = none) :
    s.lineBytes line = (List.replicate 64 0, false, false) := by
  simp [lineBytes, hzero]

/-- A mismatch without free values is counted once, and nothing else moves. -/
theorem State.readLine_of_mismatch {s : State} {line : Nat} {bs : List Byte} (h : s.lineBytes line = (bs, true, false)) :
    s.readLine line = (bs, s.setReg R.memMismatch (s.regAt R.memMismatch + 1)) := by
  simp [readLine, h, bump]

/-- Without a mismatch and free values a read changes nothing. -/
theorem State.readLine_of_match {s : State} {line : Nat} {bs : List Byte} (h : s.lineBytes line = (bs, false, false)) :
    s.readLine line = (bs, s) := by
  simp [readLine, h]

/-- Settles O32: the read's bytes and flags decide its count, for a DATA line of another class and for a ZERO line. -/
theorem classMismatchReadsZero : Obligations.ClassMismatchReadsZero := by
  refine ⟨fun s line l hdata hcls => ?mismatch, fun s line hzero => ?zero⟩
  case mismatch => simp [State.readLine_of_mismatch (State.lineBytes_of_cls_ne hdata hcls)]
  case zero => simp [State.readLine_of_match (State.lineBytes_of_zero hzero)]

end Sys2Proof.Machine
end

section
/-! SUPPORT. Every command keeps what its row keeps (Laws/Frames.lean), and every step keeps what its command keeps: the
canonical forms, the monotone counts, the queue, the output log and the frame are then read off one statement. -/
namespace Sys2Proof.Machine
open Sys2Proof

/-- The keeping of every row, for a command of any constructor. -/
theorem exec_keeps {c : Instr} {s t : State} (h : exec c s = .next t) : Keeps (· ∈ touched c) s t :=
  match c with
  | .powerUp => powerUp_keeps h
  | .powerDown => powerDown_keeps h
  | .coldReset => coldReset_keeps h
  | .sysRstNRelease _ => sysRstNRelease_keeps h
  | .warmReset => warmReset_keeps h
  | .rstCtlWarm _ _ => rstCtlWarm_keeps h
  | .thermalTrip _ _ => thermalTrip_keeps h
  | .thermalTripEnd _ => thermalTripEnd_keeps h
  | .railFault _ => railFault_keeps h
  | .inputUndervoltage _ => inputUndervoltage_keeps h
  | .umpireWatchdog => umpireWatchdog_keeps h
  | .refereeFault _ => refereeFault_keeps h
  | .portReset _ => portReset_keeps h
  | .functionLevelReset _ _ => functionLevelReset_keeps h
  | .bootSequence _ => bootSequence_keeps h
  | .bootGo _ _ => bootGo_keeps h
  | .bootHostTimeout => bootHostTimeout_keeps h
  | .bootChunkReceive => bootChunkReceive_keeps h
  | .bootLoadGone => bootLoadGone_keeps h
  | .bootLoadResend => bootLoadResend_keeps h
  | .flashSelChange _ => flashSelChange_keeps h
  | .pwrReqActive _ => pwrReqActive_keeps h
  | .pwrReqIdle _ => pwrReqIdle_keeps h
  | .pwrReqStandby _ => pwrReqStandby_keeps h
  | .powerControlTick _ => powerControlTick_keeps h
  | .mgmtWarmReset => mgmtWarmReset_keeps h
  | .mgmtHalfTime => mgmtHalfTime_keeps h
  | .mgmtResume => mgmtResume_keeps h
  | .mgmtAtTsReached => mgmtAtTsReached_keeps h
  | .smbV48 => smbV48_keeps h
  | .smbInputCurrent => smbInputCurrent_keeps h
  | .smbPower => smbPower_keeps h
  | .smbJunction => smbJunction_keeps h
  | .smbInlet => smbInlet_keeps h
  | .smbBootStatus => smbBootStatus_keeps h
  | .smbRstCause => smbRstCause_keeps h
  | .smbState => smbState_keeps h
  | .smbAlert => smbAlert_keeps h
  | .flashRead _ _ => flashRead_keeps h
  | .flashProgram _ _ => flashProgram_keeps h
  | .flashErase _ _ => flashErase_keeps h
  | .flashOpDone _ => flashOpDone_keeps h
  | .fabricFlitReceive _ _ _ => fabricFlitReceive_keeps h
  | .doorbellWrite _ _ _ _ _ _ => doorbellWrite_keeps h
  | .descriptorAccept _ _ _ => descriptorAccept_keeps h
  | .flagHandover _ _ _ _ _ => flagHandover_keeps h
  | .flagReclaim _ _ _ _ _ => flagReclaim_keeps h
  | .windowHostAccess _ _ _ _ => windowHostAccess_keeps h
  | .serve _ _ => serve_keeps h
  | .adapterLoad _ _ _ => adapterLoad_keeps h
  | .adapterLoadComplete _ _ => adapterLoadComplete_keeps h
  | .adapterUnload _ _ => adapterUnload_keeps h
  | .adapterRevoke _ _ => adapterRevoke_keeps h
  | .practiceOpen _ _ _ => practiceOpen_keeps h
  | .practiceStep _ _ => practiceStep_keeps h
  | .practiceExport _ _ => practiceExport_keeps h
  | .practiceExportDone _ => practiceExportDone_keeps h
  | .practiceClose _ _ => practiceClose_keeps h
  | .practiceCloseDone _ => practiceCloseDone_keeps h
  | .wsLoad _ _ => wsLoad_keeps h
  | .schedLoad _ _ _ => schedLoad_keeps h
  | .schedUnload _ _ => schedUnload_keeps h
  | .schedUnloadDone _ => schedUnloadDone_keeps h
  | .mailboxRequestCopy _ _ _ => mailboxRequestCopy_keeps h
  | .mailboxReplyCopy _ _ => mailboxReplyCopy_keeps h
  | .hubMbxCfg4Write _ _ _ => hubMbxCfg4Write_keeps h
  | .hubHeartbeat _ _ => hubHeartbeat_keeps h
  | .peerLost _ => peerLost_keeps h
  | .stagedWrite _ _ _ => stagedWrite_keeps h
  | .huddleCheck _ _ => huddleCheck_keeps h
  | .huddleApplyRequest _ _ _ => huddleApplyRequest_keeps h
  | .huddleDiscard _ _ _ _ => huddleDiscard_keeps h
  | .huddleCheckDone _ => huddleCheckDone_keeps h
  | .registerWrite _ _ _ _ _ => registerWrite_keeps h
  | .scbTsLoRead _ => scbTsLoRead_keeps h
  | .crtSatTotalLoRead _ => crtSatTotalLoRead_keeps h
  | .umpServeNoLoRead _ => umpServeNoLoRead_keeps h
  | .rdcGstepLoRead _ => rdcGstepLoRead_keeps h
  | .clkThrNsLoRead _ => clkThrNsLoRead_keeps h
  | .rstMgmtSeqLoRead _ => rstMgmtSeqLoRead_keeps h
  | .hdlAppliedTsLoRead _ => hdlAppliedTsLoRead_keeps h
  | .slotEnd => slotEnd_keeps h
  | .serveBoundary => serveBoundary_keeps h
  | .groupSlotStart _ => groupSlotStart_keeps h
  | .rsvWindowEnd _ => rsvWindowEnd_keeps h
  | .overrunLimit => overrunLimit_keeps h
  | .urgentSubstitution _ _ => urgentSubstitution_keeps h
  | .segmentStart => segmentStart_keeps h
  | .segmentEnd => segmentEnd_keeps h
  | .serveEnd => serveEnd_keeps h
  | .layerStreamStart => layerStreamStart_keeps h
  | .streamEntryComplete => streamEntryComplete_keeps h
  | .layerComputeStart => layerComputeStart_keeps h
  | .prefixGatherStart _ => prefixGatherStart_keeps h
  | .prefixGatherComplete _ => prefixGatherComplete_keeps h
  | .kvWriteback _ _ => kvWriteback_keeps h
  | .kvWritebackDone _ _ => kvWritebackDone_keeps h
  | .mma _ _ => mma_keeps h
  | .mmaPair _ _ => mmaPair_keeps h
  | .tileDrain _ _ => tileDrain_keeps h
  | .tileWait _ _ => tileWait_keeps h
  | .tileSignal _ _ => tileSignal_keeps h
  | .tileEnd _ _ => tileEnd_keeps h
  | .semaphoreReached _ => semaphoreReached_keeps h
  | .ew _ _ => ew_keeps h
  | .red _ _ => red_keeps h
  | .softmax _ _ => softmax_keeps h
  | .lnorm _ _ => lnorm_keeps h
  | .rmsnorm _ _ => rmsnorm_keeps h
  | .route _ _ => route_keeps h
  | .loss _ _ => loss_keeps h
  | .combine _ _ => combine_keeps h
  | .opt _ _ => opt_keeps h
  | .scan _ _ => scan_keeps h
  | .softmaxBwd _ _ => softmaxBwd_keeps h
  | .normBwd _ _ => normBwd_keeps h
  | .vecWait _ _ => vecWait_keeps h
  | .vecSignal _ _ => vecSignal_keeps h
  | .vecEnd _ _ => vecEnd_keeps h
  | .copy _ _ => copy_keeps h
  | .listCopy _ _ => listCopy_keeps h
  | .embag _ _ => embag_keeps h
  | .embagBwd _ _ => embagBwd_keeps h
  | .gatherWait _ _ => gatherWait_keeps h
  | .gatherSignal _ _ => gatherSignal_keeps h
  | .gatherEnd _ _ => gatherEnd_keeps h
  | .allreduce _ _ => allreduce_keeps h
  | .reduce _ _ => reduce_keeps h
  | .bcast _ _ => bcast_keeps h
  | .allgather _ _ => allgather_keeps h
  | .dispatch _ _ => dispatch_keeps h
  | .channelCombine _ _ => channelCombine_keeps h
  | .channelWait _ _ => channelWait_keeps h
  | .channelSignal _ _ => channelSignal_keeps h
  | .channelEnd _ _ => channelEnd_keeps h
  | .rdcDataReceive => rdcDataReceive_keeps h
  | .fbCountsReceive => fbCountsReceive_keeps h
  | .fbRowReceive => fbRowReceive_keeps h
  | .fbReturnReceive => fbReturnReceive_keeps h
  | .dueNsDeadline _ => dueNsDeadline_keeps h
  | .voteSend => voteSend_keeps h
  | .voteReceive => voteReceive_keeps h
  | .voteForwardBound => voteForwardBound_keeps h
  | .verdictReceive => verdictReceive_keeps h
  | .verdictTimeout => verdictTimeout_keeps h
  | .portUp _ _ => portUp_keeps h
  | .portRetry _ => portRetry_keeps h
  | .frameReceive _ _ => frameReceive_keeps h
  | .lmcReplayRequest _ _ => lmcReplayRequest_keeps h
  | .lmcCreditReturn _ _ _ => lmcCreditReturn_keeps h
  | .packetRoute _ => packetRoute_keeps h
  | .outputArbitration _ => outputArbitration_keeps h
  | .tsyncExchange => tsyncExchange_keeps h
  | .syncReq _ => syncReq_keeps h
  | .syncReply _ _ _ _ _ => syncReply_keeps h
  | .tsyncTimeout => tsyncTimeout_keeps h
  | .sessionHandshake _ _ => sessionHandshake_keeps h
  | .rekey _ _ => rekey_keeps h
  | .rekeyLimit _ => rekeyLimit_keeps h
  | .loadStart _ _ => loadStart_keeps h
  | .loadAbort _ _ => loadAbort_keeps h
  | .preambleVerify => preambleVerify_keeps h
  | .shardWriteDone _ => shardWriteDone_keeps h
  | .loadData => loadData_keeps h
  | .loadResend => loadResend_keeps h
  | .loadGone => loadGone_keeps h
  | .loadSourceTimeout => loadSourceTimeout_keeps h
  | .wsLineReread _ _ _ _ _ => wsLineReread_keeps h
  | .readReq => readReq_keeps h
  | .readRsp => readRsp_keeps h
  | .mirrorFetchTimeout _ => mirrorFetchTimeout_keeps h
  | .drainLimitExpiry => drainLimitExpiry_keeps h
  | .lkrQuery _ _ => lkrQuery_keeps h
  | .lkrQueryDone => lkrQueryDone_keeps h
  | .commitCopyDone _ => commitCopyDone_keeps h
  | .memReread _ _ _ => memReread_keeps h
  | .patrolRead _ _ => patrolRead_keeps h
  | .scrubPageDone => scrubPageDone_keeps h
  | .keyLoadReceive _ _ => keyLoadReceive_keeps h
  | .sweepLine _ => sweepLine_keeps h
  | .refRotateGo _ _ => refRotateGo_keeps h
  | .purgeGo _ _ => purgeGo_keeps h
  | .slotPurgeDone _ => slotPurgeDone_keeps h
  | .refDbgCtlLock _ _ => refDbgCtlLock_keeps h
  | .refProfCtlReq _ _ => refProfCtlReq_keeps h
  | .dbgChallenge _ => dbgChallenge_keeps h
  | .dbgResponse _ _ _ => dbgResponse_keeps h
  | .getVersion _ _ => getVersion_keeps h
  | .getCapabilities _ _ => getCapabilities_keeps h
  | .negotiateAlgorithms _ _ => negotiateAlgorithms_keeps h
  | .getDigests _ _ => getDigests_keeps h
  | .getCertificate _ _ => getCertificate_keeps h
  | .challenge _ _ => challenge_keeps h
  | .getMeasurements _ _ => getMeasurements_keeps h
  | .keyExchange _ _ => keyExchange_keeps h
  | .finish _ _ _ _ => finish_keeps h
  | .spdmHeartbeat _ _ _ => spdmHeartbeat_keeps h
  | .keyUpdate _ _ _ => keyUpdate_keeps h
  | .endSession _ _ _ => endSession_keeps h
  | .ideKm _ _ _ => ideKm_keeps h
  | .tntBind _ _ => tntBind_keeps h
  | .tntKem _ _ => tntKem_keeps h
  | .skeyInstall _ _ => skeyInstall_keeps h
  | .skeyRevoke _ _ => skeyRevoke_keeps h
  | .pkeyRotate _ _ => pkeyRotate_keeps h
  | .grant _ _ => grant_keeps h
  | .allow _ _ => allow_keeps h
  | .consent _ _ => consent_keeps h
  | .report _ _ => report_keeps h
  | .resume _ _ => resume_keeps h
  | .close _ _ => close_keeps h
  | .purge _ _ => purge_keeps h
  | .unitFaultReport _ _ _ => unitFaultReport_keeps h
  | .progressTimeout _ _ => progressTimeout_keeps h
  | .storm _ _ => storm_keeps h
  | .fenceComplete => fenceComplete_keeps h
  | .thermalHoldEntry _ _ => thermalHoldEntry_keeps h
  | .thermalHoldExit => thermalHoldExit_keeps h
  | .tracePop _ => tracePop_keeps h
  | .swMark _ _ => swMark_keeps h
  | .traceWordTimeout _ => traceWordTimeout_keeps h
  | .pmuClr _ _ _ => pmuClr_keeps h
  | .pmuValLoRead _ _ _ => pmuValLoRead_keeps h
  | .pmuCycLoRead _ _ => pmuCycLoRead_keeps h
  | .perstDeassertion _ => perstDeassertion_keeps h
  | .spiNorShardRead => spiNorShardRead_keeps h
  | .peerTakesLinkDown _ => peerTakesLinkDown_keeps h
  | .vfEnable _ _ => vfEnable_keeps h

/-- Everything may be touched while the canonical forms and the counts are kept. -/
theorem step_keeps {s t : State} (h : step s = .next t) : Keeps (fun _ => True) { s with pending := s.pending.tail } t := by
  have : Fact True := ⟨trivial⟩
  unfold step at h
  split at h
  next hidle =>
    obtain rfl := Host.Outcome.next.inj h
    have htail : { s with pending := s.pending.tail } = s := by rw [hidle, List.tail_nil, ← hidle]
    rw [htail]
    exact idleTick_keeps (Keeps.refl s)
  next c rest hqueue =>
    rw [hqueue]
    exact (exec_keeps h).weaken fun _ _ => trivial

/-- Settles O1: the queue's front decides which branch of the step is taken. -/
theorem stepRunsFrontCommand : Obligations.StepRunsFrontCommand := fun _ _ _ => rfl

/-- Settles O2: nothing has been written at reset. -/
theorem resetMeetsInv : Obligations.ResetMeetsInv := ⟨rfl, RegsWf.nil⟩

/-- Settles O3: taking a command off the queue touches neither form, and the rest of the step keeps both. -/
theorem stepKeepsInv : Obligations.StepKeepsInv := by
  rintro s t ⟨hcells, hregs⟩ h
  have hk := step_keeps h
  exact ⟨hk.cells hcells, hk.regs hregs⟩

/-- Settles O4: both counts only rise in what a step keeps. -/
theorem epochAndSvnNeverFall : Obligations.EpochAndSvnNeverFall := by
  intro s t h
  have hk := step_keeps h
  exact ⟨hk.epoch, hk.svn⟩

/-- Settles O5, from the keeping of every command. -/
theorem commandsLeaveQueueAndOutput : Obligations.CommandsLeaveQueueAndOutput := by
  intro c s t h
  have hk := exec_keeps h
  exact ⟨hk.pending, hk.out⟩

/-- Settles O6: the parts outside `touched` are the frame of the command's keeping, and the byte memory is one of them. -/
theorem frameOfEveryCommand : Obligations.FrameOfEveryCommand := by
  intro c s t h
  have hk := exec_keeps h
  refine ⟨hk.parts, fun hcells a => ?_⟩
  have hsame : t.mem.cells = s.mem.cells := hk.parts .cells hcells
  rw [hsame]

/-- Settles O10: the register table of reset is empty, so that every register reads its reset column. -/
theorem resetValuesHold : Obligations.ResetValuesHold := by
  unfold Obligations.ResetValuesHold
  decide

end Sys2Proof.Machine
end

section
/-! SUPPORT. Rules that the proofs about single commands share: a command's next state handed to `Completes`, the parts that
an operation's keeping leaves alone, and the tables and registers an operation reads back. -/
namespace Sys2Proof.Machine
open Sys2Proof

/-! Completion. -/

/-- A command that answers a known next state completes with whatever holds of that state. -/
theorem Completes.of_next {i : Instr} {s t : State} {P : State → Prop} (h : exec i s = .next t) (hp : P t) : Completes i s P :=
  ⟨t, h, hp⟩

theorem Completes.mono {i : Instr} {s : State} {P Q : State → Prop} (h : Completes i s P) (hpq : ∀ t, P t → Q t) :
    Completes i s Q := by
  obtain ⟨t, ht, hp⟩ := h
  exact ⟨t, ht, hpq t hp⟩

theorem Completes.and {i : Instr} {s : State} {P Q : State → Prop} (h : Completes i s P) (k : Completes i s Q) :
    Completes i s (fun t => P t ∧ Q t) := by
  obtain ⟨t, ht, hp⟩ := h
  obtain ⟨u, hu, hq⟩ := k
  obtain rfl : t = u := Host.Outcome.next.inj (ht.symm.trans hu)
  exact ⟨t, ht, hp, hq⟩

theorem State.booted_of_running {s : State} (h : s.pwr.phase = .running) : s.booted = true := decide_eq_true h

theorem State.powered_of_running {s : State} (h : s.pwr.phase = .running) : s.powered = true := by simp [State.powered, h]

/-! Registers. -/

/-- A set register leaves the fields of every other register alone. -/
theorem State.regFld_setReg_key {s : State} (hw : RegsWf s.regs) {k j : Nat} (v : Word) (h : j ≠ k) (lo w : Nat) :
    (s.setReg k v).regFld j lo w = s.regFld j lo w := by
  rw [regFld, State.regAt_setReg_ne v hw.1 h, regFld]

theorem State.setReg_wf {s : State} (h : RegsWf s.regs) (k : Nat) (v : Word) : RegsWf (s.setReg k v).regs := RegsWf.regsSet _ _ h

/-- A field set in the state leaves every other register alone. -/
theorem State.regAt_setFld_ne {s : State} (hw : RegsWf s.regs) {k j : Nat} (lo w x : Nat) (h : j ≠ k) :
    (s.setFld k lo w x).regAt j = s.regAt j := State.regAt_setReg_ne _ hw.1 h

/-- The lowest bit of a word as a field. -/
theorem wordFld_bit (v : Word) (i : Nat) : wordFld v i 1 = (v.getLsbD i).toNat := by
  rw [wordFld, bitsOf, Nat.shiftRight_eq_div_pow, pow_one, BitVec.getLsbD, Nat.testBit_eq_decide_div_mod_eq]
  rcases Nat.mod_two_eq_zero_or_one (v.toNat / 2 ^ i) with h | h <;> simp [h]

theorem wordFld_ofNat {n : Nat} (hn : n < 2 ^ 32) (lo w : Nat) : wordFld (BitVec.ofNat 32 n) lo w = bitsOf n lo w := by
  rw [wordFld, BitVec.toNat_ofNat, Nat.mod_eq_of_lt hn]

/-! Tables. -/

/-- Looking up after a rewriting that keeps keys and drops some entries. -/
theorem Tbl.get?_filterMap {α β : Type} {t : Tbl α} (hw : Tbl.wf t = true) {f : Nat × α → Option (Nat × β)}
    (hf : ∀ p q, f p = some q → q.1 = p.1) (i : Nat) :
    Tbl.get? (t.filterMap f) i = (Tbl.get? t i).bind (fun x => (f (i, x)).map (·.2)) := by
  rw [Tbl.wf_iff] at hw
  induction t with
  | nil => rfl
  | cons a t ih =>
    obtain ⟨k, v⟩ := a
    replace ⟨hlt, hw⟩ := List.pairwise_cons.mp hw
    have hrest : ∀ p ∈ t.filterMap f, k < p.1 := by
      intro p hp
      obtain ⟨q, hq, he⟩ := List.mem_filterMap.mp hp
      rw [hf q p he]
      exact hlt q hq
    cases he : f (k, v) with
    | none =>
      rw [List.filterMap_cons_none he, Tbl.get?]
      split
      next hki => subst hki; rw [Tbl.get?_lt hrest]; simp [he]
      next hki =>
        split
        next hik => rw [Tbl.get?_lt fun p hp => hik.trans (hrest p hp)]; rfl
        next => exact ih hw
    | some q =>
      have hq := hf _ _ he
      rw [List.filterMap_cons_some he, Tbl.get?]
      obtain ⟨q1, q2⟩ := q
      obtain rfl : q1 = k := hq
      rw [Tbl.get?, ih hw]
      split
      next hki => subst hki; simp [he]
      next => split <;> rfl

end Sys2Proof.Machine
end

section
/-! SUPPORT. What a cold and a warm reset leave (R604, R605, R608). -/
namespace Sys2Proof.Machine
open Sys2Proof

/-! A flash operation cut off touches the flash alone. -/

/-- The parts of bring-up other than the flash and its operation. -/
theorem abandonFlash_cases (s : State) : ∃ (n : Nat) (m : Memory),
    abandonFlash s = { s with freeCtr := n, pwr := { s.pwr with flashOp := none, flash := m } } := by
  unfold abandonFlash
  split
  next h => exact ⟨s.freeCtr, s.pwr.flash, by rw [← h]⟩
  next => exact ⟨_, _, rfl⟩

@[simp] theorem abandonFlash_regs (s : State) : (abandonFlash s).regs = s.regs := by
  obtain ⟨n, m, h⟩ := abandonFlash_cases s
  rw [h]

@[simp] theorem abandonFlash_ts (s : State) : (abandonFlash s).ts = s.ts := by
  obtain ⟨n, m, h⟩ := abandonFlash_cases s
  rw [h]

/-- What a reset keeps of the pins is what the state held before the flash was cut off. -/
theorem abandonFlash_pins (s : State) : (abandonFlash s).pwr.sysRstN = s.pwr.sysRstN ∧
    (abandonFlash s).pwr.trip = s.pwr.trip ∧ (abandonFlash s).pwr.powerGood = s.pwr.powerGood := by
  obtain ⟨n, m, h⟩ := abandonFlash_cases s
  rw [h]
  exact ⟨rfl, rfl, rfl⟩

/-! The cold state. -/

@[simp] theorem State.coldState_phase (s : State) (c : Nat) (ph : BootPhase) : (s.coldState c ph).pwr.phase = ph := rfl
@[simp] theorem State.coldState_warmBoot (s : State) (c : Nat) (ph : BootPhase) : (s.coldState c ph).pwr.warmBoot = false := rfl
@[simp] theorem State.coldState_contexts (s : State) (c : Nat) (ph : BootPhase) : (s.coldState c ph).host.contexts = [] := rfl
@[simp] theorem State.coldState_ump (s : State) (c : Nat) (ph : BootPhase) : (s.coldState c ph).ump = .reset := rfl
@[simp] theorem State.coldState_ts (s : State) (c : Nat) (ph : BootPhase) : (s.coldState c ph).ts = 0 := rfl
@[simp] theorem State.coldState_sysRstN (s : State) (c : Nat) (ph : BootPhase) :
    (s.coldState c ph).pwr.sysRstN = s.pwr.sysRstN := (abandonFlash_pins s).1
@[simp] theorem State.coldState_trip (s : State) (c : Nat) (ph : BootPhase) :
    (s.coldState c ph).pwr.trip = s.pwr.trip := (abandonFlash_pins s).2.1
@[simp] theorem State.coldState_powerGood (s : State) (c : Nat) (ph : BootPhase) :
    (s.coldState c ph).pwr.powerGood = s.pwr.powerGood := (abandonFlash_pins s).2.2

theorem coldRegs_wf (s : State) : RegsWf (coldRegs s) := RegsWf.regsSet _ _ (RegsWf.regsSet _ _ RegsWf.nil)

/-- A cold reset starts from an empty table, so that its registers are canonical whatever they were. -/
theorem State.coldState_regs_wf (s : State) (c : Nat) (ph : BootPhase) : RegsWf (s.coldState c ph).regs :=
  State.setFld_wf (State.setReg_wf (coldRegs_wf _) _ _) _ _ _ _

@[simp] theorem State.coldState_rstCause (s : State) (c : Nat) (ph : BootPhase) :
    (s.coldState c ph).regAt R.rstCause = BitVec.ofNat 32 c := by
  refine (State.regAt_setFld_ne (State.setReg_wf ?_ _ _) _ _ _ (by decide)).trans (State.regAt_setReg_self _ _ _)
  exact coldRegs_wf _

/-- A cold boot leaves RST_CAUSE as the reset wrote it: the cause, and a COUNT of 0. -/
theorem State.coldState_rstCause_flds (s : State) {c : Nat} (hc : c < 256) (ph : BootPhase) :
    (s.coldState c ph).regFld R.rstCause 0 8 = c ∧ (s.coldState c ph).regFld R.rstCause 8 8 = 0 := by
  have hlt : c < 2 ^ 32 := by omega
  rw [State.regFld, State.regFld, State.coldState_rstCause, wordFld_ofNat hlt, wordFld_ofNat hlt, bitsOf, bitsOf]
  constructor
  · simpa using hc
  · rw [Nat.shiftRight_eq_div_pow, Nat.div_eq_of_lt (by simpa using hc), Nat.zero_mod]

/-! The start of a boot. -/

@[simp] theorem State.startBoot_phase (s : State) : s.startBoot.pwr.phase = .booting := rfl
@[simp] theorem State.startBoot_warmBoot (s : State) : s.startBoot.pwr.warmBoot = s.pwr.warmBoot := rfl
@[simp] theorem State.startBoot_sysRstN (s : State) : s.startBoot.pwr.sysRstN = s.pwr.sysRstN := rfl
@[simp] theorem State.startBoot_trip (s : State) : s.startBoot.pwr.trip = s.pwr.trip := rfl
@[simp] theorem State.startBoot_ts (s : State) : s.startBoot.ts = if s.pwr.warmBoot then s.ts else 0 := rfl
@[simp] theorem State.startBoot_mrs (s : State) : s.startBoot.ref.mrs = [] := rfl
@[simp] theorem State.startBoot_contexts (s : State) : s.startBoot.host.contexts = s.host.contexts := rfl

/-- A boot's start writes CLK_STATUS alone. -/
theorem State.startBoot_regAt {s : State} (hw : RegsWf s.regs) {k : Nat} (hk : k ≠ R.clkStatus) :
    s.startBoot.regAt k = s.regAt k := State.regAt_setReg_ne _ hw.1 hk

theorem State.startBoot_regFld {s : State} (hw : RegsWf s.regs) {k : Nat} (hk : k ≠ R.clkStatus) (lo w : Nat) :
    s.startBoot.regFld k lo w = s.regFld k lo w := by rw [regFld, State.startBoot_regAt hw hk, regFld]

/-! The warm state. -/

theorem warmRegs_wf {t : Tbl Word} (h : RegsWf t) : RegsWf (warmRegs t) := by
  refine h.filterMap fun p _ q he => ?_
  split at he
  · cases he
  · next hne => cases he; exact ⟨rfl, hne⟩

/-- A register that was at its reset value is at it after a warm reset. -/
theorem warmReg_regReset (key : Nat) : warmReg key (regReset key) = regReset key := by
  simp only [warmReg]
  ext i hi
  simp only [BitVec.getElem_or, BitVec.getElem_and, BitVec.getElem_not]
  cases (regReset key)[i] <;> simp

/-- Every register after a warm reset, listed or not. -/
theorem regAt_of_warmRegs {s t : State} (hw : RegsWf s.regs) (ht : t.regs = warmRegs s.regs) (key : Nat) :
    t.regAt key = warmReg key (s.regAt key) := by
  have hkeys : ∀ (p q : Nat × Word), (if warmReg p.1 p.2 = regReset p.1 then none else some (p.1, warmReg p.1 p.2)) = some q →
      q.1 = p.1 := by
    intro p q h
    split at h <;> simp_all
    exact (congrArg Prod.fst h).symm
  rw [State.regAt, State.regAt, ht, warmRegs, Tbl.get?_filterMap hw.1 hkeys]
  cases hg : Tbl.get? s.regs key with
  | none => simp [warmReg_regReset]
  | some v => by_cases hv : warmReg key v = regReset key <;> simp [hv]

/-- Bit by bit: a bit marked (C) stays, any other is at its reset value (R608). -/
theorem warmReg_bit (key : Nat) (v : Word) {i : Nat} (hi : i < 32) : (warmReg key v).getLsbD i =
    if ((regRow key).elim 0 RegRow.cold).testBit i then v.getLsbD i else (regReset key).getLsbD i := by
  have hcold : ∀ n : Nat, (BitVec.ofNat 32 n).getLsbD i = n.testBit i := fun n => by rw [BitVec.getLsbD_ofNat, decide_eq_true hi, Bool.true_and]
  simp only [warmReg, BitVec.getLsbD_or, BitVec.getLsbD_and, BitVec.getLsbD_not, hcold, hi, decide_true, Bool.true_and]
  split <;> simp_all

@[simp] theorem State.warmState_warmBoot (s : State) (c : Nat) : (s.warmState c).pwr.warmBoot = true := rfl
@[simp] theorem State.warmState_ts (s : State) (c : Nat) : (s.warmState c).ts = s.ts := abandonFlash_ts s
@[simp] theorem State.warmState_contexts (s : State) (c : Nat) : (s.warmState c).host.contexts = [] := rfl

theorem State.warmState_regs_wf {s : State} (h : RegsWf s.regs) (c : Nat) : RegsWf (s.warmState c).regs :=
  State.setFld_wf (State.setReg_wf (warmRegs_wf (by rwa [abandonFlash_regs])) _ _) _ _ _ _

theorem State.warmState_regAt {s : State} (h : RegsWf s.regs) (c : Nat) {key : Nat} (hcause : key ≠ R.rstCause)
    (hwst : key ≠ R.wstCtl) : (s.warmState c).regAt key = warmReg key (s.regAt key) := by
  have hregs : RegsWf (warmRegs (abandonFlash s).regs) := warmRegs_wf (by rwa [abandonFlash_regs])
  refine (State.regAt_setFld_ne (State.setReg_wf hregs _ _) _ _ _ hwst).trans ?_
  refine (State.regAt_setReg_ne _ hregs.1 hcause).trans ?_
  exact regAt_of_warmRegs h (congrArg warmRegs (abandonFlash_regs s)) key

/-- RST_CAUSE after a warm reset: the cause, and COUNT one higher, at most 255 (R618). -/
theorem State.warmState_rstCause {s : State} (h : RegsWf s.regs) (c : Nat) : (s.warmState c).regAt R.rstCause =
    BitVec.ofNat 32 (min 255 (s.regFld R.rstCause 8 8 + 1) * 256 + c) := by
  have hregs : RegsWf (warmRegs (abandonFlash s).regs) := warmRegs_wf (by rwa [abandonFlash_regs])
  have hbefore : wordFld ((abandonFlash s).regAt R.rstCause) 8 8 = s.regFld R.rstCause 8 8 :=
    congrArg (wordFld · 8 8) (State.regAt_congr (abandonFlash_regs s) _)
  refine (State.regAt_setFld_ne (State.setReg_wf hregs _ _) _ _ _ (by decide)).trans ?_
  refine (State.regAt_setReg_self _ _ _).trans ?_
  rw [hbefore]

/-- A warm reset that may take effect is a boot's start from the warm state (R605, R607). -/
theorem State.warmReset_of_warmMay {s : State} (h : warmMay s) (c : Nat) : s.warmReset c = (s.warmState c).startBoot := by
  unfold State.warmReset
  rcases h with h | h | ⟨h, hwarm⟩ <;> simp [*]

theorem warmLeft_warmReset {s : State} (hregs : RegsWf s.regs) (hmay : warmMay s) {c : Nat} (hc : c < 256) :
    warmLeft s c (s.warmReset c) := by
  rw [State.warmReset_of_warmMay hmay]
  have hwf := State.warmState_regs_wf hregs c
  have hflds : ∀ n ≤ 255, bitsOf (n * 256 + c) 0 8 = c ∧ bitsOf (n * 256 + c) 8 8 = n := by
    intro n hn
    simp only [bitsOf, Nat.shiftRight_eq_div_pow]
    omega
  have hle : min 255 (s.regFld R.rstCause 8 8 + 1) ≤ 255 := Nat.min_le_left _ _
  obtain ⟨hcause, hcount⟩ := hflds _ hle
  have hreg : (s.warmState c).startBoot.regAt R.rstCause = BitVec.ofNat 32 (min 255 (s.regFld R.rstCause 8 8 + 1) * 256 + c) := by
    rw [State.startBoot_regAt hwf (by decide), State.warmState_rstCause hregs]
  have hlt : min 255 (s.regFld R.rstCause 8 8 + 1) * 256 + c < 2 ^ 32 := by omega
  refine ⟨rfl, rfl, by simp, rfl, rfl, ?_, ?_⟩
  · rw [State.regFld, hreg, wordFld_ofNat hlt, hcause]
  · rw [State.regFld, hreg, wordFld_ofNat hlt, hcount]

/-! The obligations. -/

/-- Settles O7: each answer is the cold state with its pins, the release of SYS_RST_N the start of a cold boot. -/
theorem powerComesAndGoes : Obligations.PowerComesAndGoes := by
  refine ⟨fun s hoff hv48 => ?up, fun s => ?down, fun s hon => ?cold, fun s straps hinv hgood hphase hlow htrip hwarm hstraps => ?release,
    fun s p hrst => ?perst⟩
  case up =>
    refine .of_next (t := { s.coldState 0 .coldReset with pwr := _ }) (if_neg (by simp [hoff, hv48])) ?_
    exact ⟨rfl, rfl, rfl, rfl, rfl, rfl, rfl⟩
  case down => exact .of_next rfl ⟨rfl, rfl, rfl, rfl, rfl⟩
  case cold =>
    refine .of_next (t := { s.coldState 1 .coldReset with pwr := _ }) (if_neg hon) ?_
    exact ⟨rfl, rfl, State.coldState_rstCause_flds s (by decide) _⟩
  case release =>
    refine .of_next (t := State.startBoot { s.setReg R.rstStraps (BitVec.ofNat 32 (straps % 16)) with pwr := { s.pwr with sysRstN := true } }) ?_ ?_
    · simp [exec, execSysRstNRelease, hgood, hphase, hlow, htrip]
    · refine ⟨rfl, rfl, by simp [hwarm], rfl, ?_⟩
      refine (State.startBoot_regAt (State.setReg_wf hinv.2 R.rstStraps _) (by decide : R.rstStraps ≠ R.clkStatus)).trans ?_
      refine (State.regAt_setReg_self s R.rstStraps _).trans ?_
      rw [Nat.mod_eq_of_lt hstraps]
  case perst =>
    refine .of_next (t := s.modPort p _) (if_neg (by simp [hrst])) ?_
    simp

/-- Settles O9: the boot that follows writes CLK_STATUS, and the warm state writes RST_CAUSE and WST_CTL; every other register
is rewritten bit by bit. -/
theorem warmResetRestoresRegisters : Obligations.WarmResetRestoresRegisters := by
  intro s key hinv hmay hcause hwst hclk
  refine .of_next rfl fun i hi => ?_
  rw [State.warmReset_of_warmMay hmay, State.startBoot_regAt (State.warmState_regs_wf hinv.2 5) hclk,
    State.warmState_regAt hinv.2 5 hcause hwst, warmReg_bit key _ hi]

end Sys2Proof.Machine
end

section
/-! SUPPORT. The resets that the device causes itself and those of a port and of a function (R517, R606, R637, R641). -/
namespace Sys2Proof.Machine
open Sys2Proof

/-! A device fault before the reset. -/

/-- A device fault leaves the timestamp and bring-up alone. -/
theorem State.failDevice_ts_pwr (s : State) (kind unit cause : Nat) :
    (s.failDevice kind unit cause).ts = s.ts ∧ (s.failDevice kind unit cause).pwr = s.pwr := by
  have : Fact True := ⟨trivial⟩
  have hk := State.failDevice_keeps (kind := kind) (unit := unit) (cause := cause)
    (M := fun p => match p with | .ts | .pwr => False | _ => True) (Keeps.refl s)
  exact ⟨hk.parts .ts id, hk.parts .pwr id⟩

theorem State.failDevice_regs_wf {s : State} (h : RegsWf s.regs) (kind unit cause : Nat) :
    RegsWf (s.failDevice kind unit cause).regs :=
  have : Fact True := ⟨trivial⟩
  (State.failDevice_keeps (M := fun _ => True) (Keeps.refl s)).regs h

/-- A rail fault leaves every rail down, with cause 3 (R637). -/
theorem State.railFails_left (s : State) (rail : Option Nat) (hon : s.pwr.phase ≠ .off) :
    (s.railFails rail).pwr.phase = .off ∧ (s.railFails rail).pwr.powerGood = false ∧ (s.railFails rail).pwr.railsUp = [] ∧
    (s.railFails rail).regFld R.rstCause 0 8 = 3 := by
  unfold State.railFails
  rw [if_neg hon]
  extract_lets failed cold pins down
  have hcold : down.regFld R.rstCause 0 8 = 3 := (State.coldState_rstCause_flds failed (by decide) _).1
  have hwf : RegsWf down.regs := State.coldState_regs_wf failed 3 .off
  cases rail with
  | none => exact ⟨rfl, rfl, rfl, hcold⟩
  | some r =>
    refine ⟨rfl, rfl, rfl, ?_⟩
    refine (State.regFld_setFld_key (State.setReg_wf hwf _ _).1 (by decide) _ _).trans ?_
    exact (State.regFld_setReg_key hwf _ (by decide) _ _).trans hcold

/-- The rail's bit and its alert are set after the cold reset (R637). -/
theorem State.railFails_bits (s : State) {r : Nat} (hr : r < 9) (hon : s.pwr.phase ≠ .off) :
    ((s.railFails (some r)).regAt R.bmcRailFault).getLsbD r = true ∧ (s.railFails (some r)).regFld R.bmcAlert 2 1 = 1 := by
  unfold State.railFails
  rw [if_neg hon]
  extract_lets failed cold pins down
  have hwf : RegsWf (down.setReg R.bmcRailFault (down.regAt R.bmcRailFault ||| BitVec.ofNat 32 (2 ^ r))).regs :=
    State.setReg_wf (State.coldState_regs_wf failed 3 .off) _ _
  constructor
  · have hreg := State.regAt_setFld_ne hwf 2 1 1 (by decide : R.bmcRailFault ≠ R.bmcAlert)
    rw [State.regAt_setReg_self] at hreg
    refine (congrArg (BitVec.getLsbD · r) hreg).trans ?_
    rw [BitVec.getLsbD_or, BitVec.getLsbD_ofNat, Nat.testBit_two_pow_self, decide_eq_true (by omega : r < 32), Bool.and_self,
      Bool.or_true]
  · exact State.regFld_setFld_self _ (by decide)

/-! A cold reset that is left at once. -/

/-- With the pins high a cold reset goes on into its boot (R604). -/
theorem State.coldReset_of_pins {s : State} (hon : s.pwr.phase ≠ .off) (hrst : s.pwr.sysRstN = true) (htrip : s.pwr.trip = false)
    (hgood : s.pwr.powerGood = true) (c : Nat) : s.coldReset c = (s.coldState c .coldReset).startBoot := by
  unfold State.coldReset
  split
  · contradiction
  · simp [hrst, htrip, hgood]

/-! Ports and functions. -/

theorem State.tearDown_regs_wf {s : State} (h : RegsWf s.regs) (cs : List Nat) : RegsWf (cs.foldl State.tearDown s).regs :=
  have : Fact True := ⟨trivial⟩
  (Keeps.foldl (M := fun _ => True) (Keeps.refl s) fun _ _ => State.tearDown_keeps).regs h

/-- A port reset leaves the port without VFs, its bank and its latches at reset (R606). -/
theorem State.portReset_left (s : State) (p : Port) : ((s.portReset p).host.port p).vfs = 0 ∧
    ((s.portReset p).host.port p).bank = .reset ∧ ((s.portReset p).host.port p).latches = [] := by
  unfold State.portReset
  extract_lets torn returned emptied cleared
  have hport : emptied.host.port p = _ := State.modPort_port_self returned p _
  exact ⟨congrArg PortState.vfs hport, congrArg PortState.bank hport, congrArg PortState.latches hport⟩

theorem State.zeroRegs_wf {s : State} (hw : RegsWf s.regs) (keys : List Nat) :
    RegsWf (keys.foldl (fun s k => s.setReg k 0) s).regs := by
  induction keys generalizing s with
  | nil => exact hw
  | cons k ks ih => exact ih (State.setReg_wf hw k 0)

/-- Registers zeroed one after the other read as zero. -/
theorem State.regAt_zeroRegs {s : State} (hw : RegsWf s.regs) {keys : List Nat} {key : Nat} (h : key ∈ keys) :
    (keys.foldl (fun s k => s.setReg k 0) s).regAt key = 0 := by
  induction keys using List.reverseRecOn with
  | nil => simp at h
  | append_singleton ks k ih =>
    rw [List.foldl_append, List.foldl_cons, List.foldl_nil]
    by_cases hk : key = k
    · rw [hk, State.regAt_setReg_self]
    · rw [State.regAt_setReg_ne 0 (State.zeroRegs_wf hw ks).1 hk]
      exact ih (by simpa [hk] using h)

@[simp] theorem returnFlags_regs (s : State) (p : Port) (pick : Nat → Bool) : (returnFlags s p pick).regs = s.regs := rfl

/-- The mailbox registers of a VF's BAR0 read as zero after its reset (R606, R479). -/
theorem State.vfReset_mailbox {s : State} (hw : RegsWf s.regs) (p : Port) (f : Nat) :
    (s.vfReset p f).regAt (portKey p (keyOf R.hubMbxSel f)) = 0 ∧
    (s.vfReset p f).regAt (portKey p (keyOf (R.hubMbxCfg 4) (2 * f))) = 0 := by
  unfold State.vfReset
  extract_lets torn keys zeroed forgotten
  have hsel : portKey p (keyOf R.hubMbxSel f) ∈ keys := List.mem_cons_of_mem _ List.mem_cons_self
  have hcfg : portKey p (keyOf (R.hubMbxCfg 4) (2 * f)) ∈ keys :=
    List.mem_cons_of_mem _ (List.mem_cons_of_mem _ (List.mem_flatMap.mpr
      ⟨2 * f, List.mem_cons_self, List.mem_map_of_mem (List.mem_range.mpr (by decide))⟩))
  have htorn : RegsWf torn.regs := State.tearDown_regs_wf hw _
  have hregs : (returnFlags forgotten p (slotOfFunc f)).regs = zeroed.regs :=
    (returnFlags_regs forgotten p _).trans (State.modPort_regs zeroed p _)
  rw [State.regAt_congr hregs, State.regAt_congr hregs]
  exact ⟨State.regAt_zeroRegs htorn hsel, State.regAt_zeroRegs htorn hcfg⟩

/-! The obligation. -/

/-- Settles O8: every reset of the device ends in the cold or the warm state, whatever the fault before it has done; those of
a port and of a function end in the port's own fields and registers. -/
theorem resetsComplete : Obligations.ResetsComplete := by
  refine ⟨fun s hinv hmay => .of_next rfl (warmLeft_warmReset hinv.2 hmay (by decide)), fun s v hinv hmay hv => ?ctl,
    fun s n e hon hn he htrip => ?trip, fun s xs htrip hrst hphase hcool => ?tripEnd, fun s r hon hr => ?rail,
    fun s mv hon hmv => ?undervoltage, fun s hinv hrun => ?watchdog, fun s cause hrun hrst htrip hgood => ?referee,
    fun s p hrun => ?port, fun s p hrun => ?pf, fun s p f hinv hrun hpos hle => ?vf⟩
  case ctl =>
    refine .of_next (if_pos ⟨rfl, ?_⟩) (warmLeft_warmReset hinv.2 hmay (by decide))
    rw [wordFld_bit, hv]; rfl
  case trip =>
    have hgo : ¬(s.pwr.phase = .off ∨ 64 ≤ n ∨ e < 896 ∨ s.pwr.trip = true) := by
      simp only [hon, htrip, false_or, Bool.false_eq_true, or_false]; omega
    refine .of_next (if_neg hgo) ⟨rfl, rfl, ?_⟩
    exact (State.coldState_rstCause_flds _ (by decide) _).1
  case tripEnd =>
    have hall : ((readAll s.pwr.sensors xs).filter (fun p => decide (p.1 < 64))).all (fun p => decide (p.2 ≤ 720)) = true := by
      simp only [List.all_eq_true, List.mem_filter, decide_eq_true_eq]
      exact fun x hx => hcool x hx.1 hx.2
    refine .of_next (if_neg ?_) ?_
    · simp only [hall, htrip]; decide
    · simp [hrst, hphase]
  case rail =>
    obtain ⟨hphase, hgood, hrails, hcause⟩ := State.railFails_left s (some r) hon
    obtain ⟨hbit, halert⟩ := State.railFails_bits s hr hon
    exact .of_next rfl ⟨hphase, hgood, hrails, hbit, halert, hcause⟩
  case undervoltage =>
    exact .of_next (if_neg (by omega)) (State.railFails_left { s with pwr := { s.pwr with mv48 := mv } } none hon)
  case watchdog =>
    have hbooted : ¬s.booted = false := by simp [State.booted, hrun]
    refine .of_next (if_neg hbooted) ?_
    generalize (if s.host.owner = .a then 2 else 3) = unit
    obtain ⟨hts, hpwr⟩ := State.failDevice_ts_pwr s 15 unit 8
    obtain ⟨hphase, hwarm, htime, -, -, hcause, -⟩ := warmLeft_warmReset (State.failDevice_regs_wf hinv.2 15 unit 8)
      (Or.inl (by rw [hpwr, hrun])) (c := 8) (by decide)
    exact ⟨hphase, hwarm, hcause, htime.trans hts⟩
  case referee =>
    have hpowered : ¬s.powered = false := by simp [State.powered, hrun]
    have hbooted : s.booted = true := by simp [State.booted, hrun]
    refine .of_next (if_neg hpowered) ?_
    rw [if_pos hbooted]
    obtain ⟨-, hpwr⟩ := State.failDevice_ts_pwr s 17 0 cause
    rw [State.coldReset_of_pins (by simp [hpwr, hrun]) (by rw [hpwr, hrst]) (by rw [hpwr, htrip]) (by rw [hpwr, hgood])]
    refine ⟨rfl, rfl, ?_, rfl⟩
    rw [State.startBoot_regFld (State.coldState_regs_wf _ _ _) (by decide)]
    exact (State.coldState_rstCause_flds _ (by decide) _).1
  case port =>
    refine .of_next (t := (s.modPort p fun q => { q with perst := true, linkUp := false }).portReset p) ?_ (State.portReset_left _ p)
    exact congrArg Host.Outcome.next (if_pos (decide_eq_true hrun))
  case pf =>
    refine .of_next (t := s.portReset p) ?_ (State.portReset_left s p)
    simp [exec, execFunctionLevelReset, State.booted, hrun]
  case vf =>
    refine .of_next (t := s.vfReset p f) ?_ (State.vfReset_mailbox hinv.2 p f)
    have hexists : funcExists s p f = true := decide_eq_true hle
    simp [exec, execFunctionLevelReset, State.booted, hrun, hexists, Nat.pos_iff_ne_zero.mp hpos]

end Sys2Proof.Machine
end

section
/-! SUPPORT. The boot service of the pass chain (R394, R599): the packet at the front of the inbox is the one taken. -/
namespace Sys2Proof.Machine
open Sys2Proof

theorem State.inbox?_front {s : State} {k : InboxPacket} {rest : List InboxPacket} (h : s.mgl.inbox = k :: rest)
    {pick : InboxPacket → Bool} (hk : pick k = true) : s.inbox? pick = some k := by
  rw [State.inbox?, h, List.find?_cons_of_pos hk]

theorem State.not_booted_of_chainBooting {s : State} (h : chainBooting s = true) : s.booted = false := by
  simp only [chainBooting, Bool.and_eq_true, decide_eq_true_eq] at h
  simp [State.booted, h]

/-- Asking for the next chunk leaves bring-up and the inbox alone. -/
theorem requestChunk_pwr_inbox (s : State) : (requestChunk s).pwr = s.pwr ∧ (requestChunk s).mgl.inbox = s.mgl.inbox := by
  unfold requestChunk
  split <;> exact ⟨rfl, rfl⟩

/-- A chunk or a refusal in its turn is the packet that the boot takes. -/
theorem inbox?_isBootAnswer {s : State} {k : InboxPacket} {rest : List InboxPacket} (h : s.mgl.inbox = k :: rest) {ty : Nat}
    (hk : isBootAnswer ty k = true) (hmine : chainBooting s = true ∨ relays s k = true) :
    s.inbox? (fun k => isBootAnswer ty k && (chainBooting s || relays s k)) = some k :=
  State.inbox?_front h (by rcases hmine with hmine | hmine <;> simp [hk, hmine])

/-- A failed boot step shows its code and leaves the boot failed (R601). -/
theorem State.bootFails_left {s : State} (hw : RegsWf s.regs) {err : Nat} (herr : err < 16) :
    (s.bootFails err).pwr.phase = .failed ∧ (s.bootFails err).regFld R.rstBootStatus 4 4 = err := by
  have hset := State.setFld_wf hw R.rstBootStatus 4 4 err
  refine ⟨rfl, (State.regFld_setFld_key hset.1 (by decide : R.rstBootStatus ≠ R.bmcAlert) 4 4).trans ?_⟩
  exact State.regFld_setFld_of_lt s (by decide) herr

/-- What a device answers to a request for a boot chunk, by where its own bundle came from (R394, R599). -/
def answerBootRequest (s : State) (port chunk : Nat) : State :=
  match s.regFld R.rstStraps 0 2 with
  | 0 =>
    if s.pwr.flashSel ∨ 16384 ≤ chunk then s.sendBoot port 0x22 chunk []
    else s.sendBoot port 0x20 chunk (s.pwr.flash.readBytes (4096 * chunk) 4096)
  | 3 => State.sendBoot { s with mgl := { s.mgl with bootRelay := s.mgl.bootRelay ++ [(port, chunk)] } } 0 0x21 chunk []
  | _ => s.sendBoot port 0x22 chunk []

theorem answerBootRequest_flash {s : State} {port chunk : Nat} (hsrc : s.regFld R.rstStraps 0 2 = 0)
    (hsel : s.pwr.flashSel = false) (hchunk : chunk < 16384) :
    answerBootRequest s port chunk = s.sendBoot port 0x20 chunk (s.pwr.flash.readBytes (4096 * chunk) 4096) := by
  simp [answerBootRequest, hsrc, hsel, Nat.not_le.mpr hchunk]

theorem answerBootRequest_relay {s : State} {port chunk : Nat} (hsrc : s.regFld R.rstStraps 0 2 = 3) :
    answerBootRequest s port chunk =
      State.sendBoot { s with mgl := { s.mgl with bootRelay := s.mgl.bootRelay ++ [(port, chunk)] } } 0 0x21 chunk [] := by
  simp [answerBootRequest, hsrc]

theorem answerBootRequest_refuse {s : State} {port chunk : Nat} (hsrc : s.regFld R.rstStraps 0 2 = 1 ∨
      s.regFld R.rstStraps 0 2 = 2 ∨ s.regFld R.rstStraps 0 2 = 0 ∧ (s.pwr.flashSel = true ∨ 16384 ≤ chunk)) :
    answerBootRequest s port chunk = s.sendBoot port 0x22 chunk [] := by
  rcases hsrc with hsrc | hsrc | ⟨hsrc, hgone⟩ <;> simp [answerBootRequest, *]

/-- A running device takes a request off its inbox and answers it. -/
theorem execBootLoadResend_of_request {s : State} {k : InboxPacket} {rest : List InboxPacket} (hrun : s.pwr.phase = .running)
    (hbox : s.mgl.inbox = k :: rest) (hk : isBootRequest s k = true) : exec .bootLoadResend s =
      .next (answerBootRequest { s with mgl := { s.mgl with inbox := rest } } k.port k.packet.seq) := by
  have hbooted := State.booted_of_running hrun
  refine (if_neg (by simp [hbooted])).trans ?_
  rw [State.inbox?_front hbox hk]
  dsimp only
  rw [hbox, List.erase_cons_head]
  unfold answerBootRequest
  generalize State.regFld _ R.rstStraps 0 2 = source
  match source with
  | 0 => exact (apply_ite Host.Outcome.next _ _ _).symm
  | 1 => rfl
  | 2 => rfl
  | 3 => rfl
  | _ + 4 => rfl

/-- Settles O12: the front packet is taken, and the boot source decides what becomes of it. -/
theorem passChainCompletes : Obligations.PassChainCompletes := by
  refine ⟨fun s k rest hbox hk hchain hseq hlen => ?chunk, fun s k rest hinv hbox hk hchain => ?gone,
    fun s k rest hrun hbox hk hsrc hsel hseq => ?flash, fun s k rest hrun hbox hk => ⟨fun hsrc => ?relay, fun hsrc => ?refuse⟩,
    fun s k rest hrun hbox hrel => ⟨fun hk => ?chunkOn, fun hk => ?goneOn⟩⟩
  case chunk =>
    have hbooted := State.not_booted_of_chainBooting hchain
    have hturn : ¬(k.packet.seq * 4096 ≠ s.pwr.bundleLen ∨ k.packet.len ≠ 4096) := by simp [hseq, hlen]
    let x : State := { s with
      mgl := { s.mgl with inbox := rest }
      pwr := { s.pwr with bundle := s.pwr.bundle.writeBytes s.pwr.bundleLen k.packet.data, bundleLen := s.pwr.bundleLen + 4096 } }
    refine .of_next (t := if bundleThere x then x else requestChunk x) ?_ ?_
    · simp only [exec, execBootChunkReceive, inbox?_isBootAnswer hbox hk (Or.inl hchain), hbox, List.erase_cons_head]
      exact (if_neg (ne_true_of_eq_false hbooted)).trans (if_neg hturn)
    · obtain ⟨hpwr, hinbox⟩ := requestChunk_pwr_inbox x
      split
      · exact ⟨rfl, rfl, rfl⟩
      · rw [hpwr, hinbox]; exact ⟨rfl, rfl, rfl⟩
  case gone =>
    have hbooted := State.not_booted_of_chainBooting hchain
    refine .of_next (t := State.bootFails { s with mgl := { s.mgl with inbox := rest } } errSource) ?_ ?_
    · simp only [exec, execBootLoadGone, inbox?_isBootAnswer hbox hk (Or.inl hchain), hbox, List.erase_cons_head]
      exact if_neg (ne_true_of_eq_false hbooted)
    · obtain ⟨hphase, herr⟩ := State.bootFails_left (s := { s with mgl := { s.mgl with inbox := rest } }) hinv.2
        (err := errSource) (by decide)
      exact ⟨hphase, herr, rfl⟩
  case flash => exact .of_next (execBootLoadResend_of_request hrun hbox hk) (answerBootRequest_flash hsrc hsel hseq)
  case relay => exact .of_next (execBootLoadResend_of_request hrun hbox hk) (answerBootRequest_relay hsrc)
  case refuse => exact .of_next (execBootLoadResend_of_request hrun hbox hk) (answerBootRequest_refuse hsrc)
  case chunkOn => 
    refine .of_next ?_ rfl
    simp only [exec, execBootChunkReceive, inbox?_isBootAnswer hbox hk (Or.inr hrel), hbox, List.erase_cons_head]
    exact if_pos (State.booted_of_running hrun)
  case goneOn =>
    refine .of_next ?_ rfl
    simp only [exec, execBootLoadGone, inbox?_isBootAnswer hbox hk (Or.inr hrel), hbox, List.erase_cons_head]
    exact if_pos (State.booted_of_running hrun)

end Sys2Proof.Machine
end

section
/-! SUPPORT. Power requests (R612, R613): what a request taken up, kept or left waiting makes of the power controller. -/
namespace Sys2Proof.Machine
open Sys2Proof

/-! Accounting and cycle counts leave the power controller and the slot alone. -/

@[simp] theorem State.chargeStatic_slot (s : State) : s.chargeStatic.ump.slot = s.ump.slot := by
  unfold State.chargeStatic
  extract_lets ns a charged
  show charged.ump.slot = s.ump.slot
  unfold charged
  split <;> rfl

@[simp] theorem State.chargeStatic_pwr (s : State) : s.chargeStatic.pwr = s.pwr := by
  unfold State.chargeStatic
  extract_lets ns a charged
  show charged.pwr = s.pwr
  unfold charged
  split <;> rfl

@[simp] theorem State.chargeStatic_regs (s : State) : s.chargeStatic.regs = s.regs := by
  unfold State.chargeStatic
  extract_lets ns a charged
  show charged.regs = s.regs
  unfold charged
  split <;> rfl

/-- Bringing the cycle counters up to now touches the scoreboard alone. -/
theorem State.tallyCycles_same (s : State) {p : Part} (hp : p ≠ .scb) : s.same s.tallyCycles p := by
  have : Fact True := ⟨trivial⟩
  refine (State.tallyCycles_keeps (M := fun p => match p with | .scb => True | _ => False) (Keeps.refl s)).parts p ?_
  cases p <;> simp at hp ⊢

@[simp] theorem State.tallyCycles_pwr (s : State) : s.tallyCycles.pwr = s.pwr := s.tallyCycles_same (p := .pwr) (by decide)
@[simp] theorem State.tallyCycles_regs (s : State) : s.tallyCycles.regs = s.regs := s.tallyCycles_same (p := .regs) (by decide)
@[simp] theorem State.tallyCycles_ump (s : State) : s.tallyCycles.ump = s.ump := s.tallyCycles_same (p := .ump) (by decide)

/-! Half-time. -/

theorem State.enterHalfTime_pwr (s : State) : s.enterHalfTime.pwr = { s.pwr with state := .idle, request := none } := by
  simp [enterHalfTime]

theorem State.enterHalfTime_regs (s : State) : s.enterHalfTime.regs = s.regs := by simp [enterHalfTime]

/-! Resuming. -/

theorem toQuantum_bounds (t : Nat) : t ≤ toQuantum t ∧ toQuantum t < t + 10000 ∧ toQuantum t % 10000 = 0 := by
  unfold toQuantum ceilDiv
  omega

/-- Every choice of a first slot stands at a multiple of 10 µs within the limit (R613). -/
theorem resumeChoices_bounds {ts limit : Nat} (hlimit : 10000 ≤ limit) (n : Nat) :
    let start := toQuantum ts + 10000 * (n % resumeChoices ts limit)
    ts ≤ start ∧ start ≤ ts + limit ∧ start % 10000 = 0 := by
  obtain ⟨hlo, hhi, hmul⟩ := toQuantum_bounds ts
  have hpos : 0 < resumeChoices ts limit := Nat.succ_pos _
  have hlt : n % resumeChoices ts limit < resumeChoices ts limit := Nat.mod_lt _ hpos
  simp only [resumeChoices] at hlt ⊢
  omega

/-- The ports that MGL_PORT_CFG names follow their configuration; the time synchronisation stays. -/
theorem State.freeBuffer_mgl (s : State) (p : Nat) (k : Packet) : (s.freeBuffer p k).mgl = s.mgl := by
  unfold State.freeBuffer
  split <;> rfl

@[simp] theorem State.opEvent_mgl (s : State) (e : Rec32) : (s.opEvent e).mgl = s.mgl :=
  have : Fact True := ⟨trivial⟩
  (State.opEvent_keeps (M := fun p => match p with | .host => True | _ => False) (Keeps.refl s)).parts .mgl id

theorem State.linkDown_tsync (s : State) (p reason : Nat) (ph : LinkPhase) : (s.linkDown p reason ph).mgl.tsync = s.mgl.tsync := by
  have hfold : ∀ (qs : List QueuedPacket) (s : State), (qs.foldl (fun s q =>
      if q.fromPort = 16 ∨ q.fromPort = p then s else s.freeBuffer q.fromPort q.packet) s).mgl = s.mgl := by
    intro qs
    induction qs with
    | nil => exact fun _ => rfl
    | cons q qs ih =>
      intro s
      rw [List.foldl_cons, ih]
      split
      · rfl
      · exact State.freeBuffer_mgl _ _ _
  unfold State.linkDown
  extract_lets l told freed event down
  have hfreed : freed.mgl.tsync = s.mgl.tsync := congrArg MglState.tsync (hfold l.txQueue s)
  have hevent : event.mgl.tsync = freed.mgl.tsync := by
    unfold event
    split <;> simp
  split
  · exact hevent.trans hfreed
  · exact hevent.trans hfreed

theorem State.applyLinks_tsync (s : State) : s.applyLinks.mgl.tsync = s.mgl.tsync := by
  unfold State.applyLinks
  generalize List.range 16 = ps
  induction ps generalizing s with
  | nil => rfl
  | cons p ps ih =>
    rw [List.foldl_cons, ih]
    split
    · rfl
    · rfl
    · exact State.linkDown_tsync _ _ _ _
    · rfl

theorem State.setTsync_tsync (s : State) (t : TsyncState) : (s.setTsync t).mgl.tsync = t := by
  unfold State.setTsync
  dsimp only
  split
  · rfl
  · simp

/-- After bench the retrained ports leave the power controller and the slot alone. -/
theorem State.retrain_pwr_ump (s : State) (t : TsyncState) :
    (s.setTsync t).applyLinks.pwr = s.pwr ∧ (s.setTsync t).applyLinks.ump = s.ump ∧ (s.setTsync t).applyLinks.ts = s.ts := by
  have : Fact True := ⟨trivial⟩
  have hk := State.applyLinks_keeps (M := fun p => match p with | .regs | .host | .mgl => True | _ => False)
    (State.setTsync_keeps (t := t) (Keeps.refl s))
  exact ⟨hk.parts .pwr id, hk.parts .ump id, hk.parts .ts id⟩

/-- A resume asks for ACTIVE and sets the first slot within its limit; after bench the rails are up and the time UNLOCKED. -/
theorem State.powerResume_left (s : State) :
    s.powerResume.pwr = { s.pwr with
      request := some .active
      railsUp := if s.pwr.state = .standby then List.range 9 else s.pwr.railsUp } ∧
    (s.pwr.state = .standby → s.powerResume.mgl.tsync.st = 0) ∧ (s.pwr.state ≠ .standby → s.powerResume.regs = s.regs) ∧
    ∃ start, s.ts ≤ start ∧ start ≤ s.ts + (if s.pwr.state = .standby then 40000000 else 20000) ∧ start % 10000 = 0 ∧
      s.powerResume.ump.slot = some ⟨start, 0, start, .idle, none, true⟩ := by
  unfold State.powerResume
  extract_lets bench limit start freed x pwr ump asked waiting
  have hlimit : 10000 ≤ limit := by unfold limit; split <;> omega
  obtain ⟨hlo, hhi, hmul⟩ : s.ts ≤ start ∧ start ≤ s.ts + limit ∧ start % 10000 = 0 := resumeChoices_bounds hlimit _
  have hpwr : asked.pwr = { s.pwr with
      request := some .active, railsUp := if bench = true then List.range 9 else s.pwr.railsUp } := rfl
  have hslot : asked.ump.slot = some ⟨start, 0, start, .idle, none, true⟩ := rfl
  have hregs : asked.regs = s.regs := rfl
  clear_value asked
  by_cases hbench : s.pwr.state = .standby
  · have hb : bench = true := decide_eq_true hbench
    obtain ⟨hpwr', hump, -⟩ := State.retrain_pwr_ump asked { waiting with everRan := asked.mgl.tsync.everRan }
    rw [if_pos hb] at hpwr ⊢
    rw [if_pos hbench]
    refine ⟨hpwr'.trans hpwr, fun _ => ?_, fun h => absurd hbench h, start, hlo, ?_, hmul, (congrArg UmpState.slot hump).trans hslot⟩
    · rw [State.applyLinks_tsync, State.setTsync_tsync]; rfl
    · rw [if_pos hbench]; exact hhi.trans_eq (congrArg (s.ts + ·) (if_pos hb))
  · have hb : ¬bench = true := by simpa [bench] using hbench
    rw [if_neg hb] at hpwr ⊢
    rw [if_neg hbench]
    refine ⟨hpwr, fun h => absurd h hbench, fun _ => hregs, start, hlo, ?_, hmul, hslot⟩
    rw [if_neg hbench]; exact hhi.trans_eq (congrArg (s.ts + ·) (if_neg hb))

/-! Requests. -/

/-- A request of a running device is taken up on a state that shows it in PWR_CTL.REQ. -/
theorem State.requestPower_of_none {s : State} (hrun : s.pwr.phase = .running) (hreq : s.pwr.request = none) (x : PowerState) :
    s.requestPower x = (s.setFld R.pwrCtl 0 2 x.code).takeRequest x := by
  simp [requestPower, hrun, hreq]

/-- What a request makes of each state (R612, R613). -/
theorem State.takeRequest_idle_of_active {s : State} (h : s.pwr.state = .active) : s.takeRequest .idle =
    if s.ump.slot.isNone then s.enterHalfTime else { s with pwr := { s.pwr with request := some .idle } } := by
  unfold takeRequest
  rw [h]

theorem State.takeRequest_active {s : State} (h : s.pwr.state ≠ .active) : s.takeRequest .active = s.powerResume := by
  unfold takeRequest
  cases hst : s.pwr.state with
  | active => contradiction
  | idle => rfl
  | standby => rfl

theorem State.takeRequest_standby {s : State} (h : s.pwr.state ≠ .standby) : s.takeRequest .standby = s.enterBench := by
  unfold takeRequest
  cases hst : s.pwr.state with
  | standby => contradiction
  | idle => rfl
  | active => rfl

/-- Is a request no change: the state is reached, or half-time is asked for in bench (R612, R613)? -/
def requestKept (st x : PowerState) : Prop := st = x ∨ st = .standby ∧ x = .idle

theorem State.takeRequest_kept {s : State} {x : PowerState} (h : requestKept s.pwr.state x) : s.takeRequest x = s := by
  unfold takeRequest
  rcases h with h | ⟨h, rfl⟩
  · rw [h]; cases x <;> rfl
  · rw [h]

theorem PowerState.code_lt (x : PowerState) : x.code < 4 := by cases x <;> decide

theorem State.pwrCtl_shows (s : State) (x : PowerState) : (s.setFld R.pwrCtl 0 2 x.code).regFld R.pwrCtl 0 2 = x.code :=
  State.regFld_setFld_of_lt s (by decide) x.code_lt

/-- A request during a transition waits for its end (R613). -/
theorem State.requestPower_waits {s : State} (hrun : s.pwr.phase = .running) (hreq : s.pwr.request ≠ none) (x : PowerState) :
    (s.requestPower x).pwr = { s.pwr with queued := some x } ∧ (s.requestPower x).regFld R.pwrCtl 0 2 = x.code := by
  have hsome : s.pwr.request.isSome = true := Option.isSome_iff_ne_none.mpr hreq
  have heq : s.requestPower x = { s.setFld R.pwrCtl 0 2 x.code with pwr := { s.pwr with queued := some x } } := by
    simp [requestPower, hrun, hsome]
  rw [heq]
  exact ⟨rfl, State.pwrCtl_shows s x⟩

/-- Between slots half-time begins at once (R612). -/
theorem State.requestPower_idle_between {s : State} (hrun : s.pwr.phase = .running) (hreq : s.pwr.request = none)
    (hact : s.pwr.state = .active) (hslot : s.ump.slot = none) :
    (s.requestPower .idle).pwr = { s.pwr with state := .idle, request := none } ∧
    (s.requestPower .idle).regFld R.pwrCtl 0 2 = 1 ∧ (s.requestPower .idle).ts = s.ts := by
  have heq : s.requestPower .idle = (s.setFld R.pwrCtl 0 2 1).enterHalfTime := by
    rw [State.requestPower_of_none hrun hreq]
    refine (State.takeRequest_idle_of_active (s := s.setFld R.pwrCtl 0 2 1) hact).trans ?_
    exact if_pos (by rw [State.setFld_ump, hslot]; rfl)
  have : Fact True := ⟨trivial⟩
  have hk := State.enterHalfTime_keeps (M := fun p => match p with | .ump | .pwr | .scb => True | _ => False)
    (Keeps.refl (s.setFld R.pwrCtl 0 2 1))
  rw [heq]
  refine ⟨State.enterHalfTime_pwr _, ?_, hk.parts .ts id⟩
  rw [State.regFld_congr (State.enterHalfTime_regs _)]
  exact State.pwrCtl_shows s .idle

/-- Within a slot half-time is asked for (R612). -/
theorem State.requestPower_idle_within {s : State} (hrun : s.pwr.phase = .running) (hreq : s.pwr.request = none)
    (hact : s.pwr.state = .active) (hslot : s.ump.slot ≠ none) :
    (s.requestPower .idle).pwr = { s.pwr with request := some .idle } ∧
    (s.requestPower .idle).regFld R.pwrCtl 0 2 = 1 ∧ (s.requestPower .idle).ts = s.ts := by
  have heq : s.requestPower .idle = { s.setFld R.pwrCtl 0 2 1 with pwr := { s.pwr with request := some .idle } } := by
    rw [State.requestPower_of_none hrun hreq]
    refine (State.takeRequest_idle_of_active (s := s.setFld R.pwrCtl 0 2 1) hact).trans ?_
    exact if_neg (by simpa [Option.isNone_iff_eq_none] using hslot)
  rw [heq]
  exact ⟨rfl, State.pwrCtl_shows s .idle, rfl⟩

theorem State.requestPower_kept {s : State} (hrun : s.pwr.phase = .running) (hreq : s.pwr.request = none) {x : PowerState}
    (hkept : requestKept s.pwr.state x) :
    (s.requestPower x).pwr = s.pwr ∧ (s.requestPower x).regFld R.pwrCtl 0 2 = x.code := by
  have heq : s.requestPower x = s.setFld R.pwrCtl 0 2 x.code := by
    rw [State.requestPower_of_none hrun hreq, State.takeRequest_kept (s := s.setFld _ _ _ _) hkept]
  rw [heq]
  exact ⟨rfl, State.pwrCtl_shows s x⟩

/-- A resume from half-time or bench. -/
theorem State.requestPower_active {s : State} (hrun : s.pwr.phase = .running) (hreq : s.pwr.request = none)
    (hst : s.pwr.state ≠ .active) : s.requestPower .active = (s.setFld R.pwrCtl 0 2 0).powerResume := by
  rw [State.requestPower_of_none hrun hreq]
  exact State.takeRequest_active hst

/-- Bench is entered from half-time and from ACTIVE (R612). -/
theorem State.requestPower_standby {s : State} (hrun : s.pwr.phase = .running) (hreq : s.pwr.request = none)
    (hst : s.pwr.state ≠ .standby) : s.requestPower .standby = (s.setFld R.pwrCtl 0 2 2).enterBench := by
  rw [State.requestPower_of_none hrun hreq]
  exact State.takeRequest_standby hst

/-- In bench no slot runs, and no trace queue holds a record (R612, R608). -/
theorem State.enterBench_left (s : State) : s.enterBench.pwr.state = .standby ∧ s.enterBench.pwr.request = none ∧
    s.enterBench.ump.slot = none ∧ ∀ q ∈ s.enterBench.scb.queues, q.2.openRecords = [] ∧ q.2.words = [] := by
  unfold State.enterBench
  extract_lets stopped discarded ended restarted ump cleared linked charged
  have hump : linked.ump = cleared.ump := by
    have : Fact True := ⟨trivial⟩
    have hk : Keeps (fun p => match p with | .regs | .host | .mgl => True | _ => False) cleared linked := by
      refine Keeps.foldl (Keeps.refl _) fun t p hk => ?_
      split
      · exact State.linkDown_keeps hk
      · exact State.setLink_keeps hk
      · exact hk
    exact hk.parts .ump id
  have hslot : charged.ump.slot = none :=
    (State.chargeStatic_slot linked).trans (congrArg UmpState.slot hump)
  clear_value charged
  refine ⟨rfl, rfl, hslot, fun q hq => ?_⟩
  obtain ⟨r, -, rfl⟩ := List.mem_map.mp hq
  exact ⟨rfl, rfl⟩

end Sys2Proof.Machine
end

section
/-! SUPPORT. The power controller's tick (R617, R621, R644, R646). -/
namespace Sys2Proof.Machine
open Sys2Proof

/-! The clock's choice. -/

/-- A tick chooses the clock or a neighbour of it, within 12/16 to 16/16 (R617). -/
theorem clockChoice_bounds {s : State} (watts : Nat) (j : Int) (hlo : 12 ≤ s.clock16) (hhi : s.clock16 ≤ 16) :
    12 ≤ clockChoice s watts j ∧ clockChoice s watts j ≤ 16 ∧ clockChoice s watts j ≤ s.clock16 + 1 ∧
    s.clock16 ≤ clockChoice s watts j + 1 := by
  unfold clockChoice
  dsimp only
  split
  · split <;> omega
  · split <;> omega

theorem clockChoice_of_beyond {s : State} {watts : Nat} {j : Int} (h : s.regFld R.pwrLimit 0 12 < watts ∨ 800 ≤ j) :
    clockChoice s watts j = if 12 < s.clock16 ∧ s.pwr.lastStep + 1000000 ≤ s.ts then s.clock16 - 1 else s.clock16 := if_pos h

/-- A rest that was waited out since an instant was waited out since the last step. -/
theorem of_elim_waited {since : Option Nat} {now last rest : Nat}
    (h : since.elim false (fun t => decide (t + rest ≤ now) && decide (last + rest ≤ now)) = true) : last + rest ≤ now := by
  cases since with
  | none => exact absurd h Bool.false_ne_true
  | some t =>
    rw [Option.elim_some, Bool.and_eq_true, decide_eq_true_iff, decide_eq_true_iff] at h
    exact h.2

/-- Within the limits the clock only rises, 10 ms after its last step or later (R617). -/
theorem clockChoice_of_within {s : State} {watts : Nat} {j : Int} (h : ¬(s.regFld R.pwrLimit 0 12 < watts ∨ 800 ≤ j)) :
    clockChoice s watts j = s.clock16 ∨
      (clockChoice s watts j = s.clock16 + 1 ∧ s.pwr.lastStep + 10000000 ≤ s.ts) := by
  unfold clockChoice
  dsimp only
  rw [if_neg h]
  split
  next hup =>
    obtain ⟨-, -, -, hlow⟩ := hup
    refine Or.inr ⟨rfl, ?_⟩
    exact of_elim_waited hlow
  next => exact Or.inl rfl

/-! The clock's step. -/

@[simp] theorem State.trace_regs (s : State) (n kind ctx data : Nat) (b : Bool) : (s.trace n kind ctx data b).regs = s.regs :=
  have : Fact True := ⟨trivial⟩
  (State.trace_keeps (M := fun p => match p with | .free | .scb => True | _ => False) (Keeps.refl s)).parts .regs id

@[simp] theorem State.trace_pwr (s : State) (n kind ctx data : Nat) (b : Bool) : (s.trace n kind ctx data b).pwr = s.pwr :=
  have : Fact True := ⟨trivial⟩
  (State.trace_keeps (M := fun p => match p with | .free | .scb => True | _ => False) (Keeps.refl s)).parts .pwr id

theorem State.clock16_congr {s t : State} (h : t.regFld R.clkStatus 0 4 = s.regFld R.clkStatus 0 4) : t.clock16 = s.clock16 := by
  unfold State.clock16
  rw [h]

/-- A step leaves the clock where it was told, and the registers of readings and limits alone. -/
theorem State.setClock_clock16 {s : State} (hw : RegsWf s.regs) {n : Nat} (hlo : 12 ≤ n) (hhi : n ≤ 16) :
    (s.setClock n).clock16 = n := by
  unfold State.setClock
  extract_lets tallied thr pwr timed stepped counted alerted
  have htallied : RegsWf tallied.regs := (State.tallyCycles_regs s).symm ▸ hw
  clear_value tallied
  have hthr : RegsWf (tallied.setReg R.clkThrLo (BitVec.ofNat 32 tallied.throttledNs)).regs := State.setReg_wf htallied _ _
  have htimed : RegsWf timed.regs := State.setReg_wf hthr _ _
  have hstepped : RegsWf stepped.regs := State.setFld_wf htimed _ _ _ _
  have hcounted : RegsWf counted.regs := State.setReg_wf hstepped _ _
  have hfld : stepped.regFld R.clkStatus 0 4 = n % 16 := State.regFld_setFld_of_lt timed (by decide) (Nat.mod_lt _ (by decide))
  have hbump : counted.regFld R.clkStatus 0 4 = n % 16 :=
    (State.regFld_setReg_key hstepped _ (by decide : R.clkStatus ≠ R.clkStepCount) 0 4).trans hfld
  have halert : alerted.regFld R.clkStatus 0 4 = n % 16 := by
    unfold alerted
    split
    · exact (State.regFld_setFld_key hcounted.1 (by decide : R.clkStatus ≠ R.bmcAlert) 0 4).trans hbump
    · exact hbump
  clear_value alerted
  unfold State.clock16
  rw [State.regFld_congr (State.trace_regs ..), halert]
  dsimp only
  split <;> omega

/-- What a step writes: the clock, its time below nominal, its count and its alert. -/
def clockKeys : List Nat := [R.clkThrLo, R.clkThrHi, R.clkStatus, R.clkStepCount, R.bmcAlert]

theorem State.setClock_regAt {s : State} (hw : RegsWf s.regs) (n : Nat) {key : Nat} (hkey : key ∉ clockKeys) :
    (s.setClock n).regAt key = s.regAt key := by
  simp only [clockKeys, List.mem_cons, List.not_mem_nil, or_false, not_or] at hkey
  obtain ⟨hlow, hhigh, hstatus, hcount, halert⟩ := hkey
  unfold State.setClock
  extract_lets tallied thr pwr timed stepped counted alerted
  have hsame : tallied.regs = s.regs := State.tallyCycles_regs s
  clear_value tallied
  have htallied : RegsWf tallied.regs := hsame ▸ hw
  have hthr : RegsWf (tallied.setReg R.clkThrLo (BitVec.ofNat 32 tallied.throttledNs)).regs := State.setReg_wf htallied _ _
  have htimed : RegsWf timed.regs := State.setReg_wf hthr _ _
  have hstepped : RegsWf stepped.regs := State.setFld_wf htimed _ _ _ _
  have hcounted : RegsWf counted.regs := State.setReg_wf hstepped _ _
  have hbefore : timed.regAt key = s.regAt key := calc
    timed.regAt key = (tallied.setReg R.clkThrLo (BitVec.ofNat 32 tallied.throttledNs)).regAt key :=
      State.regAt_setReg_ne _ hthr.1 hhigh
    _ = tallied.regAt key := State.regAt_setReg_ne _ htallied.1 hlow
    _ = s.regAt key := State.regAt_congr hsame key
  have hafter : counted.regAt key = s.regAt key := calc
    counted.regAt key = stepped.regAt key := State.regAt_setReg_ne _ hstepped.1 hcount
    _ = timed.regAt key := State.regAt_setFld_ne htimed _ _ _ hstatus
    _ = s.regAt key := hbefore
  have halerted : alerted.regAt key = s.regAt key := by
    unfold alerted
    split
    · exact (State.regAt_setFld_ne hcounted _ _ _ halert).trans hafter
    · exact hafter
  clear_value alerted
  rw [State.regAt_congr (State.trace_regs ..), halerted]

/-- A step leaves the readings alone. -/
theorem State.setClock_readings (s : State) (n : Nat) : (s.setClock n).pwr.sensors = s.pwr.sensors ∧
    (s.setClock n).pwr.rails = s.pwr.rails ∧ (s.setClock n).pwr.mv48 = s.pwr.mv48 ∧ (s.setClock n).pwr.amps = s.pwr.amps := by
  unfold State.setClock
  extract_lets tallied thr pwr timed stepped counted alerted
  have hpwr : alerted.pwr = timed.pwr := by
    unfold alerted
    split <;> rfl
  clear_value alerted
  have htallied : tallied.pwr = s.pwr := State.tallyCycles_pwr s
  clear_value tallied
  rw [State.trace_pwr, hpwr, ← htallied]
  exact ⟨rfl, rfl, rfl, rfl⟩

/-! Readings. -/

theorem State.takeReading_regs_wf {s : State} (hw : RegsWf s.regs) (r : PowerReading) : RegsWf (s.takeReading r).regs :=
  State.setReg_wf (State.setReg_wf hw _ _) _ _

theorem State.takeReading_regAt {s : State} (hw : RegsWf s.regs) (r : PowerReading) {key : Nat} (hmeas : key ≠ R.pwrMeas)
    (htemp : key ≠ R.pwrTemp) : (s.takeReading r).regAt key = s.regAt key :=
  (State.regAt_setReg_ne _ (State.setReg_wf (s := State.trackCool { s with pwr := _ }) hw _ _).1 htemp).trans
    (State.regAt_setReg_ne (s := State.trackCool { s with pwr := _ }) _ hw.1 hmeas)

/-- Readings enter the power controller, and nothing else of it moves (R646). -/
theorem State.takeReading_pwr (s : State) (r : PowerReading) : (s.takeReading r).pwr = { s.pwr with
    sensors := (readAll s.pwr.sensors r.sensors).filter (fun x => sensorPowered s x.1)
    rails := readAll s.pwr.rails r.rails, mv48 := r.mv48, amps := r.milliamps } := rfl

theorem State.takeReading_pwrMeas {s : State} (hw : RegsWf s.regs) (r : PowerReading) :
    (s.takeReading r).regAt R.pwrMeas = BitVec.ofNat 32 (min 65535 r.watts) := by
  unfold State.takeReading
  extract_lets pwr taken cooled measured junction inlet
  refine (State.regAt_setReg_ne _ ?_ (by decide)).trans (State.regAt_setReg_self cooled _ _)
  exact (State.setReg_wf (s := cooled) hw _ _).1

theorem wholeDegrees_lt (t : Int) : wholeDegrees t < 256 := by
  unfold wholeDegrees
  omega

/-- The low byte of two bytes put together. -/
theorem wordFld_low_byte {a b : Nat} (ha : a < 256) (hb : b < 256) : wordFld (BitVec.ofNat 32 (a + 256 * b)) 0 8 = a := by
  rw [wordFld_ofNat (by omega), bitsOf, Nat.shiftRight_zero]
  omega

/-- PWR_TEMP shows the hottest junction in its low byte. -/
theorem State.takeReading_pwrTemp (s : State) (r : PowerReading) : (s.takeReading r).regFld R.pwrTemp 0 8 =
    wholeDegrees ((hottest (s.takeReading r).pwr.sensors).getD 0) :=
  (State.regFld_setReg_self _ _ _ _ _).trans (wordFld_low_byte (wholeDegrees_lt _) (wholeDegrees_lt _))

/-- Refreshing PWR_VF_STATUS touches those registers and their time alone (R621). -/
theorem State.setRegs_same {s : State} (hw : RegsWf s.regs) (keys : List Nat) (v : Word) {key : Nat} (hkey : key ∉ keys) :
    (keys.foldl (fun s k => s.setReg k v) s).regAt key = s.regAt key ∧ RegsWf (keys.foldl (fun s k => s.setReg k v) s).regs ∧
    (keys.foldl (fun s k => s.setReg k v) s).pwr = s.pwr ∧ (keys.foldl (fun s k => s.setReg k v) s).ts = s.ts := by
  induction keys generalizing s with
  | nil => exact ⟨rfl, hw, rfl, rfl⟩
  | cons k ks ih =>
    simp only [List.mem_cons, not_or] at hkey
    obtain ⟨hreg, hwf, hpwr, hts⟩ := ih (State.setReg_wf hw k v) hkey.2
    exact ⟨hreg.trans (State.regAt_setReg_ne v hw.1 hkey.1), hwf, hpwr, hts⟩

theorem State.refreshVfPower_same {s : State} (hw : RegsWf s.regs) (watts : Nat) {key : Nat} (hkey : key % idxKeys ≠ R.pwrVfStatus) :
    (s.refreshVfPower watts).regAt key = s.regAt key ∧ RegsWf (s.refreshVfPower watts).regs ∧
    (∃ ts, (s.refreshVfPower watts).pwr = { s.pwr with vfTs := ts }) ∧ (s.refreshVfPower watts).ts = s.ts := by
  have hvf : ∀ (s : State) (p : Port), key ∉ s.vfStatusKeys p := by
    intro s p hmem
    obtain ⟨i, -, rfl⟩ := List.mem_map.mp hmem
    apply hkey
    rw [vfStatusKey, keyOf, Nat.add_mul_mod_self_left]
    decide
  unfold State.refreshVfPower
  split
  · exact ⟨rfl, hw, ⟨s.pwr.vfTs, rfl⟩, rfl⟩
  · extract_lets from_ low pwr timed value
    have htimed : timed.pwr = { s.pwr with vfTs := timed.pwr.vfTs } := rfl
    have hregs : timed.regs = s.regs := rfl
    have hnow : timed.ts = s.ts := rfl
    clear_value timed
    have hkeys : key ∉ timed.vfStatusKeys .a ++ timed.vfStatusKeys .b := by simp [hvf]
    obtain ⟨hreg, hwf, hpwr, hts⟩ := State.setRegs_same (s := timed) (hregs ▸ hw) _ value hkeys
    exact ⟨hreg.trans (State.regAt_congr hregs key), hwf, ⟨_, hpwr.trans htimed⟩, hts.trans hnow⟩

/-- A tick's reading of the core clock. -/
theorem State.steerClock_clock16 {s : State} (hw : RegsWf s.regs) (watts : Nat) (hlo : 12 ≤ s.clock16) (hhi : s.clock16 ≤ 16) :
    ∃ low, (s.steerClock watts).clock16 =
      clockChoice { s with pwr := { s.pwr with lowSince := low } } watts ((hottest s.pwr.sensors).getD 0) := by
  unfold State.steerClock
  extract_lets junction limit low pwr marked n
  refine ⟨if low then some (s.pwr.lowSince.getD s.ts) else none, ?_⟩
  have hmarked : marked.clock16 = s.clock16 := State.clock16_congr rfl
  obtain ⟨hn, hn', -, -⟩ := clockChoice_bounds (s := marked) watts junction (hmarked ▸ hlo) (hmarked ▸ hhi)
  split
  next heq => exact heq.symm
  next => exact State.setClock_clock16 (s := marked) hw hn hn'

/-- Steering the clock writes the clock's own registers, and keeps the readings. -/
theorem State.steerClock_same {s : State} (hw : RegsWf s.regs) (watts : Nat) :
    (∀ key ∉ clockKeys, (s.steerClock watts).regAt key = s.regAt key) ∧ (s.steerClock watts).pwr.sensors = s.pwr.sensors ∧
    (s.steerClock watts).pwr.rails = s.pwr.rails ∧ (s.steerClock watts).pwr.mv48 = s.pwr.mv48 ∧
    (s.steerClock watts).pwr.amps = s.pwr.amps := by
  unfold State.steerClock
  extract_lets junction limit low pwr marked n
  split
  · exact ⟨fun _ _ => rfl, rfl, rfl, rfl, rfl⟩
  · exact ⟨fun key hkey => State.setClock_regAt (s := marked) hw n hkey, State.setClock_readings marked n⟩

end Sys2Proof.Machine
end

section
/-! SUPPORT. The power states and the management commands (R609 to R613, R617). -/
namespace Sys2Proof.Machine
open Sys2Proof

/-- A write of PWR_CTL.REQ to a running device is a power request. -/
theorem exec_pwrReq_of_running {s : State} (hrun : s.pwr.phase = .running) (p : Port) :
    exec (.pwrReqActive p) s = .next (s.requestPower .active) ∧ exec (.pwrReqIdle p) s = .next (s.requestPower .idle) ∧
    exec (.pwrReqStandby p) s = .next (s.requestPower .standby) := by
  have hpow := State.powered_of_running hrun
  exact ⟨if_pos hpow, if_pos hpow, if_pos hpow⟩

theorem requestKept_idle {st : PowerState} (h : st ≠ .active) : requestKept st .idle := by
  cases st with
  | active => contradiction
  | idle => exact Or.inl rfl
  | standby => exact Or.inr ⟨rfl, rfl⟩

/-- A resume: its request, its first slot, and after bench the rails and the time. -/
theorem State.requestPower_active_left {s : State} (hrun : s.pwr.phase = .running) (hreq : s.pwr.request = none)
    (hst : s.pwr.state ≠ .active) :
    (s.requestPower .active).pwr = { s.pwr with
      request := some .active
      railsUp := if s.pwr.state = .standby then List.range 9 else s.pwr.railsUp } ∧
    (s.pwr.state = .standby → (s.requestPower .active).mgl.tsync.st = 0) ∧
    (s.pwr.state ≠ .standby → (s.requestPower .active).regFld R.pwrCtl 0 2 = 0) ∧
    ∃ start, s.ts ≤ start ∧ start ≤ s.ts + (if s.pwr.state = .standby then 40000000 else 20000) ∧ start % 10000 = 0 ∧
      (s.requestPower .active).ump.slot = some ⟨start, 0, start, .idle, none, true⟩ := by
  rw [State.requestPower_active hrun hreq hst]
  obtain ⟨hpwr, htime, hregs, hslot⟩ := State.powerResume_left (s.setFld R.pwrCtl 0 2 0)
  refine ⟨hpwr, htime, fun hbench => ?_, hslot⟩
  rw [State.regFld_congr (hregs hbench)]
  exact State.pwrCtl_shows s .active

/-- A tick beyond its readings: PWR_VF_STATUS, and the clock of a device in ACTIVE (R617, R621). -/
theorem exec_powerControlTick_active {s : State} (hw : RegsWf s.regs) (hrun : s.pwr.phase = .running) (hact : s.pwr.state = .active) (r : PowerReading) :
    exec (.powerControlTick r) s = .next (((s.takeReading r).refreshVfPower r.watts).steerClock r.watts) := by
  have hread := State.takeReading_regs_wf hw r
  have hbooted : ¬(s.takeReading r).booted = false := by
    rw [State.booted_of_running (s := s.takeReading r) hrun]; decide
  have hstill : ((s.takeReading r).refreshVfPower r.watts).pwr.state = .active := by
    obtain ⟨-, -, ⟨vfTs, hpwr⟩, -⟩ := State.refreshVfPower_same hread r.watts (key := R.pwrMeas) (by decide)
    rw [hpwr]; exact hact
  exact (if_neg (by simp [hrun])).trans ((if_neg hbooted).trans (congrArg _ (if_neg (by simp [hstill]))))

/-- What the clock's choice reads is as it was before the readings. -/
theorem State.afterReading_same {s : State} (hw : RegsWf s.regs) (r : PowerReading) :
    (∀ key, key ≠ R.pwrMeas → key ≠ R.pwrTemp → key % idxKeys ≠ R.pwrVfStatus →
      ((s.takeReading r).refreshVfPower r.watts).regAt key = s.regAt key) ∧
    RegsWf ((s.takeReading r).refreshVfPower r.watts).regs ∧
    ((s.takeReading r).refreshVfPower r.watts).pwr.lastStep = s.pwr.lastStep ∧
    ((s.takeReading r).refreshVfPower r.watts).ts = s.ts := by
  have hread := State.takeReading_regs_wf hw r
  refine ⟨fun key hmeas htemp hvf => ?_, ?_⟩
  · exact (State.refreshVfPower_same hread r.watts hvf).1.trans (State.takeReading_regAt hw r hmeas htemp)
  · obtain ⟨-, hwf, ⟨vfTs, hpwr⟩, hts⟩ := State.refreshVfPower_same hread r.watts (key := R.pwrMeas) (by decide)
    exact ⟨hwf, by rw [hpwr]; rfl, hts⟩

/-- What a device in ACTIVE chooses its clock from: its readings, and what was before them (R617). -/
def chosenClock (s : State) (watts : Nat) (t : State) : Prop :=
  ∃ u : State, u.clock16 = s.clock16 ∧ u.regFld R.pwrLimit 0 12 = s.regFld R.pwrLimit 0 12 ∧
    u.pwr.lastStep = s.pwr.lastStep ∧ u.ts = s.ts ∧ t.clock16 = clockChoice u watts ((hottest t.pwr.sensors).getD 0)

/-- The clock's step chooses from the state that the readings left. -/
theorem State.steerClock_chosen {s u : State} (hw : RegsWf u.regs)
    (hclk : u.regFld R.clkStatus 0 4 = s.regFld R.clkStatus 0 4) (hlimit : u.regFld R.pwrLimit 0 12 = s.regFld R.pwrLimit 0 12)
    (hstep : u.pwr.lastStep = s.pwr.lastStep) (hts : u.ts = s.ts) (watts : Nat) (hlo : 12 ≤ s.clock16) (hhi : s.clock16 ≤ 16) :
    chosenClock s watts (u.steerClock watts) := by
  have hclk16 := State.clock16_congr hclk
  obtain ⟨low, hchoice⟩ := State.steerClock_clock16 hw watts (hclk16.symm ▸ hlo) (hclk16.symm ▸ hhi)
  obtain ⟨-, hsensors, -⟩ := State.steerClock_same hw watts
  exact ⟨{ u with pwr := { u.pwr with lowSince := low } }, hclk16, hlimit, hstep, hts, by rw [hchoice, hsensors]⟩

theorem powerControlTick_clock {s : State} (hw : RegsWf s.regs) (hrun : s.pwr.phase = .running) (hact : s.pwr.state = .active)
    (r : PowerReading) (hlo : 12 ≤ s.clock16) (hhi : s.clock16 ≤ 16) :
    Completes (.powerControlTick r) s (chosenClock s r.watts) := by
  obtain ⟨hregs, hwf, hstep, hts⟩ := State.afterReading_same hw r
  have hclk := hregs R.clkStatus (by decide) (by decide) (by decide)
  have hlimit := hregs R.pwrLimit (by decide) (by decide) (by decide)
  exact .of_next (exec_powerControlTick_active hw hrun hact r)
    (State.steerClock_chosen hwf (congrArg (wordFld · 0 4) hclk) (congrArg (wordFld · 0 12) hlimit) hstep hts r.watts hlo hhi)

/-- What a tick does after its readings leaves them as they are. -/
def keepsReadings (u t : State) : Prop :=
  (∀ key ∉ clockKeys, key % idxKeys ≠ R.pwrVfStatus → t.regAt key = u.regAt key) ∧
  t.pwr.sensors = u.pwr.sensors ∧ t.pwr.rails = u.pwr.rails ∧ t.pwr.mv48 = u.pwr.mv48 ∧ t.pwr.amps = u.pwr.amps

theorem State.refreshVfPower_keepsReadings {u : State} (hw : RegsWf u.regs) (watts : Nat) :
    keepsReadings u (u.refreshVfPower watts) := by
  obtain ⟨-, -, ⟨vfTs, hpwr⟩, -⟩ := State.refreshVfPower_same hw watts (key := R.pwrMeas) (by decide)
  exact ⟨fun key _ hkey => (State.refreshVfPower_same hw watts hkey).1, by rw [hpwr], by rw [hpwr], by rw [hpwr], by rw [hpwr]⟩

theorem keepsReadings_trans {u v t : State} (h : keepsReadings u v) (h' : keepsReadings v t) : keepsReadings u t := by
  obtain ⟨hregs, hsensors, hrails, hmv, hamps⟩ := h
  obtain ⟨hregs', hsensors', hrails', hmv', hamps'⟩ := h'
  exact ⟨fun key hkey hvf => (hregs' key hkey hvf).trans (hregs key hkey hvf), hsensors'.trans hsensors, hrails'.trans hrails,
    hmv'.trans hmv, hamps'.trans hamps⟩

theorem State.steerClock_keepsReadings {u : State} (hw : RegsWf u.regs) (watts : Nat) : keepsReadings u (u.steerClock watts) := by
  obtain ⟨hregs, hsensors, hrails, hmv, hamps⟩ := State.steerClock_same hw watts
  exact ⟨fun key hkey _ => hregs key hkey, hsensors, hrails, hmv, hamps⟩

theorem powerControlTick_left {s : State} (hw : RegsWf s.regs) (hon : s.pwr.phase ≠ .off) (r : PowerReading) :
    Completes (.powerControlTick r) s (keepsReadings (s.takeReading r)) := by
  have hread := State.takeReading_regs_wf hw r
  have hvf := State.refreshVfPower_keepsReadings hread r.watts
  obtain ⟨-, hwf, -, -⟩ := State.refreshVfPower_same hread r.watts (key := R.pwrMeas) (by decide)
  by_cases hboot : (s.takeReading r).booted = false
  · exact .of_next ((if_neg hon).trans (if_pos hboot)) ⟨fun _ _ _ => rfl, rfl, rfl, rfl, rfl⟩
  by_cases hact : ((s.takeReading r).refreshVfPower r.watts).pwr.state ≠ .active
  · exact .of_next ((if_neg hon).trans ((if_neg hboot).trans (congrArg _ (if_pos hact)))) hvf
  · exact .of_next ((if_neg hon).trans ((if_neg hboot).trans (congrArg _ (if_neg hact))))
      (keepsReadings_trans hvf (State.steerClock_keepsReadings hwf r.watts))

/-- Settles O13: a request is taken up, kept or left waiting by the state the device is in, and a tick's readings stand beside
the registers that its clock step writes. -/
theorem powerStatesComplete : Obligations.PowerStatesComplete := by
  refine ⟨fun s p hinv hrun => ?requests, fun s r hinv hon => ?readings, fun s r hinv hrun hact hlo hhi => ?clock,
    fun s watts j hlo hhi => clockChoice_bounds watts j hlo hhi⟩
  case requests =>
    obtain ⟨hactive, hidle, hstandby⟩ := exec_pwrReq_of_running hrun p
    refine ⟨fun hreq hact hslot => .of_next hidle ?_, fun hreq hact hslot => .of_next hidle ?_,
      fun hreq hst => .of_next hidle (State.requestPower_kept hrun hreq (requestKept_idle hst)),
      fun hreq hst => .of_next hstandby ?_,
      fun hreq hst => .of_next hstandby (State.requestPower_kept hrun hreq (Or.inl hst)),
      fun hreq hst => .of_next hactive ?_, fun hreq hst => .of_next hactive ?_,
      fun hreq hst => .of_next hactive (State.requestPower_kept hrun hreq (Or.inl hst)),
      fun hreq => ⟨.of_next hactive (State.requestPower_waits hrun hreq .active),
        .of_next hidle (State.requestPower_waits hrun hreq .idle),
        .of_next hstandby (State.requestPower_waits hrun hreq .standby)⟩⟩
    · obtain ⟨hpwr, hfld, -⟩ := State.requestPower_idle_between hrun hreq hact hslot
      rw [hpwr]; exact ⟨rfl, rfl, hfld⟩
    · obtain ⟨hpwr, hfld, -⟩ := State.requestPower_idle_within hrun hreq hact hslot
      rw [hpwr]; exact ⟨hact, rfl, hfld⟩
    · rw [State.requestPower_standby hrun hreq hst]
      exact State.enterBench_left _
    · obtain ⟨hpwr, -, hfld, start, hle, hlim, hmul, hslot⟩ := State.requestPower_active_left hrun hreq (by simp [hst])
      rw [if_neg (by simp [hst])] at hlim
      rw [hpwr]
      exact ⟨rfl, hfld (by simp [hst]), start, hle, hlim, hmul, hslot⟩
    · obtain ⟨hpwr, htime, -, start, hle, hlim, hmul, hslot⟩ := State.requestPower_active_left hrun hreq (by simp [hst])
      rw [if_pos hst] at hlim
      rw [hpwr]
      exact ⟨rfl, if_pos hst, htime hst, start, hle, hlim, hmul, hslot⟩
  case readings =>
    refine (powerControlTick_left hinv.2 hon r).mono fun t ht => ?_
    obtain ⟨hregs, hsensors, hrails, hmv, hamps⟩ := ht
    have hmeas := hregs R.pwrMeas (by decide) (by decide)
    have htemp : t.regFld R.pwrTemp 0 8 = (s.takeReading r).regFld R.pwrTemp 0 8 :=
      congrArg (wordFld · 0 8) (hregs R.pwrTemp (by decide) (by decide))
    refine ⟨hmv, hamps, hrails, hsensors, hmeas.trans (State.takeReading_pwrMeas hinv.2 r), ?_⟩
    rw [htemp, State.takeReading_pwrTemp, hsensors]
  case clock =>
    refine (powerControlTick_clock hinv.2 hrun hact r hlo hhi).mono fun t ⟨u, hclk, hlimit, hstep, hts, hchoice⟩ => ?_
    obtain ⟨hmin, hmax, hup, hdown⟩ := clockChoice_bounds (s := u) r.watts ((hottest t.pwr.sensors).getD 0) (hclk ▸ hlo) (hclk ▸ hhi)
    rw [hchoice, ← hclk, ← hlimit, ← hstep, ← hts]
    exact ⟨hmin, hmax, hup, hdown, clockChoice_of_beyond, clockChoice_of_within⟩

end Sys2Proof.Machine
end

section
/-! SUPPORT. Group management commands (R609, R610). -/
namespace Sys2Proof.Machine
open Sys2Proof

/-! Taking a command. -/

/-- The state after an accepted command was taken from the delivered packets, before it acts or waits (R610). -/
def mgmtTaken (s : State) (cmd : Nat) (k : InboxPacket) : State :=
  { s.takeInbox (isMgmt cmd) with
    pwr := { s.pwr with mgmtSeq := ofBytes ((k.packet.data.drop 8).take 8), mgmt := none } }

theorem State.mgmt_discards {s : State} {cmd : Nat} {k : InboxPacket} (hk : s.inbox? (isMgmt cmd) = some k)
    (hno : mgmtAccepted s k = false) (a : MgmtAction) : s.mgmt cmd a = s.takeInbox (isMgmt cmd) := by
  have hno' : mgmtAccepted (s.takeInbox (isMgmt cmd)) k = false := hno
  simp only [State.mgmt, hk, hno', Bool.not_false, if_true]

theorem State.mgmt_accepts {s : State} {cmd : Nat} {k : InboxPacket} (hk : s.inbox? (isMgmt cmd) = some k)
    (hyes : mgmtAccepted s k = true) (a : MgmtAction) : s.mgmt cmd a =
      if ofBytes ((k.packet.data.drop 16).take 8) = 0 then (mgmtTaken s cmd k).mgmtAct a
      else { mgmtTaken s cmd k with
        pwr := { (mgmtTaken s cmd k).pwr with mgmt := some (a, ofBytes ((k.packet.data.drop 16).take 8)) } } := by
  have hyes' : mgmtAccepted (s.takeInbox (isMgmt cmd)) k = true := hyes
  simp only [State.mgmt, hk, hyes', Bool.not_true, Bool.false_eq_true, if_false, mgmtTaken]
  rfl

/-- A command accepted with AT_TS 0 acts in the state it leaves. -/
theorem State.mgmt_now {s : State} {cmd : Nat} {k : InboxPacket} (hk : s.inbox? (isMgmt cmd) = some k)
    (hnow : mgmtAccepted s k = true ∧ ofBytes ((k.packet.data.drop 16).take 8) = 0) (a : MgmtAction) :
    s.mgmt cmd a = (mgmtTaken s cmd k).mgmtAct a := by
  rw [State.mgmt_accepts hk hnow.1, if_pos hnow.2]

theorem State.mgmt_later {s : State} {cmd : Nat} {k : InboxPacket} (hk : s.inbox? (isMgmt cmd) = some k)
    (hlater : mgmtAccepted s k = true ∧ ofBytes ((k.packet.data.drop 16).take 8) ≠ 0) (a : MgmtAction) :
    s.mgmt cmd a = { s with
      mgl := { s.mgl with inbox := s.mgl.inbox.eraseP (isMgmt cmd) }
      pwr := { s.pwr with
        mgmtSeq := ofBytes ((k.packet.data.drop 8).take 8)
        mgmt := some (a, ofBytes ((k.packet.data.drop 16).take 8)) } } := by
  rw [State.mgmt_accepts hk hlater.1, if_neg hlater.2]
  rfl

/-! Acting. -/

/-- A waiting command acts at the slot end, or at its AT_TS while no slot runs. -/
theorem exec_mgmtAtTsReached {s : State} {a : MgmtAction} {at_ : Nat} (h : s.pwr.mgmt = some (a, at_))
    (hend : ∀ u, s.ump.slot = some u → at_ ≤ u.slotEnd) :
    exec .mgmtAtTsReached s = .next ({ s with
      ts := max s.ts (s.ump.slot.elim at_ Slot.slotEnd)
      pwr := { s.pwr with mgmt := none } }.mgmtAct a) := by
  show execMgmtAtTsReached s = _
  unfold execMgmtAtTsReached
  rw [h]
  cases hslot : s.ump.slot with
  | none => rfl
  | some u => exact if_neg (Nat.not_lt.mpr (hend u hslot))

/-- A warm reset keeps MGMT_SEQ, and no command waits after it (R608). -/
theorem State.warmReset_mgmt {s : State} (hmay : warmMay s) (c : Nat) :
    (s.warmReset c).pwr.mgmtSeq = s.pwr.mgmtSeq ∧ (s.warmReset c).pwr.mgmt = none := by
  obtain ⟨n, m, h⟩ := abandonFlash_cases s
  have hseq : (abandonFlash s).pwr.mgmtSeq = s.pwr.mgmtSeq := by rw [h]
  rw [State.warmReset_of_warmMay hmay]
  exact ⟨hseq, rfl⟩

/-- What the management's warm reset leaves, read once for both ways in which it comes. -/
theorem State.mgmtWarm_left {s : State} (hw : RegsWf s.regs) (hmay : warmMay s) :
    (s.mgmtAct .warmReset).pwr.phase = .booting ∧ (s.mgmtAct .warmReset).regFld R.rstCause 0 8 = 7 ∧
    (s.mgmtAct .warmReset).ts = s.ts ∧ (s.mgmtAct .warmReset).pwr.mgmtSeq = s.pwr.mgmtSeq ∧
    (s.mgmtAct .warmReset).pwr.mgmt = none := by
  obtain ⟨hphase, -, hts, -, -, hcause, -⟩ := warmLeft_warmReset hw hmay (c := 7) (by decide)
  obtain ⟨hseq, hmgmt⟩ := State.warmReset_mgmt hmay 7
  exact ⟨hphase, hcause, hts, hseq, hmgmt⟩

/-- Half-time from ACTIVE: at once between slots, asked for within one (R612). -/
theorem State.mgmtHalfTime_left {s : State} (hrun : s.pwr.phase = .running) (hreq : s.pwr.request = none)
    (hact : s.pwr.state = .active) :
    (s.mgmtAct .halfTime).pwr.mgmtSeq = s.pwr.mgmtSeq ∧ (s.mgmtAct .halfTime).pwr.mgmt = s.pwr.mgmt ∧
    (s.mgmtAct .halfTime).ts = s.ts ∧ (s.mgmtAct .halfTime).regFld R.pwrCtl 0 2 = 1 ∧
    if s.ump.slot = none then (s.mgmtAct .halfTime).pwr.state = .idle ∧ (s.mgmtAct .halfTime).pwr.request = none
    else (s.mgmtAct .halfTime).pwr.state = .active ∧ (s.mgmtAct .halfTime).pwr.request = some .idle := by
  show (s.requestPower .idle).pwr.mgmtSeq = _ ∧ _
  split
  next hslot =>
    obtain ⟨hpwr, hfld, hts⟩ := State.requestPower_idle_between hrun hreq hact hslot
    exact ⟨(congrArg PwrState.mgmtSeq hpwr :), (congrArg PwrState.mgmt hpwr :), hts, hfld, congrArg PwrState.state hpwr,
      congrArg PwrState.request hpwr⟩
  next hslot =>
    obtain ⟨hpwr, hfld, hts⟩ := State.requestPower_idle_within hrun hreq hact hslot
    exact ⟨(congrArg PwrState.mgmtSeq hpwr :), (congrArg PwrState.mgmt hpwr :), hts, hfld, (congrArg PwrState.state hpwr :).trans hact,
      congrArg PwrState.request hpwr⟩

/-- A resume: its request, and its first slot at a quantum within the state's limit (R613). -/
theorem State.mgmtResume_left {s : State} (hrun : s.pwr.phase = .running) (hreq : s.pwr.request = none)
    (hst : s.pwr.state ≠ .active) :
    (s.mgmtAct .resume).pwr.request = some .active ∧ (s.mgmtAct .resume).pwr.mgmtSeq = s.pwr.mgmtSeq ∧
    (s.mgmtAct .resume).pwr.mgmt = s.pwr.mgmt ∧ (s.mgmtAct .resume).ts = s.ts ∧
    ∃ u, (s.mgmtAct .resume).ump.slot = some u ∧ s.ts ≤ u.start ∧
      u.start ≤ s.ts + (if s.pwr.state = .standby then 40000000 else 20000) ∧ u.start % 10000 = 0 := by
  have : Fact True := ⟨trivial⟩
  have hts : (s.requestPower .active).ts = s.ts :=
    (State.requestPower_keeps (M := fun p => match p with | .ts => False | _ => True) (t := .active) (Keeps.refl s)).parts .ts id
  obtain ⟨hpwr, -, -, start, hle, hlim, hmul, hslot⟩ := State.requestPower_active_left hrun hreq hst
  exact ⟨(congrArg PwrState.request hpwr :), (congrArg PwrState.mgmtSeq hpwr :), (congrArg PwrState.mgmt hpwr :), hts, _, hslot, hle,
    hlim, hmul⟩

/-- Settles O14: taken and accepted, a command is the action itself, in the state that the packet or the wait left. -/
theorem managementCommandsComplete : Obligations.ManagementCommandsComplete := by
  refine ⟨fun s k hinv => ?now, fun s k => ?later, fun s a at_ hinv hmgmt hend => ?waited⟩
  case now =>
    have wf : ∀ cmd, RegsWf (mgmtTaken s cmd k).regs := fun _ => hinv.2
    refine ⟨fun hk hnow hmay => .of_next (congrArg Host.Outcome.next (State.mgmt_now hk hnow .warmReset)) ?_,
      fun hk hnow hrun hreq hact => .of_next (congrArg Host.Outcome.next (State.mgmt_now hk hnow .halfTime)) ?_,
      fun hk hnow hrun hreq hst => .of_next (congrArg Host.Outcome.next (State.mgmt_now hk hnow .resume)) ?_,
      fun hk hnow hrun hreq => .of_next (congrArg Host.Outcome.next (State.mgmt_now hk hnow .halfTime)) ?_,
      fun hk hnow hrun hreq => .of_next (congrArg Host.Outcome.next (State.mgmt_now hk hnow .resume)) ?_⟩
    · obtain ⟨hphase, hcause, hts, hseq, -⟩ := State.mgmtWarm_left (wf 1) (s := mgmtTaken s 1 k) hmay
      exact ⟨hphase, hcause, hts, hseq⟩
    · obtain ⟨hseq, -, -, hfld, hstate⟩ := State.mgmtHalfTime_left (s := mgmtTaken s 2 k) hrun hreq hact
      exact ⟨hseq, hfld, hstate⟩
    · obtain ⟨hreq', hseq, -, -, hslot⟩ := State.mgmtResume_left (s := mgmtTaken s 3 k) hrun hreq hst
      exact ⟨hreq', hseq, hslot⟩
    · obtain ⟨hpwr, -⟩ := State.requestPower_waits (s := mgmtTaken s 2 k) hrun hreq .idle
      exact ⟨congrArg PwrState.queued hpwr, (congrArg PwrState.mgmtSeq hpwr :)⟩
    · obtain ⟨hpwr, -⟩ := State.requestPower_waits (s := mgmtTaken s 3 k) hrun hreq .active
      exact ⟨congrArg PwrState.queued hpwr, (congrArg PwrState.mgmtSeq hpwr :)⟩
  case later =>
    exact ⟨fun hk => ⟨fun hlater => .of_next (congrArg Host.Outcome.next (State.mgmt_later hk hlater .warmReset)) rfl,
        fun hno => .of_next (congrArg Host.Outcome.next (State.mgmt_discards hk hno .warmReset)) rfl⟩,
      fun hk => ⟨fun hlater => .of_next (congrArg Host.Outcome.next (State.mgmt_later hk hlater .halfTime)) rfl,
        fun hno => .of_next (congrArg Host.Outcome.next (State.mgmt_discards hk hno .halfTime)) rfl⟩,
      fun hk => ⟨fun hlater => .of_next (congrArg Host.Outcome.next (State.mgmt_later hk hlater .resume)) rfl,
        fun hno => .of_next (congrArg Host.Outcome.next (State.mgmt_discards hk hno .resume)) rfl⟩⟩
  case waited =>
    intro t0
    have hexec := exec_mgmtAtTsReached hmgmt hend
    refine ⟨fun ha hmay => .of_next hexec ?_, fun ha hrun hreq hact => .of_next hexec ?_,
      fun ha hrun hreq hst => .of_next hexec ?_⟩ <;> subst ha
    · obtain ⟨hphase, hcause, hts, -, hnone⟩ := State.mgmtWarm_left
        (s := { s with ts := t0, pwr := { s.pwr with mgmt := none } }) hinv.2 hmay
      exact ⟨hphase, hcause, hts, hnone⟩
    · obtain ⟨-, hnone, hts, hfld, hstate⟩ := State.mgmtHalfTime_left
        (s := { s with ts := t0, pwr := { s.pwr with mgmt := none } }) hrun hreq hact
      refine ⟨hts, hnone, hfld, ?_⟩
      revert hstate
      show (if s.ump.slot = none then _ else _) → _
      split
      · exact And.left
      · exact And.right
    · obtain ⟨hreq', -, hnone, hts, u, hslot, hle, hlim, hmul⟩ := State.mgmtResume_left
        (s := { s with ts := t0, pwr := { s.pwr with mgmt := none } }) hrun hreq (by rw [hst]; decide)
      rw [if_neg (by simp [hst])] at hlim
      exact ⟨hts, hnone, hreq', u, hslot, hle, hlim, hmul⟩

end Sys2Proof.Machine
end

section
/-! SUPPORT. Board management: SMBus and the SPI NOR flash (R644 to R647). -/
namespace Sys2Proof.Machine
open Sys2Proof

/-! Bytes and the numbers they spell. -/

@[simp] theorem bytesOf_length (n v : Nat) : (bytesOf n v).length = n := by
  induction n generalizing v with
  | zero => rfl
  | succ n ih => rw [bytesOf, List.length_cons, ih]

theorem ofBytes_lt (l : List Byte) : ofBytes l < 256 ^ l.length := by
  induction l with
  | nil => exact Nat.one_pos
  | cons b bs ih =>
    have hb : b.toNat < 256 := b.isLt
    rw [ofBytes, List.length_cons, Nat.pow_succ]
    omega

/-- Bytes spell their number back. -/
theorem bytesOf_ofBytes (l : List Byte) : bytesOf l.length (ofBytes l) = l := by
  induction l with
  | nil => rfl
  | cons b bs ih =>
    have hb : b.toNat < 256 := b.isLt
    have hhead : BitVec.ofNat 8 (b.toNat + 256 * ofBytes bs) = b := by
      apply BitVec.eq_of_toNat_eq
      rw [BitVec.toNat_ofNat]
      omega
    rw [List.length_cons, ofBytes, bytesOf, hhead, Nat.add_mul_div_left _ _ (by decide), Nat.div_eq_of_lt hb, Nat.zero_add, ih]

/-- A number below 256 to the n is spelled by n bytes. -/
theorem ofBytes_bytesOf {n v : Nat} (h : v < 256 ^ n) : ofBytes (bytesOf n v) = v := by
  induction n generalizing v with
  | zero => simp only [Nat.pow_zero] at h; simp only [bytesOf, ofBytes]; omega
  | succ n ih =>
    have hv : v / 256 < 256 ^ n := Nat.div_lt_of_lt_mul (by rwa [Nat.mul_comm, ← Nat.pow_succ])
    rw [bytesOf, ofBytes, ih hv, BitVec.toNat_ofNat]
    omega

@[simp] theorem Memory.readBytes_length (m : Memory) (a n : Nat) : (m.readBytes a n).length = n := by simp [Memory.readBytes]

/-- Four bytes pass through a register unchanged. -/
theorem bytesOf_word {l : List Byte} (h : l.length = 4) : bytesOf 4 (BitVec.ofNat 32 (ofBytes l)).toNat = l := by
  have hlt := ofBytes_lt l
  rw [h] at hlt
  have hnum : (BitVec.ofNat 32 (ofBytes l)).toNat = ofBytes l := (BitVec.toNat_ofNat ..).trans (Nat.mod_eq_of_lt hlt)
  rw [hnum, ← h, bytesOf_ofBytes]

/-- Pieces of four in a row are the list they were cut from. -/
theorem flatMap_pieces (l : List Byte) (n : Nat) : (List.range n).flatMap (fun i => (l.drop (4 * i)).take 4) = l.take (4 * n) := by
  induction n with
  | zero => rfl
  | succ n ih =>
    rw [List.range_succ, List.flatMap_append, ih, List.flatMap_singleton, Nat.mul_succ, List.take_add]

/-! Registers set in a row. -/

theorem State.setRegs_wf {s : State} (hw : RegsWf s.regs) (k : Nat → Nat) (v : Nat → Word) (n : Nat) :
    RegsWf ((List.range n).foldl (fun s i => s.setReg (k i) (v i)) s).regs := by
  induction n with
  | zero => exact hw
  | succ n ih =>
    rw [List.range_succ, List.foldl_append]
    exact State.setReg_wf ih _ _

/-- A register set among others of other keys holds what it was set to. -/
theorem State.setRegs_regAt {s : State} (hw : RegsWf s.regs) {k : Nat → Nat} (v : Nat → Word) (hk : Function.Injective k)
    {n j : Nat} (hj : j < n) : ((List.range n).foldl (fun s i => s.setReg (k i) (v i)) s).regAt (k j) = v j := by
  induction n with
  | zero => exact absurd hj (Nat.not_lt_zero j)
  | succ n ih =>
    rw [List.range_succ, List.foldl_append]
    by_cases h : j = n
    · rw [h]
      exact State.regAt_setReg_self _ _ _
    · exact (State.regAt_setReg_ne _ (State.setRegs_wf hw k v n).1 (fun he => h (hk he))).trans (ih (by omega))

/-- Registers set leave every other register alone. -/
theorem State.setRegs_regAt_ne {s : State} (hw : RegsWf s.regs) {k : Nat → Nat} (v : Nat → Word) {key : Nat} (n : Nat)
    (hkey : ∀ i, key ≠ k i) : ((List.range n).foldl (fun s i => s.setReg (k i) (v i)) s).regAt key = s.regAt key := by
  induction n with
  | zero => rfl
  | succ n ih =>
    rw [List.range_succ, List.foldl_append]
    exact (State.regAt_setReg_ne _ (State.setRegs_wf hw k v n).1 (hkey n)).trans ih

theorem State.setRegs_pwr (s : State) (k : Nat → Nat) (v : Nat → Word) (n : Nat) :
    ((List.range n).foldl (fun s i => s.setReg (k i) (v i)) s).pwr = s.pwr := by
  induction n with
  | zero => rfl
  | succ n ih =>
    rw [List.range_succ, List.foldl_append]
    exact ih

/-! The flash buffer. -/

theorem bmcFlashData_ne_ctl (i : Nat) : R.bmcFlashCtl ≠ R.bmcFlashData i := by
  unfold R.bmcFlashCtl R.bmcFlashData
  omega

/-- The buffer lies in registers of its own. -/
theorem flashBuffer_congr {s t : State} (h : ∀ i, t.regAt (R.bmcFlashData i) = s.regAt (R.bmcFlashData i)) :
    flashBuffer t = flashBuffer s := by
  unfold flashBuffer
  simp only [h]

/-- The buffer reads back the 64 bytes it was filled with. -/
theorem flashBuffer_fill {s : State} (hw : RegsWf s.regs) {bs : List Byte} (h : bs.length = 64) :
    flashBuffer (fillFlashBuffer s bs) = bs := by
  have hinj : Function.Injective R.bmcFlashData := fun i j hij => by
    unfold R.bmcFlashData at hij
    omega
  unfold flashBuffer
  have hword : ∀ i ∈ List.range 16, bytesOf 4 ((fillFlashBuffer s bs).regAt (R.bmcFlashData i)).toNat = (bs.drop (4 * i)).take 4 := by
    intro i hi
    rw [List.mem_range] at hi
    have hreg : (fillFlashBuffer s bs).regAt (R.bmcFlashData i) = BitVec.ofNat 32 (ofBytes ((bs.drop (4 * i)).take 4)) :=
      State.setRegs_regAt hw (k := R.bmcFlashData) _ hinj hi
    rw [hreg, bytesOf_word]
    simp only [List.length_take, List.length_drop]
    omega
  rw [List.flatMap_def, List.map_congr_left hword, ← List.flatMap_def, flatMap_pieces]
  exact List.take_of_length_le (Nat.le_of_eq h)

/-- The buffer's filling leaves the rest of the controller alone. -/
theorem fillFlashBuffer_left {s : State} (hw : RegsWf s.regs) (bs : List Byte) :
    (fillFlashBuffer s bs).pwr = s.pwr ∧ (fillFlashBuffer s bs).regAt R.bmcFlashCtl = s.regAt R.bmcFlashCtl :=
  ⟨State.setRegs_pwr s _ _ 16, State.setRegs_regAt_ne hw _ 16 bmcFlashData_ne_ctl⟩

/-! The controller's operations. -/

theorem State.flashCtl_go {s : State} (hrun : s.pwr.phase = .running) (hsel : s.pwr.flashSel = false)
    (hop : s.pwr.flashOp = none) {v : Word} (hgo : v.getLsbD 31 = true) (herr : v.getLsbD 3 = false) {op : Nat} (hlt : op < 3) :
    s.flashCtl s.host.owner op v = { (s.setFld R.bmcFlashCtl 0 2 op).setFld R.bmcFlashCtl 2 1 1 with
      pwr := { s.pwr with flashOp := some ⟨op, (s.setFld R.bmcFlashCtl 0 2 op).regFld R.bmcFlashAddr 0 26 / 64 * 64,
        flashBuffer ((s.setFld R.bmcFlashCtl 0 2 op).setFld R.bmcFlashCtl 2 1 1)⟩ } } := by
  have hmine : ¬(s.host.owner ≠ s.host.owner ∨ s.booted = false) := by simp [State.booted_of_running hrun]
  have hkeeps : ¬wordFld v 3 1 = 1 := by rw [wordFld_bit, herr]; decide
  have hgo' : ¬wordFld v 31 1 = 0 := by rw [wordFld_bit, hgo]; decide
  have hidle : ¬((s.setFld R.bmcFlashCtl 0 2 op).pwr.flashSel = true ∨ (s.setFld R.bmcFlashCtl 0 2 op).pwr.flashOp.isSome = true ∨
      op = 3) := by simp [hsel, hop, Nat.ne_of_lt hlt]
  simp only [State.flashCtl, hmine, hkeeps, hgo', hidle, if_false]
  rfl

/-- A GO that meets an idle controller starts its operation at the address of BMC_FLASH_ADDR (R647). -/
theorem State.flashCtl_starts {s : State} (hw : RegsWf s.regs) (hrun : s.pwr.phase = .running) (hsel : s.pwr.flashSel = false)
    (hop : s.pwr.flashOp = none) {v : Word} (hgo : v.getLsbD 31 = true) (herr : v.getLsbD 3 = false) {op : Nat} (hlt : op < 3) :
    (s.flashCtl s.host.owner op v).regFld R.bmcFlashCtl 0 2 = op ∧ (s.flashCtl s.host.owner op v).regFld R.bmcFlashCtl 2 1 = 1 ∧
    (s.flashCtl s.host.owner op v).pwr.flashOp = some ⟨op, s.regFld R.bmcFlashAddr 0 26 / 64 * 64, flashBuffer s⟩ ∧
    (s.flashCtl s.host.owner op v).pwr.flash = s.pwr.flash := by
  rw [State.flashCtl_go hrun hsel hop hgo herr hlt]
  have hset := State.setFld_wf hw R.bmcFlashCtl 0 2 op
  have hbuffer : flashBuffer ((s.setFld R.bmcFlashCtl 0 2 op).setFld R.bmcFlashCtl 2 1 1) = flashBuffer s :=
    flashBuffer_congr fun i => (State.regAt_setFld_ne hset _ _ _ (bmcFlashData_ne_ctl i).symm).trans
      (State.regAt_setFld_ne hw _ _ _ (bmcFlashData_ne_ctl i).symm)
  have haddr : (s.setFld R.bmcFlashCtl 0 2 op).regFld R.bmcFlashAddr 0 26 = s.regFld R.bmcFlashAddr 0 26 :=
    State.regFld_setFld_key hw.1 (by decide : R.bmcFlashAddr ≠ R.bmcFlashCtl) 0 26
  have hbusy : ((s.setFld R.bmcFlashCtl 0 2 op).setFld R.bmcFlashCtl 2 1 1).regFld R.bmcFlashCtl 2 1 = 1 :=
    State.regFld_setFld_self _ (by decide)
  have hop2 : (s.setFld R.bmcFlashCtl 0 2 op).regFld R.bmcFlashCtl 0 2 = op := State.regFld_setFld_of_lt s (by decide) (by omega)
  have hboth : ((s.setFld R.bmcFlashCtl 0 2 op).setFld R.bmcFlashCtl 2 1 1).regFld R.bmcFlashCtl 0 2 = op :=
    (State.regFld_setFld_ne _ (by decide) (by decide)).trans hop2
  refine ⟨hboth, hbusy, ?_, rfl⟩
  rw [← hbuffer, ← haddr]

/-- The state in which an operation has ended, before it has done what it does: BUSY clear (R647). -/
def flashEnded (s : State) : State :=
  { s.setFld R.bmcFlashCtl 2 1 0 with pwr := { s.pwr with flashOp := none } }

theorem flashEnded_idle (s : State) : (flashEnded s).regFld R.bmcFlashCtl 2 1 = 0 := State.regFld_setFld_self s (by decide)

/-- What an operation that verified leaves: a read's bytes in the buffer, a program's or an erase's in the flash. -/
def flashOpVerified (s : State) (o : FlashOp) : State :=
  if o.op = 0 then fillFlashBuffer (flashEnded s) (s.pwr.flash.readBytes o.addr 64)
  else { flashEnded s with pwr := { (flashEnded s).pwr with
    flash := if o.op = 1 then s.pwr.flash.writeBytes o.addr o.data
      else s.pwr.flash.writeBytes (o.addr / 4096 * 4096) (List.replicate 4096 0xFF) } }

theorem flashOpVerified_erase (s : State) (op addr : Nat) (bs : List Byte) (sector : List Byte)
    (hsector : sector = List.replicate 4096 0xFF) : flashOpVerified s ⟨op + 2, addr, bs⟩ = { flashEnded s with
      pwr := { (flashEnded s).pwr with flash := s.pwr.flash.writeBytes (addr / 4096 * 4096) sector } } := by
  unfold flashOpVerified
  rw [← hsector, if_neg (by simp), if_neg (by simp)]

theorem exec_flashOpDone_true {s : State} {o : FlashOp} (h : s.pwr.flashOp = some o) :
    exec (.flashOpDone true) s = .next (flashOpVerified s o) := by
  show execFlashOpDone true s = _
  unfold execFlashOpDone
  split
  next hnone => exact absurd (h.symm.trans hnone) (by simp)
  next o ho =>
    obtain rfl := Option.some.inj (h.symm.trans ho)
    obtain ⟨op, addr, data⟩ := o
    match op with
    | 0 => rfl
    | 1 => rfl
    | op + 2 =>
      refine Eq.trans ?_ (congrArg Host.Outcome.next (flashOpVerified_erase s op addr data _ rfl).symm)
      generalize List.replicate 4096 (0xFF : Byte) = sector
      rfl

theorem flashOpVerified_erases (s : State) (addr : Nat) (bs sector : List Byte) (hsector : sector = List.replicate 4096 0xFF) :
    ((flashOpVerified s ⟨2, addr, bs⟩).pwr.flashOp = none ∧ (flashOpVerified s ⟨2, addr, bs⟩).regFld R.bmcFlashCtl 2 1 = 0) ∧
    (flashOpVerified s ⟨2, addr, bs⟩).pwr.flash = s.pwr.flash.writeBytes (addr / 4096 * 4096) sector := by
  rw [flashOpVerified_erase s 0 addr bs sector hsector]
  exact ⟨⟨rfl, flashEnded_idle s⟩, rfl⟩

theorem flashOpVerified_read {s : State} (hw : RegsWf s.regs) (addr : Nat) (bs : List Byte) :
    ((flashOpVerified s ⟨0, addr, bs⟩).pwr.flashOp = none ∧ (flashOpVerified s ⟨0, addr, bs⟩).regFld R.bmcFlashCtl 2 1 = 0) ∧
    (flashOpVerified s ⟨0, addr, bs⟩).pwr.flash = s.pwr.flash ∧
    flashBuffer (flashOpVerified s ⟨0, addr, bs⟩) = s.pwr.flash.readBytes addr 64 := by
  have hread : flashOpVerified s ⟨0, addr, bs⟩ = fillFlashBuffer (flashEnded s) (s.pwr.flash.readBytes addr 64) := if_pos rfl
  have hwf : RegsWf (flashEnded s).regs := State.setFld_wf hw _ _ _ _
  have hidle := flashEnded_idle s
  obtain ⟨hpwr, hreg⟩ := fillFlashBuffer_left hwf (s.pwr.flash.readBytes addr 64)
  rw [hread, hpwr]
  exact ⟨⟨rfl, (congrArg (wordFld · 2 1) hreg).trans hidle⟩, rfl, flashBuffer_fill hwf (Memory.readBytes_length _ _ _)⟩

/-- A program or an erase whose verify fails sets ERR. -/
theorem exec_flashOpDone_false {s : State} {op addr : Nat} {bs : List Byte} (h : s.pwr.flashOp = some ⟨op, addr, bs⟩)
    (hop : op ≠ 0) : exec (.flashOpDone false) s = .next (flashEnded ((abandonFlash s).setFld R.bmcFlashCtl 3 1 1)) := by
  show execFlashOpDone false s = _
  unfold execFlashOpDone
  split
  next hnone => exact absurd (h.symm.trans hnone) (by simp)
  next o ho =>
    obtain rfl := Option.some.inj (h.symm.trans ho)
    have hno : (false || decide (op = 0)) = false := by simp [hop]
    dsimp only
    rw [hno]
    rfl

theorem exec_flashOpDone_fails {s : State} {op addr : Nat} {bs : List Byte} (h : s.pwr.flashOp = some ⟨op, addr, bs⟩)
    (hop : op ≠ 0) : Completes (.flashOpDone false) s (fun t =>
      (t.pwr.flashOp = none ∧ t.regFld R.bmcFlashCtl 2 1 = 0) ∧ t.regFld R.bmcFlashCtl 3 1 = 1) := by
  have herr : ((abandonFlash s).setFld R.bmcFlashCtl 3 1 1).regFld R.bmcFlashCtl 3 1 = 1 :=
    State.regFld_setFld_self _ (by decide)
  refine .of_next (exec_flashOpDone_false h hop) ?_
  generalize (abandonFlash s).setFld R.bmcFlashCtl 3 1 1 = u at *
  have hboth : (u.setFld R.bmcFlashCtl 2 1 0).regFld R.bmcFlashCtl 3 1 = u.regFld R.bmcFlashCtl 3 1 :=
    State.regFld_setFld_ne u (by decide) (by decide)
  exact ⟨⟨rfl, flashEnded_idle u⟩, hboth.trans herr⟩

/-- An SMBus read of a command that has a value is answered with it. -/
theorem smbus_answers {i : Instr} {s : State} {command value : Nat} (hen : s.pwr.pwrEn = true) (hi : exec i s = s.smbus command)
    (h : smbusWord s command = some value) : exec i s = .next (s.emit (.smbus command (value % 65536))) := by
  rw [hi, State.smbus, h]
  exact if_pos hen

/-- Settles O15: every SMBus command has its row, and a flash operation its start and its end. -/
theorem boardManagementCompletes : Obligations.BoardManagementCompletes := by
  refine ⟨fun s hen => ?smbus, fun s v hinv hrun hsel hop hgo herr => ?start, fun s addr bs hinv => ?finish⟩
  case smbus =>
    have hstate : smbusWord s 0x32 =
        some (s.pwr.state.code + 2 ^ 8 * errStateWord s + if s.pwr.phase = .running then 2 ^ 15 else 0) := by
      simp [smbusWord, State.booted]
    exact ⟨smbus_answers hen rfl rfl, smbus_answers hen rfl rfl, smbus_answers hen rfl rfl, smbus_answers hen rfl rfl,
      smbus_answers hen rfl rfl, smbus_answers hen rfl rfl, smbus_answers hen rfl rfl, smbus_answers hen rfl hstate,
      smbus_answers hen rfl rfl⟩
  case start =>
    exact ⟨.of_next rfl (State.flashCtl_starts hinv.2 hrun hsel hop hgo herr (by decide)),
      .of_next rfl (State.flashCtl_starts hinv.2 hrun hsel hop hgo herr (by decide)),
      .of_next rfl (State.flashCtl_starts hinv.2 hrun hsel hop hgo herr (by decide))⟩
  case finish =>
    refine ⟨fun h => .of_next (exec_flashOpDone_true h) (flashOpVerified_read hinv.2 addr bs),
      fun h => .of_next (exec_flashOpDone_true h) ⟨⟨rfl, flashEnded_idle s⟩, rfl⟩,
      fun h => .of_next (exec_flashOpDone_true h) (flashOpVerified_erases s addr bs _ rfl), fun h => ?_⟩
    · rcases h with h | h <;> exact exec_flashOpDone_fails h (by decide)

end Sys2Proof.Machine
end

section
/-! SUPPORT. The on-package fabric (R22). -/
namespace Sys2Proof.Machine
open Sys2Proof

/-! Output and faults. -/

/-- Outputs sent in a row stand in their order. -/
theorem State.foldl_emit {α : Type} (f : α → Output) (l : List α) (s : State) :
    l.foldl (fun s x => s.emit (f x)) s = { s with host := { s.host with out := s.host.out ++ l.map f } } := by
  induction l generalizing s with
  | nil => simp
  | cons x l ih =>
    rw [List.foldl_cons, ih]
    simp [State.emit]

/-- A device fault leaves the device faulted (R564). -/
theorem State.deviceFails_faulted (s : State) (f : FaultInfo) : (s.deviceFails f).err.deviceFault = true := by
  have : Fact True := ⟨trivial⟩
  unfold State.deviceFails
  extract_lets urgent err failed reached dids ump host cleared ended
  have hended : Keeps (fun p => match p with | .free | .regs | .host | .scb => True | _ => False) cleared ended :=
    Keeps.foldl (Keeps.refl _) fun t d hk => State.complete_keeps hk
  have hcleared : cleared.err.deviceFault = true := rfl
  have herr : ended.err.deviceFault = true := (congrArg ErrState.deviceFault (hended.parts .err id)).trans hcleared
  clear_value ended
  split
  · exact (congrArg ErrState.deviceFault ((State.fault_keeps
      (M := fun p => match p with | .free | .regs | .host | .scb => True | _ => False) (Keeps.refl ended)).parts .err id)).trans herr
  · exact herr

/-! The dies of the package (R17, R20). -/

theorem Die.num_lt {d : Die} (h : d.present = true) : d.num < 64 := by
  cases d <;> simp only [Die.present, decide_eq_true_eq] at h <;> simp only [Die.num] <;> omega

/-- The number of a present die names it. -/
theorem Die.ofNum_num {d : Die} (h : d.present = true) : Die.ofNum d.num = d := by
  unfold Die.ofNum Die.num
  cases d <;> simp only [Die.present, decide_eq_true_eq] at h <;> grind

/-- Present dies have numbers of their own. -/
theorem Die.num_inj {a b : Die} (ha : a.present = true) (hb : b.present = true) (h : a.num = b.num) : a = b := by
  rw [← Die.ofNum_num ha, h, Die.ofNum_num hb]

theorem linked_irrefl (a : Die) : linked a a = false := by
  cases a with
  | xd n => match n with | 0 | 1 | _ + 2 => rfl
  | hd n => match n with | 0 | 1 | _ + 2 => rfl
  | _ => rfl

/-- Joined dies are two, both of the package. -/
theorem joined_ends {a b : Die} (h : joined a b = true) : a.present = true ∧ b.present = true ∧ a.num ≠ b.num := by
  simp only [joined, Bool.and_eq_true] at h
  obtain ⟨⟨ha, hb⟩, hlink⟩ := h
  refine ⟨ha, hb, fun hnum => ?_⟩
  rw [Die.num_inj ha hb hnum, linked_irrefl] at hlink
  exact absurd hlink (by decide)

/-- A die across the package has the side of a die of it. -/
theorem Die.present_of_side {d : Die} {x : Nat} (hx : x < 2) (h : d.side = x) : d.present = true := by
  cases d <;> simp only [Die.side] at h <;> simp only [Die.present, decide_eq_true_eq] <;> omega

/-- A flit's next die is of the package. -/
theorem nextHop_present {b : Die} (hb : b.present = true) (d : Die) : (nextHop b d).present = true := by
  unfold nextHop
  split
  next hjoin => exact (joined_ends hjoin).2.1
  next =>
    cases b with
    | xd x =>
      have hx : x < 2 := of_decide_eq_true hb
      dsimp only
      split
      · exact decide_eq_true (by omega)
      next hside =>
        have hd := Die.present_of_side hx (not_not.mp hside)
        cases d <;> exact hd
    | hd x =>
      have hx : x < 2 := of_decide_eq_true hb
      dsimp only
      split
      · exact hb
      · exact decide_eq_true (by omega)
    | _ n =>
      simp only [Die.present, decide_eq_true_eq] at hb ⊢
      omega

/-- A link and the next link of a flit's way are two. -/
theorem linkKey_nextHop_ne {a b : Die} (h : joined a b = true) (d : Die) : linkKey b (nextHop b d) ≠ linkKey a b := by
  obtain ⟨-, hb, hne⟩ := joined_ends h
  have hhop := Die.num_lt (nextHop_present hb d)
  have hlt := Die.num_lt hb
  unfold linkKey
  omega

/-! Links. -/

theorem State.fabricLink_setFabric_ne (s : State) {a b c d : Die} (l : FabricLink) (h : linkKey c d ≠ linkKey a b) :
    (s.setFabric a b l).fabricLink c d = s.fabricLink c d := by
  simp [State.fabricLink, State.setFabric, Tbl.getD, Tbl.get?_set_ne _ _ h]

/-- A flit accepted is delivered at its destination, or queued on the next link of its way. -/
theorem State.fabricAccept_left (s : State) {a b : Die} (hjoin : joined a b = true) (l : FabricLink) (f : FabricFlit) :
    ((s.setFabric a b l).fabricAccept b f).fabricLink a b = l ∧
    if f.dst = b then ((s.setFabric a b l).fabricAccept b f).mgl.delivered = s.mgl.delivered ++ [f]
    else ((s.setFabric a b l).fabricAccept b f).mgl.delivered = s.mgl.delivered ∧
      (((s.setFabric a b l).fabricAccept b f).fabricLink b (nextHop b f.dst)).queue =
        (s.fabricLink b (nextHop b f.dst)).queue ++ [f] := by
  have hne := linkKey_nextHop_ne hjoin f.dst
  unfold State.fabricAccept
  split
  · exact ⟨State.setFabric_fabricLink s a b l, rfl⟩
  · refine ⟨(State.fabricLink_setFabric_ne _ _ hne.symm).trans (State.setFabric_fabricLink s a b l), rfl, ?_⟩
    rw [State.setFabric_fabricLink, State.fabricLink_setFabric_ne s l hne]

/-- A flit asked for again is sent again with those after it, and no link changes. -/
theorem State.fabricResend_eq (s : State) (a b : Die) (seq : Nat) :
    s.fabricResend a b seq = { s with host := { s.host with
      out := s.host.out ++ .fabricResend a b seq :: ((s.fabricLink a b).sent.filter (fun p => decide (seq ≤ p.1))).map
        (fun p => .fabricFlit a b p.1 p.2 (sc8Check p.2.data)) } } := by
  unfold State.fabricResend
  rw [State.foldl_emit]
  simp [State.emit]

/-- A flit that arrives over a link of the package, by its turn and by what SC8 makes of it. -/
theorem exec_fabricFlitReceive {s : State} {a b : Die} {seq : Nat} {l : FabricLink} {word : FlitArrival}
    (hpow : s.powered = true) (hjoin : joined a b = true) (hsent : (s.fabricLink a b).sentAs seq word.flit = some l) :
    let good (bytes : List Byte) : State :=
      (s.setFabric a b { l with expected := l.expected + 1, fails := 0 }).fabricAccept b { word.flit with data := bytes.take 64 }
    let again : State := s.setFabric a b { l with fails := l.fails + 1 }
    (seq ≠ l.expected → exec (.fabricFlitReceive (a, b) seq word) s = .next (s.setFabric a b l)) ∧
    (seq = l.expected → sc8Decode word.received = .correct →
      exec (.fabricFlitReceive (a, b) seq word) s = .next (good word.received)) ∧
    (∀ bytes, seq = l.expected → sc8Decode word.received = .corrected bytes →
      exec (.fabricFlitReceive (a, b) seq word) s = .next (good bytes)) ∧
    (seq = l.expected → sc8Decode word.received = .uncorrectable →
      exec (.fabricFlitReceive (a, b) seq word) s = if l.fails < 2 then .next (again.fabricResend a b seq)
        else .next (again.deviceFails
          { cls := 5, kind := 15, unit := 4, cause := 1, action := 6, detected := s.ts, affected := runningCtx s })) := by
  have hup : ¬(s.powered = false ∨ joined a b = false) := by simp [hpow, hjoin]
  have hexec : exec (.fabricFlitReceive (a, b) seq word) s = execFabricFlitReceive (a, b) seq word s := rfl
  rw [hexec, execFabricFlitReceive]
  dsimp only
  rw [hsent]
  dsimp only
  rw [if_neg hup]
  refine ⟨fun hturn => if_pos hturn, fun hturn hdec => ?_, fun bytes hturn hdec => ?_, fun hturn hdec => ?_⟩
  all_goals
    rw [if_neg (not_not.mpr hturn), hdec]
  rfl

/-- Settles O16: each arrival is a case of its turn and its check symbols. -/
theorem fabricFlitsDeliver : Obligations.FabricFlitsDeliver := by
  intro s a b seq l word hpow hjoin hsent
  obtain ⟨hturn, hcorrect, hcorrected, huncorr⟩ := exec_fabricFlitReceive hpow hjoin hsent
  refine ⟨fun bytes hseq hdec => ?_, fun hseq hdec hfew => .of_next ((huncorr hseq hdec).trans (if_pos hfew)) ?_,
    fun hseq hdec hmany => .of_next ((huncorr hseq hdec).trans (if_neg (Nat.not_lt.mpr hmany))) (State.deviceFails_faulted _ _),
    fun hne => .of_next (hturn hne) rfl⟩
  · rcases hdec with ⟨hdec, rfl⟩ | hdec
    · exact .of_next (hcorrect hseq hdec) (State.fabricAccept_left s hjoin _ _)
    · exact .of_next (hcorrected bytes hseq hdec) (State.fabricAccept_left s hjoin _ _)
  · rw [State.fabricResend_eq, State.setFabric_fabricLink]
    exact ⟨State.setFabric_fabricLink s a b _, rfl, rfl⟩

end Sys2Proof.Machine
end

section
/-! SUPPORT. The life of a Mirgarlink port (R374, R376, R392 to R394, R553). -/
namespace Sys2Proof.Machine
open Sys2Proof

/-! Ports of the link. -/

@[simp] theorem State.link_setLink_self (s : State) (p : Nat) (l : MglPort) : (s.setLink p l).link p = l := by
  simp [State.link, State.setLink, Tbl.getD]

theorem State.link_setLink_ne (s : State) {p q : Nat} (l : MglPort) (h : q ≠ p) : (s.setLink p l).link q = s.link q := by
  simp [State.link, State.setLink, Tbl.getD, Tbl.get?_set_ne _ _ h]

/-- Ports are read from the link's state alone. -/
theorem State.link_congr {s t : State} (h : t.mgl = s.mgl) (p : Nat) : t.link p = s.link p := by
  rw [State.link, State.link, h]

theorem State.linkUp_iff (s : State) (p : Nat) : s.linkUp p = true ↔ (s.link p).phase = .up ∧ (s.link p).boot = false := by
  simp [State.linkUp]

theorem State.link_opEvent (s : State) (e : Rec32) (p : Nat) : (s.opEvent e).link p = s.link p :=
  State.link_congr (State.opEvent_mgl s e) p

theorem State.opEvent_ts (s : State) (e : Rec32) : (s.opEvent e).ts = s.ts :=
  have : Fact True := ⟨trivial⟩
  (State.opEvent_keeps (M := fun p => match p with | .host => True | _ => False) (Keeps.refl s)).parts .ts id

/-- Frames of the operations that only report and count. -/
theorem State.fault_frame (s : State) (f : FaultInfo) :
    (s.fault f).mgl = s.mgl ∧ (s.fault f).ts = s.ts ∧ (s.fault f).err = s.err := by
  have : Fact True := ⟨trivial⟩
  have hk := State.fault_keeps (M := fun p => match p with | .free | .regs | .host | .scb => True | _ => False) (f := f)
    (Keeps.refl s)
  exact ⟨hk.parts .mgl id, hk.parts .ts id, hk.parts .err id⟩

theorem State.count_frame (s : State) (b cls event n : Nat) (c : Counted) :
    (s.count b cls event n c).mgl = s.mgl ∧ (s.count b cls event n c).host = s.host ∧
    (s.count b cls event n c).ts = s.ts := by
  have : Fact True := ⟨trivial⟩
  have hk := State.count_keeps (M := fun p => match p with | .regs | .scb => True | _ => False) (b := b) (cls := cls)
    (event := event) (n := n) (c := c) (Keeps.refl s)
  exact ⟨hk.parts .mgl id, hk.parts .host id, hk.parts .ts id⟩

theorem State.handshake_mgl (s : State) (p : Nat) (peer : PeerProof) : (s.handshake p peer).mgl = s.mgl :=
  have : Fact True := ⟨trivial⟩
  (State.handshake_keeps (M := fun p => match p with | .free | .host => True | _ => False) (Keeps.refl s)).parts .mgl id

theorem State.linkDown_frame (s : State) (p reason : Nat) (ph : LinkPhase) :
    (s.linkDown p reason ph).ts = s.ts ∧ (s.linkDown p reason ph).err = s.err := by
  have : Fact True := ⟨trivial⟩
  have hk := State.linkDown_keeps (M := fun p => match p with | .regs | .host | .mgl => True | _ => False) (p := p)
    (reason := reason) (phase := ph) (Keeps.refl s)
  exact ⟨hk.parts .ts id, hk.parts .err id⟩

/-- A port taken down is at its reset state in the phase it was given, from now. -/
theorem State.linkDown_link (s : State) (p reason : Nat) (ph : LinkPhase) :
    (s.linkDown p reason ph).link p = { MglPort.down with phase := ph, since := s.ts } := by
  have : Fact True := ⟨trivial⟩
  unfold State.linkDown
  extract_lets l told freed event port down
  have hfreed : Keeps (fun p => match p with | .host => True | _ => False) s freed := by
    refine Keeps.foldl (Keeps.refl s) fun t q hk => ?_
    split
    · exact hk
    · exact State.freeBuffer_keeps hk
  have hts : freed.ts = s.ts := hfreed.parts .ts id
  clear_value freed
  have hevent : event.ts = s.ts := by
    unfold event
    split
    · exact (State.opEvent_ts _ _).trans hts
    · exact hts
  clear_value event
  have hdown : down.link p = { MglPort.down with phase := ph, since := s.ts } := by
    rw [← hevent]
    exact State.link_setLink_self event p _
  split
  · exact hdown
  · exact hdown

/-- A port's fall: it trains again, and is fenced at the third within 60 s (R553). -/
theorem State.linkFall_left (s : State) (p reason : Nat) :
    ((s.linkFall p reason).link p).phase = (if (fallsOf s p).length < 3 then .training else .fenced) ∧
    ((s.linkFall p reason).link p).since = s.ts ∧ (s.linkFall p reason).ts = s.ts ∧
    Tbl.get? (s.linkFall p reason).err.portFalls p = some (fallsOf s p) := by
  unfold State.linkFall
  extract_lets falls err noted down fenced
  have hnoted : Tbl.get? noted.err.portFalls p = some falls := Tbl.get?_set_self _ _ _
  have hnow : noted.ts = s.ts := rfl
  clear_value noted
  split
  next =>
    obtain ⟨hts, herr⟩ := State.linkDown_frame noted p reason .training
    rw [State.linkDown_link, hts, herr]
    exact ⟨rfl, hnow, hnow, hnoted⟩
  next =>
    obtain ⟨hts, herr⟩ := State.linkDown_frame noted p 5 .fenced
    have hlink := State.linkDown_link noted p 5 .fenced
    have hfenced : fenced.mgl = down.mgl ∧ fenced.ts = noted.ts ∧ fenced.err = noted.err := ⟨rfl, hts, herr⟩
    clear_value fenced
    obtain ⟨hmgl, hts', herr'⟩ := hfenced
    obtain ⟨hfm, hft, hfe⟩ := State.fault_frame fenced
      { cls := 1, kind := 9, unit := p, cause := 5, action := 1, detected := fenced.ts, affected := runningCtx fenced }
    rw [State.link_congr (hfm.trans hmgl), hft, hfe, hts', herr', hlink]
    exact ⟨rfl, hnow, hnow, hnoted⟩

theorem State.linkFall_not_up (s : State) (p reason : Nat) : ((s.linkFall p reason).link p).phase ≠ .up := by
  obtain ⟨hphase, -⟩ := State.linkFall_left s p reason
  rw [hphase]
  split <;> decide

/-! The commands. -/

/-- A port in training of a running device, whose lanes have trained. -/
theorem exec_portUp {s : State} {p : Nat} {peer : PeerLink} (hrun : s.pwr.phase = .running) (htr : (s.link p).phase = .training)
    (hlanes : peer.lanes = 8) : exec (.portUp p peer) s =
      let base : MglPort := { MglPort.down.initCredits with phase := .up, since := s.ts }
      if peer.booting then .next (s.setLink p { base with boot := true })
      else if peer.enc != s.linkEnc p then .next s
      else if s.linkEnc p && !(s.link p).secure then .next s
      else .next (s.setLink p { base with secure := (s.link p).secure, keys := (s.link p).keys }) := by
  have hchain : ¬s.chainBoot p = true := by simp [State.chainBoot, hrun]
  exact (if_neg (not_not.mpr hlanes)).trans ((if_neg hchain).trans (if_neg (by simp [hrun, htr])))

/-- A session of a peer that this device does not accept has no secret. -/
theorem linkSecret_refused {s : State} {peer : PeerProof} (h : peerAccepted s peer = false ∨ linkSecret s peer = none) :
    (if peerAccepted s peer then linkSecret s peer else none) = none := by
  rcases h with h | h <;> simp [h]

theorem exec_sessionHandshake {s : State} {p : Nat} {peer : PeerProof} (htr : (s.link p).phase = .training)
    (henc : s.linkEnc p = true) : exec (.sessionHandshake p peer) s =
      ((if peerAccepted s peer then linkSecret s peer else none).elim
        (.next (((s.handshake p peer).setLink p { MglPort.down with phase := .training, since := (s.link p).since }).opEvent
          (eventRec 0x00A0 0 (s.handshake p peer).ts [(4, 0, 4, p), (4, 4, 4, 3)])))
        (fun secret => .next ((s.handshake p peer).setLink p { s.link p with
          secure := true, keys := sessionKeys [] 0 secret peer.transcript }))) := by
  refine (if_neg (by simp [htr, henc])).trans ?_
  generalize (if peerAccepted s peer then linkSecret s peer else none) = secret
  cases secret with
  | none => rfl
  | some secret => rfl

theorem exec_rekey {s : State} {p : Nat} {peer : PeerProof} (hup : (s.link p).phase = .up) (hsec : (s.link p).secure = true)
    (hold : 2 ^ 30 ≤ (s.link p).txFrames ∨ 2 ^ 30 ≤ (s.link p).rxFrames) (htx : (s.link p).keyEpochTx = (s.link p).newSlot)
    (hrx : (s.link p).keyEpochRx = (s.link p).newSlot) : exec (.rekey p peer) s =
      ((if peerAccepted s peer then linkSecret s peer else none).elim (.next (s.handshake p peer))
        (fun secret => .next ((s.handshake p peer).setLink p { s.link p with
          newSlot := 1 - (s.link p).newSlot
          keys := sessionKeys (s.link p).keys (1 - (s.link p).newSlot) secret peer.transcript }))) := by
  have hdue : ¬((s.link p).phase ≠ .up ∨ (s.link p).secure = false ∨
      ((s.link p).txFrames < 2 ^ 30 ∧ (s.link p).rxFrames < 2 ^ 30) ∨ (s.link p).keyEpochTx ≠ (s.link p).newSlot ∨
      (s.link p).keyEpochRx ≠ (s.link p).newSlot) := by
    have hmany : (s.link p).txFrames < 2 ^ 30 → 2 ^ 30 ≤ (s.link p).rxFrames := by omega
    simpa [hup, hsec, htx, hrx] using hmany
  refine (if_neg hdue).trans ?_
  generalize (if peerAccepted s peer then linkSecret s peer else none) = secret
  cases secret with
  | none => rfl
  | some secret => rfl

/-- Settles O17: each command's guard holds, and a port's fall, its end and its session are read off their lemmas. -/
theorem portLifeCompletes : Obligations.PortLifeCompletes := by
  refine ⟨fun s p peer hrun htr hlanes => ?up, fun s p htr => ?retry, fun s p hup => ?peer, fun s p peer htr henc => ?session,
    fun s p peer hup hsec hold htx hrx => ?rekey, fun s p hup hsec hold => ?limit⟩
  case up =>
    refine ⟨fun hboot henc hsec => .of_next ((exec_portUp hrun htr hlanes).trans ?_) rfl,
      fun hboot => .of_next ((exec_portUp hrun htr hlanes).trans (if_pos hboot)) rfl⟩
    have hkey : ¬(s.linkEnc p && !(s.link p).secure) = true := by
      cases h : s.linkEnc p <;> simp_all
    exact (if_neg (by simp [hboot])).trans ((if_neg (by simp [henc])).trans (if_neg hkey))
  case retry =>
    obtain ⟨hphase, hsince, hts, hfalls⟩ :=
      State.linkFall_left { s with ts := max s.ts ((s.link p).since + 1000000000) } p 1
    exact .of_next (if_neg (not_not.mpr htr)) ⟨hphase, hsince, hts, hfalls⟩
  case peer =>
    refine .of_next (if_neg (not_not.mpr hup)) ?_
    rw [State.linkDown_link]
    exact ⟨rfl, rfl, rfl⟩
  case session =>
    refine ⟨fun secret hacc hsecret => .of_next ((exec_sessionHandshake htr henc).trans ?_) rfl,
      fun hno => .of_next ((exec_sessionHandshake htr henc).trans (by rw [linkSecret_refused hno]; rfl)) ?_⟩
    · rw [if_pos hacc, hsecret]
      rfl
    · rw [State.link_opEvent, State.link_setLink_self]
      exact ⟨rfl, rfl, rfl⟩
  case rekey =>
    refine ⟨fun secret hacc hsecret => .of_next ((exec_rekey hup hsec hold htx hrx).trans ?_) rfl,
      fun hno => .of_next ((exec_rekey hup hsec hold htx hrx).trans (by rw [linkSecret_refused hno]; rfl)) rfl⟩
    rw [if_pos hacc, hsecret]
    rfl
  case limit =>
    refine .of_next (if_pos ⟨hup, hsec, hold⟩) ?_
    rw [State.linkDown_link]
    exact ⟨rfl, rfl⟩

end Sys2Proof.Machine
end

section
/-! SUPPORT. Frames of a Mirgarlink port (R375, R376, R383). -/
namespace Sys2Proof.Machine
open Sys2Proof

/-- A frame that passes its checks: its flits are parsed behind those that wait for it (R376). -/
theorem exec_frameReceive_some {s : State} {p : Nat} {f : LinkFrame} {flits : List Byte} (hup : (s.link p).phase = .up)
    (hf : frameFlits (s.link p) p f = some flits) : exec (.frameReceive p f) s =
      let parsed := parseFlits 2048 ((s.link p).rxPartial ++ flits)
      let epoch := if f.enc then f.keyEpoch else (s.link p).keyEpochRx
      .next ((s.setLink p { s.link p with
        rxSeq := (s.link p).rxSeq + 1
        rxFails := 0
        keyEpochRx := epoch
        rxFrames := if epoch = (s.link p).keyEpochRx then (s.link p).rxFrames + 1 else 1
        rxPartial := parsed.2
        rxQueue := (s.link p).rxQueue ++ parsed.1 }).count (queueXd p) 7 1 ((parsed.1.map Packet.flits).sum) { unit := p % 8 }) := by
  refine (if_neg (not_not.mpr hup)).trans ?_
  rw [hf]

/-- One that does not pass: a replay is requested, or the port falls. -/
theorem exec_frameReceive_none {s : State} {p : Nat} {f : LinkFrame} (hup : (s.link p).phase = .up)
    (hf : frameFlits (s.link p) p f = none) : exec (.frameReceive p f) s =
      let fails := if f.decoded = true ∧ f.seq ≠ (s.link p).rxSeq then (s.link p).rxFails else (s.link p).rxFails + 1
      if 3 ≤ fails then .next (s.linkFall p 2)
      else .next ((s.setLink p { s.link p with rxFails := fails }).sendLmc p 1 [(s.link p).rxSeq]) := by
  refine (if_neg (not_not.mpr hup)).trans ?_
  rw [hf]
  simp only [Bool.and_eq_true, decide_eq_true_eq]

/-- A frame as it is sent again, under the key it was first sent under. -/
def resentFrame (l : MglPort) (p : Nat) (f : SentFrame) : Output :=
  .frame p f.seq f.keyEpoch l.secure (frameSeal l.keys p 0 f.seq f.keyEpoch l.secure f.flits).1
    (frameSeal l.keys p 0 f.seq f.keyEpoch l.secure f.flits).2

/-- A replay request that is taken, for a frame already sent. -/
theorem exec_lmcReplayRequest {s : State} {p seq : Nat} {x : LmcCheck} (hup : (s.link p).phase = .up)
    (hx : lmcTaken s p 1 [seq] x = true) (hsent : seq < (s.link p).txSeq) : exec (.lmcReplayRequest p (seq, x)) s =
      let l := s.link p
      let again := l.replay.filter (fun f => decide (seq ≤ f.seq))
      if !(l.replay.any (fun f => f.seq == seq)) then .next (s.linkFall p 2)
      else .next (again.foldl (fun s f => s.emit (resentFrame (l) p f))
        ((s.bump R.mglReplay again.length).count (queueXd p) 7 2 again.length { unit := p % 8 })) := by
  have hgo : ¬((s.link p).phase ≠ .up ∨ (s.link p).txSeq ≤ seq ∨ (!lmcTaken s p 1 [seq] x) = true) := by simp [hup, hx, hsent]
  exact if_neg hgo

/-- Settles O18: a frame's case is its checks, a replay's the frames that are still kept. -/
theorem framesComplete : Obligations.FramesComplete := by
  refine ⟨fun s p f flits hup hf => ?taken, fun s p f hup hf => ?refused, fun s p seq x hup hx hsent => ?replay,
    fun s p vc n x hup hx => ?credit⟩
  case taken =>
    refine .of_next (exec_frameReceive_some hup hf) ?_
    obtain ⟨hmgl, -⟩ := State.count_frame (s.setLink p _) _ _ _ _ _
    rw [State.link_congr hmgl, State.link_setLink_self]
    exact ⟨rfl, rfl, rfl, rfl, rfl⟩
  case refused =>
    intro l fails
    refine ⟨fun hfew => .of_next ((exec_frameReceive_none hup hf).trans (if_neg (Nat.not_le.mpr hfew))) ⟨?_, ?_⟩,
      fun hmany => .of_next ((exec_frameReceive_none hup hf).trans (if_pos hmany)) (State.linkFall_not_up s p 2)⟩
    · exact State.link_setLink_self s p _
    · show s.host.out ++ [_] = _
      rw [State.link_setLink_self]
      rfl
  case replay =>
    refine ⟨fun hany => .of_next ((exec_lmcReplayRequest hup hx hsent).trans (if_neg (by rw [hany]; decide))) ?_,
      fun hnone => .of_next ((exec_lmcReplayRequest hup hx hsent).trans (if_pos (by rw [hnone]; decide)))
        (State.linkFall_not_up s p 2)⟩
    obtain ⟨hmgl, hhost, -⟩ := State.count_frame (s.bump R.mglReplay
      ((s.link p).replay.filter (fun f => decide (seq ≤ f.seq))).length) (queueXd p) 7 2
      ((s.link p).replay.filter (fun f => decide (seq ≤ f.seq))).length { unit := p % 8 }
    rw [State.foldl_emit (resentFrame (s.link p) p), hhost]
    exact ⟨rfl, State.link_congr hmgl p⟩
  case credit => exact .of_next (if_neg (by simp [hup, hx])) rfl

end Sys2Proof.Machine
end

section
/-! SUPPORT. Packets of a Mirgarlink port (R379, R381, R383). -/
namespace Sys2Proof.Machine
open Sys2Proof

/-! Frames. -/

theorem State.link_of_ports {s t : State} (h : t.mgl.ports = s.mgl.ports) (p : Nat) : t.link p = s.link p := by
  rw [State.link, State.link, h]

theorem State.trace_frame (s : State) (n kind ctx data : Nat) (b : Bool) :
    (s.trace n kind ctx data b).mgl = s.mgl ∧ (s.trace n kind ctx data b).host = s.host ∧ (s.trace n kind ctx data b).ts = s.ts := by
  have : Fact True := ⟨trivial⟩
  have hk := State.trace_keeps (M := fun p => match p with | .free | .scb => True | _ => False) (n := n) (kind := kind)
    (ctx := ctx) (data := data) (isSealed := b) (Keeps.refl s)
  exact ⟨hk.parts .mgl id, hk.parts .host id, hk.parts .ts id⟩

theorem State.chargeLink_frame (s : State) (w : Option Nat × Nat × Bool) (c : Charges) :
    (s.chargeLink w c).mgl = s.mgl ∧ (s.chargeLink w c).host = s.host := by
  have : Fact True := ⟨trivial⟩
  have hk := State.chargeLink_keeps (M := fun p => match p with | .ump => True | _ => False) (for_ := w) (more := c) (Keeps.refl s)
  exact ⟨hk.parts .mgl id, hk.parts .host id⟩

theorem State.closeFrames_out (s : State) (p : Nat) : s.host.out <+: (s.closeFrames p).host.out := by
  have : Fact True := ⟨trivial⟩
  exact (State.closeFrames_keeps (M := fun p => match p with | .host | .mgl => True | _ => False) (Keeps.refl s)).out

theorem State.freeBuffer_out (s : State) (p : Nat) (k : Packet) : (s.freeBuffer p k).host.out = s.host.out ++
    if (s.link p).phase = .up then [.lmc p 4 [k.vc, k.flits] (lmcCheck (s.link p) 0 4 [k.vc, k.flits])] else [] := by
  unfold State.freeBuffer
  split
  · rfl
  · exact (List.append_nil _).symm

/-! Routing. -/

/-- The state once a port's oldest packet has left its queue. -/
def unqueued (s : State) (p : Nat) (rest : List Packet) : State := s.setLink p { s.link p with rxQueue := rest }

/-- What a packet that leaves the queue is to become, on a port outside boot service. -/
theorem exec_packetRoute {s : State} {p : Nat} {k : Packet} {rest : List Packet} (hboot : (s.link p).boot = false)
    (hq : (s.link p).rxQueue = k :: rest) : exec (.packetRoute p) s =
      let free := (unqueued s p rest).freeBuffer p k
      if !k.inRange then .next (free.dropPacket p k.dst 3)
      else if k.hops = 4 ∧ k.dst ≠ s.rank then .next (free.dropPacket p k.dst 1)
      else if s.route k.dst = 16 then .next (free.deliver p k)
      else if decide (s.route k.dst < 16) && (unqueued s p rest).linkUp (s.route k.dst) then
        .next ((unqueued s p rest).enqueue (s.route k.dst) ⟨p, none, 0, false, k⟩)
      else .next (free.dropPacket p k.dst 2) := by
  show execPacketRoute p s = _
  unfold execPacketRoute
  dsimp only
  rw [hq]
  have hno : ¬((s.link p).boot && decide (s.pwr.phase = .booting)) = true := by simp [hboot]
  have hno' : ¬(s.link p).boot = true := by simp [hboot]
  exact (if_neg hno).trans (if_neg hno')

/-- A queue's shortening leaves every port's phase and session. -/
theorem unqueued_linkUp (s : State) (p q : Nat) (rest : List Packet) : (unqueued s p rest).linkUp q = s.linkUp q := by
  unfold State.linkUp unqueued
  by_cases h : q = p
  · rw [h, State.link_setLink_self]
  · rw [State.link_setLink_ne s _ h]

/-- A packet that leaves for good: its queue is shorter, and its credits go back where the port is UP (R383). -/
theorem unqueued_freed (s : State) (p : Nat) (k : Packet) (rest : List Packet) :
    (((unqueued s p rest).freeBuffer p k).link p).rxQueue = rest ∧ ((unqueued s p rest).freeBuffer p k).host.out =
      s.host.out ++ if (s.link p).phase = .up then [.lmc p 4 [k.vc, k.flits] (lmcCheck (s.link p) 0 4 [k.vc, k.flits])]
        else [] := by
  have hlink : (unqueued s p rest).link p = { s.link p with rxQueue := rest } := State.link_setLink_self s p _
  rw [State.link_congr (State.freeBuffer_mgl _ _ _), State.freeBuffer_out, hlink]
  exact ⟨rfl, rfl⟩

/-- A packet forwarded joins the next port's queue, which may be its own. -/
theorem enqueue_unqueued (s : State) (p : Nat) (rest : List Packet) (q : Nat) (x : QueuedPacket) :
    (((unqueued s p rest).enqueue q x).link p).rxQueue = rest ∧
    (((unqueued s p rest).enqueue q x).link q).txQueue = (s.link q).txQueue ++ [x] ∧
    ((unqueued s p rest).enqueue q x).mgl.inbox = s.mgl.inbox ∧
    ((unqueued s p rest).enqueue q x).host.out = s.host.out := by
  have hself : (unqueued s p rest).link p = { s.link p with rxQueue := rest } := State.link_setLink_self s p _
  have hqueue : ((unqueued s p rest).link q).txQueue = (s.link q).txQueue := by
    by_cases h : q = p
    · rw [h, hself]
    · rw [unqueued, State.link_setLink_ne s _ h]
  unfold State.enqueue
  dsimp only
  refine ⟨?_, ?_, rfl, rfl⟩
  · by_cases h : p = q
    · rw [← h, State.link_setLink_self, hself]
    · rw [State.link_setLink_ne _ _ h, hself]
  · rw [State.link_setLink_self, hqueue]

/-- A packet dropped is counted for MGL_DROP with its reason, and nothing of the ports moves (R379, R395). -/
theorem State.dropPacket_left (s : State) (p dst reason : Nat) :
    (∀ q, (s.dropPacket p dst reason).link q = s.link q) ∧ (s.dropPacket p dst reason).host = s.host ∧
    (s.dropPacket p dst reason).mgl.inbox = s.mgl.inbox ∧
    ∃ d, (s.dropPacket p dst reason).mgl.drops = some d ∧ (s.mgl.drops = none → d = ⟨1, dst, p, reason⟩) ∧
      ∀ e, s.mgl.drops = some e → d = { e with count := e.count + 1 } := by
  unfold State.dropPacket
  extract_lets bumped counted
  have hbumped : bumped.mgl = s.mgl ∧ bumped.host = s.host := ⟨rfl, rfl⟩
  obtain ⟨hmgl, hhost, -⟩ := State.count_frame bumped (queueXd p) 7 3 1 { unit := p % 8 }
  have hsame : counted.mgl = s.mgl ∧ counted.host = s.host := ⟨hmgl.trans hbumped.1, hhost.trans hbumped.2⟩
  clear_value counted
  obtain ⟨hmgl', hhost'⟩ := hsame
  refine ⟨fun q => State.link_of_ports (congrArg MglState.ports hmgl' :) q, hhost', (congrArg MglState.inbox hmgl' :), ?_⟩
  · rw [hmgl']
    cases h : s.mgl.drops with
    | none => exact ⟨_, rfl, fun _ => rfl, fun e he => absurd he (by simp)⟩
    | some d => exact ⟨_, rfl, fun hno => absurd hno (by simp), fun e he => by rw [Option.some.inj he]⟩

/-- A packet delivered joins the delivered ones, unless R610 discards it. -/
theorem State.deliver_left (s : State) (p : Nat) (k : Packet) :
    (∀ q, (s.deliver p k).link q = s.link q) ∧ (s.deliver p k).host = s.host ∧
    (s.deliver p k).mgl.inbox = if badMgmt k then s.mgl.inbox else s.mgl.inbox ++ [⟨p, (s.link p).secure, k⟩] := by
  unfold State.deliver
  split
  · exact ⟨fun _ => rfl, rfl, rfl⟩
  · extract_lets mgl noted
    have hnoted : (∀ q, noted.link q = s.link q) ∧ noted.host = s.host ∧
      noted.mgl.inbox = s.mgl.inbox ++ [⟨p, (s.link p).secure, k⟩] := ⟨fun _ => rfl, rfl, rfl⟩
    clear_value noted
    split
    · obtain ⟨hmgl, hhost, -⟩ := State.trace_frame noted (queueXd p) 13 0 (k.src + 2 ^ 12 * k.ch + 2 ^ 32 * k.tsLo) false
      obtain ⟨hlink, hhost', hinbox⟩ := hnoted
      exact ⟨fun q => (State.link_congr hmgl q).trans (hlink q), hhost.trans hhost', (congrArg MglState.inbox hmgl).trans hinbox⟩
    · exact hnoted

/-! Arbitration. -/

/-- An open frame that is not full stays open. -/
theorem State.closeFrames_open {s : State} {p : Nat} (h : (s.link p).txOpen.length < 64 * 1023) : s.closeFrames p = s := if_pos h

/-- An idle flit is sent when no packet may go (R375). -/
theorem outputArbitration_idle {s : State} {p : Nat} (hup : (s.link p).phase = .up) (hnone : choosePacket s (s.link p) = none)
    (hroom : (s.link p).txOpen.length + 64 < 64 * 1023) : Completes (.outputArbitration p) s (fun t =>
      (t.link p).txOpen = (s.link p).txOpen ++ List.replicate 64 0 ∧ t.host.out = s.host.out) := by
  let idle : State := s.setLink p { s.link p with
    window := pushWindow (s.link p).window 4 1
    txOpen := (s.link p).txOpen ++ List.replicate 64 0 }
  let told : State := if !(s.link p).txQueue.isEmpty then idle.count (queueXd p) 7 5 1 { unit := p % 8 } else idle
  have hexec : exec (.outputArbitration p) s = .next (told.closeFrames p) := by
    refine (if_neg (not_not.mpr hup)).trans ?_
    rw [hnone]
  have htold : told.mgl = idle.mgl ∧ told.host = idle.host := by
    unfold told
    split
    · obtain ⟨hmgl, hhost, -⟩ := State.count_frame idle (queueXd p) 7 5 1 { unit := p % 8 }
      exact ⟨hmgl, hhost⟩
    · exact ⟨rfl, rfl⟩
  have hopen : (told.link p).txOpen = (s.link p).txOpen ++ List.replicate 64 0 := by
    rw [State.link_congr htold.1]
    exact congrArg MglPort.txOpen (State.link_setLink_self s p _)
  refine .of_next hexec ?_
  rw [State.closeFrames_open (by rw [hopen, List.length_append, List.length_replicate]; exact hroom)]
  exact ⟨hopen, congrArg HostState.out htold.2⟩

/-- The header of a packet as it goes out: HOPS raised, and the time of a packet that starts here (R379). -/
def sentPacket (s : State) (q : QueuedPacket) : Packet :=
  { q.packet with hops := q.packet.hops + 1, tsLo := if q.fromPort = 16 then wrap32 s.ts else q.packet.tsLo }

/-- The state in which the chosen packet has gone out. -/
def packetSent (s : State) (p cls : Nat) (q : QueuedPacket) (l : MglPort) : State :=
  let k := sentPacket s q
  (s.setLink p { l with
    txQueue := l.txQueue.erase q
    txOpen := l.txOpen ++ k.bytes
    window := pushWindow l.window cls k.flits
    rrVc := Tbl.set l.rrVc cls (k.vc * 17 + q.fromPort) }).emit
      (.packet p k.ty k.vc k.dst [k.src, k.hops, k.ch, k.len, k.tsLo, k.seq] k.data)

/-- What follows a packet's going: it is counted, and charged to its work or its buffer freed. -/
def afterSent (s : State) (p cls n : Nat) (q : QueuedPacket) : State :=
  let s := s.count (queueXd p) 7 0 n { unit := p % 8 }
  let s := if cls = 2 then s.count (queueXd p) 7 4 n { unit := p % 8 } else s
  if q.fromPort = 16 then s.chargeLink (q.work, q.ctx, q.isSealed) { Charges.zero with mglTx := 64 * n }
  else s.freeBuffer q.fromPort q.packet

theorem exec_outputArbitration_packet {s : State} {p cls : Nat} {q : QueuedPacket} {l : MglPort} (hup : (s.link p).phase = .up)
    (hchosen : choosePacket s (s.link p) = some (cls, q, l)) : exec (.outputArbitration p) s =
      .next ((afterSent (packetSent s p cls q l) p cls (sentPacket s q).flits q).closeFrames p) := by
  refine (if_neg (not_not.mpr hup)).trans ?_
  rw [hchosen]
  rfl

/-- What follows a packet's going takes nothing back that has gone out. -/
theorem afterSent_out (s : State) (p cls n : Nat) (q : QueuedPacket) : s.host.out <+: (afterSent s p cls n q).host.out := by
  unfold afterSent
  extract_lets counted fast more
  have hcounted : counted.host = s.host := (State.count_frame s (queueXd p) 7 0 n { unit := p % 8 }).2.1
  have hfast : fast.host = s.host := by
    unfold fast
    split
    · exact (State.count_frame counted (queueXd p) 7 4 n { unit := p % 8 }).2.1.trans hcounted
    · exact hcounted
  clear_value fast
  rw [← hfast]
  split
  · rw [(State.chargeLink_frame _ _ _).2]
  · rw [State.freeBuffer_out]
    exact List.prefix_append _ _

/-- The packet chosen goes out, with what follows from its going behind it. -/
theorem outputArbitration_packet {s : State} {p cls : Nat} {q : QueuedPacket} {l : MglPort} (hup : (s.link p).phase = .up)
    (hchosen : choosePacket s (s.link p) = some (cls, q, l)) : Completes (.outputArbitration p) s (fun t =>
      s.host.out ++ [.packet p q.packet.ty q.packet.vc q.packet.dst [q.packet.src, q.packet.hops + 1, q.packet.ch,
        q.packet.len, if q.fromPort = 16 then s.ts % 2 ^ 32 else q.packet.tsLo, q.packet.seq] q.packet.data] <+: t.host.out) :=
  .of_next (exec_outputArbitration_packet hup hchosen) ((afterSent_out (packetSent s p cls q l) p cls _ q).trans (State.closeFrames_out _ _))

/-- Settles O19: the packet's way through the table decides, and what each end of it leaves is said by its lemma. -/
theorem packetsComplete : Obligations.PacketsComplete := by
  refine ⟨fun s p k rest hboot hq => ?route, fun s p cls q l hup hchosen => outputArbitration_packet hup hchosen,
    fun s p hup hnone hroom => outputArbitration_idle hup hnone hroom⟩
  case route =>
    intro l freed dropped
    have hexec := exec_packetRoute hboot hq
    obtain ⟨hqueue, hout⟩ := unqueued_freed s p k rest
    have hmgl : ((unqueued s p rest).freeBuffer p k).mgl = (unqueued s p rest).mgl := State.freeBuffer_mgl _ _ _
    have hdrops : ((unqueued s p rest).freeBuffer p k).mgl.drops = s.mgl.drops := (congrArg MglState.drops hmgl :)
    have hinbox : ((unqueued s p rest).freeBuffer p k).mgl.inbox = s.mgl.inbox := (congrArg MglState.inbox hmgl :)
    have hdropped : ∀ reason, exec (.packetRoute p) s =
        .next (((unqueued s p rest).freeBuffer p k).dropPacket p k.dst reason) → dropped reason := by
      intro reason hdrop
      refine .of_next hdrop ?_
      obtain ⟨hlink, hhost, hbox, hd⟩ := State.dropPacket_left ((unqueued s p rest).freeBuffer p k) p k.dst reason
      rw [hdrops] at hd
      refine ⟨⟨?_, ?_⟩, hbox.trans hinbox, hd⟩
      · rw [hlink, hqueue]
      · rw [hhost, hout]
    refine ⟨fun hrange => hdropped 3 (hexec.trans (if_pos (by simp [hrange]))),
      fun hrange hhops hdst => hdropped 1 (hexec.trans ((if_neg (by simp [hrange])).trans (if_pos ⟨hhops, hdst⟩))),
      fun hrange hhops => ?_⟩
    have hpass := hexec.trans ((if_neg (by simp [hrange])).trans (if_neg (fun h => h.2 (hhops h.1))))
    refine ⟨fun hlocal => .of_next (hpass.trans (if_pos hlocal)) ?_, fun hlocal hno => hdropped 2 (hpass.trans
      ((if_neg hlocal).trans (if_neg ?_))), fun q hroute hlt hup => ?_⟩
    · obtain ⟨hlink, hhost, hbox⟩ := State.deliver_left ((unqueued s p rest).freeBuffer p k) p k
      have hsec : (((unqueued s p rest).freeBuffer p k).link p).secure = l.secure := by
        rw [State.link_congr hmgl]
        have hself := State.link_setLink_self s p { s.link p with rxQueue := rest }
        exact (congrArg MglPort.secure hself :)
      rw [hinbox, hsec] at hbox
      refine ⟨⟨?_, ?_⟩, hbox⟩
      · rw [hlink, hqueue]
      · rw [hhost, hout]
    · rw [unqueued_linkUp, Bool.and_eq_true, decide_eq_true_eq]
      rintro ⟨hlt, hup⟩
      rcases hno with hno | hno
      · omega
      · exact absurd (hup.symm.trans hno) (by decide)
    · subst hroute
      have hgo : (decide (s.route k.dst < 16) && (unqueued s p rest).linkUp (s.route k.dst)) = true := by
        rw [unqueued_linkUp, hup, decide_eq_true hlt]; rfl
      refine .of_next (hpass.trans ((if_neg (by omega)).trans (if_pos hgo))) ?_
      exact enqueue_unqueued s p rest _ _

end Sys2Proof.Machine
end

section
/-! SUPPORT. Time synchronisation (R389 to R391). -/
namespace Sys2Proof.Machine
open Sys2Proof

theorem State.setTsync_frame (s : State) (t : TsyncState) : (s.setTsync t).ts = s.ts ∧ (s.setTsync t).regs = s.regs := by
  have : Fact True := ⟨trivial⟩
  have hk := State.setTsync_keeps (M := fun p => match p with | .host | .mgl => True | _ => False) (t := t) (Keeps.refl s)
  exact ⟨hk.parts .ts id, hk.parts .regs id⟩

/-- The rate drawn for a slew is within its bound, whichever way θ points (R390). -/
theorem natAbs_slew_le (first : Bool) (drawn : Nat) (theta : Int) :
    (if first then (0 : Int) else if theta = 0 then 0 else if theta < 0 then -((drawn % 201 : Nat) : Int)
      else ((drawn % 201 : Nat) : Int)).natAbs ≤ 200 := by
  split
  · decide
  · split
    · decide
    · split <;> omega

/-- The state of the time synchronisation after an exchange (R391). -/
def nextSync (was st hops good : Nat) : Nat :=
  if decide (was = 0) then 1 else if decide (st = 2) && decide (hops + 1 ≤ 4) && decide (8 ≤ good) then 2 else if was = 3 then 3 else 1

/-- The counter as a reply leaves it: at the reply's arrival, stepped by the first exchange (R390). -/
def replied (s : State) (t4 : Nat) (theta : Int) : State :=
  let s := { s with ts := t4 / 16 }.freed
  if decide (s.mgl.tsync.st = 0) then { s with ts := stepTs s theta } else s

/-- An exchange shown: θ, its trace record, and the clock's lock to a master's (R398, R616). -/
def syncShown (s : State) (theta : Int) (next : Nat) : State :=
  let s := s.setFld R.mglTsyncStatus 16 16 (offsetField theta)
  let s := s.trace (queueXd (s.regFld R.mglTsyncCtl 16 4)) 14 0 (offsetField theta + 2 ^ 16 * next)
  if next = 2 ∧ s.regFld R.rstStraps 2 2 = 2 ∧ s.linkUp 0 then s.setFld R.clkStatus 7 1 1 else s

theorem syncShown_frame (s : State) (theta : Int) (next : Nat) :
    (syncShown s theta next).mgl = s.mgl ∧ (syncShown s theta next).ts = s.ts := by
  unfold syncShown
  extract_lets offset traced
  obtain ⟨hmgl, -, hts⟩ := State.trace_frame offset (queueXd (offset.regFld R.mglTsyncCtl 16 4)) 14 0
    (offsetField theta + 2 ^ 16 * next) false
  split
  · exact ⟨hmgl, hts⟩
  · exact ⟨hmgl, hts⟩

/-- A reply that is taken: the counter, the state of the synchronisation, and what shows it. -/
theorem exec_syncReply {s : State} {t1 t2 t3 t4 st hops : Nat} {x : LmcCheck} (ht1 : s.mgl.tsync.t1 = some t1)
    (hx : lmcTaken s (s.regFld R.mglTsyncCtl 16 4) 3 [t2, t3, st, hops] x = true) :
    let t4' := max t4 (16 * s.ts)
    let theta := thetaOf s t1 t2 t3 t4'
    let good := if theta.natAbs ≤ 24 then s.mgl.tsync.good + 1 else 0
    let rate : Nat := (s.freeVal 8).toNat % 201
    let ppm : Int := if theta = 0 then 0 else if theta < 0 then -(rate : Int) else rate
    let u := replied s t4' theta
    exec (.syncReply t2 t3 t4 st (hops, x)) s = .next (syncShown (u.setTsync { s.mgl.tsync with
      st := nextSync s.mgl.tsync.st st hops good
      hops := hops + 1
      good := good
      lastExchange := u.ts
      missed := 0
      t1 := none
      ppm := if decide (s.mgl.tsync.st = 0) then 0 else ppm }) theta (nextSync s.mgl.tsync.st st hops good)) := by
  intro t4' theta good rate ppm u
  show execSyncReply t2 t3 t4 st (hops, x) s = _
  unfold execSyncReply
  dsimp only
  rw [if_pos hx, ht1]
  exact (apply_ite Host.Outcome.next _ _ _).symm

/-- A request that is taken is answered with its stamps and with what this device shows. -/
theorem exec_syncReq {s : State} {p : Nat} {x : LmcCheck} (hup : s.linkUp p = true) (hx : lmcTaken s p 2 [] x = true) :
    exec (.syncReq (p, x)) s = .next (s.freed.freed.sendLmc p 3 [16 * s.ts + (s.freeVal 4).toNat,
      16 * s.ts + (s.freeVal 4).toNat + (s.freed.freeVal 16).toNat, s.tsyncShown.1, s.tsyncShown.2]) := by
  have hgo : ¬(s.linkUp p = false ∨ (!lmcTaken s p 2 [] x) = true) := by simp [hup, hx]
  exact if_neg hgo

theorem replied_ts (s : State) (t4 : Nat) (theta : Int) : (replied s t4 theta).ts =
    if s.mgl.tsync.st = 0 then stepTs { s with ts := t4 / 16 } theta else t4 / 16 := by
  by_cases h : s.mgl.tsync.st = 0
  · exact (congrArg State.ts (if_pos (decide_eq_true h))).trans (if_pos h).symm
  · exact (congrArg State.ts (if_neg (ne_true_of_eq_false (decide_eq_false h)))).trans (if_neg h).symm

/-- Settles O20: an exchange that goes out and one that comes in are its message and its stamps; a reply leaves what
`exec_syncReply` says, and the timeouts are the two guards. -/
theorem timeSynchronisationCompletes : Obligations.TimeSynchronisationCompletes := by
  refine ⟨fun s hslave => ?exchange, fun s p x hup hx => ?request, fun s t1 t2 t3 t4 st hops x ht1 hx => ?reply,
    fun s hslave hst => ?timeout⟩
  case exchange =>
    have hgo : ¬s.regFld R.mglTsyncCtl 31 1 = 1 := by omega
    refine ⟨fun hup => .of_next ((if_neg hgo).trans (if_neg (by simp [hup]))) ⟨rfl, (s.freeVal 4).toNat, (s.freeVal 4).isLt, rfl⟩,
      fun hdown => .of_next ((if_neg hgo).trans (if_pos hdown)) ?_⟩
    simp [hdown]
  case request =>
    exact .of_next (exec_syncReq hup hx) ⟨16 * s.ts + (s.freeVal 4).toNat,
      16 * s.ts + (s.freeVal 4).toNat + (s.freed.freeVal 16).toNat, Nat.le_add_right _ _, Nat.le_add_right _ _, rfl⟩
  case reply =>
    refine .of_next (exec_syncReply ht1 hx) ?_
    obtain ⟨hmgl, hts⟩ := syncShown_frame ((replied s (max t4 (16 * s.ts)) _).setTsync _) _ _
    rw [hmgl, hts, State.setTsync_tsync, (State.setTsync_frame _ _).1, replied_ts]
    refine ⟨rfl, rfl, rfl, rfl, rfl, rfl, ?_, ?_⟩
    · exact natAbs_slew_le _ _ _
    · simp only [nextSync, decide_eq_true_eq, Bool.and_eq_true, and_assoc]
  case timeout =>
    have hgo : ¬(s.regFld R.mglTsyncCtl 31 1 = 1 ∨ s.mgl.tsync.st = 0) := by omega
    refine ⟨fun hlate => .of_next ((if_neg hgo).trans (if_pos hlate)) ?_,
      fun hsoon hmissed => .of_next ((if_neg hgo).trans ((if_neg (Nat.not_le.mpr hsoon)).trans (if_pos hmissed))) ?_⟩
    · rw [State.setTsync_tsync]
      exact ⟨rfl, rfl⟩
    · rw [State.setTsync_tsync]
      exact ⟨rfl, rfl⟩

end Sys2Proof.Machine
end

section
/-! SUPPORT. Contexts, rings and counters: what their shared operations leave (chapters 13 and 17). -/
namespace Sys2Proof.Machine
open Sys2Proof

/-! Tables. -/

/-- A value changed at a key is read there changed, and every other key reads as before. -/
theorem Tbl.get?_modify {α : Type} (t : Tbl α) (i j : Nat) (f : α → α) :
    Tbl.get? (Tbl.modify t i f) j = if j = i then (Tbl.get? t j).map f else Tbl.get? t j := by
  induction t with
  | nil => split <;> rfl
  | cons a t ih =>
    obtain ⟨k, v⟩ := a
    have hcons : Tbl.modify ((k, v) :: t) i f = (k, if k = i then f v else v) :: Tbl.modify t i f := by
      simp only [Tbl.modify, List.map_cons]
      split <;> rfl
    rw [hcons]
    simp only [Tbl.get?]
    rw [ih]
    split
    next hk => subst hk; split <;> simp_all
    next => split
            · split <;> rfl
            · rfl

/-! Contexts. -/

@[simp] theorem State.ctx?_setCtx_self (s : State) (c : Nat) (x : Context) : (s.setCtx c x).ctx? c = some x := by
  simp [State.ctx?, State.setCtx]

theorem State.ctx?_setCtx_ne (s : State) {c d : Nat} (x : Context) (h : d ≠ c) : (s.setCtx c x).ctx? d = s.ctx? d := by
  simp only [State.ctx?, State.setCtx, Tbl.get?_set_ne _ _ h]
  rfl

theorem State.ctx?_congr {s t : State} (h : t.host = s.host) (c : Nat) : t.ctx? c = s.ctx? c := by
  have hexists : ∀ p f, funcExists t p f = funcExists s p f := fun p f => by rw [funcExists, funcExists, h]
  simp only [State.ctx?, h, hexists]

theorem State.ring?_congr {s t : State} (h : t.host = s.host) (c r : Nat) : t.ring? c r = s.ring? c r := by
  rw [State.ring?, State.ring?, State.ctx?_congr h]

theorem State.modCtx_of {s : State} {c : Nat} {x : Context} (h : s.ctx? c = some x) (f : Context → Context) :
    s.modCtx c f = s.setCtx c (f x) := by rw [State.modCtx, h]

theorem State.modCtx_of_none {s : State} {c : Nat} (h : s.ctx? c = none) (f : Context → Context) : s.modCtx c f = s := by
  rw [State.modCtx, h]

/-- A context changed is read changed, and the others as before. -/
theorem State.ctx?_modCtx (s : State) (c d : Nat) (f : Context → Context) :
    (s.modCtx c f).ctx? d = if d = c then (s.ctx? d).map f else s.ctx? d := by
  cases h : s.ctx? c with
  | none =>
    rw [State.modCtx_of_none h]
    split
    next heq => rw [heq, h]; rfl
    next => rfl
  | some x =>
    rw [State.modCtx_of h]
    split
    next heq => rw [heq, h, State.ctx?_setCtx_self]; rfl
    next hne => exact State.ctx?_setCtx_ne s _ hne

/-- A ring changed is read changed, and every other ring as before. -/
theorem State.ring?_modRing (s : State) (c r d q : Nat) (f : Ring → Ring) :
    (s.modRing c r f).ring? d q = if d = c ∧ q = r then (s.ring? d q).map f else s.ring? d q := by
  rw [State.ring?, State.modRing, State.ctx?_modCtx, State.ring?]
  by_cases hd : d = c
  · rw [if_pos hd]
    cases s.ctx? d with
    | none => simp
    | some x =>
      simp only [Option.map_some, Option.bind_some, Tbl.get?_modify, hd, true_and]
  · rw [if_neg hd, if_neg (fun h => hd h.1)]

/-! What ring operations reach: contexts, and what leaves the device. -/

/-- The second state is the first but for its contexts and its output. -/
def ringsOnly (s t : State) : Prop :=
  t = { s with host := { s.host with contexts := t.host.contexts, out := t.host.out } }

theorem ringsOnly_refl (s : State) : ringsOnly s s := rfl

theorem ringsOnly_trans {s t u : State} (h : ringsOnly s t) (k : ringsOnly t u) : ringsOnly s u := by
  unfold ringsOnly at *
  rw [k]
  dsimp only
  rw [h]

theorem ringsOnly_parts {s t : State} (h : ringsOnly s t) : t.regs = s.regs ∧ t.wst = s.wst ∧ t.ump = s.ump ∧ t.ref = s.ref ∧
    t.host.owner = s.host.owner := by
  rw [h]
  exact ⟨rfl, rfl, rfl, rfl, rfl⟩

theorem State.emit_ringsOnly (s : State) (o : Output) : ringsOnly s (s.emit o) := rfl

theorem State.modCtx_ringsOnly (s : State) (c : Nat) (f : Context → Context) : ringsOnly s (s.modCtx c f) := by
  unfold State.modCtx
  split <;> rfl

theorem State.modRing_ringsOnly (s : State) (c r : Nat) (f : Ring → Ring) : ringsOnly s (s.modRing c r f) :=
  State.modCtx_ringsOnly s c _

theorem State.writeback_ringsOnly (s : State) (c r : Nat) : ringsOnly s (s.writeback c r) := by
  unfold State.writeback
  split
  · extract_lets idx lost told
    have htold : ringsOnly s told := State.emit_ringsOnly s _
    split
    · exact ringsOnly_trans (ringsOnly_trans htold (State.modRing_ringsOnly _ _ _ _)) (State.emit_ringsOnly _ _)
    · exact htold
  · rfl

theorem State.produce_ringsOnly (s : State) (c r v : Nat) : ringsOnly s (s.produce c r v) := by
  unfold State.produce
  split
  · exact ringsOnly_trans (ringsOnly_trans (State.emit_ringsOnly s _) (State.modRing_ringsOnly _ _ _ _))
      (State.writeback_ringsOnly _ _ _)
  · rfl

/-! Contexts under ring operations: their record stays but for its rings. -/

/-- A context of the second state is one of the first, its rings apart. -/
def sameContexts (s t : State) : Prop := ∀ c, ∃ f : Tbl Ring → Tbl Ring, t.ctx? c = (s.ctx? c).map (fun x => { x with rings := f x.rings })

theorem sameContexts_refl (s : State) : sameContexts s s := fun c => ⟨id, by cases s.ctx? c <;> rfl⟩

theorem sameContexts_trans {s t u : State} (h : sameContexts s t) (k : sameContexts t u) : sameContexts s u := by
  intro c
  obtain ⟨f, hf⟩ := h c
  obtain ⟨g, hg⟩ := k c
  exact ⟨fun r => g (f r), by rw [hg, hf]; cases s.ctx? c <;> rfl⟩

theorem sameContexts_of_host {s t : State} (h : t.host = s.host) : sameContexts s t :=
  fun c => ⟨id, by rw [State.ctx?_congr h]; cases s.ctx? c <;> rfl⟩

theorem State.modRing_sameContexts (s : State) (c r : Nat) (f : Ring → Ring) : sameContexts s (s.modRing c r f) := by
  intro d
  rw [State.modRing, State.ctx?_modCtx]
  split
  · exact ⟨fun t => Tbl.modify t r f, rfl⟩
  · exact ⟨id, by cases s.ctx? d <;> rfl⟩

theorem State.emit_sameContexts (s : State) (o : Output) : sameContexts s (s.emit o) := sameContexts_refl s

theorem State.writeback_sameContexts (s : State) (c r : Nat) : sameContexts s (s.writeback c r) := by
  unfold State.writeback
  split
  · extract_lets idx lost told
    have htold : sameContexts s told := sameContexts_refl s
    split
    · exact sameContexts_trans htold (State.modRing_sameContexts told _ _ _)
    · exact htold
  · exact sameContexts_refl s

/-! Counters. -/

/-- A counted event writes no register but the configuration of a counter of its block. -/
theorem State.count_regAt {s : State} (hw : RegsWf s.regs) {b : Nat} (cls event n : Nat) (c : Counted) {key : Nat}
    (hkey : ∀ i < 8, key ≠ R.pmuCfg b i) :
    (s.count b cls event n c).regAt key = s.regAt key ∧ RegsWf (s.count b cls event n c).regs := by
  have hadd : ∀ (t : State) (i : Nat), i < 8 → RegsWf t.regs →
      (t.addCounter b i n).regAt key = t.regAt key ∧ RegsWf (t.addCounter b i n).regs := by
    intro t i hi ht
    unfold State.addCounter
    dsimp only
    split
    · exact ⟨State.regAt_setFld_ne (s := { t with scb := _ }) ht _ _ _ (hkey i hi), State.setFld_wf (s := { t with scb := _ }) ht _ _ _ _⟩
    · exact ⟨rfl, ht⟩
  have hsets : ∀ t : State, (countSets t cls event n c).regs = t.regs := by
    intro t
    unfold countSets
    split <;> rfl
  have hfold : ∀ (is : List Nat) (t : State), (∀ i ∈ is, i < 8) → RegsWf t.regs →
      let u := is.foldl (fun s i => if wordFld (s.regAt (R.pmuCfg b i)) 16 4 = cls ∧ wordFld (s.regAt (R.pmuCfg b i)) 8 8 = event ∧
        pmuPasses s b i c then s.addCounter b i n else s) t
      u.regAt key = t.regAt key ∧ RegsWf u.regs := by
    intro is
    induction is with
    | nil => exact fun t _ ht => ⟨rfl, ht⟩
    | cons i is ih =>
      intro t his ht
      rw [List.foldl_cons]
      split
      · obtain ⟨hreg, hwf⟩ := hadd t i (his i List.mem_cons_self) ht
        obtain ⟨hreg', hwf'⟩ := ih _ (fun j hj => his j (List.mem_cons_of_mem _ hj)) hwf
        exact ⟨hreg'.trans hreg, hwf'⟩
      · exact ih _ (fun j hj => his j (List.mem_cons_of_mem _ hj)) ht
  obtain ⟨hreg, hwf⟩ := hfold (List.range 8) s (fun i hi => List.mem_range.mp hi) hw
  unfold State.count
  exact ⟨(State.regAt_congr (hsets _) key).trans hreg, (hsets _).symm ▸ hwf⟩

end Sys2Proof.Machine
end

section
/-! SUPPORT. Doorbells (R454, R613). -/
namespace Sys2Proof.Machine
open Sys2Proof

/-- A resume from half-time leaves the host interface alone. -/
theorem State.powerResume_host {s : State} (h : s.pwr.state ≠ .standby) : s.powerResume.host = s.host := by
  unfold State.powerResume
  extract_lets bench limit start freed x pwr ump asked waiting
  have hb : ¬bench = true := by simpa [bench] using h
  rw [if_neg hb]
  rfl

/-- A device in half-time that a doorbell wakes (R613). -/
def woken (s : State) : State :=
  if s.pwr.state = .idle ∧ s.pwr.request = none ∧ s.regFld R.pwrCtl 2 1 = 1 then s.requestPower .active else s

/-- Its waking leaves the host interface alone. -/
theorem woken_host {s : State} (hrun : s.pwr.phase = .running) : (woken s).host = s.host := by
  unfold woken
  split
  next h =>
    obtain ⟨hidle, hreq, -⟩ := h
    have hst : s.pwr.state ≠ .active := by simp [hidle]
    have hbench : (s.setFld R.pwrCtl 0 2 0).pwr.state ≠ .standby := by simp [hidle]
    rw [State.requestPower_active hrun hreq hst, State.powerResume_host hbench]
    rfl
  next => rfl

/-- A ring with its index moved, and the doorbell counted. -/
def rung (s : State) (p : Port) (c r : Nat) (q : Ring) : State :=
  (s.modRing c r (fun _ => q)).count (queueHd p) 8 2 1 { ctx := c, unit := 0 }

/-- The doorbell page's ring, as the doorbell's value leaves it. -/
theorem exec_doorbellWrite {s : State} {p : Port} {func page off n v c : Nat} (hrun : s.pwr.phase = .running)
    (hc : pageOwner s p func page = some c) : exec (.doorbellWrite p func page off n v) s =
      if n ≠ 4 ∨ off % 8 ≠ 0 ∨ 0x78 < off then .next (s.bump (portKey p R.hubDbErr))
      else ((s.ring? c (off / 8)).bind (fun r => ringDoorbell r (v % 2 ^ 32))).elim (.next (s.bump (portKey p R.hubDbErr)))
        (fun r => .next (woken (rung s p c (off / 8) r))) := by
  have hbooted : ¬s.booted = false := by rw [State.booted_of_running hrun]; decide
  refine (if_neg hbooted).trans ?_
  rw [hc]
  refine ite_congr rfl (fun _ => rfl) fun _ => ?_
  cases (s.ring? c (off / 8)).bind (fun r => ringDoorbell r (v % 2 ^ 32)) with
  | none => rfl
  | some r => rfl

theorem State.modRing_out (s : State) (c r : Nat) (f : Ring → Ring) : (s.modRing c r f).host.out = s.host.out := by
  unfold State.modRing State.modCtx
  split <;> rfl

/-- The doorbell leaves the host interface as the ring's move does. -/
theorem woken_rung_host {s : State} (hrun : s.pwr.phase = .running) (p : Port) (c r : Nat) (q : Ring) :
    (woken (rung s p c r q)).host = (s.modRing c r (fun _ => q)).host := by
  have : Fact True := ⟨trivial⟩
  have hpwr : (rung s p c r q).pwr = s.pwr :=
    (State.count_keeps (M := fun p => match p with | .regs | .scb | .host => True | _ => False)
      (State.modRing_keeps (Keeps.refl s))).parts .pwr id
  rw [woken_host (by rw [hpwr]; exact hrun)]
  exact (State.count_frame _ _ _ _ _ _).2.1

/-- Settles O21: the ring that the page and the offset name moves, or the error counter does. -/
theorem doorbellsComplete : Obligations.DoorbellsComplete := by
  refine ⟨fun s p func page c r v x ring q hrun hc hx hwf hring hr hv hq => ?moves,
    fun s p func page off n v c hrun hc hbad => ?refused⟩
  case moves =>
    have hctx : s.ctx? c = some x := by rw [State.ctx?, hx]
    have hold : s.ring? c r = some ring := by rw [State.ring?, hctx]; exact hring
    have hgood : ¬((4 : Nat) ≠ 4 ∨ 8 * r % 8 ≠ 0 ∨ 0x78 < 8 * r) := by omega
    have hexec := exec_doorbellWrite (off := 8 * r) (n := 4) (v := v) hrun hc
    rw [if_neg hgood, Nat.mul_div_cancel_left r (by decide), Nat.mod_eq_of_lt hv, hold, Option.bind_some, hq] at hexec
    refine .of_next hexec ?_
    have hhost := woken_rung_host hrun p c r q
    refine ⟨?_, fun j hj => ?_, ?_⟩
    · rw [State.ring?_congr hhost, State.ring?_modRing, if_pos ⟨rfl, rfl⟩, hold]; rfl
    · rw [State.ring?_congr hhost, State.ring?_modRing, if_neg (fun h => hj h.2)]
    · rw [hhost]
      exact State.modRing_out s c r _
  case refused =>
    refine .of_next ((exec_doorbellWrite hrun hc).trans ?_) rfl
    split
    · rfl
    next hgood =>
      rcases hbad with h | h | h | h
      · exact absurd (Or.inl h) hgood
      · exact absurd (Or.inr (Or.inl h)) hgood
      · exact absurd (Or.inr (Or.inr h)) hgood
      · rw [h]; rfl

end Sys2Proof.Machine
end

section
/-! SUPPORT. Descriptors accepted from a ring (R442, R456, R459). -/
namespace Sys2Proof.Machine
open Sys2Proof

/-! What the end of a descriptor leaves of the numbering. -/

theorem State.modPort_nextDid (s : State) (p : Port) (f : PortState → PortState) : (s.modPort p f).host.nextDid = s.host.nextDid := by
  cases p <;> rfl

theorem ringsOnly_nextDid {s t : State} (h : ringsOnly s t) : t.host.nextDid = s.host.nextDid := by rw [h]

theorem ringsOnly_accepted {s t : State} (h : ringsOnly s t) : t.host.accepted = s.host.accepted := by rw [h]

theorem State.complete_nextDid (s : State) (did st flags extra engine : Nat) :
    (s.complete did st flags extra engine).host.nextDid = s.host.nextDid := by
  unfold State.complete
  split
  · rfl
  next a ha =>
    extract_lets dropped sq port entry used written counted
    have hdropped : dropped.host.nextDid = s.host.nextDid := State.modPort_nextDid s _ _
    clear_value dropped
    split
    · exact hdropped
    next ring hring =>
      have hused := ringsOnly_nextDid (State.modRing_ringsOnly dropped a.ctx a.pair (fun x => { x with reserved := x.reserved - 1 }))
      have hwritten := ringsOnly_nextDid (State.produce_ringsOnly used a.ctx a.pair entry.toNat)
      have hcounted : counted.host = written.host := (State.count_frame _ _ _ _ _ _).2.1
      rw [(State.trace_frame _ _ _ _ _ _).2.1, hcounted]
      exact hwritten.trans (hused.trans hdropped)

theorem State.finish_nextDid (s : State) (did st flags extra engine : Nat) :
    (s.finish did st flags extra engine).host.nextDid = s.host.nextDid := by
  unfold State.finish
  split
  · rfl
  · split
    · rfl
    · exact State.complete_nextDid _ _ _ _ _ _

/-! The acceptance. -/

/-- The descriptor as it joins the accepted ones. -/
def acceptedAs (s : State) (c r pair : Nat) (d : Desc) : Accepted :=
  { did := s.host.nextDid, ctx := c, ring := r, desc := d, slots := namedSlots s c d, slotsOk := slotsFree s c d, readTs := s.ts,
    begun := false, pair := pair, pasid := (s.ring? c r).bind Ring.tlpPasid }

theorem State.accept_left (s : State) (c r pair : Nat) (d : Desc) :
    (s.accept c r pair d).host.nextDid = s.host.nextDid + 1 ∧
    (s.accept c r pair d).host.accepted = s.host.accepted ++ [acceptedAs s c r pair d] := by
  have hrings := ringsOnly_trans (State.modRing_ringsOnly s c r (fun q => { q with c := wrap32 (q.c + 1) }))
    (State.modRing_ringsOnly _ c pair (fun q => { q with reserved := q.reserved + 1 }))
  exact ⟨congrArg (· + 1) (ringsOnly_nextDid hrings), congrArg (· ++ [acceptedAs s c r pair d]) (ringsOnly_accepted hrings)⟩

/-- The state once a descriptor is accepted, its ring's index written back, and the acceptance counted and traced. -/
def descriptorTaken (s : State) (c r : Nat) (x : Context) (q : Ring) (d : Desc) : State :=
  let s := (s.accept c r q.pair d).writeback c r
  let s := s.count (queueHd x.port) 8 3 1 { ctx := c, unit := 0, isSealed := descSealed d }
  s.trace (queueHd x.port) 6 c (fld d 4 0 32 + 2 ^ 32 * r + 2 ^ 36 * fld d 0 0 8) (descSealed d)

/-- A descriptor read is accepted, and ends at once where steps 1 to 3 of R459 turn it away. -/
theorem exec_descriptorAccept {s : State} {c r : Nat} {x : Context} {q : Ring} {d : Desc} (h : mayRead s c r = some (x, q))
    (hbar : fld d 1 0 1 = 1 → s.host.accepted.any (fun a => a.ctx == c && a.ring == r) = false) :
    exec (.descriptorAccept c r (.ok d)) s = .next ((headerStatus (descriptorTaken s c r x q d) c x q.kind d).elim
      (descriptorTaken s c r x q d) (fun st => (descriptorTaken s c r x q d).finish s.host.nextDid st)) := by
  have hgo : ¬(fld d 1 0 1 = 1 ∧ s.host.accepted.any (fun a => a.ctx == c && a.ring == r) = true) := fun hb =>
    absurd ((hbar hb.1).symm.trans hb.2) (by decide)
  show execDescriptorAccept c r (.ok d) s = _
  unfold execDescriptorAccept
  rw [h]
  refine (if_neg hgo).trans ?_
  show (match headerStatus (descriptorTaken s c r x q d) c x q.kind d with | some st => _ | none => _) = _
  cases headerStatus (descriptorTaken s c r x q d) c x q.kind d with
  | none => rfl
  | some st => rfl

theorem descriptorTaken_left (s : State) (c r : Nat) (x : Context) (q : Ring) (d : Desc) :
    (descriptorTaken s c r x q d).host.nextDid = s.host.nextDid + 1 ∧
    (descriptorTaken s c r x q d).host.accepted = s.host.accepted ++ [acceptedAs s c r q.pair d] := by
  obtain ⟨hdid, hacc⟩ := State.accept_left s c r q.pair d
  have hback := State.writeback_ringsOnly (s.accept c r q.pair d) c r
  unfold descriptorTaken
  dsimp only
  rw [(State.trace_frame _ _ _ _ _ _).2.1, (State.count_frame _ _ _ _ _ _).2.1]
  exact ⟨(ringsOnly_nextDid hback).trans hdid, (ringsOnly_accepted hback).trans hacc⟩

/-! Steps 1 to 3 of R459 read none of it. -/

theorem State.classOf_congr {s t : State} (hwst : t.wst = s.wst) (hump : t.ump = s.ump) (epoch cls : Nat) :
    t.classOf epoch cls = s.classOf epoch cls := by
  have hbank : ∀ b, t.bank b = s.bank b := fun b => by rw [State.bank, State.bank, hwst]
  simp only [State.classOf, State.bankOfEpoch, State.imageOf, hbank, hump]

theorem State.programOf_congr {s t : State} (hwst : t.wst = s.wst) (hump : t.ump = s.ump) (n : Nat) :
    t.programOf n = s.programOf n := by
  have hbank : ∀ b, t.bank b = s.bank b := fun b => by rw [State.bank, State.bank, hwst]
  simp only [State.programOf, State.activeBank, State.imageOf, hbank, hump]

theorem State.mayRun_congr {s t : State} (href : t.ref = s.ref) (hctx : sameContexts s t) (c : Nat) (i : Image) :
    t.mayRun c i = s.mayRun c i := by
  obtain ⟨f, hf⟩ := hctx c
  unfold State.mayRun
  rw [hf, href]
  cases s.ctx? c <;> rfl

theorem mayIssue_congr {s t : State} (hreg : t.regFld R.wstLoadCtl 2 3 = s.regFld R.wstLoadCtl 2 3)
    (howner : t.host.owner = s.host.owner) (hwst : t.wst = s.wst) (hump : t.ump = s.ump) (href : t.ref = s.ref)
    (hctx : sameContexts s t) (c : Nat) (x : Context) (d : Desc) : mayIssue t c x d = mayIssue s c x d := by
  have hnames : ∀ p, sourceNames t p = sourceNames s p := fun p => by rw [sourceNames, sourceNames, hreg]
  unfold mayIssue
  simp only [hnames, howner, State.classOf_congr hwst hump, State.programOf_congr hwst hump, State.mayRun_congr href hctx]

theorem headerStatus_congr {s t : State} {c : Nat} {x : Context} {d : Desc} (h : mayIssue t c x d = mayIssue s c x d)
    (kind : RingKind) : headerStatus t c x kind d = headerStatus s c x kind d := by
  rw [headerStatus, headerStatus, h]

theorem wstLoadCtl_ne_pmuCfg (p : Port) (i : Nat) : R.wstLoadCtl ≠ R.pmuCfg (queueHd p) i := by
  unfold R.wstLoadCtl R.pmuCfg
  omega

/-- The acceptance changes rings, the numbering, the counters and the trace. -/
theorem headerStatus_descriptorTaken {s : State} (hinv : s.Inv) {c r : Nat} {x : Context} {q : Ring} {d : Desc} :
    headerStatus (descriptorTaken s c r x q d) c x q.kind d = headerStatus s c x q.kind d := by
  have : Fact True := ⟨trivial⟩
  have hused := State.modRing_ringsOnly s c r (fun q => { q with c := wrap32 (q.c + 1) })
  have hacc : sameContexts s (s.accept c r q.pair d) :=
    sameContexts_trans (State.modRing_sameContexts s c r _) (State.modRing_sameContexts _ c q.pair _)
  have hback : sameContexts s ((s.accept c r q.pair d).writeback c r) :=
    sameContexts_trans hacc (State.writeback_sameContexts _ c r)
  have hrings : ringsOnly s ((s.modRing c r (fun q => { q with c := wrap32 (q.c + 1) })).modRing c q.pair
      (fun q => { q with reserved := q.reserved + 1 })) :=
    ringsOnly_trans hused (State.modRing_ringsOnly _ c q.pair _)
  have hwritten := State.writeback_ringsOnly (s.accept c r q.pair d) c r
  obtain ⟨hregs₁, hwst₁, hump₁, href₁, howner₁⟩ := ringsOnly_parts hrings
  obtain ⟨hregs, hwst, hump, href, howner⟩ := ringsOnly_parts hwritten
  unfold descriptorTaken
  extract_lets written counted
  replace hregs : written.regs = s.regs := hregs.trans hregs₁
  replace hwst : written.wst = s.wst := hwst.trans hwst₁
  replace hump : written.ump = s.ump := hump.trans hump₁
  replace href : written.ref = s.ref := href.trans href₁
  replace howner : written.host.owner = s.host.owner := howner.trans howner₁
  have hback' : sameContexts s written := hback
  clear_value written
  have hcount := State.count_keeps (M := fun p => match p with | .regs | .scb => True | _ => False) (b := queueHd x.port) (cls := 8)
    (event := 3) (n := 1) (c := { ctx := c, unit := 0, isSealed := descSealed d }) (Keeps.refl written)
  have hreg : counted.regAt R.wstLoadCtl = written.regAt R.wstLoadCtl :=
    (State.count_regAt (hregs ▸ hinv.2) 8 3 1 _ fun i _ => wstLoadCtl_ne_pmuCfg x.port i).1
  have htrace := State.trace_keeps (M := fun p => match p with | .free | .scb => True | _ => False) (n := queueHd x.port) (kind := 6)
    (ctx := c) (data := fld d 4 0 32 + 2 ^ 32 * r + 2 ^ 36 * fld d 0 0 8) (isSealed := descSealed d) (Keeps.refl counted)
  refine headerStatus_congr (mayIssue_congr ?_ ?_ ?_ ?_ ?_ ?_ c x d) _
  · rw [State.regFld_congr (State.trace_regs ..), State.regFld, hreg, State.regAt_congr hregs, State.regFld]
  · exact (congrArg HostState.owner ((htrace.parts .host id).trans (hcount.parts .host id))).trans howner
  · exact (htrace.parts .wst id).trans ((hcount.parts .wst id).trans hwst)
  · exact (htrace.parts .ump id).trans ((hcount.parts .ump id).trans hump)
  · exact (htrace.parts .ref id).trans ((hcount.parts .ref id).trans href)
  · exact sameContexts_trans hback' (sameContexts_of_host ((htrace.parts .host id).trans (hcount.parts .host id)))

/-- An ADAPTER or practice descriptor whose header is good passes steps 1 to 3, whoever issues it. -/
theorem headerStatus_none {s : State} {c : Nat} {x : Context} {kind : RingKind} {d : Desc} (hres : fld d 1 1 7 = 0)
    (hring : opcodeRing (fld d 0 0 8) = some kind) (hctx : fld d 2 0 16 = c) (hzero : fld d 12 0 32 = 0) (hcount : fld d 8 0 32 ≠ 0)
    (hop : [0x30, 0x31, 0x32, 0x42, 0x43].contains (fld d 0 0 8) = true) : headerStatus s c x kind d = none := by
  have hissue : mayIssue s c x d = true := by
    simp only [List.contains_eq_mem, List.mem_cons, List.not_mem_nil, or_false, decide_eq_true_eq] at hop
    unfold mayIssue
    rcases hop with h | h | h | h | h <;> rw [h] <;> rfl
  simp [headerStatus, hres, hring, hctx, hzero, hcount, hissue]

/-- Settles O22: what is accepted stands at the end of the accepted ones, and R459's first steps read none of it. -/
theorem descriptorAcceptCompletes : Obligations.DescriptorAcceptCompletes := by
  refine ⟨fun s c r x q d h hbar => ⟨?number, fun hinv hst => ?waits, fun hres hring hctx hzero hcount hop => ?free⟩,
    fun s c r x q d h hb hany => ?barrier, fun s c r x q h => ?failed⟩
  case number =>
    refine .of_next (exec_descriptorAccept h hbar) ?_
    have hdid := (descriptorTaken_left s c r x q d).1
    cases headerStatus (descriptorTaken s c r x q d) c x q.kind d with
    | none => exact hdid
    | some st => exact (State.finish_nextDid _ _ _ _ _ _).trans hdid
  case waits =>
    refine .of_next (exec_descriptorAccept h hbar) ?_
    rw [headerStatus_descriptorTaken hinv, hst]
    refine ⟨acceptedAs s c r q.pair d, ?_, rfl, rfl, rfl, rfl, rfl, rfl, rfl⟩
    exact (descriptorTaken_left s c r x q d).2 ▸ List.mem_append_right _ (List.mem_singleton_self _)
  case free =>
    refine .of_next (exec_descriptorAccept h hbar) ?_
    rw [headerStatus_none hres hring hctx hzero hcount hop]
    refine ⟨acceptedAs s c r q.pair d, ?_, rfl, rfl, rfl, rfl, rfl, rfl, rfl⟩
    exact (descriptorTaken_left s c r x q d).2 ▸ List.mem_append_right _ (List.mem_singleton_self _)
  case barrier =>
    refine .of_next ?_ rfl
    show execDescriptorAccept c r (.ok d) s = _
    unfold execDescriptorAccept
    rw [h]
    exact if_pos ⟨hb, hany⟩
  case failed =>
    refine .of_next ?_ rfl
    show execDescriptorAccept c r .failed s = _
    unfold execDescriptorAccept
    rw [h]

end Sys2Proof.Machine
end

section
/-! SUPPORT. Which registers the memory system writes: its two counts and the counters' configurations (chapters 14, 17). -/
namespace Sys2Proof.Machine
open Sys2Proof

/-- The second state's table is canonical where the first's is, and a register reads the same in both. -/
def keepsReg (key : Nat) (s t : State) : Prop := RegsWf s.regs → t.regAt key = s.regAt key ∧ RegsWf t.regs

theorem keepsReg_refl (key : Nat) (s : State) : keepsReg key s s := fun h => ⟨rfl, h⟩

theorem keepsReg_trans {key : Nat} {s t u : State} (h : keepsReg key s t) (k : keepsReg key t u) : keepsReg key s u := by
  intro hw
  obtain ⟨hreg, hwf⟩ := h hw
  obtain ⟨hreg', hwf'⟩ := k hwf
  exact ⟨hreg'.trans hreg, hwf'⟩

theorem keepsReg_of_regs {key : Nat} {s t : State} (h : t.regs = s.regs) : keepsReg key s t :=
  fun hw => ⟨State.regAt_congr h key, h ▸ hw⟩

theorem keepsReg_foldl {α : Type} {key : Nat} {f : State → α → State} (hf : ∀ t x, keepsReg key t (f t x)) (l : List α) (s : State) :
    keepsReg key s (l.foldl f s) := by
  induction l generalizing s with
  | nil => exact keepsReg_refl key s
  | cons x l ih => exact keepsReg_trans (hf s x) (ih _)

theorem State.setReg_keepsReg (s : State) {key k : Nat} (v : Word) (h : key ≠ k) : keepsReg key s (s.setReg k v) :=
  fun hw => ⟨State.regAt_setReg_ne v hw.1 h, State.setReg_wf hw k v⟩

theorem State.bump_keepsReg (s : State) {key k : Nat} (n : Nat) (h : key ≠ k) : keepsReg key s (s.bump k n) :=
  State.setReg_keepsReg s _ h

/-- A register that neither the memory system's counts nor the counters' configurations are. -/
def plainKey (key : Nat) : Prop := key ≠ R.memMismatch ∧ key ≠ R.memAccViol ∧ ∀ b i, key ≠ R.pmuCfg b i

theorem State.count_keepsReg (s : State) (b cls event n : Nat) (c : Counted) {key : Nat} (h : plainKey key) :
    keepsReg key s (s.count b cls event n c) := fun hw => State.count_regAt hw cls event n c fun i _ => h.2.2 b i

theorem State.countUnits_keepsReg (s : State) (b cls event a n g : Nat) (c : Counted) {key : Nat} (h : plainKey key) :
    keepsReg key s (s.countUnits b cls event a n g c) := by
  unfold State.countUnits
  split
  · exact keepsReg_refl key s
  · exact keepsReg_foldl (fun t i => State.count_keepsReg t _ _ _ _ _ h) _ s

theorem State.countLines_keepsReg (s : State) (event : Nat) (ls : List Nat) (c : Counted) {key : Nat} (h : plainKey key) :
    keepsReg key s (s.countLines event ls c) := by
  unfold State.countLines
  extract_lets blockOf
  have hfold : ∀ (ls : List Nat) (z : State × Option Nat), keepsReg key z.1 (ls.foldl (fun (acc : State × Option Nat) l =>
      let s := acc.1.count (20 + channelOf (l / 1024) / 32) 5 event 1 { c with addr := some (64 * l) }
      if acc.2 = some (blockOf l) then (s, acc.2)
      else (s.freed.count (20 + channelOf (l / 1024) / 32) 5 2 (s.freeVal 1).toNat { c with addr := some (64 * l) },
        some (blockOf l))) z).1 := by
    intro ls
    induction ls with
    | nil => exact fun z => keepsReg_refl key z.1
    | cons l ls ih =>
      intro z
      rw [List.foldl_cons]
      refine keepsReg_trans ?_ (ih _)
      extract_lets counted
      have hcounted : keepsReg key z.1 counted := State.count_keepsReg z.1 _ _ _ _ _ h
      split
      · exact hcounted
      · exact keepsReg_trans hcounted (State.count_keepsReg counted.freed _ _ _ _ _ h)
  exact hfold ls (s, none)

theorem State.opEvent_regs (s : State) (e : Rec32) : (s.opEvent e).regs = s.regs :=
  have : Fact True := ⟨trivial⟩
  (State.opEvent_keeps (M := fun p => match p with | .host => True | _ => False) (Keeps.refl s)).parts .regs id

theorem State.scrubPage_keepsReg (s : State) (page : Nat) {key : Nat} (h : plainKey key) : keepsReg key s (s.scrubPage page) := by
  unfold State.scrubPage
  extract_lets zeroed jobs mem noted
  have hcounted : keepsReg key s (s.countScrub page) := State.countUnits_keepsReg s _ _ _ _ _ _ _ h
  have hzeroed : keepsReg key s zeroed :=
    keepsReg_trans hcounted (keepsReg_of_regs (rfl : (s.zeroPages [page]).regs = (s.countScrub page).regs))
  have hnoted : keepsReg key s noted := hzeroed
  refine keepsReg_trans hnoted (keepsReg_foldl (fun t j => keepsReg_of_regs ?_) _ noted)
  unfold scrubEnded
  extract_lets freed
  have hfreed : freed.regs = t.regs := by
    unfold freed
    split <;> rfl
  split
  · exact (State.opEvent_regs _ _).trans hfreed
  · exact hfreed

theorem State.readLine_keepsReg (s : State) (line : Nat) {key : Nat} (h : plainKey key) : keepsReg key s (s.readLine line).2 := by
  unfold State.readLine
  obtain ⟨bs, mismatch, free⟩ := s.lineBytes line
  dsimp only
  have hmis : keepsReg key s (if mismatch then s.bump R.memMismatch else s) := by
    split
    · exact State.bump_keepsReg s 1 h.1
    · exact keepsReg_refl key s
  split
  · exact hmis
  · exact hmis

theorem State.violate_keepsReg (s : State) {key : Nat} (h : plainKey key) : keepsReg key s s.violate :=
  State.bump_keepsReg s 1 h.2.1

theorem scrubbed_keepsReg (s : State) (page : Nat) {key : Nat} (h : plainKey key) :
    keepsReg key s (if s.scrubbing page then s.scrubPage page else s) := by
  split
  · exact State.scrubPage_keepsReg s page h
  · exact keepsReg_refl key s

theorem State.writeLine_regs (s : State) (line : Nat) (bs : List Byte) : (s.writeLine line bs).regs = s.regs := rfl

theorem writeLineFor_keepsReg (c a : Nat) (data : List Byte) (s : State) (line : Nat) {key : Nat} (h : plainKey key) :
    keepsReg key s (writeLineFor c a data s line) := by
  unfold writeLineFor
  extract_lets scrubbed
  have hscrubbed : keepsReg key s scrubbed := scrubbed_keepsReg s _ h
  clear_value scrubbed
  split
  · have hread := State.readLine_keepsReg scrubbed line h
    generalize scrubbed.readLine line = r at hread ⊢
    obtain ⟨old, read⟩ := r
    exact keepsReg_trans hscrubbed (keepsReg_trans hread (keepsReg_of_regs (State.writeLine_regs _ _ _)))
  · exact keepsReg_trans hscrubbed (State.violate_keepsReg scrubbed h)

theorem State.lpWrite_keepsReg (s : State) (c a : Nat) (data : List Byte) {key : Nat} (h : plainKey key) :
    keepsReg key s (s.lpWrite c a data) := keepsReg_foldl (fun t l => writeLineFor_keepsReg c a data t l h) _ s

end Sys2Proof.Machine
end

section
/-! SUPPORT. Window flags and host accesses of the window (R447, R448, R489, R599). -/
namespace Sys2Proof.Machine
open Sys2Proof

/-! Flags. -/

/-- A flag set on a port is read there, and the port's other flags as before. -/
theorem State.flag_setFlag (s : State) (p : Port) (i : Nat) (x : WinFlag) :
    let t := s.modPort p (fun q => { q with flags := Tbl.set q.flags i x })
    (t.host.port p).flag i = x ∧ (∀ j, j ≠ i → (t.host.port p).flag j = (s.host.port p).flag j) ∧ t.regs = s.regs := by
  intro t
  refine ⟨?_, fun j hj => ?_, State.modPort_regs s p _⟩
  · simp [t, PortState.flag, Tbl.getD]
  · simp [t, PortState.flag, Tbl.getD, Tbl.get?_set_ne _ _ hj]

theorem exec_flagHandover {s : State} {p : Port} {f slot i : Nat} (hrun : s.pwr.phase = .running) (hf : funcExists s p f = true)
    (hi : slotSeen f slot = some i) (n gen : Nat) :
    exec (.flagHandover p f slot n gen) s = .next (s.handOver p i (n == 8) gen) := by
  refine (if_neg (by simp [State.booted_of_running hrun, hf])).trans ?_
  rw [hi]
  rfl

theorem exec_flagReclaim {s : State} {p : Port} {f slot i : Nat} (hrun : s.pwr.phase = .running) (hf : funcExists s p f = true)
    (hi : slotSeen f slot = some i) (n gen : Nat) :
    exec (.flagReclaim p f slot n gen) s = .next (s.reclaim p i (n == 8) gen) := by
  refine (if_neg (by simp [State.booted_of_running hrun, hf])).trans ?_
  rw [hi]
  rfl

/-! The window as memory. -/

/-- A host request after BOOT_DONE, from a function that exists. -/
theorem exec_windowRead {s : State} {p : Port} {f off n : Nat} (hrun : s.pwr.phase = .running) (hf : funcExists s p f = true)
    (hn : n ≤ 4096) : exec (.windowHostAccess p f off (.read n)) s =
      if hostReadFails s p f off n then .next (s.emit (.completerAbort p f))
      else
        let r := hostRead s (s.winBase p + funcBase f + off) n
        .next (((r.2.count (queueHd p) 8 0 (ceilDiv n 64) { unit := 0 }).countLines 0 (hostLines s p f off n)
          { unit := 16 + p.num }).emit (.windowData p f ((List.range n).map (hostByte s p f off r.1)))) := by
  have hbytes : accessBytes (.read n) = n := Nat.min_eq_left hn
  refine (if_neg (by simp [State.booted_of_running hrun])).trans ((if_neg (by simp [hf])).trans ?_)
  rw [hbytes]

theorem State.countLines_frame (s : State) (event : Nat) (ls : List Nat) (c : Counted) :
    (s.countLines event ls c).host = s.host ∧ (s.countLines event ls c).mem = s.mem := by
  have : Fact True := ⟨trivial⟩
  have hk := State.countLines_keeps (M := fun p => match p with | .free | .regs | .scb => True | _ => False) (event := event)
    (ls := ls) (c := c) (Keeps.refl s)
  exact ⟨hk.parts .host id, hk.parts .mem id⟩

theorem State.count_mem (s : State) (b cls event n : Nat) (c : Counted) : (s.count b cls event n c).mem = s.mem := by
  have : Fact True := ⟨trivial⟩
  exact (State.count_keeps (M := fun p => match p with | .regs | .scb => True | _ => False) (Keeps.refl s)).parts .mem id

/-- A read's data goes out last, behind what the read reported. -/
theorem windowRead_out {s u : State} (h : s.host.out <+: u.host.out) (b k m : Nat) (ls : List Nat) (c c' : Counted)
    (o : Output) :
    let t := ((u.count b 8 0 m c).countLines k ls c').emit o
    s.host.out <+: t.host.out ∧ t.host.out.getLast? = some o := by
  intro t
  have hout : ((u.count b 8 0 m c).countLines k ls c').host.out = u.host.out := by
    rw [(State.countLines_frame _ _ _ _).1, (State.count_frame _ _ _ _ _ _).2.1]
  rw [State.emit_out, hout]
  exact ⟨h.trans (List.prefix_append _ _), by simp⟩

theorem hostRead_out (s : State) (a n : Nat) : s.host.out <+: (hostRead s a n).2.host.out :=
  have : Fact True := ⟨trivial⟩
  (hostRead_keeps (M := fun _ => True) (Keeps.refl s)).out

/-- With no scrub under way a line read for a context leaves device memory alone. -/
theorem readLineFor_mem (c : Nat) (acc : List (Nat × List Byte) × State) (line : Nat) (h : acc.2.mem.scrubs = []) :
    (readLineFor c acc line).2.mem = acc.2.mem := by
  unfold readLineFor
  have hidle : ¬acc.2.scrubbing (line / 1024) = true := by simp [State.scrubbing, h]
  dsimp only
  rw [if_neg hidle]
  split
  · unfold State.readLine
    obtain ⟨bs, mismatch, free⟩ := acc.2.lineBytes line
    cases mismatch <;> cases free <;> rfl
  · rfl

/-- With no scrub under way a host's read leaves device memory alone. -/
theorem hostRead_mem {s : State} (h : s.mem.scrubs = []) (a n : Nat) : (hostRead s a n).2.mem = s.mem := by
  have hfold : ∀ (ls : List Nat) (acc : List Byte × State), acc.2.mem = s.mem → (ls.foldl (fun (acc : List Byte × State) l =>
      if acc.2.pageOffline (l / 1024) then (acc.1 ++ List.replicate 64 0, acc.2)
      else
        let (ls, s) := readLineFor 0 ([], acc.2) l
        (acc.1 ++ ls.flatMap (·.2), s)) acc).2.mem = s.mem := by
    intro ls
    induction ls with
    | nil => exact fun acc hacc => hacc
    | cons l ls ih =>
      intro acc hacc
      rw [List.foldl_cons]
      refine ih _ ?_
      split
      · exact hacc
      · exact (readLineFor_mem 0 ([], acc.2) l (by rw [hacc]; exact h)).trans hacc
  exact hfold (linesOf a n) ([], s) rfl

/-- A slot that the device owns reads zero (R448). -/
theorem hostByte_owned {s : State} {p : Port} {off i : Nat} (hoff : off + i < 0x2_0000_0000)
    (hown : ((s.host.port p).flag ((off + i) / 65536)).own = true) (hacct : acctSlot s p ((off + i) / 65536) = false)
    (bs : List Byte) : hostByte s p 0 off bs i = 0 := by
  have hin : ¬funcBytes 0 ≤ off + i := Nat.not_le.mpr hoff
  have hbase : funcBase 0 + (off + i) = off + i := Nat.zero_add _
  unfold hostByte
  dsimp only
  rw [if_neg hin, hbase, hown, hacct]
  simp

/-- A read of device-owned slots needs no line (R489). -/
theorem hostReadFails_owned {s : State} {p : Port} {off n : Nat}
    (h : ∀ i < n, ((s.host.port p).flag ((off + i) / 65536)).own = true ∧ acctSlot s p ((off + i) / 65536) = false) :
    hostReadFails s p 0 off n = false := by
  have hbase : funcBase 0 = 0 := rfl
  unfold hostReadFails
  rw [List.any_eq_false]
  intro i hi
  obtain ⟨hown, hacct⟩ := h i (List.mem_range.mp hi)
  simp only [hbase, Nat.zero_add]
  rw [hown, hacct]
  simp

theorem hubWinViol_plain (p : Port) : plainKey (portKey p R.hubWinViol) := by
  refine ⟨?_, ?_, fun b i => ?_⟩
  · cases p <;> decide
  · cases p <;> decide
  · have hmod : portKey p R.hubWinViol % 16 = 8 := by cases p <;> decide
    intro h
    rw [h] at hmod
    unfold R.pmuCfg at hmod
    omega

theorem writeHostCells_keepsReg (s : State) (base : Nat) (cs : List (Nat × Byte)) {key : Nat} (h : plainKey key) :
    keepsReg key s (writeHostCells s base cs) := keepsReg_foldl (fun t _ => State.lpWrite_keepsReg t 0 _ _ h) cs s

/-- A host's write of the window outside its flags. -/
theorem exec_windowWrite {s : State} {p : Port} {f off : Nat} {d : List Byte} (hrun : s.pwr.phase = .running)
    (hf : funcExists s p f = true) (hd : d.length ≤ 4096) (hflags : f ≠ 0 ∨ off < 0x3_FFE0_0000 ∨ 0x4_0000_0000 ≤ off) :
    exec (.windowHostAccess p f off (.write d)) s =
      let u := ((writeHostCells s (s.winBase p + funcBase f) (hostCells s p f off d)).count (queueHd p) 8 1
        (ceilDiv d.length 64) { unit := 0 }).countLines 1 (hostLines s p f off d.length) { unit := 16 + p.num }
      .next (if touchesOwned s p f off d.length then u.winViolation p else u) := by
  have hbytes : accessBytes (.write d) = d.length := Nat.min_eq_left hd
  have hout : ¬(f = 0 ∧ 0x3_FFE0_0000 ≤ off ∧ off < 0x4_0000_0000) := by omega
  refine (if_neg (by simp [State.booted_of_running hrun])).trans ((if_neg (by simp [hf])).trans ?_)
  rw [hbytes]
  refine (if_neg hout).trans ?_
  rw [List.take_of_length_le hd]

/-- What a write of the window makes of memory and of the count of violations. -/
theorem windowWrite_left {s : State} (hw : RegsWf s.regs) {p : Port} {f off : Nat} (d : List Byte)
    (hrun : s.pwr.phase = .running) (hf : funcExists s p f = true) (hd : d.length ≤ 4096)
    (hflags : f ≠ 0 ∨ off < 0x3_FFE0_0000 ∨ 0x4_0000_0000 ≤ off) :
    Completes (.windowHostAccess p f off (.write d)) s (fun t =>
      t.mem = (writeHostCells s (s.winBase p + funcBase f) (hostCells s p f off d)).mem ∧
      t.regAt (portKey p R.hubWinViol) = s.regAt (portKey p R.hubWinViol) +
        (if touchesOwned s p f off d.length = true then 1 else 0)) := by
  refine .of_next (exec_windowWrite hrun hf hd hflags) ?_
  have hkey := hubWinViol_plain p
  have hcells := writeHostCells_keepsReg s (s.winBase p + funcBase f) (hostCells s p f off d) hkey
  generalize writeHostCells s (s.winBase p + funcBase f) (hostCells s p f off d) = w at hcells ⊢
  have hu := keepsReg_trans hcells (keepsReg_trans (State.count_keepsReg w (queueHd p) 8 1 (ceilDiv d.length 64) { unit := 0 } hkey)
    (State.countLines_keepsReg _ 1 (hostLines s p f off d.length) { unit := 16 + p.num } hkey))
  have hmem : ((w.count (queueHd p) 8 1 (ceilDiv d.length 64) { unit := 0 }).countLines 1 (hostLines s p f off d.length)
      { unit := 16 + p.num }).mem = w.mem := (State.countLines_frame _ _ _ _).2.trans (State.count_mem _ _ _ _ _ _)
  generalize (w.count (queueHd p) 8 1 (ceilDiv d.length 64) { unit := 0 }).countLines 1 (hostLines s p f off d.length)
    { unit := 16 + p.num } = u at hu hmem ⊢
  obtain ⟨hreg, -⟩ := hu hw
  split
  next =>
    refine ⟨hmem, (State.regAt_setReg_self _ _ _).trans ?_⟩
    rw [hreg]
    rfl
  next => exact ⟨hmem, by rw [hreg]; exact (BitVec.add_zero _).symm⟩

/-- Settles O23: a flag's write is a hand-over, a reclaim or a violation; an access is its bytes, line by line. -/
theorem windowCompletes : Obligations.WindowCompletes := by
  refine ⟨fun s p f slot i hrun hf hi => ?flags, fun s p off d hboot hsrc hlen => ?bootWrite,
    fun s p off n hboot hsrc hlen => ?bootRead, fun s p off n hrun hend hn hown => ?owned,
    fun s p f off n hrun hf hn => ⟨fun hok => ?read, fun hfails => ?aborts⟩,
    fun s p f off d hinv hrun hf hd hflags => windowWrite_left hinv.2 d hrun hf hd hflags⟩
  case flags =>
    intro flag
    refine ⟨fun hown => ?_, fun hown hnamed hacct hoff => ?_, fun n gen => ⟨fun hbad => ?_, fun hbad => ?_⟩⟩
    · refine .of_next ((exec_flagHandover hrun hf hi 8 flag.gen).trans (congrArg Host.Outcome.next ?_))
        (State.flag_setFlag s p i ⟨true, flag.gen⟩)
      exact if_pos ⟨rfl, hown, rfl⟩
    · refine .of_next ((exec_flagReclaim hrun hf hi 8 flag.gen).trans (congrArg Host.Outcome.next ?_))
        (State.flag_setFlag s p i ⟨false, (flag.gen + 1) % 2 ^ 32⟩)
      exact if_pos ⟨rfl, hown, rfl, by simp [hnamed, hacct, hoff]⟩
    · refine .of_next ((exec_flagHandover hrun hf hi n gen).trans (congrArg Host.Outcome.next (if_neg ?_))) rfl
      rintro ⟨hn, hown, hgen⟩
      rcases hbad with h | h | h
      · exact h (eq_of_beq hn)
      · exact h hgen.symm
      · exact absurd (hown.symm.trans h) (by decide)
    · refine .of_next ((exec_flagReclaim hrun hf hi n gen).trans (congrArg Host.Outcome.next (if_neg ?_))) rfl
      rintro ⟨hn, hown, hgen, hnamed, hacct, -⟩
      rcases hbad with h | h | h | h | h
      · exact h (eq_of_beq hn)
      · exact h hgen.symm
      · exact absurd (hown.symm.trans h) (by decide)
      · simp [h] at hnamed
      · simp [h] at hacct
  case bootWrite =>
    have hbooted : s.booted = false := by simp [State.booted, hboot]
    have hmine : s.powered = true ∧ 0 = 0 ∧ s.regFld R.rstStraps 0 2 = p.num + 1 := ⟨by simp [State.powered, hboot], rfl, hsrc⟩
    exact .of_next ((if_pos hbooted).trans ((if_pos hmine).trans (if_pos hlen))) rfl
  case bootRead =>
    have hbooted : s.booted = false := by simp [State.booted, hboot]
    have hmine : s.powered = true ∧ 0 = 0 ∧ s.regFld R.rstStraps 0 2 = p.num + 1 := ⟨by simp [State.powered, hboot], rfl, hsrc⟩
    refine .of_next ((if_pos hbooted).trans (if_pos hmine)) ?_
    rw [if_pos hlen]
  case owned =>
    refine .of_next ((exec_windowRead hrun (by simp [funcExists]) hn).trans (if_neg (by rw [hostReadFails_owned hown]; decide))) ?_
    have hzero : ∀ bs, (List.range n).map (hostByte s p 0 off bs) = List.replicate n 0 := by
      intro bs
      refine List.eq_replicate_iff.mpr ⟨by simp, fun b hb => ?_⟩
      obtain ⟨i, hi, rfl⟩ := List.mem_map.mp hb
      obtain ⟨ho, ha⟩ := hown i (List.mem_range.mp hi)
      exact hostByte_owned (by have := List.mem_range.mp hi; omega) ho ha bs
    rw [hzero]
    exact windowRead_out (hostRead_out s _ n) _ _ _ _ _ _ _
  case read =>
    refine .of_next ((exec_windowRead hrun hf hn).trans (if_neg (by rw [hok]; decide))) ?_
    obtain ⟨hout, hlast⟩ := windowRead_out (hostRead_out s (s.winBase p + funcBase f + off) n) (queueHd p) 0 (ceilDiv n 64)
      (hostLines s p f off n) { unit := 0 } { unit := 16 + p.num }
      (.windowData p f ((List.range n).map (hostByte s p f off (hostRead s (s.winBase p + funcBase f + off) n).1)))
    refine ⟨hout, hlast, fun hscrubs => ?_⟩
    rw [State.emit_mem, (State.countLines_frame _ _ _ _).2, State.count_mem, hostRead_mem hscrubs]
  case aborts => exact .of_next ((exec_windowRead hrun hf hn).trans (if_pos hfails)) rfl

end Sys2Proof.Machine
end

section
/-! SUPPORT. The mailbox, the heartbeat and the VFs (R441, R466, R469, R471, R472, R479). -/
namespace Sys2Proof.Machine
open Sys2Proof

/-! Set-up contexts. -/

theorem setupOf_setupCtx (p : Port) {f : Nat} (hf : f ≤ 63) : setupOf (setupCtx p f) = some (p, f) := by
  unfold setupOf setupCtx
  cases p with
  | a =>
    dsimp only
    split
    next h => subst h; rfl
    next h => rw [if_neg (by omega), if_neg (by omega), if_pos (by omega), Nat.add_sub_cancel_left]
  | b =>
    dsimp only
    split
    next h => subst h; rfl
    next h => rw [if_neg (by omega), if_neg (by omega), if_neg (by omega), if_pos (by omega), Nat.add_sub_cancel_left]

/-- The set-up context of a function that exists is there (R466). -/
theorem State.ctx?_setupCtx {s : State} {p : Port} {f : Nat} (hf : f ≤ 63) (hex : funcExists s p f = true) :
    ∃ x, s.ctx? (setupCtx p f) = some x := by
  unfold State.ctx?
  split
  next x _ => exact ⟨x, rfl⟩
  next =>
    rw [setupOf_setupCtx p hf]
    exact ⟨_, if_pos hex⟩

/-- The fields of HUB_MBX_CFG4 lie in its 25 low bits. -/
theorem wordFld_mask (v : Word) {lo w : Nat} (h : lo + w ≤ 25) : wordFld (v &&& 0x01FFFFFF) lo w = wordFld v lo w := by
  have hmask : (v &&& 0x01FFFFFF#32).toNat = v.toNat % 2 ^ 25 := by
    rw [BitVec.toNat_and]
    exact Nat.and_two_pow_sub_one_eq_mod _ 25
  rw [wordFld, wordFld]
  exact (congrArg (bitsOf · lo w) hmask).trans (bitsOf_mod h)

theorem RingKind.ofCode_mailbox {ring : Nat} (h : ring < 2) : RingKind.ofCode (4 + ring) = some (mailboxKind ring) := by
  have hring : ring = 0 ∨ ring = 1 := by omega
  rcases hring with rfl | rfl <;> rfl

theorem Ring.ofConfig_mailbox {v : Word} {ring : Nat} (hring : ring < 2) (hkind : wordFld v 0 3 = 4 + ring) (hlog : 6 ≤ wordFld v 3 5)
    (w0 w1 w2 w3 w5 : Word) : ∃ r, Ring.ofConfig w0 w1 w2 w3 (v &&& 0x01FFFFFF) w5 = some r ∧ r.kind = mailboxKind ring ∧
      r.log2 = wordFld v 3 5 ∧ r.p = 0 ∧ r.c = 0 ∧ r.irqEn = decide (wordFld v 23 1 = 1) := by
  unfold Ring.ofConfig
  rw [wordFld_mask v (by decide : 0 + 3 ≤ 25), wordFld_mask v (by decide : 3 + 5 ≤ 25), wordFld_mask v (by decide : 23 + 1 ≤ 25),
    hkind, RingKind.ofCode_mailbox hring]
  exact ⟨_, if_neg (by omega), rfl, rfl, rfl, rfl, rfl⟩

/-! HUB_MBX_CFG4. -/

/-- The key of a mailbox register of the ring that its selector names. -/
def mailboxKey (s : State) (p : Port) (f w : Nat) : Nat :=
  portKey p (keyOf (R.hubMbxCfg w) (2 * f + s.regFld (portKey p (keyOf R.hubMbxSel f)) 0 1))

/-- A ring of a context that exists, once its table is changed. -/
theorem State.ring?_modCtx_rings {s : State} {c : Nat} {x : Context} (h : s.ctx? c = some x) (f : Tbl Ring → Tbl Ring) (r : Nat) :
    (s.modCtx c (fun x => { x with rings := f x.rings })).ring? c r = Tbl.get? (f x.rings) r := by
  rw [State.ring?, State.ctx?_modCtx, if_pos rfl, h]
  rfl

/-- A write that makes the ring: its configuration, with both indices at 0 (R479). -/
theorem hubMbxCfg4Write_makes {s : State} {p : Port} {f : Nat} {v : Word} (hrun : s.pwr.phase = .running) (hle : f ≤ 63)
    (hf : funcExists s p f = true) (hnone : s.ring? (setupCtx p f) (s.regFld (portKey p (keyOf R.hubMbxSel f)) 0 1) = none)
    (hkind : wordFld v 0 3 = 4 + s.regFld (portKey p (keyOf R.hubMbxSel f)) 0 1) (hlo : 6 ≤ wordFld v 3 5)
    (hhi : wordFld v 3 5 ≤ 16) : Completes (.hubMbxCfg4Write p f v) s (fun t =>
      ∃ r, t.ring? (setupCtx p f) (s.regFld (portKey p (keyOf R.hubMbxSel f)) 0 1) = some r ∧
        r.kind = mailboxKind (s.regFld (portKey p (keyOf R.hubMbxSel f)) 0 1) ∧ r.log2 = wordFld v 3 5 ∧ r.p = 0 ∧ r.c = 0 ∧
        r.irqEn = decide (wordFld v 23 1 = 1)) := by
  have hring : s.regFld (portKey p (keyOf R.hubMbxSel f)) 0 1 < 2 := Nat.mod_lt _ (by decide)
  have hwrite : exec (.hubMbxCfg4Write p f v) s = _ := if_neg (by simp [State.booted_of_running hrun, hf])
  let t : State := s.setReg (mailboxKey s p f 4) (v &&& 0x01FFFFFF)
  obtain ⟨r, hr, hk, hl, hp, hc, hirq⟩ := Ring.ofConfig_mailbox hring hkind hlo (t.regAt (mailboxKey s p f 0))
    (t.regAt (mailboxKey s p f 1)) (t.regAt (mailboxKey s p f 2)) (t.regAt (mailboxKey s p f 3)) (t.regAt (mailboxKey s p f 5))
  obtain ⟨x, hx⟩ := State.ctx?_setupCtx hle hf
  have hexec : exec (.hubMbxCfg4Write p f v) s = .next (t.modCtx (setupCtx p f) (fun x =>
      { x with rings := Tbl.set x.rings (s.regFld (portKey p (keyOf R.hubMbxSel f)) 0 1) r })) := by
    refine hwrite.trans ((if_neg (by rw [hnone]; decide)).trans ?_)
    dsimp only
    split
    next h => exact absurd (hr.symm.trans h) (by simp)
    next r' h =>
      obtain rfl := Option.some.inj (hr.symm.trans h)
      exact if_pos ⟨hk, by omega, by omega⟩
  refine .of_next hexec ⟨r, ?_, hk, hl, hp, hc, hirq⟩
  have hx' : t.ctx? (setupCtx p f) = some x := hx
  rw [State.ring?_modCtx_rings hx' (fun rings => Tbl.set rings (s.regFld (portKey p (keyOf R.hubMbxSel f)) 0 1) r)]
  exact Tbl.get?_set_self _ _ _

/-- While the ring exists, a write removes it with LOG2_SIZE 0 and does nothing otherwise (R479). -/
theorem exec_hubMbxCfg4Write_some {s : State} {p : Port} {f : Nat} {v : Word} (hrun : s.pwr.phase = .running)
    (hf : funcExists s p f = true) (hsome : s.ring? (setupCtx p f) (s.regFld (portKey p (keyOf R.hubMbxSel f)) 0 1) ≠ none) :
    exec (.hubMbxCfg4Write p f v) s = if wordFld v 3 5 ≠ 0 then .next s
      else .next ((s.setReg (mailboxKey s p f 4) (v &&& 0x01FFFFFF)).modCtx (setupCtx p f) (fun x =>
        { x with rings := Tbl.erase x.rings (s.regFld (portKey p (keyOf R.hubMbxSel f)) 0 1) })) := by
  rw [← wordFld_mask v (by decide : 3 + 5 ≤ 25)]
  exact (if_neg (by simp [State.booted_of_running hrun, hf])).trans (if_pos (Option.isSome_iff_ne_none.mpr hsome))

/-- Settles O24: the mailbox's copies are their guards; a mailbox ring is made and removed in its set-up context. -/
theorem mailboxAndOwnershipComplete : Obligations.MailboxAndOwnershipComplete := by
  refine ⟨fun s p vf m hvf hf hmsg hroom => .of_next (if_neg (by simp [hvf, hf, hmsg, hroom])) rfl,
    fun s p m hmsg hop hvf hf hroom => .of_next ((if_neg (by simp [hmsg])).trans ((if_neg (by simp [hop, hvf, hf])).trans
      (if_neg (by simp [hroom])))) rfl,
    fun s p m hmsg hbad => .of_next ((if_neg (by simp [hmsg])).trans (if_pos ?_)) rfl,
    fun s p f v hrun hle hf => ⟨fun hnone hkind hlo hhi => hubMbxCfg4Write_makes hrun hle hf hnone hkind hlo hhi,
      fun hsome hzero => .of_next ((exec_hubMbxCfg4Write_some hrun hf hsome).trans (if_neg (not_not.mpr hzero))) ?removed,
      fun hsome hkept => .of_next ((exec_hubMbxCfg4Write_some hrun hf hsome).trans (if_pos hkept)) rfl⟩,
    fun s v hrun => .of_next (if_neg (by simp [State.booted_of_running hrun])) rfl,
    fun s v hrun => .of_next (if_pos (Or.inr (by cases s.host.owner <;> decide))) rfl,
    fun s hrun hlimit => .of_next (if_neg (by simp [State.booted_of_running hrun, hlimit])) rfl,
    fun s => .of_next rfl ⟨by simp, by simp⟩, fun s p n hrun hn hvfs => ?grows,
    fun s p n hrun hn => .of_next (if_neg (by simp [State.booted_of_running hrun]; omega)) (by simp)⟩
  · simpa [Bool.not_eq_true'] using hbad
  case removed =>
    obtain ⟨x, hx⟩ := State.ctx?_setupCtx hle hf
    have hx' : (s.setReg (mailboxKey s p f 4) (v &&& 0x01FFFFFF)).ctx? (setupCtx p f) = some x := hx
    rw [State.ring?_modCtx_rings hx' (fun rings => Tbl.erase rings (s.regFld (portKey p (keyOf R.hubMbxSel f)) 0 1))]
    exact Tbl.get?_erase_self _ _
  case grows =>
    have hgone : (List.range 64).filter (fun f => decide (n < f) && decide (f ≤ (s.host.port p).vfs)) = [] := by
      rw [List.filter_eq_nil_iff]
      intro f _ hf
      simp only [Bool.and_eq_true, decide_eq_true_eq] at hf
      omega
    refine .of_next (if_neg (by simp [State.booted_of_running hrun]; omega)) ?_
    rw [hgone]
    rfl

end Sys2Proof.Machine
end

section
/-! SUPPORT. Huddle, register writes and reads that latch (R13, R444, R474, R475, R481). -/
namespace Sys2Proof.Machine
open Sys2Proof

/-! Banks. -/

@[simp] theorem State.bank_modBank_self (s : State) (p : Port) (f : Bank → Bank) :
    ((s.modBank p f).host.port p).bank = f (s.host.port p).bank := by simp [State.modBank]

@[simp] theorem State.modBank_regs (s : State) (p : Port) (f : Bank → Bank) : (s.modBank p f).regs = s.regs := rfl

theorem State.modBank_other (s : State) (p : Port) (f : Bank → Bank) :
    (s.modBank p f).host.port p.other = s.host.port p.other := by simp [State.modBank]

theorem Bank.write_writes (b : Bank) (w : StagedWrite) : (b.write w).writes = b.writes ++ [w] := by
  unfold Bank.write
  dsimp only
  split <;> rfl

theorem Bank.write_phase (b : Bank) (w : StagedWrite) :
    (b.write w).phase = if b.phase = .pending then .pending else .staged := by
  unfold Bank.write
  dsimp only
  split
  next h => exact h
  next => rfl

theorem exec_stagedWrite {s : State} {p : Port} {off : Nat} {v : Word} {row : RegRow} (hrun : s.pwr.phase = .running)
    (hrow : regRow off = some row) (hoff : off < 0x400_0000) (hst : row.st ≠ 0) : exec (.stagedWrite p off v) s =
      if !mayStage s p off then .next (s.setFld (portKey p R.hdlStatus) 4 1 1)
      else .next (s.modBank p (fun b => b.write ⟨regKeyOf s p 0 off row, row.st, v.toNat &&& row.st⟩)) := by
  have hgo : ¬(s.booted = false ∨ 0x400_0000 ≤ off ∨ row.st = 0) := by
    rw [State.booted_of_running hrun]
    simp [hst, Nat.not_le.mpr hoff]
  show execStagedWrite p off v s = _
  unfold execStagedWrite
  rw [hrow]
  exact if_neg hgo

/-- Settles O25: the bank takes the write in, whatever it already holds. -/
theorem stagedWritesComplete : Obligations.StagedWritesComplete := by
  refine ⟨fun s p off v row hrun hrow hoff hst hmay => .of_next ((exec_stagedWrite hrun hrow hoff hst).trans
      (if_neg (by simp [hmay]))) ?_,
    fun s p off v row hrun hrow hoff hst hmay => .of_next ((exec_stagedWrite hrun hrow hoff hst).trans
      (if_pos (by simp [hmay]))) rfl⟩
  rw [State.bank_modBank_self, Bank.write_writes, Bank.write_phase]
  exact ⟨rfl, rfl, rfl, State.modBank_other s p _⟩

/-! Checks and applies. -/

theorem State.hdlCtl_shows (s : State) (p : Port) (a : Bool) : (s.hdlCtl p a).regFld (portKey p R.hdlCtl) 3 1 = a.toNat := by
  have hlt : a.toNat < 2 ^ 1 := a.toNat_lt
  cases a
  · exact State.regFld_setFld_of_lt s (by decide) (by decide)
  · exact State.regFld_setFld_of_lt s (by decide) (by decide)

/-- A check's end shows its code and moves the bank (R475). -/
theorem exec_huddleCheckDone {s : State} {p : Port} {k : RunningCheck} (h : (s.host.port p).bank.running = some k) :
    let code := hdlCheck s p ((s.host.port p).bank.writes.take (s.host.port p).bank.covered)
    exec (.huddleCheckDone p) s =
      .next ((s.setFld (portKey p R.hdlStatus) 16 16 code).modBank p (fun b => b.checked k code s.ts)) := by
  intro code
  show execHuddleCheckDone p s = _
  unfold execHuddleCheckDone
  dsimp only
  rw [h]
  rfl

theorem hdlStatus_rule (s : State) (p : Port) (code : Nat) (f : Bank → Bank) :
    ((s.setFld (portKey p R.hdlStatus) 16 16 code).modBank p f).regFld (portKey p R.hdlStatus) 16 16 = code % 2 ^ 16 :=
  State.regFld_setFld_self s (by decide)

/-- A CHECK's end leaves the writes, and a phase by the code unless the bank is PENDING (R475). -/
theorem Bank.checked_check (b : Bank) (code ts : Nat) :
    (b.checked .check code ts).running = none ∧ (b.checked .check code ts).writes = b.writes ∧
    (b.checked .check code ts).phase = if b.phase = .pending then .pending else if code ≠ 0 then .failed
      else if b.covered = b.writes.length then .passed else .staged := by
  unfold Bank.checked
  dsimp only
  split
  next h => exact ⟨rfl, rfl, h⟩
  next =>
    split
    · exact ⟨rfl, rfl, rfl⟩
    · exact ⟨rfl, rfl, rfl⟩

/-- Settles O26: each command's bank is the record it writes; a check's end is `Bank.checked`. -/
theorem huddleCommandsComplete : Obligations.HuddleCommandsComplete := by
  have hgo : ∀ s : State, s.pwr.phase = .running → ¬s.booted = false := fun s hrun => by
    rw [State.booted_of_running hrun]; decide
  refine ⟨fun s p a hrun => .of_next (if_neg (hgo s hrun)) ⟨State.bank_modBank_self _ p _, State.hdlCtl_shows s p a⟩,
    fun s p c a hrun => .of_next (if_neg (hgo s hrun)) ⟨State.bank_modBank_self _ p _, State.hdlCtl_shows s p a⟩,
    fun s p c b a hrun => .of_next (if_neg (hgo s hrun)) ⟨State.bank_modBank_self _ p _, State.hdlCtl_shows s p a⟩,
    fun s p hcheck => .of_next (exec_huddleCheckDone hcheck) ⟨hdlStatus_rule s p _ _, ?_⟩,
    fun s p at_ happly => ⟨fun hok => .of_next (exec_huddleCheckDone happly) ?_,
      fun hbad => .of_next (exec_huddleCheckDone happly) ?_⟩⟩
  · rw [State.bank_modBank_self]
    exact Bank.checked_check _ _ _
  · rw [State.bank_modBank_self, hdlStatus_rule, hok]
    exact ⟨rfl, rfl, rfl, rfl, rfl⟩
  · rw [State.bank_modBank_self, hdlStatus_rule]
    exact ⟨congrArg Bank.phase (if_pos hbad), congrArg Bank.running (if_pos hbad), rfl⟩

/-! Register writes (R13). -/

/-- A bit of a word as a 32-bit number's. -/
theorem getLsbD_ofNat_testBit (n : Nat) {i : Nat} (h : i < 32) : (BitVec.ofNat 32 n).getLsbD i = n.testBit i := by
  rw [BitVec.getLsbD_ofNat, decide_eq_true h, Bool.true_and]

/-- The word that a write leaves: a written W1C bit clear, an RW bit as written, every other bit as it was. -/
theorem writtenWord_bit (old v : Word) (rw w1c : Nat) {i : Nat} (h : i < 32) :
    (((old &&& ~~~BitVec.ofNat 32 rw) ||| (v &&& BitVec.ofNat 32 rw)) &&& ~~~(BitVec.ofNat 32 w1c &&& v)).getLsbD i =
      if w1c.testBit i ∧ v.getLsbD i = true then false else if rw.testBit i then v.getLsbD i else old.getLsbD i := by
  simp only [BitVec.getLsbD_and, BitVec.getLsbD_or, BitVec.getLsbD_not, h, decide_true, Bool.true_and, getLsbD_ofNat_testBit _ h]
  cases w1c.testBit i <;> cases rw.testBit i <;> cases v.getLsbD i <;> cases old.getLsbD i <;> rfl

/-- A register that the PF reaches takes the write in. -/
theorem State.write32_of_row {s : State} {p : Port} {off : Nat} {row : RegRow} (hrun : s.pwr.phase = .running)
    (hmine : p = s.host.owner ∨ (off / 0x1_0000 ≠ 0x18 ∧ off / 0x1_0000 ≠ 0x23)) (hal : off % 4 = 0)
    (hrow : regRow off = some row) (v : Nat) : s.write32 p 0 off v =
      s.setReg (regKeyOf s p 0 off row) (((s.regAt (regKeyOf s p 0 off row) &&& ~~~BitVec.ofNat 32 row.rw) |||
        (BitVec.ofNat 32 v &&& BitVec.ofNat 32 row.rw)) &&& ~~~(BitVec.ofNat 32 row.w1c &&& BitVec.ofNat 32 v)) := by
  have hreach : blockWritable s p off = true := by
    unfold blockWritable
    dsimp only
    rw [if_pos (State.booted_of_running hrun)]
    rcases hmine with h | ⟨h, h'⟩
    · simp [h]
    · simp [h, h']
  have hgo : ¬(!blockWritable s p off || off % 4 != 0) = true := by simp [hreach, hal]
  unfold State.write32
  rw [hrow]
  exact if_neg hgo

/-- Settles O27: an aligned write is one or two `write32`, and each bit of the word that it leaves is its mask's. -/
theorem registerWriteCompletes : Obligations.RegisterWriteCompletes := by
  refine ⟨fun s p off v row hinv hrun hmine hoff hal hrow => ?word, fun s p off v hoff hal => ?pair⟩
  case word =>
    intro key
    have hexec : exec (.registerWrite p 0 off 4 v.toNat) s = .next (s.write32 p 0 off (v.toNat % 2 ^ 32)) :=
      (if_neg (Nat.not_le.mpr hoff)).trans ((if_neg (fun h => h.1 rfl)).trans (if_pos ⟨rfl, hal⟩))
    have hv : BitVec.ofNat 32 (v.toNat % 2 ^ 32) = v := by
      rw [Nat.mod_eq_of_lt v.isLt, BitVec.ofNat_toNat, BitVec.setWidth_eq]
    rw [State.write32_of_row hrun hmine hal hrow, hv] at hexec
    refine .of_next hexec ⟨fun i hi => ?_, fun k hk => State.regAt_setReg_ne _ hinv.2.1 hk, rfl⟩
    rw [State.regAt_setReg_self]
    exact writtenWord_bit _ _ _ _ hi
  case pair =>
    exact .of_next ((if_neg (Nat.not_le.mpr hoff)).trans ((if_neg (fun h => h.1 rfl)).trans
      ((if_neg (fun h => absurd h.1 (by decide))).trans (if_pos ⟨rfl, hal⟩)))) rfl

/-! Latches. -/

/-- A latch set is read by its port, and by both where the latch is one of the shared blocks'. -/
theorem State.latch_setLatch (s : State) (p : Port) (hi v : Nat) : (s.setLatch p hi v).latch p hi = v := by
  unfold State.setLatch State.latch
  split <;> simp [Tbl.getD]

theorem State.modPort_latches (s : State) (p : Port) (f : PortState → PortState) :
    (s.modPort p f).host.latches = s.host.latches := by cases p <;> rfl

theorem Port.eq_other {p q : Port} (h : q ≠ p) : q = p.other := by
  cases p <;> cases q
  · exact absurd rfl h
  · rfl
  · rfl
  · exact absurd rfl h

theorem State.latch_setLatch_ne (s : State) (p q : Port) {hi k : Nat} (v : Nat) (h : k ≠ hi) :
    (s.setLatch p hi v).latch q k = s.latch q k := by
  have hset : ∀ t : Tbl Nat, Tbl.getD (Tbl.set t hi v) k 0 = Tbl.getD t k 0 := fun t =>
    congrArg (·.getD 0) (Tbl.get?_set_ne t v h)
  unfold State.latch
  by_cases hsh : sharedLatches.contains hi = true <;> by_cases hk : sharedLatches.contains k = true
  · rw [State.setLatch, if_pos hsh, if_pos hk, if_pos hk, hset]
  · rw [State.setLatch, if_pos hsh, if_neg hk, if_neg hk]
    cases q <;> rfl
  · rw [State.setLatch, if_neg hsh, if_pos hk, if_pos hk, State.modPort_latches]
  · rw [State.setLatch, if_neg hsh, if_neg hk, if_neg hk]
    rcases eq_or_ne q p with rfl | hq
    · rw [State.modPort_port_self, hset]
    · rw [Port.eq_other hq, State.modPort_port_other]

theorem State.latch_setLatch_shared (s : State) (p q : Port) {hi : Nat} (v : Nat) (h : sharedLatches.contains hi = true) :
    (s.setLatch p hi v).latch q hi = v := by
  unfold State.setLatch State.latch
  rw [if_pos h, if_pos h]
  simp [Tbl.getD]

theorem State.latch_setLatch_other (s : State) (p : Port) {hi : Nat} (v : Nat) (h : sharedLatches.contains hi = false) :
    (s.setLatch p hi v).latch p.other hi = s.latch p.other hi := by
  unfold State.setLatch State.latch
  rw [if_neg (ne_true_of_eq_false h), if_neg (ne_true_of_eq_false h), if_neg (ne_true_of_eq_false h)]
  rw [State.modPort_port_other]

theorem State.setLatch_out (s : State) (p : Port) (hi v : Nat) : (s.setLatch p hi v).host.out = s.host.out := by
  unfold State.setLatch
  split
  · rfl
  · exact State.modPort_out s p _

/-- Settles O28: every such read is `State.readLo`. -/
theorem latchingReadsComplete : Obligations.LatchingReadsComplete := by
  intro s p hrun
  have hread : ∀ early, s.readable early = true := fun early => by simp [State.readable, State.booted_of_running hrun]
  have hlo : ∀ hi value, let t := s.readLo p hi value
      t.host.out = s.host.out ++ [.readData p (value % 2 ^ 32)] ∧ t.latch p hi = value / 2 ^ 32 % 2 ^ 32 ∧
      ∀ (q : Port) (k : Nat), k ≠ hi → t.latch q k = s.latch q k := by
    intro hi value t
    refine ⟨?_, State.latch_setLatch s p hi _, fun q k hk => State.latch_setLatch_ne s p q _ hk⟩
    exact congrArg (· ++ _) (State.setLatch_out s p hi _)
  intro reads apart shared
  have hreads : ∀ i hi value, exec i s = .next (s.readLo p hi value) → reads i hi value := fun i hi value h => .of_next h (hlo hi value)
  have hshared : ∀ i hi value, sharedLatches.contains hi = true → exec i s = .next (s.readLo p hi value) → shared i hi value :=
    fun i hi value hsh h => ⟨hreads i hi value h, .of_next h (State.latch_setLatch_shared s p p.other _ hsh)⟩
  have hapart : ∀ i hi value, sharedLatches.contains hi = false → exec i s = .next (s.readLo p hi value) → apart i hi :=
    fun i hi value hsh h => .of_next h (State.latch_setLatch_other s p _ hsh)
  have h1 : exec (.scbTsLoRead p) s = _ := if_pos (hread false)
  have h2 : exec (.hdlAppliedTsLoRead p) s = _ := if_pos (hread false)
  exact ⟨hreads _ _ _ h1, hapart _ _ _ (by decide) h1, hshared _ _ _ (by decide) (if_pos (hread false)),
    hshared _ _ _ (by decide) (if_pos (hread false)), hshared _ _ _ (by decide) (if_pos (hread false)),
    hshared _ _ _ (by decide) (if_pos (hread true)), hshared _ _ _ (by decide) (if_pos (hread true)), hreads _ _ _ h2,
    hapart _ _ _ (by decide) h2⟩

end Sys2Proof.Machine
end

section
/-! SUPPORT. Trace queues and counter blocks (R576 to R593). -/
namespace Sys2Proof.Machine
open Sys2Proof

@[simp] theorem State.queue_setQueue_self (s : State) (n : Nat) (q : TraceQueue) : (s.setQueue n q).queue n = q := by
  simp [State.queue, State.setQueue, Tbl.getD]

theorem State.readable_of_running {s : State} (h : s.pwr.phase = .running) (early : Bool) : s.readable early = true := by
  simp [State.readable, State.booted_of_running h]

/-- A pop of a queue that exists (R584). -/
theorem exec_tracePop {s : State} {p : Port} (hrun : s.pwr.phase = .running) (hn : s.regFld (portKey p R.scbTrcSel) 0 5 < 24) :
    exec (.tracePop p) s =
      let n := s.regFld (portKey p R.scbTrcSel) 0 5
      .next (((s.setQueue n ((s.queue n).pop s.ts).2).modPort p (fun q => latchWord q ((s.queue n).pop s.ts).1)).emit
        (.readData p ((s.queue n).pop s.ts).1)) := by
  have hgo : ¬s.readable false = false := by rw [State.readable_of_running hrun]; decide
  exact (if_neg hgo).trans (if_neg (Nat.not_le.mpr hn))

/-- A record of a kind that its queue does not record is not kept (R578). -/
theorem State.trace_off {s : State} {n kind : Nat} (ctx data : Nat)
    (h : s.regFld (keyOf R.scbTrcCtl n) 0 1 = 0 ∨ (s.regAt (keyOf R.scbTrcKinds n)).getLsbD kind = false) :
    s.trace n kind ctx data = s := by
  unfold State.trace
  rcases h with h | h
  · simp [h]
  · simp [bitAt, show (s.regAt (keyOf R.scbTrcKinds n)).toNat.testBit kind = false from h]

/-- A record of a kind that its queue records, at another timestamp than its last one, enters the queue (R582). -/
theorem State.trace_on {s : State} {n kind : Nat} (ctx data : Nat) (hon : s.regFld (keyOf R.scbTrcCtl n) 0 1 = 1)
    (hkind : (s.regAt (keyOf R.scbTrcKinds n)).getLsbD kind = true) (hlast : (s.queue n).lastWrite ≠ some s.ts) :
    s.trace n kind ctx data = s.setQueue n ((s.queue n).put s.ts
      (layout 128 [(0, 0, 40, s.ts), (5, 0, 8, kind), (6, 0, 16, ctx), (8, 0, 64, data)])) := by
  have hk : (s.regAt (keyOf R.scbTrcKinds n)).toNat.testBit kind = true := hkind
  unfold State.trace
  simp [hon, hk, bitAt, State.hides, hlast]

theorem exec_swMark {s : State} {p : Port} {v : Word} (hrun : s.pwr.phase = .running)
    (hn : s.regFld (portKey p R.scbTrcSel) 0 5 < 24) : exec (.swMark p v) s =
      .next (s.trace (s.regFld (portKey p R.scbTrcSel) 0 5) 17 0 ((s.regAt R.scbTrcMarkLo).toNat + 2 ^ 32 * v.toNat)) := by
  have hgo : ¬s.booted = false := by rw [State.booted_of_running hrun]; decide
  exact (if_neg hgo).trans (congrArg Host.Outcome.next (if_pos hn))

theorem pmuClr_block {b : Nat} (h : b < 24) : R.pmuClr b / 0x1_0000 = 0x1A := by
  unfold R.pmuClr
  omega

theorem blockWritable_pmuClr {s : State} (hrun : s.pwr.phase = .running) (p : Port) {b : Nat} (h : b < 24) :
    blockWritable s p (R.pmuClr b) = true := by
  unfold blockWritable
  rw [pmuClr_block h]
  simp [State.booted_of_running hrun]

/-- No latch of a counter block is one of those that both ports read (R576). -/
theorem pmuCycHi_not_shared {b : Nat} (h : b < 24) : sharedLatches.contains (R.pmuCycHi b) = false :=
  (by decide : ∀ b < 24, sharedLatches.contains (R.pmuCycHi b) = false) b h

theorem State.setLatch_own {s : State} {p : Port} {off : Nat} (h : sharedLatches.contains off = false) (v : Nat) :
    s.setLatch p off v = s.modPort p (fun q => { q with latches := Tbl.set q.latches off v }) :=
  if_neg (ne_true_of_eq_false h)

theorem State.emit_port (s : State) (o : Output) (p : Port) : (s.emit o).host.port p = s.host.port p := by cases p <;> rfl

theorem bitsOf_div (v lo w : Nat) : bitsOf v lo w = v / 2 ^ lo % 2 ^ w := by rw [bitsOf, Nat.shiftRight_eq_div_pow]

theorem State.pmu_set_self (s : State) (b : Nat) (x : PmuBlock) :
    ({ s with scb := { s.scb with
        blocks := Tbl.set s.scb.blocks b x } } : State).pmu b = x := by
  simp [State.pmu, Tbl.getD]

theorem State.pmu_set_ne (s : State) (b : Nat) (x : PmuBlock) {j : Nat} (h : j ≠ b) :
    ({ s with scb := { s.scb with
        blocks := Tbl.set s.scb.blocks b x } } : State).pmu j = s.pmu j :=
  congrArg (·.getD PmuBlock.zero) (Tbl.get?_set_ne s.scb.blocks x h)

/-- Settles O29: each command is one change of a queue, a block or the port's latches. -/
theorem traceAndCounterCommandsComplete : Obligations.TraceAndCounterCommandsComplete := by
  refine ⟨fun s p hrun hn => .of_next (exec_tracePop hrun hn) ⟨?_, ?_⟩, fun s p v hrun hn => ?mark,
    fun s n hn hopen => .of_next (if_neg (by simp [hopen, hn])) ⟨rfl, State.queue_setQueue_self _ n _, ?_⟩,
    fun s p b v hrun hb => ?clear, fun s p b n hrun hb hn => ?value, fun s p b hrun hb => ?cycles⟩
  · exact State.queue_setQueue_self s _ _
  · exact congrArg (· ++ _) (State.modPort_out _ p _)
  case mark =>
    intro n
    refine ⟨fun hon hkind hlast => .of_next (exec_swMark hrun hn) (State.trace_on 0 _ hon hkind hlast),
      fun hoff => .of_next (exec_swMark hrun hn) (State.trace_off 0 _ hoff)⟩
  · rw [State.queue_setQueue_self]
    rfl
  case clear =>
    have hexec : exec (.pmuClr p b v) s = .next _ := if_neg (by simp [blockWritable_pmuClr hrun p hb, hb])
    exact .of_next hexec ⟨congrArg PmuBlock.counters (State.pmu_set_self s b _), (congrArg PmuBlock.cycles (State.pmu_set_self s b _) :),
      fun j hj => State.pmu_set_ne s b _ hj⟩
  case value =>
    have hexec : exec (.pmuValLoRead p b n) s = .next _ := if_neg (by simp [State.readable_of_running hrun, hb, hn])
    refine .of_next hexec ⟨?_, ?_⟩
    · rw [State.emit_out, State.modPort_out, bitsOf_div, pow_zero, Nat.div_one]
    · rw [State.emit_port, State.modPort_port_self, Tbl.get?_set_self, bitsOf_div, bitsOf_div, pow_zero, Nat.div_one]
  case cycles =>
    have hexec : exec (.pmuCycLoRead p b) s = .next _ := if_neg (by simp [State.readable_of_running hrun, hb])
    have hne : R.pmuCycTs b ≠ R.pmuCycHi b := by unfold R.pmuCycTs R.pmuCycHi; omega
    rw [State.readLo, State.setLatch_own (pmuCycHi_not_shared hb)] at hexec
    refine .of_next hexec ⟨?_, ?_, ?_⟩
    · rw [State.emit_out, State.modPort_out, State.modPort_out]
      rfl
    · rw [State.emit_port, State.modPort_port_self, Tbl.get?_set_ne _ _ hne, State.modPort_port_self, Tbl.get?_set_self, bitsOf_div,
        pow_zero, Nat.div_one]
    · rw [State.emit_port, State.modPort_port_self, Tbl.get?_set_self]
      rfl

/-! The ports apart (R576). -/

/-- The registers that the two ports keep apart and that no latch holds. -/
def portSelects : List Nat := [R.scbTrcSel, R.pmuCsetSel]

/-- Nothing that a port reads by its own latches or selections differs between two states. -/
structure SamePortView (q : Port) (s t : State) : Prop where
  port : t.host.port q = s.host.port q
  latches : t.host.latches = s.host.latches
  pwr : t.pwr = s.pwr
  selects : ∀ off ∈ portSelects, t.regAt (portKey q off) = s.regAt (portKey q off)

theorem SamePortView.refl (q : Port) (s : State) : SamePortView q s s := ⟨rfl, rfl, rfl, fun _ _ => rfl⟩

theorem SamePortView.trans {q : Port} {s t u : State} (h : SamePortView q s t) (h' : SamePortView q t u) : SamePortView q s u :=
  ⟨h'.port.trans h.port, h'.latches.trans h.latches, h'.pwr.trans h.pwr, fun off ho => (h'.selects off ho).trans (h.selects off ho)⟩

theorem State.emit_samePortView (s : State) (o : Output) (q : Port) : SamePortView q s (s.emit o) :=
  ⟨State.emit_port s o q, rfl, rfl, fun _ _ => rfl⟩

theorem State.setQueue_samePortView (s : State) (n : Nat) (x : TraceQueue) (q : Port) : SamePortView q s (s.setQueue n x) :=
  ⟨rfl, rfl, rfl, fun _ _ => rfl⟩

theorem State.modPort_samePortView (s : State) (p : Port) (f : PortState → PortState) : SamePortView p.other s (s.modPort p f) :=
  ⟨State.modPort_port_other s p f, State.modPort_latches s p f, rfl, fun _ _ => rfl⟩

theorem State.readLo_samePortView (s : State) (p : Port) {hi : Nat} (h : sharedLatches.contains hi = false) (v : Nat) :
    SamePortView p.other s (s.readLo p hi v) := by
  rw [State.readLo, State.setLatch_own h]
  exact (State.modPort_samePortView s p _).trans (State.emit_samePortView _ _ _)

theorem regRow_portSelects : ∀ off ∈ portSelects, ∃ row, regRow off = some row ∧ row.sel = none := by
  intro off hoff
  rcases List.mem_cons.mp hoff with rfl | hoff
  · exact ⟨_, rfl, rfl⟩
  · obtain rfl := List.mem_singleton.mp hoff
    exact ⟨_, rfl, rfl⟩

/-- A selection is a register of its port (R576). -/
theorem regKeyOf_portSelects (s : State) (p : Port) {off : Nat} (hoff : off ∈ portSelects) {row : RegRow}
    (hrow : regRow off = some row) : regKeyOf s p 0 off row = portKey p off := by
  obtain ⟨row', hrow', hsel⟩ := regRow_portSelects off hoff
  obtain rfl := Option.some.inj (hrow.symm.trans hrow')
  have hper : ∀ o ∈ portSelects, perPort o = true ∧ o ≠ R.hubMbxSel := by decide
  unfold regKeyOf
  dsimp only
  rw [if_neg (hper off hoff).2, hsel]
  exact if_pos (hper off hoff).1

theorem portKey_other_ne (p : Port) : ∀ off ∈ portSelects, ∀ off' ∈ portSelects, portKey p.other off' ≠ portKey p off := by
  cases p <;> decide

/-- A write of one port's selection leaves the other port's view. -/
theorem State.write32_samePortView {s : State} (hinv : s.Inv) (p : Port) {off : Nat} (hoff : off ∈ portSelects) (v : Nat) :
    SamePortView p.other s (s.write32 p 0 off v) := by
  obtain ⟨row, hrow, -⟩ := regRow_portSelects off hoff
  unfold State.write32
  rw [hrow, if_pos rfl]
  dsimp only
  rw [regKeyOf_portSelects s p hoff hrow]
  split
  · exact .refl _ s
  · exact ⟨rfl, rfl, rfl, fun off' hoff' => State.regAt_setReg_ne _ hinv.2.1 (portKey_other_ne p off hoff off' hoff')⟩

theorem State.readPf_of_latch {s : State} {q : Port} {off v : Nat} (h : viewLatch s q off = some v) :
    s.readPf q off = BitVec.ofNat 32 v := by
  unfold State.readPf
  rw [h]

/-- No view but the register's own word tells of a selection. -/
theorem State.readPf_portSelects (s : State) (q : Port) {off : Nat} (hoff : off ∈ portSelects) :
    s.readPf q off = s.regAt (portKey q off) := by
  obtain ⟨row, hrow, -⟩ := regRow_portSelects off hoff
  have hview : viewLatch s q off = none ∧ viewOf s q off = none ∧ off ≠ R.pwrVfStatus := by
    rcases List.mem_cons.mp hoff with rfl | hoff
    · exact ⟨rfl, rfl, by decide⟩
    · obtain rfl := List.mem_singleton.mp hoff
      exact ⟨rfl, rfl, by decide⟩
  obtain ⟨hlatch, hof, hvf⟩ := hview
  unfold State.readPf
  rw [hlatch]
  dsimp only
  rw [hof]
  dsimp only
  rw [if_neg hvf, hrow]
  exact congrArg s.regAt (regKeyOf_portSelects s q hoff hrow)

/-- Which registers a latch holds is the same in every state. -/
theorem viewLatch_eq_latch {s : State} {q : Port} {off : Nat} (h : (viewLatch s q off).isSome = true) (t : State) :
    viewLatch t q off = some (t.latch q off) := by
  unfold viewLatch at h ⊢
  dsimp only at h ⊢
  split at h
  next hin => exact if_pos hin
  next => exact absurd h (by simp)

theorem SamePortView.latch {q : Port} {s t : State} (h : SamePortView q s t) (off : Nat) : t.latch q off = s.latch q off := by
  unfold State.latch
  rw [h.port, h.latches]

/-- What a port reads by a latch or a selection of its own depends on its view alone. -/
theorem SamePortView.readReg {q : Port} {s t : State} (h : SamePortView q s t) {off : Nat}
    (hoff : (viewLatch s q off).isSome = true ∨ off ∈ portSelects) : t.readReg q 0 off = s.readReg q 0 off := by
  have hpf : t.readPf q off = s.readPf q off := by
    rcases hoff with hlatch | hsel
    · rw [State.readPf_of_latch (viewLatch_eq_latch hlatch t), State.readPf_of_latch (viewLatch_eq_latch hlatch s), h.latch]
    · rw [State.readPf_portSelects t q hsel, State.readPf_portSelects s q hsel, h.selects off hsel]
  unfold State.readReg State.booted State.powered
  rw [hpf, h.pwr]
  simp

theorem next_of_ite {c : Prop} [Decidable c] {a b t : State} {P : State → Prop}
    (h : (if c then Host.Outcome.next a else .next b : Host.Outcome State Fault Refusal) = .next t) (ha : P a) (hb : P b) : P t := by
  split at h
  · exact Host.Outcome.next.inj h ▸ ha
  · exact Host.Outcome.next.inj h ▸ hb

theorem execTracePop_samePortView {s t : State} {p : Port} (h : exec (.tracePop p) s = .next t) : SamePortView p.other s t := by
  have hlatch : ∀ (u : State) (v : Nat) (o : Output), SamePortView p.other u ((u.modPort p (fun q => latchWord q v)).emit o) :=
    fun u v o => (State.modPort_samePortView u p _).trans (State.emit_samePortView _ o _)
  have h : execTracePop p s = .next t := h
  unfold execTracePop at h
  dsimp only at h
  split at h
  · exact Host.Outcome.next.inj h ▸ State.emit_samePortView s _ _
  · exact next_of_ite h (hlatch s _ _) ((State.setQueue_samePortView s _ _ _).trans (hlatch _ _ _))

theorem execPmuCycLoRead_samePortView {s t : State} {p : Port} {b : Nat} (h : exec (.pmuCycLoRead p b) s = .next t) :
    SamePortView p.other s t := by
  have h : execPmuCycLoRead p b s = .next t := h
  unfold execPmuCycLoRead at h
  dsimp only at h
  split at h
  next => exact Host.Outcome.next.inj h ▸ State.emit_samePortView s _ _
  next hgo =>
    have hb : b < 24 := by omega
    exact Host.Outcome.next.inj h ▸ (State.modPort_samePortView s p _).trans (State.readLo_samePortView _ p (pmuCycHi_not_shared hb) _)

/-- A 32-bit write of a selection (R13). -/
theorem exec_portSelect {off : Nat} (hoff : off ∈ portSelects) (s : State) (p : Port) (v : Nat) :
    exec (.registerWrite p 0 off 4 v) s = .next (s.write32 p 0 off (v % 2 ^ 32)) := by
  have h : ∀ o ∈ portSelects, o < 0x400_0000 ∧ o % 4 = 0 := by decide
  exact (if_neg (Nat.not_le.mpr (h off hoff).1)).trans ((if_neg (fun h => h.1 rfl)).trans (if_pos ⟨rfl, (h off hoff).2⟩))

/-- Settles O31: every one of these commands leaves the other port's view. -/
theorem portsReadApart : Obligations.PortsReadApart := by
  intro s t p i off hinv hi hoff hexec
  have hsel : R.scbTrcSel ∈ portSelects ∧ R.pmuCsetSel ∈ portSelects := by decide
  have hwrite : ∀ (o v : Nat), o ∈ portSelects → exec (.registerWrite p 0 o 4 v) s = .next t → SamePortView p.other s t := by
    intro o v ho h
    rw [exec_portSelect ho] at h
    exact Host.Outcome.next.inj h ▸ State.write32_samePortView hinv p ho _
  refine SamePortView.readReg ?_ (hoff.imp id (fun h => by simpa [portSelects] using h))
  rcases hi with rfl | rfl | ⟨b, n, rfl⟩ | ⟨b, rfl⟩ | ⟨v, rfl | rfl⟩
  · exact next_of_ite hexec (State.readLo_samePortView s p (by decide) _) (State.emit_samePortView s _ _)
  · exact execTracePop_samePortView hexec
  · exact next_of_ite hexec (State.emit_samePortView s _ _)
      ((State.modPort_samePortView s p _).trans (State.emit_samePortView _ _ _))
  · exact execPmuCycLoRead_samePortView hexec
  · exact hwrite _ v hsel.1 hexec
  · exact hwrite _ v hsel.2 hexec

end Sys2Proof.Machine
end

section
/-! SUPPORT. The byte memory read after a change, and what a stop of the work leaves of the registers (R341, R500, R623). -/
namespace Sys2Proof.Machine
open Sys2Proof

/-! Bytes. -/

theorem Memory.read_eq_get? (m : Memory) (a : Nat) : m.read a = (Tbl.get? m a).getD Memory.unlisted := by
  induction m with
  | nil => rfl
  | cons c m ih =>
    obtain ⟨k, v⟩ := c
    unfold Memory.read Tbl.get?
    split
    · rfl
    · split
      · rfl
      · exact ih

theorem Memory.tbl_wf {m : Memory} (h : m.wf = true) : Tbl.wf m = true := by
  simp only [Memory.wf, Bool.and_eq_true] at h
  exact h.1

/-- Cells picked by their address: those left read as before, the others as zero. -/
theorem Memory.read_filter {m : Memory} (h : m.wf = true) (f : Nat → Bool) (a : Nat) :
    Memory.read (m.filter (fun c => f c.1)) a = if f a = true then m.read a else 0 := by
  have hpick : m.filter (fun c => f c.1) = m.filterMap (fun c => if f c.1 then some c else none) := by
    rw [← List.filterMap_eq_filter]
    exact congrArg (fun g => List.filterMap g m) (funext fun c => by simp [Option.guard])
  have hget := Tbl.get?_filterMap (Memory.tbl_wf h) (f := fun c => if f c.1 then some c else none)
    (fun p q hq => by
      split at hq
      · rw [Option.some.inj hq]
      · exact absurd hq (by simp)) a
  rw [Memory.read_eq_get?, hpick, hget, Memory.read_eq_get?]
  cases hf : f a
  · cases Tbl.get? m a <;> simp [Memory.unlisted, hf]
  · cases Tbl.get? m a <;> simp [hf]

/-- What a run of bytes written leaves at an address. -/
theorem Memory.read_writeBytes {m : Memory} (h : m.wf = true) (a : Nat) (bs : List Byte) (x : Nat) :
    (m.writeBytes a bs).read x = if a ≤ x then (bs[x - a]?).getD (m.read x) else m.read x := by
  induction bs generalizing m a with
  | nil => simp [Memory.writeBytes]
  | cons b bs ih =>
    rw [Memory.writeBytes, ih (Memory.wf_write a b h)]
    rcases Nat.lt_trichotomy x a with hlt | rfl | hgt
    · rw [if_neg (by omega), if_neg (by omega), Memory.read_write_ne b h (by omega)]
    · rw [if_neg (by omega), if_pos le_rfl, Memory.read_write_self _ _ _ h]
      simp
    · rw [if_pos (by omega), if_pos (by omega), Memory.read_write_ne b h (by omega), show x - a = (x - (a + 1)) + 1 by omega,
        List.getElem?_cons_succ]

/-- Bytes written back where they were read change nothing. -/
theorem Memory.read_writeBytes_readBytes {m : Memory} (h : m.wf = true) (a n x : Nat) :
    (m.writeBytes a (m.readBytes a n)).read x = m.read x := by
  rw [Memory.read_writeBytes h, Memory.readBytes]
  split
  next hx =>
    rw [List.getElem?_map]
    rcases Nat.lt_or_ge (x - a) n with hn | hn
    · rw [List.getElem?_range hn, Option.map_some, Option.getD_some, Nat.add_sub_cancel' hx]
    · rw [List.getElem?_eq_none (by simpa using hn)]
      rfl
  next => rfl

/-! The registers that a stop of the work leaves. -/

/-- A register that neither the memory system, nor the counters, nor a stop of the array writes. -/
def stopKey (key : Nat) : Prop := plainKey key ∧ key ≠ R.crtStopCount

theorem State.trace_regs' (s : State) (n kind ctx data : Nat) (b : Bool) : (s.trace n kind ctx data b).regs = s.regs := by
  have : Fact True := ⟨trivial⟩
  exact (State.trace_keeps (M := fun p => match p with | .free | .scb => True | _ => False) (Keeps.refl s)).parts .regs id

theorem State.stopCourt_regs (s : State) (court : Nat) : (s.stopCourt court).regs = s.regs := by
  have : Fact True := ⟨trivial⟩
  exact (State.stopCourt_keeps (M := fun p => match p with | .eng => True | _ => False) (Keeps.refl s)).parts .regs id

theorem State.stopArray_keepsReg (s : State) (ctx : Nat) (b : Bool) {key : Nat} (h : stopKey key) :
    keepsReg key s (s.stopArray ctx b) := by
  unfold State.stopArray
  extract_lets one stopped
  have hone : ∀ t die, keepsReg key t (one t die) := by
    intro t die
    unfold one
    extract_lets n
    split
    · exact keepsReg_refl key t
    · exact keepsReg_trans (keepsReg_trans (State.bump_keepsReg t n h.2) (keepsReg_of_regs (State.trace_regs' _ _ _ _ _ _)))
        (State.count_keepsReg _ _ _ _ _ _ h.1)
  exact keepsReg_trans (keepsReg_foldl hone _ s) (keepsReg_foldl (fun t c => keepsReg_of_regs (State.stopCourt_regs t c)) _ stopped)

theorem foldl_regs {α : Type} {f : State → α → State} (hf : ∀ t x, (f t x).regs = t.regs) (l : List α) (s : State) :
    (l.foldl f s).regs = s.regs := by
  induction l generalizing s with
  | nil => rfl
  | cons x l ih => exact (ih _).trans (hf s x)

theorem State.unpin_regs (s : State) (id : Nat) : (s.unpin id).regs = s.regs := by
  have : Fact True := ⟨trivial⟩
  exact (State.unpin_keeps (M := fun p => match p with | .lkr | .mem => True | _ => False) (Keeps.refl s)).parts .regs not_false

/-- What a serve took at its boundary goes back without a scrub, so no line is counted (R325). -/
theorem State.giveBack_regs (s : State) (r : ReadyServe) : (s.giveBack r).regs = s.regs := by
  unfold State.giveBack
  extract_lets one joined refilled
  have hone : ∀ (f : State → Request → State), (∀ t q, (f t q).regs = t.regs) → ∀ t id, (one f t id).regs = t.regs := by
    intro f hf t id
    unfold one
    cases t.req? r.ctx id with
    | none => rfl
    | some q => exact hf t q
  have hend : ∀ (t : State) (q : Request), (t.endRequest q none).regs = t.regs := fun t q => State.unpin_regs _ _
  refine (foldl_regs (hone _ ?_) _ refilled).trans ((foldl_regs (hone _ ?_) _ joined).trans (foldl_regs (hone _ hend) _ s))
  · exact fun t q => rfl
  · exact fun t q => rfl

theorem State.serveDiscarded_regs (s : State) (did : Nat) (cause : DiscardCause) : (s.serveDiscarded did cause).regs = s.regs := by
  unfold State.serveDiscarded
  split
  · rfl
  · extract_lets repeated ump
    clear_value repeated
    split
    · exact State.giveBack_regs s _
    · split
      · rfl
      · split
        · exact State.giveBack_regs s _
        · rfl

theorem State.segmentDiscarded_regs (s : State) (did : Nat) (cause : DiscardCause) : (s.segmentDiscarded did cause).regs = s.regs := by
  have : Fact True := ⟨trivial⟩
  exact (State.segmentDiscarded_keeps (M := fun p => match p with | .host | .ump => True | _ => False) (Keeps.refl s)).parts .regs id

theorem State.chargeDiscard_regs (s : State) (ch : Charges) (ns : Nat) : (s.chargeDiscard ch ns).regs = s.regs := by
  have : Fact True := ⟨trivial⟩
  exact (State.chargeDiscard_keeps (M := fun p => match p with | .ump => True | _ => False) (Keeps.refl s)).parts .regs id

theorem State.chargeWork_regs (s : State) (w : Work) (a b : Nat) : (s.chargeWork w a b).regs = s.regs := by
  have : Fact True := ⟨trivial⟩
  exact (State.chargeWork_keeps (M := fun p => match p with | .ump => True | _ => False) (Keeps.refl s)).parts .regs id

theorem State.endOverrun_regs (s : State) : s.endOverrun.regs = s.regs := by
  have : Fact True := ⟨trivial⟩
  exact (State.endOverrun_keeps (M := fun p => match p with | .ump => True | _ => False) (Keeps.refl s)).parts .regs id

theorem State.stopWork_keepsReg (s : State) (cause : DiscardCause) {key : Nat} (h : stopKey key) : keepsReg key s (s.stopWork cause) := by
  unfold State.stopWork
  split
  · exact keepsReg_refl key s
  next w _ =>
    extract_lets array charged ended ump lkr rdc wst cleared freed
    have hcharged : charged.regs = array.regs := by
      unfold charged
      split
      · exact State.chargeWork_regs _ _ _ _
      · exact State.chargeDiscard_regs _ _ _
    have hfreed : keepsReg key s freed :=
      keepsReg_trans (State.stopArray_keepsReg s _ _ h) (keepsReg_of_regs ((State.endOverrun_regs charged).trans hcharged))
    clear_value freed
    split
    · exact keepsReg_trans hfreed (keepsReg_of_regs (State.serveDiscarded_regs _ _ _))
    · exact keepsReg_trans hfreed (keepsReg_of_regs (State.serveDiscarded_regs _ _ _))
    · exact keepsReg_trans hfreed (keepsReg_of_regs (State.segmentDiscarded_regs _ _ _))
    · exact keepsReg_trans hfreed (keepsReg_of_regs (State.segmentDiscarded_regs _ _ _))

theorem State.detect_keepsReg (s : State) (kind unit cause : Nat) (touches : Work → Bool) (cause' : DiscardCause) (es : List Nat)
    {key : Nat} (h : stopKey key) : keepsReg key s (s.detect kind unit cause touches cause' es) := by
  unfold State.detect
  extract_lets hit f p stopped err
  have hstopped : keepsReg key s stopped := by
    unfold stopped
    split
    · exact State.stopWork_keepsReg s _ h
    · exact keepsReg_refl key s
  exact hstopped

end Sys2Proof.Machine
end

section
/-! SUPPORT. Re-reads, the patrol, scrubs and sweeps (R488, R490, R500, R504 to R506, R554). -/
namespace Sys2Proof.Machine
open Sys2Proof

/-! Corrections and storms. -/

theorem State.unitFails_channel {s : State} (hrun : s.pwr.phase = .running) {ch : Nat} (cause : Nat) (huse : unitInUse s 7 ch = true) :
    s.unitFails 7 ch cause = s.detect 7 ch cause (workUses s (lostChannels [ch])) :=
  if_neg (by simp [State.booted_of_running hrun, huse])

theorem State.unitFails_keepsReg (s : State) {kind : Nat} (unit cause : Nat) (hkind : kind = 4 ∨ kind = 7) {key : Nat} (h : stopKey key) :
    keepsReg key s (s.unitFails kind unit cause) := by
  rcases hkind with rfl | rfl
  · unfold State.unitFails
    split
    · exact keepsReg_refl key s
    · exact State.detect_keepsReg s _ _ _ _ _ _ h
  · unfold State.unitFails
    split
    · exact keepsReg_refl key s
    · exact State.detect_keepsReg s _ _ _ _ _ _ h

theorem State.stormCount_keepsReg (s : State) {kind : Nat} (unit : Nat) (hkind : kind = 4 ∨ kind = 7) {key : Nat} (h : stopKey key) :
    keepsReg key s (s.stormCount kind unit) := by
  unfold State.stormCount
  extract_lets k second old n mem noted limit
  have hnoted : keepsReg key s noted := keepsReg_of_regs rfl
  split
  · exact keepsReg_trans hnoted (State.unitFails_keepsReg noted unit 2 hkind h)
  · exact hnoted

theorem memCe_stopKey : stopKey R.memCe :=
  ⟨⟨by decide, by decide, fun b i => by unfold R.memCe R.pmuCfg; omega⟩, by decide⟩

/-- What a correction counted leaves: only the registers and counters change (R588). -/
theorem countCorrected_frame (s : State) (a unit : Nat) :
    (countCorrected s a unit).mem = s.mem ∧ (countCorrected s a unit).err = s.err ∧ (countCorrected s a unit).ts = s.ts ∧
    (countCorrected s a unit).pwr = s.pwr := by
  have : Fact True := ⟨trivial⟩
  have hk := countCorrected_keeps (M := fun p => match p with | .regs | .scb => True | _ => False) (a := a) (unit := unit)
    (Keeps.refl s)
  exact ⟨hk.parts .mem id, hk.parts .err id, hk.parts .ts id, hk.parts .pwr id⟩

theorem countCorrected_keepsReg (s : State) (a unit : Nat) {key : Nat} (h : plainKey key) (hce : key ≠ R.memCe) :
    keepsReg key s (countCorrected s a unit) := by
  unfold countCorrected
  extract_lets counted
  have hcounted : keepsReg key s counted := State.bump_keepsReg s 1 hce
  split
  · exact keepsReg_trans hcounted (State.count_keepsReg counted _ _ _ _ _ h)
  · split
    · exact keepsReg_trans hcounted (State.count_keepsReg counted _ _ _ _ _ h)
    · exact keepsReg_trans hcounted (State.count_keepsReg counted _ _ _ _ _ h)

theorem countCorrected_counts {s : State} (hw : RegsWf s.regs) (a unit : Nat) :
    (countCorrected s a unit).regAt R.memCe = s.regAt R.memCe + 1 ∧ RegsWf (countCorrected s a unit).regs := by
  have hbump : (s.bump R.memCe).regAt R.memCe = s.regAt R.memCe + 1 ∧ RegsWf (s.bump R.memCe).regs :=
    ⟨State.regAt_setReg_self _ _ _, State.setReg_wf hw _ _⟩
  obtain ⟨hce, hwf⟩ := hbump
  have hrest : keepsReg R.memCe (s.bump R.memCe) (countCorrected s a unit) := by
    unfold countCorrected
    extract_lets counted
    split
    · exact State.count_keepsReg counted _ _ _ _ _ memCe_stopKey.1
    · split
      · exact State.count_keepsReg counted _ _ _ _ _ memCe_stopKey.1
      · exact State.count_keepsReg counted _ _ _ _ _ memCe_stopKey.1
  obtain ⟨hreg, hwf'⟩ := hrest hwf
  exact ⟨hreg.trans hce, hwf'⟩

/-- A correction raises MEM_CE by 1, whatever storm it makes (R488, R554). -/
theorem countCe_regAt {s : State} (hw : RegsWf s.regs) (a unit : Nat) : (countCe s a unit).regAt R.memCe = s.regAt R.memCe + 1 := by
  obtain ⟨hce, hwf⟩ := countCorrected_counts hw a unit
  unfold countCe
  extract_lets counted
  split
  · exact (State.stormCount_keepsReg counted _ (.inr rfl) memCe_stopKey hwf).1.trans hce
  · split
    · exact (State.stormCount_keepsReg counted _ (.inl rfl) memCe_stopKey hwf).1.trans hce
    · exact hce

/-- How often the second of a key's storm count has been hit, this time included (R554). -/
def stormSeen (s : State) (key : Nat) : Nat :=
  let seen := Tbl.getD s.mem.ceSecond key (s.ts / 1000000000, 0)
  if seen.1 = s.ts / 1000000000 then seen.2 + 1 else 1

/-- A storm count that stays at its limit only notes the second. -/
theorem State.stormCount_quiet {s : State} (ch : Nat)
    (h : s.regFld R.scbErrCtl 0 16 = 0 ∨ stormSeen s (512 + ch) ≠ s.regFld R.scbErrCtl 0 16 + 1) :
    (s.stormCount 7 ch).mem.cells = s.mem.cells ∧ (s.stormCount 7 ch).err = s.err := by
  have heq : s.stormCount 7 ch = { s with mem := { s.mem with
      ceSecond := Tbl.set s.mem.ceSecond (512 + ch) (s.ts / 1000000000, stormSeen s (512 + ch)) } } :=
    if_neg (fun hc => h.elim hc.1 (fun hne => hne hc.2))
  rw [heq]
  exact ⟨rfl, rfl⟩

theorem State.stopWork_err (s : State) (cause : DiscardCause) : (s.stopWork cause).err = s.err := by
  have : Fact True := ⟨trivial⟩
  exact (State.stopWork_keeps (M := fun p => match p with | .err => False | _ => True) (Keeps.refl s)).parts .err not_false

/-- A fault of a unit detected waits for its fence (R550). -/
theorem State.detect_faults (s : State) (kind unit cause : Nat) (touches : Work → Bool) (cause' : DiscardCause) (es : List Nat) :
    ∃ f, (s.detect kind unit cause touches cause' es).err.faults = s.err.faults ++ [f] ∧ f.unitKind = kind ∧ f.unit = unit ∧
      f.cause = cause ∧ f.detected = s.ts := by
  unfold State.detect
  extract_lets hit f p stopped err
  have herr : stopped.err = s.err := by
    unfold stopped
    split
    · exact State.stopWork_err s _
    · rfl
  exact ⟨p, congrArg (fun e : ErrState => e.faults ++ [p]) herr, rfl, rfl, rfl, rfl⟩

/-- The correction that makes a storm of a channel in use has the channel fail (R554). -/
theorem State.stormCount_storm {s : State} (hrun : s.pwr.phase = .running) {ch : Nat} (huse : unitInUse s 7 ch = true)
    (hlimit : s.regFld R.scbErrCtl 0 16 ≠ 0) (hn : stormSeen s (512 + ch) = s.regFld R.scbErrCtl 0 16 + 1) :
    ∃ f ∈ (s.stormCount 7 ch).err.faults, f.unitKind = 7 ∧ f.unit = ch ∧ f.cause = 2 ∧ f.detected = s.ts := by
  let noted : State := { s with mem := { s.mem with
    ceSecond := Tbl.set s.mem.ceSecond (512 + ch) (s.ts / 1000000000, stormSeen s (512 + ch)) } }
  have heq : s.stormCount 7 ch = noted.unitFails 7 ch 2 := if_pos ⟨hlimit, hn⟩
  have hfails : noted.unitFails 7 ch 2 = noted.detect 7 ch 2 (workUses noted (lostChannels [ch])) :=
    State.unitFails_channel (s := noted) hrun 2 huse
  obtain ⟨f, hf, hkind, hunit, hcause, hts⟩ := State.detect_faults noted 7 ch 2 (workUses noted (lostChannels [ch])) .fence []
  rw [heq, hfails]
  exact ⟨f, by rw [hf]; simp, hkind, hunit, hcause, hts⟩

theorem channelOf_lt (page : Nat) : channelOf page < 128 := by
  unfold channelOf
  exact Nat.xor_lt_two_pow (n := 7) (Nat.mod_lt _ (by decide)) (Nat.mod_lt _ (by decide))

/-- Whether a channel is in use is told by its online bit, which no correction changes. -/
theorem unitInUse_countCorrected {s : State} (hw : RegsWf s.regs) (a unit ch : Nat) :
    unitInUse (countCorrected s a unit) 7 ch = unitInUse s 7 ch := by
  show (decide (ch < 128) && State.channelOnline _ ch) = (decide (ch < 128) && s.channelOnline ch)
  by_cases hch : ch < 128
  · have hkey : plainKey (R.memChOnline (ch / 32)) ∧ R.memChOnline (ch / 32) ≠ R.memCe := by
      refine ⟨⟨?_, ?_, fun b i => ?_⟩, ?_⟩
      · unfold R.memChOnline R.memMismatch; omega
      · unfold R.memChOnline R.memAccViol; omega
      · unfold R.memChOnline R.pmuCfg; omega
      · unfold R.memChOnline R.memCe; omega
    rw [State.channelOnline, (countCorrected_keepsReg s a unit hkey.1 hkey.2 hw).1, State.channelOnline]
  · simp [hch]

/-- A correction of LPDDR5X that makes no storm changes no byte and reports no fault; one that does reports its channel. -/
theorem countCe_lpddr {s : State} (hw : RegsWf s.regs) (hrun : s.pwr.phase = .running) {a : Nat} (ha : inLpddr a = true) (unit : Nat) :
    let ch := channelOf (a / 65536)
    let n := stormSeen s (512 + ch)
    let limit := s.regFld R.scbErrCtl 0 16
    (limit = 0 ∨ n ≠ limit + 1 → (countCe s a unit).mem.cells = s.mem.cells ∧ (countCe s a unit).err = s.err) ∧
    (limit ≠ 0 → n = limit + 1 → unitInUse s 7 ch = true →
      ∃ f ∈ (countCe s a unit).err.faults, f.unitKind = 7 ∧ f.unit = ch ∧ f.cause = 2 ∧ f.detected = s.ts) := by
  intro ch n limit
  obtain ⟨hmem, herr, hts, hpwr⟩ := countCorrected_frame s a unit
  have heq : countCe s a unit = (countCorrected s a unit).stormCount 7 ch := if_pos ha
  have hseen : stormSeen (countCorrected s a unit) (512 + ch) = n := by
    unfold n stormSeen
    rw [hmem, hts]
  have hlimit : (countCorrected s a unit).regFld R.scbErrCtl 0 16 = limit :=
    congrArg (wordFld · 0 16) (countCorrected_keepsReg s a unit
      ⟨by decide, by decide, fun b i => by unfold R.scbErrCtl R.pmuCfg; omega⟩ (by decide) hw).1
  rw [heq]
  refine ⟨fun h => ?_, fun h hn huse => ?_⟩
  · obtain ⟨hcells, herr'⟩ := State.stormCount_quiet (s := countCorrected s a unit) ch (by rw [hlimit, hseen]; exact h)
    exact ⟨by rw [hcells, hmem], by rw [herr', herr]⟩
  · rw [← hts]
    exact State.stormCount_storm (by rw [hpwr]; exact hrun) (by rw [unitInUse_countCorrected hw]; exact huse) (by rw [hlimit]; exact h)
      (by rw [hlimit, hseen]; exact hn)

theorem State.lineGood_regAt (s : State) (line key : Nat) : (s.lineGood line).regAt key = s.regAt key := rfl

theorem State.lineGood_bad (s : State) (line : Nat) : line ∉ (s.lineGood line).mem.bad := by
  simp [State.lineGood]

/-- A re-read that corrects (R488). -/
theorem exec_memReread_corrected {s : State} {a : Nat} {word fixed : List Byte} {ok : Bool} (hrun : s.pwr.phase = .running)
    (hwhere : (inLpddr a = true ∧ s.pageOffline (a / 65536) = false) ∨
      (inLpddr a = false ∧ (inCourt a = true ∨ inSram a = true) ∧ (inSram a = true → s.sramOnline a = true)))
    (hword : sc8Decode word = .corrected fixed) : exec (.memReread a word ok) s =
      .next (if inLpddr a then (countCe s a 63).lineGood (a / 64) else countCe s a 63) := by
  have hgo : ¬(s.booted = false ∨ (!inLpddr a && !inSram a && !inCourt a) = true ∨
      (inLpddr a && s.pageOffline (a / pageBytes)) = true ∨ (inSram a && !s.sramOnline a) = true) := by
    rw [State.booted_of_running hrun]
    rcases hwhere with ⟨hlp, hoff⟩ | ⟨hlp, hchip, hon⟩
    · have hoff : s.pageOffline (a / pageBytes) = false := hoff
      have hsram : inSram a = false := by
        have hlt : a < 0x00F0_0000_0000 := of_decide_eq_true hlp
        have hbase : ¬0x1000_0000_0000 ≤ a := by omega
        exact Bool.and_eq_false_iff.mpr (.inl (decide_eq_false hbase))
      simp [hlp, hoff, hsram]
    · cases hsram : inSram a
      · simp [hlp, hchip.resolve_right (by simp [hsram])]
      · simp [hlp, hon hsram]
  show execMemReread a word ok s = _
  unfold execMemReread
  dsimp only
  rw [if_neg hgo, hword]

theorem assignedFrom_le {s : State} {p q : Nat} (h : assignedFrom s p = some q) : p ≤ q := by
  unfold assignedFrom at h
  extract_lets ranges ofRange listed at h
  have hofRange : ∀ r q, ofRange r = some q → p ≤ q := by
    intro r q hq
    unfold ofRange at hq
    extract_lets m at hq
    split at hq
    · have : m = q := Option.some.inj hq
      exact this ▸ Nat.le_max_left p _
    · exact absurd hq (by simp)
  have hmem : q ∈ ranges.filterMap ofRange ++ listed := List.min?_mem h
  rcases List.mem_append.mp hmem with hq | hq
  · obtain ⟨r, -, hr⟩ := List.mem_filterMap.mp hq
    exact hofRange r q hr
  · obtain ⟨e, he, rfl⟩ := List.mem_map.mp hq
    have := (List.mem_filter.mp he).2
    simp only [Bool.and_eq_true, decide_eq_true_eq] at this
    exact this.1

/-- The search of `patrolNext`, of any assigned pages: what it finds is then told without looking at the regions. -/
def patrolSearch (assigned : Nat → Option Nat) (offline : Nat → Bool) : Nat → Nat → Option Nat
  | 0, _ => none
  | n + 1, line => (assigned (line / 1024)).elim none
    (fun p => if offline p then patrolSearch assigned offline n ((p + 1) * 1024) else some (max line (p * 1024)))

theorem patrolNext_eq_patrolSearch (s : State) (fuel line : Nat) :
    patrolNext s fuel line = patrolSearch (assignedFrom s) s.pageOffline fuel line := by
  delta patrolNext patrolNext._f
  generalize assignedFrom s = assigned
  generalize s.pageOffline = offline
  revert assigned offline
  refine id ?_
  intro assigned offline
  induction fuel generalizing line with
  | zero => rfl
  | succ n ih =>
    rw [patrolSearch]
    dsimp only
    cases assigned (line / 1024) with
    | none => rfl
    | some p => rw [Option.elim_some, ← ih]

theorem patrolSearch_le {assigned : Nat → Option Nat} (hassigned : ∀ p q, assigned p = some q → p ≤ q) (offline : Nat → Bool)
    {fuel line next : Nat} (h : patrolSearch assigned offline fuel line = some next) : line ≤ next := by
  induction fuel generalizing line with
  | zero => exact absurd h (by simp [patrolSearch])
  | succ n ih =>
    rw [patrolSearch] at h
    cases hp : assigned (line / 1024) with
    | none => simp [hp] at h
    | some p =>
      have hle := hassigned _ p hp
      rw [hp, Option.elim_some] at h
      split at h
      · have := ih h
        omega
      · have := Option.some.inj h
        omega

/-- The patrol's next line never lies before the place that it goes on from (R490). -/
theorem patrolNext_le {s : State} {fuel line next : Nat} (h : patrolNext s fuel line = some next) : line ≤ next := by
  rw [patrolNext_eq_patrolSearch] at h
  exact patrolSearch_le (fun p q => assignedFrom_le) _ h

/-- The patrol's place once it has counted the read of a line (R490, R588). -/
def State.patrolOn (s : State) (line : Nat) : State :=
  let s := s.count (20 + channelOf (line / 1024) / 32) 5 5 1 { unit := 18, addr := some (64 * line) }
  (patrolNext s (patrolFuel s) (line + 1)).elim ({ s with mem := { s.mem with patrolLine := 0 } }.bump R.memPatrol)
    (fun next => { s with mem := { s.mem with patrolLine := next } })

theorem State.patrolOn_place (s : State) (line : Nat) :
    (line < (s.patrolOn line).mem.patrolLine ∨ (s.patrolOn line).mem.patrolLine = 0) ∧
    (s.patrolOn line).mem.cells = s.mem.cells ∧ keepsReg R.memCe s (s.patrolOn line) := by
  unfold State.patrolOn
  extract_lets counted
  have hcells : counted.mem.cells = s.mem.cells := congrArg MemState.cells (State.count_mem s _ _ _ _ _)
  have hreg : keepsReg R.memCe s counted := State.count_keepsReg s _ _ _ _ _ memCe_stopKey.1
  clear_value counted
  cases hnext : patrolNext counted (patrolFuel counted) (line + 1) with
  | none => exact ⟨.inr rfl, hcells, keepsReg_trans hreg (State.bump_keepsReg _ 1 (by decide))⟩
  | some next => exact ⟨.inl (patrolNext_le hnext), hcells, hreg⟩

/-- The patrol's read of a line: its place moves on before what was read is looked at (R490). -/
theorem execPatrolRead_of {s : State} {word reread : List Byte} {line : Nat} (hrun : s.pwr.phase = .running)
    (hactive : s.pwr.state = .active) (hctl : s.regFld R.memCtl 16 8 ≠ 0)
    (hfound : (patrolNext s (patrolFuel s) s.mem.patrolLine).or (patrolNext s (patrolFuel s) 0) = some line) :
    (sc8Decode word = .correct ∨ (sc8Decode word = .uncorrectable ∧ sc8Decode reread = .correct) →
      exec (.patrolRead word reread) s = .next ((s.patrolOn line).lineGood line)) ∧
    ∀ fixed, (sc8Decode word = .corrected fixed ∨ (sc8Decode word = .uncorrectable ∧ sc8Decode reread = .corrected fixed)) →
      exec (.patrolRead word reread) s = .next ((countCe (s.patrolOn line) (64 * line) 18).lineGood line) := by
  have hgo : ¬(s.booted = false ∨ s.pwr.state ≠ .active ∨ s.regFld R.memCtl 16 8 = 0) := by
    simp [State.booted_of_running hrun, hactive, hctl]
  show (_ → execPatrolRead word reread s = _) ∧ ∀ fixed, _ → execPatrolRead word reread s = _
  unfold execPatrolRead
  rw [if_neg hgo]
  extract_lets found
  rw [show found = some line from hfound]
  dsimp -zeta only
  extract_lets counted mem moved
  have hmoved : moved = s.patrolOn line := by
    unfold moved State.patrolOn
    change _ = (patrolNext counted (patrolFuel counted) (line + 1)).elim _ _
    cases patrolNext counted (patrolFuel counted) (line + 1) with
    | none => rfl
    | some next => rfl
  rw [hmoved]
  refine ⟨fun h => ?_, fun fixed h => ?_⟩
  · rcases h with h | ⟨h, h'⟩
    · rw [h]
    · rw [h, h']
  · rcases h with h | ⟨h, h'⟩
    · rw [h]
    · rw [h, h']

/-! Scrubs. -/

theorem State.opEvent_mem (s : State) (e : Rec32) : (s.opEvent e).mem = s.mem := by
  have : Fact True := ⟨trivial⟩
  exact (State.opEvent_keeps (M := fun p => match p with | .host => True | _ => False) (Keeps.refl s)).parts .mem id

/-- A scrub's end gives pages back and tells of it; bytes and waiting scrubs stay (R500). -/
theorem scrubEnded_mem (s : State) (j : ScrubJob) :
    (scrubEnded s j).mem.cells = s.mem.cells ∧ (scrubEnded s j).mem.scrubs = s.mem.scrubs := by
  unfold scrubEnded
  extract_lets freed
  have hfreed : freed.mem.cells = s.mem.cells ∧ freed.mem.scrubs = s.mem.scrubs := by
    unfold freed
    split
    · exact ⟨rfl, rfl⟩
    · exact ⟨rfl, rfl⟩
  clear_value freed
  split
  · rw [State.opEvent_mem]
    exact hfreed
  · exact hfreed

theorem scrubEnded_foldl_mem (js : List ScrubJob) (s : State) :
    (js.foldl scrubEnded s).mem.cells = s.mem.cells ∧ (js.foldl scrubEnded s).mem.scrubs = s.mem.scrubs := by
  induction js generalizing s with
  | nil => exact ⟨rfl, rfl⟩
  | cons j js ih =>
    obtain ⟨hcells, hscrubs⟩ := ih (scrubEnded s j)
    obtain ⟨hcells', hscrubs'⟩ := scrubEnded_mem s j
    exact ⟨hcells.trans hcells', hscrubs.trans hscrubs'⟩

theorem State.countScrub_mem (s : State) (page : Nat) : (s.countScrub page).mem = s.mem := by
  have : Fact True := ⟨trivial⟩
  exact (State.countScrub_keeps (M := fun p => match p with | .regs | .scb => True | _ => False) (Keeps.refl s)).parts .mem id

/-- Is a byte no byte of LPDDR5X in the pages? -/
def outsidePages (ps : List Nat) (a : Nat) : Bool := !(inLpddr a && ps.contains (a / pageBytes))

theorem State.zeroPages_cells (s : State) (ps : List Nat) :
    (s.zeroPages ps).mem.cells = (ps.foldl State.countScrub s).mem.cells.filter (fun c => outsidePages ps c.1) := rfl

theorem outsidePages_singleton (p a : Nat) : outsidePages [p] a = !decide (inLpddr a = true ∧ a / 65536 = p) := by
  simp [outsidePages, pageBytes]

theorem foldl_countScrub_mem (ps : List Nat) (s : State) : (ps.foldl State.countScrub s).mem = s.mem := by
  induction ps generalizing s with
  | nil => rfl
  | cons p ps ih => exact (ih _).trans (State.countScrub_mem s p)

theorem State.setScrubs_cells (s : State) (js : List ScrubJob) :
    ({ s with mem := { s.mem with
        scrubs := js } } : State).mem.cells = s.mem.cells := rfl

/-- A scrub done leaves its page zero, every other byte as it was, and no scrub that waits for the page (R500, R501). -/
theorem State.scrubPage_reads {s : State} (hw : s.mem.cells.wf = true) (p : Nat) :
    (∀ a, (s.scrubPage p).mem.cells.read a = if inLpddr a = true ∧ a / 65536 = p then 0 else s.mem.cells.read a) ∧
    ∀ k ∈ (s.scrubPage p).mem.scrubs, p ∉ k.pages := by
  unfold State.scrubPage
  extract_lets zeroed jobs mem noted
  have hzeroed : zeroed.mem.cells = s.mem.cells.filter (fun c => outsidePages [p] c.1) := by
    unfold zeroed
    rw [State.zeroPages_cells, foldl_countScrub_mem]
  obtain ⟨hcells, hscrubs⟩ := scrubEnded_foldl_mem (jobs.filter (·.pages.isEmpty)) noted
  have hcells' : noted.mem.cells = zeroed.mem.cells := State.setScrubs_cells zeroed _
  refine ⟨fun a => ?_, fun k hk => ?_⟩
  · rw [hcells, hcells', hzeroed, Memory.read_filter hw, outsidePages_singleton]
    by_cases h : inLpddr a = true ∧ a / 65536 = p
    · simp [h]
    · simp [h]
  · rw [hscrubs] at hk
    obtain ⟨j, -, rfl⟩ := List.mem_map.mp (List.mem_of_mem_filter hk)
    simp

/-! Key loads and sweeps. -/

theorem State.trace_mem (s : State) (n kind ctx data : Nat) (b : Bool) : (s.trace n kind ctx data b).mem = s.mem := by
  have : Fact True := ⟨trivial⟩
  exact (State.trace_keeps (M := fun p => match p with | .free | .scb => True | _ => False) (Keeps.refl s)).parts .mem id

theorem traceSweep_mem (s : State) (slot : Nat) (b : Bool) : (traceSweep s slot b).mem = s.mem := by
  unfold traceSweep
  generalize List.range 4 = l
  induction l generalizing s with
  | nil => rfl
  | cons x l ih => exact (ih _).trans (State.trace_mem _ _ _ _ _ _)

/-- A die that receives a key is marked (R504). -/
theorem exec_keyLoadReceive {s : State} {die slot : Nat} {k : KeySlot} (hrun : s.pwr.phase = .running) (hdie : die < 4)
    (hk : Tbl.get? s.mem.keySlots slot = some k) (hnew : die ∉ k.switched) : Completes (.keyLoadReceive die slot) s (fun t =>
      Tbl.get? t.mem.keySlots slot = some { k with switched := k.switched ++ [die] } ∧ t.mem.cells = s.mem.cells) := by
  have hgo : ¬(4 ≤ die ∨ k.switched.contains die = true ∨ s.booted = false) := by
    simp [hnew, State.booted_of_running hrun, hdie]
  show ∃ t, execKeyLoadReceive die slot s = .next t ∧ _
  unfold execKeyLoadReceive
  rw [hk]
  dsimp only
  rw [if_neg hgo]
  split
  · refine ⟨_, rfl, ?_⟩
    rw [traceSweep_mem]
    exact ⟨Tbl.get?_set_self _ _ _, rfl⟩
  · exact ⟨_, rfl, Tbl.get?_set_self _ _ _, rfl⟩

/-- What a line reads as under a key is told by the lines and the bytes (R496). -/
theorem State.lineUnder_congr {s t : State} (hl : t.mem.lines = s.mem.lines) (hc : t.mem.cells = s.mem.cells) (line key : Nat) :
    t.lineUnder line key = s.lineUnder line key := by
  unfold State.lineUnder State.storedLine
  rw [hl, hc]

/-- A swept line: its metadata and its bytes (R505). -/
theorem State.rewriteLine_mem (s : State) (slot line : Nat) (k : KeySlot) :
    (s.rewriteLine slot line k).mem.cells =
      s.mem.cells.writeBytes (64 * line) (s.lineUnder line (if k.cur = 0 then k.key1 else k.key0)) ∧
    (s.rewriteLine slot line k).mem.lines =
      Tbl.modify s.mem.lines line (fun l => { l with epoch := k.cur, keyId := if k.cur = 0 then k.key0 else k.key1 }) := by
  have hswept : ∀ (t : State) (f : Sweep → Sweep), t.mem = s.mem → (t.modSweep slot f).mem.cells = s.mem.cells ∧
      (t.modSweep slot f).mem.lines = s.mem.lines := fun t f h =>
    ⟨(congrArg MemState.cells h :), (congrArg MemState.lines h :)⟩
  unfold State.rewriteLine
  extract_lets counted
  have hcounted : counted.mem = s.mem := State.count_mem s _ _ _ _ _
  clear_value counted
  by_cases hcur : k.cur = 0
  · obtain ⟨hcells, hlines⟩ := hswept counted (fun w => { w with nextLine := line + 1 }) hcounted
    simp only [if_pos hcur]
    rw [State.lineUnder_congr hlines hcells, hcells, hlines]
    exact ⟨rfl, rfl⟩
  · obtain ⟨hcells, hlines⟩ := hswept counted (fun w => { w with nextLine := line + 1 }) hcounted
    simp only [if_neg hcur]
    rw [State.lineUnder_congr hlines hcells, hcells, hlines]
    exact ⟨rfl, rfl⟩

/-- A sweep that may go on looks for the first line of the old epoch from its place on (R505). -/
theorem exec_sweepLine {s : State} {slot : Nat} {w : Sweep} {k : KeySlot} (hrun : s.pwr.phase = .running)
    (hactive : s.pwr.state = .active) (hctl : s.regFld R.memCtl 0 11 ≠ 0)
    (hw : s.mem.sweeps.find? (fun w => w.slot == slot) = some w) (hk : Tbl.get? s.mem.keySlots slot = some k) :
    exec (.sweepLine slot) s =
      ((s.mem.lines.map (·.1)).find? (fun l => decide (w.nextLine ≤ l) && oldLine s slot (1 - k.cur) l && !s.pageOffline (l / 1024))).elim
        (let held := w.held.filter (oldLine s slot (1 - k.cur))
         if held.isEmpty then .next (s.sweepDone slot k)
         else .next (s.modSweep slot (fun w => { w with held := held, nextLine := 2 ^ 42 })))
        (fun line => if s.mem.bad.contains line then
            .next ((s.modSweep slot (fun w => { w with nextLine := line + 1, held := w.held ++ [line] })).lineFails line)
          else .next (s.rewriteLine slot line k)) := by
  have hgo : ¬(s.booted = false ∨ s.pwr.state ≠ .active ∨ s.regFld R.memCtl 0 11 = 0) := by
    simp [State.booted_of_running hrun, hactive, hctl]
  show execSweepLine slot s = _
  unfold execSweepLine
  rw [hw, hk]
  dsimp only
  rw [if_neg hgo]
  cases (s.mem.lines.map (·.1)).find? (fun l => decide (w.nextLine ≤ l) && oldLine s slot (1 - k.cur) l && !s.pageOffline (l / 1024)) with
  | none => rfl
  | some line => rfl

/-- A pass that completes zeroises the old key and ends (R506). -/
theorem State.sweepDone_mem (s : State) (slot : Nat) (k : KeySlot) :
    Tbl.get? (s.sweepDone slot k).mem.keySlots slot =
      some (if k.cur = 0 then { k with oldLive := false, key1 := 0 } else { k with oldLive := false, key0 := 0 }) ∧
    ∀ v ∈ (s.sweepDone slot k).mem.sweeps, v.slot ≠ slot := by
  unfold State.sweepDone
  extract_lets done mem ended
  rw [State.opEvent_mem, traceSweep_mem]
  exact ⟨Tbl.get?_set_self _ _ _, fun v hv => by simpa using (List.mem_filter.mp hv).2⟩

theorem inSram_of_inCourt {a : Nat} (h : inCourt a = true) : inSram a = false := by
  have h : 0x1100_0000_0000 ≤ a := of_decide_eq_true (Bool.and_eq_true_iff.mp h).1
  have hbase : ¬a < 0x1000_0000_0000 + 16 * 0x8000_0000 := by omega
  exact Bool.and_eq_false_iff.mpr (.inr (decide_eq_false hbase))

/-- Settles O33: each command's change of the memory is one of the operations above. -/
theorem memoryCommandsComplete : Obligations.MemoryCommandsComplete := by
  refine ⟨fun s a word fixed ok hinv hrun hlp hoff hword => ?reread, fun s a word fixed ok hinv hrun hchip hlp hword => ?chip,
    fun s word reread line hrun hactive hctl hfound => ?patrol,
    fun s j js p ps hinv hrun hactive hctl hjobs hpages => ?scrub, fun s die slot k hrun hdie hk hnew => exec_keyLoadReceive hrun hdie hk hnew,
    fun s slot line w k l hinv hrun hactive hctl hw hk hl hbad hline => ?sweep,
    fun s slot w k hrun hactive hctl hw hk hold => ?done⟩
  case reread =>
    intro ch seen n limit
    have hexec := exec_memReread_corrected (ok := ok) hrun (.inl ⟨hlp, hoff⟩) hword
    rw [if_pos hlp] at hexec
    obtain ⟨hquiet, hstorm⟩ := countCe_lpddr hinv.2 hrun hlp 63
    exact .of_next hexec ⟨countCe_regAt hinv.2 a 63, State.lineGood_bad _ _, hquiet, hstorm⟩
  case chip =>
    have hexec := exec_memReread_corrected (ok := ok) hrun (.inr ⟨hlp, hchip.imp id And.left, ?_⟩) hword
    · rw [if_neg (by simp [hlp])] at hexec
      exact .of_next hexec (countCe_regAt hinv.2 a 63)
    · exact fun hsram => hchip.elim (fun hcourt => absurd hsram (by rw [inSram_of_inCourt hcourt]; decide)) And.right
  case patrol =>
    obtain ⟨hplace, hcells, hreg⟩ := State.patrolOn_place s line
    obtain ⟨hgood, hfixed⟩ := execPatrolRead_of (word := word) (reread := reread) hrun hactive hctl hfound
    refine ⟨fun h => .of_next (hgood h) ⟨hplace, State.lineGood_bad _ _, hcells⟩, fun fixed hinv h => ?_⟩
    obtain ⟨hce, hwf⟩ := hreg hinv.2
    exact .of_next (hfixed fixed h) ⟨(countCe_regAt hwf _ _).trans (by rw [hce]), State.lineGood_bad _ _⟩
  case scrub =>
    have hexec : exec .scrubPageDone s = .next (s.scrubPage p) := by
      have hgo : ¬(s.booted = false ∨ s.pwr.state ≠ .active ∨ s.regFld R.memCtl 0 11 = 0) := by
        simp [State.booted_of_running hrun, hactive, hctl]
      have hfirst : s.mem.scrubs.head?.bind (·.pages.head?) = some p := by simp [hjobs, hpages]
      show execScrubPageDone s = _
      unfold execScrubPageDone
      rw [if_neg hgo, hfirst]
    obtain ⟨hread, hleft⟩ := State.scrubPage_reads hinv.1 p
    exact .of_next hexec ⟨fun a ha hp => (hread a).trans (if_pos ⟨ha, hp⟩), fun a hp => (hread a).trans (if_neg (fun h => hp h.2)), hleft⟩
  case sweep =>
    have hexec := exec_sweepLine hrun hactive hctl hw hk
    rw [hline, Option.elim_some, if_neg (by simpa using hbad)] at hexec
    obtain ⟨hcells, hlines⟩ := State.rewriteLine_mem s slot line k
    have hswept : Tbl.get? (s.rewriteLine slot line k).mem.lines line =
        some { l with epoch := k.cur, keyId := if k.cur = 0 then k.key0 else k.key1 } := by
      rw [hlines, Tbl.get?_modify, if_pos rfl, hl]
      rfl
    have hsame : ∀ key, l.keyId = key → ∀ a, (s.mem.cells.writeBytes (64 * line) (s.lineUnder line key)).read a = s.mem.cells.read a := by
      intro key hkey a
      have hunder : s.lineUnder line key = s.mem.cells.readBytes (64 * line) 64 := by
        unfold State.lineUnder
        rw [hl]
        exact if_pos hkey
      rw [hunder, Memory.read_writeBytes_readBytes hinv.1]
    by_cases hcur : k.cur = 0
    · simp only [if_pos hcur] at hcells hswept ⊢
      exact .of_next hexec ⟨hswept, hcells, fun hkey a => by rw [hcells]; exact hsame _ hkey a⟩
    · simp only [if_neg hcur] at hcells hswept ⊢
      exact .of_next hexec ⟨hswept, hcells, fun hkey a => by rw [hcells]; exact hsame _ hkey a⟩
  case done =>
    have hexec := exec_sweepLine hrun hactive hctl hw hk
    have hnone : (s.mem.lines.map (·.1)).find?
        (fun l => decide (w.nextLine ≤ l) && oldLine s slot (1 - k.cur) l && !s.pageOffline (l / 1024)) = none := by
      simp [hold]
    rw [hnone, Option.elim_none] at hexec
    have hheld : (w.held.filter (oldLine s slot (1 - k.cur))).isEmpty = true := by simp [hold]
    exact .of_next (hexec.trans (if_pos hheld)) (State.sweepDone_mem s slot k)

end Sys2Proof.Machine
end

section
/-! SUPPORT. Which registers faults, completions and the loss of an adapter write (R252, R460, R565, R568). -/
namespace Sys2Proof.Machine
open Sys2Proof

/-- A register that neither a stop of the work, nor a fault record, nor a device fault writes. -/
def quietKey (key : Nat) : Prop :=
  stopKey key ∧ key ≠ R.umpUrgentCount ∧ key ≠ R.scbErrSeq ∧ ∀ c, key ≠ R.scbErrCount c

theorem keepsReg_ite {key : Nat} {c : Prop} [Decidable c] {s t u : State} (ht : keepsReg key s t) (hu : keepsReg key s u) :
    keepsReg key s (if c then t else u) := by
  split
  · exact ht
  · exact hu

theorem keepsReg_elim {α : Type} {key : Nat} {s t : State} {f : α → State} (o : Option α) (ht : keepsReg key s t)
    (hf : ∀ x, keepsReg key s (f x)) : keepsReg key s (o.elim t f) := by
  cases o with
  | none => exact ht
  | some x => exact hf x

theorem State.complete_keepsReg (s : State) (did status flags extra engine : Nat) {key : Nat} (h : plainKey key) :
    keepsReg key s (s.complete did status flags extra engine) := by
  have : Fact True := ⟨trivial⟩
  unfold State.complete
  split
  · exact keepsReg_refl key s
  next a _ =>
    extract_lets dropped sq port entry freed shown counted
    have hshown : shown.regs = s.regs := by
      have hdrop := State.drop_keeps (M := fun p => match p with | .host => True | _ => False) (a := a) (Keeps.refl s)
      exact (State.produce_keeps (State.modRing_keeps hdrop)).parts .regs id
    split
    · exact keepsReg_of_regs (s := s) (t := dropped) rfl
    · exact keepsReg_trans (keepsReg_trans (keepsReg_of_regs hshown) (State.count_keepsReg shown _ _ _ _ _ h))
        (keepsReg_of_regs (State.trace_regs' _ _ _ _ _ _))

theorem State.finish_keepsReg (s : State) (did status flags extra engine : Nat) {key : Nat} (h : plainKey key) :
    keepsReg key s (s.finish did status flags extra engine) := by
  unfold State.finish
  split
  · exact keepsReg_refl key s
  · split
    · exact keepsReg_of_regs rfl
    · exact State.complete_keepsReg s _ _ _ _ _ h

theorem State.fault_keepsReg (s : State) (f : FaultInfo) {key : Nat} (h : quietKey key) : keepsReg key s (s.fault f) := by
  unfold State.fault
  extract_lets sq seqd counted told copied
  have hseqd : keepsReg key s seqd := State.setReg_keepsReg s _ h.2.2.1
  have hcounted : keepsReg key seqd counted := by
    unfold counted
    split
    · exact State.bump_keepsReg seqd 1 (h.2.2.2 _)
    · exact keepsReg_refl key seqd
  have hcopied : copied.regs = told.regs := foldl_regs
    (f := fun t c => t.later (.context c) (errorRec f c sq) false) (fun _ _ => rfl) f.affected told
  have hdone : (copied.trace (dieQueue copied f.kind f.unit) 16 f.ctx sq).regs = counted.regs :=
    (State.trace_regs' copied _ _ _ _ _).trans (hcopied.trans (State.opEvent_regs counted _))
  exact keepsReg_trans hseqd (keepsReg_trans hcounted (keepsReg_of_regs hdone))

theorem State.zeroPages_keepsReg (s : State) (ps : List Nat) {key : Nat} (h : plainKey key) : keepsReg key s (s.zeroPages ps) :=
  keepsReg_foldl (f := State.countScrub) (fun t _ => State.countUnits_keepsReg t _ _ _ _ _ _ _ h) ps s

theorem State.abandonLoad_keepsReg (s : State) (id : Nat) {key : Nat} (h : plainKey key) : keepsReg key s (s.abandonLoad id) := by
  unfold State.abandonLoad
  split
  · exact keepsReg_refl key s
  next l _ =>
    dsimp only
    split
    · exact State.zeroPages_keepsReg s l.pages h
    · exact State.zeroPages_keepsReg s l.pages h

theorem State.dropWaiting_keepsReg (s : State) (id : Nat) {key : Nat} (h : plainKey key) : keepsReg key s (s.dropWaiting id) := by
  unfold State.dropWaiting
  split
  · exact keepsReg_refl key s
  next w _ => exact State.zeroPages_keepsReg s w.pages h

theorem State.discardEnded_regs (s : State) (did : Nat) : (s.discardEnded did).regs = s.regs := by
  have : Fact True := ⟨trivial⟩
  exact (State.discardEnded_keeps (M := fun p => match p with | .ump => True | _ => False) (Keeps.refl s)).parts .regs id

theorem endStepsOf_keepsReg (s : State) (adapter status : Nat) {key : Nat} (h : stopKey key) : keepsReg key s (endStepsOf s adapter status) := by
  unfold endStepsOf
  refine keepsReg_foldl (fun t p => ?_) _ s
  have hstop : keepsReg key t (if t.ump.work.map (·.did) = some p.did then t.stopWork .adapterLost else t) :=
    keepsReg_ite (State.stopWork_keepsReg t _ h) (keepsReg_refl key t)
  exact keepsReg_trans hstop (keepsReg_of_regs (State.discardEnded_regs _ _))

theorem dropWaiters_keepsReg (s : State) (r : Record) (status : Nat) {key : Nat} (h : plainKey key) : keepsReg key s (dropWaiters s r status) := by
  unfold dropWaiters
  extract_lets ended
  have hended : keepsReg key s ended := keepsReg_foldl (fun t e => State.finish_keepsReg t _ _ _ _ _ h) _ s
  split
  · exact keepsReg_trans hended (State.finish_keepsReg _ _ _ _ _ _ h)
  · exact hended

theorem State.dropCommit_regs (s : State) (id instant : Nat) : (s.dropCommit id instant).regs = s.regs := by
  have : Fact True := ⟨trivial⟩
  exact (State.dropCommit_keeps (M := fun p => match p with | .host | .lkr => True | _ => False) (Keeps.refl s)).parts .regs not_false

theorem State.closeRecord_keepsReg (s : State) (id : Nat) (scrub : Bool) {key : Nat} (h : plainKey key) :
    keepsReg key s (s.closeRecord id scrub) := by
  unfold State.closeRecord
  split
  next r _ =>
    extract_lets ps freed lkr closed
    have hclosed : keepsReg key s closed :=
      keepsReg_ite (c := scrub = true) (State.zeroPages_keepsReg s ps h) (keepsReg_refl key s)
    exact keepsReg_ite (keepsReg_trans hclosed (keepsReg_of_regs (State.unpin_regs closed id))) hclosed
  next => exact keepsReg_refl key s

theorem State.loseEntry_keepsReg (s : State) (id : Nat) {key : Nat} (h : stopKey key) : keepsReg key s (s.loseEntry id) := by
  unfold State.loseEntry
  extract_lets load stopped dropped ended uncommitted waited closed
  have hstopped : keepsReg key s stopped := keepsReg_elim load (keepsReg_refl key s) fun l =>
    keepsReg_trans (State.abandonLoad_keepsReg s id h.1) (State.finish_keepsReg _ _ _ _ _ _ h.1)
  have hdropped : keepsReg key stopped dropped := State.dropWaiting_keepsReg stopped id h.1
  have hended : keepsReg key dropped ended := endStepsOf_keepsReg dropped id _ h
  have huncommitted : keepsReg key ended uncommitted := keepsReg_of_regs (State.dropCommit_regs ended id _)
  have hwaited : keepsReg key uncommitted waited := keepsReg_elim _ (keepsReg_refl key _) fun r =>
    dropWaiters_keepsReg uncommitted r _ h.1
  have hclosed : keepsReg key waited closed := State.closeRecord_keepsReg waited id true h.1
  have hall : keepsReg key s closed := keepsReg_trans hstopped (keepsReg_trans hdropped (keepsReg_trans hended
    (keepsReg_trans huncommitted (keepsReg_trans hwaited hclosed))))
  clear_value closed
  split
  · exact hall
  · exact keepsReg_ite hall hall

theorem State.urgent_keepsReg (s : State) (cause : DiscardCause) (code : Nat) {key : Nat} (h : stopKey key) (hu : key ≠ R.umpUrgentCount) :
    keepsReg key s (s.urgent cause code) := by
  unfold State.urgent
  split
  · exact keepsReg_refl key s
  next w _ =>
    extract_lets bumped counted told
    have hcounted : keepsReg key s counted :=
      keepsReg_trans (State.bump_keepsReg s 1 hu) (State.count_keepsReg bumped _ _ _ _ _ h.1)
    exact keepsReg_trans hcounted (keepsReg_trans (keepsReg_of_regs rfl) (State.stopWork_keepsReg told cause h))

theorem State.deviceFails_keepsReg (s : State) (f : FaultInfo) {key : Nat} (h : quietKey key) : keepsReg key s (s.deviceFails f) := by
  unfold State.deviceFails
  extract_lets urgent err failed reached dids ump host cleared ended
  have hcleared : keepsReg key s cleared := State.urgent_keepsReg s _ _ h.1 h.2.1
  have hended : keepsReg key s ended :=
    keepsReg_trans hcleared (keepsReg_foldl (fun t d => State.complete_keepsReg t _ _ _ _ _ h.1.1) dids cleared)
  exact keepsReg_ite (keepsReg_trans hended (State.fault_keepsReg ended f h))
    (keepsReg_trans hended (State.bump_keepsReg ended 1 (h.2.2.2 _)))

theorem State.failDevice_keepsReg (s : State) (kind unit cause : Nat) {key : Nat} (h : quietKey key) :
    keepsReg key s (s.failDevice kind unit cause) := State.deviceFails_keepsReg s _ h

end Sys2Proof.Machine
end

section
/-! SUPPORT. Fault reports, fences and thermal hold (R550, R553, R554, R562, R564). -/
namespace Sys2Proof.Machine
open Sys2Proof

/-! Reports. -/

/-- The failure of a unit in use that a fence may take out waits for its fence (R550). -/
theorem State.unitFails_faults {s : State} (hrun : s.pwr.phase = .running) {kind unit : Nat} (cause : Nat)
    (huse : unitInUse s kind unit = true) (hkind : kind ≠ 14 ∧ kind ≠ 15 ∧ kind ≠ 17) :
    ∃ f, (s.unitFails kind unit cause).err.faults = s.err.faults ++ [f] ∧ f.unitKind = kind ∧ f.unit = unit ∧ f.cause = cause ∧
      f.detected = s.ts := by
  have hgo : ¬(s.booted = false ∨ (!unitInUse s kind unit) = true) := by simp [State.booted_of_running hrun, huse]
  unfold State.unitFails
  rw [if_neg hgo]
  split
  · exact absurd rfl hkind.1
  · exact absurd rfl hkind.2.1
  · exact absurd rfl hkind.2.2
  all_goals exact State.detect_faults s _ _ _ _ _ _

/-- The failure of a unit that no fence can take out is a device fault (R564). -/
theorem State.unitFails_device {s : State} (hrun : s.pwr.phase = .running) {kind unit : Nat} (cause : Nat)
    (huse : unitInUse s kind unit = true) (hkind : kind = 14 ∨ kind = 15 ∨ kind = 17) :
    (s.unitFails kind unit cause).err.deviceFault = true := by
  have hgo : ¬(s.booted = false ∨ (!unitInUse s kind unit) = true) := by simp [State.booted_of_running hrun, huse]
  unfold State.unitFails
  rw [if_neg hgo]
  rcases hkind with rfl | rfl | rfl
  · exact State.deviceFails_faulted s _
  · exact State.deviceFails_faulted s _
  · exact State.deviceFails_faulted s _

/-! Fences. -/

theorem State.deviceFails_faults (s : State) (f : FaultInfo) : (s.deviceFails f).err.faults = s.err.faults := by
  have : Fact True := ⟨trivial⟩
  unfold State.deviceFails
  extract_lets urgent err failed reached dids ump host cleared ended
  have hurgent : urgent.err = s.err :=
    (State.urgent_keeps (M := fun p => match p with | .err => False | _ => True) (Keeps.refl s)).parts .err not_false
  have hended : ended.err = cleared.err := (Keeps.foldl (M := fun p => match p with | .free | .regs | .host | .scb => True | _ => False)
    (Keeps.refl cleared) fun t d hk => State.complete_keeps hk).parts .err id
  have hfaults : ended.err.faults = s.err.faults := (congrArg ErrState.faults hended).trans (congrArg ErrState.faults hurgent :)
  clear_value ended
  split
  · exact (congrArg ErrState.faults (State.fault_frame ended f).2.2).trans hfaults
  · exact hfaults

theorem State.fenceChannels_err (s : State) (ks : List Nat) : (s.fenceChannels ks).err = s.err := by
  have : Fact True := ⟨trivial⟩
  exact (State.fenceChannels_keeps (M := fun p => match p with | .regs => True | _ => False) (Keeps.refl s)).parts .err id

/-- A fence that completes detects no fault. -/
theorem State.fenceUnit_faults (s : State) (p : PendingFault) : (s.fenceUnit p).err.faults = s.err.faults := by
  have : Fact True := ⟨trivial⟩
  have hfault : ∀ (t : State) (f : FaultInfo), (t.fault f).err.faults = t.err.faults := fun t f =>
    congrArg ErrState.faults (State.fault_frame t f).2.2
  have hfail : ∀ (c : Prop) [Decidable c] (t : State) (k u x : Nat), (if c then t.failDevice k u x else t).err.faults = t.err.faults := by
    intro c _ t k u x
    split
    · exact State.deviceFails_faults t _
    · rfl
  have hport : ∀ (ps : List Nat) (t : State), (ps.foldl State.fencePort t).err.faults = t.err.faults := by
    intro ps
    induction ps with
    | nil => exact fun t => rfl
    | cons q ps ih => exact fun t => (ih _).trans (congrArg ErrState.faults (State.linkDown_frame t q 5 .fenced).2)
  have hcourt : ∀ court, (s.fenceCourt court p.serve).err.faults = s.err.faults := fun court => rfl
  have hchannels : ∀ (ks : List Nat) (f : Nat → FaultInfo) (t : State),
      (ks.foldl (fun s k => s.fault (f k)) t).err.faults = t.err.faults := by
    intro ks f
    induction ks with
    | nil => exact fun t => rfl
    | cons k ks ih => exact fun t => (ih _).trans (hfault t _)
  have howners : ∀ (x : Lost) (f : FaultInfo) (t : State), (t.loseOwners x f).1.err.faults = t.err.faults := fun x f t =>
    congrArg ErrState.faults ((State.loseOwners_keeps (M := fun p => match p with | .err => False | _ => True)
      (Keeps.refl t)).parts .err not_false)
  have hentries : ∀ (es : List Nat) (t : State), (es.foldl State.loseEntry t).err.faults = t.err.faults := fun es t =>
    congrArg ErrState.faults ((Keeps.foldl (M := fun p => match p with | .err => False | _ => True) (Keeps.refl t)
      fun t e hk => State.loseEntry_keeps hk).parts .err not_false)
  have hwd : ∀ (die : Nat), (s.fenceWd die).err.faults = s.err.faults := fun die =>
    congrArg ErrState.faults ((State.fenceWd_keeps (M := fun p => match p with | .err => False | _ => True)
      (Keeps.refl s)).parts .err not_false)
  have hone : ∀ court, (if ((s.fenceCourt court p.serve).fault (fenceRecord p p.unitKind p.unit [])).courtCount (court / 8) = 0
      then ((s.fenceCourt court p.serve).fault (fenceRecord p p.unitKind p.unit [])).failDevice 14 (court / 8) p.cause
      else (s.fenceCourt court p.serve).fault (fenceRecord p p.unitKind p.unit [])).err.faults = s.err.faults := fun court =>
    (hfail _ _ _ _ _).trans ((hfault _ _).trans (hcourt court))
  have hmany : ∀ (ks : List Nat) (f : Nat → FaultInfo) (x : Lost) (g : FaultInfo),
      ((ks.foldl (fun s k => s.fault (f k)) (s.fenceChannels ks)).loseOwners x g).1.err.faults = s.err.faults := fun ks f x g =>
    (howners x g _).trans ((hchannels ks f _).trans (congrArg ErrState.faults (State.fenceChannels_err s ks)))
  unfold State.fenceUnit
  split
  · exact hone _
  · exact hone _
  · exact hone _
  · exact hone _
  · exact hfault _ _
  · exact hmany _ _ _ _
  · exact hmany _ _ _ _
  · exact (hfault _ _).trans (hport [p.unit] s)
  · exact (hfault _ _).trans (hport (portsOfDie p.unit) s)
  · exact (hfail _ _ _ _ _).trans ((hentries p.entries _).trans (hfault _ _))
  · exact (hfault _ _).trans (hwd p.unit)
  · rfl

theorem State.extendSlot_err (s : State) : s.extendSlot.err = s.err := by
  have : Fact True := ⟨trivial⟩
  exact (State.extendSlot_keeps (M := fun p => match p with | .ump => True | _ => False) (Keeps.refl s)).parts .err id

theorem State.extendSlot_regs (s : State) : s.extendSlot.regs = s.regs := by
  have : Fact True := ⟨trivial⟩
  exact (State.extendSlot_keeps (M := fun p => match p with | .ump => True | _ => False) (Keeps.refl s)).parts .regs id

theorem State.extendSlot_ts (s : State) : s.extendSlot.ts = s.ts := by
  have : Fact True := ⟨trivial⟩
  exact (State.extendSlot_keeps (M := fun p => match p with | .ump => True | _ => False) (Keeps.refl s)).parts .ts id

/-- The state with these faults left to fence. -/
def State.faultsLeft (s : State) (rest : List PendingFault) : State := { s with err := { s.err with faults := rest } }

theorem exec_fenceComplete {s : State} {p : PendingFault} {rest : List PendingFault} (hfaults : s.err.faults = p :: rest)
    (hpwr : s.pwr.state ≠ .idle ∨ s.pwr.request = some .active) : exec .fenceComplete s =
      .next ((s.faultsLeft rest).fenceUnit p).extendSlot := by
  have hgo : ¬(s.pwr.state = .idle ∧ s.pwr.request ≠ some .active) := fun h => hpwr.elim (fun hs => hs h.1) (fun hr => h.2 hr)
  show execFenceComplete s = _
  unfold execFenceComplete
  rw [hfaults]
  exact if_neg hgo

/-- The earliest fault leaves the list. -/
theorem fenceComplete_faults (s : State) (p : PendingFault) (rest : List PendingFault) :
    ((s.faultsLeft rest).fenceUnit p).extendSlot.err.faults = rest := by
  rw [State.extendSlot_err, State.fenceUnit_faults]
  rfl

/-! Thermal hold. -/

theorem foldl_work {α : Type} {f : State → α → State} (hf : ∀ t x, (f t x).ump.work = t.ump.work) (l : List α) (s : State) :
    (l.foldl f s).ump.work = s.ump.work := by
  induction l generalizing s with
  | nil => rfl
  | cons x l ih => exact (ih _).trans (hf s x)

theorem State.giveBack_work (s : State) (r : ReadyServe) : (s.giveBack r).ump.work = s.ump.work := by
  unfold State.giveBack
  extract_lets one joined refilled
  have hone : ∀ (f : State → Request → State), (∀ t q, (f t q).ump.work = t.ump.work) → ∀ t id, (one f t id).ump.work = t.ump.work := by
    intro f hf t id
    unfold one
    cases t.req? r.ctx id with
    | none => rfl
    | some q => exact hf t q
  have hend : ∀ (t : State) (q : Request), (t.endRequest q none).ump.work = t.ump.work := fun t q => by
    have : Fact True := ⟨trivial⟩
    have hunpin : ((t.kvRelease q.pages false).unpin q.adapter).ump = (t.kvRelease q.pages false).ump :=
      (State.unpin_keeps (M := fun p => match p with | .lkr | .mem => True | _ => False) (Keeps.refl _)).parts .ump not_false
    exact (congrArg UmpState.work hunpin :)
  refine (foldl_work (hone _ ?_) _ refilled).trans ((foldl_work (hone _ ?_) _ joined).trans (foldl_work (hone _ hend) _ s))
  · exact fun t q => rfl
  · exact fun t q => rfl

theorem State.serveDiscarded_work (s : State) (did : Nat) (cause : DiscardCause) : (s.serveDiscarded did cause).ump.work = s.ump.work := by
  unfold State.serveDiscarded
  split
  · rfl
  · extract_lets repeated ump
    clear_value repeated
    split
    · exact State.giveBack_work s _
    · split
      · rfl
      · split
        · exact State.giveBack_work s _
        · rfl

theorem State.segmentDiscarded_work (s : State) (did : Nat) (cause : DiscardCause) : (s.segmentDiscarded did cause).ump.work = s.ump.work := by
  unfold State.segmentDiscarded
  split
  · rfl
  · split
    · rfl
    · split
      · rfl
      · rfl

theorem State.stopWork_work (s : State) (cause : DiscardCause) : (s.stopWork cause).ump.work = none := by
  unfold State.stopWork
  split
  next h => exact h
  next w _ =>
    extract_lets array charged ended ump lkr rdc wst cleared freed
    have hfreed : freed.ump.work = none := rfl
    clear_value freed
    split
    · exact (State.serveDiscarded_work _ _ _).trans hfreed
    · exact (State.serveDiscarded_work _ _ _).trans hfreed
    · exact (State.segmentDiscarded_work _ _ _).trans hfreed
    · exact (State.segmentDiscarded_work _ _ _).trans hfreed

theorem State.fault_ump (s : State) (f : FaultInfo) : (s.fault f).ump = s.ump := by
  have : Fact True := ⟨trivial⟩
  exact (State.fault_keeps (M := fun p => match p with | .free | .regs | .host | .scb => True | _ => False) (Keeps.refl s)).parts .ump id

/-- A reading that enters hold stops the work (R562). -/
theorem exec_thermalHoldEntry {s : State} {sensor : Nat} {e : Int} (hrun : s.pwr.phase = .running) (hhold : s.err.hold = false)
    (hhot : 840 ≤ e ∨ (sensor < 64 ∧ 832 ≤ e ∧ s.clock16 = 12)) : Completes (.thermalHoldEntry sensor e) s (fun t =>
      t.err.hold = true ∧ t.err.coolSince = none ∧ t.ump.work = none) := by
  have hgo : ¬((s.readSensor sensor e).booted = false ∨ (s.readSensor sensor e).err.hold = true ∨
      (!entersHold (s.readSensor sensor e) sensor e) = true) := by
    have hboot : (s.readSensor sensor e).booted = true := State.booted_of_running hrun
    have hclock : (s.readSensor sensor e).clock16 = s.clock16 := rfl
    have hent : entersHold (s.readSensor sensor e) sensor e = true := by
      unfold entersHold
      rw [hclock]
      rcases hhot with h | ⟨h1, h2, h3⟩
      · simp [h]
      · simp [h1, h2, h3]
    simp [hboot, hhold, hent]
  refine .of_next ((if_neg (by rw [hrun]; decide)).trans (if_neg hgo)) ⟨?_, ?_, ?_⟩
  · rw [(State.fault_frame _ _).2.2]
    rfl
  · rw [(State.fault_frame _ _).2.2]
    rfl
  · rw [State.fault_ump]
    exact State.stopWork_work _ _

/-- The state with the clock at the floor and hold ended (R562). -/
def State.leaveHold (s : State) : State :=
  let s := if s.clock16 = 12 then s else s.setClock 12
  { s with err := { s.err with hold := false, coolSince := none } }

theorem State.setClock_ts (s : State) (n : Nat) : (s.setClock n).ts = s.ts := by
  have : Fact True := ⟨trivial⟩
  exact (State.setClock_keeps (M := fun p => match p with | .free | .regs | .pwr | .scb => True | _ => False) (Keeps.refl s)).parts .ts id

theorem clock16_floor {s : State} (h : s.clock16 = 12) : s.regFld R.clkStatus 0 4 = 12 := by
  unfold State.clock16 at h
  dsimp only at h
  split at h
  · exact absurd h (by decide)
  · exact h

theorem endHold_left {u : State} (h : u.clock16 = 12) :
    let v : State := { u with err := { u.err with
      hold := false
      coolSince := none } }
    v.err.hold = false ∧ v.ts = u.ts ∧ v.regFld R.clkStatus 0 4 = 12 := ⟨rfl, rfl, clock16_floor h⟩

theorem State.leaveHold_left {s : State} (hw : RegsWf s.regs) :
    s.leaveHold.err.hold = false ∧ s.leaveHold.ts = s.ts ∧ s.leaveHold.regFld R.clkStatus 0 4 = 12 := by
  unfold State.leaveHold
  by_cases h : s.clock16 = 12
  · rw [if_pos h]
    exact endHold_left h
  · rw [if_neg h, ← State.setClock_ts s 12]
    exact endHold_left (State.setClock_clock16 hw (by decide) (by decide))

theorem exec_thermalHoldExit {s : State} {t0 : Nat} (hhold : s.err.hold = true) (hcool : s.err.coolSince = some t0) :
    ∃ t : State, exec .thermalHoldExit s = .next t ∧
      (let u := ({ s with ts := max s.ts (t0 + 10000000) } : State).leaveHold
       t = u ∨ t = u.waitSlot (toQuantum u.ts) ∨ t = u.extendSlot) := by
  show ∃ t, execThermalHoldExit s = .next t ∧ _
  unfold execThermalHoldExit
  rw [hhold, hcool]
  dsimp -zeta only
  extract_lets late floored err left u
  have hleft : left = u := rfl
  split
  · exact ⟨_, rfl, .inl hleft⟩
  · split
    · exact ⟨_, rfl, .inr (.inl (congrArg (fun x => x.waitSlot (toQuantum x.ts)) hleft))⟩
    · exact ⟨_, rfl, .inr (.inr (congrArg State.extendSlot hleft))⟩

/-- Hold's end leaves the clock at the floor (R562). -/
theorem completes_thermalHoldExit {s : State} {t0 : Nat} (hinv : s.Inv) (hhold : s.err.hold = true) (hcool : s.err.coolSince = some t0) :
    Completes .thermalHoldExit s (fun t =>
      t.err.hold = false ∧ t.ts = max s.ts (t0 + 10000000) ∧ t.regFld R.clkStatus 0 4 = 12) := by
  obtain ⟨t, hexec, ht⟩ := exec_thermalHoldExit hhold hcool
  obtain ⟨hheld, hts, hclock⟩ := State.leaveHold_left (s := { s with ts := max s.ts (t0 + 10000000) }) hinv.2
  refine .of_next hexec ?_
  rcases ht with rfl | rfl | rfl
  · exact ⟨hheld, hts, hclock⟩
  · exact ⟨hheld, hts, hclock⟩
  · refine ⟨?_, ?_, ?_⟩
    · rw [State.extendSlot_err, hheld]
    · rw [State.extendSlot_ts, hts]
    · rw [State.regFld, State.regAt_congr (State.extendSlot_regs _)]
      exact hclock

/-! What a fence takes offline. -/

theorem State.clearBit_bit (s : State) (key : Nat) {i : Nat} (hi : i < 32) : ((s.clearBit key i).regAt key).getLsbD i = false := by
  have h : (s.clearBit key i).regFld key i 1 = 0 := State.regFld_setFld_self s (by omega)
  rw [State.regFld, wordFld_bit] at h
  exact Bool.toNat_eq_zero.mp h

/-- Where no later step writes a register, the bit cleared in it stays clear. -/
theorem clearBit_stays {s t : State} (hw : RegsWf s.regs) {key i : Nat} (hi : i < 32) (h : keepsReg key (s.clearBit key i) t) :
    (t.extendSlot.regAt key).getLsbD i = false := by
  rw [State.regAt_congr (State.extendSlot_regs t), (h (State.setReg_wf hw _ _)).1]
  exact State.clearBit_bit s key hi

theorem memSramOnline_quiet {n : Nat} (h : n < 16) : quietKey (R.memSramOnline n) := by
  refine ⟨⟨⟨?_, ?_, fun b i => ?_⟩, ?_⟩, ?_, ?_, fun c => ?_⟩
  · unfold R.memSramOnline R.memMismatch; omega
  · unfold R.memSramOnline R.memAccViol; omega
  · unfold R.memSramOnline R.pmuCfg; omega
  · unfold R.memSramOnline R.crtStopCount; omega
  · unfold R.memSramOnline R.umpUrgentCount; omega
  · unfold R.memSramOnline R.scbErrSeq; omega
  · unfold R.memSramOnline R.scbErrCount; omega

theorem crtCourtOnline_quiet {n : Nat} (h : n < 4) : quietKey (R.crtCourtOnline n) ∧ R.crtCourtOnline n ≠ R.crtCap := by
  refine ⟨⟨⟨⟨?_, ?_, fun b i => ?_⟩, ?_⟩, ?_, ?_, fun c => ?_⟩, ?_⟩
  · unfold R.crtCourtOnline R.memMismatch; omega
  · unfold R.crtCourtOnline R.memAccViol; omega
  · unfold R.crtCourtOnline R.pmuCfg; omega
  · unfold R.crtCourtOnline R.crtStopCount; omega
  · unfold R.crtCourtOnline R.umpUrgentCount; omega
  · unfold R.crtCourtOnline R.scbErrSeq; omega
  · unfold R.crtCourtOnline R.scbErrCount; omega
  · unfold R.crtCourtOnline R.crtCap; omega

theorem lkrOnline_quiet : quietKey R.lkrOnline := by
  refine ⟨⟨⟨by decide, by decide, fun b i => ?_⟩, by decide⟩, by decide, by decide, fun c => ?_⟩
  · unfold R.lkrOnline R.pmuCfg; omega
  · unfold R.lkrOnline R.scbErrCount; omega

/-- The fence of an SRAM region writes no register of it but the bit that it clears. -/
theorem State.fenceUnit_region (s : State) {p : PendingFault} (hkind : p.unitKind = 4) {key : Nat} (hkey : quietKey key) :
    keepsReg key (s.clearBit (R.memSramOnline (p.unit / 32)) (p.unit % 32)) (s.fenceUnit p) := by
  have hfence : keepsReg key (s.clearBit (R.memSramOnline (p.unit / 32)) (p.unit % 32))
      ((s.clearBit (R.memSramOnline (p.unit / 32)) (p.unit % 32)).fenceSchedules (p.unit / 32)) := keepsReg_of_regs rfl
  unfold State.fenceUnit
  rw [hkind]
  exact keepsReg_trans hfence (State.fault_keepsReg _ _ hkey)

theorem State.fenceCourt_keepsReg (s : State) (court : Nat) (serve : Option Nat) {key : Nat} (hcap : key ≠ R.crtCap) :
    keepsReg key (s.clearBit (R.crtCourtOnline (court / 32)) (court % 32)) (s.fenceCourt court serve) := by
  have hcaps : keepsReg key (s.clearBit (R.crtCourtOnline (court / 32)) (court % 32))
      (s.clearBit (R.crtCourtOnline (court / 32)) (court % 32)).setCap :=
    keepsReg_trans (State.setReg_keepsReg _ _ hcap) (State.setReg_keepsReg _ _ hcap)
  exact keepsReg_trans hcaps (keepsReg_of_regs rfl)

/-- The fence of a court, or of its buffer, writes no register of it but the bit that it clears. -/
theorem State.fenceUnit_court (s : State) {p : PendingFault} (hkind : p.unitKind = 2 ∨ p.unitKind = 5) {key : Nat} (hkey : quietKey key)
    (hcap : key ≠ R.crtCap) : keepsReg key (s.clearBit (R.crtCourtOnline (p.unit / 32)) (p.unit % 32)) (s.fenceUnit p) := by
  have hfence : ∀ kind, keepsReg key (s.clearBit (R.crtCourtOnline (p.unit / 32)) (p.unit % 32))
      ((s.fenceCourt p.unit p.serve).fault (fenceRecord p kind p.unit [])) := fun kind =>
    keepsReg_trans (State.fenceCourt_keepsReg s p.unit p.serve hcap) (State.fault_keepsReg _ _ hkey)
  unfold State.fenceUnit
  rcases hkind with hkind | hkind
  · rw [hkind]
    exact keepsReg_ite (keepsReg_trans (hfence 2) (State.failDevice_keepsReg _ _ _ _ hkey)) (hfence 2)
  · rw [hkind]
    exact keepsReg_ite (keepsReg_trans (hfence 5) (State.failDevice_keepsReg _ _ _ _ hkey)) (hfence 5)

/-- The fence of a Locker writes no register of it but the bit that it clears. -/
theorem State.fenceUnit_locker (s : State) {p : PendingFault} (hkind : p.unitKind = 10) {key : Nat} (hkey : quietKey key) :
    keepsReg key (s.clearBit R.lkrOnline p.unit) (s.fenceUnit p) := by
  have hlost : keepsReg key (s.clearBit R.lkrOnline p.unit)
      (p.entries.foldl State.loseEntry ((s.clearBit R.lkrOnline p.unit).fault (fenceRecord p 10 p.unit []))) :=
    keepsReg_trans (State.fault_keepsReg _ _ hkey) (keepsReg_foldl (fun t e => State.loseEntry_keepsReg t e hkey.1) p.entries _)
  unfold State.fenceUnit
  rw [hkind]
  dsimp only
  exact keepsReg_ite (keepsReg_trans hlost (State.failDevice_keepsReg _ _ _ _ hkey)) hlost

/-- Settles O34: what a report and a fence make of the list of faults, and what they clear, are the lemmas above. -/
theorem faultsComplete : Obligations.FaultsComplete := by
  refine ⟨fun s kind unit cause hrun huse => ⟨fun hkind => .of_next rfl (State.unitFails_faults hrun cause huse hkind),
      fun hkind => .of_next rfl (State.unitFails_device hrun cause huse hkind),
      fun hkind => .of_next (if_pos hkind) (State.unitFails_faults hrun 4 huse ?_),
      fun hkind => .of_next (if_pos hkind) (State.unitFails_faults hrun 2 huse ?_)⟩,
    fun s p rest hfaults hpwr => .of_next (exec_fenceComplete hfaults hpwr) (fenceComplete_faults s p rest),
    fun s p rest hinv hfaults hpwr => ?fences, fun s sensor e hrun hhold hhot => exec_thermalHoldEntry hrun hhold hhot,
    fun s t0 hinv hhold hcool => completes_thermalHoldExit hinv hhold hcool⟩
  · omega
  · omega
  case fences =>
    have hnext := fun {Q : State → Prop} (h : Q _) => Completes.of_next (P := Q) (exec_fenceComplete hfaults hpwr) h
    refine ⟨fun hkind hunit => hnext ⟨fenceComplete_faults s p rest, ?_⟩, fun hkind hunit => hnext ⟨fenceComplete_faults s p rest, ?_⟩,
      fun hkind hunit => hnext ⟨fenceComplete_faults s p rest, ?_⟩⟩
    · exact clearBit_stays (s := s.faultsLeft rest) hinv.2 (Nat.mod_lt _ (by decide))
        (State.fenceUnit_region _ hkind (memSramOnline_quiet (n := p.unit / 32) (by omega)))
    · obtain ⟨hkey, hcap⟩ := crtCourtOnline_quiet (n := p.unit / 32) (by omega)
      exact clearBit_stays (s := s.faultsLeft rest) hinv.2 (Nat.mod_lt _ (by decide)) (State.fenceUnit_court _ hkind hkey hcap)
    · exact clearBit_stays (s := s.faultsLeft rest) hinv.2 (by omega) (State.fenceUnit_locker _ hkind lkrOnline_quiet)

end Sys2Proof.Machine
end

section
/-! SUPPORT. The Referee's registers, its sessions and its slots (R504, R535, R537, R545, R546). -/
namespace Sys2Proof.Machine
open Sys2Proof

/-- The control owner's writes reach every block of a running device (R544). -/
theorem blockWritable_owner {s : State} (hrun : s.pwr.phase = .running) (off : Nat) : blockWritable s s.host.owner off = true := by
  unfold blockWritable
  simp [State.booted_of_running hrun]

theorem ownerReaches {s : State} (hrun : s.pwr.phase = .running) (off : Nat) :
    ¬(s.booted = false ∨ (!blockWritable s s.host.owner off) = true) := by
  simp [State.booted_of_running hrun, blockWritable_owner hrun]

theorem wordFld_lt (v : Word) (lo w : Nat) : wordFld v lo w < 2 ^ w := Nat.mod_lt _ (Nat.two_pow_pos w)

/-! What an event leaves. -/

theorem State.opEvent_frame (s : State) (e : Rec32) :
    (s.opEvent e).ref = s.ref ∧ (s.opEvent e).mem = s.mem ∧ (s.opEvent e).regs = s.regs := by
  have : Fact True := ⟨trivial⟩
  have hk := State.opEvent_keeps (M := fun p => match p with | .host => True | _ => False) (ev := e) (Keeps.refl s)
  exact ⟨hk.parts .ref id, hk.parts .mem id, hk.parts .regs id⟩

theorem refDebug_frame (s : State) (level : Nat) (granted : Bool) :
    (refDebug s level granted).ref = s.ref ∧ (refDebug s level granted).mem = s.mem ∧ (refDebug s level granted).regs = s.regs :=
  State.opEvent_frame s _

theorem refEvent_frame (ty slot tenant : Nat) (bits : List LayoutField) (s : State) :
    (refEvent ty slot tenant bits s).ref = s.ref ∧ (refEvent ty slot tenant bits s).mem = s.mem ∧
    (refEvent ty slot tenant bits s).regs = s.regs := State.opEvent_frame s _

/-! Rotations. -/

theorem exec_refRotateGo {s : State} {v : Word} {r : RefSlot} (hrun : s.pwr.phase = .running) (hgo : wordFld v 31 1 = 1)
    (hslot : s.slot? (wordFld v 0 16) = some r) : exec (.refRotateGo s.host.owner v) s =
      let t := s.setFld R.refRotate 0 16 (wordFld v 0 16)
      if rotateBusy s (wordFld v 0 16) then .next (t.setFld R.refRotate 30 1 1)
      else .next ((t.setFld R.refRotate 30 1 0).rotate (wordFld v 0 16)) := by
  have hslot' : ¬(wordFld v 31 1 = 0 ∨ ((s.setFld R.refRotate 0 16 (wordFld v 0 16)).slot? (wordFld v 0 16)).isNone = true) := by
    rw [show (s.setFld R.refRotate 0 16 (wordFld v 0 16)).slot? (wordFld v 0 16) = some r from hslot, hgo]
    simp
  exact (if_neg (ownerReaches hrun R.refRotate)).trans (if_neg hslot')

theorem State.rotate_of {s : State} {slot : Nat} {k : KeySlot} (hk : Tbl.get? s.mem.keySlots slot = some k) :
    Tbl.get? (s.rotate slot).mem.keySlots slot =
      some (if k.cur = 0 then { k with cur := 1, oldLive := true, switched := [], key1 := s.mem.nextKey }
        else { k with cur := 0, oldLive := true, switched := [], key0 := s.mem.nextKey }) ∧ (s.rotate slot).regs = s.regs := by
  unfold State.rotate
  rw [hk]
  exact ⟨Tbl.get?_set_self _ _ _, rfl⟩

/-! Sessions and slots. -/

theorem State.modCtx_ref (s : State) (c : Nat) (f : Context → Context) : (s.modCtx c f).ref = s.ref := by
  have : Fact True := ⟨trivial⟩
  exact (State.modCtx_keeps (M := fun p => match p with | .host => True | _ => False) (Keeps.refl s)).parts .ref id

theorem foldl_ref {α : Type} {f : State → α → State} (hf : ∀ t x, (f t x).ref = t.ref) (l : List α) (s : State) :
    (l.foldl f s).ref = s.ref := by
  induction l generalizing s with
  | nil => rfl
  | cons x l ih => exact (ih _).trans (hf s x)

/-- A session closed (R535): what is listed of the sessions, the slots as they were, and no SPDM session that carries it. -/
theorem State.closeSession_ref (s : State) (n : Nat) :
    (s.closeSession n).ref.slots = s.ref.slots ∧
    (∀ p ∈ (s.closeSession n).ref.sessions, ∃ q ∈ s.ref.sessions, p.1 = q.1 ∧ p.2.slot = q.2.slot ∧
      p.2.st = if q.1 = n then .closed else q.2.st) ∧
    (∀ p ∈ (s.closeSession n).ref.spdm, p.2.tenantSession ≠ n ∨ n = 0) := by
  unfold State.closeSession
  extract_lets ref closed torn
  have htorn : torn.ref = closed.ref := foldl_ref (fun t c => State.modCtx_ref t c _) _ closed
  have hslots : torn.dropClosed.ref.slots = torn.ref.slots := rfl
  have hsessions : ∀ p ∈ torn.dropClosed.ref.sessions, p ∈ torn.ref.sessions := fun p hp => List.mem_of_mem_filter hp
  have hspdm : torn.dropClosed.ref.spdm = torn.ref.spdm := rfl
  refine ⟨by rw [hslots, htorn], fun p hp => ?_, fun p hp => ?_⟩
  · have hp' := hsessions p hp
    rw [htorn] at hp'
    obtain ⟨q, hq, rfl⟩ := List.mem_map.mp hp'
    refine ⟨q, hq, ?_⟩
    split
    next h => exact ⟨rfl, rfl, rfl⟩
    next h => exact ⟨rfl, rfl, rfl⟩
  · rw [hspdm, htorn] at hp
    obtain ⟨q, -, rfl⟩ := List.mem_map.mp hp
    dsimp only
    split
    next h => exact (eq_or_ne n 0).symm.imp (fun hn => fun h0 => hn h0.symm) id
    next h => exact .inl h

/-- Sessions closed one after the other: a session that is still open was open before and is none of them. -/
theorem closeSessions_ref (ns : List Nat) (s : State) :
    (ns.foldl State.closeSession s).ref.slots = s.ref.slots ∧
    ∀ p ∈ (ns.foldl State.closeSession s).ref.sessions, p.2.st ≠ .closed →
      p.1 ∉ ns ∧ ∃ q ∈ s.ref.sessions, p.1 = q.1 ∧ p.2.slot = q.2.slot ∧ p.2.st = q.2.st := by
  induction ns generalizing s with
  | nil => exact ⟨rfl, fun p hp _ => ⟨by simp, p, hp, rfl, rfl, rfl⟩⟩
  | cons n ns ih =>
    obtain ⟨hslots, hopen⟩ := ih (s.closeSession n)
    obtain ⟨hslots', hsessions, -⟩ := State.closeSession_ref s n
    refine ⟨hslots.trans hslots', fun p hp hst => ?_⟩
    obtain ⟨hnot, q, hq, hkey, hslot, hqst⟩ := hopen p hp hst
    obtain ⟨o, ho, hkey', hslot', host⟩ := hsessions q hq
    by_cases hn : o.1 = n
    · rw [if_pos hn] at host
      exact absurd (hqst.trans host) hst
    · rw [if_neg hn] at host
      have hne : p.1 ≠ n := by rw [hkey, hkey']; exact hn
      exact ⟨List.not_mem_cons_of_ne_of_not_mem hne hnot, o, ho, hkey.trans hkey', hslot.trans hslot', hqst.trans host⟩

theorem State.revoke_ref (s : State) (tenant id : Nat) (all : Bool) (did : Option Nat) : (s.revoke tenant id all did).ref = s.ref := by
  have : Fact True := ⟨trivial⟩
  exact (State.revoke_keeps (M := fun p => match p with | .ref => False | _ => True) (Keeps.refl s)).parts .ref not_false

/-- A purge (R535): the slot is PURGING and the tenant's sessions are closed. -/
theorem State.purgeSlot_ref {s : State} {slot : Nat} {r : RefSlot} (hslot : s.slot? slot = some r) (hst : r.st = .bound) :
    (s.purgeSlot slot).slot? slot = some { r with st := .purging } ∧
    ∀ q ∈ (s.purgeSlot slot).ref.sessions, q.2.slot = slot → q.2.st = .closed := by
  unfold State.purgeSlot
  rw [hslot]
  dsimp only
  rw [if_neg (by rw [hst]; decide)]
  refine ⟨?_, fun q hq hqs => ?_⟩
  · rw [State.slot?, State.revoke_ref]
    exact Tbl.get?_set_self _ _ _
  · rw [State.revoke_ref] at hq
    by_contra hopen
    obtain ⟨hnot, o, ho, hkey, hslot', host⟩ := (closeSessions_ref _ s).2 q hq hopen
    refine hnot (hkey ▸ List.mem_map.mpr ⟨o, List.mem_filter.mpr ⟨ho, ?_⟩, rfl⟩)
    simp [← hslot', hqs, ← host, hopen]

/-! The register of a purge. -/

theorem State.modCtx_regs (s : State) (c : Nat) (f : Context → Context) : (s.modCtx c f).regs = s.regs := by
  have : Fact True := ⟨trivial⟩
  exact (State.modCtx_keeps (M := fun p => match p with | .host => True | _ => False) (Keeps.refl s)).parts .regs id

theorem State.closeSession_regs (s : State) (n : Nat) : (s.closeSession n).regs = s.regs := by
  have : Fact True := ⟨trivial⟩
  exact (State.closeSession_keeps (M := fun p => match p with | .host | .ref => True | _ => False) (Keeps.refl s)).parts .regs not_false

theorem State.revokeEntry_keepsReg (s : State) (id : Nat) {key : Nat} (h : plainKey key) : keepsReg key s (s.revokeEntry id) := by
  unfold State.revokeEntry
  extract_lets dropped lkr stopped
  have hdropped : keepsReg key s dropped := State.dropWaiting_keepsReg s id h
  have hstopped : keepsReg key dropped stopped := by
    unfold stopped
    split
    next l _ =>
      extract_lets off
      have hoff : keepsReg key dropped off := keepsReg_ite (State.abandonLoad_keepsReg dropped id h) (keepsReg_of_regs rfl)
      exact keepsReg_trans hoff (State.finish_keepsReg off _ _ _ _ _ h)
    next => exact keepsReg_refl key dropped
  exact keepsReg_trans hdropped (keepsReg_trans hstopped (keepsReg_of_regs rfl))

theorem State.revoke_keepsReg (s : State) (tenant id : Nat) (all : Bool) (did : Option Nat) {key : Nat} (h : plainKey key) :
    keepsReg key s (s.revoke tenant id all did) := by
  unfold State.revoke
  extract_lets ids named left lkr
  have hnamed : keepsReg key s named := keepsReg_foldl (fun t i => State.revokeEntry_keepsReg t i h) ids s
  split
  · split
    · exact keepsReg_trans hnamed (State.finish_keepsReg _ _ _ _ _ _ h)
    · exact hnamed
  · exact hnamed

theorem State.purgeSlot_keepsReg (s : State) (slot : Nat) {key : Nat} (h : plainKey key) : keepsReg key s (s.purgeSlot slot) := by
  unfold State.purgeSlot
  split
  · exact keepsReg_refl key s
  next r _ =>
    split
    · exact keepsReg_refl key s
    · extract_lets mine closed
      have hclosed : keepsReg key s closed := keepsReg_of_regs (foldl_regs State.closeSession_regs mine s)
      exact keepsReg_trans hclosed (State.revoke_keepsReg (closed.setSlot slot _) _ _ _ _ h)

theorem refPurge_plain : plainKey R.refPurge := ⟨by decide, by decide, fun b i => by unfold R.refPurge R.pmuCfg; omega⟩

theorem exec_purgeGo {s : State} {v : Word} (hrun : s.pwr.phase = .running) (hgo : wordFld v 31 1 = 1) :
    exec (.purgeGo s.host.owner v) s = .next ((s.setFld R.refPurge 0 16 (wordFld v 0 16)).purgeSlot (wordFld v 0 16)) :=
  (if_neg (ownerReaches hrun R.refPurge)).trans (if_neg (by rw [hgo]; decide))

/-- The last page of a PURGING slot gone (R535). -/
theorem exec_slotPurgeDone {s : State} {slot : Nat} {r : RefSlot} (hslot : s.slot? slot = some r) (hst : r.st = .purging)
    (hpages : ∀ p ∈ s.mem.pages, p.2.cls = 1 → p.2.index ≠ slot) : Completes (.slotPurgeDone slot) s (fun t =>
      t.slot? slot = none ∧ Tbl.get? t.mem.keySlots slot = none ∧ ∀ w ∈ t.mem.sweeps, w.slot ≠ slot) := by
  have hgo : ¬(r.st ≠ .purging ∨ s.mem.pages.any (fun p => p.2.cls == 1 && p.2.index == slot) = true) := by
    simp only [hst, ne_eq, not_true_eq_false, false_or, List.any_eq_true, not_exists, not_and, Bool.and_eq_true, beq_iff_eq, Prod.forall]
    exact fun a b hp hcls => hpages _ hp hcls
  show ∃ t, execSlotPurgeDone slot s = .next t ∧ _
  unfold execSlotPurgeDone
  rw [hslot]
  dsimp only
  rw [if_neg hgo]
  obtain ⟨href, hmem, -⟩ := refEvent_frame 0x00D0 slot r.tenant [] { s with
    ref := { s.ref with
      slots := Tbl.erase s.ref.slots slot }
    mem := { s.mem with
      keySlots := Tbl.erase s.mem.keySlots slot
      sweeps := s.mem.sweeps.filter (fun w => w.slot != slot) } }
  refine ⟨_, rfl, ?_, ?_, fun w hw => ?_⟩
  · rw [State.slot?, href]
    exact Tbl.get?_erase_self _ _
  · rw [hmem]
    exact Tbl.get?_erase_self _ _
  · rw [hmem] at hw
    simpa using (List.mem_filter.mp hw).2

theorem exec_refDbgCtlLock {s : State} {v : Word} (hrun : s.pwr.phase = .running) (hlock : wordFld v 0 1 = 1)
    (hlevel : s.ref.debugLevel = 1) : exec (.refDbgCtlLock s.host.owner v) s = .next (refDebug (s.setDebug 0) 0 true) := by
  have hgo : ¬(s.booted = false ∨ (!blockWritable s s.host.owner R.refDbgCtl) = true ∨ wordFld v 0 1 = 0) := by
    simp [State.booted_of_running hrun, blockWritable_owner hrun, hlock]
  show execRefDbgCtlLock s.host.owner v s = _
  unfold execRefDbgCtlLock
  rw [if_neg hgo, hlevel]
  rfl

theorem exec_refProfCtlReq {s : State} {v : Word} (hrun : s.pwr.phase = .running) : exec (.refProfCtlReq s.host.owner v) s =
    if wordFld v 0 1 = 0 then .next (if s.ref.profiling then s.setProfiling false else s)
    else if s.ref.profiling then .next s
    else if s.allPresent (·.profileOk) then .next (refDebug (s.setProfiling true) 0 true)
    else .next (refDebug s 0 false) := if_neg (ownerReaches hrun R.refProfCtl)

theorem State.setProfiling_shown (s : State) (on : Bool) :
    (s.setProfiling on).ref.profiling = on ∧ (s.setProfiling on).regFld R.refProfCtl 0 1 = if on then 1 else 0 := by
  refine ⟨rfl, (State.regFld_setFld_self (s.extendMrBytes 9 _) (by decide)).trans ?_⟩
  cases on <;> rfl

theorem State.setDebug_shown (s : State) : (s.setDebug 0).ref.debugLevel = 0 ∧ (s.setDebug 0).regFld R.refStatus 3 2 = 0 :=
  ⟨rfl, State.regFld_setFld_self (s.extendMrBytes 8 _) (by decide)⟩

theorem completes_refRotateGo {s : State} {v : Word} {r : RefSlot} {k : KeySlot} (hrun : s.pwr.phase = .running)
    (hgo : wordFld v 31 1 = 1) {slot : Nat} (hv : wordFld v 0 16 = slot) (hslot : s.slot? slot = some r)
    (hk : Tbl.get? s.mem.keySlots slot = some k) (hbusy : rotateBusy s slot = false) :
    Completes (.refRotateGo s.host.owner v) s (fun t => t.regFld R.refRotate 0 16 = slot ∧ t.regFld R.refRotate 30 1 = 0 ∧
      Tbl.get? t.mem.keySlots slot = some (if k.cur = 0 then { k with cur := 1, oldLive := true, switched := [], key1 := s.mem.nextKey }
        else { k with cur := 0, oldLive := true, switched := [], key0 := s.mem.nextKey })) := by
  subst hv
  have hexec := exec_refRotateGo hrun hgo hslot
  rw [hbusy] at hexec
  obtain ⟨hkey, hregs⟩ := State.rotate_of
    (s := (s.setFld R.refRotate 0 16 (wordFld v 0 16)).setFld R.refRotate 30 1 0) (slot := wordFld v 0 16) hk
  refine .of_next hexec ⟨?_, ?_, hkey⟩
  · rw [State.regFld_congr hregs, State.regFld_setFld_ne _ (by decide) (by decide), State.regFld_setFld_self _ (by decide)]
    exact Nat.mod_eq_of_lt (wordFld_lt v 0 16)
  · exact (State.regFld_congr hregs _ _ _).trans (State.regFld_setFld_self _ (by decide))

/-- Settles O35: each register's command is one of the operations above. -/
theorem refereeRegistersComplete : Obligations.RefereeRegistersComplete := by
  refine ⟨fun s v r k hrun hgo => ?rotate, fun s v r hrun hgo hslot hbusy => ?busy, fun s v r hinv hrun hgo hslot hst => ?purge,
    fun s slot r hslot hst hpages => exec_slotPurgeDone hslot hst hpages, fun s v hrun hlock hlevel => ?lock,
    fun s v hrun hreq hoff hall => ?grant, fun s v hrun hreq hoff hall => ?refuse, fun s v hrun hreq hon => ?stop⟩
  case rotate => exact fun hslot hk hbusy => completes_refRotateGo hrun hgo rfl hslot hk hbusy
  case busy =>
    exact .of_next ((exec_refRotateGo hrun hgo hslot).trans (if_pos hbusy))
      ⟨State.regFld_setFld_self _ (by decide), (State.setFld_mem _ _ _ _ _).trans (State.setFld_mem _ _ _ _ _)⟩
  case purge =>
    have hslot' : (s.setFld R.refPurge 0 16 (wordFld v 0 16)).slot? (wordFld v 0 16) = some r := by
      rw [State.slot?, State.setFld_ref]
      exact hslot
    refine .of_next (exec_purgeGo hrun hgo) ⟨?_, State.purgeSlot_ref hslot' hst⟩
    have hkept := (State.purgeSlot_keepsReg (s.setFld R.refPurge 0 16 (wordFld v 0 16)) (wordFld v 0 16) refPurge_plain
      (State.setFld_wf hinv.2 _ _ _ _)).1
    rw [State.regFld, hkept]
    exact (State.regFld_setFld_self s (by decide)).trans (Nat.mod_eq_of_lt (wordFld_lt v 0 16))
  case lock =>
    obtain ⟨href, -, hregs⟩ := refDebug_frame (s.setDebug 0) 0 true
    obtain ⟨hlevel', hshown⟩ := State.setDebug_shown s
    refine .of_next (exec_refDbgCtlLock hrun hlock hlevel) ⟨by rw [href, hlevel'], ?_⟩
    rw [State.regFld_congr hregs, hshown]
  case grant =>
    obtain ⟨href, -, hregs⟩ := refDebug_frame (s.setProfiling true) 0 true
    obtain ⟨hon, hshown⟩ := State.setProfiling_shown s true
    have hexec : exec (.refProfCtlReq s.host.owner v) s = .next (refDebug (s.setProfiling true) 0 true) := by
      rw [exec_refProfCtlReq hrun, if_neg (by rw [hreq]; decide), if_neg (by rw [hoff]; decide), if_pos hall]
    refine .of_next hexec ⟨by rw [href, hon], ?_⟩
    rw [State.regFld_congr hregs, hshown]
    rfl
  case refuse =>
    have hexec : exec (.refProfCtlReq s.host.owner v) s = .next (refDebug s 0 false) := by
      rw [exec_refProfCtlReq hrun, if_neg (by rw [hreq]; decide), if_neg (by rw [hoff]; decide), if_neg (by rw [hall]; decide)]
    exact .of_next hexec (refDebug_frame s 0 false).1
  case stop =>
    have hexec : exec (.refProfCtlReq s.host.owner v) s = .next (s.setProfiling false) := by
      rw [exec_refProfCtlReq hrun, if_pos hreq, if_pos hon]
    exact .of_next hexec (State.setProfiling_shown s false)

end Sys2Proof.Machine
end

section
/-! SUPPORT. The debug port and the SPDM responder (R526, R527, R535, R537, R538). -/
namespace Sys2Proof.Machine
open Sys2Proof

/-! The debug port. -/

theorem bytesOf_one (v : Nat) : bytesOf 1 v = [BitVec.ofNat 8 v] := rfl

/-- Byte 32 of a challenge is the level that it asks for. -/
theorem challenge_block (a b level : Nat) :
    (bytesOf 32 a ++ bytesOf 1 level ++ (bytesOf 48 b).take 31).length = 64 ∧
    (bytesOf 32 a ++ bytesOf 1 level ++ (bytesOf 48 b).take 31)[32]? = some (BitVec.ofNat 8 level) := by
  refine ⟨by simp [bytesOf_length], ?_⟩
  rw [bytesOf_one, List.append_assoc, List.getElem?_append_right (by rw [bytesOf_length]), bytesOf_length]
  rfl

theorem completes_dbgChallenge {s : State} (level : Nat) (hrun : s.pwr.phase = .running) (hfails : s.ref.dbgFails < 16) :
    Completes (.dbgChallenge level) s (fun t => ∃ block : List Byte, block.length = 64 ∧ t.host.out = s.host.out ++ [.tap block] ∧
      t.ref.nonce = some (level % 256, BitVec.ofNat 512 (ofBytes block)) ∧ block[32]? = some (BitVec.ofNat 8 level)) := by
  have hgo : ¬(s.booted = false ∨ 16 ≤ s.ref.dbgFails) := by simp [State.booted_of_running hrun, hfails]
  obtain ⟨hlen, hbyte⟩ := challenge_block (s.freeVal 256).toNat devIdHash.toNat level
  exact .of_next (if_neg hgo) ⟨_, hlen, rfl, rfl, hbyte⟩

/-- What an answer to a challenge leaves: the level reached, and the failures counted (R538). -/
theorem completes_dbgResponse {s : State} {level : Nat} {n : BitVec 512} (rsa slh block : List Byte) (hrun : s.pwr.phase = .running)
    (hfails : s.ref.dbgFails < 16) (hnonce : s.ref.nonce = some (level, n)) :
    let good := rsaVerify (block.take 384) ((block.drop 384).take 4) (bytesOf 64 n.toNat) rsa &&
      slhVerify ((block.drop 388).take 48) (bytesOf 64 n.toNat) slh && sha384 (block.take 436) == Config.debugKeyHash
    Completes (.dbgResponse rsa slh block) s (fun t => t.ref.nonce = none ∧
      t.ref.debugLevel = (if good && debugAllowed s level then level else s.ref.debugLevel) ∧
      t.ref.dbgFails = (if good then s.ref.dbgFails else s.ref.dbgFails + 1)) := by
  have hgo : ¬(s.booted = false ∨ 16 ≤ s.ref.dbgFails) := by simp [State.booted_of_running hrun, hfails]
  let used : State := { s with ref := { s.ref with nonce := none } }
  have hallowed : debugAllowed used level = debugAllowed s level := rfl
  intro good
  have hexec : exec (.dbgResponse rsa slh block) s =
      if !good then .next (refDebug { used.authFail with ref := { used.ref with dbgFails := s.ref.dbgFails + 1 } } level false)
      else if debugAllowed s level then
        .next (refDebug (if level = 2 then zeroiseForDebug (used.setDebug level) else used.setDebug level) level true)
      else .next (refDebug used level false) := by
    show execDbgResponse rsa slh block s = _
    unfold execDbgResponse
    rw [hnonce]
    dsimp only
    rw [if_neg hgo]
    rfl
  clear_value good
  cases good
  · refine .of_next (hexec.trans (if_pos rfl)) ?_
    rw [(refDebug_frame _ _ _).1]
    exact ⟨rfl, rfl, rfl⟩
  · cases hall : debugAllowed s level
    · rw [hall] at hexec
      refine .of_next hexec ?_
      rw [(refDebug_frame _ _ _).1]
      exact ⟨rfl, rfl, rfl⟩
    · rw [hall] at hexec
      refine .of_next hexec ?_
      rw [(refDebug_frame _ _ _).1]
      split
      · exact ⟨rfl, rfl, rfl⟩
      · exact ⟨rfl, rfl, rfl⟩

/-- Settles O36: the challenge's bytes, and the two ends of a response. -/
theorem debugPortCompletes : Obligations.DebugPortCompletes :=
  ⟨fun _ level hrun hfails => completes_dbgChallenge level hrun hfails,
    fun _ _ _ rsa slh block hrun hfails hnonce => completes_dbgResponse rsa slh block hrun hfails hnonce⟩

end Sys2Proof.Machine
end

section
/-! SUPPORT. The SPDM responder (R526, R527, R535). -/
namespace Sys2Proof.Machine
open Sys2Proof

@[simp] theorem State.conn_setConn_self (s : State) (p : Port) (c : SpdmConn) : (s.setConn p c).conn p = c := by cases p <;> rfl

@[simp] theorem State.conn_setConn_other (s : State) (p : Port) (c : SpdmConn) : (s.setConn p c).conn p.other = s.conn p.other := by
  cases p <;> rfl

theorem State.spdmReply_ref (s : State) (p : Port) (code : Nat) (body : List Byte) : (s.spdmReply p code body).ref = s.ref := rfl

theorem State.spdmReply_conn (s : State) (p : Port) (code : Nat) (body : List Byte) (q : Port) :
    (s.spdmReply p code body).conn q = s.conn q := by cases q <;> rfl

/-- A reply is one more answer of its code, whatever the change of the Referee's state before it. -/
theorem spdmReply_answers {s u : State} (h : u.host = s.host) (p : Port) (code : Nat) (body : List Byte) :
    spdmAnswers s p code (u.spdmReply p code body) := ⟨_, congrArg (fun x : HostState => x.out ++ _) h⟩

/-- A request that an open responder takes (R526). -/
theorem State.spdm_of {s : State} (hopen : spdmOpen s) (p : Port) (code : Nat) {ready : SpdmConn → Bool} (hready : ready (s.conn p) = true)
    (act : State → State) : s.spdm p code ready act = act s := by
  obtain ⟨hrun, hlevel⟩ := hopen
  unfold State.spdm
  rw [if_neg (by rw [State.booted_of_running hrun]; decide), if_neg (fun h => hlevel h.1), if_neg (by rw [hready]; decide)]

/-- A request inside an established session of the port (R526). -/
theorem State.spdmIn_of {s : State} (hopen : spdmOpen s) {p : Port} (code : Nat) {i : Nat} {k : SpdmSession}
    (hk : Tbl.get? s.ref.spdm i = some k) (hport : k.port = p) (hest : k.established = true) (act : SpdmSession → State → State) :
    s.spdmIn p code i act = act k s := by
  unfold State.spdmIn
  rw [State.spdm_of hopen p code rfl, hk]
  exact if_pos ⟨hport, hest⟩

theorem completes_getMeasurements {s : State} (hopen : spdmOpen s) {p : Port} {body : List Byte} (halg : (s.conn p).algorithms = true)
    (hop : ofBytes ((body.drop 1).take 1) ≤ 13 ∨ ofBytes ((body.drop 1).take 1) = 255) :
    Completes (.getMeasurements p body) s (spdmAnswers s p 0xE0) := by
  refine .of_next (congrArg Host.Outcome.next ((State.spdm_of hopen p 0xE0 halg _).trans (if_neg (by omega)))) ?_
  exact ⟨_, rfl⟩

/-- A key exchange begins the first free session. -/
theorem completes_keyExchange {s : State} (hopen : spdmOpen s) {p : Port} {body : List Byte} (halg : (s.conn p).algorithms = true) {i : Nat}
    (hfree : (List.range 64).find? (fun j => (Tbl.get? s.ref.spdm j).isNone) = some i) :
    Completes (.keyExchange p body) s (fun t => spdmAnswers s p 0xE4 t ∧
      (∃ k, Tbl.get? t.ref.spdm i = some k ∧ k.port = p ∧ k.established = false ∧ k.tenantSession = 0) ∧
      ∀ j, j ≠ i → Tbl.get? t.ref.spdm j = Tbl.get? s.ref.spdm j) := by
  have hexec : exec (.keyExchange p body) s =
      .next ((s.freed.setSpdm i ⟨p, 0, s.freeVal 384, false, 0, 0⟩).spdmReply p 0xE4 body) := by
    refine congrArg Host.Outcome.next ((State.spdm_of hopen p 0xE4 halg _).trans ?_)
    rw [hfree]
  exact .of_next hexec ⟨spdmReply_answers rfl p 0xE4 body, ⟨_, Tbl.get?_set_self _ _ _, rfl, rfl, rfl⟩,
    fun j hj => Tbl.get?_set_ne _ _ hj⟩

theorem exec_finish {s : State} (hopen : spdmOpen s) {p : Port} {i : Nat} {k : SpdmSession} (leaf : Digest) (ok : Bool)
    (hk : Tbl.get? s.ref.spdm i = some k) (hport : k.port = p) (hest : k.established = false) : exec (.finish p i leaf ok) s =
      .next (if ok then (s.setSpdm i { k with established := true, leafHash := leaf }).spdmReply p 0xE5 []
        else ({ s with ref := { s.ref with spdm := Tbl.erase s.ref.spdm i } } : State).spdmError p 0xE5 spdmInvalid) := by
  refine congrArg Host.Outcome.next ((State.spdm_of hopen p 0xE5 rfl _).trans ?_)
  rw [hk]
  exact if_neg (by simp [hport, hest])

/-- An IDE stream's key generation goes on (R441). -/
theorem exec_ideKm {s : State} (hopen : spdmOpen s) {p : Port} {i : Nat} {k : SpdmSession} {body : List Byte}
    (hk : Tbl.get? s.ref.spdm i = some k) (hport : k.port = p) (hest : k.established = true)
    (hstream : ofBytes ((body.drop 1).take 1) < 8) : exec (.ideKm p i body) s =
      .next ((s.setConn p { s.conn p with
        ideStreams := if ofBytes (body.take 1) = 2
          then Tbl.set (s.conn p).ideStreams (ofBytes ((body.drop 1).take 1))
            (Tbl.getD (s.conn p).ideStreams (ofBytes ((body.drop 1).take 1)) 0 + 1)
          else (s.conn p).ideStreams }).spdmReply p 0xFE body) :=
  congrArg Host.Outcome.next ((State.spdmIn_of hopen 0xFE hk hport hest _).trans (if_neg (Nat.not_le.mpr hstream)))

/-- Settles O37: each request is taken by `State.spdm`, and its answer is one emission. -/
theorem spdmCompletes : Obligations.SpdmCompletes := by
  refine ⟨fun s p body hopen => ⟨?version, fun hready => ?capabilities, fun hready => ?algorithms, fun halg => ⟨?digests, fun hslot => ?certificate,
      ?challenge, fun hop => completes_getMeasurements hopen halg hop, fun i hfree => completes_keyExchange hopen halg hfree⟩⟩,
    fun s p i k leaf hopen hk hport hest => ⟨?finish, ?unverified⟩,
    fun s p i k body hopen hk hport hest => ⟨?heartbeat, ?update, ?ended, fun hop hstream => ?keyed, fun hop hstream => ?unkeyed⟩⟩
  case version =>
    exact .of_next (congrArg Host.Outcome.next (State.spdm_of hopen p 0x84 rfl _)) ⟨(State.spdmReply_conn _ _ _ _ _).trans
      (State.conn_setConn_self _ _ _), (State.spdmReply_conn _ _ _ _ _).trans (State.conn_setConn_other _ _ _),
      spdmReply_answers (State.setConn_host _ _ _) p 0x84 body⟩
  case capabilities =>
    exact .of_next (congrArg Host.Outcome.next (State.spdm_of hopen p 0xE1 hready _)) ⟨(State.spdmReply_conn _ _ _ _ _).trans
      (State.conn_setConn_self _ _ _), spdmReply_answers (State.setConn_host _ _ _) p 0xE1 body⟩
  case algorithms =>
    exact .of_next (congrArg Host.Outcome.next (State.spdm_of hopen p 0xE3 hready _)) ⟨(State.spdmReply_conn _ _ _ _ _).trans
      (State.conn_setConn_self _ _ _), spdmReply_answers (State.setConn_host _ _ _) p 0xE3 body⟩
  case digests => exact .of_next (congrArg Host.Outcome.next (State.spdm_of hopen p 0x81 halg _)) rfl
  case certificate =>
    exact .of_next (congrArg Host.Outcome.next ((State.spdm_of hopen p 0x82 halg _).trans (if_neg (not_not.mpr hslot)))) rfl
  case challenge => exact .of_next (congrArg Host.Outcome.next (State.spdm_of hopen p 0x83 halg _)) ⟨_, rfl⟩
  case finish => exact .of_next (exec_finish hopen leaf true hk hport hest) ⟨Tbl.get?_set_self _ _ _, spdmReply_answers rfl p 0xE5 []⟩
  case unverified => exact .of_next (exec_finish hopen leaf false hk hport hest) (Tbl.get?_erase_self _ _)
  case heartbeat =>
    exact .of_next (congrArg Host.Outcome.next (State.spdmIn_of hopen 0xE8 hk hport hest _)) ⟨rfl, spdmReply_answers rfl p 0xE8 body⟩
  case update =>
    exact .of_next (congrArg Host.Outcome.next (State.spdmIn_of hopen 0xE9 hk hport hest _))
      ⟨Tbl.get?_set_self _ _ _, spdmReply_answers rfl p 0xE9 body⟩
  case ended =>
    exact .of_next (congrArg Host.Outcome.next (State.spdmIn_of hopen 0xEC hk hport hest _))
      ⟨Tbl.get?_erase_self _ _, rfl, rfl, spdmReply_answers rfl p 0xEC body⟩
  case keyed =>
    refine .of_next (exec_ideKm hopen hk hport hest hstream) ⟨?_, spdmReply_answers (State.setConn_host _ _ _) p 0xFE body⟩
    rw [State.spdmReply_conn, State.conn_setConn_self, if_pos hop]
    exact Tbl.get?_set_self _ _ _
  case unkeyed =>
    refine .of_next (exec_ideKm hopen hk hport hest hstream) ⟨?_, spdmReply_answers (State.setConn_host _ _ _) p 0xFE body⟩
    rw [State.spdmReply_conn, State.conn_setConn_self, if_neg hop]

end Sys2Proof.Machine
end

section
/-! SUPPORT. Tenant messages (R529 to R537). -/
namespace Sys2Proof.Machine
open Sys2Proof

/-- The state that answers a tenant message with a reply. -/
def answered (port : Port) (code : Nat) (reply : TenantReply) : State := reply.2.2.emit (.spdm port code reply.1 reply.2.1)

theorem answered_answers (port : Port) (code : Nat) (reply : TenantReply) : tenantAnswers port code reply.1 (answered port code reply) :=
  ⟨_, List.getLast?_concat⟩

/-- A message of an established session that an open responder takes (R529). -/
theorem State.vendor_of {s : State} (hopen : spdmOpen s) {i : Nat} {k : SpdmSession} (hk : Tbl.get? s.ref.spdm i = some k)
    (hest : k.established = true) (code : Nat) (act : SpdmSession → State → TenantReply) :
    s.vendor i code act = answered k.port code (act k s) := by
  obtain ⟨hrun, hlevel⟩ := hopen
  unfold State.vendor
  rw [hk]
  dsimp only
  rw [if_neg (by simp [State.booted_of_running hrun, hest]), if_neg hlevel]
  rfl

/-- A message of the tenant session that an SPDM session carries (R529). -/
theorem State.tenant_of {s : State} {i n : Nat} {k : SpdmSession} {q : Session} {r : RefSlot} (h : tenantHere s i k n q r) (code : Nat)
    (act : SpdmSession → Nat → Session → RefSlot → State → TenantReply) :
    s.tenant i code act = answered k.port code (act k n q r s) := by
  obtain ⟨hopen, hk, hest, hn, hne, hq, hst, hr⟩ := h
  unfold State.tenant
  rw [State.vendor_of hopen hk hest, hn, hq]
  dsimp only
  rw [hr]
  exact congrArg (answered k.port code) (if_neg (fun h => h.elim hne hst))

/-! Binding (R531). -/

/-- A binding's session, and the SPDM session that carries it. -/
theorem bindTo_left (s : State) (i : Nat) (k : SpdmSession) (tenant slot n : Nat) (port : Port) (code : Nat) :
    let t := answered port code (bindTo s i k tenant slot n)
    (∃ q, Tbl.get? t.ref.sessions n = some q ∧ q.tenant = tenant ∧ q.slot = slot ∧ q.st = .binding ∧ q.grants = []) ∧
    t.ref.slots = s.ref.slots ∧ Tbl.get? t.ref.spdm i = some { k with tenantSession := n } ∧ tenantAnswers port code 0 t :=
  ⟨⟨_, Tbl.get?_set_self _ _ _, rfl, rfl, rfl, rfl⟩, rfl, Tbl.get?_set_self _ _ _, answered_answers _ _ (bindTo s i k tenant slot n)⟩

theorem completes_tntBind_new {s : State} {i n slot : Nat} {k : SpdmSession} {body : List Byte} (hopen : spdmOpen s)
    (hk : Tbl.get? s.ref.spdm i = some k) (hest : k.established = true)
    (hnew : s.ref.slots.find? (fun p => p.2.tenant == bodyNum body 0 4) = none) (hn : s.freeSession = some n)
    (hslot : s.freeSlot = some slot) : Completes (.tntBind i body) s (fun t =>
      (∃ q, Tbl.get? t.ref.sessions n = some q ∧ q.tenant = bodyNum body 0 4 ∧ q.slot = slot ∧ q.st = .binding ∧ q.grants = []) ∧
      (∃ r, t.slot? slot = some r ∧ r.tenant = bodyNum body 0 4 ∧ r.keyHash = k.leafHash ∧ r.present = false) ∧
      Tbl.get? t.ref.spdm i = some { k with tenantSession := n } ∧ tenantAnswers k.port 0x01 0 t) := by
  let fresh : RefSlot := ⟨bodyNum body 0 4, k.leafHash, .bound, (0, 0), (0, 0), false, false, false, 0⟩
  have hexec : exec (.tntBind i body) s =
      .next (answered k.port 0x01 (bindTo (s.setSlot slot fresh) i k (bodyNum body 0 4) slot n)) := by
    refine congrArg Host.Outcome.next ((State.vendor_of hopen hk hest 0x01 _).trans ?_)
    dsimp only
    rw [hnew, hn]
    dsimp only
    rw [hslot]
  obtain ⟨hsession, hslots, hspdm, hans⟩ := bindTo_left (s.setSlot slot fresh) i k (bodyNum body 0 4) slot n k.port 0x01
  exact .of_next hexec ⟨hsession, ⟨fresh, (congrArg (Tbl.get? · slot) hslots).trans (Tbl.get?_set_self _ _ _), rfl, rfl, rfl⟩, hspdm, hans⟩

theorem completes_tntBind_known {s : State} {i n slot : Nat} {k : SpdmSession} {r : RefSlot} {body : List Byte} (hopen : spdmOpen s)
    (hk : Tbl.get? s.ref.spdm i = some k) (hest : k.established = true)
    (hknown : s.ref.slots.find? (fun p => p.2.tenant == bodyNum body 0 4) = some (slot, r)) (hleaf : r.keyHash = k.leafHash)
    (hst : r.st = .bound) (hn : s.freeSession = some n) : Completes (.tntBind i body) s (fun t =>
      (∃ q, Tbl.get? t.ref.sessions n = some q ∧ q.tenant = bodyNum body 0 4 ∧ q.slot = slot ∧ q.st = .binding ∧ q.grants = []) ∧
      t.ref.slots = s.ref.slots ∧ Tbl.get? t.ref.spdm i = some { k with tenantSession := n } ∧ tenantAnswers k.port 0x01 0 t) := by
  have hexec : exec (.tntBind i body) s = .next (answered k.port 0x01 (bindTo s i k (bodyNum body 0 4) slot n)) := by
    refine congrArg Host.Outcome.next ((State.vendor_of hopen hk hest 0x01 _).trans ?_)
    dsimp only
    rw [hknown, hn]
    dsimp only
    rw [if_neg (not_not.mpr hleaf), if_neg (by rw [hst]; decide)]
    rfl
  exact .of_next hexec (bindTo_left s i k (bodyNum body 0 4) slot n k.port 0x01)

theorem completes_tntKem {s : State} {i n : Nat} {k : SpdmSession} {q : Session} {r : RefSlot} {body : List Byte}
    (h : tenantHere s i k n q r) (hst : q.st = .binding) : Completes (.tntKem i body) s (fun t =>
      (∃ u, Tbl.get? t.ref.sessions n = some u ∧ u.st = .active ∧ u.slot = q.slot ∧ u.grants = q.grants) ∧
      tenantAnswers k.port 0x02 0 t) := by
  refine .of_next (congrArg Host.Outcome.next ((State.tenant_of h 0x02 _).trans (congrArg (answered k.port 0x02)
    (if_neg (not_not.mpr hst))))) ⟨⟨_, Tbl.get?_set_self _ _ _, rfl, rfl, rfl⟩, ?_⟩
  exact answered_answers _ _ _

theorem completes_resume {s : State} {i n : Nat} {k : SpdmSession} {q : Session} {r : RefSlot} {body : List Byte} (hopen : spdmOpen s)
    (hk : Tbl.get? s.ref.spdm i = some k) (hest : k.established = true) (hn : bodyNum body 0 4 = n)
    (hq : Tbl.get? s.ref.sessions n = some q) (hr : s.slot? q.slot = some r) (hleaf : r.keyHash = k.leafHash)
    (hst : q.st = .active ∨ q.st = .suspended) (hticket : q.ticket = sha384 ((body.drop 4).take 16)) :
    Completes (.resume i body) s (fun t => (∃ u, Tbl.get? t.ref.sessions n = some u ∧ u.st = .active) ∧
      Tbl.get? t.ref.spdm i = some { k with tenantSession := n } ∧ tenantAnswers k.port 0x0A 0 t) := by
  have hgo : ¬((!(s.slot? q.slot).elim false (fun r => r.keyHash == k.leafHash)) = true ∨ (q.st ≠ .active ∧ q.st ≠ .suspended) ∨
      q.ticket ≠ sha384 ((body.drop 4).take 16)) := by
    rw [hr]
    simp only [Option.elim_some, hleaf, beq_self_eq_true, hticket]
    rcases hst with hst | hst <;> simp [hst]
  have hexec : exec (.resume i body) s = .next (answered k.port 0x0A (stOk, (newTicket s).1,
      ((newTicket s).2.setSession n { q with st := .active, ticket := sha384 (newTicket s).1 }).setSpdm i { k with tenantSession := n })) := by
    refine congrArg Host.Outcome.next ((State.vendor_of hopen hk hest 0x0A _).trans ?_)
    dsimp only
    rw [hn, hq]
    dsimp only
    rw [if_neg hgo]
  exact .of_next hexec ⟨⟨_, Tbl.get?_set_self _ _ _, rfl⟩, Tbl.get?_set_self _ _ _, answered_answers _ _ _⟩

/-- Settles O38: binding a new tenant and one that is known, the key encapsulation, and a resumption. -/
theorem tenantBindingCompletes : Obligations.TenantBindingCompletes :=
  ⟨fun _ _ _ _ _ _ hopen hk hest hnew hn hslot => completes_tntBind_new hopen hk hest hnew hn hslot,
    fun _ _ _ _ _ _ _ hopen hk hest hknown hleaf hst hn => completes_tntBind_known hopen hk hest hknown hleaf hst hn,
    fun _ _ _ _ _ _ _ h hst => completes_tntKem h hst,
    fun _ _ _ _ _ _ _ hopen hk hest hn hq hr hleaf hst hticket => completes_resume hopen hk hest hn hq hr hleaf hst hticket⟩

end Sys2Proof.Machine
end

section
/-! SUPPORT. Keys, grants, consent and the end of a tenant session (R504, R528, R530, R532, R533, R535 to R537). -/
namespace Sys2Proof.Machine
open Sys2Proof

variable {s : State} {i n : Nat} {k : SpdmSession} {q : Session} {r : RefSlot} {body : List Byte}

/-! Keys. -/

theorem State.newPageKey_ref (s : State) (slot : Nat) : (s.newPageKey slot).ref = s.ref := rfl

theorem completes_skeyInstall (h : tenantHere s i k n q r) (hst : q.st ≠ .binding) (h0 : r.skey0.1 < bodyNum body 0 4)
    (h1 : r.skey1.1 < bodyNum body 0 4) (hok : installRefused s r = false) : Completes (.skeyInstall i body) s (fun t =>
      match keyUnwrap (bytesOf 32 q.wrapKey.toNat) ((body.drop 4).take 40) with
      | none => t.ref = s.ref ∧ tenantAnswers k.port 0x03 0x0200 t
      | some key => tenantAnswers k.port 0x03 0 t ∧
          t.slot? q.slot = some { r.install (bodyNum body 0 4) (BitVec.ofNat 256 (ofBytes key)) with pkey := true }) := by
  have hgen : ¬(bodyNum body 0 4 = 0 ∨ bodyNum body 0 4 ≤ r.skey0.1 ∨ bodyNum body 0 4 ≤ r.skey1.1) := by omega
  have hexec := (congrArg Host.Outcome.next (State.tenant_of h 0x03 _) : exec (.skeyInstall i body) s = _)
  rw [if_neg hst] at hexec
  generalize keyUnwrap (bytesOf 32 q.wrapKey.toNat) ((body.drop 4).take 40) = unwrapped at hexec ⊢
  cases unwrapped with
  | none => exact .of_next hexec ⟨rfl, answered_answers _ _ _⟩
  | some key =>
    dsimp only at hexec
    rw [if_neg hgen, if_neg (by rw [hok]; decide)] at hexec
    refine .of_next hexec ⟨answered_answers _ _ _, ?_⟩
    have href : ∀ u : State, (if r.pkey = true then u else u.newPageKey q.slot).ref = u.ref := fun u => by
      split
      · rfl
      · exact State.newPageKey_ref u q.slot
    exact (congrArg (fun x : RefState => Tbl.get? x.slots q.slot) (href _)).trans (Tbl.get?_set_self _ _ _)

/-- A generation revoked is gone from the slot (R532). -/
theorem completes_skeyRevoke (h : tenantHere s i k n q r) (hgen : bodyNum body 0 4 ≠ 0)
    (hone : r.skey0.1 = bodyNum body 0 4 ∨ r.skey1.1 = bodyNum body 0 4) : Completes (.skeyRevoke i body) s (fun t =>
      t.slot? q.slot = some (if r.skey0.1 = bodyNum body 0 4 then { r with skey0 := (0, 0) } else { r with skey1 := (0, 0) }) ∧
      tenantAnswers k.port 0x04 0 t) := by
  have hgo : ¬(bodyNum body 0 4 = 0 ∨ (r.skey0.1 ≠ bodyNum body 0 4 ∧ r.skey1.1 ≠ bodyNum body 0 4)) := by omega
  have hexec : exec (.skeyRevoke i body) s = .next (answered k.port 0x04 _) :=
    congrArg Host.Outcome.next ((State.tenant_of h 0x04 _).trans (congrArg (answered k.port 0x04) (if_neg hgo)))
  refine .of_next hexec ⟨?_, answered_answers _ _ _⟩
  show Tbl.get? (State.revoke _ _ _ _ _).ref.slots q.slot = _
  rw [State.revoke_ref]
  exact Tbl.get?_set_self _ _ _

theorem completes_pkeyRotate {e : KeySlot} (h : tenantHere s i k n q r) (hbusy : rotateBusy s q.slot = false) (hkey : r.pkey = true)
    (he : Tbl.get? s.mem.keySlots q.slot = some e) : Completes (.pkeyRotate i body) s (fun t =>
      (∃ f, Tbl.get? t.mem.keySlots q.slot = some f ∧ f.cur ≠ e.cur ∧ f.oldLive = true ∧ f.switched = []) ∧
      tenantAnswers k.port 0x05 0 t) := by
  have hexec : exec (.pkeyRotate i body) s = .next (answered k.port 0x05 (stOk, [], s.rotate q.slot)) :=
    congrArg Host.Outcome.next ((State.tenant_of h 0x05 _).trans (congrArg (answered k.port 0x05)
      ((if_neg (by rw [hbusy]; decide)).trans (if_neg (by rw [hkey]; decide)))))
  refine .of_next hexec ⟨⟨_, (State.rotate_of he).1, ?_⟩, answered_answers _ _ _⟩
  split
  next hcur => exact ⟨by rw [hcur]; exact one_ne_zero, rfl, rfl⟩
  next hcur => exact ⟨fun hz => hcur hz.symm, rfl, rfl⟩

theorem completes_purge (h : tenantHere s i k n q r) (hst : r.st = .bound) : Completes (.purge i body) s (fun t =>
    t.slot? q.slot = some { r with st := .purging } ∧ tenantAnswers k.port 0x0C 0 t) := by
  have hexec : exec (.purge i body) s = .next (answered k.port 0x0C (stOk, [], s.purgeSlot q.slot)) :=
    congrArg Host.Outcome.next (State.tenant_of h 0x0C _)
  obtain ⟨-, -, -, -, -, -, -, hr⟩ := h
  exact .of_next hexec ⟨(State.purgeSlot_ref hr hst).1, answered_answers _ _ _⟩

/-! Grants, the allow-list, consent, reports and the close. -/

/-- Does a grant name a function of a port? -/
def Grant.names (port : Port) (func : Nat) (x : Grant) : Bool := x.port == port && x.func == func

/-- A grant that is taken: the others stay, and it joins them unless it grants nothing (R533). -/
theorem exec_grant (h : tenantHere s i k n q r) (hport : bodyNum body 0 1 ≤ 1) (hfunc : bodyNum body 1 1 ≤ 63)
    (hroom : bodyNum body 2 2 = 0 ∨ q.grants.length < 16 ∨
      q.grants.any (Grant.names (Port.ofNum (bodyNum body 0 1)) (bodyNum body 1 1)) = true) :
    Completes (.grant i body) s (fun t => (∃ u, Tbl.get? t.ref.sessions n = some u ∧ u.st = q.st ∧
      u.grants = (let rest := q.grants.filter (fun x => !Grant.names (Port.ofNum (bodyNum body 0 1)) (bodyNum body 1 1) x)
        if bodyNum body 2 2 = 0 then rest else rest ++ [⟨Port.ofNum (bodyNum body 0 1), bodyNum body 1 1, bodyNum body 2 2⟩])) ∧
      tenantAnswers k.port 0x06 0 t) := by
  have hgo : ¬(1 < bodyNum body 0 1 ∨ 63 < bodyNum body 1 1 ∨ (bodyNum body 2 2 ≠ 0 ∧ 16 ≤ q.grants.length ∧
      (!q.grants.any (Grant.names (Port.ofNum (bodyNum body 0 1)) (bodyNum body 1 1))) = true)) := by
    rintro (hp | hf | ⟨hm, hl, hs⟩)
    · omega
    · omega
    · rcases hroom with hz | hl' | hs'
      · exact hm hz
      · omega
      · simp [hs'] at hs
  have hexec : exec (.grant i body) s = .next (answered k.port 0x06 _) :=
    congrArg Host.Outcome.next ((State.tenant_of h 0x06 _).trans (congrArg (answered k.port 0x06) (if_neg hgo)))
  refine .of_next hexec ⟨?_, answered_answers _ _ _⟩
  refine ⟨_, (congrArg (fun x : RefState => Tbl.get? x.sessions n) (foldl_ref (fun t c => State.modCtx_ref t c _) _ _)).trans
    (Tbl.get?_set_self _ _ _), rfl, rfl⟩

theorem completes_allow (h : tenantHere s i k n q r) (hcount : bodyNum body 0 1 ≤ 8) : Completes (.allow i body) s (fun t =>
    (∃ u, Tbl.get? t.ref.sessions n = some u ∧
      u.allow = (List.range (bodyNum body 0 1)).map (fun j => BitVec.ofNat 384 (bodyNum body (1 + 48 * j) 48))) ∧
    tenantAnswers k.port 0x07 0 t) :=
  .of_next (congrArg Host.Outcome.next ((State.tenant_of h 0x07 _).trans (congrArg (answered k.port 0x07)
    (if_neg (Nat.not_lt.mpr hcount))))) ⟨⟨_, Tbl.get?_set_self _ _ _, rfl⟩, answered_answers _ _ _⟩

theorem completes_consent (h : tenantHere s i k n q r)
    (hdebug : s.ref.debugLevel = 1 → r.debugOk = true → bitAt (bodyNum body 0 1) 0 = true) : Completes (.consent i body) s (fun t =>
      t.slot? q.slot = some { r with
        debugOk := bitAt (bodyNum body 0 1) 0
        profileOk := bitAt (bodyNum body 0 1) 1
        withdrawnTs := if r.profileOk && !bitAt (bodyNum body 0 1) 1 then s.ts else r.withdrawnTs } ∧
      tenantAnswers k.port 0x08 0 t) := by
  have hgo : ¬(s.ref.debugLevel = 1 ∧ r.debugOk = true ∧ (!bitAt (bodyNum body 0 1) 0) = true) := by
    rintro ⟨hl, hd, hb⟩
    simp [hdebug hl hd] at hb
  have hexec : exec (.consent i body) s = .next (answered k.port 0x08 _) :=
    congrArg Host.Outcome.next ((State.tenant_of h 0x08 _).trans (congrArg (answered k.port 0x08) (if_neg hgo)))
  refine .of_next hexec ⟨?_, answered_answers _ _ _⟩
  show Tbl.get? (refEvent _ _ _ _ _).ref.slots q.slot = _
  rw [(refEvent_frame _ _ _ _ _).1]
  exact Tbl.get?_set_self _ _ _

theorem completes_report (h : tenantHere s i k n q r) : Completes (.report i body) s (fun t => ∃ sig, t.host.out = s.host.out ++
    [.spdm k.port 0x09 0 (reportBody s (body.take 32) (some q) ++ sig)]) :=
  .of_next (congrArg Host.Outcome.next (State.tenant_of h 0x09 _)) ⟨_, rfl⟩

theorem completes_close (h : tenantHere s i k n q r) : Completes (.close i body) s (fun t =>
    (∀ p ∈ t.ref.spdm, p.2.tenantSession ≠ n) ∧ tenantAnswers k.port 0x0B 0 t) := by
  have hexec : exec (.close i body) s = .next (answered k.port 0x0B (stOk, [], s.closeSession n)) :=
    congrArg Host.Outcome.next (State.tenant_of h 0x0B _)
  obtain ⟨-, -, -, -, hne, -⟩ := h
  exact .of_next hexec ⟨fun p hp => ((State.closeSession_ref s n).2.2 p hp).resolve_right hne, answered_answers _ _ _⟩

end Sys2Proof.Machine
end

section
/-! SUPPORT. The tenant's keys and session settled. -/
namespace Sys2Proof.Machine
open Sys2Proof

/-- Settles O39: each tenant message is one of the lemmas above. -/
theorem tenantKeysAndSessionsComplete : Obligations.TenantKeysAndSessionsComplete := by
  refine ⟨fun s i n k q r body h hst h0 h1 hok => completes_skeyInstall h hst h0 h1 hok,
    fun s i n k q r body h hgen h0 => (completes_skeyRevoke h hgen (.inl h0)).mono fun t ht => ?_,
    fun s i n k q r body h hgen h0 h1 => (completes_skeyRevoke h hgen (.inr h1)).mono fun t ht => ?_,
    fun s i n k q r e body h hbusy hkey he => completes_pkeyRotate h hbusy hkey he,
    fun s i n k q r body h hst => completes_purge h hst,
    fun s i n k q r body h => ⟨fun hport hfunc hmax hroom => ?grant, fun hport hfunc hmax => ?ungrant,
      fun hcount => completes_allow h hcount, fun hdebug => completes_consent h hdebug, completes_report h, completes_close h⟩⟩
  · rwa [if_pos h0] at ht
  · rwa [if_neg h0] at ht
  case grant =>
    refine (exec_grant h hport hfunc (.inr hroom)).mono fun t ⟨⟨u, hu, hst, hgrants⟩, hans⟩ => ⟨⟨u, hu, ?_, hst⟩, hans⟩
    rw [hgrants]
    dsimp only
    rw [if_neg hmax]
    simp
  case ungrant =>
    refine (exec_grant h hport hfunc (.inl hmax)).mono fun t ⟨⟨u, hu, hst, hgrants⟩, hans⟩ => ⟨⟨u, hu, fun g hg hp hf => ?_⟩, hans⟩
    rw [hgrants] at hg
    dsimp only at hg
    rw [if_pos hmax] at hg
    simpa [Grant.names, hp, hf] using (List.mem_filter.mp hg).2

end Sys2Proof.Machine
end

section
/-! SUPPORT. What adapter commands do to the directory, the loads and the waiting versions (chapter 7). -/
namespace Sys2Proof.Machine
open Sys2Proof

/-! What shared operations leave of the Lockers' state. -/

theorem State.countLookup_lkr (s : State) (c id : Nat) : (s.countLookup c id).lkr = s.lkr :=
  have : Fact True := ⟨trivial⟩
  (State.countLookup_keeps (M := fun p => match p with | .regs | .scb => True | _ => False) (Keeps.refl s)).parts .lkr not_false

theorem State.countGcm_lkr (s : State) (c id n : Nat) : (s.countGcm c id n).lkr = s.lkr :=
  have : Fact True := ⟨trivial⟩
  (State.countGcm_keeps (M := fun p => match p with | .regs | .scb => True | _ => False) (Keeps.refl s)).parts .lkr not_false

theorem State.countGcm_ref (s : State) (c id n : Nat) : (s.countGcm c id n).ref = s.ref :=
  have : Fact True := ⟨trivial⟩
  (State.countGcm_keeps (M := fun p => match p with | .regs | .scb => True | _ => False) (Keeps.refl s)).parts .ref not_false

theorem State.finish_frame (s : State) (did status : Nat) (flags extra engine : Nat) :
    (s.finish did status flags extra engine).lkr = s.lkr ∧ (s.finish did status flags extra engine).mem = s.mem ∧
    (s.finish did status flags extra engine).ump = s.ump := by
  have : Fact True := ⟨trivial⟩
  have hk := State.finish_keeps (M := fun p => match p with | .free | .regs | .host | .scb => True | _ => False) (did := did)
    (status := status) (flags := flags) (extra := extra) (engine := engine) (Keeps.refl s)
  exact ⟨hk.parts .lkr not_false, hk.parts .mem not_false, hk.parts .ump not_false⟩

theorem State.fetchFail_lkr (s : State) (c reason id : Nat) : (s.fetchFail c reason id).lkr = s.lkr :=
  have : Fact True := ⟨trivial⟩
  (State.fetchFail_keeps (M := fun p => match p with | .host => True | _ => False) (Keeps.refl s)).parts .lkr not_false

theorem State.writePages_lkr (s : State) (id : Nat) (ps : List Nat) (data : List Byte) : (s.writePages id ps data).lkr = s.lkr :=
  have : Fact True := ⟨trivial⟩
  (State.writePages_keeps (M := fun p => match p with | .free | .regs | .mem | .scb | .cells => True | _ => False)
    (Keeps.refl s)).parts .lkr not_false

theorem State.scrubFree_lkr (s : State) (ps : List Nat) : (s.scrubFree ps).lkr = s.lkr :=
  have : Fact True := ⟨trivial⟩
  (State.zeroPages_keeps (M := fun p => match p with | .regs | .mem | .scb | .cells => True | _ => False)
    (Keeps.refl s)).parts .lkr not_false

theorem State.openBlob_congr {s t : State} (h : t.ref = s.ref) (header : BitVec 2048) (data : List Byte) :
    t.openBlob header data = s.openBlob header data := by
  unfold State.openBlob State.skeyOf State.refSlotOf
  rw [h]

theorem State.dirEntry_congr {s t : State} (h : t.lkr = s.lkr) (id : Nat) : t.dirEntry id = s.dirEntry id :=
  congrArg (fun l : LkrState => l.dir.find? (fun e : DirEntry => e.adapter == id)) h

/-! Entries by adapter. -/

theorem State.dirEntry_adapter {s : State} {id : Nat} {e : DirEntry} (h : s.dirEntry id = some e) : e.adapter = id := by
  simpa using List.find?_some h

theorem State.dirEntry_none_of_filter {s : State} {l : LkrState} (id : Nat)
    (h : s.lkr.dir = l.dir.filter (fun x => x.adapter != id)) : s.dirEntry id = none := by
  refine List.find?_eq_none.mpr fun x hx => ?_
  rw [h] at hx
  simpa using (List.mem_filter.mp hx).2

/-- An entry after a change that keeps its adapter's number. -/
theorem State.dirEntry_modDir {s : State} {id : Nat} {e : DirEntry} (h : s.dirEntry id = some e) {f : DirEntry → DirEntry}
    (hf : ∀ x, (f x).adapter = x.adapter) : (s.modDir id f).dirEntry id = some (f e) := by
  have hfun : ((fun x : DirEntry => x.adapter == id) ∘ fun x => if x.adapter = id then f x else x) =
      fun x => x.adapter == id := by
    funext x
    by_cases hx : x.adapter = id <;> simp [hx, hf]
  have he : (if e.adapter = id then f e else e) = f e := if_pos (State.dirEntry_adapter h)
  have hfind : s.lkr.dir.find? (fun x => x.adapter == id) = some e := h
  exact List.find?_map.trans (by rw [hfun, hfind, Option.map_some, he])

/-! A load that begins (R236). -/

/-- What `startLoad` notes of the load. -/
def loadOf (a : Accepted) (h : BitVec 2048) (b : BlobHeader) (higher : Bool) (ps : List Nat) : AdapterLoad :=
  ⟨b.adapter, a.did, a.ctx, b.version, ps, higher, h⟩

theorem startLoad_loads {s : State} {b : BlobHeader} {higher : Bool}
    (hroom : (makeRoom s b.tenant (copyPages b.payload) (!higher) b.adapter).isSome = true) (a : Accepted) (h : BitVec 2048) :
    ∃ ps, loadOf a h b higher ps ∈ (startLoad s a h b higher).lkr.loads := by
  obtain ⟨⟨u, ps⟩, hu⟩ := Option.isSome_iff_exists.mp hroom
  refine ⟨ps, ?_⟩
  unfold startLoad
  rw [hu]
  dsimp only
  cases higher with
  | true => exact List.mem_append_right _ (List.mem_singleton.mpr rfl)
  | false => exact List.mem_append_right _ (List.mem_singleton.mpr rfl)

/-- A first load makes an entry that is LOADING. -/
theorem startLoad_entry {s : State} {b : BlobHeader}
    (hroom : (makeRoom s b.tenant (copyPages b.payload) true b.adapter).isSome = true) (a : Accepted) (h : BitVec 2048) :
    ∃ e ∈ (startLoad s a h b false).lkr.dir, e.adapter = b.adapter ∧ e.st = .loading ∧ e.version = b.version ∧
      e.tenant = b.tenant ∧ e.pins = 0 ∧ e.loadCtx = a.ctx := by
  obtain ⟨⟨u, ps⟩, hu⟩ := Option.isSome_iff_exists.mp hroom
  unfold startLoad
  rw [Bool.not_false, hu]
  exact ⟨_, List.mem_append_right _ (List.mem_singleton.mpr rfl), rfl, rfl, rfl, rfl, rfl, rfl⟩

theorem loadFormatOk_adapter {d : Desc} {h : BitVec 2048} (hok : loadFormatOk d h = true) :
    (BlobHeader.ofBits h).adapter = fld d 32 0 64 := by
  simp only [loadFormatOk, Bool.and_eq_true, beq_iff_eq] at hok
  exact hok.1.2.symm

/-- An ADAPTER_LOAD that passes steps 1 to 4 of R236 turns on its adapter's entry. -/
theorem exec_adapterLoad {s : State} {c r : Nat} {a : Accepted} {h : BitVec 2048} (hold : s.oldest c r 0x30 = some a)
    (hfmt : loadFormatOk a.desc h = true) (hten : loadTenantOk s c (BlobHeader.ofBits h) = true)
    (himg : s.imageHeld (BlobHeader.ofBits h) = true)
    (hkey : (s.skeyOf (BlobHeader.ofBits h).tenant (BlobHeader.ofBits h).skeyGen).isSome = true) :
    exec (.adapterLoad c r (some h)) s = .next ((s.dirEntry (fld a.desc 32 0 64)).elim
      (startLoad (s.countLookup c (fld a.desc 32 0 64)) a h (BlobHeader.ofBits h) false)
      (fun e => (existingEntry (s.countLookup c (fld a.desc 32 0 64)) e (BlobHeader.ofBits h)).elim
        (startLoad (s.countLookup c (fld a.desc 32 0 64)) a h (BlobHeader.ofBits h) true)
        (fun x => x.elim ((s.countLookup c (fld a.desc 32 0 64)).finish a.did stOk)
          (fun reason => (s.countLookup c (fld a.desc 32 0 64)).adapterBad a reason (fld a.desc 32 0 64))))) := by
  have hkey' : ¬(s.skeyOf (BlobHeader.ofBits h).tenant (BlobHeader.ofBits h).skeyGen).isNone = true := by
    cases hk : s.skeyOf (BlobHeader.ofBits h).tenant (BlobHeader.ofBits h).skeyGen with
    | none => rw [hk] at hkey; contradiction
    | some k => exact Bool.false_ne_true
  change execAdapterLoad c r (some h) s = _
  unfold execAdapterLoad
  rw [hold]
  dsimp only
  rw [if_neg (by rw [hfmt]; decide), if_neg (by rw [hten]; decide), if_neg (by rw [himg]; decide), if_neg hkey',
    State.dirEntry_congr (State.countLookup_lkr s c _)]
  cases s.dirEntry (fld a.desc 32 0 64) with
  | none => rfl
  | some e =>
    dsimp only [Option.elim]
    rcases existingEntry (s.countLookup c (fld a.desc 32 0 64)) e (BlobHeader.ofBits h) with _ | _ | _ <;> rfl

/-! The end of a load (R236, R237). -/

theorem State.loadFound {s : State} {id : Nat} {l : AdapterLoad} (h : s.lkr.loads.find? (fun l => l.adapter == id) = some l) :
    l.adapter = id := by simpa using List.find?_some h

/-- A first load that fails leaves neither the load nor its entry. -/
theorem loadBroken_first {s : State} {id : Nat} {l : AdapterLoad} (reason : Nat)
    (hl : s.lkr.loads.find? (fun l => l.adapter == id) = some l) (hfirst : l.higher = false) :
    (loadBroken s l reason).lkr.loads = s.lkr.loads.filter (fun x => x.adapter != id) ∧
    (loadBroken s l reason).lkr.dir = s.lkr.dir.filter (fun x => x.adapter != id) := by
  obtain rfl := State.loadFound hl
  have hbump : ∀ u : State, (if reason = lkAuth then u.bump R.lkrAuthFail else u).lkr = u.lkr := fun u => by
    split <;> rfl
  have hlkr : (loadBroken s l reason).lkr = (s.abandonLoad l.adapter).lkr :=
    (State.finish_frame _ _ _ _ _ _).1.trans ((State.fetchFail_lkr _ _ _ _).trans (hbump _))
  rw [hlkr]
  unfold State.abandonLoad
  rw [hl]
  dsimp only
  rw [if_neg (by rw [hfirst]; decide)]
  exact ⟨congrArg (fun k : LkrState => k.loads.filter _) (State.scrubFree_lkr s l.pages),
    congrArg (fun k : LkrState => k.dir.filter _) (State.scrubFree_lkr s l.pages)⟩

/-- The state with a load's bytes written and the load gone. -/
def loadWritten (s : State) (l : AdapterLoad) (plain : List Byte) : State :=
  let s := (s.countGcm l.ctx l.adapter (BlobHeader.ofBits l.header).payload).writePages l.adapter l.pages (headerBytes l.header ++ plain)
  { s with lkr := { s.lkr with loads := s.lkr.loads.filter (fun x => x.adapter != l.adapter) } }

theorem loadWritten_lkr (s : State) (l : AdapterLoad) (plain : List Byte) :
    (loadWritten s l plain).lkr = { s.lkr with loads := s.lkr.loads.filter (fun x => x.adapter != l.adapter) } := by
  have h := (State.writePages_lkr (s.countGcm l.ctx l.adapter (BlobHeader.ofBits l.header).payload) l.adapter l.pages
    (headerBytes l.header ++ plain)).trans (State.countGcm_lkr s _ _ _)
  exact congrArg (fun k : LkrState => { k with loads := k.loads.filter (fun x => x.adapter != l.adapter) }) h

/-- The version that a load of a higher one leaves to wait. -/
def waitingOf (l : AdapterLoad) (ts : Nat) : WaitingVersion :=
  ⟨l.adapter, l.version, l.pages, (BlobHeader.ofBits l.header).trainedOn, (BlobHeader.ofBits l.header).compat, ts⟩

theorem exec_adapterLoadComplete {s : State} {id : Nat} {l : AdapterLoad} {data : List Byte}
    (hl : s.lkr.loads.find? (fun l => l.adapter == id) = some l)
    (hlen : data.length = (BlobHeader.ofBits l.header).payload + 16) :
    exec (.adapterLoadComplete id (some data)) s = .next ((s.openBlob l.header data).elim
      (loadBroken (s.countGcm l.ctx l.adapter (BlobHeader.ofBits l.header).payload) l lkAuth)
      (fun plain => State.finish (if l.higher then
          { loadWritten s l plain with lkr := { (loadWritten s l plain).lkr with
              waiting := (loadWritten s l plain).lkr.waiting ++ [waitingOf l (loadWritten s l plain).ts] } }
        else (loadWritten s l plain).modDir l.adapter (fun e => { e with st := .resident })) l.did stOk)) := by
  obtain rfl := State.loadFound hl
  change execAdapterLoadComplete l.adapter (some data) s = _
  unfold execAdapterLoadComplete
  rw [hl]
  dsimp only
  rw [if_neg (fun h => h hlen), State.openBlob_congr (State.countGcm_ref s _ _ _)]
  cases s.openBlob l.header data <;> rfl

theorem filtered_loads (l : List AdapterLoad) (id : Nat) : ∀ x ∈ l.filter (fun x => x.adapter != id), x.adapter ≠ id :=
  fun _ hx => by simpa using (List.mem_filter.mp hx).2

/-- A higher version that opens waits for its boundary. -/
theorem completes_higherLoaded {s : State} {id : Nat} {l : AdapterLoad} {data plain : List Byte}
    (hl : s.lkr.loads.find? (fun l => l.adapter == id) = some l) (hhigh : l.higher = true)
    (hlen : data.length = (BlobHeader.ofBits l.header).payload + 16) (hopen : s.openBlob l.header data = some plain) :
    Completes (.adapterLoadComplete id (some data)) s (fun t => (∀ x ∈ t.lkr.loads, x.adapter ≠ id) ∧ t.lkr.dir = s.lkr.dir ∧
      ∃ w ∈ t.lkr.waiting, w.adapter = id ∧ w.version = l.version ∧ w.pages = l.pages) := by
  have hexec := exec_adapterLoadComplete hl hlen
  rw [hopen, Option.elim, if_pos hhigh] at hexec
  obtain rfl := State.loadFound hl
  refine .of_next hexec ?_
  rw [(State.finish_frame _ _ _ _ _ _).1]
  dsimp only
  rw [loadWritten_lkr]
  exact ⟨filtered_loads _ _, rfl, _, List.mem_append_right _ (List.mem_singleton.mpr rfl), rfl, rfl, rfl⟩

/-- A first load ends with its entry RESIDENT, or with none. -/
theorem completes_firstLoaded {s : State} {id : Nat} {l : AdapterLoad} {e : DirEntry} {data : List Byte}
    (hl : s.lkr.loads.find? (fun l => l.adapter == id) = some l) (hfirst : l.higher = false) (he : s.dirEntry id = some e)
    (hlen : data.length = (BlobHeader.ofBits l.header).payload + 16) :
    Completes (.adapterLoadComplete id (some data)) s (fun t => (∀ x ∈ t.lkr.loads, x.adapter ≠ id) ∧
      t.dirEntry id = (s.openBlob l.header data).elim none (fun _ => some { e with st := .resident })) := by
  have hexec := exec_adapterLoadComplete hl hlen
  obtain rfl := State.loadFound hl
  cases hopen : s.openBlob l.header data with
  | none =>
    rw [hopen] at hexec
    have hlkr := State.countGcm_lkr s l.ctx l.adapter (BlobHeader.ofBits l.header).payload
    obtain ⟨hloads, hdir⟩ := loadBroken_first (s := s.countGcm l.ctx l.adapter (BlobHeader.ofBits l.header).payload) lkAuth
      (by rw [hlkr]; exact hl) hfirst
    refine .of_next hexec ⟨?_, State.dirEntry_none_of_filter _ hdir⟩
    change ∀ x ∈ (loadBroken _ l lkAuth).lkr.loads, _
    rw [hloads]
    exact filtered_loads _ _
  | some plain =>
    rw [hopen, Option.elim, if_neg (by rw [hfirst]; decide)] at hexec
    refine .of_next hexec ⟨?_, ?_⟩
    · rw [(State.finish_frame _ _ _ _ _ _).1]
      change ∀ x ∈ (loadWritten s l plain).lkr.loads, _
      rw [loadWritten_lkr]
      exact filtered_loads _ _
    · rw [State.dirEntry_congr (State.finish_frame _ _ _ _ _ _).1]
      refine State.dirEntry_modDir ?_ (fun _ => rfl)
      exact (congrArg (fun k : LkrState => k.dir.find? (fun e : DirEntry => e.adapter == l.adapter)) (loadWritten_lkr s l plain)).trans he

/-! Unloads and revocations (R238, R250). -/

/-- A value that a table gives is listed in it. -/
theorem Tbl.mem_of_get? {α : Type} {t : Tbl α} {i : Nat} {x : α} (h : Tbl.get? t i = some x) : (i, x) ∈ t := by
  induction t with
  | nil => cases h
  | cons p t ih =>
    obtain ⟨k, v⟩ := p
    rw [Tbl.get?] at h
    split at h
    · next hk =>
      obtain rfl := hk
      obtain rfl := Option.some.inj h
      exact List.mem_cons_self
    · split at h
      · cases h
      · exact List.mem_cons_of_mem _ (ih h)

theorem State.pages_freePages (s : State) {ps : List Nat} {p : Nat} (h : p ∈ ps) :
    Tbl.get? (s.freePages ps).mem.pages p = none := by
  refine Option.eq_none_iff_forall_ne_some.mpr fun x hx => ?_
  have hnot : (!ps.contains p) = true := (List.mem_filter.mp (Tbl.mem_of_get? hx)).2
  rw [List.contains_iff_mem.mpr h] at hnot
  exact Bool.false_ne_true hnot

/-- An UNLOAD without pins removes the entry and gives its pages up. -/
theorem completes_unload {s : State} {c r : Nat} {a : Accepted} {e : DirEntry} (hold : s.oldest c r 0x31 = some a)
    (hfmt : removeFormatOk a.desc false = true) (hten : s.tenantOfCtx c = some (fld a.desc 40 0 32))
    (he : s.dirEntry (fld a.desc 32 0 64) = some e) (hown : e.tenant = fld a.desc 40 0 32) (hst : e.st = .resident)
    (hpend : s.versionPending (fld a.desc 32 0 64) = false) (hpins : e.pins = 0) :
    Completes (.adapterUnload c r) s (fun t => t.dirEntry (fld a.desc 32 0 64) = none ∧
      ∀ p ∈ e.pages, Tbl.get? t.mem.pages p = none) := by
  have hbusy : ¬(e.st ≠ .resident ∨ s.versionPending (fld a.desc 32 0 64) = true) := by
    rw [hst, hpend]
    decide
  have hexec : exec (.adapterUnload c r) s = .next (State.finish { s.freePages e.pages with lkr := { s.lkr with
      dir := s.lkr.dir.filter (fun x => x.adapter != fld a.desc 32 0 64) } } a.did stOk) := by
    change execAdapterUnload c r s = _
    unfold execAdapterUnload
    rw [hold]
    dsimp only
    rw [if_neg (by rw [hfmt]; decide), if_neg (fun h => h hten), he]
    dsimp only
    rw [if_neg (fun h => h hown), if_neg hbusy, if_neg (fun h => h hpins)]
    rfl
  obtain ⟨hlkr, hmem, _⟩ := State.finish_frame { s.freePages e.pages with lkr := { s.lkr with
      dir := s.lkr.dir.filter (fun x => x.adapter != fld a.desc 32 0 64) } } a.did stOk 0 0 0
  refine .of_next hexec ⟨State.dirEntry_none_of_filter (l := s.lkr) _ (congrArg LkrState.dir hlkr), fun p hp => ?_⟩
  rw [hmem]
  exact State.pages_freePages s hp

/-- An entry that a revocation has reached. -/
def revokeIn (ids : List Nat) (e : DirEntry) : DirEntry := if e.adapter ∈ ids then { e with st := .revoking } else e

theorem revokeIn_adapter (ids : List Nat) (e : DirEntry) : (revokeIn ids e).adapter = e.adapter := by
  unfold revokeIn
  split <;> rfl

theorem revokeIn_tenant (ids : List Nat) (e : DirEntry) : (revokeIn ids e).tenant = e.tenant := by
  unfold revokeIn
  split <;> rfl

theorem revokeIn_st {ids : List Nat} {e : DirEntry} (h : e.adapter ∈ ids) : (revokeIn ids e).st = .revoking := by
  rw [revokeIn, if_pos h]

theorem State.dropWaiting_dir (s : State) (id : Nat) :
    (s.dropWaiting id).lkr.dir = s.lkr.dir ∧ (s.dropWaiting id).lkr.loads = s.lkr.loads := by
  unfold State.dropWaiting
  cases s.lkr.waiting.find? (fun w => w.adapter == id) with
  | none => exact ⟨rfl, rfl⟩
  | some w => exact ⟨rfl, rfl⟩

theorem State.abandonLoad_dir {s : State} {id : Nat} {l : AdapterLoad}
    (hl : s.lkr.loads.find? (fun l => l.adapter == id) = some l) (hhigh : l.higher = true) :
    (s.abandonLoad id).lkr.dir = s.lkr.dir := by
  unfold State.abandonLoad
  rw [hl]
  dsimp only
  rw [if_pos hhigh]
  exact (congrArg LkrState.dir (State.scrubFree_lkr s l.pages) :)

/-- An entry revoked is REVOKING, and no other entry changes. -/
theorem State.revokeEntry_dir (s : State) (id : Nat) : (s.revokeEntry id).lkr.dir = s.lkr.dir.map (revokeIn [id]) := by
  have hmod : ∀ u : State, u.lkr.dir = s.lkr.dir →
      (u.modDir id (fun e => { e with st := .revoking })).lkr.dir = s.lkr.dir.map (revokeIn [id]) := fun u hu => by
    rw [← hu]
    exact List.map_congr_left fun e _ => by simp only [revokeIn, List.mem_singleton]
  obtain ⟨hdir, _⟩ := State.dropWaiting_dir s id
  unfold State.revokeEntry
  dsimp only
  refine hmod _ ?_
  cases hl : (s.dropWaiting id).lkr.loads.find? (fun l => l.adapter == id) with
  | none => exact hdir
  | some l =>
    dsimp only
    rw [(State.finish_frame _ _ _ _ _ _).1]
    split
    next hhigh => exact (State.abandonLoad_dir hl hhigh).trans hdir
    next => exact hdir

theorem foldl_revokeEntry_dir (ids : List Nat) (s : State) :
    (ids.foldl State.revokeEntry s).lkr.dir = s.lkr.dir.map (revokeIn ids) := by
  induction ids generalizing s with
  | nil =>
    have hid : revokeIn [] = id := funext fun e => if_neg List.not_mem_nil
    rw [List.foldl_nil, hid, List.map_id]
  | cons i ids ih =>
    rw [List.foldl_cons, ih, State.revokeEntry_dir, List.map_map]
    refine List.map_congr_left fun e _ => ?_
    rw [Function.comp_apply, revokeIn, revokeIn_adapter]
    by_cases hi : e.adapter = i
    · simp [revokeIn, hi]
    · simp [revokeIn, hi]

theorem State.revoke_dir (s : State) (tenant id : Nat) (all : Bool) (did : Option Nat) :
    (s.revoke tenant id all did).lkr.dir = s.lkr.dir.map (revokeIn (revoked s tenant id all)) := by
  rw [← foldl_revokeEntry_dir]
  unfold State.revoke
  dsimp only
  split
  · cases did with
    | none => rfl
    | some d => exact congrArg LkrState.dir (State.finish_frame _ _ _ _ _ _).1
  · rfl

/-- A revocation leaves no entry that it names in another state than REVOKING (R250). -/
theorem State.revoke_revoking (s : State) (tenant id : Nat) (all : Bool) (did : Option Nat) {e : DirEntry}
    (he : e ∈ (s.revoke tenant id all did).lkr.dir) (hten : e.tenant = tenant) (hnamed : all = true ∨ e.adapter = id) :
    e.st = .revoking := by
  rw [State.revoke_dir] at he
  obtain ⟨x, hx, rfl⟩ := List.mem_map.mp he
  rw [revokeIn_tenant] at hten
  rw [revokeIn_adapter] at hnamed
  refine revokeIn_st (List.mem_map.mpr ⟨x, List.mem_filter.mpr ⟨hx, ?_⟩, rfl⟩)
  rcases hnamed with hall | hid <;> simp [*]

theorem completes_revoke {s : State} {c r : Nat} {a : Accepted} (hold : s.oldest c r 0x32 = some a)
    (hfmt : removeFormatOk a.desc true = true) (hall : fld a.desc 44 0 1 = 1 → fld a.desc 32 0 64 = 0)
    (hmay : mayRevoke s c (fld a.desc 40 0 32) = true) :
    Completes (.adapterRevoke c r) s (fun t => ∀ e ∈ t.lkr.dir, e.tenant = fld a.desc 40 0 32 →
      fld a.desc 44 0 1 = 1 ∨ e.adapter = fld a.desc 32 0 64 → e.st = .revoking) := by
  have hgo : ¬(!removeFormatOk a.desc true || (fld a.desc 44 0 1 == 1 && fld a.desc 32 0 64 != 0)) = true := by
    simpa [hfmt] using hall
  have hexec : exec (.adapterRevoke c r) s = .next ((s.begin a.did).revoke (fld a.desc 40 0 32) (fld a.desc 32 0 64)
      (fld a.desc 44 0 1 == 1) (some a.did)) := by
    change execAdapterRevoke c r s = _
    unfold execAdapterRevoke
    rw [hold]
    dsimp only
    rw [if_neg hgo, if_neg (by rw [hmay]; decide)]
  exact .of_next hexec fun e he hten hnamed =>
    State.revoke_revoking _ _ _ _ _ he hten (hnamed.imp_left beq_iff_eq.mpr)

/-! The directory query (R241, R271). -/

theorem lkrQuery_plainKey : plainKey R.lkrQueryStatus ∧ plainKey R.lkrQueryVersion :=
  ⟨⟨by decide, by decide, fun b i => by unfold R.lkrQueryStatus R.pmuCfg; omega⟩,
    by decide, by decide, fun b i => by unfold R.lkrQueryVersion R.pmuCfg; omega⟩

theorem blockWritable_lkrQuery {s : State} (hrun : s.pwr.phase = .running) (p : Port) :
    blockWritable s p R.lkrQueryIdHi = true := by
  unfold blockWritable
  dsimp only
  rw [if_pos (State.booted_of_running hrun), (by decide : decide (R.lkrQueryIdHi / 0x10000 ≠ 0x18) = true),
    (by decide : decide (R.lkrQueryIdHi / 0x10000 ≠ 0x23) = true)]
  rfl

/-- The registers of a lookup that begins. -/
def queryBegun (s : State) (v : Word) : State := (s.setReg R.lkrQueryIdHi v).setFld R.lkrQueryStatus 3 1 1

theorem queryBegun_status (s : State) (v : Word) : (queryBegun s v).regFld R.lkrQueryStatus 3 1 = 1 :=
  State.regFld_setFld_self _ (by decide)

theorem queryBegun_id {s : State} (hw : RegsWf s.regs) (v : Word) : (queryBegun s v).reg64 R.lkrQueryIdLo R.lkrQueryIdHi =
    (s.regAt R.lkrQueryIdLo).toNat + 2 ^ 32 * v.toNat := by
  have hw' := State.setReg_wf hw R.lkrQueryIdHi v
  rw [State.reg64, queryBegun, State.regAt_setFld_ne hw' _ _ _ (by decide), State.regAt_setFld_ne hw' _ _ _ (by decide),
    State.regAt_setReg_ne v hw.1 (by decide), State.regAt_setReg_self]

theorem queryBegun_frame (s : State) (v : Word) : (queryBegun s v).lkr = s.lkr ∧ (queryBegun s v).host = s.host :=
  ⟨State.setFld_lkr _ _ _ _ _, State.setFld_host _ _ _ _ _⟩

/-- A write of LKR_QUERY_ID_HI starts the lookup. -/
theorem completes_lkrQuery {s : State} (hinv : s.Inv) (hrun : s.pwr.phase = .running) (p : Port) (v : Word) :
    Completes (.lkrQuery p v) s (fun t =>
      t.lkr = { s.lkr with
        queryBusy := true
        queryId := (s.regAt R.lkrQueryIdLo).toNat + 2 ^ 32 * v.toNat } ∧
      t.regFld R.lkrQueryStatus 3 1 = 1 ∧ t.host = s.host) := by
  have hexec : exec (.lkrQuery p v) s = .next { queryBegun s v with lkr := { (queryBegun s v).lkr with
      queryBusy := true
      queryId := (queryBegun s v).reg64 R.lkrQueryIdLo R.lkrQueryIdHi } } :=
    if_neg (by rw [blockWritable_lkrQuery hrun]; decide)
  have hst := queryBegun_status s v
  have hid := queryBegun_id hinv.2 v
  obtain ⟨hlkr, hhost⟩ := queryBegun_frame s v
  refine .of_next hexec ⟨?_, (State.regFld_congr rfl _ _ _).trans hst, hhost⟩
  dsimp only
  rw [hid, hlkr]

/-- What LKR_QUERY_DONE shows of a state code with pins and of a version. -/
def queryShown (s : State) (st version : Nat) : State :=
  let s := (s.setReg R.lkrQueryStatus (BitVec.ofNat 32 st)).setReg R.lkrQueryVersion (BitVec.ofNat 32 version)
  { s with lkr := { s.lkr with queryBusy := false } }

theorem queryShown_regs {s : State} (hw : RegsWf s.regs) (c id st version : Nat) :
    ((queryShown s st version).countLookup c id).regAt R.lkrQueryStatus = BitVec.ofNat 32 st ∧
    ((queryShown s st version).countLookup c id).regAt R.lkrQueryVersion = BitVec.ofNat 32 version := by
  have hw1 := State.setReg_wf hw R.lkrQueryStatus (BitVec.ofNat 32 st)
  have hw2 : RegsWf (queryShown s st version).regs := State.setReg_wf hw1 R.lkrQueryVersion (BitVec.ofNat 32 version)
  have hst : (queryShown s st version).regAt R.lkrQueryStatus = BitVec.ofNat 32 st :=
    (State.regAt_setReg_ne _ hw1.1 (by decide)).trans (State.regAt_setReg_self _ _ _)
  have hver : (queryShown s st version).regAt R.lkrQueryVersion = BitVec.ofNat 32 version := State.regAt_setReg_self _ _ _
  obtain ⟨hkst, hkver⟩ := lkrQuery_plainKey
  exact ⟨(State.count_keepsReg _ _ _ _ _ _ hkst hw2).1.trans hst, (State.count_keepsReg _ _ _ _ _ _ hkver hw2).1.trans hver⟩

theorem completes_lkrQueryDone_found {s : State} {e : DirEntry} (hinv : s.Inv) (hbusy : s.lkr.queryBusy = true)
    (he : s.dirEntry s.lkr.queryId = some e) : Completes .lkrQueryDone s (fun t =>
      t.lkr = { s.lkr with queryBusy := false } ∧ t.regFld R.lkrQueryStatus 0 3 = e.st.code ∧
      t.regFld R.lkrQueryStatus 3 1 = 0 ∧ t.regFld R.lkrQueryStatus 8 24 = min e.pins 0xFFFFFF ∧
      t.regAt R.lkrQueryVersion = BitVec.ofNat 32 e.version) := by
  have hexec : exec .lkrQueryDone s =
      .next ((queryShown s (e.st.code + 2 ^ 8 * min e.pins 0xFFFFFF) e.version).countLookup 0 s.lkr.queryId) := by
    change execLkrQueryDone s = _
    unfold execLkrQueryDone
    rw [if_neg (by rw [hbusy]; decide)]
    dsimp only
    rw [he]
    rfl
  obtain ⟨hst, hver⟩ := queryShown_regs hinv.2 0 s.lkr.queryId (e.st.code + 2 ^ 8 * min e.pins 0xFFFFFF) e.version
  have hcode : e.st.code < 5 := by cases e.st <;> decide
  have hlt : e.st.code + 2 ^ 8 * min e.pins 0xFFFFFF < 2 ^ 32 := by omega
  have hfld : ∀ lo w, ((queryShown s (e.st.code + 2 ^ 8 * min e.pins 0xFFFFFF) e.version).countLookup 0 s.lkr.queryId).regFld
      R.lkrQueryStatus lo w = (e.st.code + 2 ^ 8 * min e.pins 0xFFFFFF) / 2 ^ lo % 2 ^ w := fun lo w => by
    rw [State.regFld, hst, wordFld_ofNat hlt, bitsOf_div]
  refine .of_next hexec ⟨State.countLookup_lkr _ _ _, ?_, ?_, ?_, hver⟩ <;> rw [hfld] <;> omega

theorem completes_lkrQueryDone_none {s : State} (hinv : s.Inv) (hbusy : s.lkr.queryBusy = true)
    (he : s.dirEntry s.lkr.queryId = none) : Completes .lkrQueryDone s (fun t =>
      t.lkr = { s.lkr with queryBusy := false } ∧ t.regAt R.lkrQueryStatus = 0 ∧ t.regAt R.lkrQueryVersion = 0) := by
  have hexec : exec .lkrQueryDone s = .next ((queryShown s 0 0).countLookup 0 s.lkr.queryId) := by
    change execLkrQueryDone s = _
    unfold execLkrQueryDone
    rw [if_neg (by rw [hbusy]; decide)]
    dsimp only
    rw [he]
    rfl
  obtain ⟨hst, hver⟩ := queryShown_regs hinv.2 0 s.lkr.queryId 0 0
  exact .of_next hexec ⟨State.countLookup_lkr _ _ _, hst, hver⟩

end Sys2Proof.Machine
end

section
/-! PROOFS. Adapter commands and the directory query (O40). -/
namespace Sys2Proof.Machine
open Sys2Proof

/-- Settles O40: a load that passes steps 1 to 4 turns on its adapter's entry; a revocation maps the directory. -/
theorem adapterAndDirectoryComplete : Obligations.AdapterAndDirectoryComplete := by
  unfold Obligations.AdapterAndDirectoryComplete
  refine ⟨?_, ?_, ?_, ?_, ?_, ?_, ?_, ?_, ?_⟩
  · intro s c r a h hold hfmt hten himg hkey hnone hroom
    have hexec := exec_adapterLoad hold hfmt hten himg hkey
    rw [hnone] at hexec
    have hid := loadFormatOk_adapter hfmt
    obtain ⟨ps, hload⟩ := startLoad_loads (higher := false) hroom a h
    obtain ⟨e, he, had, hrest⟩ := startLoad_entry hroom a h
    exact .of_next hexec ⟨⟨e, he, had.trans hid, hrest⟩, _, hload, hid, rfl, rfl⟩
  · intro s c r a h e hold hfmt hten himg hkey he
    have hexec := exec_adapterLoad hold hfmt hten himg hkey
    rw [he, Option.elim] at hexec
    refine ⟨fun hload hroom => ?_, fun hsame => ?_⟩
    · rw [hload] at hexec
      obtain ⟨ps, hmem⟩ := startLoad_loads (higher := true) hroom a h
      exact .of_next hexec ⟨_, hmem, loadFormatOk_adapter hfmt, rfl, rfl, rfl⟩
    · rw [hsame] at hexec
      exact .of_next hexec rfl
  · intro s id l data plain hl hhigh hlen hopen
    exact completes_higherLoaded hl hhigh hlen hopen
  · intro s id l e data hl hfirst he hlen
    refine (completes_firstLoaded hl hfirst he hlen).mono fun t ht => ⟨ht.1, ht.2.trans ?_⟩
    cases s.openBlob l.header data <;> rfl
  · intro s c r a e hold hfmt hten he hown hst hpend hpins
    exact completes_unload hold hfmt hten he hown hst hpend hpins
  · intro s c r a hold hfmt hall hmay
    exact completes_revoke hold hfmt hall hmay
  · intro s p v hinv hrun
    exact completes_lkrQuery hinv hrun p v
  · intro s e hinv hbusy he
    exact completes_lkrQueryDone_found hinv hbusy he
  · intro s hinv hbusy he
    exact completes_lkrQueryDone_none hinv hbusy he

end Sys2Proof.Machine
end

section
/-! SUPPORT. Practice records: the table of records under what their commands do (chapter 8). -/
namespace Sys2Proof.Machine
open Sys2Proof

/-! What shared operations leave. -/

theorem State.countPages_lkr (s : State) (id : Nat) (ps : List Nat) (n : Nat) : (s.countPages id ps n).lkr = s.lkr :=
  have : Fact True := ⟨trivial⟩
  (State.countPages_keeps (M := fun p => match p with | .free | .regs | .scb => True | _ => False) (Keeps.refl s)).parts .lkr
    not_false

theorem State.opEvent_lkr (s : State) (e : Rec32) : (s.opEvent e).lkr = s.lkr :=
  have : Fact True := ⟨trivial⟩
  (State.opEvent_keeps (M := fun p => match p with | .host => True | _ => False) (Keeps.refl s)).parts .lkr not_false

theorem evict_records (s : State) (e : DirEntry) : (evict s e).lkr.records = s.lkr.records := by
  unfold evict
  extract_lets freed lkr removed bumped
  have hbumped : bumped.lkr.records = s.lkr.records := rfl
  split
  · exact (congrArg LkrState.records (State.opEvent_lkr bumped _)).trans hbumped
  · exact hbumped

/-- Room made takes no practice record. -/
theorem makeRoom_records {s u : State} {t need keep : Nat} {new : Bool} {ps : List Nat}
    (h : makeRoom s t need new keep = some (u, ps)) : u.lkr.records = s.lkr.records := by
  have hfold : ∀ (vs : List DirEntry) (s : State), (vs.foldl evict s).lkr.records = s.lkr.records := fun vs => by
    induction vs with
    | nil => exact fun _ => rfl
    | cons v vs ih => exact fun s => (ih _).trans (evict_records s v)
  unfold makeRoom at h
  dsimp only at h
  split at h
  · cases h
  · split at h
    · cases h
    · split at h
      · cases h
      · cases h
        exact hfold _ s

/-! The record of an adapter. -/

theorem State.record?_congr {s t : State} (h : t.lkr.records = s.lkr.records) (id : Nat) : t.record? id = s.record? id :=
  congrArg (fun l : List Record => l.find? (fun r : Record => r.adapter == id)) h

theorem State.record?_of_lkr {s t : State} (h : t.lkr = s.lkr) (id : Nat) : t.record? id = s.record? id :=
  State.record?_congr (congrArg LkrState.records h) id

theorem State.record?_adapter {s : State} {id : Nat} {q : Record} (h : s.record? id = some q) : q.adapter = id := by
  simpa using List.find?_some h

/-- The record after a change that keeps its adapter's number. -/
theorem State.record?_modRecord {s : State} {id : Nat} {q : Record} (h : s.record? id = some q) {f : Record → Record}
    (hf : ∀ x, (f x).adapter = x.adapter) : (s.modRecord id f).record? id = some (f q) := by
  have hfun : ((fun x : Record => x.adapter == id) ∘ fun x => if x.adapter = id then f x else x) =
      fun x => x.adapter == id := by
    funext x
    by_cases hx : x.adapter = id <;> simp [hx, hf]
  have hq : (if q.adapter = id then f q else q) = f q := if_pos (State.record?_adapter h)
  have hfind : s.lkr.records.find? (fun x => x.adapter == id) = some q := h
  exact List.find?_map.trans (by rw [hfun, hfind, Option.map_some, hq])

/-- A record put last is its adapter's when the adapter had none. -/
theorem State.record?_append {s t : State} {id : Nat} {q : Record} (hnone : s.record? id = none) (hid : q.adapter = id)
    (h : t.lkr.records = s.lkr.records ++ [q]) : t.record? id = some q := by
  have hfind : s.lkr.records.find? (fun r => r.adapter == id) = none := hnone
  rw [State.record?, h, List.find?_append, hfind, Option.none_or, List.find?_cons_of_pos (by simpa using hid)]

/-! A record opened (R281, R283, R284). -/

/-- The record that an OPEN makes. -/
def recordOf (c : Nat) (d : Desc) (i : Image) (g : Program) (e : DirEntry) (ps : List Nat) : Record :=
  let size := ceilDiv (stateImageBytes g.parts g.optMode (paramCount e.layers e.plen e.dKv)) pageBytes
  let k := e.pages.length
  let x (o : Nat) : F32 := BitVec.ofNat 32 (fld d o 0 32)
  { adapter := e.adapter, ctx := c, imageId := i.imageId, program := g.programId, parts := g.parts, optMode := g.optMode,
    beta1 := x 48, beta2 := x 52, eps := x 56, shadow := ps.take k, spare := (ps.drop k).take k,
    state0 := (ps.drop (2 * k)).take size, state1 := (ps.drop (2 * k + size)).take size, current := 0, lastStep := 0,
    commit := none, later := [], closing := none, exports := [], pinned := true }

theorem fillFromState_lkr (s : State) (r : Record) (e : DirEntry) (plain : List Byte) :
    (fillFromState s r e plain).lkr = s.lkr := by
  unfold fillFromState
  dsimp only
  rw [State.writePages_lkr, State.writePages_lkr, State.writePages_lkr, State.countPages_lkr]

/-- A record rewritten from the live pages differs from the record before only in its current image. -/
theorem State.record?_rewriteRecord {s : State} {id : Nat} {q : Record} (h : s.record? id = some q) :
    ∃ n, (s.rewriteRecord id).record? id = some { q with current := n } ∧ (n = 0 ∨ n = q.current) := by
  unfold State.rewriteRecord
  rw [h]
  cases s.dirEntry id with
  | none => exact ⟨q.current, h, .inr rfl⟩
  | some e =>
    refine ⟨0, State.record?_modRecord ?_ (fun _ => rfl), .inl rfl⟩
    rw [State.record?_of_lkr (State.writePages_lkr _ _ _ _), State.record?_of_lkr (State.writePages_lkr _ _ _ _),
      State.record?_of_lkr (State.writePages_lkr _ _ _ _), State.record?_of_lkr (State.countPages_lkr _ _ _ _)]
    exact h

/-- An OPEN on a free adapter makes its record. -/
theorem openRecord_record {s : State} (e : DirEntry) (hnone : s.record? e.adapter = none) (c : Nat) (d : Desc) (i : Image)
    (g : Program) (ps : List Nat) (plain : Option (List Byte)) :
    (openRecord s c d i g e ps plain).record? e.adapter = some (recordOf c d i g e ps) := by
  have happend : ∀ t : State, t.lkr.records = s.lkr.records ++ [recordOf c d i g e ps] →
      t.record? e.adapter = some (recordOf c d i g e ps) := fun t ht => State.record?_append hnone rfl ht
  unfold openRecord
  extract_lets n size k x r given pinned lkr opened
  have hopened : opened.record? e.adapter = some (recordOf c d i g e ps) := happend opened rfl
  cases plain with
  | none =>
    obtain ⟨m, hm, hzero⟩ := State.record?_rewriteRecord hopened
    have hm0 : m = 0 := hzero.elim id id
    exact hm.trans (by rw [hm0]; rfl)
  | some bs => exact (State.record?_of_lkr (fillFromState_lkr _ _ _ _) _).trans hopened

/-- The checks of R287 that an OPEN passes. -/
def openChecked (s : State) (c : Nat) (d : Desc) (i : Image) (g : Program) (e : DirEntry) : Prop :=
  i.unloading = false ∧ openFieldsOk d = true ∧ hyperOk g.optMode d = true ∧ openEntryOk s c i g e = true ∧
    stateImageBytes g.parts g.optMode (paramCount e.layers e.plen e.dKv) ≤ 2 ^ 30

/-- Pages that a record of a program on an entry takes. -/
def recordPages (g : Program) (e : DirEntry) : Nat :=
  2 * e.pages.length + 2 * ceilDiv (stateImageBytes g.parts g.optMode (paramCount e.layers e.plen e.dKv)) pageBytes

/-- What an OPEN that passes its checks does once its STATE blob, if it has one, is opened: R281 and R288. -/
def openEnds (s : State) (c : Nat) (a : Accepted) (i : Image) (g : Program) (e : DirEntry) (plain : Option (List Byte)) : State :=
  if 4096 ≤ s.lkr.records.length then s.finish a.did stDeferredMem
  else (makeRoom s e.tenant (recordPages g e) false (fld a.desc 16 0 64)).elim (s.finish a.did stDeferredMem)
    (fun x => (openRecord x.1 c a.desc i g e x.2 plain).finish a.did stOk)

section
variable {s : State} {c r n : Nat} {a : Accepted} {e : DirEntry} {i : Image} {g : Program}

theorem exec_practiceOpen (hold : s.oldest c r 0x40 = some a) (hnone : s.record? (fld a.desc 16 0 64) = none)
    (he : s.dirEntry (fld a.desc 16 0 64) = some e) (hprog : s.programOf (fld a.desc 40 0 16) = some (n, i, g))
    (hok : openChecked s c a.desc i g e) (hinit : fld a.desc 42 0 1 = 0) :
    exec (.practiceOpen c r none) s = .next (openEnds s c a i g e none) := by
  obtain ⟨hunl, hfld, hhyp, hent, hbytes⟩ := hok
  change execPracticeOpen c r none s = _
  unfold execPracticeOpen openEnds
  rw [hold]
  dsimp only
  rw [hnone, he, hprog]
  dsimp only
  rw [if_neg (by simp [hunl, hfld, hhyp, hent]; omega), hinit]
  rw [if_neg (by decide), if_neg (by decide)]
  dsimp only
  split
  · rfl
  · unfold recordPages
    cases makeRoom s e.tenant _ false (fld a.desc 16 0 64) <;> rfl

theorem exec_practiceOpen_state {blob plain : List Byte} (hold : s.oldest c r 0x40 = some a)
    (hnone : s.record? (fld a.desc 16 0 64) = none)
    (he : s.dirEntry (fld a.desc 16 0 64) = some e) (hprog : s.programOf (fld a.desc 40 0 16) = some (n, i, g))
    (hok : openChecked s c a.desc i g e) (hinit : fld a.desc 42 0 1 = 1)
    (hopen : openState s a.desc e g (stateImageBytes g.parts g.optMode (paramCount e.layers e.plen e.dKv)) blob = .ok plain) :
    exec (.practiceOpen c r (some blob)) s = .next (openEnds (s.countGcm c (fld a.desc 16 0 64)
      (stateImageBytes g.parts g.optMode (paramCount e.layers e.plen e.dKv))) c a i g e (some plain)) := by
  obtain ⟨hunl, hfld, hhyp, hent, hbytes⟩ := hok
  change execPracticeOpen c r (some blob) s = _
  unfold execPracticeOpen openEnds
  rw [hold]
  dsimp only
  rw [hnone, he, hprog]
  dsimp only
  rw [if_neg (by simp [hunl, hfld, hhyp, hent]; omega), hinit]
  rw [if_pos (by decide), if_pos (by decide), hopen]
  dsimp only [Except.map]
  split
  · rfl
  · unfold recordPages
    cases makeRoom (s.countGcm c (fld a.desc 16 0 64) _) e.tenant _ false (fld a.desc 16 0 64) <;> rfl

/-- An OPEN that finds room makes its record. -/
theorem openEnds_record (hnone : s.record? (fld a.desc 16 0 64) = none) (he : e.adapter = fld a.desc 16 0 64)
    (hlen : s.lkr.records.length < 4096)
    (hroom : (makeRoom s e.tenant (recordPages g e) false (fld a.desc 16 0 64)).isSome = true) (c : Nat) (i : Image)
    (plain : Option (List Byte)) :
    ∃ ps, (openEnds s c a i g e plain).record? (fld a.desc 16 0 64) = some (recordOf c a.desc i g e ps) := by
  obtain ⟨⟨u, ps⟩, hu⟩ := Option.isSome_iff_exists.mp hroom
  refine ⟨ps, ?_⟩
  unfold openEnds
  rw [if_neg (by omega), hu, Option.elim, State.record?_of_lkr (State.finish_frame _ _ _ _ _ _).1, ← he]
  exact openRecord_record e ((State.record?_congr (makeRoom_records hu) _).trans (he ▸ hnone)) c a.desc i g ps plain

/-! Steps (R285 to R290). -/

/-- The step that a PRACTICE_STEP asks for. -/
def stepOf (s : State) (c : Nat) (a : Accepted) (slot : Nat) (i : Image) (g : Program) : PStep :=
  let d := a.desc
  let es := adapterList s c (fld d 24 0 48) (fld d 8 0 32)
  { did := a.did, ctx := c, no := wrap64 (s.ump.stepNo + 1), imgSlot := slot, imageId := i.imageId, program := g.programId,
    seed := fld d 16 0 64, listAddr := fld d 24 0 48, dataAddr := fld d 32 0 48, commit := fld d 42 0 1 == 1,
    adapters := es.map (·.1), rates := es.map (·.2),
    seqs := batchAdapters s c (fld d 32 0 48) (ofBytes (((s.lpRead c (fld d 32 0 48) 16).1).take 4)), segment := 0, probed := [],
    firstBank := none, reran := false, satFlag := false, engine := 0 }

theorem exec_practiceStep (hold : s.oldest c r 0x41 = some a) (hprog : s.programOf (fld a.desc 40 0 16) = some (n, i, g))
    (hok : stepStatus s c a.desc i g = none) :
    exec (.practiceStep c r) s = .next { s.begin a.did with ump := { s.ump with
      steps := s.ump.steps ++ [stepOf s c a n i g]
      stepNo := wrap64 (s.ump.stepNo + 1) } } := by
  change execPracticeStep c r s = _
  unfold execPracticeStep
  rw [hold]
  dsimp only
  rw [hprog]
  dsimp only
  rw [hok]
  rfl

/-- A step that passes its checks is numbered and waits. -/
theorem completes_practiceStep (hold : s.oldest c r 0x41 = some a) (hprog : s.programOf (fld a.desc 40 0 16) = some (n, i, g))
    (hok : stepStatus s c a.desc i g = none) :
    Completes (.practiceStep c r) s (fun t => t.ump.stepNo = (s.ump.stepNo + 1) % 2 ^ 64 ∧
      ∃ p, t.ump.steps = s.ump.steps ++ [p] ∧ p.did = a.did ∧ p.ctx = c ∧ p.no = (s.ump.stepNo + 1) % 2 ^ 64 ∧
        p.program = g.programId ∧ p.seed = fld a.desc 16 0 64 ∧ p.segment = 0) :=
  .of_next (exec_practiceStep hold hprog hok) ⟨rfl, _, rfl, rfl, rfl, rfl, rfl, rfl, rfl⟩

/-! Exports (R295). -/

theorem completes_practiceExport {q : Record} (hold : s.oldest c r 0x42 = some a) (hq : s.record? (fld a.desc 16 0 64) = some q)
    (he : s.dirEntry (fld a.desc 16 0 64) = some e) (hown : q.ctx = c) (hcount : fld a.desc 8 0 32 = 1)
    (hzero : fld a.desc 40 1 191 = 0) (hlen : 256 + exportBytes q e (fld a.desc 40 0 1 == 1) + 16 ≤ fld a.desc 32 0 64) :
    Completes (.practiceExport c r) s (fun t => t.record? (fld a.desc 16 0 64) =
      some { q with exports := q.exports ++ [(a.did, fld a.desc 40 0 1 == 1)] }) := by
  refine .of_next (t := (s.begin a.did).modRecord _ (fun r =>
    { r with exports := r.exports ++ [(a.did, fld a.desc 40 0 1 == 1)] })) ?_ (State.record?_modRecord hq (fun _ => rfl))
  change execPracticeExport c r s = _
  unfold execPracticeExport
  rw [hold]
  dsimp only
  rw [hq, he]
  dsimp only
  rw [if_neg (fun h => h hown), if_neg (by omega)]

/-- What a sealed record that is exported leaves: the blob has gone to the host, and the Lockers' state is as before. -/
def sealedExport (s : State) (adapter : Nat) (q : Record) (e : DirEntry) (isState : Bool) (gen : Nat) (key : BitVec 256)
    (a : Accepted) : State :=
  let n := exportBytes q e isState
  let image := if q.current = 0 then q.state0 else q.state1
  let payload := if isState then s.readPages image 0 n else s.readPages e.pages 256 n
  let nonce := (s.freeVal 96).toNat
  let s := s.freed
  let h := exportHeader (ofBytes (s.readPages e.pages 0 256)) (if isState then 1 else 0) e.version gen nonce n
  let sealed := gcmEncrypt (bytesOf 32 key.toNat) (bytesOf 12 nonce) (headerBytes h) payload
  let blob := headerBytes h ++ sealed.1 ++ sealed.2
  let s := s.countPages adapter (if isState then image else e.pages) n
  (s.countGcm q.ctx adapter n).emit (.hostWrite q.ctx (fld a.desc 24 0 64) blob a.pasid)

theorem sealedExport_lkr (s : State) (id : Nat) (q : Record) (isState : Bool) (gen : Nat) (key : BitVec 256) (e : DirEntry)
    (a : Accepted) : (sealedExport s id q e isState gen key a).lkr = s.lkr :=
  (State.countGcm_lkr _ _ _ _).trans (State.countPages_lkr _ _ _ _)

theorem sealedExport_out (s : State) (id : Nat) (q : Record) (isState : Bool) (gen : Nat) (key : BitVec 256) (e : DirEntry)
    (a : Accepted) : ∃ blob, Output.hostWrite q.ctx (fld a.desc 24 0 64) blob a.pasid ∈
      (sealedExport s id q e isState gen key a).host.out := by
  unfold sealedExport
  exact ⟨_, by rw [State.emit_out]; exact List.mem_append_right _ (List.mem_singleton.mpr rfl)⟩

/-- What has left the device stays written when a descriptor ends. -/
theorem State.finish_out {s : State} {o : Output} (h : o ∈ s.host.out) (did status : Nat) (flags extra engine : Nat) :
    o ∈ (s.finish did status flags extra engine).host.out := by
  have : Fact True := ⟨trivial⟩
  exact (State.finish_keeps (M := fun _ => True) (did := did) (status := status) (flags := flags) (extra := extra)
    (engine := engine) (Keeps.refl s)).out.subset h

end

theorem completes_exportDone {s : State} {id gen did : Nat} {key : BitVec 256} {q : Record} {e : DirEntry} {isState written : Bool}
    {rest : List (Nat × Bool)} {a : Accepted} (hq : s.record? id = some q) (he : s.dirEntry id = some e)
    (hexp : q.exports = (did, isState) :: rest) (hrun : s.stepRunning id = false)
    (hkey : s.newestKey e.tenant = some (gen, key)) (hacc : s.acc? did = some a) :
    Completes (.practiceExportDone (id, written)) s (fun t => t.record? id = some { q with exports := rest } ∧
      ∃ blob, Output.hostWrite q.ctx (fld a.desc 24 0 64) blob a.pasid ∈ t.host.out) := by
  have hexec : exec (.practiceExportDone (id, written)) s =
      .next ((sealedExport (s.modRecord id (fun r => { r with exports := rest })) id q e isState gen key a).finish did
        (if written then stOk else stBad)) := by
    have hkey' : (s.modRecord id (fun r => { r with exports := rest })).newestKey e.tenant = some (gen, key) := hkey
    have hacc' : (s.modRecord id (fun r => { r with exports := rest })).acc? did = some a := hacc
    change execPracticeExportDone (id, written) s = _
    unfold execPracticeExportDone
    dsimp only
    rw [hq, he]
    dsimp only
    rw [hexp]
    dsimp only
    rw [if_neg (by rw [hrun]; decide), hkey', hacc']
    rfl
  obtain ⟨blob, hblob⟩ := sealedExport_out (s.modRecord id (fun r => { r with exports := rest })) id q isState gen key e a
  refine .of_next hexec ⟨?_, blob, State.finish_out hblob _ _ _ _ _⟩
  rw [State.record?_of_lkr ((State.finish_frame _ _ _ _ _ _).1.trans (sealedExport_lkr _ _ _ _ _ _ _ _))]
  exact State.record?_modRecord hq (fun _ => rfl)

/-! The close of a record (R294). -/

theorem completes_practiceClose {s : State} {c r : Nat} {a : Accepted} {q : Record} (hold : s.oldest c r 0x43 = some a)
    (hq : s.record? (fld a.desc 16 0 64) = some q) (hown : q.ctx = c) (hcount : fld a.desc 8 0 32 = 1)
    (hzero : fld a.desc 24 0 320 = 0) (hopen : q.closing = none) :
    Completes (.practiceClose c r) s (fun t => t.record? (fld a.desc 16 0 64) = some { q with closing := some a.did }) := by
  have hgo : ¬(fld a.desc 8 0 32 ≠ 1 ∨ fld a.desc 24 0 320 ≠ 0 ∨ q.closing.isSome = true) := by
    simp [hcount, hzero, hopen]
  refine .of_next (t := (s.begin a.did).modRecord _ (fun r => { r with closing := some a.did })) ?_
    (State.record?_modRecord hq (fun _ => rfl))
  change execPracticeClose c r s = _
  unfold execPracticeClose
  rw [hold]
  dsimp only
  rw [hq]
  dsimp only
  rw [if_neg (fun h => h hown), if_neg hgo]

theorem State.unpin_records (s : State) (id : Nat) : (s.unpin id).lkr.records = s.lkr.records := by
  unfold State.unpin
  split
  · rfl
  · extract_lets unpinned
    cases unpinned.dirEntry id with
    | none => rfl
    | some e =>
      dsimp only
      split <;> rfl

theorem State.closeRecord_record (s : State) (id : Nat) (scrub : Bool) : (s.closeRecord id scrub).record? id = none := by
  have hfilter : ∀ (t : State) (l : List Record), t.lkr.records = l.filter (fun x => x.adapter != id) → t.record? id = none := by
    intro t l ht
    refine List.find?_eq_none.mpr fun x hx => ?_
    rw [ht] at hx
    simpa using (List.mem_filter.mp hx).2
  unfold State.closeRecord
  cases hq : s.record? id with
  | none => exact hq
  | some q =>
    dsimp -zeta only
    extract_lets pages freed lkr removed
    have hremoved : removed.record? id = none := hfilter removed freed.lkr.records rfl
    split
    · exact (State.record?_congr (State.unpin_records removed id) id).trans hremoved
    · exact hremoved

theorem completes_closeDone {s : State} {id did : Nat} {q : Record} (hq : s.record? id = some q) (hclosing : q.closing = some did)
    (hcommit : q.commit = none) (hexp : q.exports = []) (hsteps : ∀ p ∈ s.ump.steps, id ∉ p.adapters) :
    Completes (.practiceCloseDone id) s (fun t => t.record? id = none) := by
  have hgo : ¬(q.commit.isSome || !q.exports.isEmpty || s.ump.steps.any (fun p => p.adapters.contains id)) = true := by
    simpa [hcommit, hexp] using hsteps
  refine ⟨_, ?_, (State.record?_of_lkr (State.finish_frame (s.closeRecord id true) did stOk 0 0 0).1 id).trans
    (State.closeRecord_record s id true)⟩
  change execPracticeCloseDone id s = _
  unfold execPracticeCloseDone
  rw [hq]
  dsimp only
  rw [hclosing]
  exact if_neg hgo

/-! Commits (R291). -/

/-- The shadow written to the spare pages with VERSION + 1. -/
def commitCopied (s : State) (id : Nat) (q : Record) (e : DirEntry) : State :=
  let copy := s.readPages q.shadow 0 (copyBytes e)
  let head := setBits (ofBytes (copy.take 256)) (8 * 20) 32 (wrap32 (e.version + 1))
  (s.countPages id q.shadow (copyBytes e)).writePages id q.spare (bytesOf 256 head ++ copy.drop 256)

theorem commitCopied_lkr (s : State) (id : Nat) (q : Record) (e : DirEntry) : (commitCopied s id q e).lkr = s.lkr :=
  (State.writePages_lkr _ _ _ _).trans (State.countPages_lkr _ _ _ _)

theorem commitCopied_ts (s : State) (id : Nat) (q : Record) (e : DirEntry) : (commitCopied s id q e).ts = s.ts := by
  have : Fact True := ⟨trivial⟩
  exact (State.writePages_keeps (M := fun p => match p with | .free | .regs | .mem | .scb | .cells => True | _ => False)
    (State.countPages_keeps (Keeps.refl s))).parts .ts not_false

theorem completes_commitCopyDone {s : State} {id no : Nat} {q : Record} {e : DirEntry} (hq : s.record? id = some q)
    (he : s.dirEntry id = some e) (hcommit : q.commit = some ⟨no, none⟩)
    (hidle : ∀ w, s.ump.work = some w → w.practice = true → ∀ p ∈ s.ump.steps, p.did = w.did → id ∉ p.adapters) :
    Completes (.commitCopyDone id) s (fun t =>
      t.record? id = some { q with commit := some ⟨no, some s.ts⟩ } ∧ t.lkr.dir = s.lkr.dir) := by
  have hgo : ¬s.ump.work.elim false (fun w =>
      w.practice && s.ump.steps.any (fun p => p.did == w.did && p.adapters.contains id)) = true := by
    cases hw : s.ump.work with
    | none => exact Bool.false_ne_true
    | some w => simpa using hidle w hw
  have hexec : exec (.commitCopyDone id) s = .next ((commitCopied s id q e).modRecord id
      (fun r => { r with commit := some ⟨no, some (commitCopied s id q e).ts⟩ })) := by
    change execCommitCopyDone id s = _
    unfold execCommitCopyDone
    rw [hq, he]
    dsimp only
    rw [hcommit]
    exact if_neg hgo
  have hlkr := commitCopied_lkr s id q e
  refine .of_next hexec ⟨?_, (congrArg LkrState.dir hlkr :)⟩
  rw [commitCopied_ts]
  exact State.record?_modRecord ((State.record?_of_lkr hlkr id).trans hq) (fun _ => rfl)

end Sys2Proof.Machine
end

section
/-! PROOFS. Practice records opened, stepped, exported, closed and committed (O41). -/
namespace Sys2Proof.Machine
open Sys2Proof

/-- Settles O41: an OPEN appends a record to a table without one of its adapter, and the others change the record in place. -/
theorem practiceCompletes : Obligations.PracticeCompletes := by
  unfold Obligations.PracticeCompletes
  refine ⟨?_, ?_, ?_, ?_, ?_, ?_, ?_, ?_, ?_⟩
  · intro s c r n a e i g hold hnone he hprog hunl hfld hhyp hent hinit bytes hbytes hlen hroom
    obtain ⟨ps, hrec⟩ := openEnds_record (s := s) (g := g) hnone (State.dirEntry_adapter he) hlen hroom c i none
    exact .of_next (exec_practiceOpen hold hnone he hprog ⟨hunl, hfld, hhyp, hent, hbytes⟩ hinit)
      ⟨_, hrec, rfl, rfl, rfl, rfl, rfl, rfl, rfl, rfl, rfl⟩
  · intro s c r n a e i g blob plain hold hnone he hprog hunl hfld hhyp hent hinit bytes hbytes hlen hopen hroom
    have hlkr := State.countGcm_lkr s c (fld a.desc 16 0 64) bytes
    obtain ⟨ps, hrec⟩ := openEnds_record (s := s.countGcm c (fld a.desc 16 0 64) bytes) (g := g)
      ((State.record?_of_lkr hlkr _).trans hnone) (State.dirEntry_adapter he) (by rw [hlkr]; exact hlen) hroom c i (some plain)
    exact .of_next (exec_practiceOpen_state hold hnone he hprog ⟨hunl, hfld, hhyp, hent, hbytes⟩ hinit hopen)
      ⟨_, hrec, rfl, rfl, rfl, rfl, rfl⟩
  · intro s c r a q blob hold hq
    refine ⟨_, ?_, rfl⟩
    change execPracticeOpen c r blob s = _
    unfold execPracticeOpen
    rw [hold]
    dsimp only
    rw [hq]
    rfl
  · intro s c r n a i g hold hprog hok
    exact completes_practiceStep hold hprog hok
  · intro s c r a q e hold hq he hown hcount hzero hlen
    exact completes_practiceExport hold hq he hown hcount hzero hlen
  · intro s id gen key q e did isState written rest a hq he hexp hrun hkey hacc
    exact completes_exportDone hq he hexp hrun hkey hacc
  · intro s c r a q hold hq hown hcount hzero hopen
    exact completes_practiceClose hold hq hown hcount hzero hopen
  · intro s id did q hq hclosing hcommit hexp hsteps
    exact completes_closeDone hq hclosing hcommit hexp hsteps
  · intro s id no q e hq he hcommit hidle
    exact completes_commitCopyDone hq he hcommit hidle

end Sys2Proof.Machine
end

section
/-! SUPPORT. SCHED_LOAD, SCHED_UNLOAD and SERVE: what an accepted descriptor does to the images and the ready serves. -/
namespace Sys2Proof.Machine
open Sys2Proof

/-- A schedule measured changes only the Referee's state. -/
theorem State.measureSchedule_frame (s : State) (slot digest : Nat) : (s.measureSchedule slot digest).ump = s.ump ∧
    (s.measureSchedule slot digest).wst = s.wst ∧ (s.measureSchedule slot digest).err = s.err := by
  have : Fact True := ⟨trivial⟩
  have hk := State.measureSchedule_keeps (M := fun p => match p with | .ump | .wst | .err => False | _ => True) (slot := slot)
    (digest := digest) (Keeps.refl s)
  exact ⟨hk.parts .ump not_false, hk.parts .wst not_false, hk.parts .err not_false⟩

theorem State.finish_wst (s : State) (did status : Nat) (flags extra engine : Nat) :
    (s.finish did status flags extra engine).wst = s.wst ∧ (s.finish did status flags extra engine).err = s.err := by
  have : Fact True := ⟨trivial⟩
  have hk := State.finish_keeps (M := fun p => match p with | .free | .regs | .host | .scb => True | _ => False) (did := did)
    (status := status) (flags := flags) (extra := extra) (engine := engine) (Keeps.refl s)
  exact ⟨hk.parts .wst not_false, hk.parts .err not_false⟩

variable {s : State} {c r : Nat} {a : Accepted}

/-- The state with an image held in a slot. -/
def State.setImage (s : State) (slot : Nat) (i : Image) : State :=
  { s with ump := { s.ump with images := Tbl.set s.ump.images slot i } }

/-- An image that passes its checks is held in its slot. -/
theorem completes_schedLoad {src : ImageSrc} (hold : s.oldest c r 0x51 = some a) (hcount : fld a.desc 8 0 32 = 1)
    (hzero : fld a.desc 32 3 253 = 0) (hmin : 4096 ≤ fld a.desc 24 0 64) (hmax : fld a.desc 24 0 64 ≤ 268435456)
    (hfree : Tbl.get? s.ump.images (fld a.desc 32 0 3) = none) (hnew : s.imageOf src.imageId = none) (hok : imageOk s src = true) :
    Completes (.schedLoad c r (some src)) s (fun t =>
      Tbl.get? t.ump.images (fld a.desc 32 0 3) = some (imageOfSrc src) ∧
      ∀ j, j ≠ fld a.desc 32 0 3 → Tbl.get? t.ump.images j = Tbl.get? s.ump.images j) := by
  have hgo : ¬(fld a.desc 8 0 32 ≠ 1 ∨ fld a.desc 32 3 253 ≠ 0 ∨ fld a.desc 24 0 64 < 4096 ∨
      268435456 < fld a.desc 24 0 64) := by omega
  have hexec : exec (.schedLoad c r (some src)) s = .next (((s.setImage (fld a.desc 32 0 3) (imageOfSrc src)).measureSchedule
      (fld a.desc 32 0 3) (imageOfSrc src).digest).finish a.did stOk) := by
    change execSchedLoad c r (some src) s = _
    unfold execSchedLoad
    rw [hold]
    dsimp only
    rw [if_neg hgo, hfree, hnew, if_neg (by decide), if_neg (by rw [hok]; decide)]
    rfl
  have hump : (((s.setImage (fld a.desc 32 0 3) (imageOfSrc src)).measureSchedule (fld a.desc 32 0 3)
      (imageOfSrc src).digest).finish a.did stOk).ump = (s.setImage (fld a.desc 32 0 3) (imageOfSrc src)).ump :=
    (State.finish_frame _ _ _ _ _ _).2.2.trans (State.measureSchedule_frame _ _ _).1
  refine .of_next hexec ?_
  rw [hump]
  exact ⟨Tbl.get?_set_self _ _ _, fun j hj => Tbl.get?_set_ne _ _ hj⟩

/-- An image without records begins to unload. -/
theorem completes_schedUnload {i : Image} (hold : s.oldest c r 0x52 = some a) (hcount : fld a.desc 8 0 32 = 1)
    (hzero : fld a.desc 16 0 128 = 0) (hslot : fld a.desc 32 3 253 = 0)
    (hi : Tbl.get? s.ump.images (fld a.desc 32 0 3) = some i) (hunl : i.unloading = false)
    (hrec : ∀ q ∈ s.lkr.records, q.imageId ≠ i.imageId) : Completes (.schedUnload c r) s (fun t =>
      Tbl.get? t.ump.images (fld a.desc 32 0 3) = some { i with
        unloading := true
        unloadDid := some a.did } ∧
      t.host.out = s.host.out) := by
  have hgo : ¬(fld a.desc 8 0 32 ≠ 1 ∨ fld a.desc 16 0 128 ≠ 0 ∨ fld a.desc 32 3 253 ≠ 0) := by omega
  have hgo' : ¬(i.unloading || s.lkr.records.any (fun r => r.imageId == i.imageId)) = true := by
    simpa [hunl] using hrec
  refine .of_next (t := (s.begin a.did).setImage (fld a.desc 32 0 3) { i with
    unloading := true
    unloadDid := some a.did }) ?_ ⟨Tbl.get?_set_self _ _ _, rfl⟩
  change execSchedUnload c r s = _
  unfold execSchedUnload
  rw [hold]
  dsimp only
  rw [if_neg hgo, hi]
  dsimp only
  rw [if_neg hgo']
  rfl

/-- The state with an image gone from its slot, and the fences of its schedules. -/
def State.dropImage (s : State) (slot : Nat) : State := { s with
  ump := { s.ump with images := Tbl.erase s.ump.images slot }
  wst := { s.wst with fences := s.wst.fences.filter (fun f => f.imgSlot != slot) }
  err := { s.err with fencedSchedules := s.err.fencedSchedules.filter (fun f => f.1 != slot) } }

/-- An unloading image that nothing names leaves its slot. -/
theorem completes_schedUnloadDone {slot : Nat} {i : Image} (hi : Tbl.get? s.ump.images slot = some i)
    (hunl : i.unloading = true) (hfree : ∀ a ∈ s.host.accepted, namesImage s slot i a = false) :
    Completes (.schedUnloadDone slot) s (fun t => Tbl.get? t.ump.images slot = none ∧
      (∀ f ∈ t.wst.fences, f.imgSlot ≠ slot) ∧ ∀ f ∈ t.err.fencedSchedules, f.1 ≠ slot) := by
  have hgo : ¬(!i.unloading || s.host.accepted.any (namesImage s slot i)) = true := by
    simpa [hunl] using hfree
  have hexec : exec (.schedUnloadDone slot) s = .next (i.unloadDid.elim ((s.dropImage slot).measureSchedule slot i.digest)
      (fun did => ((s.dropImage slot).measureSchedule slot i.digest).finish did stOk)) := by
    change execSchedUnloadDone slot s = _
    unfold execSchedUnloadDone
    rw [hi]
    exact if_neg hgo
  obtain ⟨hump, hwst, herr⟩ := State.measureSchedule_frame (s.dropImage slot) slot i.digest
  generalize (s.dropImage slot).measureSchedule slot i.digest = u at hexec hump hwst herr
  have hleft : ∀ t : State, t.ump = u.ump → t.wst = u.wst → t.err = u.err → Tbl.get? t.ump.images slot = none ∧
      (∀ f ∈ t.wst.fences, f.imgSlot ≠ slot) ∧ ∀ f ∈ t.err.fencedSchedules, f.1 ≠ slot := by
    intro t h1 h2 h3
    rw [h1, h2, h3, hump, hwst, herr]
    exact ⟨Tbl.get?_erase_self _ _, fun f hf => by simpa using (List.mem_filter.mp hf).2,
      fun f hf => by simpa using (List.mem_filter.mp hf).2⟩
  refine .of_next hexec ?_
  cases i.unloadDid with
  | none => exact hleft u rfl rfl rfl
  | some did =>
    exact hleft _ (State.finish_frame _ _ _ _ _ _).2.2 (State.finish_wst _ _ _ _ _ _).1 (State.finish_wst _ _ _ _ _ _).2

/-- A SERVE that passes R308 is ready. -/
theorem completes_serve (hold : s.oldest c r 0x20 = some a) (hok : serveStatus s a = none) :
    Completes (.serve c r) s (fun t => ∃ seed, t.ump.ready = s.ump.ready ++ [readyOf a s.ts seed] ∧ t.host.out = s.host.out) := by
  have hexec : exec (.serve c r) s = .next { s.freed.begin a.did with ump := { s.ump with
      ready := s.ump.ready ++ [readyOf a s.ts (s.freeVal 64).toNat] } } := by
    change execServe c r s = _
    unfold execServe
    rw [hold]
    dsimp only
    rw [hok]
    rfl
  exact .of_next hexec ⟨_, rfl, rfl⟩

end Sys2Proof.Machine
end

section
/-! PROOFS. Schedule images and SERVE descriptors (O42). -/
namespace Sys2Proof.Machine
open Sys2Proof

/-- Settles O42: each descriptor's checks pass under its hypotheses, and its image or ready serve is set. -/
theorem schedulesAndServesComplete : Obligations.SchedulesAndServesComplete := by
  unfold Obligations.SchedulesAndServesComplete
  refine ⟨?_, ?_, ?_, ?_⟩
  · intro s c r a src hold hcount hzero hmin hmax hfree hnew hok
    exact completes_schedLoad hold hcount hzero hmin hmax hfree hnew hok
  · intro s c r a i hold hcount hzero hslot hi hunl hrec
    exact completes_schedUnload hold hcount hzero hslot hi hunl hrec
  · intro s slot i hi hunl hfree
    exact completes_schedUnloadDone hi hunl hfree
  · intro s c r a hold hok
    exact completes_serve hold hok

end Sys2Proof.Machine
end

section
/-! SUPPORT. The slot end where nothing ran: what its reports leave of the Umpire, and the choice of a slot without a ready
serve (R29, R341, R342). -/
namespace Sys2Proof.Machine
open Sys2Proof

/-! What reports at a slot end leave of an Umpire without work. -/

/-- With no work on the array in the first state, the second has none either, and the same slot, overrun and ready serves. -/
def restsAs (s t : State) : Prop :=
  s.ump.work = none → t.ump.work = none ∧ t.ump.slot = s.ump.slot ∧ t.ump.ready = s.ump.ready

theorem restsAs_refl (s : State) : restsAs s s := fun h => ⟨h, rfl, rfl⟩

theorem restsAs_trans {s t u : State} (h : restsAs s t) (k : restsAs t u) : restsAs s u := by
  intro hw
  obtain ⟨hwt, hslot, hready⟩ := h hw
  obtain ⟨hwu, hslot', hready'⟩ := k hwt
  exact ⟨hwu, hslot'.trans hslot, hready'.trans hready⟩

theorem restsAs_of_ump {s t : State} (h : t.ump = s.ump) : restsAs s t := fun hw => by rw [h]; exact ⟨hw, rfl, rfl⟩

theorem restsAs_foldl {α : Type} {f : State → α → State} (hf : ∀ t x, restsAs t (f t x)) (l : List α) (s : State) :
    restsAs s (l.foldl f s) := by
  induction l generalizing s with
  | nil => exact restsAs_refl s
  | cons x l ih => exact restsAs_trans (hf s x) (ih _)

theorem State.setAcct_restsAs (s : State) (c : Nat) (a : Acct) : restsAs s (s.setAcct c a) := fun h => ⟨h, rfl, rfl⟩

theorem State.violate_restsAs (s : State) : restsAs s s.violate := by
  intro h
  refine ⟨?_, rfl, rfl⟩
  change s.ump.work.map _ = none
  rw [h, Option.map_none]

theorem State.scrubPage_ump (s : State) (page : Nat) : (s.scrubPage page).ump = s.ump :=
  have : Fact True := ⟨trivial⟩
  (State.scrubPage_keeps (M := fun p => match p with | .regs | .host | .mem | .scb | .cells => True | _ => False)
    (Keeps.refl s)).parts .ump not_false

theorem State.readLine_ump (s : State) (line : Nat) : (s.readLine line).2.ump = s.ump := by
  unfold State.readLine
  obtain ⟨bs, mismatch, free⟩ := s.lineBytes line
  dsimp only
  split <;> split <;> rfl

theorem State.writeLine_ump (s : State) (line : Nat) (bs : List Byte) : (s.writeLine line bs).ump = s.ump := rfl

theorem writeLineFor_restsAs (c a : Nat) (data : List Byte) (s : State) (line : Nat) : restsAs s (writeLineFor c a data s line) := by
  unfold writeLineFor
  extract_lets scrubbed
  have hscrubbed : restsAs s scrubbed := by
    unfold scrubbed
    split
    · exact restsAs_of_ump (State.scrubPage_ump s _)
    · exact restsAs_refl s
  clear_value scrubbed
  split
  · have hread := State.readLine_ump scrubbed line
    generalize scrubbed.readLine line = r at hread ⊢
    obtain ⟨old, read⟩ := r
    exact restsAs_trans hscrubbed (restsAs_of_ump ((State.writeLine_ump _ _ _).trans hread))
  · exact restsAs_trans hscrubbed (State.violate_restsAs scrubbed)

theorem writeAcct_restsAs (s : State) (c : Nat) : restsAs s (writeAcct s c) := by
  unfold writeAcct
  split
  · exact restsAs_foldl (fun t l => writeLineFor_restsAs _ _ _ t l) _ s
  · exact restsAs_refl s

theorem updateAccts_restsAs (s : State) (last : Nat) : restsAs s (updateAccts s last) := by
  have hheld : ∀ (t : State) (c : Nat), restsAs t (releaseHeld t c) := fun t c => by
    unfold releaseHeld
    dsimp only
    split
    · exact restsAs_refl t
    · exact State.setAcct_restsAs t c _
  unfold updateAccts
  extract_lets released due
  refine restsAs_trans ?_ (restsAs_foldl (fun t c => restsAs_trans (State.setAcct_restsAs t c _) (writeAcct_restsAs _ c)) _ released)
  unfold released
  split
  · exact restsAs_foldl hheld _ s
  · exact restsAs_refl s

theorem State.opEvent_ump (s : State) (e : Rec32) : (s.opEvent e).ump = s.ump :=
  have : Fact True := ⟨trivial⟩
  (State.opEvent_keeps (M := fun p => match p with | .host => True | _ => False) (Keeps.refl s)).parts .ump not_false

theorem reportOverrun_restsAs (s : State) (u : Slot) : restsAs s (reportOverrun s u) := by
  unfold reportOverrun
  cases s.ump.overrun with
  | none => exact restsAs_refl s
  | some o => exact restsAs_trans (State.setAcct_restsAs s 0 _) (restsAs_of_ump (State.opEvent_ump _ _))

theorem State.chargeStatic_restsAs (s : State) : restsAs s s.chargeStatic := by
  unfold State.chargeStatic
  extract_lets ns a charged ump
  have hcharged : restsAs s charged := by
    unfold charged
    split
    · exact restsAs_refl s
    · exact State.setAcct_restsAs s 0 _
  exact hcharged

theorem samplePmu_ump (s : State) (last : Nat) : (samplePmu s last).ump = s.ump :=
  have : Fact True := ⟨trivial⟩
  (samplePmu_keeps (M := fun p => match p with | .host => True | _ => False) (Keeps.refl s)).parts .ump not_false

theorem State.reportDrops_ump (s : State) : s.reportDrops.ump = s.ump :=
  have : Fact True := ⟨trivial⟩
  (State.reportDrops_keeps (M := fun p => match p with | .host | .mgl => True | _ => False) (Keeps.refl s)).parts .ump not_false

/-- Nothing waits for the slot end: no ended work, practice step, completion, event or group step. -/
def quietEnd (s : State) : Prop :=
  s.ump.done = [] ∧ s.ump.steps = [] ∧ s.host.completions = [] ∧ s.host.events = [] ∧ s.rdc.step = none

/-- With nothing to settle the slot's work is settled at once. -/
theorem settled_of_quietEnd {s : State} (h : quietEnd s) (u : Slot) :
    (flushEvents (flushCompletions (settleSlot (s.verdictAction u) u.len))).ump = s.ump := by
  obtain ⟨hdone, hsteps, hcompl, hev, hstep⟩ := h
  have hverdict : s.verdictAction u = s := by
    unfold State.verdictAction
    rw [hstep]
  have hsettle : settleSlot s u.len = { s with ump := { s.ump with done := [] } } := by
    unfold settleSlot flagSteps
    simp only [hdone, List.filter_nil, List.foldl_nil, hsteps]
  rw [hverdict, hsettle, flushCompletions, flushEvents]
  simp only [hcompl, hev, List.foldl_nil]
  rw [← hdone]

/-- The state after a slot end's reports: the instant of the sample is kept, and no work has overrun its slot. -/
def State.reported (s : State) : State :=
  { s with
    scb := { s.scb with lastSample := s.ts }
    ump := { s.ump with overrun := none } }

theorem State.reported_restsAs (s : State) : restsAs s s.reported := fun h => ⟨h, rfl, rfl⟩

theorem State.reported_overrun (s : State) : s.reported.ump.overrun = none := rfl

/-- A slot end with nothing to settle leaves the Umpire at rest, and no overrun. -/
theorem slotEffects_rests {s : State} (h : quietEnd s) (u : Slot) :
    restsAs s (slotEffects s u) ∧ (slotEffects s u).ump.overrun = none := by
  change restsAs s (State.reported _) ∧ (State.reported _).ump.overrun = none
  refine ⟨?_, State.reported_overrun _⟩
  refine restsAs_trans ?_ (State.reported_restsAs _)
  have hsampled : ∀ x : State, restsAs x (samplePmu (updateAccts x s.scb.lastSample) s.scb.lastSample) := fun x =>
    restsAs_trans (updateAccts_restsAs x _) (restsAs_of_ump (samplePmu_ump _ _))
  have hcharged : ∀ x : State, restsAs x (reportOverrun x u).chargeStatic := fun x =>
    restsAs_trans (reportOverrun_restsAs x u) (State.chargeStatic_restsAs _)
  exact restsAs_trans (restsAs_of_ump (settled_of_quietEnd h u)) (restsAs_trans (hcharged _)
    (restsAs_trans (hsampled _) (restsAs_of_ump (State.reportDrops_ump _))))

theorem slotEffects_frame (s : State) (u : Slot) :
    (slotEffects s u).err = s.err ∧ (slotEffects s u).pwr = s.pwr ∧ (slotEffects s u).ts = s.ts := by
  have : Fact True := ⟨trivial⟩
  have hk := slotEffects_keeps (M := fun p => match p with | .err | .pwr | .ts => False | _ => True) (t := u) (Keeps.refl s)
  exact ⟨hk.parts .err not_false, hk.parts .pwr not_false, hk.parts .ts not_false⟩

/-! The choice without a ready serve (R342). -/

/-- A slot without a serve has begun at an instant, and no work runs or overruns. -/
def emptySlot (t : Nat) (x : State) : Prop :=
  x.ump.overrun = none ∧ ∃ v, x.ump.slot = some v ∧ v.start = t ∧ v.serve = none ∧ v.boundaryDone = false

/-- What a slot's start leaves of the Umpire. -/
theorem State.startSlot_ump (s : State) (t len : Nat) (kind : SlotKind) (r : Option ReadyServe) :
    (s.startSlot t len kind r).ump = { s.ump with
      slot := some ⟨t, len, t + len, kind, r.map (fun (x : ReadyServe) => x.did), false⟩
      overrun := none
      shut := [] } := by
  unfold State.startSlot
  extract_lets group ctx hidden ump begun traced counted
  have : Fact True := ⟨trivial⟩
  have hk := State.count_keeps (M := fun p => match p with | .free | .regs | .scb => True | _ => False)
    (b := traced.queueSched) (cls := 9) (event := 0) (n := 1) (c := counted)
    (State.trace_keeps (n := begun.queueSched) (kind := 1) (ctx := ctx)
      (data := len % 2 ^ 32 + 2 ^ 32 * (r.elim 0 (·.cls)) + 2 ^ 48 * (if r.isSome then 1 else 0) + 2 ^ 49 * group)
      (isSealed := hidden) (Keeps.refl begun))
  exact (State.count_keeps (cls := 9) (n := 1) (c := counted) hk).parts .ump not_false

theorem emptySlot_startSlot (s : State) (t len : Nat) (kind : SlotKind) : emptySlot t (s.startSlot t len kind none) := by
  unfold emptySlot
  rw [State.startSlot_ump]
  exact ⟨rfl, _, rfl, rfl, rfl, rfl⟩

theorem State.readyServes_nil {s : State} (h : s.ump.ready = []) (t : Nat) : s.readyServes t = [] := by
  rw [State.readyServes, h, List.filter_nil]

theorem State.jobs_nil {s : State} (h : s.ump.ready = []) (t : Nat) : s.jobs t = [] := by
  refine List.filterMap_eq_nil_iff.mpr fun e _ => ?_
  rw [State.readyServes_nil h, List.find?_nil]
  cases windowAt s e t <;> rfl

theorem State.noteJobs_nil {s : State} (h : s.ump.ready = []) (t : Nat) : s.noteJobs t = s := by
  rw [State.noteJobs, State.jobs_nil h, List.foldl_nil]

theorem State.retireFailed_nil {s : State} (h : s.ump.ready = []) (t n : Nat) : s.retireFailed t n = s := by
  cases n with
  | zero => rfl
  | succ n =>
    rw [State.retireFailed, State.readyServes_nil h, List.findSome?_nil]

theorem chooseProbed_nil {s : State} (h : s.ump.ready = []) (t did : Nat) : chooseProbed s t did = none := by
  rw [chooseProbed, State.readyServes_nil h, List.find?_nil]

theorem chooseReserved_nil {s : State} (h : s.ump.ready = []) (t : Nat) : chooseReserved s t = none := by
  unfold chooseReserved
  rw [State.jobs_nil h]
  rfl

theorem chooseShared_nil {s : State} (h : s.ump.ready = []) (t : Nat) : (chooseShared s t).1 = none := by
  unfold chooseShared
  rw [State.readyServes_nil h]
  rfl

theorem chooseGroup_nil {s x : State} {t : Nat} (h : s.ump.ready = []) (hx : chooseGroup s t = some x) :
    emptySlot t x ∧ x.ump.work = s.ump.work := by
  unfold chooseGroup at hx
  cases he : s.rsvTable.find? (fun e => e.group && decide (groupStart s e t = t)) with
  | none => rw [he] at hx; cases hx
  | some e =>
    rw [he, State.readyServes_nil h] at hx
    obtain rfl := Option.some.inj hx
    exact ⟨emptySlot_startSlot s t _ _, by rw [State.startSlot_ump]⟩

theorem chooseIdle_spec (s : State) (t : Nat) : emptySlot t (chooseIdle s t) ∧ (chooseIdle s t).ump.work = s.ump.work :=
  ⟨emptySlot_startSlot s t _ _, by unfold chooseIdle; rw [State.startSlot_ump]⟩

/-- Without a ready serve a group slot of an entry or an idle slot is chosen, and it holds no serve. -/
theorem State.choose_nil {s : State} (h : s.ump.ready = []) (t : Nat) (probed : Option Nat) :
    emptySlot t (s.choose t probed) ∧ (s.choose t probed).ump.work = s.ump.work := by
  unfold State.choose
  dsimp only
  rw [State.retireFailed_nil h, State.noteJobs_nil h]
  cases hgroup : chooseGroup s t with
  | some x => exact chooseGroup_nil h hgroup
  | none =>
    dsimp only
    have hprobed : probed.bind (chooseProbed s t) = none := by
      cases probed with
      | none => rfl
      | some did => exact chooseProbed_nil h t did
    rw [hprobed, chooseReserved_nil h]
    dsimp only
    have hshared := chooseShared_nil h t
    generalize chooseShared s t = y at hshared
    obtain ⟨x, d⟩ := y
    obtain rfl : x = none := hshared
    exact chooseIdle_spec _ t

theorem takeStretch_rests (s : State) : (takeStretch s).ump.ready = s.ump.ready ∧ (takeStretch s).ump.work = s.ump.work := by
  unfold takeStretch
  split
  · exact ⟨rfl, rfl⟩
  · exact ⟨rfl, rfl⟩

theorem State.chooseStretched_nil {s : State} (h : s.ump.ready = []) (t : Nat) (probed : Option Nat) :
    emptySlot t (s.chooseStretched t probed) ∧ (s.chooseStretched t probed).ump.work = s.ump.work := by
  obtain ⟨hready, hwork⟩ := takeStretch_rests s
  have hnew := State.choose_nil (hready.trans h) t probed
  rw [hwork] at hnew
  unfold State.chooseStretched
  dsimp only
  cases s.ump.stretchFor with
  | none => exact hnew
  | some did =>
    dsimp only
    split
    · exact hnew
    · exact State.choose_nil h t probed

/-! SLOT_END (R29, R341, R342). -/

theorem overrunCount_plainKey : plainKey R.umpOverrunCount :=
  ⟨by decide, by decide, fun b i => by unfold R.umpOverrunCount R.pmuCfg; omega⟩

theorem State.count_rests (s : State) (b cls event n : Nat) (c : Counted) :
    (s.count b cls event n c).ts = s.ts ∧ (s.count b cls event n c).ump = s.ump := by
  have : Fact True := ⟨trivial⟩
  have hk := State.count_keeps (M := fun p => match p with | .regs | .scb => True | _ => False) (b := b) (cls := cls)
    (event := event) (n := n) (c := c) (Keeps.refl s)
  exact ⟨hk.parts .ts not_false, hk.parts .ump not_false⟩

/-- A counter register bumped and the event counted: the register is one more. -/
theorem State.bump_count {s : State} (hw : RegsWf s.regs) {key : Nat} (hkey : plainKey key) (b cls event n : Nat) (c : Counted) :
    ((s.bump key).count b cls event n c).regAt key = s.regAt key + 1 ∧ ((s.bump key).count b cls event n c).ts = s.ts ∧
    ((s.bump key).count b cls event n c).ump = s.ump := by
  obtain ⟨hts, hump⟩ := State.count_rests (s.bump key) b cls event n c
  exact ⟨(State.count_keepsReg _ _ _ _ _ _ hkey (State.setReg_wf hw _ _)).1.trans (State.regAt_setReg_self _ _ _), hts, hump⟩

/-- Work that runs at its slot's end overruns it, and is counted. -/
theorem beginOverrun_spec {s : State} (hw : RegsWf s.regs) (u : Slot) (w : Work) :
    (beginOverrun s u w).ts = max s.ts u.slotEnd ∧
    (beginOverrun s u w).ump = { s.ump with overrun := some (w.ctx, w.stepNo, u.slotEnd) } ∧
    (beginOverrun s u w).regAt R.umpOverrunCount = s.regAt R.umpOverrunCount + 1 := by
  unfold beginOverrun
  extract_lets ump late
  obtain ⟨hcount, hts, hump⟩ := State.bump_count (s := late) hw overrunCount_plainKey
    (late.bump R.umpOverrunCount).queueSched 9 4 1 { unit := 1, ctx := w.ctx, isSealed := w.isSealed }
  exact ⟨hts, hump, hcount⟩

theorem exec_slotEnd_running {s : State} {u : Slot} {w : Work} (hu : s.ump.slot = some u) (hfaults : s.err.faults = [])
    (hdone : u.boundaryDone = true) (hw : s.ump.work = some w) (hover : s.ump.overrun = none) :
    exec .slotEnd s = .next (beginOverrun s u w) := by
  change execSlotEnd s = _
  unfold execSlotEnd
  rw [hu]
  dsimp only
  rw [if_neg (by simp [hfaults, hdone]), hw]
  dsimp only
  rw [hover]
  rfl

/-- The state with time no earlier than an instant. -/
def State.notBefore (x : State) (ts : Nat) : State := { x with ts := max ts x.ts }

/-- The state without a slot. -/
def State.noSlot (x : State) : State := { x with ump := { x.ump with slot := none } }

theorem exec_slotEnd_rest {s : State} {u : Slot} (hu : s.ump.slot = some u) (hfaults : s.err.faults = [])
    (hgo : u.boundaryDone = true ∨ s.err.hold = true) (hw : s.ump.work = none) :
    exec .slotEnd s =
      .next ((nextSlot (slotEffects { s with ts := u.slotEnd } u) u (probedHere s)).notBefore s.ts) := by
  have hnot : ¬(!s.err.faults.isEmpty || (!u.boundaryDone && !s.halted)) = true := by
    rcases hgo with h | h
    · simp [hfaults, h]
    · simp [hfaults, h, State.halted]
  change execSlotEnd s = _
  unfold execSlotEnd
  rw [hu]
  dsimp only
  rw [if_neg hnot, hw]
  rfl

/-- With no power request the next slot is chosen where no hold or device fault keeps it from starting. -/
theorem nextSlot_of {s : State} {u : Slot} (hreq : s.pwr.request = none) (hu : s.ump.slot = some u) (probed : Option Nat) :
    nextSlot s u probed = if s.err.hold ∨ s.err.deviceFault then s.noSlot else s.chooseStretched u.slotEnd probed := by
  have hsame : (if u.len = 0 ∧ s.pwr.request = some .active then s.nowActive.takeQueued else s) = s :=
    if_neg (by simp [hreq])
  unfold nextSlot
  dsimp only
  rw [hsame, if_neg (by simp [hreq]), if_neg (fun h => h hu)]
  rfl

/-- What a slot end leaves that starts a slot without a serve. -/
theorem nextSlot_later (ts : Nat) {x : State} {t : Nat} (hw : x.ump.work = none) (hempty : emptySlot t x) :
    ts ≤ (x.notBefore ts).ts ∧ (x.notBefore ts).ump.work = none ∧ emptySlot t (x.notBefore ts) :=
  ⟨le_max_left _ _, hw, hempty⟩

/-- What a slot end leaves that starts none. -/
theorem noSlot_later (ts : Nat) {x : State} {rs : List ReadyServe} (hw : x.ump.work = none) (hready : x.ump.ready = rs) :
    ts ≤ (x.noSlot.notBefore ts).ts ∧ (x.noSlot.notBefore ts).ump.slot = none ∧ (x.noSlot.notBefore ts).ump.work = none ∧
    (x.noSlot.notBefore ts).ump.ready = rs := ⟨le_max_left _ _, rfl, hw, hready⟩

end Sys2Proof.Machine
end

section
/-! PROOFS. The slot end (O43). -/
namespace Sys2Proof.Machine
open Sys2Proof

/-- Settles O43: reports leave an Umpire at rest, and without a ready serve every choice is a slot without one. -/
theorem slotEndCompletes : Obligations.SlotEndCompletes := by
  unfold Obligations.SlotEndCompletes
  refine ⟨?_, ?_, ?_⟩
  · intro s u w hinv hu hfaults hdone hw hover
    obtain ⟨hts, hump, hcount⟩ := beginOverrun_spec hinv.2 u w
    refine .of_next (exec_slotEnd_running hu hfaults hdone hw hover) ⟨hts, ?_, ?_, ?_, hcount⟩ <;> rw [hump]
    · exact hw
    · exact hu
  · intro s u hu hfaults hhold hdev hdone hw hended hsteps hready hover hcompl hev hstep hreq _
    obtain ⟨hrest, _⟩ := slotEffects_rests (s := { s with ts := u.slotEnd }) ⟨hended, hsteps, hcompl, hev, hstep⟩ u
    obtain ⟨herr, hpwr, _⟩ := slotEffects_frame { s with ts := u.slotEnd } u
    obtain ⟨hwork, hslot, hready'⟩ := hrest hw
    have hnext := nextSlot_of (s := slotEffects { s with ts := u.slotEnd } u) (by rw [hpwr]; exact hreq) (hslot.trans hu)
      (probedHere s)
    rw [herr, if_neg (by simp [hhold, hdev])] at hnext
    obtain ⟨hempty, hwork'⟩ := State.chooseStretched_nil (hready'.trans hready) u.slotEnd (probedHere s)
    have hexec := exec_slotEnd_rest hu hfaults (.inl hdone) hw
    rw [hnext] at hexec
    exact .of_next hexec (nextSlot_later s.ts (hwork'.trans hwork) hempty)
  · intro s u hu hfaults hhold hw hended hsteps hcompl hev hstep hreq
    obtain ⟨hrest, _⟩ := slotEffects_rests (s := { s with ts := u.slotEnd }) ⟨hended, hsteps, hcompl, hev, hstep⟩ u
    obtain ⟨herr, hpwr, _⟩ := slotEffects_frame { s with ts := u.slotEnd } u
    obtain ⟨hwork, hslot, hready⟩ := hrest hw
    have hnext := nextSlot_of (s := slotEffects { s with ts := u.slotEnd } u) (by rw [hpwr]; exact hreq) (hslot.trans hu)
      (probedHere s)
    rw [herr, if_pos (.inl hhold)] at hnext
    have hexec := exec_slotEnd_rest hu hfaults (.inr hhold) hw
    rw [hnext] at hexec
    exact .of_next hexec (noSlot_later s.ts hwork hready)

end Sys2Proof.Machine
end

section
/-! SUPPORT. The slot timeline: boundaries, group slots, reservation windows, and work that is stopped (R25, R341, R347, R354, R404). -/
namespace Sys2Proof.Machine
open Sys2Proof

/-! The boundary (R25). -/

theorem State.boundary_slot (s : State) (u : Slot) : ∃ x : Option Slot,
    (s.boundary u).ump.slot = x.map (fun v => { v with boundaryDone := true }) := ⟨_, rfl⟩

theorem State.boundary_done {s : State} {u v : Slot} (h : (s.boundary u).ump.slot = some v) : v.boundaryDone = true := by
  obtain ⟨x, hx⟩ := s.boundary_slot u
  rw [hx] at h
  obtain ⟨y, -, rfl⟩ := Option.map_eq_some_iff.mp h
  rfl

theorem completes_serveBoundary {s : State} {u : Slot} (hu : s.ump.slot = some u) (hdone : u.boundaryDone = false)
    (hhalt : s.halted = false) (hbegun : stepBegun s u = true) :
    Completes .serveBoundary s (fun t => ∀ v, t.ump.slot = some v → v.boundaryDone = true) := by
  have hexec : exec .serveBoundary s = .next (State.boundary { s with ts := max s.ts u.start } u) := by
    change execServeBoundary s = _
    unfold execServeBoundary
    rw [hu]
    exact if_neg (by simp [hdone, hhalt, hbegun])
  exact .of_next hexec fun v hv => State.boundary_done hv

/-! Group slots (R351, R404). -/

theorem State.rsvEntry_index {s : State} {i : Nat} {e : RsvEntry} (h : s.rsvEntry i = some e) : e.index = i := by
  unfold State.rsvEntry at h
  dsimp only at h
  split at h
  · cases h
  · obtain rfl := Option.some.inj h
    rfl

theorem State.rsvRun_setRsvRun (s : State) (i : Nat) (r : RsvRun) : (s.setRsvRun i r).rsvRun i = r := by
  change Tbl.getD (Tbl.set s.ump.rsv i r) i _ = r
  rw [Tbl.getD, Tbl.get?_set_self]
  rfl

theorem State.rsvRun_congr {s t : State} (h : t.ump.rsv = s.ump.rsv) (i : Nat) : t.rsvRun i = s.rsvRun i := by
  rw [State.rsvRun, h, State.rsvRun]

/-- A group step that starts. -/
theorem State.startStep_spec (s : State) (e : RsvEntry) (start : Nat) :
    (s.startStep e start).ts = s.ts ∧ (s.startStep e start).ump.rsv = s.ump.rsv ∧
    (s.startStep e start).rdc.gstep = (s.rdc.gstep + 1) % 2 ^ 64 ∧
    ∃ g, (s.startStep e start).rdc.step = some g ∧ g.entry = e.index ∧ g.start = start ∧ g.hasWork = false := by
  unfold State.startStep
  extract_lets takes decl g rdc begun
  have hbegun : ∀ x : State, x.ts = begun.ts → x.ump.rsv = begun.ump.rsv → x.rdc = begun.rdc →
      x.ts = s.ts ∧ x.ump.rsv = s.ump.rsv ∧ x.rdc.gstep = (s.rdc.gstep + 1) % 2 ^ 64 ∧
      ∃ g, x.rdc.step = some g ∧ g.entry = e.index ∧ g.start = start ∧ g.hasWork = false := by
    intro x hts hrsv hrdc
    rw [hrdc]
    exact ⟨hts, hrsv, rfl, g, rfl, rfl, rfl, rfl⟩
  cases begun.ump.slot with
  | none => exact hbegun _ rfl rfl rfl
  | some u =>
    dsimp only
    split
    · exact hbegun _ rfl rfl rfl
    · exact hbegun _ rfl rfl rfl

theorem completes_groupSlotStart {s : State} {i : Nat} {e : RsvEntry} (he : s.rsvEntry i = some e) (hgroup : e.group = true)
    (hrun : s.pwr.phase = .running) : Completes (.groupSlotStart i) s (fun t =>
      t.ts = max s.ts (groupStart s e ((s.rsvRun i).taken.elim 0 (· + 1))) ∧ t.rdc.gstep = (s.rdc.gstep + 1) % 2 ^ 64 ∧
      (t.rsvRun i).taken = some (groupStart s e ((s.rsvRun i).taken.elim 0 (· + 1))) ∧
      ∃ g, t.rdc.step = some g ∧ g.entry = e.index ∧ g.start = groupStart s e ((s.rsvRun i).taken.elim 0 (· + 1)) ∧
        g.hasWork = false) := by
  have hgo : ¬(e.group = false ∨ s.booted = false) := by
    rw [hgroup, State.booted_of_running hrun]
    decide
  have hexec : exec (.groupSlotStart i) s = .next (State.startStep
      ({ s with ts := max s.ts (groupStart s e ((s.rsvRun i).taken.elim 0 (· + 1))) }.setRsvRun i
        { s.rsvRun i with taken := some (groupStart s e ((s.rsvRun i).taken.elim 0 (· + 1))) }) e
      (groupStart s e ((s.rsvRun i).taken.elim 0 (· + 1)))) := by
    change execGroupSlotStart i s = _
    unfold execGroupSlotStart
    rw [he]
    exact if_neg hgo
  generalize groupStart s e ((s.rsvRun i).taken.elim 0 (· + 1)) = start at hexec ⊢
  obtain ⟨hts, hrsv, hgstep, hstep⟩ := State.startStep_spec
    ({ s with ts := max s.ts start }.setRsvRun i { s.rsvRun i with taken := some start }) e start
  exact .of_next hexec ⟨hts, hgstep, by rw [State.rsvRun_congr hrsv, State.rsvRun_setRsvRun], hstep⟩

/-! Reservation windows (R347, R563). -/

/-- What noting jobs changes: the run states of the entries. -/
theorem State.noteJobs_spec (s : State) (t : Nat) : (s.noteJobs t).regs = s.regs ∧ (s.noteJobs t).ts = s.ts ∧
    (s.noteJobs t).ump.windowBase = s.ump.windowBase := by
  unfold State.noteJobs
  generalize s.jobs t = js
  induction js generalizing s with
  | nil => exact ⟨rfl, rfl, rfl⟩
  | cons j js ih =>
    rw [List.foldl_cons]
    obtain ⟨hregs, hts, hbase⟩ := ih (if (s.rsvRun j.1.index).windows.contains j.2.1 then s
      else s.setRsvRun j.1.index { s.rsvRun j.1.index with windows := (s.rsvRun j.1.index).windows ++ [j.2.1] })
    refine ⟨hregs.trans ?_, hts.trans ?_, hbase.trans ?_⟩ <;> split <;> rfl

/-- The state in which a window of an entry has ended. -/
def windowEnded (x : State) (i k : Nat) (rest : List Nat) (e : RsvEntry) : State :=
  let run := x.rsvRun i
  let s := { x with ts := max x.ts (windowEnd x e k) }.setRsvRun i { run with windows := rest }
  let s := s.bump R.umpRsvMissCount
  s.later .operator (eventRec 0x0091 e.ctx 0 [(4, 0, 6, i), (4, 6, 4, s.ump.stretch), (8, 0, 64, pendingNo s e s.ts)])

theorem windowEnded_spec (x : State) (i k : Nat) (rest : List Nat) (e : RsvEntry) :
    (windowEnded x i k rest e).ts = max x.ts (windowEnd x e k) ∧ ((windowEnded x i k rest e).rsvRun i).windows = rest ∧
    (windowEnded x i k rest e).regAt R.umpRsvMissCount = x.regAt R.umpRsvMissCount + 1 := by
  unfold windowEnded
  extract_lets run noted bumped
  exact ⟨rfl, (congrArg RsvRun.windows (State.rsvRun_setRsvRun { x with ts := max x.ts (windowEnd x e k) } i _) :),
    State.regAt_setReg_self noted R.umpRsvMissCount _⟩

theorem State.rsvEntry_congr {s t : State} (h : t.regs = s.regs) (i : Nat) : t.rsvEntry i = s.rsvEntry i := by
  unfold State.rsvEntry
  simp only [State.regFld_congr h]

theorem completes_rsvWindowEnd {s : State} {i k : Nat} {ks : List Nat} {e : RsvEntry} (he : s.rsvEntry i = some e)
    (hwin : ((if s.err.hold then s.noteJobs s.ts else s).rsvRun i).windows = k :: ks) :
    Completes (.rsvWindowEnd i) s (fun t => t.ts = max s.ts (windowEnd s e k) ∧ (t.rsvRun i).windows = ks ∧
      t.regAt R.umpRsvMissCount = s.regAt R.umpRsvMissCount + 1) := by
  have hnoted : ∀ x : State, x.regs = s.regs → x.ts = s.ts → x.ump.windowBase = s.ump.windowBase →
      (windowEnded x i k ks e).ts = max s.ts (windowEnd s e k) ∧ ((windowEnded x i k ks e).rsvRun i).windows = ks ∧
      (windowEnded x i k ks e).regAt R.umpRsvMissCount = s.regAt R.umpRsvMissCount + 1 := by
    intro x hregs hts hbase
    obtain ⟨h1, h2, h3⟩ := windowEnded_spec x i k ks e
    refine ⟨?_, h2, ?_⟩
    · rw [h1, hts, windowEnd, hbase, windowEnd]
    · rw [h3, State.regAt_congr hregs]
  have hexec : ∀ x : State, (if s.err.hold then s.noteJobs s.ts else s) = x → x.regs = s.regs →
      exec (.rsvWindowEnd i) s = .next (windowEnded x i k ks e) := by
    intro x hx hregs
    rw [hx] at hwin
    change execRsvWindowEnd i s = _
    unfold execRsvWindowEnd
    rw [hx]
    dsimp only
    rw [State.rsvEntry_congr hregs, he, hwin]
    rfl
  by_cases hhold : s.err.hold = true
  · obtain ⟨hregs, hts, hbase⟩ := State.noteJobs_spec s s.ts
    exact .of_next (hexec _ (if_pos hhold) hregs) (hnoted _ hregs hts hbase)
  · exact .of_next (hexec s (if_neg hhold) rfl) (hnoted s rfl rfl rfl)

/-! Work that is stopped (R341, R354, R355). -/

theorem State.urgent_spec (s : State) (cause : DiscardCause) (code : Nat) :
    (s.urgent cause code).ump.work = none ∧ (s.urgent cause code).ts = s.ts := by
  refine ⟨?_, ?_⟩
  · unfold State.urgent
    cases hw : s.ump.work with
    | none => exact hw
    | some w => exact State.stopWork_work _ _
  · have : Fact True := ⟨trivial⟩
    exact (State.urgent_keeps (M := fun p => match p with | .ts => False | _ => True) (cause := cause) (code := code)
      (Keeps.refl s)).parts .ts not_false

theorem completes_overrunLimit {s : State} {u : Slot} {w : Work} {o : Nat × Nat × Nat} (hu : s.ump.slot = some u)
    (hw : s.ump.work = some w) (hover : s.ump.overrun = some o) :
    Completes .overrunLimit s (fun t => t.ump.work = none ∧ t.ts = max s.ts (u.start + 2 * u.len)) := by
  have hexec : exec .overrunLimit s = .next ({ s with ts := max s.ts (u.start + 2 * u.len) }.urgent .overrun 1) := by
    change execOverrunLimit s = _
    unfold execOverrunLimit
    rw [hu]
    exact if_neg (by simp [hw, hover])
  exact .of_next hexec (State.urgent_spec _ _ _)

theorem blockWritable_umpSubst {s : State} (hrun : s.pwr.phase = .running) (p : Port) : blockWritable s p R.umpSubst = true := by
  unfold blockWritable
  dsimp only
  rw [if_pos (State.booted_of_running hrun), (by decide : decide (R.umpSubst / 0x10000 ≠ 0x18) = true),
    (by decide : decide (R.umpSubst / 0x10000 ≠ 0x23) = true)]
  rfl

/-- The state that stores the context of a substitution. -/
def State.substStored (s : State) (v : Word) : State := s.setFld R.umpSubst 0 16 (wordFld v 0 16)

theorem completes_substitution_go {s : State} {v : Word} {w : Work} (hrun : s.pwr.phase = .running) (p : Port)
    (hw : s.ump.work = some w) (hctx : wordFld v 0 16 = w.ctx) (hmin : w.ctx ≠ 0) (hmax : w.ctx ≤ 4095)
    (hgo : wordFld v 31 1 = 1) : Completes (.urgentSubstitution p v) s (fun t => t.ump.work = none ∧ t.ts = s.ts) := by
  have hexec : exec (.urgentSubstitution p v) s = .next ((s.substStored v).urgent .substitution 0) := by
    change execUrgentSubstitution p v s = _
    unfold execUrgentSubstitution
    dsimp only
    rw [if_neg (by simp [blockWritable_umpSubst hrun, hctx, hmin]; omega)]
    exact if_pos (by simp [hgo, hw, hctx])
  exact .of_next hexec (State.urgent_spec _ _ _)

theorem completes_substitution_store {s : State} {v : Word} (hrun : s.pwr.phase = .running) (p : Port)
    (hgo : wordFld v 31 1 = 0) : Completes (.urgentSubstitution p v) s (fun t =>
      t.regFld R.umpSubst 0 16 = wordFld v 0 16 ∧ t.ump = s.ump ∧ t.ts = s.ts) := by
  have hexec : exec (.urgentSubstitution p v) s = .next (s.substStored v) := by
    change execUrgentSubstitution p v s = _
    unfold execUrgentSubstitution
    dsimp only
    rw [if_neg (by simp [blockWritable_umpSubst hrun, hgo])]
    exact if_neg (by simp [hgo])
  refine .of_next hexec ⟨?_, rfl, rfl⟩
  exact (State.regFld_setFld_self s (by decide)).trans (Nat.mod_eq_of_lt (wordFld_lt v 0 16))

end Sys2Proof.Machine
end

section
/-! PROOFS. The other commands of the slot timeline (O44). -/
namespace Sys2Proof.Machine
open Sys2Proof

/-- Settles O44: a boundary ends with its slot marked; a window's end, a group slot's start and a stop each keep the rest. -/
theorem slotTimelineCompletes : Obligations.SlotTimelineCompletes := by
  unfold Obligations.SlotTimelineCompletes
  refine ⟨?_, ?_, ?_, ?_, ?_, ?_⟩
  · intro s u hu hdone hhalt hbegun
    exact completes_serveBoundary hu hdone hhalt hbegun
  · intro s i e he hgroup hrun
    exact completes_groupSlotStart he hgroup hrun
  · intro s i k ks e x he hwin
    exact completes_rsvWindowEnd he hwin
  · intro s u w o hu hw hover
    exact completes_overrunLimit hu hw hover
  · intro s p v w hrun hw hctx hmin hmax hgo
    exact completes_substitution_go hrun p hw hctx hmin hmax hgo
  · intro s p v hrun hgo
    exact completes_substitution_store hrun p hgo

end Sys2Proof.Machine
end

section
/-! SUPPORT. Segments that start, and work that leaves the array (R31, R321, R350, R403). -/
namespace Sys2Proof.Machine
open Sys2Proof

/-! The start of a segment (R31, R350). -/

/-- A segment whose image a bank holds goes on the array, at the instant it starts. -/
theorem startSegment_spec {s : State} {p : PStep} {x : Segment} {g : Program} {i : Image} {b : Nat} (hg : programAt s p = some g)
    (hi : Tbl.get? s.ump.images p.imgSlot = some i) (hb : segmentBank s p g x = some b) :
    ∃ (y : State) (probe : Bool), startSegment s p x = y.startWork (segmentWork y p probe) x.streams b ∧ y.ts = s.ts := by
  unfold startSegment
  rw [hg, hi]
  dsimp only
  rw [hb]
  dsimp only
  refine ⟨_, !p.probed.contains p.segment && needsProbe s p.ctx i x.tensors g.group, rfl, ?_⟩
  have hbump : (if (!p.probed.contains p.segment && needsProbe s p.ctx i x.tensors g.group) = true then s.bump R.crtProbeCount
      else s).ts = s.ts := by
    split <;> rfl
  have : Fact True := ⟨trivial⟩
  exact ((joinStep_keeps (M := fun p => match p with | .ts => False | _ => True)
    (State.count_keeps (State.trace_keeps (State.modPStep_keeps (Keeps.refl _))))).parts .ts not_false).trans hbump

theorem segmentWork_practice (s : State) (p : PStep) (probe : Bool) : (segmentWork s p probe).practice = true := by
  cases probe <;> rfl

/-- What a slot is in which a segment may start. -/
def segmentMayStart (s : State) (u : Slot) : Prop :=
  s.ump.slot = some u ∧ u.boundaryDone = true ∧ s.halted = false ∧ s.ump.work = none ∧ s.ump.overrun = none ∧ s.ts < u.slotEnd ∧
    stepBegun s u = true

theorem segmentMayStart.go {s : State} {u : Slot} (h : segmentMayStart s u) : ¬(!u.boundaryDone || s.halted || s.ump.work.isSome ||
    s.ump.overrun.isSome || decide (u.slotEnd ≤ s.ts) || !stepBegun s u) = true := by
  obtain ⟨-, hdone, hhalt, hw, hover, hts, hbegun⟩ := h
  simpa [hdone, hhalt, hw, hover, hbegun] using hts

/-- The state with the deficits of the segments' choice. -/
def State.setSegDrr (s : State) (d : Drr) : State := { s with ump := { s.ump with segDrr := d } }

theorem exec_segmentStart_shared {s : State} {u : Slot} {c : Nat} {d : Drr} {p : PStep} {x : Segment} (h : segmentMayStart s u)
    (hgroup : groupSegment s u = none) (hpick : s.pickSegment (u.slotEnd - s.ts) = (some c, d))
    (hnext : nextSegment s false c = some (p, x)) : exec .segmentStart s = .next (startSegment (s.setSegDrr d) p x) := by
  have hnext' : nextSegment (s.setSegDrr d) false c = some (p, x) := hnext
  change execSegmentStart s = _
  unfold execSegmentStart
  rw [h.1]
  dsimp only
  rw [if_neg h.go, hgroup]
  dsimp only
  rw [hpick]
  change (match nextSegment (s.setSegDrr d) false c with
    | some (p, x) => Host.Outcome.next (startSegment (s.setSegDrr d) p x)
    | none => Host.Outcome.next (s.setSegDrr d)) = _
  rw [hnext']

theorem exec_segmentStart_group {s : State} {u : Slot} {p : PStep} {x : Segment} (h : segmentMayStart s u)
    (hgroup : groupSegment s u = some (p, x)) : exec .segmentStart s = .next (startSegment s p x) := by
  change execSegmentStart s = _
  unfold execSegmentStart
  rw [h.1]
  dsimp only
  rw [if_neg h.go, hgroup]

theorem completes_segmentStart_shared {s : State} {u : Slot} {c b : Nat} {d : Drr} {p : PStep} {x : Segment} {g : Program}
    {i : Image} (h : segmentMayStart s u) (hgroup : groupSegment s u = none)
    (hpick : s.pickSegment (u.slotEnd - s.ts) = (some c, d)) (hnext : nextSegment s false c = some (p, x))
    (hg : programAt s p = some g) (hi : Tbl.get? s.ump.images p.imgSlot = some i) (hb : segmentBank s p g x = some b) :
    Completes .segmentStart s (fun t => (∃ w, t.ump.work = some w ∧ w.did = p.did ∧
      w.ctx = p.ctx ∧ w.stepNo = p.no ∧ w.start = s.ts ∧ w.seed = p.seed ∧ w.practice = true) ∧ t.eng = .reset ∧
      ∃ r, t.wst.stream = some r ∧ r.entries = x.streams ∧ r.bank = b ∧ r.started = 0 ∧ r.completed = 0) := by
  obtain ⟨y, probe, hy, hts⟩ := startSegment_spec (s := s.setSegDrr d) (g := g) hg hi hb
  refine .of_next ((exec_segmentStart_shared h hgroup hpick hnext).trans (congrArg Host.Outcome.next hy)) ?_
  exact ⟨⟨_, rfl, rfl, rfl, rfl, hts, rfl, segmentWork_practice y p probe⟩, rfl, _, rfl, rfl, rfl, rfl, rfl⟩

theorem completes_segmentStart_group {s : State} {u : Slot} {b : Nat} {p : PStep} {x : Segment} {g : Program} {i : Image}
    (h : segmentMayStart s u) (hgroup : groupSegment s u = some (p, x)) (hg : programAt s p = some g)
    (hi : Tbl.get? s.ump.images p.imgSlot = some i) (hb : segmentBank s p g x = some b) :
    Completes .segmentStart s (fun t => ∃ w, t.ump.work = some w ∧ w.did = p.did ∧
      w.ctx = p.ctx ∧ w.start = s.ts ∧ w.practice = true) := by
  obtain ⟨y, probe, hy, hts⟩ := startSegment_spec hg hi hb
  refine .of_next ((exec_segmentStart_group h hgroup).trans (congrArg Host.Outcome.next hy)) ?_
  exact ⟨_, rfl, rfl, rfl, hts, segmentWork_practice y p probe⟩

/-! The end of work (R31, R321). -/

/-- Work has left the array, which is at reset, and waits for the slot end since an instant. -/
def leftArray (s : State) (w : Work) (t : State) : Prop :=
  t.ump.work = none ∧ t.ump.done = s.ump.done ++ [{ w with ended := some s.ts }] ∧ t.eng = .reset ∧ t.wst.stream = none

theorem State.endOverrun_left (s : State) : s.endOverrun.ts = s.ts ∧ s.endOverrun.ump.done = s.ump.done ∧
    s.endOverrun.ump.ready = s.ump.ready := by
  unfold State.endOverrun
  split <;> exact ⟨rfl, rfl, rfl⟩

theorem State.workEnded_left (s : State) (w : Work) :
    leftArray s w (s.workEnded w) ∧ (s.workEnded w).ump.ready = s.ump.ready := by
  obtain ⟨hts, hdone, hready⟩ := s.endOverrun_left
  have hended : (s.workEnded w).ump.done = s.endOverrun.ump.done ++ [{ w with ended := some s.endOverrun.ts }] := rfl
  rw [hdone, hts] at hended
  exact ⟨⟨rfl, hended, rfl, rfl⟩, hready⟩

/-- The trace record of work that ends, written. -/
theorem workEnded_traced (s : State) (w : Work) (n kind ctx data : Nat) (isSealed : Bool) :
    leftArray s w ((s.workEnded w).trace n kind ctx data isSealed) ∧
    ((s.workEnded w).trace n kind ctx data isSealed).ump.ready = s.ump.ready := by
  have : Fact True := ⟨trivial⟩
  have hk := State.trace_keeps (M := fun p => match p with | .free | .scb => True | _ => False) (n := n) (kind := kind)
    (ctx := ctx) (data := data) (isSealed := isSealed) (Keeps.refl (s.workEnded w))
  unfold leftArray
  rw [hk.parts .ump not_false, hk.parts .eng not_false, hk.parts .wst not_false]
  exact s.workEnded_left w

/-- What leaves the Umpire, the engines and the weight store alone leaves the array as it was. -/
theorem leftArray_keeps {s x y : State} {w : Work} {M : Part → Prop} (hump : ¬M .ump) (heng : ¬M .eng) (hwst : ¬M .wst)
    (hk : Keeps M x y) (h : leftArray s w x) : leftArray s w y := by
  unfold leftArray
  rw [hk.parts .ump hump, hk.parts .eng heng, hk.parts .wst hwst]
  exact h

/-- A segment's step moves on with nothing changed of the array or of the work that has ended. -/
theorem leftArray_advanceStep {s t : State} {w : Work} (h : leftArray s w t) (did : Nat) : leftArray s w (advanceStep t did) := by
  have : Fact True := ⟨trivial⟩
  unfold advanceStep
  extract_lets moved
  have hmoved : leftArray s w moved := h
  cases moved.ump.steps.find? (fun p => p.did == did) with
  | none => exact hmoved
  | some p =>
    dsimp only
    split
    · exact leftArray_keeps not_false not_false not_false
        (askCommit_keeps (M := fun p => match p with | .lkr => True | _ => False) (p := p) (Keeps.refl moved)) hmoved
    · exact hmoved

theorem leftArray_probeUses {s t : State} {w : Work} (h : leftArray s w t) (v : Work) : leftArray s w (probeUses t v) :=
  have : Fact True := ⟨trivial⟩
  leftArray_keeps not_false not_false not_false
    (probeUses_keeps (M := fun p => match p with | .host => True | _ => False) (w := v) (Keeps.refl t)) h

theorem completes_segmentEnd {s : State} {w : Work} (hw : s.ump.work = some w) (hprac : w.practice = true)
    (hdone : enginesDone s w = true) : Completes .segmentEnd s (leftArray s w) := by
  obtain ⟨hleft, _⟩ := workEnded_traced s w s.queueSched 5 w.ctx w.stepNo false
  have hgo : ¬(!w.practice || !enginesDone s w) = true := by simp [hprac, hdone]
  generalize hy : (s.workEnded w).trace s.queueSched 5 w.ctx w.stepNo false = y at hleft
  have hexec : exec .segmentEnd s = .next (if (groupOf y w.imgSlot true w.cls).isSome then y
      else if w.kind = .segment then advanceStep y w.did else segmentProbed y w) := by
    change execSegmentEnd s = _
    unfold execSegmentEnd
    rw [hw]
    dsimp only
    rw [if_neg hgo, hy]
    split <;> rfl
  refine .of_next hexec ?_
  split
  · exact hleft
  · split
    · exact leftArray_advanceStep hleft _
    · exact leftArray_probeUses hleft w

theorem completes_serveEnd {s : State} {w : Work} (hw : s.ump.work = some w) (hserve : w.practice = false)
    (hdone : enginesDone s w = true) (hback : writebacksDone s w = true) :
    Completes .serveEnd s (fun t => leftArray s w t ∧ t.ump.ready = s.ump.ready) := by
  have hgo : ¬(w.practice || !enginesDone s w || !writebacksDone s w) = true := by simp [hserve, hdone, hback]
  have hexec : exec .serveEnd s =
      .next ((s.workEnded w).trace s.queueSched 3 w.ctx w.stepNo w.isSealed) := by
    change execServeEnd s = _
    unfold execServeEnd
    rw [hw]
    dsimp only
    rw [if_neg hgo]
  exact .of_next hexec (workEnded_traced s w _ 3 w.ctx w.stepNo w.isSealed)

end Sys2Proof.Machine
end

section
/-! PROOFS. Starts and ends of work (O45). -/
namespace Sys2Proof.Machine
open Sys2Proof

/-- Settles O45: a start puts the segment's work and streams on an array at reset, and an end takes them off again. -/
theorem workStartsAndEndsComplete : Obligations.WorkStartsAndEndsComplete := by
  unfold Obligations.WorkStartsAndEndsComplete
  refine ⟨?_, ?_, ?_, ?_⟩
  · intro s u c b d p x g i hu hdone hhalt hw hover hts hbegun hgroup hpick hnext hg hi hb
    exact completes_segmentStart_shared ⟨hu, hdone, hhalt, hw, hover, hts, hbegun⟩ hgroup hpick hnext hg hi hb
  · intro s u b p x g i hu hdone hhalt hw hover hts hbegun hgroup hg hi hb
    exact completes_segmentStart_group ⟨hu, hdone, hhalt, hw, hover, hts, hbegun⟩ hgroup hg hi hb
  · intro s w hw hprac hdone
    exact completes_segmentEnd hw hprac hdone
  · intro s w hw hserve hdone hback
    exact (completes_serveEnd hw hserve hdone hback).mono fun t ⟨⟨h1, h2, h3, h4⟩, h5⟩ => ⟨h1, h2, h3, h4, h5⟩

end Sys2Proof.Machine
end

section
/-! SUPPORT. Layer streams, layer starts, gathers of prefixes and KV write-backs (R27, R210, R213, R256, R257, R321). -/
namespace Sys2Proof.Machine
open Sys2Proof

/-! A register off its reset value keeps it under writes of others, whatever the order of the table. -/

theorem Tbl.get?_filter_of_some {α : Type} {t : Tbl α} {i : Nat} {x : α} {f : Nat × α → Bool} (h : Tbl.get? t i = some x)
    (hf : ∀ y, f (i, y) = true) : Tbl.get? (t.filter f) i = some x := by
  induction t with
  | nil => cases h
  | cons p t ih =>
    obtain ⟨k, v⟩ := p
    rw [Tbl.get?] at h
    rw [List.filter_cons]
    by_cases hk : k = i
    · obtain rfl := hk
      rw [if_pos (hf v), Tbl.get?, if_pos rfl]
      rwa [if_pos rfl] at h
    · rw [if_neg hk] at h
      have hlt : ¬i < k := fun hlt => by rw [if_pos hlt] at h; cases h
      rw [if_neg hlt] at h
      split
      · rw [Tbl.get?, if_neg hk, if_neg hlt, ih h]
      · exact ih h

/-- A register that is off its reset value in the first state reads the same in the second. -/
def holdsReg (key : Nat) (s t : State) : Prop := s.regAt key ≠ regReset key → t.regAt key = s.regAt key

theorem holdsReg_of_regs {key : Nat} {s t : State} (h : t.regs = s.regs) : holdsReg key s t := fun _ => State.regAt_congr h key

theorem holdsReg_trans {key : Nat} {s t u : State} (h : holdsReg key s t) (k : holdsReg key t u) : holdsReg key s u :=
  fun hs => (k (by rw [h hs]; exact hs)).trans (h hs)

theorem State.setReg_holdsReg (s : State) {key j : Nat} (v : Word) (h : key ≠ j) : holdsReg key s (s.setReg j v) := by
  intro hs
  unfold State.setReg State.regAt regsSet
  dsimp only
  split
  · cases hget : Tbl.get? s.regs key with
    | none =>
      rw [State.regAt, hget] at hs
      exact absurd rfl hs
    | some x => rw [Tbl.erase, Tbl.get?_filter_of_some hget (fun y => by simpa using h)]
  · rw [Tbl.get?_set_ne _ _ h]

theorem State.count_holdsReg (s : State) (b cls event n : Nat) (c : Counted) {key : Nat} (h : plainKey key) :
    holdsReg key s (s.count b cls event n c) := by
  have hadd : ∀ (t : State) (i : Nat), holdsReg key t (t.addCounter b i n) := by
    intro t i
    unfold State.addCounter
    dsimp only
    split
    · exact State.setReg_holdsReg (s := { t with scb := _ }) _ (h.2.2 b i)
    · exact holdsReg_of_regs rfl
  have hsets : ∀ t : State, (countSets t cls event n c).regs = t.regs := by
    intro t
    unfold countSets
    split <;> rfl
  have hfold : ∀ (is : List Nat) (t : State), holdsReg key t (is.foldl (fun s i =>
      if wordFld (s.regAt (R.pmuCfg b i)) 16 4 = cls ∧ wordFld (s.regAt (R.pmuCfg b i)) 8 8 = event ∧ pmuPasses s b i c then
        s.addCounter b i n else s) t) := by
    intro is
    induction is with
    | nil => exact fun t => holdsReg_of_regs rfl
    | cons i is ih =>
      intro t
      rw [List.foldl_cons]
      refine holdsReg_trans ?_ (ih _)
      split
      · exact hadd t i
      · exact holdsReg_of_regs rfl
  unfold State.count
  exact holdsReg_trans (hfold _ s) (holdsReg_of_regs (hsets _))

theorem State.dropPacket_holdsReg (s : State) (p dst reason : Nat) {key : Nat} (h : plainKey key) (hdrop : key ≠ R.mglDrop) :
    holdsReg key s (s.dropPacket p dst reason) := by
  unfold State.dropPacket
  extract_lets bumped counted
  exact holdsReg_trans (State.setReg_holdsReg s _ hdrop) (State.count_holdsReg bumped _ _ _ _ _ h)

theorem State.send_holdsReg (s : State) (vc ty ch dst seq : Nat) (data : List Byte) {key : Nat} (h : plainKey key)
    (hdrop : key ≠ R.mglDrop) : holdsReg key s (s.send vc ty ch dst seq data) := by
  unfold State.send
  dsimp only
  split
  · exact holdsReg_of_regs rfl
  · split
    · exact holdsReg_of_regs rfl
    · exact State.dropPacket_holdsReg s _ _ _ h hdrop

/-! Lost shards of a stream entry (R213). -/

theorem wstCtl_plainKey : plainKey R.wstCtl :=
  ⟨by decide, by decide, fun b i => by unfold R.wstCtl R.pmuCfg; omega⟩

theorem State.mirrorOn_holds {s t : State} (h : holdsReg R.wstCtl s t) (hon : s.mirrorOn = true) : t.mirrorOn = true := by
  have hreg : t.regAt R.wstCtl = s.regAt R.wstCtl := h fun hreset => by
    rw [State.mirrorOn, State.regFld, hreset] at hon
    exact absurd hon (by decide)
  rw [State.mirrorOn, State.regFld, hreg]
  exact hon

/-- A packet that is sent changes the links and the counters only. -/
theorem State.send_frame (s : State) (vc ty ch dst seq : Nat) (data : List Byte) :
    (s.send vc ty ch dst seq data).wst = s.wst ∧ (s.send vc ty ch dst seq data).ump = s.ump := by
  have : Fact True := ⟨trivial⟩
  have hk := State.send_keeps (M := fun p => match p with | .wst | .ump => False | _ => True) (vc := vc) (ty := ty) (ch := ch)
    (dst := dst) (seq := seq) (data := data) (Keeps.refl s)
  exact ⟨hk.parts .wst not_false, hk.parts .ump not_false⟩

/-- A shard asked of the mirror peer is one more fetch, and the mirror stays on. -/
theorem State.missShard_spec {s : State} (hon : s.mirrorOn = true) (b shard entry : Nat) :
    (s.missShard b shard entry).mirrorOn = true ∧ (s.missShard b shard entry).ump = s.ump ∧
    (s.missShard b shard entry).wst.stream = s.wst.stream ∧
    (s.missShard b shard entry).wst.fetches.length = s.wst.fetches.length + 1 := by
  unfold State.missShard
  rw [if_pos hon]
  unfold State.issueFetch
  extract_lets bumped f wst asked
  obtain ⟨hwst, hump⟩ := State.send_frame asked 13 0x10 127 (asked.regFld R.wstMirrorPeer 0 12) 0
    (bytesOf 8 (asked.bank b).imageId ++ bytesOf 4 shard)
  have hbumped : holdsReg R.wstCtl s asked := State.setReg_holdsReg s _ (by decide)
  refine ⟨State.mirrorOn_holds (holdsReg_trans hbumped (State.send_holdsReg asked _ _ _ _ _ _ wstCtl_plainKey (by decide))) hon,
    hump, ?_, ?_⟩
  · rw [hwst]
    rfl
  · rw [hwst]
    exact List.length_append

theorem foldl_missShard (b entry : Nat) (lost : List Nat) {s : State} (hon : s.mirrorOn = true) :
    let t := lost.foldl (fun s x => s.missShard b x entry) s
    t.ump = s.ump ∧ t.wst.stream = s.wst.stream ∧ t.wst.fetches.length = s.wst.fetches.length + lost.length := by
  induction lost generalizing s with
  | nil => exact ⟨rfl, rfl, rfl⟩
  | cons x lost ih =>
    obtain ⟨hon', hump, hstream, hlen⟩ := State.missShard_spec hon b x entry
    obtain ⟨hump', hstream', hlen'⟩ := ih hon'
    refine ⟨hump'.trans hump, hstream'.trans hstream, hlen'.trans ?_⟩
    rw [hlen, List.length_cons]
    omega

section
variable {s : State} {r : StreamRun} {w : Work}

theorem exec_layerStreamStart {e : StreamEntry} (hr : s.wst.stream = some r) (hw : s.ump.work = some w)
    (he : r.entries[r.started]? = some e) (hmay : r.mayStart = true) :
    exec .layerStreamStart s = .next ((s.entryLost r e).foldl (fun s x => s.missShard (r.bankOf e) x r.started)
      (s.setStream { r with started := r.started + 1 })) := by
  change execLayerStreamStart s = _
  unfold execLayerStreamStart
  rw [hr]
  dsimp only
  rw [he]
  exact if_neg (by simp [hmay, hw])

/-! The end of a stream entry (R210). -/

theorem copyPart_wst (b die : Nat) (s : State) (p : Nat × Nat) : (copyPart b die s p).wst = s.wst :=
  have : Fact True := ⟨trivial⟩
  (copyPart_keeps (M := fun p => match p with | .wst => False | _ => True) (Keeps.refl s)).parts .wst not_false

theorem lateEntry_wst (s : State) (e : StreamEntry) (late : Nat) : (lateEntry s e late).wst = s.wst :=
  have : Fact True := ⟨trivial⟩
  (lateEntry_keeps (M := fun p => match p with | .wst => False | _ => True) (Keeps.refl s)).parts .wst not_false

theorem State.trace_wst (s : State) (n kind ctx data : Nat) (isSealed : Bool) : (s.trace n kind ctx data isSealed).wst = s.wst :=
  have : Fact True := ⟨trivial⟩
  (State.trace_keeps (M := fun p => match p with | .wst => False | _ => True) (Keeps.refl s)).parts .wst not_false

/-- A fold whose steps leave the weight store leaves it. -/
theorem foldl_wst {α : Type} {f : State → α → State} (hf : ∀ t x, (f t x).wst = t.wst) (l : List α) (s : State) :
    (l.foldl f s).wst = s.wst := by
  induction l generalizing s with
  | nil => rfl
  | cons x l ih => exact (ih _).trans (hf s x)

theorem completes_streamEntryComplete {e : StreamEntry} (hr : s.wst.stream = some r) (hw : s.ump.work = some w)
    (he : r.entries[r.completed]? = some e) (hlt : r.completed < r.started)
    (hfetched : (s.entryLost r e).all (fun x => r.fetched.contains (r.completed, x)) = true) :
    Completes .streamEntryComplete s (fun t => t.wst.stream = some { r with completed := r.completed + 1 }) := by
  have hgo : ¬(decide (r.started ≤ r.completed) || !(s.entryLost r e).all (fun x => r.fetched.contains (r.completed, x))) = true := by
    rw [hfetched]
    simpa using hlt
  have hend : ∃ y : State, exec .streamEntryComplete s = .next y ∧
      y.wst.stream = some { r with completed := r.completed + 1 } := by
    change ∃ y : State, execStreamEntryComplete s = .next y ∧ _
    unfold execStreamEntryComplete
    rw [hr, hw]
    dsimp only
    rw [he]
    dsimp only
    rw [if_neg hgo]
    refine ⟨_, rfl, ?_⟩
    rw [foldl_wst (fun t d => State.trace_wst t _ _ _ _ _)]
    split
    · rw [lateEntry_wst]
      rfl
    · rfl
  obtain ⟨y, hy, hstream⟩ := hend
  exact .of_next hy hstream

/-! Layers (R27, R257). -/

theorem exec_layerComputeStart (hr : s.wst.stream = some r) (hw : s.ump.work = some w) : exec .layerComputeStart s =
    .next (if r.completed ≤ r.computeStarted then s.setStream { r with computeEnded := r.computeStarted }
      else (gathersOpen s w r.computeStarted).head?.elim
        (s.setStream { r with
          computeEnded := r.computeStarted
          computeStarted := r.computeStarted + 1 })
        (fun d => prefixLate (s.setStream { r with computeEnded := r.computeStarted }) w { r with computeEnded := r.computeStarted }
          r.computeStarted d)) := by
  have hopen : gathersOpen (s.setStream { r with computeEnded := r.computeStarted }) w r.computeStarted =
      gathersOpen s w r.computeStarted := rfl
  change execLayerComputeStart s = _
  unfold execLayerComputeStart
  rw [hr, hw]
  dsimp only
  rw [hopen]
  split
  · rfl
  · cases gathersOpen s w r.computeStarted <;> rfl

/-! Prefix gathers (R256, R257). -/

theorem exec_prefixGatherStart {die : Nat} {i : Image} (hr : s.wst.stream = some r) (hw : s.ump.work = some w) (hdie : die < 16)
    (hpre : (s.prefixOf w).isSome = true) (hsame : (s.gatherOf die).started = (s.gatherOf die).completed)
    (hi : Tbl.get? s.ump.images w.imgSlot = some i) (hlt : (s.gatherOf die).started < i.layers)
    (hrel : r.released (s.gatherOf die).started = true) :
    exec (.prefixGatherStart die) s = .next (s.setGather die { s.gatherOf die with started := (s.gatherOf die).started + 1 }) := by
  have hsome : (s.prefixOf w).isNone = false := by
    cases h : s.prefixOf w with
    | none => rw [h] at hpre; contradiction
    | some d => rfl
  change execPrefixGatherStart die s = _
  unfold execPrefixGatherStart
  rw [hr, hw]
  dsimp only
  rw [hi]
  have hgo : ¬(decide (16 ≤ die) || (s.prefixOf w).isNone || decide ((s.gatherOf die).started ≠ (s.gatherOf die).completed) ||
      decide (i.layers ≤ (s.gatherOf die).started) || !r.released (s.gatherOf die).started) = true := by
    rw [hsome, hrel, decide_eq_false (by omega : ¬16 ≤ die), decide_eq_false (not_not.mpr hsame),
      decide_eq_false (by omega : ¬i.layers ≤ (s.gatherOf die).started)]
    decide
  exact if_neg hgo

theorem State.trace_lkr (s : State) (n kind ctx data : Nat) (isSealed : Bool) : (s.trace n kind ctx data isSealed).lkr = s.lkr :=
  have : Fact True := ⟨trivial⟩
  (State.trace_keeps (M := fun p => match p with | .lkr => False | _ => True) (Keeps.refl s)).parts .lkr not_false

theorem completes_prefixGatherComplete {die : Nat} (hr : s.wst.stream = some r) (hw : s.ump.work = some w)
    (hpre : (s.prefixOf w).isSome = true) (hopen : (s.gatherOf die).started ≠ (s.gatherOf die).completed) :
    Completes (.prefixGatherComplete die) s (fun t => t.gatherOf die =
      { s.gatherOf die with completed := (s.gatherOf die).completed + 1 }) := by
  obtain ⟨d, hd⟩ := Option.isSome_iff_exists.mp hpre
  have hend : ∃ (x : State) (n kind ctx data : Nat) (b : Bool), exec (.prefixGatherComplete die) s =
      .next ((x.setGather die { s.gatherOf die with completed := (s.gatherOf die).completed + 1 }).trace n kind ctx data b) := by
    change ∃ (x : State) (n kind ctx data : Nat) (b : Bool), execPrefixGatherComplete die s = _
    unfold execPrefixGatherComplete
    rw [hr, hw]
    dsimp only
    rw [hd]
    dsimp only
    rw [if_neg hopen]
    exact ⟨_, _, _, _, _, _, rfl⟩
  obtain ⟨x, n, kind, ctx, data, b, hexec⟩ := hend
  refine .of_next hexec ?_
  rw [State.gatherOf, State.trace_lkr]
  exact State.setGather_gatherOf x die _

end

/-! KV write-backs (R321). -/

/-- The work of the first state runs in the second, with its write-backs as they were. -/
def sameWritebacks (s t : State) : Prop :=
  ∀ w, s.ump.work = some w → ∃ v, t.ump.work = some v ∧ v.did = w.did ∧ v.writebacks = w.writebacks

theorem sameWritebacks_trans {s t u : State} (h : sameWritebacks s t) (k : sameWritebacks t u) : sameWritebacks s u := by
  intro w hw
  obtain ⟨v, hv, hdid, hback⟩ := h w hw
  obtain ⟨x, hx, hdid', hback'⟩ := k v hv
  exact ⟨x, hx, hdid'.trans hdid, hback'.trans hback⟩

theorem sameWritebacks_of_ump {s t : State} (h : t.ump = s.ump) : sameWritebacks s t :=
  fun w hw => ⟨w, by rw [h]; exact hw, rfl, rfl⟩

theorem sameWritebacks_foldl {α : Type} {f : State → α → State} (hf : ∀ t x, sameWritebacks t (f t x)) (l : List α) (s : State) :
    sameWritebacks s (l.foldl f s) := by
  induction l generalizing s with
  | nil => exact sameWritebacks_of_ump rfl
  | cons x l ih => exact sameWritebacks_trans (hf s x) (ih _)

theorem State.modWork_work {s : State} {w : Work} (hw : s.ump.work = some w) (f : Work → Work) :
    (s.modWork f).ump.work = some (f w) := by
  change s.ump.work.map f = _
  rw [hw, Option.map_some]

theorem State.addCharge_sameWritebacks (s : State) (c : Charges) : sameWritebacks s (s.addCharge c) :=
  fun _ hw => ⟨_, State.modWork_work hw _, rfl, rfl⟩

theorem State.violate_sameWritebacks (s : State) : sameWritebacks s s.violate :=
  fun _ hw => ⟨_, State.modWork_work (s := s.bump R.memAccViol) hw _, rfl, rfl⟩

theorem State.countLines_ump (s : State) (event : Nat) (ls : List Nat) (c : Counted) : (s.countLines event ls c).ump = s.ump :=
  have : Fact True := ⟨trivial⟩
  (State.countLines_keeps (M := fun p => match p with | .ump => False | _ => True) (Keeps.refl s)).parts .ump not_false

theorem State.countUnits_ump (s : State) (b cls event a n g : Nat) (c : Counted) : (s.countUnits b cls event a n g c).ump = s.ump :=
  have : Fact True := ⟨trivial⟩
  (State.countUnits_keeps (M := fun p => match p with | .ump => False | _ => True) (Keeps.refl s)).parts .ump not_false

theorem State.traffic_sameWritebacks (s : State) (write : Bool) (die unit a n : Nat) :
    sameWritebacks s (s.traffic write die unit a n) := by
  unfold State.traffic
  extract_lets event charged
  split
  · exact sameWritebacks_trans (State.addCharge_sameWritebacks s _) (sameWritebacks_of_ump (State.countLines_ump _ _ _ _))
  · split
    · exact sameWritebacks_trans (State.addCharge_sameWritebacks s _) (sameWritebacks_of_ump (State.countUnits_ump _ _ _ _ _ _ _ _))
    · split
      · exact sameWritebacks_of_ump (State.countUnits_ump _ _ _ _ _ _ _ _)
      · exact sameWritebacks_of_ump rfl

theorem writeLineFor_sameWritebacks (c a : Nat) (data : List Byte) (s : State) (line : Nat) :
    sameWritebacks s (writeLineFor c a data s line) := by
  unfold writeLineFor
  extract_lets scrubbed
  have hscrubbed : sameWritebacks s scrubbed := by
    unfold scrubbed
    split
    · exact sameWritebacks_of_ump (State.scrubPage_ump s _)
    · exact sameWritebacks_of_ump rfl
  clear_value scrubbed
  split
  · have hread := State.readLine_ump scrubbed line
    generalize scrubbed.readLine line = r at hread ⊢
    obtain ⟨old, read⟩ := r
    exact sameWritebacks_trans hscrubbed (sameWritebacks_of_ump ((State.writeLine_ump _ _ _).trans hread))
  · exact sameWritebacks_trans hscrubbed (State.violate_sameWritebacks scrubbed)

theorem writeRow_sameWritebacks (k : ServeClass) (layer die row pos : Nat) (q : Request) (s : State) (value : Bool) :
    sameWritebacks s (writeRow k layer die row pos q s value) := by
  unfold writeRow
  extract_lets rb src dst data read
  exact sameWritebacks_trans (State.traffic_sameWritebacks s _ _ _ _ _) (sameWritebacks_trans
    (sameWritebacks_foldl (fun t l => writeLineFor_sameWritebacks _ _ _ t l) _ read) (State.traffic_sameWritebacks _ _ _ _ _ _))

theorem writeSlot_sameWritebacks (k : ServeClass) (r : ReadyServe) (layer die : Nat) (s : State) (p : Nat × Option Request) :
    sameWritebacks s (writeSlot k r layer die s p) := by
  unfold writeSlot
  cases p.2 with
  | none => exact sameWritebacks_of_ump rfl
  | some q =>
    exact sameWritebacks_foldl (fun t i => sameWritebacks_foldl (fun u v => writeRow_sameWritebacks _ _ _ _ _ _ u v) _ t) _ s

theorem Work.writeback_set (w : Work) (die : Nat) (x : Nat × Nat) :
    ({ w with writebacks := Tbl.set w.writebacks die x } : Work).writeback die = x := by
  unfold Work.writeback Tbl.getD
  rw [Tbl.get?_set_self]
  rfl

theorem completes_kvWriteback {s : State} {die layer : Nat} {w : Work} {k : ServeClass} {r : ReadyServe}
    (hw : s.ump.work = some w) (hk : classRun s w = some k) (hr : s.ump.ready.find? (fun r => r.did == w.did) = some r)
    (hserve : w.practice = false) (hstep : (steppingDies s w).contains die = true) (hnext : (w.writeback die).1 = layer)
    (hrel : layer < releasedLayers s w) : Completes (.kvWriteback die layer) s (fun t =>
      ∃ v, t.ump.work = some v ∧ v.writeback die = (layer + 1, (w.writeback die).2) ∧ v.did = w.did) := by
  have hgo : ¬(w.practice || !(steppingDies s w).contains die || decide ((w.writeback die).1 ≠ layer) ||
      decide (releasedLayers s w ≤ layer)) = true := by
    rw [hserve, hstep, decide_eq_false (not_not.mpr hnext), decide_eq_false (by omega : ¬releasedLayers s w ≤ layer)]
    decide
  have hend : ∃ y : State, sameWritebacks s y ∧ exec (.kvWriteback die layer) s = .next (y.modWork (fun w =>
      { w with writebacks := Tbl.set w.writebacks die (layer + 1, (w.writeback die).2) })) := by
    refine ⟨if w.kind = .probe then s else (dieSlots s (startingOf r k) r die).foldl (writeSlot k r layer die) s, ?_, ?_⟩
    · split
      · exact sameWritebacks_of_ump rfl
      · exact sameWritebacks_foldl (fun t p => writeSlot_sameWritebacks _ _ _ _ t p) _ s
    · change execKvWriteback die layer s = _
      unfold execKvWriteback
      rw [hw]
      dsimp only
      rw [hk, hr]
      dsimp only
      rw [if_neg hgo]
  obtain ⟨y, hsame, hexec⟩ := hend
  obtain ⟨v, hv, hdid, hback⟩ := hsame w hw
  refine .of_next hexec ⟨_, State.modWork_work hv _, ?_, hdid⟩
  rw [Work.writeback_set, Work.writeback, hback, ← Work.writeback]

/-- The state in which a die's writes of a layer are acknowledged. -/
def State.acknowledged (s : State) (die layer : Nat) : State :=
  s.modWork (fun w => { w with writebacks := Tbl.set w.writebacks die ((w.writeback die).1, layer + 1) })

/-- Has every die's write-back of a layer been acknowledged? -/
def State.allAcknowledged (s : State) (layer : Nat) : Bool :=
  s.ump.work.elim false (fun w => (steppingDies s w).all (fun d => decide (layer < (w.writeback d).2)))

theorem completes_kvWritebackDone {s : State} {die layer : Nat} {w : Work} {k : ServeClass} (hw : s.ump.work = some w)
    (hk : classRun s w = some k) (hserve : w.practice = false) (hnext : (w.writeback die).2 = layer)
    (hopen : layer < (w.writeback die).1) : Completes (.kvWritebackDone die layer) s (fun t =>
      ∃ v, t.ump.work = some v ∧ v.writeback die = ((w.writeback die).1, layer + 1) ∧ v.did = w.did) := by
  have hgo : ¬(w.practice || decide ((w.writeback die).2 ≠ layer) || decide ((w.writeback die).1 ≤ layer)) = true := by
    rw [hserve, decide_eq_false (not_not.mpr hnext), decide_eq_false (by omega : ¬(w.writeback die).1 ≤ layer)]
    decide
  have hexec : exec (.kvWritebackDone die layer) s = .next (if (s.acknowledged die layer).allAcknowledged layer then
      (s.acknowledged die layer).addSem (k.kv.kvSem + 1) 1 else s.acknowledged die layer) := by
    change execKvWritebackDone die layer s = _
    unfold execKvWritebackDone
    rw [hw]
    dsimp only
    rw [hk]
    exact if_neg hgo
  have hwork : (s.acknowledged die layer).ump.work = some
      { w with writebacks := Tbl.set w.writebacks die ((w.writeback die).1, layer + 1) } := State.modWork_work hw _
  refine .of_next hexec ?_
  split
  · exact ⟨_, State.modWork_work hwork _, Work.writeback_set _ _ _, rfl⟩
  · exact ⟨_, hwork, Work.writeback_set _ _ _, rfl⟩

end Sys2Proof.Machine
end

section
/-! PROOFS. Layer streams, gathers of prefixes and KV write-backs (O46). -/
namespace Sys2Proof.Machine
open Sys2Proof

/-- Settles O46: a mirror that is on stays on while shards are asked for, since its register is off its reset value. -/
theorem layersAndGathersComplete : Obligations.LayersAndGathersComplete := by
  unfold Obligations.LayersAndGathersComplete
  refine ⟨?_, ?_, ?_, ?_, ?_, ?_, ?_, ?_, ?_⟩
  · intro s r e w hr hw he hmay hlost
    have hexec := exec_layerStreamStart hr hw he hmay
    rw [hlost] at hexec
    exact .of_next hexec rfl
  · intro s r e w hr hw he hmay hon
    obtain ⟨hump, hstream, hlen⟩ := foldl_missShard (r.bankOf e) r.started (s.entryLost r e)
      (s := s.setStream { r with started := r.started + 1 }) hon
    exact .of_next (exec_layerStreamStart hr hw he hmay) ⟨hstream, (congrArg UmpState.work hump).trans hw, hlen⟩
  · intro s r e w hr hw he hlt hfetched
    exact completes_streamEntryComplete hr hw he hlt hfetched
  · intro s r w hr hw hlt hopen
    refine .of_next ((exec_layerComputeStart hr hw).trans (congrArg Host.Outcome.next (if_neg (by omega)))) ?_
    rw [hopen]
    rfl
  · intro s r w hr hw hle
    exact .of_next ((exec_layerComputeStart hr hw).trans (congrArg Host.Outcome.next (if_pos hle))) rfl
  · intro s die r w i hr hw hdie hpre hsame hi hlt hrel
    exact .of_next (exec_prefixGatherStart hr hw hdie hpre hsame hi hlt hrel) rfl
  · intro s die r w hr hw hpre hopen
    exact completes_prefixGatherComplete hr hw hpre hopen
  · intro s die layer w k r hw hk hr hserve hstep hnext hrel
    exact completes_kvWriteback hw hk hr hserve hstep hnext hrel
  · intro s die layer w k hw hk hserve hnext hopen
    exact completes_kvWritebackDone hw hk hserve hnext hopen

end Sys2Proof.Machine
end

section
/-! SUPPORT. Weight-store loads: their status, the banks they take, and the bytes they take in (R198, R199, R204, R223). -/
namespace Sys2Proof.Machine
open Sys2Proof

/-! Banks. -/

@[simp] theorem State.bank_setBank_self (s : State) (b : Nat) (r : BankRec) : (s.setBank b r).bank b = r := by
  unfold State.bank State.setBank
  split <;> rfl

/-- A bank set is read where the number names the same bank, and no other changes. -/
theorem State.bank_setBank (s : State) (b c : Nat) (r : BankRec) : (s.setBank b r).bank c = r ∨ (s.setBank b r).bank c = s.bank c := by
  unfold State.bank State.setBank
  by_cases hb : b = 0 <;> by_cases hc : c = 0 <;> simp [hb, hc]

theorem State.setBank_frame (s : State) (b : Nat) (r : BankRec) : (s.setBank b r).regs = s.regs ∧ (s.setBank b r).ts = s.ts ∧
    (s.setBank b r).wst.load = s.wst.load ∧ (s.setBank b r).mem = s.mem := by
  unfold State.setBank
  split <;> exact ⟨rfl, rfl, rfl, rfl⟩

/-- Banks set to FAILED. -/
def State.failBanks (s : State) (bs : List Nat) : State := bs.foldl (fun s b => s.setBank b { s.bank b with st := .failed }) s

theorem State.failBanks_frame (s : State) (bs : List Nat) : (s.failBanks bs).regs = s.regs ∧ (s.failBanks bs).ts = s.ts ∧
    (s.failBanks bs).wst.load = s.wst.load := by
  unfold State.failBanks
  induction bs generalizing s with
  | nil => exact ⟨rfl, rfl, rfl⟩
  | cons b bs ih =>
    obtain ⟨hregs, hts, hload⟩ := ih (s.setBank b { s.bank b with st := .failed })
    obtain ⟨hregs', hts', hload', -⟩ := s.setBank_frame b { s.bank b with st := .failed }
    exact ⟨hregs.trans hregs', hts.trans hts', hload.trans hload'⟩

theorem State.failBanks_failed (s : State) (bs : List Nat) :
    (∀ b ∈ bs, ((s.failBanks bs).bank b).st = .failed) ∧ ∀ c, (s.bank c).st = .failed → ((s.failBanks bs).bank c).st = .failed := by
  unfold State.failBanks
  induction bs generalizing s with
  | nil => exact ⟨fun _ h => absurd h List.not_mem_nil, fun _ h => h⟩
  | cons b bs ih =>
    obtain ⟨hin, hkeep⟩ := ih (s.setBank b { s.bank b with st := .failed })
    refine ⟨fun c hc => ?_, fun c hc => hkeep c ?_⟩
    · rcases List.mem_cons.mp hc with rfl | hc
      · exact hkeep c (by rw [State.bank_setBank_self])
      · exact hin c hc
    · rcases State.bank_setBank s b c { s.bank b with st := .failed } with h | h
      · rw [h]
      · rw [h, hc]

theorem State.bank_congr {s t : State} (h : t.wst = s.wst) (b : Nat) : t.bank b = s.bank b := by rw [State.bank, h, State.bank]

/-! WST_LOAD_STATUS (R223). -/

theorem State.setLoadStatus_fields (s : State) {st reason done : Nat} (hst : st < 8) (hreason : reason < 16) (hdone : done < 2 ^ 17) :
    (s.setLoadStatus st reason done).regFld R.wstLoadStatus 0 3 = st ∧
    (s.setLoadStatus st reason done).regFld R.wstLoadStatus 3 4 = reason := by
  have hlt : st + 8 * reason + 2 ^ 15 * done < 2 ^ 32 := by omega
  have hfld : ∀ lo w, (s.setLoadStatus st reason done).regFld R.wstLoadStatus lo w =
      (st + 8 * reason + 2 ^ 15 * done) / 2 ^ lo % 2 ^ w := fun lo w => by
    rw [State.regFld, State.setLoadStatus, State.regAt_setReg_self, wordFld_ofNat hlt, bitsOf_div]
  constructor <;> rw [hfld] <;> omega

/-! A load that fails (R199, R223). -/

theorem State.opEvent_load (s : State) (e : Rec32) : (s.opEvent e).wst = s.wst ∧ (s.opEvent e).ts = s.ts ∧ (s.opEvent e).mem = s.mem := by
  have : Fact True := ⟨trivial⟩
  have hk := State.opEvent_keeps (M := fun p => match p with | .host => True | _ => False) (ev := e) (Keeps.refl s)
  exact ⟨hk.parts .wst not_false, hk.parts .ts not_false, hk.parts .mem not_false⟩

/-- A load that fails: none runs, the banks it had taken are FAILED, and the status shows a reason that its field holds. -/
structure LoadFailed (s : State) (l : WsLoad) (reason : Nat) (t : State) : Prop where
  load : t.wst.load = none
  banks : ∀ b ∈ l.taken, (t.bank b).st = .failed
  ts : t.ts = s.ts
  status : reason < 16 → t.regFld R.wstLoadStatus 0 3 = 3
  reason : reason < 16 → t.regFld R.wstLoadStatus 3 4 = reason

/-- The state in which a load has failed, before the operator is told. -/
def State.withoutLoad (s : State) (l : WsLoad) (reason : Nat) : State :=
  let s := (s.failBanks l.taken).setLoadStatus 3 reason ((s.failBanks l.taken).regFld R.wstLoadStatus 15 17)
  { s with wst := { s.wst with load := none } }

theorem State.withoutLoad_failed (s : State) (l : WsLoad) (reason : Nat) : LoadFailed s l reason (s.withoutLoad l reason) := by
  obtain ⟨-, hts, -⟩ := s.failBanks_frame l.taken
  have hfields := fun h : reason < 16 => (s.failBanks l.taken).setLoadStatus_fields (st := 3) (by decide) h
    (wordFld_lt ((s.failBanks l.taken).regAt R.wstLoadStatus) 15 17)
  exact ⟨rfl, (s.failBanks_failed l.taken).1, hts, fun h => (hfields h).1, fun h => (hfields h).2⟩

theorem State.loadFails_failed {s : State} {l : WsLoad} (hl : s.wst.load = some l) (reason : Nat) :
    LoadFailed s l reason (s.loadFails reason) := by
  have hexec : s.loadFails reason = loadDone (s.withoutLoad l reason) l.target reason := by
    unfold State.loadFails
    rw [hl]
    rfl
  obtain ⟨hload, hbanks, hts, hst, hrs⟩ := s.withoutLoad_failed l reason
  rw [hexec]
  obtain ⟨hwst, hts', -⟩ := State.opEvent_load (s.withoutLoad l reason)
    (eventRec 0x0052 0 (s.withoutLoad l reason).ts [(4, 20, 1, l.target), (4, 21, 4, reason)])
  have hregs := State.opEvent_regs (s.withoutLoad l reason)
    (eventRec 0x0052 0 (s.withoutLoad l reason).ts [(4, 20, 1, l.target), (4, 21, 4, reason)])
  exact ⟨(congrArg WstState.load hwst).trans hload,
    fun b hb => (congrArg BankRec.st (State.bank_congr hwst b)).trans (hbanks b hb), hts'.trans hts,
    fun h => (State.regFld_congr hregs _ _ _).trans (hst h), fun h => (State.regFld_congr hregs _ _ _).trans (hrs h)⟩

/-! LOAD_START and LOAD_ABORT (R201, R223). -/

theorem blockWritable_wstLoadCtl {s : State} (hrun : s.pwr.phase = .running) (p : Port) : blockWritable s p R.wstLoadCtl = true := by
  unfold blockWritable
  dsimp only
  rw [if_pos (State.booted_of_running hrun), (by decide : decide (R.wstLoadCtl / 0x10000 ≠ 0x18) = true),
    (by decide : decide (R.wstLoadCtl / 0x10000 ≠ 0x23) = true)]
  rfl

/-- The state with SOURCE and TARGET of WST_LOAD_CTL written. -/
def State.loadCtlStored (s : State) (v : Word) : State := s.setFld R.wstLoadCtl 2 4 (wordFld v 2 4)

theorem State.loadCtlStored_wst (s : State) (v : Word) : (s.loadCtlStored v).wst = s.wst := rfl

theorem State.loadCtlStored_ump (s : State) (v : Word) : (s.loadCtlStored v).ump = s.ump := rfl

theorem State.bankBusy_congr {s t : State} (hwst : t.wst = s.wst) (hump : t.ump = s.ump) (b : Nat) : t.bankBusy b = s.bankBusy b := by
  unfold State.bankBusy State.bankRead State.bank
  rw [hwst, hump]

/-- WST_CHAIN names input ports only while it is off its reset value, so the write of WST_LOAD_CTL keeps them. -/
theorem loadSourceOf_stored {s : State} {code : Nat} {src : LoadSource} (h : loadSourceOf s code = some src) (v : Word) :
    loadSourceOf (s.loadCtlStored v) code = some src := by
  unfold loadSourceOf at h ⊢
  split at h
  · exact h
  · exact h
  · exact h
  · exact h
  · split at h
    · cases h
    · next hchain =>
      have hreg : (s.loadCtlStored v).regAt R.wstChain = s.regAt R.wstChain :=
        State.setReg_holdsReg s _ (by decide) fun hreset => hchain (by rw [State.chainIn, State.regFld, hreset]; decide)
      have hchain' : (s.loadCtlStored v).chainIn = s.chainIn := by rw [State.chainIn, State.regFld, hreg, State.chainIn, State.regFld]
      rw [hchain', if_neg hchain]
      exact h
  · cases h

/-- The state in which a load has taken its target and, of a pair, the other bank. -/
def State.loadTaken (s : State) (target : Nat) : State :=
  if s.readyPair then ((s.takeTarget target).setLoadStatus 1 0 0).dropOther target else (s.takeTarget target).setLoadStatus 1 0 0

theorem State.loadTaken_spec (s : State) {target : Nat} (h : target < 2) :
    ((s.loadTaken target).bank target).st = .writing ∧ (s.loadTaken target).regAt R.wstLoadStatus = 1 ∧
    (s.loadTaken target).ts = s.ts := by
  have htaken : (((s.takeTarget target).setLoadStatus 1 0 0).bank target).st = .writing ∧
      ((s.takeTarget target).setLoadStatus 1 0 0).regAt R.wstLoadStatus = 1 ∧
      ((s.takeTarget target).setLoadStatus 1 0 0).ts = s.ts := by
    refine ⟨?_, State.regAt_setReg_self _ _ _, rfl⟩
    unfold State.takeTarget State.setLoadStatus State.setBank State.bank
    split <;> rfl
  unfold State.loadTaken
  split
  · obtain ⟨hst, hreg, hts⟩ := htaken
    generalize (s.takeTarget target).setLoadStatus 1 0 0 = u at hst hreg hts
    refine ⟨?_, hreg, hts⟩
    unfold dropOther State.setBank State.bank
    unfold State.bank at hst
    interval_cases target <;> exact hst
  · exact htaken

/-- The state in which a load has begun. -/
def State.loadBegun (s : State) (target : Nat) (src : LoadSource) : State :=
  { s.loadTaken target with wst := { (s.loadTaken target).wst with
    load := some (freshLoad target (s.loadTaken target).ts s.readyPair src)
    window := [] } }

theorem State.loadBegun_spec (s : State) {target : Nat} (h : target < 2) (src : LoadSource) :
    (s.loadBegun target src).wst.load = some (freshLoad target s.ts s.readyPair src) ∧
    ((s.loadBegun target src).bank target).st = .writing ∧ (s.loadBegun target src).regAt R.wstLoadStatus = 1 := by
  obtain ⟨hst, hreg, hts⟩ := s.loadTaken_spec h
  exact ⟨congrArg (fun ts => some (freshLoad target ts s.readyPair src)) hts, hst, hreg⟩

/-- A LOAD_START with GO and a source: the load begins, or is refused. -/
theorem exec_loadStart {s : State} {v : Word} {src : LoadSource} (hrun : s.pwr.phase = .running) (p : Port)
    (hgo : wordFld v 0 1 = 1) (hsrc : loadSourceOf s (wordFld v 2 3) = some src) :
    exec (.loadStart p v) s = .next (if s.wst.load.isSome || s.bankBusy (wordFld v 5 1) then
      refuseLoad (s.loadCtlStored v) wsBusyTarget else (s.loadCtlStored v).loadBegun (wordFld v 5 1) src) := by
  have hstart : ∀ u : State, loadSourceOf u (wordFld v 2 3) = some src →
      (match loadSourceOf u (wordFld v 2 3) with
        | none => .next (refuseLoad u wsFormat)
        | some src =>
          if u.wst.load.isSome || u.bankBusy (wordFld v 5 1) then .next (refuseLoad u wsBusyTarget)
          else .next (u.loadBegun (wordFld v 5 1) src) : Host.Outcome State Fault Refusal) =
      .next (if u.wst.load.isSome || u.bankBusy (wordFld v 5 1) then refuseLoad u wsBusyTarget
        else u.loadBegun (wordFld v 5 1) src) := by
    intro u hu
    rw [hu]
    dsimp only
    split <;> rfl
  have hbusy := State.bankBusy_congr (s.loadCtlStored_wst v) (s.loadCtlStored_ump v) (wordFld v 5 1)
  have hwrite : ¬(!blockWritable s p R.wstLoadCtl) = true := by rw [blockWritable_wstLoadCtl hrun]; decide
  have hnot : ¬wordFld v 0 1 = 0 := by omega
  refine (if_neg hwrite).trans ((if_neg hnot).trans ((hstart (s.loadCtlStored v) (loadSourceOf_stored hsrc v)).trans ?_))
  rw [hbusy, s.loadCtlStored_wst v]

theorem completes_loadStart {s : State} {v : Word} {src : LoadSource} (hrun : s.pwr.phase = .running) (p : Port)
    (hgo : wordFld v 0 1 = 1) (hsrc : loadSourceOf s (wordFld v 2 3) = some src) (hidle : s.wst.load = none)
    (hfree : s.bankBusy (wordFld v 5 1) = false) : Completes (.loadStart p v) s (fun t =>
      t.wst.load = some (freshLoad (wordFld v 5 1) s.ts s.readyPair src) ∧
      (t.bank (wordFld v 5 1)).st = .writing ∧ t.regAt R.wstLoadStatus = 1) :=
  .of_next ((exec_loadStart hrun p hgo hsrc).trans (congrArg Host.Outcome.next (if_neg (by rw [hidle, hfree]; decide))))
    ((s.loadCtlStored v).loadBegun_spec (wordFld_lt v 5 1) src)

/-- A refused load leaves the weight store and shows why. -/
theorem refuseLoad_spec (s : State) {reason : Nat} (h : reason < 16) :
    (refuseLoad s reason).wst = s.wst ∧ (refuseLoad s reason).regFld R.wstLoadStatus 3 4 = reason := by
  unfold refuseLoad
  dsimp only
  split
  · refine ⟨rfl, ?_⟩
    rw [State.regFld, State.regAt_setReg_self]
    exact (wordFld_wordPut_self _ (by decide)).trans (Nat.mod_eq_of_lt h)
  · refine ⟨rfl, (State.setLoadStatus_fields s (st := 3) (by decide) h ?_).2⟩
    have := (s.regAt R.wstLoadStatus).isLt
    omega

theorem completes_loadAbort {s : State} {v : Word} {l : WsLoad} (hrun : s.pwr.phase = .running) (p : Port)
    (hgo : wordFld v 1 1 = 1) (hl : s.wst.load = some l) : Completes (.loadAbort p v) s (fun t => t.wst.load = none ∧
      (∀ b ∈ l.taken, (t.bank b).st = .failed) ∧ t.regFld R.wstLoadStatus 0 3 = 3 ∧ t.regFld R.wstLoadStatus 3 4 = wsAborted) := by
  have hexec : exec (.loadAbort p v) s = .next ((s.loadCtlStored v).loadFails wsAborted) := by
    change execLoadAbort p v s = _
    unfold execLoadAbort
    rw [if_neg (by rw [blockWritable_wstLoadCtl hrun]; decide)]
    exact congrArg Host.Outcome.next (if_pos hgo)
  obtain ⟨hload, hbanks, -, hst, hrs⟩ := State.loadFails_failed (s := s.loadCtlStored v) hl wsAborted
  exact .of_next hexec ⟨hload, hbanks, hst (by decide), hrs (by decide)⟩

theorem completes_loadSourceTimeout {s : State} {l : WsLoad} (hl : s.wst.load = some l) :
    Completes .loadSourceTimeout s (fun t => t.wst.load = none ∧ (∀ b ∈ l.taken, (t.bank b).st = .failed) ∧
      t.ts = max s.ts (l.progressTs + 60000000000) ∧ t.regFld R.wstLoadStatus 0 3 = 3 ∧
      t.regFld R.wstLoadStatus 3 4 = wsSourceLost) := by
  have hexec : exec .loadSourceTimeout s = .next ({ s with ts := max s.ts (l.progressTs + 60000000000) }.loadFails wsSourceLost) := by
    change execLoadSourceTimeout s = _
    unfold execLoadSourceTimeout
    rw [hl]
  obtain ⟨hload, hbanks, hts, hst, hrs⟩ :=
    State.loadFails_failed (s := { s with ts := max s.ts (l.progressTs + 60000000000) }) hl wsSourceLost
  exact .of_next hexec ⟨hload, hbanks, hts, hst (by decide), hrs (by decide)⟩

/-! Bytes taken in (R198, R204). -/

theorem State.modLoad_load {s : State} {l : WsLoad} (hl : s.wst.load = some l) (f : WsLoad → WsLoad) :
    (s.modLoad f).wst.load = some (f l) := by
  change s.wst.load.map f = _
  rw [hl, Option.map_some]

/-- A load with bytes of its preamble there. -/
def WsLoad.seeing (l : WsLoad) (off : Nat) (data : List Byte) : WsLoad :=
  { l with
    preamble := l.preamble.writeBytes off data
    received := off + data.length }

/-- Where the shards begin: from the header that the load has, or has with some more bytes. -/
def WsLoad.splitWith (l : WsLoad) (off : Nat) (data : List Byte) : Option Nat :=
  if l.shardOff.isSome then l.shardOff else (l.seeing off data).shardOff

/-- Bytes up to where the shards begin join the preamble. -/
theorem State.takeBytes_preamble {s : State} {l : WsLoad} {so off : Nat} {data : List Byte} (hl : s.wst.load = some l)
    (hso : l.splitWith off data = some so) (hend : off + data.length ≤ so) (hne : data ≠ []) (src : ShardFrom) :
    s.takeBytes off data src = s.modLoad (fun l => { l.seeing off data with progressTs := s.ts }) := by
  have hpos := List.length_pos_of_ne_nil hne
  have hn : (if off < so then min data.length (so - off) else 0) = data.length := by
    rw [if_pos (by omega)]
    omega
  have hnot : ¬data.length = 0 := by omega
  unfold State.takeBytes
  rw [hl]
  dsimp only
  change (match l.splitWith off data with
    | none => _
    | some so => _) = _
  rw [hso]
  dsimp only
  rw [hn, if_neg hnot, List.drop_length, List.take_length]
  rfl

/-- Bytes of a preamble whose header is not there, or not well formed, join it. -/
theorem State.takeBytes_unknown {s : State} {l : WsLoad} {off : Nat} {data : List Byte} (hl : s.wst.load = some l)
    (hso : l.splitWith off data = none) (src : ShardFrom) :
    s.takeBytes off data src = s.modLoad (fun _ => { l.seeing off data with progressTs := s.ts }) := by
  unfold State.takeBytes
  rw [hl]
  dsimp only
  change (match l.splitWith off data with
    | none => _
    | some so => _) = _
  rw [hso]
  rfl

/-! A piece from the host (R464). -/

/-- The fields of a WS_LOAD descriptor that R464 asks for. -/
def wsLoadFieldsOk (a : Accepted) : Prop :=
  fld a.desc 8 0 32 = 1 ∧ fld a.desc 36 0 224 = 0 ∧ fld a.desc 24 0 64 % 65536 = 0 ∧ fld a.desc 32 0 32 % 256 = 0 ∧
    fld a.desc 32 0 32 ≠ 0 ∧ fld a.desc 32 0 32 ≤ 67108864 ∧ a.slotsOk = true

theorem exec_wsLoad_next {s : State} {c r so : Nat} {a : Accepted} {l : WsLoad} {x : Context} (hold : s.oldest c r 0x50 = some a)
    (hok : wsLoadFieldsOk a) (hl : s.wst.load = some l) (hsrc : l.source = .portA) (hx : s.ctx? c = some x) (hport : x.port = .a)
    (hso : l.shardOff = some so) (hoff : l.nextA = fld a.desc 16 0 64) (hlt : l.nextA < so) :
    exec (.wsLoad c r) s = .next ((takeHost s .a l.nextA (s.winRead c (fld a.desc 24 0 64) (fld a.desc 32 0 32))).finish a.did
      stOk) := by
  obtain ⟨hcount, hzero, hwin, hmul, hne, hmax, hslots⟩ := hok
  have hgo : ¬(fld a.desc 8 0 32 ≠ 1 ∨ fld a.desc 36 0 224 ≠ 0 ∨ fld a.desc 32 0 32 % 256 ≠ 0 ∨
      67108864 < fld a.desc 32 0 32 ∨ fld a.desc 24 0 64 % 65536 ≠ 0 ∨ a.slotsOk = false) := by
    simp [hcount, hzero, hmul, hwin, hslots]
    omega
  have hneed : neededAt l (fld a.desc 16 0 64) = none := by
    rw [neededAt, hso, Option.bind_some, if_neg (by omega)]
  have hexp : ¬(expectedOff l .a ≠ some (fld a.desc 16 0 64) || !pieceOk l (fld a.desc 16 0 64) (fld a.desc 32 0 32)) = true := by
    simp [expectedOff, pieceOk, hsrc, hoff]
  have hport' : (s.ctx? c).elim Port.a (·.port) = .a := by
    rw [hx]
    exact hport
  change execWsLoad c r s = _
  unfold execWsLoad
  rw [hold]
  dsimp only
  rw [if_neg hgo, hl]
  dsimp only
  rw [if_neg hne, hneed, hport']
  dsimp only
  rw [if_neg hexp, hoff]

theorem takeHost_portA {s : State} {l : WsLoad} {so off : Nat} {data : List Byte} (hl : s.wst.load = some l)
    (hsrc : l.source = .portA) (hso : l.shardOff = some so) (hend : off + data.length ≤ so) (hne : data ≠ []) :
    (takeHost s .a off data).wst.load = some { l with
      preamble := l.preamble.writeBytes off data
      received := off + data.length
      progressTs := s.ts
      nextA := off + data.length } := by
  have hsplit : l.splitWith off data = some so := by rw [WsLoad.splitWith, if_pos (by rw [hso]; rfl), hso]
  have hafter : ∀ m : WsLoad, m.source = .portA → offAfter m .a (off + data.length) = off + data.length := fun m hm => by
    unfold offAfter
    rw [hm]
  unfold takeHost
  dsimp only
  rw [State.takeBytes_preamble hl hsplit hend hne, State.modLoad_load (State.modLoad_load hl _), if_neg (by simp [WsLoad.seeing, hsrc])]
  exact congrArg (fun n => some ({ l with
    preamble := l.preamble.writeBytes off data
    received := off + data.length
    progressTs := s.ts
    nextA := n } : WsLoad)) (hafter { l.seeing off data with progressTs := s.ts } hsrc)

/-! The first piece from the boot flash (R204). -/

theorem Memory.readBytes_congr {m m' : Memory} {a n : Nat} (h : ∀ i < n, m.read (a + i) = m'.read (a + i)) :
    m.readBytes a n = m'.readBytes a n := List.map_congr_left fun i hi => h i (List.mem_range.mp hi)

/-- A header is judged by its 128 bytes. -/
theorem header_congr {m m' : Memory} (h : ∀ i < 128, m.read i = m'.read i) :
    headerOk m = headerOk m' ∧ headerShardOff m = headerShardOff m' := by
  have hnum : ∀ a n, a + n ≤ 128 → m.readNat a n = m'.readNat a n := fun a n han => by
    rw [Memory.readNat, Memory.readBytes_congr (fun i hi => h (a + i) (by omega)), Memory.readNat]
  refine ⟨?_, hnum 40 8 (by decide)⟩
  unfold headerOk headerShardOff
  simp only [List.map_cons, List.map_nil, hnum 8 8 (by decide), hnum 16 8 (by decide), hnum 24 8 (by decide),
    hnum 32 8 (by decide), hnum 0 4 (by decide), hnum 4 4 (by decide), hnum 48 80 (by decide), hnum 40 8 (by decide)]

/-- The image that some bytes of a store begin. -/
def imageFrom (f : Memory) (base n : Nat) : Memory := Memory.writeBytes [] 0 (f.readBytes base n)

theorem imageFrom_read (f : Memory) (base : Nat) {n i : Nat} (h : i < n) : (imageFrom f base n).read i = f.read (base + i) := by
  rw [imageFrom, Memory.read_writeBytes (by decide), if_pos (Nat.zero_le i), Nat.sub_zero, Memory.readBytes,
    List.getElem?_map, List.getElem?_range h]
  rfl

/-- Where the first bytes of an image tell where its shards begin, they hold a well-formed header that says so. -/
theorem splitWith_first {f : Memory} {base n : Nat} {l : WsLoad} (hzero : l.received = 0) (hpre : l.preamble = []) {so : Nat}
    (hso : l.splitWith 0 (f.readBytes base n) = some so) :
    128 ≤ n ∧ headerOk (imageFrom f base 128) = true ∧ so = headerShardOff (imageFrom f base 128) := by
  have hnone : l.shardOff = none := by rw [WsLoad.shardOff, if_neg (by omega)]
  have hseen : (l.seeing 0 (f.readBytes base n)).received = n := by
    rw [WsLoad.seeing, Memory.readBytes_length, Nat.zero_add]
  have himage : (l.seeing 0 (f.readBytes base n)).preamble = imageFrom f base n := by rw [WsLoad.seeing, hpre, imageFrom]
  rw [WsLoad.splitWith, hnone, if_neg (by decide), WsLoad.shardOff, hseen, himage] at hso
  split at hso
  · next hok =>
    obtain ⟨hmin, hhead⟩ := hok
    have hread : ∀ i < 128, (imageFrom f base n).read i = (imageFrom f base 128).read i := fun i hi => by
      rw [imageFrom_read f base (Nat.lt_of_lt_of_le hi hmin), imageFrom_read f base hi]
    obtain ⟨hok', hoff⟩ := header_congr hread
    exact ⟨hmin, hok'.symm.trans hhead, (Option.some.inj hso).symm.trans hoff⟩
  · cases hso

/-- How much of the image the first piece from the flash holds: up to where the shards begin, or the header. -/
def firstPiece (f : Memory) (base len : Nat) : Nat :=
  if headerOk (imageFrom f base 128) then min (headerShardOff (imageFrom f base 128)) len else min 128 len

/-- The first piece ends where the shards begin, where that is known from it. -/
theorem firstPiece_end {f : Memory} {base len : Nat} {l : WsLoad} (hzero : l.received = 0) (hpre : l.preamble = []) {so : Nat}
    (hso : l.splitWith 0 (f.readBytes base (firstPiece f base len)) = some so) :
    128 ≤ firstPiece f base len ∧ firstPiece f base len ≤ so := by
  obtain ⟨hmin, hok, hoff⟩ := splitWith_first hzero hpre hso
  have hpiece : firstPiece f base len = min (headerShardOff (imageFrom f base 128)) len := if_pos hok
  exact ⟨hmin, hoff ▸ hpiece.le.trans (min_le_left _ _)⟩

theorem completes_firstFlashPiece {s : State} {l : WsLoad} {es : List (Nat × Nat × Nat × Nat)} (hl : s.wst.load = some l)
    (hes : bundleEntries s.pwr.flash = some es) (hsrc : l.source = .flash) (hsel : s.pwr.flashSel = false)
    (hitem : es.any (fun e => e.1 == 4) = true) (hzero : l.received = 0) (hpre : l.preamble = []) :
    Completes .spiNorShardRead s (fun t => ∃ m, t.wst.load = some m ∧
      m.nextA = firstPiece s.pwr.flash (itemOf es 4).1 (itemOf es 4).2 ∧
      m.received = firstPiece s.pwr.flash (itemOf es 4).1 (itemOf es 4).2) := by
  have hgo : ¬(l.source ≠ .flash ∨ s.pwr.flashSel = true ∨ (!es.any (fun e => e.1 == 4)) = true) := by
    simp only [hsrc, hsel, hitem]
    decide
  obtain ⟨base, len, hbase⟩ : ∃ base len, itemOf es 4 = (base, len) := ⟨_, _, rfl⟩
  rw [hbase]
  dsimp only
  have hexec : exec .spiNorShardRead s = .next ((s.takeBytes 0 (s.pwr.flash.readBytes base (firstPiece s.pwr.flash base len))
      .flash).modLoad (fun l => { l with nextA := firstPiece s.pwr.flash base len })) := by
    change execSpiNorShardRead s = _
    unfold execSpiNorShardRead
    rw [hl, hes]
    dsimp only
    rw [if_neg hgo, hbase]
    dsimp only
    rw [if_pos hzero]
    rfl
  have hend := fun {so} => firstPiece_end (f := s.pwr.flash) (base := base) (len := len) hzero hpre (so := so)
  have hlen := Memory.readBytes_length s.pwr.flash base (firstPiece s.pwr.flash base len)
  generalize firstPiece s.pwr.flash base len = n at hexec hend hlen ⊢
  have hreceived : (l.seeing 0 (s.pwr.flash.readBytes base n)).received = n := by
    rw [WsLoad.seeing, hlen, Nat.zero_add]
  refine .of_next hexec ?_
  cases hsplit : l.splitWith 0 (s.pwr.flash.readBytes base n) with
  | none =>
    rw [State.takeBytes_unknown hl hsplit]
    exact ⟨_, State.modLoad_load (State.modLoad_load hl _) _, rfl, hreceived⟩
  | some so =>
    obtain ⟨hmin, hmax⟩ := hend hsplit
    have hne : s.pwr.flash.readBytes base n ≠ [] := fun h => by
      rw [h, List.length_nil] at hlen
      omega
    rw [State.takeBytes_preamble hl hsplit (by omega) hne]
    exact ⟨_, State.modLoad_load (State.modLoad_load hl _) _, rfl, hreceived⟩

end Sys2Proof.Machine
end

section
/-! PROOFS. Weight-store loads start, go on and fail (O47). -/
namespace Sys2Proof.Machine
open Sys2Proof

/-- Settles O47: a load that fails does so in one way, and a piece that ends before the shards joins the preamble. -/
theorem loadCommandsComplete : Obligations.LoadCommandsComplete := by
  unfold Obligations.LoadCommandsComplete
  refine ⟨?_, ?_, ?_, ?_, ?_, ?_⟩
  · intro s p v src _ hrun hgo hsrc hidle hfree
    exact completes_loadStart hrun p hgo hsrc hidle hfree
  · intro s p v src hrun hgo hsrc hbusy
    exact .of_next ((exec_loadStart hrun p hgo hsrc).trans (congrArg Host.Outcome.next (if_pos (by simpa using hbusy))))
      (refuseLoad_spec (s.loadCtlStored v) (by decide))
  · intro s p v l hrun hgo hl
    exact completes_loadAbort hrun p hgo hl
  · intro s l hl
    exact completes_loadSourceTimeout hl
  · intro s c r so a l x hold hcount hzero hwin hmul hne hmax hslots hl hsrc hx hport hso hoff data hend hdata
    have hpos := List.length_pos_of_ne_nil hdata
    refine .of_next (exec_wsLoad_next hold ⟨hcount, hzero, hwin, hmul, hne, hmax, hslots⟩ hl hsrc hx hport hso hoff (by omega)) ?_
    exact (congrArg WstState.load (State.finish_wst _ _ _ _ _ _).1).trans (takeHost_portA hl hsrc hso hend hdata)
  · intro s l es hl hes hsrc hsel hitem hzero hpre
    exact completes_firstFlashPiece hl hes hsrc hsel hitem hzero hpre

end Sys2Proof.Machine
end

section
/-! SUPPORT. The progress of a weight-store load: its preamble verified, its shards written, and its pass chain (R198, R202,
R205 to R207). -/
namespace Sys2Proof.Machine
open Sys2Proof

/-! The preamble (R198, R201). -/

theorem forwardPreamble_wst (s : State) (l : WsLoad) (so : Nat) : (forwardPreamble s l so).wst = s.wst :=
  have : Fact True := ⟨trivial⟩
  (forwardPreamble_keeps (M := fun p => match p with | .wst => False | _ => True) (Keeps.refl s)).parts .wst not_false

/-- A load with the manifest that its preamble verifies to. -/
def WsLoad.verified (l : WsLoad) (f : Manifest) (leaves : List Digest) (layout : List LayoutEntry) (ts : Nat) : WsLoad :=
  { l with
    manifest := some f
    leaves := leaves
    layout := layout
    unchecked := []
    progressTs := ts }

/-- Has some die fewer GOOD blocks than a load's image has shards for it (R201)? -/
def lacksRoom (s : State) (v : WsLoad) (f : Manifest) : Bool :=
  (List.range 16).any (fun d => decide (goodBlocks s v d < ((List.range f.shards).filter (fun x => v.dieOf x == d)).length))

theorem lacksRoom_eq_false {s : State} {v : WsLoad} {f : Manifest} (h : ∀ d < 16, ((List.range f.shards).filter (fun x =>
    v.dieOf x == d)).length ≤ goodBlocks s v d) : lacksRoom s v f = false := by
  refine List.any_eq_false.mpr fun d hd => ?_
  have := h d (List.mem_range.mp hd)
  simpa using this

/-- The state with a load's manifest, and the second bank of a full-mode image taken. -/
def State.manifestTaken (s : State) (l : WsLoad) (f : Manifest) (leaves : List Digest) (layout : List LayoutEntry) : State :=
  (if f.full then takeOther s l.target else s).modLoad
    (fun _ => l.verified f leaves layout (if f.full then takeOther s l.target else s).ts)

theorem takeOther_frame (s : State) (b : Nat) : (takeOther s b).wst.load = s.wst.load ∧ (takeOther s b).ts = s.ts := by
  unfold takeOther State.takeTarget State.setBank
  split <;> exact ⟨rfl, rfl⟩

theorem State.manifestTaken_load {s : State} {l : WsLoad} (hl : s.wst.load = some l) (f : Manifest) (leaves : List Digest)
    (layout : List LayoutEntry) : (s.manifestTaken l f leaves layout).wst.load = some (l.verified f leaves layout s.ts) := by
  have htake : (if f.full then takeOther s l.target else s).wst.load = some l ∧
      (if f.full then takeOther s l.target else s).ts = s.ts := by
    split
    · exact ⟨(takeOther_frame s l.target).1.trans hl, (takeOther_frame s l.target).2⟩
    · exact ⟨hl, rfl⟩
  obtain ⟨hload, hts⟩ := htake
  rw [State.manifestTaken, State.modLoad_load hload, hts]

variable {s : State} {l : WsLoad}

theorem exec_preambleVerify_error (hl : s.wst.load = some l) (hman : l.manifest = none) (hthere : l.preambleThere = true)
    {reason : Nat} (hv : verifyPreamble l.preamble s.pwr.owners = .error reason) :
    exec .preambleVerify s = .next (s.loadFails reason) := by
  change execPreambleVerify s = _
  unfold execPreambleVerify
  rw [hl]
  dsimp only
  rw [if_neg (by simp [hman, hthere]), hv]

theorem exec_preambleVerify_ok (hl : s.wst.load = some l) (hman : l.manifest = none) (hthere : l.preambleThere = true)
    (hunchecked : l.unchecked = []) {f : Manifest} {leaves : List Digest} {layout : List LayoutEntry}
    (hv : verifyPreamble l.preamble s.pwr.owners = .ok (f, leaves, layout)) :
    exec .preambleVerify s = .next (if f.full && !l.pair && s.bankBusy (1 - l.target) then s.loadFails wsBusyTarget
      else if lacksRoom (s.manifestTaken l f leaves layout) (l.verified f leaves layout s.ts) f then
        (s.manifestTaken l f leaves layout).loadFails wsNoSpace
      else forwardPreamble (s.manifestTaken l f leaves layout) (l.verified f leaves layout s.ts) f.shardOff) := by
  have hts : (if f.full then takeOther s l.target else s).ts = s.ts := by
    split
    · exact (takeOther_frame s l.target).2
    · rfl
  change execPreambleVerify s = _
  unfold execPreambleVerify
  rw [hl]
  dsimp only
  rw [if_neg (by simp [hman, hthere]), hv]
  dsimp only
  rw [hunchecked, hts, List.foldl_nil]
  split
  · rfl
  · unfold State.manifestTaken
    rw [hts]
    exact (apply_ite Host.Outcome.next _ _ _).symm

/-- After a preamble that verifies, no load runs or the load has its manifest. -/
theorem completes_preambleVerify_ok (hl : s.wst.load = some l) (hman : l.manifest = none) (hthere : l.preambleThere = true)
    (hunchecked : l.unchecked = []) {f : Manifest} {leaves : List Digest} {layout : List LayoutEntry}
    (hv : verifyPreamble l.preamble s.pwr.owners = .ok (f, leaves, layout)) : Completes .preambleVerify s (fun t =>
      (t.wst.load = none ∨ t.wst.load = some (l.verified f leaves layout s.ts)) ∧
      (f.full = false → lacksRoom s (l.verified f leaves layout s.ts) f = false →
        t.wst.load = some (l.verified f leaves layout s.ts))) := by
  have htaken := State.manifestTaken_load hl f leaves layout
  have hroom : f.full = false → lacksRoom (s.manifestTaken l f leaves layout) (l.verified f leaves layout s.ts) f =
      lacksRoom s (l.verified f leaves layout s.ts) f := fun hfull => by
    unfold State.manifestTaken
    rw [if_neg (by rw [hfull]; decide)]
    rfl
  refine .of_next (exec_preambleVerify_ok hl hman hthere hunchecked hv) ?_
  split
  · next hbusy =>
    refine ⟨.inl (State.loadFails_failed hl _).load, fun hfull => ?_⟩
    rw [hfull, Bool.false_and, Bool.false_and] at hbusy
    exact absurd hbusy Bool.false_ne_true
  · split
    · next hlacks =>
      refine ⟨.inl (State.loadFails_failed htaken _).load, fun hfull hspace => ?_⟩
      rw [hroom hfull, hspace] at hlacks
      exact absurd hlacks Bool.false_ne_true
    · have hload := (congrArg WstState.load (forwardPreamble_wst (s.manifestTaken l f leaves layout)
        (l.verified f leaves layout s.ts) f.shardOff)).trans htaken
      exact ⟨.inr hload, fun _ _ => hload⟩

/-! Blocks written (R202). -/

theorem State.setBank_blockMap (s : State) (b : Nat) (r : BankRec) : (s.setBank b r).wst.blockMap = s.wst.blockMap := by
  unfold State.setBank
  split <;> rfl

theorem State.writeNext_blockMap (s : State) : s.writeNext.wst.blockMap = s.wst.blockMap := by
  have hfail : ∀ (bs : List Nat) (s : State), (s.failBanks bs).wst.blockMap = s.wst.blockMap := fun bs => by
    unfold State.failBanks
    induction bs with
    | nil => exact fun _ => rfl
    | cons b bs ih =>
      intro s
      exact (ih _).trans (s.setBank_blockMap b _)
  have hfails : (s.loadFails wsNoSpace).wst.blockMap = s.wst.blockMap := by
    unfold State.loadFails
    cases hl : s.wst.load with
    | none => rfl
    | some l => exact (congrArg WstState.blockMap (State.opEvent_load (s.withoutLoad l wsNoSpace) _).1).trans (hfail l.taken s)
  unfold State.writeNext
  cases s.wst.load with
  | none => rfl
  | some l =>
    dsimp only
    cases l.writing with
    | some w => rfl
    | none =>
      cases l.waiting.find? (fun p => l.nextOf p.1) with
      | none => rfl
      | some q =>
        dsimp only
        cases nextBlock s l (l.dieOf q.1) with
        | none => exact hfails
        | some b => rfl

/-- With nothing that waits, nothing is written next. -/
theorem State.writeNext_nil {s : State} {l : WsLoad} (hl : s.wst.load = some l) (hwait : l.waiting = []) : s.writeNext = s := by
  unfold State.writeNext
  rw [hl]
  dsimp only
  rw [hwait, List.find?_nil]
  cases l.writing <;> rfl

/-- The load once a shard of it is placed. -/
def WsLoad.placed (l : WsLoad) (w : ShardWrite) (ts : Nat) : WsLoad :=
  { l with
    writing := none
    place := l.place ++ [⟨w.shard, l.dieOf w.shard, w.bank, w.block⟩]
    progressTs := ts }

theorem exec_shardWriteDone_verified {w : ShardWrite} (hl : s.wst.load = some l) (hw : l.writing = some w) :
    exec (.shardWriteDone true) s = .next (shardPlaced s l w (l.dieOf w.shard)) := by
  change execShardWriteDone true s = _
  unfold execShardWriteDone
  rw [hl]
  dsimp only
  rw [hw]
  rfl

/-- The state with a shard of the load placed. -/
def State.withPlaced (s : State) (l : WsLoad) (w : ShardWrite) : State :=
  s.modLoad (fun x => { x with
    writing := none
    place := x.place ++ [⟨w.shard, l.dieOf w.shard, w.bank, w.block⟩]
    progressTs := s.ts })

theorem State.withPlaced_load (hl : s.wst.load = some l) (w : ShardWrite) :
    (s.withPlaced l w).wst.load = some (l.placed w s.ts) := State.modLoad_load hl _

theorem State.setLoadStatus_wst (s : State) (st reason done : Nat) : (s.setLoadStatus st reason done).wst = s.wst := rfl

theorem State.setLoadStatus_mem (s : State) (st reason done : Nat) : (s.setLoadStatus st reason done).mem = s.mem := rfl

theorem completes_shardPlaced {w : ShardWrite} {f : Manifest} (hl : s.wst.load = some l) (hw : l.writing = some w)
    (hwait : l.waiting = []) (hman : l.manifest = some f) (hlt : l.place.length + 1 < f.shards) :
    Completes (.shardWriteDone true) s (fun t => t.wst.load = some (l.placed w s.ts) ∧ t.mem = s.mem) := by
  have hexec : shardPlaced s l w (l.dieOf w.shard) = ((s.withPlaced l w).setLoadStatus 1 0 (l.place.length + 1)).writeNext := by
    unfold shardPlaced
    dsimp only
    rw [hman]
    exact if_pos hlt
  have hload := State.withPlaced_load hl w
  have hload' : ((s.withPlaced l w).setLoadStatus 1 0 (l.place.length + 1)).wst.load = some (l.placed w s.ts) :=
    (congrArg WstState.load (State.setLoadStatus_wst _ _ _ _)).trans hload
  rw [State.writeNext_nil hload' hwait] at hexec
  exact .of_next ((exec_shardWriteDone_verified hl hw).trans (congrArg Host.Outcome.next hexec))
    ⟨hload', State.setLoadStatus_mem _ _ _ _⟩

/-! The last shard (R199). -/

theorem State.bankBecomes_bank (s : State) (b : Nat) (st : WsBankState) (epoch c : Nat) :
    (s.bankBecomes b st epoch).bank c = (s.setBank b { s.bank b with
      st := st
      epoch := epoch }).bank c := by
  have : Fact True := ⟨trivial⟩
  exact State.bank_congr ((State.extendMrBytes_keeps (M := fun p => match p with | .wst => False | _ => True)
    (Keeps.refl _)).parts .wst not_false) c

/-- A bank's record that a load has filled: READY, with the image and the places of its shards. -/
def BankRec.filled (l : WsLoad) (f : Manifest) (r : BankRec) : Prop := r.st = .ready ∧ r.imageId = f.imageId ∧ r.place = l.place

theorem fillBank_self (l : WsLoad) (f : Manifest) (s : State) (b : Nat) : BankRec.filled l f ((fillBank l f s b).bank b) := by
  unfold fillBank
  dsimp only
  rw [State.bankBecomes_bank, State.bank_setBank_self, State.bank_setBank_self]
  exact ⟨rfl, rfl, rfl⟩

theorem State.bank_setBank_ne (s : State) {b c : Nat} (hb : b < 2) (hc : c < 2) (h : c ≠ b) (r : BankRec) :
    (s.setBank b r).bank c = s.bank c := by
  unfold State.bank State.setBank
  interval_cases b <;> interval_cases c
  · exact absurd rfl h
  · rfl
  · rfl
  · exact absurd rfl h

theorem fillBank_other (l : WsLoad) (f : Manifest) (s : State) {b c : Nat} (hb : b < 2) (hc : c < 2) (h : c ≠ b) :
    (fillBank l f s b).bank c = s.bank c := by
  unfold fillBank
  dsimp only
  rw [State.bankBecomes_bank, State.bank_setBank_ne _ hb hc h, State.bank_setBank_ne _ hb hc h]

/-- Every bank of a list is filled once the load has filled them in turn. -/
theorem foldl_fillBank (l : WsLoad) (f : Manifest) (bs : List Nat) (hbs : ∀ b ∈ bs, b < 2) (s : State) :
    (∀ b ∈ bs, BankRec.filled l f ((bs.foldl (fillBank l f) s).bank b)) ∧
    ∀ c < 2, BankRec.filled l f (s.bank c) → BankRec.filled l f ((bs.foldl (fillBank l f) s).bank c) := by
  induction bs generalizing s with
  | nil => exact ⟨fun _ h => absurd h List.not_mem_nil, fun _ _ h => h⟩
  | cons b bs ih =>
    obtain ⟨hin, hkeep⟩ := ih (fun c hc => hbs c (List.mem_cons_of_mem _ hc)) (fillBank l f s b)
    have hb := hbs b List.mem_cons_self
    refine ⟨fun c hc => ?_, fun c hc hfilled => hkeep c hc ?_⟩
    · rcases List.mem_cons.mp hc with rfl | hc
      · exact hkeep c hb (fillBank_self l f s c)
      · exact hin c hc
    · by_cases h : c = b
      · rw [h]
        exact fillBank_self l f s b
      · rw [fillBank_other l f s hb hc h]
        exact hfilled

/-- Banks that fail leave the others. -/
theorem State.failBanks_other (s : State) {bs : List Nat} (hbs : ∀ b ∈ bs, b < 2) {c : Nat} (hc : c < 2) (h : c ∉ bs) :
    (s.failBanks bs).bank c = s.bank c := by
  unfold State.failBanks
  induction bs generalizing s with
  | nil => rfl
  | cons b bs ih =>
    have hne : c ≠ b := fun heq => h (heq ▸ List.mem_cons_self)
    rw [List.foldl_cons, ih _ (fun x hx => hbs x (List.mem_cons_of_mem _ hx)) (fun hin => h (List.mem_cons_of_mem _ hin)),
      State.bank_setBank_ne s (hbs b List.mem_cons_self) hc hne]

theorem WsLoad.banks_lt {l : WsLoad} (h : l.target < 2) : ∀ b ∈ l.banks, b < 2 := by
  intro b hb
  unfold WsLoad.banks at hb
  split at hb
  · simp at hb
    omega
  · obtain rfl := List.mem_singleton.mp hb
    exact h

theorem WsLoad.taken_lt {l : WsLoad} (h : l.target < 2) : ∀ b ∈ l.taken, b < 2 := by
  intro b hb
  unfold WsLoad.taken at hb
  split at hb
  · simp at hb
    omega
  · exact WsLoad.banks_lt h b hb

/-- The state in which the banks of a load are filled, and the other bank that it had taken has failed. -/
def State.banksFilled (s : State) (l : WsLoad) (w : ShardWrite) (f : Manifest) : State :=
  ((l.placed w s.ts).banks.foldl (fillBank (l.placed w s.ts) f) (s.withPlaced l w)).failBanks
    (l.taken.filter (fun b => !l.banks.contains b))

/-- The state in which a load has ended well. -/
def State.loadEnded (s : State) (target done : Nat) : State :=
  loadDone ({ s with wst := { s.wst with load := none } }.setLoadStatus 2 0 done) target 0

theorem State.loadEnded_wst (s : State) (target done : Nat) : (s.loadEnded target done).wst = { s.wst with load := none } :=
  (State.opEvent_load _ _).1

theorem shardPlaced_last {w : ShardWrite} {f : Manifest} (hl : s.wst.load = some l) (hman : l.manifest = some f)
    (hle : f.shards ≤ l.place.length + 1) : shardPlaced s l w (l.dieOf w.shard) =
      (s.banksFilled l w f).loadEnded l.target (l.place.length + 1) := by
  have hfill : (s.withPlaced l w).wst.load.elim (s.withPlaced l w) (fun m => m.banks.foldl (fillBank m f) (s.withPlaced l w)) =
      (l.placed w s.ts).banks.foldl (fillBank (l.placed w s.ts) f) (s.withPlaced l w) := by
    rw [State.withPlaced_load hl w]
    rfl
  unfold shardPlaced
  dsimp only
  rw [hman]
  dsimp only
  rw [if_neg (by omega)]
  exact congrArg (fun u : State => (u.failBanks (l.taken.filter (fun b => !l.banks.contains b))).loadEnded l.target
    (l.place.length + 1)) hfill

theorem completes_loadDone {w : ShardWrite} {f : Manifest} (hl : s.wst.load = some l) (hw : l.writing = some w)
    (htarget : l.target < 2) (hman : l.manifest = some f) (hle : f.shards ≤ l.place.length + 1) :
    Completes (.shardWriteDone true) s (fun t => t.wst.load = none ∧ ∀ b ∈ l.banks, (t.bank b).st = .ready ∧
      (t.bank b).imageId = f.imageId ∧ (t.bank b).place = l.place ++ [⟨w.shard, l.dieOf w.shard, w.bank, w.block⟩]) := by
  have hfilled : ∀ b ∈ l.banks, BankRec.filled (l.placed w s.ts) f ((s.banksFilled l w f).bank b) := fun b hb => by
    unfold State.banksFilled
    rw [State.failBanks_other _ (fun c hc => WsLoad.taken_lt htarget c (List.mem_filter.mp hc).1) (WsLoad.banks_lt htarget b hb)
      (fun hmem => by simpa [hb] using (List.mem_filter.mp hmem).2)]
    exact (foldl_fillBank _ f (l.placed w s.ts).banks (fun c hc => WsLoad.banks_lt htarget c hc) _).1 b hb
  refine .of_next ((exec_shardWriteDone_verified hl hw).trans (congrArg Host.Outcome.next (shardPlaced_last hl hman hle))) ?_
  have hwst := (s.banksFilled l w f).loadEnded_wst l.target (l.place.length + 1)
  refine ⟨congrArg WstState.load hwst, fun b hb => ?_⟩
  rw [State.bank, hwst]
  exact hfilled b hb

/-! A block that fails twice (R202). -/

/-- A block that fails program-verify again is BAD. -/
theorem badBlock_code (s : State) (w : ShardWrite) (die : Nat) : (badBlock s w die).blockCode (blockKey die w.bank w.block) = 1 := by
  unfold badBlock State.blockCode Tbl.getD
  dsimp only
  rw [State.writeNext_blockMap]
  exact congrArg (fun o : Option Nat => o.getD 0) (Tbl.get?_set_self _ _ _)

theorem exec_shardWriteDone_failed {w : ShardWrite} (hl : s.wst.load = some l) (hw : l.writing = some w) :
    exec (.shardWriteDone false) s = .next (if w.fails = 0 then (s.putShard w (l.dieOf w.shard)).modLoad (fun l =>
      { l with writing := some { w with fails := 1 } }) else badBlock s w (l.dieOf w.shard)) := by
  change execShardWriteDone false s = _
  unfold execShardWriteDone
  rw [hl]
  dsimp only
  rw [hw]
  exact (apply_ite Host.Outcome.next _ _ _).symm

/-! The pass chain (R205 to R207). -/

theorem exec_loadData_preamble {k : InboxPacket} {i : Nat} (hk : s.inbox? (isChain s 0x20) = some k) (hl : s.wst.load = some l)
    (hsrc : l.source = .chain) (hi : s.chainIn.idxOf? k.port = some i) (hseq : k.packet.seq = preambleSeq)
    (hman : l.manifest = none) : exec .loadData s =
      .next ((s.takeInbox (isChain s 0x20)).takeBytes l.received k.packet.data (.peer k.packet.src)) := by
  have hl' : (s.takeInbox (isChain s 0x20)).wst.load = some l := hl
  have hi' : (s.takeInbox (isChain s 0x20)).chainIn.idxOf? k.port = some i := hi
  change execLoadData s = _
  unfold execLoadData
  rw [hk]
  dsimp only
  rw [hl', hi']
  dsimp only
  rw [if_neg (by rw [hsrc]; decide), if_pos hseq, if_neg (by rw [hman]; decide)]

theorem exec_loadGone {k : InboxPacket} (hk : s.inbox? (isChain s 0x22) = some k) (hl : s.wst.load = some l)
    (hin : k.packet.seq ∈ l.resends) : exec .loadGone s = .next ((s.takeInbox (isChain s 0x22)).needShard k.packet.seq) := by
  have hl' : (s.takeInbox (isChain s 0x22)).wst.load = some l := hl
  change execLoadGone s = _
  unfold execLoadGone
  rw [hk]
  dsimp only
  rw [hl']
  exact if_pos (List.contains_iff_mem.mpr hin)

/-- A shard that the operator is asked for is no longer asked of the predecessor. -/
theorem State.needShard_spec (hl : s.wst.load = some l) (x : Nat) : ∃ m, (s.needShard x).wst.load = some m ∧ x ∉ m.resends ∧
    Tbl.get? m.needs x = some (Tbl.getD l.needs x 0 + 1) := by
  unfold State.needShard
  rw [hl]
  dsimp only
  rw [(State.opEvent_load _ _).1, State.modLoad_load hl]
  exact ⟨_, rfl, by simp, Tbl.get?_set_self _ _ _⟩

end Sys2Proof.Machine
end

section
/-! PROOFS. Verification, writing and the chain of a load (O48). -/
namespace Sys2Proof.Machine
open Sys2Proof

/-- Settles O48: each outcome of a verification is one of three states, and the last shard's banks are filled in turn. -/
theorem loadProgressCompletes : Obligations.LoadProgressCompletes := by
  unfold Obligations.LoadProgressCompletes
  refine ⟨?_, ?_, ?_, ?_, ?_, ?_, ?_, ?_⟩
  · intro s l hl hman hthere hunchecked
    rcases hv : verifyPreamble l.preamble s.pwr.owners with reason | ⟨f, leaves, layout⟩
    · obtain ⟨hload, hbanks, -, -, hreason⟩ := State.loadFails_failed hl reason
      exact .of_next (exec_preambleVerify_error hl hman hthere hv) ⟨hload, fun b hb => ⟨hbanks b hb, hreason⟩⟩
    · refine (completes_preambleVerify_ok hl hman hthere hunchecked hv).mono fun t ht => ?_
      obtain ⟨hends, hroom⟩ := ht
      have htakes : t.wst.load = some (l.verified f leaves layout s.ts) → ∃ m, t.wst.load = some m ∧ m.manifest = some f ∧
          m.leaves = leaves ∧ m.layout = layout := fun h => ⟨_, h, rfl, rfl, rfl⟩
      exact ⟨hends.imp_right htakes, fun hfull hspace => htakes (hroom hfull (lacksRoom_eq_false hspace))⟩
  · intro s l w f hl hw hwait hman hlt
    exact completes_shardPlaced hl hw hwait hman hlt
  · intro s l w f hl hw htarget hman hle
    exact completes_loadDone hl hw htarget hman hle
  · intro s l w hl hw hfails
    exact .of_next ((exec_shardWriteDone_failed hl hw).trans (congrArg Host.Outcome.next (if_pos hfails))) rfl
  · intro s l w hl hw hfails
    exact .of_next ((exec_shardWriteDone_failed hl hw).trans (congrArg Host.Outcome.next (if_neg hfails)))
      (badBlock_code s w (l.dieOf w.shard))
  · intro s k l i so hk hl hsrc hi hseq hman hso hne hend
    have hsplit : l.splitWith l.received k.packet.data = some so := by rw [WsLoad.splitWith, if_pos (by rw [hso]; rfl), hso]
    refine .of_next (exec_loadData_preamble hk hl hsrc hi hseq hman) ?_
    rw [State.takeBytes_preamble (s := s.takeInbox (isChain s 0x20)) hl hsplit hend hne]
    exact State.modLoad_load (s := s.takeInbox (isChain s 0x20)) hl _
  · intro s k w hk hw
    have hw' : (s.takeInbox (isChain s 0x21)).wst.window.find? (fun w => w.1 == k.packet.seq) = some w := hw
    refine .of_next (t := (s.takeInbox (isChain s 0x21)).sendLoad k.packet.src k.packet.seq w.2) ?_ rfl
    change execLoadResend s = _
    unfold execLoadResend
    rw [hk]
    dsimp only
    rw [hw']
  · intro s k l hk hl hin
    exact .of_next (exec_loadGone hk hl hin) (State.needShard_spec (s := s.takeInbox (isChain s 0x22)) hl k.packet.seq)

end Sys2Proof.Machine
end

section
/-! SUPPORT. Lines that cannot be read, and shards fetched from the mirror peer (R212 to R216). -/
namespace Sys2Proof.Machine
open Sys2Proof

/-! What leaves the weight store alone. -/

theorem State.count_wst (s : State) (b cls event n : Nat) (c : Counted) : (s.count b cls event n c).wst = s.wst :=
  have : Fact True := ⟨trivial⟩
  (State.count_keeps (M := fun p => match p with | .wst => False | _ => True) (Keeps.refl s)).parts .wst not_false

theorem blockFault_wst (s : State) (unit b shard : Nat) : (blockFault s unit b shard).wst = s.wst :=
  have : Fact True := ⟨trivial⟩
  (blockFault_keeps (M := fun p => match p with | .wst => False | _ => True) (Keeps.refl s)).parts .wst not_false

theorem State.addCharge_wst (s : State) (c : Charges) : (s.addCharge c).wst = s.wst :=
  have : Fact True := ⟨trivial⟩
  (State.addCharge_keeps (M := fun p => match p with | .wst => False | _ => True) (Keeps.refl s)).parts .wst not_false

/-- The weight store without a stream. -/
def WstState.streamEnded (x : WstState) : WstState := { x with
  stream := none
  fetches := [] }

/-- The group without the runs of work that is stopped, whose group step notes it. -/
def RdcState.workStopped (x : RdcState) (w : Work) (cause : DiscardCause) : RdcState := { x with
  chans := []
  step := x.step.map (GroupStep.workStopped w cause) }

/-- Work that is stopped ends its stream and its fetches, its runs, and its part of the group step; the rest of the weight store
and of the group, and the packets received, stay (R355, R419). -/
theorem State.stopWork_left {s : State} {w : Work} (hw : s.ump.work = some w) (cause : DiscardCause) :
    (s.stopWork cause).wst = s.wst.streamEnded ∧ (s.stopWork cause).rdc = s.rdc.workStopped w cause ∧
    (s.stopWork cause).mgl.inbox = s.mgl.inbox := by
  have : Fact True := ⟨trivial⟩
  have hserve : ∀ (t : State) (did : Nat), Keeps (fun p => match p with | .wst | .rdc | .mgl => False | _ => True) t
      (t.serveDiscarded did cause) := fun t did => State.serveDiscarded_keeps (Keeps.refl t)
  have hsegment : ∀ (t : State) (did : Nat), Keeps (fun p => match p with | .wst | .rdc | .mgl => False | _ => True) t
      (t.segmentDiscarded did cause) := fun t did => State.segmentDiscarded_keeps (Keeps.refl t)
  unfold State.stopWork
  rw [hw]
  dsimp -zeta only
  extract_lets array charged ended ump lkr rdc wst cleared freed
  have hended : Keeps (fun p => match p with | .wst | .rdc | .mgl => False | _ => True) s ended := by
    have harray : Keeps (fun p => match p with | .wst | .rdc | .mgl => False | _ => True) s array :=
      State.stopArray_keeps (Keeps.refl s)
    exact State.endOverrun_keeps
      (Keeps.ite (fun _ => State.chargeWork_keeps harray) (fun _ => State.chargeDiscard_keeps harray))
  have hbox : ended.mgl.inbox = s.mgl.inbox := congrArg MglState.inbox (hended.parts .mgl not_false : ended.mgl = s.mgl)
  have hfreed : freed.wst = s.wst.streamEnded ∧ freed.rdc = s.rdc.workStopped w cause ∧ freed.mgl.inbox = s.mgl.inbox :=
    ⟨congrArg WstState.streamEnded (hended.parts .wst not_false :),
      congrArg (fun r : RdcState => r.workStopped w cause) (hended.parts .rdc not_false :),
      hbox⟩
  clear_value freed
  obtain ⟨hwst, hrdc, hinbox⟩ := hfreed
  have hlast : ∀ t, Keeps (fun p => match p with | .wst | .rdc | .mgl => False | _ => True) freed t →
      t.wst = s.wst.streamEnded ∧ t.rdc = s.rdc.workStopped w cause ∧ t.mgl.inbox = s.mgl.inbox := fun t ht =>
    ⟨(ht.parts .wst not_false).trans hwst, (ht.parts .rdc not_false).trans hrdc,
      (congrArg MglState.inbox (ht.parts .mgl not_false :)).trans hinbox⟩
  split
  · exact hlast _ (hserve freed w.did)
  · exact hlast _ (hserve freed w.did)
  · exact hlast _ (hsegment freed w.did)
  · exact hlast _ (hsegment freed w.did)

theorem State.stopWork_idle {s : State} (h : s.ump.work = none) (cause : DiscardCause) : s.stopWork cause = s := by
  unfold State.stopWork
  rw [h]

/-- No block changes and no fetch begins. -/
def noFetchBegins (s t : State) : Prop := t.wst.blockMap = s.wst.blockMap ∧ ∀ f ∈ t.wst.fetches, f ∈ s.wst.fetches

theorem State.stopWork_noFetchBegins (s : State) (cause : DiscardCause) : noFetchBegins s (s.stopWork cause) := by
  cases hw : s.ump.work with
  | none =>
    rw [State.stopWork_idle hw]
    exact ⟨rfl, fun _ h => h⟩
  | some w =>
    obtain ⟨hwst, -, -⟩ := State.stopWork_left hw cause
    refine ⟨(congrArg WstState.blockMap hwst :), fun f hf => ?_⟩
    rw [hwst] at hf
    exact absurd hf List.not_mem_nil

/-- A fence only notes schedules, and may stop the work. -/
theorem State.fenceShard_spec (s : State) (b shard : Nat) : noFetchBegins s (s.fenceShard b shard) ∧
    (s.fenceShard b shard).ts = s.ts := by
  have : Fact True := ⟨trivial⟩
  have hts := (State.fenceShard_keeps (M := fun p => match p with | .ts => False | _ => True) (b := b) (shard := shard)
    (Keeps.refl s)).parts .ts not_false
  refine ⟨?_, hts⟩
  unfold State.fenceShard
  extract_lets same fs hit
  split
  · exact ⟨rfl, fun _ h => h⟩
  · dsimp only
    split
    · exact State.stopWork_noFetchBegins _ _
    · exact ⟨rfl, fun _ h => h⟩

theorem State.missShard_blockMap (s : State) (b shard entry : Nat) : (s.missShard b shard entry).wst.blockMap = s.wst.blockMap := by
  unfold State.missShard
  split
  · unfold State.issueFetch
    extract_lets bumped f wst asked
    exact (congrArg WstState.blockMap (State.send_frame asked _ _ _ _ _ _).1 :)
  · exact (s.fenceShard_spec b shard).1.1

/-! A line that is read again (R212, R488). -/

section
variable {s : State} {die block b shard entry : Nat} {first second : List Byte}

/-- A line that is good again is counted, with its corrections. -/
def State.rereadGood (s : State) (die n : Nat) : State :=
  ((s.bump R.wstRetry).bump R.memCe n).count die 3 1 2 (s.workCounted 9)

theorem exec_wsLineReread_good (hs : streamingShard s die block = some (b, shard, entry))
    (hgood : lineReadable first = true ∨ lineReadable second = true) (line : Nat) :
    exec (.wsLineReread die block line first second) s =
      .next (s.rereadGood die (lineCorrected (if lineReadable first then first else second))) := by
  change execWsLineReread die block line first second s = _
  unfold execWsLineReread
  rw [hs]
  exact if_pos (by simpa using hgood)

theorem wstRetry_plainKey : plainKey R.wstRetry := ⟨by decide, by decide, fun b i => by unfold R.wstRetry R.pmuCfg; omega⟩

theorem State.rereadGood_spec (hw : RegsWf s.regs) (die n : Nat) : (s.rereadGood die n).regAt R.wstRetry = s.regAt R.wstRetry + 1 ∧
    (s.rereadGood die n).wst = s.wst ∧ (s.rereadGood die n).regAt R.memCe = s.regAt R.memCe + BitVec.ofNat 32 n := by
  have hw' : RegsWf (s.bump R.wstRetry).regs := State.setReg_wf hw _ _
  have hw'' : RegsWf ((s.bump R.wstRetry).bump R.memCe n).regs := State.setReg_wf hw' _ _
  have hretry : ((s.bump R.wstRetry).bump R.memCe n).regAt R.wstRetry = s.regAt R.wstRetry + 1 :=
    (State.bump_keepsReg (s.bump R.wstRetry) n (by decide) hw').1.trans (State.regAt_setReg_self _ _ _)
  have hce : (s.bump R.wstRetry).regAt R.memCe = s.regAt R.memCe := (State.bump_keepsReg s 1 (by decide) hw).1
  refine ⟨(State.count_keepsReg _ _ _ _ _ _ wstRetry_plainKey hw'').1.trans hretry, State.count_wst _ _ _ _ _ _,
    (State.count_keepsReg _ _ _ _ _ _ memCe_stopKey.1 hw'').1.trans ((State.regAt_setReg_self _ _ _).trans ?_)⟩
  rw [hce]

/-- The state in which a bad line has been counted and its block FENCED. -/
def State.blockFenced (s : State) (die block : Nat) : State :=
  let s := s.count die 3 1 2 (s.workCounted 9)
  { s with wst := { s.wst with blockMap := Tbl.set s.wst.blockMap (8192 * die + block) 2 } }

/-- What is made of a lost shard leaves its block FENCED. -/
theorem State.blockFenced_code (s : State) (die block b shard entry : Nat) :
    ((blockFault (s.blockFenced die block) (8192 * die + block) b shard).missShard b shard entry).blockCode
      (8192 * die + block) = 2 := by
  unfold State.blockCode Tbl.getD
  rw [State.missShard_blockMap, blockFault_wst]
  exact congrArg (fun o : Option Nat => o.getD 0) (Tbl.get?_set_self _ _ _)

theorem exec_wsLineReread_bad (hs : streamingShard s die block = some (b, shard, entry))
    (hfirst : lineReadable first = false) (hsecond : lineReadable second = false) (line : Nat) :
    exec (.wsLineReread die block line first second) s =
      .next ((blockFault (s.blockFenced die block) (8192 * die + block) b shard).missShard b shard entry) := by
  change execWsLineReread die block line first second s = _
  unfold execWsLineReread
  rw [hs]
  exact if_neg (by simp [hfirst, hsecond])

end

/-! Mirror fetches (R213, R214). -/

/-- Does a READ_RSP continue a fetch: of its shard and image, where its bytes end? -/
def State.continues (s : State) (k : InboxPacket) (f : MirrorFetch) : Bool :=
  f.shard == ofBytes ((k.packet.data.drop 8).take 4) && (s.bank f.bank).imageId == ofBytes (k.packet.data.take 8) &&
    f.data.length == ofBytes ((k.packet.data.drop 12).take 4)

/-- The state in which a READ_RSP has been taken from the inbox and charged. -/
def State.rspCharged (s : State) (k : InboxPacket) : State :=
  (s.takeInbox (fun k => k.packet.ty == 0x11)).addCharge { Charges.zero with mglRx := 64 * k.packet.flits }

theorem State.rspCharged_bank (s : State) (k : InboxPacket) (b : Nat) : (s.rspCharged k).bank b = s.bank b :=
  State.bank_congr (State.addCharge_wst (s.takeInbox (fun k => k.packet.ty == 0x11)) _) b

/-- A part of a fetched shard that is not the last is kept with it. -/
theorem exec_readRsp_part {s : State} {k : InboxPacket} {f : MirrorFetch} (hk : s.inbox? (fun k => k.packet.ty == 0x11) = some k)
    (hf : s.wst.fetches.find? (s.continues k) = some f)
    (hlt : (f.data ++ k.packet.data.drop 16).length < usedLen (entriesIn (s.bank f.bank) f.shard) f.shard) :
    exec .readRsp s = .next { s.rspCharged k with wst := { (s.rspCharged k).wst with
      fetches := s.wst.fetches.eraseP (s.continues k) ++ [{ f with data := f.data ++ k.packet.data.drop 16 }] } } := by
  have hshard : f.shard = ofBytes ((k.packet.data.drop 8).take 4) := by
    have h := List.find?_some hf
    simp only [State.continues, Bool.and_eq_true, beq_iff_eq] at h
    obtain ⟨⟨hshard, -⟩, -⟩ := h
    exact hshard
  have hpart : (f.data ++ k.packet.data.drop 16).length < usedLen (entriesIn ((s.rspCharged k).bank f.bank)
      (ofBytes ((k.packet.data.drop 8).take 4))) (ofBytes ((k.packet.data.drop 8).take 4)) := by
    rw [State.rspCharged_bank, ← hshard]
    exact hlt
  have hf' : (s.takeInbox (fun k => k.packet.ty == 0x11)).wst.fetches.find?
      ((s.takeInbox (fun k => k.packet.ty == 0x11)).continues k) = some f := hf
  change execReadRsp s = _
  unfold execReadRsp
  rw [hk]
  dsimp only
  unfold State.continues at hf'
  rw [hf']
  exact if_pos hpart

theorem completes_mirrorFetchTimeout {s : State} {shard : Nat} {f : MirrorFetch}
    (hf : s.wst.fetches.find? (fun f => f.shard == shard) = some f) : Completes (.mirrorFetchTimeout shard) s (fun t =>
      t.ts = max s.ts (f.issued + 50000) ∧ ∀ x ∈ t.wst.fetches, x.shard ≠ shard) := by
  let late : State := { s with
    ts := max s.ts (f.issued + 50000)
    wst := { s.wst with fetches := s.wst.fetches.filter (fun x => x.shard != shard) } }
  have hexec : exec (.mirrorFetchTimeout shard) s = .next (late.fenceShard f.bank shard) := by
    change execMirrorFetchTimeout shard s = _
    unfold execMirrorFetchTimeout
    rw [hf]
  obtain ⟨⟨-, hfetches⟩, hts⟩ := late.fenceShard_spec f.bank shard
  refine .of_next hexec ⟨hts, fun x hx => ?_⟩
  simpa using (List.mem_filter.mp (hfetches x hx)).2

end Sys2Proof.Machine
end

section
/-! PROOFS. Unreadable lines, mirror fetches and drains (O49). -/
namespace Sys2Proof.Machine
open Sys2Proof

/-- Settles O49: counting, faults and fences leave the block map and begin no fetch. -/
theorem lostShardsComplete : Obligations.LostShardsComplete := by
  unfold Obligations.LostShardsComplete
  refine ⟨?_, ?_, ?_, ?_, ?_⟩
  · intro s die block line b shard entry first second hinv hs
    refine ⟨fun hgood => ?_, fun hfirst hsecond => 
      .of_next (exec_wsLineReread_bad hs hfirst hsecond line) (s.blockFenced_code die block b shard entry)⟩
    exact .of_next (exec_wsLineReread_good hs hgood line) (State.rereadGood_spec hinv.2 die _)
  · intro s k b hk image shard hb
    refine .of_next (t := (List.range (ceilDiv (s.shardData b shard).length 4080)).foldl (fun s' i =>
      s'.send 14 0x11 127 k.packet.src 0 (bytesOf 8 image ++ bytesOf 4 shard ++ bytesOf 4 (4080 * i) ++
        ((s.shardData b shard).drop (4080 * i)).take 4080)) (s.takeInbox (fun k => k.packet.ty == 0x10))) ?_ rfl
    change execReadReq s = _
    unfold execReadReq
    rw [hk]
    dsimp only
    have hb' : [0, 1].find? (fun b => (decide (((s.takeInbox (fun k => k.packet.ty == 0x10)).bank b).st = .active) ||
        decide (((s.takeInbox (fun k => k.packet.ty == 0x10)).bank b).st = .draining) ||
        decide (((s.takeInbox (fun k => k.packet.ty == 0x10)).bank b).st = .ready)) &&
        ((s.takeInbox (fun k => k.packet.ty == 0x10)).bank b).imageId == image &&
        !(s.takeInbox (fun k => k.packet.ty == 0x10)).shardGone b shard) = some b := hb
    rw [hb']
    rfl
  · intro s k f hk mine hf hlt
    exact .of_next (exec_readRsp_part hk hf hlt) rfl
  · intro s shard f hf
    exact completes_mirrorFetchTimeout hf
  · intro s b hb
    refine .of_next (t := { s with
      ts := max s.ts ((s.bank b).drainTs + 1000000 * s.regFld R.wstDrainLimit 0 20) }) ?_ rfl
    change execDrainLimitExpiry s = _
    unfold execDrainLimitExpiry
    rw [hb]

end Sys2Proof.Machine
end

section
/-! SUPPORT. The sequencers of the four kinds of engines: where each stands, and WAIT, SIGNAL and END (R110). -/
namespace Sys2Proof.Machine
open Sys2Proof

/-! Where engines stand. -/

theorem Tbl.getD_set_self {α : Type} (t : Tbl α) (i : Nat) (x d : α) : Tbl.getD (Tbl.set t i x) i d = x := by
  rw [Tbl.getD, Tbl.get?_set_self, Option.getD_some]

theorem Tbl.getD_set_ne {α : Type} (t : Tbl α) {i j : Nat} (x d : α) (h : j ≠ i) :
    Tbl.getD (Tbl.set t i x) j d = Tbl.getD t j d := by
  rw [Tbl.getD, Tbl.get?_set_ne t x h, Tbl.getD]

@[simp] theorem State.engine_setEngine_self (s : State) (e : Engine) (r : EngineRun) : (s.setEngine e r).engine e = r := by
  cases e <;> exact Tbl.getD_set_self _ _ _ _

theorem State.engine_setEngine_ne (s : State) {e d : Engine} (r : EngineRun) (h : d ≠ e) :
    (s.setEngine e r).engine d = s.engine d := by
  cases e <;> cases d
  case court.court n m => exact Tbl.getD_set_ne _ _ _ (fun hnm => h (congrArg Engine.court hnm))
  case vec.vec n m => exact Tbl.getD_set_ne _ _ _ (fun hnm => h (congrArg Engine.vec hnm))
  case gather.gather n m => exact Tbl.getD_set_ne _ _ _ (fun hnm => h (congrArg Engine.gather hnm))
  case channel.channel n m => exact Tbl.getD_set_ne _ _ _ (fun hnm => h (congrArg Engine.channel hnm))
  all_goals rfl

theorem State.engine_congr {s t : State} (h : t.eng = s.eng) (e : Engine) : t.engine e = s.engine e := by
  unfold State.engine
  rw [h]

theorem State.advance_engine (s : State) (e : Engine) :
    (s.advance e).engine e = { s.engine e with pos := (s.engine e).pos + 1 } := State.engine_setEngine_self s e _

theorem State.advance_ump (s : State) (e : Engine) : (s.advance e).ump = s.ump := State.setEngine_ump s e _

theorem State.advance_mem (s : State) (e : Engine) : (s.advance e).mem = s.mem := State.setEngine_mem s e _

/-- A command issued is issued for the work on the array. -/
theorem State.work_of_issued {s : State} {e : Engine} {op : Nat} {cmd : Desc} {w : Work} (h : s.issued e op cmd = some w) :
    s.ump.work = some w := by
  unfold State.issued at h
  split at h
  · exact h
  · cases h

/-! WAIT, SIGNAL and END (R110). -/

section
variable {s : State} {e : Engine} {cmd : Desc} {w : Work}

theorem State.waitCommand_spec (h : s.issued e 0x10 cmd = some w) : (s.waitCommand e cmd).engine e =
      (if fld cmd 8 0 32 ≤ s.sem (fld cmd 4 0 16) then { s.engine e with pos := (s.engine e).pos + 1 }
       else { s.engine e with wait := some (fld cmd 4 0 16, fld cmd 8 0 32) }) ∧
    ∀ d, d ≠ e → (s.waitCommand e cmd).engine d = s.engine d := by
  unfold State.waitCommand
  rw [h]
  dsimp only
  split
  · exact ⟨s.advance_engine e, fun d hd => State.engine_setEngine_ne s _ hd⟩
  · exact ⟨State.engine_setEngine_self s e _, fun d hd => State.engine_setEngine_ne s _ hd⟩

/-- A semaphore raised, with work on the array. -/
theorem State.addSem_sem (hw : s.ump.work = some w) (i n j : Nat) :
    (s.addSem i n).sem j = if j = i then s.sem i + n else s.sem j := by
  have hsem : ∀ j, s.sem j = Tbl.getD w.sems j 0 := fun j => by rw [State.sem, hw, Option.elim_some]
  rw [State.sem, State.addSem, State.modWork_work hw, Option.elim_some, hsem i, hsem j]
  split
  · next hij => rw [hij, Tbl.getD_set_self]
  · next hij => exact Tbl.getD_set_ne _ _ _ hij

theorem State.addSem_engine (s : State) (i n : Nat) (e : Engine) : (s.addSem i n).engine e = s.engine e :=
  have : Fact True := ⟨trivial⟩
  State.engine_congr ((State.modWork_keeps (M := fun p => match p with | .eng => False | _ => True) (Keeps.refl s)).parts .eng
    not_false) e

theorem State.sem_congr {s t : State} (h : t.ump = s.ump) (i : Nat) : t.sem i = s.sem i := by rw [State.sem, h, State.sem]

theorem State.signalCommand_spec (h : s.issued e 0x11 cmd = some w) :
    (s.signalCommand e cmd true).engine e = { s.engine e with pos := (s.engine e).pos + 1 } ∧
    ∀ j, (s.signalCommand e cmd true).sem j =
      if j = fld cmd 4 0 16 then s.sem (fld cmd 4 0 16) + fld cmd 8 0 32 else s.sem j := by
  unfold State.signalCommand
  rw [h]
  dsimp only
  rw [if_pos rfl]
  refine ⟨?_, fun j => ?_⟩
  · rw [State.advance_engine, State.addSem_engine]
  · rw [State.sem_congr (State.advance_ump _ e), State.addSem_sem (State.work_of_issued h)]

theorem State.endCommand_spec (h : s.issued e 0x1F cmd = some w) :
    (s.endCommand e cmd).engine e = { s.engine e with
      pos := (s.engine e).pos + 1
      ended := true } ∧ (s.endCommand e cmd).nextCommand e = none := by
  have hengine : (s.endCommand e cmd).engine e = { s.engine e with
      pos := (s.engine e).pos + 1
      ended := true } := by
    unfold State.endCommand
    rw [h]
    dsimp only
    rw [State.engine_setEngine_self, State.advance_engine]
  refine ⟨hengine, ?_⟩
  unfold State.nextCommand
  split
  · rfl
  · dsimp only
    rw [hengine, if_pos (by simp)]

end

/-! A semaphore that has reached a value (R110). -/

theorem Tbl.get?_map {α : Type} (t : Tbl α) (f : α → α) (i : Nat) :
    Tbl.get? (t.map (fun p => (p.1, f p.2))) i = (Tbl.get? t i).map f := by
  induction t with
  | nil => rfl
  | cons p t ih =>
    rw [List.map_cons, Tbl.get?, Tbl.get?]
    split
    · rfl
    · split
      · rfl
      · exact ih

/-- An engine that has no record yet waits for nothing. -/
theorem getD_releaseWait (t : Tbl EngineRun) (v sem n : Nat) :
    Tbl.getD (t.map (fun p => (p.1, releaseWait v sem p.2))) n .start = releaseWait v sem (Tbl.getD t n .start) := by
  rw [Tbl.getD, Tbl.get?_map, Tbl.getD]
  cases Tbl.get? t n <;> rfl

end Sys2Proof.Machine
end

section
/-! PROOFS. WAIT, SIGNAL and END of every kind of program (O52). -/
namespace Sys2Proof.Machine
open Sys2Proof

/-- Settles O52: the four kinds of programs share one WAIT, one SIGNAL and one END. -/
theorem sequencersComplete : Obligations.SequencersComplete := by
  unfold Obligations.SequencersComplete
  refine ⟨?_, ?_, ?_, ?_⟩
  · intro s e cmd w i h hi
    have hexec : exec i s = .next (s.waitCommand e cmd) := by
      cases e <;> (dsimp only at hi; rw [hi]; rfl)
    exact .of_next hexec (State.waitCommand_spec h)
  · intro s e cmd w i h hi
    have hexec : exec i s = .next (s.signalCommand e cmd true) := by
      cases e with
      | court n =>
        obtain ⟨rfl, htiles, htodo⟩ := hi
        have hdrained : ((s.tilesOf n).isEmpty && (s.todoOf n).isEmpty) = true := by rw [htiles, htodo]; rfl
        exact congrArg (fun b => Host.Outcome.next (s.signalCommand (.court n) cmd b)) hdrained
      | vec n =>
        dsimp only at hi
        rw [hi]
        rfl
      | gather n =>
        dsimp only at hi
        rw [hi]
        rfl
      | channel n =>
        obtain ⟨rfl, hdone⟩ := hi
        have hdrained : (s.rdc.chans.filter (fun r => r.channel == n && r.issued)).all (·.complete) = true := by
          refine List.all_eq_true.mpr fun r hr => ?_
          obtain ⟨hin, hof⟩ := List.mem_filter.mp hr
          simp only [Bool.and_eq_true, beq_iff_eq] at hof
          obtain ⟨hch, hissued⟩ := hof
          exact hdone r hin hch hissued
        exact congrArg (fun b => Host.Outcome.next (s.signalCommand (.channel n) cmd b)) hdrained
    obtain ⟨hengine, hsem⟩ := State.signalCommand_spec h
    exact .of_next hexec ⟨hengine, (hsem _).trans (if_pos rfl), fun j hj => (hsem j).trans (if_neg hj)⟩
  · intro s e cmd w i h hi
    have hexec : exec i s = .next (s.endCommand e cmd) := by
      cases e <;> (dsimp only at hi; rw [hi]; rfl)
    exact .of_next hexec (State.endCommand_spec h)
  · intro s i
    refine .of_next rfl fun e => ?_
    have hengine : ∀ t : State, t.eng = { s.eng with
        courts := s.eng.courts.map (fun p => (p.1, releaseWait (s.sem i) i p.2))
        vecs := s.eng.vecs.map (fun p => (p.1, releaseWait (s.sem i) i p.2))
        gathers := s.eng.gathers.map (fun p => (p.1, releaseWait (s.sem i) i p.2))
        channels := s.eng.channels.map (fun p => (p.1, releaseWait (s.sem i) i p.2)) } →
        t.engine e = releaseWait (s.sem i) i (s.engine e) := fun t ht => by
      unfold State.engine
      rw [ht]
      cases e <;> exact getD_releaseWait _ _ _ _
    refine (hengine _ rfl).trans ?_
    rfl

end Sys2Proof.Machine
end

section
/-! SUPPORT. An MMA on a register table that is out of order (R89, R108, R558). Counting the values that a crosswise read changes
writes CRT_XPOSE_INEXACT; where that leaves its reset value, the entry is erased, and a CRT_COURT_ONLINE that stood behind it
out of order is found again. -/
namespace Sys2Proof.Machine
open Sys2Proof

/-- An MMA with no pair bound to it runs the tiles of its grid. -/
theorem exec_mma_alone {s : State} {court : Nat} {cmd : Desc} {w : Work} (h : s.issued (.court court) 0x01 cmd = some w)
    (hready : commandReady s court = true) (hpair : Tbl.get? s.eng.pairs court = none)
    (haddrs : ∀ a ∈ (TileCmd.ofBits cmd).addrs, mapped a = true) : exec (.mma court cmd) s =
      .next (runTiles w court (gridTiles cmd (s.engine (.court court)).pos false) (s.countInexact cmd)) := by
  have hfind : (TileCmd.ofBits cmd).addrs.find? (fun a => !mapped a) = none :=
    List.find?_eq_none.mpr fun a ha => by simp [haddrs a ha]
  change execMma court cmd s = _
  unfold execMma
  rw [h]
  dsimp only
  rw [hready, if_neg (by decide), hpair]
  dsimp only
  unfold guarded
  rw [hfind]

/-- An MMA of one element, without a bias, at addresses of SRAM. -/
def oneElement : Desc := layout 512 [(0, 0, 8, 1), (4, 0, 16, 1), (6, 0, 16, 1), (16, 0, 48, sdAddr 0 0), (24, 0, 48, sdAddr 0 0),
  (32, 0, 48, sdAddr 0 0)]

/-- A serve of class 1 of image slot 0. -/
def plainServe : Work := ⟨.serve, 200, 5, 0, false, 0, 1, 0, 0, none, none, [], .zero, [], [], 0, 0, false, []⟩

/-- Its class, which runs the MMA on court 0. -/
def oneElementClass : ServeClass :=
  ⟨1000, ⟨1, 1, 32, 1, 64, 16, 0, 8, 0, 0, 5⟩, ⟨1, 1, 32, 8, 4, 1⟩, [],
    { ProgramSet.empty with tile := [(0, [oneElement])] }, [], none⟩

/-- The MMA is next on court 0, and the register table is out of order: CRT_XPOSE_INEXACT stands at its reset value before a
CRT_COURT_ONLINE without court 0, which is not found behind it. -/
def outOfOrder : State := { State.reset with
  regs := [(R.crtXposeInexact, 0), (R.crtCourtOnline 0, 0xFFFFFFFE)]
  ump := { State.reset.ump with
    images := [(0, ⟨9, 77, false, none, 4, [oneElementClass], [], []⟩)]
    work := some plainServe } }

theorem outOfOrder_issued : outOfOrder.issued (.court 0) 0x01 oneElement = some plainServe := by decide +kernel

theorem outOfOrder_ready : commandReady outOfOrder 0 = true := by decide +kernel

theorem outOfOrder_unpaired : Tbl.get? outOfOrder.eng.pairs 0 = none := by decide +kernel

theorem oneElement_mapped : ∀ a ∈ (TileCmd.ofBits oneElement).addrs, mapped a = true := by decide +kernel

/-- Before the count the tile belongs to court 0. -/
theorem outOfOrder_takes : (outOfOrder.tilesOf 0 ++ (placeTiles outOfOrder 0 (gridTiles oneElement
    (outOfOrder.engine (.court 0)).pos false)).filter (fun x => !outOfOrder.hasDrained 0 x)).map (·.court) = [0] := by decide +kernel

/-- After it court 0 reads as fenced, and the tile runs on court 1. -/
theorem outOfOrder_starts :
    let t := runTiles plainServe 0 (gridTiles oneElement (outOfOrder.engine (.court 0)).pos false)
      (outOfOrder.countInexact oneElement)
    (t.tilesOf 0 ++ t.todoOf 0).map (·.court) = [1] := by decide +kernel

end Sys2Proof.Machine
end

section
/-! PROOFS. MMA, MMA_PAIR and tile drains (O53). -/
namespace Sys2Proof.Machine
open Sys2Proof

/-- Refutes O53: its first clause does not ask for a canonical register table, and on one out of order the count of
CRT_XPOSE_INEXACT that the MMA makes uncovers another CRT_COURT_ONLINE, so that the tile starts on another court than the one
the state before it names. -/
theorem not_tileCommandsComplete : ¬ Obligations.TileCommandsComplete := by
  unfold Obligations.TileCommandsComplete
  rintro ⟨hmma, -⟩
  obtain ⟨t, hexec, -, -, htiles, -⟩ := hmma outOfOrder 0 oneElement plainServe outOfOrder_issued outOfOrder_ready
    oneElement_mapped (fun _ hfirst => absurd (hfirst.symm.trans outOfOrder_unpaired) (Option.some_ne_none _))
  have hrun := exec_mma_alone outOfOrder_issued outOfOrder_ready outOfOrder_unpaired oneElement_mapped
  rw [Host.Outcome.next.inj (hexec.symm.trans hrun), outOfOrder_unpaired, Option.elim_none] at htiles
  have hcourts := congrArg (List.map (fun p : Desc × Nat × Nat × Nat => p.2.2.2)) htiles
  rw [List.map_map, List.map_map] at hcourts
  have heq : [1] = [0] := outOfOrder_starts.symm.trans (hcourts.trans outOfOrder_takes)
  exact absurd heq (by decide)

end Sys2Proof.Machine
end

section
/-! SUPPORT. Vector commands: their reads and counts leave memory and the places of addresses, so that their bytes land where the
state before them says (R132, R502, R560). -/
namespace Sys2Proof.Machine
open Sys2Proof

/-! Charges and counts of bytes read and written. -/

/-- Of the registers, only the memory system's counts and the counters' configurations change. -/
def keepsPlain (s t : State) : Prop := ∀ key, plainKey key → keepsReg key s t

theorem State.traffic_keepsPlain (s : State) (write : Bool) (die unit a n : Nat) : keepsPlain s (s.traffic write die unit a n) := by
  intro key h
  have hcharge : ∀ c : Charges, keepsReg key s (s.addCharge c) := fun c =>
    have : Fact (Part.ump = .ump) := ⟨rfl⟩
    keepsReg_of_regs ((State.addCharge_keeps (M := (· = .ump)) (Keeps.refl s)).parts .regs (by decide))
  unfold State.traffic
  extract_lets event
  split
  · exact keepsReg_trans (hcharge _) (State.countLines_keepsReg _ _ _ _ h)
  · split
    · exact keepsReg_trans (hcharge _) (State.countUnits_keepsReg _ _ _ _ _ _ _ _ h)
    · split
      · exact State.countUnits_keepsReg s _ _ _ _ _ _ _ h
      · exact keepsReg_refl key s

theorem State.readTraffic_keepsPlain (s : State) (die unit : Nat) (runs : List (Nat × Nat)) :
    keepsPlain s (s.readTraffic die unit runs) :=
  fun key h => keepsReg_foldl (fun t _ => State.traffic_keepsPlain t _ _ _ _ _ key h) _ s

/-! Where addresses are served (R502, R560). -/

/-- Addresses are served at the same places, and the same regions of SRAM take bytes. -/
def placesAlike (s t : State) : Prop :=
  (∀ a, t.place a = s.place a) ∧ ∀ a, inSram a = true → t.sramOnline a = s.sramOnline a

theorem crtCourtOnline_plainKey {n : Nat} (h : n < 4) : plainKey (R.crtCourtOnline n) := by
  unfold R.crtCourtOnline
  refine ⟨?_, ?_, fun b i => ?_⟩
  · unfold R.memMismatch
    omega
  · unfold R.memAccViol
    omega
  · unfold R.pmuCfg
    omega

theorem memSramOnline_plainKey {n : Nat} (h : n < 16) : plainKey (R.memSramOnline n) := by
  unfold R.memSramOnline
  refine ⟨?_, ?_, fun b i => ?_⟩
  · unfold R.memMismatch
    omega
  · unfold R.memAccViol
    omega
  · unfold R.pmuCfg
    omega

theorem crtSpill_plainKey : plainKey R.crtSpill := ⟨by decide, by decide, fun b i => by unfold R.crtSpill R.pmuCfg; omega⟩

theorem placesAlike_of_keepsPlain {s t : State} (hw : RegsWf s.regs) (h : keepsPlain s t) : placesAlike s t := by
  have hread : ∀ key, plainKey key → t.regAt key = s.regAt key := fun key hkey => (h key hkey hw).1
  refine ⟨fun a => ?_, fun a ha => ?_⟩
  · have hspill : t.spillArea = s.spillArea := by
      rw [State.spillArea, State.regFld, hread _ crtSpill_plainKey, State.spillArea, State.regFld]
    unfold State.place State.courtOnline
    dsimp only
    rw [hspill]
    cases hin : inCourt a with
    | false => rw [Bool.false_and, Bool.false_and]
    | true =>
      have hcourt : (a - courtBase) / 0x40_0000 / 32 < 4 := by
        simp only [inCourt, Bool.and_eq_true, decide_eq_true_eq] at hin
        omega
      rw [hread _ (crtCourtOnline_plainKey hcourt)]
  · have hdie : (a - sramBase) / sdBytes < 16 := by
      simp only [inSram, Bool.and_eq_true, decide_eq_true_eq] at ha
      unfold sdBytes at ha ⊢
      omega
    unfold State.sramOnline
    dsimp only
    rw [hread _ (memSramOnline_plainKey hdie)]

/-- Bytes written on chip land alike where addresses do. -/
theorem State.putCells_mem {s t : State} (hmem : t.mem = s.mem) (h : placesAlike s t) (cs : List (Nat × Byte)) :
    (t.putCells cs).mem = (s.putCells cs).mem := by
  obtain ⟨hplace, honline⟩ := h
  have hmap : cs.map (fun c => (t.place c.1, c.2)) = cs.map (fun c => (s.place c.1, c.2)) :=
    List.map_congr_left fun c _ => by rw [hplace]
  have hkeep : ∀ c : Nat × Byte, (!inWst c.1 && (!inSram c.1 || t.sramOnline c.1)) =
      (!inWst c.1 && (!inSram c.1 || s.sramOnline c.1)) := fun c => by
    cases hin : inSram c.1 with
    | false => rw [Bool.not_false, Bool.true_or, Bool.true_or]
    | true => rw [honline _ hin]
  unfold State.putCells
  dsimp only
  rw [hmap, hmem]
  simp only [hkeep]

/-! A vector command (R132). -/

/-- A vector command writes its bytes where the state before it says, and its engine moves on. -/
theorem runVec_spec {s : State} (hw : RegsWf s.regs) (w : Work) (e : Nat) (c : VecCmd) (v : VecRow) :
    (runVec s w e c v).mem = (s.putCells v.out.cells).mem ∧
    (runVec s w e c v).engine (.vec e) = { s.engine (.vec e) with pos := (s.engine (.vec e)).pos + 1 } := by
  have : Fact True := ⟨trivial⟩
  unfold runVec
  extract_lets die unit cycles ops reads freed used read written stats converted zero charged nans counted
  have hread : Keeps (fun p => match p with | .free | .regs | .ump | .scb => True | _ => False) used read :=
    State.readTraffic_keeps (Keeps.refl used)
  have hput : (read.putCells v.out.cells).mem = (s.putCells v.out.cells).mem :=
    State.putCells_mem (s := s) (hread.parts .mem not_false)
      (placesAlike_of_keepsPlain hw (State.readTraffic_keepsPlain used die unit reads)) _
  have heng : (read.putCells v.out.cells).eng = s.eng := hread.parts .eng not_false
  have hwritten : Keeps (fun p => match p with | .free | .regs | .ump | .scb => True | _ => False)
      (read.putCells v.out.cells) written := State.cellTraffic_keeps (Keeps.refl _)
  have hconverted : Keeps (fun p => match p with | .free | .regs | .ump | .scb => True | _ => False)
      (read.putCells v.out.cells) converted := Keeps.ite (fun _ => State.addUse_keeps hwritten) (fun _ => hwritten)
  have hcharged : Keeps (fun p => match p with | .free | .regs | .ump | .scb => True | _ => False)
      (read.putCells v.out.cells) charged := State.addCharge_keeps (State.addNans_keeps hconverted)
  have hnans : Keeps (fun p => match p with | .free | .regs | .ump | .scb => True | _ => False)
      (read.putCells v.out.cells) nans :=
    Keeps.ite (fun _ => State.count_keeps (State.bump_keeps hcharged)) (fun _ => hcharged)
  have hlast : Keeps (fun p => match p with | .free | .regs | .ump | .scb => True | _ => False)
      (read.putCells v.out.cells) (counted.count die 1 2 v.transc (counted.workCounted unit)) :=
    State.count_keeps (State.count_keeps (State.count_keeps hnans))
  refine ⟨(State.setEngine_mem _ _ _).trans ((hlast.parts .mem not_false).trans hput), ?_⟩
  rw [State.advance_engine, State.engine_congr ((hlast.parts .eng not_false).trans heng)]

/-- A command whose addresses exist runs. -/
theorem guarded_mapped {addrs : List Nat} (h : ∀ a ∈ addrs, mapped a = true) (s : State) : guarded addrs s = .next s := by
  have hfind : addrs.find? (fun a => !mapped a) = none := List.find?_eq_none.mpr fun a ha => by simp [h a ha]
  unfold guarded
  rw [hfind]

theorem guarded_unmapped {a : Nat} (h : mapped a = false) (addrs : List Nat) (s : State) :
    guarded (a :: addrs) s = .fault (.unmappedAddress a) := by
  have hfind : (a :: addrs).find? (fun a => !mapped a) = some a := by rw [List.find?_cons, h]; rfl
  unfold guarded
  rw [hfind]

section
variable {s : State} {e op : Nat} {cmd : Desc} {w : Work}

/-- What a vector command's obligation asks of it: its bytes written, and its engine moved on. -/
def vecWrites (s : State) (e : Nat) (i : Instr) (o : VecOut) : Prop := Completes i s (fun t => t.mem = (s.putCells o.cells).mem ∧
  t.engine (.vec e) = { s.engine (.vec e) with pos := (s.engine (.vec e)).pos + 1 })

theorem vecStep_writes {i : Instr} {f : Work → VecEnv → VecCmd → VecRow} (hi : exec i s = vecStep e op cmd s f) (hw : RegsWf s.regs)
    (h : s.issued (.vec e) op cmd = some w) (hx : mapped (VecCmd.ofBits cmd).xAddr = true)
    (hz : mapped (VecCmd.ofBits cmd).zAddr = true) :
    vecWrites s e i (f w (vecEnv s w (VecCmd.ofBits cmd)) (VecCmd.ofBits cmd)).out := by
  have hmapped : ∀ a ∈ (VecCmd.ofBits cmd).addrs, mapped a = true := by
    simpa [VecCmd.addrs] using ⟨hx, hz⟩
  refine .of_next (hi.trans ?_) (runVec_spec hw w e (VecCmd.ofBits cmd) _)
  unfold vecStep
  rw [h]
  exact guarded_mapped hmapped _

theorem vecStep_faults {i : Instr} {f : Work → VecEnv → VecCmd → VecRow} (hi : exec i s = vecStep e op cmd s f)
    (h : s.issued (.vec e) op cmd = some w) (hx : mapped (VecCmd.ofBits cmd).xAddr = false) :
    exec i s = .fault (.unmappedAddress (VecCmd.ofBits cmd).xAddr) := by
  refine hi.trans ?_
  unfold vecStep
  rw [h]
  exact guarded_unmapped hx _ _

/-- The row of an OPT in MODE 0 or 1. -/
def optRow (c : VecCmd) (o : OptOut) : VecRow where
  out := o.out
  reads := [(c.yAddr, stateBytes c.mode c.params), (c.auxAddr, 64)]
  converts := o.reason = 0

/-- A group skipped, where it has a reason. -/
def State.noteSkip (s : State) (c : VecCmd) (o : OptOut) : State :=
  if o.reason = 0 then s
  else (s.bump R.vecOptSkipTotal).modWork (fun w => { w with skips := w.skips ++ [(o.reason, c.outTensor, o.skipped)] })

theorem State.noteSkip_frame (s : State) (c : VecCmd) (o : OptOut) : (s.noteSkip c o).mem = s.mem ∧ (s.noteSkip c o).eng = s.eng := by
  have : Fact True := ⟨trivial⟩
  have hk : Keeps (fun p => match p with | .regs | .ump => True | _ => False) s (s.noteSkip c o) :=
    Keeps.ite (fun _ => Keeps.refl s) (fun _ => State.modWork_keeps (State.bump_keeps (Keeps.refl s)))
  exact ⟨hk.parts .mem not_false, hk.parts .eng not_false⟩

theorem opt_writes (hw : RegsWf s.regs) (h : s.issued (.vec e) 0x09 cmd = some w) (hmode : (VecCmd.ofBits cmd).mode ≠ 2)
    (hmapped : ∀ a ∈ (VecCmd.ofBits cmd).addrs ++ [(VecCmd.ofBits cmd).yAddr, (VecCmd.ofBits cmd).auxAddr], mapped a = true) :
    vecWrites s e (.opt e cmd) (vecOpt (vecEnv s w (VecCmd.ofBits cmd)) (VecCmd.ofBits cmd)).out := by
  obtain ⟨o, ho⟩ : ∃ o, o = vecOpt (vecEnv s w (VecCmd.ofBits cmd)) (VecCmd.ofBits cmd) := ⟨_, rfl⟩
  have hexec : exec (.opt e cmd) s =
      .next ((runVec s w e (VecCmd.ofBits cmd) (optRow (VecCmd.ofBits cmd) o)).noteSkip (VecCmd.ofBits cmd) o) := by
    change execOpt e cmd s = _
    unfold execOpt
    rw [h]
    dsimp only
    rw [if_neg hmode, ← ho]
    exact guarded_mapped hmapped _
  obtain ⟨hmem, heng⟩ := State.noteSkip_frame (runVec s w e (VecCmd.ofBits cmd) (optRow (VecCmd.ofBits cmd) o)) (VecCmd.ofBits cmd) o
  obtain ⟨hmem', hengine⟩ := runVec_spec hw w e (VecCmd.ofBits cmd) (optRow (VecCmd.ofBits cmd) o)
  rw [← ho]
  exact .of_next hexec ⟨hmem.trans hmem', (State.engine_congr heng _).trans hengine⟩

theorem scan_writes (hw : RegsWf s.regs) (h : s.issued (.vec e) 0x09 cmd = some w) (hmode : (VecCmd.ofBits cmd).mode = 2)
    (hmapped : ∀ a ∈ [(VecCmd.ofBits cmd).xAddr, (VecCmd.ofBits cmd).auxAddr], mapped a = true) :
    vecWrites s e (.scan e cmd) (vecScan (vecEnv s w (VecCmd.ofBits cmd)) (VecCmd.ofBits cmd)) := by
  refine .of_next ?_ (runVec_spec hw w e (VecCmd.ofBits cmd) {
    out := vecScan (vecEnv s w (VecCmd.ofBits cmd)) (VecCmd.ofBits cmd)
    reads := [((VecCmd.ofBits cmd).auxAddr, 64)]
    converts := false })
  change execScan e cmd s = _
  unfold execScan
  rw [h]
  dsimp only
  rw [if_neg (not_not_intro hmode)]
  exact guarded_mapped hmapped _

end

end Sys2Proof.Machine
end

section
/-! PROOFS. Vector commands (O54). -/
namespace Sys2Proof.Machine
open Sys2Proof

/-- Settles O54: every vector command runs through one row of charges, counts and bytes. -/
theorem vectorCommandsComplete : Obligations.VectorCommandsComplete := by
  unfold Obligations.VectorCommandsComplete
  intro s e cmd w hinv c env writes
  refine ⟨fun hx hz => ⟨?_, ?_, ?_, ?_, ?_, ?_, ?_, ?_, ?_, ?_, ?_⟩, ?_⟩
  · exact fun h => (vecStep_writes (s := s) (op := 0x01) (i := .ew e cmd) (rfl : execEw e cmd s = _) hinv.2 h hx hz :)
  · exact fun h => (vecStep_writes (s := s) (op := 0x02) (i := .red e cmd) (rfl : execRed e cmd s = _) hinv.2 h hx hz :)
  · exact fun h => (vecStep_writes (s := s) (op := 0x03) (i := .softmax e cmd) (rfl : execSoftmax e cmd s = _) hinv.2 h hx hz :)
  · exact fun h => (vecStep_writes (s := s) (op := 0x04) (i := .lnorm e cmd) (rfl : execLnorm e cmd s = _) hinv.2 h hx hz :)
  · exact fun h => (vecStep_writes (s := s) (op := 0x05) (i := .rmsnorm e cmd) (rfl : execRmsnorm e cmd s = _) hinv.2 h hx hz :)
  · exact fun h => (vecStep_writes (s := s) (op := 0x06) (i := .route e cmd) (rfl : execRoute e cmd s = _) hinv.2 h hx hz :)
  · exact fun h => (vecStep_writes (s := s) (op := 0x07) (i := .loss e cmd) (rfl : execLoss e cmd s = _) hinv.2 h hx hz :)
  · exact fun h => (vecStep_writes (s := s) (op := 0x08) (i := .combine e cmd) (rfl : execCombine e cmd s = _) hinv.2 h hx hz :)
  · exact fun h => (vecStep_writes (s := s) (op := 0x0A) (i := .softmaxBwd e cmd) (rfl : execSoftmaxBwd e cmd s = _) hinv.2 h hx hz :)
  · exact fun h => (vecStep_writes (s := s) (op := 0x0B) (i := .normBwd e cmd) (rfl : execNormBwd e cmd s = _) hinv.2 h hx hz :)
  · refine fun h hy haux => ⟨fun hmode => opt_writes hinv.2 h hmode ?_, fun hmode => scan_writes hinv.2 h hmode ?_⟩
    · simpa [VecCmd.addrs] using ⟨hx, hz, hy, haux⟩
    · simpa using ⟨hx, haux⟩
  · intro i op hrow h hx
    have hstep : ∃ f, exec i s = vecStep e op cmd s f := by
      simp only [List.mem_cons, Prod.mk.injEq, List.not_mem_nil, or_false] at hrow
      rcases hrow with ⟨rfl, rfl⟩ | ⟨rfl, rfl⟩ | ⟨rfl, rfl⟩ | ⟨rfl, rfl⟩ | ⟨rfl, rfl⟩ | ⟨rfl, rfl⟩ | ⟨rfl, rfl⟩ | ⟨rfl, rfl⟩ |
        ⟨rfl, rfl⟩ | ⟨rfl, rfl⟩
      · exact ⟨_, (rfl : execEw e cmd s = _)⟩
      · exact ⟨_, (rfl : execRed e cmd s = _)⟩
      · exact ⟨_, (rfl : execSoftmax e cmd s = _)⟩
      · exact ⟨_, (rfl : execLnorm e cmd s = _)⟩
      · exact ⟨_, (rfl : execRmsnorm e cmd s = _)⟩
      · exact ⟨_, (rfl : execRoute e cmd s = _)⟩
      · exact ⟨_, (rfl : execLoss e cmd s = _)⟩
      · exact ⟨_, (rfl : execCombine e cmd s = _)⟩
      · exact ⟨_, (rfl : execSoftmaxBwd e cmd s = _)⟩
      · exact ⟨_, (rfl : execNormBwd e cmd s = _)⟩
    obtain ⟨f, hf⟩ := hstep
    exact vecStep_faults hf h hx

end Sys2Proof.Machine
end

section
/-! SUPPORT. Gather commands: what their reads leave, and that a write on chip changes no byte outside its run (R265 to R267). -/
namespace Sys2Proof.Machine
open Sys2Proof

/-! What a gather command leaves. -/

/-- From the first state to the second the bindings stand and the scrubs, and memory changes only between two addresses. -/
structure GatherFrame (lo hi : Nat) (s t : State) : Prop where
  steps : t.ump.steps = s.ump.steps
  images : t.ump.images = s.ump.images
  lkr : t.lkr = s.lkr
  scrubs : t.mem.scrubs = s.mem.scrubs
  wf : s.mem.cells.wf = true → t.mem.cells.wf = true
  cells : s.mem.cells.wf = true → ∀ a, a < lo ∨ hi ≤ a → t.mem.cells.read a = s.mem.cells.read a

variable {lo hi : Nat} {s t u : State} {w : Work} {e : Nat}

theorem GatherFrame.trans (h : GatherFrame lo hi s t) (k : GatherFrame lo hi t u) : GatherFrame lo hi s u where
  steps := k.steps.trans h.steps
  images := k.images.trans h.images
  lkr := k.lkr.trans h.lkr
  scrubs := k.scrubs.trans h.scrubs
  wf hw := k.wf (h.wf hw)
  cells hw a ha := (k.cells (h.wf hw) a ha).trans (h.cells hw a ha)

/-- Work that memory does not see. -/
theorem GatherFrame.of_mem (hsteps : t.ump.steps = s.ump.steps) (himages : t.ump.images = s.ump.images) (hlkr : t.lkr = s.lkr)
    (hmem : t.mem = s.mem) : GatherFrame lo hi s t where
  steps := hsteps
  images := himages
  lkr := hlkr
  scrubs := congrArg MemState.scrubs hmem
  wf hw := hmem ▸ hw
  cells _ a _ := by rw [hmem]

theorem GatherFrame.of_ump (hump : t.ump = s.ump) (hlkr : t.lkr = s.lkr) (hmem : t.mem = s.mem) : GatherFrame lo hi s t :=
  .of_mem (by rw [hump]) (by rw [hump]) hlkr hmem

theorem GatherFrame.refl (lo hi : Nat) (s : State) : GatherFrame lo hi s s := .of_ump rfl rfl rfl

theorem GatherFrame.foldl {α : Type} {f : State → α → State} (l : List α)
    (hf : ∀ x ∈ l, ∀ t, GatherFrame lo hi s t → GatherFrame lo hi t (f t x)) (h : GatherFrame lo hi s t) :
    GatherFrame lo hi s (l.foldl f t) := by
  induction l generalizing t with
  | nil => exact h
  | cons x l ih => exact ih (fun y hy => hf y (List.mem_cons_of_mem _ hy)) (h.trans (hf x List.mem_cons_self t h))

/-- The same with something gathered beside the state. -/
theorem GatherFrame.foldl_snd {α β : Type} {f : β × State → α → β × State} (l : List α)
    (hf : ∀ x ∈ l, ∀ acc, GatherFrame lo hi s acc.2 → GatherFrame lo hi acc.2 (f acc x).2) {acc : β × State}
    (h : GatherFrame lo hi s acc.2) : GatherFrame lo hi s (l.foldl f acc).2 := by
  induction l generalizing acc with
  | nil => exact h
  | cons x l ih => exact ih (fun y hy => hf y (List.mem_cons_of_mem _ hy)) (h.trans (hf x List.mem_cons_self acc h))

/-- The bindings of the work's programs are those of the steps, the images and the records. -/
theorem GatherFrame.boundPlace (h : GatherFrame lo hi s t) (w : Work) (a : Nat) : t.boundPlace w a = s.boundPlace w a := by
  have hprograms : programsOf t w = programsOf s w := by
    unfold programsOf programAt classRun
    rw [h.steps, h.images]
  unfold State.boundPlace
  rw [hprograms, h.steps, show t.record? = s.record? from funext fun id => by rw [State.record?, h.lkr, State.record?]]

/-! Counts and charges. -/

theorem State.modWork_gatherFrame (s : State) (f : Work → Work) : GatherFrame lo hi s (s.modWork f) := .of_mem rfl rfl rfl rfl

theorem State.count_gatherFrame (s : State) (b cls event n : Nat) (c : Counted) : GatherFrame lo hi s (s.count b cls event n c) :=
  have : Fact True := ⟨trivial⟩
  have hk := State.count_keeps (M := fun p => match p with | .regs | .scb => True | _ => False) (b := b) (cls := cls)
    (event := event) (n := n) (c := c) (Keeps.refl s)
  .of_ump (hk.parts .ump not_false) (hk.parts .lkr not_false) (hk.parts .mem not_false)

theorem State.countUnits_gatherFrame (s : State) (b cls event a n g : Nat) (c : Counted) :
    GatherFrame lo hi s (s.countUnits b cls event a n g c) :=
  have : Fact True := ⟨trivial⟩
  have hk := State.countUnits_keeps (M := fun p => match p with | .regs | .scb => True | _ => False) (b := b) (cls := cls)
    (event := event) (a := a) (n := n) (g := g) (c := c) (Keeps.refl s)
  .of_ump (hk.parts .ump not_false) (hk.parts .lkr not_false) (hk.parts .mem not_false)

theorem State.countLines_gatherFrame (s : State) (event : Nat) (ls : List Nat) (c : Counted) :
    GatherFrame lo hi s (s.countLines event ls c) :=
  have : Fact True := ⟨trivial⟩
  have hk := State.countLines_keeps (M := fun p => match p with | .free | .regs | .scb => True | _ => False) (event := event)
    (ls := ls) (c := c) (Keeps.refl s)
  .of_ump (hk.parts .ump not_false) (hk.parts .lkr not_false) (hk.parts .mem not_false)

theorem State.traffic_gatherFrame (s : State) (write : Bool) (die unit a n : Nat) :
    GatherFrame lo hi s (s.traffic write die unit a n) := by
  have hcharge : ∀ c : Charges, GatherFrame lo hi s (s.addCharge c) := fun c => State.modWork_gatherFrame s _
  unfold State.traffic
  extract_lets event
  split
  · exact (hcharge _).trans (State.countLines_gatherFrame _ _ _ _)
  · split
    · exact (hcharge _).trans (State.countUnits_gatherFrame _ _ _ _ _ _ _ _)
    · split
      · exact State.countUnits_gatherFrame s _ _ _ _ _ _ _
      · exact GatherFrame.refl lo hi s

/-! Reads. -/

/-- With no scrub under way a line of LPDDR5X read changes no byte. -/
theorem readLineFor_gatherFrame (c : Nat) (acc : List (Nat × List Byte) × State) (line : Nat) (h : acc.2.mem.scrubs = []) :
    GatherFrame lo hi acc.2 (readLineFor c acc line).2 := by
  have : Fact True := ⟨trivial⟩
  have hk := readLineFor_keeps (M := fun p => match p with | .lkr => False | _ => True) (c := c) (acc := acc) (line := line)
    (Keeps.refl acc.2)
  have hump : (readLineFor c acc line).2.ump.steps = acc.2.ump.steps ∧ (readLineFor c acc line).2.ump.images = acc.2.ump.images := by
    unfold readLineFor
    dsimp only
    rw [if_neg (by simp [State.scrubbing, h] : ¬acc.2.scrubbing (line / 1024) = true)]
    split
    · have hread := State.readLine_ump acc.2 line
      generalize acc.2.readLine line = r at hread ⊢
      obtain ⟨bs, read⟩ := r
      exact ⟨congrArg UmpState.steps hread, congrArg UmpState.images hread⟩
    · exact ⟨rfl, rfl⟩
  obtain ⟨hsteps, himages⟩ := hump
  exact .of_mem hsteps himages (hk.parts .lkr not_false) (readLineFor_mem c acc line h)

theorem State.lpRead_gatherFrame (s : State) (h : s.mem.scrubs = []) (c a n : Nat) : GatherFrame lo hi s (s.lpRead c a n).2 := by
  unfold State.lpRead
  have hfold := GatherFrame.foldl_snd (lo := lo) (hi := hi) (s := s) (linesOf a n) (f := readLineFor c) (acc := ([], s))
    (fun line _ acc hacc => readLineFor_gatherFrame c acc line (hacc.scrubs.trans h)) (GatherFrame.refl lo hi s)
  generalize (linesOf a n).foldl (readLineFor c) ([], s) = r at hfold ⊢
  obtain ⟨ls, t⟩ := r
  exact hfold

theorem State.devRead_gatherFrame (s : State) (h : s.mem.scrubs = []) (c a n : Nat) : GatherFrame lo hi s (s.devRead c a n).2 := by
  unfold State.devRead
  split
  · exact State.lpRead_gatherFrame s h c a n
  · exact GatherFrame.refl lo hi s

/-- A read gives no more bytes than it asks for. -/
theorem State.devRead_length (s : State) (c a n : Nat) : (s.devRead c a n).1.length ≤ n := by
  unfold State.devRead
  split
  · unfold State.lpRead
    generalize (linesOf a n).foldl (readLineFor c) ([], s) = r
    obtain ⟨ls, t⟩ := r
    exact List.length_take_le _ _
  · exact (List.length_map _).le.trans List.length_range.le

theorem State.gReadAt_spec (s : State) (h : s.mem.scrubs = []) (w : Work) (e a n : Nat) :
    GatherFrame lo hi s (s.gReadAt w e a n).2 ∧ (s.gReadAt w e a n).1.length ≤ n := by
  have hframe := State.devRead_gatherFrame (lo := lo) (hi := hi) s h w.ctx a n
  have hlen := s.devRead_length w.ctx a n
  unfold State.gReadAt
  generalize s.devRead w.ctx a n = r at hframe hlen ⊢
  obtain ⟨bs, t⟩ := r
  exact ⟨hframe.trans (State.traffic_gatherFrame t _ _ _ _ _), hlen⟩

/-- The runs of a page list hold no more bytes than asked for. -/
theorem pageRuns_sum (ps : List Nat) (off n : Nat) : ((pageRuns ps off n).map (·.2)).sum ≤ n := by
  have hfirst : ∀ m, ((List.range m).map (fun i => min (off + n) ((off / pageBytes + i + 1) * pageBytes) -
      max off ((off / pageBytes + i) * pageBytes))).sum ≤ min (off + n) ((off / pageBytes + m) * pageBytes) - off := by
    intro m
    induction m with
    | zero => exact Nat.zero_le _
    | succ m ih =>
      rw [List.range_succ, List.map_append, List.sum_append, List.map_cons, List.map_nil, List.sum_singleton,
        ← Nat.add_assoc (off / pageBytes), Nat.succ_mul (off / pageBytes + m)]
      generalize (off / pageBytes + m) * pageBytes = edge at ih ⊢
      omega
  unfold pageRuns
  split
  · exact Nat.zero_le _
  · rw [List.map_map]
    exact (hfirst _).trans (by omega)

theorem State.gRead_spec (s : State) (h : s.mem.scrubs = []) (w : Work) (e a n : Nat) :
    GatherFrame lo hi s (s.gRead w e a n).2 ∧ (s.gRead w e a n).1.length ≤ n := by
  have hruns : ∀ (rs : List (Nat × Nat)) (acc : List Byte × State), GatherFrame lo hi s acc.2 →
      let r := rs.foldl (fun acc r =>
        let (bs, s) := acc.2.gReadAt w e r.1 r.2
        (acc.1 ++ bs, s)) acc
      GatherFrame lo hi s r.2 ∧ r.1.length ≤ acc.1.length + (rs.map (·.2)).sum := by
    intro rs
    induction rs with
    | nil => exact fun acc hacc => ⟨hacc, Nat.le_refl _⟩
    | cons r rs ih =>
      intro acc hacc
      obtain ⟨hframe, hlen⟩ := State.gReadAt_spec (lo := lo) (hi := hi) acc.2 (hacc.scrubs.trans h) w e r.1 r.2
      obtain ⟨hrest, hlen'⟩ := ih (acc.1 ++ (acc.2.gReadAt w e r.1 r.2).1, (acc.2.gReadAt w e r.1 r.2).2) (hacc.trans hframe)
      refine ⟨hrest, hlen'.trans ?_⟩
      rw [List.length_append, List.map_cons, List.sum_cons]
      omega
  unfold State.gRead
  split
  · exact State.gReadAt_spec s h w e a n
  · exact State.gReadAt_spec s h w e _ n
  · next ps off _ =>
    obtain ⟨hframe, hlen⟩ := hruns (pageRuns ps off n) ([], s) (GatherFrame.refl lo hi s)
    exact ⟨hframe, hlen.trans (by simpa using pageRuns_sum ps off n)⟩
  · exact ⟨GatherFrame.refl lo hi s, by simp⟩
  · exact ⟨GatherFrame.refl lo hi s, by simp⟩

/-! Writes. -/

theorem Memory.read_writeCells_of_ne {m : Memory} (h : m.wf = true) {cs : List (Nat × Byte)} {x : Nat} (hx : ∀ c ∈ cs, c.1 ≠ x) :
    (m.writeCells cs).read x = m.read x := by
  unfold Memory.writeCells
  induction cs generalizing m with
  | nil => rfl
  | cons c cs ih =>
    exact (ih (Memory.wf_write _ _ h) fun d hd => hx d (List.mem_cons_of_mem _ hd)).trans
      (Memory.read_write_ne _ h (hx c List.mem_cons_self).symm)

/-- A write on chip changes no byte outside its run. -/
theorem State.chipWrite_gatherFrame (s : State) {a : Nat} {bs : List Byte} (hlo : lo ≤ a) (hhi : a + bs.length ≤ hi) :
    GatherFrame lo hi s (s.chipWrite a bs) where
  steps := rfl
  images := rfl
  lkr := rfl
  scrubs := rfl
  wf hw := Memory.wf_writeCells _ hw
  cells hw x hx := by
    refine Memory.read_writeCells_of_ne hw fun c hc => ?_
    obtain ⟨p, hp, rfl⟩ := List.mem_map.mp (List.mem_filter.mp hc).1
    have hlt := List.snd_lt_of_mem_zipIdx hp
    dsimp only
    omega

theorem State.gWriteAt_gatherFrame (s : State) {a : Nat} {bs : List Byte} (hchip : inLpddr a = false) (hlo : lo ≤ a)
    (hhi : a + bs.length ≤ hi) (w : Work) (e : Nat) : GatherFrame lo hi s (s.gWriteAt w e a bs) := by
  have hwrite : s.devWrite w.ctx a bs = s.chipWrite a bs := if_neg (by rw [hchip]; decide)
  unfold State.gWriteAt
  rw [hwrite]
  exact (State.chipWrite_gatherFrame s hlo hhi).trans (State.traffic_gatherFrame _ _ _ _ _ _)

/-- A gather command may write `n` bytes on chip at an address: no scrub is under way, and no binding stands there. -/
structure MayGather (s : State) (w : Work) (dst n : Nat) : Prop where
  scrubs : s.mem.scrubs = []
  chip : inLpddr dst = false
  unbound : ∀ a, dst ≤ a → a < dst + max n 1 → s.boundPlace w a = none

variable {dst n : Nat}

theorem MayGather.of_frame (h : MayGather s w dst n) (k : GatherFrame dst (dst + n) s t) : MayGather t w dst n where
  scrubs := k.scrubs.trans h.scrubs
  chip := h.chip
  unbound a hlo hhi := (k.boundPlace w a).trans (h.unbound a hlo hhi)

/-- One of `m` parts of the destination, of `width` bytes each, written. -/
theorem MayGather.gWrite {m width k : Nat} (h : MayGather s w dst (m * width)) (hk : k < m) {bs : List Byte} (hlen : bs.length ≤ width)
    (e : Nat) : GatherFrame dst (dst + m * width) s (s.gWrite w e (dst + k * width) bs) := by
  have hend : k * width + width ≤ m * width := by
    rw [← Nat.succ_mul]
    exact Nat.mul_le_mul_right width hk
  have hin : dst + k * width < dst + max (m * width) 1 := by
    rcases Nat.eq_zero_or_pos width with rfl | hpos
    · simp
    · omega
  have hchip : inLpddr (dst + k * width) = false := by
    have := h.chip
    unfold inLpddr at this ⊢
    simp only [decide_eq_false_iff_not] at this ⊢
    omega
  unfold State.gWrite
  rw [h.unbound _ (Nat.le_add_right _ _) hin]
  exact State.gWriteAt_gatherFrame s hchip (Nat.le_add_right _ _) (by omega) w e

theorem State.gMoved_gatherFrame (s : State) (e n : Nat) : GatherFrame lo hi s (s.gMoved e n) :=
  State.count_gatherFrame s _ _ _ _ _

/-! COPY and LIST_COPY (R265). -/

theorem copyRun_gatherFrame {m width k : Nat} (h : MayGather s w dst (m * width)) (hk : k < m) (src : Nat) :
    GatherFrame dst (dst + m * width) s (copyRun w e s src (dst + k * width) width) := by
  obtain ⟨hread, hlen⟩ := State.gRead_spec (lo := dst) (hi := dst + m * width) s h.scrubs w e src width
  unfold copyRun
  generalize s.gRead w e src width = r at hread hlen ⊢
  obtain ⟨bs, t⟩ := r
  exact (hread.trans ((h.of_frame hread).gWrite hk hlen e)).trans (State.gMoved_gatherFrame _ _ _)

/-- There are no more 32-bit words than the bytes hold. -/
theorem wordsOf_length {bs : List Byte} {n : Nat} (h : bs.length ≤ 4 * n) : (wordsOf bs).length ≤ n := by
  rw [wordsOf, List.length_map, List.length_range]
  omega

/-- LIST_COPY copies a run for each listed place. -/
def listCopied (s : State) (w : Work) (e : Nat) (c : GatherCmd) : State :=
  ((wordsOf (s.gRead w e c.list (4 * c.count)).1).zipIdx).foldl
    (fun s p => copyRun w e s (c.src + p.1 * c.unit) (c.dst + p.2 * c.unit) c.unit) (s.gRead w e c.list (4 * c.count)).2

theorem listCopied_gatherFrame {c : GatherCmd} (h : MayGather s w c.dst (c.count * c.unit)) :
    GatherFrame c.dst (c.dst + c.count * c.unit) s (listCopied s w e c) := by
  obtain ⟨hread, hlen⟩ := State.gRead_spec (lo := c.dst) (hi := c.dst + c.count * c.unit) s h.scrubs w e c.list (4 * c.count)
  refine GatherFrame.foldl _ (fun p hp t ht => ?_) hread
  exact copyRun_gatherFrame (h.of_frame ht) ((List.snd_lt_of_mem_zipIdx hp).trans_le (wordsOf_length hlen)) _

end Sys2Proof.Machine
end

section
/-! SUPPORT. Embedding bags and their gradient: rows read, one row of the destination written for each bag or table row (R266,
R267). -/
namespace Sys2Proof.Machine
open Sys2Proof

variable {lo hi : Nat} {s t : State} {w : Work} {e : Nat} {c : GatherCmd}

/-- A read that is taken or left out. -/
theorem ite_gRead_gatherFrame (h : s.mem.scrubs = []) (b : Prop) [Decidable b] (a n : Nat) :
    GatherFrame lo hi s (if b then s.gRead w e a n else ([], s)).2 := by
  split
  · exact (State.gRead_spec s h w e a n).1
  · exact GatherFrame.refl lo hi s

theorem readLookups_gatherFrame (h : s.mem.scrubs = []) (first last : Nat) :
    GatherFrame lo hi s (readLookups w e c s first last).2 := by
  unfold readLookups
  refine GatherFrame.foldl_snd _ (fun j _ acc hacc => ?_) (GatherFrame.refl lo hi s)
  have hidle := hacc.scrubs.trans h
  obtain ⟨hindex, -⟩ := State.gRead_spec (lo := lo) (hi := hi) acc.2 hidle w e (c.list + 4 * (first + j)) 4
  generalize acc.2.gRead w e (c.list + 4 * (first + j)) 4 = r at hindex ⊢
  obtain ⟨ib, t⟩ := r
  have hweight := ite_gRead_gatherFrame (lo := lo) (hi := hi) (s := t) (w := w) (e := e) (hindex.scrubs.trans hidle)
    (c.weighted = true) (c.wgt + 4 * (first + j)) 4
  dsimp only
  generalize (if c.weighted = true then t.gRead w e (c.wgt + 4 * (first + j)) 4 else ([], t)) = r at hweight ⊢
  obtain ⟨wb, u⟩ := r
  have hrow := ite_gRead_gatherFrame (lo := lo) (hi := hi) (s := u) (w := w) (e := e)
    ((hindex.trans hweight).scrubs.trans hidle) (ofBytes ib < c.tableRows) (c.src + c.stride * ofBytes ib) (c.fmt.rowBytes c.unit)
  dsimp only
  generalize (if ofBytes ib < c.tableRows then u.gRead w e (c.src + c.stride * ofBytes ib) (c.fmt.rowBytes c.unit) else ([], u)) = r
    at hrow ⊢
  obtain ⟨rb, v⟩ := r
  exact (hindex.trans hweight).trans hrow

theorem readOffs_gatherFrame (h : s.mem.scrubs = []) : GatherFrame lo hi s (readOffs w e c s).2 := by
  have hread := (State.gRead_spec (lo := lo) (hi := hi) s h w e c.offs (4 * (c.count + 1))).1
  unfold readOffs
  generalize s.gRead w e c.offs (4 * (c.count + 1)) = r at hread ⊢
  obtain ⟨bs, t⟩ := r
  exact hread

theorem rowBytesOf_length (t : TensorEntry) (x : Int) (seed : Nat) (index : Nat → Nat) (rowLen : Nat) (xs : List F32) :
    (rowBytesOf t x seed index rowLen xs).1.length = t.fmt.rowBytes rowLen := Memory.readBytes_length _ _ _

theorem State.addUse_gatherFrame (s : State) (w : Work) (i n : Nat) (st : ConvStats) : GatherFrame lo hi s (s.addUse w i n st) := by
  unfold State.addUse
  dsimp only
  split
  · exact GatherFrame.refl lo hi s
  · exact State.modWork_gatherFrame s _

/-! EMBAG (R266). -/

/-- The bytes of a row of a command's output. -/
def outRow (s : State) (w : Work) (c : GatherCmd) : Nat := (tensorAt s w.imgSlot c.outTensor).fmt.rowBytes c.unit

theorem GatherFrame.outRow (h : GatherFrame lo hi s t) : outRow t w c = outRow s w c := by
  unfold Machine.outRow tensorAt
  rw [h.images]

theorem runBag_gatherFrame (h : MayGather s w c.dst (c.count * outRow s w c)) (offs : List Nat) {b : Nat} (hb : b < c.count) :
    GatherFrame c.dst (c.dst + c.count * outRow s w c) s (runBag w e c offs s b) := by
  have hlookups := readLookups_gatherFrame (lo := c.dst) (hi := c.dst + c.count * outRow s w c) (w := w) (e := e) (c := c) h.scrubs
    (offs.getD b 0) (offs.getD (b + 1) 0)
  unfold runBag
  generalize readLookups w e c s (offs.getD b 0) (offs.getD (b + 1) 0) = r at hlookups ⊢
  obtain ⟨ls, t⟩ := r
  dsimp -zeta only at hlookups ⊢
  extract_lets bad xs entry used
  have hlen := rowBytesOf_length entry (t.outExp w c.outTensor) w.seed ((partOf (partsOf t w) c.outTensor c.dst c.unit).index b)
    c.unit xs
  have hbumped : GatherFrame c.dst (c.dst + c.count * outRow s w c) t (t.bump R.lkrIdxFault bad) := .of_ump rfl rfl rfl
  have hused : GatherFrame c.dst (c.dst + c.count * outRow s w c) s used :=
    hlookups.trans ((hbumped.trans (State.modWork_gatherFrame _ _)).trans (State.addUse_gatherFrame _ _ _ _ _))
  have hwidth : entry.fmt.rowBytes c.unit = outRow s w c := hlookups.outRow
  rw [hwidth] at hlen ⊢
  exact (hused.trans ((h.of_frame hused).gWrite hb hlen.le e)).trans (State.gMoved_gatherFrame _ _ _)

/-- EMBAG runs each bag. -/
def bagsRun (s : State) (w : Work) (e : Nat) (c : GatherCmd) : State :=
  if c.count = 0 then s
  else (List.range c.count).foldl (runBag w e c (readOffs w e c s).1) (readOffs w e c s).2

theorem bagsRun_gatherFrame (h : MayGather s w c.dst (c.count * outRow s w c)) :
    GatherFrame c.dst (c.dst + c.count * outRow s w c) s (bagsRun s w e c) := by
  unfold bagsRun
  split
  · exact GatherFrame.refl _ _ s
  · refine GatherFrame.foldl _ (fun b hb t ht => ?_) (readOffs_gatherFrame h.scrubs)
    rw [← ht.outRow]
    exact runBag_gatherFrame (by rw [ht.outRow]; exact h.of_frame ht) _ (List.mem_range.mp hb)

/-! EMBAG_BWD (R267). -/

theorem readContribs_gatherFrame (offs : List Nat) (acc : List (Nat × List F32) × State) (h : acc.2.mem.scrubs = []) (b : Nat) :
    GatherFrame lo hi acc.2 (readContribs w e c offs acc b).2 := by
  have hgrad := (State.gRead_spec (lo := lo) (hi := hi) acc.2 h w e (c.src + c.stride * b) (c.fmt.rowBytes c.unit)).1
  unfold readContribs
  generalize acc.2.gRead w e (c.src + c.stride * b) (c.fmt.rowBytes c.unit) = r at hgrad ⊢
  obtain ⟨gb, t⟩ := r
  dsimp only at hgrad ⊢
  have hlookups := readLookups_gatherFrame (lo := lo) (hi := hi) (w := w) (e := e) (c := { c with tableRows := 0 })
    (hgrad.scrubs.trans h) (offs.getD b 0) (offs.getD (b + 1) 0)
  generalize readLookups w e { c with tableRows := 0 } t (offs.getD b 0) (offs.getD (b + 1) 0) = q at hlookups ⊢
  obtain ⟨ls, u⟩ := q
  exact hgrad.trans hlookups

/-- A row of the gradient is FP32. -/
theorem fp32_rowBytes (entry : TensorEntry) (n : Nat) : ({ entry with fmtCode := 0 } : TensorEntry).fmt.rowBytes n = 4 * n := by
  change ceilDiv (n * 32) 8 = 4 * n
  unfold ceilDiv
  omega

theorem writeGrad_gatherFrame (h : MayGather s w c.dst (c.tableRows * (4 * c.unit))) (cs : List (Nat × List F32)) {k : Nat}
    (hk : k < c.tableRows) : GatherFrame c.dst (c.dst + c.tableRows * (4 * c.unit)) s (writeGrad w e c cs s k) := by
  unfold writeGrad
  extract_lets xs entry
  have hlen := (rowBytesOf_length { entry with fmtCode := 0 } (s.outExp w c.outTensor) w.seed
    ((partOf (partsOf s w) c.outTensor c.dst c.unit).index k) c.unit xs).trans (fp32_rowBytes entry c.unit)
  generalize rowBytesOf { entry with fmtCode := 0 } (s.outExp w c.outTensor) w.seed
    ((partOf (partsOf s w) c.outTensor c.dst c.unit).index k) c.unit xs = q at hlen ⊢
  obtain ⟨bs, st⟩ := q
  have hused : GatherFrame c.dst (c.dst + c.tableRows * (4 * c.unit)) s (s.addUse w c.outTensor c.unit st) :=
    State.addUse_gatherFrame s _ _ _ _
  dsimp only at hlen ⊢
  rw [Nat.mul_comm (4 * c.unit) k]
  exact hused.trans ((h.of_frame hused).gWrite hk hlen.le e)

/-- The contributions of all bags, and the state after reading them. -/
def contribsRead (s : State) (w : Work) (e : Nat) (c : GatherCmd) : List (Nat × List F32) × State :=
  let r := (List.range c.count).foldl (readContribs w e c (readOffs w e c s).1) ([], (readOffs w e c s).2)
  (r.1, { r.2 with freeCtr := r.2.freeCtr + (readOffs w e c s).1.getLastD 0 * c.unit })

/-- EMBAG_BWD writes each row of the table gradient. -/
def gradsWritten (s : State) (w : Work) (e : Nat) (c : GatherCmd) : State :=
  if c.count = 0 then s
  else ((List.range c.tableRows).foldl (writeGrad w e c (contribsRead s w e c).1) (contribsRead s w e c).2).gMoved e
    (4 * c.unit * c.tableRows)

theorem gradsWritten_gatherFrame (h : MayGather s w c.dst (c.tableRows * (4 * c.unit))) :
    GatherFrame c.dst (c.dst + c.tableRows * (4 * c.unit)) s (gradsWritten s w e c) := by
  unfold gradsWritten
  split
  · exact GatherFrame.refl _ _ s
  · have hoffs : GatherFrame c.dst (c.dst + c.tableRows * (4 * c.unit)) s (readOffs w e c s).2 := readOffs_gatherFrame h.scrubs
    have hcontribs : GatherFrame c.dst (c.dst + c.tableRows * (4 * c.unit)) s
        ((List.range c.count).foldl (readContribs w e c (readOffs w e c s).1) ([], (readOffs w e c s).2)).2 :=
      GatherFrame.foldl_snd _ (fun b _ acc hacc => readContribs_gatherFrame _ acc (hacc.scrubs.trans h.scrubs) b) hoffs
    have hread : GatherFrame c.dst (c.dst + c.tableRows * (4 * c.unit)) s (contribsRead s w e c).2 :=
      hcontribs.trans (.of_ump rfl rfl rfl)
    refine (GatherFrame.foldl _ (fun k hk t ht => ?_) hread).trans (State.gMoved_gatherFrame _ _ _)
    exact writeGrad_gatherFrame (h.of_frame ht) _ (List.mem_range.mp hk)

end Sys2Proof.Machine
end

section
/-! SUPPORT. Gather commands as outcomes, and the bytes that a COPY within SRAM places (R264, R265, R502). -/
namespace Sys2Proof.Machine
open Sys2Proof

variable {s : State} {w : Work} {e op : Nat} {cmd : Desc} {i : Instr} {f : Work → GatherCmd → State}

/-- A gather command that runs: its engine moves on, and on chip only its destination changes. -/
theorem gatherStep_runs {n : Nat} (hi : exec i s = gatherStep e op cmd s f) (hinv : s.Inv) (h : s.issued (.gather e) op cmd = some w)
    (hmapped : ∀ a ∈ [(GatherCmd.ofBits cmd).src, (GatherCmd.ofBits cmd).dst], mapped a = true)
    (heng : (f w (GatherCmd.ofBits cmd)).eng = s.eng)
    (hframe : MayGather s w (GatherCmd.ofBits cmd).dst n →
      GatherFrame (GatherCmd.ofBits cmd).dst ((GatherCmd.ofBits cmd).dst + n) s (f w (GatherCmd.ofBits cmd))) :
    Completes i s (fun t => t.engine (.gather e) = { s.engine (.gather e) with pos := (s.engine (.gather e)).pos + 1 } ∧
      (s.mem.scrubs = [] → inLpddr (GatherCmd.ofBits cmd).dst = false →
        (∀ a, (GatherCmd.ofBits cmd).dst ≤ a → a < (GatherCmd.ofBits cmd).dst + max n 1 → (s.boundPlace w a).isNone) →
        ∀ a, a < (GatherCmd.ofBits cmd).dst ∨ (GatherCmd.ofBits cmd).dst + n ≤ a →
          t.mem.cells.read a = s.mem.cells.read a)) := by
  refine .of_next (t := (f w (GatherCmd.ofBits cmd)).advance (.gather e)) (hi.trans ?_) ⟨?_, fun hidle hchip hfree a ha => ?_⟩
  · unfold gatherStep
    rw [h]
    exact guarded_mapped hmapped _
  · rw [State.advance_engine, State.engine_congr heng]
  · rw [State.advance_mem]
    exact (hframe ⟨hidle, hchip, fun a hlo hhi => Option.isNone_iff_eq_none.mp (hfree a hlo hhi)⟩).cells hinv.1 a ha

theorem gatherStep_faults (hi : exec i s = gatherStep e op cmd s f) (h : s.issued (.gather e) op cmd = some w)
    (hsrc : mapped (GatherCmd.ofBits cmd).src = false) :
    exec i s = .fault (.unmappedAddress (GatherCmd.ofBits cmd).src) := by
  refine hi.trans ?_
  unfold gatherStep
  rw [h]
  exact guarded_unmapped hsrc _ _

/-! Engines stand while a command runs. -/

theorem copyRun_eng (w : Work) (e : Nat) (s : State) (src dst n : Nat) : (copyRun w e s src dst n).eng = s.eng :=
  have : Fact True := ⟨trivial⟩
  (copyRun_keeps (M := fun p => match p with | .eng => False | _ => True) (Keeps.refl s)).parts .eng not_false

theorem listCopied_eng (s : State) (w : Work) (e : Nat) (c : GatherCmd) : (listCopied s w e c).eng = s.eng := by
  have : Fact True := ⟨trivial⟩
  have hread : Keeps (fun p => match p with | .eng => False | _ => True) s (s.gRead w e c.list (4 * c.count)).2 :=
    State.gRead_keeps (Keeps.refl s)
  have hcopied : Keeps (fun p => match p with | .eng => False | _ => True) s (listCopied s w e c) :=
    Keeps.foldl hread fun _ _ hk => copyRun_keeps hk
  exact hcopied.parts .eng not_false

theorem bagsRun_eng (s : State) (w : Work) (e : Nat) (c : GatherCmd) : (bagsRun s w e c).eng = s.eng := by
  have : Fact True := ⟨trivial⟩
  have hrun : Keeps (fun p => match p with | .eng => False | _ => True) s (bagsRun s w e c) :=
    Keeps.ite (fun _ => Keeps.refl s) fun _ => Keeps.foldl (readOffs_keeps (Keeps.refl s)) fun _ _ hk => runBag_keeps hk
  exact hrun.parts .eng not_false

theorem gradsWritten_eng (s : State) (w : Work) (e : Nat) (c : GatherCmd) : (gradsWritten s w e c).eng = s.eng := by
  have : Fact True := ⟨trivial⟩
  unfold gradsWritten
  split
  · rfl
  · have hcontribs : Keeps (fun p => match p with | .eng => False | _ => True) s
        ((List.range c.count).foldl (readContribs w e c (readOffs w e c s).1) ([], (readOffs w e c s).2)).2 :=
      Keeps.foldlSnd (readOffs_keeps (Keeps.refl s)) fun _ _ hk => readContribs_keeps hk
    have heng : (contribsRead s w e c).2.eng = s.eng := hcontribs.parts .eng not_false
    have hgrads : Keeps (fun p => match p with | .eng => False | _ => True) (contribsRead s w e c).2
        (((List.range c.tableRows).foldl (writeGrad w e c (contribsRead s w e c).1) (contribsRead s w e c).2).gMoved e
          (4 * c.unit * c.tableRows)) :=
      State.gMoved_keeps (Keeps.foldl (Keeps.refl _) fun _ _ hk => writeGrad_keeps hk)
    exact (hgrads.parts .eng not_false).trans heng

/-! A COPY within SRAM (R265, R502). -/

theorem Memory.writeCells_zipIdx (m : Memory) (a k : Nat) (bs : List Byte) :
    m.writeCells ((bs.zipIdx k).map (fun p => (a + p.2, p.1))) = m.writeBytes (a + k) bs := by
  induction bs generalizing m k with
  | nil => rfl
  | cons b bs ih => exact ih (m.write (a + k) b) (k + 1)

/-- Bytes written to online SRAM are read there. -/
theorem State.chipWrite_read {s : State} (hw : s.mem.cells.wf = true) {a : Nat} {bs : List Byte}
    (hin : ∀ j < bs.length, inSram (a + j) = true ∧ s.sramOnline (a + j) = true) {j : Nat} (hj : j < bs.length) :
    (s.chipWrite a bs).mem.cells.read (a + j) = bs[j] := by
  have hkeep : (bs.zipIdx.map (fun p => (a + p.2, p.1))).filter (fun c => !inWst c.1 && (!inSram c.1 || s.sramOnline c.1)) =
      bs.zipIdx.map (fun p => (a + p.2, p.1)) := by
    refine List.filter_eq_self.mpr fun c hc => ?_
    obtain ⟨p, hp, rfl⟩ := List.mem_map.mp hc
    obtain ⟨hsram, honline⟩ := hin p.2 (List.snd_lt_of_mem_zipIdx hp)
    have hwst : inWst (a + p.2) = false := by
      unfold inSram sramBase sdBytes at hsram
      unfold inWst wstBase
      simp only [Bool.and_eq_true, decide_eq_true_eq] at hsram
      simp only [Bool.and_eq_false_iff, decide_eq_false_iff_not]
      omega
    dsimp only
    rw [hwst, honline, Bool.or_true, Bool.not_false, Bool.true_and]
  have hcells : (s.chipWrite a bs).mem.cells = s.mem.cells.writeBytes a bs := by
    unfold State.chipWrite
    dsimp only
    rw [hkeep]
    exact Memory.writeCells_zipIdx s.mem.cells a 0 bs
  rw [hcells, Memory.read_writeBytes hw, if_pos (Nat.le_add_right a j), Nat.add_sub_cancel_left, List.getElem?_eq_getElem hj,
    Option.getD_some]

/-- A run copied from on chip to online SRAM, neither bound, is there. -/
theorem copyRun_places (hinv : s.Inv) {src dst n : Nat} (hsrc : inLpddr src = false) (hsrcFree : s.boundPlace w src = none)
    (hdstFree : s.boundPlace w dst = none) (hin : ∀ j < n, inSram (dst + j) = true ∧ s.sramOnline (dst + j) = true) {j : Nat}
    (hj : j < n) : (copyRun w e s src dst n).mem.cells.read (dst + j) = s.chipByte (src + j) := by
  have hread : s.gRead w e src n = (s.chipRead src n, s.traffic false (e / 2) 8 src n) := by
    unfold State.gRead
    rw [hsrcFree]
    dsimp only
    unfold State.gReadAt State.devRead
    rw [if_neg (by rw [hsrc]; decide)]
  have hframe : GatherFrame 0 0 s (s.traffic false (e / 2) 8 src n) := State.traffic_gatherFrame s _ _ _ _ _
  have hmem : (s.traffic false (e / 2) 8 src n).mem = s.mem :=
    have : Fact True := ⟨trivial⟩
    (State.traffic_keeps (M := fun p => match p with | .free | .regs | .ump | .scb => True | _ => False) (Keeps.refl s)).parts .mem
      not_false
  obtain ⟨-, honline⟩ := placesAlike_of_keepsPlain hinv.2 (State.traffic_keepsPlain s false (e / 2) 8 src n)
  unfold copyRun
  rw [hread]
  dsimp only
  generalize s.traffic false (e / 2) 8 src n = u at hframe hmem honline ⊢
  have hdst : inLpddr dst = false := by
    have hsram := (hin 0 (Nat.zero_lt_of_lt hj)).1
    unfold inSram sramBase at hsram
    unfold inLpddr
    simp only [Bool.and_eq_true, decide_eq_true_eq] at hsram
    simp only [decide_eq_false_iff_not]
    unfold lpddrBytes
    omega
  have hwrite : u.gWrite w e dst (s.chipRead src n) = (u.chipWrite dst (s.chipRead src n)).traffic true (e / 2) 8 dst
      (s.chipRead src n).length := by
    unfold State.gWrite
    rw [hframe.boundPlace, hdstFree]
    dsimp only
    unfold State.gWriteAt State.devWrite
    rw [if_neg (by rw [hdst]; decide)]
  have hlen : (s.chipRead src n).length = n := by simp [State.chipRead]
  have hafter : Keeps (fun p => match p with | .free | .regs | .ump | .scb => True | _ => False)
      (u.chipWrite dst (s.chipRead src n)) ((u.gWrite w e dst (s.chipRead src n)).gMoved e n) := by
    have : Fact True := ⟨trivial⟩
    rw [hwrite]
    exact State.gMoved_keeps (State.traffic_keeps (Keeps.refl _))
  have hbyte := State.chipWrite_read (s := u) (a := dst) (bs := s.chipRead src n) (by rw [hmem]; exact hinv.1)
    (fun k hk => ⟨(hin k (hlen ▸ hk)).1, (honline _ (hin k (hlen ▸ hk)).1).trans (hin k (hlen ▸ hk)).2⟩) (hlen.symm ▸ hj)
  rw [hafter.parts .mem not_false, hbyte]
  simp [State.chipRead]

end Sys2Proof.Machine
end

section
/-! PROOFS. Gather commands (O55). -/
namespace Sys2Proof.Machine
open Sys2Proof

/-- Settles O55: reads change no byte with no scrub under way, and each command writes the parts of its destination. -/
theorem gatherCommandsComplete : Obligations.GatherCommandsComplete := by
  unfold Obligations.GatherCommandsComplete
  intro s e cmd w hinv c runs
  refine ⟨fun hsrc hdst => ?_, ?_⟩
  · have hmapped : ∀ a ∈ [c.src, c.dst], mapped a = true := by simpa using ⟨hsrc, hdst⟩
    refine ⟨fun h => ⟨?_, ?_⟩, fun h => ?_, fun h => ?_, fun h => ?_⟩
    · refine gatherStep_runs (rfl : execCopy e cmd s = _) hinv h hmapped (copyRun_eng w e s _ _ _) fun hmay => ?_
      have hone : MayGather s w c.dst (1 * (256 * c.count)) := by rwa [Nat.one_mul]
      simpa using copyRun_gatherFrame (e := e) hone Nat.one_pos c.src
    · intro hchip hsrcFree hdstFree hin
      refine .of_next (t := (copyRun w e s c.src c.dst (256 * c.count)).advance (.gather e)) ?_ fun j hj => ?_
      · change execCopy e cmd s = _
        unfold execCopy gatherStep
        rw [h]
        exact guarded_mapped hmapped _
      · rw [State.advance_mem]
        exact copyRun_places hinv hchip (Option.isNone_iff_eq_none.mp hsrcFree) (Option.isNone_iff_eq_none.mp hdstFree) hin hj
    · exact gatherStep_runs (f := fun w c => listCopied s w e c) (rfl : execListCopy e cmd s = _) hinv h hmapped
        (listCopied_eng s w e c) listCopied_gatherFrame
    · exact gatherStep_runs (f := fun w c => bagsRun s w e c) (rfl : execEmbag e cmd s = _) hinv h hmapped
        (bagsRun_eng s w e c) bagsRun_gatherFrame
    · refine gatherStep_runs (f := fun w c => gradsWritten s w e c) (rfl : execEmbagBwd e cmd s = _) hinv h hmapped
        (gradsWritten_eng s w e c) fun hmay => ?_
      rw [Nat.mul_comm (4 * c.unit)] at hmay ⊢
      exact gradsWritten_gatherFrame hmay
  · intro i op hrow h hsrc
    have hstep : ∃ f, exec i s = gatherStep e op cmd s f := by
      simp only [List.mem_cons, Prod.mk.injEq, List.not_mem_nil, or_false] at hrow
      rcases hrow with ⟨rfl, rfl⟩ | ⟨rfl, rfl⟩ | ⟨rfl, rfl⟩ | ⟨rfl, rfl⟩
      · exact ⟨_, (rfl : execCopy e cmd s = _)⟩
      · exact ⟨_, (rfl : execListCopy e cmd s = _)⟩
      · exact ⟨_, (rfl : execEmbag e cmd s = _)⟩
      · exact ⟨_, (rfl : execEmbagBwd e cmd s = _)⟩
    obtain ⟨f, hf⟩ := hstep
    exact gatherStep_faults hf h hsrc

end Sys2Proof.Machine
end

section
/-! SUPPORT. A channel command that meets a run of another command (R410, R416). A run that has begun before its command is
issued keeps the command it began with, and the chunks go by that one: where it is a WIRE 2 reduction that overflows, the work
stops, whatever WIRE the command issued has. -/
namespace Sys2Proof.Machine
open Sys2Proof

/-- The state in which a reduction has been issued. -/
def State.reductionIssued (s : State) (w : Work) (ch : Nat) (cmd : Desc) : State :=
  ((s.openRun ch (issueNo s w ch) cmd).modRun ch (issueNo s w ch) (fun r => { r with issued := true })).advance (.channel ch)

/-- An ALLREDUCE of some elements is issued, and moves its chunks. -/
theorem exec_allreduce_issued {s : State} {ch : Nat} {cmd : Desc} {w : Work} (h : s.issued (.channel ch) 1 cmd = some w)
    (haddrs : ∀ a ∈ [(ChanCmd.ofBits cmd).src, (ChanCmd.ofBits cmd).dst, (ChanCmd.ofBits cmd).recv], mapped a = true)
    (hcount : (ChanCmd.ofBits cmd).count ≠ 0) : exec (.allreduce ch cmd) s =
      .next ((tryChunks w ch (issueNo s w ch) (ChanCmd.ofBits cmd) (s.reductionIssued w ch cmd)).checkRun w ch (issueNo s w ch)) := by
  change execAllreduce ch cmd s = _
  unfold execAllreduce issueChan
  rw [h]
  dsimp only
  rw [if_neg hcount]
  exact guarded_mapped haddrs _

/-- An ALLREDUCE of one FP32 element with a WIRE code, at addresses of SRAM. -/
def sumWord (wire : Nat) : Desc := layout 512 [(0, 0, 8, 1), (1, 2, 2, wire), (4, 0, 32, 1), (16, 0, 48, sdAddr 0 0),
  (24, 0, 48, sdAddr 0 0), (32, 0, 48, sdAddr 0 0)]

/-- A class that sends the sum on channel 64 with WIRE 0. -/
def sumClass : ServeClass :=
  ⟨1000, ⟨1, 1, 32, 1, 64, 16, 0, 8, 0, 0, 5⟩, ⟨1, 1, 32, 8, 4, 1⟩, [], .empty, [],
    some ⟨100, [], [⟨64, 31, [sumWord 0]⟩]⟩⟩

/-- Rank 1 of a group of two, in a group step that runs this class: the run of the sum has begun with WIRE 2, and the element is
2 to the 127th. -/
def crossedRun : State :=
  let s : State := { State.reset with
    ump := { State.reset.ump with
      images := [(0, ⟨9, 77, false, none, 4, [sumClass], [], []⟩)]
      work := some plainServe }
    rdc := { State.reset.rdc with
      chans := [.start 64 0 (sumWord 2)]
      step := some ⟨3, 0, true, true, 0, 5, 100, [], .zero, false, [], false, none, 0, false, false⟩ }
    mem := { State.reset.mem with cells := [(sdAddr 0 3, 0x7F)] } }
  (s.setFld R.mglCtl 0 12 1).setFld R.rdcGrpA 16 13 2

theorem crossedRun_issued : crossedRun.issued (.channel 64) 1 (sumWord 0) = some plainServe := by decide +kernel

theorem sumWord_mapped : ∀ a ∈ [(ChanCmd.ofBits (sumWord 0)).src, (ChanCmd.ofBits (sumWord 0)).dst,
    (ChanCmd.ofBits (sumWord 0)).recv], mapped a = true := by decide +kernel

theorem sumWord_wire : (ChanCmd.ofBits (sumWord 0)).wire ≠ 2 := by decide +kernel

theorem sumWord_count : (ChanCmd.ofBits (sumWord 0)).count ≠ 0 := by decide +kernel

/-- The overflow of the run's WIRE 2 stops the work. -/
theorem crossedRun_stops : ((tryChunks plainServe 64 (issueNo crossedRun plainServe 64) (ChanCmd.ofBits (sumWord 0))
    (crossedRun.reductionIssued plainServe 64 (sumWord 0))).checkRun plainServe 64 (issueNo crossedRun plainServe 64)).ump.work.map
      (fun w : Work => w.did) = none := by decide +kernel

end Sys2Proof.Machine
end

section
/-! PROOFS. Channel commands (O56). -/
namespace Sys2Proof.Machine
open Sys2Proof

/-- Refutes O56: an ALLREDUCE with WIRE 0 whose run had begun with another command, a WIRE 2 reduction that overflows, stops its
work by it, and the statement does not ask that a run there is of the command. -/
theorem not_channelCommandsComplete : ¬ Obligations.ChannelCommandsComplete := by
  unfold Obligations.ChannelCommandsComplete
  intro h
  obtain ⟨hissue, -⟩ := h crossedRun 64 (sumWord 0) plainServe
  obtain ⟨hallreduce, -⟩ := hissue sumWord_mapped
  obtain ⟨t, hexec, -, -, hwork⟩ := (hallreduce crossedRun_issued).1 sumWord_wire
  have hrun := exec_allreduce_issued crossedRun_issued sumWord_mapped sumWord_count
  rw [Host.Outcome.next.inj (hexec.symm.trans hrun), crossedRun_stops] at hwork
  exact absurd hwork.symm (Option.some_ne_none _)

end Sys2Proof.Machine
end

section
/-! SUPPORT. What the commands of a channel leave of its runs and of the packets received (R410 to R416, R430 to R432). -/
namespace Sys2Proof.Machine
open Sys2Proof

/-! Runs that stand. -/

/-- What a run has met so far: its command, the contributions, the counts and the rows. -/
def ChanRun.met (r : ChanRun) : Desc × List (Nat × Nat) × List Nat × List RowNote := (r.cmd, r.up, r.counts, r.rows)

/-- From the first state to the second no packet received goes, and a channel's n-th run keeps what it has met. -/
structure RunFrame (ch n : Nat) (s t : State) : Prop where
  inbox : s.mgl.inbox <+: t.mgl.inbox
  runs : ∀ r, s.run? ch n = some r → ∃ q, t.run? ch n = some q ∧ q.met = r.met

variable {ch n : Nat} {s t u : State}

theorem RunFrame.trans (h : RunFrame ch n s t) (k : RunFrame ch n t u) : RunFrame ch n s u where
  inbox := h.inbox.trans k.inbox
  runs r hr := by
    obtain ⟨q, hq, hmet⟩ := h.runs r hr
    obtain ⟨p, hp, hmet'⟩ := k.runs q hq
    exact ⟨p, hp, hmet'.trans hmet⟩

theorem State.run?_congr {s t : State} (h : t.rdc.chans = s.rdc.chans) (ch n : Nat) : t.run? ch n = s.run? ch n := by
  rw [State.run?, h, State.run?]

theorem RunFrame.of_chans (hchans : t.rdc.chans = s.rdc.chans) (hinbox : s.mgl.inbox <+: t.mgl.inbox) : RunFrame ch n s t where
  inbox := hinbox
  runs r hr := ⟨r, (State.run?_congr hchans ch n).trans hr, rfl⟩

theorem RunFrame.of_keeps {M : Part → Prop} (h : Keeps M s t) (hrdc : ¬M .rdc) (hmgl : ¬M .mgl) : RunFrame ch n s t :=
  .of_chans (congrArg RdcState.chans (h.parts .rdc hrdc :)) (by rw [(h.parts .mgl hmgl : t.mgl = s.mgl)])

theorem RunFrame.refl (ch n : Nat) (s : State) : RunFrame ch n s s := .of_chans rfl List.prefix_rfl

theorem RunFrame.foldl {α : Type} {f : State → α → State} (hf : ∀ t x, RunFrame ch n t (f t x)) (l : List α) (s : State) :
    RunFrame ch n s (l.foldl f s) := by
  induction l generalizing s with
  | nil => exact RunFrame.refl ch n s
  | cons x l ih => exact (hf s x).trans (ih _)

/-- A run changed. -/
theorem State.run?_modRun {r : ChanRun} (hr : s.run? ch n = some r) {f : ChanRun → ChanRun}
    (hf : ∀ q : ChanRun, q.channel = ch → q.n = n → (f q).channel = ch ∧ (f q).n = n) : (s.modRun ch n f).run? ch n = some (f r) := by
  have hfind : ∀ l : List ChanRun, l.find? (fun r => r.channel == ch && r.n == n) = some r →
      (l.map (fun r => if r.channel = ch ∧ r.n = n then f r else r)).find? (fun r => r.channel == ch && r.n == n) = some (f r) := by
    intro l
    induction l with
    | nil => exact fun h => absurd h (by simp)
    | cons q l ih =>
      intro h
      rw [List.map_cons]
      by_cases hq : q.channel = ch ∧ q.n = n
      · rw [List.find?_cons_of_pos (by simpa using hq)] at h
        rw [if_pos hq, List.find?_cons_of_pos (by simpa using hf q hq.1 hq.2), Option.some.inj h]
      · rw [List.find?_cons_of_neg (by simpa using hq)] at h
        rw [if_neg hq, List.find?_cons_of_neg (by simpa using hq)]
        exact ih h
  exact hfind s.rdc.chans hr

theorem RunFrame.modRun (s : State) {f : ChanRun → ChanRun} (hf : ∀ q, (f q).channel = q.channel ∧ (f q).n = q.n ∧ (f q).met = q.met) :
    RunFrame ch n s (s.modRun ch n f) where
  inbox := List.prefix_rfl
  runs r hr := ⟨f r, State.run?_modRun hr (fun q hch hn => ⟨(hf q).1.trans hch, (hf q).2.1.trans hn⟩), (hf r).2.2⟩

/-! Packets sent. -/

theorem State.send_inbox (s : State) (vc ty ch dst seq : Nat) (data : List Byte) :
    s.mgl.inbox <+: (s.send vc ty ch dst seq data).mgl.inbox := by
  unfold State.send
  dsimp only
  split
  · exact List.prefix_append _ _
  · split
    · exact List.prefix_rfl
    · rw [(State.dropPacket_left s 0 dst 2).2.2.1]

theorem State.sendChan_left (s : State) (w : Work) (c m ty leaf : Nat) (h : SubHead) (data : List Byte) :
    (s.sendChan w c m ty leaf h data).rdc.chans = s.rdc.chans ∧ s.mgl.inbox <+: (s.sendChan w c m ty leaf h data).mgl.inbox := by
  have : Fact True := ⟨trivial⟩
  unfold State.sendChan State.sendMarked
  extract_lets k
  have hk := State.send_keeps (M := fun p => match p with | .regs | .scb | .mgl => True | _ => False) (vc := chanVc c) (ty := ty)
    (ch := c) (dst := rankAt s (chanMask s w c) leaf) (seq := m) (data := h.bytes ++ data) (Keeps.refl (s.mark true k))
  exact ⟨(congrArg RdcState.chans (hk.parts .rdc not_false) :), State.send_inbox (s.mark true k) _ _ _ _ _ _⟩

theorem State.sendChan_runFrame (s : State) (w : Work) (c m ty leaf : Nat) (h : SubHead) (data : List Byte) :
    RunFrame ch n s (s.sendChan w c m ty leaf h data) :=
  .of_chans (State.sendChan_left s w c m ty leaf h data).1 (State.sendChan_left s w c m ty leaf h data).2

/-- A chunk sent down changes no run. -/
theorem sendDown_chans (w : Work) (c m : Nat) (cmd : ChanCmd) (s : State) (i : Nat) :
    (sendDown w c m cmd s i).rdc.chans = s.rdc.chans := by
  unfold sendDown
  extract_lets f p data
  generalize myLevels s w c = qs
  suffices h : ∀ (t : State), t.rdc.chans = s.rdc.chans → (qs.foldl (fun s q => s.sendChan w c m 1 q.2 { s.workHead w c 1 with
      level := q.1, wire := fmtWire f, offset := i * chunkElems (fmtWire f) } data) t).rdc.chans = s.rdc.chans from h s rfl
  induction qs with
  | nil => exact fun _ h => h
  | cons q qs ih => exact fun t h => ih _ ((State.sendChan_left t w c m 1 q.2 _ data).1.trans h)

theorem sendDown_runFrame (w : Work) (c m : Nat) (cmd : ChanCmd) (s : State) (i : Nat) : RunFrame ch n s (sendDown w c m cmd s i) :=
  RunFrame.foldl (fun t _ => State.sendChan_runFrame t _ _ _ _ _ _ _) _ s

theorem sendRow_runFrame (w : Work) (c m ty kind leaf token k : Nat) (row : List Byte) (s : State) :
    RunFrame ch n s (sendRow w c m ty kind leaf token k row s) :=
  RunFrame.foldl (fun t _ => State.sendChan_runFrame t _ _ _ _ _ _ _) _ s

/-! Bytes read and written, and what is counted. -/

theorem State.chanPut_runFrame (s : State) (c : Nat) (cs : List (Nat × Byte)) : RunFrame ch n s (s.chanPut c cs) :=
  have : Fact True := ⟨trivial⟩
  .of_keeps (State.chanPut_keeps (M := fun p => match p with | .rdc | .mgl => False | _ => True) (Keeps.refl s)) not_false not_false

theorem State.chanReads_runFrame (s : State) (c : Nat) (runs : List (Nat × Nat)) : RunFrame ch n s (s.chanReads c runs) :=
  have : Fact True := ⟨trivial⟩
  .of_keeps (State.chanReads_keeps (M := fun p => match p with | .rdc | .mgl => False | _ => True) (Keeps.refl s)) not_false not_false

theorem State.modWork_runFrame (s : State) (f : Work → Work) : RunFrame ch n s (s.modWork f) := .of_chans rfl List.prefix_rfl

theorem State.bump_runFrame (s : State) (key m : Nat) : RunFrame ch n s (s.bump key m) := .of_chans rfl List.prefix_rfl

theorem State.modStep_runFrame (s : State) (f : GroupStep → GroupStep) : RunFrame ch n s (s.modStep f) :=
  .of_chans rfl List.prefix_rfl

theorem writeResultRow_runFrame (s : State) (w : Work) (c : Nat) (cmd : ChanCmd) (vs : List F32) :
    RunFrame ch n s (writeResultRow s w c cmd vs) :=
  have : Fact True := ⟨trivial⟩
  .of_keeps (writeResultRow_keeps (M := fun p => match p with | .rdc | .mgl => False | _ => True) (Keeps.refl s)) not_false not_false

theorem State.checkRun_runFrame (s : State) (w : Work) : RunFrame ch n s (s.checkRun w ch n) := by
  unfold State.checkRun
  split
  · split
    · exact RunFrame.modRun s fun _ => ⟨rfl, rfl, rfl⟩
    · exact RunFrame.refl ch n s
  · exact RunFrame.refl ch n s

/-- A run checked keeps what it has gathered. -/
theorem State.checkRun_got {r : ChanRun} (hr : s.run? ch n = some r) (w : Work) :
    ∃ q, (s.checkRun w ch n).run? ch n = some q ∧ q.got = r.got := by
  unfold State.checkRun
  rw [hr]
  dsimp only
  split
  · exact ⟨_, State.run?_modRun hr fun _ hch hn => ⟨hch, hn⟩, rfl⟩
  · exact ⟨r, hr, rfl⟩

/-! Reductions (R411 to R416). -/

theorem rootDone_runFrame (w : Work) (c : ChanCmd) (s : State) : RunFrame ch n s (rootDone w ch n c s) := by
  unfold rootDone
  split
  · exact RunFrame.refl ch n s
  · split
    · exact RunFrame.refl ch n s
    · extract_lets levels vs written is kept
      have hwritten : RunFrame ch n s written := writeResultRow_runFrame s _ _ _ _
      split
      · have hkept : RunFrame ch n written kept := RunFrame.modRun written fun _ => ⟨rfl, rfl, rfl⟩
        exact (hwritten.trans hkept).trans (RunFrame.foldl (fun t i => sendDown_runFrame w ch n c t i) is kept)
      · exact hwritten

/-- The runs stand, or by a WIRE 2 reduction the work has stopped (R416). -/
def RunOrStop (ch n : Nat) (shared : Prop) (s t : State) : Prop :=
  RunFrame ch n s t ∨ s.mgl.inbox <+: t.mgl.inbox ∧ shared ∧ t.ump.work = none

/-- Group work that is stopped leaves the packets received. -/
theorem State.stopGroupWork_runOrStop (s : State) : RunOrStop ch n True s s.stopGroupWork := by
  unfold State.stopGroupWork
  split
  next g w _ hw =>
    split
    · exact .inr ⟨by rw [(State.stopWork_left hw .group).2.2], trivial, State.stopWork_work s .group⟩
    · exact .inl (RunFrame.refl ch n s)
  · exact .inl (RunFrame.refl ch n s)

theorem State.overflowed_runOrStop (s : State) (slot d : Nat) : RunOrStop ch n True s (s.overflowed slot d) := by
  unfold State.overflowed
  extract_lets noted
  have hnoted : RunFrame ch n s noted := (State.bump_runFrame s _ _).trans (State.modStep_runFrame _ _)
  rcases State.stopGroupWork_runOrStop (ch := ch) (n := n) noted with h | ⟨hinbox, -, hwork⟩
  · exact .inl (hnoted.trans h)
  · exact .inr ⟨hnoted.inbox.trans hinbox, trivial, hwork⟩

theorem RunFrame.orStop {shared : Prop} (h : RunFrame ch n s t) (k : RunOrStop ch n shared t u) : RunOrStop ch n shared s u :=
  k.imp h.trans fun ⟨hinbox, hshared, hwork⟩ => ⟨h.inbox.trans hinbox, hshared, hwork⟩

/-- Only a WIRE 2 conversion overflows. -/
theorem wire_of_overflow {t : TensorEntry} {seed wire level leaf first : Nat} {x : Int} {vs : List F32}
    (h : 0 < (toWire t seed wire x level leaf first vs).top) : wire = 2 := by
  by_contra hne
  have hzero : (toWire t seed wire x level leaf first vs).top = 0 := if_neg hne
  rw [hzero] at h
  exact absurd h (by decide)

theorem wire_of_wireOf {w : Work} {c : ChanCmd} (h : wireOf s w c = 2) : c.wire = 2 := by
  unfold wireOf at h
  split at h
  · exact absurd h (by decide)
  · exact h

/-- A chunk goes up, or is kept at the root; or its overflow stops the work. -/
theorem tryChunk_runOrStop {r : ChanRun} (hr : s.run? ch n = some r) (i : Nat) :
    RunOrStop ch n ((ChanCmd.ofBits r.cmd).wire = 2) s (tryChunk ch n s i) := by
  unfold tryChunk
  rw [hr]
  cases hw : s.ump.work with
  | none => exact .inl (RunFrame.refl ch n s)
  | some w =>
    dsimp -zeta only
    extract_lets c kids leaf wire es vs nans charges zero charged input read sent x
    split
    · exact .inl (RunFrame.refl ch n s)
    · have hcharges : RunFrame ch n s charges := (State.modWork_runFrame s _).trans (State.bump_runFrame _ _ _)
      have hread : RunFrame ch n s read :=
        (hcharges.trans (State.modWork_runFrame charges _)).trans (State.chanReads_runFrame charged _ _)
      have hsent : RunFrame ch n s sent := hread.trans (RunFrame.modRun read fun _ => ⟨rfl, rfl, rfl⟩)
      split
      · exact .inl (hsent.trans (rootDone_runFrame w c sent))
      next up level _ =>
        extract_lets o noted src
        have hnoted : RunFrame ch n s noted := by
          unfold noted
          split
          · exact hsent.trans (State.modStep_runFrame sent _)
          · exact hsent
        split
        next hover =>
          have hshared : c.wire = 2 := wire_of_wireOf (wire_of_overflow hover)
          exact hnoted.orStop ((State.overflowed_runOrStop noted _ _).imp_right fun ⟨hinbox, _, hwork⟩ => ⟨hinbox, hshared, hwork⟩)
        · exact .inl (hnoted.trans (State.sendChan_runFrame noted _ _ _ _ _ _ _))

theorem tryChunk_idle (h : s.ump.work = none) (i : Nat) : tryChunk ch n s i = s := by
  unfold tryChunk
  rw [h]

/-- The chunks of a run that are ready move on. -/
theorem foldl_tryChunk {r : ChanRun} (is : List Nat) (hr : s.run? ch n = some r) :
    RunOrStop ch n ((ChanCmd.ofBits r.cmd).wire = 2) s (is.foldl (tryChunk ch n) s) := by
  have hidle : ∀ (is : List Nat) (s : State), s.ump.work = none → is.foldl (tryChunk ch n) s = s := fun is => by
    induction is with
    | nil => exact fun _ _ => rfl
    | cons i is ih =>
      intro s h
      rw [List.foldl_cons, tryChunk_idle h, ih s h]
  induction is generalizing s r with
  | nil => exact .inl (RunFrame.refl ch n s)
  | cons i is ih =>
    rw [List.foldl_cons]
    rcases tryChunk_runOrStop hr i with h | ⟨hinbox, hshared, hwork⟩
    · obtain ⟨q, hq, hmet⟩ := h.runs r hr
      have hcmd : q.cmd = r.cmd := congrArg (fun m => m.1) hmet
      rw [← hcmd]
      exact h.orStop (ih hq)
    · rw [hidle is _ hwork]
      exact .inr ⟨hinbox, hshared, hwork⟩

theorem State.checkRun_ump (s : State) (w : Work) : (s.checkRun w ch n).ump = s.ump := by
  unfold State.checkRun
  split
  · split <;> rfl
  · rfl

theorem tryChunks_runOrStop {r : ChanRun} (hr : s.run? ch n = some r) (w : Work) :
    RunOrStop ch n ((ChanCmd.ofBits r.cmd).wire = 2) s (tryChunks w ch n (ChanCmd.ofBits r.cmd) s) := by
  unfold tryChunks
  have hfold := foldl_tryChunk (chunksOf (ChanCmd.ofBits r.cmd).count (wireOf s w (ChanCmd.ofBits r.cmd))) hr
  generalize (chunksOf (ChanCmd.ofBits r.cmd).count (wireOf s w (ChanCmd.ofBits r.cmd))).foldl (tryChunk ch n) s = t at hfold ⊢
  have hcheck := State.checkRun_runFrame (ch := ch) (n := n) t w
  exact hfold.imp (fun h => h.trans hcheck) fun ⟨hinbox, hshared, hwork⟩ =>
    ⟨hinbox.trans hcheck.inbox, hshared, (congrArg UmpState.work (State.checkRun_ump t w)).trans hwork⟩

end Sys2Proof.Machine
end

section
/-! SUPPORT. Taking in the packets of the running work (R410, R412, R426, R430, R432). -/
namespace Sys2Proof.Machine
open Sys2Proof

variable {ch n : Nat} {s : State}

/-! Dispatch and combine. -/

theorem finishDispatch_runFrame (w : Work) (s : State) : RunFrame ch n s (finishDispatch w ch n s) := by
  unfold finishDispatch
  split
  · exact RunFrame.refl ch n s
  · extract_lets c size leaf placed total counts counted zeros zeroed
    split
    · exact RunFrame.refl ch n s
    · have hplaced : RunFrame ch n s placed := RunFrame.foldl (fun t l => RunFrame.foldl (fun t p =>
        RunFrame.foldl (fun t q => State.chanPut_runFrame t _ _) _ t) _ t) _ s
      exact ((hplaced.trans (State.chanPut_runFrame placed _ _)).trans (State.chanPut_runFrame counted _ _)).trans
        (RunFrame.modRun zeroed fun _ => ⟨rfl, rfl, rfl⟩)

theorem routeRows_runFrame (w : Work) (s : State) : RunFrame ch n s (routeRows w ch n s) := by
  unfold routeRows
  split
  · exact RunFrame.refl ch n s
  · extract_lets c size leaf row kept drops noted read placed sent
    split
    · exact RunFrame.refl ch n s
    · have hnoted : RunFrame ch n s noted := (State.bump_runFrame s _ _).trans (State.modStep_runFrame _ _)
      have hread : RunFrame ch n s read := hnoted.trans (State.chanReads_runFrame noted _ _)
      have hplaced : RunFrame ch n read placed := RunFrame.foldl (fun t _ => State.chanPut_runFrame t _ _) _ read
      have hsent : RunFrame ch n placed sent := RunFrame.foldl (fun t _ =>
        RunFrame.foldl (fun t _ => sendRow_runFrame _ _ _ _ _ _ _ _ _ t) _ t) _ placed
      refine ((hread.trans hplaced).trans hsent).trans (.trans ?_ (finishDispatch_runFrame w _))
      exact RunFrame.modRun sent fun _ => ⟨rfl, rfl, rfl⟩

theorem finishCombine_runFrame (w : Work) (s : State) : RunFrame ch n s (finishCombine w ch n s) := by
  unfold finishCombine
  split
  · extract_lets c back leaf t x read zero charged one
    split
    · exact RunFrame.refl ch n s
    · have hread : RunFrame ch n s charged := (State.chanReads_runFrame s _ _).trans (State.modWork_runFrame read _)
      have hone : ∀ u i, RunFrame ch n u (one u i) := fun u i => by
        have : Fact True := ⟨trivial⟩
        exact (State.chanPut_runFrame u ch _).trans (.of_keeps (State.addUse_keeps
          (M := fun p => match p with | .ump => True | _ => False) (Keeps.refl _)) not_false not_false)
      exact (hread.trans (RunFrame.foldl hone _ charged)).trans (RunFrame.modRun _ fun _ => ⟨rfl, rfl, rfl⟩)
  · exact RunFrame.refl ch n s

/-- A piece of a row, once noted, is among the pieces of its row. -/
theorem noteRow_rows (r : ChanRun) (leaf token k off : Nat) (bs : List Byte) :
    ∃ m ∈ (noteRow r leaf token k off bs).rows, m.leaf = leaf ∧ m.token = token ∧ m.k = k ∧ (off, bs) ∈ m.pieces := by
  unfold noteRow
  dsimp only
  split
  next h =>
    obtain ⟨m, hm, hkey⟩ := List.any_eq_true.mp h
    have hkey : m.leaf = leaf ∧ m.token = token ∧ m.k = k := by simpa [and_assoc] using hkey
    exact ⟨_, List.mem_map.mpr ⟨m, hm, if_pos hkey⟩, hkey.1, hkey.2.1, hkey.2.2, List.mem_append_right _ (List.mem_singleton.mpr rfl)⟩
  · exact ⟨_, List.mem_append_right _ (List.mem_singleton.mpr rfl), rfl, rfl, rfl, List.mem_singleton.mpr rfl⟩

theorem noteRow_place (r : ChanRun) (leaf token k off : Nat) (bs : List Byte) :
    (noteRow r leaf token k off bs).channel = r.channel ∧ (noteRow r leaf token k off bs).n = r.n := by
  unfold noteRow
  dsimp only
  split <;> exact ⟨rfl, rfl⟩

/-! A packet taken from the inbox. -/

/-- The state in which a packet of the running work has left the inbox, is marked and charged (R359, R433). -/
def State.taken (s : State) (k : InboxPacket) : State :=
  (({ s with mgl := { s.mgl with inbox := s.mgl.inbox.erase k } } : State).mark false k.packet).chargeReceived k.packet

theorem State.chargeLink_images (s : State) (owner : Option Nat × Nat × Bool) (more : Charges) :
    (s.chargeLink owner more).ump.images = s.ump.images := by
  unfold State.chargeLink
  extract_lets mine add
  split
  · rfl
  · split
    · rfl
    · unfold State.charge
      split <;> rfl

/-- What a packet taken leaves. -/
theorem State.taken_left (s : State) (k : InboxPacket) :
    (s.taken k).mgl.inbox = s.mgl.inbox.erase k ∧ (s.taken k).rdc.chans = s.rdc.chans ∧ (s.taken k).regs = s.regs ∧
      (s.taken k).mem = s.mem ∧ (s.taken k).ump.images = s.ump.images := by
  have : Fact True := ⟨trivial⟩
  have hk := State.chargeReceived_keeps (M := fun p => match p with | .ump => True | _ => False) (k := k.packet)
    (Keeps.refl (({ s with mgl := { s.mgl with inbox := s.mgl.inbox.erase k } } : State).mark false k.packet))
  exact ⟨(congrArg MglState.inbox (hk.parts .mgl not_false) :), (congrArg RdcState.chans (hk.parts .rdc not_false) :),
    hk.parts .regs not_false, hk.parts .mem not_false, State.chargeLink_images _ _ _⟩

/-- A packet of the running work whose run has begun is taken in by its rule. -/
theorem takePacket_of_run {k : Packet} {w : Work} {cmd : Desc} {r : ChanRun} (hw : s.ump.work = some w)
    (hcmd : (sendingCommands s w k.ch)[k.seq]? = some cmd) (hfresh : stale s k = false) (hr : s.run? k.ch k.seq = some r)
    (f : Work → ChanRun → SubHead → List Byte → State → State) :
    takePacket s k f = f w r (subHeadOf k.data) ((k.data.take k.len).drop 32) ((s.mark false k).chargeReceived k) := by
  have : Fact True := ⟨trivial⟩
  have hchans : ((s.mark false k).chargeReceived k).rdc = (s.mark false k).rdc :=
    (State.chargeReceived_keeps (M := fun p => match p with | .ump => True | _ => False) (k := k) (Keeps.refl _)).parts .rdc not_false
  have hrun : ((s.mark false k).chargeReceived k).run? k.ch k.seq = some r :=
    (State.run?_congr (s := s) (congrArg RdcState.chans hchans :) _ _).trans hr
  have hopen : ((s.mark false k).chargeReceived k).openRun k.ch k.seq cmd = (s.mark false k).chargeReceived k :=
    if_pos (by rw [hrun]; rfl)
  unfold takePacket
  rw [hw]
  dsimp only
  rw [hcmd]
  dsimp only
  rw [hfresh, if_neg Bool.false_ne_true, hopen, hrun]

/-- A stale packet is counted and changes nothing else (R426). -/
theorem takePacket_of_stale {k : Packet} (h : stale s k = true) (f : Work → ChanRun → SubHead → List Byte → State → State) :
    takePacket s k f = s.bump R.rdcStale := by
  unfold takePacket
  split
  · rfl
  · split
    · rfl
    · exact if_pos h

/-- The oldest packet that a test names, once it is taken in by the rule of its run. -/
theorem takeInbox_of_run {pick : InboxPacket → Bool} {k : InboxPacket} {w : Work} {cmd : Desc} {r : ChanRun}
    (hk : s.inbox? pick = some k) (hw : s.ump.work = some w) (hcmd : (sendingCommands s w k.packet.ch)[k.packet.seq]? = some cmd)
    (hfresh : stale s k.packet = false) (hr : s.run? k.packet.ch k.packet.seq = some r)
    (f : Work → ChanRun → SubHead → List Byte → State → State) :
    takeInbox s pick (fun k s => takePacket s k f) =
      f w r (subHeadOf k.packet.data) ((k.packet.data.take k.packet.len).drop 32) (s.taken k) := by
  unfold takeInbox
  rw [hk]
  exact takePacket_of_run (s := { s with mgl := { s.mgl with inbox := s.mgl.inbox.erase k } }) hw hcmd hfresh hr f

theorem takeInbox_of_stale {pick : InboxPacket → Bool} {k : InboxPacket} (hk : s.inbox? pick = some k)
    (h : stale s k.packet = true) (f : Work → ChanRun → SubHead → List Byte → State → State) :
    takeInbox s pick (fun k s => takePacket s k f) =
      ({ s with mgl := { s.mgl with inbox := s.mgl.inbox.erase k } } : State).bump R.rdcStale := by
  unfold takeInbox
  rw [hk]
  exact takePacket_of_stale (s := { s with mgl := { s.mgl with inbox := s.mgl.inbox.erase k } }) h f

/-! What the rules of the packets leave. -/

theorem State.run?_place {r : ChanRun} (hr : s.run? ch n = some r) : r.channel = ch ∧ r.n = n := by
  have h := List.find?_some hr
  simpa using h

theorem placesAlike_of_regs {s t : State} (hregs : t.regs = s.regs) : placesAlike s t := by
  have hread : ∀ key, t.regAt key = s.regAt key := fun key => State.regAt_congr hregs key
  refine ⟨fun a => ?_, fun a _ => ?_⟩
  · unfold State.place State.courtOnline State.spillArea State.regFld
    dsimp only
    rw [hread R.crtSpill, hread (R.crtCourtOnline _)]
  · rw [State.sramOnline, hread, State.sramOnline]

theorem State.chanPut_mem (s : State) (c : Nat) (cs : List (Nat × Byte)) : (s.chanPut c cs).mem = (s.putCells cs).mem :=
  have : Fact True := ⟨trivial⟩
  (State.cellTraffic_keeps (M := fun p => match p with | .free | .regs | .ump | .scb => True | _ => False)
    (die := chanDie (s.putCells cs) c) (unit := chanUnit (s.putCells cs) c) (Keeps.refl (s.putCells cs))).parts .mem not_false

theorem State.checkRun_mem (s : State) (w : Work) : (s.checkRun w ch n).mem = s.mem := by
  unfold State.checkRun
  split
  · split <;> rfl
  · rfl

theorem State.checkRun_inbox (s : State) (w : Work) : (s.checkRun w ch n).mgl.inbox = s.mgl.inbox := by
  unfold State.checkRun
  split
  · split <;> rfl
  · rfl

/-- A gathered chunk is noted and lands in its member's part. -/
theorem takeGather_spec {r : ChanRun} (hr : s.run? ch n = some r) (w : Work) (h : SubHead) (data : List Byte) :
    let c := ChanCmd.ofBits r.cmd
    let i := h.offset / chunkElems (fmtWire c.fmt)
    let t := takeGather w r h data s
    t.mgl.inbox = s.mgl.inbox ∧ (∃ q, t.run? ch n = some q ∧ (h.leaf, i) ∈ q.got) ∧
      t.mem = (s.putCells (cellsAt (c.dst + h.leaf * gatherPart c + (rowChunk c.fmt c.count i).1) data)).mem := by
  have : Fact True := ⟨trivial⟩
  obtain ⟨hch, hn⟩ := State.run?_place hr
  unfold takeGather
  rw [hch, hn]
  extract_lets c i put noted
  have hkept : Keeps (fun p => match p with | .rdc | .mgl => False | _ => True) s put := State.chanPut_keeps (Keeps.refl s)
  have hrun : put.run? ch n = some r := (State.run?_congr (congrArg RdcState.chans (hkept.parts .rdc not_false :)) _ _).trans hr
  obtain ⟨q, hq, hgot⟩ := State.checkRun_got (State.run?_modRun (f := fun r => { r with got := r.got ++ [(h.leaf, i)] }) hrun
    fun _ hch hn => ⟨hch, hn⟩) w
  refine ⟨(State.checkRun_inbox _ w).trans (congrArg MglState.inbox (hkept.parts .mgl not_false :)), ⟨q, hq, ?_⟩,
    (State.checkRun_mem _ w).trans (State.chanPut_mem _ _ _)⟩
  rw [hgot]
  exact List.mem_append_right _ (List.mem_singleton.mpr rfl)

/-- A chunk from above is noted and lands in the result. -/
theorem takeDown_spec {r : ChanRun} (hr : s.run? ch n = some r) (w : Work) (h : SubHead) (data : List Byte) :
    let c := ChanCmd.ofBits r.cmd
    let f := downFmt s w c
    let i := h.offset / chunkElems (fmtWire f)
    let t := takeDown w r h data s
    s.mgl.inbox <+: t.mgl.inbox ∧ (∃ q, t.run? ch n = some q ∧ (0, i) ∈ q.got) ∧
      t.mem = (s.putCells (cellsAt (c.dst + (rowChunk f c.count i).1) data)).mem := by
  have : Fact True := ⟨trivial⟩
  obtain ⟨hch, hn⟩ := State.run?_place hr
  unfold takeDown
  rw [hch, hn]
  extract_lets c f i put marked noted
  have hput : Keeps (fun p => match p with | .rdc | .mgl => False | _ => True) s put := State.chanPut_keeps (Keeps.refl s)
  have hmarked : Keeps (fun p => match p with | .ump => True | _ => False) put marked :=
    Keeps.ite (fun _ => State.markWritten_keeps (Keeps.refl put)) (fun _ => Keeps.refl put)
  have hchans : marked.rdc.chans = s.rdc.chans :=
    (congrArg RdcState.chans (hmarked.parts .rdc not_false) :).trans (congrArg RdcState.chans (hput.parts .rdc not_false :))
  have hsent : (sendDown w ch n c noted i).run? ch n = some { r with got := r.got ++ [(0, i)] } :=
    (State.run?_congr (sendDown_chans w ch n c noted i) ch n).trans
      (State.run?_modRun ((State.run?_congr hchans ch n).trans hr) fun _ hch hn => ⟨hch, hn⟩)
  have hmem : (sendDown w ch n c noted i).mem = noted.mem :=
    (sendDown_keeps (M := fun p => match p with | .regs | .scb | .mgl | .rdc => True | _ => False) (Keeps.refl noted)).parts .mem
      not_false
  have hinbox : marked.mgl.inbox = s.mgl.inbox :=
    congrArg MglState.inbox ((hmarked.parts .mgl not_false).trans (hput.parts .mgl not_false))
  obtain ⟨q, hq, hgot⟩ := State.checkRun_got hsent w
  refine ⟨?_, ⟨q, hq, ?_⟩, ?_⟩
  · rw [State.checkRun_inbox, ← hinbox]
    exact (sendDown_runFrame (ch := ch) (n := n) w ch n c noted i).inbox
  · rw [hgot]
    exact List.mem_append_right _ (List.mem_singleton.mpr rfl)
  · exact (State.checkRun_mem _ w).trans (hmem.trans ((hmarked.parts .mem not_false).trans (State.chanPut_mem _ _ _)))

/-- A child's contribution is noted, unless a WIRE 2 reduction's work stops by it. -/
theorem takeUp_spec {r : ChanRun} (hr : s.run? ch n = some r) (w : Work) (h : SubHead) (data : List Byte) :
    let t := takeUp w r h data s
    s.mgl.inbox <+: t.mgl.inbox ∧ ((ChanCmd.ofBits r.cmd).wire = 2 ∧ t.ump.work = none ∨
      ∃ q, t.run? ch n = some q ∧ (h.level, h.offset / chunkElems h.wire) ∈ q.up) := by
  obtain ⟨hch, hn⟩ := State.run?_place hr
  unfold takeUp
  rw [hch, hn]
  extract_lets c m f x v put noted
  have hput : RunFrame ch n s put := State.chanPut_runFrame s _ _
  obtain ⟨p, hp, hmet⟩ := hput.runs r hr
  have hnoted : noted.run? ch n = some { p with up := p.up ++ [(h.level, h.offset / chunkElems h.wire)] } :=
    State.run?_modRun hp fun _ hch hn => ⟨hch, hn⟩
  have hcmd : p.cmd = r.cmd := congrArg (fun m => m.1) hmet
  have htried := tryChunks_runOrStop hnoted w
  dsimp only at htried
  rw [hcmd] at htried
  rcases htried with htried | ⟨hinbox, hshared, hwork⟩
  · obtain ⟨q, hq, hmet⟩ := htried.runs _ hnoted
    have hup : q.up = p.up ++ [(h.level, h.offset / chunkElems h.wire)] := congrArg (fun m => m.2.1) hmet
    exact ⟨hput.inbox.trans htried.inbox, .inr ⟨q, hq, hup ▸ List.mem_append_right _ (List.mem_singleton.mpr rfl)⟩⟩
  · exact ⟨hput.inbox.trans hinbox, .inl ⟨hshared, hwork⟩⟩

/-- A member's counts are noted. -/
theorem takeCounts_spec {r : ChanRun} (hr : s.run? ch n = some r) (w : Work) (h : SubHead) (data : List Byte) :
    ∃ q, (takeCounts w r h data s).run? ch n = some q ∧ h.leaf ∈ q.counts := by
  obtain ⟨hch, hn⟩ := State.run?_place hr
  unfold takeCounts
  rw [hch, hn]
  extract_lets c put
  obtain ⟨p, hp, -⟩ := (State.chanPut_runFrame (ch := ch) (n := n) s ch (cellsAt (c.recv + 2048 * h.leaf) data)).runs r hr
  have hnoted : (put.modRun ch n (fun r => { r with counts := r.counts ++ [h.leaf] })).run? ch n =
      some { p with counts := p.counts ++ [h.leaf] } := State.run?_modRun hp fun _ hch hn => ⟨hch, hn⟩
  obtain ⟨q, hq, hmet⟩ := (routeRows_runFrame w _).runs _ hnoted
  have hcounts : q.counts = p.counts ++ [h.leaf] := congrArg (fun m => m.2.2.1) hmet
  exact ⟨q, hq, hcounts ▸ List.mem_append_right _ (List.mem_singleton.mpr rfl)⟩

/-- The row of a packet is noted with a run. -/
def RowNoted (r : ChanRun) (h : SubHead) (data : List Byte) : Prop :=
  ∃ m ∈ r.rows, m.leaf = h.leaf ∧ m.token = h.token ∧ m.k = h.k ∧ (h.offset, data) ∈ m.pieces

theorem RowNoted.of_met {p q : ChanRun} {h : SubHead} {data : List Byte} (hp : RowNoted p h data) (hmet : q.met = p.met) :
    RowNoted q h data := by
  have hrows : q.rows = p.rows := congrArg (fun m => m.2.2.2) hmet
  unfold RowNoted
  rw [hrows]
  exact hp

/-- A piece of a dispatched row is noted. -/
theorem takeRow_spec {r : ChanRun} (hr : s.run? ch n = some r) (w : Work) (h : SubHead) (data : List Byte) :
    (takeRow w r h data s).mgl.inbox = s.mgl.inbox ∧ ∃ q, (takeRow w r h data s).run? ch n = some q ∧ RowNoted q h data := by
  have : Fact True := ⟨trivial⟩
  have hplace := State.run?_place hr
  obtain ⟨hch, hn⟩ := hplace
  have hnote := noteRow_place r h.leaf h.token h.k h.offset data
  unfold takeRow
  rw [hch, hn]
  have hnoted := State.run?_modRun (f := fun _ => noteRow r h.leaf h.token h.k h.offset data) hr
    fun _ _ _ => ⟨hnote.1.trans hch, hnote.2.trans hn⟩
  have hkept := finishDispatch_keeps (M := fun p => match p with | .mgl => False | _ => True) (w := w) (ch := ch) (n := n)
    (Keeps.refl (s.modRun ch n fun _ => noteRow r h.leaf h.token h.k h.offset data))
  obtain ⟨q, hq, hmet⟩ := (finishDispatch_runFrame w _).runs _ hnoted
  exact ⟨(congrArg MglState.inbox (hkept.parts .mgl not_false) :), q, hq, RowNoted.of_met (noteRow_rows _ _ _ _ _ _) hmet⟩

/-- A piece of a returned row is noted. -/
theorem takeReturn_spec {r : ChanRun} (hr : s.run? ch n = some r) (w : Work) (h : SubHead) (data : List Byte) :
    (takeReturn w r h data s).mgl.inbox = s.mgl.inbox ∧
      ∃ q, (takeReturn w r h data s).run? ch n = some q ∧ RowNoted q h data := by
  have : Fact True := ⟨trivial⟩
  obtain ⟨hch, hn⟩ := State.run?_place hr
  unfold takeReturn
  rw [hch, hn]
  extract_lets c put
  have hput : Keeps (fun p => match p with | .rdc | .mgl => False | _ => True) s put := State.chanPut_keeps (Keeps.refl s)
  have hrun : put.run? ch n = some r := (State.run?_congr (congrArg RdcState.chans (hput.parts .rdc not_false :)) _ _).trans hr
  have hnoted := State.run?_modRun (f := fun r => noteRow r h.leaf h.token h.k h.offset data) hrun fun q hch hn =>
    ⟨(noteRow_place q h.leaf h.token h.k h.offset data).1.trans hch, (noteRow_place q h.leaf h.token h.k h.offset data).2.trans hn⟩
  have hkept := finishCombine_keeps (M := fun p => match p with | .mgl => False | _ => True) (w := w) (ch := ch) (n := n)
    (Keeps.refl (put.modRun ch n fun r => noteRow r h.leaf h.token h.k h.offset data))
  obtain ⟨q, hq, hmet⟩ := (finishCombine_runFrame w _).runs _ hnoted
  exact ⟨(congrArg MglState.inbox (hkept.parts .mgl not_false) :).trans (congrArg MglState.inbox (hput.parts .mgl not_false :)), q, hq,
    RowNoted.of_met (noteRow_rows _ _ _ _ _ _) hmet⟩

end Sys2Proof.Machine
end

section
/-! PROOFS. Packets of the running work (O57). -/
namespace Sys2Proof.Machine
open Sys2Proof

variable {s : State}

/-- A packet of the running work is taken in. -/
theorem completes_takeInbox {i : Instr} {pick : InboxPacket → Bool} {k : InboxPacket} {w : Work} {cmd : Desc} {r : ChanRun}
    {f : Work → ChanRun → SubHead → List Byte → State → State} {P : State → Prop}
    (hexec : exec i s = .next (takeInbox s pick (fun k s => takePacket s k f)))
    (hk : s.inbox? pick = some k) (hw : s.ump.work = some w) (hcmd : (sendingCommands s w k.packet.ch)[k.packet.seq]? = some cmd)
    (hfresh : stale s k.packet = false) (hr : s.run? k.packet.ch k.packet.seq = some r)
    (h : (s.taken k).run? k.packet.ch k.packet.seq = some r →
      P (f w r (subHeadOf k.packet.data) ((k.packet.data.take k.packet.len).drop 32) (s.taken k))) : Completes i s P :=
  ⟨_, hexec, by
    rw [takeInbox_of_run hk hw hcmd hfresh hr]
    exact h ((State.run?_congr (State.taken_left s k).2.1 _ _).trans hr)⟩

/-- The rule of a data packet by its kind (R412). -/
def takeData (w : Work) (r : ChanRun) (h : SubHead) (data : List Byte) (s : State) : State :=
  match h.kind with
  | 0 => takeUp w r h data s
  | 1 => takeDown w r h data s
  | 2 => takeGather w r h data s
  | _ => s

theorem exec_rdcDataReceive (s : State) : exec .rdcDataReceive s = .next (takeInbox s
    (fun k => k.packet.ty == 1 && decide (kindOf k ≠ 3 ∧ kindOf k ≠ 4)) (fun k s => takePacket s k takeData)) := rfl

theorem takeData_gather {h : SubHead} (hkind : h.kind = 2) (w : Work) (r : ChanRun) (data : List Byte) (s : State) :
    takeData w r h data s = takeGather w r h data s := by
  unfold takeData
  rw [hkind]
  rfl

theorem takeData_down {h : SubHead} (hkind : h.kind = 1) (w : Work) (r : ChanRun) (data : List Byte) (s : State) :
    takeData w r h data s = takeDown w r h data s := by
  unfold takeData
  rw [hkind]
  rfl

theorem takeData_up {h : SubHead} (hkind : h.kind = 0) (w : Work) (r : ChanRun) (data : List Byte) (s : State) :
    takeData w r h data s = takeUp w r h data s := by
  unfold takeData
  rw [hkind]
  rfl

/-- A packet taken lets cells land as they would have before. -/
theorem State.taken_putCells (s : State) (k : InboxPacket) (cs : List (Nat × Byte)) :
    ((s.taken k).putCells cs).mem = (s.putCells cs).mem := by
  obtain ⟨-, -, hregs, hmem, -⟩ := State.taken_left s k
  exact State.putCells_mem hmem (placesAlike_of_regs hregs) cs

theorem State.taken_downFmt (s : State) (k : InboxPacket) (w : Work) (c : ChanCmd) : downFmt (s.taken k) w c = downFmt s w c := by
  obtain ⟨-, -, -, -, himages⟩ := State.taken_left s k
  unfold downFmt tensorAt
  rw [himages]

/-- A stale packet is discarded and counted. -/
theorem completes_stale {i : Instr} {pick : InboxPacket → Bool} {k : InboxPacket}
    {f : Work → ChanRun → SubHead → List Byte → State → State}
    (hexec : exec i s = .next (takeInbox s pick (fun k s => takePacket s k f)))
    (hk : s.inbox? pick = some k) (hstale : stale s k.packet = true) :
    Completes i s (fun t => t.mgl.inbox = s.mgl.inbox.erase k ∧ t.regAt R.rdcStale = s.regAt R.rdcStale + 1 ∧ t.rdc = s.rdc ∧
      t.mem = s.mem) :=
  ⟨_, hexec, by
    rw [takeInbox_of_stale hk hstale]
    exact ⟨rfl, State.regAt_setReg_self _ _ _, rfl, rfl⟩⟩

/-- The step with FAIL in its vote. -/
def GroupStep.failing (g : GroupStep) : GroupStep := { g with vote := { g.vote with fail := true } }

/-- FAIL in the vote stops the group step's work and stays (R419). -/
theorem State.failVote_stops {g : GroupStep} {w : Work} (hg : s.rdc.step = some g) (hw : s.ump.work = some w)
    (hhas : g.hasWork = true) (hid : g.workId = w.did) :
    s.failVote.ump.work = none ∧ ∃ q, s.failVote.rdc.step = some q ∧ q.vote.fail = true := by
  have hwork : (s.modStep GroupStep.failing).ump.work = some w := hw
  have hstep : (s.modStep GroupStep.failing).rdc.step = some g.failing := by
    rw [State.modStep_rdc_step, hg, Option.map_some]
  have hstop : s.failVote = (s.modStep GroupStep.failing).stopWork .group := by
    change (s.modStep GroupStep.failing).stopGroupWork = _
    unfold State.stopGroupWork
    rw [hstep, hwork]
    exact if_pos (by simp [GroupStep.failing, hhas, hid])
  rw [hstop]
  refine ⟨State.stopWork_work _ .group, g.failing.workStopped w .group, ?_, ?_⟩
  · rw [(State.stopWork_left hwork .group).2.1, RdcState.workStopped, hstep, Option.map_some]
  · unfold GroupStep.workStopped
    split <;> simp [GroupStep.failing]

/-- A deadline with a chunk missing: FAIL in the vote, and the work stops. -/
theorem completes_dueNsDeadline {ch due : Nat} {g : GroupStep} {w : Work} (hg : s.rdc.step = some g) (hw : s.ump.work = some w)
    (hhas : g.hasWork = true) (hid : g.workId = w.did) (hdue : missingDue s w ch = some due) :
    Completes (.dueNsDeadline ch) s (fun t => t.ts = max s.ts (g.start + due) ∧ t.ump.work = none ∧
      ∃ q, t.rdc.step = some q ∧ q.vote.fail = true) := by
  have : Fact True := ⟨trivial⟩
  let late : State := { s with ts := max s.ts (g.start + due) }
  have hexec : exec (.dueNsDeadline ch) s = .next late.failVote := by
    change execDueNsDeadline ch s = _
    unfold execDueNsDeadline
    rw [hg, hw]
    dsimp only
    rw [hhas, hid, if_neg (by simp), hdue]
  have hfailed := State.failVote_stops (s := late) hg hw hhas hid
  have hts : late.failVote.ts = late.ts :=
    (State.failVote_keeps (M := fun p => match p with | .ts => False | _ => True) (Keeps.refl late)).parts .ts not_false
  exact ⟨_, hexec, hts, hfailed⟩

/-- Settles O57: a packet of the running work is marked, charged and taken in by the rule of its kind, which notes it with its
run; what follows from it keeps what the run has met, unless a WIRE 2 conversion overflows and the work stops. -/
theorem channelPacketsComplete : Obligations.ChannelPacketsComplete := by
  refine ⟨fun s k w cmd r hw hcmd hfresh hr => ⟨fun hk hkind => ?gather, fun hk hkind => ?down, fun hk hkind => ?up,
    fun hk => ?counts, fun hk => ?row, fun hk => ?back⟩, fun s i pick k hi hk hstale => ?stale,
    fun s ch due g w hg hw hhas hid hdue => completes_dueNsDeadline hg hw hhas hid hdue⟩
  case gather =>
    refine completes_takeInbox (exec_rdcDataReceive s) hk hw hcmd hfresh hr fun hrun => ?_
    rw [takeData_gather hkind]
    obtain ⟨hinbox, hgot, hmem⟩ := takeGather_spec hrun w (subHeadOf k.packet.data) ((k.packet.data.take k.packet.len).drop 32)
    exact ⟨hinbox.trans (State.taken_left s k).1, hgot, hmem.trans (State.taken_putCells s k _)⟩
  case down =>
    refine completes_takeInbox (exec_rdcDataReceive s) hk hw hcmd hfresh hr fun hrun => ?_
    rw [takeData_down hkind]
    obtain ⟨hinbox, hgot, hmem⟩ := takeDown_spec hrun w (subHeadOf k.packet.data) ((k.packet.data.take k.packet.len).drop 32)
    rw [State.taken_downFmt] at hgot hmem
    exact ⟨(State.taken_left s k).1 ▸ hinbox, hgot, hmem.trans (State.taken_putCells s k _)⟩
  case up =>
    refine completes_takeInbox (exec_rdcDataReceive s) hk hw hcmd hfresh hr fun hrun => ?_
    rw [takeData_up hkind]
    obtain ⟨hinbox, hup⟩ := takeUp_spec hrun w (subHeadOf k.packet.data) ((k.packet.data.take k.packet.len).drop 32)
    exact ⟨(State.taken_left s k).1 ▸ hinbox, hup⟩
  case counts =>
    exact completes_takeInbox (i := .fbCountsReceive) rfl hk hw hcmd hfresh hr fun hrun => takeCounts_spec hrun w _ _
  case row =>
    refine completes_takeInbox (i := .fbRowReceive) rfl hk hw hcmd hfresh hr fun hrun => ?_
    obtain ⟨hinbox, hnoted⟩ := takeRow_spec hrun w (subHeadOf k.packet.data) ((k.packet.data.take k.packet.len).drop 32)
    exact ⟨hinbox.trans (State.taken_left s k).1, hnoted⟩
  case back =>
    refine completes_takeInbox (i := .fbReturnReceive) rfl hk hw hcmd hfresh hr fun hrun => ?_
    obtain ⟨hinbox, hnoted⟩ := takeReturn_spec hrun w (subHeadOf k.packet.data) ((k.packet.data.take k.packet.len).drop 32)
    exact ⟨hinbox.trans (State.taken_left s k).1, hnoted⟩
  case stale =>
    simp only [List.mem_cons, Prod.mk.injEq, List.not_mem_nil, or_false] at hi
    obtain ⟨rfl, rfl⟩ | ⟨rfl, rfl⟩ | ⟨rfl, rfl⟩ | ⟨rfl, rfl⟩ := hi
    · exact completes_stale (exec_rdcDataReceive s) hk hstale
    · exact completes_stale (i := .fbCountsReceive) rfl hk hstale
    · exact completes_stale (i := .fbRowReceive) rfl hk hstale
    · exact completes_stale (i := .fbReturnReceive) rfl hk hstale

end Sys2Proof.Machine
end

section
/-! SUPPORT. Votes and verdicts of a group step: what casting, forwarding and holding leave of the step (R418 to R423). -/
namespace Sys2Proof.Machine
open Sys2Proof

variable {s : State} {g : GroupStep}

/-! Holding and forwarding. -/

/-- A verdict held changes no more of the step than its verdict. -/
theorem State.holdVerdict_step (hg : s.rdc.step = some g) (v : Vote) :
    ∃ x, (s.holdVerdict v).rdc.step = some { g with verdict := x } := by
  unfold State.holdVerdict
  rw [hg]
  dsimp only
  split
  · exact ⟨g.verdict, hg⟩
  · exact ⟨some v, by rw [State.snapshot, State.modStep_rdc_step, hg, Option.map_some]⟩

/-- A vote forwarded changes no more of the step than that it is forwarded and, at the root, the verdict. -/
theorem forwardVote_step (hg : s.rdc.step = some g) (merged : GroupStep) :
    ∃ x, (forwardVote s merged).rdc.step = some { g with forwarded := true, verdict := x } := by
  unfold forwardVote
  extract_lets v forwarded
  have hforwarded : forwarded.rdc.step = some { g with forwarded := true } := by
    rw [State.modStep_rdc_step, hg, Option.map_some]
  split
  · exact ⟨g.verdict, (sendVoteTo_rdc_step _ _ _ _ _ _).trans hforwarded⟩
  · exact State.holdVerdict_step ((sendVerdict_rdc_step forwarded merged _).trans hforwarded) _

theorem State.tryForward_step (hg : s.rdc.step = some g) :
    ∃ forwarded x, s.tryForward.rdc.step = some { g with forwarded := forwarded, verdict := x } := by
  unfold State.tryForward
  rw [hg]
  dsimp only
  split
  · exact ⟨true, forwardVote_step hg g⟩
  · exact ⟨g.forwarded, g.verdict, hg⟩

/-! Casting. -/

/-- Group work that is stopped leaves a step in progress. -/
theorem State.stopGroupWork_step (hg : s.rdc.step = some g) : ∃ q, s.stopGroupWork.rdc.step = some q := by
  unfold State.stopGroupWork
  split
  next p w _ hw =>
    split
    · rw [(State.stopWork_left hw .group).2.1, RdcState.workStopped, hg]
      exact ⟨_, rfl⟩
    · exact ⟨g, hg⟩
  · exact ⟨g, hg⟩

theorem State.failVote_step (hg : s.rdc.step = some g) : ∃ q, s.failVote.rdc.step = some q :=
  State.stopGroupWork_step (by rw [State.modStep_rdc_step, hg, Option.map_some])

/-- A member that owes its vote casts it at VOTE_NS. -/
theorem State.castVote_of_owed (hg : s.rdc.step = some g) (howed : owesVote g = true) :
    s.castVote.ts = max s.ts (g.start + g.voteNs) ∧ ∃ q, s.castVote.rdc.step = some q ∧ q.own = true := by
  have : Fact True := ⟨trivial⟩
  unfold State.castVote
  rw [hg]
  dsimp -zeta only
  rw [howed, if_neg (by simp)]
  extract_lets late ended now v
  have hended : Keeps (fun p => match p with | .ts => False | _ => True) late ended :=
    Keeps.ite (fun _ => State.failVote_keeps (Keeps.refl late)) (fun _ => Keeps.refl late)
  have hts : ended.ts = late.ts := hended.parts .ts not_false
  have hstep : ∃ q, ended.rdc.step = some q := by
    unfold ended
    split
    · exact State.failVote_step (s := late) hg
    · exact ⟨g, hg⟩
  obtain ⟨q, hq⟩ := hstep
  have hvoted : (ended.modStep fun g => { g with own := true, vote := v }).rdc.step = some { q with own := true, vote := v } := by
    rw [State.modStep_rdc_step, hq, Option.map_some]
  have hlast := State.tryForward_keeps (M := fun p => match p with | .ts => False | _ => True)
    (Keeps.refl (ended.modStep fun g => { g with own := true, vote := v }))
  obtain ⟨_, _, hforwarded⟩ := State.tryForward_step hvoted
  exact ⟨(hlast.parts .ts not_false).trans hts, _, hforwarded, rfl⟩

theorem State.castVote_of_cast (hg : s.rdc.step = some g) (hown : g.own = true) : s.castVote = s := by
  unfold State.castVote
  rw [hg]
  exact if_pos (by rw [owesVote, hown, Bool.not_true, Bool.and_false, Bool.false_and, Bool.not_false])

/-! At the bounds. -/

/-- A node that has voted forwards at its bound, an absent child's vote counting as FAIL (R420). -/
theorem State.forwardLate_of_cast (hg : s.rdc.step = some g) (hown : g.own = true) (htakes : g.takesPart = true)
    (hwaits : g.forwarded = false) (hnone : g.verdict = none) :
    s.forwardLate = forwardVote { s with ts := max s.ts (g.start + g.voteNs + 4000 * nodeLevel s) }
      { g with vote := { g.vote with fail := true } } := by
  unfold State.forwardLate
  rw [State.castVote_of_cast hg hown]
  dsimp only
  rw [hg]
  dsimp only
  rw [htakes, hwaits, hnone]
  exact if_neg (by simp)

theorem State.forwardLate_of_forwarded (hg : s.rdc.step = some g) (hown : g.own = true) (hforwarded : g.forwarded = true) :
    s.forwardLate = s := by
  unfold State.forwardLate
  rw [State.castVote_of_cast hg hown]
  dsimp only
  rw [hg]
  exact if_pos (by rw [hforwarded, Bool.or_true, Bool.true_or])

/-- A member without a verdict faults itself (R423). -/
theorem State.faultSelf_of_none (hg : s.rdc.step = some g) (hnone : g.verdict = none) :
    s.faultSelf = (s.modStep fun g => { g with verdict := some { Vote.zero with verdict := 2 }, selfFault := true }).snapshot := by
  unfold State.faultSelf
  rw [hg]
  exact if_neg (by rw [hnone]; exact Bool.false_ne_true)

/-! Votes and verdicts received. -/

/-- The state in which a packet is marked and charged (R359, R433). -/
def State.received (s : State) (k : Packet) : State := (s.mark false k).chargeReceived k

/-- A packet received leaves the step, its number and the registers. -/
theorem State.received_left (s : State) (k : Packet) :
    (s.received k).rdc.step = s.rdc.step ∧ (s.received k).rdc.gstep = s.rdc.gstep ∧ (s.received k).regs = s.regs := by
  have : Fact True := ⟨trivial⟩
  have hk := State.chargeReceived_keeps (M := fun p => match p with | .ump => True | _ => False) (k := k)
    (Keeps.refl (s.mark false k))
  exact ⟨(congrArg RdcState.step (hk.parts .rdc not_false) :), (congrArg RdcState.gstep (hk.parts .rdc not_false) :),
    hk.parts .regs not_false⟩

theorem groupChildren_congr {s t : State} (h : t.regs = s.regs) : groupChildren t = groupChildren s := by
  have hread : ∀ key, t.regAt key = s.regAt key := fun key => State.regAt_congr h key
  have haxes : axesIn t wholeGroup = axesIn s wholeGroup := by
    unfold axesIn axes groupShape State.regFld
    rw [hread R.rdcGrpA, hread R.rdcGrpB, hread R.rdcGrpC]
  rw [groupChildren, groupLeaf, leafOf, subSize, haxes, State.rank, State.regFld, hread]
  rfl

theorem takeInbox_of_some {pick : InboxPacket → Bool} {k : InboxPacket} (hk : s.inbox? pick = some k) (f : Packet → State → State) :
    takeInbox s pick f = f k.packet { s with mgl := { s.mgl with inbox := s.mgl.inbox.erase k } } := by
  unfold takeInbox
  rw [hk]

/-- A child's first vote is merged with its number, and the node forwards when it was the last one (R420). -/
theorem takeVote_of_first {k : Packet} (hg : s.rdc.step = some g) (hfresh : staleVote s k = false)
    (htakes : g.takesPart = true) (hwaits : g.forwarded = false) (hnew : (subHeadOf k.data).leaf ∉ g.children)
    (hchild : (groupChildren s).any (fun q => q.2 == (subHeadOf k.data).leaf) = true) :
    takeVote k s = ((s.received k).modStep fun p => { p with
      children := p.children ++ [(subHeadOf k.data).leaf]
      vote := p.vote.merge (voteBody p k) }).tryForward := by
  obtain ⟨hstep, -, hregs⟩ := State.received_left s k
  unfold takeVote
  rw [hfresh, if_neg Bool.false_ne_true]
  extract_lets t child
  have hchildren : groupChildren t = groupChildren s := groupChildren_congr hregs
  have ht : t.rdc.step = some g := hstep.trans hg
  rw [ht]
  refine if_neg ?_
  rw [hwaits, htakes, hchildren, hchild]
  simpa using hnew

/-- The first verdict is sent on and held (R421). -/
theorem takeVerdict_of_first {k : Packet} (hg : s.rdc.step = some g) (hfresh : staleVote s k = false)
    (htakes : g.takesPart = true) (hnone : g.verdict = none) :
    takeVerdict k s = (sendVerdict (s.received k) g (voteBody g k)).holdVerdict (voteBody g k) := by
  unfold takeVerdict
  rw [hfresh, if_neg Bool.false_ne_true]
  extract_lets t
  have ht : t.rdc.step = some g := (State.received_left s k).1.trans hg
  rw [ht]
  dsimp only
  refine if_neg ?_
  rw [htakes, hnone]
  exact Bool.false_ne_true

/-- The digests' snapshot is taken when the first verdict is held (R434). -/
theorem State.holdVerdict_snapStep (hg : s.rdc.step = some g) (hnone : g.verdict = none) (v : Vote) :
    (s.holdVerdict v).rdc.snapStep = s.rdc.gstep := by
  unfold State.holdVerdict
  rw [hg]
  dsimp only
  rw [if_neg (by rw [hnone]; exact Bool.false_ne_true)]
  rfl

theorem sendVerdict_gstep (s : State) (g : GroupStep) (v : Vote) : (sendVerdict s g v).rdc.gstep = s.rdc.gstep := by
  unfold sendVerdict
  induction groupChildren s generalizing s with
  | nil => rfl
  | cons q qs ih =>
    rw [List.foldl_cons, ih, sendVoteTo, State.sendMarked, State.send_rdc]
    rfl

end Sys2Proof.Machine
end

section
/-! PROOFS. Votes and verdicts (O58). -/
namespace Sys2Proof.Machine
open Sys2Proof

variable {s : State} {g : GroupStep}

theorem completes_voteReceive {k : InboxPacket} (hk : s.inbox? (fun k => k.packet.ty == 1 && kindOf k == 3) = some k)
    (hfresh : staleVote s k.packet = false) (hg : s.rdc.step = some g) (htakes : g.takesPart = true)
    (hwaits : g.forwarded = false) (hnew : (subHeadOf k.packet.data).leaf ∉ g.children)
    (hchild : (groupChildren s).any (fun q => q.2 == (subHeadOf k.packet.data).leaf) = true) :
    Completes .voteReceive s (fun t => ∃ q, t.rdc.step = some q ∧ q.children = g.children ++ [(subHeadOf k.packet.data).leaf]) := by
  let taken : State := { s with mgl := { s.mgl with inbox := s.mgl.inbox.erase k } }
  refine ⟨_, rfl, ?_⟩
  rw [takeInbox_of_some hk, takeVote_of_first (s := taken) hg hfresh htakes hwaits hnew hchild]
  have hmerged := State.modStep_rdc_step (taken.received k.packet) fun p => { p with
    children := p.children ++ [(subHeadOf k.packet.data).leaf]
    vote := p.vote.merge (voteBody p k.packet) }
  rw [(State.received_left taken k.packet).1, (hg : taken.rdc.step = some g), Option.map_some] at hmerged
  obtain ⟨_, _, hstep⟩ := State.tryForward_step hmerged
  exact ⟨_, hstep, rfl⟩

theorem completes_voteForwardBound (hg : s.rdc.step = some g) (hown : g.own = true) (htakes : g.takesPart = true)
    (hwaits : g.forwarded = false) (hnone : g.verdict = none) :
    Completes .voteForwardBound s (fun t => t.ts = max s.ts (g.start + g.voteNs + 4000 * nodeLevel s) ∧
      ∃ q, t.rdc.step = some q ∧ q.forwarded = true) := by
  have : Fact True := ⟨trivial⟩
  refine ⟨_, rfl, ?_⟩
  rw [State.forwardLate_of_cast hg hown htakes hwaits hnone]
  obtain ⟨_, hstep⟩ := forwardVote_step (s := { s with ts := max s.ts (g.start + g.voteNs + 4000 * nodeLevel s) }) hg
    { g with vote := { g.vote with fail := true } }
  have hts := (forwardVote_keeps (M := fun p => match p with | .ts => False | _ => True)
    (g := { g with vote := { g.vote with fail := true } })
    (Keeps.refl ({ s with ts := max s.ts (g.start + g.voteNs + 4000 * nodeLevel s) } : State))).parts .ts not_false
  exact ⟨hts, _, hstep, rfl⟩

theorem completes_verdictReceive {k : InboxPacket} (hk : s.inbox? (fun k => k.packet.ty == 1 && kindOf k == 4) = some k)
    (hfresh : staleVote s k.packet = false) (hg : s.rdc.step = some g) (htakes : g.takesPart = true) (hnone : g.verdict = none) :
    Completes .verdictReceive s (fun t => t.rdc.snapStep = s.rdc.gstep ∧
      ∃ q, t.rdc.step = some q ∧ q.verdict = some (voteBody g k.packet)) := by
  let taken : State := { s with mgl := { s.mgl with inbox := s.mgl.inbox.erase k } }
  obtain ⟨hstep, hgstep, -⟩ := State.received_left taken k.packet
  have hsent : (sendVerdict (taken.received k.packet) g (voteBody g k.packet)).rdc.step = some g := by
    rw [sendVerdict_rdc_step, hstep, (hg : taken.rdc.step = some g)]
  refine ⟨_, rfl, ?_⟩
  rw [takeInbox_of_some hk, takeVerdict_of_first (s := taken) hg hfresh htakes hnone]
  exact ⟨(State.holdVerdict_snapStep hsent hnone _).trans ((sendVerdict_gstep _ g _).trans hgstep), _,
    State.holdVerdict_rdc_step hsent hnone _, rfl⟩

theorem completes_verdictTimeout (hg : s.rdc.step = some g) (hown : g.own = true) (htakes : g.takesPart = true)
    (hforwarded : g.forwarded = true) (hnone : g.verdict = none) :
    Completes .verdictTimeout s (fun t => t.ts = max s.ts (g.start + g.voteNs + 8000 * groupLevels s) ∧
      t.rdc.snapStep = s.rdc.gstep ∧
      ∃ q, t.rdc.step = some q ∧ q.selfFault = true ∧ q.verdict = some { Vote.zero with verdict := 2 }) := by
  let late : State := { s with ts := max s.ts (g.start + g.voteNs + 8000 * groupLevels s) }
  have hexec : exec .verdictTimeout s = .next late.faultSelf := by
    change execVerdictTimeout s = _
    unfold execVerdictTimeout
    rw [State.forwardLate_of_forwarded hg hown hforwarded]
    dsimp only
    rw [hg]
    dsimp only
    rw [htakes, hnone]
    exact if_neg Bool.false_ne_true
  rw [State.faultSelf_of_none (s := late) hg hnone] at hexec
  have hstep := State.modStep_rdc_step late fun g => { g with
    verdict := some { Vote.zero with verdict := 2 }
    selfFault := true }
  rw [(hg : late.rdc.step = some g), Option.map_some] at hstep
  exact ⟨_, hexec, rfl, rfl, _, hstep, rfl, rfl⟩

/-- A stale vote or verdict is discarded and counted (R426). -/
theorem stale_counted {k : InboxPacket} (hstale : staleVote s k.packet = true) :
    (s.inbox? (fun k => k.packet.ty == 1 && kindOf k == 3) = some k → Completes .voteReceive s (fun t =>
      t.regAt R.rdcStale = s.regAt R.rdcStale + 1 ∧ t.rdc = s.rdc)) ∧
    (s.inbox? (fun k => k.packet.ty == 1 && kindOf k == 4) = some k → Completes .verdictReceive s (fun t =>
      t.regAt R.rdcStale = s.regAt R.rdcStale + 1 ∧ t.rdc = s.rdc)) := by
  have hstale' : staleVote { s with mgl := { s.mgl with inbox := s.mgl.inbox.erase k } } k.packet = true := hstale
  refine ⟨fun hk => ⟨_, rfl, ?_⟩, fun hk => ⟨_, rfl, ?_⟩⟩
  · rw [takeInbox_of_some hk, takeVote, if_pos hstale']
    exact ⟨State.regAt_setReg_self _ _ _, rfl⟩
  · rw [takeInbox_of_some hk, takeVerdict, if_pos hstale']
    exact ⟨State.regAt_setReg_self _ _ _, rfl⟩

/-- Settles O58: stopping, forwarding and holding keep a step in progress and what a member has cast, so each command's mark is
there at its end. -/
theorem votesComplete : Obligations.VotesComplete :=
  ⟨fun _ _ hg howed => ⟨_, rfl, State.castVote_of_owed hg howed⟩,
    fun _ _ _ hk hfresh hg htakes hwaits hnew hchild => completes_voteReceive hk hfresh hg htakes hwaits hnew hchild,
    fun _ _ hg hown htakes hwaits hnone => completes_voteForwardBound hg hown htakes hwaits hnone,
    fun _ _ _ hk hfresh hg htakes hnone => completes_verdictReceive hk hfresh hg htakes hnone,
    fun _ _ hstale => stale_counted hstale,
    fun _ _ hg hown htakes hforwarded hnone => completes_verdictTimeout hg hown htakes hforwarded hnone⟩

end Sys2Proof.Machine
end
